-- ==== Sys2Proof/Word.lean ====
section
/-! DEFINITION. The word types of the SG-6400 model, the sparse table type, and their plainest arithmetic.
Multi-byte fields are little-endian and bit 0 is the least significant bit (R15, R16). -/

namespace Sys2Proof

/-- One byte of memory or of a descriptor. -/
abbrev Byte := BitVec 8
/-- A 32-bit register or field. -/
abbrev W32 := BitVec 32
/-- A 64-bit register or field. -/
abbrev W64 := BitVec 64
/-- A 64-byte descriptor read as one little-endian number: byte b is bits 8b+7 to 8b (R101, R16). -/
abbrev Descriptor := BitVec 512
/-- A 128-byte Timetable entry or placement block, likewise (R367, R371). -/
abbrev EntryBlock := BitVec 1024
/-- A 48-byte SHA-384 digest. -/
abbrev Digest := BitVec 384

/-- A sparse table: key and value pairs with strictly rising keys and no pair that holds the default value. -/
abbrev Tab (α : Type) := List (Nat × α)

/-- Saturating sum of two naturals under the greatest value m. -/
def satAdd (m a b : Nat) : Nat := if a + b ≤ m then a + b else m

/-- Quotient rounded up. -/
def ceilDiv (a b : Nat) : Nat := if b = 0 then 0 else (a + b - 1) / b

end Sys2Proof
end

