-- ==== Sys2Proof/Syntax.lean ====
section
/-! DEFINITION. The commands of the block: one constructor of `Instr` for each row of opcode_table.json, and the types
of their operands. Rows that are descriptor opcodes name a fetched descriptor by its work number (the order in which the
device fetched it); whatever the device reads from outside (host memory, a pin, a frame, a sensor) is an operand. -/

namespace Sys2Proof

/-- What the host accepts in Flex Bus negotiation (R78). -/
inductive CxlOffer where
  | cxl20 | cxl11 | none
deriving DecidableEq, Repr

/-- The host's side of a link-up: protocol, rate in tenths of GT/s and lane count (R78). -/
structure LinkOffer where
  cxl   : CxlOffer
  rate  : Nat
  width : Nat
deriving DecidableEq, Repr

/-- The phases of bring-up: cold (R642), warm (R668) and the steps of an N3 exit (R69). -/
inductive Phase where
  | c1 | c2 | c3 | c4 | c5 | c6a | c6b | c6c | c6d | c6e | c7 | c8
  | w1 | w2 | w3 | w4 | w5a | w5b | w6 | w7
  | x1 | x2 | x3 | x4 | x5 | x6
deriving DecidableEq, Repr

/-- The first bring-up failure that is not a Stand failure (R645, R672). -/
structure BootFailure where
  kind  : BitVec 4
  unit  : Byte
  cause : Byte
deriving DecidableEq, Repr

/-- What DDR5 training found (R447, R652): the populated channels with their module capacity in tier units of 2 MiB,
the rate code and the DRAM width. -/
structure DdrFound where
  modules : List (Nat × Nat)
  rate    : BitVec 3
  x8      : Bool
deriving DecidableEq, Repr

/-- What a bring-up phase reported when it ended: Stands (Grove, physical) that failed a test or the broadcast twice,
a failure that ends bring-up, what DDR5 training found, the unit kinds whose saved record was refused (R655),
whether training gave settings that differ from those stored (R653), whether the staged image does not match
the flash copy (R669), and the spare lanes that lane repair took on each die link (R29). -/
structure PhaseReport where
  failedStands : List (Nat × Nat) := []
  failure      : Option BootFailure := none
  ddr          : Option DdrFound := none
  rejected     : BitVec 4 := 0
  newSettings  : Bool := false
  stagedStale  : Bool := false
  repairs      : List (Nat × Nat) := []
deriving DecidableEq, Repr

/-- One die's sensor sample (R748, R759). -/
structure SensorObs where
  die     : Nat
  powered : Bool
  temp    : Int
  vmargin : Int
  tmargin : Nat
deriving DecidableEq, Repr

/-- Which cause of R748 has stayed clear for 100,000 ac. -/
inductive ThrottleCause where
  | thermal | current
deriving DecidableEq, Repr

/-- What the host enabled or unmasked (R121). -/
inductive MsixTarget where
  | enable
  | functionUnmask
  | vector (n : Nat)
deriving DecidableEq, Repr

/-- A configuration request of a function (R79, R86, R121): it reads, sets the base the host gives the HDM-D decoder, or sets MSI-X Enable
and Function Mask. -/
inductive CfgOp where
  | read
  | hdmBase (base : W64)
  | msix (enable functionMask : Bool)
deriving DecidableEq, Repr

/-- A configuration request: the function it names, and what it does there. -/
structure CfgReq where
  fn : Nat
  op : CfgOp
deriving DecidableEq, Repr

/-- Who accesses a register: a function through BAR0, or the tray controller over the I3C link (R44). -/
inductive Port where
  | bar0 (fn : Nat)
  | i3c
deriving DecidableEq, Repr

/-- What the HBM code found in the lines an access read: how many it corrected, and the byte address of a line it could not correct (R88,
R675). -/
structure HbmObs where
  corrected : Nat := 0
  bad       : Option Nat := none
deriving DecidableEq, Repr

/-- A read of HBM from outside: its length, and what the HBM code found in its lines. -/
structure HbmRead where
  len : Nat
  obs : HbmObs
deriving DecidableEq, Repr

/-- The end of a search context's read: the query it is of, and what the HBM code found in its lines. -/
structure IndexRead where
  wid : Nat
  obs : HbmObs
deriving DecidableEq, Repr

/-- A debugger's answer to the challenge: its key x ‖ y and its signature r ‖ s, byte 0 in bits 7:0 (R739). -/
structure DebugAnswer where
  key : BitVec 768
  sig : BitVec 768
deriving DecidableEq, Repr

/-- An accumulator that a fault of the array left with another value than its arithmetic gives, when the last group has accumulated:
the array tile of the computation, its row and column, and the value (R241, R247). -/
structure CellErr where
  tile  : Nat := 0
  row   : Nat
  col   : Nat
  value : W32
deriving DecidableEq, Repr

/-- A check value of a line that a fault left with another value (R237, R247): of a column line or a row line, the checksum or the
second value of the line (absolute sum, or weighted sum in an integer format). -/
structure LineErr where
  tile   : Nat := 0
  col    : Bool
  second : Bool
  idx    : Nat
  value  : W32
deriving DecidableEq, Repr

/-- What one of the two output converters gave, by a fault, for an element of a row, or from 128 on for a block's scale (R242). -/
structure ConvErr where
  second : Bool
  row    : Nat
  pos    : Nat
  code   : W32
deriving DecidableEq, Repr

/-- An operand element that this Stand's fetch read as another code, before the input line sums were formed (R247): operand 0 is A, Q
or X, 1 is B, K or Y, 2 is V or Z, 3 the starting accumulators. `row` counts within the tile, `idx` along K or within the chunk. -/
structure FetchErr where
  operand : Nat
  row     : Nat
  idx     : Nat
  code    : W32
deriving DecidableEq, Repr

/-- The checked parts of a vector lane (R259). -/
inductive LanePart where
  | multiplier | adder | table
deriving DecidableEq, Repr

/-- A fault in a vector lane: the element of the chunk it computed, the part, by how much the part's number was off (for a table, which bits of
the word were flipped), and the value the lane gave in the end. -/
structure LaneErr where
  elem  : Nat
  part  : LanePart
  off   : Nat
  value : W32
deriving DecidableEq, Repr

/-- A 64-bit SRAM word with an uncorrectable error: of a Grove's Canopy, or of the Understory of the Stand that reads (R186). -/
structure SramErr where
  canopy : Option Nat := none
  word   : Nat
deriving DecidableEq, Repr

/-- What happened in the hardware of a Stand in one computation of a tile, chunk, unit or batch: its faults, none in a sound run, the
uncorrectable SRAM word it read, the SRAM words it read corrected, and what the HBM code found in the lines it read (R186, R247, R259,
R675). What its checks then see follows from the operands (R237 to R248). -/
structure TileObs where
  fetch     : List FetchErr := []
  cells     : List CellErr := []
  lines     : List LineErr := []
  conv      : List ConvErr := []
  lanes     : List LaneErr := []
  sramBad   : Option SramErr := none
  corrected : Nat := 0
  hbm       : HbmObs := {}
deriving DecidableEq, Repr

/-- A chunk of a DDR5 place: its bytes, and the MAC in side-band bytes 8 to 15 of its first line (R454, R456). -/
structure Chunk where
  bytes : List Byte := []
  mac   : W64 := 0
deriving DecidableEq, Repr

/-- What the DDR5 lines of a block gave (R455, R457): the channel's corrected lines, the lines that stayed uncorrectable after the re-read, and
the chunks that came back otherwise than they were written, on the re-read too: those of the place by number 0 to 7, the record's chunk as 8. -/
structure DdrObs where
  corrected : Nat := 0
  uncorr    : Nat := 0
  changed   : List (Nat × Chunk) := []
deriving DecidableEq, Repr

/-- A block on the wire or in a place: its 16-byte record (R339) and its stored bytes. -/
structure Block where
  record : BitVec 128
  stored : List Byte
deriving DecidableEq, Repr

/-- The OFFER body (R584). -/
structure Offer where
  promptLen : Nat
  prefilled : Nat
  length    : Nat
  genCount  : Nat
  genMax    : Nat
  priority  : Nat
  deadlineKind : Bool
  met       : Bool
  turnEnded : Bool
  tenant    : Nat
  layers    : Nat
  kvHeads   : Nat
  geometry  : Byte
  specHeads : Nat
  items     : Nat
  hbmPages  : Nat
  remoteSlots : Nat
  refItems  : Nat
  budget    : W64
deriving DecidableEq, Repr

/-- The body of a CONTROL message from byte 24 (R583). -/
inductive CtlBody where
  | none
  | offer (o : Offer)
  | grant (credits holdSc : Nat)
  | data (firstItem : Nat) (items : List Block)
  | credit (n : Nat)
  | commit (items : Nat) (budget : W64) (digest : Digest)
  | newEpoch (e : W32)
  | probeReply (owned : Bool) (e : W32)
  | race (group : Nat)
deriving DecidableEq, Repr

/-- A CONTROL message: the header of R582 and its body. -/
structure Ctl where
  ctype  : Byte
  sEntry : Nat
  rEntry : Option Nat
  status : Byte
  reason : Byte
  reqId  : W64
  epoch  : W32
  origin : Nat
  body   : CtlBody
deriving DecidableEq, Repr

/-- A Rail packet: the header of R545 and its data or CONTROL message; `cls` is the class of a page access through a key
slot, which no connection carries (R325); `dlen` is DATA_LEN of a CONTROL packet or a page access, each of which names its whole message. -/
structure Packet where
  op      : BitVec 4
  last    : Bool := false
  poison  : Bool := false
  path    : Nat := 0
  dstConn : Nat
  srcConn : Nat
  srcInc  : W32
  dstInc  : W32
  mseq    : W32 := 0
  offset  : Nat := 0
  mlen    : W32 := 0
  rkey    : W32 := 0
  raddr   : Nat := 0
  operand : W64 := 0
  data    : List Byte := []
  ctl     : Option Ctl := none
  dlen    : Nat := 0
  cls     : Option Nat := none
deriving DecidableEq, Repr

/-- What a frame carries. -/
inductive Payload where
  | none
  | packet (p : Packet)
  | nodeHb (node : Nat) (inc : W32)
  | train (node : Nat) (inc : W32) (lantern : Nat) (version : BitVec 4) (slot : Nat) (nonce : Nat)
deriving DecidableEq, Repr

/-- The header of a frame (R495) and its payload; `len` is LENGTH. -/
structure Frame where
  typ     : BitVec 4
  version : BitVec 4
  cls     : Nat := 0
  mgmt    : Bool := false
  dst     : Nat := 0
  src     : Nat := 0
  len     : Nat := 0
  hops    : Nat := 0
  fseq    : W32 := 0
  ackSeq  : W32 := 0
  payload : Payload := .none
deriving DecidableEq, Repr

/-- The CRC state of a received frame (R498, checks 2 and 3). -/
inductive CrcObs where
  | good | inverted | bad
deriving DecidableEq, Repr

/-- What the receiver's checks 1, 2 and 3 of R498 saw of a frame, and the tag it carried (check 5). The frame itself is named by its
header and its payload in plain. -/
structure FrameObs where
  fecBad : Nat := 0
  crc    : CrcObs := .good
  tag    : BitVec 128 := 0
deriving DecidableEq, Repr

/-- The lanes of a link that locked in training, those whose markers name another node, and whether both ends run one
version on every lane (R490, R491). -/
structure TrainObs where
  up       : List Nat
  miswired : List Nat := []
  versionOk : Bool := true
deriving DecidableEq, Repr

/-- One lane's optical measurement in 0.01 dBm, corrected symbols since the last one, and its lock (R527, R528). -/
structure LaneObs where
  lane    : Nat
  rx      : Int
  tx      : Int
  symCorr : Nat
  locked  : Bool
deriving DecidableEq, Repr

/-- Which die link (R27's order), stack, Station or core a fault names. -/
abbrev UnitNo := Nat

/-- The fields of a firmware manifest (R735), with the digest of its 1,024 bytes and that of the key that signed it (R736); `lengths`
are those of its three firmware objects. -/
structure Manifest where
  svn      : Nat
  revoke   : BitVec 4
  flags    : Byte
  signers  : List Digest
  versions : List W32
  lengths  : List Nat
  digests  : List Digest
  debugKey : Digest
  digest   : Digest
  signer   : Digest := 0
deriving DecidableEq, Repr

/-- Why a unit that an engine watchdog or FT_RESET names is meant (R709: ENGINE_KIND and ENGINE). -/
structure EngineId where
  kind : BitVec 4
  unit : Nat
deriving DecidableEq, Repr

/-- The commands: one constructor per row of opcode_table.json, in the table's order. -/
inductive Instr where
  -- power, clocks and bring-up
  | powerApplied
  | suppliesValid
  | pllLock
  | bringUpPhaseComplete (ph : Phase) (r : PhaseReport)
  | settingsBankWriteComplete (ok : Bool)
  | flashCopyComplete
  | warmResetRequest
  | i3cResetCommand
  | powerRemoved
  | aonSupplyLoss
  | sensorSample (obs : List SensorObs)
  | currentLimitRaise (grove : Nat)
  | throttleLower (grove : Nat) (cause : ThrottleCause)
  | undervoltageTrip (rail : Nat)
  | groveIdleGate (grove : Nat)
  | groveWorkUngate (grove : Nat)
  | pwTargetN0
  | pwTargetN2
  | pwTargetN3
  | pwTargetInvalid (value : BitVec 3)
  | n2EntryComplete
  | n3EntryComplete
  | n2ExitComplete
  | n3ExitComplete
  | wakeNLow
  | perstNAssert
  | perstNDeassert
  | hostHotReset
  | hostLinkDown
  | hostLinkUp (offer : LinkOffer)
  | configRequest (req : CfgReq)
  | ckSnap
  | vfFlr (v : Nat)
  | pfFlr
  | vfEnableClear
  | vfEnableSet (numVfs : Nat)
  | msixVectorUnmask (fn : Nat) (target : MsixTarget)
  -- rings
  | sqEnable (fn ring : Nat) (cfg : W32)
  | sqDisable (fn ring : Nat) (cfg : W32)
  | cqEnable (fn ring : Nat) (cfg : W32)
  | cqDisable (fn ring : Nat) (cfg : W32)
  | tokRingEnable (fn : Nat) (cfg : W32)
  | tokRingDisable (fn : Nat) (cfg : W32)
  | ringConfigWrite (fn off width : Nat) (value : W64)
  | tailLineInvalidation (ring : Nat)
  | tailPoll (ring : Nat)
  | tailReadReturn (ring : Nat) (tail : Option W32)
  | descriptorReadReturn (ring : Nat) (ds : List (Option Descriptor))
  | nop (w : Nat)
  | cqHeadLineRead (ring : Nat) (head : W32)
  | tokHeadLineRead (fn : Nat) (head : W32)
  | cqModTimerExpire (ring : Nat)
  -- host memory window and registers
  | bar2Read (off : Nat) (read : HbmRead)
  | bar2Write (off : Nat) (data : List Byte)
  | cxlMemRead (addr : Nat) (read : HbmRead)
  | cxlMemWrite (addr : Nat) (data : List Byte)
  | registerWrite (by_ : Port) (off width : Nat) (value : W64)
  -- image control
  | imageLoad (w : Nat)
  | imageCheck (w : Nat)
  | drainBegin (w : Nat)
  | drainEnd (w : Nat)
  | imageReadComplete (data : Option (List Byte))
  | drainReached
  | drainWaitExpire
  | imageApplyComplete
  | applyFault
  -- Grove arithmetic and checks
  | matmul (w : Nat)
  | matmulSparse (w : Nat)
  | vector (w : Nat)
  | canopyLoad (w : Nat)
  | canopyLoadComplete (w : Nat)
  | canopyFree (w : Nat)
  | canopyFreeComplete (w : Nat)
  | tileDispatch (w tile : Nat)
  | affinityWaitExpire (w tile : Nat)
  | tileComplete (w tile : Nat) (obs : TileObs)
  | standRetireTilesCleared (grove physical : Nat)
  | vectorChunkComplete (w chunk : Nat) (obs : TileObs)
  | waybillSignatureComplete
  | waybillRead (w : Nat)
  | waybillSeal (w : Nat)
  | waybillMeasure (w : Nat)
  | waybillMeasureComplete (w : Nat)
  -- key-value pages and attention
  | kvListCreate (w : Nat)
  | kvScatter (w : Nat)
  | scatterTurn (w seq : Nat)
  | attend (w : Nat)
  | commitWaitSatisfied (w seq : Nat)
  | commitWaitExpire (w seq : Nat)
  | attendUnitComplete (w unit : Nat) (obs : TileObs)
  | attendBackward (w : Nat)
  | kvFreeze (w : Nat)
  | kvSpill (w : Nat)
  | rebindPageReturn (pool page : Nat)
  | kvFetch (w : Nat)
  | kvListFree (w : Nat)
  | kvListFreeComplete (w : Nat)
  | kvKeyslotSet (w : Nat)
  | blockExpand (read : Nat)
  | ddr5ReadReturn (read : Nat) (obs : DdrObs)
  -- Timetable
  | ttPlace (w : Nat) (block : EntryBlock)
  | ttCancel (w : Nat)
  | ttSnapshot (w : Nat)
  | ttMove (w : Nat)
  | ttPark (w : Nat)
  | ttResume (w : Nat)
  | ttFree (w : Nat)
  | ttProgram (w : Nat)
  | ttRaceOpen (w : Nat)
  | ttRaceClose (w : Nat)
  | stepStart (p : Nat)
  | stepEntryComplete (p : Nat) (selDiffer : List Nat)
  | stepEnd (p : Nat)
  | budgetExpire (entry : Nat)
  | raceJoin (src : Nat) (m : Ctl)
  | raceClaim (src : Nat) (m : Ctl)
  | raceGrant (src : Nat) (m : Ctl)
  | raceRefuse (src : Nat) (m : Ctl)
  | raceCancel (src : Nat) (m : Ctl)
  | raceCancelAck (src : Nat) (m : Ctl)
  | release (src : Nat) (m : Ctl)
  | lost (src : Nat) (m : Ctl)
  | cancel (src : Nat) (m : Ctl)
  | cancelDone (src : Nat) (m : Ctl)
  -- DDR5 tier
  | mtDdrDeclare (w : Nat) (map : List Nat)
  | ddrRecordInitComplete (w : Nat)
  | mtDdrSeal (w : Nat)
  | mtDdrUnseal (w : Nat)
  | mtDdrRetire (w : Nat)
  | ddrRegionInFlightDrained (region : Nat)
  | mtStore (w : Nat)
  | mtLoad (w : Nat)
  | mtDdrPin (w : Nat)
  | mtTenantWrite (tenant : Nat) (isCap : Bool) (value : W32)
  -- Rail links
  | lightOn (lantern link : Nat)
  | train (lantern link : Nat) (f : Frame) (obs : TrainObs)
  | keyConfirm (lantern link : Nat) (f : Frame) (tag : BitVec 128)
  | trainingTimeout (lantern link : Nat)
  | linkRetryTimer (lantern link : Nat)
  | laneLoss (lantern lane : Nat)
  | laneUp (lantern lane : Nat)
  | lnRetrain (lantern : Nat) (mask : BitVec 2)
  | linkHbSend (lantern link : Nat)
  | linkTimeout (lantern link : Nat)
  | linkHb (lantern link : Nat) (f : Frame) (obs : FrameObs)
  | dataFrame (lantern link : Nat) (f : Frame) (obs : FrameObs)
  | ackFrame (lantern link : Nat) (f : Frame) (obs : FrameObs)
  | nakFrame (lantern link : Nat) (f : Frame) (obs : FrameObs)
  | fillFrame (lantern link : Nat)
  | frameBoundary (lantern link : Nat)
  | peerEntersN3
  | peerLeavesN3
  | wake (lantern link : Nat) (f : Frame) (obs : FrameObs)
  | nodeHbSend
  | nodeHb (lantern link : Nat) (f : Frame) (obs : FrameObs)
  | livenessPeriod
  | deadNotice (lantern link : Nat) (f : Frame) (obs : FrameObs)
  | opticalSample (lantern : Nat) (obs : List LaneObs)
  | lnWatchWrite (w : Nat) (value : W32)
  | lnNodeIdWrite (value : W32)
  -- Rail connections
  | rlCreate (w : Nat)
  | rlCreateUnitsReserved (w : Nat)
  | rlCreateWaitExpire (w : Nat)
  | rlConnect (w : Nat)
  | helloResend (conn : Nat)
  | rlConnectWaitExpire (conn : Nat)
  | rlClose (w : Nat)
  | rlSend (w : Nat)
  | rlRecv (w : Nat)
  | rlWrite (w : Nat)
  | rlRead (w : Nat)
  | rlAtomic (w : Nat)
  | rlFence (w : Nat)
  | rlRegister (w : Nat)
  | rlRevoke (w : Nat)
  | rlTriggerSet (w : Nat)
  | railRequestIssue (w : Nat)
  | armedRequestIssue (w : Nat)
  | retxTimer (conn : Nat) (mseq : W32) (offset : Nat)
  | rlTimeoutExpire (w : Nat)
  | sendEffect (conn : Nat)
  | writeEffect (conn : Nat)
  | readReqEffect (conn : Nat)
  | faddEffect (conn : Nat)
  | cswapEffect (conn : Nat)
  -- handoff
  | offer (conn : Nat) (m : Ctl)
  | grant (conn : Nat) (m : Ctl)
  | refuse (conn : Nat) (m : Ctl)
  | handoffItemSend (entry : Nat) (stream : List Byte)
  | handoffData (conn : Nat) (m : Ctl)
  | handoffItemWritten (entry item : Nat)
  | credit (conn : Nat) (m : Ctl)
  | commit (conn : Nat) (m : Ctl)
  | abort (conn : Nat) (m : Ctl)
  | accept (src : Nat) (m : Ctl)
  | acceptAcknowledged (entry : Nat)
  | handoffTimerExpire (entry : Nat)
  | probe (src : Nat) (m : Ctl)
  | probeReply (src : Nat) (m : Ctl)
  | handoffUnitsReserved (conn : Nat)
  | handoffPlatformWaitExpire (conn : Nat)
  -- Clearing search
  | csQuery (w : Nat)
  | searchContextAllocate (w : Nat)
  | indexReadReturn (read : IndexRead)
  | distanceBatchComplete (w : Nat) (obs : TileObs)
  | csIndexLoad (w : Nat)
  | indexCopyComplete (w : Nat) (data : List Byte)
  | csDelete (w : Nat)
  -- faults, hangs and recovery
  | faultQuietExpire
  | errNPulseEnd
  | dieLinkFlitCrcFail (link : Nat)
  | dieLinkFailed (link : Nat)
  | stateSramFault (station : Nat) (addr : W64)
  | controlCoreFault (core : W64)
  | contextWatchdog (w : Nat)
  | engineWatchdog (e : EngineId) (ctx : Option Nat)
  | partitionWatchdog (p : Nat)
  | chipWatchdog (station : Nat)
  | resetLimitExpire (record : Nat)
  | chipResetReadyTimeout
  | ftResetEngine (unit : Nat)
  | ftResetPartition (unit : Nat)
  | ftResetChip (unit : Nat)
  | functionDisable (value : BitVec 5)
  | functionDisableDrainEnd (fn : Nat)
  | hbmPatrolScrub (stack : Nat)
  | hbmPeriodicRetrain (stack : Nat)
  | ddr5PeriodicCalibration (channel : Nat)
  | possessionGrant
  | maintenanceComplete (domain : Nat) (badLines : List Nat)
  | retrainRetryTimer (lantern link : Nat)
  | contextSave (fn ctx : Nat)
  | contextSaved (ctx : Nat)
  | contextRestore (fn ctx : Nat)
  | contextRestoreUnitsReserved (ctx : Nat)
  | contextResetRequest (fn ctx : Nat)
  | semAcquire (fn tenant sem ctx : Nat)
  | semRelease (fn tenant sem ctx : Nat)
  | injectionArm (value : W64)
  -- tenancy and trust
  | tenantSwitch (p : Nat) (tenants : BitVec 16)
  | firstMapping (p : Nat) (tenants : BitVec 16)
  | tenantSwitchDrainEnd (p : Nat)
  | tenantSwitchScrubComplete (p : Nat)
  | tnCtxWrite (ctx : Nat) (value : W32)
  | tnVfWrite (v : Nat) (value : W32)
  | retireDdrIndex (tenant : Nat)
  | retireRemoteIndex (tenant : Nat)
  | fabricSlotWrite (tenant : Nat) (slot : BitVec 2)
  | svnCommit (key : BitVec 16)
  | attestationGo
  | attestationReportDone
  | debugUnlock (answer : DebugAnswer)
  | firmwareSetWrite (manifest : List Byte) (objects : List (List Byte))
  | registerReadClear (by_ : Port) (off width : Nat)
  | blockCodingComplete (w block : Nat) (stream : List Byte)
  | tokModTimerExpire (fn : Nat)
  | firmwareBroadcastRequest
  | svnCommitDone
  | retirementFlashWriteComplete
  | sidebandSupplyLoss
deriving DecidableEq, Repr

end Sys2Proof
end

