-- ==== Sys2Proof/Decode.lean ====
section
/-! DEFINITION. The decoder of the table's words. The table gives no row any bit: a command is no word, it is an access, a
descriptor or an event with its operands, so no word spells one. -/

namespace Sys2Proof

/-- The command a word of `nbits` bits spells by the bits of opcode_table.json: none, since no row has bits. (DESIGN CHOICE, log entry 5.) -/
def decodeTableWord (_nbits _w : Nat) : Option Instr := none

end Sys2Proof
end

