-- ==== Sys2Proof/Machine/State.lean ====
section
/-! DEFINITION. The state of the block as plain data: every register, table, buffer, queue, mode and pin the spec gives the
device, the queue of commands waiting, the reasons a command can stop, and the state right after a cold reset.
Counters the spec says do not wrap within the life of the device are naturals; registers software writes and fields
that wrap or saturate at a stated width are bit vectors. -/

namespace Sys2Proof.Machine

/-! ## Faults and refusals -/

/-- Reasons a command could stop with a fault. No command of the table does: an error the device detects is a fault
RECORD in its state (R676), and the device runs on. -/
inductive Fault where
  /-- Raised by no command of this model (safe). -/
  | unreachable
deriving DecidableEq, Repr

/-- Reasons a command could be refused. -/
inductive Refusal where
  /-- Raised by a row whose meaning is not written yet: none in this model (safe). -/
  | notModelled (mnemonic : String)
deriving DecidableEq, Repr

/-! ## Codes shared by all chapters -/

/-- The completion status codes (R120). -/
inductive Status where
  | ok | okShort | okRecomputed | checkFail | lengthMismatch | codeInvalid | crcFail | poisonConsumed
  | admitMemory | admitTime | platformExhausted | regionRevoked | keyInvalid | peerDead | remoteTimeout
  | ownershipLost | stateLost | partnerLost | functionDisabled | cancelled | raceLost | possessionBusy
  | tenantMismatch | malformed | internal
deriving DecidableEq, Repr

/-- The two ordering grades (R1, R4). -/
inductive Grade where
  | x | g
deriving DecidableEq, Repr

/-- The role a Collys image gives the node (R2). -/
inductive Role where
  | prompt | generation | cache
deriving DecidableEq, Repr

/-! ## Outputs: what the device has sent out, oldest first (the model's own record) -/

/-- A completion or event record (R113); `counted` says whether it counts toward interrupt moderation (R122), `since` is the sc of the
descriptor's fetch, from which EXEC_SC counts to the record's write. -/
structure Rec where
  tag      : W32
  status   : Byte
  opcode   : Byte
  sq       : Byte
  sqPos    : W32
  context  : BitVec 12
  result   : W64
  execSc   : W32
  phase    : Bool
  faultRef : BitVec 16
  counted  : Bool
  since    : Option Nat := none
deriving DecidableEq, Repr

/-- A token record (R400). -/
structure TokRec where
  entry    : Nat
  first    : Bool
  last     : Bool
  position : W32
  tokens   : List W32
  step     : W32
  phase    : Bool := false
deriving DecidableEq, Repr

/-- What a function advertises in configuration space (R79, R82, R84, R89): BAR sizes in bytes, 0 where it has none. -/
structure Caps where
  cxlType     : Nat
  flitBytes   : Nat
  hdmDecoders : Nat
  ats         : Bool
  pri         : Bool
  pasid       : Bool
  bar0        : Nat
  bar2        : Nat
  totalVfs    : Nat
  vfBar0      : Nat
deriving DecidableEq, Repr

/-- What leaves the device. Every address is untranslated, and its requester is the function named, or the one that owns the ring
(R79). (DEDUCED, log entry 6.) -/
inductive Out where
  /-- a completion or event record written for a position of a completion ring, at its slot's address in the host's memory -/
  | record (ring : Nat) (pos : W32) (addr : Nat) (bytes : List Byte)
  /-- a token record written for a position of a function's token ring -/
  | token (fn : Nat) (pos : W32) (addr : Nat) (bytes : List Byte)
  /-- an MSI-X message of a global vector -/
  | msix (vec : Nat)
  /-- a read of a submission ring's tail line, of descriptors from a slot's address on, and of a head line -/
  | tailRead (ring addr : Nat)
  | descRead (ring : Nat) (first : W32) (addr count : Nat)
  | cqHeadRead (ring addr : Nat)
  | tokHeadRead (fn addr : Nat)
  /-- the value a register read returned -/
  | regRead (fn off : Nat) (value : W64)
  /-- a BAR2 or CXL.mem read: its data and whether it carries poison; or Unsupported Request -/
  | memData (data : List Byte) (poison : Bool)
  | unsupportedRequest
  /-- how a configuration request completed -/
  | cfgRetry (fn : Nat)
  | cfgOk (fn : Nat) (caps : Caps)
  /-- bytes written to host memory outside the rings, by the function that is the requester -/
  | hostWrite (fn addr : Nat) (data : List Byte)
  /-- a read of host memory issued (image, index, placement), by the function that is the requester -/
  | hostRead (fn addr len : Nat)
  /-- a frame sent on a link: its content and its bytes, the payload encrypted (R495, R501); `stomped` is the inverted CRC of R509 -/
  | frame (lantern link : Nat) (f : Frame) (wire : List Byte) (stomped : Bool)
deriving DecidableEq, Repr

/-! ## Identity: fuses and flash -/

/-- The Lodge fuses (R9, R25, R729, R737, R742). -/
structure Fuses where
  grade      : Grade
  stepping   : BitVec 4
  hbm        : Byte
  yard       : BitVec 2
  station    : BitVec 2
  grove      : BitVec 4
  fusedBad   : List (Nat × Nat)
  fabric     : BitVec 4
  fwKeys     : List Digest
  keyRevoked : BitVec 4
  svn        : Nat
  cert       : List Byte
deriving DecidableEq, Repr

/-- A tenant's key-derivation indices and fabric slot (R732, R743). -/
structure Keys where
  ddr    : BitVec 16 := 0
  remote : BitVec 16 := 0
  fabric : BitVec 2 := 0
deriving DecidableEq, Repr

/-- What the flash holds (R648): the image copy, the retired list, node ID, incarnation, key indices, saved settings,
LD_BOOT_CTRL, the firmware sets; `repairs` are the lane repairs among the settings (R29), lanes by die link. -/
structure Flash where
  image        : Option (List Byte)
  retired      : List (Nat × Nat)
  nodeId       : Option (BitVec 7)
  incarnation  : W32
  keys         : Tab Keys
  setSeq       : BitVec 16
  setBank      : Bool
  clearRetired : Bool
  floorplan    : Bool
  active       : Manifest
  inactive     : Option Manifest
  repairs      : Tab Nat := []
deriving DecidableEq, Repr

/-! ## Clocks and power (chapters 02 and 19) -/

/-- Clock registers (R55 to R58) and the two dividers of each Grove as codes 0 to 3 for ÷4, ÷5, ÷6, ÷8 (R748). -/
structure Clk where
  sc            : Nat := 0
  ac            : Nat := 0
  snapSc        : W64 := 0
  snapAc        : W64 := 0
  throttleCount : BitVec 16 := 0
  ddrRate       : BitVec 3 := 0
  pllLock       : Bool := false
  therm         : Tab Nat := []
  cur           : Tab Nat := []
  n3Sc          : Nat := 0
  n3Ac          : Nat := 0
deriving DecidableEq, Repr

/-- The power states (R61). -/
inductive PState where
  | off | n0 | n1 | n2 | n3
deriving DecidableEq, Repr

/-- A power-state transition under way (R64, R75). -/
inductive Trans where
  | toN2
  | toN3 (reachedN2 : Bool)
  | fromN2
  | fromN3
deriving DecidableEq, Repr

/-- PW_SENSOR of one die (R759). -/
structure Sensor where
  valid   : Bool := false
  temp    : Byte := 0
  vmargin : BitVec 11 := 0
  tmargin : BitVec 12 := 0
deriving DecidableEq, Repr

/-- Power state, PW_ registers, trip and pins (R44, R73, R76, R77, R683, R750, R760). -/
structure Power where
  st          : PState := .n0
  trans       : Option Trans := none
  n1Idle      : BitVec 12 := 0x400
  target      : BitVec 3 := 0
  wakeCause   : BitVec 7 := 0
  refuse      : Byte := 0
  gated       : BitVec 4 := 0
  sensors     : Tab Sensor := []
  tripped     : Bool := false
  tripCause   : BitVec 2 := 0
  tripUnit    : Byte := 0
  supplies    : Bool := false
  sideband    : Bool := true
  errnPulse   : Bool := false
  errnTrip    : Bool := false
  pwrcycLow   : Bool := false
  perstLow    : Bool := true
  copyWait    : Bool := false
deriving DecidableEq, Repr

/-! ## Bring-up (chapter 16) -/

/-- LD_BOOT.STAGE (R671). -/
inductive Stage where
  | lodge | porters | couplings | testsTraining | mapFirmware | image | ready | failed
deriving DecidableEq, Repr

/-- LD_BOOT.PATH (R671). -/
inductive BootPath where
  | cold | warmFast | warmSlow | n3Exit
deriving DecidableEq, Repr

/-- Bring-up registers and progress (R642, R668, R671, R672). `done` holds the phases ended on the path under way,
`floor` says whether the map in force was built in floor-plan mode (R665), `mapped` whether one has been built, `repairs` are the spare
lanes in use on each die link (R29). -/
structure Boot where
  stage     : Stage := .lodge
  path      : BootPath := .cold
  cause     : BitVec 2 := 0
  ovrRej    : Byte := 0
  setRej    : BitVec 4 := 0
  warms     : Byte := 0
  fail      : Option BootFailure := none
  bootAc    : Nat := 0
  startAc   : Nat := 0
  savePend  : Bool := false
  done      : List Phase := []
  failTest  : List (Nat × Nat) := []
  coldOk    : Bool := false
  chipReset : Bool := false
  floor     : Bool := false
  mapped    : Bool := false
  repairs   : Tab Nat := []
deriving DecidableEq, Repr

/-! ## Host attachment (chapter 03) -/

/-- HI_LINK.MODE (R78, R81). -/
inductive LinkMode where
  | down | cxl2 | cxl1 | pcie | degraded
deriving DecidableEq, Repr

/-- HI_SQ_STATUS.STATE (R95). -/
inductive SqState where
  | disabled | running | draining | error
deriving DecidableEq, Repr

/-- A submission ring (R95): its registers, whether a tail read is outstanding, whether the line was lost again during
that read (R108), and the descriptor reads outstanding. -/
structure Sq where
  base     : W64 := 0
  tailAddr : W64 := 0
  enable   : Bool := false
  polled   : Bool := false
  logSize  : BitVec 5 := 6
  cq       : Byte := 0
  st       : SqState := .disabled
  err      : Byte := 0
  head     : W32 := 0
  tail     : W32 := 0
  reading  : Bool := false
  reread   : Bool := false
  fetching : Nat := 0
deriving DecidableEq, Repr

/-- A completion ring (R96): its registers, the head last read, the records held for room (R116), the moderation count
and whether its timer runs (R122). -/
structure Cq where
  base     : W64 := 0
  headAddr : W64 := 0
  enable   : Bool := false
  polled   : Bool := false
  logSize  : BitVec 5 := 6
  vector   : BitVec 11 := 0
  irqEn    : Bool := false
  modCount : Byte := 1
  modTime  : BitVec 24 := 0
  tail     : W32 := 0
  stall    : W32 := 0
  head     : W32 := 0
  held     : List Rec := []
  count    : Nat := 0
  timer    : Bool := false
deriving DecidableEq, Repr

/-- A function's token ring (R402). -/
structure Tok where
  base     : W64 := 0
  headAddr : W64 := 0
  enable   : Bool := false
  polled   : Bool := false
  logSize  : BitVec 5 := 6
  vector   : BitVec 11 := 0
  irqEn    : Bool := false
  modCount : Byte := 1
  modTime  : BitVec 24 := 0
  tail     : W32 := 0
  stall    : W32 := 0
  head     : W32 := 0
  held     : List TokRec := []
  count    : Nat := 0
  timer    : Bool := false
deriving DecidableEq, Repr

/-- HI_CFG_ERR (R98). -/
structure CfgErr where
  valid : Bool := false
  cause : Byte := 0
  kind  : BitVec 2 := 0
  ring  : Byte := 0
deriving DecidableEq, Repr

/-- How far the disabling of a function has come (R696): it drains, or only work that runs to its end is left. -/
inductive Disabling where
  | no | draining | ending
deriving DecidableEq, Repr

/-- The registers each function has its own copy of (R98, R118, R119, R402, R708), its MSI-X capability bits (R121), its disable
(R696) and the tenant that takes effect when that ends (R714). -/
structure FnRegs where
  cfgErr    : CfgErr := {}
  evtEnable : Bool := false
  evtCq     : Byte := 0
  lost      : W32 := 0
  tok       : Tok := {}
  ctxRes    : Option Byte := none
  semRes    : Option Byte := none
  msixEn    : Bool := false
  fmask     : Bool := false
  disabling : Disabling := .no
  newTenant : Option W32 := none
deriving DecidableEq, Repr

/-- One MSI-X vector (R121). -/
structure Msix where
  addr : W64 := 0
  data : W32 := 0
  mask : Bool := true
  pend : Bool := false
deriving DecidableEq, Repr

/-- The host port (R78 to R125). Rings and vectors are numbered device-wide (R91, R121); `hdmBase` is the base the host gives the HDM-D
decoder (R86), `served` the submission rings that have had their turn in the round of fetching under way (R104). -/
structure HostIf where
  mode     : LinkMode := .down
  rate     : BitVec 3 := 0
  width    : BitVec 3 := 0
  linkups  : Byte := 0
  poll     : BitVec 21 := 0xDAC
  fns      : Tab FnRegs := []
  sqs      : Tab Sq := []
  cqs      : Tab Cq := []
  msix     : Tab Msix := []
  vfEnable : Bool := false
  numVfs   : Nat := 0
  hdmBase  : W64 := 0
  served   : List Nat := []
deriving DecidableEq, Repr

/-! ## Descriptors in flight -/

/-- Where a piece of work came from: a position of a submission ring, or entry `i` of a partition's step. -/
inductive Src where
  | ring (n : Nat) (pos : W32)
  | step (p i : Nat)
deriving DecidableEq, Repr

/-- Which computation of a tile a Stand runs (R241, R249, R256, R257). -/
inductive TileKind where
  | first | recompute | cross | arbitrate
deriving DecidableEq, Repr

/-- What a computation gave: by row its codes and its scales, and how many elements were clamped or wrapped (R215, R218). -/
structure TileOut where
  rows    : List (List Nat × List Nat) := []
  clamped : Nat := 0
deriving DecidableEq, Repr

/-- A computation that passed its check and waits to be compared: its Stand, the physical Stand it ran on, its output (R256). -/
structure Passed where
  stand : Nat × Nat
  phys  : Nat
  out   : TileOut
deriving DecidableEq, Repr

/-- A tile, chunk or unit that has started or waits: the Stand (Grove, logical) running it, its physical Stand and since which sc,
the mapping of its latest computation (R249), the Stands that computed it (latest first), the Grove of the first of them (R275), the
passing computations, recomputations so far, whether it is sampled, the affinity rank it waits at (R230, R231), and whether it is
already poisoned and runs only to charge a Stand (R258). -/
structure TileSt where
  idx       : Nat
  running   : Option (Nat × Nat) := none
  phys      : Nat := 0xFF
  since     : Nat := 0
  kind      : TileKind := .first
  transposed : Bool := false
  computed  : List (Nat × Nat) := []
  home      : Option Nat := none
  passed    : List Passed := []
  recomputes : Nat := 0
  sampled   : Bool := false
  rank      : Nat := 1
  again     : Bool := false
  dead      : Bool := false
deriving DecidableEq, Repr

/-- The checking counts of an operation (R218, R264), the exponent in force for it, its number for sampling (R255), the record
its completion names, and the Stands that ran it, latest first (R230). -/
structure ChkCnt where
  firsts     : Nat := 0
  recomputed : Nat := 0
  xchecked   : Nat := 0
  failed     : Nat := 0
  unchecked  : Nat := 0
  xk         : Nat := 16
  opSeq      : Nat := 0
  faultRef   : BitVec 16 := 0
  last       : List (Nat × Nat) := []
deriving DecidableEq, Repr

/-- A matrix or vector operation: tiles (or chunks) in all, the next to start, those open, what it has done, and the partial results of
the chunks of SUM or AMAX (R223). -/
structure TileOp where
  total      : Nat
  next       : Nat := 0
  live       : List TileSt := []
  written    : Nat := 0
  clamped    : Nat := 0
  worst      : Status := .ok
  cnt        : ChkCnt := {}
  parts      : List (Nat × Nat) := []
deriving DecidableEq, Repr

/-- Where a sequence of a scatter or attention operation stands (R292, R302). -/
inductive SeqPhase where
  | waiting | running | done
deriving DecidableEq, Repr

/-- A sequence of a scatter or attention operation: its phase, status, and work units left (R303). -/
structure SeqSt where
  phase  : SeqPhase := .waiting
  status : Status := .ok
  cause  : Byte := 0
  units  : Nat := 0
deriving DecidableEq, Repr

/-- An attention unit that has ended: what poisoned it, if anything did, whether it was computed again, and its rows (R304). -/
structure UnitEnd where
  unit  : Nat
  bad   : Option Status := none
  again : Bool := false
  out   : TileOut := {}
deriving DecidableEq, Repr

/-- A scatter or attention operation: its sequences, the units that run or wait, those that have ended. -/
structure SeqOp where
  seqs  : List SeqSt
  parts : List TileSt := []
  ended : List UnitEnd := []
  cnt   : ChkCnt := {}
deriving DecidableEq, Repr

/-- An operation that codes or expands blocks: blocks in all, blocks ended, stored 64-byte units, delivered blocks, the
worst status by R352, pages already taken (R321), and the remote writes not yet acknowledged (R318). -/
structure BlockOp where
  total     : Nat
  ended     : Nat := 0
  stored64  : Nat := 0
  delivered : Nat := 0
  worst     : Status := .ok
  faultRef  : BitVec 16 := 0
  pages     : List (Nat × Nat) := []
  badPages  : List Nat := []
  endedIdx  : List Nat := []
  acks      : List W32 := []
deriving DecidableEq, Repr

/-- A Rail work request (R548 to R550): whether it has issued, its first and last MSEQ and message count, the bytes a read
or atomic has received, and poison seen. -/
structure RailOp where
  issued    : Bool := false
  firstMseq : W32 := 0
  lastMseq  : W32 := 0
  msgs      : Nat := 0
  got       : List (Nat × Nat) := []
  old       : W64 := 0
  poison    : Bool := false
  reset     : Option Status := none
deriving DecidableEq, Repr

/-- A distance batch of a query: the nodes it computes, and where it stands on a Stand (R634). -/
structure DistBatch where
  nodes : List Nat
  tile  : TileSt
deriving DecidableEq, Repr

/-- The progress of a Clearing query (R627, R633, R634): the Station of its search context, whether its query and entries have been
read, the sets of R627 with their distances, the node whose neighbour list is being read, nodes still to visit, and the distance
batches, two at most, that run or wait for a Stand. -/
structure QueryOp where
  station  : Option Nat := none
  started  : Bool := false
  visited  : List Nat := []
  frontier : List (Nat × Nat) := []
  beam     : List (Nat × Nat) := []
  expand   : Option Nat := none
  toVisit  : List Nat := []
  live     : List DistBatch := []
  batches  : Nat := 0
  tombs    : Nat := 0
  limit    : Bool := false
  recomp   : Bool := false
  cnt      : ChkCnt := {}
deriving DecidableEq, Repr

/-- The stages of an image-control operation (R170). -/
inductive ImgStage where
  | queued | reading | draining | possess | applying
deriving DecidableEq, Repr

/-- What a step gives its waybill record (R264); a leaf is its tenant and its bytes after the salt (R266). -/
structure StepInfo where
  kind       : Nat
  context    : Nat := 0
  tenant     : Nat := 0
  status     : Status
  tiles      : Nat := 0
  recomputed : Nat := 0
  xchecked   : Nat := 0
  failed     : Nat := 0
  unchecked  : Nat := 0
  xk         : Nat := 16
  regions    : List Nat := []
  desc       : List Byte := []
  leaves     : List (Nat × List Byte) := []
deriving DecidableEq, Repr

/-- What a started descriptor is doing. -/
inductive Prog where
  | waiting
  | ended (x : StepInfo) (result : Nat) (fr : BitVec 16)  -- ended, its record waiting for room (R271)
  | tiles (t : TileOp)
  | canopyLoad (grove slot : Nat)
  | canopyFree (grove slot : Nat)
  | image (st : ImgStage)
  | measure (region : Nat)
  | seal (p seq : Nat)
  | scatter (o : SeqOp)
  | attend (o : SeqOp)
  | list                        -- a list operation that waits for its turn's end (R322, R324)
  | coding (b : BlockOp)        -- KV_SPILL COPY, MT_STORE
  | fetching (b : BlockOp)      -- KV_FETCH, MT_LOAD
  | remoteAck (b : BlockOp)     -- a remote COPY whose writes await acknowledgement (R318)
  | ddr (region : Nat)          -- a tier operation waiting for R450
  | ddrInit (region : Nat)      -- record places being written (R458)
  | ddrEvict (units : Nat) (map : List Nat)  -- a declaration waiting for evictions (R465)
  | create (conn : Nat)         -- RL_CREATE waiting for units
  | conn (conn : Nat)           -- RL_CONNECT or RL_CLOSE
  | rail (r : RailOp)
  | posted                      -- an RL_RECV
  | revoke (slot : Nat)
  | boundary (entry : Nat)      -- a Timetable operation waiting for its step boundary or ACCEPTING
  | move (entry : Nat)          -- a TT_MOVE whose handoff runs
  | forwarded (entry : Nat)     -- a TT_CANCEL forwarded from a STUB
  | program (p : Nat)           -- a TT_PROGRAM waiting for the step boundary
  | query (q : QueryOp)
  | indexLoad (region : Nat)
deriving DecidableEq, Repr

/-- A descriptor fetched and not completed (R99, R104): its number in fetch order, its header (R101), its 64 bytes, the
sc of its fetch, and the tenant and partition its context had when it was fetched (R715). An orphan was fetched before a host-port
reset: its record can be written no more (R123, R124). `notUnsealed` says that it writes a DDR5 region that was not UNSEALED when it was
fetched (R452). -/
structure Work where
  wid     : Nat
  src     : Src
  fn      : Nat
  tag     : W32
  opcode  : Byte
  context : Nat
  fence   : Bool
  irq     : Bool
  silent  : Bool
  body    : Descriptor
  fetchSc : Nat
  tenant  : Nat
  part    : Nat
  prog    : Prog := .waiting
  orphan  : Bool := false
  notUnsealed : Bool := false
deriving DecidableEq, Repr

/-! ## The Collys image (chapter 04) -/

/-- A region of the image (R139). -/
structure Region where
  id     : Nat
  kind   : Nat
  flags  : BitVec 8
  part   : Nat
  grove  : Nat
  stackSel : BitVec 2
  offset : Nat
  size   : Nat
deriving DecidableEq, Repr

/-- A partition of the image (R134). -/
structure PartCfg where
  groves  : BitVec 8
  share   : Nat
  units   : Nat
  classes : BitVec 8
deriving DecidableEq, Repr

/-- A class of a Lantern's table (R147). -/
structure ClassCfg where
  weight : Nat
  burst  : Nat
  openAt : Nat
  closeAt : Nat
deriving DecidableEq, Repr

/-- A Lantern's block (R147). -/
structure LanternCfg where
  v2Lanes : BitVec 16
  period  : Nat
  classes : List ClassCfg
deriving DecidableEq, Repr

/-- An image in force, its sections decoded (R134 to R158), its identifier, TOOL_VERSION and digest. -/
structure Image where
  role       : Role
  parts      : List PartCfg
  fixed      : Bool
  duties     : List Nat
  regions    : List Region
  ttEntries  : List Nat
  ttSplit    : List (List Nat)
  pfMin      : List (List Nat)
  pfCap      : List (List Nat)
  lanterns   : BitVec 8
  lanternCfg : List LanternCfg
  onFail     : Bool
  recompute  : Nat
  xcheckK    : Nat
  waybillN   : Nat
  formats    : BitVec 16
  srFormats  : BitVec 16
  overrides  : List (Nat × Nat × Nat)
  firmware   : List (W32 × Digest)
  imageId    : W64
  tool       : W32
  digest     : Digest
deriving DecidableEq, Repr

/-- CI_ERR (R181). -/
structure CiErr where
  valid : Bool := false
  entry : BitVec 12 := 0
  sect  : Byte := 0
  cause : Byte := 0
deriving DecidableEq, Repr

/-- CI_STATUS.STATE (R180). -/
inductive CiState where
  | active | loading | unconfigured
deriving DecidableEq, Repr

/-- Image control (R163 to R182): the image in force, the staged one, the image whose flash copy is being written. -/
structure ImageCtl where
  image     : Option Image := none
  staged    : Option (Image × List Byte) := none
  copying   : Option (List Byte) := none
  loads     : BitVec 16 := 0
  flashCopy : Bool := true
  ovrPend   : Bool := false
  draining  : Bool := false
  st        : CiState := .unconfigured
  err       : CiErr := {}
  xcheck    : Tab (BitVec 5) := []
deriving DecidableEq, Repr

/-! ## Groves and Stands (chapters 05, 06, 16) -/

/-- GV_PHYS.STATE (R656). -/
inductive PhysState where
  | active | spare | unused | fusedBad | failedTest | retired
deriving DecidableEq, Repr

/-- A physical Stand (R656, R673): its state, logical ID, charges (R260) and whether a retirement is under way (R660). -/
structure Phys where
  st       : PhysState := .active
  logical  : Option Nat := none
  charges  : Nat := 0
  retiring : Bool := false
deriving DecidableEq, Repr

/-- What a tile resident in a Stand's Understory holds (R224): a key-value page of a list, or a tile of an operand by the region or
Canopy slot and the byte where it lies. -/
inductive ResKey where
  | page (list n : Nat)
  | tile (canopy : Bool) (id off : Nat)
deriving DecidableEq, Repr

/-- A resident tile: its bytes, and whether one of its words has an uncorrectable error (R186). Its contents are those of the place it
was read from: committed rows never change, and an operand tile is read again once its place is written (R224, R327). -/
structure ResTile where
  key   : ResKey
  bytes : Nat
  bad   : Bool := false
deriving DecidableEq, Repr

/-- A logical Stand (R236, R276): its physical Stand or ABSENT, duty, whether a tile runs on it, counters, and the tiles resident in
its Understory, the one last used first (R224, R327). -/
structure Stand where
  physical : Option Nat := none
  duty     : Nat := 0
  busy     : Bool := false
  activeGc : Nat := 0
  tiles    : Nat := 0
  stallGc  : Nat := 0
  fails    : BitVec 16 := 0
  resident : List ResTile := []
deriving DecidableEq, Repr

/-- GV_SLOT.STATE (R235). -/
inductive SlotState where
  | empty | loading | ready | freeing
deriving DecidableEq, Repr

/-- A Canopy slot (R226, R235). -/
structure Slot where
  st    : SlotState := .empty
  units : Nat := 0
  base  : Nat := 0
deriving DecidableEq, Repr

/-- GV_CHK_LAST (R275). -/
structure ChkLast where
  valid    : Bool := false
  stand    : BitVec 7 := 0
  row      : BitVec 7 := 0
  rowValid : Bool := false
  col      : BitVec 7 := 0
  colValid : Bool := false
  format   : BitVec 4 := 0
  kind     : BitVec 4 := 0
deriving DecidableEq, Repr

/-- A Grove's registers (R234, R275). -/
structure Grove where
  affinityWait : BitVec 16 := 0x200
  chkTiles     : Nat := 0
  chkFail      : Nat := 0
  chkRecomp    : Nat := 0
  chkXchecked  : Nat := 0
  chkMismatch  : Nat := 0
  chkUnchecked : Nat := 0
  retireLimit  : Byte := 2
  chkLast      : ChkLast := {}
deriving DecidableEq, Repr

/-- Groves (keys 0 to 3), logical Stands (key 100g + s), physical Stands (key 100g + p), Canopy slots (key 256g + n),
Canopy bytes (key 48 MiB × g + byte) and the poisoned ones of their 64-bit words (R186), and the operation sequence number
used for sampling (R255). -/
structure Groves where
  groves : Tab Grove := []
  stands : Tab Stand := []
  phys   : Tab Phys := []
  slots  : Tab Slot := []
  canopy : List Host.Cell := []
  canopyPoison : Tab Bool := []
  opSeq  : Nat := 0
deriving DecidableEq, Repr

/-! ## Waybills (chapter 06) -/

/-- A waybill record (R264). -/
structure WbRec where
  seq        : Nat
  kind       : Nat
  context    : Nat
  tenant     : Nat
  status     : Status
  signed     : Bool
  sealed     : Bool
  tiles      : Nat
  recomputed : Nat
  xchecked   : Nat
  failed     : Nat
  unchecked  : Nat
  xk         : Nat
  onFail     : Bool
  stepSc     : Nat
  inputDig   : Digest
  outputDig  : Digest
  prevLink   : Digest
  link       : Digest
  leaves     : List (Nat × Digest)
  leavesGone : Bool
  consumed   : Bool
deriving DecidableEq, Repr

/-- A signature block (R269). -/
structure WbSig where
  seq      : Nat
  reason   : Nat
  image    : Digest
  link     : Digest
  nonce    : BitVec 256
  chain    : W64
  signedAc : Nat
  sig      : BitVec 768
deriving DecidableEq, Repr

/-- A signing point: partition, SEQ, reason, nonce, the image in force at it, and the descriptors that wait for it (R268, R274). -/
structure SignReq where
  part   : Nat
  chain  : W64
  seq    : Nat
  reason : Nat
  link   : Digest
  image  : Digest
  nonce  : BitVec 256
  wids   : List Nat
  ac     : Nat
deriving DecidableEq, Repr

/-- A chain that has ended: its identifier, its secret, which its salts need (R267), and its records (R270). -/
structure EndedChain where
  id     : W64
  secret : Nat
  recs   : List WbRec
deriving DecidableEq, Repr

/-- A partition's waybill chain and registers (R263, R278). `ended` holds the ended chains (R270); `due` says that the genesis record of
the current chain waits for room in the store (R271). -/
structure Chain where
  chainId     : W64 := 0
  secret      : Nat := 0
  recs        : List WbRec := []
  sigs        : List WbSig := []
  ended       : List EndedChain := []
  due         : Bool := false
  seq         : Nat := 0
  signed      : Nat := 0
  oldest      : Nat := 0
  consumed    : Nat := 0
  overwrite   : Bool := false
  coalesced   : BitVec 16 := 0
  overwritten : BitVec 16 := 0
  stallSc     : W64 := 0
deriving DecidableEq, Repr

/-- Waybill machinery: chains (keys 0 to 3), the signature under way and the one waiting (R268), and the measurement of
each HBM region, if any (R274). -/
structure Waybill where
  chains  : Tab Chain := []
  signing : Option SignReq := none
  waiting : List SignReq := []
  measure : Tab (Option Digest) := []
  measuring : List Nat := []
deriving DecidableEq, Repr

/-! ## Memory: HBM and key-value pools (chapters 04, 07) -/

/-- A KV_PAGES pool (R289, R332): pages taken, pages reserved, least free since the last read, pages waiting to return after
a REBIND with the work that must end first (R319). -/
structure Pool where
  used     : List Nat := []
  reserved : Nat := 0
  low      : Option Nat := none
  waiting  : List (Nat × List Nat) := []
deriving DecidableEq, Repr

/-- A remote page key slot (R325). -/
structure KeySlot where
  bound     : Bool := false
  tenant    : Nat := 0
  node      : Nat := 0
  cls       : Nat := 0
  regionKey : W32 := 0
deriving DecidableEq, Repr

/-- HBM contents by physical byte address (stack × 2^36 + byte); poisoned 64-byte lines by line number;
pools by REGION_ID; key slots; the MT_KV_ registers (R331). -/
structure Mem where
  hbm        : List Host.Cell := []
  poison     : Tab Bool := []
  pools      : Tab Pool := []
  keySlots   : Tab KeySlot := []
  prefetch   : Byte := 4
  kvWait     : BitVec 24 := 0x88B8
  kvSpan     : W32 := 0x66554433
  kvRows     : Nat := 0
  kvTaken    : Nat := 0
  kvUnits    : Nat := 0
  kvLower    : Nat := 0
  kvCommitSc : W64 := 0
deriving DecidableEq, Repr

/-! ## The Sleeper codec (chapter 08) -/

/-- Sleeper counters of a partition (R363). -/
structure SlCnt where
  coded    : Nat := 0
  raw      : Nat := 0
  zero     : Nat := 0
  plain    : Nat := 0
  stored   : Nat := 0
  expanded : Nat := 0
  errLen   : BitVec 16 := 0
  errCode  : BitVec 16 := 0
  errCrc   : BitVec 16 := 0
  errKey   : BitVec 16 := 0
  codecGc  : Nat := 0
deriving DecidableEq, Repr

/-- SL_LAST_ERR (R364). -/
structure SlLast where
  valid  : Bool := false
  part   : BitVec 2 := 0
  status : Byte := 0
  tier   : BitVec 2 := 0
  place  : BitVec 46 := 0
deriving DecidableEq, Repr

/-- What a block read is for: the work item and block index it delivers to, or an attention unit's page block. -/
structure ReadFor where
  wid   : Nat
  block : Nat
deriving DecidableEq, Repr

/-- How a block read has ended: its plaintext, or its status and its fault record's number (R349, R351). -/
structure ReadEnd where
  plain  : Option (List Byte)
  status : Status := .ok
  fr     : BitVec 16 := 0
deriving DecidableEq, Repr

/-- A block read in progress (R360, R457): its partition and tenant, the tier, DDR5 region and place or remote LOC, and the
block once its stored bytes have arrived; a remote read also has the MSEQ of its request and its key slot. `waits` are the sc of stall it
has cost, by cause (R478), and the pieces that have come, each with whether it was poisoned; one that has ended waits for its consumer's
earlier requests (R360). -/
structure BlockRead where
  rid     : Nat
  part    : Nat
  tenant  : Nat
  forw    : ReadFor
  remote  : Bool
  region  : Nat
  place   : Nat
  arrived : Option Block := none
  station : Nat := 0
  mseq    : W32 := 0
  slot    : Nat := 0
  waits   : Tab Nat := []
  pieces  : List (Nat × Nat × Bool) := []
  ended   : Option ReadEnd := none
deriving DecidableEq, Repr

/-- A page block delivered to an attention unit that waits for it: its plaintext, or none for poison (R328, R360). -/
structure Delivered where
  forw  : ReadFor
  plain : Option (List Byte)
deriving DecidableEq, Repr

/-- The codec: counters by partition, last error, expand stalls by context, reads in arrival order, blocks delivered. -/
structure Sleeper where
  cnt    : Tab SlCnt := []
  last   : SlLast := {}
  stall  : Tab W64 := []
  reads  : List BlockRead := []
  bufs   : List Delivered := []
  nextId : Nat := 0
deriving DecidableEq, Repr

/-! ## The Timetable (chapters 09, 10) -/

/-- Timetable entry states (R368). -/
inductive TtState where
  | free | admitted | prefill | handoffOut | handoffIn | decode | parked | stub | done | lost | cancelled
deriving DecidableEq, Repr

/-- The sender's phase of a handoff (R590). -/
inductive SendPhase where
  | offered | sending | committed | probing
deriving DecidableEq, Repr

/-- The sender's side of a handoff (R590, R604, R609). -/
structure Sender where
  phase   : SendPhase := .offered
  conn    : Nat := 0
  rEntry  : Option Nat := none
  credits : Nat := 0
  sent    : Nat := 0
  items   : Nat := 0
  rtt     : Nat := 0
  offerSc : Nat := 0
  auto    : Bool := true
  wid     : Option Nat := none
  records : List (BitVec 128) := []
  cancels : List Nat := []
deriving DecidableEq, Repr

/-- The receiver's side of a handoff (R595 to R605): items staged and not yet checked, units freed and not yet returned, the
records of the items written, in order, the list being built and the pool pages it has drawn, the page indices handed on by
reference, and the key slots bound (old, new). -/
structure Receiver where
  conn     : Nat := 0
  epoch    : W32 := 0
  sEntry   : Nat := 0
  offer    : Option Offer := none
  window   : Nat := 0
  staged   : List (Nat × Block) := []
  freed    : Nat := 0
  records  : List (BitVec 128) := []
  list     : Option Nat := none
  drawn    : List Nat := []
  refs     : List Nat := []
  bindings : List (Nat × Nat) := []
  commit   : Option (Nat × Digest) := none
deriving DecidableEq, Repr

/-- A Timetable entry (R367): the fields of its 128 bytes, and the model's own: the handoff's two sides, the tally object held
(R615), what a race withholds (R411) and whether a refusal (true) or a cancel (false) waits for the boundary (R413), TURN_ENDED
as it arrived, a CACHE node's places of the parcel and its OFFER (R596), the nodes and entries whose cancels wait for this entry
or were forwarded by it (R613). -/
structure Entry where
  version      : W32 := 0
  st           : TtState := .free
  ret          : TtState := .free
  held         : Bool := false
  expired      : Bool := false
  starved      : Bool := false
  cancelPend   : Bool := false
  claiming     : Bool := false
  deadlineKind : Bool := false
  met          : Bool := false
  accepting    : Bool := false
  priority     : BitVec 3 := 0
  bucket       : BitVec 3 := 0
  tenant       : Nat := 0
  part         : Nat := 0
  reqId        : W64 := 0
  epoch        : W32 := 0
  node         : Nat := 0
  cause        : Byte := 0
  context      : Nat := 0
  fromIndex    : Nat := 0
  fromNode     : Nat := 0
  fromValid    : Bool := false
  fn           : Nat := 0
  promptLen    : Nat := 0
  prefilled    : Nat := 0
  length       : Nat := 0
  genCount     : Nat := 0
  genMax       : Nat := 0
  list         : W64 := 0
  pages        : Nat := 0
  resPages     : Nat := 0
  budget       : W64 := 0
  snapSc       : W64 := 0
  prompt       : W64 := 0
  tally        : W64 := 0
  sampling     : W64 := 0
  specHeads    : BitVec 3 := 0
  specNodes    : Nat := 0
  specTree     : BitVec 16 := 0
  race         : W32 := 0
  nextNode     : Nat := 0
  nextValid    : Bool := false
  waited       : Nat := 0
  lastToken    : W32 := 0
  tag          : W64 := 0
  -- the model's own
  snd          : Option Sender := none
  rcv          : Option Receiver := none
  tallyObj     : Option Nat := none
  withheld     : Option (TokRec × Option Nat) := none
  raceHit      : Option Bool := none
  turnEnded    : Bool := false
  parcel       : List Nat := []
  shape        : Option Offer := none
  askers       : List (Nat × Nat) := []
  fwd          : List (Nat × Nat) := []
deriving DecidableEq, Repr

/-- A partition's Timetable and selection registers (R415, R443). -/
structure TtRegs where
  layers      : Nat := 0
  kvHeads     : Nat := 0
  geometry    : Byte := 0
  pool        : Nat := 0
  stepTokens  : BitVec 16 := 0x2000
  chunk       : BitVec 16 := 0x800
  ageSteps    : BitVec 16 := 0x40
  buckets     : List Nat := [512, 2048, 8192, 32768, 131072, 524288, 2097152]
  genFraction : Byte := 0x40
  headroom    : Byte := 0x08
  reserveSc   : W64 := 0
  stepEst     : W32 := 0x88B8
  stepAvg     : Nat := 0
  tokAvg16    : Nat := 0
  lastSteps   : List (Nat × Nat × Nat) := []
  steps       : Nat := 0
  refusedMem  : W32 := 0
  refusedTime : W32 := 0
  starved     : W32 := 0
  selHeads    : BitVec 3 := 0
  logitFmt    : BitVec 4 := 7
  vocab       : BitVec 19 := 0
  treeBase    : W64 := 0
  treeCount   : BitVec 13 := 0
  specRows    : Nat := 0
  specAccept  : Nat := 0
  selMismatch : W32 := 0
  selNan      : W32 := 0
  tallyDrop   : W32 := 0
deriving DecidableEq, Repr

/-- An installed step program (R392): its entries (descriptor and SUBST), its references, and the context it runs in. -/
structure StepProg where
  entries  : List (Descriptor × Byte)
  embedRow : Nat
  embed    : W64
  stepRef  : W64
  x        : W64
  logits   : W64
  context  : Nat
  tenant   : Nat
  fn       : Nat
deriving DecidableEq, Repr

/-- A sequence of a step (R394, R397): its place in the work list, its rows, the tokens it feeds, what its selection gave,
and whether its entry has gone LOST meanwhile (R576). -/
structure StepSeq where
  entry   : Nat
  pos     : Nat
  input   : List W32
  rows    : Nat
  qRow    : Nat
  decode  : Bool
  bucket  : Nat
  status  : Status := .ok
  emitted : List W32 := []
  path    : List Nat := []
  ended   : Bool := false
  gone    : Bool := false
deriving DecidableEq, Repr

/-- A step in flight (R393): its sequences in record order, its rows, the program entry that runs, when it started, whether
selection has run, and the worst status and counts of its entries. -/
structure Step where
  seqs      : List StepSeq
  rows      : Nat
  entry     : Nat := 0
  startSc   : Nat := 0
  selected  : Bool := false
  failAll   : Option Status := none
  worst     : Status := .ok
  tiles     : Nat := 0
  recomputed : Nat := 0
  xchecked  : Nat := 0
  failed    : Nat := 0
  unchecked : Nat := 0
  xk        : Nat := 16
  regions   : List Nat := []
  faultRef  : BitVec 16 := 0
  ended     : Option (Status × W64) := none
deriving DecidableEq, Repr

/-- A race group homed on this node (R410): the members that joined (node, entry, request) and the requests that claimed. -/
structure Race where
  isOpen  : Bool := false
  members : Nat := 0
  tenant  : Nat := 0
  joined  : List (Nat × Nat × W64) := []
  claimed : List W64 := []
  won     : Bool := false
  acks    : Nat := 0
deriving DecidableEq, Repr

/-- The Timetable: entries by index (bit 13 names the Station), partition registers, programs and steps by partition,
writes waiting for a step boundary (R415), race groups. -/
structure Timetable where
  entries : Tab Entry := []
  regs    : Tab TtRegs := []
  pend    : Tab (Option TtRegs) := []
  progs   : Tab (Option StepProg) := []
  steps   : Tab (Option Step) := []
  races   : Tab Race := []
deriving DecidableEq, Repr

/-! ## The DDR5 tier (chapter 11) -/

/-- MT_DDR_REGION.STATE (R482). -/
inductive DdrState where
  | undeclared | unsealed | sealed | unsealing | retiring
deriving DecidableEq, Repr

/-- A DDR5 region (R449, R450, R482): its registers, unit map, the function that declared it and the operation waiting for
its state change. -/
structure DdrRegion where
  st       : DdrState := .undeclared
  pin      : Bool := false
  tenant   : Nat := 0
  units    : Nat := 0
  keyIdx   : BitVec 16 := 0
  inFlight : Nat := 0
  gen      : W32 := 0
  lastUse  : Nat := 0
  map      : List Nat := []
  fn       : Nat := 0
deriving DecidableEq, Repr

/-- A tenant's share of the DDR5 tier (R481). -/
structure TenantCap where
  floor  : BitVec 21 := 0
  cap    : BitVec 21 := 0x1FFFFF
  used   : Nat := 0
  pinned : Nat := 0
deriving DecidableEq, Repr

/-- The DDR5 tier (R447, R480): the chunks its modules hold, by 8 times the tier place plus the chunk's number in it (R456). -/
structure Ddr where
  channels  : Nat := 0
  mismatch  : Bool := false
  x8        : Bool := false
  units     : Nat := 0
  regions   : Tab DdrRegion := []
  tenants   : Tab TenantCap := []
  chunks    : Tab Chunk := []
  hostReject : W32 := 0
  ce        : Nat := 0
  ue        : Nat := 0
  macFail   : Nat := 0
  refused   : Nat := 0
  evictions : Nat := 0
  stall     : Tab W64 := []
deriving DecidableEq, Repr

/-! ## Rail links (chapter 12) -/

/-- LN_LINK.STATE (R491, R530). -/
inductive LinkSt where
  | down | training | up | degraded | trickle | failed | disabled
deriving DecidableEq, Repr

/-- LN_LANE.STATE (R533). -/
inductive LaneSt where
  | down | training | upV3 | upV2 | trickle | los | miswired
deriving DecidableEq, Repr

/-- A frame queued on an egress, with what its Platform unit returns to when it has left: the ingress link and class whose
credit it holds (R506), or none for a local frame; and, for a local packet, its connection, MSEQ and OFFSET. -/
structure QFrame where
  frame : Frame
  ingress : Option (Nat × Nat) := none
  packet  : Option (Nat × W32 × Nat) := none
deriving DecidableEq, Repr

/-- A sent sequenced frame not yet acknowledged, with its resends (R499). -/
structure TxFrame where
  q       : QFrame
  resends : Nat
deriving DecidableEq, Repr

/-- One link of a Lantern (R488 to R515): registers, what its keys were derived from and the keys of its two directions (R502), sequence
numbers of its streams and how often each has wrapped (GEN, R501), unacknowledged frames, class queues
(key: class), control frames due, receive credits spent and given, deficits and run counts, the round's position. -/
structure Link where
  st       : LinkSt := .disabled
  lanesUp  : Nat := 0
  peer     : Nat := 0
  cause    : Byte := 0
  peerInc  : W32 := 0
  keyed    : Bool := false
  keySlot  : Nat := 0
  nonce    : Nat := 0
  peerLantern : Nat := 0
  peerNonce : Nat := 0
  key0     : List Byte := []
  key1     : List Byte := []
  sentTrain : Bool := false
  peerConf : Bool := false
  trained  : Bool := false
  allLanes : Bool := true
  txSeq    : W32 := 0
  txGen    : Nat := 0
  txCtl    : W32 := 0
  txCtlGen : Nat := 0
  rxSeq    : W32 := 0
  rxGen    : Nat := 0
  rxCtl    : W32 := 0
  rxCtlGen : Nat := 0
  unacked  : List TxFrame := []
  queues   : Tab (List QFrame) := []
  ctlq     : List Frame := []
  ackDue   : Bool := false
  credits  : Tab Nat := []
  given    : Tab Nat := []
  deficit  : Tab Nat := []
  round    : Nat := 2
  inVisit  : Bool := false
  ctlLast  : Bool := false
  heard    : Bool := false
  retrainWaits : Bool := false
deriving DecidableEq, Repr

/-- A lane (R533) and whether RX_POWER_LOW has been raised (R528). -/
structure Lane where
  st      : LaneSt := .down
  tx      : Int := 0
  rx      : Int := 0
  symCorr : Nat := 0
  warned  : Bool := false
deriving DecidableEq, Repr

/-- LN_CLASS counters (R532). -/
structure ClassCnt where
  txBytes    : Nat := 0
  creditWait : W64 := 0
  gateWait   : W64 := 0
deriving DecidableEq, Repr

/-- A Lantern (R530 to R533): its links (keys 0 v3, 1 v2), lanes, settings and counters. -/
structure Lantern where
  links      : Tab Link := []
  lanes      : Tab Lane := []
  keySlot    : BitVec 2 := 0
  hbMiss     : Byte := 4
  hbPeriod   : BitVec 16 := 0x36B
  warn       : BitVec 16 := 0
  los        : BitVec 16 := 0
  txFrames   : Nat := 0
  rxFrames   : Nat := 0
  fecUncorr  : Nat := 0
  crcFail    : Nat := 0
  authFail   : Nat := 0
  stomped    : Nat := 0
  replays    : Nat := 0
  retrains   : Nat := 0
  cutThrough : Nat := 0
  stored     : Nat := 0
  dropped    : Nat := 0
  classes    : Tab ClassCnt := []
deriving DecidableEq, Repr

/-- LN_PEER_LIVE.STATE (R534). -/
inductive PeerSt where
  | unwatched | alive | suspect | dead
deriving DecidableEq, Repr

/-- A peer as the liveness detector sees it (R522, R534); `beat` says a matching heartbeat came this period. -/
structure Peer where
  inc    : W32 := 0
  st     : PeerSt := .unwatched
  misses : Nat := 0
  deaths : BitVec 16 := 0
  beat   : Bool := false
deriving DecidableEq, Repr

/-- A path slot of a route entry (R538, R570). -/
structure RouteSlot where
  valid   : Bool := false
  lantern : Nat := 0
  link    : Nat := 0
deriving DecidableEq, Repr

/-- Links, node registers, the detector and the routes (R530 to R534, R538). Routes have key 4n + slot. -/
structure Rail where
  lanterns : Tab Lantern := []
  nodeSet  : Bool := false
  nodeId   : BitVec 7 := 0
  inc      : W32 := 0
  liveMiss : Byte := 8
  livePer  : BitVec 24 := 0x445C
  watch    : Tab W32 := []
  peers    : Tab Peer := []
  routes   : Tab RouteSlot := []
deriving DecidableEq, Repr

/-! ## Rail connections (chapter 13) -/

/-- RL_CONN.STATE (R544, R571). -/
inductive ConnSt where
  | free | init | opening | opened | closing | error
deriving DecidableEq, Repr

/-- A packet sent and not yet acknowledged (R551): how often it was sent, on which path, and whether its retransmission
timer still runs. -/
structure TxPkt where
  pkt   : Packet
  dst   : Nat
  sends : Nat
  path  : Nat
deriving DecidableEq, Repr

/-- A message being received (R553): the header fields of its packets, the bytes held by offset, whether it is complete, the
status it was refused with, and whether any packet was poisoned. -/
structure RxMsg where
  mseq     : W32
  op       : BitVec 4
  mlen     : Nat
  rkey     : W32 := 0
  raddr    : Nat := 0
  operand  : W64 := 0
  notify   : Option Nat := none
  got      : List (Nat × List Byte) := []
  ctl      : Option Ctl := none
  poison   : Bool := false
  refused  : Option Status := none
  slot     : Option Nat := none
  src      : Nat := 0
  srcConn  : Nat := 0
  srcInc   : W32 := 0
  cls      : Option Nat := none
deriving DecidableEq, Repr

/-- A connection (R540 to R544, R571): its registers and queues. Work requests stay in the device's list of work; `queue`
holds their numbers in fetch order, `recvs` those of posted RECVs. -/
structure Conn where
  st       : ConnSt := .free
  cls      : Nat := 0
  v2       : Bool := false
  paths    : BitVec 4 := 0
  peerNode : Nat := 0
  tenant   : Nat := 0
  peerConn : Nat := 0
  context  : Nat := 0
  part     : Nat := 0
  peerInc  : W32 := 0
  nextMseq : W32 := 0
  cum      : W32 := 0
  rxCum    : W32 := 0
  txUnits  : Nat := 0
  rxUnits  : Nat := 0
  peerRx   : Nat := 0
  rnrSc    : W64 := 0
  retx     : Nat := 0
  service  : W32 := 0
  turn     : Nat := 0
  queue    : List Nat := []
  recvs    : List Nat := []
  unacked  : List TxPkt := []
  txq      : List (Nat × Packet) := []
  rx       : List RxMsg := []
  opener   : Option Nat := none
  saved    : Bool := false
deriving DecidableEq, Repr

/-- RL_REGION.STATE (R561, R572). -/
inductive RegSt where
  | free | registered | revoking | revoked
deriving DecidableEq, Repr

/-- A region slot (R559 to R561, R572). -/
structure RegSlot where
  st       : RegSt := .free
  rights   : BitVec 3 := 0
  tenant   : Nat := 0
  regionId : Nat := 0
  gen      : BitVec 16 := 0
  peerValid : Bool := false
  peer     : Nat := 0
  inFlight : Nat := 0
  peerInc  : W32 := 0
  offset   : Nat := 0
  length   : Nat := 0
  context  : Nat := 0
  part     : Nat := 0
deriving DecidableEq, Repr

/-- A trigger counter (R565 to R567, R572). -/
structure Trig where
  bound  : Bool := false
  tenant : Nat := 0
  value  : W32 := 0
deriving DecidableEq, Repr

/-- Connections, region slots, triggers and the RL_ registers (R570). -/
structure RailConns where
  conns    : Tab Conn := []
  slots    : Tab RegSlot := []
  trigs    : Tab Trig := []
  hops     : Byte := 8
  retxMax  : BitVec 4 := 8
  retxSc   : BitVec 20 := 0x1B58
  timeout  : BitVec 24 := 0x88B8
  txPkts   : Nat := 0
  rxPkts   : Nat := 0
  retx     : Nat := 0
  noRoute  : Nat := 0
  stale    : Nat := 0
  dropped  : Nat := 0
  keyRefused : Nat := 0
  timeouts : Nat := 0
  trigDrop : Nat := 0
  mgmtDone : List (Nat × W32 × W32) := []
deriving DecidableEq, Repr

/-! ## Handoff and Platform units (chapter 14) -/

/-- SB_HO_TALLY of a partition (R615): the objects held. -/
structure TallyPool where
  base  : W64 := 0
  count : Nat := 0
  held  : List Nat := []
deriving DecidableEq, Repr

/-- An OFFER waiting for Platform units (R597): its connection, the message, and the sc of its arrival. -/
structure WaitOffer where
  conn : Nat
  msg  : Ctl
  sc   : Nat
deriving DecidableEq, Repr

/-- Handoff registers (R614), tally objects, waiting OFFERs, and PF_USE.PEAK and PF_STALL (R616, R617; keys 8s + c and
8s + k). -/
structure Handoff where
  window    : Byte := 0x80
  wait      : BitVec 24 := 0x2AB98
  platWait  : BitVec 24 := 0x2710
  out       : Nat := 0
  moved     : Nat := 0
  kept      : Nat := 0
  outLost   : Nat := 0
  accepted  : Nat := 0
  abandoned : Nat := 0
  partnerLost : Nat := 0
  probes    : Nat := 0
  itemsTx   : Nat := 0
  itemsRx   : Nat := 0
  tally     : Tab TallyPool := []
  waiting   : List WaitOffer := []
  pfPeak    : Tab Nat := []
  pfStall   : Tab W64 := []
deriving DecidableEq, Repr

/-! ## Clearing search (chapter 15) -/

/-- CS_INDEX.STATE (R622, R638). -/
inductive IdxSt where
  | unloaded | loading | ready
deriving DecidableEq, Repr

/-- An index (R622, R638). -/
structure Index where
  st    : IdxSt := .unloaded
  nodes : Nat := 0
  tombs : Nat := 0
deriving DecidableEq, Repr

/-- The Clearing engines (R637, R638); the search contexts in use are those of the queries that hold one. -/
structure Clearing where
  queries    : Nat := 0
  visits     : Nat := 0
  tombVisits : Nat := 0
  short      : Nat := 0
  memWait    : Nat := 0
  ctxWait    : W64 := 0
  index      : Tab Index := []
deriving DecidableEq, Repr

/-! ## Faults and recovery (chapter 17) -/

/-- What keeps a contained record open (R678): work that has yet to complete, a Timetable transition, or a reset. -/
inductive Closer where
  | work (wid : Nat)
  | step (p : Nat)
  | chip
deriving DecidableEq, Repr

/-- A fault record (R677) and what must end before it closes (R678). -/
structure FaultRec where
  number    : BitVec 16 := 0
  cls       : BitVec 4 := 0
  isOpen    : Bool := false
  injected  : Bool := false
  ctxValid  : Bool := false
  escalated : Bool := false
  source    : Byte := 0
  domain    : Byte := 0
  cause     : Byte := 0
  cause2    : Byte := 0
  merges    : BitVec 16 := 0
  level     : BitVec 3 := 0
  context   : Nat := 0
  tenant    : Nat := 0
  part      : Nat := 0
  openAc    : Nat := 0
  lastAc    : Nat := 0
  closeAc   : Nat := 0
  detail0   : W64 := 0
  detail1   : W64 := 0
  waits     : List Closer := []
deriving DecidableEq, Repr

/-- FT_INJECT (R709, R710). -/
structure Inject where
  arm     : Bool := false
  checker : Byte := 0
  unit    : BitVec 16 := 0
  count   : Byte := 1
deriving DecidableEq, Repr

/-- FT_CULPRIT (R709). -/
structure Culprit where
  valid    : Bool := false
  level    : BitVec 3 := 0
  watchdog : BitVec 2 := 0
  kind     : BitVec 4 := 0
  engine   : BitVec 16 := 0
  ctxValid : Bool := false
  part     : BitVec 2 := 0
  context  : BitVec 12 := 0
  number   : BitVec 16 := 0
deriving DecidableEq, Repr

/-- A reset a domain received (R687): its level and when. -/
structure ResetMark where
  domain : Nat
  level  : Nat
  ac     : Nat
deriving DecidableEq, Repr

/-- A possession held or waiting (R690 to R694): its activity, its domains, the ac of the grant, and what it is for (a unit of
the activity: a stack, a link, a channel, a Stand, a work number). -/
structure Poss where
  activity : Byte
  domains  : BitVec 22
  since    : Nat := 0
  arg      : Nat := 0
deriving DecidableEq, Repr

/-- Context states (R697). -/
inductive CtxState where
  | active | saving | saved | inherit
deriving DecidableEq, Repr

/-- A context (R697 to R703): its state, the function that asked for its save, the semaphore it is queued on, and whether a restore
waits for units. -/
structure Ctx where
  st      : CtxState := .active
  asker   : Nat := 0
  waiting : Option (Nat × Nat) := none
  restoring : Bool := false
deriving DecidableEq, Repr

/-- A semaphore (R701). -/
structure Sem where
  owner   : Option Nat := none
  waiters : List (Nat × Nat) := []
deriving DecidableEq, Repr

/-- The reserved context slot of a partition (R703): the owner in it with the semaphore it was restored for, and the owners
waiting for it. -/
structure Reserved where
  holder  : Option (Nat × Nat) := none
  waiting : List (Nat × Nat) := []
deriving DecidableEq, Repr

/-- Faults, watchdog limits, possessions, contexts and semaphores (R676 to R710). Semaphores have key 64t + s, FT_SLOW
4c + k, FT_USAGE 16t + 4p + j; `lost` are the possession requests waiting, oldest first; `quietFrom` is the ac at
which the last record opened or took a merge (R682), the end of the quiet period being a command. -/
structure Faults where
  recs      : Tab FaultRec := []
  last      : BitVec 16 := 0
  fault     : Bool := false
  quietFrom : Nat := 0
  recoveries : Nat := 0
  quiet     : W32 := 0x17D7840
  errnHold  : Bool := false
  errnPulse : BitVec 16 := 0x190
  possRefused : W32 := 0
  inject    : Inject := {}
  culprit   : Culprit := {}
  wdtCtx    : W32 := 0x10B0760
  wdtEngine : W32 := 0x3567E0
  wdtPart   : W32 := 0xA6E49C0
  wdtChip   : W32 := 0x989680
  escWindow : W32 := 0x5F5E100
  escLimit  : W32 := 0x989680
  maxLevel  : BitVec 3 := 5
  fnDrain   : W32 := 0x186A0
  corrected : Tab Nat := []
  marks     : List ResetMark := []
  held      : List Poss := []
  queue     : List Poss := []
  ctxs      : Tab Ctx := []
  sems      : Tab Sem := []
  slots     : Tab Reserved := []
  slow      : Tab W64 := []
  usage     : Tab Nat := []
  stopped   : List (Nat × Nat) := []
deriving DecidableEq, Repr

/-! ## Tenancy and trust (chapter 18) -/

/-- The tenant of a virtual function (R714) and the mapping of a context (R715). -/
structure VfMap where
  valid  : Bool := false
  tenant : Nat := 0
deriving DecidableEq, Repr

structure CtxMap where
  valid  : Bool := false
  part   : Nat := 0
  tenant : Nat := 0
deriving DecidableEq, Repr

/-- The steps of a tenant switch (R720). -/
inductive SwitchStage where
  | draining | scrubbing
deriving DecidableEq, Repr

/-- A switch in progress, or a first mapping, and the regions it keeps (R718 to R722). -/
structure Switch where
  part    : Nat
  tenants : BitVec 16
  startAc : Nat
  stage   : SwitchStage := .draining
  first   : Bool := false
  keep    : List Nat := []
deriving DecidableEq, Repr

/-- LD_TN_STATUS's recorded code (R743). -/
structure TnStatus where
  valid : Bool := false
  code  : Byte := 0
deriving DecidableEq, Repr

/-- A retirement whose flash write is under way: the index it increments, and the fabric slot that takes effect with it (R732,
R733). -/
structure Retire where
  tenant : Nat
  ddr    : Bool
  slot   : Option (BitVec 2) := none
deriving DecidableEq, Repr

/-- Tenancy registers (R743), the regions whose contents a load, a reset or a switch to the empty set kept (R718), the switch in
progress and the retirements, oldest first. -/
structure Tenancy where
  vf      : Tab VfMap := []
  parts   : Tab (BitVec 16) := []
  keep    : Tab W32 := []
  status  : TnStatus := {}
  drain   : W32 := 0x186A0
  ctx     : Tab CtxMap := []
  retained : List Nat := []
  switch  : Option Switch := none
  retire  : List Retire := []
deriving DecidableEq, Repr

/-- Attestation, security version and debug registers (R737 to R743); the nonce and the ac of the report under way. -/
structure Trust where
  nonce     : BitVec 256 := 0
  attNonce  : BitVec 256 := 0
  attAc     : Nat := 0
  done      : Bool := false
  busy      : Bool := false
  report    : List Byte := []
  svnDone   : Bool := false
  svnBusy   : Bool := false
  challenge : Digest := 0
  unlocked  : Bool := false
deriving DecidableEq, Repr

/-! ## The whole state -/

/-- The state of the block. `free` numbers the free values taken so far, `out` is what has left the device (both the
model's own, not the spec's); `pending` is the queue of commands. (DESIGN CHOICE, log entries 84, 86.) -/
structure State where
  fuses    : Fuses
  flash    : Flash
  clk      : Clk
  power    : Power
  boot     : Boot
  host     : HostIf
  work     : List Work
  nextWid  : Nat
  img      : ImageCtl
  groves   : Groves
  waybill  : Waybill
  mem      : Mem
  sleeper  : Sleeper
  tt       : Timetable
  ddr      : Ddr
  rail     : Rail
  rc       : RailConns
  ho       : Handoff
  cs       : Clearing
  ft       : Faults
  tn       : Tenancy
  trust    : Trust
  free     : Nat
  out      : List Out
  pending  : List Instr
deriving DecidableEq, Repr

/-- The fuses of the example part: grade X, stepping A0, every die present, every fabric slot burned (R9, R25, R729). -/
def fusesX : Fuses :=
  { grade := .x, stepping := 0, hbm := 0xFF, yard := 3, station := 3, grove := 15, fusedBad := [], fabric := 15,
    fwKeys := List.replicate 4 0, keyRevoked := 0, svn := 0, cert := [] }

/-- A firmware set of the factory (R735): security version 0, no signer digest. -/
def factoryFirmware : Manifest :=
  { svn := 0, revoke := 0, flags := 0, signers := [], versions := [], lengths := [], digests := [], debugKey := 0, digest := 0 }

/-- The flash of a device that holds no image, no node ID and no retired Stand. -/
def flashNew : Flash :=
  { image := none, retired := [], nodeId := none, incarnation := 0, keys := [], setSeq := 0, setBank := false,
    clearRetired := false, floorplan := false, active := factoryFirmware, inactive := none }

/-- The bring-up possession: held on every domain from the start of a bring-up (R640, R691). -/
def bringUpPoss : Poss := { activity := 0x12, domains := 0x3FFFFF }

/-- The management connection, open from bring-up until power is removed (R541). -/
def mgmtConn : Conn := { st := .opened }

/-- The state right after a cold reset: power applied, no supply valid yet, the bring-up possession held (R639 to R642).
(DESIGN CHOICE, log entry 2.) -/
def State.reset : State :=
  { fuses := fusesX, flash := flashNew, clk := {}, power := {}, boot := {}, host := {}, work := [], nextWid := 0,
    img := {}, groves := {}, waybill := {}, mem := {}, sleeper := {}, tt := {}, ddr := {}, rail := {}, rc := { conns := [(0, mgmtConn)] }, ho := {},
    cs := {}, ft := { held := [bringUpPoss] }, tn := {}, trust := {}, free := 0, out := [], pending := [] }

end Sys2Proof.Machine
end

