-- ==== Sys2Proof/Machine/Tab.lean ====
section
/-! DEFINITION. Sparse tables in canonical form, bit fields, and lists of bytes as little-endian numbers (R15, R16). -/

namespace Sys2Proof.Machine

/-! ## Sparse tables: strictly rising keys, no pair holds the default -/

/-- The value at a key; `d` where the table lists none. -/
def tget {α : Type} (t : Tab α) (k : Nat) (d : α) : α :=
  match t with
  | [] => d
  | (k', v) :: r => if k' = k then v else tget r k d

/-- The table without a key. -/
def terase {α : Type} (t : Tab α) (k : Nat) : Tab α :=
  match t with
  | [] => []
  | (k', v) :: r => if k' = k then terase r k else (k', v) :: terase r k

/-- The table with a pair put before the first greater key. -/
def tinsert {α : Type} (t : Tab α) (k : Nat) (v : α) : Tab α :=
  match t with
  | [] => [(k, v)]
  | (k', v') :: r => if k < k' then (k, v) :: (k', v') :: r else (k', v') :: tinsert r k v

/-- The table with `v` at key `k`; a value equal to the default is not listed. -/
def tput {α : Type} [DecidableEq α] (t : Tab α) (k : Nat) (v d : α) : Tab α :=
  if v = d then terase t k else tinsert (terase t k) k v

/-- The value at a key changed by `f`. -/
def tmod {α : Type} [DecidableEq α] (t : Tab α) (k : Nat) (d : α) (f : α → α) : Tab α :=
  tput t k (f (tget t k d)) d

/-- Every listed value changed by `f`; those that become the default are dropped. -/
def tmap {α : Type} [DecidableEq α] (t : Tab α) (d : α) (f : Nat → α → α) : Tab α :=
  t.filterMap (fun kv => if f kv.1 kv.2 = d then none else some (kv.1, f kv.1 kv.2))

/-- Canonical form. -/
def twf {α : Type} [DecidableEq α] (d : α) : Tab α → Bool
  | [] => true
  | [(_, v)] => decide (v ≠ d)
  | (k, v) :: (k', v') :: r => decide (v ≠ d) && decide (k < k') && twf d ((k', v') :: r)

/-- Replaces the first element that satisfies `p` by its image under `f`. -/
def updateFirst {α : Type} (p : α → Bool) (f : α → α) : List α → List α
  | [] => []
  | a :: r => if p a then f a :: r else a :: updateFirst p f r

/-- Element `i` of a list, or the default. -/
def nth {α : Type} (l : List α) (i : Nat) (d : α) : α := l.getD i d

/-! ## Bit fields -/

/-- Bits lo + w − 1 to lo of a number. -/
def fld (x lo w : Nat) : Nat := (x >>> lo) % 2 ^ w

/-- A word built from (value, width, lowest bit) fields. -/
def packFields : List (Nat × Nat × Nat) → Nat
  | [] => 0
  | (v, w, lo) :: r => (v % 2 ^ w) <<< lo ||| packFields r

/-- `x` with bits lo + w − 1 to lo replaced by `v`. -/
def setFld (x lo w v : Nat) : Nat := (x - (fld x lo w <<< lo)) + ((v % 2 ^ w) <<< lo)

/-- A truth value as a bit. -/
def b2n (b : Bool) : Nat := if b then 1 else 0

/-- A field of a descriptor: byte offset and width in bits. -/
def dat (d : Descriptor) (byte width : Nat) : Nat := fld d.toNat (8 * byte) width

/-- A field of a 128-byte block. -/
def eat (d : EntryBlock) (byte width : Nat) : Nat := fld d.toNat (8 * byte) width

/-- `n` bytes of a number, least significant first. -/
def leBytes (n x : Nat) : List Byte := (List.range n).map (fun i => BitVec.ofNat 8 (x >>> (8 * i)))

/-- The number a list of bytes spells, least significant first. -/
def ofBytes : List Byte → Nat
  | [] => 0
  | b :: r => b.toNat + 256 * ofBytes r

/-- The number `n` bytes from offset `o` of a list spell. -/
def leAt (l : List Byte) (o n : Nat) : Nat := ofBytes ((l.drop o).take n)

/-- Saturating addition on a bit vector. -/
def satBv {w : Nat} (a : BitVec w) (n : Nat) : BitVec w := BitVec.ofNat w (satAdd (2 ^ w - 1) a.toNat n)

/-- A signed number as a field of `w` bits, saturated to its range. -/
def signedField (w : Nat) (x : Int) : BitVec w :=
  BitVec.ofInt w (if x < -(2 ^ (w - 1) : Int) then -(2 ^ (w - 1) : Int) else if x > 2 ^ (w - 1) - 1 then 2 ^ (w - 1) - 1 else x)

end Sys2Proof.Machine
end

