-- ==== Sys2Proof/Machine/Crypto.lean ====
section
/-! DEFINITION. The cryptography the spec names by its standards: SHA-384, HMAC and HKDF over it (R130, R264, R502, R654, R731), ECDSA
over P-384 (R131, R269, R741), AES-256 (R346) with XTS (R346), CMAC (R456) and GCM (R501). Byte strings are lists of bytes in their
order; inside, words and numbers are naturals. -/

namespace Sys2Proof.Machine

/-! ## Byte strings -/

/-- The number a list of bytes spells, most significant first. -/
def beNum (l : List Byte) : Nat := l.foldl (fun n b => 256 * n + b.toNat) 0

/-- `n` bytes of a number, most significant first. -/
def beBytes (n x : Nat) : List Byte := (List.range n).map (fun i => BitVec.ofNat 8 (x >>> (8 * (n - 1 - i))))

/-- A list cut into pieces of n; `fuel` bounds their number. -/
def piecesOf {α : Type} (n : Nat) : Nat → List α → List (List α)
  | 0, _ => []
  | k + 1, l => if l.isEmpty then [] else l.take n :: piecesOf n k (l.drop n)

/-! ## SHA-384 (FIPS 180-4) -/

/-- The 80 round constants, in four parts: the first 64 bits of the fractions of the cube roots of the first 80 primes. -/
def shaK0 : List Nat :=
  [0x428a2f98d728ae22, 0x7137449123ef65cd, 0xb5c0fbcfec4d3b2f, 0xe9b5dba58189dbbc,
   0x3956c25bf348b538, 0x59f111f1b605d019, 0x923f82a4af194f9b, 0xab1c5ed5da6d8118,
   0xd807aa98a3030242, 0x12835b0145706fbe, 0x243185be4ee4b28c, 0x550c7dc3d5ffb4e2,
   0x72be5d74f27b896f, 0x80deb1fe3b1696b1, 0x9bdc06a725c71235, 0xc19bf174cf692694,
   0xe49b69c19ef14ad2, 0xefbe4786384f25e3, 0x0fc19dc68b8cd5b5, 0x240ca1cc77ac9c65]
def shaK1 : List Nat :=
  [0x2de92c6f592b0275, 0x4a7484aa6ea6e483, 0x5cb0a9dcbd41fbd4, 0x76f988da831153b5,
   0x983e5152ee66dfab, 0xa831c66d2db43210, 0xb00327c898fb213f, 0xbf597fc7beef0ee4,
   0xc6e00bf33da88fc2, 0xd5a79147930aa725, 0x06ca6351e003826f, 0x142929670a0e6e70,
   0x27b70a8546d22ffc, 0x2e1b21385c26c926, 0x4d2c6dfc5ac42aed, 0x53380d139d95b3df,
   0x650a73548baf63de, 0x766a0abb3c77b2a8, 0x81c2c92e47edaee6, 0x92722c851482353b]
def shaK2 : List Nat :=
  [0xa2bfe8a14cf10364, 0xa81a664bbc423001, 0xc24b8b70d0f89791, 0xc76c51a30654be30,
   0xd192e819d6ef5218, 0xd69906245565a910, 0xf40e35855771202a, 0x106aa07032bbd1b8,
   0x19a4c116b8d2d0c8, 0x1e376c085141ab53, 0x2748774cdf8eeb99, 0x34b0bcb5e19b48a8,
   0x391c0cb3c5c95a63, 0x4ed8aa4ae3418acb, 0x5b9cca4f7763e373, 0x682e6ff3d6b2b8a3,
   0x748f82ee5defb2fc, 0x78a5636f43172f60, 0x84c87814a1f0ab72, 0x8cc702081a6439ec]
def shaK3 : List Nat :=
  [0x90befffa23631e28, 0xa4506cebde82bde9, 0xbef9a3f7b2c67915, 0xc67178f2e372532b,
   0xca273eceea26619c, 0xd186b8c721c0c207, 0xeada7dd6cde0eb1e, 0xf57d4f7fee6ed178,
   0x06f067aa72176fba, 0x0a637dc5a2c898a6, 0x113f9804bef90dae, 0x1b710b35131c471b,
   0x28db77f523047d84, 0x32caab7b40c72493, 0x3c9ebe0a15c9bebc, 0x431d67c49c100d4c,
   0x4cc5d4becb3e42b6, 0x597f299cfc657e2a, 0x5fcb6fab3ad6faec, 0x6c44198c4a475817]
def shaK : List Nat := shaK0 ++ shaK1 ++ shaK2 ++ shaK3

/-- The eight working words. -/
structure ShaSt where
  a : Nat
  b : Nat
  c : Nat
  d : Nat
  e : Nat
  f : Nat
  g : Nat
  h : Nat

/-- The initial value. -/
def shaInit : ShaSt :=
  { a := 0xcbbb9d5dc1059ed8, b := 0x629a292a367cd507, c := 0x9159015a3070dd17, d := 0x152fecd8f70e5939,
    e := 0x67332667ffc00b31, f := 0x8eb44a8768581511, g := 0xdb0c2e0d64f98fa7, h := 0x47b5481dbefa4fa4 }

/-- A 64-bit word turned right by n places. -/
def turnRight (x n : Nat) : Nat := (x >>> n ||| x <<< (64 - n)) % 2 ^ 64

def shaSig0 (x : Nat) : Nat := turnRight x 1 ^^^ turnRight x 8 ^^^ x >>> 7
def shaSig1 (x : Nat) : Nat := turnRight x 19 ^^^ turnRight x 61 ^^^ x >>> 6
def shaSum0 (x : Nat) : Nat := turnRight x 28 ^^^ turnRight x 34 ^^^ turnRight x 39
def shaSum1 (x : Nat) : Nat := turnRight x 14 ^^^ turnRight x 18 ^^^ turnRight x 41

/-- One round with a constant and a word of the schedule. -/
def shaRound (s : ShaSt) (k w : Nat) : ShaSt :=
  let t1 := s.h + shaSum1 s.e + ((s.e &&& s.f) ^^^ ((2 ^ 64 - 1 - s.e) &&& s.g)) + k + w
  let t2 := shaSum0 s.a + ((s.a &&& s.b) ^^^ (s.a &&& s.c) ^^^ (s.b &&& s.c))
  { a := (t1 + t2) % 2 ^ 64, b := s.a, c := s.b, d := s.c, e := (s.d + t1) % 2 ^ 64, f := s.e, g := s.f, h := s.g }

/-- The rounds of a block; `ws` are the next 16 words of its schedule. -/
def shaRounds : List Nat → List Nat → ShaSt → ShaSt
  | [], _, s => s
  | k :: ks, ws, s =>
    let w := ws.headD 0
    let next := (shaSig1 (nth ws 14 0) + nth ws 9 0 + shaSig0 (nth ws 1 0) + w) % 2 ^ 64
    shaRounds ks (ws.tail ++ [next]) (shaRound s k w)

/-- A block of 16 words taken into the state. -/
def shaBlock (ws : List Nat) (s : ShaSt) : ShaSt :=
  let t := shaRounds shaK ws s
  { a := (s.a + t.a) % 2 ^ 64, b := (s.b + t.b) % 2 ^ 64, c := (s.c + t.c) % 2 ^ 64, d := (s.d + t.d) % 2 ^ 64,
    e := (s.e + t.e) % 2 ^ 64, f := (s.f + t.f) % 2 ^ 64, g := (s.g + t.g) % 2 ^ 64, h := (s.h + t.h) % 2 ^ 64 }

/-- The first six words as the 48 bytes of a digest, byte 0 in bits 7:0. -/
def ShaSt.digest (s : ShaSt) : Digest := BitVec.ofNat 384 (ofBytes ([s.a, s.b, s.c, s.d, s.e, s.f].flatMap (beBytes 8)))

/-- A message with its padding: a one bit, zeros, and its length in bits as 16 bytes. -/
def shaPad (l : List Byte) : List Byte :=
  l ++ [0x80] ++ List.replicate ((239 - l.length % 128) % 128) 0 ++ beBytes 16 (8 * l.length)

/-- SHA-384 of a byte string. -/
def sha384 (l : List Byte) : Digest :=
  ((piecesOf 128 (l.length / 128 + 2) (shaPad l)).foldl (fun s b => shaBlock ((piecesOf 8 16 b).map beNum) s) shaInit).digest

/-- Byte i of the padded form of a string of n bytes that `f` gives. -/
def padByte (f : Nat → Byte) (n i : Nat) : Byte :=
  let all := 128 * ceilDiv (n + 17) 128
  if i < n then f i else if i = n then 0x80 else if i + 16 < all then 0 else BitVec.ofNat 8 ((8 * n) >>> (8 * (all - 1 - i)))

/-- The state after the first k blocks of a string given by its bytes. -/
def shaStream (f : Nat → Byte) : Nat → ShaSt
  | 0 => shaInit
  | k + 1 => shaBlock ((List.range 16).map (fun w => beNum ((List.range 8).map (fun b => f (128 * k + 8 * w + b))))) (shaStream f k)

/-- SHA-384 of a string of n bytes given by its bytes: the digest of a whole region (R274). -/
def sha384Of (f : Nat → Byte) (n : Nat) : Digest := (shaStream (padByte f n) (ceilDiv (n + 17) 128)).digest

/-- The bytes of an ASCII label. -/
def ascii (x : String) : List Byte := x.toList.map (fun c => BitVec.ofNat 8 c.toNat)

/-- A digest as its 48 bytes. -/
def digestBytes (d : Digest) : List Byte := leBytes 48 d.toNat

/-- HMAC-SHA-384 (RFC 2104). -/
def hmac384 (key msg : List Byte) : List Byte :=
  let k0 := if key.length > 128 then digestBytes (sha384 key) else key
  let k := k0 ++ List.replicate (128 - k0.length) 0
  digestBytes (sha384 (k.map (· ^^^ 0x5C) ++ digestBytes (sha384 (k.map (· ^^^ 0x36) ++ msg))))

/-- The blocks T(1), T(2), … of HKDF's expansion (RFC 5869); `n` is how many. -/
def hkdfBlocks (prk info : List Byte) : Nat → Nat → List Byte → List Byte
  | 0, _, _ => []
  | n + 1, i, prev =>
    let t := hmac384 prk (prev ++ info ++ [BitVec.ofNat 8 i])
    t ++ hkdfBlocks prk info n (i + 1) t

/-- HKDF-SHA-384: `len` bytes; an empty salt is the default one (R731). -/
def hkdf (ikm salt info : List Byte) (len : Nat) : List Byte :=
  let prk := hmac384 (if salt.isEmpty then List.replicate 48 0 else salt) ikm
  (hkdfBlocks prk info (ceilDiv len 48) 1 []).take len

/-! ## The curve P-384 (FIPS 186-4) and ECDSA -/

/-- The prime of the field. -/
def p384p : Nat := 0xfffffffffffffffffffffffffffffffffffffffffffffffffffffffffffffffeffffffff0000000000000000ffffffff
/-- The order of the base point. -/
def p384n : Nat := 0xffffffffffffffffffffffffffffffffffffffffffffffffc7634d81f4372ddf581a0db248b0a77aecec196accc52973
/-- The coefficient b; a is −3. -/
def p384b : Nat := 0xb3312fa7e23ee7e4988e056be3f82d19181d9c6efe8141120314088f5013875ac656398d8a2ed19d2a85c8edd3ec2aef
/-- The base point. -/
def p384x : Nat := 0xaa87ca22be8b05378eb1c71ef320ad746e1d3b628ba79b9859f741e082542a385502f25dbf55296c3a545e3872760ab7
def p384y : Nat := 0x3617de4a96262c6f5d9e98bf9292dc29f8f41dbd289a147ce9da3113b5f0b8c00a60b1ce1d7e819d7a431d7c90ea0e5f

/-- x^e modulo m, by the low k bits of e. -/
def powMod (m x e : Nat) : Nat → Nat
  | 0 => 1 % m
  | k + 1 =>
    let h := powMod m (x * x % m) (e / 2) k
    if e % 2 = 1 then x * h % m else h

/-- The inverse modulo a prime of at most 384 bits. -/
def invMod (m x : Nat) : Nat := powMod m (x % m) (m - 2) 384

/-- A point in Jacobian coordinates; z = 0 is the point at infinity. -/
structure JPoint where
  x : Nat
  y : Nat
  z : Nat

/-- a − b modulo p. -/
def subP (a b : Nat) : Nat := (a + (p384p - b % p384p)) % p384p

def JPoint.double (q : JPoint) : JPoint :=
  if q.z = 0 ∨ q.y = 0 then { x := 1, y := 1, z := 0 } else
    let zz := q.z * q.z % p384p
    let yy := q.y * q.y % p384p
    let v := 4 * q.x * yy % p384p
    let w := 3 * (subP q.x zz) * (q.x + zz) % p384p
    let x := subP (w * w) (2 * v)
    { x, y := subP (w * subP v x) (8 * yy * yy), z := 2 * q.y * q.z % p384p }

def JPoint.add (q r : JPoint) : JPoint :=
  if q.z = 0 then r else if r.z = 0 then q else
    let z1 := q.z * q.z % p384p
    let z2 := r.z * r.z % p384p
    let u1 := q.x * z2 % p384p
    let u2 := r.x * z1 % p384p
    let s1 := q.y * z2 * r.z % p384p
    let s2 := r.y * z1 * q.z % p384p
    if u1 = u2 then (if s1 = s2 then q.double else { x := 1, y := 1, z := 0 })
    else
      let h := subP u2 u1
      let hh := h * h % p384p
      let v := u1 * hh % p384p
      let w := subP s2 s1
      let x := subP (w * w) (h * hh + 2 * v)
      { x, y := subP (w * subP v x) (s1 * h * hh), z := h * q.z * r.z % p384p }

/-- k times a point, by the low n bits of k. -/
def JPoint.mul (q : JPoint) (k : Nat) : Nat → JPoint
  | 0 => { x := 1, y := 1, z := 0 }
  | n + 1 =>
    let r := q.double.mul (k / 2) n
    if k % 2 = 1 then q.add r else r

/-- The affine coordinates of a point that is not at infinity. -/
def JPoint.affine (q : JPoint) : Nat × Nat :=
  let i := invMod p384p q.z
  (q.x * i * i % p384p, q.y * i * i * i % p384p)

/-- The base point. -/
def p384G : JPoint := { x := p384x, y := p384y, z := 1 }

/-- Whether coordinates name a point of the curve. -/
def onCurve (x y : Nat) : Bool :=
  decide (x < p384p) && decide (y < p384p) && decide (y * y % p384p = (x * x * x + (p384p - 3) * x + p384b) % p384p)

/-- The big-endian number of a 48-byte string held with byte 0 in bits 7:0. -/
def beOf (d : Digest) : Nat := beNum (digestBytes d)
/-- The reverse: a number as a 48-byte big-endian string. -/
def ofBe (x : Nat) : Digest := BitVec.ofNat 384 (ofBytes (beBytes 48 x))

/-- Whether an ECDSA P-384 signature (r, s) over a digest verifies under the public key (x, y) (FIPS 186-4, R131). -/
def ecdsaVerify (digest x y r s : Digest) : Bool :=
  let (rn, sn) := (beOf r, beOf s)
  onCurve (beOf x) (beOf y) && decide (0 < rn) && decide (rn < p384n) && decide (0 < sn) && decide (sn < p384n) &&
    (let i := invMod p384n sn
     let q : JPoint := { x := beOf x, y := beOf y, z := 1 }
     let t := (p384G.mul (beOf digest * i % p384n) 384).add (q.mul (rn * i % p384n) 384)
     t.z != 0 && decide (t.affine.1 % p384n = rn))

/-- The public key x ‖ y of a private scalar, as two 48-byte big-endian strings. -/
def publicKey (d : Nat) : List Byte :=
  let q := (p384G.mul d 384).affine
  beBytes 48 q.1 ++ beBytes 48 q.2

/-- An ECDSA P-384 signature r ‖ s over a digest with private scalar d and the number k drawn for it (R269, R741). -/
def ecdsaSign (d k : Nat) (digest : Digest) : BitVec 768 :=
  let r := (p384G.mul k 384).affine.1 % p384n
  let s := invMod p384n k * (beOf digest + r * d) % p384n
  BitVec.ofNat 768 (ofBytes (beBytes 48 r ++ beBytes 48 s))

/-! ## AES-256 (FIPS 197). A block is a list of 16 bytes as naturals -/

/-- The substitution table, 64 bytes to a number, byte 0 lowest. -/
def sboxWords : List Nat :=
  [0x75b227ebe28012079a059618c323c7041531d871f1e5a534ccf73f362693fdb7c072a49cafa2d4adf04759fa7dc982ca76abd7fe2b670130c56f6bf27b777c63,
   0xd2f3ff1021dab6bcf5389d928f40a351a89f3c507f02f94585334d43fbaaefd0cf584c4a39becb6a5bb1fc20ed00d153842fe329b3d63b52a05a6e1b1a2c8309,
   0x08ae7a65eaf4566ca94ed58d6d37c8e779e4959162acd3c25c2406490a3a32e0db0b5ede14b8ee4688902a22dc4f816073195d643d7ea7c41744975fec130ccd,
   0x16bb54b00f2d99416842e6bf0d89a18cdf2855cee9871e9b948ed9691198f8e19e1dc186b95735610ef6034866b53e708a8bbd4b1f74dde8c6b4a61c2e2578ba]
/-- Its inverse. -/
def sboxInvWords : List Nat :=
  [0x25d18b6d49a25b76b224d92866a12e084ec3fa420b954cee3d23c2a632947b54cbe9dec444438e3487ff2f9b8239e37cfbd7f3819ea340bf38a53630d56a0952,
   0x6b8a130103bdafc1020f3fca8f1e2cd00645b3b80558e4f70ad3bc8c00abd890849d8da75746155edab9edfd5048706c92b6655dcc5ca4d41698688664f6f872,
   0xf45acd78fec0db9a2079d2c64b3e56fc1bbe18aa0e62b76f89c5291d711af1476edf751ce837f9e28535ade72274ac9673e6b4f0cecff297eadc674f4111913a,
   0x7d0c2155631469e126d677ba7e042b17619953833cbbebc8b0f52aae4d3be0a0ef9cc9939f7ae52d0d4ab519a97f51605fec8027591012b131c7078833a8dd1f]

def subByte (x : Nat) : Nat := fld (nth sboxWords (x / 64) 0) (8 * (x % 64)) 8
def subByteInv (x : Nat) : Nat := fld (nth sboxInvWords (x / 64) 0) (8 * (x % 64)) 8

/-- Multiplication by x in the field of 256 elements. -/
def xtime (a : Nat) : Nat := if a < 128 then 2 * a else (2 * a % 256) ^^^ 0x1B

/-- The key schedule: `prev` are the eight words before word i, each four bytes, first byte first. -/
def aesWords : Nat → Nat → Nat → List (List Nat) → List (List Nat)
  | 0, _, _, _ => []
  | n + 1, i, rcon, prev =>
    let last := prev.getLastD []
    let t :=
      if i % 8 = 0 then (last.tail ++ last.take 1).map subByte |>.zipIdx.map (fun x => if x.2 = 0 then x.1 ^^^ rcon else x.1)
      else if i % 8 = 4 then last.map subByte else last
    let w := (prev.headD []).zipWith (· ^^^ ·) t
    w :: aesWords n (i + 1) (if i % 8 = 0 then xtime rcon else rcon) (prev.tail ++ [w])

/-- The 15 round keys of a 32-byte key. -/
def aesKeys (key : List Nat) : List (List Nat) :=
  let ws := piecesOf 4 8 key
  (piecesOf 4 15 (ws ++ aesWords 52 8 1 ws)).map List.flatten

/-- Row r of column c comes from column c + r. -/
def shiftRows (b : List Nat) : List Nat := (List.range 16).map (fun i => nth b ((i + 4 * (i % 4)) % 16) 0)
def shiftRowsInv (b : List Nat) : List Nat := (List.range 16).map (fun i => nth b ((i + 12 * (i % 4)) % 16) 0)

def mixColumn (c : List Nat) : List Nat :=
  match c with
  | [a, b, d, e] =>
    let all := a ^^^ b ^^^ d ^^^ e
    [a ^^^ all ^^^ xtime (a ^^^ b), b ^^^ all ^^^ xtime (b ^^^ d), d ^^^ all ^^^ xtime (d ^^^ e), e ^^^ all ^^^ xtime (e ^^^ a)]
  | l => l
def mixColumns (b : List Nat) : List Nat := (piecesOf 4 4 b).flatMap mixColumn
/-- The inverse, which is the third power of the map itself. -/
def mixColumnsInv (b : List Nat) : List Nat := mixColumns (mixColumns (mixColumns b))

def xorBlock (a b : List Nat) : List Nat := a.zipWith (· ^^^ ·) b

/-- The rounds after the first key: the last one mixes no columns. -/
def aesRounds : List (List Nat) → List Nat → List Nat
  | [], b => b
  | [k], b => xorBlock (shiftRows (b.map subByte)) k
  | k :: ks, b => aesRounds ks (xorBlock (mixColumns (shiftRows (b.map subByte))) k)

/-- The cipher under a list of round keys. -/
def aesEnc (ks : List (List Nat)) (b : List Nat) : List Nat := aesRounds ks.tail (xorBlock b (ks.headD []))

/-- The inverse rounds, keys in reverse order. -/
def aesRoundsInv : List (List Nat) → List Nat → List Nat
  | [], b => b
  | [k], b => xorBlock ((shiftRowsInv b).map subByteInv) k
  | k :: ks, b => aesRoundsInv ks (mixColumnsInv (xorBlock ((shiftRowsInv b).map subByteInv) k))

def aesDec (ks : List (List Nat)) (b : List Nat) : List Nat := aesRoundsInv ks.reverse.tail (xorBlock b (ks.getLastD []))

/-- Bytes and naturals. -/
def natsOf (l : List Byte) : List Nat := l.map BitVec.toNat
def bytesOf (l : List Nat) : List Byte := l.map (BitVec.ofNat 8)

/-! ## XTS (IEEE 1619), for data of whole blocks -/

/-- A tweak block multiplied by x, as a little-endian number. -/
def xtsNext (t : Nat) : Nat := if t < 2 ^ 127 then 2 * t else (2 * t % 2 ^ 128) ^^^ 0x87

/-- The 16 bytes of a little-endian number. -/
def blockOf (t : Nat) : List Nat := natsOf (leBytes 16 t)

/-- Blocks under a cipher with the tweak stepped between them. -/
def xtsGo (f : List Nat → List Nat) : List (List Nat) → Nat → List (List Nat)
  | [], _ => []
  | b :: r, t => xorBlock (f (xorBlock b (blockOf t))) (blockOf t) :: xtsGo f r (xtsNext t)

/-- The first tweak: the data unit's number under the tweak key. -/
def xtsTweak (key : List Byte) (tweak : Nat) : Nat :=
  ofBytes (bytesOf (aesEnc (aesKeys (natsOf (key.drop 32))) (blockOf tweak)))

/-- AES-256-XTS under a 64-byte key: data key, then tweak key (R346, R731). -/
def xtsEncrypt (key : List Byte) (tweak : Nat) (data : List Byte) : List Byte :=
  bytesOf (xtsGo (aesEnc (aesKeys (natsOf (key.take 32)))) (piecesOf 16 data.length (natsOf data)) (xtsTweak key tweak)).flatten
def xtsDecrypt (key : List Byte) (tweak : Nat) (data : List Byte) : List Byte :=
  bytesOf (xtsGo (aesDec (aesKeys (natsOf (key.take 32)))) (piecesOf 16 data.length (natsOf data)) (xtsTweak key tweak)).flatten

/-! ## CMAC (NIST SP 800-38B) -/

/-- Doubling in the field, on a block as a big-endian number. -/
def cmacDouble (x : Nat) : Nat := if x < 2 ^ 127 then 2 * x else (2 * x % 2 ^ 128) ^^^ 0x87

/-- The chain over the blocks, the last one masked with a subkey. -/
def cmacGo (f : List Nat → List Nat) (k1 k2 : List Nat) : List (List Nat) → List Nat → List Nat
  | [], c => f (xorBlock c (xorBlock (0x80 :: List.replicate 15 0) k2))
  | [b], c => if b.length = 16 then f (xorBlock c (xorBlock b k1))
      else f (xorBlock c (xorBlock (b ++ 0x80 :: List.replicate (15 - b.length) 0) k2))
  | b :: r, c => cmacGo f k1 k2 r (f (xorBlock c b))

/-- AES-256-CMAC under a 32-byte key: 16 bytes. -/
def cmac (key data : List Byte) : List Byte :=
  let f := aesEnc (aesKeys (natsOf key))
  let k1 := cmacDouble (beNum (bytesOf (f (List.replicate 16 0))))
  bytesOf (cmacGo f (natsOf (beBytes 16 k1)) (natsOf (beBytes 16 (cmacDouble k1))) (piecesOf 16 (data.length + 1) (natsOf data)) (List.replicate 16 0))

/-! ## GCM (NIST SP 800-38D) with a 96-bit nonce -/

/-- The product of two blocks, as big-endian numbers, by the top k bits of x. -/
def ghashMul (x : Nat) : Nat → Nat → Nat → Nat
  | 0, _, z => z
  | k + 1, v, z => ghashMul x k (if v % 2 = 1 then v / 2 ^^^ 0xE1000000000000000000000000000000 else v / 2) (if x.testBit k then z ^^^ v else z)

/-- GHASH of a byte string of whole blocks. -/
def ghash (h : Nat) (l : List Byte) : Nat :=
  (piecesOf 16 l.length l).foldl (fun y b => ghashMul (y ^^^ beNum b) 128 h 0) 0

/-- Zeros up to a whole block. -/
def pad16 (l : List Byte) : List Byte := l ++ List.replicate ((16 - l.length % 16) % 16) 0

/-- The key stream laid over data: block i under the counter i + 2. -/
def gcmCrypt (key nonce data : List Byte) : List Byte :=
  let ks := aesKeys (natsOf key)
  let stream := (List.range (ceilDiv data.length 16)).flatMap (fun i => aesEnc ks (natsOf (nonce ++ beBytes 4 (i + 2))))
  bytesOf ((natsOf data).zipWith (· ^^^ ·) stream)

/-- The tag over the additional data and the ciphertext. -/
def gcmTag (key nonce aad ct : List Byte) : List Byte :=
  let ks := aesKeys (natsOf key)
  let h := beNum (bytesOf (aesEnc ks (List.replicate 16 0)))
  let y := ghash h (pad16 aad ++ pad16 ct ++ beBytes 8 (8 * aad.length) ++ beBytes 8 (8 * ct.length))
  beBytes 16 (y ^^^ beNum (bytesOf (aesEnc ks (natsOf (nonce ++ beBytes 4 1)))))

end Sys2Proof.Machine
end

