-- ==== Sys2Proof/Config.lean ====
section
/-! DEFINITION. What the spec leaves open, as constants without a body: no proof can see a value of them, so every statement
holds for every choice. `n` is the counter `State.free`, which each use advances, so that each use is a fresh value. -/

namespace Sys2Proof.Config

/-- A random value the device draws (chain identifiers and secrets R263, nonces R489, region generations R559, tweaks R339,
the debug challenge R739): the model names it by the counter. (DESIGN CHOICE, log entry 9.) -/
opaque random : Nat → Nat

/-- A choice the spec leaves to the device (which free page of a pool it takes, R289; which free tally object): the index
chosen among the candidates is this number modulo their count. -/
opaque choice : Nat → Nat

/-- The element codes of a block-scaled output block that holds a NaN or an infinity, whose scale reads every element as NaN (R206,
R207): by the format, the block's values as FP32 and the element's index. (DEDUCED, log entry 39.) -/
opaque openCode : Nat → List Nat → Nat → Nat

/-- The gradients of R312 to the last bit, whose rounding the spec does not fix: by the bytes the operation read, the output (0 dQ,
1 dK, 2 dV), and the index of the byte. (DESIGN CHOICE, log entry 14.) -/
opaque gradByte : List Byte → Nat → Nat → Byte

/-- The private scalar of the identity key, which the Lodge's fuses hold (R729): no register returns it. -/
opaque identityScalar : Nat

/-- The memory root key and the four fabric key slots of the Lodge's fuses, 32 bytes each (R729). -/
opaque memoryRoot : List Byte
opaque fabricKey : Nat → List Byte

/-- The sampling hash of R255: chain secret, SEQ, operation sequence and tile index. -/
opaque sampleHash : Nat → Nat → Nat → Nat → Nat

/-- Whether a distance that is NaN ranks as nearer than every number, rather than farther (R627 orders no NaN). -/
opaque nanNear : Bool

/-- Kuolmac's line code of a DDR5 line and its MAC bytes, which the spec names and does not define (R454). (DESIGN CHOICE, log entry 103.) -/
opaque lineCode : List Byte → W64

end Sys2Proof.Config
end

