-- ==== Sys2Proof/Machine/Flags.lean ====
section
/-! DEFINITION. The status and flag computations every family shares: the status codes and what counts as success (R120), the
order of checks (R764), the fill level, phase bit and moderation of a completion ring (R93, R114, R116, R122). The block has no
arithmetic flags; the flags of a check are computed in Check.lean, those of the number formats in Num.lean. -/

namespace Sys2Proof.Machine

/-! ## Status -/

/-- The code of a status (R120). -/
def Status.code : Status → Byte
  | .ok => 0x00 | .okShort => 0x01 | .okRecomputed => 0x02
  | .checkFail => 0x10 | .lengthMismatch => 0x11 | .codeInvalid => 0x12 | .crcFail => 0x13 | .poisonConsumed => 0x14
  | .admitMemory => 0x20 | .admitTime => 0x21 | .platformExhausted => 0x22
  | .regionRevoked => 0x30 | .keyInvalid => 0x31 | .peerDead => 0x32 | .remoteTimeout => 0x33
  | .ownershipLost => 0x40 | .stateLost => 0x41 | .partnerLost => 0x42
  | .functionDisabled => 0x50 | .cancelled => 0x51 | .raceLost => 0x52
  | .possessionBusy => 0x60 | .tenantMismatch => 0x61 | .malformed => 0x70 | .internal => 0xFF

/-- Success is reported by the codes 0x00 to 0x02 (R120). -/
def Status.success (st : Status) : Bool := decide (st.code.toNat ≤ 2)

/-- Outcome of an ordered list of checks: the first that fails (R764). -/
def firstFail : List (Bool × (Status × Nat)) → Option (Status × Nat)
  | [] => none
  | (b, r) :: rest => if b then some r else firstFail rest

/-! ## Rings -/

/-- Entries a completion ring holds (R93, R116). -/
def Cq.used (c : Cq) : Nat := (c.tail - c.head).toNat
/-- Whether a completion ring has room (R116). -/
def Cq.room (c : Cq) : Bool := decide (c.used < 2 ^ c.logSize.toNat)
/-- The phase bit of position p (R114). -/
def phaseAt (p : W32) (logSize : Nat) : Bool := decide (p.toNat / 2 ^ logSize % 2 = 0)

/-- The address of position p of a ring of slots of `size` bytes (R92, R114). -/
def slotAddr (base : W64) (logSize size : Nat) (p : W32) : Nat := base.toNat + size * (p.toNat % 2 ^ logSize)

/-- The 32 bytes of a completion or event record (R113). -/
def Rec.bytes (r : Rec) : List Byte :=
  leBytes 4 r.tag.toNat ++ [r.status, r.opcode, r.sq, 0] ++ leBytes 4 r.sqPos.toNat ++ leBytes 2 r.context.toNat ++ [0, 0] ++
  leBytes 8 r.result.toNat ++ leBytes 4 r.execSc.toNat ++ leBytes 2 (if r.phase then 1 else 0) ++ leBytes 2 r.faultRef.toNat

/-- The 32 bytes of a token record (R400). -/
def TokRec.bytes (t : TokRec) : List Byte :=
  leBytes 2 t.entry ++
  [BitVec.ofNat 8 (t.tokens.length + (if t.first then 8 else 0) + (if t.last then 16 else 0) + (if t.phase then 128 else 0)), 0] ++
  leBytes 4 t.position.toNat ++ ((t.tokens ++ List.replicate (5 - t.tokens.length) 0).flatMap (fun (x : W32) => leBytes 4 x.toNat)) ++ leBytes 4 t.step.toNat

/-- Counts a written record toward moderation: whether the vector is signalled, and the ring after it (R122). -/
def moderate (c : Cq) (counted : Bool) : Bool × Cq :=
  if !(c.irqEn && counted) then (false, c)
  else if c.count + 1 ≥ max 1 c.modCount.toNat then (true, { c with count := 0, timer := false })
  else (false, { c with count := c.count + 1, timer := decide (c.modTime ≠ 0) })

end Sys2Proof.Machine
end

