-- ==== Sys2Proof/Machine/Ops.lean ====
section
/-! DEFINITION. The operations every family shares: accessors, outputs, MSI-X, completion and event records (R113 to R122),
completing a descriptor (R99), tenants and functions (R395, R714, R715), possessions (R690 to R693). -/

namespace Sys2Proof.Machine

/-! ## When a command acts -/

/-- The device has power and no trip has stopped its clocks (R61, R750). -/
def State.live (s : State) : Bool := decide (s.power.st ≠ .off) && !s.power.tripped

/-- Bring-up has ended in READY (R643). -/
def State.ready (s : State) : Bool := s.live && decide (s.boot.stage = .ready)

/-- HBM, DDR5, the codec and the Timetable are clocked: N0 or N1 (R50, R61), and bring-up has not failed (R646). -/
def State.awake (s : State) : Bool :=
  s.live && (decide (s.power.st = .n0) || decide (s.power.st = .n1)) && decide (s.boot.stage ≠ .failed)

/-- The DDR5 region whose places a descriptor writes: MT_STORE, or KV_SPILL COPY to DDR5 (R317, R471). -/
def ddrWritten (d : Descriptor) : Option Nat :=
  if dat d 0 8 = 0x54 then some (dat d 20 8)
  else if dat d 0 8 = 0x35 ∧ dat d 16 8 = 0 ∧ dat d 17 8 = 1 then some (fld (dat d 32 64) 38 8)
  else none

/-- Whether a descriptor fetched now writes a region that is not UNSEALED (R452). -/
def writesSealed (d : Descriptor) (s : State) : Bool :=
  match ddrWritten d with
  | some id => (tget s.ddr.regions id {}).st != .unsealed
  | none => false

/-- What no command changes: the fuses, burned when the part is made (R729; committing a security version, R737, is the one
exception and says so itself), and the queue of the commands that wait. -/
def State.kept (s t : State) : State := { t with fuses := s.fuses, pending := s.pending }

/-- The next state of a command that acts only while the device has power. (DESIGN CHOICE, log entry 3.) -/
def act (s : State) (f : State → State) : Host.Outcome State Fault Refusal := .next (if s.live then s.kept (f s) else s)

/-- The next state of a command that acts only under a condition: where it does not hold, the event cannot occur. -/
def actIf (s : State) (c : Bool) (f : State → State) : Host.Outcome State Fault Refusal :=
  .next (if s.live && c then s.kept (f s) else s)

/-! ## What reaches the device -/

/-- The link is up and bring-up has ended (R641, R646). -/
def portOpen (s : State) : Bool :=
  s.live && s.host.mode != .down && (s.boot.stage == .ready || s.boot.stage == .failed)

/-- Whether an access of a function reaches the device: virtual functions exist in CXL2 and PCIE modes while VF Enable is 1 (R78,
R89). -/
def reaches (f : Nat) (s : State) : Bool :=
  portOpen s && (f == 0 || (s.host.vfEnable && decide (f ≤ s.host.numVfs) && (s.host.mode == .cxl2 || s.host.mode == .pcie)))

/-- Ring enables are refused and other writes discarded (R78, R85, R97, R646). -/
def readsOnly (s : State) : Bool := s.host.mode == .degraded || s.boot.stage == .failed

/-- A BAR0 write of a function is accepted (R78, R85). -/
def writes (f : Nat) (s : State) : Bool := reaches f s && !readsOnly s

/-- CXL.cache and CXL.mem are carried (R78). -/
def cxlMode (s : State) : Bool := s.host.mode == .cxl2 || s.host.mode == .cxl1

/-! ## Accessors -/

def State.fn (s : State) (f : Nat) : FnRegs := tget s.host.fns f {}
def State.sq (s : State) (n : Nat) : Sq := tget s.host.sqs n {}
def State.cq (s : State) (n : Nat) : Cq := tget s.host.cqs n {}
def State.ctx (s : State) (c : Nat) : Ctx := tget s.ft.ctxs c {}
def State.ctxMap (s : State) (c : Nat) : CtxMap := tget s.tn.ctx c {}
def State.entry (s : State) (i : Nat) : Entry := tget s.tt.entries i {}
def State.ttregs (s : State) (p : Nat) : TtRegs := tget s.tt.regs p {}
def State.conn (s : State) (c : Nat) : Conn := tget s.rc.conns c {}
def State.slot (s : State) (k : Nat) : RegSlot := tget s.rc.slots k {}
def State.ddrRegion (s : State) (r : Nat) : DdrRegion := tget s.ddr.regions r {}
def State.lantern (s : State) (n : Nat) : Lantern := tget s.rail.lanterns n {}
def State.link (s : State) (n l : Nat) : Link := tget (s.lantern n).links l {}
def State.lane (s : State) (n l : Nat) : Lane := tget (s.lantern n).lanes l {}
def State.grove (s : State) (g : Nat) : Grove := tget s.groves.groves g {}
def State.stand (s : State) (g l : Nat) : Stand := tget s.groves.stands (100 * g + l) {}
def State.phys (s : State) (g p : Nat) : Phys := tget s.groves.phys (100 * g + p) {}
def State.chain (s : State) (p : Nat) : Chain := tget s.waybill.chains p {}
def State.peer (s : State) (n : Nat) : Peer := tget s.rail.peers n {}
def State.pool (s : State) (r : Nat) : Pool := tget s.mem.pools r {}
def State.keySlot (s : State) (n : Nat) : KeySlot := tget s.mem.keySlots n {}

def State.modFn (s : State) (f : Nat) (g : FnRegs → FnRegs) : State :=
  { s with host := { s.host with fns := tmod s.host.fns f {} g } }
def State.modSq (s : State) (n : Nat) (g : Sq → Sq) : State :=
  { s with host := { s.host with sqs := tmod s.host.sqs n {} g } }
def State.modCq (s : State) (n : Nat) (g : Cq → Cq) : State :=
  { s with host := { s.host with cqs := tmod s.host.cqs n {} g } }
def State.modCtx (s : State) (c : Nat) (g : Ctx → Ctx) : State :=
  { s with ft := { s.ft with ctxs := tmod s.ft.ctxs c {} g } }
def State.modEntry (s : State) (i : Nat) (g : Entry → Entry) : State :=
  { s with tt := { s.tt with entries := tmod s.tt.entries i {} g } }
def State.modTtRegs (s : State) (p : Nat) (g : TtRegs → TtRegs) : State :=
  { s with tt := { s.tt with regs := tmod s.tt.regs p {} g } }
def State.modConn (s : State) (c : Nat) (g : Conn → Conn) : State :=
  { s with rc := { s.rc with conns := tmod s.rc.conns c {} g } }
def State.modSlot (s : State) (k : Nat) (g : RegSlot → RegSlot) : State :=
  { s with rc := { s.rc with slots := tmod s.rc.slots k {} g } }
def State.modDdr (s : State) (r : Nat) (g : DdrRegion → DdrRegion) : State :=
  { s with ddr := { s.ddr with regions := tmod s.ddr.regions r {} g } }
def State.modLantern (s : State) (n : Nat) (g : Lantern → Lantern) : State :=
  { s with rail := { s.rail with lanterns := tmod s.rail.lanterns n {} g } }
def State.modLink (s : State) (n l : Nat) (g : Link → Link) : State :=
  s.modLantern n (fun x => { x with links := tmod x.links l {} g })
def State.modLane (s : State) (n l : Nat) (g : Lane → Lane) : State :=
  s.modLantern n (fun x => { x with lanes := tmod x.lanes l {} g })
def State.modGrove (s : State) (g : Nat) (f : Grove → Grove) : State :=
  { s with groves := { s.groves with groves := tmod s.groves.groves g {} f } }
def State.modStand (s : State) (g l : Nat) (f : Stand → Stand) : State :=
  { s with groves := { s.groves with stands := tmod s.groves.stands (100 * g + l) {} f } }
def State.modPhys (s : State) (g p : Nat) (f : Phys → Phys) : State :=
  { s with groves := { s.groves with phys := tmod s.groves.phys (100 * g + p) {} f } }
def State.modChain (s : State) (p : Nat) (f : Chain → Chain) : State :=
  { s with waybill := { s.waybill with chains := tmod s.waybill.chains p {} f } }
def State.modPeer (s : State) (n : Nat) (f : Peer → Peer) : State :=
  { s with rail := { s.rail with peers := tmod s.rail.peers n {} f } }
def State.modPool (s : State) (r : Nat) (f : Pool → Pool) : State :=
  { s with mem := { s.mem with pools := tmod s.mem.pools r {} f } }
def State.modSl (s : State) (p : Nat) (f : SlCnt → SlCnt) : State :=
  { s with sleeper := { s.sleeper with cnt := tmod s.sleeper.cnt p {} f } }
/-- FT_SLOW[c][k] saturates (R706). -/
def State.slow (s : State) (c k n : Nat) : State :=
  { s with ft := { s.ft with slow := tmod s.ft.slow (4 * c + k) 0 (fun v => satBv v n) } }
/-- FT_USAGE[t][p][j] (R707). -/
def State.use (s : State) (t p j n : Nat) : State :=
  { s with ft := { s.ft with usage := tmod s.ft.usage (16 * t + 4 * p + j) 0 (· + n) } }

/-- Adds an output. -/
def State.emit (s : State) (o : Out) : State := { s with out := s.out ++ [o] }

/-- Advances the counter of free values. -/
def State.fresh (s : State) : State := { s with free := s.free + 1 }

/-- The Lodge draws the 48-byte challenge it presents over JTAG (R739). -/
def newChallenge (s : State) : State :=
  let s1 := s.fresh
  { s1 with trust := { s1.trust with challenge := BitVec.ofNat 384 (Config.random s.free) } }

/-- The work item with a number. -/
def State.item (s : State) (wid : Nat) : Option Work := s.work.find? (fun w => w.wid == wid)

/-- Changes what a work item is doing. -/
def State.setProg (s : State) (wid : Nat) (p : Prog) : State :=
  { s with work := updateFirst (fun w => w.wid == wid) (fun w => { w with prog := p }) s.work }

/-- Present Stands of a partition with a duty: (Grove, logical) in order (R136, R236). -/
def standsOf (p duty : Nat) (s : State) : List (Nat × Nat) :=
  match s.img.image.bind (fun i => i.parts[p]?) with
  | none => []
  | some q => (List.range 4).filter (fun g => q.groves.getLsbD g) |>.flatMap (fun g =>
      ((List.range 100).filter (fun l => (s.stand g l).physical.isSome && (s.stand g l).duty == duty)).map (fun l => (g, l)))

/-! ## The Grove clock (R53, R748) -/

/-- The divider code in force on a Grove: the larger of its two causes (R749). -/
def dividerOf (g : Nat) (c : Clk) : Nat := max (tget c.therm g 0) (tget c.cur g 0)

/-- The largest divider in force on any Grove: CK_STATUS.GCK_DIV (R748). (DEDUCED, log entry 29.) -/
def gckDiv (c : Clk) : Nat := max (max (dividerOf 0 c) (dividerOf 1 c)) (max (dividerOf 2 c) (dividerOf 3 c))

/-- The root cycles of one gc on a Grove: 4, 5, 6 or 8 (R53, R748). -/
def groveDivider (g : Nat) (s : State) : Nat := nth [4, 5, 6, 8] (dividerOf g s.clk) 4

/-! ## Functions, rings and vectors (R91, R121) -/

/-- The function that owns a submission or completion ring. -/
def ringFn (n : Nat) : Nat := if n < 128 then 0 else (n - 128) / 8 + 1
/-- A ring's number within its function. -/
def ringLocal (n : Nat) : Nat := if n < 128 then n else (n - 128) % 8
/-- The device-wide number of a function's ring. -/
def ringOf (f r : Nat) : Nat := if f = 0 then r else 128 + 8 * (f - 1) + r
/-- Whether a function has a ring of that number. -/
def ringExists (f r : Nat) : Bool := if f = 0 then decide (r < 128) else decide (f ≤ 16) && decide (r < 8)
/-- The device-wide number of a function's vector. -/
def vectorOf (f v : Nat) : Nat := if f = 0 then v else 128 + 120 * (f - 1) + v
/-- The vectors of a function. -/
def vectorCount (f : Nat) : Nat := if f = 0 then 128 else 120

/-- Signals a vector: its message is sent, or its pending bit set while the function or the vector may send none (R121). -/
def msixSignal (f v : Nat) (s : State) : State :=
  let n := vectorOf f v
  let m := tget s.host.msix n {}
  if (s.fn f).msixEn && !(s.fn f).fmask && !m.mask then s.emit (.msix n)
  else { s with host := { s.host with msix := tput s.host.msix n { m with pend := true } {} } }

/-! ## Completion and event records -/

/-- Whether records and events of a function can reach the host: the port is up, and a virtual function exists or is being
disabled (R119, R123, R124, R696). -/
def reachable (f : Nat) (s : State) : Bool :=
  decide (s.host.mode ≠ .down) && (decide (f = 0) || s.host.vfEnable || decide ((s.fn f).disabling ≠ .no))

/-- Counts a record or event that could not be written (R119). -/
def loseRec (f : Nat) (s : State) : State := s.modFn f (fun r => { r with lost := satBv r.lost 1 })

/-- The sc from a fetch to now, saturated; 0 where nothing was fetched (R113). -/
def execScOf (since : Option Nat) (s : State) : W32 := match since with | some t => satBv 0 (s.clk.sc - t) | none => 0

/-- While a completion ring is full its head line is read again (R116). -/
def readHead (n : Nat) (s : State) : State := if (s.cq n).room then s else s.emit (.cqHeadRead n (s.cq n).headAddr.toNat)

/-- Writes a record at the ring's tail (R113 to R116) and counts it toward moderation. -/
def putRec (n : Nat) (r : Rec) (s : State) : State :=
  let c := s.cq n
  let m := moderate { c with tail := c.tail + 1 } r.counted
  let r1 := { r with phase := phaseAt c.tail c.logSize.toNat, execSc := execScOf r.since s }
  let s1 := (s.modCq n (fun _ => m.2)).emit (.record n c.tail (slotAddr c.base c.logSize.toNat 32 c.tail) r1.bytes)
  readHead n (if m.1 then msixSignal (ringFn n) c.vector.toNat s1 else s1)

/-- Gives a record to a completion ring: written while there is room, held while it is full, lost when the port is
down or the ring takes none; a function being disabled loses what finds no room (R116, R119, R696). -/
def giveRec (f local_ : Nat) (r : Rec) (s : State) : State :=
  let n := ringOf f local_
  let c := s.cq n
  if !(reachable f s && ringExists f local_ && c.enable) then loseRec f s
  else if c.held.isEmpty && c.room then putRec n r s
  else if (s.fn f).disabling ≠ .no then loseRec f s
  else s.modCq n (fun c => { c with held := c.held ++ [r] })

/-- A submission ring whose completion ring holds records for want of room: what would produce more of them stalls (R116). -/
def ringStalled (n : Nat) (s : State) : Bool :=
  !(s.cq (ringOf (ringFn n) (s.sq n).cq.toNat)).held.isEmpty && decide ((s.fn (ringFn n)).disabling = .no)

/-- Whether a full completion ring stalls a piece of work (R116). -/
def stalledWork (w : Work) (s : State) : Bool := match w.src with | .ring n _ => !w.orphan && ringStalled n s | .step _ _ => false

/-- Completion records of a submission ring that its completion ring still holds (R116). -/
def heldOf (n : Nat) (s : State) : List Rec :=
  ((s.cq (ringOf (ringFn n) (s.sq n).cq.toNat)).held).filter (fun r => r.opcode != 0xFF && r.sq.toNat == ringLocal n)

/-- Descriptors of a ring fetched and not completed, those whose record waits for room included (R95, R116). (DEDUCED, log entry 16.) -/
def inFlight (n : Nat) (s : State) : Nat :=
  (s.work.filter (fun w => !w.orphan && (match w.src with | .ring m _ => m == n | _ => false))).length + (heldOf n s).length

/-- A draining ring with nothing in flight becomes disabled (R99). When ERR returns to 0 the spec does not say: here, and at every enable.
(DESIGN CHOICE, log entry 92.) -/
def settleRing (n : Nat) (s : State) : State :=
  if (s.sq n).st = .draining ∧ inFlight n s = 0 ∧ (s.sq n).fetching = 0 then
    s.modSq n (fun q => { q with st := .disabled, err := 0 }) else s

/-- Writes held records while there is room (R116); `fuel` is their number. -/
def flushHeld (n : Nat) : Nat → State → State
  | 0, s => s
  | k + 1, s =>
    match (s.cq n).held with
    | [] => s
    | r :: rest =>
      if (s.cq n).room then
        let s1 := putRec n r (s.modCq n (fun c => { c with held := rest }))
        flushHeld n k (if r.opcode = 0xFF then s1 else settleRing (ringOf (ringFn n) r.sq.toNat) s1)
      else s

/-- Sends an event to a function: an event record in the ring HI_EVT_CFG names, or a lost count (R117 to R119). -/
def event (f : Nat) (code : Nat) (result : Nat) (s : State) (status : Byte := 0) (sqPos : W32 := 0) (ctx : Nat := 0)
    (fr : BitVec 16 := 0) : State :=
  let fn := s.fn f
  let r : Rec :=
    { tag := BitVec.ofNat 32 code, status, opcode := 0xFF, sq := 0xFF, sqPos, context := BitVec.ofNat 12 ctx,
      result := BitVec.ofNat 64 result, execSc := 0, phase := false, faultRef := fr, counted := true }
  if fn.evtEnable then giveRec f fn.evtCq.toNat r s else loseRec f s

/-! ## Tenants and functions -/

/-- Whether a tenant is mapped to a partition (R711). -/
def mapped (p t : Nat) (s : State) : Bool := (tget s.tn.parts p 0).toNat.testBit t

/-- The tenant a function acts for (R714); none for the physical function, which acts for every tenant. -/
def fnTenant (f : Nat) (s : State) : Option Nat :=
  if f = 0 then none else let v := tget s.tn.vf f {}
  if v.valid then some v.tenant else none

/-- The lowest virtual function of a tenant that exists and is enabled, else the physical function (R395); `without` is left
out. -/
def tenantFn (t : Nat) (s : State) (without : Option Nat := none) : Nat :=
  ((List.range 17).find? (fun f => decide (0 < f) && decide (f ≤ s.host.numVfs) && s.host.vfEnable
    && fnTenant f s == some t && decide (some f ≠ without) && (s.fn f).disabling == .no)).getD 0

/-- Whether a context fails R103 or R715 for a function. -/
def ctxMismatch (f c : Nat) (s : State) : Bool :=
  let m := s.ctxMap c
  !m.valid || !mapped m.part m.tenant s || (decide (f ≠ 0) && decide (fnTenant f s ≠ some m.tenant))

/-! ## The end of a function disable -/

/-- A function's HI_ registers at reset, but HI_LOST_CPL (R123, R696). -/
def FnRegs.resetHi (r : FnRegs) : FnRegs := { lost := r.lost, disabling := r.disabling, newTenant := r.newTenant }

/-- LD_TN_VF as written (R743). -/
def vfMapOf (v : W32) : VfMap := { valid := v.toNat.testBit 31, tenant := fld v.toNat 0 4 }

/-- Steps 5 and 6 of R696: entries take another function, what its rings still held is counted, the function's registers return to
reset; a tenant written meanwhile takes effect (R714). -/
def finishDisable (f : Nat) (s : State) : State :=
  let s1 : State := { s with
    tt := { s.tt with entries := tmap s.tt.entries {} (fun _ e =>
      if e.st ≠ .free ∧ e.fn = f then { e with fn := tenantFn e.tenant s (some f) } else e) },
    host := { s.host with
      sqs := s.host.sqs.filter (fun kv => ringFn kv.1 != f), cqs := s.host.cqs.filter (fun kv => ringFn kv.1 != f),
      poll := if f = 0 then 0xDAC else s.host.poll,
      msix := s.host.msix.filter (fun kv => !(decide (vectorOf f 0 ≤ kv.1) && decide (kv.1 < vectorOf f 0 + vectorCount f))) },
    tn := (match (s.fn f).newTenant with
      | some v => { s.tn with vf := tput s.tn.vf f (vfMapOf v) {} }
      | none => s.tn) }
  let held := ((s.host.cqs.filter (fun kv => ringFn kv.1 == f)).map (fun kv => kv.2.held.length)).sum + (s.fn f).tok.held.length
  s1.modFn f (fun r => { r.resetHi with disabling := .no, newTenant := none, lost := satBv r.lost held })

/-- A disabled function with no work left is reset (R696). -/
def settleDisable (f : Nat) (s : State) : State :=
  if (s.fn f).disabling = .ending ∧ !s.work.any (fun w => w.fn == f && (match w.src with | .ring _ _ => true | _ => false)) then
    finishDisable f s else s

/-! ## Completing a descriptor -/

/-- A contained record closes once nothing it waits for is left (R678). -/
def settleRecs (s : State) : State :=
  { s with ft := { s.ft with recs := tmap s.ft.recs {} (fun _ r =>
      if r.isOpen && decide (r.cls.toNat < 3) && r.waits.isEmpty then
        { r with isOpen := false, closeAc := s.clk.ac } else r) } }

/-- Removes a cause of waiting from every open record, and closes those left with none. -/
def closeFor (c : Closer) (s : State) : State :=
  settleRecs { s with ft := { s.ft with recs := tmap s.ft.recs {} (fun _ r =>
    { r with waits := r.waits.filter (fun x => decide (x ≠ c)) }) } }

/-- The completion record of a descriptor (R113); EXEC_SC is counted when it is written. -/
def recOf (w : Work) (st : Status) (result : Nat) (fr : BitVec 16) : Rec :=
  { tag := w.tag, status := st.code, opcode := w.opcode,
    sq := BitVec.ofNat 8 (match w.src with | .ring n _ => ringLocal n | .step _ _ => 0xFF),
    sqPos := (match w.src with | .ring _ p => p | .step _ _ => 0), context := BitVec.ofNat 12 w.context,
    result := BitVec.ofNat 64 result, execSc := 0, phase := false, faultRef := fr, counted := w.irq, since := some w.fetchSc }

/-- Notes that the entry of a step has ended (R393, R399). -/
def noteStepEntry (p : Nat) (st : Status) (result : Nat) (fr : BitVec 16) (s : State) : State :=
  { s with tt := { s.tt with steps := tmod s.tt.steps p none (fun o =>
      o.map (fun x => { x with ended := some (st, BitVec.ofNat 64 result), faultRef := if fr = 0 then x.faultRef else fr })) } }

/-- Completes a descriptor: it leaves the device, and its record is given to its ring unless SILENT is set and the status is
OK (R99, R101, R116); the record of an orphan is counted as lost (R123, R124). An entry of a step writes no record: its step notes it. -/
def complete (w : Work) (st : Status) (result : Nat) (s : State) (fr : BitVec 16 := 0) : State :=
  let s1 := { s with work := s.work.filter (fun x => x.wid != w.wid) }
  let s2 := match w.src with
    | .ring n _ =>
      settleRing n (if w.silent && decide (st = .ok) then s1 else if w.orphan then loseRec (ringFn n) s1
        else giveRec (ringFn n) (s.sq n).cq.toNat (recOf w st result fr) s1)
    | .step p _ => noteStepEntry p st result fr s1
  settleDisable w.fn (closeFor (.work w.wid) s2)

/-- Completes the descriptor with a work number, if it is in flight. -/
def completeWid (wid : Nat) (st : Status) (result : Nat) (s : State) (fr : BitVec 16 := 0) : State :=
  match s.item wid with
  | some w => complete w st result s fr
  | none => s

/-- Completes as malformed with a cause in RESULT[7:0]. -/
def malformed (w : Work) (cause : Nat) (s : State) : State := complete w .malformed cause s

/-- Completes as malformed where the spec names no cause: RESULT[7:0] is a free value. (DESIGN CHOICE, log entry 7.) -/
def malformedFree (w : Work) (s : State) : State := complete w .malformed (Config.random s.free % 256) s.fresh

/-! ## Starting a descriptor -/

/-- Whether an earlier descriptor of the same ring is still in flight (R101, FENCE). -/
def fenced (w : Work) (s : State) : Bool :=
  match w.src with
  | .ring n p => w.fence && (s.work.any (fun x => decide (x.wid < w.wid) && (match x.src with | .ring m _ => m == n | _ => false)) ||
      (heldOf n s).any (fun r => decide (0 < (p - r.sqPos).toNat) && decide ((p - r.sqPos).toNat < 2 ^ 31)))
  | .step _ _ => false

/-- Whether a partition's switch holds its work (R720). -/
def switching (p : Nat) (s : State) : Bool :=
  match s.tn.switch with
  | some x => x.part == p
  | none => false

/-- Whether a context may start work: it is ACTIVE or INHERIT and not queued on a semaphore (R697, R702). -/
def ctxRuns (c : Nat) (s : State) : Bool :=
  ((s.ctx c).st == .active || (s.ctx c).st == .inherit) && (s.ctx c).waiting.isNone

/-- Whether a started descriptor's next piece may start: a tile, a row set, a query's search; none of a context that is SAVING or SAVED
(R697, R698). -/
def ctxGiven (w : Work) (s : State) : Bool := (s.ctx w.context).st == .active || (s.ctx w.context).st == .inherit

/-- Whether a descriptor may start: its fence, its ring's room, its context and a tenant switch allow it (R101, R116, R697, R702, R720). -/
def mayStart (w : Work) (s : State) : Bool :=
  w.prog == .waiting && !fenced w s && !stalledWork w s && ctxRuns w.context s && (!switching w.part s || (match w.src with | .step _ _ => true | _ => false))

/-- A descriptor with the opcode starts: `f` gives its effect. It stays waiting while the fence, a full ring, its context, a tenant switch or
the power state holds it. (DEDUCED, log entry 4.) -/
def start (wid : Nat) (opcode : Byte) (s : State) (f : Work → State → State) : Host.Outcome State Fault Refusal :=
  .next (match s.item wid with
    | some w => if s.awake && w.opcode == opcode && mayStart w s then s.kept (f w s) else s
    | none => s)

/-- A started descriptor goes on: `f` gives the effect when its progress is as `sel` reads it. -/
def resume {α : Type} (wid : Nat) (s : State) (sel : Prog → Option α) (f : Work → α → State → State) :
    Host.Outcome State Fault Refusal :=
  .next (match s.item wid with
    | some w => (match sel w.prog with
      | some a => if s.awake then s.kept (f w a s) else s
      | none => s)
    | none => s)

/-! ## Possessions (R690 to R693) -/

/-- The stack pairs of a Grove, the Lanterns of a Station: the domains that overlap domain `d` (R690, R32, R27). -/
def overlaps (a b : Nat) : Bool :=
  a == b ||
  (decide (a < 4) && decide (4 ≤ b ∧ b < 12) && (b - 4) / 2 == a) || (decide (b < 4) && decide (4 ≤ a ∧ a < 12) && (a - 4) / 2 == b) ||
  (decide (20 ≤ a ∧ a < 22) && decide (12 ≤ b ∧ b < 20) && (if (b - 12) / 2 % 2 = 0 then 20 else 21) == a) ||
  (decide (20 ≤ b ∧ b < 22) && decide (12 ≤ a ∧ a < 20) && (if (a - 12) / 2 % 2 = 0 then 20 else 21) == b)

/-- Whether two sets of domains overlap. -/
def domsOverlap (a b : BitVec 22) : Bool :=
  (List.range 22).any (fun i => a.toNat.testBit i && (List.range 22).any (fun j => b.toNat.testBit j && overlaps i j))

/-- Every domain. -/
def allDomains : BitVec 22 := 0x3FFFFF

/-- The set of one domain. -/
def oneDomain (d : Nat) : BitVec 22 := BitVec.ofNat 22 (2 ^ d)

/-- Activities never refused (R693). -/
def neverRefused (a : Byte) : Bool := a == 0x06 || a == 0x10 || a == 0x11 || a == 0x12

/-- Waiting requests, those never refused left out, that name a domain overlapping `d` (R693). -/
def waitingOn (d : Nat) (s : State) : Nat :=
  (s.ft.queue.filter (fun q => !neverRefused q.activity && domsOverlap q.domains (oneDomain d))).length

/-- The first domain of a request whose queue is full (R693). -/
def fullDomain (doms : BitVec 22) (s : State) : Option Nat :=
  (List.range 22).find? (fun d => doms.toNat.testBit d && decide (waitingOn d s ≥ 8))

/-- Whether a request may be granted: no held possession and no earlier waiting request overlaps it (R692). -/
def grantable (held earlier : List Poss) (r : Poss) : Bool :=
  !(held.any (fun h => domsOverlap h.domains r.domains)) && !(earlier.any (fun h => domsOverlap h.domains r.domains))

/-- Requests a possession: it waits in the queue, or is refused with POSSESSION_BUSY (R692, R693). -/
def requestPoss (activity : Byte) (doms : BitVec 22) (arg : Nat) (s : State) : State :=
  match (if neverRefused activity then none else fullDomain doms s) with
  | some d =>
    event 0 0x0803 (activity.toNat + 256 * d) { s with ft := { s.ft with possRefused := satBv s.ft.possRefused 1 } }
  | none => { s with ft := { s.ft with queue := s.ft.queue ++ [{ activity, domains := doms, arg }] } }

/-- The first waiting request that may be granted, in arrival order. -/
def nextGrant (held : List Poss) : List Poss → List Poss → Option (Poss × List Poss)
  | _, [] => none
  | earlier, r :: rest =>
    if grantable held earlier r then some (r, earlier ++ rest) else nextGrant held (earlier ++ [r]) rest

/-- Releases the held possessions an activity holds for `arg`. -/
def releasePoss (activity : Byte) (arg : Nat) (s : State) : State :=
  { s with ft := { s.ft with held := s.ft.held.filter (fun h => !(h.activity == activity && h.arg == arg)) } }

/-- Whether an activity holds a possession for `arg`. -/
def holds (activity : Byte) (arg : Nat) (s : State) : Bool := s.ft.held.any (fun h => h.activity == activity && h.arg == arg)

/-- Sets the possessions of the device as a whole: one held on every domain, from now (R640, R66). -/
def holdAll (activity : Byte) (s : State) : State :=
  { s with ft := { s.ft with held := s.ft.held ++ [{ activity, domains := allDomains, since := s.clk.ac }] } }

end Sys2Proof.Machine
end

