-- ==== Sys2Proof/Machine/Reset.lean ====
section
/-! DEFINITION. Host-port resets (R123, R124), the warm reset (R639, R670, R762), the reset ladder's levels 4 and 5 (R685,
R689), and opening, merging and closing fault records (R674 to R683). -/

namespace Sys2Proof.Machine

/-! ## Host-port reset -/

/-- A submission ring that stops fetching for good: it drains (R123). -/
def Sq.stopFetch (q : Sq) : Sq :=
  match q.st with
  | .running => { q with st := .draining, reading := false, fetching := 0 }
  | _ => { q with reading := false, fetching := 0 }

/-- Counts in HI_LOST_CPL the records and token records a function's rings hold (R123). -/
def loseHeld (s : State) : State :=
  let cnt (f : Nat) : Nat :=
    ((s.host.cqs.filter (fun kv => ringFn kv.1 == f)).map (fun kv => kv.2.held.length)).sum + (s.fn f).tok.held.length
  (List.range 17).foldl (fun s f => if cnt f = 0 then s else
    s.modFn f (fun r => { r with lost := satBv r.lost (cnt f), tok := { r.tok with held := [] } }))
    { s with host := { s.host with cqs := tmap s.host.cqs {} (fun _ c => { c with held := [] }) } }

/-- The host port is reset: the link is down, every ring stops fetching, what cannot be written is counted, moderation ends, VF Enable is
clear, and what was fetched completes as an orphan (R123, R124). -/
def portReset (s : State) : State :=
  let s1 := loseHeld s
  { s1 with
    host := { s1.host with
      mode := .down, rate := 0, width := 0, vfEnable := false,
      hdmBase := 0, served := [],
      sqs := tmap s1.host.sqs {} (fun _ q => { q.stopFetch with st := if q.stopFetch.st = .draining then .disabled else q.stopFetch.st }),
      cqs := tmap s1.host.cqs {} (fun _ c => { c with count := 0, timer := false }),
      fns := tmap s1.host.fns {} (fun _ r => { r with tok := { r.tok with count := 0, timer := false } }) },
    work := s1.work.map (fun w => match w.src with | .ring _ _ => { w with orphan := true } | .step _ _ => w) }

/-- Every HI_ register but HI_LINK and HI_LOST_CPL at its reset value (R123). -/
def resetHi (h : HostIf) : HostIf :=
  { h with poll := 0xDAC, fns := tmap h.fns {} (fun _ r => r.resetHi), sqs := [], cqs := [], msix := [] }

/-! ## Warm reset -/

/-- Completes every descriptor in flight with a status; `fuel` is their number. -/
def completeAll (st : Status) (result : Nat) : List Work → State → State
  | [], s => s
  | w :: r, s => completeAll st result r (complete w st result s)

/-- The sc count that is consistent with the ac count after a stay in N3 (R58). -/
def scAfterN3 (c : Clk) : Nat := c.n3Sc + 35 * (c.ac - c.n3Ac) / 2

/-- DDR5 regions return their units; their tenants' use goes to 0 (R450). -/
def undeclareAll (d : Ddr) : Ddr :=
  { d with regions := [], tenants := tmap d.tenants {} (fun _ t => { t with used := 0, pinned := 0 }) }

/-- The reset of the parts a warm reset discards (R670): Timetable, connections, registrations, key slots, triggers, Canopy,
Understory, Platform, mappings, measurements, indexes, possessions. -/
def discardWarm (s : State) : State :=
  { s with
    img := { s.img with staged := none, draining := false },
    groves := { s.groves with
      slots := [], canopy := [], canopyPoison := [],
      stands := tmap s.groves.stands {} (fun _ x => { x with busy := false, resident := [] }) },
    waybill := { s.waybill with signing := none, waiting := [], measure := [], measuring := [] },
    mem := { s.mem with keySlots := [], pools := [] },
    sleeper := { s.sleeper with reads := [], bufs := [] },
    tt := { s.tt with entries := [], pend := [], progs := [], steps := [], races := [] },
    ddr := undeclareAll s.ddr,
    rc := { s.rc with conns := [(0, { tget s.rc.conns 0 {} with st := .opened, queue := [], recvs := [] })], slots := [], trigs := [] },
    ho := { s.ho with waiting := [], tally := [] },
    cs := { s.cs with index := [] },
    ft := { s.ft with
      held := [{ activity := 0x12, domains := allDomains, since := s.clk.ac }], queue := [],
      ctxs := [], sems := [], slots := [], stopped := [],
      recs := tmap s.ft.recs {} (fun _ r => if r.isOpen && decide (r.cls.toNat < 3) then
        { r with isOpen := false, closeAc := s.clk.ac, waits := [] } else r) },
    tn := { s.tn with parts := [], ctx := [], switch := none } }

/-- The divider code a Grove junction temperature asks for at least (R748). -/
def thermalCode (t : Int) : Nat := if t ≥ 106 then 3 else if t ≥ 103 then 2 else if t ≥ 100 then 1 else 0

/-- The divider code that a Grove's last sample still asks for (R748, R762). -/
def heatOf (g : Nat) (s : State) : Nat :=
  let x := tget s.power.sensors g {}
  if x.valid then thermalCode x.temp.toInt else 0

/-- The clock and power blocks at a warm reset (R762): the PLL stays as it is and the counts run on, a transition under way is abandoned, and each Grove goes to ÷ 4 but
for the thermal limit its last sample shows; the Groves are reset, so no current limit is active. -/
def warmClkPower (s : State) : State :=
  { s with
    clk := { s.clk with
      cur := [],
      therm := (List.range 4).foldl (fun t g => tput t g (heatOf g s) 0) [] },
    power := { s.power with st := .n0, trans := none, copyWait := false, target := 0, wakeCause := 0, refuse := 0, gated := 0 } }

/-- A warm reset (R639): ignored before READY (R640), in FAILED (R646) and without power; in an exit from N3 it abandons it (R762). Work in flight ends with INTERNAL,
and its records, the host link being down, are counted; the incarnation rises (R519). `cause` is LD_BOOT.CAUSE. (DEDUCED, log entry 23.) -/
def warmReset (cause : BitVec 2) (s : State) : State :=
  if !s.ready && !(s.live && decide (s.power.trans = some .fromN3)) then s else
  let s1 := portReset s
  let s2 := discardWarm (completeAll .internal 0 s1.work s1)
  let s3 := warmClkPower { s2 with host := resetHi s2.host }
  { s3 with
    boot := { s3.boot with
      stage := .lodge, path := .warmFast, cause, setRej := 0, fail := none, done := [],
      startAc := s.clk.ac, warms := satBv s.boot.warms 1, chipReset := decide (cause = 3) },
    rail := { s3.rail with inc := s3.rail.inc + 1 },
    flash := { s3.flash with incarnation := s3.flash.incarnation + 1 },
    ft := { s3.ft with errnHold := if cause = 3 then false else s3.ft.errnHold } }

/-- Starts reset level 4 or 5, no higher than FT_ESC_CFG.MAX_LEVEL allows (R687, R689). -/
def chipLevel (level : Nat) (s : State) : State :=
  if level > s.ft.maxLevel.toNat then s
  else if level ≥ 5 then { s with power := { s.power with pwrcycLow := true } }
  else warmReset 3 { s with ft := { s.ft with marks := s.ft.marks ++ [{ domain := 0xFF, level := 4, ac := s.clk.ac }] } }

/-! ## Fault records -/

/-- An error the device detects (R674 to R679): its class 0 to 3, source, domain, status, details, the context or work it
affects, the function that learns of it, and what keeps its record open. -/
structure Err where
  cls     : Nat
  source  : Nat
  domain  : Nat
  cause   : Byte
  detail0 : Nat := 0
  detail1 : Nat := 0
  ctx     : Option Nat := none
  tenant  : Nat := 0
  part    : Nat := 0
  who     : Nat := 0
  waits   : List Closer := []
  injected : Bool := false
  level   : Nat := 0
  escalated : Bool := false

/-- Whether two domains of records overlap; 0xFF overlaps every one (R695). -/
def domainsMerge (a b : Nat) : Bool := a == 0xFF || b == 0xFF || overlaps a b

/-- How long ago a record number was given, numbers running from 1 to 65,535 (R676). -/
def recAge (last n : Nat) : Nat := (last + 65535 - n) % 65535

/-- The oldest open record an error of this domain merges into (R680): its slot. -/
def mergeInto (domain : Nat) (s : State) : Option Nat :=
  (s.ft.recs.foldl (fun best kv =>
    if kv.2.isOpen && domainsMerge kv.2.domain.toNat domain then
      match best with
      | some (k, a) => if recAge s.ft.last.toNat kv.2.number.toNat > a then some (kv.1, recAge s.ft.last.toNat kv.2.number.toNat) else some (k, a)
      | none => some (kv.1, recAge s.ft.last.toNat kv.2.number.toNat)
    else best) none).map Prod.fst

/-- The next record number (R676). -/
def nextNumber (n : BitVec 16) : BitVec 16 := if n = 0xFFFF then 1 else n + 1

/-- The record of an error that opens one (R677). -/
def Err.toRec (e : Err) (n : BitVec 16) (ac : Nat) : FaultRec :=
  { number := n, cls := BitVec.ofNat 4 e.cls, isOpen := true, injected := e.injected, ctxValid := e.ctx.isSome,
    escalated := e.escalated, source := BitVec.ofNat 8 e.source, domain := BitVec.ofNat 8 e.domain, cause := e.cause,
    level := BitVec.ofNat 3 e.level, context := e.ctx.getD 0, tenant := e.tenant, part := e.part, openAc := ac,
    lastAc := ac, detail0 := BitVec.ofNat 64 e.detail0, detail1 := BitVec.ofNat 64 e.detail1,
    waits := if e.cls = 3 then [.chip] else e.waits }

/-- A record after an error merged into it (R680). -/
def FaultRec.merge (r : FaultRec) (e : Err) (ac : Nat) : FaultRec :=
  { r with
    merges := satBv r.merges 1, lastAc := ac, cause2 := if r.cause2 = 0 then e.cause else r.cause2,
    cls := if e.cls > r.cls.toNat then BitVec.ofNat 4 e.cls else r.cls,
    waits := r.waits ++ (if e.cls = 3 then [.chip] else e.waits) }

/-- Sets the fault state's clock: a record opened or took a merge (R682). -/
def noteFault (s : State) : State := { s with ft := { s.ft with fault := true, quietFrom := s.clk.ac } }

/-- Opens a record: its number, FAULT event, fault state and ERR_N pulse (R676 to R683). -/
def openRec (e : Err) (s : State) : State × BitVec 16 :=
  let n := nextNumber s.ft.last
  let s1 := noteFault { s with ft := { s.ft with last := n, recs := tput s.ft.recs (n.toNat % 4096) (e.toRec n s.clk.ac) {} } }
  let s2 := { s1 with power := { s1.power with errnPulse := s1.power.errnPulse || decide (e.cls ≥ 2) } }
  (event e.who 0x0800 n.toNat s2 e.cause, n)

/-- An error is detected: counted when corrected (R681), merged where R680 allows, or a record of its own; a fatal one
starts the chip reset (R689). The number that affected completions carry is answered beside the state. -/
def raiseErr (e : Err) (s : State) : State × BitVec 16 :=
  if e.cls = 0 then ({ s with ft := { s.ft with corrected := tmod s.ft.corrected e.source 0 (· + 1) } }, 0)
  else
    let r := match mergeInto e.domain s with
      | some k =>
        (noteFault { s with ft := { s.ft with recs := tmod s.ft.recs k {} (fun r => r.merge e s.clk.ac) } },
          (tget s.ft.recs k {}).number)
      | none => openRec e s
    let s1 := settleRecs r.1
    (if e.cls = 3 then chipLevel (max 4 e.level) s1 else s1, r.2)

/-- As `raiseErr`, where no completion carries the number. -/
def raiseErr' (e : Err) (s : State) : State := (raiseErr e s).1

/-- Fatal records close when the chip reset that serves them reaches READY (R678, R689). -/
def closeFatal (s : State) : State :=
  { s with ft := { s.ft with recs := tmap s.ft.recs {} (fun _ r =>
      if r.isOpen && decide (r.cls.toNat = 3) then { r with isOpen := false, closeAc := s.clk.ac, waits := [] } else r) } }

/-! ## What the HBM code finds -/

/-- What the HBM code found in the lines a read gave: corrected ones are counted, and a line it could not correct, if the read touched it,
is poisoned from then on (R88, R675, R681); its address is answered. (DESIGN CHOICE, log entry 88.) -/
def hbmFound (obs : HbmObs) (reads : Nat → Bool) (s : State) : Option Nat × State :=
  let s1 : State := { s with ft := { s.ft with corrected := tmod s.ft.corrected 3 0 (· + obs.corrected) } }
  match obs.bad with
  | some a => if reads a then (some a, { s1 with mem := { s1.mem with poison := tput s1.mem.poison (a / 64) true false } }) else (none, s1)
  | none => (none, s1)

/-- The contained error of source 0x03 of the line at a physical address (R675). -/
def hbmErr (a : Nat) (injected : Bool) : Err :=
  { cls := 2, source := 0x03, domain := 4 + a / 2 ^ 36, cause := Status.poisonConsumed.code, detail0 := a % 2 ^ 36, detail1 := a / 2 ^ 36, injected }

/-! ## Injection (R710) -/

/-- Whether the next check of a checker's unit is inverted, and the state after: the count falls, and ARM clears at its end. -/
def injectHit (checker unit : Nat) (s : State) : Bool × State :=
  let i := s.ft.inject
  if i.arm && decide (i.checker.toNat = checker) && decide (i.unit.toNat = unit) then
    (true, { s with ft := { s.ft with inject :=
      if i.count.toNat ≤ 1 then { i with arm := false } else { i with count := i.count - 1 } } })
  else (false, s)

end Sys2Proof.Machine
end

