-- ==== Sys2Proof/Machine/ImageCheck.lean ====
section
/-! DEFINITION. Reading and validating a Collys image from its bytes (R126 to R161, R765). -/

namespace Sys2Proof.Machine

/-- A validation failure: CI_ERR's cause, section and entry (R181). -/
structure ImgFail where
  cause : Nat
  sect  : Nat := 0xFF
  entry : Nat := 0
deriving DecidableEq, Repr

/-- The first failure of an ordered list of checks (R160). -/
def firstImgFail : List (Option ImgFail) → Option ImgFail
  | [] => none
  | some f :: _ => some f
  | none :: r => firstImgFail r

/-- A check: the failure when its condition is broken. -/
def failIf (broken : Bool) (cause sect entry : Nat) : Option ImgFail :=
  if broken then some { cause, sect, entry } else none

/-- The first index below `n` at which a rule is broken. -/
def failAt (n : Nat) (broken : Nat → Bool) (cause sect : Nat) : Option ImgFail :=
  ((List.range n).find? broken).map (fun i => { cause, sect, entry := i })

/-- Whether bytes lo to hi − 1 are all zero. -/
def zeroBytes (b : List Byte) (lo hi : Nat) : Bool := ((b.drop lo).take (hi - lo)).all (fun x => x == 0)

/-- A directory entry (R128). -/
structure DirEntry where
  typ     : Nat
  version : Nat
  offset  : Nat
  length  : Nat

/-- The directory, in order (R128). -/
def directory (img : List Byte) : List DirEntry :=
  (List.range (leAt img 12 2)).map (fun i =>
    { typ := leAt img (128 + 16 * i) 2, version := leAt img (130 + 16 * i) 2, offset := leAt img (136 + 16 * i) 4,
      length := leAt img (140 + 16 * i) 4 })

/-- The directory index of a section type. -/
def secIdx (dir : List DirEntry) (t : Nat) : Option Nat := dir.findIdx? (fun e => e.typ == t)

/-- The bytes of a section; none of an absent one. -/
def secBytes (img : List Byte) (dir : List DirEntry) (t : Nat) : List Byte :=
  match dir.find? (fun e => e.typ == t) with
  | some e => (img.drop e.offset).take e.length
  | none => []

/-- The length a section type defines (R134 to R158). -/
def secLength (b : List Byte) : Nat → Nat
  | 1 => 40 | 2 => 384 | 3 => 8 + 32 * leAt b 0 2 | 4 => 160 | 5 => 1032 | 6 => 16 | 7 => 8
  | 8 => 8 + 4 * leAt b 0 2 | 9 => 168 | _ => b.length

/-- Step 2: the header and IMAGE_SIZE (R127, R161). Of several faults the first in this order is reported: HEADER, SIZE, GRADE.
(DESIGN CHOICE, log entry 97.) -/
def checkHeader (grade : Grade) (img : List Byte) (length : Nat) : Option ImgFail :=
  firstImgFail [
    failIf (leAt img 0 4 != 0x53594C43 || leAt img 4 2 != 1 || leAt img 6 2 != 128 ||
      (leAt img 14 1 != 1 && leAt img 14 1 != 2) || !zeroBytes img 15 16 || !zeroBytes img 28 128) 0x01 0xFF 0,
    failIf (leAt img 8 4 != length || decide (leAt img 8 4 > 0x1000000) || leAt img 8 4 % 8 != 0) 0x02 0xFF 0,
    failIf (grade == .g && leAt img 14 1 == 1) 0x07 0xFF 0]

/-- Whether a directory entry is out of bounds, misaligned, of a reserved type, or overlaps or repeats an earlier one (R128,
R129). -/
def badDirEntry (img : List Byte) (dir : List DirEntry) (i : Nat) : Bool :=
  match dir[i]? with
  | none => false
  | some e =>
    !((decide (1 ≤ e.typ) && decide (e.typ ≤ 9)) || decide (e.typ ≥ 0xF000)) ||
    e.offset % 8 != 0 || decide (e.offset < 128 + 16 * dir.length) || decide (e.offset + e.length > leAt img 8 4 - 256) ||
    (dir.take i).any (fun f => (f.typ == e.typ && decide (e.typ ≤ 9)) ||
      (decide (e.offset < f.offset + f.length) && decide (f.offset < e.offset + e.length)))

/-- Step 3: the directory (R128, R129, R161). A SECTION_COUNT of 0 or above 64 is reported as DIRECTORY with ENTRY 0; bad entries come before
missing types, and those before VERSION and LENGTH. (DESIGN CHOICE, log entry 97.) -/
def checkDirectory (img : List Byte) : Option ImgFail :=
  let dir := directory img
  firstImgFail [
    failIf (dir.length == 0 || decide (dir.length > 64)) 0x03 0xFF 0,
    failAt dir.length (badDirEntry img dir) 0x03 0xFF,
    ([1, 2, 3, 4, 5, 6, 7, 9].find? (fun t => (secIdx dir t).isNone)).map (fun t => { cause := 0x03, entry := t }),
    ((List.range dir.length).find? (fun i => match dir[i]? with
      | some e => decide (e.typ ≤ 9) &&
          (e.version != 1 || e.length != secLength (secBytes img dir e.typ) e.typ)
      | none => false)).map (fun i => { cause := 0x04, sect := i })]

/-- Step 4: the signature and the signer (R130 to R132). A wrong SIG_MAGIC is reported as SIGNATURE. (DESIGN CHOICE, log entry 97.) -/
def checkSignature (signers : List Digest) (img : List Byte) : Option ImgFail :=
  let b := img.drop (img.length - 256)
  let part (o n : Nat) : List Byte := (b.drop o).take n
  let num (o : Nat) : Digest := BitVec.ofNat 384 (leAt b o 48)
  firstImgFail [
    failIf (leAt b 0 4 != 0x4749534C ||
      !ecdsaVerify (sha384 (img.take (img.length - 256))) (num 8) (num 56) (num 104) (num 152)) 0x05 0xFF 0,
    failIf (!(signers.take 8).any (fun d => d == sha384 (part 8 96))) 0x06 0xFF 0]

/-! ## Step 5: each section on its own -/

/-- ROLE_PARTITION (R135), its rules in this order, with the partition as ENTRY. (DESIGN CHOICE, log entry 97.) -/
def checkRole (b : List Byte) (s : Nat) : Option ImgFail :=
  let n := leAt b 1 1
  let gr (p : Nat) : Nat := leAt b (8 + 8 * p) 1
  let units (p : Nat) : Nat := leAt b (10 + 8 * p) 2
  let cls (p : Nat) : Nat := leAt b (12 + 8 * p) 1
  let fixed := leAt b 2 1 == 1
  firstImgFail [
    failIf (decide (leAt b 0 1 > 2) || decide (leAt b 2 1 > 1) || n == 0 || decide (n > 4) || !zeroBytes b 3 8) 0x08 s 0,
    failAt 4 (fun p => !zeroBytes b (13 + 8 * p) (16 + 8 * p)) 0x08 s,
    failAt 4 (fun p => decide (gr p ≥ 16) || (List.range p).any (fun q => gr p &&& gr q != 0)) 0x08 s,
    failIf ((List.range 4).foldl (fun a p => a ||| gr p) 0 != 15) 0x08 s 0,
    failAt n (fun p => gr p == 0) 0x08 s,
    failAt 4 (fun p => decide (p ≥ n) && !zeroBytes b (8 + 8 * p) (16 + 8 * p)) 0x08 s,
    failAt n (fun p => fixed && decide (leAt b (9 + 8 * p) 1 > 64)) 0x08 s,
    failIf (fixed && decide (((List.range n).map units).sum > 504)) 0x08 s 0,
    failAt n (fun p => fixed && (cls p &&& 3 != 0 || (List.range p).any (fun q => cls p &&& cls q != 0))) 0x08 s]

/-- STAND_DUTY (R7, R136, R137). A reserved duty value is reported as DUTY with its byte as ENTRY. (DESIGN CHOICE, log entry 97.) -/
def checkDuty (grade : Grade) (b : List Byte) (s : Nat) : Option ImgFail :=
  let count (gr d : Nat) : Nat := (((b.drop (96 * gr)).take 96).filter (fun x => x.toNat == d)).length
  firstImgFail [
    failAt 384 (fun i => grade == .g && leAt b i 1 == 2) 0x07 s,
    failAt 384 (fun i => decide (leAt b i 1 > 2)) 0x09 s,
    failAt 4 (fun gr => decide (count gr 0 < 32) || decide (count gr 1 > 32)) 0x09 s]

/-- A region entry (R139). -/
def regionAt (b : List Byte) (i : Nat) : Region :=
  let o := 8 + 32 * i
  { id := leAt b o 2, kind := leAt b (o + 2) 1, flags := BitVec.ofNat 8 (leAt b (o + 3) 1), part := leAt b (o + 4) 1,
    grove := leAt b (o + 5) 1, stackSel := BitVec.ofNat 2 (leAt b (o + 6) 1), offset := leAt b (o + 8) 8,
    size := leAt b (o + 16) 8 }

/-- Bytes a region takes of each stack it uses (R140). -/
def Region.perStack (r : Region) : Nat := if r.stackSel = 3 then r.size / 2 else r.size

/-- Whether two regions overlap on a stack (R142). -/
def regionsOverlap (a b : Region) : Bool :=
  a.grove == b.grove && (a.stackSel &&& b.stackSel != 0) &&
  decide (a.offset < b.offset + b.perStack) && decide (b.offset < a.offset + a.perStack)

/-- Whether a region entry breaks a rule of its own (R139 to R142). (DEDUCED, log entry 32.) -/
def badRegion (b : List Byte) (i : Nat) : Bool :=
  let r := regionAt b i
  let o := 8 + 32 * i
  decide (r.id > 255) || decide (r.kind > 6) || decide (r.grove > 3) ||
  leAt b (o + 6) 1 == 0 || decide (leAt b (o + 6) 1 > 3) || r.offset % 0x200000 != 0 ||
  r.size % (if r.stackSel = 3 then 0x400000 else 0x200000) != 0 ||
  decide (r.offset + r.perStack > 65280 * 0x100000) ||
  (r.flags.getLsbD 1 && !r.flags.getLsbD 0) ||
  (r.flags.getLsbD 2 && (!(r.kind == 0 || r.kind == 4 || r.kind == 5) || r.flags.getLsbD 0)) ||
  (List.range i).any (fun j => (regionAt b j).id == r.id || regionsOverlap (regionAt b j) r)

/-- HBM_REGIONS: the grade rule of R142 first, then each entry (R139 to R142, R160). -/
def checkRegions (grade : Grade) (b : List Byte) (s : Nat) : Option ImgFail :=
  firstImgFail [
    failAt (leAt b 0 2) (fun i => grade == .g && (regionAt b i).kind == 5) 0x0A s,
    failIf (leAt b 0 2 == 0 || decide (leAt b 0 2 > 256)) 0x0A s 0,
    failAt (leAt b 0 2) (badRegion b) 0x0A s]

/-- TIMETABLE_PLATFORM (R144, R145). -/
def checkTimetable (b : List Byte) (s : Nat) : Option ImgFail :=
  let ent (st : Nat) : Nat := leAt b (2 * st) 2
  let pmin (st c : Nat) : Nat := leAt b (32 + 64 * st + 4 * c) 2
  let pcap (st c : Nat) : Nat := leAt b (34 + 64 * st + 4 * c) 2
  firstImgFail [
    failAt 2 (fun st => decide (ent st < 512) || decide (ent st > 8192) || ent st % 512 != 0 ||
      ((List.range 4).map (fun p => leAt b (4 + 4 * p + 2 * st) 2)).sum != ent st) 0x0B s,
    failAt 2 (fun st => decide (((List.range 8).map (pmin st)).sum > 504) ||
      (List.range 8).any (fun c => decide (pmin st c > pcap st c) || decide (pcap st c > 504))) 0x0C s]

/-- Whether an enabled Lantern's block breaks R147 or R149. -/
def badLantern (b : List Byte) (n : Nat) : Bool :=
  let o := 8 + 128 * n
  let per := leAt b (o + 4) 4
  !zeroBytes b (o + 2) (o + 4) || !zeroBytes b (o + 104) (o + 128) ||
  (List.range 8).any (fun c =>
    let q := o + 8 + 12 * c
    (if c < 2 then leAt b q 1 != 0 else leAt b q 1 == 0) || leAt b (q + 1) 1 != 0 ||
    leAt b (q + 2) 2 == 0 || decide (leAt b (q + 2) 2 > 256) ||
    (per != 0 && (decide (leAt b (q + 4) 4 ≥ per) || decide (leAt b (q + 8) 4 ≥ per))))

/-- LANTERN_TRAFFIC (R7, R147, R149). -/
def checkLanterns (grade : Grade) (b : List Byte) (s : Nat) : Option ImgFail :=
  let on (n : Nat) : Bool := (leAt b 0 1).testBit n
  firstImgFail [
    failIf (grade == .g && decide (leAt b 0 1 ≥ 16)) 0x07 s 0,
    failIf (!on 0 || !zeroBytes b 1 8) 0x0D s 0,
    failAt 8 (fun n => if on n then badLantern b n else !zeroBytes b (8 + 128 * n) (136 + 128 * n)) 0x0D s]

/-- CHECK_POLICY (R150). -/
def checkPolicy (b : List Byte) (s : Nat) : Option ImgFail :=
  failIf (decide (leAt b 0 1 > 1) ||
    (if leAt b 0 1 = 1 then leAt b 1 1 != 0 else leAt b 1 1 == 0 || decide (leAt b 1 1 > 4)) ||
    decide (leAt b 2 1 > 16) || leAt b 4 4 == 0 || decide (leAt b 4 4 > 65536)) 0x0E s 0

/-- FORMATS (R154). -/
def checkFormats (b : List Byte) (s : Nat) : Option ImgFail :=
  let en := leAt b 0 2
  let sr := leAt b 2 2
  failIf (en == 0 || decide (en ≥ 2048) || sr &&& 0x3D != sr || sr &&& en != sr) 0x0F s 0

/-- An override entry (R156): Grove, logical, physical. -/
def overrideAt (b : List Byte) (i : Nat) : Nat × Nat × Nat := (leAt b (8 + 4 * i) 1, leAt b (9 + 4 * i) 1, leAt b (10 + 4 * i) 1)

/-- L2P_OVERRIDE (R156); absent, nothing is checked. -/
def checkOverride (b : List Byte) (s : Nat) : Option ImgFail :=
  if b.isEmpty then none else firstImgFail [
    failIf (leAt b 0 2 == 0 || decide (leAt b 0 2 > 400)) 0x10 s 0,
    failAt (leAt b 0 2) (fun i =>
      let e := overrideAt b i
      decide (e.1 > 3) || decide (e.2.1 > 95) || (decide (e.2.2 > 99) && e.2.2 != 0xFF) ||
      (List.range i).any (fun j => let f := overrideAt b j
        f.1 == e.1 && (f.2.1 == e.2.1 || (f.2.2 == e.2.2 && e.2.2 != 0xFF)))) 0x10 s]

/-! ## Steps 6 and 7 -/

/-- The decoded image (R134 to R158). TOOL_VERSION is held; the spec names no place that reports it. (DESIGN CHOICE, log entry 98.) -/
def parseImage (img : List Byte) : Image :=
  let dir := directory img
  let b (t : Nat) : List Byte := secBytes img dir t
  let r := b 1
  let t := b 4
  let l := b 5
  let c := b 6
  { role := match leAt r 0 1 with | 0 => .prompt | 1 => .generation | _ => .cache
    parts := (List.range (leAt r 1 1)).map (fun p =>
      { groves := BitVec.ofNat 8 (leAt r (8 + 8 * p) 1), share := leAt r (9 + 8 * p) 1,
        units := leAt r (10 + 8 * p) 2, classes := BitVec.ofNat 8 (leAt r (12 + 8 * p) 1) })
    fixed := leAt r 2 1 == 1
    duties := (b 2).map BitVec.toNat
    regions := (List.range (leAt (b 3) 0 2)).map (regionAt (b 3))
    ttEntries := [leAt t 0 2, leAt t 2 2]
    ttSplit := (List.range 4).map (fun p => [leAt t (4 + 4 * p) 2, leAt t (6 + 4 * p) 2])
    pfMin := (List.range 2).map (fun s => (List.range 8).map (fun k => leAt t (32 + 64 * s + 4 * k) 2))
    pfCap := (List.range 2).map (fun s => (List.range 8).map (fun k => leAt t (34 + 64 * s + 4 * k) 2))
    lanterns := BitVec.ofNat 8 (leAt l 0 1)
    lanternCfg := (List.range 8).map (fun n => let o := 8 + 128 * n
      { v2Lanes := BitVec.ofNat 16 (leAt l o 2), period := leAt l (o + 4) 4,
        classes := (List.range 8).map (fun k => let q := o + 8 + 12 * k
          { weight := leAt l q 1, burst := leAt l (q + 2) 2, openAt := leAt l (q + 4) 4, closeAt := leAt l (q + 8) 4 }) })
    onFail := leAt c 0 1 == 1
    recompute := leAt c 1 1
    xcheckK := leAt c 2 1
    waybillN := leAt c 4 4
    formats := BitVec.ofNat 16 (leAt (b 7) 0 2)
    srFormats := BitVec.ofNat 16 (leAt (b 7) 2 2)
    overrides := (List.range (leAt (b 8) 0 2)).map (overrideAt (b 8))
    firmware := (List.range 3).map (fun j =>
      (BitVec.ofNat 32 (leAt (b 9) (56 * j) 4), BitVec.ofNat 384 (leAt (b 9) (56 * j + 8) 48)))
    imageId := BitVec.ofNat 64 (leAt img 16 8)
    tool := BitVec.ofNat 32 (leAt img 24 4)
    digest := sha384 img }

/-- The partition a Grove belongs to. -/
def Image.partOf (i : Image) (g : Nat) : Nat := (i.parts.findIdx? (fun p => p.groves.getLsbD g)).getD 0

/-- The partitions' Groves, lowest first. -/
def Image.grovesOf (i : Image) (p : Nat) : List Nat :=
  (List.range 4).filter (fun g => match i.parts[p]? with | some c => c.groves.getLsbD g | none => false)

/-- Step 6: the rules across sections, in the order of R765. -/
def checkCross (img : List Byte) (i : Image) : Option ImgFail :=
  let dir := directory img
  let sx (t : Nat) : Nat := (secIdx dir t).getD 0xFF
  let codec (p : Nat) : Nat := ((i.grovesOf p).map (fun g => (((i.duties.drop (96 * g)).take 96).filter (· == 1)).length)).sum
  let need : Nat := if i.role = .cache then 3 else 1
  let n := i.regions.length
  let reg (k : Nat) : Option Region := i.regions[k]?
  firstImgFail [
    failAt i.parts.length (fun p => decide (codec p < 2)) 0x09 (sx 2),
    failAt 384 (fun k => decide (i.role ≠ .cache) && nth i.duties k 0 == 2) 0x09 (sx 2),
    failAt n (fun k => match reg k with
      | some r => decide (r.part ≥ i.parts.length) || i.partOf r.grove != r.part
      | none => false) 0x0A (sx 3),
    failAt n (fun k => match reg k with | some r => r.kind == 5 && decide (i.role ≠ .cache) | none => false) 0x0A (sx 3),
    failAt i.parts.length (fun p => !i.regions.any (fun r => r.kind == need && r.part == p)) 0x0A (sx 3),
    failAt 4 (fun p => decide (p ≥ i.parts.length) && (nth i.ttSplit p []).any (· != 0)) 0x0B (sx 4),
    failAt i.parts.length (fun p => i.fixed && match i.parts[p]? with
      | some c => i.pfMin.any (fun m => decide (((List.range 8).map (fun k =>
          if c.classes.getLsbD k then nth m k 0 else 0)).sum > c.units))
      | none => false) 0x0C (sx 4)]

/-- FIRMWARE_REFS against the firmware set in flash (R159): part of step 7, since it needs the device's flash. -/
def checkFirmware (m : Manifest) (i : Image) (sect : Nat) : Option ImgFail :=
  failAt 3 (fun j => match i.firmware[j]? with
    | some (v, d) => !(nth m.digests j 0 == d && decide (v.toNat ≤ (nth m.versions j 0).toNat))
    | none => true) 0x11 sect

/-- The Station and the index within it of a Timetable entry: bit 13 names the Station (R366). -/
def entryStation (e : Nat) : Nat := e / 8192 % 2
def entryLocal (e : Nat) : Nat := e % 8192

/-- STUB entries at or above the new TT_ENTRIES of their Station (R175). -/
def stubRange (s : State) (i : Image) : Bool :=
  s.tt.entries.any (fun kv => decide (kv.2.st = .stub) && decide (entryLocal kv.1 ≥ nth i.ttEntries (entryStation kv.1) 0))

/-- Validation from the bytes read: steps 2 to 6 (R160). -/
def validateImage (s : State) (img : List Byte) (length : Nat) : Option ImgFail :=
  let grade := s.fuses.grade
  let dir := directory img
  let sx (t : Nat) : Nat := (secIdx dir t).getD 0xFF
  let b (t : Nat) : List Byte := secBytes img dir t
  let i := parseImage img
  match checkHeader grade img length with
  | some f => some f
  | none => match checkDirectory img with
    | some f => some f
    | none => firstImgFail [
      checkSignature s.flash.active.signers img,
      checkRole (b 1) (sx 1), checkDuty grade (b 2) (sx 2), checkRegions grade (b 3) (sx 3), checkTimetable (b 4) (sx 4),
      checkLanterns grade (b 5) (sx 5), checkPolicy (b 6) (sx 6), checkFormats (b 7) (sx 7), checkOverride (b 8) (sx 8),
      checkCross img i]

end Sys2Proof.Machine
end

