-- ==== Sys2Proof/Machine/Memory.lean ====
section
/-! DEFINITION. HBM as a list of bytes in one canonical form, its poison marks (R252, R253), the regions of the image over it
(R139, R140, R536). -/

namespace Sys2Proof.Machine

/-! ## A list of cells in canonical form: an unlisted byte reads as 0 -/

/-- The byte at an address. (PRESUMED, log entry 13.) -/
def memGet (m : List Host.Cell) (a : Nat) : Byte := tget m a 0

/-- The memory with a byte stored. -/
def memPut (m : List Host.Cell) (a : Nat) (b : Byte) : List Host.Cell := tput m a b 0

/-- The bytes at `n` consecutive addresses. -/
def memRead (m : List Host.Cell) (a n : Nat) : List Byte := (List.range n).map (fun i => memGet m (a + i))

/-- The memory with bytes stored at consecutive addresses. -/
def memWrite (m : List Host.Cell) (a : Nat) : List Byte → List Host.Cell
  | [] => m
  | b :: r => memWrite (memPut m a b) (a + 1) r

/-- The memory with the addresses that satisfy `p` cleared. -/
def memClear (m : List Host.Cell) (p : Nat → Bool) : List Host.Cell := m.filter (fun c => !p c.1)

/-- The canonical form. -/
def Memory.wf (m : List Host.Cell) : Bool := twf (0 : Byte) m

/-! ## Regions -/

/-- The region with an identifier, in the image in force. -/
def State.region (s : State) (id : Nat) : Option Region := s.img.image.bind (fun i => i.regions.find? (fun r => r.id == id))

/-- The physical address of byte `o` of a region: stack × 2^36 + byte within the stack; both stacks interleave at 4 KiB
(R139, R140). -/
def regionAddr (r : Region) (o : Nat) : Nat :=
  if r.stackSel = 3 then
    let blk := o / 4096
    (2 * r.grove + blk % 2) * 2 ^ 36 + r.offset + blk / 2 * 4096 + o % 4096
  else (2 * r.grove + (if r.stackSel = 2 then 1 else 0)) * 2 ^ 36 + r.offset + o

/-- Whether a physical address lies in a region. -/
def inRegion (r : Region) (a : Nat) : Bool :=
  let st := a / 2 ^ 36
  decide (r.offset ≤ a % 2 ^ 36) && decide (a % 2 ^ 36 < r.offset + r.perStack) &&
  ((st == 2 * r.grove && r.stackSel.getLsbD 0) || (st == 2 * r.grove + 1 && r.stackSel.getLsbD 1))

/-- Bytes of a region from offset `o`. -/
def regionRead (s : State) (r : Region) (o n : Nat) : List Byte := (List.range n).map (fun i => memGet s.mem.hbm (regionAddr r (o + i)))

/-- The 64-byte lines that bytes o to o + n − 1 of a region touch, by physical line number. -/
def regionLines (r : Region) (o n : Nat) : List Nat :=
  if n = 0 then [] else (List.range ((o + n - 1) / 64 - o / 64 + 1)).map (fun i => regionAddr r (64 * (o / 64 + i)) / 64)

/-- Whether any of the bytes is in a line marked poisoned (R88, R253). -/
def regionPoisoned (s : State) (r : Region) (o n : Nat) : Bool :=
  (regionLines r o n).any (fun l => tget s.mem.poison l false)

/-- A region written to is no longer measured (R274). -/
def unmeasure (id : Nat) (w : Waybill) : Waybill :=
  { w with measure := terase w.measure id, measuring := w.measuring.filter (· != id) }

/-- Stores bytes at consecutive offsets of a region. -/
def regionPut (r : Region) (o : Nat) : List Byte → List Host.Cell → List Host.Cell
  | [], m => m
  | b :: rest, m => regionPut r (o + 1) rest (memPut m (regionAddr r o) b)

/-- The lines that bytes o to o + n − 1 cover whole. -/
def wholeLines (r : Region) (o n : Nat) : List Nat :=
  (regionLines r o n).filter (fun l => (List.range ((o + n - 1) / 64 - o / 64 + 1)).any (fun i =>
    regionAddr r (64 * (o / 64 + i)) / 64 == l && decide (o ≤ 64 * (o / 64 + i)) && decide (64 * (o / 64 + i) + 64 ≤ o + n)))

/-- Writes bytes to a region: a whole-line write clears the line's poison mark (R253), and the region is unmeasured (R274). -/
def regionWrite (r : Region) (o : Nat) (bs : List Byte) (s : State) : State :=
  let whole := wholeLines r o bs.length
  { s with
    mem := { s.mem with
      hbm := regionPut r o bs s.mem.hbm,
      poison := whole.foldl (fun t l => terase t l) s.mem.poison },
    waybill := unmeasure r.id s.waybill }

/-- Marks the lines of bytes o to o + n − 1 of a region as poisoned (R252). -/
def regionPoison (r : Region) (o n : Nat) (s : State) : State :=
  { s with mem := { s.mem with poison := (regionLines r o n).foldl (fun t l => tput t l true false) s.mem.poison } }

/-- Little-endian number of `n` bytes of a region. -/
def regionNum (s : State) (r : Region) (o n : Nat) : Nat := ofBytes (regionRead s r o n)

/-- Clears the HBM bytes and poison marks whose physical address satisfies `p`; the measurements named go. -/
def clearHbm (p : Nat → Bool) (m : Mem) : Mem :=
  { m with
    hbm := memClear m.hbm p,
    poison := m.poison.filter (fun kv => !p (64 * kv.1)) }

end Sys2Proof.Machine
end

