-- ==== Sys2Proof/Machine/Operands.lean ====
section
/-! DEFINITION. Operand forms: the 64-bit operand references of descriptors (R211), which name bytes of an HBM region or of a
Canopy slot (R225, R226), and the checks every family makes of them (R210, R214, R764). -/

namespace Sys2Proof.Machine

/-- Where an operand reference points. -/
inductive Ref where
  | none
  | hbm (region offset : Nat)
  | canopy (grove slot offset : Nat)
  | reserved
deriving DecidableEq, Repr

/-- The reference a 64-bit word spells (R211). -/
def refOf (v : Nat) : Ref :=
  match fld v 56 2 with
  | 0 => .hbm (fld v 48 8) (fld v 0 48)
  | 1 => .canopy (fld v 58 2) (fld v 48 8) (fld v 0 48)
  | 2 => .reserved
  | _ => .none

/-- The operand reference at a byte of a descriptor. -/
def refAt (d : Descriptor) (byte : Nat) : Ref := refOf (dat d byte 64)

/-- A Canopy slot. -/
def State.cslot (s : State) (g n : Nat) : Slot := tget s.groves.slots (256 * g + n) {}

/-- The key of byte `o` of a Canopy slot in the list of Canopy bytes: 48 MiB per Grove, 64 KiB per unit (R225). -/
def canopyAddr (s : State) (g n o : Nat) : Nat := 0x3000000 * g + 0x10000 * (s.cslot g n).base + o

/-- Bytes from offset `o` of what a reference names. -/
def refRead (s : State) (r : Ref) (o n : Nat) : List Byte :=
  match r with
  | .hbm id off => match s.region id with
    | some g => regionRead s g (off + o) n
    | none => List.replicate n 0
  | .canopy g k off => (List.range n).map (fun i => memGet s.groves.canopy (canopyAddr s g k (off + o + i)))
  | _ => List.replicate n 0

/-- Little-endian number of `n` bytes at offset `o`. -/
def refNum (s : State) (r : Ref) (o n : Nat) : Nat := ofBytes (refRead s r o n)

/-- The 64-bit Canopy words of bytes o to o + n − 1 of a slot, which carry the poison of Canopy (R186, R252). -/
def canopyWords (s : State) (g k o n : Nat) : List Nat :=
  if n = 0 then [] else
    (List.range ((canopyAddr s g k (o + n - 1)) / 8 - (canopyAddr s g k o) / 8 + 1)).map (fun i => canopyAddr s g k o / 8 + i)

/-- Whether any of the bytes is poisoned (R253). -/
def refPoisoned (s : State) (r : Ref) (o n : Nat) : Bool :=
  match r with
  | .hbm id off => match s.region id with
    | some g => regionPoisoned s g (off + o) n
    | none => false
  | .canopy g k off => (canopyWords s g k (off + o) n).any (fun l => tget s.groves.canopyPoison l false)
  | _ => false

/-- Writes bytes at offset `o` of what a reference names. -/
def refWrite (r : Ref) (o : Nat) (bs : List Byte) (s : State) : State :=
  match r with
  | .hbm id off => match s.region id with
    | some g => regionWrite g (off + o) bs s
    | none => s
  | .canopy g k off =>
    let a := canopyAddr s g k (off + o)
    { s with groves := { s.groves with
        canopy := memWrite s.groves.canopy a bs,
        canopyPoison := s.groves.canopyPoison.filter (fun kv => !(decide (a ≤ 8 * kv.1) && decide (8 * kv.1 + 8 ≤ a + bs.length))) } }
  | _ => s

/-- Writes bytes at offsets of an HBM region, each with whether all of it is new: a line all of whose bytes are new is no longer
poisoned (R195, R253). -/
def regionPutBytes (g : Region) (bs : List (Nat × Byte × Bool)) (s : State) : State :=
  let addrs := bs.map (fun b => (regionAddr g b.1, b.2))
  { s with
    mem := { s.mem with
      hbm := addrs.foldl (fun m b => memPut m b.1 b.2.1) s.mem.hbm,
      poison := s.mem.poison.filter (fun kv => !(List.range 64).all (fun i => addrs.any (fun b => b.1 == 64 * kv.1 + i && b.2.2))) },
    waybill := unmeasure g.id s.waybill }

/-- The same of what a reference names. -/
def refPutBytes (r : Ref) (bs : List (Nat × Byte × Bool)) (s : State) : State :=
  match r with
  | .hbm id off => match s.region id with
    | some g => regionPutBytes g (bs.map (fun b => (off + b.1, b.2))) s
    | none => s
  | .canopy g k off =>
    let addrs := bs.map (fun b => (canopyAddr s g k (off + b.1), b.2))
    { s with groves := { s.groves with
        canopy := addrs.foldl (fun m b => memPut m b.1 b.2.1) s.groves.canopy,
        canopyPoison := s.groves.canopyPoison.filter (fun kv => !(List.range 8).all (fun i => addrs.any (fun b => b.1 == 8 * kv.1 + i && b.2.2))) } }
  | _ => s

/-- Where an operand tile lies, as the resident store knows it (R224). -/
def tileKey (s : State) (r : Ref) (o : Nat) : ResKey :=
  match r with
  | .hbm id off => .tile false id (off + o)
  | .canopy g k off => .tile true (256 * g + k) (canopyAddr s g k (off + o))
  | _ => .tile false 256 o

/-- Marks the lines of bytes o to o + n − 1 as poisoned (R252). -/
def refPoison (r : Ref) (o n : Nat) (s : State) : State :=
  match r with
  | .hbm id off => match s.region id with
    | some g => regionPoison g (off + o) n s
    | none => s
  | .canopy g k off =>
    let a := canopyAddr s g k (off + o)
    let first := a / 64 * 8
    { s with groves := { s.groves with
        canopyPoison := (List.range (if n = 0 then 0 else ((a + n - 1) / 64 - a / 64 + 1) * 8)).foldl (fun t i => tput t (first + i) true false)
          s.groves.canopyPoison } }
  | _ => s

/-- A reference moved on by `n` bytes. -/
def Ref.plus (r : Ref) (n : Nat) : Ref :=
  match r with
  | .hbm id off => .hbm id (off + n)
  | .canopy g k off => .canopy g k (off + n)
  | x => x

/-- Whether what a reference names belongs to another partition, or lies in no region or Grove of the image (R214, R764). -/
def refForeign (s : State) (part : Nat) (r : Ref) : Bool :=
  match r with
  | .hbm id _ => match s.region id with
    | some g => g.part != part
    | none => false
  | .canopy g _ _ => match s.img.image with
    | some i => i.partOf g != part
    | none => true
  | _ => false

/-- Whether a reference breaks cause 0x06 (R214): outside its region or slot, OFFSET unaligned, SPACE reserved, or none. -/
def refBad (s : State) (r : Ref) (n : Nat) : Bool :=
  match r with
  | .hbm id off => match s.region id with
    | some g => decide (off + n > g.size) || off % 256 != 0
    | none => true
  | .canopy g k off => decide (off + n > 0x10000 * (s.cslot g k).units) || off % 256 != 0
  | .reserved => true
  | .none => true

/-- Whether two ranges of bytes overlap. -/
def refsOverlap (a : Ref) (n : Nat) (b : Ref) (m : Nat) : Bool :=
  match a, b with
  | .hbm i x, .hbm j y => i == j && decide (x < y + m) && decide (y < x + n)
  | .canopy g k x, .canopy h l y => g == h && k == l && decide (x < y + m) && decide (y < x + n)
  | _, _ => false

/-- The region a reference names, if any. -/
def Ref.regionId : Ref → Option Nat
  | .hbm id _ => some id
  | _ => Option.none

/-- The HBM regions, among those of references, that count as WEIGHTS, DOC_CACHE or INDEX inputs, in increasing number (R265). -/
def inputRegions (s : State) (rs : List Ref) : List Nat :=
  (List.range 256).filter (fun id => rs.any (fun r => r.regionId == some id) &&
    (match s.region id with | some g => g.kind == 0 || g.kind == 4 || g.kind == 5 | none => false))

end Sys2Proof.Machine
end

