-- ==== Sys2Proof/Machine/RailWire.lean ====
section
/-! DEFINITION. A frame as the bytes of a link: its header and payload (R495, R545, R582 to R584), the link keys (R502), AES-256-GCM with its
nonce (R501), the tag and the CRC-32C (R495, R509). -/

namespace Sys2Proof.Machine

/-! ## CRC-32C (Castagnoli) -/

/-- One bit of the reflected CRC-32C. -/
def crcBit (c : W32) : W32 := if c.getLsbD 0 then (c >>> 1) ^^^ 0x82F63B78 else c >>> 1

/-- One byte. -/
def crcByte (c : W32) (b : Byte) : W32 :=
  let c0 := c ^^^ b.setWidth 32
  crcBit (crcBit (crcBit (crcBit (crcBit (crcBit (crcBit (crcBit c0)))))))

/-- The CRC-32C of a list of bytes. (PRESUMED, log entry 12.) -/
def crc32c (bs : List Byte) : W32 := (bs.foldl crcByte 0xFFFFFFFF) ^^^ 0xFFFFFFFF

/-! ## Payloads -/

/-- A byte. -/
def byteOf (n : Nat) : Byte := BitVec.ofNat 8 n

/-- The body of a CONTROL message from byte 24 (R583, R584). -/
def ctlBody : CtlBody → List Byte
  | .none => []
  | .offer o =>
    leBytes 4 o.promptLen ++ leBytes 4 o.prefilled ++ leBytes 4 o.length ++ leBytes 4 o.genCount ++ leBytes 4 o.genMax ++
    [byteOf (o.priority % 8 + 8 * b2n o.deadlineKind + 16 * b2n o.met + 32 * b2n o.turnEnded), byteOf (o.tenant % 16)] ++
    leBytes 2 o.layers ++ [byteOf o.kvHeads, o.geometry, byteOf (o.specHeads % 8), 0] ++
    leBytes 4 o.items ++ leBytes 4 o.hbmPages ++ leBytes 2 o.remoteSlots ++ leBytes 2 o.refItems ++
    leBytes 8 o.budget.toNat ++ List.replicate 8 0
  | .grant credits hold => byteOf credits :: List.replicate 3 0 ++ leBytes 4 hold
  | .data first items =>
    leBytes 4 first ++ leBytes 4 items.length ++ items.flatMap (fun b => leBytes 16 b.record.toNat ++ b.stored)
  | .credit n => leBytes 4 n
  | .commit items budget digest => leBytes 4 items ++ List.replicate 4 0 ++ leBytes 8 budget.toNat ++ leBytes 48 digest.toNat
  | .newEpoch e => leBytes 4 e.toNat
  | .probeReply owned e => byteOf (if owned then 1 else 2) :: List.replicate 3 0 ++ leBytes 4 e.toNat
  | .race group => leBytes 2 group

/-- A CONTROL message: its header (R582), then its body. -/
def ctlMessage (m : Ctl) : List Byte :=
  [m.ctype, 0] ++ leBytes 2 m.sEntry ++ leBytes 2 (m.rEntry.getD 0xFFFF) ++ [m.status, m.reason] ++ leBytes 8 m.reqId.toNat ++
  leBytes 4 m.epoch.toNat ++ byteOf m.origin :: List.replicate 3 0 ++ ctlBody m.body

/-- The bytes of a page access: its block's record, then the stored bytes. (DESIGN CHOICE, log entry 110.) -/
def pageMessage : CtlBody → List Byte
  | .data _ items => items.flatMap (fun b => leBytes 16 b.record.toNat ++ b.stored)
  | _ => []

/-- The data bytes of a packet: the piece of its message that a CONTROL packet or a page access carries. (DEDUCED, log entry 67.) -/
def packetData (p : Packet) : List Byte :=
  match p.ctl with
  | none => p.data
  | some m => ((if p.op = 12 then ctlMessage m else pageMessage m.body).drop p.offset).take p.dlen

/-- Bytes of a CONTROL message (R582 to R584). (DEDUCED, log entry 67.) -/
def ctlBytes (m : Ctl) : Nat :=
  match m.body with
  | .offer _ => 80
  | .grant _ _ => 32
  | .data _ items => 32 + (items.map (fun b => 16 + b.stored.length)).sum
  | .credit _ => 28
  | .commit _ _ _ => 88
  | .newEpoch _ => 28
  | .probeReply _ _ => 32
  | .race _ => 26
  | .none => 24

/-- Data bytes of a packet (R545). -/
def dataLen (p : Packet) : Nat :=
  match p.ctl with
  | some _ => p.dlen
  | none => p.data.length

/-- A Rail packet: the header of R545, then its data. -/
def packetBytes (p : Packet) : List Byte :=
  [byteOf (p.op.toNat + 16 * b2n p.last + 32 * b2n p.poison), byteOf (p.path % 4)] ++
  leBytes 2 p.dstConn ++ leBytes 2 p.srcConn ++ leBytes 2 (dataLen p) ++ leBytes 4 p.srcInc.toNat ++ leBytes 4 p.dstInc.toNat ++
  leBytes 4 p.mseq.toNat ++ leBytes 4 p.offset ++ leBytes 4 p.mlen.toNat ++ leBytes 4 p.rkey.toNat ++ leBytes 8 p.raddr ++
  leBytes 8 p.operand.toNat ++ packetData p

/-- The payload of a frame. The spec gives what TRAIN and NODE_HB frames carry and not where: NODE_HB here is the node ID, 3 zero bytes and
the incarnation; TRAIN the node ID, Lantern, version and key slot, 1 byte each, the incarnation and the nonce. (DESIGN CHOICE, log entry
100.) -/
def payloadBytes : Payload → List Byte
  | .none => []
  | .packet p => packetBytes p
  | .nodeHb node inc => [byteOf node, 0, 0, 0] ++ leBytes 4 inc.toNat
  | .train node inc lantern version slot nonce =>
    [byteOf node, byteOf lantern, byteOf version.toNat, byteOf slot] ++ leBytes 4 inc.toNat ++ leBytes 32 nonce

/-- LENGTH of a payload this node originates. -/
def payloadLen : Payload → Nat
  | .none => 0
  | .packet p => 48 + dataLen p
  | .nodeHb _ _ => 8
  | .train .. => 40

/-- The 16 header bytes of a frame (R495). -/
def frameHeader (f : Frame) : List Byte :=
  [byteOf (f.typ.toNat + 16 * f.version.toNat), byteOf (f.cls % 8 + 8 * b2n f.mgmt), byteOf (f.dst % 128), byteOf (f.src % 128)] ++
  leBytes 2 f.len ++ [byteOf f.hops, 0] ++ leBytes 4 f.fseq.toNat ++ leBytes 4 f.ackSeq.toNat

/-! ## Keys -/

/-- One end of a link in training: its node, its Lantern and its training nonce. -/
structure LinkEnd where
  node    : Nat
  lantern : Nat
  nonce   : Nat
deriving DecidableEq, Repr

/-- The 64 bytes of link keys that a fabric key, the version and the two ends give, the lower node first (R502). Nonces are 32 bytes,
little-endian. -/
def linkKeyBytes (ikm : List Byte) (version : BitVec 4) (lo hi : LinkEnd) : List Byte :=
  hkdf ikm (leBytes 32 lo.nonce ++ leBytes 32 hi.nonce)
    (ascii "RAIL LINK" ++ [byteOf version.toNat, byteOf lo.node, byteOf lo.lantern, byteOf hi.node, byteOf hi.lantern]) 64

/-- The link keys between this end and the peer's. -/
def linkKeys (ikm : List Byte) (version : BitVec 4) (me peer : LinkEnd) : List Byte :=
  if me.node < peer.node then linkKeyBytes ikm version me peer else linkKeyBytes ikm version peer me

/-- The link keyed by its training with its peer (R489, R502); a trickle link takes the same nonces with VERSION 7 (R516). -/
def Link.keyedAs (k : Link) (me lantern : Nat) (version : BitVec 4) : Link :=
  let ks := linkKeys (Config.fabricKey k.keySlot) version ⟨me, lantern, k.nonce⟩ ⟨k.peer, k.peerLantern, k.peerNonce⟩
  { k with key0 := ks.take 32, key1 := ks.drop 32 }

/-! ## Nonces -/

/-- DIR: 0 from the lower node ID to the higher (R501). -/
def dirOf (src dst : Nat) : Nat := if src < dst then 0 else 1

/-- The 96-bit nonce (R501). -/
def frameNonce (dir stream gen : Nat) (fseq : W32) : List Byte :=
  byteOf (dir + 2 * stream) :: leBytes 3 gen ++ [0, 0, 0, 0] ++ leBytes 4 fseq.toNat

/-- STREAM of a frame: 0 sequenced, 1 control (R496, R501). -/
def streamOf (f : Frame) : Nat := if f.typ = 1 ∨ f.typ = 6 ∨ f.typ = 7 then 0 else 1

/-- The GEN of number `f` of a stream that stands at number `base` of generation `gen`: that of the nearest number so spelled. -/
def genOf (gen : Nat) (base f : W32) : Nat :=
  (((2 ^ 32 * gen + base.toNat : Nat) + (f - base).toInt) / (2 ^ 32 : Nat)).toNat

/-- GEN after a stream's number has been used (R501). -/
def genAfter (gen : Nat) (seq : W32) : Nat := if seq = 0xFFFFFFFF then gen + 1 else gen

/-- The link must train again before a stream's GEN wraps (R501). -/
def Link.genDue (k : Link) : Bool :=
  decide (k.txGen ≥ 2 ^ 24 - 1) || decide (k.txCtlGen ≥ 2 ^ 24 - 1)

/-- The numbers that the last GEN leaves are spent: no numbered frame may leave (R501). -/
def Link.genSpent (k : Link) : Bool :=
  (decide (k.txGen ≥ 2 ^ 24 - 1) && k.txSeq == 0xFFFFFFFF) || (decide (k.txCtlGen ≥ 2 ^ 24 - 1) && k.txCtl == 0xFFFFFFFF)

/-! ## Frames on the wire -/

/-- The key of a direction (R502). -/
def Link.key (k : Link) (dir : Nat) : List Byte := if dir = 0 then k.key0 else k.key1

/-- A numbered frame's ciphertext and tag under a key and nonce: the header is the additional data (R501). -/
def sealFrame (key nonce : List Byte) (f : Frame) : List Byte × List Byte :=
  let ct := gcmCrypt key nonce (payloadBytes f.payload)
  (ct, gcmTag key nonce (frameHeader f) ct)

/-- A frame's bytes: header, payload, tag and CRC; a stomped copy ends with the inverted CRC (R495, R509). -/
def framed (header payload tag : List Byte) (stomped : Bool) : List Byte :=
  let body := header ++ payload ++ tag
  let crc := crc32c body
  body ++ leBytes 4 (if stomped then ~~~crc else crc).toNat

/-- The bytes of a numbered frame this node sends on a link (R495, R501). -/
def wireOf (me : Nat) (k : Link) (f : Frame) (stomped : Bool) : List Byte :=
  let stream := streamOf f
  let gen := if stream = 0 then genOf k.txGen k.txSeq f.fseq else genOf k.txCtlGen k.txCtl f.fseq
  let dir := dirOf me k.peer
  let x := sealFrame (k.key dir) (frameNonce dir stream gen f.fseq) f
  framed (frameHeader f) x.1 x.2 stomped

/-- The bytes of a FILL or TRAIN frame: not encrypted, a zero tag (R496). -/
def plainWire (f : Frame) : List Byte := framed (frameHeader f) (payloadBytes f.payload) (List.replicate 16 0) false

/-- The tag that a frame received on a link must carry (R498, check 5). -/
def rxTag (me : Nat) (k : Link) (f : Frame) : BitVec 128 :=
  let stream := streamOf f
  let gen := if stream = 0 then genOf k.rxGen k.rxSeq f.fseq else genOf k.rxCtlGen k.rxCtl f.fseq
  let dir := dirOf k.peer me
  BitVec.ofNat 128 (ofBytes (sealFrame (k.key dir) (frameNonce dir stream gen f.fseq) f).2)

end Sys2Proof.Machine
end

