-- ==== Sys2Proof/Machine/RailCore.lean ====
section
/-! DEFINITION. What links and connections share: Platform units (R144, R146, R506, R616), lanes and paths (R488, R538,
R539), frames and their sequence numbers (R495 to R500), egress queues (R508, R511), sending and resending packets (R550,
R551, R558), and a link that is lost (R491, R499). -/

namespace Sys2Proof.Machine

/-! ## Platform units -/

/-- The Station that serves Lantern n (R27). -/
def lanternStation (n : Nat) : Nat := if n / 2 % 2 = 0 then 0 else 1

/-- The home Station of connection c (R540). -/
def connStation (c : Nat) : Nat := if c < 2048 then 0 else 1

/-- Frames of a list that hold a unit of class c for an ingress on Station st (R506). -/
def heldFrames (st c : Nat) (qs : List QFrame) : Nat :=
  (qs.filter (fun q => match q.ingress with
    | some (i, k) => lanternStation (i / 2) == st && k == c
    | none => false)).length

/-- The frames an egress holds: queued, and sent but not acknowledged. -/
def Link.frames (k : Link) : List QFrame := k.queues.flatMap (fun kv => kv.2) ++ k.unacked.map (fun t => t.q)

/-- Units a connection keeps (R542, R543). -/
def Conn.units (c : Conn) : Nat := if c.st = .free then 0 else (if c.saved && c.unacked.isEmpty then 0 else c.txUnits) + c.rxUnits

/-- Units of class c in use on Station st, reserved units included (R616): connections, staging windows and transit frames.
(DEDUCED, log entry 66.) -/
def pfInUse (st c : Nat) (s : State) : Nat :=
  ((s.rc.conns.filter (fun kv => decide (kv.1 ≠ 0) && connStation kv.1 == st && kv.2.cls == c)).map (fun kv => kv.2.units)).sum +
  (s.tt.entries.map (fun kv => match kv.2.rcv with
    | some r => if connStation r.conn = st ∧ (s.conn r.conn).cls = c then r.window else 0
    | none => 0)).sum +
  (s.rail.lanterns.map (fun kv => (kv.2.links.map (fun l => heldFrames st c l.2.frames)).sum)).sum

/-- The classes that share a pool with class c, and its size: the 504 units of a Station in shared mode, the PLATFORM_UNITS of
the class's partition in fixed-slice mode, what is left for the classes of no partition (R134, R144). -/
def pfPool (c : Nat) (s : State) : List Nat × Nat :=
  match s.img.image with
  | none => ([0, 1, 2, 3, 4, 5, 6, 7], 504)
  | some i =>
    if !i.fixed then ([0, 1, 2, 3, 4, 5, 6, 7], 504) else
    match i.parts.find? (fun p => p.classes.getLsbD c) with
    | some p => ((List.range 8).filter (fun k => p.classes.getLsbD k), p.units)
    | none => ((List.range 8).filter (fun k => i.parts.all (fun p => !p.classes.getLsbD k)), 504 - (i.parts.map (fun p => p.units)).sum)

/-- Units free to class c on Station st: what its guarantee leaves, then what its cap and the pool leave (R144). -/
def pfFree (st c : Nat) (s : State) : Nat :=
  match s.img.image with
  | none => 0
  | some i =>
    let mn (k : Nat) : Nat := nth (nth i.pfMin st []) k 0
    let pool := pfPool c s
    let shared := pool.2 - (pool.1.map (fun k => max (pfInUse st k s) (mn k))).sum
    min (nth (nth i.pfCap st []) c 0 - pfInUse st c s) ((mn c - pfInUse st c s) + shared)

/-- PF_USE.PEAK follows the use of a class (R616). -/
def pfTouch (st c : Nat) (s : State) : State :=
  { s with ho := { s.ho with pfPeak := tmod s.ho.pfPeak (8 * st + c) 0 (max (pfInUse st c s)) } }

/-! ## Lanes, links and paths -/

/-- A load has passed its point of no return (R172). -/
def applying (s : State) : Bool := s.work.any (fun w => match w.prog with | .image .applying => true | _ => false)

/-- The image whose Lantern tables are in force: that of a load from its point of no return on, for they are written in step 4 (R172, R174). -/
def lanternImage (s : State) : Option Image :=
  match applying s, s.img.staged with
  | true, some x => some x.1
  | _, _ => s.img.image

/-- A Lantern's block of those tables (R147). -/
def lanternCfg (n : Nat) (s : State) : Option LanternCfg := (lanternImage s).bind (fun i => i.lanternCfg[n]?)

/-- The link of a Lantern's lane: 0 v3, 1 v2 (R488). -/
def laneLink (n lane : Nat) (s : State) : Nat :=
  match lanternCfg n s with
  | some c => b2n (c.v2Lanes.getLsbD lane)
  | none => 0

/-- The lanes of a link. -/
def linkLanes (n l : Nat) (s : State) : List Nat := (List.range 16).filter (fun k => laneLink n k s == l)

/-- A link that carries frames (R538). -/
def Link.up (k : Link) : Bool := k.st == .up || k.st == .degraded

/-- The VERSION of a link's frames (R495). -/
def linkVersion (l : Nat) (st : LinkSt) : BitVec 4 := if st = .trickle then 7 else if l = 1 then 2 else 3

/-- A route slot whose path is up (R538). -/
def pathUp (r : RouteSlot) (s : State) : Bool := r.valid && (s.link r.lantern r.link).up

/-- Slot k of the route entry of a destination (R538). -/
def State.route (s : State) (dst k : Nat) : RouteSlot := tget s.rail.routes (4 * dst + k) {}

/-- The egress of a transit frame: slot `path` if its path is up, else the lowest slot whose path is up (R539). -/
def routeFor (dst path : Nat) (s : State) : Option (Nat × Nat) :=
  let r := s.route dst path
  if pathUp r s then some (r.lantern, r.link) else
    ((List.range 4).find? (fun k => pathUp (s.route dst k) s)).map (fun k => ((s.route dst k).lantern, (s.route dst k).link))

/-- The trickle link to a node in N3: Lantern 0's v3 link (R516 to R518). -/
def trickleTo (dst : Nat) (s : State) : Bool := (s.link 0 0).st == .trickle && (s.link 0 0).peer == dst

/-! ## Frames -/

/-- This node's number. -/
def State.me (s : State) : Nat := s.rail.nodeId.toNat

/-- Frames a trickle link carries, and that draw on the 8 units outside every class (R506, R517). -/
def frameSpecial (f : Frame) : Bool := f.mgmt || f.typ == 6 || f.typ == 7

/-- The credit a sequenced frame spends: its class, or 8 for the units outside every class (R506). -/
def creditKey (f : Frame) : Nat := if frameSpecial f then 8 else f.cls

/-- Credits of a key that may be outstanding on a link (R506). (DEDUCED, log entry 57.) -/
def creditLimit (k : Nat) : Nat := if k = 8 then 8 else 16

/-- The receive credit of a class is available (R506, R511). -/
def Link.hasCredit (k : Link) (f : Frame) : Bool := decide (tget k.credits (creditKey f) 0 < creditLimit (creditKey f))

/-- Whether sequence number a lies before b (R496). -/
def seqBefore (a b : W32) : Bool := decide (a ≠ b) && decide ((b - a).toNat < 2 ^ 31)

/-- A numbered frame leaves a link, encrypted and authenticated (R501, R531). -/
def frameOut (n l : Nat) (f : Frame) (s : State) : State :=
  (s.modLantern n (fun x => { x with txFrames := x.txFrames + 1 })).emit (.frame n l f (wireOf s.me (s.link n l) f false) false)

/-- A frame without a number leaves a link (R496). -/
def plainOut (n l : Nat) (f : Frame) (s : State) : State :=
  s.emit (.frame n l { f with version := linkVersion l (s.link n l).st } (plainWire { f with version := linkVersion l (s.link n l).st }) false)

/-- Returns the receive credit of a transit frame's unit to its ingress (R506). -/
def freeIngress (q : QFrame) (s : State) : State :=
  match q.ingress with
  | some (i, c) => s.modLink (i / 2) (i % 2) (fun k => { k with given := tmod k.given c 0 (· - 1) })
  | none => s

/-- A control frame leaves: the control stream's number, and ACK_SEQ (R495, R496). -/
def ctlOut (n l : Nat) (f : Frame) (s : State) : State :=
  let k := s.link n l
  (frameOut n l { f with version := linkVersion l k.st, fseq := k.txCtl, ackSeq := k.rxSeq } s).modLink n l (fun k => { k with
    txCtl := k.txCtl + 1, txCtlGen := genAfter k.txCtlGen k.txCtl, ackDue := false, ctlLast := true })

/-- A sequenced frame leaves: it takes the stream's number and a credit, is kept until it is acknowledged, and counts in its
class (R496, R499, R506, R532). A strict class's run count grows (R513). -/
def seqOut (n l : Nat) (q : QFrame) (s : State) : State :=
  let k := s.link n l
  let f := { q.frame with
    version := linkVersion l k.st, cls := if l = 1 then min 3 q.frame.cls else q.frame.cls,
    fseq := k.txSeq, ackSeq := k.rxSeq }
  let s1 := (frameOut n l f s).modLink n l (fun k => { k with
    txSeq := k.txSeq + 1, txGen := genAfter k.txGen k.txSeq, unacked := k.unacked ++ [{ q := { q with frame := f, ingress := none }, resends := 0 }],
    credits := tmod k.credits (creditKey f) 0 (· + 1), ackDue := false, ctlLast := false })
  let s2 := s1.modLantern n (fun x => { x with classes := tmod x.classes f.cls {} (fun c => { c with txBytes := c.txBytes + f.len }) })
  freeIngress q s2

/-- Puts a frame in its class's queue of an egress (R508, R511); a v2 link has classes 0 to 3, and no payload above 2,048 bytes
leaves on it (R504, R505). -/
def enqueue (n l : Nat) (q : QFrame) (s : State) : State :=
  if l = 1 ∧ q.frame.len > 2048 then freeIngress q (s.modLantern n (fun x => { x with dropped := x.dropped + 1 })) else
  let c := if l = 1 then min 3 q.frame.cls else q.frame.cls
  s.modLink n l (fun k => { k with queues := tmod k.queues c [] (· ++ [q]) })

/-- Queues a control frame (R511). -/
def enqueueCtl (n l : Nat) (f : Frame) (s : State) : State := s.modLink n l (fun k => { k with ctlq := k.ctlq ++ [f] })

/-- A frame this node originates, toward a node (R495, R570). -/
def ownFrame (s : State) (typ : BitVec 4) (dst : Nat) (p : Payload) : Frame :=
  { typ, version := 3, dst, src := s.rail.nodeId.toNat, len := payloadLen p, hops := max 1 s.rc.hops.toNat, payload := p }

/-- The sc a frame lasts on a v3 link with n lanes up (R514). -/
def frameSc (len lanes : Nat) : Nat := ceilDiv (7 * (36 + len)) (100 * max 1 lanes)

/-- Whether the gate of a class admits a frame: its whole duration fits in the window that remains (R514); a v2 link has no
gates (R504). -/
def gateAdmits (n l c len : Nat) (s : State) : Bool :=
  match lanternCfg n s with
  | none => true
  | some cfg =>
    if l = 1 ∨ cfg.period = 0 then true else
    let g := cfg.period
    let o := s.clk.sc % g
    let k := nth cfg.classes c { weight := 0, burst := 1, openAt := 0, closeAt := 0 }
    let d := frameSc len (s.link n l).lanesUp
    if k.openAt = k.closeAt then true
    else if k.openAt < k.closeAt then decide (k.openAt ≤ o) && decide (o + d ≤ k.closeAt)
    else if o < k.closeAt then decide (o + d ≤ k.closeAt)
    else decide (k.openAt ≤ o) && decide (o + d ≤ g + k.closeAt)

/-- A frame of class c may be sent for its credit and its gate (R511). -/
def admits (n l c : Nat) (f : Frame) (s : State) : Bool := (s.link n l).hasCredit f && gateAdmits n l c f.len s

/-- The head of a class queue. -/
def qHead (n l c : Nat) (s : State) : Option QFrame := (tget (s.link n l).queues c []).head?

/-- The head frame of class c has its credit and its gate. -/
def headAdmits (n l c : Nat) (s : State) : Bool :=
  match qHead n l c s with
  | some q => admits n l c q.frame s
  | none => false

/-- The burst limit of a class in bytes (R513). -/
def burstOf (n c : Nat) (s : State) : Nat :=
  match lanternCfg n s with
  | some cfg => 4096 * (nth cfg.classes c { weight := 0, burst := 1, openAt := 0, closeAt := 0 }).burst
  | none => 4096

/-- The quantum of a class in bytes (R513). -/
def quantumOf (n c : Nat) (s : State) : Nat :=
  match lanternCfg n s with
  | some cfg => 512 * (nth cfg.classes c { weight := 1, burst := 1, openAt := 0, closeAt := 0 }).weight
  | none => 512

/-- A strict class at its burst is passed over for one frame while a lower class is eligible (R513). -/
def passedOver (n l c : Nat) (s : State) : Bool :=
  decide (c < 2) && decide (tget (s.link n l).deficit c 0 ≥ burstOf n c s) &&
  (List.range 8).any (fun k => decide (c < k) && headAdmits n l k s)

/-- Forwarding runs in N0, N1 and N2 (R510); in FAILED no Lantern runs (R646). -/
def forwards (s : State) : Bool := decide (s.power.st ≠ .n3) && decide (s.boot.stage ≠ .failed)

/-- Queues a transit frame whole on its egress (R508), chosen by R539; without a path it is dropped (R539), toward a node in
N3 only what R517 lets through is sent. The frame's HOPS has been decremented. -/
def forwardStored (f : Frame) (ingress : Option (Nat × Nat)) (s : State) : State :=
  let path := match f.payload with | .packet p => p.path | _ => 0
  let q : QFrame := { frame := f, ingress }
  if trickleTo f.dst s then
    (if frameSpecial f then enqueue 0 0 q s
     else freeIngress q (s.modLantern 0 (fun x => { x with dropped := x.dropped + 1 })))
  else match routeFor f.dst path s with
    | some (n, l) => enqueue n l q s
    | none => freeIngress q { s with rc := { s.rc with noRoute := s.rc.noRoute + 1 } }

/-! ## Packets -/

/-- The data bytes a packet of a connection may carry (R545); a management message fits in one packet of 2,000 bytes (R548). -/
def maxData (num : Nat) (c : Conn) : Nat := if c.v2 || num == 0 then 2000 else 4048

/-- A length cut into pieces: (offset, bytes). -/
def cuts (len piece : Nat) : List (Nat × Nat) :=
  (List.range (ceilDiv len piece)).map (fun i => (i * piece, min piece (len - i * piece)))

/-- The body that marks a page access: one block, with its record (R537). -/
def pageCtl (s : State) (bs : List Block) : Ctl :=
  { ctype := 0, sEntry := 0, rEntry := none, status := 0, reason := 0, reqId := 0, epoch := 0, origin := s.me, body := .data 0 bs }

/-- The packets that carry a block as one message: its record and stored bytes, cut as R545 bounds a packet of the management connection.
`bad` says whether the bytes of a piece are poisoned. -/
def pagePieces (p : Packet) (b : Block) (bad : Nat → Nat → Bool) : List Packet :=
  let n := 16 + b.stored.length
  (cuts n (maxData 0 {})).map (fun d =>
    { p with mlen := BitVec.ofNat 32 n, offset := d.1, dlen := d.2, last := decide (d.1 + d.2 = n), poison := bad d.1 d.2 })

/-- The next up path of a connection's mask in round-robin order from its turn (R550). -/
def nextPath (mask : BitVec 4) (turn dst : Nat) (s : State) : Option Nat :=
  (List.range 4).map (fun i => (turn + i) % 4) |>.find? (fun k => mask.getLsbD k && pathUp (s.route dst k) s)

/-- The path mask of a connection; the management connection uses every slot. -/
def maskOf (num : Nat) (c : Conn) : BitVec 4 := if num = 0 then 15 else c.paths

/-- Payload bytes of a connection count for its tenant and partition (R707). -/
def railUse (num n : Nat) (s : State) : State := if num = 0 then s else s.use (s.conn num).tenant (s.conn num).part 2 n

/-- A packet is originated (R570). -/
def State.countTx (s : State) : State := { s with rc := { s.rc with txPkts := s.rc.txPkts + 1 } }

/-- Sends a packet once: on the next up path, or over the trickle link; with no up path nothing leaves (R550, R558). The answer
is the path. -/
def launch (num : Nat) (dst : Nat) (p : Packet) (tracked : Bool) (s : State) : State × Nat :=
  let c := s.conn num
  let k := nextPath (maskOf num c) c.turn dst s
  let path := k.getD p.path
  let p' := { p with path, srcInc := s.rail.inc }
  let f := { ownFrame s 1 dst (.packet p') with cls := p.cls.getD c.cls, mgmt := decide (num = 0) && p.cls.isNone }
  let q : QFrame := { frame := f, packet := if tracked then some (num, p.mseq, p.offset) else none }
  let s1 := ((railUse num (dataLen p) s).countTx).modConn num (fun c =>
    { c with turn := match k with | some x => (x + 1) % 4 | none => c.turn })
  (if trickleTo dst s && f.mgmt then enqueue 0 0 q s1
   else match k with
    | some x => enqueue (s.route dst x).lantern (s.route dst x).link q s1
    | none => s1, path)

/-- Sends a packet that needs no acknowledgement: ACK, NAK, HELLO, CLOSE (R551, R544). -/
def sendOnce (num dst : Nat) (p : Packet) (s : State) : State := (launch num dst p false s).1

/-- Units for sending of a connection; the management connection draws on the 8 units held outside every class (R541). -/
def txLimit (num : Nat) (c : Conn) : Nat := if num = 0 then 8 else c.txUnits

/-- Whether a waiting packet must let an earlier one be acknowledged first: messages to one node on the management connection take effect
in the order they were sent (R581), so one CONTROL message to a node goes at a time. (DEDUCED, log entry 63.) -/
def Conn.holds (num : Nat) (c : Conn) (x : Nat × Packet) : Bool :=
  num == 0 && x.2.op == 12 && c.unacked.any (fun t => t.dst == x.1 && t.pkt.op == 12)

/-- Sends waiting packets while a unit of TX_UNITS is free (R550) and the owner is not saved (R543); `fuel` is their number. -/
def pump (num : Nat) : Nat → State → State
  | 0, s => s
  | k + 1, s =>
    let c := s.conn num
    match c.txq.find? (fun x => !c.holds num x) with
    | none => s
    | some (dst, p) =>
      if c.saved ∨ c.unacked.length ≥ txLimit num c then s else
      let r := launch num dst p true s
      pump num k (r.1.modConn num (fun c => { c with
        txq := c.txq.eraseP (fun x => !c.holds num x), unacked := c.unacked ++ [{ pkt := { p with path := r.2 }, dst, sends := 1, path := r.2 }] }))

/-- Queues packets on a connection and sends what its units allow. -/
def post (num : Nat) (ps : List (Nat × Packet)) (s : State) : State :=
  let s1 := s.modConn num (fun c => { c with txq := c.txq ++ ps })
  pump num (s1.conn num).txq.length s1

/-- Sends an unacknowledged packet again, on the next up path (R551, R558). -/
def resend (num : Nat) (mseq : W32) (offset : Nat) (s : State) : State :=
  match (s.conn num).unacked.find? (fun t => t.pkt.mseq == mseq && t.pkt.offset == offset) with
  | none => s
  | some t =>
    let r := launch num t.dst t.pkt true s
    let s1 := r.1.modConn num (fun c => { c with
      retx := c.retx + 1,
      unacked := updateFirst (fun t => t.pkt.mseq == mseq && t.pkt.offset == offset)
        (fun t => { t with sends := t.sends + 1, path := r.2 }) c.unacked })
    { s1 with rc := { s1.rc with retx := s1.rc.retx + 1 } }

/-! ## A link that stops carrying frames -/

/-- The DATA frames an egress held go back: a local packet is sent again at once, a transit frame is forwarded again (R499,
R558). -/
def returnFrames : List QFrame → State → State
  | [], s => s
  | q :: r, s => returnFrames r (match q.packet with
      | some (num, mseq, off) => resend num mseq off s
      | none => if q.frame.typ = 1 ∧ q.frame.src ≠ s.rail.nodeId.toNat then forwardStored q.frame q.ingress s else s)

/-- A link enters a state in which it carries no frames: its lanes are dark, its queues and credits empty, and its DATA frames
go back (R491, R499). -/
def linkStop (n l : Nat) (st : LinkSt) (cause : Byte) (s : State) : State :=
  let held := (s.link n l).frames
  returnFrames held (s.modLink n l (fun k => { k with
    st, cause, lanesUp := 0, unacked := [], queues := [], ctlq := [], ackDue := false, credits := [],
    keyed := false, peerConf := false, sentTrain := false, key0 := [], key1 := [] }))

/-- RESULT of a link event: the Lantern and the link or lane (R529). -/
def linkResult (n l : Nat) : Nat := n + 256 * l

/-- A running or training link goes DOWN or FAILED with its event (R491). -/
def linkDown (n l : Nat) (st : LinkSt) (cause : Byte) (s : State) : State :=
  event 0 0x0600 (linkResult n l) (linkStop n l st cause s)

/-- The states of a link's lanes (R533). -/
def setLanes (n l : Nat) (st : Nat → LaneSt) (s : State) : State :=
  (linkLanes n l s).foldl (fun s k => s.modLane n k (fun x => { x with st := st k })) s

/-- The state of a lane that carries frames. -/
def laneUpSt (l : Nat) : LaneSt := if l = 1 then .upV2 else .upV3

/-- A link starts training (R489): no link trains without a node ID (R534). A fresh nonce goes out in a TRAIN frame; frames
the link held go back, since its path is no longer up (R538, R558). -/
def startTraining (n l : Nat) (s : State) : State :=
  if !s.rail.nodeSet then s else
  let again := (s.link n l).trained
  let s1 := setLanes n l (fun _ => .training) (linkStop n l .training 0 s)
  let nonce := Config.random s1.free % 2 ^ 256
  let slot := (s1.lantern n).keySlot.toNat
  let f := ownFrame s1 9 0 (.train s1.rail.nodeId.toNat s1.rail.inc n (linkVersion l .training) slot nonce)
  plainOut n l f ((s1.fresh.modLink n l (fun k => { k with nonce, keySlot := slot, sentTrain := true })).modLantern n (fun x =>
    { x with retrains := x.retrains + b2n again }))

/-- A link goes on as a trickle link: keys of VERSION 7 from its training's nonces, and only frames such a link carries; those not yet
acknowledged go under its version and keys from now on (R516, R517). (DEDUCED, log entry 101.) -/
def Link.toTrickle (k : Link) (me lantern : Nat) : Link :=
  { k.keyedAs me lantern 7 with
    st := .trickle, lanesUp := 1, queues := tmap k.queues [] (fun _ l => l.filter (fun q => frameSpecial q.frame)),
    unacked := (k.unacked.filter (fun t => frameSpecial t.q.frame)).map (fun t =>
      { t with q := { t.q with frame := { t.q.frame with version := 7 } } }) }

end Sys2Proof.Machine
end

