-- ==== Sys2Proof/Machine/Lists.lean ====
section
/-! DEFINITION. Key-value pools and page lists: pages taken and returned (R289), list headers, chunks and page entries (R284 to
R286), geometry (R281), creating and freeing a list (R288, R324). -/

namespace Sys2Proof.Machine

/-! ## Pools -/

/-- Pages of a KV_PAGES region (R289), or places of a STATE region used as a container (R334, R594). -/
def poolTotal (r : Region) : Nat := if r.kind = 3 then r.size / 4096 - r.size / 4096 / 256 else r.size / 65536

/-- Pages of a pool that are free (R332). -/
def poolFree (r : Region) (s : State) : Nat := poolTotal r - (s.pool r.id).used.length

/-- The k-th number that a rising list does not hold. -/
def nthFree : List Nat → Nat → Nat
  | [], k => k
  | u :: r, k => if u ≤ k then nthFree r (k + 1) else k

/-- Inserts a number in a rising list. -/
def insertSorted (x : Nat) : List Nat → List Nat
  | [] => [x]
  | y :: r => if x < y then x :: y :: r else y :: insertSorted x r

/-- Takes `n` pages of a pool: which free page each is, the spec leaves to the device (a free choice). -/
def pickPages (total : Nat) : Nat → List Nat → Nat → List Nat → List Nat × List Nat
  | 0, used, _, got => (got, used)
  | n + 1, used, free, got =>
    let p := nthFree used (Config.choice free % max 1 (total - used.length))
    pickPages total n (insertSorted p used) (free + 1) (got ++ [p])

/-- Takes pages of a pool, the first `reserved` of them from a reservation of that many (R289, R380): none unless the pool's
other free pages supply the rest. The caller lowers the reservation of its request. -/
def takePages (r : Region) (n reserved : Nat) (s : State) : Option (List Nat × State) :=
  let p := s.pool r.id
  let fromRes := min n reserved
  if n > poolFree r s ∨ n - fromRes > poolFree r s - p.reserved then none else
    let g := pickPages (poolTotal r) n p.used s.free []
    some (g.1, { s with
      free := s.free + n,
      mem := { s.mem with
        kvTaken := s.mem.kvTaken + n,
        pools := tput s.mem.pools r.id { p with
          used := g.2, reserved := p.reserved - fromRes,
          low := some (min (p.low.getD (poolTotal r)) (poolTotal r - g.2.length)) } {} } })

/-- Returns pages to a pool (R289). -/
def returnPages (pool : Nat) (ps : List Nat) (s : State) : State :=
  s.modPool pool (fun p => { p with used := p.used.filter (fun x => !ps.any (· == x)) })

/-- Reserves and returns reservations of a pool (R380). -/
def reservePages (pool n : Nat) (s : State) : State := s.modPool pool (fun p => { p with reserved := p.reserved + n })
def unreserve (pool n : Nat) (s : State) : State := s.modPool pool (fun p => { p with reserved := p.reserved - n })

/-! ## Places of a CACHE node's containers (R334, R594, R596) -/

/-- The STATE regions of a partition: their places are numbered on from one to the next. -/
def stateRegions (part : Nat) (s : State) : List Region :=
  match s.img.image with
  | some i => i.regions.filter (fun r => r.kind == 3 && r.part == part)
  | none => []

/-- The region and place that a number over all containers names. (DESIGN CHOICE, log entry 72.) -/
def placeAt : List Region → Nat → Option (Region × Nat)
  | [], _ => none
  | r :: rest, g => if g < r.size / 4096 then some (r, g) else placeAt rest (g - r.size / 4096)

/-- Free places of a partition's containers (R594). -/
def placesFree (part : Nat) (s : State) : Nat := ((stateRegions part s).map (fun r => poolFree r s)).sum

/-- Takes `n` places, from the containers in order. -/
def takeFrom : List Region → Nat → Nat → State → List Nat × State
  | [], _, _, s => ([], s)
  | r :: rest, base, n, s =>
    let k := min n (poolFree r s)
    let g := match takePages r k 0 s with
      | some x => x
      | none => ([], s)
    let more := takeFrom rest (base + r.size / 4096) (n - k) g.2
    (g.1.map (base + ·) ++ more.1, more.2)

/-- Takes `n` places of a partition, or none. -/
def takePlaces (part n : Nat) (s : State) : Option (List Nat × State) :=
  if n > placesFree part s then none else some (takeFrom (stateRegions part s) 0 n s)

/-- Returns places. -/
def returnPlaces (part : Nat) (ps : List Nat) (s : State) : State :=
  ps.foldl (fun s g => match placeAt (stateRegions part s) g with
    | some (r, p) => returnPages r.id [p] s
    | none => s) s

/-! ## Geometry (R281) -/

/-- The head dimension of a geometry; none for the reserved code. -/
def geoDim (g : Nat) : Option Nat := match g % 4 with | 0 => some 64 | 1 => some 128 | 2 => some 256 | _ => none

/-- Bytes of an element of a geometry; none for a code outside R281. -/
def geoElem (g : Nat) : Option Nat := match g / 16 with | 4 => some 1 | 5 => some 1 | 7 => some 2 | 8 => some 2 | _ => none

/-- Whether a geometry is one R281 gives: bits 3:2 are no field. -/
def geoOk (g : Nat) : Bool := (geoDim g).isSome && (geoElem g).isSome && decide (g / 4 % 4 = 0)

/-- Positions per block T (R281). -/
def geoT (g : Nat) : Nat := 32768 / max 1 ((geoDim g).getD 64 * (geoElem g).getD 1)

/-! ## Lists -/

/-- A list header as its bytes spell it (R285), with the region and offset of chunk 0. -/
structure ListHdr where
  region   : Region
  off      : Nat
  commit   : Nat
  frozen   : Nat
  pages    : Nat
  chunks   : Nat
  layers   : Nat
  kvHeads  : Nat
  geometry : Nat
  pool     : Nat
  tenant   : Nat
  st       : Nat
  next     : Nat
  tail     : Nat
deriving DecidableEq, Repr

/-- The header at a reference, if it lies in a KV_PAGES region, page-aligned (R285, R330). -/
def listAt (s : State) (ref : Nat) : Option ListHdr :=
  match refOf ref with
  | .hbm id off =>
    match s.region id with
    | some r =>
      if r.kind ≠ 1 ∨ off % 65536 ≠ 0 ∨ off + 65536 > r.size then none else
      let n (o w : Nat) : Nat := regionNum s r (off + o) w
      some { region := r, off, commit := n 0 4, frozen := n 4 4, pages := n 8 4, chunks := n 12 4, layers := n 16 2,
             kvHeads := n 18 1, geometry := n 19 1, pool := n 20 1, tenant := n 21 1, st := n 22 1, next := n 24 8, tail := n 32 8 }
    | none => none
  | _ => none

/-- Pages per block G (R281, R284). -/
def ListHdr.g (h : ListHdr) : Nat := h.layers * h.kvHeads

/-- COMMIT of a layer (R285). -/
def listCommit (s : State) (h : ListHdr) (layer : Nat) : Nat := regionNum s h.region (h.off + 64 + 4 * layer) 4

/-- The reference of a byte of a region (R211). -/
def mkRef (region off : Nat) : Nat := region * 2 ^ 48 + off

/-- The `SPACE` none reference (R211). -/
def noRef : Nat := 3 * 2 ^ 56

/-- The offset of chunk k of a chain in its region (R284): k links on from chunk 0. -/
def chunkOff (s : State) (r : Region) : Nat → Nat → Nat
  | 0, off => off
  | k + 1, off => match refOf (regionNum s r (off + 24) 8) with
    | .hbm _ o => chunkOff s r k o
    | _ => off

/-- The offset of the entry of page index n (R284). -/
def entryOff (s : State) (h : ListHdr) (n : Nat) : Nat := chunkOff s h.region (n / 7680) h.off + 4096 + 8 * (n % 7680)

/-- The page index of a block, layer and head (R284). -/
def pageIdx (h : ListHdr) (block layer head : Nat) : Nat := (block * h.layers + layer) * h.kvHeads + head

/-- A page entry (R286). -/
structure PageEnt where
  tier    : Nat
  frozen  : Bool
  keyslot : Nat
  loc     : Nat
deriving DecidableEq, Repr

/-- The entry a word spells. -/
def PageEnt.of (v : Nat) : PageEnt :=
  { tier := fld v 62 2, frozen := fld v 60 1 == 1, keyslot := fld v 48 12, loc := fld v 0 46 }

/-- The word of an entry. -/
def PageEnt.word (e : PageEnt) : Nat := packFields [(e.tier, 2, 62), (b2n e.frozen, 1, 60), (e.keyslot, 12, 48), (e.loc, 46, 0)]

/-- An entry of a page that is not allocated. -/
def noPage : PageEnt := { tier := 3, frozen := false, keyslot := 0, loc := 0 }

/-- The LOC of a page of an HBM or DDR5 region (R286). -/
def locOf (region page : Nat) : Nat := region * 2 ^ 38 + page * 65536

/-- The region and page number of a LOC. -/
def locRegion (loc : Nat) : Nat := fld loc 38 8
def locPage (loc : Nat) : Nat := fld loc 16 22

/-- The entry of page index n; one that no chunk holds yet is not allocated. -/
def pageEnt (s : State) (h : ListHdr) (n : Nat) : PageEnt :=
  if n < h.pages then .of (regionNum s h.region (entryOff s h n) 8) else noPage

/-- Rewrites an entry with one 8-byte write (R319, R321). -/
def putEnt (h : ListHdr) (n : Nat) (e : PageEnt) (s : State) : State := regionWrite h.region (entryOff s h n) (leBytes 8 e.word) s

/-- The bytes of the header of a new list (R288). -/
def newHeader (layers kvHeads geometry pool tenant off : Nat) : List Byte :=
  leBytes 4 0 ++ leBytes 4 0 ++ leBytes 4 0 ++ leBytes 4 1 ++ leBytes 2 layers ++ leBytes 1 kvHeads ++ leBytes 1 geometry ++
  leBytes 1 pool ++ leBytes 1 tenant ++ leBytes 1 1 ++ leBytes 1 0 ++ leBytes 8 noRef ++ leBytes 8 (mkRef pool off) ++
  List.replicate (4096 - 40) 0

/-- Creates an empty list in a pool, its chunk drawn from `reserved` reserved pages first (R288, R380). The answer is the
reference of chunk 0. -/
def createList (r : Region) (layers kvHeads geometry tenant reserved : Nat) (s : State) : Option (Nat × State) :=
  match takePages r 1 reserved s with
  | some ([p], s1) => some (mkRef r.id (65536 * p), regionWrite r (65536 * p) (newHeader layers kvHeads geometry r.id tenant (65536 * p)) s1)
  | _ => none

/-- Writes a number of `w` bytes at an offset of the header area. -/
def putHdr (h : ListHdr) (o w v : Nat) (s : State) : State := regionWrite h.region (h.off + o) (leBytes w v) s

/-- Chains chunks until entry slot n − 1 exists; `fuel` is their number (R293). The pages come from `ps`. -/
def addChunks (h : ListHdr) : List Nat → State → State
  | [], s => s
  | p :: rest, s =>
    let hd := (listAt s (mkRef h.region.id h.off)).getD h
    let tailOff := match refOf hd.tail with | .hbm _ o => o | _ => hd.off
    let s1 := regionWrite h.region (65536 * p) (List.replicate 24 0 ++ leBytes 8 noRef ++ List.replicate (4096 - 32) 0) s
    let s2 := regionWrite h.region (tailOff + 24) (leBytes 8 (mkRef h.region.id (65536 * p))) s1
    let s3 := putHdr hd 32 8 (mkRef h.region.id (65536 * p)) (putHdr hd 12 4 (hd.chunks + 1) s2)
    addChunks h rest s3

/-- Chunks a list needs for `pages` entry slots beyond those it has (R284). -/
def chunksFor (h : ListHdr) (pages : Nat) : Nat := max 1 (ceilDiv pages 7680) - h.chunks

/-- Marks the entry slots from `a` to `b` − 1 as not allocated. -/
def clearEnts (h : ListHdr) (a : Nat) : Nat → State → State
  | 0, s => s
  | k + 1, s => clearEnts h (a + 1) k (putEnt h a noPage s)

/-- Points the entries of consecutive page indices at pages of the pool. -/
def putPages (h : ListHdr) (n : Nat) : List Nat → State → State
  | [], s => s
  | p :: rest, s => putPages h (n + 1) rest (putEnt h n { tier := 0, frozen := false, keyslot := 0, loc := locOf h.pool p } s)

/-- Pages a block costs a layer that enters it: the layer's pages, and the chunks the list must gain (R293). -/
def blockNeed (h : ListHdr) (block : Nat) : Nat := h.kvHeads + chunksFor h (max h.pages ((block + 1) * h.g))

/-- Enters a block for a layer with pages already taken: chunks are chained, PAGES extended, entries written (R293). -/
def enterBlock (h : ListHdr) (block layer : Nat) (ps : List Nat) (s : State) : State :=
  let span := max h.pages ((block + 1) * h.g)
  let nc := chunksFor h span
  let s1 := addChunks h (ps.take nc) s
  let s2 := clearEnts h h.pages (span - h.pages) s1
  putPages h (pageIdx h block layer 0) (ps.drop nc) (putHdr h 8 4 span s2)

/-- The HBM pages and chunks a list holds, as page numbers of its pool. -/
def listPages (s : State) (h : ListHdr) : List Nat :=
  ((List.range h.chunks).map (fun k => chunkOff s h.region k h.off / 65536)) ++
  ((List.range h.pages).filterMap (fun n => let e := pageEnt s h n; if e.tier = 0 ∧ locRegion e.loc = h.pool then some (locPage e.loc) else none))

/-- Whether a resident tile is a page of a list. -/
def ResKey.ofList (ref : Nat) : ResKey → Bool
  | .page l _ => l == ref
  | .tile _ _ _ => false

/-- Resident copies of a list are dropped when it is freed (R327). -/
def dropResident (ref : Nat) (s : State) : State :=
  { s with groves := { s.groves with stands := tmap s.groves.stands {} (fun _ x =>
      { x with resident := x.resident.filter (fun r => !r.key.ofList ref) }) } }

/-- Frees a list: its state becomes FREEING, its pages and chunks return, its resident copies go (R324, R327). -/
def freeList (ref : Nat) (s : State) : State :=
  match listAt s ref with
  | none => s
  | some h => if h.st ≠ 1 ∧ h.st ≠ 2 then s else dropResident ref (returnPages h.pool (listPages s h) (putHdr h 22 1 2 s))

end Sys2Proof.Machine
end

