-- ==== Sys2Proof/Machine/TtCore.lean ====
section
/-! DEFINITION. Timetable entries: their ranges (R366), how they change (R369, R768), their events (R386), the messages of the
management connection (R581, R582), and the transitions of R382 that several commands share. -/

namespace Sys2Proof.Machine

/-! ## Ranges -/

/-- The first index of partition p's range on a Station (R366). -/
def ttBase (i : Image) (p st : Nat) : Nat := ((List.range p).map (fun q => nth (nth i.ttSplit q []) st 0)).sum

/-- Entries of partition p on a Station. -/
def ttSize (i : Image) (p st : Nat) : Nat := nth (nth i.ttSplit p []) st 0

/-- The partition whose range holds an entry index (R366). -/
def entryPart (idx : Nat) (s : State) : Option Nat :=
  s.img.image.bind (fun i =>
    let st := idx / 8192
    let n := idx % 8192
    (List.range i.parts.length).find? (fun p => decide (ttBase i p st ≤ n) && decide (n < ttBase i p st + ttSize i p st)))

/-- The indices of a partition's entries on a Station, in order. -/
def entriesOf (i : Image) (p st : Nat) : List Nat := (List.range (ttSize i p st)).map (fun k => 8192 * st + ttBase i p st + k)

/-- The lowest FREE entry of a partition: on the Station named, then on the other (R372). -/
def freeEntry (p station : Nat) (s : State) : Option Nat :=
  match s.img.image with
  | none => none
  | some i =>
    let a := if station = 1 then 1 else 0
    (entriesOf i p a ++ entriesOf i p (1 - a)).find? (fun k => decide ((s.entry k).st = .free))

/-! ## Changing an entry -/

/-- Changes an entry: VERSION goes up by one (R367). -/
def putEntry (idx : Nat) (f : Entry → Entry) (s : State) : State :=
  s.modEntry idx (fun e => { f e with version := e.version + 1 })

/-- The owner states (R368). -/
def TtState.owner (st : TtState) : Bool :=
  st == .admitted || st == .prefill || st == .handoffOut || st == .decode || st == .parked || st == .done

/-- A STUB whose tenant is not mapped to the partition that holds its index (R391). -/
def detached (idx : Nat) (s : State) : Bool :=
  (s.entry idx).st == .stub && (match entryPart idx s with | some p => !mapped p (s.entry idx).tenant s | none => true)

/-- Sends a Timetable event about an entry (R386); a detached STUB's go to the physical function (R391). -/
def ttEvent (code idx : Nat) (s : State) (result : Option W64 := none) (reason : Nat := 0) : State :=
  let e := s.entry idx
  event (if detached idx s then 0 else e.fn) code (result.getD e.tag).toNat s e.cause (BitVec.ofNat 32 (idx + reason * 65536)) e.context

/-- Returns what is left of an entry's reservation (R380). -/
def returnReserve (idx : Nat) (s : State) : State :=
  let e := s.entry idx
  let pool := (s.ttregs e.part).pool
  (unreserve pool e.resPages s).modEntry idx (fun e => { e with resPages := 0 })

/-- Whether the node's role is CACHE. -/
def isCache (s : State) : Bool := match s.img.image with | some i => i.role == .cache | none => false
def isGen (s : State) : Bool := match s.img.image with | some i => i.role == .generation | none => false

/-- The states in which LIST names a list of the entry's own (R382). -/
def TtState.ownsList (st : TtState) : Bool :=
  st == .admitted || st == .prefill || st == .handoffOut || st == .decode || st == .parked || st == .done

/-- Frees what an entry's LIST names: the page list, or on a CACHE node the places of its parcel (R382, R596). -/
def freeEntryList (idx : Nat) (s : State) : State :=
  let e := s.entry idx
  let s1 := if isCache s then returnPlaces e.part e.parcel s
    else if e.st.ownsList then freeList e.list.toNat s else s
  s1.modEntry idx (fun e => { e with list := 0, pages := 0, parcel := [] })

/-- Returns the tally object of an entry (R615). -/
def freeTally (idx : Nat) (s : State) : State :=
  let e := s.entry idx
  match e.tallyObj with
  | none => s
  | some o => { s with ho := { s.ho with tally := tmod s.ho.tally e.part {} (fun t => { t with held := t.held.filter (· != o) }) } }

/-- An entry enters FREE: VERSION goes up, every other byte is zero, its objects return (R768, R615). -/
def toFree (idx : Nat) (s : State) : State :=
  (freeTally idx s).modEntry idx (fun e => { version := e.version + 1 })

/-! ## Management messages -/

/-- The incarnation this node holds for a node: the detector's, else that of a link whose peer it is (R545). -/
def knownInc (n : Nat) (s : State) : W32 :=
  if (s.peer n).inc ≠ 0 then (s.peer n).inc else
    match s.rail.lanterns.findSome? (fun kv => kv.2.links.findSome? (fun l => if l.2.peer = n ∧ l.2.up then some l.2.peerInc else none)) with
    | some i => i
    | none => 0

/-- Sends a CONTROL message on the management connection (R541, R581). -/
def mgmtSend (dst : Nat) (m : Ctl) (s : State) : State :=
  let c := s.conn 0
  post 0 [(dst, { op := 12, last := true, dstConn := 0, srcConn := 0, srcInc := s.rail.inc, dstInc := knownInc dst s,
                  mseq := c.nextMseq, mlen := BitVec.ofNat 32 (ctlBytes m), ctl := some m, dlen := ctlBytes m })]
    (s.modConn 0 (fun c => { c with nextMseq := c.nextMseq + 1 }))

/-- Sends a CONTROL message on a handoff connection, cut as any message (R550, R581); one that is not OPEN takes none. -/
def connSend (num : Nat) (m : Ctl) (s : State) : State :=
  let c := s.conn num
  if c.st ≠ .opened then s else
    let len := ctlBytes m
    post num ((cuts len (maxData num c)).map (fun x =>
      (c.peerNode, { op := 12, last := decide (x.1 + x.2 = len), dstConn := c.peerConn, srcConn := num, srcInc := s.rail.inc,
                     dstInc := c.peerInc, mseq := c.nextMseq, offset := x.1, mlen := BitVec.ofNat 32 len, ctl := some m, dlen := x.2 })))
      (s.modConn num (fun c => { c with nextMseq := c.nextMseq + 1 }))

/-- A chain message from an entry to its previous holder (R613): RELEASE is 0x10, LOST 0x11; one forwarded keeps its epoch. -/
def chainUp (ctype : Byte) (status : Byte) (idx : Nat) (s : State) (epoch : Option W32 := none) : State :=
  let e := s.entry idx
  if !e.fromValid then s else
    mgmtSend e.fromNode { ctype, sEntry := idx, rEntry := some e.fromIndex, status, reason := 0, reqId := e.reqId,
                          epoch := epoch.getD e.epoch, origin := s.me, body := .none } s

/-- An owner sends RELEASE and clears FROM_VALID (R382). -/
def sendRelease (idx : Nat) (s : State) : State := putEntry idx (fun e => { e with fromValid := false }) (chainUp 0x10 0 idx s)

/-! ## Steps and boundaries -/

/-- The step in flight of a partition. -/
def State.stepOf (s : State) (p : Nat) : Option Step := tget s.tt.steps p none

/-- The installed program of a partition. -/
def State.progOf (s : State) (p : Nat) : Option StepProg := tget s.tt.progs p none

/-- Whether the step in flight includes an entry (R382, "Step boundary"). -/
def inStep (idx : Nat) (s : State) : Bool :=
  s.tt.steps.any (fun kv => match kv.2 with | some x => x.seqs.any (fun q => q.entry == idx) | none => false)

/-! ## Transitions -/

/-- What a withheld race record is worth when its request ends otherwise: it is discarded (R413). -/
def dropWithheld (e : Entry) : Entry := { e with withheld := none, claiming := false, raceHit := none }

/-- What a receiver's side of a handoff holds returns: pages drawn for items, key slots bound (R599, R600). -/
def releaseRcv (idx : Nat) (s : State) : State :=
  let e := s.entry idx
  match e.rcv with
  | none => s
  | some r =>
    let s1 := returnPages (s.ttregs e.part).pool r.drawn s
    let s2 : State := { s1 with mem := { s1.mem with keySlots := r.bindings.foldl (fun t b => terase t b.2) s1.mem.keySlots } }
    s2.modEntry idx (fun e => { e with rcv := none })

/-- LOST: the list is freed, the reservation returned, LOST sent to FROM_NODE, event LOST (R382); a detached STUB goes on to
FREE (R391). -/
def toLost (idx : Nat) (cause : Byte) (s : State) (epoch : Option W32 := none) : State :=
  let det := detached idx s
  let s1 := returnReserve idx (freeEntryList idx (releaseRcv idx s))
  let s2 := chainUp 0x11 cause idx (putEntry idx (fun e => { dropWithheld e with st := .lost, cause, snd := none, rcv := none, held := false, cancelPend := false, accepting := false }) s1) epoch
  if det then toFree idx (event 0 0x0102 (s2.entry idx).tag.toNat s2 cause (BitVec.ofNat 32 idx)) else ttEvent 0x0102 idx s2

/-- CANCELLED: the list is freed, RELEASE sent, event CANCELLED (R382). -/
def toCancelled (idx : Nat) (cause : Byte) (s : State) : State :=
  let s1 := returnReserve idx (freeEntryList idx s)
  ttEvent 0x0103 idx (sendRelease idx (putEntry idx (fun e => { dropWithheld e with st := .cancelled, cause, cancelPend := false, held := false }) s1))

/-- The states a cancel accepts (R382, R385). -/
def TtState.cancels (st : TtState) : Bool :=
  st == .admitted || st == .prefill || st == .decode || st == .parked || st == .done

/-- Forwards a cancel from a STUB to the node it points to, for an origin (R382, R613). -/
def forwardFor (idx origin sEntry : Nat) (s : State) : State :=
  let e := s.entry idx
  mgmtSend e.node { ctype := 0x12, sEntry, rEntry := none, status := 0, reason := 0, reqId := e.reqId, epoch := e.epoch,
                    origin, body := .none } s

/-- CANCEL_DONE to the origin of a cancel (R613). -/
def cancelDone (origin sEntry : Nat) (st : Byte) (reqId : W64) (epoch : W32) (s : State) : State :=
  mgmtSend origin { ctype := 0x13, sEntry, rEntry := none, status := st, reason := 0, reqId, epoch, origin, body := .none } s

/-- A TT_CANCEL applies to the state its entry has (R382, R387): the owner goes to CANCELLED; a STUB forwards it and its
TT_CANCEL waits for CANCEL_DONE; any other state refuses it. (DEDUCED, log entry 51.) -/
def applyCancel (idx wid : Nat) (s : State) : State :=
  let e := s.entry idx
  if e.st.cancels then completeWid wid .ok 0 (toCancelled idx 0x51 s)
  else if e.st = .stub then (forwardFor idx s.me idx s).setProg wid (.forwarded idx)
  else completeWid wid .malformed 0x04 s

/-- A CANCEL message applies to an entry (R388, R613): it is answered, or goes on from a STUB, which remembers its origin. -/
def applyAsker (idx : Nat) (a : Nat × Nat) (s : State) : State :=
  let e := s.entry idx
  if e.st.cancels then cancelDone a.1 a.2 0 e.reqId e.epoch (toCancelled idx 0x51 s)
  else if e.st = .stub then (forwardFor idx a.1 a.2 s).modEntry idx (fun e => { e with fwd := e.fwd ++ [a] })
  else cancelDone a.1 a.2 0x70 e.reqId e.epoch s

/-- Applies the cancels of other nodes that waited for an entry. -/
def applyAskers (idx : Nat) (s : State) : State :=
  let as := (s.entry idx).askers
  as.foldl (fun s a => applyAsker idx a s) (s.modEntry idx (fun e => { e with askers := [] }))

/-- Applies the cancels that waited for a handoff (R382, R592), then that of a race (R413). -/
def applyPendingCancels (idx : Nat) (wids : List Nat) (s : State) : State :=
  if !(s.entry idx).cancelPend then s else
    let s1 := applyAskers idx (wids.foldl (fun s w => applyCancel idx w s) (putEntry idx (fun e => { e with cancelPend := false }) s))
    if (s1.entry idx).raceHit.isSome && (s1.entry idx).st.cancels then toCancelled idx 0x52 s1 else s1

/-- Operations that waited for an entry find a state that accepts none of them (R387, R603). -/
def failWaiting (idx : Nat) (s : State) : State :=
  let ws := s.work.filter (fun w => w.prog == .boundary idx)
  applyAskers idx (ws.foldl (fun s w => malformed w 0x04 s) s)

/-- What a handoff leaves the rest of the device to do: the TT_MOVE that waits, and the cancels. -/
def senderOf (e : Entry) : Sender := e.snd.getD {}

/-- The handoff resolves MOVED: the entry becomes a STUB of the new owner, its pages and reservation are released (R382, R574,
R590). -/
def resolveMoved (idx : Nat) (epoch : W32) (s : State) : State :=
  let x := senderOf (s.entry idx)
  let s1 := returnReserve idx (freeEntryList idx s)
  let s2 := putEntry idx (fun e => { e with st := .stub, ret := .free, epoch, cause := 0, held := false, snd := none }) s1
  let s3 := { s2 with ho := { s2.ho with moved := s2.ho.moved + 1 } }
  let s4 := match x.wid with
    | some w => completeWid w .ok ((s3.entry idx).node + epoch.toNat * 2 ^ 32) s3
    | none => s3
  applyPendingCancels idx x.cancels s4

/-- The handoff resolves KEPT: the entry returns to RETURN_STATE with epoch E + 2 and the status as its CAUSE; a TT_MOVE
completes with it, an automatic handoff raises HANDOFF_FAILED (R574, R592). -/
def resolveKept (idx : Nat) (status : Byte) (st : Status) (reason : Nat) (s : State) : State :=
  let e := s.entry idx
  let x := senderOf e
  let s1 := putEntry idx (fun e => { e with st := e.ret, ret := .free, epoch := e.epoch + 2, cause := status, node := s.me, snd := none }) s
  let s2 := { s1 with ho := { s1.ho with kept := s1.ho.kept + 1 } }
  let s3 := match x.wid with
    | some w => completeWid w st reason s2
    | none => ttEvent 0x0109 idx s2 none reason
  applyPendingCancels idx x.cancels s3

/-- The handoff resolves LOST: a source block was poisoned (R590, R607). -/
def resolveLost (idx : Nat) (s : State) : State :=
  let x := senderOf (s.entry idx)
  let s1 := toLost idx 0x14 s
  let s2 := { s1 with ho := { s1.ho with outLost := s1.ho.outLost + 1 } }
  let s3 := match x.wid with
    | some w => completeWid w .poisonConsumed 0 s2
    | none => s2
  applyAskers idx (x.cancels.foldl (fun s w => completeWid w .malformed 0x04 s) s3)

/-- The sender of a handoff loses its timer, or its connection leaves OPEN: it sends PROBE (R590). -/
def sendProbe (idx : Nat) (s : State) : State :=
  let e := s.entry idx
  let x := senderOf e
  let s1 := putEntry idx (fun e => { e with snd := some { x with phase := .probing } }) s
  mgmtSend e.node { ctype := 0x09, sEntry := idx, rEntry := x.rEntry, status := 0, reason := 0, reqId := e.reqId, epoch := e.epoch,
                    origin := s.me, body := .none } { s1 with ho := { s1.ho with probes := s1.ho.probes + 1 } }

/-- Handoffs that a connection carried, when it leaves OPEN (R590): their senders probe; receivers change nothing (R600). -/
def probeOver (num : Nat) (s : State) : State :=
  (s.tt.entries.map Prod.fst).foldl (fun s i =>
    let e := s.entry i
    match e.snd with
    | some x => if e.st = .handoffOut ∧ x.conn = num ∧ x.phase ≠ .probing then sendProbe i s else s
    | none => s) s

/-- A receiver's entry is abandoned: its pages, units and reservations return, and it is FREE (R599, R600). Pages its items
were written into return with its list. -/
def abandon (idx : Nat) (s : State) : State :=
  let s1 := toFree idx (failWaiting idx (returnReserve idx (freeEntryList idx (releaseRcv idx s))))
  { s1 with ho := { s1.ho with abandoned := s1.ho.abandoned + 1 } }

/-- A receiver's entry whose partner is declared dead before its ACCEPT is acknowledged (R600, R608); nothing is sent to the
sender. -/
def partnerLost (idx : Nat) (s : State) : State :=
  let s1 := toLost idx 0x42 (s.modEntry idx (fun e => { e with fromValid := if e.accepting then false else e.fromValid }))
  failWaiting idx { s1 with ho := { s1.ho with partnerLost := s1.ho.partnerLost + 1 } }

end Sys2Proof.Machine
end

