-- ==== Sys2Proof/Machine/Waybill.lean ====
section
/-! DEFINITION. Waybill chains, records, signatures, leaf lists and measurements (R262 to R278). -/

namespace Sys2Proof.Machine

/-- Partitions of the image in force. -/
def State.partitions (s : State) : Nat := match s.img.image with | some i => i.parts.length | none => 0

/-- The 256 bytes of a record of partition p (R264). -/
def recBytes (p : Nat) (r : WbRec) : List Byte :=
  leBytes 8 r.seq ++ leBytes 1 p ++ leBytes 1 r.kind ++ leBytes 2 r.context ++ leBytes 1 r.tenant ++ [r.status.code] ++
  leBytes 2 (b2n r.signed + 2 * b2n r.sealed) ++ leBytes 4 r.tiles ++ leBytes 4 r.recomputed ++ leBytes 4 r.xchecked ++
  leBytes 4 r.failed ++ leBytes 4 r.unchecked ++ leBytes 1 r.xk ++ leBytes 1 (b2n r.onFail) ++ leBytes 2 0 ++
  leBytes 8 r.stepSc ++ digestBytes r.inputDig ++ digestBytes r.outputDig ++ digestBytes r.prevLink ++ digestBytes r.link ++
  leBytes 16 0

/-- The 256 bytes of a signature block of partition p (R269). -/
def sigBytes (p : Nat) (g : WbSig) : List Byte :=
  leBytes 8 g.seq ++ leBytes 1 p ++ leBytes 1 g.reason ++ leBytes 6 0 ++ digestBytes g.image ++ digestBytes g.link ++
  leBytes 32 g.nonce.toNat ++ leBytes 8 g.chain.toNat ++ leBytes 8 g.signedAc ++ leBytes 96 g.sig.toNat

/-- Records a partition's share of the store holds (R270). -/
def wbCapacity (s : State) : Nat := 262144 / max 1 s.partitions

/-- The records stored of a partition, ended chains included, the oldest first. -/
def Chain.stored (c : Chain) : List WbRec := c.ended.flatMap EndedChain.recs ++ c.recs

/-- Whether the store of a partition takes another record: there is room, or the oldest record may be overwritten (R271). -/
def storeRoom (p : Nat) (s : State) : Bool :=
  let c := s.chain p
  decide (c.stored.length < wbCapacity s) || c.overwrite || (match c.stored.head? with | some r => r.consumed | none => true)

/-- Whether a step can append its record: the chain has its genesis, and the store has room (R263, R271). -/
def wbRoom (p : Nat) (s : State) : Bool := !(s.chain p).due && storeRoom p s

/-- The chain without its oldest record, whose signature blocks go with it; an unconsumed one is counted (R271). -/
def Chain.dropOldest (c : Chain) : Chain :=
  match c.stored.head? with
  | none => c
  | some r =>
    let id := match c.ended with | e :: _ => e.id | [] => c.chainId
    let c1 := match c.ended with
      | e :: more => { c with ended := if e.recs.length ≤ 1 then more else { e with recs := e.recs.drop 1 } :: more }
      | [] => { c with recs := c.recs.drop 1 }
    { c1 with overwritten := if r.consumed then c.overwritten else satBv c.overwritten 1,
              sigs := c.sigs.filter (fun g => !(g.chain == id && g.seq == r.seq)),
              oldest := match c1.recs with | f :: _ => f.seq | [] => c.oldest }

/-- The digest of the image in force; zero in UNCONFIGURED (R133, R182). -/
def imageDigest (s : State) : Digest := match s.img.image with | some i => i.digest | none => 0

/-- The measurement bytes of the regions an operation read (R265). -/
def measureBytes (s : State) (ids : List Nat) : List Byte :=
  ids.flatMap (fun id => leBytes 2 id ++ digestBytes ((tget s.waybill.measure id none).getD 0))

/-- INPUT_DIGEST (R265). -/
def inputDigest (s : State) (ids : List Nat) (desc : List Byte) : Digest :=
  sha384 (digestBytes (imageDigest s) ++ measureBytes s ids ++ desc)

/-- The salt of a leaf, from the secret of its chain (R267). -/
def saltOf (secret seq leaf : Nat) : List Byte :=
  (digestBytes (sha384 (leBytes 48 secret ++ leBytes 8 seq ++ leBytes 4 leaf))).take 16

/-- Leaf digests stored, of every partition (R270). -/
def leavesStored (w : Waybill) : Nat :=
  (w.chains.map (fun kv => (kv.2.stored.map (fun r => r.leaves.length)).sum)).sum

/-- The stepSc of the oldest record that still has a leaf list. -/
def oldestLeaf (w : Waybill) : Option Nat :=
  (w.chains.flatMap (fun kv => kv.2.stored)).foldl (fun best r =>
    if r.leaves.isEmpty then best else match best with
      | some b => some (min b r.stepSc)
      | none => some r.stepSc) none

/-- Overwrites the oldest leaf lists until `need` more digests fit; `fuel` bounds the lists dropped (R271). -/
def fitLeaves (need : Nat) : Nat → Waybill → Waybill
  | 0, w => w
  | k + 1, w =>
    if leavesStored w + need ≤ 2097152 then w else
    match oldestLeaf w with
    | none => w
    | some t =>
      let drop (r : WbRec) : WbRec := if r.stepSc = t ∧ !r.leaves.isEmpty then { r with leaves := [], leavesGone := true } else r
      fitLeaves need k { w with chains := tmap w.chains {} (fun _ c =>
        { c with recs := c.recs.map drop, ended := c.ended.map (fun e => { e with recs := e.recs.map drop }) }) }

/-- Puts a signing point: it is signed at once, or waits; a point of the same chain that still waits is dropped, and the descriptors that
wait for it wait for the newer one. A link covers only its own chain, so a point of another chain stays (R268). (DEDUCED, log entry 123.) -/
def signPoint (q : SignReq) (s : State) : State :=
  if s.trust.unlocked then s else
  match s.waybill.signing with
  | none => { s with waybill := { s.waybill with signing := some { q with ac := s.clk.ac } } }
  | some _ =>
    let same (x : SignReq) : Bool := x.part == q.part && x.chain == q.chain
    match s.waybill.waiting.find? same with
    | none => { s with waybill := { s.waybill with waiting := s.waybill.waiting ++ [q] } }
    | some old =>
      let s1 : State := { s with waybill := { s.waybill with
          waiting := s.waybill.waiting.filter (fun x => !same x) ++ [{ q with wids := old.wids ++ q.wids }] } }
      s1.modChain q.part (fun c => { c with coalesced := satBv c.coalesced 1 })

/-- A record with its LINK (R264). -/
def WbRec.linked (p : Nat) (r : WbRec) : WbRec := { r with link := sha384 ((recBytes p r).take 192) }

/-- Signs the last link of a chain: the record's FLAGS say so, and its LINK is over them (R263, R264, R268). (DEDUCED, log entry 121.) -/
def signLast (p reason : Nat) (isSeal : Bool) (nonce : BitVec 256) (wids : List Nat) (s : State) : State :=
  let c := s.chain p
  match c.recs.getLast? with
  | none => s
  | some r =>
    let r1 := ({ r with signed := true, sealed := r.sealed || isSeal }).linked p
    signPoint { part := p, chain := c.chainId, seq := r.seq, reason, link := r1.link, image := imageDigest s, nonce, wids, ac := s.clk.ac }
      (s.modChain p (fun c => { c with recs := c.recs.dropLast ++ [r1] }))

/-- Appends a record to a partition's chain before any result of its step is reported (R262), and puts a signing point where
SEQ is a multiple of WAYBILL_N (R268). The digest of leaf i is over its salt and its bytes (R266, R267). -/
def appendRec (p : Nat) (x : StepInfo) (s : State) : State :=
  let c := s.chain p
  let seq := if x.kind = 0 then 0 else c.seq + 1
  let digests := x.leaves.zipIdx.map (fun l => (l.1.1, sha384 (saltOf c.secret seq l.2 ++ l.1.2)))
  let n := match s.img.image with | some i => i.waybillN | none => 1
  let signed := x.kind == 0 || seq % max 1 n == 0
  let prev := if x.kind = 0 then BitVec.ofNat 384 (Config.random s.free) else
    match c.recs.getLast? with | some r => r.link | none => 0
  let r0 : WbRec :=
    { seq, kind := x.kind, context := x.context, tenant := x.tenant, status := x.status, signed, sealed := false,
      tiles := x.tiles, recomputed := x.recomputed, xchecked := x.xchecked, failed := x.failed, unchecked := x.unchecked,
      xk := x.xk, onFail := (match s.img.image with | some i => i.onFail | none => false), stepSc := s.clk.sc,
      inputDig := (if x.kind = 0 then imageDigest s else inputDigest s x.regions x.desc),
      outputDig := sha384 (digests.flatMap (fun d => digestBytes d.2)), prevLink := prev, link := 0,
      leaves := digests, leavesGone := false, consumed := false }
  let r := r0.linked p
  let w := fitLeaves digests.length (leavesStored s.waybill) s.waybill
  let full := decide (c.stored.length ≥ wbCapacity s)
  let s1 := ({ s with waybill := w, free := s.free + b2n (x.kind == 0) }).modChain p (fun c0 =>
    let c1 := if full then c0.dropOldest else c0
    { c1 with recs := c1.recs ++ [r], seq, oldest := match c1.recs with | f :: _ => f.seq | [] => seq })
  if signed then
    signPoint { part := p, chain := c.chainId, seq, reason := if x.kind = 0 then 2 else 1, link := r.link, image := imageDigest s, nonce := 0,
                wids := [], ac := s.clk.ac } s1
  else s1

/-- Counts an entry of a Timetable step into the step's record (R264, R309). -/
def addToStep (p : Nat) (x : StepInfo) (s : State) : State :=
  { s with tt := { s.tt with steps := tmod s.tt.steps p none (fun o => o.map (fun y => { y with
      tiles := y.tiles + x.tiles, recomputed := y.recomputed + x.recomputed, xchecked := y.xchecked + x.xchecked,
      failed := y.failed + x.failed, unchecked := y.unchecked + x.unchecked, xk := min y.xk x.xk,
      regions := y.regions ++ x.regions })) } }

/-- What an operation outside the Timetable gives its record: one leaf, over its TAG and the digest of what it wrote (R264,
R266). (DESIGN CHOICE, log entry 40.) -/
def opInfo (w : Work) (st : Status) (written : List Byte) : StepInfo :=
  { kind := 2, context := w.context, tenant := w.tenant, status := st, desc := leBytes 64 w.body.toNat,
    leaves := [(w.tenant, leBytes 4 w.tag.toNat ++ digestBytes (sha384 written))] }

/-- An operation with opcode 0x20 to 0x3F ends: outside the Timetable its record is appended before its completion (R262), and
it waits while the record has no room (R271); inside, its counts go to its step. (DEDUCED, log entry 41.) -/
def finishOp (w : Work) (x : StepInfo) (result : Nat) (s : State) (fr : BitVec 16 := 0) : State :=
  match w.src with
  | .step p _ => complete w x.status result (addToStep p x s) fr
  | .ring _ _ =>
    if wbRoom w.part s then complete w x.status result (appendRec w.part x s) fr else s.setProg w.wid (.ended x result fr)

/-- Appends the genesis record of a chain as soon as the store takes it (R263, R271). (DEDUCED, log entry 123.) -/
def genesis (p : Nat) (s : State) : State :=
  if (s.chain p).due ∧ storeRoom p s = true then
    appendRec p { kind := 0, status := .ok } (s.modChain p (fun c => { c with due := false }))
  else s

/-- Records of a partition that waited for room are appended: the genesis first, then those of operations (R271). -/
def retryEnded (p : Nat) (s : State) : State :=
  (s.work.filter (fun w => w.part == p)).foldl (fun s w => match w.prog with
    | .ended x r fr => finishOp w x r s fr
    | _ => s) (genesis p s)

/-- A new chain of a partition: random CHAIN_ID and secret, and a signed genesis record (R263). -/
def chainStart (p : Nat) (s : State) : State :=
  let s1 := ({ s with free := s.free + 2 }).modChain p (fun c =>
    { c with
      chainId := BitVec.ofNat 64 (Config.random s.free), secret := Config.random (s.free + 1) % 2 ^ 384,
      ended := if c.recs.isEmpty then c.ended else c.ended ++ [({ id := c.chainId, secret := c.secret, recs := c.recs } : EndedChain)], recs := [], seq := 0,
      signed := 0, oldest := 0, consumed := 0, due := true })
  genesis p s1

/-- A chain ends: its last link is signed with reason 0x04 (R263, R268). -/
def chainEnd (p : Nat) (s : State) : State := signLast p 4 false 0 [] s

/-- Chains start on every partition (R263). -/
def chainsStart (s : State) : State := (List.range s.partitions).foldl (fun s p => chainStart p s) s

/-- The attestation scalar: derived from the identity scalar under the digest of the manifest that runs (R731). -/
def attestScalar (s : State) : Nat :=
  beNum (hkdf (beBytes 48 Config.identityScalar) (digestBytes s.flash.active.digest) (ascii "ATTEST") 56) % (p384n - 1) + 1

/-- Blocks a partition's share of the signature store holds (R270). -/
def sigCapacity (s : State) : Nat := 32768 / max 1 s.partitions

/-- The records of a chain of a partition, by CHAIN; 0 names the current one. -/
def Chain.recsOf (c : Chain) (id : W64) : List WbRec :=
  if id = 0 ∨ id = c.chainId then c.recs else ((c.ended.find? (fun e => e.id == id)).map EndedChain.recs).getD []

/-- Whether a signature block may be overwritten: its record is consumed or gone, or OVERWRITE is set (R271). -/
def Chain.sigFree (c : Chain) (g : WbSig) : Bool :=
  c.overwrite || (match (c.recsOf g.chain).find? (fun r => r.seq == g.seq) with | some r => r.consumed | none => true)

/-- Whether the signature store takes another block. -/
def sigRoom (p : Nat) (s : State) : Bool :=
  let c := s.chain p
  decide (c.sigs.length < sigCapacity s) || (match c.sigs.head? with | some g => c.sigFree g | none => true)

/-- The Lodge ends a signature: its block is stored, the link is covered, waiting seals complete, and the next point starts (R268, R269).
Signatures follow their records: a block that finds no room waits, and no step waits for it (R268, R271); on entry to N3, which empties the
store, it takes the oldest one's place. (DESIGN CHOICE, log entry 122.) -/
def execWaybillSignatureComplete (s : State) : Host.Outcome State Fault Refusal :=
  act s (fun s => match s.waybill.signing with
    | none => s
    | some q =>
      if !sigRoom q.part s ∧ s.power.trans ≠ some (.toN3 true) then s else
      let g : WbSig :=
        { seq := q.seq, reason := q.reason, image := q.image, link := q.link, nonce := q.nonce, chain := q.chain, signedAc := q.ac, sig := 0 }
      let g := { g with sig := ecdsaSign (attestScalar s) (Config.random s.free) (sha384 ((sigBytes q.part g).take 160)) }
      let s1 := (s.fresh).modChain q.part (fun c =>
        { c with sigs := (if c.sigs.length < sigCapacity s then c.sigs else c.sigs.drop 1) ++ [g],
                 signed := if c.chainId = q.chain then q.seq else c.signed })
      let s2 := { s1 with waybill := { s1.waybill with
        signing := s1.waybill.waiting.head?.map (fun x => { x with ac := s.clk.ac }), waiting := s1.waybill.waiting.drop 1 } }
      q.wids.foldl (fun s w => completeWid w .ok q.seq s) s2)

/-- A function may name only a partition mapped to its tenant (R272); the physical function acts for every tenant (R714). -/
def wbForeign (f p : Nat) (s : State) : Bool :=
  decide (p ≥ s.partitions) || (decide (f ≠ 0) && (match fnTenant f s with | some t => !mapped p t s | none => true))

/-- The secret of a chain of a partition (R267). -/
def Chain.secretOf (c : Chain) (id : W64) : Nat :=
  if id = 0 ∨ id = c.chainId then c.secret else ((c.ended.find? (fun e => e.id == id)).map EndedChain.secret).getD 0

/-- Marks records up to SEQ n of a chain as consumed (R273). -/
def Chain.consume (c : Chain) (id : W64) (n : Nat) : Chain :=
  let mark (r : WbRec) : WbRec := if r.seq ≤ n then { r with consumed := true } else r
  if id = 0 ∨ id = c.chainId then { c with recs := c.recs.map mark, consumed := max c.consumed n }
  else { c with ended := c.ended.map (fun e => if e.id = id then { e with recs := e.recs.map mark } else e) }

/-- The longest run of items with consecutive SEQ from `first`. -/
def runFrom (first : Nat) : Nat → List WbRec → List WbRec
  | 0, _ => []
  | k + 1, l => match l.find? (fun r => r.seq == first) with
    | some r => r :: runFrom (first + 1) k l
    | none => []

/-- Copies records, signature blocks or a leaf list to the host (R272, R273). -/
def execWaybillRead (wid : Nat) (s : State) : Host.Outcome State Fault Refusal :=
  start wid 0x80 s (fun w s =>
    let d := w.body
    let p := dat d 8 8
    let c := s.chain p
    let id := BitVec.ofNat 64 (dat d 16 64)
    let first := dat d 24 64
    let count := dat d 32 32
    let dest := dat d 40 64
    let room := dat d 48 32
    if wbForeign w.fn p s then complete w .tenantMismatch 0 s else
    match dat d 9 8 with
    | 0 =>
      let rs := (runFrom first (min count (room / 256)) (c.recsOf id))
      let s1 := if rs.isEmpty then s else s.emit (.hostWrite w.fn dest (rs.flatMap (recBytes p)))
      let s2 := if (dat d 10 8).testBit 0 ∧ w.fn = 0 ∧ !rs.isEmpty then s1.modChain p (fun c => c.consume id (first + rs.length - 1)) else s1
      retryEnded p (complete w (if rs.length < count then .okShort else .ok) rs.length s2)
    | 1 =>
      let gs := (c.sigs.filter (fun g => g.chain == (if id = 0 then c.chainId else id) && decide (g.seq ≥ first))).take (min count (room / 256))
      let s1 := if gs.isEmpty then s else s.emit (.hostWrite w.fn dest (gs.flatMap (sigBytes p)))
      complete w (if gs.length < count then .okShort else .ok) gs.length s1
    | 2 =>
      match (c.recsOf id).find? (fun r => r.seq == first) with
      | none => complete w .stateLost 0 s
      | some r => if r.leavesGone then complete w .stateLost 0 s else
        let own := r.leaves.zipIdx.filter (fun l => match fnTenant w.fn s with | some t => l.1.1 == t | none => true)
        let bs := leBytes 4 r.leaves.length ++ r.leaves.flatMap (fun l => digestBytes l.2) ++
          own.flatMap (fun l => leBytes 4 l.2 ++ saltOf (c.secretOf id) first l.2)
        complete w (if bs.length > room then .okShort else .ok) (Config.random s.free) ((s.emit (.hostWrite w.fn dest (bs.take room))).fresh)
    | _ => malformedFree w s)

/-- Signs the current link with the host's nonce (R272, R274). (DEDUCED, log entry 42.) -/
def execWaybillSeal (wid : Nat) (s : State) : Host.Outcome State Fault Refusal :=
  start wid 0x81 s (fun w s =>
    let p := dat w.body 8 8
    if wbForeign w.fn p s then complete w .tenantMismatch 0 s else
    match (s.chain p).recs.getLast? with
    | none => complete w .stateLost 0 s
    | some r => signLast p 3 true (BitVec.ofNat 256 (dat w.body 16 256)) [wid] (s.setProg wid (.seal p r.seq)))

/-- Starts hashing a whole region (R272, R274). -/
def execWaybillMeasure (wid : Nat) (s : State) : Host.Outcome State Fault Refusal :=
  start wid 0x82 s (fun w s =>
    let id := dat w.body 8 16
    match s.region id with
    | none => malformedFree w s
    | some r =>
      if wbForeign w.fn r.part s then complete w .tenantMismatch 0 s else
      { (s.setProg wid (.measure id)) with waybill := { s.waybill with measuring := s.waybill.measuring ++ [id] } })

/-- The hash ends: it is kept as the region's measurement unless the region was written meanwhile, and written at DEST
(R274). -/
def execWaybillMeasureComplete (wid : Nat) (s : State) : Host.Outcome State Fault Refusal :=
  resume wid s (fun p => match p with | .measure r => some r | _ => none) (fun w id s =>
    match s.region id with
    | none => complete w .internal 0 s
    | some r =>
      let h := sha384Of (fun i => memGet s.mem.hbm (regionAddr r i)) r.size
      let clean := s.waybill.measuring.any (· == id)
      let s1 := { s with waybill := { s.waybill with
        measure := if clean then tput s.waybill.measure id (some h) none else s.waybill.measure,
        measuring := s.waybill.measuring.filter (· != id) } }
      complete w .ok r.size (s1.emit (.hostWrite w.fn (dat w.body 16 64) (digestBytes h))))

end Sys2Proof.Machine
end

