-- ==== Sys2Proof/Machine/RailConns.lean ====
section
/-! DEFINITION. Connections and work requests (R540 to R550), regions and keys (R559 to R561), delivery in MSEQ order (R551 to
R558), remote reads (R562, R563), triggers (R565 to R567) and malformed requests (R569). -/

namespace Sys2Proof.Machine

/-! ## The domain address space -/

/-- A number rounded up to a multiple. -/
def roundUp (x m : Nat) : Nat := ceilDiv x m * m

/-- The domain offset of each region of the image in directory order (R536). -/
def domainMap : Nat → List Region → List (Nat × Region)
  | _, [] => []
  | o, r :: rest => (roundUp o 0x200000, r) :: domainMap (roundUp o 0x200000 + r.size) rest

/-- The domain offset of a region of this node. -/
def domainBase (s : State) (id : Nat) : Nat :=
  match s.img.image with
  | some i => (((domainMap 0 i.regions).find? (fun x => x.2.id == id)).map Prod.fst).getD 0
  | none => 0

/-- The node of a domain address, and the offset within it (R535). -/
def addrNode (a : Nat) : Nat := fld a 39 7
def addrOff (a : Nat) : Nat := fld a 0 39

/-! ## Messages and packets -/

/-- An ACK of a packet: its MSEQ and OFFSET, and CUM (R551, R554). -/
def ackPacket (num src srcConn : Nat) (srcInc mseq : W32) (offset : Nat) (s : State) : State :=
  sendOnce num src { op := 8, dstConn := srcConn, srcConn := num, srcInc := s.rail.inc, dstInc := srcInc, mseq, offset,
                     mlen := (s.conn num).rxCum } s

/-- A NAK of a message, with its status (R545, R554). -/
def nakPacket (num src srcConn : Nat) (srcInc mseq : W32) (st : Status) (s : State) : State :=
  sendOnce num src { op := 9, dstConn := srcConn, srcConn := num, srcInc := s.rail.inc, dstInc := srcInc, mseq,
                     mlen := st.code.setWidth 32 } s

/-- A HELLO: SERVICE and this end's RX_UNITS go in OPERAND and MLEN (R544). (DEDUCED, log entry 64.) -/
def sendHello (num : Nat) (s : State) : State :=
  let c := s.conn num
  sendOnce num c.peerNode { op := 10, dstConn := c.peerConn, srcConn := num, srcInc := s.rail.inc, dstInc := knownInc c.peerNode s,
                            mlen := BitVec.ofNat 32 c.rxUnits, operand := c.service.setWidth 64 } s

/-- The Rail progress of a work item. -/
def railOf (w : Work) : RailOp := match w.prog with | .rail r => r | _ => {}

/-- Sets it. -/
def setRail (wid : Nat) (r : RailOp) (s : State) : State := s.setProg wid (.rail r)

/-- Bytes a request moves: 8 for an atomic (R548). -/
def reqLen (w : Work) : Nat := if w.opcode = 0x47 then 8 else dat w.body 20 32

/-- The region and offset of LOCAL (R548). -/
def localRef (w : Work) : Ref := refAt w.body 24

/-- The gaps of a length that intervals held do not cover. -/
def gaps (len : Nat) : Nat → List (Nat × Nat) → List (Nat × Nat)
  | pos, [] => if pos < len then [(pos, len - pos)] else []
  | pos, (o, n) :: r => if pos < o then (pos, o - pos) :: gaps len (o + n) r else gaps len (max pos (o + n)) r

/-- Intervals in rising order of offset. -/
def sortIv (l : List (Nat × Nat)) : List (Nat × Nat) :=
  l.foldl (fun acc x => (acc.takeWhile (fun y => decide (y.1 ≤ x.1))) ++ [x] ++ (acc.dropWhile (fun y => decide (y.1 ≤ x.1)))) []

/-- Poison for bytes: all ones, marked (R252, R562). -/
def poisonBytes (r : Ref) (o n : Nat) (s : State) : State := refPoison r o n (refWrite r o (List.replicate n 0xFF) s)

/-- Poison for every byte of a read not yet delivered (R562). -/
def poisonRest (w : Work) (s : State) : State :=
  if w.opcode ≠ 0x46 ∧ w.opcode ≠ 0x47 then s else
    (gaps (reqLen w) 0 (sortIv (railOf w).got)).foldl (fun s g => poisonBytes (localRef w) g.1 g.2 s) s

/-- Whether a request reads (R562). -/
def reads (w : Work) : Bool := w.opcode == 0x46 || w.opcode == 0x47

/-- A request leaves its connection and completes; a SEND its peer's buffer was too short for has cause 0x0B (R555). -/
def finishReq (num : Nat) (w : Work) (st : Status) (result : Nat) (s : State) (fr : BitVec 16 := 0) : State :=
  complete w ((railOf w).reset.getD st) (if (railOf w).reset = some .malformed then 0x0B else result)
    (s.modConn num (fun c => { c with queue := c.queue.filter (· != w.wid), recvs := c.recvs.filter (· != w.wid) })) fr

/-! ## Ending a connection -/

/-- Releases the slot counts of messages that are discarded; a REVOKING slot with none left is REVOKED and its RL_REVOKE completes
(R561). -/
def settleSlot (k : Nat) (s : State) : State :=
  if (s.slot k).st = .revoking ∧ (s.slot k).inFlight = 0 then
    let s1 := s.modSlot k (fun x => { x with st := .revoked })
    (s1.work.filter (fun w => match w.prog with | .revoke n => n == k | _ => false)).foldl (fun s w => complete w .ok 0 s) s1
  else s

/-- One accepted message of a slot has ended (R560). -/
def slotDone (k : Nat) (s : State) : State := settleSlot k (s.modSlot k (fun x => { x with inFlight := x.inFlight - 1 }))

/-- The received messages of a connection are discarded without effect (R568). -/
def discardRx (num : Nat) (s : State) : State :=
  (s.conn num).rx.foldl (fun s m => match m.slot with | some k => slotDone k s | none => s)
    (s.modConn num (fun c => { c with rx := [] }))

/-- Completes everything that waits on a connection: requests (a read's missing bytes as poison), posted RECVs, the RL_CONNECT or
RL_CLOSE (R544). -/
def endConnWork (num : Nat) (st : Status) (fr : BitVec 16) (s : State) : State :=
  let c := s.conn num
  let s1 := c.queue.foldl (fun s i => match s.item i with
    | some w => finishReq num w st (if reads w then ((railOf w).got.map Prod.snd).sum else 0) (if (railOf w).issued then poisonRest w s else s) fr
    | none => s) s
  let s2 := c.recvs.foldl (fun s i => match s.item i with | some w => finishReq num w st 0 s fr | none => s) s1
  (match c.opener with | some i => completeWid i st 0 s2 fr | none => s2).modConn num (fun c => { c with opener := none })

/-- A connection goes to ERROR with the status its work ends with (R544); reads that end so raise a fault (R563), and the
handoffs it carried probe (R590). -/
def connError (num : Nat) (st : Status) (s : State) : State :=
  let c := s.conn num
  let ws := c.queue.filter (fun i => match s.item i with | some w => reads w && (railOf w).issued | none => false)
  let r := if st = .remoteTimeout ∨ !ws.isEmpty then
      raiseErr { cls := 2, source := 0x06, domain := 20 + connStation num, cause := st.code, detail0 := c.peerNode + 65536 * num,
                 detail1 := connStation num, ctx := some c.context, tenant := c.tenant, part := c.part,
                 who := (match ws.head?.bind s.item with | some w => w.fn | none => tenantFn c.tenant s),
                 waits := c.queue.map .work } s
    else (s, 0)
  let s1 := endConnWork num st r.2 (discardRx num r.1)
  probeOver num (s1.modConn num (fun c => { c with st := .error, queue := [], recvs := [], unacked := [], txq := [], rx := [] }))

/-- A connection returns to FREE: its posted and waiting work is cancelled, its units return (R544). -/
def connFree (num : Nat) (s : State) : State :=
  let s1 := endConnWork num .cancelled 0 (discardRx num s)
  probeOver num (s1.modConn num (fun _ => {}))

/-- The first request of a connection that has not issued. -/
def firstWaiting (num : Nat) (s : State) : Option Work :=
  ((s.conn num).queue.filterMap s.item).find? (fun w => !(railOf w).issued)

/-- Whether a request is armed (R548, R567). -/
def armed (w : Work) : Bool := (dat w.body 10 8).testBit 0

/-- A CLOSING connection whose sent messages are acknowledged and received messages visible sends CLOSE and is FREE; its
RL_CLOSE completes with OK (R544). -/
def tryClose (num : Nat) (s : State) : State :=
  let c := s.conn num
  let idle := c.txq.isEmpty && c.unacked.isEmpty && c.rx.isEmpty &&
    !((c.queue.filterMap s.item).any (fun w => (railOf w).issued)) &&
    (match firstWaiting num s with | some w => armed w | none => true)
  if c.st ≠ .closing ∨ !idle then s else
    let closer := c.opener
    let s1 := sendOnce num c.peerNode { op := 11, dstConn := c.peerConn, srcConn := num, srcInc := s.rail.inc, dstInc := c.peerInc,
                                        mseq := c.nextMseq } (s.modConn num (fun c => { c with opener := none }))
    let s2 := connFree num s1
    match closer with | some w => completeWid w .ok 0 s2 | none => s2

/-! ## Requests that complete -/

/-- Whether an issued request's messages are all visible at the peer: CUM has passed its last MSEQ (R550, R557). -/
def visible (num : Nat) (w : Work) (s : State) : Bool :=
  let r := railOf w
  r.issued && (decide (r.msgs = 0) || seqBefore r.lastMseq (s.conn num).cum)

/-- Completes the sends, writes and fences CUM has passed (R550, R557, R564), then closes a connection that waits for it. -/
def settleConn (num : Nat) (s : State) : State :=
  let s1 := (s.conn num).queue.foldl (fun s i => match s.item i with
    | some w => if !reads w && visible num w s then
        finishReq num w (if (railOf w).poison then .poisonConsumed else .ok) (if w.opcode = 0x48 then 0 else (railOf w).lastMseq.toNat) s
      else s
    | none => s) s
  tryClose num s1

/-! ## Work requests -/

/-- The connection a request names. -/
def connOf (w : Work) : Nat := dat w.body 8 16

/-- Whether a connection belongs to another tenant, or is the management connection and the function is virtual (R541, R569). -/
def connForeign (w : Work) (num : Nat) (s : State) : Bool :=
  if num = 0 then decide (w.fn ≠ 0) else decide ((s.conn num).st ≠ .free) && (s.conn num).tenant != w.tenant

/-- The trigger counter numbered n. -/
def State.trig (s : State) (n : Nat) : Trig := tget s.rc.trigs n {}

/-- LOCAL is no HBM reference, lies outside its region, or is unaligned (cause 0x06 of R569). -/
def badLocal (w : Work) (s : State) : Bool :=
  refBad s (localRef w) (reqLen w) || (match localRef w with | .hbm _ _ => false | _ => true)

/-- The checks of a work request in the order of R764 (R548, R569). (DEDUCED, log entry 65.) -/
def reqChecks (w : Work) (s : State) : Option (Status × Nat) :=
  let num := connOf w
  let c := s.conn num
  let op := w.opcode
  let fence := op == 0x48
  let len := reqLen w
  let flags := dat w.body 10 8
  let ctr := dat w.body 12 16
  let isArmed := flags.testBit 0 && op != 0x44
  let notify := flags.testBit 2 && (op == 0x43 || op == 0x45)
  firstFail [
    (decide (num < 4096) && connForeign w num s, (.tenantMismatch, 0)),
    (!fence && refForeign s w.part (localRef w), (.tenantMismatch, 0)),
    (isArmed && (s.trig ctr).bound && (s.trig ctr).tenant != w.tenant, (.tenantMismatch, 0)),
    (decide (num ≥ 4096) || (num == 0 && op != 0x43 && op != 0x44), (.malformed, 0x01)),
    (decide (c.st ≠ .opened ∧ c.st ≠ .closing), (.malformed, 0x02)),
    (num == 0 && op == 0x43 && (dat w.body 11 7 == s.me || !((List.range 4).any (fun k => (s.route (dat w.body 11 7) k).valid))), (.malformed, 0x04)),
    (!fence && op != 0x47 && (len == 0 || decide (len > 2 ^ 30) || (num == 0 && decide (len > 2000))), (.malformed, 0x05)),
    (op == 0x47 && (dat w.body 20 32 != 8 || dat w.body 32 46 % 8 != 0), (.malformed, 0x05)),
    (!fence && badLocal w s, (.malformed, 0x06)),
    (isArmed && (decide (ctr ≥ 4096) || !(s.trig ctr).bound), (.malformed, 0x09)),
    (notify && decide (dat w.body 14 16 ≥ 4096), (.malformed, 0x09)),
    (decide (c.st = .closing), (.cancelled, 0))]

/-- Queues a work request on its connection in fetch order (R549). -/
def queueReq (w : Work) (s : State) : State :=
  match reqChecks w s with
  | some (st, r) => complete w st r s
  | none => setRail w.wid {} (s.modConn (connOf w) (fun c => { c with queue := insertSorted w.wid c.queue }))

def execRlSend (wid : Nat) (s : State) : Host.Outcome State Fault Refusal := start wid 0x43 s queueReq
def execRlWrite (wid : Nat) (s : State) : Host.Outcome State Fault Refusal := start wid 0x45 s queueReq
def execRlRead (wid : Nat) (s : State) : Host.Outcome State Fault Refusal := start wid 0x46 s queueReq
def execRlAtomic (wid : Nat) (s : State) : Host.Outcome State Fault Refusal := start wid 0x47 s queueReq
def execRlFence (wid : Nat) (s : State) : Host.Outcome State Fault Refusal := start wid 0x48 s queueReq

/-- Posts a receive buffer (R548, R554). -/
def execRlRecv (wid : Nat) (s : State) : Host.Outcome State Fault Refusal :=
  start wid 0x44 s (fun w s => match reqChecks w s with
    | some (st, r) => complete w st r s
    | none => (s.setProg wid .posted).modConn (connOf w) (fun c => { c with recvs := insertSorted wid c.recvs }))

/-- The destination of a request: the peer, or NODE on the management connection. -/
def reqDst (w : Work) (s : State) : Nat := if connOf w = 0 then dat w.body 11 7 else (s.conn (connOf w)).peerNode

/-- The Rail OP of a request (R545). -/
def reqOp (w : Work) : BitVec 4 :=
  if w.opcode = 0x43 then 1 else if w.opcode = 0x45 then 2 else if w.opcode = 0x46 then 3
  else if (dat w.body 10 8).testBit 1 then 6 else 5

/-- The NOTIFY word of a SEND or WRITE (R545). -/
def notifyWord (w : Work) : W64 :=
  if (dat w.body 10 8).testBit 2 then BitVec.ofNat 64 (0x8000 + dat w.body 14 12) else 0

/-- The packets of message i of a request, at offset o with n bytes (R550, R564). -/
def messagePackets (w : Work) (s : State) (i o n : Nat) : List (Nat × Packet) :=
  let num := connOf w
  let c := s.conn num
  let dst := reqDst w s
  let p : Packet :=
    { op := reqOp w, dstConn := c.peerConn, srcConn := num, srcInc := s.rail.inc, dstInc := if num = 0 then knownInc dst s else c.peerInc,
      mseq := c.nextMseq + BitVec.ofNat 32 i, mlen := BitVec.ofNat 32 n, rkey := BitVec.ofNat 32 (dat w.body 40 32),
      raddr := dat w.body 32 46 + o }
  if w.opcode = 0x43 ∨ w.opcode = 0x45 then
    (cuts n (maxData num c)).map (fun d => (dst, { p with
      offset := d.1, last := decide (d.1 + d.2 = n), poison := refPoisoned s (localRef w) (o + d.1) d.2,
      operand := notifyWord w, data := refRead s (localRef w) (o + d.1) d.2 }))
  else if w.opcode = 0x46 then [(dst, { p with last := true })]
  else if (dat w.body 10 8).testBit 1 then
    [(dst, { p with last := true, operand := BitVec.ofNat 64 (dat w.body 48 64), data := leBytes 8 (dat w.body 56 64) })]
  else [(dst, { p with last := true, mlen := 0, operand := BitVec.ofNat 64 (dat w.body 48 64) })]

/-- The largest message of a connection: the peer's RX_UNITS packets (R550). -/
def maxMessage (num : Nat) (c : Conn) : Nat := maxData num c * (if num = 0 then 1 else max 1 c.peerRx)

/-- A request issues: it is cut into messages, each with the next MSEQ, and their packets go out (R550); a fence notes the
last message before it (R557). -/
def issueReq (w : Work) (s : State) : State :=
  let num := connOf w
  let c := s.conn num
  if w.opcode = 0x48 then
    settleConn num (setRail w.wid { railOf w with issued := true, firstMseq := c.nextMseq, lastMseq := c.nextMseq - 1, msgs := 1 } s)
  else
    let ms := cuts (reqLen w) (maxMessage num c)
    let ps := ms.zipIdx.flatMap (fun m => messagePackets w s m.2 m.1.1 m.1.2)
    let r : RailOp :=
      { railOf w with
        issued := true, firstMseq := c.nextMseq, lastMseq := c.nextMseq + BitVec.ofNat 32 (ms.length - 1), msgs := ms.length,
        poison := ps.any (fun p => p.2.poison) }
    post num ps ((setRail w.wid r s).modConn num (fun c => { c with nextMseq := c.nextMseq + BitVec.ofNat 32 ms.length }))

/-- Whether the turn of a request has come: it is the first of its connection that has not issued, and no fence before it
waits (R549, R557). -/
def hasTurn (w : Work) (s : State) : Bool :=
  let num := connOf w
  (match firstWaiting num s with | some x => x.wid == w.wid | none => false) &&
  !(((s.conn num).queue.filterMap s.item).any (fun x => decide (x.wid < w.wid) && x.opcode == 0x48)) &&
  ((s.conn num).st == .opened || (s.conn num).st == .closing)

/-- A request waits in its connection's queue. -/
def queued (p : Prog) : Option RailOp := match p with | .rail r => if r.issued then none else some r | _ => none

/-- A request's turn comes and it issues (R549, R550). -/
def execRailRequestIssue (wid : Nat) (s : State) : Host.Outcome State Fault Refusal :=
  resume wid s queued (fun w _ s => if !armed w && hasTurn w s then issueReq w s else s)

/-- An armed request's counter has reached THRESHOLD (R567). -/
def execArmedRequestIssue (wid : Nat) (s : State) : Host.Outcome State Fault Refusal :=
  resume wid s queued (fun w _ s =>
    let t := s.trig (dat w.body 12 16)
    if armed w && hasTurn w s && t.bound && t.tenant == w.tenant && decide (t.value.toNat ≥ dat w.body 16 32) then issueReq w s else s)

/-! ## Connections -/

/-- Connections that RL_CREATE requests still waiting have taken. -/
def claimedConns (s : State) : List Nat :=
  s.work.filterMap (fun w => match w.prog with | .create n => some n | _ => none)

/-- The lowest FREE connection with its home on a Station, S0 first for 0xFF (R540, R547). -/
def freeConn (station : Nat) (s : State) : Option Nat :=
  let ok (c : Nat) : Bool := decide ((s.conn c).st = .free) && !(claimedConns s).any (· == c)
  let on (st : Nat) : Option Nat := if st = 0 then (List.range 2047).map (· + 1) |>.find? ok else (List.range 2048).map (· + 2048) |>.find? ok
  if station = 0xFF then (on 0).orElse (fun _ => on 1) else on station

/-- Allocates a connection and starts reserving its units (R542, R547, R569). -/
def execRlCreate (wid : Nat) (s : State) : Host.Outcome State Fault Refusal :=
  start wid 0x40 s (fun w s =>
    let d := w.body
    let st := dat d 11 8
    let fixedBad := match s.img.image with
      | some i => i.fixed && (match i.parts[w.part]? with | some p => !p.classes.getLsbD (dat d 8 3) | none => true)
      | none => false
    if dat d 9 4 = 0 ∨ (st ≠ 0 ∧ st ≠ 1 ∧ st ≠ 0xFF) ∨ dat d 12 8 < 2 ∨ dat d 13 8 < 2 ∨ dat d 13 8 > 64 ∨ fixedBad = true then
      malformed w 0x03 s
    else match freeConn st s with
      | none => malformed w 0x0A s
      | some n => s.setProg wid (.create n))

/-- The units of a new connection are reserved (R544): it is INIT and RL_CREATE completes with its number. -/
def execRlCreateUnitsReserved (wid : Nat) (s : State) : Host.Outcome State Fault Refusal :=
  resume wid s (fun p => match p with | .create n => some n | _ => none) (fun w n s =>
    let d := w.body
    let cls := dat d 8 3
    if dat d 12 8 + dat d 13 8 > pfFree (connStation n) cls s then s else
    let c : Conn :=
      { st := .init, cls, v2 := (dat d 10 8).testBit 0, paths := BitVec.ofNat 4 (dat d 9 4), tenant := w.tenant, context := w.context,
        part := w.part, txUnits := dat d 12 8, rxUnits := dat d 13 8 }
    complete w .ok n (pfTouch (connStation n) cls (s.modConn n (fun _ => c))))

/-- WAIT ends without the units (R544). -/
def execRlCreateWaitExpire (wid : Nat) (s : State) : Host.Outcome State Fault Refusal :=
  resume wid s (fun p => match p with | .create n => some n | _ => none) (fun w _ s => complete w .platformExhausted 0 s)

/-- Binds a connection to its peer and starts sending HELLO (R544, R547). -/
def execRlConnect (wid : Nat) (s : State) : Host.Outcome State Fault Refusal :=
  start wid 0x41 s (fun w s =>
    let num := connOf w
    let c := s.conn num
    let node := dat w.body 10 7
    match firstFail [
      (decide (num < 4096) && decide (num ≠ 0) && connForeign w num s, (.tenantMismatch, 0)),
      (num == 0 || decide (num ≥ 4096), (.malformed, 0x01)),
      (decide (c.st ≠ .init), (.malformed, 0x02)),
      (node == s.me || !((List.range 4).any (fun k => c.paths.getLsbD k && (s.route node k).valid)), (.malformed, 0x04))] with
    | some (st, r) => complete w st r s
    | none => sendHello num ((s.setProg wid (.conn num)).modConn num (fun c => { c with
        st := .opening, peerNode := node, peerConn := dat w.body 12 16, service := BitVec.ofNat 32 (dat w.body 16 32), opener := some wid })))

/-- RETX_SC passes in OPENING: HELLO is sent again (R544). -/
def execHelloResend (conn : Nat) (s : State) : Host.Outcome State Fault Refusal :=
  actIf s (decide ((s.conn conn).st = .opening)) (sendHello conn)

/-- WAIT expires in OPENING (R544). -/
def execRlConnectWaitExpire (conn : Nat) (s : State) : Host.Outcome State Fault Refusal :=
  actIf s (decide ((s.conn conn).st = .opening)) (fun s =>
    let o := (s.conn conn).opener
    let s1 := s.modConn conn (fun c => { c with st := .init, opener := none })
    match o with | some w => completeWid w .remoteTimeout 0 s1 | none => s1)

/-- Closes a connection, or frees one in INIT or ERROR (R544). -/
def execRlClose (wid : Nat) (s : State) : Host.Outcome State Fault Refusal :=
  start wid 0x42 s (fun w s =>
    let num := connOf w
    let c := s.conn num
    match firstFail [
      (decide (num < 4096) && decide (num ≠ 0) && connForeign w num s, (.tenantMismatch, 0)),
      (num == 0 || decide (num ≥ 4096), (.malformed, 0x01)),
      (!(c.st == .init || c.st == .error || c.st == .opened), (.malformed, 0x02))] with
    | some (st, r) => complete w st r s
    | none =>
      if c.st = .opened then
        tryClose num (probeOver num ((s.setProg wid (.conn num)).modConn num (fun c => { c with st := .closing, opener := some wid })))
      else complete w .ok 0 (connFree num s))

/-! ## Regions and keys -/

/-- The lowest FREE or REVOKED region slot (R559). -/
def freeSlot (s : State) : Option Nat := (List.range 65536).find? (fun k => (s.slot k).st == .free || (s.slot k).st == .revoked)

/-- Registers a range of a region and returns its key (R559). (DEDUCED, log entry 132.) -/
def execRlRegister (wid : Nat) (s : State) : Host.Outcome State Fault Refusal :=
  start wid 0x49 s (fun w s =>
    let d := w.body
    let id := dat d 8 8
    let off := dat d 16 64
    let len := dat d 24 64
    let rights := dat d 9 8
    let r := s.region id
    match firstFail [
      ((match r with | some g => g.part != w.part | none => false), (.tenantMismatch, 0)),
      ((match r with | some g => decide (off + len > g.size) | none => true) || rights == 0 || decide (rights > 7) ||
        off % 4096 != 0 || len % 4096 != 0 || len == 0, (.malformed, 0x07)),
      ((freeSlot s).isNone, (.malformed, 0x08))] with
    | some (st, x) => complete w st x s
    | none =>
      let k := (freeSlot s).getD 0
      let gen := 1 + Config.random s.free % 65535
      let peer := dat d 10 7
      let slot : RegSlot :=
        { st := .registered, rights := BitVec.ofNat 3 rights, tenant := w.tenant, regionId := id, gen := BitVec.ofNat 16 gen,
          peerValid := (dat d 10 8).testBit 7, peer, peerInc := knownInc peer s, offset := off, length := len, context := w.context,
          part := w.part }
      complete w .ok (gen * 65536 + k) (s.fresh.modSlot k (fun _ => slot)))

/-- Starts revoking a registration (R561). (DEDUCED, log entry 132.) -/
def execRlRevoke (wid : Nat) (s : State) : Host.Outcome State Fault Refusal :=
  start wid 0x4A s (fun w s =>
    let key := dat w.body 40 32
    let k := key % 65536
    let x := s.slot k
    if x.st ≠ .free ∧ x.tenant ≠ w.tenant then complete w .tenantMismatch 0 s
    else if x.st = .free ∨ x.gen.toNat ≠ key / 65536 then complete w .keyInvalid 0 s
    else if x.st = .revoked then complete w .ok 0 s
    else settleSlot k ((s.setProg wid (.revoke k)).modSlot k (fun x => { x with st := .revoking })))

/-- Revokes slots at once: their accepted messages are discarded without effect, IN_FLIGHT is 0, a waiting RL_REVOKE completes
(R561). -/
def revokeNow (p : RegSlot → Bool) (s : State) : State :=
  let ks := (s.rc.slots.filter (fun kv => (kv.2.st == .registered || kv.2.st == .revoking) && p kv.2)).map Prod.fst
  let s1 := { s with rc := { s.rc with conns := tmap s.rc.conns {} (fun _ c =>
    { c with rx := c.rx.map (fun m => match m.slot with | some k => if ks.any (· == k) then { m with slot := none, refused := some .keyInvalid } else m | none => m) }) } }
  ks.foldl (fun s k =>
    let s1 := s.modSlot k (fun x => { x with st := .revoked, inFlight := 0 })
    (s1.work.filter (fun w => match w.prog with | .revoke n => n == k | _ => false)).foldl (fun s w => complete w .ok 0 s) s1) s1

/-- Binds, sets or releases a trigger counter (R565). -/
def execRlTriggerSet (wid : Nat) (s : State) : Host.Outcome State Fault Refusal :=
  start wid 0x4B s (fun w s =>
    let n := dat w.body 8 16
    let t := s.trig n
    if n < 4096 ∧ t.bound ∧ t.tenant ≠ w.tenant then complete w .tenantMismatch 0 s
    else if n ≥ 4096 then malformed w 0x09 s
    else
      let t' : Trig := if (dat w.body 16 8).testBit 0 then { t with bound := false } else
        { bound := true, tenant := w.tenant, value := BitVec.ofNat 32 (dat w.body 12 32) }
      complete w .ok 0 { s with rc := { s.rc with trigs := tput s.rc.trigs n t' {} } })

/-! ## Receiving -/

/-- The tests of R560 on a packet that names a region; `accepted` says that its message was accepted before. -/
def keyCheck (src : Nat) (p : Packet) (accepted : Bool) (s : State) : Option Status :=
  let k := p.rkey.toNat % 65536
  let x := s.slot k
  let need : Nat := match p.op.toNat with | 2 => 1 | 3 => 0 | _ => 2
  let len := if p.op.toNat = 5 ∨ p.op.toNat = 6 then 8 else if p.ctl.isSome then 4096 else p.mlen.toNat
  let base := domainBase s x.regionId + x.offset
  if !(x.st == .registered || x.st == .revoking) ∨ x.gen.toNat ≠ p.rkey.toNat / 65536 then some .keyInvalid
  else if x.peerValid ∧ (x.peer ≠ src ∨ x.peerInc ≠ p.srcInc) then some .keyInvalid
  else if addrNode p.raddr ≠ s.me ∨ addrOff p.raddr < base ∨ addrOff p.raddr + len > base + x.length then some .keyInvalid
  else if !x.rights.getLsbD need then some .keyInvalid
  else if x.st = .revoking ∧ !accepted then some .regionRevoked
  else none

/-- Whether a message names a region (R560). -/
def namesRegion (op : BitVec 4) : Bool := op == 2 || op == 3 || op == 5 || op == 6

/-- Whether a packet belongs to a message held: by MSEQ, and on the management connection by source (R553, R581). -/
def RxMsg.isOf (m : RxMsg) (num src : Nat) (p : Packet) : Bool :=
  m.mseq == p.mseq && (num != 0 || (m.src == src && m.srcConn == p.srcConn))

/-- Whether every byte of a message is held (R553); requests without data are complete with their packet. -/
def RxMsg.complete (m : RxMsg) : Bool :=
  m.op == 3 || m.op == 5 || decide ((m.got.map (fun g => g.2.length)).sum = m.mlen)

/-- The message a first packet starts (R560). -/
def newRx (num src : Nat) (p : Packet) (s : State) : RxMsg :=
  let r := if namesRegion p.op && p.ctl.isNone || namesRegion p.op && num == 0 then keyCheck src p false s else none
  { mseq := p.mseq, op := p.op, mlen := p.mlen.toNat, rkey := p.rkey, raddr := p.raddr, operand := p.operand,
    notify := if (p.op == 1 || p.op == 2) && p.operand.getLsbD 15 then some (p.operand.toNat % 4096) else none,
    refused := r, slot := if namesRegion p.op && r.isNone then some (p.rkey.toNat % 65536) else none,
    src, srcConn := p.srcConn, srcInc := p.srcInc, cls := p.cls }

/-- The data bytes of a packet; those of a CONTROL packet or a page access stand for a piece of its message. -/
def pktData (p : Packet) : List Byte := if p.op = 12 ∨ p.ctl.isSome then List.replicate p.dlen 0 else p.data

/-- Adds an accepted packet's data to its message. -/
def RxMsg.add (m : RxMsg) (p : Packet) : RxMsg :=
  { m with got := m.got ++ [(p.offset, pktData p)], ctl := if p.ctl.isSome then p.ctl else m.ctl, poison := m.poison || p.poison }

/-- The message types of a handoff connection and of the management connection (R583). -/
def handoffTypes : List Nat := [1, 2, 3, 4, 5, 6, 7]
def mgmtTypes : List Nat := [8, 9, 10, 0x10, 0x11, 0x12, 0x13, 0x20, 0x21, 0x22, 0x23, 0x24, 0x25]

/-- Whether a message that waits is one R583 drops: its CTYPE is reserved, or the table gives it another connection. (DESIGN CHOICE, log
entry 108.) -/
def dropsCtl (num : Nat) (c : Conn) (m : RxMsg) : Bool :=
  m.op == 12 && m.complete && (num == 0 || m.mseq == c.rxCum) &&
    (match m.ctl with
      | some x => !(if num = 0 then mgmtTypes else if c.service.toNat / 2 ^ 16 = 0x484F then handoffTypes else []).any (· == x.ctype.toNat)
      | none => true)

/-- A message leaves its connection: CUM advances and is reported, its slot's count falls, its units are free (R554, R560); the
management connection, which has no one CUM, notes it (R553). -/
def leaveRx (num : Nat) (m : RxMsg) (s : State) : State :=
  let s0 : State := if num = 0 then { s with rc := { s.rc with
      mgmtDone := (s.rc.mgmtDone.filter (fun x => x.1 != m.src || x.2.1 == m.srcInc)) ++ [(m.src, m.srcInc, m.mseq)] } } else s
  let s1 := s0.modConn num (fun c => { c with
    rx := c.rx.filter (fun x => !(x.mseq == m.mseq && x.src == m.src && x.srcConn == m.srcConn)),
    rxCum := if num = 0 then c.rxCum else c.rxCum + 1 })
  let s2 := match m.slot with | some k => slotDone k s1 | none => s1
  ackPacket num m.src m.srcConn m.srcInc m.mseq 0 s2

/-- Drops the messages R583 drops, each in its turn; `fuel` is the messages that wait. -/
def dropCtls (num : Nat) : Nat → State → State
  | 0, s => s
  | k + 1, s => match (s.conn num).rx.find? (dropsCtl num (s.conn num)) with
    | some m => dropCtls num k (leaveRx num m s)
    | none => s

/-- What R583 drops leaves; a connection that only waited for it closes (R544). -/
def settleRx (num : Nat) (s : State) : State := tryClose num (dropCtls num (s.conn num).rx.length s)

/-- A message has taken effect (R554, R560). -/
def effectDone (num : Nat) (m : RxMsg) (s : State) : State := settleRx num (leaveRx num m s)

/-- Whether a message is already visible: CUM has passed it, or the management connection has noted it (R553). -/
def rxVisible (num src : Nat) (p : Packet) (s : State) : Bool :=
  if num = 0 then s.rc.mgmtDone.any (· == (src, p.srcInc, p.mseq)) else seqBefore p.mseq (s.conn num).rxCum

/-- A packet of a SEND, WRITE, READ_REQ, atomic or CONTROL message is reassembled and acknowledged (R551, R553, R560). -/
def rxMessage (num src : Nat) (p : Packet) (s : State) : State :=
  let c := s.conn num
  let ack (s : State) : State := ackPacket num src p.srcConn p.srcInc p.mseq p.offset s
  let old := c.rx.find? (fun m => m.isOf num src p)
  if rxVisible num src p s then ack s
  else
    let m := match old with
      | some m => if m.refused.isNone ∧ namesRegion p.op then { m with refused := keyCheck src p true s } else m
      | none => newRx num src p s
    if m.got.any (fun g => g.1 == p.offset) then ack s
    else if p.offset + (pktData p).length > m.mlen ∧ (pktData p).length > 0 ∨
        m.got.any (fun g => decide (p.offset < g.1 + g.2.length) && decide (g.1 < p.offset + (pktData p).length)) then
      { s with rc := { s.rc with dropped := s.rc.dropped + 1 } }
    else
      let m' := m.add p
      let s1 := { s with rc := { s.rc with
        rxPkts := s.rc.rxPkts + 1, keyRefused := s.rc.keyRefused + b2n (old.isNone && m.refused.isSome) } }
      let s2 := match old, m.slot with
        | none, some k => s1.modSlot k (fun x => { x with inFlight := x.inFlight + 1 })
        | _, _ => s1
      settleRx num (ack ((railUse num (pktData p).length s2).modConn num (fun c =>
        { c with rx := (c.rx.filter (fun x => !x.isOf num src p)) ++ [m'] })))

/-- The message that may take effect next: complete, and on a connection with one peer the one MSEQ order names (R554). -/
def nextRx (num : Nat) (op : BitVec 4 → Bool) (s : State) : Option RxMsg :=
  let c := s.conn num
  c.rx.find? (fun m => op m.op && m.complete && (num == 0 || m.mseq == c.rxCum))

/-- A message refused under R556 to R560 has no effect but its NAK (R554). -/
def refuseRx (num : Nat) (m : RxMsg) (st : Status) (s : State) : State :=
  effectDone num m (nakPacket num m.src m.srcConn m.srcInc m.mseq st s)

/-- A notification (R566). -/
def notifyCtr (num : Nat) (m : RxMsg) (s : State) : State :=
  match m.notify with
  | none => s
  | some n =>
    let t := s.trig n
    if t.bound ∧ t.tenant = (s.conn num).tenant then
      { s with rc := { s.rc with trigs := tput s.rc.trigs n { t with value := satBv t.value 1 } {} } }
    else { s with rc := { s.rc with trigDrop := s.rc.trigDrop + 1 } }

/-- The region and offset a domain address of this node names through a slot. -/
def slotRef (s : State) (m : RxMsg) : Ref :=
  let x := s.slot (m.rkey.toNat % 65536)
  .hbm x.regionId (addrOff m.raddr - domainBase s x.regionId)

/-- Writes a message's bytes where they belong, with poison where the sender marked it (R554, R564). (DEDUCED, log entry 85.) -/
def writeMsg (r : Ref) (m : RxMsg) (s : State) : State :=
  let s1 := m.got.foldl (fun s g => refWrite r g.1 g.2 s) s
  if m.poison then refPoison r 0 m.mlen s1 else s1

/-- The place of a block of a container registered under a slot: its stored bytes at RADDR, its record in the record array of
the registered range (R335, R340). -/
def blockRecRef (s : State) (m : RxMsg) : Ref :=
  let x := s.slot (m.rkey.toNat % 65536)
  let place := (addrOff m.raddr - domainBase s x.regionId - x.offset) / 4096
  let p := x.length / 4096
  .hbm x.regionId (x.offset + 4096 * (p - p / 256) + 16 * place)

/-- The block a message carries, if it is one. -/
def blockOfMsg (m : RxMsg) : Option Block :=
  m.ctl.bind (fun c => match c.body with | .data _ (b :: _) => some b | _ => none)

/-- Writes a block into its place: stored bytes first, record last (R335, R347). -/
def writeBlockMsg (m : RxMsg) (b : Block) (s : State) : State :=
  refWrite (blockRecRef s m) 0 (leBytes 16 b.record.toNat) (refWrite (slotRef s m) 0 b.stored s)

/-- A complete SEND takes effect into the oldest posted RECV; without one it waits (R554, R555, R566). -/
def execSendEffect (conn : Nat) (s : State) : Host.Outcome State Fault Refusal :=
  actIf s s.awake (fun s => match nextRx conn (· == 1) s, (s.conn conn).recvs.filterMap s.item with
    | some m, w :: _ =>
      if m.mlen > reqLen w then refuseRx conn m .malformed (finishReq conn w .malformed 0x0B s)
      else finishReq conn w .ok m.mlen (effectDone conn m (notifyCtr conn m (writeMsg (localRef w) m s)))
    | _, _ => s)

/-- A complete WRITE takes effect: its data is visible to every reader (R554, R87), its counter notified (R566). -/
def execWriteEffect (conn : Nat) (s : State) : Host.Outcome State Fault Refusal :=
  actIf s s.awake (fun s => match nextRx conn (· == 2) s with
    | some m =>
      match m.refused, blockOfMsg m with
      | some st, _ => refuseRx conn m st s
      | none, some b => effectDone conn m (writeBlockMsg m b s)
      | none, none => effectDone conn m (notifyCtr conn m (writeMsg (slotRef s m) m s))
    | none => s)

/-- A READ_REQ takes effect: the bytes are read at that moment and returned (R554); a page read through a key slot returns the
block of its place with its record (R537, R325). -/
def execReadReqEffect (conn : Nat) (s : State) : Host.Outcome State Fault Refusal :=
  actIf s s.awake (fun s => match nextRx conn (· == 3) s with
    | some m =>
      match m.refused with
      | some st => refuseRx conn m st s
      | none =>
        let c := s.conn conn
        let r := slotRef s m
        let p : Packet :=
          { op := 4, dstConn := m.srcConn, srcConn := conn, srcInc := s.rail.inc, dstInc := m.srcInc, mseq := m.mseq, mlen := BitVec.ofNat 32 m.mlen, cls := m.cls }
        let ps := if m.ctl.isSome then
            let b : Block := { record := BitVec.ofNat 128 (refNum s (blockRecRef s m) 0 16), stored := refRead s r 0 4096 }
            (pagePieces { p with ctl := some (pageCtl s [b]) } b (fun o n =>
              if o < 16 then refPoisoned s (blockRecRef s m) 0 16 || refPoisoned s r 0 (n - 16) else refPoisoned s r (o - 16) n)).map
              (fun x => (m.src, x))
          else (cuts m.mlen (maxData conn c)).map (fun d => (m.src, { p with
            offset := d.1, last := decide (d.1 + d.2 = m.mlen), poison := refPoisoned s r d.1 d.2, data := refRead s r d.1 d.2 }))
        effectDone conn m (post conn ps s)
    | none => s)

/-- An atomic takes effect: the word is updated and its old value returned; a poisoned word answers with POISON and is left
(R554, R556, R562). -/
def atomicEffect (op : BitVec 4) (new : RxMsg → Nat → Nat) (conn : Nat) (s : State) : State :=
  match nextRx conn (· == op) s with
  | some m =>
    match m.refused with
    | some st => refuseRx conn m st s
    | none =>
      let r := slotRef s m
      let old := refNum s r 0 8
      let bad := refPoisoned s r 0 8
      let s1 := if bad then s else refWrite r 0 (leBytes 8 (new m old)) s
      effectDone conn m (post conn [(m.src,
        { op := 7, last := true, poison := bad, dstConn := m.srcConn, srcConn := conn, srcInc := s.rail.inc, dstInc := m.srcInc,
          mseq := m.mseq, operand := if bad then BitVec.allOnes 64 else BitVec.ofNat 64 old })] s1)
  | none => s

/-- A FADD takes effect (R556). -/
def execFaddEffect (conn : Nat) (s : State) : Host.Outcome State Fault Refusal :=
  actIf s s.awake (atomicEffect 5 (fun m old => (old + m.operand.toNat) % 2 ^ 64) conn)

/-- A CSWAP takes effect: the swap value is stored where the word equals the compare value (R556). -/
def execCswapEffect (conn : Nat) (s : State) : Host.Outcome State Fault Refusal :=
  actIf s s.awake (atomicEffect 6 (fun m old => if old = m.operand.toNat then ofBytes ((m.got.head?.map Prod.snd).getD []) else old) conn)

/-! ## Responses and acknowledgements -/

/-- The issued read or atomic of a connection whose messages hold an MSEQ (R550). -/
def readerOf (num : Nat) (mseq : W32) (s : State) : Option Work :=
  ((s.conn num).queue.filterMap s.item).find? (fun w =>
    let r := railOf w
    r.issued && reads w && decide ((mseq - r.firstMseq).toNat < r.msgs))

/-- A READ_RESP packet delivers bytes, or poison; the read completes with its last byte (R550, R562). -/
def readResp (num : Nat) (p : Packet) (s : State) : State :=
  match readerOf num p.mseq s with
  | none => s
  | some w =>
    let r := railOf w
    let at_ := (p.mseq - r.firstMseq).toNat * maxMessage num (s.conn num) + p.offset
    if r.got.any (fun g => g.1 == at_) ∨ at_ + (pktData p).length > reqLen w then s else
    let s1 := if p.poison then poisonBytes (localRef w) at_ p.data.length s else refWrite (localRef w) at_ p.data s
    let r' := { r with got := r.got ++ [(at_, p.data.length)], poison := r.poison || p.poison }
    let s2 := setRail w.wid r' s1
    let total := (r'.got.map Prod.snd).sum
    if total = reqLen w then
      tryClose num (finishReq num { w with prog := .rail r' } (if r'.poison then .poisonConsumed else .ok) total s2)
    else s2

/-- An ATOMIC_RESP completes its atomic with the old value, also written to LOCAL (R548, R550, R562). -/
def atomicResp (num : Nat) (p : Packet) (s : State) : State :=
  match readerOf num p.mseq s with
  | none => s
  | some w =>
    let s1 := if p.poison then poisonBytes (localRef w) 0 8 s else refWrite (localRef w) 0 (leBytes 8 p.operand.toNat) s
    tryClose num (finishReq num w (if p.poison then .poisonConsumed else .ok) p.operand.toNat s1)

/-- The status a code names; an unknown code reads as INTERNAL. -/
def statusOf (c : Nat) : Status :=
  ([.ok, .okShort, .okRecomputed, .checkFail, .lengthMismatch, .codeInvalid, .crcFail, .poisonConsumed, .admitMemory, .admitTime,
    .platformExhausted, .regionRevoked, .keyInvalid, .peerDead, .remoteTimeout, .ownershipLost, .stateLost, .partnerLost,
    .functionDisabled, .cancelled, .raceLost, .possessionBusy, .tenantMismatch, .malformed, .internal].find? (fun st => st.code.toNat == c)).getD .internal

/-- A remote write of a COPY is acknowledged, or refused with a status: the COPY completes once every write is (R318). -/
def copyAcked (mseq : W32) (st : Option Status) (s : State) : State :=
  match s.work.find? (fun w => match w.prog with | .remoteAck b => b.acks.any (· == mseq) | _ => false) with
  | none => s
  | some w =>
    match w.prog with
    | .remoteAck b =>
      let b' := { b with acks := b.acks.filter (· != mseq), worst := if b.worst = .ok then st.getD .ok else b.worst }
      if b'.acks.isEmpty ∧ b'.ended = b'.total then finishOp w (opInfo w b'.worst []) 0 s b'.faultRef else s.setProg w.wid (.remoteAck b')
    | _ => s

/-- A NAK fails a read with its status, its missing bytes as poison (R562); a send or write keeps the status until it is
acknowledged as visible (R550, R554). -/
def nakResp (num : Nat) (p : Packet) (s : State) : State :=
  let st := statusOf (p.mlen.toNat % 256)
  match readerOf num p.mseq s with
  | some w => tryClose num (finishReq num w st ((railOf w).got.map Prod.snd).sum (poisonRest w s))
  | none =>
    match ((s.conn num).queue.filterMap s.item).find? (fun w =>
      (railOf w).issued && decide ((p.mseq - (railOf w).firstMseq).toNat < (railOf w).msgs) && w.opcode != 0x48) with
    | some w => setRail w.wid { railOf w with reset := some ((railOf w).reset.getD st) } s
    | none => if num = 0 then copyAcked p.mseq (some st) s else s

/-- A packet ACK: the packet's unit is free and CUM advances; what it makes visible completes (R551, R554). -/
def ackResp (num : Nat) (p : Packet) (s : State) : State :=
  let s1 := s.modConn num (fun c =>
    { c with
      unacked := c.unacked.eraseP (fun t => t.pkt.mseq == p.mseq && t.pkt.offset == p.offset),
      cum := if num ≠ 0 ∧ seqBefore c.cum p.mlen then p.mlen else c.cum })
  let s2 := pump num (s1.conn num).txq.length s1
  if num = 0 then
    -- the management connection has no one CUM: the request of an acknowledged message is visible
    match ((s2.conn 0).queue.filterMap s2.item).find? (fun w => (railOf w).issued && (railOf w).lastMseq == p.mseq) with
    | some w => finishReq 0 w (if (railOf w).poison then .poisonConsumed else .ok) (railOf w).lastMseq.toNat s2
    | none =>
      if (s2.conn 0).unacked.any (fun t => t.pkt.mseq == p.mseq) || (s2.conn 0).txq.any (fun x => x.2.mseq == p.mseq) then s2
      else copyAcked p.mseq none s2
  else settleConn num s2

/-- A packet is not acknowledged in RETX_SC: it is sent again, or its connection goes to ERROR (R551, R544); the management
connection never does (R581). -/
def execRetxTimer (conn : Nat) (mseq : W32) (offset : Nat) (s : State) : Host.Outcome State Fault Refusal :=
  actIf s ((s.conn conn).unacked.any (fun t => t.pkt.mseq == mseq && t.pkt.offset == offset)) (fun s =>
    let sends := (((s.conn conn).unacked.find? (fun t => t.pkt.mseq == mseq && t.pkt.offset == offset)).map (fun t => t.sends)).getD 0
    if conn ≠ 0 ∧ sends ≥ max 1 s.rc.retxMax.toNat then connError conn .remoteTimeout s else resend conn mseq offset s)

/-- A HELLO: it opens the connection it matches, any other is dropped (R544). -/
def rxHello (src : Nat) (p : Packet) (s : State) : State :=
  let num := p.dstConn
  let c := s.conn num
  if c.st ≠ .opening ∨ c.peerNode ≠ src ∨ c.peerConn ≠ p.srcConn ∨ c.service ≠ p.operand.setWidth 32 then s else
    let s1 := s.modConn num (fun c => { c with
      st := .opened, peerInc := p.srcInc, peerRx := p.mlen.toNat, nextMseq := 0, cum := 0, rxCum := 0, opener := none })
    let s2 := sendHello num { s1 with rc := { s1.rc with rxPkts := s1.rc.rxPkts + 1 } }
    match c.opener with | some w => completeWid w .ok 0 s2 | none => s2

/-- A CLOSE frees the connection; its unfinished work is cancelled (R544). -/
def rxClose (num src : Nat) (p : Packet) (s : State) : State :=
  if (s.conn num).st = .opened ∨ (s.conn num).st = .closing then
    connFree num (ackPacket num src p.srcConn p.srcInc p.mseq p.offset s)
  else s

/-- Whether the detector has declared an incarnation of a node dead (R524, R552). -/
def deadInc (n : Nat) (inc : W32) (s : State) : Bool :=
  let p := s.peer n
  decide (p.inc ≠ 0) && (decide (inc.toNat < p.inc.toNat) || (decide (inc = p.inc) && p.st == .dead))

/-- The tests of R552; the management connection has no single peer, so its incarnation test is the detector's. -/
def acceptable (num src : Nat) (p : Packet) (s : State) : Bool :=
  let c := s.conn num
  decide (num < 4096) && (c.st == .opening || c.st == .opened || c.st == .closing) && p.dstInc == s.rail.inc &&
  (num == 0 || p.srcInc == c.peerInc) && !deadInc src p.srcInc s

end Sys2Proof.Machine
end

