-- ==== Sys2Proof/Machine/Codec.lean ====
section
/-! DEFINITION. The Sleeper codec: LZ streams (R342 to R344), block records (R339), the keys of the tiers (R731), coding a block
(R337, R346, R348) and the checks on reading one (R349 to R351). -/

namespace Sys2Proof.Machine

/-! ## LZ streams (R344, checks 7 and 8 of R349) -/

/-- Extension bytes of a length of 15: the length and the bytes after it; none when they run past the token part. -/
def lzExt : Nat → List Byte → Option (Nat × List Byte)
  | _, [] => none
  | v, b :: r => if b = 255 then lzExt (v + 255) r else some (v + b.toNat, r)

/-- A length field of a token. -/
def lzLen (v : Nat) (r : List Byte) : Option (Nat × List Byte) := if v = 15 then lzExt 15 r else some (v, r)

/-- Copies a match one byte at a time from `off` bytes back; `out` is the output, last byte first. -/
def lzCopy (off : Nat) : Nat → List Byte → List Byte
  | 0, out => out
  | n + 1, out => lzCopy off n (out.getD (off - 1) 0 :: out)

/-- Expands the token part; `out` is the output so far, last byte first, `n` its length. Fuel is the number of token bytes. -/
def lzRun (ulen : Nat) : Nat → List Byte → List Byte → Nat → Except Status (List Byte)
  | 0, _, out, n => if n = ulen then .ok out.reverse else .error .lengthMismatch
  | fuel + 1, ts, out, n =>
    match ts with
    | [] => if n = ulen then .ok out.reverse else .error .lengthMismatch
    | t :: r0 =>
      if n = ulen then .error .lengthMismatch else
      match lzLen (t.toNat / 16) r0 with
      | none => .error .codeInvalid
      | some (lit, r1) =>
        let avail := r1.length
        if avail < lit ∧ (ulen - n ≥ lit ∨ avail ≤ ulen - n) then .error .codeInvalid
        else if ulen - n < lit then .error .lengthMismatch
        else
          let out1 := (r1.take lit).reverse ++ out
          let n1 := n + lit
          match r1.drop lit with
          | [] => if n1 = ulen then .ok out1.reverse else .error .lengthMismatch
          | a :: r2 =>
            if n1 = ulen then .error .lengthMismatch else
            match r2 with
            | [] => .error .codeInvalid
            | b :: r3 =>
              let off := a.toNat + 256 * b.toNat
              if off = 0 ∨ off ≥ 4096 ∨ off > n1 then .error .codeInvalid else
              match lzLen (t.toNat % 16) r3 with
              | none => .error .codeInvalid
              | some (ml, r4) =>
                if n1 + ml + 4 > ulen then .error .lengthMismatch
                else lzRun ulen fuel r4 (lzCopy off (ml + 4) out1) (n1 + ml + 4)

/-- The element width of a codec's byte planes (R343). -/
def planeWidth (codec : Nat) : Nat := if codec = 3 then 2 else if codec = 4 then 4 else 1

/-- Rebuilds elements of w bytes from their planes (R343). -/
def unplanes (w : Nat) (bs : List Byte) : List Byte :=
  let n := bs.length / w
  (List.range (n * w)).map (fun i => bs.getD ((i % w) * n + i / w) 0)

/-- Expands a compressed stream: the tokens, then XCRC over the plaintext (R344, checks 7 to 9 of R349). -/
def expandLz (codec ulen : Nat) (stream : List Byte) : Except Status (List Byte) :=
  let ts := stream.take (stream.length - 4)
  match lzRun ulen (ts.length + 1) ts [] 0 with
  | .error e => .error e
  | .ok out =>
    let plain := unplanes (planeWidth codec) out
    if crc32c plain = BitVec.ofNat 32 (leAt stream (stream.length - 4) 4) then .ok plain else .error .crcFail

/-! ## Records (R339) -/

/-- The stored length of a stream: CLEN rounded up to 64 (R336). -/
def storedLen (clen : Nat) : Nat := ceilDiv clen 64 * 64

/-- The record of a block, its CRC over the stored bytes and the other record bytes with VALID set (R339, R346). -/
def mkRecord (tweak keyIdx : Nat) (poison : Bool) (codec clen ulen : Nat) (stored : List Byte) : BitVec 128 :=
  let hi := packFields [(1, 1, 31), (b2n poison, 1, 30), (codec, 4, 26), (clen, 13, 13), (ulen / 64, 7, 6)]
  let lo := tweak % 2 ^ 48 + (keyIdx % 65536) * 2 ^ 48
  let crc := crc32c (stored ++ leBytes 8 lo ++ leBytes 4 hi)
  BitVec.ofNat 128 (lo + crc.toNat * 2 ^ 64 + hi * 2 ^ 96)

/-- Fields of a record. -/
def recValid (r : BitVec 128) : Bool := r.getLsbD 127
def recPoison (r : BitVec 128) : Bool := r.getLsbD 126
def recCodec (r : BitVec 128) : Nat := fld r.toNat 122 4
def recClen (r : BitVec 128) : Nat := fld r.toNat 109 13
def recUlen (r : BitVec 128) : Nat := 64 * fld r.toNat 102 7
def recKeyIdx (r : BitVec 128) : Nat := fld r.toNat 48 16
def recTweak (r : BitVec 128) : Nat := fld r.toNat 0 48
def recCrc (r : BitVec 128) : W32 := BitVec.ofNat 32 (fld r.toNat 64 32)

/-- The stored length a record gives. -/
def recStored (r : BitVec 128) : Nat := if recPoison r ∨ recCodec r = 1 then 0 else storedLen (recClen r)

/-- Check 2 of R349. -/
def recBad (r : BitVec 128) : Bool :=
  let u := fld r.toNat 102 7
  !recValid r || fld r.toNat 96 6 != 0 || u == 0 || decide (u > 64) || decide (recCodec r > 4) ||
  (if recPoison r then recCodec r != 0 || recClen r != 0
   else match recCodec r with
     | 0 => recClen r != recUlen r
     | 1 => recClen r != 0
     | _ => decide (recClen r < 5) || decide (recClen r > 4096))

/-- The CRC of check 3: over the S stored bytes and the record. -/
def blockCrc (b : Block) : W32 :=
  let s := recStored b.record
  let data := (b.stored ++ List.replicate (s - b.stored.length) 0).take s
  crc32c (data ++ leBytes 8 b.record.toNat ++ leBytes 4 (b.record.toNat >>> 96))

/-- Checks 2 to 9 of R349 and the plaintext; `inverted` is an injection on check 3 (R710). `key` is the Sleeper key of an index. -/
def checkBlock (keyIdx : Nat) (key : Nat → List Byte) (inverted : Bool) (b : Block) : Except Status (List Byte) :=
  let r := b.record
  let s := recStored r
  let data := xtsDecrypt (key (recKeyIdx r)) (recTweak r) ((b.stored ++ List.replicate (s - b.stored.length) 0).take s)
  if recBad r then .error .codeInvalid
  else if inverted ∨ blockCrc b ≠ recCrc r then .error .crcFail
  else if recPoison r then .error .poisonConsumed
  else if recKeyIdx r ≠ keyIdx then .error .keyInvalid
  else match recCodec r with
    | 0 => .ok (data.take (recUlen r))
    | 1 => .ok (List.replicate (recUlen r) 0)
    | c =>
      if (data.drop (recClen r)).any (· != 0) then .error .codeInvalid
      else expandLz c (recUlen r) (data.take (recClen r))

/-! ## Coding (R337, R346, R348) -/

/-- Whether a stream is one an encoder may give for a plaintext: it expands to it (R345). -/
def streamFits (codec : Nat) (plain stream : List Byte) : Bool :=
  match expandLz codec plain.length stream with
  | .ok p => p == plain
  | .error _ => false

/-- Codes a plaintext: ZERO for zeros, RAW when asked or when the compressed form is too long, else the stream; padded, then encrypted under the
key of the index with the tweak drawn for the coding (R336, R337, R346). -/
def codeBlock (codec keyIdx tweak : Nat) (key : Nat → List Byte) (plain stream : List Byte) : Block :=
  let ulen := plain.length
  let stored (bs : List Byte) : List Byte := xtsEncrypt (key keyIdx) (tweak % 2 ^ 48) bs
  if plain.all (· == 0) then { record := mkRecord tweak keyIdx false 1 0 ulen [], stored := [] }
  else if codec = 0 ∨ storedLen stream.length * 8 > 7 * ulen then
    let bs := stored plain
    { record := mkRecord tweak keyIdx false 0 ulen ulen bs, stored := bs }
  else
    let bs := stored (stream ++ List.replicate (storedLen stream.length - stream.length) 0)
    { record := mkRecord tweak keyIdx false codec stream.length ulen bs, stored := bs }

/-- The block of poisoned plaintext (R348). -/
def poisonBlock (keyIdx tweak ulen : Nat) : Block := { record := mkRecord tweak keyIdx true 0 0 ulen [], stored := [] }

/-- Whether the coder needs the operand stream for a plaintext. -/
def needsStream (codec : Nat) (plain : List Byte) : Bool := decide (codec ≠ 0) && !plain.all (· == 0)

/-- The gc a CODEC Stand takes for a block, rounded up (R359). (DEDUCED, log entry 48.) -/
def codecGc (perBlock ulen : Nat) : Nat := 16 + ceilDiv ((perBlock - 16) * ulen) 4096

/-! ## Counters (R363, R364) -/

/-- Counts a coded block of a tenant and partition (R363, R707). -/
def countCoded (t p codec : Nat) (b : Block) (s : State) : State :=
  let ulen := recUlen b.record
  let gc := codecGc (if recPoison b.record then 16 else if recCodec b.record = 1 then 16 else if codec = 0 then 32 else 288) ulen
  (s.use t p 0 gc).modSl p (fun c => { c with
    coded := c.coded + 1, raw := c.raw + b2n (recCodec b.record == 0), zero := c.zero + b2n (recCodec b.record == 1),
    plain := c.plain + ulen, stored := c.stored + recStored b.record, codecGc := c.codecGc + gc })

/-- Counts a block read without failure (R363, R707). -/
def countExpanded (t p : Nat) (b : Block) (s : State) : State :=
  let gc := codecGc (match recCodec b.record with | 0 => 32 | 1 => 16 | _ => 144) (recUlen b.record)
  (s.use t p 0 gc).modSl p (fun c => { c with expanded := c.expanded + 1, codecGc := c.codecGc + gc })

/-- The place in the form of SL_LAST_ERR[47:0] (R364, R675): tier, then LOC. -/
def placeDetail (remote : Bool) (loc : Nat) : Nat := (if remote then 2 else 1) * 2 ^ 46 + loc % 2 ^ 46

/-- Counts a failed block in SL_ERR and SL_LAST_ERR (R352, R363, R364). -/
def countFailed (p : Nat) (st : Status) (remote : Bool) (loc : Nat) (s : State) : State :=
  let s1 := s.modSl p (fun c => { c with
    expanded := c.expanded + 1,
    errLen := if st = .lengthMismatch then satBv c.errLen 1 else c.errLen,
    errCode := if st = .codeInvalid then satBv c.errCode 1 else c.errCode,
    errCrc := if st = .crcFail then satBv c.errCrc 1 else c.errCrc,
    errKey := if st = .keyInvalid then satBv c.errKey 1 else c.errKey })
  { s1 with sleeper := { s1.sleeper with last :=
    { valid := true, part := BitVec.ofNat 2 p, status := st.code, tier := if remote then 2 else 1, place := BitVec.ofNat 46 loc } } }

/-! ## The codec's Stands and keys -/

/-- Whether a partition has a CODEC Stand (R358). -/
def hasCodec (p : Nat) (s : State) : Bool := !(standsOf p 1 s).isEmpty

/-- A tenant's key indices (R732). -/
def State.keysOf (s : State) (t : Nat) : Keys := tget s.flash.keys t {}

/-- The index check 5 of R349 compares with. A device unlocked for debug holds no derived key, and no index of a record matches
(R739). (DEDUCED, log entry 82.) -/
def State.keyInForce (s : State) (t : Nat) (remote : Bool) : Nat :=
  if s.trust.unlocked then 0x10000 else if remote then (s.keysOf t).remote.toNat else (s.keysOf t).ddr.toNat

/-- A tenant's Sleeper key for a tier and an index, the data key then the tweak key (R346, R731). -/
def sleeperKey (s : State) (t : Nat) (remote : Bool) (i : Nat) : List Byte :=
  let index : List Byte := byteOf t :: leBytes 2 i
  if remote then hkdf (Config.fabricKey (s.keysOf t).fabric.toNat) [] (ascii "REMOTE DATA" ++ index) 64
  else hkdf Config.memoryRoot [] (ascii "DDR5 DATA" ++ index) 64

/-- A tenant's DDR5 integrity key (R456, R731). -/
def ddrMacKey (t : Nat) : List Byte := hkdf Config.memoryRoot [] (ascii "DDR5 MAC" ++ [byteOf t]) 32

/-- A partition has no Stand of a duty its work needs: the fault of source 0x08 (R358, R632, R663). -/
def dutyEmpty (p : Nat) (w : Work) (s : State) : State :=
  let r := raiseErr { cls := 2, source := 0x08, domain := 0xFF, cause := 0xFF, detail0 := p, ctx := some w.context, tenant := w.tenant,
                      part := w.part, who := w.fn, waits := [.work w.wid] } s
  complete w .internal 0 r.1 r.2

/-- A block fails a check other than check 4: the fault of R351. The answer carries the record's number. -/
def blockFault (source : Nat) (st : Status) (w : Work) (remote : Bool) (loc station : Nat) (injected : Bool) (unit : Nat) (s : State) :
    State × BitVec 16 :=
  raiseErr { cls := 2, source, domain := 20 + station, cause := st.code, detail0 := placeDetail remote loc, detail1 := unit,
             ctx := some w.context, tenant := w.tenant, part := w.part, who := w.fn, waits := [.work w.wid], injected } s

/-- The order in which a failed operation reports its blocks (R352). -/
def worseBlock (a b : Status) : Status :=
  let rank (x : Status) : Nat := match x with
    | .lengthMismatch => 1 | .codeInvalid => 2 | .crcFail => 3 | .keyInvalid => 4 | .poisonConsumed => 5 | .ok => 9 | _ => 6
  if rank a ≤ rank b then a else b

end Sys2Proof.Machine
end

