-- ==== Sys2Proof/Machine/Units.lean ====
section
/-! DEFINITION. What an attention operation is cut into: its fields (R299, R312), its sequence records (R297), its buckets, spans and work
units (R300, R303, R310), and the pages a unit reads, in order. -/

namespace Sys2Proof.Machine

/-! ## Sequence records (R297) -/

structure SeqRec where
  list      : Nat
  length    : Nat
  qRow      : Nat
  qCount    : Nat
  window    : Nat
  pending   : Nat
  dkvRow    : Nat
  aux       : Nat
  ancestors : Nat
deriving DecidableEq, Repr

/-- Sequence record i of a table. -/
def seqRec (s : State) (table : Ref) (i : Nat) : SeqRec :=
  let n (o k : Nat) : Nat := refNum s table (64 * i + o) k
  { list := n 0 8, length := n 8 4, qRow := n 12 4, qCount := n 16 4, window := n 20 4, pending := n 24 2, dkvRow := n 28 4,
    aux := n 32 8, ancestors := n 40 8 }

def seqRecs (s : State) (table : Ref) (n : Nat) : List SeqRec := (List.range n).map (seqRec s table)

/-! ## Fields -/

/-- The fields of ATTEND and ATTEND_BACKWARD (R299, R312). -/
structure AttOp where
  back   : Bool
  layer  : Nat
  group  : Nat
  qFmt   : Nat
  oFmt   : Nat
  flag   : Bool
  span   : Nat
  xk     : Nat
  n      : Nat
  scale  : Nat
  kScale : Nat
  vScale : Nat
  table  : Ref
  q      : Ref
  o      : Ref
  stats  : Ref
  dO     : Ref := .none
  dq     : Ref := .none
  dk     : Ref := .none
  dv     : Ref := .none

def attOf (w : Work) (s : State) : AttOp :=
  let d := w.body
  if w.opcode = 0x32 then
    { back := false, layer := dat d 8 16, group := dat d 10 8, qFmt := dat d 11 4, oFmt := dat d 11 8 / 16, flag := (dat d 12 8).testBit 0,
      span := dat d 13 8, xk := dat d 14 8, n := dat d 16 32, scale := dat d 20 32, kScale := dat d 56 32, vScale := dat d 60 32,
      table := refAt d 24, q := refAt d 32, o := refAt d 40, stats := refAt d 48 }
  else
    let p := refAt d 8
    let n (o k : Nat) : Nat := refNum s p o k
    { back := true, layer := n 68 2, group := n 70 1, qFmt := n 71 1 % 16, oFmt := n 71 1 / 16, flag := true, span := 0xFF, xk := 0xFF,
      n := n 64 4, scale := n 72 4, kScale := n 76 4, vScale := n 80 4, table := refOf (n 0 8), q := refOf (n 8 8), o := refOf (n 16 8),
      stats := refOf (n 32 8), dO := refOf (n 24 8), dq := refOf (n 40 8), dk := refOf (n 48 8), dv := refOf (n 56 8) }

/-- The sequences an operation names. -/
def attRecs (w : Work) (s : State) : List SeqRec :=
  let a := attOf w s
  if a.n > 4096 then [] else seqRecs s a.table a.n

/-- Ones among the low `n` bits of a number. -/
def popcount (x n : Nat) : Nat := ((List.range n).filter (fun i => x.testBit i)).length

/-- The ancestor mask of pending row i (R301). -/
def maskAt (s : State) (q : SeqRec) (i : Nat) : Nat := refNum s (refOf q.ancestors) (8 * i) 8

/-! ## Buckets, spans and units -/

/-- The bucket of a length (R310, R397). -/
def bucketOf (p len : Nat) (s : State) : Nat := ((s.ttregs p).buckets.filter (fun b => decide (b ≤ len))).length

/-- The bucket of sequence i: a step's own, or that of its LENGTH (R310). -/
def seqBucket (w : Work) (s : State) (i : Nat) (q : SeqRec) : Nat :=
  match w.src with
  | .step p _ => match (s.stepOf p).bind (fun x => x.seqs[i]?) with
    | some e => e.bucket
    | none => bucketOf w.part q.length s
  | .ring _ _ => bucketOf w.part q.length s

/-- Blocks per span (R299, R310, R331). -/
def spanLen (w : Work) (s : State) (i : Nat) (q : SeqRec) : Nat :=
  let a := attOf w s
  2 ^ (if a.span = 0xFF then min 12 (fld s.mem.kvSpan.toNat (4 * seqBucket w s i q) 4) else a.span)

/-- The committed positions that query token j attends: the first, and one past the last (R300, R301). -/
def attended (s : State) (q : SeqRec) (j : Nat) : Nat × Nat :=
  let p := if q.pending = 0 then q.length - q.qCount + j else q.length + popcount (maskAt s q j) 64 - 1
  let lo := if q.window = 0 then 0 else p + 1 - q.window
  (lo, if q.pending = 0 then p + 1 else q.length)

/-- Query tiles, spans and heads of a sequence (R303). -/
def tilesOfSeq (a : AttOp) (q : SeqRec) : Nat := ceilDiv (q.qCount * a.group) 128
def spansOfSeq (q : SeqRec) (t sp : Nat) : Nat := max 1 (ceilDiv (ceilDiv q.length t) sp)

/-- The tokens of a query tile: first and one past the last. -/
def tileTokens (a : AttOp) (q : SeqRec) (tile : Nat) : Nat × Nat :=
  (128 * tile / a.group, min q.qCount (ceilDiv (128 * (tile + 1)) a.group))

/-- Whether any token of a tile attends any position of a block; the pending block is attended by every tile (R303, R305). -/
def blockUsed (s : State) (q : SeqRec) (t j0 j1 b : Nat) : Bool :=
  (List.range (j1 - j0)).any (fun k => let r := attended s q (j0 + k); decide (max r.1 (b * t) < min r.2 ((b + 1) * t)))

/-- The blocks of a span that a tile reads (R303). -/
def unitBlocks (a : AttOp) (s : State) (q : SeqRec) (t sp tile span : Nat) : List Nat :=
  let r := tileTokens a q tile
  ((List.range sp).map (span * sp + ·)).filter (fun b => decide (b < ceilDiv q.length t) && blockUsed s q t r.1 r.2 b)

/-- The number of a unit: sequence, head, tile and span. (DEDUCED, log entry 46.) -/
def unitNo (seq head tile span : Nat) : Nat := seq + 2 ^ 12 * head + 2 ^ 18 * tile + 2 ^ 38 * span

/-- The units of a sequence (R303): those with a block to read, or the pending rows in the last span. -/
def unitsOf (w : Work) (s : State) (i : Nat) (q : SeqRec) : List Nat :=
  let a := attOf w s
  match listAt s q.list with
  | none => []
  | some h =>
    let t := geoT h.geometry
    let sp := spanLen w s i q
    let ns := spansOfSeq q t sp
    (List.range h.kvHeads).flatMap (fun hd => (List.range (tilesOfSeq a q)).flatMap (fun tl => (List.range ns).filterMap (fun sn =>
      if !(unitBlocks a s q t sp tl sn).isEmpty || (decide (q.pending > 0) && sn + 1 == ns) then some (unitNo i hd tl sn) else none)))

/-- The parts of a unit's number. -/
def unitSeq (u : Nat) : Nat := fld u 0 12
def unitHead (u : Nat) : Nat := fld u 12 6
def unitTile (u : Nat) : Nat := fld u 18 20
def unitSpan (u : Nat) : Nat := u / 2 ^ 38

/-- The number a page's block is delivered under. -/
def pageBlockNo (seq n j : Nat) : Nat := 2 ^ 60 * seq + 16 * n + j

/-- The pages of a unit in the order of its blocks (R303, R304). -/
def unitPages (w : Work) (s : State) (q : SeqRec) (h : ListHdr) (u : Nat) : List Nat :=
  let a := attOf w s
  (unitBlocks a s q (geoT h.geometry) (spanLen w s (unitSeq u) q) (unitTile u) (unitSpan u)).map (fun b => pageIdx h b a.layer (unitHead u))

end Sys2Proof.Machine
end

