-- ==== Sys2Proof/Machine/Tier.lean ====
section
/-! DEFINITION. Blocks of the lower tiers: DDR5 places and what binds them (R448, R449, R456), reads of blocks (R326, R451, R537,
R562), the DDR5 check bits (R455 to R457), the expand queue (R360) and what a delivered block does (R321, R328, R473). -/

namespace Sys2Proof.Machine

/-! ## Places -/

/-- The tier place of place q of a region (R449). -/
def tierPlace (r : DdrRegion) (q : Nat) : Nat := 512 * nth r.map (q / 512) 0 + q % 512

/-- Places of a region below its record places (R340, R449). -/
def blockPlaces (r : DdrRegion) : Nat := 512 * r.units - 2 * r.units

/-- The number of the record chunk that holds the record of place q, and the record's byte in it (R340, R456). -/
def recordChunk (r : DdrRegion) (q : Nat) : Nat × Nat := (8 * tierPlace r (blockPlaces r + q / 256) + q % 256 / 32, 16 * (q % 32))

/-- The channel of a tier place (R447, R448). -/
def placeChannel (s : State) (g : Nat) : Nat :=
  let k := g % max 1 s.ddr.channels
  if s.ddr.channels = 6 ∧ k ≥ 3 then k + 3 else k

/-- The Station joined to a channel's Yard (R767). -/
def channelStation (c : Nat) : Nat := if c < 6 then 0 else 1

/-- A place in the LOC form of SL_LAST_ERR (R364). -/
def placeLoc (region q : Nat) : Nat := region * 2 ^ 38 + q * 4096

/-! ## Chunks and their MACs (R454 to R458) -/

/-- The MAC of a chunk: the leading 64 bits of AES-CMAC over its tier byte address, the region's GEN and identifier, its length and its bytes,
under the tenant's integrity key (R456). Chunk number n lies at byte 512n of the tier. -/
def chunkMac (id : Nat) (r : DdrRegion) (n : Nat) (bytes : List Byte) : W64 :=
  BitVec.ofNat 64 (ofBytes ((cmac (ddrMacKey r.tenant)
    (leBytes 8 (512 * n) ++ leBytes 4 r.gen.toNat ++ [byteOf id] ++ leBytes 2 bytes.length ++ bytes)).take 8))

/-- The 16 side-band bytes of line k of a chunk: the line code, then the MAC on the first line and zero on every other (R454). -/
def sideBand (c : Chunk) (k : Nat) : List Byte :=
  let mac := if k = 0 then leBytes 8 c.mac.toNat else List.replicate 8 0
  leBytes 8 (Config.lineCode ((c.bytes.drop (64 * k)).take 64 ++ mac)).toNat ++ mac

/-- A chunk written with its MAC. -/
def writeChunk (id n : Nat) (bytes : List Byte) (s : State) : State :=
  { s with ddr := { s.ddr with chunks := tput s.ddr.chunks n { bytes, mac := chunkMac id (s.ddrRegion id) n bytes } {} } }

/-- A chunk of a length as it was read: its bytes, if its MAC matches (R457). -/
def checkedChunk (id : Nat) (r : DdrRegion) (n len : Nat) (c : Chunk) : Option (List Byte) :=
  let bytes := c.bytes.take len
  if bytes.length = len ∧ 0 < len ∧ c.mac = chunkMac id r n bytes then some bytes else none

/-- What a chunk came back as: as it is stored, unless the observation gives it otherwise. -/
def cameBack (s : State) (n k : Nat) (obs : DdrObs) : Chunk :=
  match obs.changed.find? (fun x => x.1 == k) with
  | some x => x.2
  | none => tget s.ddr.chunks n {}

/-- Chunks of a block's S stored bytes: number and length (R456). -/
def chunkLens (stored : Nat) : List (Nat × Nat) := (List.range (ceilDiv stored 512)).map (fun j => (j, min 512 (stored - 512 * j)))

/-- Check 1 of R349 for place q of a region: the block, or the status of R457 with the lines or chunks that failed. -/
def placeCheck (s : State) (id q : Nat) (obs : DdrObs) : Except (Status × Nat) Block :=
  let r := s.ddrRegion id
  let g := 8 * tierPlace r q
  let rc := recordChunk r q
  if obs.uncorr > 0 then .error (.poisonConsumed, obs.uncorr) else
  match checkedChunk id r rc.1 512 (cameBack s rc.1 8 obs) with
  | none => .error (.crcFail, 1)
  | some rs =>
    let record := BitVec.ofNat 128 (ofBytes ((rs.drop rc.2).take 16))
    let parts := (chunkLens (min 4096 (recStored record))).map (fun x => checkedChunk id r (g + x.1) x.2 (cameBack s (g + x.1) x.1 obs))
    if parts.any (·.isNone) then .error (.crcFail, (parts.filter (·.isNone)).length)
    else .ok { record, stored := parts.flatMap (fun p => p.getD []) }

/-- Writes the record of place q: its chunk is read, checked, changed and written back with a new MAC; a chunk that fails its check is left, and
goes on to fail (R458). (DESIGN CHOICE, log entry 103.) -/
def writeRecord (id q : Nat) (record : BitVec 128) (s : State) : State :=
  let r := s.ddrRegion id
  let rc := recordChunk r q
  match checkedChunk id r rc.1 512 (tget s.ddr.chunks rc.1 {}) with
  | some rs => writeChunk id rc.1 (rs.take rc.2 ++ leBytes 16 record.toNat ++ rs.drop (rc.2 + 16)) s
  | none => s

/-- Writes a block into place q of a region: its stored bytes in chunks, then its record, with their MACs (R346, R347, R456). -/
def writePlace (id q : Nat) (b : Block) (s : State) : State :=
  let g := 8 * tierPlace (s.ddrRegion id) q
  writeRecord id q b.record ((chunkLens b.stored.length).foldl (fun s x => writeChunk id (g + x.1) ((b.stored.drop (512 * x.1)).take x.2) s) s)

/-- Writes every record place of a region as zeros with valid MACs (R458). -/
def initRecords (id : Nat) (s : State) : State :=
  let r := s.ddrRegion id
  (List.range (2 * r.units)).foldl (fun s p => (List.range 8).foldl (fun s j =>
    writeChunk id (8 * tierPlace r (blockPlaces r + p) + j) (List.replicate 512 0) s) s) s

/-! ## Delivery -/

/-- One block of an MT_LOAD: its plaintext, or poison in its destination lines (R473). -/
def loadBlock (w : Work) (b : BlockOp) (i : Nat) (res : Except Status (List Byte)) (fr : BitVec 16) (s : State) : State :=
  let dest := refAt w.body 8
  let s1 := match res with
    | .ok plain => refWrite dest (4096 * i) plain s
    | .error _ => refPoison dest (4096 * i) 4096 s
  let b' := { b with
    ended := b.ended + 1, delivered := b.delivered + (match res with | .ok _ => 1 | .error _ => 0),
    worst := (match res with | .ok _ => b.worst | .error e => worseBlock b.worst e), faultRef := if b.faultRef = 0 then fr else b.faultRef }
  if b'.ended ≥ b'.total then complete w b'.worst b'.delivered s1 b'.faultRef else s1.setProg w.wid (.fetching b')

/-- One block of a KV_FETCH; the last of a page rewrites its entry to HBM, or returns the page when one of its blocks failed
(R321, R353). -/
def fetchBlock (w : Work) (b : BlockOp) (i : Nat) (res : Except Status (List Byte)) (fr : BitVec 16) (s : State) : State :=
  match listAt s (dat w.body 8 64), b.pages[i / 16]? with
  | some h, some (n, page) =>
    let pool := (s.region h.pool).getD h.region
    let s1 := match res with
      | .ok plain => regionWrite pool (65536 * page + 4096 * (i % 16)) plain s
      | .error _ => s
    let bad := match res with | .ok _ => b.badPages | .error _ => if b.badPages.any (· == i / 16) then b.badPages else b.badPages ++ [i / 16]
    let idx := b.endedIdx ++ [i]
    let whole := decide ((idx.filter (fun k => k / 16 == i / 16)).length = 16)
    let s2 := if !whole then s1
      else if bad.any (· == i / 16) then returnPages h.pool [page] s1
      else putEnt h n { tier := 0, frozen := true, keyslot := 0, loc := locOf h.pool page } s1
    let b' := { b with
      ended := b.ended + 1, delivered := b.delivered + (match res with | .ok _ => 1 | .error _ => 0), badPages := bad, endedIdx := idx,
      worst := (match res with | .ok _ => b.worst | .error e => worseBlock b.worst e), faultRef := if b.faultRef = 0 then fr else b.faultRef }
    if b'.ended ≥ b'.total then finishOp w (opInfo w b'.worst []) 0 s2 b'.faultRef else s2.setProg w.wid (.fetching b')
  | _, _ => s

/-- A block reaches its consumer: a load, a fetch, or a unit or coder that waits for it (R321, R326, R328, R360). -/
def deliver (tgt : ReadFor) (res : Except Status (List Byte)) (fr : BitVec 16) (s : State) : State :=
  match s.item tgt.wid with
  | none => s
  | some w =>
    match w.prog with
    | .fetching b => if w.opcode = 0x55 then loadBlock w b tgt.block res fr s else fetchBlock w b tgt.block res fr s
    | .attend o =>
      { s.setProg w.wid (.attend { o with cnt := { o.cnt with faultRef := if o.cnt.faultRef = 0 then fr else o.cnt.faultRef } }) with
        sleeper := { s.sleeper with bufs := s.sleeper.bufs ++ [{ forw := tgt, plain := (match res with | .ok p => some p | .error _ => none) }] } }
    | .coding _ | .remoteAck _ =>
      { s with sleeper := { s.sleeper with bufs := s.sleeper.bufs ++ [{ forw := tgt, plain := (match res with | .ok p => some p | .error _ => none) }] } }
    | _ => s

/-- The delivery a consumer waits for, if it has come. -/
def delivered (s : State) (tgt : ReadFor) : Option Delivered := s.sleeper.bufs.find? (fun d => d.forw == tgt)

/-- Drops a delivery that has been used. -/
def dropBuf (tgt : ReadFor) (s : State) : State :=
  { s with sleeper := { s.sleeper with bufs := s.sleeper.bufs.filter (fun d => d.forw != tgt) } }

/-! ## Starting reads -/

/-- Adds a read to those in progress. -/
def addRead (f : Nat → BlockRead) (s : State) : State :=
  { s with sleeper := { s.sleeper with reads := s.sleeper.reads ++ [f s.sleeper.nextId], nextId := s.sleeper.nextId + 1 } }

/-- Drops a read. -/
def dropRead (rid : Nat) (s : State) : State :=
  { s with sleeper := { s.sleeper with reads := s.sleeper.reads.filter (fun r => r.rid != rid) } }

/-- Whether two reads are of one consumer: of one operation, and for attention of one of its sequences (R360). (DESIGN CHOICE, log entry 106.) -/
def sameConsumer (a b : ReadFor) : Bool := a.wid == b.wid && a.block / 2 ^ 60 == b.block / 2 ^ 60

/-- The oldest request of a consumer that has not been delivered. -/
def oldestRead (tgt : ReadFor) (s : State) : Option BlockRead :=
  (s.sleeper.reads.filter (fun r => sameConsumer r.forw tgt)).foldl (fun best r => match best with
    | some b => if r.rid < b.rid then some r else some b
    | none => some r) none

/-- How a read ended, as its consumer takes it. -/
def ReadEnd.res (e : ReadEnd) : Except Status (List Byte) := match e.plain with | some p => .ok p | none => .error e.status

/-- The end of a read. -/
def ReadEnd.of (res : Except Status (List Byte)) (fr : BitVec 16) : ReadEnd :=
  match res with
  | .ok p => { plain := some p, fr }
  | .error st => { plain := none, status := st, fr }

/-- Delivers a consumer's blocks in request order, as far as they have ended (R360). -/
def flushReads (tgt : ReadFor) : Nat → State → State
  | 0, s => s
  | n + 1, s =>
    match oldestRead tgt s with
    | some rd => (match rd.ended with
      | some e => flushReads tgt n (deliver rd.forw e.res e.fr (dropRead rd.rid s))
      | none => s)
    | none => s

/-- A read ends: its block is delivered once its consumer's earlier requests have been (R360). -/
def endRead (rid : Nat) (res : Except Status (List Byte)) (fr : BitVec 16) (s : State) : State :=
  match s.sleeper.reads.find? (fun r => r.rid == rid) with
  | some rd => flushReads rd.forw s.sleeper.reads.length { s with sleeper := { s.sleeper with
      reads := s.sleeper.reads.map (fun r => if r.rid = rid then { r with ended := some (.of res fr) } else r) } }
  | none => s

/-- A read that ends as it is requested. -/
def refusedRead (w : Work) (i : Nat) (remote : Bool) (st : Status) (s : State) : State :=
  endRead s.sleeper.nextId (.error st) 0 (addRead (fun n =>
    { rid := n, part := w.part, tenant := w.tenant, forw := { wid := w.wid, block := i }, remote, region := 0, place := 0 }) s)

/-- Whether R451 lets a tenant read place q of a region. -/
def mayRead (id q tenant : Nat) (s : State) : Bool :=
  let r := s.ddrRegion id
  r.st == .sealed && r.tenant == tenant && decide (q < blockPlaces r)

/-- Reads place q of a DDR5 region for block i of a work item; a refused read delivers poison (R451, R453). -/
def ddrRead (w : Work) (i id q : Nat) (s : State) : State :=
  if mayRead id q w.tenant s then
    addRead (fun n => { rid := n, part := w.part, tenant := w.tenant, forw := { wid := w.wid, block := i }, remote := false, region := id, place := q })
      (s.modDdr id (fun r => { r with inFlight := r.inFlight + 1, lastUse := s.clk.sc }))
  else
    refusedRead w i false .poisonConsumed { s with ddr := { s.ddr with refused := s.ddr.refused + 1 } }

/-- The packet of an access to a remote place through a key slot. -/
def pagePacket (s : State) (op : BitVec 4) (k : KeySlot) (loc : Nat) (bs : List Block) : Packet :=
  { op, last := true, dstConn := 0, srcConn := 0, srcInc := s.rail.inc, dstInc := knownInc k.node s, mseq := (s.conn 0).nextMseq,
    mlen := 4096, rkey := k.regionKey, raddr := loc, ctl := some (pageCtl s bs), cls := some k.cls }

/-- Reads the remote place at a LOC through a key slot; a cleared slot, another tenant's, or a slot of another node delivers
poison (R325, R328, R537). (DEDUCED, log entry 44.) -/
def remoteRead (w : Work) (i slot loc : Nat) (s : State) : State :=
  let k := s.keySlot slot
  if !k.bound ∨ k.tenant ≠ w.tenant ∨ addrNode loc ≠ k.node then
    refusedRead w i true .keyInvalid s
  else
    let m := (s.conn 0).nextMseq
    post 0 [(k.node, pagePacket s 3 k loc [])] ((addRead (fun n =>
      { rid := n, part := w.part, tenant := w.tenant, forw := { wid := w.wid, block := i }, remote := true, region := k.node, place := loc,
        mseq := m, slot }) s).modConn 0 (fun c => { c with nextMseq := c.nextMseq + 1 }))

/-- Reads block j of the page an entry names, for block i of a work item. -/
def readPageBlock (w : Work) (i : Nat) (e : PageEnt) (j : Nat) (s : State) : State :=
  if e.tier = 1 then ddrRead w i (locRegion e.loc) (16 * locPage e.loc + j) s
  else if e.tier = 2 then remoteRead w i e.keyslot (e.loc / 65536 * 65536 + 4096 * j) s
  else s

/-- Reads the 16 blocks of the page an entry names; `base` is the number of its first block. -/
def readPage (w : Work) (base : Nat) (e : PageEnt) (s : State) : State :=
  (List.range 16).foldl (fun s j => readPageBlock w (base + j) e j s)
    { s with mem := { s.mem with kvLower := s.mem.kvLower + 1 } }

/-! ## Reading ahead (R326) -/

/-- Whether a page has reached a unit: it is in HBM, it is no page, or its 16 blocks have been delivered. -/
def pageCome (w : Work) (s : State) (h : ListHdr) (seq n : Nat) : Bool :=
  let e := pageEnt s h n
  !(e.tier == 1 || e.tier == 2) ||
  (List.range 16).all (fun j => (delivered s { wid := w.wid, block := pageBlockNo seq n j }).isSome)

/-- Whether a page's reads have been started. -/
def pageAsked (w : Work) (s : State) (seq n : Nat) : Bool :=
  let mine (f : ReadFor) : Bool := f.wid == w.wid && f.block / 16 == pageBlockNo seq n 0 / 16
  s.sleeper.reads.any (fun r => mine r.forw) || s.sleeper.bufs.any (fun d => mine d.forw)

/-- Starts the lower-tier reads of a running unit, up to PREFETCH blocks ahead of the block it computes (R326, R331). -/
def readAhead (w : Work) (unit : Nat) (s : State) : State :=
  let i := unitSeq unit
  match (attRecs w s)[i]? with
  | none => s
  | some q => match listAt s q.list with
    | none => s
    | some h =>
      let ns := unitPages w s q h unit
      ns.zipIdx.foldl (fun s x =>
        let at_ := (ns.takeWhile (pageCome w s h i)).length
        if pageCome w s h i x.1 || pageAsked w s i x.1 || decide (x.2 > at_ + max 1 s.mem.prefetch.toNat) then s
        else readPage w (pageBlockNo i x.1 0) (pageEnt s h x.1) s) s

/-- The running units of an attention operation read on. -/
def readOn (wid : Nat) (s : State) : State :=
  match s.item wid with
  | some w => (match w.prog with
    | .attend o => (o.parts.filter (fun t => t.running.isSome)).foldl (fun s t => readAhead w t.idx s) s
    | _ => s)
  | none => s

/-- A read ends, and the units it serves read on. -/
def endReadOn (rd : BlockRead) (res : Except Status (List Byte)) (fr : BitVec 16) (s : State) : State :=
  readOn rd.forw.wid (endRead rd.rid res fr s)

/-! ## Reads that return -/

/-- The read numbered, if it is in progress. -/
def State.readNo (s : State) (rid : Nat) : Option BlockRead := s.sleeper.reads.find? (fun r => r.rid == rid)

/-- A read's stored bytes arrive: it joins the end of its partition's queue (R360). -/
def arrive (rd : BlockRead) (b : Block) (station : Nat) (s : State) : State :=
  { s with sleeper := { s.sleeper with
      reads := s.sleeper.reads.filter (fun r => r.rid != rd.rid) ++ [{ rd with arrived := some b, station }] } }

/-! ## The channels' order (R479) -/

/-- The reads a channel has not served, in arrival order. -/
def channelReads (s : State) (ch : Nat) : List BlockRead :=
  s.sleeper.reads.filter (fun r => !r.remote && r.arrived.isNone && r.ended.isNone && placeChannel s (tierPlace (s.ddrRegion r.region) r.place) == ch)

/-- Fixed-slice mode. -/
def fixedMode (s : State) : Bool := match s.img.image with | some i => i.fixed | none => false

/-- The partition whose slot of 64 DCTL cycles a channel serves: DCTL has 8, 7 or 6 cycles in an ac by DDR_RATE (R50, R60), and the rotation is
counted from ac 0. (DESIGN CHOICE, log entry 104.) -/
def slotPart (s : State) : Nat := s.clk.ac * (8 - s.clk.ddrRate.toNat) / 64 % max 1 s.partitions

/-- A read is the next of its channel: in shared mode the oldest; in fixed-slice mode the oldest of its partition (R479). -/
def nextOnChannel (s : State) (rd : BlockRead) : Bool :=
  let ch := placeChannel s (tierPlace (s.ddrRegion rd.region) rd.place)
  ((channelReads s ch).find? (fun r => !fixedMode s || r.part == rd.part)).map (fun r => r.rid) == some rd.rid

/-- Its channel serves a read now: it is next, and in fixed-slice mode the slot is its partition's (R479). -/
def servedNow (s : State) (rd : BlockRead) : Bool := nextOnChannel s rd && (!fixedMode s || slotPart s == rd.part)

/-- Two inverted checks in a row: a check and its re-read (R455, R457, R710). -/
def injectTwice (checker unit : Nat) (s : State) : Bool × State :=
  let a := injectHit checker unit s
  if a.1 then injectHit checker unit a.2 else a

/-- Counts what failed check 1: uncorrectable lines, or chunks by their MAC (R457). -/
def countDdrFail (f : Status × Nat) (d : Ddr) : Ddr :=
  if f.1 = .poisonConsumed then { d with ue := d.ue + f.2 } else { d with macFail := d.macFail + f.2 }

/-- Check 1 of a block as an armed injection leaves it (R455, R457, R710). -/
def injectedCheck (line mac : Bool) (res : Except (Status × Nat) Block) : Except (Status × Nat) Block :=
  if line then .error (.poisonConsumed, 1) else if mac then .error (.crcFail, 1) else res

/-- Lines' or chunks' checks fail after their re-read: the counter and the fault of source 0x04 (R457, R675). -/
def ddrFault (rd : BlockRead) (f : Status × Nat) (channel : Nat) (injected : Bool) (s : State) : State × BitVec 16 :=
  let st := f.1
  let s1 := { s with ddr := countDdrFail f s.ddr }
  let s2 := countFailed rd.part st false (placeLoc rd.region rd.place) s1
  match s.item rd.forw.wid with
  | some w => blockFault 0x04 st w false (placeLoc rd.region rd.place) (channelStation channel) injected channel s2
  | none => (s2, 0)

/-- DDR5 lines return in their channel's order (R455, R457, R458, R479): corrected lines are counted; the block arrives, or fails check 1 and delivers
poison. -/
def execDdr5ReadReturn (rid : Nat) (obs : DdrObs) (s : State) : Host.Outcome State Fault Refusal :=
  actIf s s.awake (fun s => match s.readNo rid with
    | none => s
    | some rd =>
      if rd.remote ∨ rd.arrived.isSome ∨ rd.ended.isSome ∨ !servedNow s rd then s else
      let ch := placeChannel s (tierPlace (s.ddrRegion rd.region) rd.place)
      let res := placeCheck s rd.region rd.place obs
      let s1 : State :=
        { s with
          ddr := { s.ddr with ce := s.ddr.ce + obs.corrected },
          ft := { s.ft with corrected := tmod s.ft.corrected 4 0 (· + obs.corrected) } }
      let s2 := s1.modDdr rd.region (fun r => { r with inFlight := r.inFlight - 1 })
      let line := injectTwice 0x06 ch s2
      let mac := injectTwice 0x07 ch line.2
      match injectedCheck line.1 mac.1 res with
      | .ok b => arrive rd b (channelStation ch) mac.2
      | .error st =>
        let f := ddrFault rd st ch (line.1 || mac.1) mac.2
        endReadOn rd (.error st.1) f.2 f.1)

/-- A piece of a remote page's response: with the last of them the block arrives, checked by the Station of the Lantern that piece came on, or
the read ends in poison (R550, R562, R767). -/
def pageResp (lantern src : Nat) (p : Packet) (s : State) : State :=
  match s.sleeper.reads.find? (fun r => r.remote && r.arrived.isNone && r.ended.isNone && r.mseq == p.mseq && r.region == src) with
  | none => s
  | some rd =>
    if rd.pieces.any (fun x => x.1 == p.offset) then s else
    let rd' := { rd with pieces := rd.pieces ++ [(p.offset, p.dlen, p.poison)] }
    if (rd'.pieces.map (fun x => x.2.1)).sum ≠ p.mlen.toNat then
      { s with sleeper := { s.sleeper with reads := s.sleeper.reads.map (fun r => if r.rid = rd.rid then rd' else r) } }
    else match (if rd'.pieces.any (fun x => x.2.2) then none
        else p.ctl.bind (fun c => match c.body with | .data _ (b :: _) => some b | _ => none)) with
      | some b => arrive rd' b (lanternStation lantern) s
      | none => endReadOn rd (.error .poisonConsumed) 0 s

/-- A remote page read is refused by its target (R562). -/
def pageNak (src : Nat) (p : Packet) (s : State) : State :=
  match s.sleeper.reads.find? (fun r => r.remote && r.arrived.isNone && r.ended.isNone && r.mseq == p.mseq && r.region == src) with
  | none => s
  | some rd => endReadOn rd (.error (statusOf (p.mlen.toNat % 256))) 0 s

/-- The stall that a remote read has cost moves to the cause REMOTE_TIMEOUT when it ends by timeout (R478). -/
def stallMoved (rd : BlockRead) (t : Tab W64) : Tab W64 :=
  let part (c : Nat) : Nat := tget rd.waits c 0
  let t1 := [4, 5, 6].foldl (fun t c => tmod t (8 * rd.part + c) 0 (fun v => BitVec.ofNat 64 (v.toNat - part c))) t
  tmod t1 (8 * rd.part + 7) 0 (fun v => satBv v (part 4 + part 5 + part 6))

/-- A remote page read ends by its timeout or the death of its node: poison, and the fault of source 0x06 (R562, R563). -/
def pageLost (rd : BlockRead) (st : Status) (s : State) : State :=
  let s1 : State := if st = .remoteTimeout then { s with ddr := { s.ddr with stall := stallMoved rd s.ddr.stall } } else s
  let r := match s.item rd.forw.wid with
    | some w => raiseErr { cls := 2, source := 0x06, domain := 20 + connStation 0, cause := st.code,
                           detail0 := rd.region + 65536 * rd.slot + 2 ^ 32, detail1 := connStation 0, ctx := some w.context, tenant := w.tenant,
                           part := w.part, who := w.fn, waits := [.work w.wid] } s1
    | none => (s1, 0)
  endReadOn rd (.error st) r.2 r.1

/-- The remote page reads of a work item, or of all, that have not returned. -/
def openRemote (p : BlockRead → Bool) (s : State) : List BlockRead := s.sleeper.reads.filter (fun r => r.remote && r.arrived.isNone && r.ended.isNone && p r)

/-- The first arrived read of a partition (R360). -/
def nextExpand (p : Nat) (s : State) : Option BlockRead := s.sleeper.reads.find? (fun r => r.part == p && r.arrived.isSome && r.ended.isNone)

/-- An idle CODEC Stand takes the next block of its partition's queue, checks it and delivers its plaintext or poison (R349 to
R354, R358, R360, R767). -/
def execBlockExpand (rid : Nat) (s : State) : Host.Outcome State Fault Refusal :=
  actIf s s.awake (fun s => match s.readNo rid with
    | none => s
    | some rd =>
      match rd.arrived, s.item rd.forw.wid with
      | some b, some w =>
        if ((nextExpand rd.part s).map (fun r => r.rid)) ≠ some rid then s
        else if !hasCodec rd.part s then dutyEmpty rd.part w (dropRead rid s)
        else
          let inj := injectHit 0x08 rd.station s
          let loc := if rd.remote then rd.place else placeLoc rd.region rd.place
          match checkBlock (s.keyInForce rd.tenant rd.remote) (sleeperKey s rd.tenant rd.remote) inj.1 b with
          | .ok plain => endReadOn rd (.ok plain) 0 (countExpanded rd.tenant rd.part b inj.2)
          | .error st =>
            let s1 := countFailed rd.part st rd.remote loc inj.2
            if st = .poisonConsumed then endReadOn rd (.error st) 0 s1
            else
              let f := blockFault 0x05 st w rd.remote loc rd.station inj.1 rd.station s1
              endReadOn rd (.error st) f.2 f.1
      | some _, none => dropRead rid s
      | none, _ => s)

end Sys2Proof.Machine
end

