-- ==== Sys2Proof/Machine/Ddr.lean ====
section
/-! DEFINITION. The DDR5 tier's operations (R450, R462 to R474): declaring, sealing, unsealing, retiring and pinning regions,
storing and loading, and the coding of blocks (R346 to R348, R318). -/

namespace Sys2Proof.Machine

/-! ## The pool of units -/

/-- Tier units held by regions. -/
def ddrHeld (s : State) : Nat := (s.ddr.regions.map (fun kv => kv.2.map.length)).sum

/-- MT_DDR_FREE (R480). -/
def ddrFree (s : State) : Nat := s.ddr.units - ddrHeld s

/-- The units in use, in rising order. -/
def unitsUsed (s : State) : List Nat := (s.ddr.regions.flatMap (fun kv => kv.2.map)).foldl (fun l u => insertSorted u l) []

/-- The lowest-numbered free units (R468). -/
def lowestFree (n : Nat) (used : List Nat) : List Nat := (List.range n).map (fun k => nthFree used k)

/-- A tenant's share. -/
def State.share (s : State) (t : Nat) : TenantCap := tget s.ddr.tenants t {}
def State.modShare (s : State) (t : Nat) (f : TenantCap → TenantCap) : State :=
  { s with ddr := { s.ddr with tenants := tmod s.ddr.tenants t {} f } }

/-- Whether a region is eligible for eviction (R464). -/
def evictable (s : State) (r : DdrRegion) : Bool :=
  r.st == .sealed && !r.pin && decide ((s.share r.tenant).used - r.units ≥ (s.share r.tenant).floor.toNat) &&
  decide (r.units ≤ (s.share r.tenant).used)

/-- The units that evictions could free at this moment (R463, test 3). -/
def evictableUnits (s : State) : Nat := ((s.ddr.regions.filter (fun kv => evictable s kv.2)).map (fun kv => kv.2.units)).sum

/-- The next region to evict: least LAST_USE, then lowest REGION_ID (R465). -/
def nextEvict (s : State) : Option Nat :=
  (s.ddr.regions.foldl (fun best kv => if !evictable s kv.2 then best else
    match best with
    | some (k, u) => if kv.2.lastUse < u then some (kv.1, kv.2.lastUse) else some (k, u)
    | none => some (kv.1, kv.2.lastUse)) none).map Prod.fst

/-- The function told of an eviction: the one that declared the region, or the one R395 chooses where it is disabled (R465). -/
def evictFn (r : DdrRegion) (s : State) : Nat :=
  if r.fn = 0 ∨ (r.fn ≤ s.host.numVfs ∧ s.host.vfEnable = true ∧ (s.fn r.fn).disabling = .no) then r.fn else tenantFn r.tenant s

/-- Evicts one region: it retires, is counted and reported (R465). -/
def evict (id : Nat) (s : State) : State :=
  let r := s.ddrRegion id
  let s1 := s.modDdr id (fun r => { r with st := .retiring })
  event (evictFn r s) 0x0500 r.units { s1 with ddr := { s1.ddr with evictions := s1.ddr.evictions + 1 } } 0 (BitVec.ofNat 32 id)

/-! ## One at a time, in fetch order (R470) -/

/-- The opcodes that run one at a time. -/
def tierSerial (op : Byte) : Bool := op == 0x50 || op == 0x51 || op == 0x52 || op == 0x53 || op == 0x56

/-- Whether a tier operation's turn has come. -/
def tierTurn (w : Work) (s : State) : Bool := !s.work.any (fun x => decide (x.wid < w.wid) && tierSerial x.opcode)

/-- A tier operation starts in its turn. -/
def startTier (wid : Nat) (op : Byte) (s : State) (f : Work → State → State) : Host.Outcome State Fault Refusal :=
  start wid op s (fun w s => if tierTurn w s then f w s else s)

/-- The region a tier operation names. -/
def tierRegion (w : Work) : Nat := dat w.body (if w.opcode = 0x54 ∨ w.opcode = 0x55 then 20 else 8) 8

/-- Whether the region of a tier operation is another tenant's (R470). -/
def tierForeign (w : Work) (s : State) : Bool :=
  let r := s.ddrRegion (tierRegion w)
  r.st != .undeclared && r.tenant != w.tenant

/-! ## Declaration -/

/-- What keeps a declaration's fields from being accepted (R468, R474); `map` is what the host's map holds. (DEDUCED, log entry 50.) -/
def declareChecks (w : Work) (map : List Nat) (s : State) : Option (Status × Nat) :=
  let d := w.body
  let u := dat d 12 32
  let restore := (dat d 9 8).testBit 0
  let used := unitsUsed s
  firstFail [
    (tierForeign w s, (.tenantMismatch, 0)),
    ((s.ddrRegion (tierRegion w)).st != .undeclared, (.malformed, 0x01)),
    (u == 0 || decide (u > 131072) ||
      (restore && (map.length != u || map.any (fun x => decide (x ≥ s.ddr.units) || used.any (· == x)) || !decide map.Nodup)), (.malformed, 0x02)),
    (dat d 24 64 % 8 != 0, (.malformed, 0x04)),
    (s.ddr.channels == 0, (.malformed, 0x07))]

/-- The tests of R463: the reason of a refusal. -/
def admitUnits (t u : Nat) (pin : Bool) (s : State) : Option Nat :=
  let x := s.share t
  if x.used + u > x.cap.toNat then some 0x01
  else if pin ∧ x.pinned + u > x.floor.toNat then some 0x04
  else if u > ddrFree s + evictableUnits s then some 0x02
  else none

/-- Allocates the units of a declaration and writes its map (R450, R468). With RESTORE the region is UNSEALED at once; without,
its record places are written first (R458). -/
def declareAlloc (w : Work) (map : List Nat) (s : State) : State :=
  let d := w.body
  let id := tierRegion w
  let u := dat d 12 32
  let flags := dat d 9 8
  let m := if flags.testBit 0 then map else lowestFree u (unitsUsed s)
  let r : DdrRegion :=
    { st := if flags.testBit 0 then .unsealed else .undeclared, pin := flags.testBit 1, tenant := w.tenant, units := u,
      keyIdx := (s.keysOf w.tenant).ddr, gen := BitVec.ofNat 32 (dat d 16 32), map := m, fn := w.fn }
  let s1 := (s.modDdr id (fun _ => r)).modShare w.tenant (fun x => { x with
    used := x.used + u, pinned := x.pinned + (if flags.testBit 1 then u else 0) })
  if flags.testBit 0 then complete w .ok u s1
  else (s1.emit (.hostWrite w.fn (dat d 24 64) (m.flatMap (leBytes 4)))).setProg w.wid (.ddrInit id)

/-- A declaration allocates once enough units are free, and evicts one more region until they are (R465). -/
def declareGo (w : Work) (map : List Nat) (s : State) : State :=
  let u := dat w.body 12 32
  if ddrFree s ≥ u then declareAlloc w map s
  else match nextEvict s with
    | some id => (evict id s).setProg w.wid (.ddrEvict u map)
    | none => s.setProg w.wid (.ddrEvict u map)

/-- Declares a region (R450, R463 to R468). -/
def execMtDdrDeclare (wid : Nat) (map : List Nat) (s : State) : Host.Outcome State Fault Refusal :=
  startTier wid 0x50 s (fun w s => match declareChecks w map s with
    | some (st, r) => complete w st r s
    | none => match admitUnits w.tenant (dat w.body 12 32) ((dat w.body 9 8).testBit 1) s with
      | some r => complete w .admitMemory r s
      | none => declareGo w map s)

/-- The record places of a new region are written (R458): it is UNSEALED and the declaration completes. -/
def execDdrRecordInitComplete (wid : Nat) (s : State) : Host.Outcome State Fault Refusal :=
  resume wid s (fun p => match p with | .ddrInit id => some id | _ => none) (fun w id s =>
    let s1 := s.modDdr id (fun r => { r with st := .unsealed })
    complete w .ok (s.ddrRegion id).units (initRecords id s1))

/-! ## State changes -/

/-- The checks of MT_DDR_SEAL, MT_DDR_UNSEAL, MT_DDR_RETIRE and MT_DDR_PIN (R450, R474); `ok` says from which states. -/
def regionChecks (w : Work) (ok : DdrState → Bool) (s : State) : Option (Status × Nat) :=
  let r := s.ddrRegion (tierRegion w)
  firstFail [
    (tierForeign w s, (.tenantMismatch, 0)),
    (r.st == .undeclared, (.malformed, 0x01)),
    (!ok r.st, (.malformed, 0x03)),
    (s.ddr.channels == 0, (.malformed, 0x07))]

/-- Whether a work item writes places of a DDR5 region (R450). -/
def writesRegion (id : Nat) (w : Work) : Bool := ddrWritten w.body == some id

/-- A region is sealed (R450). -/
def sealRegion (w : Work) (id : Nat) (s : State) : State :=
  complete w .ok 0 (s.modDdr id (fun r => { r with st := .sealed, lastUse := s.clk.sc }))

/-- Whether a write of a region fetched before a work item is still in flight. -/
def writesBefore (w : Work) (id : Nat) (s : State) : Bool := s.work.any (fun x => decide (x.wid < w.wid) && writesRegion id x)

/-- Seals that waited for writes that have now completed (R450). -/
def settleSeals (s : State) : State :=
  (s.work.filter (fun w => w.opcode == 0x51)).foldl (fun s w => match w.prog with
    | .ddr id => if writesBefore w id s then s else sealRegion w id s
    | _ => s) s

/-- Seals a region once every earlier write of it has completed (R450). -/
def execMtDdrSeal (wid : Nat) (s : State) : Host.Outcome State Fault Refusal :=
  startTier wid 0x51 s (fun w s => match regionChecks w (· == .unsealed) s with
    | some (st, r) => complete w st r s
    | none => if writesBefore w (tierRegion w) s then s.setProg wid (.ddr (tierRegion w)) else sealRegion w (tierRegion w) s)

/-- Starts to unseal a region: new reads are refused (R450). -/
def execMtDdrUnseal (wid : Nat) (s : State) : Host.Outcome State Fault Refusal :=
  startTier wid 0x52 s (fun w s => match regionChecks w (· == .sealed) s with
    | some (st, r) => complete w st r s
    | none => (s.setProg wid (.ddr (tierRegion w))).modDdr (tierRegion w) (fun r => { r with st := .unsealing }))

/-- Starts to retire a region: new reads and writes are refused (R450). -/
def execMtDdrRetire (wid : Nat) (s : State) : Host.Outcome State Fault Refusal :=
  startTier wid 0x53 s (fun w s => match regionChecks w (· != .retiring) s with
    | some (st, r) => complete w st r s
    | none => (s.setProg wid (.ddr (tierRegion w))).modDdr (tierRegion w) (fun r => { r with st := .retiring }))

/-- Sets or clears PIN; setting it is refused under test 2 of R463 (R469). -/
def execMtDdrPin (wid : Nat) (s : State) : Host.Outcome State Fault Refusal :=
  startTier wid 0x56 s (fun w s => match regionChecks w (fun _ => true) s with
    | some (st, r) => complete w st r s
    | none =>
      let id := tierRegion w
      let r := s.ddrRegion id
      let x := s.share r.tenant
      let pin := (dat w.body 9 8).testBit 0
      if pin ∧ !r.pin ∧ x.pinned + r.units > x.floor.toNat then complete w .admitMemory 0x04 s
      else complete w .ok 0 ((s.modDdr id (fun r => { r with pin })).modShare r.tenant (fun x => { x with
        pinned := if pin = r.pin then x.pinned else if pin then x.pinned + r.units else x.pinned - r.units })))

/-- The operation that waits for a region's state change. -/
def waiterOf (id : Nat) (op : Byte) (s : State) : Option Work :=
  s.work.find? (fun w => w.opcode == op && (match w.prog with | .ddr n => n == id | _ => false))

/-- A declaration that waits for evictions goes on (R465). -/
def resumeDeclare (s : State) : State :=
  match s.work.find? (fun w => match w.prog with | .ddrEvict _ _ => true | _ => false) with
  | some w => (match w.prog with | .ddrEvict _ map => declareGo w map s | _ => s)
  | none => s

/-- Nothing of a region is in flight any more: UNSEALING becomes UNSEALED; RETIRING becomes UNDECLARED and its units return
(R450, R465). -/
def execDdrRegionInFlightDrained (region : Nat) (s : State) : Host.Outcome State Fault Refusal :=
  actIf s (decide ((s.ddrRegion region).inFlight = 0)) (fun s =>
    let r := s.ddrRegion region
    match r.st with
    | .unsealing =>
      let s1 := s.modDdr region (fun r => { r with st := .unsealed })
      (match waiterOf region 0x52 s with | some w => complete w .ok 0 s1 | none => s1)
    | .retiring =>
      let s1 := (s.modDdr region (fun _ => {})).modShare r.tenant (fun x => { x with
        used := x.used - r.units, pinned := if r.pin then x.pinned - r.units else x.pinned })
      let s2 := match waiterOf region 0x53 s with | some w => complete w .ok 0 s1 | none => s1
      resumeDeclare s2
    | _ => s)

/-! ## Storing and loading -/

/-- The checks of MT_STORE (R452, R471, R474). -/
def storeChecks (w : Work) (s : State) : Option (Status × Nat) :=
  let d := w.body
  let r := s.ddrRegion (tierRegion w)
  let len := dat d 16 32
  let src := refAt d 8
  let c := dat d 21 8
  firstFail [
    (tierForeign w s || refForeign s w.part src, (.tenantMismatch, 0)),
    (r.st == .undeclared, (.malformed, 0x01)),
    (r.st != .unsealed || w.notUnsealed, (.malformed, 0x03)),
    (refBad s src len || src.regionId.isNone || decide (dat d 24 32 + ceilDiv len 4096 > blockPlaces r), (.malformed, 0x04)),
    (!(c == 0 || c == 2 || c == 3 || c == 4), (.malformed, 0x05)),
    (len == 0 || len % 64 != 0, (.malformed, 0x06)),
    (s.ddr.channels == 0, (.malformed, 0x07))]

/-- Starts to code an HBM range into places of a region (R471). -/
def execMtStore (wid : Nat) (s : State) : Host.Outcome State Fault Refusal :=
  start wid 0x54 s (fun w s => match storeChecks w s with
    | some (st, r) => settleSeals (complete w st r s)
    | none =>
      if !hasCodec w.part s then settleSeals (dutyEmpty w.part w s) else
      let n := ceilDiv (dat w.body 16 32) 4096
      (s.setProg wid (.coding { total := n, worst := .ok })).modDdr (tierRegion w) (fun r => { r with inFlight := r.inFlight + n }))

/-- The checks of MT_LOAD (R473, R474). -/
def loadChecks (w : Work) (s : State) : Option (Status × Nat) :=
  let d := w.body
  let r := s.ddrRegion (tierRegion w)
  let n := dat d 28 32
  let dest := refAt d 8
  firstFail [
    (tierForeign w s || refForeign s w.part dest, (.tenantMismatch, 0)),
    (r.st == .undeclared, (.malformed, 0x01)),
    (r.st != .sealed, (.malformed, 0x03)),
    (refBad s dest (4096 * n) || dest.regionId.isNone || decide (dat d 24 32 + n > blockPlaces r), (.malformed, 0x04)),
    (n == 0, (.malformed, 0x06)),
    (s.ddr.channels == 0, (.malformed, 0x07))]

/-- Starts to expand places of a sealed region into HBM (R473). -/
def execMtLoad (wid : Nat) (s : State) : Host.Outcome State Fault Refusal :=
  start wid 0x55 s (fun w s => match loadChecks w s with
    | some (st, r) => complete w st r s
    | none =>
      if !hasCodec w.part s then dutyEmpty w.part w s else
      let n := dat w.body 28 32
      (List.range n).foldl (fun s i => ddrRead w i (tierRegion w) (dat w.body 24 32 + i) s) (s.setProg wid (.fetching { total := n })))

/-- A write of a tenant's FLOOR or CAP; one that breaks the floor rules is ignored (R462). -/
def execMtTenantWrite (tenant : Nat) (isCap : Bool) (value : W32) (s : State) : Host.Outcome State Fault Refusal :=
  actIf s (writes 0 s && decide (tenant < 16)) (fun s =>
    let v := value.setWidth 21
    if isCap then s.modShare tenant (fun x => { x with cap := v })
    else
      let others := ((List.range 16).map (fun t => if t = tenant then 0 else (s.share t).floor.toNat)).sum
      if others + v.toNat > s.ddr.units ∨ v.toNat < (s.share tenant).pinned then s
      else s.modShare tenant (fun x => { x with floor := v }))

/-! ## Coding blocks -/

/-- The page index and the entry of block i of a KV_SPILL (R317). -/
def spillEnt (w : Work) (i : Nat) (s : State) : Option (Nat × PageEnt) :=
  (listAt s (dat w.body 8 64)).map (fun h =>
    let n := dat w.body 20 32 * h.g + i / 16
    (n, pageEnt s h n))

/-- The plaintext a coder takes for block i of an operation: none while it is not there, none inside for poison (R318, R348,
R471). -/
def codePlain (w : Work) (i : Nat) (s : State) : Option (Option (List Byte)) :=
  if w.opcode = 0x54 then
    let len := min 4096 (dat w.body 16 32 - 4096 * i)
    let src := refAt w.body 8
    some (if refPoisoned s src (4096 * i) len then none else some (refRead s src (4096 * i) len))
  else match spillEnt w i s with
    | none => none
    | some (_, e) =>
      if e.tier = 0 then
        match s.region (locRegion e.loc) with
        | none => some none
        | some r =>
          let o := 65536 * locPage e.loc + 4096 * (i % 16)
          some (if regionPoisoned s r o 4096 then none else some (regionRead s r o 4096))
      else (delivered s { wid := w.wid, block := i }).map (fun d => d.plain)

/-- The codec an operation's requester names (R338, R471). -/
def codecOf (w : Work) (s : State) : Nat :=
  if w.opcode = 0x54 then dat w.body 21 8
  else match listAt s (dat w.body 8 64) with
    | some h => if geoElem h.geometry = some 2 then 3 else 2
    | none => 2

/-- Whether an operation codes to the remote tier (R317). -/
def codesRemote (w : Work) : Bool := w.opcode == 0x35 && dat w.body 17 8 == 2

/-- The DDR5 region and place, or the LOC, that block i of an operation is written to (R317, R471). -/
def codeDest (w : Work) (i : Nat) : Nat × Nat :=
  if w.opcode = 0x54 then (tierRegion w, dat w.body 24 32 + i)
  else
    let loc := fld (dat w.body 32 64) 0 46
    if codesRemote w then (0, loc + 4096 * i) else (locRegion loc, 16 * locPage loc + i)

/-- Writes a coded block where its operation wants it: a DDR5 place, or a remote place through its key slot (R318, R346). -/
def writeCoded (w : Work) (i : Nat) (blk : Block) (s : State) : State :=
  if codesRemote w then
    let k := s.keySlot (dat w.body 18 16)
    post 0 ((pagePieces (pagePacket s 2 k (codeDest w i).2 [blk]) blk (fun _ _ => false)).map (fun p => (k.node, p))) (s.modConn 0 (fun c => { c with nextMseq := c.nextMseq + 1 }))
  else (writePlace (codeDest w i).1 (codeDest w i).2 blk s).modDdr (codeDest w i).1 (fun r => { r with inFlight := r.inFlight - 1 })

/-- RESULT of an operation that codes blocks (R471). -/
def codingResult (w : Work) (b : BlockOp) : Nat := if w.opcode = 0x54 then b.ended % 2 ^ 32 + b.stored64 * 2 ^ 32 else 0

/-- The places an operation codes, in block order. -/
def codedPlaces (x : Work) (s : State) : Nat :=
  if x.opcode = 0x54 then ceilDiv (dat x.body 16 32) 4096
  else match listAt s (dat x.body 8 64) with
    | some h => 16 * (dat x.body 24 32 * h.g)
    | none => 0

/-- Whether an operation fetched earlier has still to code the place that block i of an operation goes to (R355). -/
def placeOwed (w : Work) (i : Nat) (s : State) : Bool :=
  s.work.any (fun x => decide (x.wid < w.wid) && (x.opcode == 0x54 || (x.opcode == 0x35 && dat x.body 16 8 == 0)) &&
    codesRemote x == codesRemote w && (!codesRemote w || dat x.body 18 16 == dat w.body 18 16) &&
    (List.range (codedPlaces x s)).any (fun j => codeDest x j == codeDest w i &&
      (match x.prog with | .coding b | .remoteAck b => !b.endedIdx.any (· == j) | _ => true)))

/-- A CODEC Stand ends the coding of a block (R346 to R348): it is written, counted, and the operation's last block completes it
(R318, R471). `stream` is what the encoder gave (R345). -/
def codingDone (w : Work) (b : BlockOp) (i : Nat) (stream : List Byte) (s : State) : State :=
  match (if i < b.total ∧ !b.endedIdx.any (· == i) ∧ !placeOwed w i s then codePlain w i s else none) with
  | none => s
  | some p =>
    let codec := codecOf w s
    let keyIdx := if codesRemote w then (s.keysOf w.tenant).remote.toNat else (s.ddrRegion (codeDest w i).1).keyIdx.toNat
    let tweak := Config.random s.free
    if (match p with | some plain => needsStream codec plain && !streamFits codec plain stream | none => false) then s else
    let blk := match p with
      | some plain => codeBlock codec keyIdx tweak (sleeperKey s w.tenant (codesRemote w)) plain stream
      | none => poisonBlock keyIdx tweak (if w.opcode = 0x54 then min 4096 (dat w.body 16 32 - 4096 * i) else 4096)
    let m := (s.conn 0).nextMseq
    let s1 := dropBuf { wid := w.wid, block := i } (writeCoded w i blk (countCoded w.tenant w.part codec blk s.fresh))
    let b' := { b with
      ended := b.ended + 1, stored64 := b.stored64 + recStored blk.record / 64, endedIdx := b.endedIdx ++ [i],
      worst := if p.isNone then worseBlock b.worst .poisonConsumed else b.worst,
      acks := if codesRemote w then b.acks ++ [m] else b.acks }
    if b'.ended = b'.total ∧ b'.acks.isEmpty then settleSeals (if w.opcode = 0x54 then complete w b'.worst (codingResult w b') s1 b'.faultRef
      else finishOp w (opInfo w b'.worst []) 0 s1 b'.faultRef)
    else s1.setProg w.wid (if codesRemote w then .remoteAck b' else .coding b')

/-- BLOCK_CODING_COMPLETE (R346, R347); a SAVING context's units finish their blocks, a SAVED one's code none (R698). (DESIGN CHOICE, log
entry 47.) -/
def execBlockCodingComplete (wid block : Nat) (stream : List Byte) (s : State) : Host.Outcome State Fault Refusal :=
  resume wid s (fun p => match p with | .coding b => some b | .remoteAck b => some b | _ => none)
    (fun w b s => if (s.ctx w.context).st = .saved then s else codingDone w b block stream s)

end Sys2Proof.Machine
end

