-- ==== Sys2Proof/Machine/Num.lean ====
section
/-! DEFINITION. The number formats and their arithmetic (R187 to R192, R202 to R208, R222): exact values, one rounding, output
conversion, stochastic rounding by Philox4x32-10, and the correctly rounded functions EXP2, RECIP and RSQRT. -/

namespace Sys2Proof.Machine

/-- A value: a NaN, an infinity, or (−1)^neg × m × 2^e. -/
inductive Num where
  | nan
  | inf (neg : Bool)
  | fin (neg : Bool) (m : Nat) (e : Int)
deriving DecidableEq, Repr

/-- Positive zero. -/
def Num.zero : Num := .fin false 0 0

/-- 2^k, for an exponent that is not negative. -/
def pow2 (k : Int) : Nat := 2 ^ k.toNat

/-! ## Formats (R187) -/

/-- Bits of a format. -/
def fmtBits (f : Nat) : Nat :=
  match f with | 0 => 4 | 1 => 4 | 2 => 6 | 3 => 6 | 4 => 8 | 5 => 8 | 6 => 8 | 7 => 16 | 8 => 16 | _ => 32

/-- Exponent bits, mantissa bits and bias of a floating format. -/
def fmtShape (f : Nat) : Nat × Nat × Nat :=
  match f with
  | 0 => (2, 1, 1) | 2 => (3, 2, 3) | 3 => (2, 3, 1) | 4 => (4, 3, 7) | 5 => (5, 2, 15) | 7 => (8, 7, 127) | 8 => (5, 10, 15)
  | 9 => (8, 10, 127) | _ => (8, 23, 127)

/-- Formats of R187. -/
def fmtOk (f : Nat) : Bool := decide (f ≤ 10)
def fmtInt (f : Nat) : Bool := f == 1 || f == 6
def fmtBlock (f : Nat) : Bool := f == 0 || f == 2 || f == 3
/-- Formats whose infinities and NaNs are those of IEEE 754. -/
def fmtIeee (f : Nat) : Bool := f == 5 || f == 7 || f == 8 || f == 9 || f == 10

/-! ## Rounding -/

/-- m × 2^e as a multiple of 2^q: to nearest even, or stochastically with the 16-bit value r (R208). -/
def roundMag (r : Option Nat) (m : Nat) (e q : Int) : Nat :=
  if e ≥ q then m * pow2 (e - q) else
    let p := pow2 (q - e)
    let k := m / p
    let rem := m % p
    match r with
    | none => if 2 * rem > p ∨ (2 * rem = p ∧ k % 2 = 1) then k + 1 else k
    | some r => if rem * 65536 / p + r ≥ 65536 then k + 1 else k

/-- The code of a magnitude in a format of eb exponent bits, mb mantissa bits and a bias, without a bound on the exponent. -/
def magCode (mb bias : Nat) (r : Option Nat) (m : Nat) (e : Int) : Nat :=
  if m = 0 then 0 else
    let qmin : Int := 1 - bias - mb
    let q := max qmin ((Nat.log2 m : Int) + e - mb)
    (q - qmin).toNat * 2 ^ mb + roundMag r m e q

/-- A value as FP32, one rounding to nearest even (R202). -/
def Num.toF32 : Num → Nat
  | .nan => 0x7FC00000
  | .inf neg => 0x7F800000 + 0x80000000 * b2n neg
  | .fin neg m e => min 0x7F800000 (magCode 23 127 none m e) + 0x80000000 * b2n neg

/-- The value of a code of a floating format; `flush` flushes subnormals, keeping their sign (R189). -/
def decodeFloat (f : Nat) (flush : Bool) (c : Nat) : Num :=
  let (eb, mb, bias) := fmtShape f
  let m := fld c 0 mb
  let x := fld c mb eb
  let neg := c.testBit (eb + mb)
  if fmtIeee f ∧ x = 2 ^ eb - 1 then (if m = 0 then .inf neg else .nan)
  else if f = 4 ∧ fld c 0 7 = 0x7F then .nan
  else if x = 0 then
    (if flush && !fmtBlock f then .fin neg 0 0 else .fin neg m (1 - (bias : Int) - mb))
  else .fin neg (m + 2 ^ mb) ((x : Int) - bias - mb)

/-- An FP32 code as a value. -/
def f32 (c : Nat) : Num := decodeFloat 10 false c

/-- Two's complement of w bits. -/
def toSigned (w c : Nat) : Int := if c ≥ 2 ^ (w - 1) then (c : Int) - 2 ^ w else c

/-- An integer as a value. -/
def Num.ofInt (x : Int) : Num := .fin (decide (x < 0)) x.natAbs 0

/-- A value rounded to 10 mantissa bits, to nearest even (R188). -/
def Num.toTf32 : Num → Num
  | .fin neg m e => if m = 0 then .fin neg 0 0 else
      let c := magCode 10 127 none m e
      if c ≥ 0xFF * 1024 then .inf neg else decodeFloat 9 false (c + 2 ^ 18 * b2n neg)
  | x => x

/-- The value a stored element of a format spells, its block scale left out; the matrix path flushes subnormals, the vector
path keeps them (R188 to R190). A TF32 element sits in an FP32 container, whose subnormals are flushed before its value is rounded.
(DESIGN CHOICE, log entry 127.) -/
def decodeElem (f : Nat) (flush : Bool) (c : Nat) : Num :=
  if fmtInt f then .ofInt (toSigned (fmtBits f) c)
  else if f = 9 then
    match (decodeFloat 10 flush c).toTf32 with
    | .fin neg m e => .fin neg m e
    | x => x
  else decodeFloat f flush c

/-- A value times 2^(s − 127), s a block scale code; 0xFF makes it NaN (R192). -/
def Num.scale (x : Num) (s : Nat) : Num :=
  if s = 0xFF then .nan else match x with
    | .fin neg m e => .fin neg m (e + s - 127)
    | y => y

/-! ## Exact arithmetic -/

def Num.neg? : Num → Bool
  | .nan => false | .inf n => n | .fin n _ _ => n

def Num.negate : Num → Num
  | .nan => .nan | .inf n => .inf !n | .fin n m e => .fin (!n) m e

def Num.abs : Num → Num
  | .nan => .nan | .inf _ => .inf false | .fin _ m e => .fin false m e

/-- The exact product. -/
def Num.mul : Num → Num → Num
  | .nan, _ => .nan
  | _, .nan => .nan
  | .inf a, .inf b => .inf (a != b)
  | .inf a, .fin b m _ => if m = 0 then .nan else .inf (a != b)
  | .fin a m _, .inf b => if m = 0 then .nan else .inf (a != b)
  | .fin a m e, .fin b n f => .fin (a != b) (m * n) (e + f)

/-- The quotient: exact to 64 bits beyond the point where rounding looks, with a low bit that marks what lies below. -/
def Num.div : Num → Num → Num
  | .nan, _ => .nan
  | _, .nan => .nan
  | .inf _, .inf _ => .nan
  | .inf a, .fin b _ _ => .inf (a != b)
  | .fin a _ _, .inf b => .fin (a != b) 0 0
  | .fin a m e, .fin b n f =>
    if n = 0 then (if m = 0 then .nan else .inf (a != b))
    else
      let k := Nat.log2 n + 64
      .fin (a != b) (2 * (m * 2 ^ k / n) + b2n (decide (m * 2 ^ k % n ≠ 0))) (e - f - k - 1)

/-- The signed mantissa of a finite value at exponent q, which is no greater than its own. -/
def Num.at : Num → Int → Int
  | .fin neg m e, q => if neg then -(m * pow2 (e - q) : Nat) else (m * pow2 (e - q) : Nat)
  | _, _ => 0

/-- The least exponent of finite values. -/
def minExp : List Num → Int → Int
  | [], q => q
  | .fin _ _ e :: r, q => minExp r (min e q)
  | _ :: r, q => minExp r q

/-- The exact sum (R202); a zero sum is negative only where every term is. -/
def sumNums (l : List Num) : Num :=
  if l.any (· == .nan) then .nan
  else if l.any (· == .inf false) then (if l.any (· == .inf true) then .nan else .inf false)
  else if l.any (· == .inf true) then .inf true
  else
    let q := minExp l 0
    let t : Int := (l.map (fun x => x.at q)).sum
    if t = 0 then .fin (!l.isEmpty && l.all Num.neg?) 0 0 else .fin (decide (t < 0)) t.natAbs q

/-- Whether a value is less than another; NaN compares with nothing, −0 equals +0. -/
def Num.lt (a b : Num) : Bool :=
  match a, b with
  | .nan, _ => false
  | _, .nan => false
  | .inf x, .inf y => x && !y
  | .inf x, _ => x
  | _, .inf y => !y
  | x, y => let q := minExp [x, y] 0; decide (x.at q < y.at q)

/-- IEEE 754 maximum and minimum: NaN if either is, −0 below +0. -/
def Num.max (a b : Num) : Num :=
  if a = .nan ∨ b = .nan then .nan else if a.lt b then b else if b.lt a then a else if a.neg? then b else a
def Num.min (a b : Num) : Num :=
  if a = .nan ∨ b = .nan then .nan else if a.lt b then a else if b.lt a then b else if a.neg? then a else b

/-- FP32 operations of one rounding, on FP32 codes. -/
def addF (a b : Nat) : Nat := (sumNums [f32 a, f32 b]).toF32
def mulF (a b : Nat) : Nat := ((f32 a).mul (f32 b)).toF32

/-- The fixed pairwise tree: at each level 2i meets 2i + 1, and an unpaired last passes up (R223, R306); `fuel` is the number of
levels. -/
def pairUp {α : Type} (f : α → α → α) : List α → List α
  | a :: b :: r => f a b :: pairUp f r
  | l => l

/-- Reduces by the pairwise tree. -/
def treeFold {α : Type} (f : α → α → α) : Nat → List α → List α
  | 0, l => l
  | k + 1, l => if l.length ≤ 1 then l else treeFold f k (pairUp f l)

/-! ## Correctly rounded functions (R222) -/

/-- The integer square root, one bit at a time. -/
def isqrtGo (n : Nat) : Nat → Nat → Nat
  | 0, r => r
  | b + 1, r => isqrtGo n b (if (r + 2 ^ b) * (r + 2 ^ b) ≤ n then r + 2 ^ b else r)

def isqrt (n : Nat) : Nat := isqrtGo n (Nat.log2 n / 2 + 1) 0

/-- 2^(2^−i), with 128 bits after the point, for i rising from 1. -/
def rootTwos : Nat → Nat → List Nat
  | 0, _ => []
  | k + 1, c => let d := isqrt (c * 2 ^ 128); d :: rootTwos k d

/-- 2^f with 128 bits after the point, f a fraction of 110 bits. -/
def exp2Frac (f : Nat) : Nat :=
  (rootTwos 110 (2 ^ 129)).zipIdx.foldl (fun acc c => if f.testBit (109 - c.2) then acc * c.1 / 2 ^ 128 else acc) (2 ^ 128)

/-- 2^x, rounded to nearest even in FP32. A value that is no integer gives an irrational result: a low bit marks it inexact. -/
def exp2 (x : Num) : Num :=
  match x with
  | .nan => .nan
  | .inf neg => if neg then .zero else .inf false
  | .fin neg m e =>
    if m = 0 then .fin false 1 0
    else if (Nat.log2 m : Int) + e ≥ 8 then (if neg then .zero else .inf false)
    else
      let sh : Int := -e
      let whole : Bool := decide (e ≥ 0) || decide (m % pow2 sh = 0)
      if whole then
        let k : Int := if e ≥ 0 then (m * pow2 e : Nat) else (m / pow2 sh : Nat)
        .fin false 1 (if neg then -k else k)
      else if (Nat.log2 m : Int) + e < -100 then
        -- |x| < 2^-99: the result rounds to 1
        .fin false 1 0
      else
        let v : Int := if e + 110 ≥ 0 then (m * pow2 (e + 110) : Nat) else (m / pow2 (-(e + 110)) : Nat)
        let y : Int := if neg then -v else v
        let n := y.fdiv (2 ^ 110)
        let f := (y - n * 2 ^ 110).toNat
        .fin false (2 * exp2Frac f + 1) (n - 129)

/-- 1 / x (R222). -/
def recip (x : Num) : Num :=
  match x with
  | .nan => .nan
  | .inf neg => .fin neg 0 0
  | .fin neg m e =>
    if m = 0 then .inf neg else
      let k := Nat.log2 m + 64
      .fin neg (2 * (2 ^ k / m) + b2n (decide (2 ^ k % m ≠ 0))) (-(k : Int) - e - 1)

/-- 1 / √x (R222). -/
def rsqrt (x : Num) : Num :=
  match x with
  | .nan => .nan
  | .inf neg => if neg then .nan else .zero
  | .fin neg m e =>
    if m = 0 then .inf neg
    else if neg then .nan
    else
      let m' := if e % 2 = 0 then m else 2 * m
      let e' := if e % 2 = 0 then e else e - 1
      let k := Nat.log2 m' + 64
      let q := isqrt (2 ^ (2 * k) / m')
      .fin false (2 * q + b2n (decide (q * q * m' ≠ 2 ^ (2 * k)))) (-(k : Int) - e' / 2 - 1)

/-- The functions on FP32 codes. -/
def exp2F (a : Nat) : Nat := (exp2 (f32 a)).toF32
def recipF (a : Nat) : Nat := (recip (f32 a)).toF32
def rsqrtF (a : Nat) : Nat := (rsqrt (f32 a)).toF32

/-! ## Output conversion (R206) -/

/-- The greatest finite code of a floating format. -/
def maxCode (f : Nat) : Nat :=
  match f with | 0 => 7 | 2 => 31 | 3 => 31 | 4 => 0x7E | 5 => 0x7B | 7 => 0x7F7F | 8 => 0x7BFF | _ => 0x7F7FFFFF

/-- The quiet NaN a format writes (R206). -/
def nanCode (f : Nat) : Nat :=
  match f with | 4 => 0x7F | 5 => 0x7E | 7 => 0x7FC0 | 8 => 0x7E00 | _ => 0x7FC00000

/-- The code of infinity of an IEEE-style format. -/
def infCode (f : Nat) : Nat := match f with | 5 => 0x7C | 7 => 0x7F80 | 8 => 0x7C00 | _ => 0x7F800000

/-- A magnitude rounded to an integer and clamped to an integer format: its code, and whether it was clamped. -/
def intCode (w : Nat) (neg : Bool) (m : Nat) (e : Int) : Nat × Bool :=
  let k := roundMag none m e 0
  let lim := if neg then 2 ^ (w - 1) else 2 ^ (w - 1) - 1
  let k' := Nat.min k lim
  (if neg then (2 ^ w - k') % 2 ^ w else k', decide (k > lim))

/-- A value in an output format other than the block-scaled ones; the flag says whether R218 counts it. -/
def convert (f : Nat) (sat : Bool) (r : Option Nat) (x : Num) : Nat × Bool :=
  let sign (neg : Bool) (c : Nat) : Nat := c + b2n neg * 2 ^ (fmtBits f - 1)
  if fmtInt f then
    match x with
    | .nan => (0, true)
    | .inf neg => ((intCode (fmtBits f) neg 1 200).1, true)
    | .fin neg m e => intCode (fmtBits f) neg m e
  else
    let overflow (neg : Bool) : Nat × Bool :=
      if f = 4 then (sign neg 0x7E, true)
      else if f = 9 ∨ f = 10 then (sign neg 0x7F800000, false)
      else if sat then (sign neg (maxCode f), true) else (sign neg (infCode f), false)
    match x with
    | .nan => (nanCode f, false)
    | .inf neg => overflow neg
    | .fin neg m e =>
      if f = 9 then
        let c := magCode 10 127 none m e
        if c ≥ 0xFF * 1024 then overflow neg else (sign neg (c * 2 ^ 13), false)
      else
        let (_, mb, bias) := fmtShape f
        let c := magCode mb bias r m e
        if c > maxCode f then overflow neg else (sign neg c, false)

/-- emax of a block-scaled format (R207). -/
def blockEmax (f : Nat) : Int := if f = 2 then 4 else 2

/-- The largest magnitude's exponent floor(log2 X) of a block; none when every element is zero. -/
def blockExp : List Num → Option Int
  | [] => none
  | .fin _ m e :: r => if m = 0 then blockExp r else
      match blockExp r with
      | some x => some (max x ((Nat.log2 m : Int) + e))
      | none => some ((Nat.log2 m : Int) + e)
  | _ :: r => blockExp r

/-- A block of elements in a block-scaled format: the scale code and the element codes (R206, R207). The element codes of a
block that holds a NaN or an infinity, whose scale is 0xFF, the spec leaves open: each is a free value that depends on the block
alone, so that equal inputs give equal bytes (R209, R223). (DEDUCED, log entry 39.) -/
def convertBlock (f : Nat) (rs : Nat → Option Nat) (xs : List Num) : Nat × List Nat :=
  if xs.any (fun x => match x with | .fin _ _ _ => false | _ => true) then
    (0xFF, (List.range xs.length).map (fun i => Config.openCode f (xs.map Num.toF32) i % 2 ^ fmtBits f))
  else
    let ex : Int := match blockExp xs with
      | none => 0
      | some x => Max.max (-127) (Min.min 127 (x - blockEmax f))
    let (_, mb, bias) := fmtShape f
    ((ex + 127).toNat, xs.zipIdx.map (fun p => match p.1 with
      | .fin neg m e => Nat.min (maxCode f) (magCode mb bias (rs p.2) m (e - ex)) + b2n neg * 2 ^ (fmtBits f - 1)
      | _ => 0))

/-! ## Philox4x32-10 (R208) -/

/-- One round on a counter of four words with a key of two. -/
def philoxRound (c : Nat × Nat × Nat × Nat) (k : Nat × Nat) : Nat × Nat × Nat × Nat :=
  let (c0, c1, c2, c3) := c
  let a := 0xD2511F53 * c0
  let b := 0xCD9E8D57 * c2
  ((b / 2 ^ 32) ^^^ c1 ^^^ k.1, b % 2 ^ 32, (a / 2 ^ 32) ^^^ c3 ^^^ k.2, a % 2 ^ 32)

/-- Rounds with the key stepped between them. -/
def philoxGo : Nat → Nat × Nat × Nat × Nat → Nat × Nat → Nat × Nat × Nat × Nat
  | 0, c, _ => c
  | n + 1, c, k => philoxGo n (philoxRound c k) ((k.1 + 0x9E3779B9) % 2 ^ 32, (k.2 + 0xBB67AE85) % 2 ^ 32)

/-- The four output words. -/
def philox (seed : Nat) (c : Nat × Nat × Nat × Nat) : List Nat :=
  let (a, b, d, e) := philoxGo 10 c (fld seed 0 32, fld seed 32 32)
  [a, b, d, e]

/-- 16-bit word w of an output (R208). -/
def philoxWord (seed : Nat) (c : Nat × Nat × Nat × Nat) (w : Nat) : Nat :=
  fld (nth (philox seed c) (w / 2) 0) (16 * (w % 2)) 16

end Sys2Proof.Machine
end

