-- ==== Sys2Proof/Machine/Kv.lean ====
section
/-! DEFINITION. Key-value operations on page lists: creating, appending rows, freezing, spilling, fetching and freeing (R288 to
R298, R316 to R325). -/

namespace Sys2Proof.Machine

/-! ## Checks that several operations share -/

/-- Whether a list reference belongs to another partition or another tenant (R298, R764); a Timetable step serves the lists of
every tenant of its partition (R396). -/
def listForeign (s : State) (w : Work) (ref : Nat) : Bool :=
  refForeign s w.part (refOf ref) ||
  (match listAt s ref with | some h => (h.st == 1 || h.st == 2) && h.tenant != w.tenant && (match w.src with | .ring _ _ => true | .step _ _ => false) | none => false)

/-- Whether a list is LIVE (R285). -/
def listLive (s : State) (ref : Nat) : Bool := match listAt s ref with | some h => h.st == 1 | none => false

/-- Whether the image enables a format (R155). -/
def fmtEnabled (f : Nat) (s : State) : Bool := match s.img.image with | some i => i.formats.getLsbD f | none => false

/-- Whether a reference breaks cause 0x03: outside its region, unaligned, or not in a WORK region (R330). -/
def badWork (s : State) (r : Ref) (n : Nat) : Bool :=
  refBad s r n || (match r with | .hbm id _ => (match s.region id with | some g => g.kind != 2 | none => true) | _ => true)

/-- The status of a sequence operation and its RESULT (R254, R296). -/
def seqOutcome (o : SeqOp) : Status × Nat :=
  let any (st : Status) : Bool := o.seqs.any (fun q => q.status == st)
  let good := (o.seqs.filter (fun q => q.status.success)).length
  let bad := o.seqs.length - good
  (if any .internal then .internal else if any .codeInvalid then .codeInvalid else if any .poisonConsumed then .poisonConsumed
   else if any .checkFail then .checkFail else if any .okRecomputed then .okRecomputed else if bad > 0 then .okShort else .ok,
   good + (min bad 0xFFFF) * 2 ^ 32 + (min o.cnt.recomputed 0xFFFF) * 2 ^ 48)

/-! ## Sequence records (R297) -/

/-- Writes a sequence's STATUS (R296, R297). -/
def putStatus (table : Ref) (i : Nat) (st : Status) (s : State) : State := refWrite table (64 * i + 48) [st.code] s

/-- Where a sequence operation keeps its table and how many records it has. -/
def seqTable (s : State) (w : Work) : Ref × Nat :=
  if w.opcode = 0x33 then (refOf (refNum s (refAt w.body 8) 0 8), refNum s (refAt w.body 8) 64 4)
  else (refAt w.body 16, dat w.body 12 32)

/-- Where ATTEND keeps them (R299). -/
def attendTable (s : State) (w : Work) : Ref × Nat :=
  if w.opcode = 0x33 then seqTable s w else (refAt w.body 24, dat w.body 16 32)

/-- Whether a work item names a list (R319, R322, R324). -/
def usesList (s : State) (ref : Nat) (w : Work) : Bool :=
  if 0x34 ≤ w.opcode.toNat ∧ w.opcode.toNat ≤ 0x37 then dat w.body 8 64 == ref
  else if w.opcode = 0x31 then (seqRecs s (seqTable s w).1 (seqTable s w).2).any (fun q => q.list == ref)
  else if w.opcode = 0x32 ∨ w.opcode = 0x33 then (seqRecs s (attendTable s w).1 (attendTable s w).2).any (fun q => q.list == ref)
  else false

/-! ## Creating a list -/

/-- Creates an empty list (R288, R293). -/
def execKvListCreate (wid : Nat) (s : State) : Host.Outcome State Fault Refusal :=
  start wid 0x30 s (fun w s =>
    let d := w.body
    let id := dat d 8 8
    let layers := dat d 10 16
    let heads := dat d 12 8
    let geo := dat d 13 8
    match firstFail [
      ((match s.region id with | some g => g.part != w.part | none => false), (.tenantMismatch, 0)),
      ((geoElem geo).isNone || !fmtEnabled (geo / 16) s, (.malformed, 0x01)),
      (layers == 0 || decide (layers > 1008) || heads == 0 || decide (heads > 64) || !geoOk geo, (.malformed, 0x02)),
      ((match s.region id with | some g => g.kind != 1 | none => true), (.malformed, 0x03))] with
    | some (st, r) => complete w st r s
    | none =>
      match (s.region id).bind (fun g => createList g layers heads geo w.tenant 0 s) with
      | some (ref, s1) => finishOp w (opInfo w .ok []) ref s1
      | none => finishOp w (opInfo w .admitMemory []) 0 (s.modTtRegs w.part (fun t => { t with refusedMem := satBv t.refusedMem 1 })))

/-! ## Appending rows -/

/-- The owner entry that has a list, whose reservation its scatters draw on (R289, R380). -/
def listOwner (ref : Nat) (s : State) : Option Nat :=
  (s.tt.entries.find? (fun kv => kv.2.list.toNat == ref && kv.2.st.owner)).map Prod.fst

/-- The source row of each appended row (R291). -/
def srcRows (s : State) (q : SeqRec) : List Nat :=
  match refOf q.aux with
  | .none => (List.range q.qCount).map (q.qRow + ·)
  | r => (List.range q.qCount).map (fun i => refNum s r (4 * i) 4)

/-- The checks of KV_SCATTER as a whole (R290, R298, R330). -/
def scatterChecks (w : Work) (s : State) : Option (Status × Nat) :=
  let d := w.body
  let f := dat d 10 4
  let n := dat d 12 32
  let table := refAt d 16
  let ks := refAt d 24
  let vs := refAt d 32
  let count := decide (1 ≤ n ∧ n ≤ 4096)
  let qs := if count then seqRecs s table n else []
  let hs := qs.filterMap (fun q => listAt s q.list)
  let rowLen (h : ListHdr) : Nat := h.kvHeads * ((geoDim h.geometry).getD 0) * (if f = 7 then 2 else 4)
  let rows := (qs.flatMap (fun q => (srcRows s q))).foldl max 0 + 1
  let rowBytes := (hs.map rowLen).foldl max 0
  firstFail [
    (refForeign s w.part table || refForeign s w.part ks || refForeign s w.part vs ||
      qs.any (fun q => listForeign s w q.list || refForeign s w.part (refOf q.aux)), (.tenantMismatch, 0)),
    (!(f == 7 || f == 0xA) || hs.any (fun h => !fmtEnabled (h.geometry / 16) s), (.malformed, 0x01)),
    (badWork s table (64 * n) || qs.any (fun q => (listAt s q.list).isNone || (match refOf q.aux with | .none => false | r => badWork s r (4 * q.qCount))) ||
      badWork s ks (rows * rowBytes) || badWork s vs (rows * rowBytes), (.malformed, 0x03)),
    (qs.any (fun q => !listLive s q.list), (.malformed, 0x04)),
    (hs.any (fun h => match hs.head? with | some g => h.layers != g.layers || h.kvHeads != g.kvHeads || h.geometry != g.geometry | none => false), (.malformed, 0x05)),
    (!count || qs.any (fun q => q.qCount == 0 || decide (q.qCount > 65536)), (.malformed, 0x08)),
    (hs.any (fun h => decide (dat d 8 16 ≥ h.layers)), (.malformed, 0x0C))]

/-- Queues a scatter (R290, R292). -/
def execKvScatter (wid : Nat) (s : State) : Host.Outcome State Fault Refusal :=
  start wid 0x31 s (fun w s => match scatterChecks w s with
    | some (st, r) => complete w st r s
    | none => s.setProg wid (.scatter { seqs := List.replicate (dat w.body 12 32) {} }))

/-- Whether a scatter's sequence i has its turn: no sequence fetched before it on the same layer of the list is left, in a scatter that has
started or in one that has not (R292). -/
def scatterTurn (w : Work) (i : Nat) (s : State) : Bool :=
  let key (x : Work) (k : Nat) : Nat × Nat := ((seqRec s (refAt x.body 16) k).list, dat x.body 8 16)
  s.work.all (fun x => match x.prog with
    | .scatter o => o.seqs.zipIdx.all (fun q =>
        q.1.phase == .done || key x q.2 != key w i || decide (x.wid > w.wid) || (x.wid == w.wid && decide (q.2 ≥ i)))
    | .waiting => x.opcode != 0x31 || decide (x.wid > w.wid) || (List.range (min 4096 (dat x.body 12 32))).all (fun k => key x k != key w i)
    | _ => true)

/-- Blocks from b0 that a layer has not entered, to b1 (R293). -/
def newBlocks (s : State) (h : ListHdr) (layer b0 b1 : Nat) : List Nat :=
  ((List.range (b1 + 1 - b0)).map (b0 + ·)).filter (fun b => (pageEnt s h (pageIdx h b layer 0)).tier == 3)

/-- Enters blocks with the pages taken for them, in order (R293). -/
def enterBlocks (ref layer : Nat) : List Nat → List Nat → State → State
  | [], _, s => s
  | b :: rest, ps, s =>
    match listAt s ref with
    | none => s
    | some h =>
      let n := blockNeed h b
      enterBlocks ref layer rest (ps.drop n) (enterBlock h b layer (ps.take n) s)

/-- The bytes of D elements of a source row divided by a scale, in a key-value format (R291). (DEDUCED, log entry 45.) -/
def scaleRow (s : State) (src : Ref) (f kvFmt off d : Nat) (scale : Nat) : List Byte :=
  let e := fmtBits f / 8
  (List.range d).flatMap (fun k =>
    let x := decodeElem f false (refNum s src (off + k * e) e)
    leBytes (fmtBits kvFmt / 8) (convert kvFmt true none (x.div (f32 scale))).1)

/-- Writes one row of one head into its page: keys or values, with poison where the source has it (R280, R291). -/
def putRow (h : ListHdr) (layer head pos half : Nat) (bs : List Byte) (bad : Bool) (s : State) : State :=
  let t := geoT h.geometry
  let e := pageEnt s h (pageIdx h (pos / t) layer head)
  match s.region (locRegion e.loc) with
  | none => s
  | some r =>
    let o := 65536 * locPage e.loc + 32768 * half + (pos % t) * bs.length
    let s1 := regionWrite r o bs s
    if bad then regionPoison r o bs.length s1 else s1

/-- Whether a source row carries poison. -/
def rowPoisoned (w : Work) (h : ListHdr) (row : Nat) (s : State) : Bool :=
  let len := h.kvHeads * (geoDim h.geometry).getD 0 * (fmtBits (dat w.body 10 4) / 8)
  refPoisoned s (refAt w.body 24) (row * len) len || refPoisoned s (refAt w.body 32) (row * len) len

/-- Appends one source row at a position: every head's key and value; every line of the pages that holds a row with poison is marked
(R291). -/
def appendRow (w : Work) (h : ListHdr) (pos row : Nat) (s : State) : State :=
  let d := w.body
  let f := dat d 10 4
  let dim := (geoDim h.geometry).getD 0
  let bad := rowPoisoned w h row s
  let one (half head : Nat) (s : State) : State :=
    let o := (row * h.kvHeads + head) * (dim * (fmtBits f / 8))
    putRow h (dat d 8 16) head pos half
      (scaleRow s (refAt d (if half = 0 then 24 else 32)) f (h.geometry / 16) o dim (dat d (if half = 0 then 40 else 44) 32)) bad s
  (List.range h.kvHeads).foldl (fun s k => one 1 k (one 0 k s)) s

/-- Raises a layer's commit and the list's (R294). -/
def publish (h : ListHdr) (layer new : Nat) (s : State) : State :=
  let s1 := regionWrite h.region (h.off + 64 + 4 * layer) (leBytes 4 new) s
  let least := (List.range h.layers).foldl (fun m l => min m (listCommit s1 h l)) new
  { putHdr h 0 4 least s1 with mem := { (putHdr h 0 4 least s1).mem with kvRows := s1.mem.kvRows + (new - listCommit s h layer) } }

/-- One sequence's scatter: its status and the state after (R291 to R294). -/
def scatterSeq (w : Work) (q : SeqRec) (s : State) : Status × Nat × State :=
  let layer := dat w.body 8 16
  match listAt s q.list with
  | none => (.malformed, 0x04, s)
  | some h =>
    if q.length ≠ listCommit s h layer then (.malformed, 0x06, s) else
    let t := geoT h.geometry
    let b1 := (q.length + q.qCount - 1) / t
    let bs := newBlocks s h layer (q.length / t) b1
    let need := bs.length * h.kvHeads + (if bs.isEmpty then 0 else chunksFor h (max h.pages ((b1 + 1) * h.g)))
    let owner := listOwner q.list s
    let reserved := match owner with | some i => (s.entry i).resPages | none => 0
    let pool := (s.region h.pool).getD h.region
    match takePages pool need reserved s with
    | none => (.admitMemory, 0, s.modTtRegs w.part (fun r => { r with refusedMem := satBv r.refusedMem 1 }))
    | some (ps, s1) =>
      let s2 := match owner with
        | some i => s1.modEntry i (fun e => { e with resPages := e.resPages - min need reserved })
        | none => s1
      let s3 := enterBlocks q.list layer bs ps s2
      let rows := srcRows s q
      let bad := rows.any (fun r => rowPoisoned w h r s)
      match listAt s3 q.list with
      | none => (.internal, 0, s3)
      | some h3 =>
        let s4 := rows.zipIdx.foldl (fun s r => appendRow w h3 (q.length + r.2) r.1 s) s3
        (if bad then .poisonConsumed else .ok, 0, publish h3 layer (q.length + q.qCount) s4)

/-- A sequence of an operation ends with a status. -/
def SeqOp.done (o : SeqOp) (i : Nat) (st : Status) (cause : Nat) : SeqOp :=
  { o with seqs := o.seqs.zipIdx.map (fun q =>
      if q.2 = i then { q.1 with phase := .done, status := st, cause := BitVec.ofNat 8 cause } else q.1) }

/-- What a scatter gives its record: it reads its sequence table and the source rows of keys and values (R264, R265). -/
def scatterInfo (w : Work) (st : Status) (s : State) : StepInfo :=
  { opInfo w st [] with regions := inputRegions s [refAt w.body 16, refAt w.body 24, refAt w.body 32] }

/-- A sequence's turn comes: its rows are written and its commits published, and the last sequence completes the scatter (R292
to R296); no row set of a saved context begins (R698). -/
def execScatterTurn (wid seq : Nat) (s : State) : Host.Outcome State Fault Refusal :=
  resume wid s (fun p => match p with | .scatter o => some o | _ => none) (fun w o s =>
    match o.seqs[seq]? with
    | none => s
    | some q =>
      if q.phase = .done ∨ !ctxGiven w s ∨ !scatterTurn w seq s then s else
      let r := scatterSeq w (seqRec s (refAt w.body 16) seq) s
      let s1 := putStatus (refAt w.body 16) seq r.1 r.2.2
      let o' := o.done seq r.1 r.2.1
      if o'.seqs.all (fun q => q.phase == .done) then
        finishOp w (scatterInfo w (seqOutcome o').1 s1) (seqOutcome o').2 s1
      else s1.setProg wid (.scatter o'))

/-! ## Freezing, spilling, fetching, freeing -/

/-- Whether a freeze, spill, fetch or free has its turn on its list (R322). -/
def listTurn (w : Work) (s : State) : Bool :=
  !s.work.any (fun x => decide (x.wid < w.wid) && decide (0x34 ≤ x.opcode.toNat ∧ x.opcode.toNat ≤ 0x37) && dat x.body 8 64 == dat w.body 8 64)

/-- A list operation starts in its turn, its list checked (R322, R330). -/
def startList (wid : Nat) (op : Byte) (s : State) (checks : Work → ListHdr → State → List (Bool × (Status × Nat)))
    (f : Work → ListHdr → State → State) : Host.Outcome State Fault Refusal :=
  start wid op s (fun w s =>
    if !listTurn w s then s else
    let ref := dat w.body 8 64
    if listForeign s w ref then complete w .tenantMismatch 0 s else
    match listAt s ref with
    | none => malformed w 0x03 s
    | some h =>
      match firstFail (checks w h s) with
      | some (.tenantMismatch, _) => complete w .tenantMismatch 0 s
      | some (st, r) => if h.st ≠ 1 ∧ r ≠ 0x03 then malformed w 0x04 s else complete w st r s
      | none => if h.st ≠ 1 then malformed w 0x04 s else f w h s)

/-- Sets FROZEN in consecutive entries from page index `a`. -/
def freezeEnts (h : ListHdr) (a : Nat) : Nat → State → State
  | 0, s => s
  | k + 1, s => freezeEnts h (a + 1) k (putEnt h a { pageEnt s h a with frozen := true } s)

/-- Marks a prefix of a list immutable (R316). -/
def execKvFreeze (wid : Nat) (s : State) : Host.Outcome State Fault Refusal :=
  startList wid 0x34 s (fun w h _ =>
      let u := dat w.body 16 32
      [(u % geoT h.geometry != 0 || decide (u < h.frozen) || decide (u > h.commit), (.malformed, 0x09))])
    (fun w h s =>
      let u := dat w.body 16 32
      let n := u / geoT h.geometry * h.g
      finishOp w (opInfo w .ok []) 0 (putHdr h 4 4 u (freezeEnts h 0 n s)))

/-- Pages a KV_SPILL or KV_FETCH names: the first index and their number (R317). -/
def pageRange (w : Work) (h : ListHdr) : Nat × Nat := (dat w.body 20 32 * h.g, dat w.body 24 32 * h.g)

/-- The checks of KV_SPILL beyond its list (R317 to R319, R330, R452). (DEDUCED, log entry 43.) -/
def spillChecks (w : Work) (h : ListHdr) (s : State) : List (Bool × (Status × Nat)) :=
  let d := w.body
  let mode := dat d 16 8
  let tier := dat d 17 8
  let loc := fld (dat d 32 64) 0 46
  let n := (pageRange w h).2
  let r := s.ddrRegion (locRegion loc)
  let k := s.keySlot (dat d 18 16)
  let want : DdrState := if mode = 0 then .unsealed else .sealed
  [((tier == 1 && r.st != .undeclared && r.tenant != w.tenant) || (tier == 2 && k.bound && k.tenant != w.tenant), (.tenantMismatch, 0)),
   (tier == 1 && r.st != .undeclared && decide (16 * (locPage loc + n) > blockPlaces r), (.malformed, 0x03)),
   (dat d 24 32 == 0, (.malformed, 0x08)),
   (decide ((dat d 20 32 + dat d 24 32) * geoT h.geometry > h.frozen), (.malformed, 0x09)),
   (decide (mode > 1) || !(tier == 1 || tier == 2) || (tier == 1 && (r.st != want || w.notUnsealed)), (.malformed, 0x0A)),
   (tier == 2 && (decide (dat d 18 16 ≥ 4096) || !k.bound), (.malformed, 0x0B))]

/-- Rewrites the entries of a rebound range; HBM pages they leave wait for the operations that may read them (R319). -/
def rebindPages (w : Work) (h : ListHdr) (readers : List Nat) (n0 : Nat) : Nat → State → State
  | 0, s => s
  | k + 1, s =>
    let tier := dat w.body 17 8
    let n := n0 + k
    let e := pageEnt s h n
    let loc := fld (dat w.body 32 64) 0 46 + 65536 * k
    let s1 := putEnt h n { tier, frozen := true, keyslot := if tier = 2 then dat w.body 18 16 else 0, loc } s
    let s2 := if e.tier = 0 then s1.modPool h.pool (fun p => { p with waiting := p.waiting ++ [(locPage e.loc, readers)] }) else s1
    rebindPages w h readers n0 k s2

/-- Copies frozen pages to a lower tier, or rebinds their entries there (R317 to R320). -/
def execKvSpill (wid : Nat) (s : State) : Host.Outcome State Fault Refusal :=
  startList wid 0x35 s spillChecks (fun w h s =>
    let (n0, n) := pageRange w h
    if dat w.body 16 8 = 1 then
      let readers := (s.work.filter (fun x => decide (x.wid < w.wid) && usesList s (dat w.body 8 64) x)).map (fun x => x.wid)
      finishOp w (opInfo w .ok []) 0 (rebindPages w h readers n0 n s)
    else if !hasCodec w.part s then dutyEmpty w.part w s
    else
      let o : BlockOp := { total := 16 * n }
      let s1 := s.setProg wid (if codesRemote w then .remoteAck o else .coding o)
      let s2 := if codesRemote w then s1 else
        s1.modDdr (locRegion (fld (dat w.body 32 64) 0 46)) (fun r => { r with inFlight := r.inFlight + 16 * n })
      (List.range n).foldl (fun s k =>
        let e := pageEnt s h (n0 + k)
        if e.tier = 0 then s else readPage w (16 * k) e s) s2)

/-- The operations that could read a rebound page have ended: it returns to its pool (R289, R319). -/
def execRebindPageReturn (pool page : Nat) (s : State) : Host.Outcome State Fault Refusal :=
  actIf s ((s.pool pool).waiting.any (fun x => x.1 == page && x.2.all (fun i => (s.item i).isNone))) (fun s =>
    returnPages pool [page] (s.modPool pool (fun p => { p with waiting := p.waiting.filter (fun x => x.1 != page) })))

/-- The pages of a range that are not in HBM, as far as the pool supplies them (R321). -/
def fetchPages (h : ListHdr) (n0 : Nat) (pool : Region) : List Nat → List (Nat × Nat) → State → List (Nat × Nat) × Bool × State
  | [], got, s => (got, true, s)
  | k :: rest, got, s =>
    let e := pageEnt s h (n0 + k)
    if e.tier = 0 ∨ e.tier = 3 then fetchPages h n0 pool rest got s
    else match takePages pool 1 0 s with
      | some ([p], s1) => fetchPages h n0 pool rest (got ++ [(n0 + k, p)]) s1
      | _ => (got, false, s)

/-- Brings lower-tier pages back into HBM (R321). -/
def execKvFetch (wid : Nat) (s : State) : Host.Outcome State Fault Refusal :=
  startList wid 0x36 s (fun w h _ => [(decide ((pageRange w h).1 + (pageRange w h).2 > h.pages), (.malformed, 0x09))])
    (fun w h s =>
      let (n0, n) := pageRange w h
      let ents := fetchPages h n0 ((s.region h.pool).getD h.region) (List.range n) [] s
      let worst : Status := if ents.2.1 then .ok else .admitMemory
      if ents.1.isEmpty then finishOp w (opInfo w worst []) 0 ents.2.2
      else if !hasCodec w.part s then dutyEmpty w.part w s
      else
        let o : BlockOp := { total := 16 * ents.1.length, worst, pages := ents.1 }
        ents.1.zipIdx.foldl (fun t p => readPage w (16 * p.2) (pageEnt s h p.1.1) t) (ents.2.2.setProg wid (.fetching o)))

/-- A list goes to FREEING (R324). -/
def execKvListFree (wid : Nat) (s : State) : Host.Outcome State Fault Refusal :=
  startList wid 0x37 s (fun _ _ _ => []) (fun w h s => putHdr h 22 1 2 (s.setProg w.wid .list))

/-- Every earlier operation on a FREEING list has completed: its pages and chunks return (R324, R327). -/
def execKvListFreeComplete (wid : Nat) (s : State) : Host.Outcome State Fault Refusal :=
  resume wid s (fun p => match p with | .list => some () | _ => none) (fun w _ s =>
    let ref := dat w.body 8 64
    if s.work.any (fun x => decide (x.wid < w.wid) && usesList s ref x) then s
    else finishOp w (opInfo w .ok []) 0 (freeList ref s))

/-- Binds or clears a remote page key slot (R325). -/
def execKvKeyslotSet (wid : Nat) (s : State) : Host.Outcome State Fault Refusal :=
  start wid 0x38 s (fun w s =>
    let d := w.body
    let n := dat d 8 16
    let k := s.keySlot n
    if n < 4096 ∧ k.bound ∧ k.tenant ≠ w.tenant then complete w .tenantMismatch 0 s
    else if n ≥ 4096 then malformed w 0x08 s
    else
      let k' : KeySlot := if (dat d 16 8).testBit 0 then {} else
        { bound := true, tenant := w.tenant, node := dat d 10 7, cls := dat d 11 3, regionKey := BitVec.ofNat 32 (dat d 12 32) }
      finishOp w (opInfo w .ok []) 0 { s with mem := { s.mem with keySlots := tput s.mem.keySlots n k' {} } })

end Sys2Proof.Machine
end

