-- ==== Sys2Proof/Machine/CheckLines.lean ====
section
/-! DEFINITION. One product as the array computes it, with its check lines: the accumulators (R202 to R204), the input line sums (R238,
R240), the check values and absolute sums (R237, R239), the threshold (R243) and the compare of every line (R241, R246, R248). -/

namespace Sys2Proof.Machine

/-! ## Operand parts (R203) -/

/-- hi and lo of R203; a subnormal lo is flushed. -/
def hiPart (x : Num) : Num := x.toTf32
def loPart (x : Num) : Num :=
  match x with
  | .fin _ _ _ =>
    match (sumNums [x, (hiPart x).negate]).toTf32 with
    | .fin neg m e => if m = 0 ∨ (Nat.log2 m : Int) + e < -126 then .fin neg 0 0 else .fin neg m e
    | y => y
  | _ => .zero

/-- Which part of an operand a pass reads. -/
inductive Part where
  | whole | hi | lo
deriving DecidableEq, Repr

/-- An operand element: the value its code spells, and the code of its block's scale, 127 where it has none (R192). -/
structure Elem where
  raw   : Num
  scale : Nat := 127

/-- The part of an element that a pass reads, its block scale applied: the split is of the element, the scale multiplies what comes of
it (R202, R203). -/
def Elem.part (x : Elem) : Part → Num
  | .whole => x.raw.scale x.scale
  | .hi => (hiPart x.raw).scale x.scale
  | .lo => (loPart x.raw).scale x.scale

/-! ## A product -/

/-- A product of one array tile: at most 128 rows and columns of C = A × B over the whole of K, with the formats' grouping. `a i k` is
row i of A, `b j k` row j of the transpose of B, `c0 i j` the starting accumulator (R194, R213). -/
structure Product where
  int   : Bool
  split : Bool
  group : Nat
  len   : Nat
  rows  : Nat
  cols  : Nat
  a     : Nat → Nat → Elem
  b     : Nat → Nat → Elem
  c0    : Nat → Nat → Nat

/-- The passes over the operands: four where an input is FP32 (R203). -/
def Product.passes (p : Product) : List (Part × Part) :=
  if p.split then [(.lo, .lo), (.lo, .hi), (.hi, .lo), (.hi, .hi)] else [(.whole, .whole)]

/-- The groups in their order: the parts of the pass and the first k (R202, R240). -/
def Product.groups (p : Product) : List ((Part × Part) × Nat) :=
  p.passes.flatMap (fun q => (List.range (ceilDiv p.len p.group)).map (fun t => (q, p.group * t)))

/-- The k of a group that lie inside K. -/
def Product.ks (p : Product) (k : Nat) : List Nat := ((List.range p.group).map (k + ·)).filter (fun x => decide (x < p.len))

/-- Adds exact terms to an FP32 accumulator with one rounding to nearest even (R202). -/
def accAdd (acc : Nat) (terms : List Num) : Nat := (sumNums [f32 acc, sumNums terms]).toF32

/-- The floating accumulator of element (i, j). -/
def Product.acc (p : Product) (i j : Nat) : Nat :=
  p.groups.foldl (fun acc g => accAdd acc ((p.ks g.2).map (fun k => ((p.a i k).part g.1.1).mul ((p.b j k).part g.1.2)))) (p.c0 i j)

/-- The exact integer of a value. -/
def Num.toInt : Num → Int
  | .fin neg m e => let v : Int := (m * pow2 e : Nat); if neg then -v else v
  | _ => 0

def Product.intA (p : Product) (i k : Nat) : Int := (p.a i k).raw.toInt
def Product.intB (p : Product) (j k : Nat) : Int := (p.b j k).raw.toInt

/-- An integer modulo 2^32, as the accumulator's bits. -/
def mod32 (x : Int) : Nat := (x % 2 ^ 32).toNat

/-- The exact integer sum of element (i, j) (R204). -/
def Product.intSum (p : Product) (i j : Nat) : Int :=
  toSigned 32 (p.c0 i j) + ((List.range p.len).map (fun k => p.intA i k * p.intB j k)).sum

/-- Whether an integer sum lies outside the INT32 range (R204). -/
def wraps (x : Int) : Bool := decide (x < -(2 ^ 31)) || decide (x ≥ 2 ^ 31)

/-- The accumulators by row, each with whether it wrapped. -/
def Product.accs (p : Product) : List (List (Nat × Bool)) :=
  (List.range p.rows).map (fun i => (List.range p.cols).map (fun j =>
    if p.int then (mod32 (p.intSum i j), wraps (p.intSum i j)) else (p.acc i j, false)))

/-! ## Check values (R237 to R240) -/

/-- The code of a magnitude rounded toward +∞ in FP32. -/
def Num.toF32Up : Num → Nat
  | .nan => 0x7FC00000
  | .inf neg => 0x7F800000 + 0x80000000 * b2n neg
  | .fin _ m e =>
    if m = 0 then 0 else
      let q : Int := Max.max (-149) ((Nat.log2 m : Int) + e - 23)
      let k := if e ≥ q then m * pow2 (e - q) else (m + pow2 (q - e) - 1) / pow2 (q - e)
      Min.min 0x7F800000 ((q + 149).toNat * 2 ^ 23 + k)

/-- A product seen from its columns: A and B change places. -/
def Product.turned (p : Product) : Product :=
  { p with rows := p.cols, cols := p.rows, a := p.b, b := p.a, c0 := fun i j => p.c0 j i }

/-- The input line sums of a pass at k, over the rows of B: the sum rounded to nearest even, and the sum of magnitudes rounded toward
+∞ (R238). -/
def Product.lineSum (p : Product) (part : Part) (k : Nat) : Nat := (sumNums ((List.range p.cols).map (fun j => (p.b j k).part part))).toF32
def Product.lineAbs (p : Product) (part : Part) (k : Nat) : Nat :=
  (sumNums ((List.range p.cols).map (fun j => ((p.b j k).part part).abs))).toF32Up

/-- The part that the second operand of a pass is, seen from the rows or the columns. -/
def passPart (fromCols : Bool) (q : Part × Part) : Part × Part := if fromCols then (q.2, q.1) else q

/-- The checksum value of row line i: Σ a_ik s_k after the exact sum of the starting row (R237, R238). -/
def Product.rowSum (p : Product) (turned : Bool) (i : Nat) : Nat :=
  p.groups.foldl (fun acc g =>
    let q := passPart turned g.1
    accAdd acc ((p.ks g.2).map (fun k => ((p.a i k).part q.1).mul (f32 (p.lineSum q.2 k)))))
    (sumNums ((List.range p.cols).map (fun j => f32 (p.c0 i j)))).toF32

/-- The absolute sum W of row line i: P accumulates |a_ik| σ_k group by group, and W the values of P, each rounded toward +∞
(R239). -/
def Product.rowAbs (p : Product) (turned : Bool) (i : Nat) : Nat :=
  let start := (sumNums ((List.range p.cols).map (fun j => (f32 (p.c0 i j)).abs))).toF32Up
  (p.groups.foldl (fun (pw : Nat × Nat) g =>
    let q := passPart turned g.1
    let pNew := (sumNums [f32 pw.1, sumNums ((p.ks g.2).map (fun k => ((p.a i k).part q.1).abs.mul (f32 (p.lineAbs q.2 k))))]).toF32Up
    (pNew, (sumNums [f32 pw.2, f32 pNew]).toF32Up)) (start, 0)).2

/-- The checksum and the weighted sum of row line i of an integer product, modulo 2^32; both take in the starting row, as R244 needs.
(DEDUCED, log entry 90.) -/
def Product.intRow (p : Product) (weight : Nat → Int) (i : Nat) : Nat :=
  let line (k : Nat) : Int := ((List.range p.cols).map (fun j => weight j * p.intB j k)).sum
  mod32 (((List.range p.len).map (fun k => p.intA i k * line k)).sum +
    ((List.range p.cols).map (fun j => weight j * toSigned 32 (p.c0 i j))).sum)

/-- The two check values of row line i: checksum, and absolute sum or weighted sum. -/
def Product.rowCheck (p : Product) (turned : Bool) (i : Nat) : Nat × Nat :=
  if p.int then (p.intRow (fun _ => 1) i, p.intRow (fun j => (j : Int) + 1) i) else (p.rowSum turned i, p.rowAbs turned i)

/-! ## The compare (R241, R243, R246, R248) -/

/-- The threshold T = c × u × W + 2^−110, with u = 2^−24, rounded toward +∞ (R243). -/
def threshold (c w : Nat) : Nat := (sumNums [(f32 w).mul (.fin false c (-24)), .fin false 1 (-110)]).toF32Up

/-- The constant c of R243. -/
def Product.c (p : Product) : Nat := if p.split then 16 else 8

/-- What the compare of a line finds. -/
inductive LineOut where
  | pass | fail | unchecked
deriving DecidableEq, Repr

/-- Whether a value is infinite or NaN. -/
def Num.special : Num → Bool
  | .fin _ _ _ => false
  | _ => true

/-- Whether a value lies beyond the FP32 range. -/
def Num.beyond (x : Num) : Bool := (Num.fin false 0xFFFFFF 104).lt x.abs

/-- The compare of a floating line: its accumulators, its checksum and its absolute sum (R241, R243, R248). (DEDUCED, log entry 113.) -/
def floatLine (c : Nat) (accs : List Nat) (chk abs : Nat) : LineOut :=
  let xs := accs.map f32
  let t := f32 (threshold c abs)
  let wide := sumNums xs
  if xs.any Num.special then (if (f32 chk).special then .unchecked else .fail)
  else if (f32 chk).special || t.special || wide.beyond then .unchecked
  else if t.lt (sumNums [wide, (f32 chk).negate]).abs then .fail else .pass

/-- The compare of an integer line: the plain and the weighted sums, modulo 2^32 (R241). -/
def intLine (accs : List Nat) (chk weighted : Nat) : LineOut :=
  if accs.sum % 2 ^ 32 = chk ∧ (accs.zipIdx.map (fun x => (x.2 + 1) * x.1)).sum % 2 ^ 32 = weighted then .pass else .fail

/-- What the check of an array tile saw: the lowest failing row and column line, and the lines left unchecked (R248, R275). -/
structure Lines where
  rowFail   : Option Nat := none
  colFail   : Option Nat := none
  unchecked : Nat := 0
deriving DecidableEq, Repr

/-- The first tile's failures stand; the counts add. -/
def Lines.join (a b : Lines) : Lines :=
  if a.rowFail.isSome || a.colFail.isSome then { a with unchecked := a.unchecked + b.unchecked } else { b with unchecked := a.unchecked + b.unchecked }

def Lines.failed (x : Lines) : Bool := x.rowFail.isSome || x.colFail.isSome

/-- Accumulator (i, j) as it stands at the compare: its exact value, or what a fault left (R247). A cell beyond the operands' rows or
columns accumulates zeros. -/
def cellAt (tile : Nat) (errs : List CellErr) (accs : List (List (Nat × Bool))) (i j : Nat) : Nat :=
  match errs.find? (fun e => e.tile == tile && e.row == i && e.col == j) with
  | some e => e.value.toNat
  | none => (nth (nth accs i []) j (0, false)).1

/-- A check value as it stands at the compare. -/
def lineVal (tile : Nat) (errs : List LineErr) (col second : Bool) (i v : Nat) : Nat :=
  match errs.find? (fun e => e.tile == tile && e.col == col && e.second == second && e.idx == i) with
  | some e => e.value.toNat
  | none => v

/-- The lines of one direction that lie inside the operands or that a fault touched: every other line compares zero with zero. -/
def linesUsed (tile : Nat) (o : TileObs) (col : Bool) (n : Nat) : List Nat :=
  (List.range 128).filter (fun i => decide (i < n) ||
    o.cells.any (fun e => e.tile == tile && (if col then e.col else e.row) == i) || o.lines.any (fun e => e.tile == tile && e.col == col && e.idx == i))

/-- The compare of the lines of one direction: the failing and the unchecked ones. -/
def Product.compare (p : Product) (o : TileObs) (tile : Nat) (col : Bool) (at_ : Nat → Nat → Nat) : List Nat × Nat :=
  let outs := (linesUsed tile o col p.rows).map (fun i =>
    let v := if i < p.rows then p.rowCheck col i else (0, 0)
    let chk := lineVal tile o.lines col false i v.1
    let snd := lineVal tile o.lines col true i v.2
    let cells := (linesUsed tile o (!col) p.cols).map (fun j => at_ i j)
    (i, if p.int then intLine ((List.range 128).map (fun j => at_ i j)) chk snd else floatLine p.c cells chk snd))
  ((outs.filter (fun x => x.2 == .fail)).map Prod.fst, (outs.filter (fun x => x.2 == .unchecked)).length)

/-- Runs the product on a Stand: its accumulators as they stand at the compare, and what the compare of all lines saw. `tile` is the
number of the array tile within the computation. -/
def Product.run (p : Product) (o : TileObs) (tile : Nat) : List (List (Nat × Bool)) × Lines :=
  let accs := p.accs
  let at_ := cellAt tile o.cells accs
  let rows := p.compare o tile false at_
  let cols := p.turned.compare o tile true (fun j i => at_ i j)
  ((List.range p.rows).map (fun i => (List.range p.cols).map (fun j => (at_ i j, (nth (nth accs i []) j (0, false)).2))),
   { rowFail := rows.1.head?, colFail := cols.1.head?, unchecked := rows.2 + cols.2 })

/-- The product's columns from 128 × n on, as one array tile takes them. -/
def Product.colTile (p : Product) (n : Nat) : Product :=
  { p with cols := min 128 (p.cols - 128 * n), b := fun j => p.b (128 * n + j), c0 := fun i j => p.c0 i (128 * n + j) }

/-- A product of any number of columns: its array tiles from number `tile` on, the rows of its accumulators, and what the checks saw. -/
def Product.runWide (p : Product) (o : TileObs) (tile : Nat) : List (List Nat) × Lines :=
  (List.range (ceilDiv p.cols 128)).foldl (fun acc n =>
    let r := (p.colTile n).run o (tile + n)
    (acc.1.zipWith (· ++ ·) (r.1.map (fun row => row.map Prod.fst)), acc.2.join r.2)) (List.replicate p.rows [], {})

/-! ## Vector lanes (R259) -/

/-- Whether the residue or parity check of a lane sees a fault: a residue code of modulus 7 sees every error that is no multiple of 7,
parity every odd number of flipped bits. (DESIGN CHOICE, log entry 125.) -/
def laneSeen (e : LaneErr) : Bool :=
  match e.part with
  | .table => decide (((List.range 64).filter (fun i => e.off.testBit i)).length % 2 = 1)
  | _ => decide (e.off % 7 ≠ 0)

/-- An operand element's code as this Stand's fetch read it (R247). -/
def fetched (o : TileObs) (operand row idx : Nat) (code : Nat) : Nat :=
  match o.fetch.find? (fun e => e.operand == operand && e.row == row && e.idx == idx) with
  | some e => e.code.toNat
  | none => code

/-- What a computation came to: what its checks saw, and its output. -/
structure Comp where
  lines    : Lines := {}
  convFail : Bool := false
  resFail  : Bool := false
  out      : TileOut := {}
deriving DecidableEq, Repr

end Sys2Proof.Machine
end

