-- ==== Sys2Proof/Machine/Check.lean ====
section
/-! DEFINITION. Checked computations: which Stand runs a tile, chunk or unit (R230, R231, R249, R256), what its check leads to
(R241 to R260), the counters and charges (R260, R261, R275, R276), and the statuses of R254. -/

namespace Sys2Proof.Machine

/-! ## Statuses -/

/-- The order of R254. -/
def opRank (st : Status) : Nat :=
  match st with
  | .internal => 0 | .codeInvalid => 1 | .poisonConsumed => 2 | .checkFail => 3 | .okRecomputed => 4 | .ok => 5 | _ => 6

/-- The first of two outcomes in the order of R254. -/
def worseOp (a b : Status) : Status := if opRank a ≤ opRank b then a else b

/-! ## Policy and sampling -/

/-- ON_FAIL of the image: true poisons a tile at its first failed check (R150, R251). -/
def onFail (s : State) : Bool := match s.img.image with | some i => i.onFail | none => false

/-- RECOMPUTE_LIMIT (R150). -/
def recomputeLimit (s : State) : Nat := match s.img.image with | some i => i.recompute | none => 0

/-- The exponent for an operation: XK, or that in force, whichever is less (R212, R255). -/
def exponent (p xk : Nat) (s : State) : Nat :=
  let k := (tget s.img.xcheck p 0).toNat
  if xk = 0xFF then k else min xk k

/-- Whether a tile of an operation is sampled (R255). -/
def sampled (p : Nat) (c : ChkCnt) (tile : Nat) (s : State) : Bool :=
  Config.sampleHash (s.chain p).secret p c.opSeq tile % 2 ^ c.xk == 0

/-- Gives an operation its number for sampling. -/
def newOp (p xk : Nat) (s : State) : ChkCnt × State :=
  ({ xk := exponent p xk s, opSeq := s.groves.opSeq }, { s with groves := { s.groves with opSeq := s.groves.opSeq + 1 } })

/-! ## Stands -/

/-- Whether a Stand's physical Stand is being retired: it gets no new work (R660). -/
def retiringStand (s : State) (x : Nat × Nat) : Bool :=
  match (s.stand x.1 x.2).physical with
  | some p => (s.phys x.1 p).retiring
  | none => true

/-- The Stands of a duty that may be given work in a partition. -/
def workStands (p duty : Nat) (s : State) : List (Nat × Nat) := (standsOf p duty s).filter (fun x => !retiringStand s x)

/-- The lowest logical ID, then the lowest Grove, of a list of Stands. -/
def lowestStand : List (Nat × Nat) → Option (Nat × Nat)
  | [] => none
  | x :: r => match lowestStand r with
    | some y => some (if y.2 < x.2 ∨ (y.2 = x.2 ∧ y.1 < x.1) then y else x)
    | none => some x

/-- The preferred Stand within a rank: one of `best`, then the one that last computed a tile of the operation, then the lowest logical
ID (R230). -/
def preferred (best last cands : List (Nat × Nat)) : Option (Nat × Nat) :=
  let pick (l : List (Nat × Nat)) : Option (Nat × Nat) :=
    match last.find? (fun x => l.any (· == x)) with
    | some x => some x
    | none => lowestStand l
  (pick (cands.filter (fun x => best.any (· == x)))).orElse (fun _ => pick cands)

/-- The Stand a tile is given first: the first rank from its own that offers an idle Stand, or the rank at which it waits; a wait of 0
takes any idle Stand at once (R230, R231). `ranks` are the eligible Stands by rank, `best` those preferred within one. -/
def firstStand (s : State) (best last : List (Nat × Nat)) (rank : Nat) : Nat → List (List (Nat × Nat)) → Except Nat (Nat × Nat)
  | _, [] => .error rank
  | r, c :: rest =>
    if r < rank ∨ c.isEmpty then firstStand s best last rank (r + 1) rest
    else match preferred best last (c.filter (fun x => !(s.stand x.1 x.2).busy)) with
      | some x => .ok x
      | none =>
        if (s.grove ((c.head?.map Prod.fst).getD 0)).affinityWait ≠ 0 then .error r
        else firstStand s best last rank (r + 1) rest

/-- The Stand of a recomputation, cross-check or arbitration (R249, R256, R257). -/
def againStand (p : Nat) (t : TileSt) (s : State) (duty : Nat := 0) : Option (Nat × Nat) :=
  let all := workStands p duty s
  let fresh := all.filter (fun x => !t.computed.any (· == x))
  let idle := fresh.filter (fun x => !(s.stand x.1 x.2).busy)
  let home := (t.computed.head?.map Prod.fst).getD 0
  if !fresh.isEmpty then (lowestStand (idle.filter (fun x => x.1 != home))).orElse (fun _ => lowestStand idle)
  else
    let free (x : Nat × Nat) : Option (Nat × Nat) := if (s.stand x.1 x.2).busy then none else some x
    match t.computed.head? with
    | none => lowestStand (all.filter (fun x => !(s.stand x.1 x.2).busy))
    | some x =>
      if all.any (· == x) then free x
      else
        let old := (t.computed.reverse).filter (fun y => all.any (· == y))
        ((old.find? (fun y => y.1 != home)).orElse (fun _ => old.head?)).bind free

/-- The mapping of a computation: the first and a cross-check are normal, a recomputation and an arbitration transposed; the Stand that
computed the tile last takes the other one (R249, R256, R257). (DESIGN CHOICE, log entry 112.) -/
def mappingOn (t : TileSt) (x : Nat × Nat) : Bool :=
  if t.computed.head? = some x then !t.transposed else t.kind == .recompute || t.kind == .arbitrate

/-- A tile as it starts on a Stand. -/
def TileSt.startOn (t : TileSt) (x : Nat × Nat) (s : State) : TileSt :=
  { t with running := some x, phys := (s.stand x.1 x.2).physical.getD 0xFF, since := s.clk.sc, transposed := mappingOn t x,
           home := t.home.orElse (fun _ => some x.1) }

/-! ## What a computation leads to -/

/-- What becomes of a tile after a computation. -/
inductive Fate where
  | again
  | write (out : TileOut)
  | poison (st : Status)
deriving DecidableEq, Repr

/-- A verdict: the tile, its fate, the physical Stands charged (Grove and number), and whether a cross-check mismatched. -/
structure Verdict where
  tile     : TileSt
  fate     : Fate
  charge   : List (Nat × Nat) := []
  mismatch : Bool := false

/-- A failed check: another computation while the limit allows one, else poison (R249 to R251). -/
def failed (onFail : Bool) (limit : Nat) (t : TileSt) (charge : List (Nat × Nat)) (mismatch : Bool) : Verdict :=
  if t.dead ∨ onFail ∨ t.recomputes ≥ limit then { tile := t, fate := .poison .checkFail, charge, mismatch }
  else { tile := { t with kind := .recompute, recomputes := t.recomputes + 1, again := true }, fate := .again, charge, mismatch }

/-- A third computation beside two that differ: the Stand outvoted is charged, and the output the two agree on is written; a tile that
is dead is not (R257, R258, R260). All three different: a failed check, and no Stand is charged. -/
def arbitrated (onFail : Bool) (limit : Nat) (t : TileSt) (a b : Passed) (out : TileOut) : Verdict :=
  let won (x y : Passed) : Verdict :=
    { tile := t, fate := if t.dead then .poison .checkFail else .write x.out, charge := [(y.stand.1, y.phys)] }
  if out.rows = a.out.rows then won a b else if out.rows = b.out.rows then won b a
  else failed onFail limit { t with passed := [] } [] false

/-- The verdict on a computation that passed its check or not, with the output it gave (R249 to R258, R260). A cross-check that no other
Stand was left for is compared as it is. A Stand that is being
retired gives nothing: the tile is computed again elsewhere, no limit counting it (R261, R660). (DEDUCED, log entries 38, 91, 120.) -/
def judge (onFail : Bool) (limit : Nat) (t0 : TileSt) (st : Nat × Nat) (retiring pass : Bool) (out : TileOut) : Verdict :=
  let t := { t0 with running := none, computed := st :: t0.computed.filter (· != st) }
  let me := [(st.1, t0.phys)]
  if retiring then
    { tile := { t with kind := if t0.kind = .first then .recompute else t0.kind }, fate := .again, charge := if pass then [] else me }
  else if !pass then failed onFail limit t me false
  else match t.passed with
    | a :: b :: _ => arbitrated onFail limit t a b out
    | l =>
      let mine : Passed := { stand := st, phys := t0.phys, out }
      if t0.kind = .arbitrate then failed onFail limit t [] false
      else if !t.sampled then { tile := { t with passed := l ++ [mine] }, fate := .write out }
      else match (if t0.computed.any (· == st) then l.head? else l.find? (fun x => x.stand != st)) with
        | none => { tile := { t with passed := (l ++ [mine]).take 1, kind := .cross }, fate := .again }
        | some a =>
          if a.out.rows = out.rows then { tile := { t with passed := l ++ [mine] }, fate := .write out }
          else { tile := { t with passed := [a, mine], kind := .arbitrate, again := true, dead := onFail }, fate := .again, mismatch := true }

/-- The status a written tile gives its operation (R250, R257). -/
def tileStatus (t : TileSt) : Status := if t.again then .okRecomputed else .ok

/-! ## Registers that follow a computation -/

/-- Adds to the flash's list of retired Stands (R662). -/
def flashRetire (g p : Nat) (s : State) : State :=
  if s.flash.retired.any (· == (g, p)) then s else { s with flash := { s.flash with retired := s.flash.retired ++ [(g, p)] } }

/-- Charges a physical Stand; at the Grove's limit it is retired (R260, R261, R662). One that no longer works takes no charge. -/
def chargeStand (x : Nat × Nat) (s : State) : State :=
  if (s.phys x.1 x.2).st ≠ .active then s else
  let c := (s.phys x.1 x.2).charges + 1
  let out := decide (c ≥ max 1 (s.grove x.1).retireLimit.toNat)
  let s1 := s.modPhys x.1 x.2 (fun y => { y with charges := c, retiring := y.retiring || out })
  if out then flashRetire x.1 x.2 s1 else s1

/-- GV_CHK_LAST after a failure or mismatch (R275). -/
def lastOf (x : Nat × Nat) (kind fmt : Nat) (l : Lines) : ChkLast :=
  { valid := true, stand := BitVec.ofNat 7 x.2, kind := BitVec.ofNat 4 kind, format := BitVec.ofNat 4 fmt,
    row := BitVec.ofNat 7 (if kind = 1 then l.rowFail.getD 0 else 0), rowValid := kind == 1 && l.rowFail.isSome,
    col := BitVec.ofNat 7 (if kind = 1 then l.colFail.getD 0 else 0), colValid := kind == 1 && l.colFail.isSome }

/-- What a Stand computes: an output tile, a vector chunk, or an attention unit, which has both. -/
inductive RunKind where
  | tile | chunk | unit
deriving DecidableEq, Repr

/-- Counts an injection down where the checker runs in this kind of computation. -/
def injectIf (c : Bool) (checker unit : Nat) (s : State) : Bool × State := if c then injectHit checker unit s else (false, s)

/-- What the checks of a computation saw, injections included: the lines, the KIND of the failure, 0 if it passed, and whether an
injection hit: inverted check bits fail the first line of each direction (R241, R242, R259, R275, R710). (DESIGN CHOICE, log
entry 125.) -/
def observe (x : Nat × Nat) (rk : RunKind) (c : Comp) (s : State) : Lines × Nat × Bool × State :=
  let unit := 256 * x.1 + x.2
  let i1 := injectIf (rk != .chunk) 0x01 unit s
  let i2 := injectIf (rk != .chunk) 0x02 unit i1.2
  let i3 := injectIf (rk != .tile) 0x03 unit i2.2
  let l : Lines := if i1.1 then { c.lines with rowFail := some 0, colFail := some 0 } else c.lines
  let k := if l.failed then 1 else if c.convFail || i2.1 then 2 else if c.resFail || i3.1 then 4 else 0
  (l, k, i1.1 || i2.1 || i3.1, i3.2)

/-- The registers after a computation that ended on a Stand: the counters of a tile lie in the Grove of its first computation, those of
the Stand and GV_CHK_LAST in its own (R236, R275, R276). The gc beyond those the arithmetic takes were spent waiting for operands. (DESIGN CHOICE, log entry 111.) -/
def countRun (x : Nat × Nat) (t : TileSt) (kind fmt gc : Nat) (l : Lines) (v : Verdict) (s : State) : State :=
  let fail := decide (kind ≠ 0)
  let busy := (s.clk.sc - t.since) * 4 / groveDivider x.1 s
  let s1 := s.modStand x.1 x.2 (fun y => { y with
    busy := false, tiles := y.tiles + 1, activeGc := y.activeGc + gc, stallGc := y.stallGc + (busy - gc),
    fails := if fail then satBv y.fails 1 else y.fails })
  let s2 := s1.modGrove (t.home.getD x.1) (fun g => { g with
    chkTiles := g.chkTiles + b2n (t.kind == .first), chkFail := g.chkFail + b2n fail,
    chkRecomp := g.chkRecomp + b2n (t.kind == .recompute || t.kind == .arbitrate),
    chkXchecked := g.chkXchecked + b2n (t.kind == .first && t.sampled),
    chkMismatch := g.chkMismatch + b2n v.mismatch, chkUnchecked := g.chkUnchecked + l.unchecked })
  let s3 := s2.modGrove x.1 (fun g => { g with
    chkLast := if fail then lastOf x kind fmt l else if v.mismatch then lastOf x 3 fmt l else g.chkLast })
  v.charge.foldl (fun s y => chargeStand y s) s3

/-- What waits for a work item's end (R678). -/
def closersOf (w : Work) : List Closer := match w.src with | .step p _ => [.step p] | .ring _ _ => [.work w.wid]

/-- A tile or chunk is left poisoned by its checks: the fault of source 0x01 (R252, R675). -/
def standFault (w : Work) (x : Nat × Nat) (injected : Bool) (s : State) : State × BitVec 16 :=
  raiseErr { cls := 2, source := 0x01, domain := x.1, cause := Status.checkFail.code,
             detail0 := ((s.stand x.1 x.2).physical.getD 0xFF) * 256 + x.2, detail1 := x.1, ctx := some w.context, tenant := w.tenant,
             part := w.part, who := w.fn, waits := closersOf w, injected } s

/-- An uncorrectable SRAM word read by a tile: the deferred fault of source 0x02 (R186, R675). -/
def sramFault (w : Work) (x : Nat × Nat) (addr : Nat) (injected : Bool) (s : State) : State × BitVec 16 :=
  raiseErr { cls := 1, source := 0x02, domain := x.1, cause := Status.poisonConsumed.code, detail0 := addr, detail1 := x.1,
             ctx := some w.context, tenant := w.tenant, part := w.part, who := w.fn, waits := closersOf w, injected } s

/-- Every tile that reads the word is poisoned (R186): a Canopy word is marked, and so are the resident tiles of an Understory that
the computation reads. -/
def markSram (x : Nat × Nat) (e : SramErr) (res : List ResKey) (s : State) : State :=
  match e.canopy with
  | some g => { s with groves := { s.groves with canopyPoison := tput s.groves.canopyPoison (0x600000 * g + e.word) true false } }
  | none => s.modStand x.1 x.2 (fun y => { y with resident := y.resident.map (fun r => if res.any (· == r.key) then { r with bad := true } else r) })

/-- Whether a Stand holds one of the tiles resident with a bad word. -/
def badResident (x : Nat × Nat) (res : List ResKey) (s : State) : Bool :=
  (s.stand x.1 x.2).resident.any (fun r => r.bad && res.any (· == r.key))

/-- Bytes of an Understory that are the resident store (R224). -/
def residentBytes : Nat := 2883584

/-- The tiles, the latest first, that fit in the store: the least recently used leave it (R224, R327). -/
def fitResident : Nat → List ResTile → List ResTile
  | _, [] => []
  | room, r :: rest => if r.bytes ≤ room then r :: fitResident (room - r.bytes) rest else []

/-- A computation leaves the tiles it read in its Stand's resident store (R224, R327). (DESIGN CHOICE, log entry 115.) -/
def holdTiles (x : Nat × Nat) (new : List ResTile) (s : State) : State :=
  s.modStand x.1 x.2 (fun y =>
    let held := new.map (fun r => (y.resident.find? (fun o => o.key == r.key)).getD r)
    { y with resident := fitResident residentBytes (held ++ y.resident.filter (fun o => !held.any (fun r => r.key == o.key))) })

/-- The contained fault of an uncorrectable HBM line that a descriptor's engine read (R675). -/
def hbmRaise (w : Work) (a : Nat) (injected : Bool) (s : State) : Bool × BitVec 16 × State :=
  let f := raiseErr { hbmErr a injected with ctx := some w.context, tenant := w.tenant, part := w.part, who := w.fn, waits := closersOf w } s
  (true, f.2, f.1)

/-- An injected error of the HBM code on the first line read of an operand: the line reads as uncorrectable (R675, R710).
(DESIGN CHOICE, log entry 88.) -/
def hbmInjected (w : Work) : List (Ref × Nat) → State → Bool × BitVec 16 × State
  | [], s => (false, 0, s)
  | (.hbm id off, o) :: r, s =>
    match s.region id with
    | none => hbmInjected w r s
    | some g =>
      let h := injectHit 0x05 (regionAddr g (off + o) / 2 ^ 36) s
      if h.1 then hbmRaise w (regionAddr g (off + o)) true h.2 else hbmInjected w r s
  | _ :: r, s => hbmInjected w r s

/-- Whether an address lies in a region that one of the operands names. -/
def readsHbm (s : State) (ins : List (Ref × Nat)) (a : Nat) : Bool :=
  ins.any (fun i => match i.1.regionId.bind s.region with | some g => inRegion g a | none => false)

/-- What the HBM code found in the operands an engine read: whether a line could not be corrected, and the record's number (R675). -/
def hbmFault (w : Work) (ins : List (Ref × Nat)) (obs : HbmObs) (s : State) : Bool × BitVec 16 × State :=
  match hbmFound obs (readsHbm s ins) s with
  | (some a, s1) => hbmRaise w a false s1
  | (none, s1) => hbmInjected w ins s1

/-- What a computation reads that poisons it: an uncorrectable HBM line, or an uncorrectable SRAM word (R186, R217, R253); each
is a fault. -/
def inputFault (w : Work) (x : Nat × Nat) (ins : List (Ref × Nat)) (res : List ResKey) (obs : TileObs) (s : State) : Bool × BitVec 16 × State :=
  let m := hbmFault w ins obs.hbm s
  if m.1 then m else
  let e := injectHit 0x04 x.1 m.2.2
  match obs.sramBad, e.1 with
  | some a, _ => let r := sramFault w x a.word e.1 (markSram x a res e.2); (true, r.2, r.1)
  | none, true => let r := sramFault w x 0 true e.2; (true, r.2, r.1)
  | none, false => (false, 0, m.2.2)

/-- A run of a tile as a whole: whether it was computed, the lines its check saw, the verdict, the state with its counters, and the
record number its fault gave. A tile whose inputs are poisoned is not computed: its output is poisoned (R253). -/
structure Ran where
  verdict  : Verdict
  computed : Bool := true
  lines    : Lines := {}
  fr       : BitVec 16
  state    : State

/-- The counts of an operation after a run (R264, R218). (DESIGN CHOICE, log
entries 130, 131.) -/
def ChkCnt.after (c : ChkCnt) (x : Nat × Nat) (t : TileSt) (r : Ran) (poisoned : Bool) : ChkCnt :=
  { c with
    firsts := c.firsts + b2n (r.computed && t.kind == .first),
    recomputed := c.recomputed + b2n (r.computed && (t.kind == .recompute || t.kind == .arbitrate)),
    xchecked := c.xchecked + b2n (r.computed && t.kind == .first && t.sampled), failed := c.failed + b2n poisoned,
    unchecked := c.unchecked + r.lines.unchecked, faultRef := if c.faultRef = 0 then r.fr else c.faultRef,
    last := if r.computed then x :: c.last.filter (· != x) else c.last }

/-- Usage of a computation (R707). The spec fixes neither how many HBM bytes reach the stacks, nor how long a Stand waits for HBM
behind other contexts (R706): each is a free value. (DESIGN CHOICE, log entry 78.) -/
def countUse (w : Work) (gc : Nat) (s : State) : State :=
  let n := s.free
  { ((s.use w.tenant w.part 0 gc).use w.tenant w.part 1 (Config.random n)).slow w.context 0 (Config.random (n + 1)) with free := n + 2 }

/-- Corrected SRAM words count as corrected faults, whatever becomes of the tile (R186). -/
def countCorrected (n : Nat) (s : State) : State :=
  { s with ft := { s.ft with corrected := tmod s.ft.corrected 2 0 (· + n) } }

/-- Ends a computation on its Stand (R215, R217, R241 to R260): `bad` is the status that its inputs force, if any, `res` the resident
tiles it reads, `c` what it computed. -/
def runTile (w : Work) (x : Nat × Nat) (t : TileSt) (rk : RunKind) (fmt gc : Nat) (ins : List (Ref × Nat)) (bad : Option Status) (obs : TileObs)
    (c : Comp) (s : State) (res : List ResKey := []) : Ran :=
  let i := inputFault w x ins res obs (countCorrected obs.corrected s)
  match (if i.1 then some Status.poisonConsumed else bad) with
  | some st =>
    let v : Verdict := { tile := { t with running := none }, fate := .poison st }
    { verdict := v, computed := false, fr := i.2.1, state := (i.2.2).modStand x.1 x.2 (fun y => { y with busy := false }) }
  | none =>
    let o := observe x rk c i.2.2
    let v := judge (onFail s) (recomputeLimit s) t x (retiringStand s x) (decide (o.2.1 = 0)) c.out
    let s1 := countUse w gc (countRun x t o.2.1 fmt gc o.1 v o.2.2.2)
    let newlyDead := v.tile.dead && !t.dead
    let poisoned := match v.fate with | .poison _ => !t.dead | _ => false
    if poisoned || newlyDead then
      let f := standFault w x (o.2.2.1 && poisoned) s1
      { verdict := v, lines := o.1, fr := f.2, state := f.1 }
    else { verdict := v, lines := o.1, fr := 0, state := s1 }

end Sys2Proof.Machine
end

