-- ==== Sys2Proof/Machine/Matrix.lean ====
section
/-! DEFINITION. Matrix operations: their operands and layout (R191 to R200, R212 to R214), the product of a tile (R202 to R205), and
what the tiles of an operation lead to (R215 to R218, R252, R663). -/

namespace Sys2Proof.Machine

/-! ## Operands -/

/-- The fields of MATMUL and MATMUL_SPARSE (R212). -/
structure MatOp where
  sparse : Bool
  aFmt   : Nat
  bFmt   : Nat
  outFmt : Nat
  raw    : Bool
  accum  : Bool
  sr     : Bool
  sat    : Bool
  xk     : Nat
  m      : Nat
  n      : Nat
  k      : Nat
  a      : Ref
  b      : Ref
  c      : Ref
  alpha  : Nat
  seed   : Nat

def matOf (w : Work) : MatOp :=
  let d := w.body
  { sparse := w.opcode == 0x21, aFmt := dat d 8 4, bFmt := dat d 8 8 / 16, outFmt := dat d 9 4, raw := (dat d 9 8).testBit 4,
    accum := (dat d 9 8).testBit 5, sr := (dat d 9 8).testBit 6, sat := (dat d 9 8).testBit 7, xk := dat d 10 8, m := dat d 12 32,
    n := dat d 16 32, k := dat d 20 32, a := refAt d 24, b := refAt d 32, c := refAt d 40, alpha := dat d 48 32, seed := dat d 56 64 }

/-- Tiles of a matrix (R194). -/
def tilesOf (r c : Nat) : Nat := ceilDiv r 128 * ceilDiv c 128

/-- Bytes of a stored matrix with its scale array (R193, R194). -/
def matBytes (f t : Nat) : Nat := 2048 * fmtBits f * t + (if fmtBlock f then 512 * t else 0)

/-- Bytes of A, B and C (R196, R198). -/
def MatOp.aBytes (o : MatOp) : Nat := matBytes o.aFmt (tilesOf o.m o.k)
def MatOp.bBytes (o : MatOp) : Nat :=
  let t := tilesOf o.n o.k
  if o.sparse then 1024 * fmtBits o.bFmt * t + (if fmtBlock o.bFmt then 512 * t else 0) + 2048 * t else matBytes o.bFmt t
def MatOp.cBytes (o : MatOp) : Nat :=
  let t := tilesOf o.m o.n
  if o.raw then 65536 * t else matBytes o.outFmt t

/-- Cause 0x06 of an input or output: a slot that holds nothing has no extent to break (R214, R227). -/
def badOperand (s : State) (r : Ref) (n : Nat) : Bool :=
  match r with
  | .canopy g k off => if (s.cslot g k).st = .empty then off % 256 != 0 else refBad s r n
  | _ => refBad s r n

/-- Whether a CANOPY_FREE of a slot was fetched before a work item and has not ended (R227, R228). -/
def freedBefore (s : State) (w : Work) (g k : Nat) : Bool :=
  s.work.any (fun x => x.opcode == 0x24 && decide (x.wid < w.wid) && dat x.body 20 2 == g && dat x.body 21 8 == k)

/-- Cause 0x09: a Canopy slot that is EMPTY, or whose CANOPY_FREE was fetched before; an operation fetched before the free still runs
(R214, R227, R228). -/
def badSlot (s : State) (w : Work) (r : Ref) : Bool :=
  match r with
  | .canopy g k _ => (s.cslot g k).st == .empty || freedBefore s w g k
  | _ => false

/-- Whether an operand's slot is still LOADING: its operation waits (R227). -/
def slotLoading (s : State) (r : Ref) : Bool := match r with | .canopy g k _ => (s.cslot g k).st == .loading | _ => false

/-- Whether the image enables a format, and permits it stochastic rounding (R153 to R155). -/
def fmtInUse (f : Nat) (s : State) : Bool := fmtOk f && (match s.img.image with | some i => i.formats.getLsbD f | none => false)
def srAllowed (f : Nat) (s : State) : Bool := match s.img.image with | some i => i.srFormats.getLsbD f | none => false

/-- Whether a range 1 to n does not hold a value. -/
def outOf (x n : Nat) : Bool := x == 0 || decide (x > n)

/-- The checks of a matrix operation (R214, R764). A C outside HBM, and an operand that is no HBM range or Canopy slot, have cause 0x06.
(DESIGN CHOICE, log entry 129.) -/
def matChecks (w : Work) (s : State) : Option (Status × Nat) :=
  let o := matOf w
  firstFail [
    (refForeign s w.part o.a || refForeign s w.part o.b || refForeign s w.part o.c, (.tenantMismatch, 0)),
    (!fmtInUse o.aFmt s || !fmtInUse o.bFmt s || (!o.raw && !fmtInUse o.outFmt s), (.malformed, 0x01)),
    (fmtInt o.aFmt != fmtInt o.bFmt, (.malformed, 0x02)),
    (o.sparse && (decide (o.aFmt ≥ 9) || decide (o.bFmt ≥ 9)), (.malformed, 0x03)),
    (((fmtBlock o.aFmt || fmtBlock o.bFmt) && o.k % 32 != 0) || (o.sparse && o.k % 4 != 0), (.malformed, 0x04)),
    (outOf o.m 1048576 || outOf o.n 1048576 || outOf o.k 16777216 || (decide (o.xk > 16) && o.xk != 0xFF), (.malformed, 0x05)),
    (badOperand s o.a o.aBytes || badOperand s o.b o.bBytes || badOperand s o.c o.cBytes || o.c.regionId.isNone, (.malformed, 0x06)),
    (o.accum && !o.raw, (.malformed, 0x07)),
    (o.sr && !o.raw && !srAllowed o.outFmt s, (.malformed, 0x08)),
    (badSlot s w o.a || badSlot s w o.b, (.malformed, 0x09)),
    (refsOverlap o.c o.cBytes o.a o.aBytes || refsOverlap o.c o.cBytes o.b o.bBytes, (.malformed, 0x0A)),
    ((standsOf w.part 0 s).isEmpty, (.malformed, 0x0B))]

/-- A matrix operation starts: it is cut into tiles (R212, R232). -/
def startMat (w : Work) (s : State) : State :=
  match matChecks w s with
  | some (st, r) => complete w st r s
  | none =>
    let c := newOp w.part (matOf w).xk s
    (c.2).setProg w.wid (.tiles { total := tilesOf (matOf w).m (matOf w).n, cnt := c.1 })

def execMatmul (wid : Nat) (s : State) : Host.Outcome State Fault Refusal := start wid 0x20 s startMat
def execMatmulSparse (wid : Nat) (s : State) : Host.Outcome State Fault Refusal := start wid 0x21 s startMat

/-! ## Reading elements -/

/-- Element i of an array of b-bit codes at a byte offset (R191). -/
def codeAt (s : State) (r : Ref) (base bits i : Nat) : Nat :=
  let o := bits * i
  fld (refNum s r (base + o / 8) (if bits = 6 then 2 else max 1 (bits / 8))) (o % 8) bits

/-- The tile of element (i, k) of a matrix of c columns, and its place in the tile (R194). -/
def tileIdx (c i k : Nat) : Nat := i / 128 * ceilDiv c 128 + k / 128

/-- The value of an element's code as the array takes it: a format with an exponent of zero flushes, a TF32 element rounds (R188,
R189), and the code of its block's scale lies at byte `sc` (R192). -/
def elemOf (s : State) (f : Nat) (ref : Ref) (sc code : Nat) : Elem :=
  { raw := decodeElem f true code, scale := if fmtBlock f then refNum s ref sc 1 else 127 }

/-- Element (i, k) of a dense operand of r × c elements, as the Stand's fetch read it; zero outside it (R189, R192, R195, R247). -/
def denseElem (s : State) (obs : TileObs) (operand f : Nat) (ref : Ref) (r c i k : Nat) : Elem :=
  if i ≥ r ∨ k ≥ c then { raw := .zero } else
    let t := tileIdx c i k
    elemOf s f ref (2048 * fmtBits f * tilesOf r c + 512 * t + i % 128 * 4 + k % 128 / 32)
      (fetched obs operand (i % 128) k (codeAt s ref (2048 * fmtBits f * t) (fmtBits f) (i % 128 * 128 + k % 128)))

/-- The metadata nibble of the group of element (j, k) of a sparse B (R197, R198). -/
def nibbleAt (s : State) (o : MatOp) (j k : Nat) : Nat :=
  let t := tilesOf o.n o.k
  let base := 1024 * fmtBits o.bFmt * t + (if fmtBlock o.bFmt then 512 * t else 0)
  let g := k % 128 / 4
  fld (refNum s o.b (base + 2048 * tileIdx o.k j k + 16 * (j % 128) + g / 2) 1) (4 * (g % 2)) 4

/-- Element (j, k) of a sparse B (R197, R198). -/
def sparseElem (s : State) (obs : TileObs) (o : MatOp) (j k : Nat) : Elem :=
  if j ≥ o.n ∨ k ≥ o.k then { raw := .zero } else
    let nib := nibbleAt s o j k
    let t := tileIdx o.k j k
    let slot (p : Nat) : Nat := j % 128 * 64 + 2 * (k % 128 / 4) + p
    match (if k % 4 = nib % 4 then some 0 else if k % 4 = nib / 4 then some 1 else none) with
    | none => { raw := .zero }
    | some p =>
      elemOf s o.bFmt o.b (1024 * fmtBits o.bFmt * tilesOf o.n o.k + 512 * t + j % 128 * 4 + k % 128 / 32)
        (fetched obs 1 (j % 128) k (codeAt s o.b (1024 * fmtBits o.bFmt * t) (fmtBits o.bFmt) (slot p)))

/-- Whether a tile column of a sparse B has a nibble whose first position is not less than its second (R199). -/
def badNibbles (s : State) (o : MatOp) (tj : Nat) : Bool :=
  o.sparse && (List.range (min 128 (o.n - 128 * tj))).any (fun j => (List.range (o.k / 4)).any (fun g =>
    let nib := nibbleAt s o (128 * tj + j) (4 * g)
    decide (nib % 4 ≥ nib / 4)))

def MatOp.elemA (o : MatOp) (s : State) (obs : TileObs) (i k : Nat) : Elem := denseElem s obs 0 o.aFmt o.a o.m o.k i k
def MatOp.elemB (o : MatOp) (s : State) (obs : TileObs) (j k : Nat) : Elem :=
  if o.sparse then sparseElem s obs o j k else denseElem s obs 1 o.bFmt o.b o.n o.k j k

/-- K elements per group: 32 where both inputs are 4, 6 or 8-bit floating formats (R202). -/
def groupLen (a b : Nat) : Nat := if a ≤ 5 ∧ b ≤ 5 then 32 else 4

/-- The rows and columns of an output tile that lie inside C. -/
def MatOp.tileRows (o : MatOp) (ti : Nat) : Nat := min 128 (o.m - 128 * ti)
def MatOp.tileCols (o : MatOp) (tj : Nat) : Nat := min 128 (o.n - 128 * tj)

/-- The product of output tile (ti, tj) as a Stand reads its operands (R194, R201 to R203, R213). (DEDUCED, log entry 114.) -/
def MatOp.product (o : MatOp) (s : State) (obs : TileObs) (ti tj : Nat) : Product :=
  { int := fmtInt o.aFmt, split := o.aFmt == 10 || o.bFmt == 10, group := groupLen o.aFmt o.bFmt, len := o.k,
    rows := o.tileRows ti, cols := o.tileCols tj,
    a := fun i k => o.elemA s obs (128 * ti + i) k, b := fun j k => o.elemB s obs (128 * tj + j) k,
    c0 := fun i j => if o.accum then
      fetched obs 3 i j (refNum s o.c (65536 * tileIdx o.n (128 * ti) (128 * tj) + 4 * (128 * i + j)) 4) else 0 }

/-- The accumulator converted to FP32 and multiplied by ALPHA (R205). -/
def MatOp.scaled (o : MatOp) (acc : Nat) : Num :=
  let x := if fmtInt o.aFmt then f32 (Num.ofInt (toSigned 32 acc)).toF32 else f32 acc
  f32 (x.mul (f32 o.alpha)).toF32

/-! ## Converting a tile -/

/-- A run of a list cut into pieces of 32; `fuel` bounds their number. -/
def pieces32 {α : Type} : Nat → List α → List (List α)
  | 0, _ => []
  | k + 1, l => if l.isEmpty then [] else l.take 32 :: pieces32 k (l.drop 32)

/-- Bits of an element of C. -/
def MatOp.outBits (o : MatOp) : Nat := if o.raw then 32 else fmtBits o.outFmt

/-- A row of accumulators converted: its codes, its scales, and how many elements were clamped or had wrapped, each counted once
(R196, R205 to R208, R218). -/
def MatOp.convRow (o : MatOp) (ti tj i : Nat) (accs : List (Nat × Bool)) : (List Nat × List Nat) × Nat :=
  if o.raw then ((accs.map Prod.fst, []), (accs.filter Prod.snd).length) else
    let xs := accs.map (fun a => o.scaled a.1)
    let rnd (j : Nat) : Option Nat :=
      let e := i * 128 + j
      if o.sr then some (philoxWord o.seed (ti, tj, e / 8, 0) (e % 8)) else none
    if fmtBlock o.outFmt then
      let bs := (pieces32 4 xs).zipIdx.map (fun b => convertBlock o.outFmt (fun q => rnd (32 * b.2 + q)) b.1)
      ((bs.flatMap Prod.snd, bs.map Prod.fst), (accs.filter Prod.snd).length)
    else
      let cs := xs.zipIdx.map (fun x => convert o.outFmt o.sat (rnd x.2) x.1)
      ((cs.map Prod.fst, []), ((cs.zip accs).filter (fun x => x.1.2 || x.2.2)).length)

/-- A row as one of the two output converters gave it (R242). -/
def converted (obs : TileObs) (second : Bool) (i : Nat) (r : List Nat × List Nat) : List Nat × List Nat :=
  let one (base : Nat) (x : Nat × Nat) : Nat :=
    match obs.conv.find? (fun e => e.second == second && e.row == i && e.pos == base + x.2) with
    | some e => e.code.toNat
    | none => x.1
  (r.1.zipIdx.map (one 0), r.2.zipIdx.map (one 128))

/-- A computation of output tile (ti, tj): the lines of its raw accumulators, the compare of the two converters, and the output of the
first (R196, R205, R241, R242). -/
def MatOp.run (o : MatOp) (s : State) (obs : TileObs) (ti tj : Nat) : Comp :=
  let r := (o.product s obs ti tj).run obs 0
  let rows := r.1.zipIdx.map (fun x => o.convRow ti tj x.2 x.1)
  let both := fun second => rows.zipIdx.map (fun x => converted obs second x.2 x.1.1)
  { lines := r.2, convFail := both false != both true, out := { rows := both false, clamped := (rows.map Prod.snd).sum } }

/-! ## Writing a tile -/

/-- The bits that codes take in a run of bytes: each code's bits lowest first, none where no code lies. -/
def codeBits (bits : Nat) (cs : List Nat) : List Bool := cs.flatMap (fun c => (List.range bits).map c.testBit)

/-- Codes of b bits as bytes over the `old` ones, each with whether all of it is new (R191, R195). -/
def packCodes (bits : Nat) (cs : List Nat) (old : List Byte) : List (Byte × Bool) :=
  (piecesOf 8 old.length (codeBits bits cs)).zipIdx.map (fun p =>
    let new := (p.1.zipIdx.map (fun b => b2n b.1 * 2 ^ b.2)).sum
    let keep := (nth old p.2 0).toNat / 2 ^ p.1.length * 2 ^ p.1.length
    (BitVec.ofNat 8 (new + keep), p.1.length == 8))

/-- The bytes of row i of a tile of C: what is written of it, at its place in the tile. -/
def MatOp.rowBytesOf (o : MatOp) (s : State) (t i : Nat) (codes : List Nat) : List (Nat × Byte × Bool) :=
  let off := 2048 * o.outBits * t + 16 * o.outBits * i
  (packCodes o.outBits codes (refRead s o.c off (ceilDiv (o.outBits * codes.length) 8))).zipIdx.map (fun x => (off + x.2, x.1.1, x.1.2))

/-- Writes an output tile with its scales, whole: a line all of whose bytes it writes is no longer poisoned (R195, R215, R253). -/
def MatOp.write (o : MatOp) (ti tj : Nat) (out : TileOut) (s : State) : State :=
  let t := ti * ceilDiv o.n 128 + tj
  let codes := out.rows.zipIdx.flatMap (fun r => o.rowBytesOf s t r.2 r.1.1)
  let scales := out.rows.zipIdx.flatMap (fun r => r.1.2.zipIdx.map (fun x =>
    (2048 * o.outBits * tilesOf o.m o.n + 512 * t + 4 * r.2 + x.2, BitVec.ofNat 8 x.1, true)))
  refPutBytes o.c (codes ++ scales) s

/-- Marks an output tile and the lines of its scales as poisoned (R252). -/
def MatOp.poison (o : MatOp) (t : Nat) (s : State) : State :=
  let b := o.outBits
  let s1 := refPoison o.c (2048 * b * t) (2048 * b) s
  if !o.raw && fmtBlock o.outFmt then refPoison o.c (2048 * b * tilesOf o.m o.n + 512 * t) 512 s1 else s1

/-- The byte ranges a tile row of an operand of r × c elements holds inside the matrix: for each of its tiles and rows the elements,
`per` bits to each logical one, and the scales that cover them (R193 to R195, R198). -/
def rowRanges (per scaleBase : Nat) (block : Bool) (r c ti : Nat) : List (Nat × Nat) :=
  (List.range (ceilDiv c 128)).flatMap (fun tk =>
    let t := ti * ceilDiv c 128 + tk
    let inside := min 128 (c - 128 * tk)
    (List.range (min 128 (r - 128 * ti))).flatMap (fun i =>
      (128 * per * (128 * t + i) / 8, ceilDiv (per * inside) 8) ::
      (if block then [(scaleBase + 512 * t + 4 * i, ceilDiv inside 32)] else [])))

/-- The ranges of a sparse B: half its elements are stored, and each group of four has a nibble (R198). -/
def MatOp.bRanges (o : MatOp) (tj : Nat) : List (Nat × Nat) :=
  let t := tilesOf o.n o.k
  if o.sparse then
    let data := 1024 * fmtBits o.bFmt * t
    let meta_ := data + (if fmtBlock o.bFmt then 512 * t else 0)
    (List.range (ceilDiv o.k 128)).flatMap (fun tk =>
      let x := tj * ceilDiv o.k 128 + tk
      let inside := min 128 (o.k - 128 * tk)
      (List.range (o.tileCols tj)).flatMap (fun j =>
        [(64 * fmtBits o.bFmt * (128 * x + j) / 8, ceilDiv (fmtBits o.bFmt * inside) 16), (meta_ + 2048 * x + 16 * j, ceilDiv inside 8)] ++
        (if fmtBlock o.bFmt then [(data + 512 * x + 4 * j, ceilDiv inside 32)] else [])))
  else rowRanges (fmtBits o.bFmt) (2048 * fmtBits o.bFmt * t) (fmtBlock o.bFmt) o.n o.k tj

/-- Whether a tile reads a poisoned line of its inputs, scales or metadata; what lies outside M, N or K it does not read (R195, R217,
R253). -/
def MatOp.poisoned (o : MatOp) (ti tj : Nat) (s : State) : Bool :=
  (rowRanges (fmtBits o.aFmt) (2048 * fmtBits o.aFmt * tilesOf o.m o.k) (fmtBlock o.aFmt) o.m o.k ti).any (fun r => refPoisoned s o.a r.1 r.2) ||
  (o.bRanges tj).any (fun r => refPoisoned s o.b r.1 r.2) ||
  (o.accum && (List.range (o.tileRows ti)).any (fun i =>
    refPoisoned s o.c (65536 * (ti * ceilDiv o.n 128 + tj) + 512 * i) (4 * o.tileCols tj)))

/-! ## Rates (R219) -/

/-- gc per K step of a format. -/
def gcPerK (f : Nat) : Nat :=
  match f with | 0 => 1 | 1 => 1 | 2 => 2 | 3 => 2 | 4 => 2 | 5 => 2 | 6 => 2 | 7 => 4 | 8 => 4 | 9 => 8 | _ => 32

/-- gc of a tile on a Stand; fill and drain are hidden behind another tile of the operation. -/
def MatOp.gc (o : MatOp) (follows : Bool) : Nat :=
  o.k * max (gcPerK o.aFmt) (gcPerK o.bFmt) / (if o.sparse then 2 else 1) + (if follows then 0 else 320)

/-- The format whose check lines GV_CHK_LAST names: the wider of the two. -/
def MatOp.accFmt (o : MatOp) : Nat := if gcPerK o.bFmt > gcPerK o.aFmt then o.bFmt else o.aFmt

/-! ## What ends a tile -/

/-- Replaces a tile among those open, or adds it. -/
def putTile (t : TileSt) (l : List TileSt) : List TileSt :=
  if l.any (fun x => x.idx == t.idx) then l.map (fun x => if x.idx = t.idx then t else x) else l ++ [t]

/-- RESULT of a matrix or vector operation (R218): bits 63:48 count every recomputation and arbitration that ran. (DESIGN CHOICE, log entry 130.) -/
def tileResult (o : TileOp) : Nat := o.written % 2 ^ 32 + min o.clamped 0xFFFF * 2 ^ 32 + min o.cnt.recomputed 0xFFFF * 2 ^ 48

/-- What an operation of tiles gives its record (R264 to R266). -/
def tileInfo (w : Work) (o : TileOp) (regions : List Nat) (written : List Byte) : StepInfo :=
  { opInfo w o.worst written with
    tiles := o.cnt.firsts, recomputed := o.cnt.recomputed, xchecked := o.cnt.xchecked, failed := o.cnt.failed, unchecked := o.cnt.unchecked,
    xk := o.cnt.xk, regions }

/-- An operation ends when every tile has ended (R262, R215); `last` writes what the operation writes at its end. -/
def settleTiles (w : Work) (o : TileOp) (regions : List Nat) (last : State → State) (written : State → List Byte) (s : State) : State :=
  if o.next = o.total ∧ o.live.isEmpty then
    let s1 := last s
    finishOp w (tileInfo w o regions (written s1)) (tileResult o) s1 o.cnt.faultRef
  else s.setProg w.wid (.tiles o)

/-- The operation after a run of one of its tiles, and what the run leaves to do: the output to write, or poison. -/
def afterRun (o : TileOp) (x : Nat × Nat) (t : TileSt) (r : Ran) : TileOp × Option (Option TileOut) :=
  let v := r.verdict
  let newlyDead := v.tile.dead && !t.dead
  let poisonedNow := !t.dead && (newlyDead || (match v.fate with | .poison st => st == .checkFail | _ => false))
  let cnt := o.cnt.after x t r poisonedNow
  match v.fate with
  | .again =>
    ({ o with live := putTile v.tile o.live, cnt, worst := if newlyDead then worseOp o.worst .checkFail else o.worst },
     if newlyDead then some none else none)
  | .write out =>
    ({ o with live := o.live.filter (fun y => y.idx != t.idx), cnt, written := o.written + 1, clamped := o.clamped + out.clamped,
              worst := worseOp o.worst (tileStatus v.tile) },
     some (some out))
  | .poison st =>
    ({ o with live := o.live.filter (fun y => y.idx != t.idx), cnt, worst := if t.dead then o.worst else worseOp o.worst st },
     if t.dead then none else some none)

/-- The resident tiles that a tile row of an operand is (R224): one for each of its tiles. -/
def rowTiles (s : State) (r : Ref) (off per count : Nat) : List ResTile :=
  (List.range count).map (fun k => { key := tileKey s r (off + per * k), bytes := per })

/-- The operand tiles that output tile (ti, tj) reads. -/
def MatOp.rowTilesA (o : MatOp) (s : State) (ti : Nat) : List ResTile :=
  let per := 2048 * fmtBits o.aFmt
  rowTiles s o.a (per * ceilDiv o.k 128 * ti) per (ceilDiv o.k 128)
def MatOp.rowTilesB (o : MatOp) (s : State) (tj : Nat) : List ResTile :=
  let per := (if o.sparse then 1024 else 2048) * fmtBits o.bFmt
  rowTiles s o.b (per * ceilDiv o.k 128 * tj) per (ceilDiv o.k 128)

/-- Ends a tile of a matrix operation (R215 to R218). -/
def matTileDone (w : Work) (o : TileOp) (t : TileSt) (x : Nat × Nat) (obs : TileObs) (s : State) : State :=
  let m := matOf w
  let nc := ceilDiv m.n 128
  let ti := t.idx / nc
  let tj := t.idx % nc
  let res := m.rowTilesA s ti ++ m.rowTilesB s tj
  let bad := if badNibbles s m tj then some .codeInvalid
    else if m.poisoned ti tj s || badResident x (res.map (fun r => r.key)) s then some .poisonConsumed else none
  let r := runTile w x t .tile m.accFmt (m.gc (o.cnt.last.any (· == x)))
    [(m.a, 2048 * fmtBits m.aFmt * ceilDiv m.k 128 * ti), (m.b, 0)] bad obs (m.run s obs ti tj) s
  let a := afterRun o x t r
  let s1 := holdTiles x res r.state
  let s2 := match a.2 with
    | none => s1
    | some none => m.poison t.idx s1
    | some (some out) => m.write ti tj out s1
  settleTiles w a.1 (inputRegions s [m.a, m.b]) id (fun s => refRead s m.c 0 m.cBytes) s2

/-- Ends a tile on its Stand (TILE_COMPLETE). -/
def execTileComplete (wid tile : Nat) (obs : TileObs) (s : State) : Host.Outcome State Fault Refusal :=
  resume wid s (fun p => match p with | .tiles o => some o | _ => none) (fun w o s =>
    match o.live.find? (fun t => t.idx == tile) with
    | none => s
    | some t => match t.running with
      | some x => if w.opcode = 0x20 ∨ w.opcode = 0x21 then matTileDone w o t x obs s else s
      | none => s)

/-! ## Canopy slots (R226 to R228) -/

/-- Units of a Grove that no slot holds. -/
def canopyFits (s : State) (g base n : Nat) : Bool :=
  decide (base + n ≤ 768) && (List.range 256).all (fun k =>
    let c := s.cslot g k
    c.st == .empty || decide (base + n ≤ c.base) || decide (c.base + c.units ≤ base))

/-- The lowest base at which n contiguous units are free (R226). -/
def canopyBase (s : State) (g n : Nat) : Option Nat := (List.range 769).find? (fun b => canopyFits s g b n)

def State.modSlotC (s : State) (g k : Nat) (f : Slot → Slot) : State :=
  { s with groves := { s.groves with slots := tmod s.groves.slots (256 * g + k) {} f } }

/-- Starts a Canopy load (R226); a SRC outside HBM has cause 0x06. (DESIGN CHOICE, log entry 129.) -/
def execCanopyLoad (wid : Nat) (s : State) : Host.Outcome State Fault Refusal :=
  start wid 0x23 s (fun w s =>
    let d := w.body
    let src := refAt d 8
    let len := dat d 16 32
    let g := dat d 20 2
    let k := dat d 21 8
    let n := ceilDiv len 65536
    match firstFail [
      (refForeign s w.part src || refForeign s w.part (.canopy g k 0), (.tenantMismatch, 0)),
      (len == 0 || decide (len > 50331648), (.malformed, 0x05)),
      (refBad s src len || src.regionId.isNone, (.malformed, 0x06)),
      ((s.cslot g k).st != .empty, (.malformed, 0x09)),
      ((canopyBase s g n).isNone, (.malformed, 0x0C))] with
    | some (st, r) => complete w st r s
    | none => (s.setProg wid (.canopyLoad g k)).modSlotC g k (fun _ => { st := .loading, units := n, base := (canopyBase s g n).getD 0 }))

/-- The copy ends: data and poison are in the slot, which is READY (R226, R253). -/
def execCanopyLoadComplete (wid : Nat) (s : State) : Host.Outcome State Fault Refusal :=
  resume wid s (fun p => match p with | .canopyLoad g k => some (g, k) | _ => none) (fun w gk s =>
    let src := refAt w.body 8
    let len := dat w.body 16 32
    let dst := Ref.canopy gk.1 gk.2 0
    let s1 := refWrite dst 0 (refRead s src 0 len) s
    let s2 := (List.range (ceilDiv len 64)).foldl (fun t i =>
      if refPoisoned s src (64 * i) (min 64 (len - 64 * i)) then refPoison dst (64 * i) (min 64 (len - 64 * i)) t else t) s1
    let s3 := s2.modSlotC gk.1 gk.2 (fun c => { c with st := if c.st = .loading then .ready else c.st })
    finishOp w { opInfo w .ok [] with regions := inputRegions s [src] } (s.cslot gk.1 gk.2).base s3)

/-- The references an operation of a Grove names. -/
def operandRefs (w : Work) : List Ref :=
  if w.opcode = 0x20 ∨ w.opcode = 0x21 then [(matOf w).a, (matOf w).b]
  else if w.opcode = 0x22 then [refAt w.body 16, refAt w.body 24, refAt w.body 32, refAt w.body 40] else []

/-- Whether a work item names a Canopy slot. -/
def namesSlot (g k : Nat) (w : Work) : Bool :=
  (operandRefs w).any (fun r => match r with | .canopy a b _ => a == g && b == k | _ => false) ||
  (w.opcode == 0x23 && dat w.body 20 2 == g && dat w.body 21 8 == k)

/-- Frees a Canopy slot; an EMPTY one at once (R228). -/
def execCanopyFree (wid : Nat) (s : State) : Host.Outcome State Fault Refusal :=
  start wid 0x24 s (fun w s =>
    let g := dat w.body 20 2
    let k := dat w.body 21 8
    if refForeign s w.part (.canopy g k 0) then complete w .tenantMismatch 0 s
    else if (s.cslot g k).st = .empty then finishOp w (opInfo w .ok []) 0 s
    else (s.setProg wid (.canopyFree g k)).modSlotC g k (fun c => { c with st := .freeing }))

/-- Earlier operations on a FREEING slot have ended: it is EMPTY (R228). -/
def execCanopyFreeComplete (wid : Nat) (s : State) : Host.Outcome State Fault Refusal :=
  resume wid s (fun p => match p with | .canopyFree g k => some (g, k) | _ => none) (fun w gk s =>
    if s.work.any (fun x => decide (x.wid < w.wid) && namesSlot gk.1 gk.2 x) then s
    else finishOp w (opInfo w .ok []) 0 (s.modSlotC gk.1 gk.2 (fun _ => {})))

end Sys2Proof.Machine
end

