-- ==== Sys2Proof/Machine/Vector.lean ====
section
/-! DEFINITION. Vector operations (R220 to R223) and their chunks (R259). -/

namespace Sys2Proof.Machine

/-- The fields of VECTOR (R220). -/
structure VecOp where
  vop    : Nat
  inFmt  : Nat
  outFmt : Nat
  sr     : Bool
  sat    : Bool
  count  : Nat
  x      : Ref
  y      : Ref
  z      : Ref
  out    : Ref
  s      : Nat
  seed   : Nat

def vecOf (w : Work) : VecOp :=
  let d := w.body
  { vop := dat d 8 8, inFmt := dat d 9 4, outFmt := dat d 9 8 / 16, sr := (dat d 10 8).testBit 0, sat := (dat d 10 8).testBit 1,
    count := dat d 12 32, x := refAt d 16, y := refAt d 24, z := refAt d 32, out := refAt d 40, s := dat d 48 32, seed := dat d 56 64 }

/-- Operations of one result (R221). -/
def VecOp.reduces (o : VecOp) : Bool := o.vop == 0x0A || o.vop == 0x0B

/-- The inputs an operation reads (R221). -/
def VecOp.inputs (o : VecOp) : List Ref :=
  if o.vop = 0x02 then [o.x, o.y, o.z] else if o.vop = 0 ∨ o.vop = 1 ∨ o.vop = 3 ∨ o.vop = 4 ∨ o.vop = 5 then [o.x, o.y] else [o.x]

/-- Bytes of an array of elements with its scales (R193, R220). -/
def arrayBytes (f n : Nat) : Nat := ceilDiv (fmtBits f * n) 8 + (if fmtBlock f then ceilDiv n 32 else 0)

def VecOp.outBytes (o : VecOp) : Nat := if o.reduces then 4 else arrayBytes o.outFmt o.count

/-- The checks of VECTOR (R214, R220). -/
def vecChecks (w : Work) (s : State) : Option (Status × Nat) :=
  let o := vecOf w
  let ins := if o.vop ≤ 0x0B then o.inputs else []
  firstFail [
    (ins.any (refForeign s w.part) || refForeign s w.part o.out, (.tenantMismatch, 0)),
    (!fmtInUse o.inFmt s || !fmtInUse o.outFmt s, (.malformed, 0x01)),
    (outOf o.count 16777216 || ((fmtBlock o.inFmt || fmtBlock o.outFmt) && o.count % 32 != 0), (.malformed, 0x05)),
    (ins.any (fun r => r != .none && badOperand s r (arrayBytes o.inFmt o.count)) || (o.out != .none && badOperand s o.out o.outBytes), (.malformed, 0x06)),
    (o.sr && !srAllowed o.outFmt s, (.malformed, 0x08)),
    (ins.any (badSlot s w) || badSlot s w o.out, (.malformed, 0x09)),
    ((standsOf w.part 0 s).isEmpty, (.malformed, 0x0B)),
    (decide (o.vop > 0x0B) || ins.any (· == .none) || o.out == .none, (.malformed, 0x0D))]

/-- A vector operation starts: it is cut into chunks of 65,536 elements (R223). -/
def execVector (wid : Nat) (s : State) : Host.Outcome State Fault Refusal :=
  start wid 0x22 s (fun w s => match vecChecks w s with
    | some (st, r) => complete w st r s
    | none =>
      let c := newOp w.part 0xFF s
      (c.2).setProg w.wid (.tiles { total := ceilDiv (vecOf w).count 65536, cnt := c.1 }))

/-- The elements of a chunk: the first, and how many. -/
def VecOp.span (o : VecOp) (c : Nat) : Nat × Nat := (65536 * c, min 65536 (o.count - 65536 * c))

/-- Element i of a chunk that starts at element `a` of an input, as the Stand's fetch read it: exact, its block scale applied; subnormals
are kept (R190, R222, R247). -/
def VecOp.arg (o : VecOp) (s : State) (obs : TileObs) (operand : Nat) (ref : Ref) (a i : Nat) : Num :=
  let x := decodeElem o.inFmt false (fetched obs operand 0 i (codeAt s ref 0 (fmtBits o.inFmt) (a + i)))
  if fmtBlock o.inFmt then x.scale (refNum s ref (fmtBits o.inFmt * o.count / 8 + (a + i) / 32) 1) else x

/-- The result of one element, rounded once to FP32 where the operation rounds (R221, R222). -/
def VecOp.elem (o : VecOp) (st : State) (obs : TileObs) (a i : Nat) : Num :=
  let x := o.arg st obs 0 o.x a i
  let y := o.arg st obs 1 o.y a i
  let z := o.arg st obs 2 o.z a i
  let r (v : Num) : Num := f32 v.toF32
  match o.vop with
  | 0x00 => r (sumNums [x, y])
  | 0x01 => r (x.mul y)
  | 0x02 => r (sumNums [x.mul y, z])
  | 0x03 => r (sumNums [(f32 o.s).mul x, y])
  | 0x04 => r (x.max y)
  | 0x05 => r (x.min y)
  | 0x06 => r (exp2 x)
  | 0x07 => r (recip x)
  | 0x08 => r (rsqrt x)
  | _ => x

/-- SUM or AMAX of FP32 codes: a fixed pairwise tree over their index, or the largest magnitude (R221, R223). -/
def VecOp.reduce (o : VecOp) (xs : List Nat) : Nat :=
  if o.vop = 0x0A then ((treeFold addF 25 xs).head?).getD 0 else ((xs.map (fun x => (f32 x).abs)).foldl Num.max .zero).toF32

/-- The lanes' results for a chunk, a fault's value in place of the exact one (R259). -/
def VecOp.lanes (o : VecOp) (s : State) (obs : TileObs) (c : Nat) : List Num :=
  let (a, n) := o.span c
  (List.range n).map (fun i => match obs.lanes.find? (fun e => e.elem == i) with
    | some e => f32 e.value.toNat
    | none => o.elem s obs a i)

/-- A computation of a chunk: the residue and parity checks, and its output: codes with their scales, or the partial result of a reduction
(R206 to R208, R220 to R223, R259). -/
def VecOp.run (o : VecOp) (s : State) (obs : TileObs) (c : Nat) : Comp :=
  let a := (o.span c).1
  let xs := o.lanes s obs c
  let rnd (i : Nat) : Option Nat := if o.sr then some (philoxWord o.seed (0, 0, i / 8, 1) (i % 8)) else none
  let out : TileOut :=
    if o.reduces then { rows := [([o.reduce (xs.map Num.toF32)], [])] }
    else if fmtBlock o.outFmt then
      let bs := (pieces32 2048 xs).zipIdx.map (fun b => convertBlock o.outFmt (fun q => rnd (a + 32 * b.2 + q)) b.1)
      { rows := [(bs.flatMap Prod.snd, bs.map Prod.fst)] }
    else
      let cs := xs.zipIdx.map (fun x => convert o.outFmt o.sat (rnd (a + x.2)) x.1)
      { rows := [(cs.map Prod.fst, [])], clamped := (cs.filter Prod.snd).length }
  { resFail := obs.lanes.any laneSeen, out }

/-- Writes a chunk's output with its scales, whole (R215, R223, R253); a reducing operation writes at its end. -/
def VecOp.write (o : VecOp) (c : Nat) (out : TileOut) (s : State) : State :=
  if o.reduces then s else
    let (a, n) := o.span c
    let row := out.rows.headD ([], [])
    let bits := fmtBits o.outFmt
    let codes := (packCodes bits row.1 (refRead s o.out (bits * a / 8) (ceilDiv (bits * n) 8))).zipIdx.map (fun x => (bits * a / 8 + x.2, x.1.1, x.1.2))
    let scales := row.2.zipIdx.map (fun x => (bits * o.count / 8 + a / 32 + x.2, BitVec.ofNat 8 x.1, true))
    refPutBytes o.out (codes ++ scales) s

/-- Marks a chunk's output as poisoned (R252). -/
def VecOp.poison (o : VecOp) (c : Nat) (s : State) : State :=
  if o.reduces then refPoison o.out 0 4 s else
    let (a, n) := o.span c
    let s1 := refPoison o.out (fmtBits o.outFmt * a / 8) (ceilDiv (fmtBits o.outFmt * n) 8) s
    if fmtBlock o.outFmt then refPoison o.out (fmtBits o.outFmt * o.count / 8 + a / 32) (ceilDiv n 32) s1 else s1

/-- Whether a chunk reads a poisoned line (R253). -/
def VecOp.poisoned (o : VecOp) (c : Nat) (s : State) : Bool :=
  let (a, n) := o.span c
  o.inputs.any (fun r => refPoisoned s r (fmtBits o.inFmt * a / 8) (ceilDiv (fmtBits o.inFmt * n) 8) ||
    (fmtBlock o.inFmt && refPoisoned s r (fmtBits o.inFmt * o.count / 8 + a / 32) (ceilDiv n 32)))

/-- gc of a chunk (R221). -/
def VecOp.gc (o : VecOp) (c : Nat) : Nat := ceilDiv (o.span c).2 (if o.vop = 6 ∨ o.vop = 7 ∨ o.vop = 8 then 64 else 256)

/-- What a reducing operation writes at its end, unless a chunk was poisoned: the chunks' results, reduced in order (R223). -/
def VecOp.last (o : VecOp) (t : TileOp) (s : State) : State :=
  if o.reduces && decide (t.written = t.total) then
    refWrite o.out 0 (leBytes 4 (o.reduce ((List.range t.total).map (fun c => ((t.parts.find? (fun x => x.1 == c)).map Prod.snd).getD 0)))) s
  else s

/-- Ends a vector chunk (R223, R259). -/
def vecChunkDone (w : Work) (o : TileOp) (t : TileSt) (x : Nat × Nat) (obs : TileObs) (s : State) : State :=
  let v := vecOf w
  let r := runTile w x t .chunk v.inFmt (v.gc t.idx) (v.inputs.map (fun r => (r, fmtBits v.inFmt * (v.span t.idx).1 / 8)))
    (if v.poisoned t.idx s then some .poisonConsumed else none) obs (v.run s obs t.idx) s
  let a := afterRun o x t r
  let s2 := match a.2 with
    | none => r.state
    | some none => v.poison t.idx r.state
    | some (some out) => v.write t.idx out r.state
  let o' := match a.2 with
    | some (some out) => if v.reduces then { a.1 with parts := a.1.parts ++ [(t.idx, nth (out.rows.headD ([], [])).1 0 0)] } else a.1
    | _ => a.1
  settleTiles w o' (inputRegions s v.inputs) (v.last o') (fun s => refRead s v.out 0 v.outBytes) s2

/-- VECTOR_CHUNK_COMPLETE. -/
def execVectorChunkComplete (wid chunk : Nat) (obs : TileObs) (s : State) : Host.Outcome State Fault Refusal :=
  resume wid s (fun p => match p with | .tiles o => some o | _ => none) (fun w o s =>
    match o.live.find? (fun t => t.idx == chunk) with
    | none => s
    | some t => match t.running with
      | some x => if w.opcode = 0x22 then vecChunkDone w o t x obs s else s
      | none => s)

end Sys2Proof.Machine
end

