-- ==== Sys2Proof/Machine/Attend.lean ====
section
/-! DEFINITION. Attention: its fields and checks (R298 to R302, R312, R330), its work units (R303, R310, R311), the arithmetic of a
unit and of the merge (R304 to R308), and the placement of tiles, chunks and units (R230 to R232). -/

namespace Sys2Proof.Machine

/-- Whether a mask violates R301. -/
def badMasks (s : State) (q : SeqRec) : Bool :=
  (List.range (min 64 q.pending)).any (fun i => !(maskAt s q i).testBit i || decide (maskAt s q i ≥ 2 ^ (i + 1)))

/-- Bytes of a query or output row of a geometry. -/
def rowBytes (a : AttOp) (h : ListHdr) (f : Nat) : Nat := h.kvHeads * a.group * (geoDim h.geometry).getD 0 * (fmtBits f / 8)

/-- The checks of an attention operation as a whole (R298 to R301, R312, R330). -/
def attChecks (w : Work) (s : State) : Option (Status × Nat) :=
  let a := attOf w s
  let qs := attRecs w s
  let hs := qs.filterMap (fun q => listAt s q.list)
  let rows := (qs.map (fun q => q.qRow + q.qCount)).foldl max 0
  let kvRows := (qs.map (fun q => q.dkvRow + q.length)).foldl max 0
  let h0 := hs.head?
  let big (f : Nat) : Nat := match h0 with | some h => rows * rowBytes a h f | none => 0
  let kvBytes := match h0 with | some h => kvRows * h.kvHeads * (geoDim h.geometry).getD 0 * 4 | none => 0
  let statBytes := match h0 with | some h => rows * h.kvHeads * a.group * 8 | none => 0
  let refs := [a.table, a.q, a.o] ++ (if a.flag then [a.stats] else []) ++ (if a.back then [refAt w.body 8, a.dO, a.dq, a.dk, a.dv] else [])
  let pendBytes (q : SeqRec) : Nat := match listAt s q.list with
    | some h => 2 * q.pending * h.kvHeads * (geoDim h.geometry).getD 0 * ((geoElem h.geometry).getD 1) | none => 0
  firstFail [
    (refs.any (refForeign s w.part) || qs.any (fun q => listForeign s w q.list ||
        (decide (q.pending > 0) && (refForeign s w.part (refOf q.aux) || refForeign s w.part (refOf q.ancestors)))), (.tenantMismatch, 0)),
    (!((a.qFmt == 4 || a.qFmt == 7 || a.qFmt == 8) && (a.oFmt == 7 || a.oFmt == 8 || a.oFmt == 0xA) && fmtEnabled a.qFmt s && fmtEnabled a.oFmt s) ||
      hs.any (fun h => !fmtEnabled (h.geometry / 16) s), (.malformed, 0x01)),
    (outOf a.group 16, (.malformed, 0x02)),
    ((a.back && badWork s (refAt w.body 8) 128) || badWork s a.table (64 * a.n) || qs.any (fun q => (listAt s q.list).isNone) ||
      badWork s a.q (big a.qFmt) || badWork s a.o (big a.oFmt) || (a.flag && badWork s a.stats statBytes) ||
      (a.back && (badWork s a.dO (big a.oFmt) || badWork s a.dq (big 10) || badWork s a.dk kvBytes || badWork s a.dv kvBytes)) ||
      qs.any (fun q => decide (q.pending > 0) && (badWork s (refOf q.aux) (pendBytes q) || badWork s (refOf q.ancestors) (8 * q.pending))), (.malformed, 0x03)),
    (qs.any (fun q => !listLive s q.list), (.malformed, 0x04)),
    (hs.any (fun h => match h0 with | some g => h.layers != g.layers || h.kvHeads != g.kvHeads || h.geometry != g.geometry | none => false) ||
      (a.xk != 0xFF && decide (a.xk > 16)), (.malformed, 0x05)),
    (outOf a.n 4096 || (a.span != 0xFF && decide (a.span > 12)) ||
      qs.any (fun q => outOf q.qCount 1048576 || decide (q.pending > 64) ||
        (if q.pending = 0 then decide (q.qCount > q.length) else q.pending != q.qCount)), (.malformed, 0x08)),
    (hs.any (fun h => decide (a.layer ≥ h.layers)), (.malformed, 0x0C)),
    (qs.any (fun q => if a.back then decide (q.pending > 0) else badMasks s q), (.malformed, 0x0D))]

/-- An attention operation starts: its sequences wait for their commits (R299, R302). -/
def startAtt (w : Work) (s : State) : State :=
  match attChecks w s with
  | some (st, r) => complete w st r s
  | none =>
    if (standsOf w.part 0 s).isEmpty then dutyEmpty w.part w s else
    let c := newOp w.part (attOf w s).xk s
    (c.2).setProg w.wid (.attend { seqs := List.replicate (attOf w s).n {}, cnt := c.1 })

def execAttend (wid : Nat) (s : State) : Host.Outcome State Fault Refusal := start wid 0x32 s startAtt
def execAttendBackward (wid : Nat) (s : State) : Host.Outcome State Fault Refusal := start wid 0x33 s startAtt

/-! ## Pages -/

/-- The 64 KiB of a page as the operation reads it: none while blocks are missing, none inside for poison in rows below `rows`
(R326, R328). -/
def pageData (w : Work) (s : State) (seq : Nat) (h : ListHdr) (n rows : Nat) : Option (Option (List Byte)) :=
  let e := pageEnt s h n
  let len := rows * ((geoDim h.geometry).getD 0) * ((geoElem h.geometry).getD 1)
  if e.tier = 0 then
    match s.region (locRegion e.loc) with
    | none => some none
    | some r =>
      let o := 65536 * locPage e.loc
      some (if regionPoisoned s r o len || regionPoisoned s r (o + 32768) len then none else some (regionRead s r o 65536))
  else if e.tier = 3 then some none
  else
    let ds := (List.range 16).map (fun j => delivered s { wid := w.wid, block := pageBlockNo seq n j })
    if ds.any Option.isNone then none
    else some ((ds.filterMap id).foldl (fun acc d => match acc, d.plain with
      | some bs, some p => some (bs ++ p)
      | _, _ => none) (some []))

/-! ## The arithmetic of a unit (R304, R305) -/

/-- The running state of a row: m, l and o as FP32 codes. -/
structure RowAcc where
  m : Nat := 0xFF800000
  l : Nat := 0
  o : List Nat

/-- The codes of a row as a unit hands them on, and back. -/
def RowAcc.codes (x : RowAcc) : List Nat := x.m :: x.l :: x.o
def RowAcc.ofCodes (l : List Nat) : RowAcc := { m := nth l 0 0xFF800000, l := nth l 1 0, o := l.drop 2 }

/-- A block as a unit computes it: the position of its first row, its rows, the code of element d of key and value row x, and whether query
row i attends row x. -/
structure UnitBlock where
  first : Nat
  len   : Nat
  k     : Nat → Nat → Nat
  v     : Nat → Nat → Nat
  on    : Nat → Nat → Bool

/-- What a unit computes with: its formats, its rows, the code of element d of query row i, its blocks. -/
structure UnitOp where
  alpha  : Nat
  qFmt   : Nat
  kvFmt  : Nat
  dim    : Nat
  rows   : Nat
  q      : Nat → Nat → Nat
  blocks : List UnitBlock

/-- A checked product of a unit: row i of A and row j of B, element k, as codes the matrix path flushes (R189, R309). -/
def unitProduct (aFmt bFmt rows cols len : Nat) (a b : Nat → Nat → Nat) : Product :=
  { int := false, split := false, group := groupLen aFmt bFmt, len, rows, cols,
    a := fun i k => { raw := decodeElem aFmt true (a i k) }, b := fun j k => { raw := decodeElem bFmt true (b j k) }, c0 := fun _ _ => 0 }

/-- The score product of a block: operand 0 is Q, operand 1 is K (R304, R247). -/
def UnitOp.scores (u : UnitOp) (o : TileObs) (b : UnitBlock) : Product :=
  unitProduct u.qFmt u.kvFmt u.rows b.len u.dim (fun i d => fetched o 0 i d (u.q i d)) (fun x d => fetched o 1 (b.first + x) d (b.k x d))

/-- The value product of a block: the weights, and the transpose of V, operand 2. -/
def UnitOp.values (u : UnitOp) (o : TileObs) (b : UnitBlock) (p : List (List Nat)) : Product :=
  unitProduct u.kvFmt u.kvFmt u.rows u.dim b.len (fun i x => nth (nth p i []) x 0) (fun d x => fetched o 2 (b.first + x) d (b.v x d))

/-- What the exponentials of a row of a block give: the new maximum, the factor of the old state, and the weights before their rounding;
none where nothing has been attended yet. -/
structure RowStep where
  m : Nat
  c : Nat
  e : List Nat

/-- The scaled and masked scores of row i, and its exponentials; a lane's fault gives another weight (R259, R304). -/
def UnitOp.rowStep (u : UnitOp) (o : TileObs) (b : UnitBlock) (i : Nat) (acc : RowAcc) (dots : List Nat) : Option RowStep :=
  let sc := dots.zipIdx.map (fun x => if b.on i x.2 then mulF u.alpha x.1 else 0xFF800000)
  let m := ((f32 acc.m).max ((sc.map f32).foldl Num.max (.inf true))).toF32
  if m = 0xFF800000 then none else
    let sub (x : Nat) : Nat := (sumNums [f32 x, (f32 m).negate]).toF32
    some { m, c := exp2F (sub acc.m), e := sc.zipIdx.map (fun x =>
      match o.lanes.find? (fun l => l.elem == 128 * (b.first + x.2) + i) with
      | some l => l.value.toNat
      | none => exp2F (sub x.1)) }

/-- The weights of row i rounded to KV_FMT, as one of the two converters gave them (R242, R304). -/
def UnitOp.weights (u : UnitOp) (o : TileObs) (second : Bool) (b : UnitBlock) (i : Nat) (st : Option RowStep) : List Nat :=
  match st with
  | none => List.replicate b.len 0
  | some y => y.e.zipIdx.map (fun x =>
      match o.conv.find? (fun e => e.second == second && e.row == i && e.pos == b.first + x.2) with
      | some e => e.code.toNat
      | none => (convert u.kvFmt true none (f32 x.1)).1)

/-- The state of a row after a block. -/
def UnitOp.rowNext (u : UnitOp) (acc : RowAcc) (st : Option RowStep) (p dots : List Nat) : RowAcc :=
  match st with
  | none => acc
  | some y =>
    let sum := ((treeFold addF 20 (p.map (fun c => (decodeElem u.kvFmt false c).toF32))).head?).getD 0
    { m := y.m, l := addF (mulF acc.l y.c) sum, o := acc.o.zipWith (fun o d => addF (mulF o y.c) d) dots }

/-- A unit part way: its rows, what its checks saw, and the array tiles so far. -/
structure UnitSt where
  rows     : List RowAcc
  lines    : Lines := {}
  convFail : Bool := false
  tile     : Nat := 0

/-- One block of a unit (R304). -/
def UnitOp.block (u : UnitOp) (o : TileObs) (st : UnitSt) (b : UnitBlock) : UnitSt :=
  let sc := (u.scores o b).runWide o st.tile
  let t1 := st.tile + ceilDiv b.len 128
  let steps := st.rows.zipIdx.map (fun x => u.rowStep o b x.2 x.1 (nth sc.1 x.2 []))
  let p := steps.zipIdx.map (fun x => u.weights o false b x.2 x.1)
  let p2 := steps.zipIdx.map (fun x => u.weights o true b x.2 x.1)
  let ov := (u.values o b p).runWide o t1
  { rows := st.rows.zipIdx.map (fun x => u.rowNext x.1 (nth steps x.2 none) (nth p x.2 []) (nth ov.1 x.2 [])),
    lines := (st.lines.join sc.2).join ov.2, convFail := st.convFail || p != p2, tile := t1 + ceilDiv u.dim 128 }

/-- A computation of a unit: its rows, for the merge (R304, R309). -/
def UnitOp.run (u : UnitOp) (o : TileObs) : Comp :=
  let st := u.blocks.foldl (u.block o) { rows := List.replicate u.rows { o := List.replicate u.dim 0 } }
  { lines := st.lines, convFail := st.convFail, resFail := o.lanes.any laneSeen, out := { rows := st.rows.map (fun x => (x.codes, [])) } }

/-- gc of a unit: its array tiles as R219 counts them, and the exponentials of its weights on the lanes (R221). (DESIGN CHOICE, log
entry 118.) -/
def UnitOp.gc (u : UnitOp) (follows : Bool) : Nat :=
  (u.blocks.map (fun b => ceilDiv b.len 128 * (u.dim * max (gcPerK u.qFmt) (gcPerK u.kvFmt)) + ceilDiv u.dim 128 * (b.len * gcPerK u.kvFmt) +
    ceilDiv (u.rows * b.len) 64)).sum + (if follows then 0 else 320)

/-! ## The merge (R306, R307) -/

/-- Merges two spans of a row (R306). -/
def mergeRows (a b : RowAcc) : RowAcc :=
  let m := ((f32 a.m).max (f32 b.m)).toF32
  if m = 0xFF800000 then a else
    let sub (x : Nat) : Nat := (sumNums [f32 x, (f32 m).negate]).toF32
    let ca := exp2F (sub a.m)
    let cb := exp2F (sub b.m)
    { m, l := addF (mulF a.l ca) (mulF b.l cb),
      o := a.o.zip b.o |>.map (fun x => addF (mulF x.1 ca) (mulF x.2 cb)) }

/-- α (R304). -/
def alphaOf (a : AttOp) : Nat := mulF (mulF a.scale a.kScale) 0x3FB8AA3B

/-- The code of an element of a page half. -/
def pageCode (h : ListHdr) (page : List Byte) (half t d : Nat) : Nat :=
  let e := (geoElem h.geometry).getD 1
  leAt page (32768 * half + (t * (geoDim h.geometry).getD 0 + d) * e) e

/-- The query token and the query head of row i of a query tile (R303). -/
def unitToken (a : AttOp) (u i : Nat) : Nat := (128 * unitTile u + i) / a.group
def unitQHead (a : AttOp) (u i : Nat) : Nat := unitHead u * a.group + (128 * unitTile u + i) % a.group

/-- Query rows of a unit's tile. -/
def unitRows (a : AttOp) (q : SeqRec) (u : Nat) : Nat := min 128 (q.qCount * a.group - 128 * unitTile u)

/-- The bytes of the page of a block for a head; a page that is poisoned or missing reads as zeros here: its unit is poisoned. -/
def pageOf (w : Work) (s : State) (i : Nat) (a : AttOp) (q : SeqRec) (h : ListHdr) (head b : Nat) : List Byte :=
  ((pageData w s i h (pageIdx h b a.layer head) (min (geoT h.geometry) (q.length - b * geoT h.geometry))).getD none).getD []

/-- A committed block of a unit; its rows at or above LENGTH are not read (R282, R302). -/
def pageBlock (w : Work) (s : State) (a : AttOp) (q : SeqRec) (h : ListHdr) (u b : Nat) : UnitBlock :=
  let t := geoT h.geometry
  let pg := pageOf w s (unitSeq u) a q h (unitHead u) b
  let rows := min t (q.length - b * t)
  { first := b * t, len := t, k := fun x d => if x < rows then pageCode h pg 0 x d else 0, v := fun x d => if x < rows then pageCode h pg 1 x d else 0,
    on := fun i x => let r := attended s q (unitToken a u i); decide (r.1 ≤ b * t + x) && decide (b * t + x < r.2) }

/-- The pending rows as a block (R301, R305). -/
def pendBlock (s : State) (a : AttOp) (q : SeqRec) (h : ListHdr) (u : Nat) : UnitBlock :=
  let dim := (geoDim h.geometry).getD 0
  let e := (geoElem h.geometry).getD 1
  let code (half x d : Nat) : Nat := refNum s (refOf q.aux) ((((half * q.pending + x) * h.kvHeads + unitHead u) * dim + d) * e) e
  { first := q.length, len := q.pending, k := code 0, v := code 1, on := fun i x => (maskAt s q (unitToken a u i)).testBit x }

/-- Whether a unit takes the pending rows: its span is the last (R305). -/
def unitPends (w : Work) (s : State) (q : SeqRec) (h : ListHdr) (u : Nat) : Bool :=
  decide (q.pending > 0) && unitSpan u + 1 == spansOfSeq q (geoT h.geometry) (spanLen w s (unitSeq u) q)

/-- What a unit computes. -/
def unitOp (w : Work) (s : State) (q : SeqRec) (h : ListHdr) (u : Nat) : UnitOp :=
  let a := attOf w s
  let dim := (geoDim h.geometry).getD 0
  let e := fmtBits a.qFmt / 8
  { alpha := alphaOf a, qFmt := a.qFmt, kvFmt := h.geometry / 16, dim, rows := unitRows a q u,
    q := fun i d => refNum s a.q ((((q.qRow + unitToken a u i) * (h.kvHeads * a.group) + unitQHead a u i) * dim + d) * e) e,
    blocks := (unitBlocks a s q (geoT h.geometry) (spanLen w s (unitSeq u) q) (unitTile u) (unitSpan u)).map (pageBlock w s a q h u) ++
      (if unitPends w s q h u then [pendBlock s a q h u] else []) }

/-- The backward pass of a unit: the checked products S = Q Kᵀ and dO Vᵀ of each block, whose accumulators it hands on (R313). (DESIGN CHOICE, log entry 124.) -/
def backRun (o : TileObs) (oFmt : Nat) (dO : Nat → Nat → Nat) (u : UnitOp) : Comp :=
  let st := u.blocks.foldl (fun (st : List (List Nat) × Lines × Nat) b =>
    let sc := (u.scores o b).runWide o st.2.2
    let t1 := st.2.2 + ceilDiv b.len 128
    let g := (unitProduct oFmt u.kvFmt u.rows b.len u.dim dO (fun x d => fetched o 2 (b.first + x) d (b.v x d))).runWide o t1
    (st.1.zipIdx.map (fun x => x.1 ++ nth sc.1 x.2 [] ++ nth g.1 x.2 []), (st.2.1.join sc.2).join g.2, t1 + ceilDiv b.len 128))
    (List.replicate u.rows [], {}, 0)
  { lines := st.2.1, resFail := o.lanes.any laneSeen, out := { rows := st.1.map (fun x => (x, [])) } }

/-- A computation of a unit, forward or backward. -/
def unitRun (w : Work) (s : State) (o : TileObs) (q : SeqRec) (h : ListHdr) (u : Nat) : Comp :=
  let a := attOf w s
  let op := unitOp w s q h u
  let e := fmtBits a.oFmt / 8
  if a.back then
    backRun o a.oFmt (fun i d => refNum s a.dO ((((q.qRow + unitToken a u i) * (h.kvHeads * a.group) + unitQHead a u i) * op.dim + d) * e) e) op
  else op.run o

/-- The output codes of a finished row (R307). -/
def rowOut (a : AttOp) (x : RowAcc) : List Nat :=
  if x.m = 0xFF800000 then x.o.map (fun _ => 0) else
    let k := mulF a.vScale (recipF x.l)
    x.o.map (fun o => (convert a.oFmt true none (f32 (mulF o k))).1)

/-! ## Ending a sequence -/

/-- Writes row `row` and query head `qh` of O, and its statistics (R307, R308). -/
def putOut (a : AttOp) (h : ListHdr) (row qh : Nat) (x : RowAcc) (s : State) : State :=
  let dim := (geoDim h.geometry).getD 0
  let e := fmtBits a.oFmt / 8
  let cell := row * (h.kvHeads * a.group) + qh
  let s1 := refWrite a.o (cell * dim * e) ((rowOut a x).flatMap (leBytes e)) s
  if a.flag then refWrite a.stats (8 * cell) (leBytes 4 x.m ++ leBytes 4 (if x.m = 0xFF800000 then 0 else x.l)) s1 else s1

/-- Poison for a row's output and statistics (R328). -/
def poisonOut (a : AttOp) (h : ListHdr) (row qh : Nat) (s : State) : State :=
  let len := (geoDim h.geometry).getD 0 * (fmtBits a.oFmt / 8)
  let cell := row * (h.kvHeads * a.group) + qh
  let s1 := refPoison a.o (cell * len) len s
  if a.flag then refPoison a.stats (8 * cell) 8 s1 else s1

/-- The row that the unit of a span gives row i of its tile; a unit that did no work gives a row that attended nothing (R303, R306). -/
def endedRow (o : SeqOp) (u i dim : Nat) : RowAcc :=
  match o.ended.find? (fun e => e.unit == u) with
  | some e => RowAcc.ofCodes (nth e.out.rows i ([], [])).1
  | none => { o := List.replicate dim 0 }

/-- Writes the outputs of a forward sequence whose units have all ended (R306 to R308, R328). -/
def writeForward (w : Work) (o : SeqOp) (i : Nat) (q : SeqRec) (h : ListHdr) (s : State) : State :=
  let a := attOf w s
  let ns := spansOfSeq q (geoT h.geometry) (spanLen w s i q)
  (List.range q.qCount).foldl (fun t j => (List.range (h.kvHeads * a.group)).foldl (fun t qh =>
    let r := j * a.group + qh % a.group
    let no (sn : Nat) : Nat := unitNo i (qh / a.group) (r / 128) sn
    if o.ended.any (fun e => e.bad.isSome && (List.range ns).any (fun sn => no sn == e.unit)) then poisonOut a h (q.qRow + j) qh t
    else
      match treeFold mergeRows 34 ((List.range ns).map (fun sn => endedRow o (no sn) (r % 128) ((geoDim h.geometry).getD 0))) with
      | x :: _ => putOut a h (q.qRow + j) qh x t
      | [] => t) t) s

/-- The bytes a backward sequence reads: its rows of Q, O, dO and the statistics, the products of its units, and the scales (R312,
R313). -/
def backInputs (w : Work) (o : SeqOp) (i : Nat) (q : SeqRec) (h : ListHdr) (s : State) : List Byte :=
  let a := attOf w s
  let rd (r : Ref) (n : Nat) : List Byte := refRead s r (q.qRow * n) (q.qCount * n)
  rd a.q (rowBytes a h a.qFmt) ++ rd a.o (rowBytes a h a.oFmt) ++ rd a.dO (rowBytes a h a.oFmt) ++ rd a.stats (h.kvHeads * a.group * 8) ++
  (o.ended.filter (fun e => unitSeq e.unit == i)).flatMap (fun e => leBytes 8 e.unit ++ e.out.rows.flatMap (fun r => r.1.flatMap (leBytes 4))) ++
  ((unitsOf w s i q).flatMap (unitPages w s q h)).flatMap (fun n =>
    ((pageData w s i h n (min (geoT h.geometry) (q.length - n / (h.layers * h.kvHeads) * geoT h.geometry))).getD none).getD []) ++
  refRead s (refAt w.body 8) 64 20

/-- Writes the gradients of a sequence. The formulas are those of R313; their roundings the spec leaves open, so each byte is a free value
of what was read, but dK and dV of a position that no query attends are zero (R314). What a poisoned unit reaches carries poison. -/
def writeBackward (w : Work) (o : SeqOp) (i : Nat) (q : SeqRec) (h : ListHdr) (s : State) : State :=
  let a := attOf w s
  let dim := (geoDim h.geometry).getD 0
  let heads := h.kvHeads * a.group
  let sp := spanLen w s i q
  let ins := backInputs w o i q h s
  let bads := (o.ended.filter (fun e => unitSeq e.unit == i && e.bad.isSome)).map UnitEnd.unit
  let qPut (s : State) (c : Nat × Nat) : State :=
    let at_ := ((q.qRow + c.1) * heads + c.2) * dim * 4
    if bads.any (fun u => unitHead u == c.2 / a.group && unitTile u == (c.1 * a.group + c.2 % a.group) / 128) then refPoison a.dq at_ (dim * 4) s
    else refWrite a.dq at_ ((List.range (dim * 4)).map (fun x => Config.gradByte ins 0 ((c.1 * heads + c.2) * dim * 4 + x))) s
  let kPut (which : Nat) (r : Ref) (s : State) (c : Nat × Nat) : State :=
    let at_ := ((q.dkvRow + c.1) * h.kvHeads + c.2) * dim * 4
    let used := (List.range q.qCount).any (fun j => let y := attended s q j; decide (y.1 ≤ c.1 ∧ c.1 < y.2))
    if bads.any (fun u => unitHead u == c.2 && unitSpan u == c.1 / geoT h.geometry / sp) then refPoison r at_ (dim * 4) s
    else refWrite r at_ ((List.range (dim * 4)).map (fun x => if used then Config.gradByte ins which ((c.1 * h.kvHeads + c.2) * dim * 4 + x) else 0)) s
  let qCells := (List.range q.qCount).flatMap (fun j => (List.range heads).map (fun k => (j, k)))
  let kCells := (List.range q.length).flatMap (fun p => (List.range h.kvHeads).map (fun k => (p, k)))
  kCells.foldl (kPut 2 a.dv) (kCells.foldl (kPut 1 a.dk) (qCells.foldl qPut s))

/-- The status of a sequence whose units have ended (R254, R328). -/
def attStatus (o : SeqOp) (i : Nat) : Status :=
  (o.ended.filter (fun e => unitSeq e.unit == i)).foldl (fun st e => worseOp st (e.bad.getD (if e.again then .okRecomputed else .ok))) .ok

/-- What an attention operation gives its record (R264 to R266). -/
def attInfo (w : Work) (o : SeqOp) (st : Status) (s : State) : StepInfo :=
  let a := attOf w s
  let rows := ((attRecs w s).map (fun q => q.qRow + q.qCount)).foldl max 0
  let n := match (attRecs w s).head?.bind (fun q => listAt s q.list) with | some h => rows * rowBytes a h a.oFmt | none => 0
  { opInfo w st (if a.back then [] else refRead s a.o 0 n) with
    tiles := o.cnt.firsts, recomputed := o.cnt.recomputed, xchecked := o.cnt.xchecked, failed := o.cnt.failed,
    unchecked := o.cnt.unchecked, xk := o.cnt.xk, regions := inputRegions s [a.table, a.q] }

/-- An attention operation ends when every sequence has (R296). -/
def settleAtt (w : Work) (o : SeqOp) (s : State) : State :=
  if o.seqs.all (fun q => q.phase == .done) then
    finishOp w (attInfo w o (seqOutcome o).1 s) (seqOutcome o).2
      { s with sleeper := { s.sleeper with bufs := s.sleeper.bufs.filter (fun d => d.forw.wid != w.wid) } } o.cnt.faultRef
  else s.setProg w.wid (.attend o)

/-- Ends a sequence whose units have all ended: outputs, STATUS (R296, R306 to R308). -/
def finishSeq (w : Work) (o : SeqOp) (i : Nat) (q : SeqRec) (s : State) : State :=
  let st := attStatus o i
  let s1 := match listAt s q.list with
    | none => s
    | some h => if (attOf w s).back then writeBackward w o i q h s else writeForward w o i q h s
  settleAtt w (o.done i st 0) (putStatus (attOf w s).table i st s1)

/-- COMMIT[LAYER] has reached a sequence's LENGTH: its units may start; one without any is done (R302, R303). -/
def execCommitWaitSatisfied (wid seq : Nat) (s : State) : Host.Outcome State Fault Refusal :=
  resume wid s (fun p => match p with | .attend o => some o | _ => none) (fun w o s =>
    match o.seqs[seq]?, (attRecs w s)[seq]? with
    | some x, some q =>
      match listAt s q.list with
      | none => s
      | some h =>
        if x.phase ≠ .waiting ∨ listCommit s h (attOf w s).layer < q.length then s else
        let n := (unitsOf w s seq q).length
        let o' : SeqOp := { o with seqs := o.seqs.zipIdx.map (fun y => if y.2 = seq then { y.1 with phase := .running, units := n } else y.1) }
        if n = 0 then finishSeq w o' seq q s else s.setProg wid (.attend o')
    | _, _ => s)

/-- The wait of R302 expires: the sequence reads nothing and fails with cause 0x07. -/
def execCommitWaitExpire (wid seq : Nat) (s : State) : Host.Outcome State Fault Refusal :=
  resume wid s (fun p => match p with | .attend o => some o | _ => none) (fun w o s =>
    match o.seqs[seq]? with
    | none => s
    | some x =>
      if x.phase ≠ .waiting then s
      else settleAtt w (o.done seq .malformed 0x07) (putStatus (attOf w s).table seq .malformed s))

/-! ## Units -/

/-- The units a sequence has not started. -/
def unitsLeft (w : Work) (o : SeqOp) (i : Nat) (q : SeqRec) (s : State) : List Nat :=
  (unitsOf w s i q).filter (fun u => !o.parts.any (fun t => t.idx == u) && !o.ended.any (fun e => e.unit == u))

/-- The sequence whose unit R311 starts next: the longest bucket's first with a unit not started. -/
def nextSeq (w : Work) (o : SeqOp) (s : State) : Option Nat :=
  let qs := (attRecs w s).zipIdx
  let left (i : Nat) (q : SeqRec) : Bool :=
    (match o.seqs[i]? with | some x => x.phase == .running | none => false) && !(unitsLeft w o i q s).isEmpty
  (qs.foldl (fun best x => if !left x.2 x.1 then best else
    match best with
    | some (i, b) => if seqBucket w s x.2 x.1 > b then some (x.2, seqBucket w s x.2 x.1) else some (i, b)
    | none => some (x.2, seqBucket w s x.2 x.1)) none).map Prod.fst

/-- Whether a unit reads poison: its query rows, and in the backward pass those of O, dO and the statistics; pages; pending rows and masks
(R253, R328); none while a page has not come. -/
def unitPoison (w : Work) (s : State) (i : Nat) (q : SeqRec) (h : ListHdr) (u : Nat) : Option Bool :=
  let a := attOf w s
  let t := geoT h.geometry
  let bs := unitBlocks a s q t (spanLen w s i q) (unitTile u) (unitSpan u)
  let ps := bs.map (fun b => pageData w s i h (pageIdx h b a.layer (unitHead u)) (min t (q.length - b * t)))
  if ps.any Option.isNone then none
  else
    let r := tileTokens a q (unitTile u)
    let rows (x : Ref) (n : Nat) : Bool := refPoisoned s x ((q.qRow + r.1) * n) ((r.2 - r.1) * n)
    some (ps.any (fun p => p == some none) || rows a.q (rowBytes a h a.qFmt) ||
      (a.back && (rows a.o (rowBytes a h a.oFmt) || rows a.dO (rowBytes a h a.oFmt) || rows a.stats (h.kvHeads * a.group * 8))) ||
      (decide (q.pending > 0) && (refPoisoned s (refOf q.aux) 0 (2 * q.pending * h.kvHeads * (geoDim h.geometry).getD 0 * (geoElem h.geometry).getD 1) ||
        refPoisoned s (refOf q.ancestors) 0 (8 * q.pending))))

/-- The resident tiles a unit reads: its pages (R224, R327). -/
def unitTiles (w : Work) (s : State) (q : SeqRec) (h : ListHdr) (u : Nat) : List ResTile :=
  (unitPages w s q h u).map (fun n => { key := .page q.list n, bytes := 65536 })

/-- What a run of a unit leaves of it, if it has ended: what poisoned it, or its rows. -/
def unitEnd (t : TileSt) (v : Verdict) : Option UnitEnd :=
  match v.fate with
  | .again => none
  | .write out => some { unit := t.idx, again := v.tile.again, out }
  | .poison st => some { unit := t.idx, bad := some (if t.dead then .checkFail else st), again := v.tile.again }

/-- An attention unit ends on its Stand (R303 to R309, R327). (DESIGN CHOICE, log entry 119.) -/
def unitDone (w : Work) (o : SeqOp) (t : TileSt) (x : Nat × Nat) (q : SeqRec) (h : ListHdr) (bad : Bool) (obs : TileObs) (s : State) : State :=
  let i := unitSeq t.idx
  let res := unitTiles w s q h t.idx
  let r := runTile w x t .unit (h.geometry / 16) ((unitOp w s q h t.idx).gc (o.cnt.last.any (· == x))) [((attOf w s).q, 0)]
    (if bad || badResident x (res.map ResTile.key) s then some .poisonConsumed else none) obs (unitRun w s obs q h t.idx) s (res.map ResTile.key)
  let v := r.verdict
  let newlyDead := v.tile.dead && !t.dead
  let cnt := o.cnt.after x t r (!t.dead && (newlyDead || (match v.fate with | .poison st => st == .checkFail | _ => false)))
  let s1 := holdTiles x res r.state
  match unitEnd t v with
  | none => s1.setProg w.wid (.attend { o with parts := putTile v.tile o.parts, cnt })
  | some e =>
    let o' : SeqOp := { o with parts := o.parts.filter (fun y => y.idx != t.idx), ended := o.ended ++ [e], cnt }
    let s2 : State := { s1 with mem := { s1.mem with kvUnits := s1.mem.kvUnits + 1 } }
    if (o'.ended.filter (fun e => unitSeq e.unit == i)).length ≥ ((o.seqs[i]?).map (fun y => y.units)).getD 0 then finishSeq w o' i q s2
    else s2.setProg w.wid (.attend o')

/-- ATTEND_UNIT_COMPLETE. -/
def execAttendUnitComplete (wid unit : Nat) (obs : TileObs) (s : State) : Host.Outcome State Fault Refusal :=
  resume wid s (fun p => match p with | .attend o => some o | _ => none) (fun w o s =>
    match o.parts.find? (fun t => t.idx == unit), (attRecs w s)[unitSeq unit]? with
    | some t, some q =>
      match t.running, listAt s q.list with
      | some x, some h => match unitPoison w s (unitSeq unit) q h unit with
        | some bad => unitDone w o t x q h bad obs s
        | none => s
      | _, _ => s
    | _, _ => s)

/-! ## Placement (R230 to R232) -/

/-- Whether a Stand holds all of some tiles, at least one. -/
def holdsAll (s : State) (x : Nat × Nat) (keys : List ResKey) : Bool :=
  !keys.isEmpty && keys.all (fun k => (s.stand x.1 x.2).resident.any (fun r => r.key == k))

/-- The eligible Stands of a tile, chunk or unit by rank, and those preferred within one (R230). (DEDUCED, log entry 116.) -/
def rankStands (w : Work) (idx : Nat) (s : State) : List (List (Nat × Nat)) × List (Nat × Nat) :=
  let all := workStands w.part 0 s
  let home (r : Ref) : List (Nat × Nat) := match r with
    | .hbm id _ => (match s.region id with | some g => all.filter (fun x => x.1 == g.grove) | none => [])
    | _ => []
  if w.opcode = 0x32 ∨ w.opcode = 0x33 then
    match (attRecs w s)[unitSeq idx]? with
    | none => ([[], [], [], all], [])
    | some q =>
      let keys := match listAt s q.list with | some h => (unitTiles w s q h idx).map ResTile.key | none => []
      ([all.filter (fun x => holdsAll s x keys), [], home (refOf q.list), all], [])
  else if w.opcode = 0x22 then ([[], [], [], all], [])
  else
    let m := matOf w
    let row := (m.rowTilesA s (idx / ceilDiv m.n 128)).map ResTile.key
    ([[], (match m.b with | .canopy g _ _ => all.filter (fun x => x.1 == g) | _ => []), home m.b, all],
     match m.b with | .canopy _ _ _ => all.filter (fun x => holdsAll s x row) | _ => [])

/-- Gives a tile, chunk or unit that has no Stand to one, or leaves it waiting at a rank (R230, R231, R249, R256). -/
def placeTile (w : Work) (c : ChkCnt) (t : TileSt) (s : State) : Except Nat (Nat × Nat) :=
  match t.kind with
  | .first => let r := rankStands w t.idx s; firstStand s r.2 c.last t.rank 1 r.1
  | _ => match againStand w.part t s with | some x => .ok x | none => .error 0

/-- The tile as it starts on a Stand, or waits at a rank. -/
def placed (t : TileSt) (r : Except Nat (Nat × Nat)) (s : State) : TileSt :=
  match r with
  | .ok x => t.startOn x s
  | .error k => { t with rank := max t.rank k }

/-- The Stand that was taken is busy. -/
def takeStand (r : Except Nat (Nat × Nat)) (s : State) : State :=
  match r with
  | .ok x => s.modStand x.1 x.2 (fun y => { y with busy := true })
  | .error _ => s

/-- The Stand's Grove is gated or off: the tile starts once it has ungated (R62). -/
def waitsForGrove (r : Except Nat (Nat × Nat)) (s : State) : Bool :=
  match r with
  | .ok x => s.power.gated.getLsbD x.1
  | .error _ => false

/-- A first computation that waits for a Stand among those open. -/
def waitingFirst (l : List TileSt) : Option TileSt := l.find? (fun t => t.running.isNone && t.kind == .first)

/-- The tile an operation may start next: the one that waits, else the next in tile order, none where every one has started (R232). -/
def TileOp.nextTile (w : Work) (o : TileOp) (s : State) : Option TileSt :=
  match waitingFirst o.live with
  | some t => some t
  | none => if o.next < o.total then some { idx := o.next, sampled := sampled w.part o.cnt o.next s } else none

/-- The next unit of an attention operation: the one that waits, else the first unit of the sequence that R311 takes next. -/
def SeqOp.nextUnit (w : Work) (o : SeqOp) (s : State) : Option TileSt :=
  match waitingFirst o.parts with
  | some t => some t
  | none => (nextSeq w o s).bind (fun i => ((attRecs w s)[i]?).bind (fun q => ((unitsLeft w o i q s).head?).map (fun u =>
      { idx := u, sampled := sampled w.part o.cnt u s })))

/-- Whether a tile could start now. -/
def couldStart (w : Work) (c : ChkCnt) (t : Option TileSt) (s : State) : Bool :=
  match t with
  | some t => (match placeTile w c t s with | .ok x => !s.power.gated.getLsbD x.1 | .error _ => false)
  | none => false

/-- Whether an operation of the partition fetched earlier has a tile that could start now: it goes first (R232). -/
def earlierStarts (w : Work) (s : State) : Bool :=
  s.work.any (fun x => decide (x.wid < w.wid) && x.part == w.part && ctxGiven x s && (match x.prog with
    | .tiles o => !(operandRefs x).any (slotLoading s) && couldStart x o.cnt (o.nextTile x s) s
    | .attend o => couldStart x o.cnt (o.nextUnit x s) s
    | _ => false))

/-- The tile of a number that may be given a Stand: one that waits for another computation, or the next to start, which is in its turn
(R232, R249, R311). -/
def dispatchable (w : Work) (tile : Nat) (l : List TileSt) (next : Option TileSt) (s : State) : Option TileSt :=
  match l.find? (fun t => t.idx == tile && t.running.isNone && t.kind != .first) with
  | some t => some t
  | none => match next with
    | some t => if t.idx = tile ∧ earlierStarts w s = false then some t else none
    | none => none

/-- Marks the tiles an operation has not computed as poisoned and ends it with INTERNAL: its partition has no MATRIX Stand left
(R663). -/
def abortTiles (w : Work) (o : TileOp) (s : State) : State :=
  let rest := o.live.map (fun t => t.idx) ++ (List.range (o.total - o.next)).map (o.next + ·)
  let s1 := rest.foldl (fun s i => if w.opcode = 0x22 then (vecOf w).poison i s else (matOf w).poison i s) s
  dutyEmpty w.part w s1

/-- TILE_DISPATCH: the next tile of an operation in tile order, one that waits, or an attention unit in the order of R311, is
given to an idle eligible Stand (R184, R230 to R232, R255, R303); none of a context that is saved (R697, R698). (DEDUCED, log
entries 37, 117.) -/
def execTileDispatch (wid tile : Nat) (s : State) : Host.Outcome State Fault Refusal :=
  resume wid s (fun p => some p) (fun w p s =>
    if !ctxGiven w s then s else
    match p with
    | .tiles o =>
      if (operandRefs w).any (slotLoading s) then s
      else if (standsOf w.part 0 s).isEmpty then abortTiles w o s
      else match dispatchable w tile o.live (o.nextTile w s) s with
        | none => s
        | some t =>
          let r := placeTile w o.cnt t s
          if waitsForGrove r s then s else
          (takeStand r s).setProg wid (.tiles { o with live := putTile (placed t r s) o.live, next := if t.idx = o.next then o.next + 1 else o.next })
    | .attend o =>
      if (standsOf w.part 0 s).isEmpty then dutyEmpty w.part w s
      else match dispatchable w tile o.parts (o.nextUnit w s) s with
        | none => s
        | some t =>
          let r := placeTile w o.cnt t s
          if waitsForGrove r s then s else
          readOn wid ((takeStand r s).setProg wid (.attend { o with parts := putTile (placed t r s) o.parts }))
    | _ => s)

/-- GV_AFFINITY_WAIT expires: a waiting tile falls to the next rank (R231). -/
def execAffinityWaitExpire (wid tile : Nat) (s : State) : Host.Outcome State Fault Refusal :=
  resume wid s (fun p => some p) (fun _ p s =>
    let fall (l : List TileSt) : List TileSt := l.map (fun t =>
      if t.idx = tile ∧ t.running.isNone ∧ t.kind = .first ∧ t.rank < 4 then { t with rank := t.rank + 1 } else t)
    match p with
    | .tiles o => s.setProg wid (.tiles { o with live := fall o.live })
    | .attend o => s.setProg wid (.attend { o with parts := fall o.parts })
    | _ => s)

end Sys2Proof.Machine
end

