-- ==== Sys2Proof/Machine/Parcel.lean ====
section
/-! DEFINITION. The parcel of a request (R584 to R588) and the start of a handoff at its sender (R580, R590). -/

namespace Sys2Proof.Machine

/-! ## Connections -/

/-- Whether a connection is a handoff connection (R579). -/
def Conn.handoff (c : Conn) : Bool := c.st == .opened && decide (c.service.toNat / 2 ^ 16 = 0x484F)

/-- The handoff connection of a tenant to a node: the lowest number (R580). -/
def handoffConn (tenant node : Nat) (s : State) : Option Nat :=
  (s.rc.conns.find? (fun kv => decide (kv.1 ≠ 0) && kv.2.handoff && kv.2.tenant == tenant && kv.2.peerNode == node)).map Prod.fst

/-! ## The parcel -/

/-- The reference of an entry's tally object. -/
def Entry.tallyRef (e : Entry) : Ref := refOf e.tally.toNat

/-- TURN_ENDED (R585): on a CACHE node it is what arrived. -/
def turnEnded (e : Entry) (s : State) : Bool :=
  if isCache s then e.turnEnded else
    decide (e.genCount ≥ e.genMax) ||
    (decide (e.genCount > 0) &&
      (List.range (min 8 (refNum s e.tallyRef (320 + 27) 1))).any (fun k => refNum s e.tallyRef (320 + 48 + 4 * k) 4 == e.lastToken.toNat))

/-- The page indices whose entries satisfy a test, in order. -/
def pagesWhere (s : State) (h : ListHdr) (f : PageEnt → Bool) : List Nat := (List.range h.pages).filter (fun n => f (pageEnt s h n))

/-- Pages sent as data: HBM or DDR5 (R586). -/
def dataPages (s : State) (h : ListHdr) : List Nat := pagesWhere s h (fun e => e.tier == 0 || e.tier == 1)

/-- Pages sent by reference: remote or not allocated (R588). -/
def refPages (s : State) (h : ListHdr) : List Nat := pagesWhere s h (fun e => e.tier == 2 || e.tier == 3)

/-- The distinct key slots that the references name. -/
def slotsOf (s : State) (h : ListHdr) : List Nat :=
  (refPages s h).foldl (fun acc n => let e := pageEnt s h n; if e.tier = 2 ∧ !acc.any (· == e.keyslot) then acc ++ [e.keyslot] else acc) []

/-- The 16-byte records of the reference items: bindings, then page entries (R588). -/
def refRecords (s : State) (h : ListHdr) : List (List Byte) :=
  (slotsOf s h).map (fun k => let b := s.keySlot k
    [0x01, BitVec.ofNat 8 b.node, BitVec.ofNat 8 b.cls, 0] ++ leBytes 2 k ++ leBytes 2 0 ++ leBytes 4 b.regionKey.toNat ++ leBytes 4 0) ++
  (refPages s h).map (fun n => [0x02, 0, 0, 0] ++ leBytes 4 n ++ leBytes 8 (pageEnt s h n).word)

/-- The OFFER an entry sends (R584): on a CACHE node the values of the list are those it arrived with. -/
def offerOf (idx : Nat) (s : State) : Offer :=
  let e := s.entry idx
  let o : Offer :=
    { promptLen := e.promptLen, prefilled := e.prefilled, length := e.length, genCount := e.genCount, genMax := e.genMax,
      priority := e.priority.toNat, deadlineKind := e.deadlineKind, met := e.met, turnEnded := turnEnded e s, tenant := e.tenant,
      layers := 0, kvHeads := 0, geometry := 0, specHeads := e.specHeads.toNat, items := 7, hbmPages := 0, remoteSlots := 0, refItems := 0,
      budget := e.budget }
  if isCache s then
    match e.shape with
    | some p => { o with
        layers := p.layers, kvHeads := p.kvHeads, geometry := p.geometry, items := p.items, hbmPages := p.hbmPages,
        remoteSlots := p.remoteSlots, refItems := p.refItems }
    | none => o
  else
    match listAt s e.list.toNat with
    | none => o
    | some h =>
      let refs := ceilDiv (refRecords s h).length 256
      let pages := (dataPages s h).length
      { o with
        layers := h.layers, kvHeads := h.kvHeads, geometry := BitVec.ofNat 8 h.geometry, items := 7 + refs + 16 * pages,
        hbmPages := pages, remoteSlots := (slotsOf s h).length, refItems := refs }

/-! ## Starting a handoff -/

/-- A CONTROL message of a handoff from its sender (R582). -/
def senderMsg (idx : Nat) (ctype status reason : Byte) (body : CtlBody) (s : State) : Ctl :=
  let e := s.entry idx
  { ctype, sEntry := idx, rEntry := (senderOf e).rEntry, status, reason, reqId := e.reqId, epoch := e.epoch, origin := s.me, body }

/-- An entry enters HANDOFF_OUT toward a node and its OFFER is sent, for a TT_MOVE or by itself (R375, R382, R590). Without a
handoff connection a TT_MOVE is refused, and an automatic handoff ends with the sender keeping ownership (R580). No handoff leaves a
partition whose tenant switch runs (R720). (DEDUCED, log entry 68.) -/
def startHandoff (idx node : Nat) (wid : Option Nat) (s : State) : State :=
  let e := s.entry idx
  if switching e.part s then s else
  let enter (x : Sender) (s : State) : State :=
    let s1 := putEntry idx (fun e => { e with st := .handoffOut, ret := e.st, node, snd := some x }) s
    { s1 with ho := { s1.ho with out := s1.ho.out + 1 } }
  match handoffConn e.tenant node s, wid with
  | none, some w => completeWid w .malformed 0x0B s
  | none, none => resolveKept idx 0x70 .malformed 0x0B (enter {} s)
  | some c, w =>
    let o := offerOf idx s
    let x : Sender := { conn := c, items := o.items, offerSc := s.clk.sc, auto := w.isNone, wid := w }
    let s1 := enter x s
    let s2 := connSend c (senderMsg idx 0x01 0 0 (.offer o) s1) s1
    match w with
    | some n => s2.setProg n (.move idx)
    | none => s2

end Sys2Proof.Machine
end

