-- ==== Sys2Proof/Machine/TokRing.lean ====
section
/-! DEFINITION. Token rings (R400 to R402): writing, holding and flushing token records, and their moderation (R122). -/

namespace Sys2Proof.Machine

def State.tok (s : State) (f : Nat) : Tok := (s.fn f).tok
def State.modTok (s : State) (f : Nat) (g : Tok → Tok) : State := s.modFn f (fun x => { x with tok := g x.tok })

/-- Records a token ring holds (R93, R401). -/
def Tok.used (t : Tok) : Nat := (t.tail - t.head).toNat

/-- Whether the ring has room for n more records. -/
def Tok.room (t : Tok) (n : Nat) : Bool := decide (t.used + t.held.length + n ≤ 2 ^ t.logSize.toNat)

/-- Counts a record toward moderation: whether the vector is signalled, and the ring after it (R122, R402). -/
def tokModerate (t : Tok) : Bool × Tok :=
  if !t.irqEn then (false, t)
  else if t.count + 1 ≥ max 1 t.modCount.toNat then (true, { t with count := 0, timer := false })
  else (false, { t with count := t.count + 1, timer := decide (t.modTime ≠ 0) })

/-- While a token ring is full its head line is read again (R116, R401). -/
def readTokHead (f : Nat) (s : State) : State :=
  if decide ((s.tok f).used < 2 ^ (s.tok f).logSize.toNat) then s else s.emit (.tokHeadRead f (s.tok f).headAddr.toNat)

/-- Writes a record at the ring's tail (R401). -/
def putTok (f : Nat) (r : TokRec) (s : State) : State :=
  let t := s.tok f
  let m := tokModerate { t with tail := t.tail + 1 }
  let s1 := (s.modTok f (fun _ => m.2)).emit
    (.token f t.tail (slotAddr t.base t.logSize.toNat 32 t.tail) ({ r with phase := phaseAt t.tail t.logSize.toNat } : TokRec).bytes)
  readTokHead f (if m.1 then msixSignal f t.vector.toNat s1 else s1)

/-- Whether a function's token ring takes records (R401). -/
def tokTakes (f : Nat) (s : State) : Bool := reachable f s && (s.tok f).enable

/-- Gives a record to a function's ring: written while there is room, held while it is full, counted lost where the ring is
disabled or the port is down (R119, R401, R696). -/
def giveTok (f : Nat) (r : TokRec) (s : State) : State :=
  if !tokTakes f s then loseRec f s
  else if (s.tok f).held.isEmpty && (s.tok f).room 1 then putTok f r s
  else if (s.fn f).disabling ≠ .no then loseRec f s
  else s.modTok f (fun t => { t with held := t.held ++ [r] })

/-- Writes held records while there is room; `fuel` is their number. -/
def flushTok (f : Nat) : Nat → State → State
  | 0, s => s
  | k + 1, s =>
    let t := s.tok f
    match t.held with
    | [] => s
    | r :: rest =>
      let s1 := s.modTok f (fun t => { t with held := rest })
      if t.used < 2 ^ t.logSize.toNat then flushTok f k (putTok f r s1) else s

end Sys2Proof.Machine
end

