-- ==== Sys2Proof/Machine/Races.lean ====
section
/-! DEFINITION. Race groups (R410 to R414): the home's side and the members' side, and the commands that carry their messages.
A message to the node itself takes effect at once. -/

namespace Sys2Proof.Machine

/-! ## A member's fields -/

/-- The fields of RACE (R367). -/
def Entry.raceValid (e : Entry) : Bool := e.race.getLsbD 31
def Entry.raceAt (e : Entry) : Bool := e.race.getLsbD 30
def Entry.raceHome (e : Entry) : Nat := fld e.race.toNat 23 7
def Entry.raceGroup (e : Entry) : Nat := fld e.race.toNat 0 10

/-- Publishes what a member withheld (R413, R414): its token record, its DONE or PREFILL_DONE event, MET where the first token is
the milestone, and the automatic handoff that waited. -/
def publishWithheld (idx : Nat) (s : State) : State :=
  let e := s.entry idx
  match e.withheld with
  | none => putEntry idx (fun e => { e with claiming := false }) s
  | some (r, ev) =>
    let auto := e.st == .prefill && e.held && e.nextValid
    let s1 := putEntry idx (fun e => { e with
      claiming := false, withheld := none, met := e.met || (r.first && !e.deadlineKind) }) s
    let s2 := giveTok e.fn r s1
    let s3 := match ev with | some c => ttEvent c idx s2 | none => s2
    if auto then startHandoff idx e.nextNode none s3 else s3

/-- A race message about a request (R583). -/
def raceMsg (ctype : Byte) (sEntry : Nat) (rEntry : Option Nat) (reqId : W64) (epoch : W32) (group : Nat) (s : State) : Ctl :=
  { ctype, sEntry, rEntry, status := 0, reason := 0, reqId, epoch, origin := s.me, body := .race group }

/-! ## Messages taking effect -/

/-- What a message asks to be sent: the node and the message. -/
abbrev Sends := List (Nat × Ctl)

/-- The group a message names. -/
def groupOf (m : Ctl) : Nat := match m.body with | .race g => g | _ => 1024

/-- The state of a group. -/
def State.race (s : State) (g : Nat) : Race := tget s.tt.races g {}
def State.modRace (s : State) (g : Nat) (f : Race → Race) : State := { s with tt := { s.tt with races := tmod s.tt.races g {} f } }

/-- A group closes when MEMBERS claims and cancel acknowledgements have been counted (R410). -/
def settleRace (g : Nat) (s : State) : State :=
  let r := s.race g
  if r.isOpen ∧ r.claimed.length + r.acks ≥ r.members then s.modRace g (fun _ => {}) else s

/-- The home counts a join; a member that joins a group that has been won is cancelled (R412). -/
def raceJoin (src : Nat) (m : Ctl) (s : State) : State × Sends :=
  let g := groupOf m
  let r := s.race g
  if !r.isOpen then (s, [])
  else (s.modRace g (fun r => { r with joined := r.joined ++ [(src, m.sEntry, m.reqId)] }),
    if r.won then [(src, raceMsg 0x24 m.sEntry (some m.sEntry) m.reqId m.epoch g s)] else [])

/-- The home grants the first claim and cancels every member that has joined and not claimed; it refuses every later claim, and
one for a group that is not open (R412). (DEDUCED, log entry 53.) -/
def raceClaim (src : Nat) (m : Ctl) (s : State) : State × Sends :=
  let g := groupOf m
  let r := s.race g
  let answer (c : Byte) : Nat × Ctl := (src, raceMsg c m.sEntry (some m.sEntry) m.reqId m.epoch g s)
  if !r.isOpen then (s, [answer 0x23])
  else
    let claimed := if r.claimed.any (· == m.reqId) then r.claimed else r.claimed ++ [m.reqId]
    let s1 := settleRace g (s.modRace g (fun r => { r with claimed, won := true }))
    if r.won then (s1, [answer 0x23])
    else (s1, answer 0x22 :: (r.joined.filter (fun j => !claimed.any (· == j.2.2))).map (fun j =>
      (j.1, raceMsg 0x24 j.2.1 (some j.2.1) j.2.2 0 g s)))

/-- A granted member publishes (R413). -/
def raceGrant (m : Ctl) (s : State) : State × Sends :=
  let i := m.rEntry.getD 0x3FFF
  let e := s.entry i
  (if e.claiming && e.reqId == m.reqId then publishWithheld i s else s, [])

/-- A member goes to CANCELLED with RACE_LOST, what it withheld discarded (R413); a handoff under way keeps the cancel pending,
a STUB forwards it. -/
def raceOver (idx : Nat) (s : State) : State :=
  let e := s.entry idx
  if e.st.cancels then toCancelled idx 0x52 s
  else if e.st = .stub then forwardFor idx s.me idx s
  else if e.st = .handoffOut ∨ e.st = .handoffIn then putEntry idx (fun e => { e with cancelPend := true, raceHit := some true }) s
  else s

/-- A refusal or a cancel of the race reaches a member: it applies at its step boundary (R413); a cancel is acknowledged then. -/
def raceLost (refused : Bool) (m : Ctl) (s : State) : State × Sends :=
  let i := m.rEntry.getD 0x3FFF
  let e := s.entry i
  if e.reqId ≠ m.reqId ∨ e.st = .free then (s, [])
  else if inStep i s then (putEntry i (fun e => { e with raceHit := some refused }) s, [])
  else (raceOver i s, if refused then [] else [(e.raceHome, raceMsg 0x25 i none e.reqId e.epoch (groupOf m) s)])

/-- The home counts a cancel acknowledgement (R410). -/
def raceAck (m : Ctl) (s : State) : State × Sends :=
  let g := groupOf m
  if (s.race g).isOpen then (settleRace g (s.modRace g (fun r => { r with acks := r.acks + 1 })), []) else (s, [])

/-- A race message takes effect, and those it causes are sent; `fuel` bounds the messages a node sends itself. -/
def raceRecv : Nat → Nat → Ctl → State → State
  | 0, _, _, s => s
  | k + 1, src, m, s =>
    let r := match m.ctype.toNat with
      | 0x20 => raceJoin src m s
      | 0x21 => raceClaim src m s
      | 0x22 => raceGrant m s
      | 0x23 => raceLost true m s
      | 0x24 => raceLost false m s
      | 0x25 => raceAck m s
      | _ => (s, [])
    r.2.foldl (fun s o => if o.1 = s.me then raceRecv k s.me o.2 s else mgmtSend o.1 o.2 s) r.1

/-- Sends a race message, which takes effect at once where the home is this node. -/
def raceSend (dst : Nat) (m : Ctl) (s : State) : State := if dst = s.me then raceRecv 6 dst m s else mgmtSend dst m s

/-- A refusal or cancel that waited for the step boundary applies (R413). -/
def raceBoundary (idx : Nat) (s : State) : State :=
  let e := s.entry idx
  match e.raceHit with
  | none => s
  | some refused =>
    let s1 := raceOver idx (s.modEntry idx (fun e => { e with raceHit := none }))
    if refused then s1 else raceSend e.raceHome (raceMsg 0x25 idx none e.reqId e.epoch e.raceGroup s) s1

/-- The home of a race is declared dead: its members publish and run on (R414). -/
def raceUnresolved (home : Nat) (s : State) : State :=
  (s.tt.entries.map Prod.fst).foldl (fun s i =>
    let e := s.entry i
    if e.raceValid && e.raceHome == home && e.st.owner then
      ttEvent 0x0108 i (putEntry i (fun e => { e with race := 0 }) (if e.claiming then publishWithheld i s else s))
    else s) s

/-! ## The commands -/

/-- A CONTROL message takes effect: where it waits in its connection's list, it leaves it and is acknowledged as visible
(R554). -/
def popMsg (num src : Nat) (m : Ctl) (s : State) : State :=
  match (s.conn num).rx.find? (fun x => x.ctl == some m && (num != 0 || x.src == src)) with
  | none => s
  | some x => effectDone num x s

/-- Whether a CONTROL message may take effect now: one that waits is whole and no earlier message stands before it (R554, R581). -/
def mayTake (num src : Nat) (m : Ctl) (s : State) : Bool :=
  match (s.conn num).rx.find? (fun x => x.ctl == some m && (num != 0 || x.src == src)) with
  | none => true
  | some x => x.complete && (if num = 0 then !(s.conn 0).rx.any (fun y => y.src == src && y.op == 12 && seqBefore y.mseq x.mseq)
      else x.mseq == (s.conn num).rxCum)

/-- A race message arrives from a node and takes effect; in N2 the Timetable is frozen and it waits (R61). -/
def raceCmd (ctype : Byte) (src : Nat) (m : Ctl) (s : State) : Host.Outcome State Fault Refusal :=
  actIf s (s.awake && m.ctype == ctype && mayTake 0 src m s) (fun s => raceRecv 6 src m (popMsg 0 src m s))

def execRaceJoin (src : Nat) (m : Ctl) (s : State) : Host.Outcome State Fault Refusal := raceCmd 0x20 src m s
def execRaceClaim (src : Nat) (m : Ctl) (s : State) : Host.Outcome State Fault Refusal := raceCmd 0x21 src m s
def execRaceGrant (src : Nat) (m : Ctl) (s : State) : Host.Outcome State Fault Refusal := raceCmd 0x22 src m s
def execRaceRefuse (src : Nat) (m : Ctl) (s : State) : Host.Outcome State Fault Refusal := raceCmd 0x23 src m s
def execRaceCancel (src : Nat) (m : Ctl) (s : State) : Host.Outcome State Fault Refusal := raceCmd 0x24 src m s
def execRaceCancelAck (src : Nat) (m : Ctl) (s : State) : Host.Outcome State Fault Refusal := raceCmd 0x25 src m s

end Sys2Proof.Machine
end

