-- ==== Sys2Proof/Machine/Select.lean ====
section
/-! DEFINITION. Token selection and speculation (chapter 10): the tally object and its slots (R418 to R421), the sampling block
and the tree shape (R422, R433, R437), the choice of one token (R428 to R430), proposals (R435), the candidate tree (R438) and
its verification (R439). -/

namespace Sys2Proof.Machine

/-! ## The tally object -/

/-- Bytes of a tally object (R418). -/
def tallyBytes : Nat := 17408

/-- The home slot of a token (R419). -/
def tallyHome (t : Nat) : Nat := (t * 0x9E3779B1) % 2 ^ 32 / 2 ^ 20

/-- Slot i of a tally object: its token and its count. -/
def tallySlot (s : State) (r : Ref) (i : Nat) : Nat × Nat :=
  let v := refNum s r (1024 + 4 * i) 4
  (fld v 14 18, fld v 0 14)

/-- Probes for a token: the slot that holds it, or the first empty one; `fuel` is the slots left (R419). -/
def tallyProbe (s : State) (r : Ref) (t : Nat) : Nat → Nat → Option (Nat × Nat)
  | 0, _ => none
  | k + 1, i =>
    let x := tallySlot s r i
    if x.2 = 0 ∨ x.1 = t then some (i, x.2) else tallyProbe s r t k ((i + 1) % 4096)

/-- COUNT of a token (R419). -/
def tallyCount (s : State) (r : Ref) (t : Nat) : Nat := ((tallyProbe s r t 4096 (tallyHome t)).getD (0, 0)).2

/-- Counts one occurrence of a token (R421). -/
def tallyAdd (p : Nat) (r : Ref) (t : Nat) (s : State) : State :=
  match tallyProbe s r t 4096 (tallyHome t) with
  | some (i, c) =>
    let s1 := refWrite r (1024 + 4 * i) (leBytes 4 (t % 2 ^ 18 * 2 ^ 14 + min 16383 (c + 1))) s
    if c = 0 then refWrite r 0 (leBytes 4 (refNum s r 0 4 + 1)) s1 else s1
  | none =>
    (refWrite r 4 (leBytes 4 (min 0xFFFFFFFF (refNum s r 4 4 + 1))) s).modTtRegs p (fun x => { x with tallyDrop := satBv x.tallyDrop 1 })

/-- Counts a list of tokens. -/
def tallyAddAll (p : Nat) (r : Ref) (ts : List Nat) (s : State) : State := ts.foldl (fun s t => tallyAdd p r t s) s

/-- Clears a whole tally object, then writes the two copies (R420, R423). -/
def tallyInit (r : Ref) (sampling shape : List Byte) (s : State) : State :=
  refWrite r 448 shape (refWrite r 320 sampling (refWrite r 0 (List.replicate tallyBytes 0) s))

/-- A TT_RESUME: the copies are renewed unless the sampling reference is none, and bit 2 of FLAGS clears the slots and the two
counts (R420, R423, R612). -/
def tallyResume (r : Ref) (copies : Option (List Byte × List Byte)) (s : State) : State :=
  let s1 := match copies with
    | some (a, b) => refWrite r 448 b (refWrite r 320 a s)
    | none => s
  if (refNum s1 r 346 1).testBit 2 then refWrite r 1024 (List.replicate 16384 0) (refWrite r 0 (List.replicate 8 0) s1) else s1

/-! ## The sampling block (R422) -/

structure Sampling where
  temp      : Nat
  topP      : Nat
  minP      : Nat
  rep       : Nat
  freq      : Nat
  pres      : Nat
  topK      : Nat
  flags     : Nat
  stops     : List Nat
  minTokens : Nat
  seed      : Nat

/-- The sampling block that 128 bytes spell. -/
def Sampling.of (b : List Byte) : Sampling :=
  { temp := leAt b 0 4, topP := leAt b 4 4, minP := leAt b 8 4, rep := leAt b 12 4, freq := leAt b 16 4, pres := leAt b 20 4,
    topK := leAt b 24 2, flags := leAt b 26 1, stops := (List.range (min 8 (leAt b 27 1))).map (fun k => leAt b (48 + 4 * k) 4),
    minTokens := leAt b 28 4, seed := leAt b 32 8 }

/-- Whether an FP32 code is finite. -/
def finF (c : Nat) : Bool := match f32 c with | .fin _ _ _ => true | _ => false

/-- a < b, for FP32 codes. -/
def ltF (a b : Nat) : Bool := (f32 a).lt (f32 b)

/-- Whether a sampling block keeps R422 for a vocabulary; what is reserved in it is ignored (R17). (DEDUCED, log entry 107.) -/
def samplingOk (b : List Byte) (vocab : Nat) : Bool :=
  let x := Sampling.of b
  let n := leAt b 27 1
  finF x.temp && !ltF x.temp 0 &&
  ltF 0 x.topP && !ltF 0x3F800000 x.topP && (f32 x.topP != .nan) &&
  (f32 x.minP != .nan) && !ltF x.minP 0 && ltF x.minP 0x3F800000 &&
  finF x.rep && ltF 0 x.rep && finF x.freq && finF x.pres &&
  decide (x.topK ≤ 1024) && decide (n ≤ 8) && x.stops.all (fun t => decide (t < vocab))

/-! ## The tree shape (R433, R434, R437) -/

/-- A node of a shape: parent, depth, rank. -/
structure TreeNode where
  parent : Nat
  depth  : Nat
  rank   : Nat
deriving DecidableEq, Repr

/-- Node n of the shape that 256 bytes spell. -/
def shapeNode (b : List Byte) (n : Nat) : TreeNode :=
  let v := leAt b (8 + 2 * n) 2
  { parent := fld v 0 6, depth := fld v 6 3, rank := fld v 9 4 }

/-- Whether a shape is valid for a request (R437); the table's COUNT is the caller's test. -/
def shapeOk (b : List Byte) (specHeads specNodes heads : Nat) : Bool :=
  let nodes := leAt b 0 1
  let depth := leAt b 1 1
  decide (1 ≤ nodes ∧ nodes ≤ 64) && nodes == specNodes && decide (depth ≤ specHeads) && decide (specHeads ≤ heads) &&
  decide (leAt b 2 6 = 0) && decide (leAt b 8 2 = 0) && decide (leAt b (8 + 2 * nodes) (256 - 8 - 2 * nodes) = 0) &&
  (List.range nodes).all (fun n => n == 0 ||
    (let x := shapeNode b n
     decide (leAt b (8 + 2 * n) 2 < 2 ^ 13) && decide (x.parent < n) && x.depth == (shapeNode b x.parent).depth + 1 && decide (x.depth ≤ depth) &&
     (List.range n).all (fun m => m == 0 || (shapeNode b m).parent != x.parent || (shapeNode b m).rank != x.rank)))

/-! ## The candidate tree (R438) -/

/-- A node as it is fed: its token, its mask, its depth, its parent, and whether it may be accepted. -/
structure Fed where
  token  : Nat
  mask   : Nat
  depth  : Nat
  parent : Nat
  ok     : Bool
deriving DecidableEq, Repr

/-- The nodes of a DECODE sequence in order (R438): `tally` gives the proposals and the shape. -/
def fedNodes (s : State) (tally : Ref) (length last specHeads : Nat) : List Fed :=
  let root : Fed := { token := last, mask := 1, depth := 0, parent := 64, ok := true }
  if specHeads = 0 then [root] else
    let shape := refRead s tally 448 256
    let valid := refNum s tally 8 1
    let pos := refNum s tally 12 4
    (List.range (leAt shape 0 1)).foldl (fun acc n =>
      if n = 0 then acc else
        let x := shapeNode shape n
        let up := acc.getD x.parent root
        let t := refNum s tally (64 + 64 * (x.depth - 1) + 4 * x.rank) 4
        let ok := up.ok && valid.testBit (x.depth - 1) && pos == length && t != 0xFFFFFFFF
        acc ++ [{ token := if ok then t else 0, mask := up.mask ||| 2 ^ n, depth := x.depth, parent := x.parent, ok }]) [root]

/-! ## Logit rows (R425) -/

/-- Where a step's logits lie and how: the reference, V, the format, H. -/
structure Logits where
  ref   : Ref
  vocab : Nat
  fmt   : Nat
  heads : Nat

/-- Bytes per logit, and bytes of a row. -/
def Logits.elem (l : Logits) : Nat := if l.fmt = 0xA then 4 else 2
def Logits.row (l : Logits) : Nat := ceilDiv ((1 + l.heads) * l.vocab * l.elem) 256 * 256

/-- Where head h of step row r starts. -/
def Logits.off (l : Logits) (r h : Nat) : Nat := r * l.row + h * l.vocab * l.elem

/-- The logits of head h of step row r as FP32 codes, none where they carry poison (R425, R427). -/
def Logits.read (l : Logits) (s : State) (r h : Nat) : Option (List Nat) :=
  if refPoisoned s l.ref (l.off r h) (l.vocab * l.elem) then none else
    some ((List.range l.vocab).map (fun t =>
      (decodeElem (if l.fmt = 0xA then 0xA else 7) false (refNum s l.ref (l.off r h + t * l.elem) l.elem)).toF32))

/-- Whether an FP32 code is NaN or +∞ (R427). -/
def badLogit (c : Nat) : Bool := match f32 c with | .nan => true | .inf neg => !neg | _ => false

/-! ## Choosing one token (R428 to R430) -/

/-- Why a choice fails (R427): poison or no candidate, or a NaN or +∞, which is counted. -/
inductive NoToken where
  | poison | nan | empty
deriving DecidableEq, Repr

/-- The FP32 codes of −∞ and 1. -/
def minusInf : Nat := 0xFF800000
def oneF : Nat := 0x3F800000
def divF (a b : Nat) : Nat := ((f32 a).div (f32 b)).toF32
def subF (a b : Nat) : Nat := (sumNums [f32 a, (f32 b).negate]).toF32

/-- The penalties of one token with c occurrences (R428). -/
def penalise (x : Sampling) (z c : Nat) : Nat :=
  if c = 0 then z else
    let z1 := if ltF 0 z then divF z x.rep else mulF z x.rep
    subF (subF z1 (mulF x.freq (Num.ofInt c).toF32)) x.pres

/-- Puts a candidate among those of greater or equal z, at most k kept: ties keep the lower token first (R428). -/
def rankIn (z : Nat → Nat) (t : Nat) : List Nat → List Nat
  | [] => [t]
  | u :: r => if ltF (z u) (z t) then t :: u :: r else u :: rankIn z t r

/-- The k largest tokens of a list in rank order. -/
def topRank (z : Nat → Nat) (k : Nat) (ts : List Nat) : List Nat := ts.foldl (fun acc t => (rankIn z t acc).take k) []

/-- The running sum of a list of FP32 codes. -/
def runSum (l : List Nat) : Nat := l.foldl addF 0

/-- The prefix of candidates up to the first whose running sum reaches the limit. -/
def cutAt (e : Nat → Nat) (limit : Nat) : Nat → List Nat → List Nat
  | _, [] => []
  | acc, t :: r => let a := addF acc (e t); if ltF a limit then t :: cutAt e limit a r else [t]

/-- The first candidate whose running sum exceeds the limit, else the last. -/
def pickAt (e : Nat → Nat) (limit : Nat) : Nat → List Nat → Option Nat
  | _, [] => none
  | acc, t :: r => let a := addF acc (e t); if ltF limit a then some t else match pickAt e limit a r with
    | some u => some u
    | none => some t

/-- draw(P): the top 24 bits of word 0 of Philox, as a fraction (R430). -/
def draw (seed p : Nat) : Nat := (Num.fin false (nth (philox seed (p % 2 ^ 32, 1, 0, 0)) 0 0 / 256) (-24)).toF32

/-- One token from a head-0 row for position P (R428): `count` is COUNT of the tally, `emitted` what the step has emitted. -/
def chooseToken (x : Sampling) (row : List Nat) (count : Nat → Nat) (emitted : List Nat) (genCount p : Nat) : Except NoToken Nat :=
  let z0 := row.zipIdx.map (fun r => penalise x r.1 (count r.2 + (emitted.filter (· == r.2)).length))
  if z0.any badLogit then .error .nan else
  let z1 := z0.zipIdx.map (fun r => if genCount + emitted.length < x.minTokens ∧ x.stops.any (· == r.2) then minusInf else r.1)
  let at1 (t : Nat) : Nat := z1.getD t minusInf
  let all := List.range row.length
  if !ltF 0 x.temp then
    match topRank at1 1 all with
    | t :: _ => if at1 t = minusInf then .error .empty else .ok t
    | [] => .error .empty
  else
    let z2 := z1.map (fun v => divF v x.temp)
    if z2.any badLogit then .error .nan else
    let z (t : Nat) : Nat := z2.getD t minusInf
    let live := all.filter (fun t => z t != minusInf)
    let plain := x.topK == 0 && x.topP == oneF && !ltF 0 x.minP
    let cand := if plain then live else topRank z (if x.topK > 0 then x.topK else 1024) live
    match topRank z 1 cand with
    | [] => .error .empty
    | best :: _ =>
      let e (t : Nat) : Nat := exp2F (mulF (subF (z t) (z best)) 0x3FB8AA3B)
      let c1 := cand.filter (fun t => !ltF (e t) x.minP)
      let c2 := if ltF x.topP oneF then cutAt e (mulF x.topP (runSum (c1.map e))) 0 c1 else c1
      match pickAt e (mulF (draw x.seed p) (runSum (c2.map e))) 0 c2 with
      | some t => .ok t
      | none => .error .empty

/-! ## One sequence (R426, R432, R435, R439) -/

/-- What selection gives a sequence: its tokens, the accepted path, whether the turn ends, the node whose row proposes. -/
structure Chosen where
  emitted : List Nat
  path    : List Nat
  ended   : Bool

/-- Head 0 of a row, or why it fails: every head the request uses counts for NaN and +∞ (R427). -/
def logitRow (l : Logits) (s : State) (r specHeads : Nat) : Except NoToken (List Nat) :=
  let hs := (List.range (specHeads + 1)).map (l.read s r)
  if hs.any Option.isNone then .error .poison
  else if (hs.filterMap id).any (fun h => h.any badLogit) then .error .nan
  else .ok ((hs.head?.bind id).getD [])

/-- The walk of R439 from a node; `fuel` bounds its length. Row `row0 + n` is node n's. -/
def walkTree (l : Logits) (s : State) (x : Sampling) (count : Nat → Nat) (nodes : List Fed) (row0 length genCount genMax specHeads : Nat)
    (walk : Bool) : Nat → Nat → List Nat → List Nat → Except NoToken Chosen
  | 0, _, emitted, path => .ok { emitted, path, ended := false }
  | k + 1, n, emitted, path =>
    match logitRow l s (row0 + n) specHeads with
    | .error e => .error e
    | .ok row =>
      match chooseToken x row count emitted genCount (length + (nodes.getD n { token := 0, mask := 1, depth := 0, parent := 64, ok := true }).depth + 1) with
      | .error e => .error e
      | .ok y =>
        let em := emitted ++ [y]
        let pa := path ++ [n]
        if x.stops.any (· == y) ∨ genCount + em.length ≥ genMax then .ok { emitted := em, path := pa, ended := true }
        else if !walk then .ok { emitted := em, path := pa, ended := false }
        else match (nodes.zipIdx.find? (fun c => c.1.parent == n && c.1.ok && c.1.token == y && c.2 != 0)) with
          | some c => walkTree l s x count nodes row0 length genCount genMax specHeads walk k c.2 em pa
          | none => .ok { emitted := em, path := pa, ended := false }

/-- Writes the proposals of the row that emitted the last token, at position Q, or clears PROP_VALID when the turn ended (R435). -/
def propose (l : Logits) (tally : Ref) (row q specHeads : Nat) (ended : Bool) (s : State) : State :=
  if ended then refWrite tally 8 [0] s else
    let one (h : Nat) (s : State) : State :=
      let v := (l.read s row h).getD []
      let top := topRank (fun t => v.getD t minusInf) 16 (List.range v.length)
      refWrite tally (64 + 64 * (h - 1)) ((List.range 16).flatMap (fun k => leBytes 4 (top.getD k 0xFFFFFFFF))) s
    let s1 := (List.range specHeads).foldl (fun s h => one (h + 1) s) s
    refWrite tally 12 (leBytes 4 (q + 1)) (refWrite tally 8 [BitVec.ofNat 8 (2 ^ specHeads - 1)] s1)

end Sys2Proof.Machine
end

