-- ==== Sys2Proof/Machine/Timetable.lean ====
section
/-! DEFINITION. The Timetable operations (R370 to R391, R407 to R410): the placement block and its checks, the Signal box (R377 to
R381), and what each operation does to its entry. TT_PROGRAM is in Steps. -/

namespace Sys2Proof.Machine

/-! ## Entries as bytes (R367) -/

/-- The bits of a placement block that the host supplies (R367). -/
def hostBits : Nat :=
  packFields [(2 ^ 1 - 1, 1, 45), (7, 3, 48), (2 ^ 64 - 1, 64, 64), (2 ^ 12 - 1, 12, 176), (2 ^ 32 - 1, 32, 224), (2 ^ 32 - 1, 32, 352),
    (2 ^ 64 - 1, 64, 512), (2 ^ 64 - 1, 64, 640), (2 ^ 64 - 1, 64, 704), (2 ^ 64 - 1, 64, 768), (7, 3, 832), (127, 7, 840),
    (2 ^ 16 - 1, 16, 848), (0x1FF, 9, 887), (0x3FF, 10, 864), (3, 2, 894), (127, 7, 896), (1, 1, 903), (2 ^ 64 - 1, 64, 960)]

/-- The code of a state (R368). -/
def TtState.code : TtState → Nat
  | .free => 0 | .admitted => 1 | .prefill => 2 | .handoffOut => 3 | .handoffIn => 4 | .decode => 5 | .parked => 6 | .stub => 7
  | .done => 8 | .lost => 9 | .cancelled => 10

/-- The 128 bytes of an entry as one number, with SNAP_SC (R367, R408). -/
def Entry.word (e : Entry) (snap : Nat) : Nat :=
  packFields [
    (e.version.toNat, 32, 0), (e.st.code, 4, 32), (e.ret.code, 4, 36), (b2n e.held, 1, 40), (b2n e.expired, 1, 41), (b2n e.starved, 1, 42),
    (b2n e.cancelPend, 1, 43), (b2n e.claiming, 1, 44), (b2n e.deadlineKind, 1, 45), (b2n e.met, 1, 46), (b2n e.accepting, 1, 47),
    (e.priority.toNat, 3, 48), (e.bucket.toNat, 3, 52), (e.tenant, 4, 56), (e.part, 2, 60), (e.reqId.toNat, 64, 64), (e.epoch.toNat, 32, 128),
    (e.node, 7, 160), (e.cause.toNat, 8, 168), (e.context, 12, 176), (e.fromIndex, 14, 192), (e.fromNode, 7, 208), (b2n e.fromValid, 1, 215),
    (e.fn, 8, 216), (e.promptLen, 32, 224), (e.prefilled, 32, 256), (e.length, 32, 288), (e.genCount, 32, 320), (e.genMax, 32, 352),
    (e.list.toNat, 64, 384), (e.pages, 32, 448), (e.resPages, 32, 480), (e.budget.toNat, 64, 512), (snap, 64, 576), (e.prompt.toNat, 64, 640),
    (e.tally.toNat, 64, 704), (e.sampling.toNat, 64, 768), (e.specHeads.toNat, 3, 832), (e.specNodes, 7, 840), (e.specTree.toNat, 16, 848),
    (e.race.toNat, 32, 864), (e.nextNode, 7, 896), (b2n e.nextValid, 1, 903), (e.waited, 16, 912), (e.lastToken.toNat, 32, 928),
    (e.tag.toNat, 64, 960)]

/-- The fields a placement block supplies (R367, R371). -/
def blockEntry (b : EntryBlock) : Entry :=
  let x := b.toNat
  { deadlineKind := fld x 45 1 == 1, priority := BitVec.ofNat 3 (fld x 48 3), reqId := BitVec.ofNat 64 (eat b 8 64), context := fld x 176 12,
    promptLen := eat b 28 32, genMax := eat b 44 32, budget := BitVec.ofNat 64 (eat b 64 64), prompt := BitVec.ofNat 64 (eat b 80 64),
    tally := BitVec.ofNat 64 (eat b 88 64), sampling := BitVec.ofNat 64 (eat b 96 64), specHeads := BitVec.ofNat 3 (fld x 832 3),
    specNodes := fld x 840 7, specTree := BitVec.ofNat 16 (eat b 106 16), race := BitVec.ofNat 32 (eat b 108 32), nextNode := fld x 896 7,
    nextValid := fld x 903 1 == 1, tag := BitVec.ofNat 64 (eat b 120 64) }

/-! ## The Signal box (R377 to R381) -/

/-- Candidates of a step (R396). -/
def Entry.runnable (e : Entry) : Bool :=
  (e.st == .admitted || (e.st == .prefill && !e.held) || e.st == .decode) && !e.claiming && !e.accepting

/-- The effective priority (R396). -/
def effPrio (ageSteps : Nat) (e : Entry) : Nat := min 7 (e.priority.toNat + (if ageSteps = 0 then 0 else e.waited / ageSteps))

/-- The entries of a partition that satisfy a test, in index order. -/
def entriesWhere (p : Nat) (f : Entry → Bool) (s : State) : List Nat :=
  (s.tt.entries.filter (fun kv => kv.2.st != .free && kv.2.part == p && f kv.2)).map Prod.fst

/-- What a request asks of the Signal box. -/
structure Ask where
  prompt    : Nat
  prefilled : Nat
  genCount  : Nat
  genMax    : Nat
  length    : Nat
  pages     : Nat
  budget    : W64
  priority  : Nat
  kind      : Bool
  items     : Option Nat := none

def Entry.ask (e : Entry) : Ask :=
  { prompt := e.promptLen, prefilled := e.prefilled, genCount := e.genCount, genMax := e.genMax, length := e.length, pages := e.pages,
    budget := e.budget, priority := e.priority.toNat, kind := e.deadlineKind }

/-- Whether a partition's TT_MODEL is set (R376, R415). -/
def modelSet (r : TtRegs) : Bool :=
  decide (1 ≤ r.layers ∧ r.layers ≤ 1008) && decide (1 ≤ r.kvHeads ∧ r.kvHeads ≤ 64) && geoOk r.geometry.toNat

/-- need_pages (R378), or places on a CACHE node (R594). -/
def needPages (gen : Bool) (r : TtRegs) (a : Ask) : Nat :=
  match a.items with
  | some n => n + ceilDiv (4 * n) 4096
  | none =>
    let rem := (a.prompt - a.prefilled) + (if gen then ceilDiv (r.genFraction.toNat * (a.genMax - a.genCount)) 256 else 0)
    let pagesEnd := ceilDiv (a.length + rem) (geoT r.geometry.toNat) * (r.layers * r.kvHeads)
    pagesEnd + ceilDiv pagesEnd 7680 - a.pages

/-- Whether the memory is there (R377 test 4, R378, R594). -/
def memoryFits (p : Nat) (r : TtRegs) (a : Ask) (need : Nat) (s : State) : Bool :=
  match a.items with
  | some _ => decide (need ≤ placesFree p s)
  | none => match s.region r.pool with
    | some g => g.kind == 1 && decide (need + (s.pool g.id).reserved + poolTotal g * r.headroom.toNat / 256 ≤ poolFree g s)
    | none => false

/-- STEP_TOKENS in force (R415). -/
def stepTokens (r : TtRegs) : Nat := if r.stepTokens = 0 then 65535 else r.stepTokens.toNat

/-- need_sc (R379). -/
def needSc (p : Nat) (gen : Bool) (r : TtRegs) (a : Ask) (s : State) : Nat :=
  let est := if r.steps = 0 then r.stepEst.toNat else r.stepAvg
  let n := (entriesWhere p (fun e => e.runnable && decide (effPrio r.ageSteps.toNat e ≥ a.priority)) s).length
  let c := if r.chunk = 0 then stepTokens r else r.chunk.toNat
  let d := if gen && a.kind then ceilDiv (16 * (a.genMax - a.genCount)) (if r.tokAvg16 = 0 then 16 else r.tokAvg16) else 0
  (n / 4096 + ceilDiv (a.prompt - a.prefilled) c + d) * est + r.reserveSc.toNat

/-- The tests of R377 in order: the first that fails, or need_pages. -/
def admitEntry (p : Nat) (resume : Bool) (a : Ask) (s : State) : Except (Status × Nat) Nat :=
  let r := s.ttregs p
  let gen := isGen s
  let need := needPages gen r a
  if !resume && (freeEntry p 0xFF s).isNone then .error (.admitMemory, 1)
  else if a.budget = 0 then .error (.admitTime, 4)
  else if a.budget ≠ BitVec.allOnes 64 ∧ needSc p gen r a s > a.budget.toNat then .error (.admitTime, 3)
  else if !memoryFits p r a need s then .error (.admitMemory, 2)
  else .ok need

/-- Counts a refusal (R415). -/
def countRefused (p : Nat) (st : Status) (s : State) : State :=
  s.modTtRegs p (fun r => if st = .admitTime then { r with refusedTime := satBv r.refusedTime 1 } else { r with refusedMem := satBv r.refusedMem 1 })

/-! ## Checks -/

/-- Whether a node is in the routing table and is not this node (R376 cause 0x09). -/
def routable (n : Nat) (s : State) : Bool := n != s.me && (List.range 4).any (fun k => (s.route n k).valid)

/-- Whether a reference breaks cause 0x07: bytes outside its region, unaligned, or in a region of another kind (R376, R424). -/
def badKind (s : State) (r : Ref) (n : Nat) (kinds : List Nat) : Bool :=
  refBad s r n || (match r with | .hbm id _ => (match s.region id with | some g => !kinds.any (· == g.kind) | none => true) | _ => true)

/-- The tree shape a request names in its partition's table (R433). -/
def shapeBytes (p : Nat) (e : Entry) (s : State) : List Byte := refRead s (refOf (s.ttregs p).treeBase.toNat) (256 * e.specTree.toNat) 256

/-- Whether the shape breaks R437. -/
def badShape (p : Nat) (e : Entry) (s : State) : Bool :=
  if e.specHeads = 0 then false else
    let r := s.ttregs p
    let t := refOf r.treeBase.toNat
    decide (e.specTree.toNat ≥ r.treeCount.toNat) || badKind s t (256 * (e.specTree.toNat + 1)) [2] ||
      !shapeOk (shapeBytes p e s) e.specHeads.toNat e.specNodes r.selHeads.toNat

/-- Causes 0x06, 0x07 and 0x0A of a placement or a resumption (R376, R424); `keep` leaves the copies as they are (R612). -/
def inputChecks (p : Nat) (e : Entry) (keep : Bool) (s : State) : List (Bool × (Status × Nat)) :=
  let r := s.ttregs p
  [(!modelSet r || (s.progOf p).isNone || r.vocab == 0, (.malformed, 0x06)),
   (badKind s (refOf e.prompt.toNat) (4 * e.promptLen) [2, 6] || badKind s e.tallyRef tallyBytes [2] ||
     (!keep && badKind s (refOf e.sampling.toNat) 128 [2]), (.malformed, 0x07))]

/-- Cause 0x0A (R424). -/
def sampleChecks (p : Nat) (e : Entry) (keep : Bool) (s : State) : List (Bool × (Status × Nat)) :=
  [(!keep && (!samplingOk (refRead s (refOf e.sampling.toNat) 0 128) (s.ttregs p).vocab.toNat || badShape p e s), (.malformed, 0x0A))]

/-- The copies a request takes (R423). -/
def copiesOf (p : Nat) (e : Entry) (s : State) : List Byte × List Byte :=
  (refRead s (refOf e.sampling.toNat) 0 128, if e.specHeads = 0 then List.replicate 256 0 else shapeBytes p e s)

/-! ## TT_PLACE -/

/-- The checks of a placement (R168, R371, R373, R376, R424). (DEDUCED, log entry 52.) -/
def placeChecks (w : Work) (b : EntryBlock) (s : State) : Option (Status × Nat) :=
  let e := blockEntry b
  let p := w.part
  let g := s.race e.raceGroup
  let here := e.raceValid && e.raceHome == s.me
  let st := dat w.body 16 8
  firstFail ([
    (s.img.draining, (.cancelled, 1)),
    (refForeign s p (refOf e.prompt.toNat) || refForeign s p e.tallyRef || refForeign s p (refOf e.sampling.toNat) ||
      (here && g.isOpen && g.tenant != w.tenant), (.tenantMismatch, 0)),
    (isCache s, (.malformed, 0x01)),
    (b.toNat &&& hostBits != b.toNat || e.context != w.context || e.promptLen == 0 || e.genMax == 0 || decide (e.specHeads.toNat > 4) ||
      e.specNodes == 0 || decide (e.specNodes > 64) || (e.specHeads == 0 && e.specNodes != 1), (.malformed, 0x05))] ++
    inputChecks p e false s ++ [
    (dat w.body 8 64 % 64 != 0, (.malformed, 0x07)),
    (here && (!g.isOpen || decide (g.joined.length ≥ g.members)), (.malformed, 0x08)),
    (e.nextValid && !routable e.nextNode s, (.malformed, 0x09))] ++
    sampleChecks p e false s ++ [
    (!(st == 0 || st == 1 || st == 0xFF), (.malformed, Config.random s.free % 256))])

/-- Admits a new request into the lowest FREE entry, or refuses it (R371 to R382, R420, R423). -/
def execTtPlace (wid : Nat) (b : EntryBlock) (s : State) : Host.Outcome State Fault Refusal :=
  start wid 0x10 s (fun w s =>
    let e := blockEntry b
    let p := w.part
    let r := s.ttregs p
    match placeChecks w b s with
    | some (st, c) => complete w st c s.fresh
    | none =>
      match admitEntry p false e.ask s with
      | .error (st, c) => complete w st c (countRefused p st s)
      | .ok need =>
        let made := (s.region r.pool).bind (fun g => createList g r.layers r.kvHeads r.geometry.toNat w.tenant need (reservePages g.id need s))
        match freeEntry p (dat w.body 16 8) s, made with
        | some i, some (ref, s1) =>
          let c := copiesOf p e s
          let s2 := putEntry i (fun old => { e with
            version := old.version, st := .admitted, epoch := 1, node := s.me, fn := w.fn, tenant := w.tenant, part := p,
            list := BitVec.ofNat 64 ref, pages := 1, resPages := need - 1 }) (tallyInit e.tallyRef c.1 c.2 s1)
          let s3 := complete w .ok (i + (s2.entry i).version.toNat * 2 ^ 32) s2
          if e.raceValid then raceSend e.raceHome (raceMsg 0x20 i none e.reqId 1 e.raceGroup s) s3 else s3
        | _, _ => complete w .admitMemory 2 (countRefused p .admitMemory s))

/-! ## Operations on an entry -/

/-- Whether the physical function frees a detached STUB (R391). -/
def freesDetached (w : Work) (i : Nat) (s : State) : Bool := w.opcode == 0x16 && w.fn == 0 && detached i s

/-- The states an operation accepts (R382, R385). -/
def accepts (op : Byte) (e : Entry) : Bool :=
  match op.toNat with
  | 0x11 => e.st.cancels || e.st == .handoffOut || e.st == .handoffIn || e.st == .stub
  | 0x13 => (e.st == .prefill && e.held) || e.st == .decode || e.st == .done || e.st == .parked
  | 0x14 => e.st == .decode || e.st == .done
  | 0x15 => e.st == .parked
  | 0x16 => e.st == .done || e.st == .parked || e.st == .stub || e.st == .lost || e.st == .cancelled
  | _ => false

/-- The header checks, in the order of R374; the state of an entry with ACCEPTING 1 is tested later (R603). -/
def headerCheck (w : Work) (s : State) : Option (Status × Nat) :=
  let i := dat w.body 8 16
  let e := s.entry i
  firstFail [
    (decide (i ≥ 16384) || (entryPart i s).isNone, (.malformed, 0x02)),
    (!freesDetached w i s && (e.st == .free || e.tenant != w.tenant), (.tenantMismatch, 0)),
    (e.reqId.toNat != dat w.body 16 64, (.malformed, 0x03)),
    (e.st == .stub && !(w.opcode == 0x11 || w.opcode == 0x16), (.ownershipLost, e.node + e.epoch.toNat * 2 ^ 32)),
    (!e.accepting && !accepts w.opcode e, (.malformed, 0x04))]

/-- The checks of a resumption beyond its header (R376, R424, R612). -/
def resumeEntry (w : Work) (e : Entry) : Entry :=
  { e with prompt := BitVec.ofNat 64 (dat w.body 24 64), promptLen := dat w.body 32 32, genMax := dat w.body 36 32,
           budget := BitVec.ofNat 64 (dat w.body 40 64), prefilled := 0, genCount := 0, met := false, expired := false }

def resumeChecks (w : Work) (e : Entry) (s : State) : Option (Status × Nat) :=
  let x := resumeEntry w e
  let keep := refOf e.sampling.toNat == .none
  firstFail ([
    (refForeign s e.part (refOf x.prompt.toNat), (.tenantMismatch, 0)),
    (x.promptLen == 0 || x.genMax == 0, (.malformed, 0x05))] ++ inputChecks e.part x keep s ++ sampleChecks e.part x keep s)

/-- TT_RESUME takes effect: the Signal box decides, and the entry is ADMITTED for a new turn (R377, R382, R420, R423, R612). -/
def applyResume (w : Work) (i : Nat) (s : State) : State :=
  let e := s.entry i
  match resumeChecks w e s with
  | some (st, c) => complete w st c s
  | none =>
    let x := resumeEntry w e
    match admitEntry e.part true x.ask s with
    | .error (st, c) => complete w st c (countRefused e.part st s)
    | .ok need =>
      let keep := refOf e.sampling.toNat == .none
      let s1 := tallyResume e.tallyRef (if keep then none else some (copiesOf e.part x s)) (reservePages (s.ttregs e.part).pool need s)
      complete w .ok 0 (putEntry i (fun _ => { x with st := .admitted, resPages := e.resPages + need }) s1)

/-- TT_PARK takes effect (R382). -/
def applyPark (w : Work) (i : Nat) (s : State) : State :=
  complete w .ok 0 (putEntry i (fun e => { e with st := .parked }) (returnReserve i s))

/-- TT_FREE takes effect (R382, R385, R768). -/
def applyFree (w : Work) (i : Nat) (s : State) : State :=
  let e := s.entry i
  complete w .ok 0 (toFree i (if e.st = .done ∨ e.st = .parked then returnReserve i (freeEntryList i s) else s))

/-- An operation takes effect on its entry, or waits: for ACCEPTING to clear (R603), for the boundary of a step that includes the
entry (R382, R387), for a handoff to resolve (R382). -/
def applyOp (w : Work) (s : State) : State :=
  let i := dat w.body 8 16
  let e := s.entry i
  if e.accepting ∨ (inStep i s = true ∧ (w.opcode = 0x11 ∨ w.opcode = 0x13 ∨ w.opcode = 0x14)) then s.setProg w.wid (.boundary i)
  else if !accepts w.opcode e then malformed w 0x04 s
  else match w.opcode.toNat with
    | 0x11 =>
      match e.st with
      | .handoffOut => putEntry i (fun e => { e with cancelPend := true, snd := e.snd.map (fun x => { x with cancels := x.cancels ++ [w.wid] }) }) (s.setProg w.wid (.boundary i))
      | .handoffIn => putEntry i (fun e => { e with cancelPend := true }) (s.setProg w.wid (.boundary i))
      | _ => applyCancel i w.wid s
    | 0x13 => startHandoff i (dat w.body 10 7) (some w.wid) s
    | 0x14 => applyPark w i s
    | 0x15 => applyResume w i s
    | 0x16 => applyFree w i s
    | _ => s

/-- Whether an earlier operation on the same entry has not taken effect (R375). -/
def opAhead (w : Work) (s : State) : Bool :=
  s.work.any (fun x => decide (x.wid < w.wid) && (x.opcode == 0x11 || (decide (0x13 ≤ x.opcode.toNat) && decide (x.opcode.toNat ≤ 0x16))) &&
    dat x.body 8 16 == dat w.body 8 16 && (match x.prog with | .waiting => true | .boundary _ => true | _ => false))

/-- An operation on an entry starts, in fetch order: its checks, then its effect (R374 to R376). -/
def entryOp (wid : Nat) (op : Byte) (more : Work → State → List (Bool × (Status × Nat))) (s : State) : Host.Outcome State Fault Refusal :=
  start wid op s (fun w s => if opAhead w s then s else
    match headerCheck w s with
    | some (.tenantMismatch, r) => complete w .tenantMismatch r s
    | some (st, r) => if op = 0x15 ∧ isCache s then malformed w 0x01 s else complete w st r s
    | none => match firstFail (more w s) with
      | some (st, r) => complete w st r s
      | none => applyOp w s)

def execTtCancel (wid : Nat) (s : State) : Host.Outcome State Fault Refusal := entryOp wid 0x11 (fun _ _ => []) s
def execTtMove (wid : Nat) (s : State) : Host.Outcome State Fault Refusal :=
  entryOp wid 0x13 (fun w s => [
    (!routable (dat w.body 10 7) s, (.malformed, 0x09)),
    ((handoffConn (s.entry (dat w.body 8 16)).tenant (dat w.body 10 7) s).isNone, (.malformed, 0x0B))]) s
def execTtPark (wid : Nat) (s : State) : Host.Outcome State Fault Refusal := entryOp wid 0x14 (fun _ _ => []) s
def execTtResume (wid : Nat) (s : State) : Host.Outcome State Fault Refusal :=
  entryOp wid 0x15 (fun _ s => [(isCache s, (.malformed, 0x01))]) s
def execTtFree (wid : Nat) (s : State) : Host.Outcome State Fault Refusal := entryOp wid 0x16 (fun _ _ => []) s

/-- What waited for an entry goes on: operations in fetch order, then the cancels of other nodes, then a race's word (R375, R387,
R413, R603). -/
def entryBoundary (idx : Nat) (s : State) : State :=
  let ws := s.work.filter (fun w => w.prog == .boundary idx)
  let s1 := if ws.any (fun w => w.opcode == 0x11) || !(s.entry idx).askers.isEmpty then s.modEntry idx (fun e => { e with cancelPend := false }) else s
  raceBoundary idx (applyAskers idx (ws.foldl (fun s w => applyOp w s) s1))

/-! ## TT_SNAPSHOT (R407 to R409) -/

/-- An entry as a function reads it: another tenant's reads as zeros; so does one above TT_ENTRIES (R146, R391, R409). -/
def entryView (f i : Nat) (s : State) : Entry :=
  let e := s.entry i
  if (entryPart i s).isNone then {} else
  match fnTenant f s with
  | some t => if e.tenant = t ∨ e.st = .free then e else {}
  | none => if f = 0 then e else {}

/-- Copies the included entries of a range, in order, until there is no room (R407): the copies, and whether one was left out. -/
def snapCopies (f mask : Nat) (s : State) : List Nat → Nat → List (List Byte) → List (List Byte) × Bool
  | [], _, acc => (acc, false)
  | i :: rest, room, acc =>
    let e := entryView f i s
    if mask ≠ 0 ∧ !mask.testBit e.st.code then snapCopies f mask s rest room acc
    else match room with
      | 0 => (acc, true)
      | k + 1 => snapCopies f mask s rest k (acc ++ [leBytes 128 (if e = {} then 0 else e.word s.clk.sc)])

/-- Whether an index lies in a partition that is mapped to a tenant (R409). -/
def entryMapped (t i : Nat) (s : State) : Bool := match entryPart i s with | some p => mapped p t s | none => false

/-- Copies entries to host memory (R407 to R409). -/
def execTtSnapshot (wid : Nat) (s : State) : Host.Outcome State Fault Refusal :=
  start wid 0x12 s (fun w s =>
    let d := w.body
    let first := dat d 8 16
    let n := dat d 10 16
    let dest := dat d 16 64
    let idx := (List.range n).map (first + ·)
    if w.fn ≠ 0 ∧ idx.any (fun i => match fnTenant w.fn s with | some t => decide (i < 16384) && !entryMapped t i s | none => true) then
      complete w .tenantMismatch 0 s
    else if n = 0 ∨ n > 16384 then malformedFree w s
    else if first + n > 16384 then malformed w 0x02 s
    else if dest % 128 ≠ 0 then malformed w 0x07 s
    else
      let c := snapCopies w.fn (dat d 12 16) s idx (dat d 24 32 / 128) []
      let s1 := if c.1.isEmpty then s else s.emit (.hostWrite w.fn dest c.1.flatten)
      complete w (if c.2 then .okShort else .ok) c.1.length s1)

/-! ## Race groups (R410) -/

/-- Opens a race group homed on this node; which free group it is the device chooses (R410). -/
def execTtRaceOpen (wid : Nat) (s : State) : Host.Outcome State Fault Refusal :=
  start wid 0x18 s (fun w s =>
    let n := dat w.body 8 8
    let used := (s.tt.races.filter (fun kv => kv.2.isOpen)).map Prod.fst
    if used.length ≥ 1024 then malformed w 0x08 s
    else if n < 2 ∨ n > 4 then malformedFree w s
    else
      let g := nthFree used (Config.choice s.free % max 1 (1024 - used.length))
      complete w .ok g (s.fresh.modRace g (fun _ => { isOpen := true, members := n, tenant := w.tenant })))

/-- Closes a race group (R410). -/
def execTtRaceClose (wid : Nat) (s : State) : Host.Outcome State Fault Refusal :=
  start wid 0x19 s (fun w s =>
    let g := dat w.body 8 16
    let r := s.race g
    if r.isOpen ∧ r.tenant ≠ w.tenant then complete w .tenantMismatch 0 s
    else if !r.isOpen then malformed w 0x08 s
    else complete w .ok 0 (s.modRace g (fun _ => {})))

/-! ## Deadlines (R404) -/

/-- The states in which BUDGET counts (R403). -/
def Entry.counting (e : Entry) : Bool :=
  (e.st == .admitted || e.st == .prefill || e.st == .decode || e.st == .handoffOut || e.st == .handoffIn || e.accepting) &&
  !e.met && e.budget != BitVec.allOnes 64

/-- BUDGET has reached 0: EXPIRED is set and the event raised, once (R404). -/
def execBudgetExpire (entry : Nat) (s : State) : Host.Outcome State Fault Refusal :=
  actIf s ((s.entry entry).counting && (s.entry entry).budget == 0 && !(s.entry entry).expired)
    (fun s => ttEvent 0x0105 entry (putEntry entry (fun e => { e with expired := true }) s))

end Sys2Proof.Machine
end

