-- ==== Sys2Proof/Machine/Steps.lean ====
section
/-! DEFINITION. Timetable steps (R392 to R401, R419 to R441): TT_PROGRAM, the work list, the sequence records and input rows, the
program's entries, selection, and what a step's end does to its requests. -/

namespace Sys2Proof.Machine

/-! ## TT_PROGRAM (R392) -/

/-- Entry i of a program: its descriptor and its SUBST byte. -/
def programEntry (s : State) (r : Ref) (i : Nat) : Descriptor × Byte :=
  (BitVec.ofNat 512 (refNum s r (128 * i) 64), BitVec.ofNat 8 (refNum s r (128 * i + 64) 1))

/-- The program a descriptor installs. -/
def programOf (w : Work) (s : State) : StepProg :=
  let d := w.body
  { entries := (List.range (dat d 16 16)).map (programEntry s (refAt d 8)), embedRow := dat d 20 32, embed := BitVec.ofNat 64 (dat d 24 64),
    stepRef := BitVec.ofNat 64 (dat d 32 64), x := BitVec.ofNat 64 (dat d 40 64), logits := BitVec.ofNat 64 (dat d 48 64),
    context := w.context, tenant := w.tenant, fn := w.fn }

/-- The checks of TT_PROGRAM (R376, R392): its records and tokens need 512 KiB of STEP; what lies beyond the spec's areas is
checked when a step needs it. -/
def programChecks (w : Work) (s : State) : Option (Status × Nat) :=
  let d := w.body
  let n := dat d 16 16
  let p := programOf w s
  let open_ := Config.random s.free % 256
  firstFail [
    ([8, 24, 32, 40, 48].any (fun o => refForeign s w.part (refAt d o)), (.tenantMismatch, 0)),
    (badKind s (refAt d 8) (128 * n) [2] || badKind s (refAt d 24) (max 1 p.embedRow) [0] || badKind s (refAt d 32) 0x80000 [2] ||
      badKind s (refAt d 40) 1 [2] || badKind s (refAt d 48) 1 [2], (.malformed, 0x07)),
    (n == 0 || decide (n > 1024) || p.entries.any (fun e => let op := dat e.1 0 8; decide (op < 0x20) || decide (op > 0x3F)), (.malformed, open_))]

/-- The program is installed (R392). -/
def installProgram (w : Work) (p : Nat) (s : State) : State :=
  complete w .ok 0 { s with tt := { s.tt with progs := tput s.tt.progs p (some (programOf w s)) none } }

/-- Installs a step program at the step boundary (R392). -/
def execTtProgram (wid : Nat) (s : State) : Host.Outcome State Fault Refusal :=
  start wid 0x17 s (fun w s =>
    match programChecks w s with
    | some (st, r) => complete w st r s.fresh
    | none => if (s.stepOf w.part).isSome then s.setProg wid (.program w.part) else installProgram w w.part s)

/-! ## The work list (R394, R396 to R398) -/

/-- Inserts by an order, after those equal. -/
def insertBy {α : Type} (lt : α → α → Bool) (x : α) : List α → List α
  | [] => [x]
  | y :: r => if lt x y then x :: y :: r else y :: insertBy lt x r

/-- The order of candidates (R396): effective priority, BUDGET, WAITED, index. -/
def candBefore (age : Nat) (s : State) (i j : Nat) : Bool :=
  let a := s.entry i
  let b := s.entry j
  let pa := effPrio age a
  let pb := effPrio age b
  if pa ≠ pb then decide (pa > pb)
  else if a.budget ≠ b.budget then decide (a.budget.toNat < b.budget.toNat)
  else if a.waited ≠ b.waited then decide (a.waited > b.waited)
  else decide (i < j)

/-- The candidates of a step in order (R396). -/
def candidates (p : Nat) (s : State) : List Nat :=
  (entriesWhere p Entry.runnable s).foldl (fun l i => insertBy (candBefore (s.ttregs p).ageSteps.toNat s) i l) []

/-- Rows a sequence contributes with `left` rows left in the step (R394). -/
def rowsOf (r : TtRegs) (e : Entry) (left : Nat) : Nat :=
  if e.st = .decode then e.specNodes else
    let n := min (e.promptLen - e.prefilled) left
    if r.chunk = 0 then n else min n r.chunk.toNat

/-- Positions a sequence's rows may append: its prefill rows, or a path of its tree (R398, R440). (DEDUCED, log entry 55.) -/
def growthOf (e : Entry) (rows : Nat) (s : State) : Nat :=
  if e.st ≠ .decode then rows else if e.specHeads = 0 then 1 else min rows (refNum s e.tallyRef 449 1 + 1)

/-- The blocks that positions a to b − 1 need entered, layer by layer (R293, R398). -/
def blocksFor (s : State) (h : ListHdr) (a b : Nat) : List (Nat × Nat) :=
  (List.range h.layers).flatMap (fun l => (newBlocks s h l (a / geoT h.geometry) ((b - 1) / geoT h.geometry)).map (fun k => (l, k)))

/-- Enters blocks of layers with the pages taken for them. -/
def enterAll (ref : Nat) : List (Nat × Nat) → List Nat → State → State
  | [], _, s => s
  | (l, b) :: rest, ps, s =>
    match listAt s ref with
    | none => s
    | some h => let n := blockNeed h b; enterAll ref rest (ps.drop n) (enterBlock h b l (ps.take n) s)

/-- Draws a sequence's new pages before the program runs: from its reservation first, then from the free pages beyond all
reservations; none where they are not there (R398). -/
def drawPages (i rows : Nat) (s : State) : Option State :=
  let e := s.entry i
  match listAt s e.list.toNat with
  | none => some s
  | some h =>
    let b := e.length + growthOf e rows s
    let new := blocksFor s h e.length b
    if new.isEmpty then some s else
      let need := new.length * h.kvHeads + chunksFor h (max h.pages (((b - 1) / geoT h.geometry + 1) * h.g))
      match takePages ((s.region h.pool).getD h.region) need e.resPages s with
      | none => none
      | some (ps, s1) =>
        some (enterAll e.list.toNat new ps (s1.modEntry i (fun e => { e with resPages := e.resPages - min need e.resPages })))

/-- A work list being built. -/
structure Build where
  list    : List (Nat × Nat) := []
  rows    : Nat := 0
  skipped : List Nat := []
  state   : State

/-- A candidate is skipped, skipped for pages, or listed (R396). (DEDUCED, log entry 56.) -/
def Build.add (p : Nat) (b : Build) (i : Nat) : Build :=
  let r := b.state.ttregs p
  let e := b.state.entry i
  let n := rowsOf r e (stepTokens r - b.rows)
  if b.list.length = 4096 ∨ n = 0 ∨ b.rows + n > stepTokens r then { b with skipped := b.skipped ++ [i] }
  else match drawPages i n b.state with
    | none =>
      let s1 := b.state.modTtRegs p (fun r => { r with starved := satBv r.starved 1 })
      { b with skipped := b.skipped ++ [i],
               state := if e.starved then s1 else ttEvent 0x0107 i (putEntry i (fun e => { e with starved := true }) s1) }
    | some s1 => { b with list := b.list ++ [(i, n)], rows := b.rows + n, state := s1 }

/-! ## Records and rows (R297, R393) -/

/-- Areas of STEP: the records, the tokens; and, where the spec names no place, the ancestor masks, the row maps, the pending
rows. -/
def tokOff : Nat := 0x40000
def maskOff : Nat := 0x80000
def mapOff : Nat := 0x280000
def pendOff : Nat := 0x380000

/-- The reference word of a byte of STEP. -/
def StepProg.area (g : StepProg) (o : Nat) : Nat := g.stepRef.toNat + o

/-- The bytes of a sequence record up to STATUS (R297). -/
def seqBytes (list length qRow qCount pending aux anc : Nat) : List Byte :=
  leBytes 8 list ++ leBytes 4 length ++ leBytes 4 qRow ++ leBytes 4 qCount ++ leBytes 4 0 ++ leBytes 2 pending ++ leBytes 2 0 ++
  leBytes 4 0 ++ leBytes 8 aux ++ leBytes 8 anc ++ leBytes 16 0

/-- Bytes of the pending rows of a sequence, rounded up to 256. -/
def pendBytes (q : StepSeq) (s : State) : Nat :=
  if !q.decode then 0 else match listAt s (s.entry q.entry).list.toNat with
    | some h => ceilDiv (2 * q.rows * h.kvHeads * (geoDim h.geometry).getD 0 * (geoElem h.geometry).getD 1) 256 * 256
    | none => 0

/-- Where each sequence's pending rows start. -/
def pendStarts (s : State) : Nat → List StepSeq → List Nat
  | _, [] => []
  | o, q :: r => o :: pendStarts s (o + pendBytes q s) r

/-- Writes the records ATTEND reads: prefill rows are committed by their scatter, decode rows are pending (R297, R300, R301, R394). -/
def writeAttend (g : StepProg) (qs : List StepSeq) (s : State) : State :=
  let t := refOf g.stepRef.toNat
  let ps := pendStarts s pendOff qs
  qs.zipIdx.foldl (fun s q =>
    let e := s.entry q.1.entry
    refWrite t (64 * q.2)
      (if q.1.decode then seqBytes e.list.toNat e.length q.1.qRow q.1.rows q.1.rows (g.area (ps.getD q.2 pendOff)) (g.area (maskOff + 512 * q.2))
       else seqBytes e.list.toNat (e.length + q.1.rows) q.1.qRow q.1.rows 0 noRef noRef) s) s

/-- Writes the records a scatter reads: prefill rows in order, or the accepted path of decode rows through a row map (R291, R440). -/
def writeScatter (g : StepProg) (qs : List StepSeq) (s : State) : State :=
  let t := refOf g.stepRef.toNat
  qs.zipIdx.foldl (fun s q =>
    let e := s.entry q.1.entry
    if q.1.decode then
      refWrite t (64 * q.2) (seqBytes e.list.toNat e.length q.1.qRow q.1.path.length 0 (g.area (mapOff + 256 * q.2)) 0)
        (refWrite t (mapOff + 256 * q.2) (q.1.path.flatMap (fun n => leBytes 4 (q.1.qRow + n))) s)
    else refWrite t (64 * q.2) (seqBytes e.list.toNat e.length q.1.qRow q.1.rows 0 noRef 0) s) s

/-- Converts the source rows of decode sequences into their pending rows, as a scatter of the descriptor would write them (R291,
R301). -/
def writePending (g : StepProg) (d : Descriptor) (qs : List StepSeq) (s : State) : State :=
  let t := refOf g.stepRef.toNat
  let f := dat d 10 4
  ((pendStarts s pendOff qs).zip qs).foldl (fun s oq =>
    let q := oq.2
    match listAt s (s.entry q.entry).list.toNat, q.decode with
    | some h, true =>
      let dim := (geoDim h.geometry).getD 0
      let src := dim * (fmtBits f / 8)
      let dst := dim * (geoElem h.geometry).getD 1
      (List.range 2).foldl (fun s half => (List.range (q.rows * h.kvHeads)).foldl (fun s k =>
        let from_ := refAt d (if half = 0 then 24 else 32)
        let o := (q.qRow * h.kvHeads + k) * src
        let at_ := oq.1 + (half * q.rows * h.kvHeads + k) * dst
        let s1 := refWrite t at_ (scaleRow s from_ f (h.geometry / 16) o dim (dat d (if half = 0 then 40 else 44) 32)) s
        if refPoisoned s from_ o src then refPoison t at_ dst s1 else s1) s) s
    | _, _ => s) s

/-- One input row: its token at STEP + 256 KiB and the gathered embedding in X; poison where the token carries it or names no
row of EMBED (R253, R393). -/
def putInput (g : StepProg) (row tok : Nat) (bad : Bool) (s : State) : State :=
  let x := refOf g.x.toNat
  let em := refOf g.embed.toNat
  let n := g.embedRow
  let s1 := refWrite (refOf g.stepRef.toNat) (tokOff + 4 * row) (leBytes 4 tok) s
  if n = 0 then s1
  else if bad || refBad s em ((tok + 1) * n) || refPoisoned s em (tok * n) n then refPoison x (row * n) n s1
  else refWrite x (row * n) (refRead s em (tok * n) n) s1

/-- The tokens a sequence is fed, each with whether it carries poison (R394, R438). -/
def fedTokens (q : StepSeq) (s : State) : List (Nat × Bool) :=
  let e := s.entry q.entry
  if q.decode then (fedNodes s e.tallyRef e.length e.lastToken.toNat e.specHeads.toNat).map (fun n => (n.token, false))
  else (List.range q.rows).map (fun k =>
    let o := 4 * (e.prefilled + k)
    (refNum s (refOf e.prompt.toNat) o 4, refPoisoned s (refOf e.prompt.toNat) o 4))

/-- The input rows of every sequence, and the ancestor masks of decode sequences (R393, R438). -/
def writeInputs (g : StepProg) (qs : List StepSeq) (s : State) : State :=
  qs.zipIdx.foldl (fun s q =>
    let e := s.entry q.1.entry
    let s1 := (fedTokens q.1 s).zipIdx.foldl (fun s t => putInput g (q.1.qRow + t.2) t.1.1 t.1.2 s) s
    if !q.1.decode then s1 else
      let masks := (fedNodes s e.tallyRef e.length e.lastToken.toNat e.specHeads.toNat).flatMap (fun n => leBytes 8 n.mask)
      refWrite (refOf g.stepRef.toNat) (maskOff + 512 * q.2) masks s1) s

/-! ## Running the program (R392, R393, R399) -/

/-- Whether an entry is a scatter, or an attention, whose sequences the device fills in (R392). -/
def substScatter (e : Descriptor × Byte) : Bool := e.2.getLsbD 0 && dat e.1 0 8 == 0x31
def substAttend (e : Descriptor × Byte) : Bool := e.2.getLsbD 0 && dat e.1 0 8 == 0x32

/-- The sequences that a substituted entry runs over: a scatter has the prefill sequences before selection, and after it the
decode sequences that did not fail (R440). -/
def entrySeqs (e : Descriptor × Byte) (x : Step) : List StepSeq :=
  if substScatter e then (if x.selected then x.seqs.filter (fun q => q.decode && q.status.success) else x.seqs.filter (fun q => !q.decode))
  else if substAttend e then x.seqs else []

/-- The descriptor of an entry as the device fills it in (R392). -/
def substEntry (g : StepProg) (e : Descriptor × Byte) (n rows : Nat) : Descriptor :=
  let d0 := setFld e.1.toNat 16 12 g.context
  let d1 := if substScatter e then setFld (setFld d0 96 32 n) 128 64 g.stepRef.toNat
    else if substAttend e then setFld (setFld (setFld d0 128 32 n) 192 64 g.stepRef.toNat) 104 8 0xFF else d0
  BitVec.ofNat 512 (if e.2.getLsbD 1 && (dat e.1 0 8 == 0x20 || dat e.1 0 8 == 0x21) then setFld d1 96 32 rows else d1)

/-- Changes the step in flight of a partition. -/
def modStep (p : Nat) (f : Step → Step) (s : State) : State := { s with tt := { s.tt with steps := tmod s.tt.steps p none (fun o => o.map f) } }

/-- An entry of the program starts, its records written (R393). -/
def launchEntry (p k : Nat) (g : StepProg) (e : Descriptor × Byte) (x : Step) (s : State) : State :=
  let qs := entrySeqs e x
  let s1 := if substScatter e then writeScatter g qs s else if substAttend e then writeAttend g qs s else s
  let d := substEntry g e qs.length x.rows
  let w : Work :=
    { wid := s.nextWid, src := .step p k, fn := g.fn, tag := BitVec.ofNat 32 (dat d 4 32), opcode := BitVec.ofNat 8 (dat d 0 8),
      context := g.context, fence := false, irq := false, silent := false, body := d, fetchSc := s.clk.sc, tenant := g.tenant, part := p,
      notUnsealed := writesSealed d s }
  modStep p (fun x => { x with entry := k, ended := none }) { s1 with work := s1.work ++ [w], nextWid := s.nextWid + 1 }

/-- Runs entries in order until one starts: whether one did. A substituted scatter also gives the decode sequences their pending
rows, and is passed over where it has no sequence. -/
def runEntries (p : Nat) (g : StepProg) (x : Step) : List ((Descriptor × Byte) × Nat) → State → Bool × State
  | [], s => (false, s)
  | e :: rest, s =>
    let s1 := if substScatter e.1 && !x.selected then writePending g e.1.1 x.seqs s else s
    if (x.selected && !substScatter e.1) || (substScatter e.1 && (entrySeqs e.1 x).isEmpty) then runEntries p g x rest s1
    else (true, launchEntry p e.2 g e.1 x s1)

/-! ## Selection (R425 to R441) -/

/-- The logits of a partition's steps (R425). -/
def logitsOf (p : Nat) (g : StepProg) (s : State) : Logits :=
  let r := s.ttregs p
  { ref := refOf g.logits.toNat, vocab := r.vocab.toNat, fmt := r.logitFmt.toNat, heads := r.selHeads.toNat }

/-- What selection makes of a sequence; one with no row to read is left as it is (R426). `differ` says that the two selection
units gave different results (R431). -/
def selectSeq (p : Nat) (g : StepProg) (differ : Bool) (q : StepSeq) (s : State) : StepSeq × State :=
  let e := s.entry q.entry
  if !q.status.success || !(q.decode || decide (e.prefilled + q.rows ≥ e.promptLen)) then (q, s) else
    let l := logitsOf p g s
    let t := e.tallyRef
    let x := Sampling.of (refRead s t 320 128)
    let nodes := if q.decode then fedNodes s t e.length e.lastToken.toNat e.specHeads.toNat else []
    let row0 := if q.decode then q.qRow else q.qRow + q.rows - 1
    let len := if q.decode then e.length else e.length + q.rows - 1
    let station := q.entry / 8192
    match walkTree l s x (tallyCount s t) nodes row0 len e.genCount e.genMax e.specHeads.toNat q.decode 6 0 [] [] with
    | .error .nan => ({ q with status := .poisonConsumed }, s.modTtRegs p (fun r => { r with selNan := satBv r.selNan 1 }))
    | .error _ => ({ q with status := .poisonConsumed }, s)
    | .ok c =>
      let h := injectHit 0x0C station s
      if differ || h.1 then
        let s1 := h.2.modTtRegs p (fun r => { r with selMismatch := satBv r.selMismatch 1 })
        ({ q with status := .checkFail },
          raiseErr' { cls := 2, source := 0x07, domain := 20 + station, cause := Status.checkFail.code, detail0 := q.entry, detail1 := station,
                      ctx := some e.context, tenant := e.tenant, part := p, who := e.fn, waits := [.step p], injected := h.1 } s1)
      else
        let last := (c.path.getLast?).getD 0
        let depth := (nodes.getD last { token := 0, mask := 1, depth := 0, parent := 64, ok := true }).depth
        ({ q with emitted := c.emitted.map (BitVec.ofNat 32), path := c.path, ended := c.ended },
          propose l t (row0 + last) (len + depth) e.specHeads.toNat c.ended h.2)

/-- Selection over every sequence in record order. -/
def selectAll (p : Nat) (g : StepProg) (differ : List Nat) : List StepSeq → State → List StepSeq × State
  | [], s => ([], s)
  | q :: rest, s =>
    let r := selectSeq p g (differ.any (· == q.entry)) q s
    let more := selectAll p g differ rest r.2
    (r.1 :: more.1, more.2)

/-- The step goes on from entry k: the next entry starts, or selection runs and the scatters of accepted paths follow (R393, R440). -/
def advanceStep (p k : Nat) (differ : List Nat) (s : State) : State :=
  match s.stepOf p, s.progOf p with
  | some x, some g =>
    let es := g.entries.zipIdx
    let r := runEntries p g x (es.drop k) s
    if r.1 then r.2
    else if x.selected then modStep p (fun x => { x with entry := es.length, ended := none }) r.2
    else
      let q := selectAll p g differ x.seqs r.2
      let x' : Step := { x with seqs := q.1, selected := true, entry := es.length, ended := none }
      (runEntries p g x' es (modStep p (fun _ => x') q.2)).2
  | _, _ => s

/-- The step fails for every request, and its program is removed (R399). -/
def failStep (p : Nat) (st : Status) (s : State) : State :=
  modStep p (fun x => { x with failAll := some st, ended := none }) { s with tt := { s.tt with progs := tput s.tt.progs p none none } }

/-! ## STEP_START -/

/-- Whether the areas a step needs lie in their regions: X, LOGITS, and what of STEP the decode sequences use. -/
def areasFit (p : Nat) (g : StepProg) (qs : List StepSeq) (rows : Nat) (s : State) : Bool :=
  !refBad s (refOf g.x.toNat) (max 1 (rows * g.embedRow)) && !refBad s (refOf g.logits.toNat) (max 1 (rows * (logitsOf p g s).row)) &&
  (!qs.any (fun q => q.decode) || !refBad s (refOf g.stepRef.toNat) (pendOff + (qs.map (fun q => pendBytes q s)).sum))

/-- Gives sequences their rows in order (R397). -/
def placeRows : Nat → List StepSeq → List StepSeq
  | _, [] => []
  | r, q :: rest => { q with qRow := r } :: placeRows (r + q.rows) rest

/-- The sequences of a work list in record order: bucket 7 to 0, and selection order within a bucket (R397). -/
def recordOrder (p : Nat) (list : List (Nat × Nat)) (s : State) : List StepSeq :=
  let qs : List StepSeq := list.zipIdx.map (fun x =>
    let e := s.entry x.1.1
    let decode := e.st == .decode
    { entry := x.1.1, pos := x.2, rows := x.1.2, qRow := 0, decode, bucket := bucketOf p (e.length + x.1.2) s,
      input := if decode then [e.lastToken] else (List.range x.1.2).map (fun k =>
        BitVec.ofNat 32 (refNum s (refOf e.prompt.toNat) (4 * (e.prefilled + k)) 4)) })
  placeRows 0 ((List.range 8).flatMap (fun k => qs.filter (fun q => q.bucket == 7 - k)))

/-- The listed entries as the work list leaves them (R380, R382, R396, R397). -/
def listEntries (qs : List StepSeq) (s : State) : State :=
  qs.foldl (fun s q =>
    let e := s.entry q.entry
    let pages := match listAt s e.list.toNat with | some h => (listPages s h).length | none => e.pages
    putEntry q.entry (fun e => { e with
      st := if e.st = .admitted then .prefill else e.st, bucket := BitVec.ofNat 3 q.bucket, starved := false, waited := 0, pages }) s) s

/-- Whether a partition may start a step. -/
def mayStep (p : Nat) (s : State) : Bool :=
  s.ready && (s.progOf p).isSome && (s.stepOf p).isNone && !switching p s && !isCache s && s.img.image.isSome &&
  s.awake && s.power.trans.isNone && s.img.st != .unconfigured

/-- A partition's step starts (R393 to R398): its work list, records and rows, and the first entry of its program. Where no
request is listed, no step runs; a program whose context is no longer mapped fails as a whole (R399, R715). (DEDUCED, log entry 54.) -/
def execStepStart (p : Nat) (s : State) : Host.Outcome State Fault Refusal :=
  actIf s (mayStep p s) (fun s =>
    let b := (candidates p s).foldl (Build.add p) { state := s }
    let s1 := b.state
    match s.progOf p with
    | none => s
    | some g =>
      if b.list.isEmpty then s1 else
        let qs := recordOrder p b.list s1
        let s2 := b.skipped.foldl (fun s i => putEntry i (fun e => { e with waited := min 65535 (e.waited + 1) }) s) (listEntries qs s1)
        let em : List Nat := inputRegions s2 [refOf g.embed.toNat]
        let x : Step := { seqs := qs, rows := b.rows, startSc := s.clk.sc, regions := em }
        let spec := (qs.map (fun q => if q.decode then q.rows - 1 else 0)).sum
        let s3 := ({ s2 with tt := { s2.tt with steps := tput s2.tt.steps p (some x) none } }).modTtRegs p (fun r => { r with specRows := r.specRows + spec })
        if ctxMismatch 0 g.context s3 then failStep p .tenantMismatch s3
        else if !areasFit p g qs b.rows s3 then failStep p .malformed s3
        else advanceStep p 0 [] (writeInputs g qs (writeAttend g qs s3)))

/-! ## STEP_ENTRY_COMPLETE -/

/-- The statuses with which a sequence fails its request (R399). -/
def failsRequest (st : Status) : Bool :=
  match st with
  | .checkFail | .poisonConsumed | .lengthMismatch | .codeInvalid | .crcFail | .keyInvalid | .internal => true
  | _ => false

/-- Takes the STATUS of each record of a substituted entry into its sequence (R399). -/
def readStatuses (e : Descriptor × Byte) (g : StepProg) (x : Step) (s : State) : List StepSeq :=
  let qs := entrySeqs e x
  x.seqs.map (fun q => match (qs.zipIdx.find? (fun y => y.1.entry == q.entry)) with
    | none => q
    | some y =>
      let st := statusOf (refNum s (refOf g.stepRef.toNat) (64 * y.2 + 48) 1)
      if q.status.success && (failsRequest st || st == .okRecomputed) then { q with status := st } else q)

/-- An entry has completed: its statuses are read, and the step goes on (R393, R399). -/
def execStepEntryComplete (p : Nat) (selDiffer : List Nat) (s : State) : Host.Outcome State Fault Refusal :=
  actIf s s.awake (fun s => match s.stepOf p, s.progOf p with
    | some x, some g =>
      match x.ended, g.entries[x.entry]? with
      | some (st, _), some e =>
        if st = .malformed ∨ st = .tenantMismatch ∨ st = .internal then failStep p st s
        else
          let s1 := modStep p (fun x => { x with seqs := readStatuses e g x s, worst := worseOp x.worst st }) s
          advanceStep p (x.entry + 1) selDiffer s1
      | _, _ => s
    | _, _ => s)

/-! ## STEP_END -/

/-- Whether a step has run to its end: nothing of it is in flight (R393). -/
def stepDone (p : Nat) (x : Step) (s : State) : Bool :=
  s.work.all (fun w => match w.src with | .step q _ => q != p | _ => true) && x.ended.isNone &&
  (x.failAll.isSome || (x.selected && (match s.progOf p with | some g => decide (x.entry ≥ g.entries.length) | none => true)))

/-- The status a request had in the step. -/
def seqStatus (x : Step) (q : StepSeq) : Status := x.failAll.getD q.status

/-- A leaf of the step's record (R266, R440). -/
def leafOf (x : Step) (q : StepSeq) (s : State) : Nat × List Byte :=
  let e := s.entry q.entry
  let st := seqStatus x q
  let out := if st.success then q.emitted else []
  (e.tenant, leBytes 8 e.reqId.toNat ++ leBytes 4 e.epoch.toNat ++ leBytes 4 e.length ++ leBytes 4 q.input.length ++
    q.input.flatMap (fun t => leBytes 4 t.toNat) ++ leBytes 4 out.length ++ out.flatMap (fun t => leBytes 4 t.toNat) ++ [st.code])

/-- The sequences in work-list order. -/
def Step.listOrder (x : Step) : List StepSeq := x.seqs.foldl (fun l q => insertBy (fun a b => decide (a.pos < b.pos)) q l) []

/-- The step's waybill record: its STATUS is the first, in the order of R254, among those of its entries and its sequences (R252, R264 to
R266). -/
def stepInfo (x : Step) (s : State) : StepInfo :=
  let qs := x.listOrder
  let ts := qs.map (fun q => (s.entry q.entry).tenant)
  { kind := 1, context := 0, tenant := (match ts with | t :: r => if r.all (· == t) then t else 0xFF | [] => 0xFF),
    status := x.failAll.getD (qs.foldl (fun st q => worseOp st (seqStatus x q)) x.worst),
    tiles := x.tiles, recomputed := x.recomputed, xchecked := x.xchecked, failed := x.failed, unchecked := x.unchecked, xk := x.xk,
    regions := (List.range 256).filter (fun r => x.regions.any (· == r)), leaves := qs.map (fun q => leafOf x q s) }

/-- Whether a request reaches its race's milestone in the step (R411). -/
def atMilestone (e : Entry) (q : StepSeq) : Bool :=
  e.raceValid && !q.emitted.isEmpty && (if e.raceAt then q.ended else e.genCount == 0)

/-- The functions whose token rings the step writes, once for each record. -/
def tokenFns (x : Step) (s : State) : List Nat :=
  x.seqs.filterMap (fun q => let e := s.entry q.entry
    if (seqStatus x q).success && !q.emitted.isEmpty && !atMilestone e q then some e.fn else none)

/-- Whether every ring concerned has room, or takes no record (R401). -/
def tokensFit (x : Step) (s : State) : Bool :=
  let fs := tokenFns x s
  fs.all (fun f => !tokTakes f s || (s.tok f).room ((fs.filter (· == f)).length))

/-- A request that did not fail advances (R382, R383, R400, R405, R411, R421). (DESIGN CHOICE, log entry 134.) -/
def advanceEntry (p seq : Nat) (q : StepSeq) (s : State) : State :=
  let e := s.entry q.entry
  let t := e.tallyRef
  let h := listAt s e.list.toNat
  let length := match h with | some h => h.commit | none => e.length
  let pages := match h with | some h => (listPages s h).length | none => e.pages
  let count := (if !q.decode && (refNum s t 346 1).testBit 0 then q.input.map BitVec.toNat else []) ++ q.emitted.map BitVec.toNat
  let s1 := tallyAddAll p t count s
  let prefilled := if q.decode then e.prefilled else e.prefilled + q.rows
  if q.emitted.isEmpty then putEntry q.entry (fun e => { e with length, pages, prefilled }) s1
  else
    let first := e.genCount == 0
    let hold := atMilestone e q
    let gen := isGen s
    let st : TtState := if q.ended then .done else if q.decode || gen then .decode else .prefill
    let held := !q.ended && !q.decode && !gen
    let s2 := if q.ended then returnReserve q.entry s1 else s1
    let r : TokRec :=
      { entry := q.entry, first, last := q.ended, position := BitVec.ofNat 32 (if q.decode then e.length + 1 else e.length + q.rows),
        tokens := q.emitted, step := BitVec.ofNat 32 seq }
    let ev : Option Nat := if q.ended then some 0x0101 else if held && !e.nextValid then some 0x0100 else none
    let s3 := putEntry q.entry (fun e => { e with
      st, held := e.held || held, length, pages, prefilled, genCount := e.genCount + q.emitted.length,
      lastToken := (q.emitted.getLast?).getD e.lastToken,
      met := e.met || (e.deadlineKind && q.ended) || (!e.deadlineKind && first && !hold),
      claiming := e.claiming || hold, withheld := if hold then some (r, ev) else e.withheld }) s2
    let s4 := s3.modTtRegs p (fun r => { r with specAccept := r.specAccept + (q.path.length - 1) })
    if hold then
      raceSend e.raceHome (raceMsg 0x21 q.entry none e.reqId e.epoch e.raceGroup s) (if q.ended then sendRelease q.entry s4 else s4)
    else
      let s5 := giveTok e.fn r s4
      let s6 := match ev with | some c => ttEvent c q.entry s5 | none => s5
      if q.ended then sendRelease q.entry s6
      else if held && e.nextValid then startHandoff q.entry e.nextNode none s6 else s6

/-- A request of the step: it fails, or advances (R399). -/
def endSeq (p seq : Nat) (x : Step) (q : StepSeq) (s : State) : State :=
  let st := seqStatus x q
  if q.gone then s else if st.success then advanceEntry p seq q s else toLost q.entry st.code s

/-- The averages over the last 16 steps (R415): sc, tokens and decode sequences of each. -/
def countStep (sc tokens seqs : Nat) (r : TtRegs) : TtRegs :=
  let l := (r.lastSteps ++ [(sc, tokens, seqs)]).drop (r.lastSteps.length + 1 - 16)
  let t := (l.map (fun x => x.2.1)).sum
  let n := (l.map (fun x => x.2.2)).sum
  { r with lastSteps := l, steps := r.steps + 1, stepAvg := min 0xFFFFFFFF ((l.map Prod.fst).sum / max 1 l.length),
           tokAvg16 := min 0xFFFFFFFF (if n = 0 then 0 else 16 * t / n) }

/-- The fields of a partition's registers that software writes, from another copy (R415, R443). -/
def TtRegs.take (cur new : TtRegs) : TtRegs :=
  { cur with
    layers := new.layers, kvHeads := new.kvHeads, geometry := new.geometry, pool := new.pool, stepTokens := new.stepTokens,
    chunk := new.chunk, ageSteps := new.ageSteps, buckets := new.buckets, genFraction := new.genFraction, headroom := new.headroom,
    reserveSc := new.reserveSc, stepEst := new.stepEst, selHeads := new.selHeads, logitFmt := new.logitFmt, vocab := new.vocab,
    treeBase := new.treeBase, treeCount := new.treeCount }

/-- The step boundary: register writes, programs, and the operations that waited take effect (R382, R387, R392, R415). -/
def stepBoundary (p : Nat) (entries : List Nat) (s : State) : State :=
  let s1 := match tget s.tt.pend p none with
    | some r => ({ s with tt := { s.tt with pend := terase s.tt.pend p } }).modTtRegs p (fun c => c.take r)
    | none => s
  let s2 := (s1.work.filter (fun w => w.prog == .program p)).foldl (fun s w => installProgram w p s) s1
  closeFor (.step p) (entries.foldl (fun s i => entryBoundary i s) s2)

/-- The step ends: its record is appended, its requests advance, the boundary follows. It waits for room in its token rings and
in the waybill store (R262, R271, R393, R401). -/
def execStepEnd (p : Nat) (s : State) : Host.Outcome State Fault Refusal :=
  actIf s s.awake (fun s => match s.stepOf p with
    | none => s
    | some x =>
      if !stepDone p x s || !wbRoom p s || !tokensFit x s then s else
        let s1 := appendRec p (stepInfo x s) s
        let seq := (s1.chain p).seq
        let s2 := { s1 with tt := { s1.tt with steps := tput s1.tt.steps p none none } }
        let s3 := x.listOrder.foldl (fun s q => endSeq p seq x q s) s2
        let ds := x.seqs.filter (fun q => q.decode && (seqStatus x q).success)
        let s4 := s3.modTtRegs p (countStep (s.clk.sc - x.startSc) (ds.map (fun q => q.emitted.length)).sum ds.length)
        stepBoundary p (x.listOrder.map (fun q => q.entry)) s4)

end Sys2Proof.Machine
end

