-- ==== Sys2Proof/Machine/Handoff.lean ====
section
/-! DEFINITION. Moving a request between nodes (chapter 14): the sender's items, messages and outcomes (R586 to R592, R604), the
receiver's admission, checks and ACCEPT (R593 to R603, R605), and the chain messages of STUBs (R382, R388, R613). -/

namespace Sys2Proof.Machine

/-! ## Items of a parcel (R586, R587) -/

/-- A Sleeper fault of a handoff's block: its record names the entry's context (R351, R675). -/
def itemFault (idx source : Nat) (st : Status) (domain detail0 detail1 : Nat) (injected : Bool) (s : State) : State :=
  let e := s.entry idx
  raiseErr' { cls := 2, source, domain, cause := st.code, detail0, detail1, ctx := some e.context, tenant := e.tenant, part := e.part,
              who := e.fn, injected } s

/-- The partition of an entry has no CODEC Stand (R358). -/
def itemDutyEmpty (idx : Nat) (s : State) : State :=
  let e := s.entry idx
  raiseErr' { cls := 2, source := 0x08, domain := 0xFF, cause := 0xFF, detail0 := e.part, ctx := some e.context, tenant := e.tenant,
              part := e.part, who := e.fn } s

/-- A DDR5 block of a page, expanded for its item; one the region no longer serves, or that fails R349, gives none (R451, R590). -/
def expandItem (idx region place : Nat) (s : State) : Option (List Byte) × State :=
  let e := s.entry idx
  if !mayRead region place e.tenant s then (none, { s with ddr := { s.ddr with refused := s.ddr.refused + 1 } }) else
    let ch := placeChannel s (tierPlace (s.ddrRegion region) place)
    let st0 := channelStation ch
    let s0 := s.modDdr region (fun r => { r with lastUse := s.clk.sc })
    let line := injectTwice 0x06 ch s0
    let mac := injectTwice 0x07 ch line.2
    let loc := placeLoc region place
    match injectedCheck line.1 mac.1 (placeCheck s region place {}) with
    | .error f =>
      let st := f.1
      let s1 : State := { mac.2 with ddr := countDdrFail f mac.2.ddr }
      (none, itemFault idx 0x04 st (20 + st0) (placeDetail false loc) ch (line.1 || mac.1) (countFailed e.part st false loc s1))
    | .ok b =>
      let inj := injectHit 0x08 st0 mac.2
      match checkBlock (s.keyInForce e.tenant false) (sleeperKey s e.tenant false) inj.1 b with
      | .ok plain => (some plain, countExpanded e.tenant e.part b inj.2)
      | .error st =>
        let s1 := countFailed e.part st false loc inj.2
        (none, if st = .poisonConsumed then s1 else itemFault idx 0x05 st (20 + st0) (placeDetail false loc) st0 inj.1 s1)

/-- Bytes of a region for an item: none when they are poisoned. -/
def plainOf (s : State) (r : Region) (o n : Nat) : Option (List Byte) := if regionPoisoned s r o n then none else some (regionRead s r o n)

/-- The plaintext of item k of an entry that holds a list; none for poison (R586, R587). -/
def itemPlain (idx k : Nat) (s : State) : Option (List Byte) × State :=
  let e := s.entry idx
  let tally (o n : Nat) : Option (List Byte) := if refPoisoned s e.tallyRef o n then none else some (refRead s e.tallyRef o n)
  match listAt s e.list.toNat with
  | none => (none, s)
  | some h =>
    let recs := refRecords s h
    let refs := ceilDiv recs.length 256
    if k = 0 then (some (leBytes 128 (e.word s.clk.sc)), s)
    else if k = 1 then (plainOf s h.region h.off 4096, s)
    else if k < 6 then (tally (4096 * (k - 2)) 4096, s)
    else if k = 6 then (tally 16384 1024, s)
    else if k < 7 + refs then
      let bs := ((recs.drop (256 * (k - 7))).take 256).flatten
      (some (bs ++ List.replicate (4096 - bs.length) 0), s)
    else
      let j := k - 7 - refs
      let p := pageEnt s h (nth (dataPages s h) (j / 16) 0)
      if p.tier = 0 then
        match s.region (locRegion p.loc) with
        | some r => (plainOf s r (65536 * locPage p.loc + 4096 * (j % 16)) 4096, s)
        | none => (none, s)
      else expandItem idx (locRegion p.loc) (16 * locPage p.loc + j % 16) s

/-- The codec of an item: key-value pages by their element, any other object LZB (R338, R472). -/
def itemCodec (idx k : Nat) (s : State) : Nat :=
  match listAt s (s.entry idx).list.toNat with
  | some h => if k ≥ 7 + ceilDiv (refRecords s h).length 256 ∧ geoElem h.geometry = some 2 then 3 else 2
  | none => 2

/-- Where the record of a container's place lies (R340). -/
def placeRec (r : Region) (p : Nat) : Nat := 4096 * (r.size / 4096 - r.size / 4096 / 256) + 16 * p

/-- Item k of a parcel as a CACHE node holds it (R341, R596); none for poison. -/
def storedItem (idx k : Nat) (s : State) : Option Block :=
  let e := s.entry idx
  match placeAt (stateRegions e.part s) (nth e.parcel k 0) with
  | none => none
  | some (r, p) =>
    let rec_ := BitVec.ofNat 128 (regionNum s r (placeRec r p) 16)
    if regionPoisoned s r (placeRec r p) 16 || regionPoisoned s r (4096 * p) (recStored rec_) then none
    else some { record := rec_, stored := regionRead s r (4096 * p) (recStored rec_) }

/-- The plaintext of the item to be coded; none when the item goes as it is stored. -/
def toCode (k : Nat) (s : State) : Bool := !isCache s || k == 0

/-- What a CACHE node's item 0 spells; other nodes take it from `itemPlain`. -/
def codeSource (idx k : Nat) (s : State) : Option (List Byte) × State :=
  if isCache s then (some (leBytes 128 ((s.entry idx).word s.clk.sc)), s) else itemPlain idx k s

/-! ## The sender -/

/-- Sends a message on the handoff connection of a sender. -/
def senderSend (idx : Nat) (ctype status : Byte) (body : CtlBody) (s : State) : State :=
  connSend (senderOf (s.entry idx)).conn (senderMsg idx ctype status 0 body s) s

/-- A source block is poisoned: ABORT is sent and the state is lost (R590, R607). (DEDUCED, log entry 70.) -/
def sourceLost (idx : Nat) (s : State) : State := resolveLost idx (senderSend idx 0x07 0x14 .none s)

/-- BUDGET of COMMIT (R406, R609). -/
def commitBudget (e : Entry) (rtt : Nat) : W64 :=
  if e.budget = BitVec.allOnes 64 then e.budget else BitVec.ofNat 64 (e.budget.toNat - rtt / 2)

/-- DIGEST (R589). -/
def parcelDigest (records : List (BitVec 128)) : Digest :=
  sha384 ((records.map (fun r => leBytes 16 r.toNat)).flatten ++ leBytes 4 records.length)

/-- An item leaves; after the last one COMMIT follows (R589, R590, R604, R609). -/
def sendItem (idx : Nat) (b : Block) (s : State) : State :=
  let x := senderOf (s.entry idx)
  let s1 := senderSend idx 0x04 0 (.data x.sent [b]) s
  let x' := { x with sent := x.sent + 1, credits := x.credits - 1, records := x.records ++ [b.record] }
  let s2 : State := { s1 with ho := { s1.ho with itemsTx := s1.ho.itemsTx + 1 } }
  if x'.sent < x.items then s2.modEntry idx (fun e => { e with snd := some x' })
  else
    let s3 := s2.modEntry idx (fun e => { e with snd := some { x' with phase := .committed } })
    senderSend idx 0x06 0 (.commit x.items (commitBudget (s3.entry idx) x.rtt) (parcelDigest x'.records)) s3

/-- The sender holds a credit and sends its next item (R587, R604). `stream` is what the encoder gave for one it codes (R345). -/
def execHandoffItemSend (entry : Nat) (stream : List Byte) (s : State) : Host.Outcome State Fault Refusal :=
  let e := s.entry entry
  let x := senderOf e
  actIf s (s.awake && e.st == .handoffOut && x.phase == .sending && decide (x.credits > 0) && decide (x.sent < x.items)) (fun s =>
    if toCode x.sent s then
      if !hasCodec e.part s then
        resolveKept entry 0xFF .internal 0 (senderSend entry 0x07 0xFF .none (itemDutyEmpty entry s))
      else
        let src := codeSource entry x.sent s
        match src.1 with
        | none => sourceLost entry src.2
        | some plain =>
          let codec := itemCodec entry x.sent s
          if needsStream codec plain && !streamFits codec plain stream then s else
            let b := codeBlock codec (s.keysOf e.tenant).remote.toNat (Config.random s.free) (sleeperKey s e.tenant true) plain stream
            sendItem entry b (countCoded e.tenant e.part codec b src.2.fresh)
    else match storedItem entry x.sent s with
      | none => sourceLost entry s
      | some b => sendItem entry b s)

/-- Whether a message names this sender's handoff: its entry, request and epoch, and its connection or peer (R583, R389). -/
def forSender (m : Ctl) (p : Entry → Bool) (s : State) : Bool :=
  let e := s.entry m.sEntry
  e.st == .handoffOut && e.snd.isSome && e.reqId == m.reqId && e.epoch == m.epoch && m.origin == s.me && p e

/-- A message on a handoff connection takes effect: it leaves the connection, and `f` acts where `ok` holds; else it is dropped
(R581, R583). In N2 the Timetable is frozen and the message waits (R61). -/
def onConn (conn : Nat) (ctype : Byte) (m : Ctl) (s : State) (ok : State → Bool) (f : State → State) : Host.Outcome State Fault Refusal :=
  actIf s (s.awake && m.ctype == ctype && decide (conn ≠ 0) && (s.conn conn).handoff && mayTake conn (s.conn conn).peerNode m s) (fun s =>
    let s1 := popMsg conn (s.conn conn).peerNode m s
    if ok s then f s1 else s1)

/-- As `onConn`, on the management connection. -/
def onMgmt (src : Nat) (ctype : Byte) (m : Ctl) (s : State) (f : State → State) : Host.Outcome State Fault Refusal :=
  actIf s (s.awake && m.ctype == ctype && mayTake 0 src m s) (fun s => f (popMsg 0 src m s))

/-- Changes a sender's side. -/
def modSender (idx : Nat) (f : Sender → Sender) (s : State) : State := s.modEntry idx (fun e => { e with snd := e.snd.map f })

/-- GRANT: items may go, and the round trip is measured (R590, R609). -/
def execGrant (conn : Nat) (m : Ctl) (s : State) : Host.Outcome State Fault Refusal :=
  onConn conn 0x02 m s (forSender m (fun e => (senderOf e).conn == conn && (senderOf e).phase == .offered))
    (fun s => match m.body with
      | .grant credits holdSc => modSender m.sEntry (fun x =>
          { x with phase := .sending, credits, rEntry := m.rEntry, rtt := s.clk.sc - x.offerSc - holdSc }) s
      | _ => s)

/-- REFUSE: the sender keeps ownership (R590, R592). -/
def execRefuse (conn : Nat) (m : Ctl) (s : State) : Host.Outcome State Fault Refusal :=
  onConn conn 0x03 m s (forSender m (fun e => (senderOf e).conn == conn && (senderOf e).phase != .probing))
    (resolveKept m.sEntry m.status (statusOf m.status.toNat) m.reason.toNat)

/-- CREDIT (R604, R605). -/
def execCredit (conn : Nat) (m : Ctl) (s : State) : Host.Outcome State Fault Refusal :=
  onConn conn 0x05 m s (forSender m (fun e => (senderOf e).conn == conn))
    (fun s => match m.body with
      | .credit n => modSender m.sEntry (fun x => { x with credits := x.credits + n }) s
      | _ => s)

/-- NEW_EPOCH of a message, or the epoch it would give. -/
def newEpochOf (m : Ctl) : W32 := match m.body with | .newEpoch n => n | .probeReply _ n => n | _ => m.epoch + 1

/-- ACCEPT: the request has moved (R575, R590); a sender that has resolved ignores a repeated one. -/
def execAccept (src : Nat) (m : Ctl) (s : State) : Host.Outcome State Fault Refusal :=
  onMgmt src 0x08 m s (fun s =>
    if forSender m (fun e => e.node == src && ((senderOf e).phase == .committed || (senderOf e).phase == .probing)) s then
      resolveMoved m.sEntry (newEpochOf m) s else s)

/-- PROBE_REPLY (R590): OWNED moves the request; NOT_HELD leaves it, with REMOTE_TIMEOUT. -/
def execProbeReply (src : Nat) (m : Ctl) (s : State) : Host.Outcome State Fault Refusal :=
  onMgmt src 0x0A m s (fun s =>
    if forSender m (fun e => e.node == src && (senderOf e).phase == .probing) s then
      match m.body with
      | .probeReply true n => resolveMoved m.sEntry n s
      | _ => resolveKept m.sEntry 0x33 .remoteTimeout 0 s
    else s)

/-- SB_HO_WAIT expires: PROBE is sent (R590); in SENDING the timer runs only without a credit. -/
def execHandoffTimerExpire (entry : Nat) (s : State) : Host.Outcome State Fault Refusal :=
  let e := s.entry entry
  let x := senderOf e
  actIf s (e.st == .handoffOut && e.snd.isSome && (x.phase != .sending || x.credits == 0)) (sendProbe entry)

/-! ## The receiver: admission -/

/-- A message from a receiver to its sender, on the handoff connection. -/
def receiverMsg (m : Ctl) (rEntry : Option Nat) (ctype status reason : Byte) (body : CtlBody) : Ctl :=
  { ctype, sEntry := m.sEntry, rEntry, status, reason, reqId := m.reqId, epoch := m.epoch, origin := m.origin, body }

/-- Bytes between tally objects (R615). -/
def tallyStride : Nat := 17408

/-- The tally objects of a partition. -/
def State.tallyPool (s : State) (p : Nat) : TallyPool := tget s.ho.tally p {}

/-- Free key slots (R325, R593). -/
def freeSlots (s : State) : Nat := 4096 - (s.mem.keySlots.filter (fun kv => kv.2.bound)).length

/-- What an OFFER asks of the Signal box (R593, R594). -/
def offerAsk (o : Offer) (cache : Bool) : Ask :=
  { prompt := o.promptLen, prefilled := o.prefilled, genCount := o.genCount, genMax := o.genMax, length := o.length, pages := 0,
    budget := o.budget, priority := o.priority, kind := o.deadlineKind, items := if cache then some o.items else none }

/-- Tests 1 to 10 of R593: the first that fails with its reason, or the pages or places needed; and whether the Signal box
refused. -/
def offerTests (conn : Nat) (o : Offer) (s : State) : Except ((Status × Nat) × Bool) Nat :=
  let c := s.conn conn
  let r := s.ttregs c.part
  match firstFail [
    ((match s.img.image with | some i => i.role == .prompt | none => true), (.admitMemory, 0x01)),
    (s.img.draining, (.admitMemory, 0x05)),
    (o.tenant != c.tenant, (.tenantMismatch, 0x09)),
    (o.layers != r.layers || o.kvHeads != r.kvHeads || o.geometry != r.geometry || decide (o.specHeads > r.selHeads.toNat) || r.vocab == 0,
      (.malformed, 0x08)),
    (isGen s && decide ((s.tallyPool c.part).held.length ≥ (s.tallyPool c.part).count), (.admitMemory, 0x06)),
    (isGen s && decide (o.remoteSlots > freeSlots s), (.admitMemory, 0x07))] with
  | some f => .error (f, false)
  | none => match admitEntry c.part false (offerAsk o (isCache s)) s with
    | .error f => .error (f, true)
    | .ok n => .ok n

/-- REFUSE (R593). -/
def refuseOffer (conn : Nat) (m : Ctl) (st : Status) (reason : Nat) (s : State) : State :=
  connSend conn (receiverMsg m none 0x03 st.code (BitVec.ofNat 8 reason) .none) s

/-- W of R597: units reserved for staging, or none while fewer than 4 are free. -/
def stagingUnits (conn : Nat) (s : State) : Option Nat :=
  let w := min (max 4 s.ho.window.toNat) (pfFree (connStation conn) (s.conn conn).cls s)
  if w < 4 then none else some w

/-- BUDGET of an admitted OFFER, counted down from its arrival (R595). -/
def offerBudget (o : Offer) (held : Nat) : W64 :=
  if o.budget = BitVec.allOnes 64 ∨ o.met then o.budget else BitVec.ofNat 64 (o.budget.toNat - held)

/-- An admitted OFFER takes a FREE entry, its reservations and GRANT (R595 to R597). (DEDUCED, log entry 69.) -/
def admitOffer (conn : Nat) (m : Ctl) (o : Offer) (need w arrived : Nat) (s : State) : State :=
  let c := s.conn conn
  let p := c.part
  let t := s.tallyPool p
  let obj := nthFree (t.held.foldl (fun l x => insertSorted x l) []) (Config.choice s.free % max 1 (t.count - t.held.length))
  let gen := isGen s
  match freeEntry p (connStation conn) s, (if gen then some ([], s) else takePlaces p need s) with
  | some i, some (ps, s0) =>
    let s1 : State := if gen then
        let s1 := reservePages (s.ttregs p).pool need s0.fresh
        { s1 with ho := { s1.ho with tally := tmod s1.ho.tally p {} (fun t => { t with held := t.held ++ [obj] }) } }
      else s0
    let s2 := putEntry i (fun old =>
      { version := old.version, st := .handoffIn, reqId := m.reqId, epoch := m.epoch, node := c.peerNode, fn := tenantFn c.tenant s,
        tenant := c.tenant, part := p, context := c.context, budget := offerBudget o (s.clk.sc - arrived),
        priority := BitVec.ofNat 3 o.priority, deadlineKind := o.deadlineKind, met := o.met, promptLen := o.promptLen,
        prefilled := o.prefilled, genCount := o.genCount, genMax := o.genMax, length := o.length, specHeads := BitVec.ofNat 3 o.specHeads,
        prompt := BitVec.ofNat 64 noRef, sampling := BitVec.ofNat 64 noRef,
        tally := if gen then t.base + BitVec.ofNat 64 (tallyStride * obj) else BitVec.ofNat 64 noRef,
        tallyObj := if gen then some obj else none, resPages := if gen then need else 0, parcel := ps, shape := some o,
        rcv := some { conn, epoch := m.epoch, sEntry := m.sEntry, offer := some o, window := w } }) s1
    connSend conn (receiverMsg m (some i) 0x02 0 0 (.grant w (s.clk.sc - arrived))) (pfTouch (connStation conn) c.cls s2)
  | _, _ => refuseOffer conn m .admitMemory 0x01 s

/-- Decides an OFFER that arrived at `arrived` (R593): the answer says whether it waits for units (R597). -/
def decideOffer (conn : Nat) (m : Ctl) (o : Offer) (arrived : Nat) (s : State) : Bool × State :=
  match offerTests conn o s with
  | .error ((st, reason), box) => (false, refuseOffer conn m st reason (if box then countRefused (s.conn conn).part st s else s))
  | .ok need => match stagingUnits conn s with
    | none => (true, s)
    | some w => (false, admitOffer conn m o need w arrived s)

/-- OFFER (R593, R595, R597). -/
def execOffer (conn : Nat) (m : Ctl) (s : State) : Host.Outcome State Fault Refusal :=
  onConn conn 0x01 m s (fun _ => true) (fun s => match m.body with
    | .offer o =>
      let r := decideOffer conn m o s.clk.sc s
      if r.1 then { s with ho := { s.ho with waiting := s.ho.waiting ++ [{ conn, msg := m, sc := s.clk.sc }] } } else r.2
    | _ => s)

/-- The first OFFER of a connection that waits for units. -/
def waitingOffer (conn : Nat) (s : State) : Option WaitOffer := s.ho.waiting.find? (fun x => x.conn == conn)

/-- Drops it from the list. -/
def dropWaiting (conn : Nat) (s : State) : State := { s with ho := { s.ho with waiting := s.ho.waiting.eraseP (fun x => x.conn == conn) } }

/-- At least 4 units have become free for a waiting OFFER (R597): it is decided again. -/
def execHandoffUnitsReserved (conn : Nat) (s : State) : Host.Outcome State Fault Refusal :=
  actIf s s.awake (fun s => match waitingOffer conn s with
    | none => s
    | some x => match x.msg.body with
      | .offer o =>
        if !(s.conn conn).handoff || (stagingUnits conn s).isNone then s
        else (decideOffer conn x.msg o x.sc (dropWaiting conn s)).2
      | _ => s)

/-- SB_HO_PLATFORM_WAIT expires: the OFFER is refused (R593, R597). -/
def execHandoffPlatformWaitExpire (conn : Nat) (s : State) : Host.Outcome State Fault Refusal :=
  act s (fun s => match waitingOffer conn s with
    | none => s
    | some x => refuseOffer conn x.msg .platformExhausted 0x0A (dropWaiting conn s))

/-! ## The receiver: items -/

/-- Whether a message names a receiver's entry in HANDOFF_IN: its entry, request, epoch and connection (R583). -/
def forReceiver (conn : Nat) (m : Ctl) (s : State) : Bool :=
  match m.rEntry with
  | none => false
  | some i =>
    let e := s.entry i
    e.st == .handoffIn && e.reqId == m.reqId && e.epoch == m.epoch &&
    (match e.rcv with | some r => r.conn == conn && r.sEntry == m.sEntry | none => false)

/-- Changes a receiver's side. -/
def modReceiver (idx : Nat) (f : Receiver → Receiver) (s : State) : State := s.modEntry idx (fun e => { e with rcv := e.rcv.map f })

/-- DATA: its items are staged (R600). -/
def execHandoffData (conn : Nat) (m : Ctl) (s : State) : Host.Outcome State Fault Refusal :=
  onConn conn 0x04 m s (forReceiver conn m) (fun s => match m.body with
    | .data first bs => modReceiver (m.rEntry.getD 0) (fun r =>
        { r with staged := r.staged ++ (List.range bs.length).zipWith (fun j b => (first + j, b)) bs }) s
    | _ => s)

/-- The receiver's record of a handoff. -/
def receiverOf (e : Entry) : Receiver := e.rcv.getD {}

/-- A message from a receiver's entry, on its handoff connection. -/
def rcvSend (idx : Nat) (ctype status : Byte) (body : CtlBody) (s : State) : State :=
  let e := s.entry idx
  let r := receiverOf e
  connSend r.conn { ctype, sEntry := r.sEntry, rEntry := some idx, status, reason := 0, reqId := e.reqId, epoch := r.epoch, origin := e.node, body } s

/-- A check ends the handoff at the receiver: ABORT, and the entry is FREE (R599). -/
def rcvAbort (idx : Nat) (status : Byte) (s : State) : State := abandon idx (rcvSend idx 0x07 status .none s)

/-- The fields item 0 gives (R595). -/
def itemZero (x : Nat) (e : Entry) : Entry :=
  { e with
    reqId := BitVec.ofNat 64 (fld x 64 64), priority := BitVec.ofNat 3 (fld x 48 3), deadlineKind := fld x 45 1 == 1, met := fld x 46 1 == 1,
    expired := fld x 41 1 == 1, promptLen := fld x 224 32, prefilled := fld x 256 32, genCount := fld x 320 32, genMax := fld x 352 32,
    specHeads := BitVec.ofNat 3 (fld x 832 3), specNodes := fld x 840 7, specTree := BitVec.ofNat 16 (fld x 848 16),
    race := BitVec.ofNat 32 (fld x 864 32), lastToken := BitVec.ofNat 32 (fld x 928 32), tag := BitVec.ofNat 64 (fld x 960 64) }

/-- Draws pages of the pool for a receiver, from its reservation first (R289, R380, R596). -/
def rcvPages (idx n : Nat) (s : State) : Option (List Nat × State) :=
  let e := s.entry idx
  (s.region (s.ttregs e.part).pool).bind (fun g => (takePages g n e.resPages s).map (fun t =>
    (t.1, t.2.modEntry idx (fun e => { e with
      resPages := e.resPages - n, rcv := e.rcv.map (fun r => { r with drawn := r.drawn ++ t.1 }) }))))

/-- Item 1: the list's chunks are taken and chained, its header written, every entry not allocated (R596). The list is LIVE only
with its ACCEPT. -/
def writeHeader (idx : Nat) (plain : List Byte) (s : State) : Option State :=
  let pool := (s.ttregs (s.entry idx).part).pool
  let pages := leAt plain 8 4
  match rcvPages idx (max 1 (ceilDiv pages 7680)) s, s.region pool with
  | some (p :: rest, s1), some g =>
    let ref := mkRef pool (65536 * p)
    let bs := plain.take 12 ++ leBytes 4 1 ++ (plain.drop 16).take 4 ++ leBytes 1 pool ++ leBytes 1 (s.entry idx).tenant ++ leBytes 2 0 ++
      leBytes 8 noRef ++ leBytes 8 ref ++ plain.drop 40
    let s2 := regionWrite g (65536 * p) bs s1
    (listAt s2 ref).map (fun h =>
      let s3 := addChunks h rest s2
      modReceiver idx (fun r => { r with list := some ref }) (clearEnts ((listAt s3 ref).getD h) 0 pages s3))
  | _, _ => none

/-- The lowest free key slot (R596). -/
def lowestSlot (s : State) : Option Nat := (List.range 4096).find? (fun k => !(s.keySlot k).bound)

/-- One record of a reference item (R588, R596): a binding takes the lowest free key slot; a page entry is written with its slot
renumbered. -/
def refRecord (idx : Nat) (b : List Byte) (s : State) : State :=
  let r := receiverOf (s.entry idx)
  if leAt b 0 1 = 1 then
    match lowestSlot s with
    | none => s
    | some k =>
      let slot : KeySlot :=
        { bound := true, tenant := (s.entry idx).tenant, node := leAt b 1 1 % 128, cls := leAt b 2 1 % 8, regionKey := BitVec.ofNat 32 (leAt b 8 4) }
      let s1 : State := { s with mem := { s.mem with keySlots := tput s.mem.keySlots k slot {} } }
      modReceiver idx (fun r => { r with bindings := r.bindings ++ [(leAt b 4 2, k)] }) s1
  else if leAt b 0 1 = 2 then
    match r.list.bind (listAt s) with
    | none => s
    | some h =>
      let n := leAt b 4 4
      let e := PageEnt.of (leAt b 8 8)
      let slot := ((r.bindings.find? (fun x => x.1 == e.keyslot)).map Prod.snd).getD 0
      modReceiver idx (fun r => { r with refs := r.refs ++ [n] }) (putEnt h n { e with keyslot := if e.tier = 2 then slot else 0 } s)
  else s

/-- The page index of data page q: the q-th index no reference item names (R586, R588). -/
def dataIndex (refs : List Nat) (q : Nat) : Nat := nthFree (refs.foldl (fun l x => insertSorted x l) []) q

/-- A page block: its page is drawn with its first block (R596). -/
def writePage (idx j : Nat) (plain : List Byte) (s : State) : Option State :=
  let r := receiverOf (s.entry idx)
  let pool := (s.ttregs (s.entry idx).part).pool
  match r.list.bind (listAt s), s.region pool with
  | some h, some g =>
    let n := dataIndex r.refs (j / 16)
    let put (page : Nat) (s : State) : State := regionWrite g (65536 * page + 4096 * (j % 16)) plain s
    if j % 16 = 0 then
      match rcvPages idx 1 s with
      | some (page :: _, s1) => some (put page (putEnt h n { tier := 0, frozen := decide (h.frozen > n / max 1 h.g * geoT h.geometry), keyslot := 0, loc := locOf pool page } s1))
      | _ => none
    else some (put (locPage (pageEnt s h n).loc) s)
  | _, _ => none

/-- A GENERATION receiver writes item k (R595, R596); none while its pool can supply no page. -/
def writeItem (idx k refItems : Nat) (plain : List Byte) (s : State) : Option State :=
  let e := s.entry idx
  if k = 0 then some (putEntry idx (itemZero (ofBytes plain)) s)
  else if k = 1 then writeHeader idx plain s
  else if k ≤ 6 then some (refWrite e.tallyRef (4096 * (k - 2)) plain s)
  else if k < 7 + refItems then
    some ((List.range 256).foldl (fun s i => refRecord idx ((plain.drop (16 * i)).take 16) s) s)
  else writePage idx (k - 7 - refItems) plain s

/-- A CACHE receiver stores item k as it came (R596); item 0 gives the entry its fields (R595). -/
def storeItem (idx k : Nat) (b : Block) (plain : List Byte) (s : State) : State :=
  let e := s.entry idx
  let s1 := match placeAt (stateRegions e.part s) (nth e.parcel k 0) with
    | some (r, p) => regionWrite r (placeRec r p) (leBytes 16 b.record.toNat) (regionWrite r (4096 * p) (b.stored.take (recStored b.record)) s)
    | none => s
  if k = 0 then putEntry idx (itemZero (ofBytes plain)) s1 else s1

/-! ## The receiver: ACCEPT -/

/-- A list becomes LIVE (R596, R598). -/
def liveList (ref : Nat) (s : State) : State :=
  match listAt s ref with
  | some h => putHdr h 22 1 1 s
  | none => s

/-- The parcel map (R596): 4-byte place numbers in item order, in the places after the items. -/
def writeMap (e : Entry) (items : Nat) (s : State) : State :=
  let bs := (e.parcel.take items).flatMap (fun g => leBytes 4 g)
  (List.range (e.parcel.length - items)).foldl (fun s j =>
    match placeAt (stateRegions e.part s) (nth e.parcel (items + j) 0) with
    | some (r, p) => regionWrite r (4096 * p) ((bs.drop (4096 * j)).take 4096) s
    | none => s) s

/-- The reference of a parcel map: its first place. -/
def mapRef (e : Entry) (items : Nat) (s : State) : Nat :=
  match placeAt (stateRegions e.part s) (nth e.parcel items 0) with
  | some (r, p) => mkRef r.id (4096 * p)
  | none => noRef

/-- The receiver becomes owner and sends ACCEPT (R382, R575, R598, R610, R611). -/
def becomeOwner (idx : Nat) (o : Offer) (s : State) : State :=
  let e := s.entry idx
  let r := receiverOf e
  let cache := isCache s
  let done := !cache && o.turnEnded
  let s1 := if cache then writeMap e o.items s else liveList (r.list.getD noRef) s
  let len := if cache then e.length else match r.list.bind (listAt s) with | some h => h.commit | none => e.length
  let s2 := if done then returnReserve idx s1 else s1
  let s3 := putEntry idx (fun e => { e with
    st := if cache then .parked else if done then .done else .decode, epoch := r.epoch + 1, node := s.me, cause := 0, accepting := true,
    fromIndex := r.sEntry, fromNode := e.node, fromValid := true, fn := tenantFn e.tenant s, nextValid := false, length := len,
    list := BitVec.ofNat 64 (if cache then mapRef e o.items s else r.list.getD noRef),
    pages := if cache then e.parcel.length else r.drawn.length, met := e.met || (done && e.deadlineKind),
    turnEnded := o.turnEnded, rcv := none }) s2
  let s4 := mgmtSend e.node { ctype := 0x08, sEntry := r.sEntry, rEntry := some idx, status := 0, reason := 0, reqId := e.reqId, epoch := r.epoch,
                              origin := e.node, body := .newEpoch (r.epoch + 1) } { s3 with ho := { s3.ho with accepted := s3.ho.accepted + 1 } }
  let s5 := ttEvent 0x0106 idx s4 (some e.reqId)
  if done then sendRelease idx (ttEvent 0x0101 idx s5) else s5

/-- ACCEPT when every condition of R598 holds; a parcel whole but not as COMMIT names it ends the handoff (R599), with a status the
spec does not give. -/
def tryAccept (idx : Nat) (s : State) : State :=
  let r := receiverOf (s.entry idx)
  match r.commit, r.offer with
  | some (items, digest), some o =>
    if items ≠ o.items then rcvAbort idx (BitVec.ofNat 8 (Config.random s.free)) s.fresh
    else if r.records.length < o.items then s
    else if parcelDigest r.records ≠ digest then rcvAbort idx (BitVec.ofNat 8 (Config.random s.free)) s.fresh
    else becomeOwner idx o s
  | _, _ => s

/-- COMMIT: BUDGET is replaced (R598, R609). -/
def execCommit (conn : Nat) (m : Ctl) (s : State) : Host.Outcome State Fault Refusal :=
  onConn conn 0x06 m s (forReceiver conn m) (fun s => match m.body with
    | .commit items budget digest =>
      let i := m.rEntry.getD 0
      tryAccept i (modReceiver i (fun r => { r with commit := some (items, digest) }) (putEntry i (fun e => { e with budget }) s))
    | _ => s)

/-- Returns credits for the units freed (R605). -/
def returnCredits (idx : Nat) (s : State) : State :=
  let r := receiverOf (s.entry idx)
  if r.freed ≥ ceilDiv r.window 4 ∨ r.staged.isEmpty then
    rcvSend idx 0x05 0 (.credit r.freed) (modReceiver idx (fun r => { r with freed := 0 }) s)
  else s

/-- The next staged item has been checked and is written, in order (R349, R596, R605); a check that fails ends the handoff with the
status R352 orders first among the staged items (R599). -/
def execHandoffItemWritten (entry item : Nat) (s : State) : Host.Outcome State Fault Refusal :=
  let e := s.entry entry
  let r := receiverOf e
  actIf s (s.awake && e.st == .handoffIn && item == r.records.length) (fun s =>
    match r.staged.find? (fun x => x.1 == item), r.offer with
    | some (_, b), some o =>
      if !hasCodec e.part s then rcvAbort entry 0xFF (itemDutyEmpty entry s) else
      let st := connStation r.conn
      let inj := injectHit 0x08 st s
      match checkBlock (s.keyInForce e.tenant true) (sleeperKey s e.tenant true) inj.1 b with
      | .error bad =>
        let s1 := countFailed e.part bad true 0 inj.2
        rcvAbort entry bad.code (if bad = .poisonConsumed then s1 else itemFault entry 0x05 bad (20 + st) (placeDetail true 0) st inj.1 s1)
      | .ok plain =>
        let s1 := countExpanded e.tenant e.part b inj.2
        match (if isCache s then some (storeItem entry item b plain s1) else writeItem entry item o.refItems plain s1) with
        | none => s
        | some s2 =>
          let s3 := modReceiver entry (fun r => { r with
            staged := r.staged.filter (fun x => x.1 != item), freed := r.freed + 1, records := r.records ++ [b.record] }) s2
          let s4 := returnCredits entry { s3 with ho := { s3.ho with itemsRx := s3.ho.itemsRx + 1 } }
          tryAccept entry s4
    | _, _ => s)

/-- ABORT (R590, R600): the node that began the exchange is the sender, whose entry keeps ownership; at the receiver the entry is
abandoned. -/
def execAbort (conn : Nat) (m : Ctl) (s : State) : Host.Outcome State Fault Refusal :=
  if m.origin = s.me then
    onConn conn 0x07 m s (forSender m (fun e => (senderOf e).conn == conn && (senderOf e).phase != .probing))
      (resolveKept m.sEntry m.status (statusOf m.status.toNat) m.reason.toNat)
  else onConn conn 0x07 m s (forReceiver conn m) (abandon (m.rEntry.getD 0))

/-- Whether an entry's ACCEPT still waits to be sent or acknowledged on the management connection. -/
def acceptOut (idx : Nat) (s : State) : Bool :=
  let is (p : Packet) : Bool := match p.ctl with | some m => m.ctype == 0x08 && m.rEntry == some idx && m.reqId == (s.entry idx).reqId | none => false
  (s.conn 0).unacked.any (fun t => is t.pkt) || (s.conn 0).txq.any (fun t => is t.2)

/-- ACCEPT is acknowledged as visible: the entry may be acted on, and what waited applies (R575, R600, R602, R603). -/
def execAcceptAcknowledged (entry : Nat) (s : State) : Host.Outcome State Fault Refusal :=
  actIf s ((s.entry entry).accepting && !acceptOut entry s) (fun s =>
    entryBoundary entry (putEntry entry (fun e => { e with accepting := false }) s))

/-! ## Probes -/

/-- The entries that hold a request, whatever their state. -/
def holders (reqId : W64) (s : State) : List Nat := (s.tt.entries.filter (fun kv => kv.2.st != .free && kv.2.reqId == reqId)).map Prod.fst

/-- Whether an epoch is at least another (R389): epochs never wrap. -/
def atLeast (a b : W32) : Bool := decide (b.toNat ≤ a.toNat)

/-- PROBE (R601): OWNED, or NOT_HELD, abandoning the entry of this very handoff. -/
def execProbe (src : Nat) (m : Ctl) (s : State) : Host.Outcome State Fault Refusal :=
  onMgmt src 0x09 m s (fun s =>
    let hs := holders m.reqId s
    let owned := hs.any (fun i => ((s.entry i).st.owner || (s.entry i).st == .stub) && atLeast (s.entry i).epoch (m.epoch + 1))
    let reply (o : Bool) (s : State) : State :=
      mgmtSend src { ctype := 0x0A, sEntry := m.sEntry, rEntry := m.rEntry, status := 0, reason := 0, reqId := m.reqId, epoch := m.epoch, origin := src,
                     body := .probeReply o (if o then m.epoch + 1 else 0) } s
    if owned then reply true s
    else match hs.find? (fun i => (s.entry i).st == .handoffIn && (s.entry i).node == src && (s.entry i).epoch == m.epoch) with
      | some i => reply false (abandon i s)
      | none => reply false s)

/-! ## Chain messages (R382, R388, R389, R613) -/

/-- A sender that hears of a higher epoch from its receiver has handed the request over (R590). -/
def movedBy (idx src : Nat) (m : Ctl) (s : State) : State :=
  let e := s.entry idx
  if e.st = .handoffOut ∧ e.node = src ∧ e.reqId = m.reqId ∧ e.epoch.toNat < m.epoch.toNat then resolveMoved idx (e.epoch + 1) s else s

/-- A STUB that a chain message may act on (R389, R583). -/
def chainTarget (idx : Nat) (m : Ctl) (s : State) : Bool :=
  (s.entry idx).st == .stub && (s.entry idx).reqId == m.reqId && atLeast m.epoch (s.entry idx).epoch

/-- RELEASE: the STUB is FREE, with its event, and RELEASE goes on (R382). -/
def execRelease (src : Nat) (m : Ctl) (s : State) : Host.Outcome State Fault Refusal :=
  onMgmt src 0x10 m s (fun s =>
    let i := m.rEntry.getD 0x3FFF
    let s1 := movedBy i src m s
    if chainTarget i m s1 then toFree i (chainUp 0x10 0 i (ttEvent 0x0104 i s1) (some m.epoch)) else s1)

/-- LOST: the STUB is LOST with the cause received, and LOST goes on (R382). -/
def execLost (src : Nat) (m : Ctl) (s : State) : Host.Outcome State Fault Refusal :=
  onMgmt src 0x11 m s (fun s =>
    let i := m.rEntry.getD 0x3FFF
    let s1 := movedBy i src m s
    if chainTarget i m s1 then toLost i m.status s1 (some m.epoch) else s1)

/-- The entry a message addressed by REQ_ID acts on: that of the greatest epoch (R578). -/
def greatest (reqId : W64) (s : State) : Option Nat :=
  (holders reqId s).foldl (fun best i => match best with
    | none => some i
    | some j => if (s.entry j).epoch.toNat < (s.entry i).epoch.toNat then some i else some j) none

/-- CANCEL (R388, R613): it applies at the entry's step boundary, when its ACCEPTING clears or its handoff resolves, or at once.
(DEDUCED, log entry 71.) -/
def execCancel (src : Nat) (m : Ctl) (s : State) : Host.Outcome State Fault Refusal :=
  onMgmt src 0x12 m s (fun s => match greatest m.reqId s with
    | none => s
    | some i =>
      let e := s.entry i
      let a := (m.origin, m.sEntry)
      if !atLeast m.epoch e.epoch then s
      else if e.st = .handoffOut ∨ e.st = .handoffIn then putEntry i (fun e => { e with cancelPend := true, askers := e.askers ++ [a] }) s
      else if inStep i s ∨ e.accepting then s.modEntry i (fun e => { e with askers := e.askers ++ [a] })
      else applyAsker i a s)

/-- CANCEL_DONE: the TT_CANCEL of its entry completes with the owner's status (R388, R613). -/
def execCancelDone (src : Nat) (m : Ctl) (s : State) : Host.Outcome State Fault Refusal :=
  onMgmt src 0x13 m s (fun s =>
    let s1 := movedBy m.sEntry src m s
    match s1.work.find? (fun w => w.prog == .forwarded m.sEntry && dat w.body 16 64 == m.reqId.toNat) with
    | some w => complete w (statusOf m.status.toNat) (if m.status = 0x70 then 0x04 else 0) s1
    | none => s1)

end Sys2Proof.Machine
end

