-- ==== Sys2Proof/Machine/RailLinks.lean ====
section
/-! DEFINITION. Link training (R489 to R492), lanes (R493, R528), the receiver's checks and replay (R498 to R500), sharing an
egress (R511 to R514), the trickle link (R516), link heartbeats (R494), node identity and the watch set (R523, R534). -/

namespace Sys2Proof.Machine

/-! ## Training -/

/-- Light on a lane of a DOWN link starts its training (R491); no link trains in N3 or without a node ID (R534). -/
def execLightOn (lantern link : Nat) (s : State) : Host.Outcome State Fault Refusal :=
  actIf s (decide ((s.link lantern link).st = .down) && forwards s) (startTraining lantern link)

/-- Training fails with a cause (R490, R491): the possession of a retrain ends with it. -/
def trainFail (n l : Nat) (cause : Byte) (s : State) : State :=
  releasePoss 0x03 (64 * n + 32 + l) (linkDown n l .failed cause s)

/-- A TRAIN frame of the peer: the link keys are derived and KEY_CONFIRM goes out, or training fails (R489, R490, R502). A lane
that names another node than the peer is MISWIRED. An unburned key slot, or a device unlocked for debug, has no link keys (R733, R739). -/
def execTrain (lantern link : Nat) (f : Frame) (obs : TrainObs) (s : State) : Host.Outcome State Fault Refusal :=
  match f.payload with
  | .train node inc peerLantern version slot nonce =>
    actIf s (decide ((s.link lantern link).st = .training)) (fun s =>
      if node = s.rail.nodeId.toNat then trainFail lantern link 0x02 s
      else if version ≠ linkVersion link .training ∨ !obs.versionOk then trainFail lantern link 0x04 s
      else if !s.fuses.fabric.getLsbD (s.link lantern link).keySlot ∨ s.trust.unlocked then trainFail lantern link 0x03 s
      else
        let up := (linkLanes lantern link s).filter (fun k => obs.up.any (· == k) && !obs.miswired.any (· == k))
        let s1 := setLanes lantern link (fun k =>
          if obs.miswired.any (· == k) then .miswired else if obs.up.any (· == k) then laneUpSt link else .los) s
        let s2 := s1.modLink lantern link (fun k => Link.keyedAs { k with
          peer := node, peerInc := inc, keyed := true, peerLantern, peerNonce := nonce, peerConf := decide (slot = k.keySlot),
          lanesUp := up.length, allLanes := decide (up.length = (linkLanes lantern link s).length),
          txSeq := 0, txGen := 0, txCtl := 0, txCtlGen := 0, rxSeq := 0, rxGen := 0, rxCtl := 0, rxCtlGen := 0, credits := [] }
            s.me lantern (linkVersion link .training))
        ctlOut lantern link (ownFrame s2 8 node .none) s2)
  | _ => .next s

/-- A KEY_CONFIRM of the peer: the link is up, or fails with cause 0x03; ends that name different key slots never confirm
(R489 to R491, R503). (DEDUCED, log entry 59.) -/
def execKeyConfirm (lantern link : Nat) (f : Frame) (tag : BitVec 128) (s : State) : Host.Outcome State Fault Refusal :=
  let k := s.link lantern link
  actIf s (decide (k.st = .training) && k.keyed && f.typ == 8) (fun s =>
    if tag ≠ rxTag s.me k f ∨ !k.peerConf then trainFail lantern link 0x03 s
    else
      let s1 := s.modLink lantern link (fun k => { k with
        st := if k.allLanes then .up else .degraded, cause := 0, trained := true, heard := true, retrainWaits := false,
        rxCtl := f.fseq + 1, rxCtlGen := genAfter k.rxCtlGen f.fseq })
      releasePoss 0x03 (64 * lantern + 32 + link) (event 0 0x0601 (linkResult lantern link) s1))

/-- Training does not complete within the time of R492 (R490). -/
def execTrainingTimeout (lantern link : Nat) (s : State) : Host.Outcome State Fault Refusal :=
  actIf s (decide ((s.link lantern link).st = .training)) (trainFail lantern link 0x05)

/-- A FAILED link with light trains again after 1 ms (R491). -/
def execLinkRetryTimer (lantern link : Nat) (s : State) : Host.Outcome State Fault Refusal :=
  actIf s (decide ((s.link lantern link).st = .failed) && forwards s) (startTraining lantern link)

/-! ## Lanes -/

/-- The domain of a Lantern (R690). -/
def lanternDomain (n : Nat) : Nat := 12 + n

/-- Requests the possession of an automatic lane retrain; a refused one is tried again after 1 ms (R493, R693). -/
def laneRetrain (n lane : Nat) (s : State) : State :=
  let refused := (fullDomain (oneDomain (lanternDomain n)) s).isSome
  requestPoss 0x03 (oneDomain (lanternDomain n)) (64 * n + lane)
    (s.modLink n (laneLink n lane s) (fun k => { k with retrainWaits := k.retrainWaits || refused }))

/-- Whether a lane carries frames. -/
def laneRuns (n lane : Nat) (s : State) : Bool :=
  (s.lane n lane).st == .upV3 || (s.lane n lane).st == .upV2 || (s.lane n lane).st == .trickle

/-- A lane loses lock or light: its link goes on with the others and the lane retrains alone, or the link goes DOWN with its
last lane (R491, R493). -/
def loseLane (n lane : Nat) (s : State) : State :=
  let l := laneLink n lane s
  let s1 := s.modLane n lane (fun x => { x with st := .los })
  if !(s.link n l).up ∨ !laneRuns n lane s then s1
  else if (s.link n l).lanesUp ≤ 1 then linkDown n l .down 0x01 s1
  else laneRetrain n lane (s1.modLink n l (fun k => { k with st := .degraded, lanesUp := k.lanesUp - 1, allLanes := false }))

/-- A lane loses lock or light, or one that trains alone fails to lock (R493): one under a load's possession is left out, and retrains
once the load has ended (R174, R692). -/
def execLaneLoss (lantern lane : Nat) (s : State) : Host.Outcome State Fault Refusal :=
  actIf s (decide (lane < 16)) (fun s =>
    if laneRuns lantern lane s then loseLane lantern lane s
    else if (s.lane lantern lane).st = .training ∧ (s.link lantern (laneLink lantern lane s)).up = true then
      laneRetrain lantern lane (releasePoss 0x03 (64 * lantern + lane) (s.modLane lantern lane (fun x => { x with st := .los })))
    else s)

/-- A lane that retrained alone joins its link between two frames; its possession ends (R491, R493). A link that gains its
first lane trains as a new link (R174). -/
def execLaneUp (lantern lane : Nat) (s : State) : Host.Outcome State Fault Refusal :=
  let l := laneLink lantern lane s
  actIf s (decide (lane < 16) && (s.link lantern l).up && !laneRuns lantern lane s) (fun s =>
    let s1 := s.modLane lantern lane (fun x => { x with st := laneUpSt l })
    let up := ((linkLanes lantern l s1).filter (fun k => laneRuns lantern k s1)).length
    let all := decide (up = (linkLanes lantern l s1).length)
    releasePoss 0x03 (64 * lantern + lane) ((s1.modLink lantern l (fun k => { k with
      lanesUp := up, allLanes := all, st := if all then .up else .degraded })).modLantern lantern (fun x =>
      { x with retrains := x.retrains + 1 })))

/-- A write of LN_CTRL.RETRAIN: each running link named asks for the possession its retrain holds (R491, R530, R691). -/
def execLnRetrain (lantern : Nat) (mask : BitVec 2) (s : State) : Host.Outcome State Fault Refusal :=
  actIf s (writes 0 s) (fun s => (List.range 2).foldl (fun s k =>
    if mask.getLsbD k ∧ (s.link lantern k).up then requestPoss 0x03 (oneDomain (lanternDomain lantern)) (64 * lantern + 32 + k) s
    else s) s)

/-- 1 ms after a refused automatic retrain the device tries it again (R693). -/
def execRetrainRetryTimer (lantern link : Nat) (s : State) : Host.Outcome State Fault Refusal :=
  actIf s (s.link lantern link).retrainWaits (fun s =>
    let s1 := s.modLink lantern link (fun k => { k with retrainWaits := false })
    ((linkLanes lantern link s1).filter (fun k => (s1.lane lantern k).st == .los)).foldl (fun s k => laneRetrain lantern k s) s1)

/-! ## The receiver's checks -/

/-- A NAK is due: it names the expected FSEQ in its ACK_SEQ (R499). -/
def nakDue (n l : Nat) (s : State) : State := enqueueCtl n l (ownFrame s 3 (s.link n l).peer .none) s

/-- The checks of R498 in order; the first that fails decides. The answer says whether the frame is accepted. An armed
injection inverts the CRC or the tag the checker compares (R710). -/
def rxCheck (n l : Nat) (sequenced : Bool) (f : Frame) (o : FrameObs) (s0 : State) : Bool × State :=
  let i1 := injectHit 0x0A n (s0.modLink n l (fun k => { k with heard := true }))
  let i2 := injectHit 0x0B n i1.2
  let s := i2.2
  let k := s.link n l
  if o.fecBad > 0 then (false, nakDue n l (s.modLantern n (fun x => { x with fecUncorr := x.fecUncorr + o.fecBad })))
  else if o.crc = .inverted ∨ (i1.1 = true ∧ o.crc = .good) then (false, s.modLantern n (fun x => { x with stomped := x.stomped + 1 }))
  else if o.crc = .bad then (false, nakDue n l (s.modLantern n (fun x => { x with crcFail := x.crcFail + 1 })))
  else if f.typ.toNat > 9 ∨ f.version ≠ linkVersion l k.st then
    (false, nakDue n l (s.modLantern n (fun x => { x with dropped := x.dropped + 1 })))
  else if o.tag ≠ rxTag s.me k f ∨ i2.1 = true then (false, nakDue n l (s.modLantern n (fun x => { x with authFail := x.authFail + 1 })))
  else if sequenced && decide (f.fseq ≠ k.rxSeq) then (false, if seqBefore k.rxSeq f.fseq then nakDue n l s else s)
  else (true, s)

/-- Frees the frames an ACK_SEQ covers, and their credits (R499, R506). -/
def ackUpTo (a : W32) (k : Link) : Link :=
  let done := k.unacked.filter (fun t => seqBefore t.q.frame.fseq a)
  { k with
    unacked := k.unacked.filter (fun t => !seqBefore t.q.frame.fseq a),
    credits := done.foldl (fun c t => tmod c (creditKey t.q.frame) 0 (· - 1)) k.credits }

/-- A frame of a running link is checked and, if accepted, counted; its ACK_SEQ frees what it covers, and a sequenced frame
moves the expected number on and is to be acknowledged; a control frame moves its stream's number on for GEN alone (R496 to R501). -/
def rxFrame (n l : Nat) (sequenced : Bool) (f : Frame) (o : FrameObs) (s : State) : Bool × State :=
  let r := rxCheck n l sequenced f o s
  if !r.1 then r else
    (true, (r.2.modLink n l (fun k =>
      let k1 := ackUpTo f.ackSeq k
      if sequenced then { k1 with rxSeq := k1.rxSeq + 1, rxGen := genAfter k1.rxGen k1.rxSeq, ackDue := true }
      else { k1 with rxCtl := f.fseq + 1, rxCtlGen := genAfter (genOf k1.rxCtlGen k1.rxCtl f.fseq) f.fseq })).modLantern n
        (fun x => { x with rxFrames := x.rxFrames + 1 }))

/-- A link on which numbered frames arrive; in FAILED none does (R646). -/
def listens (n l : Nat) (s : State) : Bool := ((s.link n l).up || (s.link n l).st == .trickle) && decide (s.boot.stage ≠ .failed)

/-- The command names the frame's type, or the type is reserved (check 4 of R498). -/
def typeIs (t : Nat) (f : Frame) : Bool := f.typ.toNat == t || decide (f.typ.toNat > 9)

/-- A LINK_HB frame (R494, R498). -/
def execLinkHb (lantern link : Nat) (f : Frame) (obs : FrameObs) (s : State) : Host.Outcome State Fault Refusal :=
  actIf s (listens lantern link s && typeIs 4 f) (fun s => (rxFrame lantern link false f obs s).2)

/-- An ACK frame frees what it covers (R499). -/
def execAckFrame (lantern link : Nat) (f : Frame) (obs : FrameObs) (s : State) : Host.Outcome State Fault Refusal :=
  actIf s (listens lantern link s && typeIs 2 f) (fun s => (rxFrame lantern link false f obs s).2)

/-- Sends every unacknowledged frame again with the same FSEQ and bytes (R499). (DEDUCED, log entry 58.) -/
def replay (n l : Nat) (s : State) : State :=
  let ts := (s.link n l).unacked
  let s1 := (s.modLink n l (fun k => { k with unacked := k.unacked.map (fun t => { t with resends := t.resends + 1 }) })).modLantern n
    (fun x => { x with replays := x.replays + ts.length })
  ts.foldl (fun s t => frameOut n l t.q.frame s) s1

/-- A NAK names the expected FSEQ: every frame from it on is sent again; a frame resent 8 times without acknowledgement takes
the link FAILED (R499). -/
def execNakFrame (lantern link : Nat) (f : Frame) (obs : FrameObs) (s : State) : Host.Outcome State Fault Refusal :=
  actIf s (listens lantern link s && typeIs 3 f) (fun s =>
    let r := rxFrame lantern link false f obs s
    if !r.1 then r.2
    else if (r.2.link lantern link).unacked.any (fun t => decide (t.resends ≥ 8)) then linkDown lantern link .failed 0x06 r.2
    else replay lantern link r.2)

/-- A FILL frame is received and discarded (R497). -/
def execFillFrame (lantern link : Nat) (s : State) : Host.Outcome State Fault Refusal :=
  actIf s (listens lantern link s) (fun s => s.modLink lantern link (fun k => { k with heard := true }))

/-! ## Link heartbeats -/

/-- A link whose GEN is about to wrap asks for the possession its retrain holds, once (R491, R501). -/
def renewKeys (n l : Nat) (s : State) : State :=
  let arg := 64 * n + 32 + l
  if (s.link n l).up ∧ (s.link n l).genDue ∧ !holds 0x03 arg s ∧ !(s.ft.queue.any (fun p => p.activity == 0x03 && p.arg == arg)) then
    requestPoss 0x03 (oneDomain (lanternDomain n)) arg s
  else s

/-- A FILL frame leaves (R497). -/
def fillOut (n l : Nat) (s : State) : State := plainOut n l (ownFrame s 0 0 .none) s

/-- A link silent for LN_HB.PERIOD sends LINK_HB (R494). -/
def execLinkHbSend (lantern link : Nat) (s : State) : Host.Outcome State Fault Refusal :=
  actIf s (listens lantern link s) (fun s =>
    let s := renewKeys lantern link s
    if (s.link lantern link).genSpent then fillOut lantern link s
    else ctlOut lantern link (ownFrame s 4 (s.link lantern link).peer .none) s)

/-- No frame for MISS × PERIOD sc: the link goes DOWN (R491, R494). -/
def execLinkTimeout (lantern link : Nat) (s : State) : Host.Outcome State Fault Refusal :=
  actIf s (s.link lantern link).up (linkDown lantern link .down 0x00)

/-! ## Sharing an egress -/

/-- Takes the head of a class's queue and sends it; a strict class's run count grows, and returns to 0 when its queue empties
(R512, R513). -/
def sendHead (n l c : Nat) (s : State) : State :=
  match tget (s.link n l).queues c [] with
  | [] => s
  | q :: rest =>
    seqOut n l q (s.modLink n l (fun k => { k with
      queues := tput k.queues c rest [],
      deficit := if c < 2 then tput k.deficit c (if rest.isEmpty then 0 else tget k.deficit c 0 + q.frame.len) 0 else k.deficit }))

/-- The cost of a frame under the deficit rule (R513). -/
def frameCost (len : Nat) : Nat := max 64 len

/-- The next class of the round 2 to 7. -/
def nextRound (c : Nat) : Nat := if c ≥ 7 then 2 else c + 1

/-- The deficit rule of R513 from where its round stands: the class whose head is sent, the deficit it costs taken off. -/
def deficitPick (n l : Nat) : Nat → State → Option Nat × State
  | 0, s => (none, s)
  | fuel + 1, s =>
    let k := s.link n l
    let c := k.round
    let d := tget k.deficit c 0
    let cap := burstOf n c s
    let move (v : Nat) : State := s.modLink n l (fun k => { k with deficit := tput k.deficit c v 0, round := nextRound c, inVisit := false })
    match qHead n l c s with
    | none => deficitPick n l fuel (move (if k.inVisit then min d cap else min (d + quantumOf n c s) cap))
    | some h =>
      if !headAdmits n l c s then deficitPick n l fuel (move d)
      else if !k.inVisit then
        deficitPick n l fuel (s.modLink n l (fun k => { k with deficit := tput k.deficit c (d + quantumOf n c s) 0, inVisit := true }))
      else if frameCost h.frame.len ≤ d then
        (some c, s.modLink n l (fun k => { k with deficit := tput k.deficit c (d - frameCost h.frame.len) 0 }))
      else deficitPick n l fuel (move d)

/-- A passed-over strict class's run count returns to 0 (R513). -/
def passOver (n l c : Nat) (s : State) : State :=
  if headAdmits n l c s && passedOver n l c s then s.modLink n l (fun k => { k with deficit := tput k.deficit c 0 0 }) else s

/-- The class that sends at a frame boundary: 0, then 1, then by the deficit rule (R512, R513). -/
def pickClass (n l : Nat) (s : State) : Option Nat × State :=
  let ok0 := headAdmits n l 0 s && !passedOver n l 0 s
  let ok1 := headAdmits n l 1 s && !passedOver n l 1 s
  if ok0 then (some 0, s)
  else
    let s1 := passOver n l 0 s
    if ok1 then (some 1, s1)
    else
      let s2 := passOver n l 1 s1
      if (List.range 8).any (fun c => decide (2 ≤ c) && headAdmits n l c s2) then deficitPick n l 256 s2 else (none, s2)

/-- Whether any class may send. -/
def anyAdmits (n l : Nat) (s : State) : Bool := (List.range 8).any (fun c => headAdmits n l c s)

/-- A frame boundary: a control frame first, at most one between two class frames; then the class R512 picks; else an ACK that
is due; else FILL (R497, R511, R512). A link whose numbers are spent sends FILL until it has trained again (R501). -/
def execFrameBoundary (lantern link : Nat) (s : State) : Host.Outcome State Fault Refusal :=
  actIf s (listens lantern link s) (fun s =>
    let s := renewKeys lantern link s
    let k := s.link lantern link
    if k.genSpent then fillOut lantern link s else
    match (if k.ctlLast ∧ anyAdmits lantern link s then [] else k.ctlq) with
    | f :: rest => ctlOut lantern link f (s.modLink lantern link (fun k => { k with ctlq := rest }))
    | [] =>
      let p := pickClass lantern link s
      match p.1 with
      | some c => sendHead lantern link c p.2
      | none => if k.ackDue then ctlOut lantern link (ownFrame s 2 k.peer .none) p.2 else fillOut lantern link p.2)

/-! ## The trickle link and Halt -/

/-- The peer of Lantern 0's v3 link enters N3: trickle keys are derived, the link carries lane 0 alone, frames it can no
longer carry are dropped when they are for the peer and forwarded anew otherwise (R516, R517). -/
def execPeerEntersN3 (s : State) : Host.Outcome State Fault Refusal :=
  actIf s (s.link 0 0).up (fun s =>
    let k := s.link 0 0
    let others := k.frames.filter (fun q => !frameSpecial q.frame)
    let drop := (others.filter (fun q => q.packet.isNone && q.frame.dst == k.peer)).length
    let s1 := setLanes 0 0 (fun i => if i = 0 then .trickle else .down) s
    let s2 := (s1.modLink 0 0 (fun k => k.toTrickle s.me 0)).modLantern 0 (fun x => { x with dropped := x.dropped + drop })
    returnFrames (others.filter (fun q => q.packet.isSome || q.frame.dst != k.peer)) s2)

/-- The peer leaves N3: the TRICKLE link trains again (R491, R518). -/
def execPeerLeavesN3 (s : State) : Host.Outcome State Fault Refusal :=
  actIf s (decide ((s.link 0 0).st = .trickle)) (startTraining 0 0)

/-! ## Optical power -/

/-- The offset of a mode's thresholds in 0.01 dB (R758). -/
def modeOffset (st : LaneSt) (l : Nat) : Int := if st = .trickle then -600 else if l = 1 then -200 else 0

/-- One lane's measurement: powers and corrected symbols are reported; the warning is raised once, and again only after the
power has risen 0.50 dB above the threshold; below the loss-of-signal threshold, or out of lock, the lane is lost (R527,
R528). -/
def sampleLane (n : Nat) (o : LaneObs) (s : State) : State :=
  let x := s.lane n o.lane
  let l := laneLink n o.lane s
  let off := modeOffset x.st l
  let warn := (s.lantern n).warn.toInt + off
  let los := (s.lantern n).los.toInt + off
  let low := decide (o.rx < warn) && !x.warned
  let s1 := s.modLane n o.lane (fun x => { x with
    rx := o.rx, tx := o.tx, symCorr := x.symCorr + o.symCorr,
    warned := if o.rx < warn then true else if o.rx ≥ warn + 50 then false else x.warned })
  let s2 := if low then event 0 0x0602 (linkResult n o.lane) s1 else s1
  if (decide (o.rx < los) || !o.locked) && laneRuns n o.lane s2 then loseLane n o.lane s2 else s2

/-- Every lane measures its optical powers (R527). -/
def execOpticalSample (lantern : Nat) (obs : List LaneObs) (s : State) : Host.Outcome State Fault Refusal :=
  act s (fun s => (obs.filter (fun o => decide (o.lane < 16))).foldl (fun s o => sampleLane lantern o s) s)

/-! ## Node identity and the watch set -/

/-- Whether a node is watched (R523). -/
def watched (n : Nat) (s : State) : Bool := (tget s.rail.watch (n / 32) 0).getLsbD (n % 32)

/-- A write of LN_WATCH: a node whose bit rises or falls is UNWATCHED, its incarnation kept (R523, R534). -/
def execLnWatchWrite (w : Nat) (value : W32) (s : State) : Host.Outcome State Fault Refusal :=
  actIf s (writes 0 s && decide (w < 4)) (fun s =>
    let old := tget s.rail.watch w 0
    (List.range 32).foldl (fun s b =>
      if old.getLsbD b != value.getLsbD b then s.modPeer (32 * w + b) (fun p => { p with st := .unwatched, misses := 0, beat := false }) else s)
      { s with rail := { s.rail with watch := tput s.rail.watch w value 0 } })

/-- Every link is DOWN, FAILED or DISABLED (R534). -/
def linksDown (s : State) : Bool :=
  (List.range 8).all (fun n => (List.range 2).all (fun l =>
    (s.link n l).st == .down || (s.link n l).st == .failed || (s.link n l).st == .disabled))

/-- A write of LN_NODE.NODE_ID: accepted only while every link is down; SET becomes 1, and the ID is saved with the training
settings (R534). (DEDUCED, log entry 61.) -/
def execLnNodeIdWrite (value : W32) (s : State) : Host.Outcome State Fault Refusal :=
  actIf s (linksDown s) (fun s =>
    { s with
      rail := { s.rail with nodeId := BitVec.ofNat 7 value.toNat, nodeSet := true },
      boot := { s.boot with savePend := true },
      flash := { s.flash with nodeId := some (BitVec.ofNat 7 value.toNat) } })

end Sys2Proof.Machine
end

