-- ==== Sys2Proof/Machine/Power.lean ====
section
/-! DEFINITION. Clocks, power states and electrical limits: throttling and trips (R53, R748 to R750, R769), gating (R62), entry to
and exit from N2 and N3 (R64 to R70, R761), wake sources (R73, R75), power removal (R753, R770), CK_SNAP (R57), the
pins of the host port and its link (R78, R81, R123, R124, R641). -/

namespace Sys2Proof.Machine

/-! ## Work on a Grove -/

/-- The partition that owns a Grove. -/
def grovePart (g : Nat) (s : State) : Nat := match s.img.image with | some i => i.partOf g | none => 0

/-- Whether a work item has tiles, chunks, units or blocks that run or wait on the Stands of a Grove. -/
def worksOn (g : Nat) (s : State) (w : Work) : Bool :=
  w.part == grovePart g s && (match w.prog with
    | .tiles _ => true
    | .attend _ => true
    | .canopyLoad k _ => k == g
    | .query q => !q.live.isEmpty
    | .coding _ | .fetching _ => (standsOf w.part 1 s).any (fun x => x.1 == g)
    | _ => false)

/-- A fetched operation that no wait of its own holds back: it is work for its Groves as soon as it can start. -/
def worksSoon (g : Nat) (s : State) (w : Work) : Bool :=
  decide (0x20 ≤ w.opcode.toNat) && decide (w.opcode.toNat ≤ 0x3F) && w.part == grovePart g s && mayStart w s

/-- A Grove has work: a Stand of it runs something, or something waits for one (R62). -/
def groveWork (g : Nat) (s : State) : Bool :=
  (List.range 100).any (fun l => (s.stand g l).busy) || s.work.any (fun w => worksOn g s w || worksSoon g s w)

/-- The function a step's work was issued by. -/
def workFn (s : State) (w : Work) : Nat :=
  match w.src with
  | .ring _ _ => w.fn
  | .step p _ => match tget s.tt.progs p none with | some x => x.fn | none => w.fn

/-- The virtual functions with work on a Grove, lowest first (R769). -/
def fnsOn (g : Nat) (s : State) : List Nat :=
  (List.range 17).filter (fun f => decide (0 < f) && s.work.any (fun w => worksOn g s w && workFn s w == f))

/-! ## Throttling -/

/-- THROTTLED goes to the physical function and to each other function with work on the Grove (R769). -/
def sendThrottled (g : Nat) (s : State) : State :=
  (0 :: fnsOn g s).foldl (fun s f => event f 0x0802 (g + 256 * gckDiv s.clk) s) s

/-- A Grove's two divider codes are set; each raise of the divider in force is counted and reported once (R749, R769). -/
def setDividers (g therm cur : Nat) (s : State) : State :=
  let clk : Clk := { s.clk with therm := tput s.clk.therm g therm 0, cur := tput s.clk.cur g cur 0 }
  if dividerOf g clk ≤ dividerOf g s.clk then { s with clk := clk }
  else sendThrottled g { s with clk := { clk with throttleCount := satBv clk.throttleCount 1 } }

/-- A sample as PW_SENSOR holds it; a die that is not powered reads 0 (R759). -/
def sensorOf (o : SensorObs) : Sensor :=
  if o.powered then
    { valid := true, temp := signedField 8 o.temp, vmargin := signedField 11 o.vmargin,
      tmargin := BitVec.ofNat 12 (min 4095 o.tmargin) }
  else {}

/-- A trip (R750): every root-derived clock stops, PW_TRIP records it, ERR_N is held low and PWRCYC_REQ_N goes low. -/
def trip (cause : BitVec 2) (unit : Nat) (s : State) : State :=
  { s with
    clk := { s.clk with pllLock := false },
    power := { s.power with
      tripped := true, tripCause := cause, tripUnit := BitVec.ofNat 8 unit, errnTrip := true, pwrcycLow := true } }

/-- One die's sample: its register, and for a Grove die the thermal divider (R748). -/
def sampleDie (o : SensorObs) (s : State) : State :=
  let s1 : State := { s with power := { s.power with sensors := tput s.power.sensors o.die (sensorOf o) {} } }
  if o.die < 4 ∧ o.powered then
    setDividers o.die (max (tget s1.clk.therm o.die 0) (thermalCode o.temp)) (tget s1.clk.cur o.die 0) s1
  else s1

/-- The lowest die whose junction has reached 120 °C (R750). -/
def hotDie (obs : List SensorObs) : Option Nat :=
  (List.range 17).find? (fun d => obs.any (fun o => o.die == d && o.powered && decide (o.temp ≥ 120)))

/-- Every sensor is sampled (R748). (DESIGN CHOICE, log entry 89.) -/
def execSensorSample (obs : List SensorObs) (s : State) : Host.Outcome State Fault Refusal :=
  act s (fun s =>
    let s1 := (obs.filter (fun o => decide (o.die < 17))).foldl (fun s o => sampleDie o s) s
    match hotDie obs with
    | some d => trip 1 d s1
    | none => s1)

/-- VDD_GRVg has stayed above 500 A for 2 µs: the current divider goes up by one, to ÷ 8 at most (R748). -/
def execCurrentLimitRaise (grove : Nat) (s : State) : Host.Outcome State Fault Refusal :=
  actIf s (decide (grove < 4)) (fun s => setDividers grove (tget s.clk.therm grove 0) (min 3 (tget s.clk.cur grove 0 + 1)) s)

/-- A cause has stayed clear for 100,000 ac: its divider goes down by one (R748). -/
def execThrottleLower (grove : Nat) (cause : ThrottleCause) (s : State) : Host.Outcome State Fault Refusal :=
  actIf s (decide (grove < 4)) (fun s =>
    match cause with
    | .thermal => setDividers grove (tget s.clk.therm grove 0 - 1) (tget s.clk.cur grove 0) s
    | .current => setDividers grove (tget s.clk.therm grove 0) (tget s.clk.cur grove 0 - 1) s)

/-- A rail from index 0 to 16 has stayed below its range for 1,000 ac, the supplies being valid (R750, R752, R770). -/
def execUndervoltageTrip (rail : Nat) (s : State) : Host.Outcome State Fault Refusal :=
  actIf s (decide (rail ≤ 16) && s.power.supplies) (trip 2 rail)

/-! ## Gating -/

/-- The state that the gated Groves make: N1 while all four are gated (R62). -/
def gatedState (b : BitVec 4) : PState := if b = 15 then .n1 else .n0

/-- An entry to N2 or N3 is under way and has not reached N2: the Groves gate as their work ends (R64). -/
def enteringN2 (s : State) : Bool :=
  decide (s.power.trans = some .toN2) || decide (s.power.trans = some (.toN3 false))

/-- A Grove that has had no work for N1_IDLE sc gates its clock, 0 disabling it (R62, R76); in an entry to N2 or N3 it gates once it has
none (R64). -/
def execGroveIdleGate (grove : Nat) (s : State) : Host.Outcome State Fault Refusal :=
  actIf s (s.ready && decide (grove < 4) && decide (s.power.st = .n0) && !groveWork grove s &&
      (enteringN2 s || (s.power.trans.isNone && decide (s.power.n1Idle ≠ 0)))) (fun s =>
    let b := s.power.gated ||| BitVec.ofNat 4 (2 ^ grove)
    { s with power := { s.power with gated := b, st := gatedState b } })

/-- Work arrives for a gated Grove: it ungates (R62). -/
def execGroveWorkUngate (grove : Nat) (s : State) : Host.Outcome State Fault Refusal :=
  actIf s (s.ready && decide (grove < 4) && s.awake && (s.power.trans.isNone || enteringN2 s)) (fun s =>
    { s with power := { s.power with gated := s.power.gated &&& ~~~ (BitVec.ofNat 4 (2 ^ grove)), st := .n0 } })

/-! ## Wake -/

/-- Every Grove runs: N0 (R62, R64). -/
def ungateAll (s : State) : State := { s with power := { s.power with st := .n0, gated := 0 } }

/-- The exit from N3 starts: the steps of R69 run as a bring-up on their own path (R671). -/
def startN3Exit (s : State) : State :=
  { s with
    power := { s.power with trans := some .fromN3 },
    boot := { s.boot with stage := .lodge, path := .n3Exit, done := [], setRej := 0, startAc := s.clk.ac } }

/-- The exit path of the deepest state reached (R64, R75). -/
def exitFrom (s : State) : State :=
  match s.power.st with
  | .n2 => { s with power := { s.power with trans := some .fromN2 } }
  | .n3 => startN3Exit s
  | _ => releasePoss 0x11 0 (ungateAll { s with power := { s.power with trans := none, copyWait := false } })

/-- Records wake causes: bits of PW_STATUS.WAKE_CAUSE (R77). -/
def noteWake (bits : Nat) (s : State) : State :=
  { s with power := { s.power with wakeCause := s.power.wakeCause ||| BitVec.ofNat 7 bits } }

/-- A wake source that R73 lists for the states `acts`, by its bit of WAKE_CAUSE: it ungates the Groves in N1, and those that are gated in N0,
starts the exit from N2 or N3, aborts an entry, and during an exit only leaves its bit (R62, R75). -/
def wakeBy (bit : Nat) (acts : PState → Bool) (s : State) : State :=
  match s.power.trans with
  | some .fromN2 => noteWake (2 ^ bit) s
  | some .fromN3 => noteWake (2 ^ bit) s
  | some _ => if acts (if s.power.st = .n2 then .n2 else .n1) then exitFrom (noteWake (2 ^ bit + 64) { s with power := { s.power with copyWait := false } }) else s
  | none =>
    if !acts (if s.power.st = .n0 then .n1 else s.power.st) then s else
    match s.power.st with
    | .n1 => ungateAll (noteWake (2 ^ bit) s)
    | .n2 => exitFrom (noteWake (2 ^ bit) s)
    | .n3 => exitFrom (noteWake (2 ^ bit) s)
    | _ => ungateAll s

/-- States from which a host submission and a write of TARGET = N0 wake (R73). -/
def wakesN12 (p : PState) : Bool := p == .n1 || p == .n2
/-- States from which a Rail wake message and WAKE_N wake (R73). -/
def wakesN123 (p : PState) : Bool := p == .n1 || p == .n2 || p == .n3

/-- A host submission: bit 16 (R73). -/
def wakeSubmit (s : State) : State := wakeBy 0 wakesN12 s

/-- A Rail wake message that arrived on a Lantern's link: in N3 only Lantern 0's trickle link counts (R73). -/
def wakeRail (s : State) : State := wakeBy 2 wakesN123 s

/-- WAKE_N has been low for 10 ac (R73); during an exit it leaves its bit (R75). -/
def execWakeNLow (s : State) : Host.Outcome State Fault Refusal := actIf s (s.ready || s.power.trans.isSome) (wakeBy 3 wakesN123)

/-! ## PW_CTRL.TARGET -/

/-- A write of PW_CTRL reaches the device: during bring-up too, when R640 refuses the entry. (DEDUCED, log entry 87.) -/
def pwWrites (s : State) : Bool := s.live && s.host.mode != .down && !readsOnly s

/-- Records a refused request (R65, R761). -/
def refuseEntry (cause : Byte) (s : State) : State := { s with power := { s.power with refuse := cause } }

/-- TARGET = N0: a wake from N1 or N2; in N0 it ungates every gated Grove (R62, R73, R76). While an entry is under way it is the wake that
aborts it (R73, R75), and not another target that BUSY refuses (R76). (DESIGN CHOICE, log entry 93.) -/
def execPwTargetN0 (s : State) : Host.Outcome State Fault Refusal :=
  actIf s (pwWrites s) (fun s => if !s.ready then s else wakeBy 1 wakesN12 { s with power := { s.power with target := 0 } })

/-- Entries in the states that keep a node out of N2 (R65). -/
def activeEntry (e : Entry) : Bool :=
  e.st == .admitted || e.st == .prefill || e.st == .handoffOut || e.st == .handoffIn || e.st == .decode

/-- The first case of R65 that holds, in the order of R761; the possession of the device's own stay in N2 is none. -/
def entryRefusal (n3 : Bool) (s : State) : Option Byte :=
  let own : Bool := decide (s.power.st = .n2) && s.ft.held.all (fun h => h.activity == 0x11)
  if s.power.trans.isSome then some 0x04
  else if s.tn.switch.isSome then some 0x07
  else if !s.ft.held.isEmpty ∧ !own then some 0x02
  else if !n3 ∧ s.tt.entries.any (fun kv => activeEntry kv.2) then some 0x01
  else if n3 ∧ s.tt.entries.any (fun kv => kv.2.st != .free) then some 0x06
  else if n3 ∧ s.rc.conns.any (fun kv => decide (kv.1 ≠ 0) && kv.2.st != .free) then some 0x03
  else none

/-- The Groves without work, gated. -/
def idleGroves (s : State) : BitVec 4 :=
  BitVec.ofNat 4 (((List.range 4).map (fun g => if s.power.gated.getLsbD g || !groveWork g s then 2 ^ g else 0)).sum)

/-- The chains of waybills end: the last link of each is signed (R263, R268). (DEDUCED, log entry 126.) -/
def chainsEnd (s : State) : State := (List.range s.partitions).foldl (fun s p => chainEnd p s) s

/-- An entry starts: the possession on every domain is held from now, the Groves without work gate at once and the others as theirs ends
(R64, R66); an entry to N3 waits for a flash copy under way (R71), and from N2 on ends the chains (R263). -/
def startEntry (tr : Trans) (target : BitVec 3) (s : State) : State :=
  let s1 := if s.power.st = .n2 then s else holdAll 0x11 s
  let b := if s.power.st = .n2 then 15 else idleGroves s
  let s2 : State := { s1 with power := { s1.power with
      trans := some tr, target, gated := b, copyWait := decide (target = 3) && s1.img.copying.isSome,
      st := if s1.power.st = .n2 then .n2 else gatedState b } }
  if tr = .toN3 true then chainsEnd s2 else s2

/-- TARGET = N2 (R64, R65, R76). (DEDUCED, log entry 87.) -/
def execPwTargetN2 (s : State) : Host.Outcome State Fault Refusal :=
  actIf s (pwWrites s) (fun s =>
    if s.power.trans = some .toN2 ∨ (s.power.st = .n2 ∧ s.power.trans = none) then s
    else match entryRefusal false s with
      | some c => refuseEntry c s
      | none => startEntry .toN2 2 s)

/-- Whether an entry to N3 is under way. -/
def enteringN3 (s : State) : Bool := match s.power.trans with | some (.toN3 _) => true | _ => false

/-- TARGET = N3 (R64, R65, R71, R76). -/
def execPwTargetN3 (s : State) : Host.Outcome State Fault Refusal :=
  actIf s (pwWrites s) (fun s =>
    if enteringN3 s ∨ (s.power.st = .n3 ∧ s.power.trans = none) then s
    else match entryRefusal true s with
      | some c => refuseEntry c s
      | none => startEntry (.toN3 (decide (s.power.st = .n2))) 3 s)

/-- A value of TARGET that R76 does not define (R761). -/
def execPwTargetInvalid (value : BitVec 3) (s : State) : Host.Outcome State Fault Refusal :=
  actIf s (pwWrites s && decide (value ≠ 0) && decide (value ≠ 2) && decide (value ≠ 3)) (refuseEntry 0x05)

/-! ## Reaching N2 and N3, and leaving them -/

/-- The Groves are powered off: Canopy, Understory and Stand registers are lost (R61), but for what ST_CHK counts since the cold reset (R276).
(DEDUCED, log entry 28.) -/
def grovesOff (g : Groves) : Groves :=
  { g with
    slots := [], canopy := [], canopyPoison := [],
    stands := tmap g.stands {} (fun _ x => { physical := x.physical, duty := x.duty, fails := x.fails }) }

/-- N2 is reached once no Grove has work and all four are gated (R61, R64, R67); an entry to N3 goes on from there, and ends the chains
(R64, R263). -/
def execN2EntryComplete (s : State) : Host.Outcome State Fault Refusal :=
  actIf s (enteringN2 s && decide (s.power.st = .n1)) (fun s =>
    let n3 := decide (s.power.trans = some (.toN3 false))
    let s1 : State := { s with
      groves := grovesOff s.groves,
      power := { s.power with st := .n2, gated := 15, trans := if n3 then some (.toN3 true) else none } }
    if n3 then chainsEnd s1 else s1)

/-- A Lantern in N3: only Lantern 0 keeps a link, its v3 link as a trickle link under trickle keys if it was up (R61, R516). -/
def lanternN3 (me n : Nat) (enabled : Bool) (x : Lantern) : Lantern :=
  let dark : Link := { st := if enabled then .down else .disabled }
  let l0 := tget x.links 0 {}
  if n = 0 ∧ l0.up then
    { links := tput (tput [] 0 (l0.toTrickle me 0) {}) 1 dark {},
      lanes := tput [] 0 { st := .trickle } {}, keySlot := x.keySlot }
  else { links := tput (tput [] 0 dark {}) 1 dark {} }

/-- The contents of the device in N3: the Lodge's state and the items R70 names stay, the rest is off (R61, R70, R72, R270,
R450, R526). -/
def haltContents (s : State) : State :=
  let enabled (n : Nat) : Bool := match s.img.image with | some i => i.lanterns.getLsbD n | none => false
  { s with
    groves := { phys := s.groves.phys, stands := (grovesOff s.groves).stands },
    waybill := { chains := tmap s.waybill.chains {} (fun _ c => { overwrite := c.overwrite }) },
    mem := {}, sleeper := {}, tt := {},
    ddr := { (undeclareAll s.ddr) with tenants := [], hostReject := 0, ce := 0, ue := 0, macFail := 0, refused := 0, evictions := 0, stall := [] },
    rail := { s.rail with
      lanterns := (List.range 8).foldl (fun t n => tput t n (lanternN3 s.me n (enabled n) (s.lantern n)) {}) [],
      liveMiss := s.rail.liveMiss,
      peers := tmap s.rail.peers {} (fun _ p => { p with misses := 0, beat := false }) },
    rc := { conns := tput [] 0 (s.conn 0) {}, mgmtDone := s.rc.mgmtDone },
    ho := {}, cs := {},
    ft := { s.ft with ctxs := [], sems := [], slots := [] },
    img := { s.img with staged := none, draining := false } }

/-- N3 is reached, the flash copy having ended, nothing being in flight and the chains' ends being signed: the host port is reset, SCK stops
(R58, R61, R70, R71, R74, R263). -/
def execN3EntryComplete (s : State) : Host.Outcome State Fault Refusal :=
  actIf s (decide (s.power.trans = some (.toN3 true)) && !s.power.copyWait && s.work.isEmpty && s.waybill.signing.isNone) (fun s =>
    let s1 := haltContents (portReset s)
    { s1 with
      clk := { s1.clk with n3Sc := s1.clk.sc, n3Ac := s1.clk.ac, pllLock := false },
      power := { s1.power with st := .n3, trans := none, gated := 15 } })

/-- N0 is reached from N2: the possession ends (R64, R66, R68). -/
def execN2ExitComplete (s : State) : Host.Outcome State Fault Refusal :=
  actIf s (decide (s.power.trans = some .fromN2)) (fun s =>
    releasePoss 0x11 0 (ungateAll { s with power := { s.power with trans := none } }))

/-- N0 is reached from N3 once the steps of R69 have ended (R64, R66). -/
def execN3ExitComplete (s : State) : Host.Outcome State Fault Refusal :=
  actIf s (decide (s.power.trans = some .fromN3) && s.boot.done.contains .x6) (fun s =>
    releasePoss 0x11 0 (ungateAll { s with power := { s.power with trans := none } }))

/-! ## Supplies -/

/-- Power is applied: a cold reset (R639). What the fuses and the flash hold stays, and so do the pins. (DEDUCED, log entry 26.) -/
def execPowerApplied (s : State) : Host.Outcome State Fault Refusal :=
  .next (if s.power.st = .off then
    { State.reset with
      fuses := s.fuses, flash := s.flash, free := s.free, out := s.out, pending := s.pending,
      power := { State.reset.power with perstLow := s.power.perstLow },
      rail := { State.reset.rail with inc := s.flash.incarnation } }
  else s)

/-- Everything but the fuses and the flash is lost (R753, R770). -/
def goOff (s : State) : State :=
  { State.reset with
    fuses := s.fuses, flash := s.flash, free := s.free, out := s.out, pending := s.pending,
    power := { State.reset.power with st := .off, perstLow := s.power.perstLow },
    ft := { State.reset.ft with held := [] } }

/-- The supplies are removed (R753). -/
def execPowerRemoved (s : State) : Host.Outcome State Fault Refusal := .next (s.kept (goOff s))

/-- VDD_AON falls below its range: as if power had been removed (R770). -/
def execAonSupplyLoss (s : State) : Host.Outcome State Fault Refusal := .next (s.kept (goOff s))

/-- VDDIO_SB falls below its range: the levels on the sideband lands are undefined, nothing else changes (R770). -/
def execSidebandSupplyLoss (s : State) : Host.Outcome State Fault Refusal :=
  act s (fun s => { s with power := { s.power with sideband := false } })

/-- The last rail of group 4 enters its range (R752). -/
def execSuppliesValid (s : State) : Host.Outcome State Fault Refusal :=
  act s (fun s => { s with power := { s.power with supplies := true, sideband := true } })

/-- The root PLL locks (R51); after a stay in N3 the sc count is first set to what the ac count says (R58). -/
def execPllLock (s : State) : Host.Outcome State Fault Refusal :=
  actIf s (s.power.supplies && !s.clk.pllLock) (fun s => { s with clk := { s.clk with
    pllLock := true, sc := if s.clk.n3Ac = 0 then s.clk.sc else scAfterN3 s.clk, n3Sc := 0, n3Ac := 0 } })

/-- A write of CK_SNAP captures both counts in one AON cycle (R57). -/
def execCkSnap (s : State) : Host.Outcome State Fault Refusal :=
  actIf s (writes 0 s) (fun s => { s with clk := { s.clk with snapSc := BitVec.ofNat 64 s.clk.sc, snapAc := BitVec.ofNat 64 s.clk.ac } })

/-! ## Pins and the host link -/

/-- PERST_N is asserted: a host-port reset (R123). -/
def execPerstNAssert (s : State) : Host.Outcome State Fault Refusal :=
  act s (fun s => portReset { s with power := { s.power with perstLow := true } })

/-- PERST_N is deasserted: it wakes the device from N3 (R73). -/
def execPerstNDeassert (s : State) : Host.Outcome State Fault Refusal :=
  actIf s s.power.perstLow (fun s => wakeBy 4 (fun p => p == .n3) { s with power := { s.power with perstLow := false } })

/-- A hot reset of the host link (R123). -/
def execHostHotReset (s : State) : Host.Outcome State Fault Refusal := act s portReset

/-- The host link goes down (R123). -/
def execHostLinkDown (s : State) : Host.Outcome State Fault Refusal := act s portReset

/-- The mode of a link that has come up (R78). -/
def linkMode (o : LinkOffer) : LinkMode :=
  let fast := decide (o.rate = 320 ∨ o.rate = 160)
  let wide := decide (o.width = 16 ∨ o.width = 8)
  if o.cxl = .cxl20 ∧ fast ∧ wide then .cxl2
  else if o.cxl = .cxl11 ∧ fast ∧ wide then .cxl1
  else if (fast || decide (o.rate = 80)) && (wide || decide (o.width = 4)) then .pcie
  else .degraded

/-- HI_LINK.RATE and WIDTH (R81). -/
def rateCode (r : Nat) : BitVec 3 := if r = 320 then 4 else if r = 160 then 3 else if r = 80 then 2 else if r = 50 then 1 else 0
def widthCode (w : Nat) : BitVec 3 := if w = 16 then 4 else if w = 8 then 3 else if w = 4 then 2 else if w = 2 then 1 else 0

/-- The host port can train: Y0 is powered, PERST_N is deasserted, and the device is not in N3 (R641, R69). -/
def portPowered (s : State) : Bool :=
  s.live && !s.power.perstLow && decide (s.power.st ≠ .n3) && decide (s.boot.stage ≠ .lodge) && decide (s.boot.stage ≠ .porters)

/-- The host link comes up: the mode is chosen, and every HI_ register but HI_LINK and HI_LOST_CPL holds its reset value (R78,
R81, R123). -/
def execHostLinkUp (offer : LinkOffer) (s : State) : Host.Outcome State Fault Refusal :=
  actIf s (portPowered s && decide (s.host.mode = .down)) (fun s =>
    { s with host := { resetHi s.host with
        mode := linkMode offer, rate := rateCode offer.rate, width := widthCode offer.width, linkups := satBv s.host.linkups 1 } })

/-- Host-visible regions at their BAR2 offsets, in the image's order (R84, R143). -/
def placeWindow : Nat → List Region → List (Nat × Region)
  | _, [] => []
  | o, r :: rest => if r.flags.getLsbD 0 then (o, r) :: placeWindow (o + ceilDiv r.size 0x200000 * 0x200000) rest else placeWindow o rest

/-- The regions of the window. -/
def window (s : State) : List (Nat × Region) := placeWindow 0 (match s.img.image with | some i => i.regions | none => [])

/-- The smallest power of two that is at least 2 MiB and at least n; 2^40 bounds the stacks. -/
def barSize (n : Nat) : Nat := ((List.range 20).map (fun k => 2 ^ (21 + k))).find? (fun b => decide (n ≤ b)) |>.getD (2 ^ 41)

/-- The size of BAR2 (R84). -/
def bar2Size (s : State) : Nat := barSize ((window s).foldl (fun n x => max n (x.1 + x.2.size)) 0)

/-- What a function advertises (R79, R82, R84, R89). -/
def capsOf (fn : Nat) (s : State) : Caps :=
  { cxlType := 2, flitBytes := 68, hdmDecoders := 1, ats := false, pri := false, pasid := false,
    bar0 := if fn = 0 then 0x10000000 else 0, bar2 := if fn = 0 then bar2Size s else 0,
    totalVfs := if fn = 0 ∧ (s.host.mode = .cxl2 ∨ s.host.mode = .pcie) then 16 else 0, vfBar0 := 0x400000 }

/-- Sends the pending messages of the vectors a function may now send (R121). -/
def sendPending (f : Nat) (s : State) : State :=
  if !(s.fn f).msixEn || (s.fn f).fmask then s else
  (List.range (vectorCount f)).foldl (fun s v =>
    let n := vectorOf f v
    let m := tget s.host.msix n {}
    if m.pend && !m.mask then
      ({ s with host := { s.host with msix := tput s.host.msix n { m with pend := false } {} } } : State).emit (.msix n)
    else s) s

/-- What a configuration request writes: the base of the HDM-D decoder, which the physical function carries, or MSI-X Enable and Function
Mask (R86, R121). -/
def cfgWrite (fn : Nat) (op : CfgOp) (s : State) : State :=
  match op with
  | .read => s
  | .hdmBase b => if fn = 0 ∧ cxlMode s = true then { s with host := { s.host with hdmBase := b } } else s
  | .msix en mask => sendPending fn (s.modFn fn (fun r => { r with msixEn := en, fmask := mask }))

/-- A function answers configuration requests: the physical one, and virtual ones while they exist (R78, R89). -/
def answers (fn : Nat) (s : State) : Bool :=
  fn == 0 || (s.host.vfEnable && decide (fn ≤ s.host.numVfs) && (s.host.mode == .cxl2 || s.host.mode == .pcie))

/-- A configuration request: Retry Status until READY, and after FAILED or READY it completes (R641, R646). -/
def execConfigRequest (req : CfgReq) (s : State) : Host.Outcome State Fault Refusal :=
  actIf s (decide (s.host.mode ≠ .down)) (fun s =>
    if !(s.boot.stage = .ready ∨ s.boot.stage = .failed) then s.emit (.cfgRetry req.fn)
    else if !answers req.fn s then s.emit .unsupportedRequest
    else (cfgWrite req.fn req.op s).emit (.cfgOk req.fn (capsOf req.fn s)))

end Sys2Proof.Machine
end

