-- ==== Sys2Proof/Machine/RailFrames.lean ====
section
/-! DEFINITION. DATA frames: delivered, cut through or stored (R498, R506 to R510, R539, R551 to R554); WAKE frames (R518);
heartbeats, the liveness detector and a death with all its consequences (R519 to R526, R568, R600, R607); remote read
timeouts (R562). -/

namespace Sys2Proof.Machine

/-! ## Local delivery -/

/-- A response or acknowledgement is accepted: it is counted, and acknowledged where R551 asks for it. -/
def takePacket (num src : Nat) (p : Packet) (ack : Bool) (s : State) : State :=
  let s1 := railUse num (dataLen p) { s with rc := { s.rc with rxPkts := s.rc.rxPkts + 1 } }
  if ack then ackPacket num src p.srcConn p.srcInc p.mseq p.offset s1 else s1

/-- A request addressed to this node that needs the Groves: it reads or writes their HBM, or offers a request (R63). (DESIGN CHOICE, log entry
102.) -/
def needsGroves (p : Packet) : Bool :=
  match p.op.toNat with
  | 1 | 2 | 3 | 5 | 6 => true
  | 12 => (match p.ctl with | some m => m.ctype == 0x01 | none => false)
  | _ => false

/-- In N2, and while it is entered or left, such a request wakes the node, and waits for its effect until the node is awake (R63). -/
def wakeFor (p : Packet) (s : State) : State :=
  if needsGroves p ∧ (s.power.st = .n2 ∨ s.power.trans.isSome) then wakeRail s else s

/-- A packet addressed to this node (R544, R551 to R553, R562). -/
def deliverPacket (lantern src : Nat) (p : Packet) (s : State) : State :=
  let num := p.dstConn
  if p.op = 10 then (if deadInc src p.srcInc s then { s with rc := { s.rc with stale := s.rc.stale + 1 } } else rxHello src p s)
  else if !acceptable num src p s then { s with rc := { s.rc with stale := s.rc.stale + 1 } }
  else match p.op.toNat with
    | 4 => let s1 := takePacket num src p true s
           if num = 0 then pageResp lantern src p s1 else readResp num p s1
    | 7 => atomicResp num p (takePacket num src p true s)
    | 8 => ackResp num p (takePacket num src p false s)
    | 9 => let s1 := takePacket num src p false s
           nakResp num p (if num = 0 then pageNak src p s1 else s1)
    | 11 => rxClose num src p (takePacket num src p false s)
    | 1 | 2 | 3 | 5 | 6 | 12 => rxMessage num src p (wakeFor p s)
    | _ => s

/-! ## DATA frames -/

/-- The egress on which a frame from a v3 link would be cut through (R505, R507): a v3 link, its class eligible, its queue empty. -/
def cutEgress (l : Nat) (f : Frame) (s : State) : Option Nat :=
  if l ≠ 0 ∨ f.dst = s.me ∨ f.hops ≤ 1 ∨ trickleTo f.dst s ∨ !forwards s then none else
    match routeFor f.dst (match f.payload with | .packet p => p.path | _ => 0) s with
    | some (n, 0) => if (qHead n 0 f.cls s).isNone && admits n 0 f.cls f s && !passedOver n 0 f.cls s && !(s.link n 0).genSpent then some n else none
    | _ => none

/-- Whether a frame failed check 1, 3 or 5 of R498 (R509). -/
def copyBad (n : Nat) (s s' : State) : Bool :=
  let a := s.lantern n
  let b := s'.lantern n
  decide (a.fecUncorr < b.fecUncorr) || decide (a.crcFail < b.crcFail) || decide (a.authFail < b.authFail)

/-- A stomped copy leaves an egress: framed for it as any frame, with the inverted CRC, and no number is consumed (R509). -/
def stompOut (n l : Nat) (f : Frame) (s : State) : State :=
  let k := s.link n l
  let g := { f with version := linkVersion l k.st, fseq := k.txSeq, ackSeq := k.rxSeq }
  s.emit (.frame n l g (wireOf s.me k g true) true)

/-- Counts a frame of a Lantern. -/
def dropFrame (n : Nat) (s : State) : State := s.modLantern n (fun x => { x with dropped := x.dropped + 1 })

/-- Stores a transit frame in a Platform unit of its class (R506, R508). -/
def storeFrame (n l : Nat) (f : Frame) (s : State) : State :=
  let key := creditKey f
  let s1 := (s.modLantern n (fun x => { x with stored := x.stored + 1 })).modLink n l (fun k => { k with given := tmod k.given key 0 (· + 1) })
  let s2 := forwardStored f (some (2 * n + l, key)) s1
  if key < 8 then pfTouch (lanternStation n) key s2 else s2

/-- A DATA frame (R498, R506 to R510): checked; delivered here, or passed on with one hop less, cut through where R507 allows. -/
def execDataFrame (lantern link : Nat) (f : Frame) (obs : FrameObs) (s : State) : Host.Outcome State Fault Refusal :=
  actIf s (listens lantern link s && typeIs 1 f) (fun s =>
    let cut := cutEgress link f s
    let r := rxFrame lantern link true f obs s
    let out := { f with hops := f.hops - 1 }
    if !r.1 then
      match cut with
      | some n => if copyBad lantern s r.2 then stompOut n 0 out r.2 else r.2
      | none => r.2
    else if f.dst = s.me then
      match f.payload with
      | .packet p => deliverPacket lantern f.src p r.2
      | _ => r.2
    else if !forwards s then r.2
    else if f.hops ≤ 1 then dropFrame lantern r.2
    else match cut with
      | some n => seqOut n 0 { frame := out } (r.2.modLantern lantern (fun x => { x with cutThrough := x.cutThrough + 1 }))
      | none => storeFrame lantern link out r.2)

/-- A WAKE frame: it wakes this node, in N3 over the trickle link only, or is passed on (R73, R518). -/
def execWake (lantern link : Nat) (f : Frame) (obs : FrameObs) (s : State) : Host.Outcome State Fault Refusal :=
  actIf s (listens lantern link s && typeIs 7 f) (fun s =>
    let r := rxFrame lantern link true f obs s
    if !r.1 then r.2
    else if f.dst = s.me then (if s.power.st ≠ .n3 ∨ (lantern = 0 ∧ link = 0) then wakeRail r.2 else r.2)
    else if !forwards s then r.2
    else if f.hops ≤ 1 then dropFrame lantern r.2
    else storeFrame lantern link { f with hops := f.hops - 1 } r.2)

/-! ## Death of a node (R524, R568) -/

/-- What ends on the management connection with a node: messages to it, messages from its dead incarnation, remote page accesses,
SENDs (R537, R544, R562, R581). -/
def mgmtDead (n : Nat) (inc : W32) (s : State) : State :=
  let gone := (s.conn 0).unacked.filter (fun t => t.dst == n)
  let s1 := s.modConn 0 (fun c => { c with
    unacked := c.unacked.filter (fun t => t.dst != n), txq := c.txq.filter (fun t => t.1 != n),
    rx := c.rx.filter (fun m => !(m.src == n && m.srcInc == inc)) })
  let s2 := gone.foldl (fun s t => copyAcked t.pkt.mseq (some .peerDead) s) s1
  let s3 := ((s2.conn 0).queue.filterMap s2.item).foldl (fun s w => if reqDst w s = n then finishReq 0 w .peerDead 0 s else s) s2
  let s4 := (openRemote (fun r => r.region == n) s3).foldl (fun s r => pageLost r .peerDead s) s3
  pump 0 (s4.conn 0).txq.length s4

/-- The Timetable's response to a death (R382, R388, R414, R590, R600, R607, R608). -/
def timetableDead (n : Nat) (s : State) : State :=
  let s1 := (s.tt.entries.map Prod.fst).foldl (fun s i =>
    let e := s.entry i
    if e.st = .stub ∧ e.node = n then
      let s1 := e.fwd.foldl (fun s a => cancelDone a.1 a.2 0x32 e.reqId e.epoch s) s
      let s2 := (s1.work.filter (fun w => w.prog == .forwarded i)).foldl (fun s w => complete w .peerDead 0 s) s1
      toLost i 0x41 s2
    else if (e.st = .handoffIn ∧ e.node = n) ∨ (e.accepting = true ∧ e.fromNode = n) then partnerLost i s
    else if e.st = .handoffOut ∧ e.node = n then resolveKept i 0x32 .peerDead 0 s
    else s) s
  raceUnresolved n s1

/-- Declares the incarnation the detector holds of a node dead, in the order of R524. (DEDUCED, log entry 62.) -/
def declareDead (n : Nat) (s : State) : State :=
  let inc := (s.peer n).inc
  let s1 := revokeNow (fun x => x.peerValid && x.peer == n && x.peerInc == inc) s
  let cs := (s1.rc.conns.filter (fun kv => decide (kv.1 ≠ 0) && kv.2.peerNode == n &&
    ((kv.2.st == .opening) || ((kv.2.st == .opened || kv.2.st == .closing) && kv.2.peerInc == inc)))).map Prod.fst
  let s2 := mgmtDead n inc (cs.foldl (fun s c => connError c .peerDead s) s1)
  let s3 := s2.modPeer n (fun p => { p with st := .dead, deaths := satBv p.deaths 1, beat := false })
  timetableDead n (event 0 0x0603 (n + inc.toNat * 2 ^ 32) s3)

/-! ## Heartbeats -/

/-- Queues a control frame toward a node, on its route or the trickle link (R517, R520). -/
def routeCtl (f : Frame) (s : State) : State :=
  if s.power.st = .n3 ∨ trickleTo f.dst s then enqueueCtl 0 0 f s
  else match routeFor f.dst 0 s with
    | some (n, l) => enqueueCtl n l f s
    | none => s

/-- The node sends NODE_HB to every node of its watch set (R520). -/
def execNodeHbSend (s : State) : Host.Outcome State Fault Refusal :=
  actIf s (s.rail.nodeSet && decide (s.boot.stage ≠ .failed)) (fun s =>
    ((List.range 128).filter (fun n => watched n s)).foldl (fun s n => routeCtl (ownFrame s 5 n (.nodeHb s.me s.rail.inc)) s) s)

/-- DEAD_NOTICE to a node (R522). -/
def sendDeadNotice (n : Nat) (s : State) : State := forwardStored (ownFrame s 6 n .none) none s

/-- A node returns under a higher incarnation (R522, R529). -/
def rejoin (n : Nat) (i : W32) (s : State) : State :=
  event 0 0x0604 (n + i.toNat * 2 ^ 32) (s.modPeer n (fun p => { p with inc := i, st := .alive, misses := 0, beat := true }))

/-- The detector takes a heartbeat (R522). -/
def nodeBeat (n : Nat) (i : W32) (s : State) : State :=
  let p := s.peer n
  if !watched n s ∨ i.toNat < p.inc.toNat then s
  else if p.st = .unwatched then
    if p.inc ≠ 0 ∧ p.inc.toNat < i.toNat then rejoin n i (declareDead n s)
    else s.modPeer n (fun p => { p with inc := i, st := .alive, misses := 0, beat := true })
  else if i = p.inc ∧ p.st = .dead then sendDeadNotice n s
  else if p.inc.toNat < i.toNat then rejoin n i (if p.st = .alive ∨ p.st = .suspect then declareDead n s else s)
  else s.modPeer n (fun p => { p with st := .alive, beat := true })

/-- NODE_HB (R498, R520, R522): the detector takes one for this node; another is passed on like a class 0 frame. The detector of a
node in N3 is stopped (R526). -/
def execNodeHb (lantern link : Nat) (f : Frame) (obs : FrameObs) (s : State) : Host.Outcome State Fault Refusal :=
  actIf s (listens lantern link s && typeIs 5 f) (fun s =>
    let r := rxFrame lantern link false f obs s
    if !r.1 then r.2
    else if f.dst = s.me then
      match f.payload with
      | .nodeHb n i => if s.power.st = .n3 ∨ n ≥ 128 then r.2 else nodeBeat n i r.2
      | _ => r.2
    else if !forwards s then r.2
    else if f.hops ≤ 1 then dropFrame lantern r.2
    else routeCtl { f with hops := f.hops - 1 } r.2)

/-- One node at the end of a period (R522). -/
def periodOf (n : Nat) (s : State) : State :=
  let p := s.peer n
  if !watched n s ∨ ¬ (p.st = .alive ∨ p.st = .suspect) then s.modPeer n (fun p => { p with beat := false })
  else if p.beat then s.modPeer n (fun p => { p with misses := 0, beat := false })
  else
    let s1 := s.modPeer n (fun p => { p with misses := min 255 (p.misses + 1), st := .suspect })
    if p.misses + 1 ≥ max 2 s.rail.liveMiss.toNat then declareDead n s1 else s1

/-- The detector's period ends (R522, R526). -/
def execLivenessPeriod (s : State) : Host.Outcome State Fault Refusal :=
  actIf s (forwards s) (fun s => (List.range 128).foldl (fun s n => periodOf n s) s)

/-! ## DEAD_NOTICE (R519, R576) -/

/-- The states that R576 takes to LOST. -/
def TtState.loses (st : TtState) : Bool := st.owner || st == .handoffIn || st == .stub

/-- One entry under R576: what waited for it completes, and it goes LOST with PEER_DEAD. -/
def loseEntry (i : Nat) (s : State) : State :=
  let e := s.entry i
  if !e.st.loses then s else
    let x := senderOf e
    let s1 := match x.wid with | some w => completeWid w .peerDead 0 s | none => s
    let s2 := (s1.work.filter (fun w => w.prog == .forwarded i)).foldl (fun s w => complete w .peerDead 0 s) s1
    let s3 : State := { s2 with tt := { s2.tt with steps := tmap s2.tt.steps none (fun _ o => o.map (fun st =>
      { st with seqs := st.seqs.map (fun q => if q.entry = i then { q with gone := true, status := .peerDead } else q) })) } }
    failWaiting i (x.cancels.foldl (fun s w => completeWid w .malformed 0x04 s) (toLost i 0x32 s3))

/-- This node has been declared dead: it takes a new incarnation, and everything R576 names ends. -/
def newIncarnation (s : State) : State :=
  let s1 : State :=
    { s with
      rail := { s.rail with inc := s.rail.inc + 1 },
      flash := { s.flash with incarnation := s.flash.incarnation + 1 } }
  let s2 := (s1.tt.entries.map Prod.fst).foldl (fun s i => loseEntry i s) s1
  let s3 := ((s2.rc.conns.filter (fun kv => decide (kv.1 ≠ 0) && kv.2.st != .free && kv.2.st != .error)).map Prod.fst).foldl
    (fun s c => connError c .peerDead s) s2
  event 0 0x0605 (s3.rail.inc.toNat * 2 ^ 32) s3

/-- DEAD_NOTICE (R498, R519): one for another node is passed on. -/
def execDeadNotice (lantern link : Nat) (f : Frame) (obs : FrameObs) (s : State) : Host.Outcome State Fault Refusal :=
  actIf s (listens lantern link s && typeIs 6 f) (fun s =>
    let r := rxFrame lantern link true f obs s
    if !r.1 then r.2
    else if f.dst = s.me then newIncarnation r.2
    else if !forwards s then r.2
    else if f.hops ≤ 1 then dropFrame lantern r.2
    else storeFrame lantern link { f with hops := f.hops - 1 } r.2)

/-! ## Remote read timeouts (R562, R563) -/

/-- An RL_READ, an RL_ATOMIC or the oldest remote page read of an operation exceeds RL_TIMEOUT: poison, REMOTE_TIMEOUT, the fault of
source 0x06. (DEDUCED, log entry 63.) -/
def execRlTimeoutExpire (wid : Nat) (s : State) : Host.Outcome State Fault Refusal :=
  act s (fun s => match s.item wid with
    | none => s
    | some w =>
      let s1 : State := { s with rc := { s.rc with timeouts := s.rc.timeouts + 1 } }
      if reads w ∧ (railOf w).issued then
        let num := connOf w
        let c := s.conn num
        let r := raiseErr { cls := 2, source := 0x06, domain := 20 + connStation num, cause := 0x33, detail0 := c.peerNode + 65536 * num,
                            detail1 := connStation num, ctx := some w.context, tenant := w.tenant, part := w.part, who := w.fn,
                            waits := [.work wid] } s1
        tryClose num (finishReq num w .remoteTimeout ((railOf w).got.map Prod.snd).sum (poisonRest w r.1) r.2)
      else match openRemote (fun r => r.forw.wid == wid) s1 with
        | rd :: _ => pageLost rd .remoteTimeout s1
        | [] => s)

end Sys2Proof.Machine
end

