-- ==== Sys2Proof/Machine/Structure.lean ====
section
/-! DEFINITION. What an image and a bring-up lay out: the logical-to-physical map (R656 to R659, R665, R666), duties (R136, R138),
HBM cleared but for KEEP regions (R173), Lanterns enabled, disabled and re-split (R174, R491, R515, R758), STUBs kept (R175,
R391), mappings removed (R176, R717), chains ended and started (R263). -/

namespace Sys2Proof.Machine

/-! ## The map -/

/-- The physical Stands of a Grove that may not hold work (R657). -/
def badStands (g : Nat) (s : State) : List Nat :=
  (List.range 100).filter (fun p => s.fuses.fusedBad.any (· == (g, p)) || s.flash.retired.any (· == (g, p)) ||
    s.boot.failTest.any (· == (g, p)))

/-- GV_PHYS.STATE of a Stand that may not hold work (R656). -/
def badState (g p : Nat) (s : State) : PhysState :=
  if s.fuses.fusedBad.any (· == (g, p)) then .fusedBad
  else if s.flash.retired.any (· == (g, p)) then .retired
  else .failedTest

/-- A map being built: what each logical ID has, the Stands still free, the entries ignored. -/
structure MapWork where
  map  : List (Nat × Option Nat)
  free : List Nat
  rej  : Nat
deriving DecidableEq, Repr

/-- One override entry (R657). -/
def mapOverride (m : MapWork) (e : Nat × Nat × Nat) : MapWork :=
  if e.2.2 = 255 then { m with map := m.map ++ [(e.2.1, none)] }
  else if m.free.any (· == e.2.2) then { m with map := m.map ++ [(e.2.1, some e.2.2)], free := m.free.filter (· != e.2.2) }
  else { m with rej := m.rej + 1 }

/-- The default fill of one logical ID (R657). -/
def mapFill (m : MapWork) (l : Nat) : MapWork :=
  if m.map.any (fun x => x.1 == l) then m else
  match m.free with
  | [] => { m with map := m.map ++ [(l, none)] }
  | p :: r => { m with map := m.map ++ [(l, some p)], free := r }

/-- The map of a Grove from its override entries (R657). -/
def buildGrove (bad : List Nat) (ovr : List (Nat × Nat × Nat)) : MapWork :=
  (List.range 96).foldl mapFill (ovr.foldl mapOverride { map := [], free := (List.range 100).filter (fun p => !bad.any (· == p)), rej := 0 })

/-- The map of a Grove in floor-plan mode (R665): logical n is physical n, for the 96 lowest good Stands. -/
def buildFloorplan (bad : List Nat) (ovr : List (Nat × Nat × Nat)) : MapWork :=
  let good := (List.range 100).filter (fun p => !bad.any (· == p))
  { map := (good.take 96).map (fun p => (p, some p)), free := good.drop 96, rej := ovr.length }

/-- The physical Stands of a Grove after a build: a Stand with no logical ID is SPARE, four of them at most, or UNUSED (R656,
R657); in floor-plan mode there is no spare (R667). -/
def physAfter (g : Nat) (m : MapWork) (floor : Bool) (s : State) (p : Nat) : Phys :=
  match m.map.find? (fun x => x.2 == some p) with
  | some x => { st := .active, logical := some x.1 }
  | none =>
    if badStands g s |>.any (· == p) then { st := badState g p s }
    else { st := if !floor ∧ (m.free.take 4).any (· == p) then .spare else .unused }

/-- A Grove's map takes effect (R657). -/
def installMap (g : Nat) (m : MapWork) (s : State) : State :=
  let floor := s.boot.floor
  { s with
    boot := { s.boot with ovrRej := satBv s.boot.ovrRej m.rej },
    groves := { s.groves with
      phys := (List.range 100).foldl (fun t p => tput t (100 * g + p) (physAfter g m floor s p) {}) s.groves.phys,
      stands := (List.range 100).foldl (fun t l => tmod t (100 * g + l) {} (fun x =>
        { x with physical := (m.map.find? (fun y => y.1 == l)).bind (fun y => y.2) })) s.groves.stands } }

/-- The flash copy of an image, if it is valid (R177); `m` is the firmware manifest in force. -/
def flashImage (s : State) : Option Image :=
  match s.flash.image with
  | none => none
  | some b => match validateImage s b b.length, checkFirmware s.flash.active (parseImage b) 0 with
    | none, none => some (parseImage b)
    | _, _ => none

/-- The map is built, Grove by Grove, from the overrides of the image that is about to be applied; no override waits then (R657,
R665). -/
def buildMap (s : State) : State :=
  let ovr := match flashImage s with | some i => i.overrides | none => []
  let s0 : State := { s with boot := { s.boot with ovrRej := 0, floor := s.flash.floorplan, mapped := true }, img := { s.img with ovrPend := false } }
  (List.range 4).foldl (fun s g =>
    let mine := ovr.filter (fun e => e.1 == g)
    installMap g ((if s.boot.floor then buildFloorplan else buildGrove) (badStands g s) mine) s) s0

/-- The duty of a logical Stand under an image: byte 96g + l, or in floor-plan mode the byte of its place among the ACTIVE
Stands (R136, R666). -/
def dutyOf (i : Image) (g l : Nat) (s : State) : Nat :=
  if s.boot.floor then
    nth i.duties (96 * g + ((List.range l).filter (fun k => (s.stand g k).physical.isSome)).length) 0
  else nth i.duties (96 * g + l) 0

/-- Every Stand takes its duty from the image (R136, R138). -/
def setDuties (i : Image) (s : State) : State :=
  (List.range 4).foldl (fun s g => (List.range 100).foldl (fun s l =>
    s.modStand g l (fun x => { x with duty := if x.physical.isSome then dutyOf i g l s else 0 })) s) s

/-! ## HBM -/

/-- A KEEP region of the new image that the image in force holds in the same place (R173). -/
def keptRegion (old : Option Image) (r : Region) : Bool :=
  r.flags.getLsbD 2 && (match old with
    | none => false
    | some i => i.regions.any (fun o => o.id == r.id && o.kind == r.kind && o.grove == r.grove && o.stackSel == r.stackSel &&
        o.offset == r.offset && o.size == r.size))

/-- The regions of a new image that keep their contents. -/
def keptRegions (old : Option Image) (new : Image) : List Region := new.regions.filter (keptRegion old)

/-- HBM is cleared but for the regions kept; the measurements of the others go, and their indexes are unloaded (R172, R173, R274,
R623). -/
def clearForImage (kept : List Region) (idx : Bool) (s : State) : State :=
  let isKept (id : Nat) : Bool := kept.any (fun r => r.id == id)
  { s with
    mem := { clearHbm (fun a => !kept.any (fun r => inRegion r a)) s.mem with pools := [] },
    waybill := { s.waybill with
      measure := s.waybill.measure.filter (fun kv => isKept kv.1), measuring := s.waybill.measuring.filter isKept },
    cs := { s.cs with index := if idx then s.cs.index.filter (fun kv => isKept kv.1) else [] },
    tn := { s.tn with retained := kept.map (fun r => r.id) } }

/-! ## Scrubbed SRAM -/

/-- Canopy, Understory and Stand registers are scrubbed (R172, R229). The counters that the ST_ blocks hold run on: the spec does not say
whether they are among the registers scrubbed. (DESIGN CHOICE, log entry 96.) -/
def scrubGroves (g : Groves) : Groves :=
  { g with
    slots := [], canopy := [], canopyPoison := [],
    stands := tmap g.stands {} (fun _ x => { x with busy := false, resident := [] }) }

/-! ## Lanterns -/

/-- A Lantern that an image disables goes dark (R491). -/
def disableLantern (n : Nat) (s : State) : State :=
  (List.range 2).foldl (fun s l => setLanes n l (fun _ => .down) (linkStop n l .disabled 0 s)) s

/-- The lanes of a running Lantern whose V2_LANES bit changes leave their old link and train alone in the new mode, under the
load's own possessions (R172, R174). -/
def changeLanes (n : Nat) (old new : BitVec 16) (s : State) : State :=
  (List.range 16).foldl (fun s k =>
    if old.getLsbD k = new.getLsbD k then s else
    let l := b2n (old.getLsbD k)
    let run := laneRuns n k s
    let s1 := s.modLane n k (fun x => { x with st := if run then .training else x.st })
    if !(s.link n l).up ∨ !run then s1
    else if (s.link n l).lanesUp ≤ 1 then linkDown n l .down 0x01 s1
    else s1.modLink n l (fun k => { k with lanesUp := k.lanesUp - 1 })) s

/-- The class table of a new image takes effect: deficits and run counts return to 0, queued frames stay (R515); the optical
thresholds are set (R758). -/
def newTable (n : Nat) (s : State) : State :=
  ((s.modLink n 0 (fun k => { k with deficit := [], inVisit := false })).modLink n 1 (fun k => { k with deficit := [], inVisit := false })).modLantern n
    (fun x => { x with los := 0xFD44, warn := 0xFE0C })

/-- A link of an enabled Lantern leaves DISABLED (R491). (DEDUCED, log entry 35.) -/
def enableLink (n l : Nat) (s : State) : State :=
  if (s.link n l).st = .disabled then s.modLink n l (fun k => { k with st := .down }) else s

/-- After a change of its lanes a link is whole or degraded by the lanes it now has (R491). -/
def settleLanes (n l : Nat) (s : State) : State :=
  if (s.link n l).up then
    let all := decide ((s.link n l).lanesUp = (linkLanes n l s).length)
    s.modLink n l (fun k => { k with allLanes := all, st := if all then .up else .degraded })
  else s

/-- The Lanterns of a new image, the old tables giving each lane's old mode (R174, R491, R515, R758). The new image's tables are already
in force in `s`. -/
def setLanterns (old : Option Image) (i : Image) (s : State) : State :=
  (List.range 8).foldl (fun s n =>
    if !i.lanterns.getLsbD n then (if (s.link n 0).st = .disabled ∧ (s.link n 1).st = .disabled then s else disableLantern n s)
    else
      let mask (j : Image) : BitVec 16 := match j.lanternCfg[n]? with | some c => c.v2Lanes | none => 0
      let s1 := match old with
        | some o => if o.lanterns.getLsbD n then changeLanes n (mask o) (mask i) s else s
        | none => s
      settleLanes n 1 (settleLanes n 0 (newTable n (enableLink n 1 (enableLink n 0 s1))))) s

/-- Step 3 of R172: a Lantern that only the old image enables goes dark (R174). -/
def darkLanterns (old : Option Image) (i : Image) (s : State) : State :=
  (List.range 8).foldl (fun s n =>
    if (match old with | some o => o.lanterns.getLsbD n | none => false) && !i.lanterns.getLsbD n then disableLantern n s else s) s

/-! ## STUBs and mappings -/

/-- What a detached STUB keeps (R391). -/
def detachStub (idx : Nat) (s : State) (e : Entry) : Entry :=
  { version := e.version, st := e.st, reqId := e.reqId, epoch := e.epoch, node := e.node, fromIndex := e.fromIndex,
    fromNode := e.fromNode, fromValid := e.fromValid, tenant := e.tenant, part := (entryPart idx s).getD 0 }

/-- STUBs stay in place under the new ranges, every mapping being gone (R175, R391). -/
def keepStubs (s : State) : State :=
  { s with tt := { s.tt with
      entries := tmap s.tt.entries {} (fun k e => if e.st = .stub then detachStub k s e else e),
      progs := [], pend := [], steps := [] } }

/-- Every tenant leaves every partition and every context loses its mapping (R176, R717). -/
def unmapAll (s : State) : State :=
  { s with tn := { s.tn with parts := [], ctx := tmap s.tn.ctx {} (fun _ m => { m with valid := false }) } }

/-! ## An image in force -/

/-- The `CI_` fields of an image that comes into force: the cross-check exponents start at XCHECK_K (R277). -/
def takeImage (i : Image) (c : ImageCtl) : ImageCtl :=
  { c with
    image := some i, st := .active, staged := none, draining := false,
    xcheck := (List.range 4).foldl (fun t p => tput t p (BitVec.ofNat 5 i.xcheckK) 0) [] }

/-- An override entry differs from the map in force (R157). (DEDUCED, log entry 33.) -/
def overridesDiffer (i : Image) (s : State) : Bool :=
  i.overrides.any (fun e => decide ((s.stand e.1 e.2.1).physical ≠ (if e.2.2 = 255 then none else some e.2.2)))

/-- Lanes that train alone under the possession of a load (R174). -/
def lanesTrain (s : State) : Bool :=
  (List.range 8).any (fun n => (List.range 16).any (fun k => (s.lane n k).st == .training && (s.link n (laneLink n k s)).up))

/-- An image is applied (R172, R173, R175, R177): HBM but for `kept` is cleared, SRAMs are scrubbed, the tables are set, chains
start. `idx` says whether kept indexes stay READY (R623). -/
def applyImage (kept : List Region) (idx : Bool) (i : Image) (s : State) : State :=
  let s1 := clearForImage kept idx s
  let s2 : State := { s1 with img := takeImage i s1.img, groves := scrubGroves s1.groves }
  chainsStart (keepStubs (setDuties i s2))

/-- No image is in force (R172, R177): every HBM region is cleared. -/
def noImage (s : State) : State :=
  let s1 := clearForImage [] false s
  { s1 with
    img := { s1.img with image := none, st := .unconfigured, staged := none, draining := false, xcheck := [] },
    groves := scrubGroves s1.groves }

end Sys2Proof.Machine
end

