-- ==== Sys2Proof/Machine/BringUp.lean ====
section
/-! DEFINITION. Bring-up (chapter 16): the phases of the cold path (R642), the warm path (R668) and the exit from N3 (R69), what
each leaves (R447, R519, R645, R651 to R658, R662), READY and FAILED (R643, R646, R689), the settings banks (R653), the flash copy
of the image (R71) and the resets a host or the tray asks for (R639). -/

namespace Sys2Proof.Machine

/-! ## Phases -/

/-- The path a phase belongs to. -/
def onPath (ph : Phase) (p : BootPath) : Bool :=
  match ph with
  | .w1 | .w2 | .w3 | .w4 | .w5a | .w5b | .w6 | .w7 => p == .warmFast || p == .warmSlow
  | .x1 | .x2 | .x3 | .x4 | .x5 | .x6 => p == .n3Exit
  | _ => p == .cold

/-- The phases that must have ended before one starts (R69, R642, R668). -/
def phaseDeps (ph : Phase) : List Phase :=
  match ph with
  | .c1 | .w1 | .x1 => []
  | .c2 => [.c1] | .c3 => [.c2] | .c4 => [.c3] | .c5 => [.c4]
  | .c6a | .c6b | .c6c | .c6d | .c6e => [.c5]
  | .c7 => [.c6a, .c6b, .c6e]
  | .c8 => [.c7]
  | .w2 => [.w1] | .w3 => [.w2] | .w4 => [.w3] | .w5a | .w5b => [.w4] | .w6 => [.w5a, .w5b] | .w7 => [.w6]
  | .x2 => [.x1] | .x3 => [.x2] | .x4 => [.x3] | .x5 => [.x4] | .x6 => [.x5]

/-- Whether a phase may end now: it is of the path under way, has not ended, and what it depends on has; Lanterns may go on
training after READY (R643). -/
def phaseRuns (ph : Phase) (s : State) : Bool :=
  onPath ph s.boot.path && !s.boot.done.contains ph && (phaseDeps ph).all (fun d => s.boot.done.contains d) && s.power.supplies &&
  s.clk.pllLock && (s.boot.stage != .failed) && (s.boot.stage != .ready || ph == .c6d) && (ph != .c6d || s.rail.nodeSet)

/-- LD_BOOT.STAGE while a path runs (R671). (DEDUCED, log entry 24.) -/
def stageOf (done : List Phase) : Stage :=
  let has (p : Phase) : Bool := done.contains p
  if has .c7 || has .w6 || has .x3 then .image
  else if (has .c6a && has .c6b && has .c6e) || (has .w5a && has .w5b) then .mapFirmware
  else if has .c4 || has .w3 || has .x2 then .testsTraining
  else if has .c3 || has .w2 then .couplings
  else if has .c2 || has .w1 || has .x1 then .porters
  else .lodge

/-! ## What the phases leave -/

/-- The channels of the set the tier uses (R447). -/
def ddrSet (found : DdrFound) : List Nat :=
  let has (c : Nat) : Bool := found.modules.any (fun m => m.1 == c)
  if (List.range 12).all has then List.range 12
  else if [0, 1, 2, 6, 7, 8].all has then [0, 1, 2, 6, 7, 8]
  else []

/-- DDR5 training has found its modules (R447, R448, R652). -/
def foundDdr (found : DdrFound) (s : State) : State :=
  let set := ddrSet found
  let sizes := (found.modules.filter (fun m => set.any (· == m.1))).map Prod.snd
  let least := sizes.foldl min (sizes.headD 0)
  { s with
    ddr := { s.ddr with
      channels := set.length, mismatch := sizes.any (· != least), x8 := found.x8, units := set.length * least },
    clk := { s.clk with ddrRate := found.rate } }

/-- DDR5 is trained again, from the saved settings where the phase reports nothing else; a warm reset keeps DDR_RATE (R654, R762). -/
def retrainedDdr (found : Option DdrFound) (keepRate : Bool) (s : State) : State :=
  match found with
  | none => s
  | some f =>
    let s1 := foundDdr f s
    if keepRate then { s1 with clk := s.clk } else s1

/-- Whether a failure ends bring-up: a Lantern that fails training does not (R645). -/
def endsBringUp (f : BootFailure) : Bool := !(f.kind == 4 && f.cause == 2)

/-- Stands that failed a test or the broadcast (R645, R656): the cold tests start the list, later phases add to it. -/
def noteFailed (ph : Phase) (l : List (Nat × Nat)) (s : State) : State :=
  { s with boot := { s.boot with failTest := (if ph = .c6a then [] else s.boot.failTest) ++ l } }

/-- The spare lanes of a die link: 4 for every 256 in use (R27, R29). -/
def linkSpares (k : Nat) : Nat :=
  if k < 8 then 8 else if k < 12 then 16 else if k < 13 then 8 else if k < 23 then 4 else 0

/-- Lane repair, which only training at a cold reset does: the spares each link takes, no more than it has (R29). -/
def repairLanes (ph : Phase) (l : List (Nat × Nat)) (s : State) : State :=
  if ph ≠ .c4 then s else
  { s with boot := { s.boot with repairs := l.foldl (fun t x => tput t x.1 (min x.2 (linkSpares x.1)) 0) [] } }

/-- What a phase reports: refused records turn the warm path slow, and settings that differ are saved (R653, R655, R669, R671). -/
def noteReport (r : PhaseReport) (s : State) : State :=
  let slow := decide (r.rejected ≠ 0) || r.stagedStale
  { s with boot := { s.boot with
      setRej := s.boot.setRej ||| r.rejected, path := if slow ∧ s.boot.path = .warmFast then .warmSlow else s.boot.path,
      savePend := s.boot.savePend || r.newSettings || decide (r.rejected ≠ 0) } }

/-- The image of the flash copy is applied, its copy being complete (R180), or the device stays UNCONFIGURED (R172, R173, R177, R642, R668). -/
def applyFlash (warm : Bool) (s : State) : State :=
  let old := if warm then s.img.image else none
  match flashImage s with
  | some i =>
    let s1 := setLanterns old i (applyImage (if warm then keptRegions old i else []) false i s)
    { s1 with img := { s1.img with flashCopy := true } }
  | none => noImage s

/-- The Lodge ROM accepts the manifest this reset starts with: its version is not below the fused one, and an unrevoked key that REVOKE does
not name signed it (R736). Its form, signature and objects held when the tray wrote it (R738). -/
def manifestBoots (s : State) : Bool :=
  let m := s.flash.inactive.getD s.flash.active
  decide (s.fuses.svn ≤ m.svn) && (List.range 4).any (fun k =>
    nth s.fuses.fwKeys k 0 == m.signer && !s.fuses.keyRevoked.getLsbD k && !m.revoke.getLsbD k)

/-- How a phase fails: as its report says, or because the manifest read in it is not accepted (R645, R672, R736). The first phase leaves
no record (R645). (DEDUCED, log entry 135.) -/
def phaseFailure (ph : Phase) (r : PhaseReport) (s : State) : Option BootFailure :=
  if ph = .c1 then none
  else r.failure <|> (if (ph = .c2 ∨ ph = .w2) ∧ manifestBoots s = false then some { kind := 7, unit := 0, cause := 4 } else none)

/-- A firmware set the tray marked active takes effect at a reset (R738), and a new debug challenge stands (R739). (DEDUCED, log
entries 25, 109.) -/
def takeFirmware (s : State) : State :=
  newChallenge (match s.flash.inactive with
    | some m => { s with flash := { s.flash with active := m, inactive := none } }
    | none => s)

/-- The end of a phase (R69, R519, R642, R657, R662, R668). -/
def phaseEffect (ph : Phase) (r : PhaseReport) (s : State) : State :=
  match ph with
  | .c1 => { s with
      rail := { s.rail with inc := s.flash.incarnation + 1 },
      flash := { s.flash with
        incarnation := s.flash.incarnation + 1, retired := if s.flash.clearRetired then [] else s.flash.retired, clearRetired := false } }
  | .c2 | .w2 => takeFirmware s
  | .c6c => foundDdr (r.ddr.getD { modules := [], rate := 0, x8 := false }) s
  | .w5b => retrainedDdr r.ddr true s
  | .c7 | .w6 => buildMap s
  | .c8 => applyFlash false s
  | .w1 => ((List.range 128).filter (fun n => watched n s)).foldl (fun s n => routeCtl (ownFrame s 5 n (.nodeHb s.me s.rail.inc)) s) s
  | .w7 => applyFlash true s
  | .x3 => startTraining 0 0 (retrainedDdr r.ddr false s)
  | .x5 => applyFlash false s
  | _ => s

/-! ## READY and FAILED -/

/-- Bring-up has ended: LD_BOOT_AC, the possession, open requests (R640, R671, R672). -/
def endBringUp (st : Stage) (s : State) : State :=
  releasePoss 0x12 0 { s with boot := { s.boot with
    stage := st, bootAc := s.clk.ac - s.boot.startAc,
    coldOk := if s.boot.path = .cold then decide (st = .ready) else s.boot.coldOk } }

/-- READY (R643): fatal records of the chip reset close (R678, R689). -/
def reachReady (s : State) : State :=
  let s1 := endBringUp .ready s
  closeFatal { s1 with boot := { s1.boot with chipReset := false } }

/-- FAILED (R646): a chip reset that ends so, the last cold bring-up having ended in READY, starts level 5 (R689). -/
def reachFailed (f : BootFailure) (s : State) : State :=
  let up := s.boot.chipReset && s.boot.coldOk
  let s1 := endBringUp .failed { s with boot := { s.boot with fail := s.boot.fail <|> some f } }
  let s2 : State := { s1 with power := { s1.power with trans := none }, boot := { s1.boot with chipReset := false } }
  if up then chipLevel 5 s2 else s2

/-- A phase of bring-up ends, and those that depend on it may start (R69, R642, R645, R668). -/
def execBringUpPhaseComplete (ph : Phase) (r : PhaseReport) (s : State) : Host.Outcome State Fault Refusal :=
  actIf s (phaseRuns ph s) (fun s =>
    let s1 := repairLanes ph r.repairs (noteReport r (noteFailed ph r.failedStands s))
    match phaseFailure ph r s with
    | some f =>
      if endsBringUp f then reachFailed f s1
      else
        let s2 : State := { s1 with boot := { s1.boot with fail := s1.boot.fail <|> some f, done := s1.boot.done ++ [ph] } }
        let s3 := phaseEffect ph r s2
        if s3.boot.stage = .ready then s3 else { s3 with boot := { s3.boot with stage := stageOf s3.boot.done } }
    | none =>
      let s2 := phaseEffect ph r { s1 with boot := { s1.boot with done := s1.boot.done ++ [ph] } }
      if s2.boot.stage = .ready then s2
      else if ph = .c8 ∨ ph = .w7 ∨ ph = .x6 then reachReady s2
      else { s2 with boot := { s2.boot with stage := stageOf s2.boot.done } })

/-! ## Flash -/

/-- The settings-bank write ends (R653): the new bank is in use, with the lane repairs (R29), or, the write having failed, the other one stays (R770). -/
def execSettingsBankWriteComplete (ok : Bool) (s : State) : Host.Outcome State Fault Refusal :=
  actIf s s.boot.savePend (fun s =>
    { s with
      boot := { s.boot with savePend := false },
      flash := if ok then { s.flash with setSeq := s.flash.setSeq + 1, setBank := !s.flash.setBank, repairs := s.boot.repairs } else s.flash })

/-- A flash copy ends, and an N3 entry that waited goes on: FLASH_COPY reads 1, unless it is the copy of an image that a load past its
point of no return replaces (R71, R177, R180). -/
def execFlashCopyComplete (s : State) : Host.Outcome State Fault Refusal :=
  act s (fun s => match s.img.copying with
    | none => s
    | some b => { s with
        flash := { s.flash with image := some b },
        img := { s.img with copying := none, flashCopy := s.img.image.isSome && !applying s },
        power := { s.power with copyWait := false } })

/-! ## Resets -/

/-- LD_RESET.KEY (R639, R672). -/
def execWarmResetRequest (s : State) : Host.Outcome State Fault Refusal := actIf s (writes 0 s) (warmReset 1)

/-- The tray controller's reset command (R639). -/
def execI3cResetCommand (s : State) : Host.Outcome State Fault Refusal := act s (warmReset 2)

/-- A chip reset has not reached READY within 2 s: level 5 (R689). -/
def execChipResetReadyTimeout (s : State) : Host.Outcome State Fault Refusal :=
  actIf s (s.boot.chipReset && s.boot.stage != .ready && s.boot.stage != .failed) (chipLevel 5)

end Sys2Proof.Machine
end

