-- ==== Sys2Proof/Machine/Clearing.lean ====
section
/-! DEFINITION. Clearing search (chapter 15): indexes and their tombstones (R618 to R624), queries (R625 to R632) and their search
contexts (R633 to R635). -/

namespace Sys2Proof.Machine

/-! ## The index (R618, R619) -/

/-- The header of an index (R618). -/
structure IdxHdr where
  fmt     : Nat
  metric  : Nat
  dim     : Nat
  degree  : Nat
  entries : Nat
  nodes   : Nat
  vec     : Nat
  nbr     : Nat
  attr    : Nat
  tomb    : Nat
  scale   : Nat
deriving DecidableEq, Repr

/-- The header of an INDEX region. -/
def idxHdr (s : State) (r : Region) : IdxHdr :=
  let n (o k : Nat) : Nat := regionNum s r o k
  { fmt := n 6 1, metric := n 7 1, dim := n 8 2, degree := n 10 1, entries := n 11 1, nodes := n 12 4, vec := n 16 8, nbr := n 24 8,
    attr := n 32 8, tomb := n 40 8, scale := n 48 4 }

/-- Bytes of an element, of a vector, and of the four arrays. -/
def IdxHdr.vecBytes (h : IdxHdr) : Nat := h.dim * (fmtBits h.fmt / 8)
def IdxHdr.arrays (h : IdxHdr) : List (Nat × Nat) :=
  [(h.vec, h.nodes * h.vecBytes), (h.nbr, 4 * h.degree * h.nodes), (h.attr, 8 * h.nodes), (h.tomb, ceilDiv h.nodes 8)]

/-- The entry nodes. -/
def idxEntries (s : State) (r : Region) (h : IdxHdr) : List Nat := (List.range h.entries).map (fun j => regionNum s r (64 + 4 * j) 4)

/-- The slots of a node's neighbour list. -/
def nbrSlots (s : State) (r : Region) (h : IdxHdr) (i : Nat) : List Nat :=
  (List.range h.degree).map (fun k => regionNum s r (h.nbr + 4 * h.degree * i + 4 * k) 4)

/-- The used neighbours of a node, in list order (R619). -/
def neighbours (s : State) (r : Region) (h : IdxHdr) (i : Nat) : List Nat := (nbrSlots s r h i).takeWhile (· != 0xFFFFFFFF)

/-- Whether a node is a tombstone. -/
def isTomb (s : State) (r : Region) (h : IdxHdr) (i : Nat) : Bool := (regionNum s r (h.tomb + i / 8) 1).testBit (i % 8)

/-- The attribute word of a node. -/
def attrOf (s : State) (r : Region) (h : IdxHdr) (i : Nat) : Nat := regionNum s r (h.attr + 8 * i) 8

/-- Whether a header keeps R618: its field ranges; what is reserved in it is ignored (R17). (DEDUCED, log entry 107.) -/
def hdrFits (s : State) (r : Region) (h : IdxHdr) : Bool :=
  regionNum s r 0 4 == 0x58444E49 && regionNum s r 4 2 == 1 && (h.fmt == 4 || h.fmt == 6 || h.fmt == 7 || h.fmt == 8 || h.fmt == 10) &&
  decide (h.metric ≤ 1) && decide (32 ≤ h.dim) && decide (h.dim ≤ 4096) && h.dim % 32 == 0 && decide (8 ≤ h.degree) && decide (h.degree ≤ 64) &&
  h.degree % 8 == 0 && decide (1 ≤ h.entries) && decide (h.entries ≤ 16) && decide (1 ≤ h.nodes) && decide (h.nodes ≤ 268435455) &&
  (h.fmt == 4 || h.fmt == 6 || h.scale == 0x3F800000)

/-- Whether the arrays lie as R619 says. -/
def arraysFit (r : Region) (h : IdxHdr) : Bool :=
  h.arrays.all (fun a => a.1 % 4096 == 0 && decide (4096 ≤ a.1) && decide (a.1 + a.2 ≤ r.size)) &&
  h.arrays.zipIdx.all (fun a => h.arrays.zipIdx.all (fun b => a.2 == b.2 || decide (a.1.1 + a.1.2 ≤ b.1.1) || decide (b.1.1 + b.1.2 ≤ a.1.1)))

/-- Whether a neighbour list holds its used IDs first, every one below N (R619, R622). -/
def nbrsFit (s : State) (r : Region) (h : IdxHdr) (i : Nat) : Bool :=
  let l := nbrSlots s r h i
  (l.takeWhile (· != 0xFFFFFFFF)).all (fun n => decide (n < h.nodes)) && (l.dropWhile (· != 0xFFFFFFFF)).all (· == 0xFFFFFFFF)

/-- Step 4 of R622. -/
def indexFits (s : State) (r : Region) : Bool :=
  let h := idxHdr s r
  hdrFits s r h && arraysFit r h && (idxEntries s r h).all (fun e => decide (e < h.nodes)) && (List.range h.nodes).all (nbrsFit s r h)

/-- The index of a region. -/
def State.idx (s : State) (id : Nat) : Index := tget s.cs.index id {}
def State.modIdx (s : State) (id : Nat) (f : Index → Index) : State := { s with cs := { s.cs with index := tmod s.cs.index id {} f } }

/-! ## Descriptors -/

/-- REGION_ID of a Clearing descriptor. -/
def csRegion (w : Work) : Nat := dat w.body 8 8

/-- The region is not an INDEX region (R636, cause 0x02). -/
def notIndex (w : Work) (s : State) : Bool := match s.region (csRegion w) with | some r => r.kind != 5 | none => true

/-- A region of another partition. -/
def idxForeign (w : Work) (s : State) : Bool := refForeign s w.part (.hbm (csRegion w) 0)

/-- Queries on a region fetched before a descriptor and not completed. -/
def queriesBefore (w : Work) (s : State) : Bool :=
  s.work.any (fun x => decide (x.wid < w.wid) && x.opcode == 0x60 && csRegion x == csRegion w && x.part == w.part)

/-- A load, or a delete, of the region fetched before a query and not completed: the query waits for it (R622, R624).
(DEDUCED, log entry 74.) -/
def changeBefore (w : Work) (s : State) : Bool :=
  s.work.any (fun x => decide (x.wid < w.wid) && (x.opcode == 0x61 || x.opcode == 0x62) && csRegion x == csRegion w && x.part == w.part)

/-- Whether a descriptor may use an index: it is READY, or was before a load fetched later began (R622). -/
def idxReady (w : Work) (s : State) : Bool := (s.idx (csRegion w)).st == .ready || ((s.idx (csRegion w)).st == .loading && (s.idx (csRegion w)).nodes != 0)

/-- The fields of CS_QUERY (R625). -/
structure Query where
  filter : Bool
  k      : Nat
  ef     : Nat
  q      : Ref
  dest   : Ref
  mask   : Nat
  value  : Nat
  visits : Nat

def queryOf (w : Work) : Query :=
  let d := w.body
  { filter := (dat d 9 8).testBit 0, k := dat d 10 16, ef := dat d 12 16, q := refAt d 16, dest := refAt d 24, mask := dat d 32 64,
    value := dat d 40 64, visits := if dat d 48 32 = 0 then 65536 else dat d 48 32 }

/-- Bytes of the query vector; those of the shortest where no index gives D. -/
def queryBytes (w : Work) (s : State) : Nat :=
  match s.region (csRegion w) with | some r => 4 * (if idxReady w s then (idxHdr s r).dim else 32) | none => 0

/-- The checks of CS_QUERY (R636, R764). -/
def queryChecks (w : Work) (s : State) : Option (Status × Nat) :=
  let q := queryOf w
  firstFail [
    (idxForeign w s || refForeign s w.part q.q || refForeign s w.part q.dest, (.tenantMismatch, 0)),
    (dat w.body 9 8 / 2 != 0 || dat w.body 14 16 != 0 || dat w.body 52 96 != 0, (.malformed, 0x01)),
    (notIndex w s, (.malformed, 0x02)),
    (badWork s q.q (queryBytes w s) || badWork s q.dest (8 * q.k), (.malformed, 0x03)),
    (!idxReady w s, (.malformed, 0x04)),
    (outOf q.k 1024 || decide (q.ef < q.k) || decide (q.ef > 4096), (.malformed, 0x05))]

/-! ## Distances (R626) -/

/-- An FP32 distance as the search orders it. Where it is NaN, whether it is nearer or farther than every number is the device's
choice: the spec orders no NaN. -/
def nearerNum (a b : Nat) : Bool :=
  let nan (x : Nat) : Bool := match f32 x with | .nan => true | _ => false
  if nan a ∧ nan b then false
  else if nan a then Config.nanNear
  else if nan b then !Config.nanNear
  else (f32 a).lt (f32 b)

/-- Whether one node ranks as nearer than another: by distance, then by lower ID (R627). -/
def nearer (a b : Nat × Nat) : Bool := if nearerNum a.2 b.2 then true else if nearerNum b.2 a.2 then false else decide (a.1 < b.1)

/-- The nearest, and the farthest, of a list of nodes. -/
def nearest : List (Nat × Nat) → Option (Nat × Nat)
  | [] => none
  | x :: r => match nearest r with | some y => some (if nearer y x then y else x) | none => some x
def farthest : List (Nat × Nat) → Option (Nat × Nat)
  | [] => none
  | x :: r => match farthest r with | some y => some (if nearer x y then y else x) | none => some x

/-- Nodes in order, nearest first. -/
def sortNear : List (Nat × Nat) → List (Nat × Nat)
  | [] => []
  | x :: r => ins x (sortNear r)
where
  ins (x : Nat × Nat) : List (Nat × Nat) → List (Nat × Nat)
    | [] => [x]
    | y :: l => if nearer y x then y :: ins x l else x :: y :: l

/-- Element i of a node's vector as an FP32 code: converted exactly, FP8A and INT8 times VEC_SCALE. -/
def vecCode (s : State) (obs : TileObs) (r : Region) (h : IdxHdr) (row node i : Nat) : Nat :=
  let b := fmtBits h.fmt / 8
  let x := decodeElem h.fmt false (fetched obs 1 row i (regionNum s r (h.vec + node * h.vecBytes + i * b) b))
  if h.fmt = 4 ∨ h.fmt = 6 then (x.mul (f32 h.scale)).toF32 else x.toF32

/-- The distance of a node from the query, every operation rounded, added over the pairwise tree (R626). `row` is the node's place in its
batch; a Stand's fetch may have read an element wrong (R247). -/
def distance (s : State) (obs : TileObs) (r : Region) (h : IdxHdr) (q : Ref) (row node : Nat) : Nat :=
  let term (i : Nat) : Nat :=
    let a := fetched obs 0 0 i (refNum s q (4 * i) 4)
    let x := vecCode s obs r h row node i
    if h.metric = 0 then let d := addF a ((f32 x).negate.toF32); mulF d d else mulF a x
  let t := ((treeFold addF 13 ((List.range h.dim).map term)).head?).getD 0
  if h.metric = 0 then t else (f32 t).negate.toF32

/-- A computation of a batch: the distances of its nodes, a lane fault's value in place of the exact one, and the residue checks
(R259, R626). -/
def batchRun (s : State) (obs : TileObs) (r : Region) (h : IdxHdr) (q : Ref) (nodes : List Nat) : Comp :=
  let d (x : Nat × Nat) : Nat := match obs.lanes.find? (fun e => e.elem == x.2) with
    | some e => e.value.toNat
    | none => distance s obs r h q x.2 x.1
  { resFail := obs.lanes.any laneSeen, out := { rows := [(nodes.zipIdx.map d, [])] } }

/-! ## Search contexts (R633) -/

/-- What a query is doing. -/
def queryProg : Prog → Option QueryOp
  | .query q => some q
  | _ => none

/-- Search contexts in use on a Station. -/
def ctxInUse (station : Nat) (s : State) : Nat :=
  (s.work.filter (fun w => match w.prog with | .query q => q.station == some station | _ => false)).length

/-- A query that has started and has no search context (R633). -/
def ctxWaits (w : Work) : Bool := match w.prog with | .query q => q.station.isNone | _ => false

/-- CS_QUERY: it waits behind loads and deletes fetched before it, is checked, and asks for a search context (R622, R624, R627,
R636). A MAX_VISITS above 65,536 is malformed with a cause the spec does not name. -/
def execCsQuery (wid : Nat) (s : State) : Host.Outcome State Fault Refusal :=
  start wid 0x60 s (fun w s =>
    if changeBefore w s then s
    else match queryChecks w s with
      | some (st, r) => complete w st r s
      | none =>
        if (queryOf w).visits > 65536 then malformedFree w s else
        let c := newOp w.part 0xFF s
        (c.2).setProg wid (.query { cnt := c.1 }))

/-- A query takes a free search context on the Station that has fewer in use, or S0 (R633). -/
def execSearchContextAllocate (wid : Nat) (s : State) : Host.Outcome State Fault Refusal :=
  resume wid s queryProg (fun w q s =>
    let n := if ctxInUse 1 s < ctxInUse 0 s then 1 else 0
    if q.station.isSome ∨ !ctxGiven w s ∨ ctxInUse n s ≥ 128 then s else s.setProg wid (.query { q with station := some n }))

/-! ## The search (R627 to R630) -/

/-- Adds to a list what it does not hold yet, in order. -/
def addNew (known : List Nat) : List Nat → List Nat
  | [] => []
  | x :: r => if known.any (· == x) then addNew known r else x :: addNew (x :: known) r

/-- Puts a node in the beam; above EF the farthest leaves. -/
def beamAdd (ef : Nat) (x : Nat × Nat) (beam : List (Nat × Nat)) : List (Nat × Nat) :=
  let b := x :: beam
  if b.length > ef then (match farthest b with | some y => b.filter (· != y) | none => b) else b

/-- visit(n), its distance known; a tombstone does not enter the beam (R627, R628). -/
def QueryOp.visit (q : QueryOp) (ef : Nat) (tomb : Bool) (x : Nat × Nat) : QueryOp :=
  { q with
    visited := x.1 :: q.visited, frontier := x :: q.frontier, tombs := q.tombs + b2n tomb,
    beam := if tomb then q.beam else beamAdd ef x q.beam }

/-- How the search goes on when every node found has been visited: the next node to expand, or the end (R627). The flag says that
the frontier is empty. -/
inductive Next where
  | expand (q : QueryOp)
  | done (exhausted : Bool)

def QueryOp.next (q : QueryOp) (ef : Nat) : Next :=
  if q.limit then .done false
  else match nearest q.frontier with
    | none => .done true
    | some c =>
      if q.beam.length = ef && (match farthest q.beam with | some f => nearer f c | none => false) then .done false
      else .expand { q with frontier := q.frontier.filter (· != c), expand := some c.1 }

/-- A query ends: it is counted (R637). -/
def endQuery (w : Work) (q : QueryOp) (st : Status) (result : Nat) (s : State) : State :=
  complete w st result { s with cs := { s.cs with queries := s.cs.queries + 1, short := s.cs.short + b2n (st == .okShort) } } q.cnt.faultRef

/-- The end of the search: filter, records and RESULT (R629, R630); a poisoned attribute gives POISON_CONSUMED (R632). -/
def finishQuery (w : Work) (r : Region) (h : IdxHdr) (q : QueryOp) (exhausted : Bool) (s : State) : State :=
  let o := queryOf w
  let all := sortNear q.beam
  if o.filter && all.any (fun x => regionPoisoned s r (h.attr + 8 * x.1) 8) then endQuery w q .poisonConsumed 0 s else
  let kept := if o.filter then all.filter (fun x => attrOf s r h x.1 &&& o.mask == o.value) else all
  let out := kept.take o.k
  let short := decide (out.length < o.k)
  let s1 := if out.isEmpty then s else refWrite o.dest 0 (out.flatMap (fun x => leBytes 4 x.1 ++ leBytes 4 x.2)) s
  let result := packFields [(out.length, 16, 0), (b2n (short && decide (kept.length < all.length)), 1, 16), (b2n q.limit, 1, 17),
    (b2n exhausted, 1, 18), (min 0xFFFF q.tombs, 16, 24), (q.visited.length, 24, 40)]
  endQuery w q (if short then .okShort else if q.recomp then .okRecomputed else .ok) result s1

/-- The first idle SEARCH Stand of a partition, its Grove not gated (R634, R62). -/
def idleSearch (p : Nat) (s : State) : Option (Nat × Nat) :=
  (workStands p 2 s).find? (fun x => !(s.stand x.1 x.2).busy && !s.power.gated.getLsbD x.1)

/-- The Stand a batch is given now, if any: the first idle one, or for another computation one that R249 to R257 name. -/
def batchStand (w : Work) (t : TileSt) (s : State) : Option (Nat × Nat) :=
  if t.kind = .first then idleSearch w.part s else (againStand w.part t s 2).filter (fun x => !s.power.gated.getLsbD x.1)

/-- A batch that waits for a Stand goes to one. -/
def feedLive (w : Work) : List DistBatch → State → List DistBatch × State
  | [], s => ([], s)
  | b :: r, s =>
    let go := if b.tile.running.isSome then none else batchStand w b.tile s
    let b' : DistBatch := match go with | some x => { b with tile := b.tile.startOn x s } | none => b
    let s' := match go with | some x => s.modStand x.1 x.2 (fun y => { y with busy := true }) | none => s
    let l := feedLive w r s'
    (b' :: l.1, l.2)

/-- The waiting batches of a query go to Stands. -/
def feedBatch (s : State) (wid : Nat) : State :=
  match s.item wid with
  | none => s
  | some w =>
    match w.prog with
    | .query q => let l := feedLive w q.live s; (l.2).setProg wid (.query { q with live := l.1 })
    | _ => s

/-- Waiting batches of a partition go to its idle SEARCH Stands, in fetch order. -/
def feedBatches (p : Nat) (s : State) : State := ((s.work.filter (fun w => w.part == p)).map (fun w => w.wid)).foldl feedBatch s

/-- Cuts the nodes to visit into batches of up to R, while fewer than two are in flight (R634). The single reads of a batch are not told
apart. (DESIGN CHOICE, log entry 128.) -/
def QueryOp.cut (q : QueryOp) (w : Work) (h : IdxHdr) (s : State) : QueryOp :=
  let new := (pieces h.degree 2 q.toVisit).take (2 - q.live.length)
  { q with
    live := q.live ++ new.zipIdx.map (fun b => { nodes := b.1, tile := { idx := q.batches + b.2, sampled := sampled w.part q.cnt (q.batches + b.2) s } }),
    toVisit := q.toVisit.drop (h.degree * new.length), batches := q.batches + new.length }
where
  pieces (k : Nat) : Nat → List Nat → List (List Nat)
    | 0, _ => []
    | n + 1, l => if l.isEmpty then [] else l.take k :: pieces k n (l.drop k)

/-- The search context goes on: batches of distances, the next expansion once none is left, or the end (R627, R634); without a SEARCH
Stand the query ends with INTERNAL (R632). -/
def searchOn (w : Work) (r : Region) (h : IdxHdr) (q : QueryOp) (s : State) : State :=
  if q.toVisit.isEmpty ∧ q.live.isEmpty then
    match q.next (queryOf w).ef with
    | .expand q' => s.setProg w.wid (.query q')
    | .done e => finishQuery w r h q e s
  else if (standsOf w.part 2 s).isEmpty then
    dutyEmpty w.part w { s with cs := { s.cs with queries := s.cs.queries + 1 } }
  else feedBatches w.part (s.setProg w.wid (.query (q.cut w h s)))

/-- The bytes a context reads next are poisoned: the query vector with the header at the start, a neighbour list later (R632). -/
def readPoisoned (w : Work) (r : Region) (h : IdxHdr) (q : QueryOp) (s : State) : Bool :=
  match q.expand with
  | some c => regionPoisoned s r (h.nbr + 4 * h.degree * c) (4 * h.degree)
  | none => regionPoisoned s r 0 4096 || refPoisoned s (queryOf w).q 0 (4 * h.dim)

/-- What is found by the read: the entry nodes, or the unvisited neighbours of the node expanded, as many as MAX_VISITS leaves (R627).
(DEDUCED, log entry 73.) -/
def QueryOp.found (q : QueryOp) (w : Work) (s : State) (r : Region) (h : IdxHdr) : QueryOp :=
  match q.expand with
  | none => { q with started := true, toVisit := addNew [] (idxEntries s r h) }
  | some c =>
    let new := addNew q.visited (neighbours s r h c)
    let room := (queryOf w).visits - q.visited.length
    { q with expand := none, toVisit := new.take room, limit := decide (new.length > room) }

/-- A read of a search context returns (R634): an uncorrectable line or marked poison ends the query (R632, R675, R710). -/
def execIndexReadReturn (rd : IndexRead) (s : State) : Host.Outcome State Fault Refusal :=
  resume rd.wid s queryProg (fun w q s =>
    match s.region (csRegion w) with
    | none => s
    | some r =>
      let h := idxHdr s r
      if q.station.isNone then s
      else if !q.live.isEmpty then feedBatches w.part s
      else if q.started ∧ q.expand.isNone then s
      else
        let m := hbmFault w [(.hbm (csRegion w) 0, match q.expand with | some c => h.nbr + 4 * h.degree * c | none => 0)] rd.obs s
        if m.1 || readPoisoned w r h q m.2.2 then
          endQuery w { q with cnt := { q.cnt with faultRef := if m.1 then m.2.1 else q.cnt.faultRef } } .poisonConsumed 0 m.2.2
        else searchOn w r h (q.found w m.2.2 r h) m.2.2)

/-- The query, a vector or a tombstone bit that a batch reads is poisoned (R632). -/
def batchPoisoned (w : Work) (r : Region) (h : IdxHdr) (nodes : List Nat) (s : State) : Bool :=
  refPoisoned s (queryOf w).q 0 (4 * h.dim) ||
    nodes.any (fun n => regionPoisoned s r (h.vec + n * h.vecBytes) h.vecBytes || regionPoisoned s r (h.tomb + n / 8) 1)

/-- The distances of a batch are in: its nodes are visited in order, and counted (R627, R637). -/
def batchDone (w : Work) (r : Region) (h : IdxHdr) (q : QueryOp) (nodes : List Nat) (t : TileSt) (out : TileOut) (s : State) : State :=
  let ds := (out.rows.headD ([], [])).1
  let tombs := (nodes.filter (isTomb s r h)).length
  let q1 : QueryOp := nodes.zipIdx.foldl (fun q x => q.visit (queryOf w).ef (isTomb s r h x.1) (x.1, nth ds x.2 0)) q
  let q2 : QueryOp := { q1 with live := q1.live.filter (fun b => b.tile.idx != t.idx), recomp := q1.recomp || t.again }
  searchOn w r h q2 { s with cs := { s.cs with visits := s.cs.visits + nodes.length, tombVisits := s.cs.tombVisits + tombs } }

/-- A query ends while batches of its own run: their Stands are free again. -/
def dropBatches (q : QueryOp) (s : State) : State :=
  (q.live.filterMap (fun b => b.tile.running)).foldl (fun s x => s.modStand x.1 x.2 (fun y => { y with busy := false })) s

/-- The oldest distance batch that runs ends on its Stand: it is a vector chunk, checked and cross-checked (R626, R634, R635). -/
def execDistanceBatchComplete (wid : Nat) (obs : TileObs) (s : State) : Host.Outcome State Fault Refusal :=
  resume wid s queryProg (fun w q s =>
    match s.region (csRegion w), q.live.find? (fun b => b.tile.running.isSome) with
    | some r, some b =>
      let h := idxHdr s r
      let t := b.tile
      let x := t.running.getD (0, 0)
      let ins : List (Ref × Nat) := b.nodes.map (fun n => (.hbm (csRegion w) 0, h.vec + n * h.vecBytes))
      let gc := b.nodes.length * (ceilDiv h.dim 256 + 12)
      let ran := runTile w x t .chunk h.fmt gc ins (if batchPoisoned w r h b.nodes s then some .poisonConsumed else none) obs
        (batchRun s obs r h (queryOf w).q b.nodes) s
      let rest := q.live.filter (fun y => y.tile.idx != t.idx)
      let q1 : QueryOp := { q with cnt := q.cnt.after x t ran (match ran.verdict.fate with | .poison _ => true | _ => false) }
      let s1 := match ran.verdict.fate with
        | .again =>
          let s1 := ran.state.setProg wid (.query { q1 with live := { b with tile := ran.verdict.tile } :: rest })
          if (standsOf w.part 2 s1).isEmpty then
            dutyEmpty w.part w (dropBatches { q1 with live := rest } { s1 with cs := { s1.cs with queries := s1.cs.queries + 1 } })
          else s1
        | .poison st => endQuery w q1 st 0 (dropBatches { q1 with live := rest } ran.state)
        | .write out => batchDone w r h q1 b.nodes ran.verdict.tile out ran.state
      feedBatches w.part s1
    | _, _ => s)

/-! ## CS_INDEX_LOAD (R622) -/

/-- The checks of CS_INDEX_LOAD (R621, R636). -/
def idxLoadChecks (w : Work) (s : State) : Option (Status × Nat) :=
  let len := dat w.body 24 64
  firstFail [
    (idxForeign w s, (.tenantMismatch, 0)),
    (dat w.body 9 56 != 0 || dat w.body 32 256 != 0, (.malformed, 0x01)),
    (notIndex w s, (.malformed, 0x02)),
    (len == 0 || len % 4096 != 0 || (match s.region (csRegion w) with | some r => decide (len > r.size) | none => true), (.malformed, 0x06))]

/-- CS_INDEX_LOAD: the index is LOADING, and its source is read (R622). An unaligned SRC is malformed with a cause the spec does not
name. A load waits for changes of the region fetched before it. -/
def execCsIndexLoad (wid : Nat) (s : State) : Host.Outcome State Fault Refusal :=
  start wid 0x61 s (fun w s =>
    if changeBefore w s then s
    else match idxLoadChecks w s with
      | some (st, r) => complete w st r s
      | none =>
        if dat w.body 16 64 % 4096 ≠ 0 then malformedFree w s else
        ((s.modIdx (csRegion w) (fun x => { x with st := .loading })).setProg wid (.indexLoad (csRegion w))).emit
          (.hostRead w.fn (dat w.body 16 64) (dat w.body 24 64)))

/-- The copy ends once every earlier query has: the index is validated, and READY or UNLOADED (R622). -/
def execIndexCopyComplete (wid : Nat) (data : List Byte) (s : State) : Host.Outcome State Fault Refusal :=
  resume wid s (fun p => match p with | .indexLoad r => some r | _ => none) (fun w id s =>
    match s.region id with
    | none => s
    | some r =>
      if queriesBefore w s ∨ data.length ≠ dat w.body 24 64 then s else
      let s1 := regionWrite r 0 data s
      if indexFits s1 r then
        let h := idxHdr s1 r
        let tombs := ((List.range h.nodes).filter (isTomb s1 r h)).length
        complete w .ok h.nodes (s1.modIdx id (fun _ => { st := .ready, nodes := h.nodes, tombs }))
      else malformed w 0x08 (s1.modIdx id (fun _ => {})))

/-! ## CS_DELETE (R624) -/

/-- The nodes CS_DELETE names. -/
def deleteList (w : Work) (s : State) : List Nat := (List.range (dat w.body 12 32)).map (fun i => refNum s (refAt w.body 16) (4 * i) 4)

/-- The checks of CS_DELETE (R621, R624, R636). -/
def deleteChecks (w : Work) (s : State) : Option (Status × Nat) :=
  let n := dat w.body 12 32
  let l := refAt w.body 16
  firstFail [
    (idxForeign w s || refForeign s w.part l, (.tenantMismatch, 0)),
    (dat w.body 9 24 != 0 || dat w.body 24 320 != 0, (.malformed, 0x01)),
    (notIndex w s, (.malformed, 0x02)),
    (badWork s l (4 * (if outOf n 65536 then 0 else n)), (.malformed, 0x03)),
    ((s.idx (csRegion w)).st != .ready, (.malformed, 0x04)),
    (outOf n 65536, (.malformed, 0x07)),
    (refPoisoned s l 0 (4 * n), (.poisonConsumed, 0)),
    ((deleteList w s).any (fun i => decide (i ≥ (s.idx (csRegion w)).nodes)), (.malformed, 0x07))]

/-- Sets a tombstone bit, counting it where it was clear. -/
def setTomb (r : Region) (h : IdxHdr) (s : State) (i : Nat) : State :=
  if isTomb s r h i then s else
    let b := regionNum s r (h.tomb + i / 8) 1 ||| 2 ^ (i % 8)
    { (s.modIdx r.id (fun x => { x with tombs := x.tombs + 1 })) with
      mem := { s.mem with hbm := regionPut r (h.tomb + i / 8) [BitVec.ofNat 8 b] s.mem.hbm }, waybill := unmeasure r.id s.waybill }

/-- CS_DELETE: once every query fetched before it has completed, the bits are set and it completes (R624). Later queries wait for
it; a delete waits for changes of the region fetched before it. -/
def execCsDelete (wid : Nat) (s : State) : Host.Outcome State Fault Refusal :=
  start wid 0x62 s (fun w s =>
    if changeBefore w s ∨ queriesBefore w s then s
    else match deleteChecks w s with
      | some (st, r) => complete w st r s
      | none =>
        match s.region (csRegion w) with
        | none => s
        | some r => complete w .ok 0 ((deleteList w s).foldl (setTomb r (idxHdr s r)) s))

end Sys2Proof.Machine
end

