-- ==== Sys2Proof/Machine/ImageCtl.lean ====
section
/-! DEFINITION. Image control (R160 to R177): IMAGE_LOAD, IMAGE_CHECK, DRAIN_BEGIN, DRAIN_END and the stages of a load; granting
possessions and what each grant lets run (R660 to R667, R690 to R693); the maintenance activities of R691. -/

namespace Sys2Proof.Machine

/-! ## Image-control descriptors -/

/-- The image-control opcodes (R163). -/
def imageOp (op : Byte) : Bool := op == 0x70 || op == 0x71 || op == 0x72 || op == 0x73

/-- An earlier image-control operation has yet to complete (R166). -/
def imageAhead (w : Work) (s : State) : Bool := s.work.any (fun x => decide (x.wid < w.wid) && imageOp x.opcode)

/-- The stage of an image operation. -/
def imgStage : Prog → Option ImgStage
  | .image st => some st
  | _ => none

/-- The image operation at a stage. -/
def imageAt (st : ImgStage) (s : State) : Option Work := s.work.find? (fun w => imgStage w.prog == some st)

/-- CI_STATUS.STATE when no load runs. -/
def settledState (s : State) : CiState := if s.img.image.isSome then .active else .unconfigured

/-- CI_ERR's word for a failure, its VALID bit aside (R181). -/
def CiErr.result (e : CiErr) : Nat := packFields [(e.entry.toNat, 12, 16), (e.sect.toNat, 8, 8), (e.cause.toNat, 8, 0)]

/-- A failure as CI_ERR records it. -/
def ImgFail.toErr (f : ImgFail) : CiErr :=
  { valid := true, entry := BitVec.ofNat 12 f.entry, sect := BitVec.ofNat 8 f.sect, cause := BitVec.ofNat 8 f.cause }

/-- An image operation fails: CI_ERR records it, RESULT carries it, a signature or signer failure sends event 0x0400; the image in
force stays (R160 to R162). -/
def imageFail (w : Work) (st : Status) (f : ImgFail) (s : State) : State :=
  let s1 : State := { s with img := { s.img with err := f.toErr, st := settledState s } }
  let s2 := if f.cause = 5 ∨ f.cause = 6 then event 0 0x0400 f.cause s1 else s1
  complete w st f.toErr.result s2

/-- An image-control descriptor starts in its turn; one of a virtual function fails with cause 0x22 (R165, R166). -/
def startImage (wid : Nat) (op : Byte) (s : State) (f : Work → State → State) : Host.Outcome State Fault Refusal :=
  start wid op s (fun w s =>
    if imageAhead w s then s
    else if w.fn ≠ 0 then imageFail w .malformed { cause := 0x22 } s
    else f w s)

/-- ADDR is tested, then the read of the image is issued (R160, R164). -/
def readImage (w : Work) (s : State) : State :=
  let addr := dat w.body 8 64
  if addr % 8 ≠ 0 then imageFail w .malformed { cause := 0x24 } s
  else (s.setProg w.wid (.image .reading)).emit (.hostRead w.fn addr (dat w.body 16 32))

/-- Validate, wait for drain, apply (R170); a load waits while a tenant switch runs (R723). -/
def execImageLoad (wid : Nat) (s : State) : Host.Outcome State Fault Refusal :=
  startImage wid 0x70 s (fun w s =>
    if s.tn.switch.isSome then s else readImage w { s with img := { s.img with st := .loading } })

/-- Validate only (R163). -/
def execImageCheck (wid : Nat) (s : State) : Host.Outcome State Fault Refusal := startImage wid 0x73 s readImage

/-- Placements are refused from now on (R168). -/
def execDrainBegin (wid : Nat) (s : State) : Host.Outcome State Fault Refusal :=
  startImage wid 0x71 s (fun w s => complete w .ok 0 { s with img := { s.img with draining := true } })

/-- Placements are taken again (R168). -/
def execDrainEnd (wid : Nat) (s : State) : Host.Outcome State Fault Refusal :=
  startImage wid 0x72 s (fun w s => complete w .ok 0 { s with img := { s.img with draining := false } })

/-! ## Drain -/

/-- Work of the Groves, Shunters, Sleeper or Clearing (R169). -/
def drainWork (w : Work) : Bool :=
  let op := w.opcode.toNat
  (decide (0x20 ≤ op) && decide (op ≤ 0x3F)) || (decide (0x60 ≤ op) && decide (op ≤ 0x6F)) || op == 0x54 || op == 0x55

/-- The conditions of R169. -/
def drainedNow (s : State) : Bool :=
  s.tt.entries.all (fun kv => kv.2.st == .free || kv.2.st == .stub) &&
  s.rc.conns.all (fun kv => kv.1 == 0 || kv.2.st == .free) &&
  !s.work.any drainWork && s.sleeper.reads.isEmpty && s.ft.held.isEmpty

/-- Step 7 of R160, the device being drained: the firmware the image names (R159) and the STUBs' range (R175). (DEDUCED, log entry 31.) -/
def stateCheck (i : Image) (bytes : List Byte) (s : State) : Option ImgFail :=
  firstImgFail [
    checkFirmware s.flash.active i ((secIdx (directory bytes) 9).getD 0xFF),
    failIf (stubRange s i) 0x21 0xFF 0]

/-- A drained device goes on with the load: step 7 of R160, then a possession on every domain (R170). -/
def loadDrained (w : Work) (s : State) : State :=
  match s.img.staged with
  | none => s
  | some (i, b) =>
    match stateCheck i b s with
    | some f => imageFail w .malformed f { s with img := { s.img with staged := none } }
    | none => requestPoss 0x10 allDomains w.wid (s.setProg w.wid (.image .possess))

/-- The wait for drain ends undrained; DRAINING stays (R170). -/
def notDrained (w : Work) (s : State) : State :=
  imageFail w .malformed { cause := 0x20 } { s with img := { s.img with staged := none } }

/-- A validated load: a drained device goes on at once, another drains (R170). -/
def loadStaged (w : Work) (s : State) : State :=
  if drainedNow s then loadDrained w s
  else
    let s1 : State := { s with img := { s.img with draining := true } }
    if dat w.body 20 32 = 0 then notDrained w s1 else s1.setProg w.wid (.image .draining)

/-- The image read returns, or fails: validation (R160 to R162, R167). -/
def execImageReadComplete (data : Option (List Byte)) (s : State) : Host.Outcome State Fault Refusal :=
  act s (fun s => match imageAt .reading s with
    | none => s
    | some w =>
      match data with
      | none => imageFail w .poisonConsumed { cause := 0x23 } s
      | some b =>
        let n := dat w.body 16 32
        if b.length ≠ min n 0x1000000 then s else
        match validateImage s b n with
        | some f => imageFail w .malformed f s
        | none =>
          let i := parseImage b
          if w.opcode = 0x73 then complete w .ok i.imageId.toNat s
          else loadStaged w { s with img := { s.img with staged := some (i, b) } })

/-- The drain conditions come to hold: a waiting load goes on (R169, R170). DRAINED is read as the conditions themselves. -/
def execDrainReached (s : State) : Host.Outcome State Fault Refusal :=
  actIf s (drainedNow s) (fun s => match imageAt .draining s with
    | some w => loadDrained w s
    | none => s)

/-- DRAIN_WAIT ends undrained (R170). -/
def execDrainWaitExpire (s : State) : Host.Outcome State Fault Refusal :=
  act s (fun s => match imageAt .draining s with
    | some w => notDrained w s
    | none => s)

/-! ## Applying -/

/-- The point of no return (R172): registrations revoked, mappings removed, chains ended, Lanterns that only the old image enables dark,
then the Lantern tables of the new one written; the flash copy of the image in force is not complete until its copy ends (R71, R174, R176,
R263). -/
def pointOfNoReturn (wid : Nat) (s : State) : State :=
  match s.img.staged with
  | none => s
  | some (i, _) =>
    let s1 := (List.range s.partitions).foldl (fun s p => chainEnd p s) (darkLanterns s.img.image i (unmapAll (revokeNow (fun _ => true) s)))
    let s2 : State := { s1 with img := { s1.img with flashCopy := false } }
    setLanterns s.img.image i (s2.setProg wid (.image .applying))

/-- Steps 4 and 5 of R172 end, the lanes that changed their mode having trained: the image is in force, its flash copy starts, the possession ends and the load completes (R71, R157,
R168, R173 to R177, R180). (DEDUCED, log entry 27.) -/
def execImageApplyComplete (s : State) : Host.Outcome State Fault Refusal :=
  actIf s (!lanesTrain s) (fun s => match imageAt .applying s, s.img.staged with
    | some w, some (i, b) =>
      let s1 := applyImage (keptRegions s.img.image i) true i s
      let s2 : State := { s1 with
        img := { s1.img with
          loads := satBv s1.img.loads 1, ovrPend := overridesDiffer i s1, copying := some b },
        flash := { s1.flash with image := none } }
      complete w .ok i.imageId.toNat (releasePoss 0x10 w.wid s2)
    | _, _ => s)

/-- A fault after the point of no return: HBM is cleared and the device is UNCONFIGURED (R172). (DEDUCED, log entry 34.) -/
def execApplyFault (s : State) : Host.Outcome State Fault Refusal :=
  act s (fun s => match imageAt .applying s with
    | some w =>
      let s1 := noImage s
      let s2 : State := keepStubs { s1 with img := { s1.img with draining := s.img.draining } }
      imageFail w .internal { cause := 0x30 } (releasePoss 0x10 w.wid s2)
    | none => s)

/-! ## Retirement (R660 to R667) -/

/-- The tiles, chunks and units of a work item that run or wait to run again. -/
def liveTiles (w : Work) : List TileSt :=
  match w.prog with
  | .tiles t => t.live
  | .scatter o | .attend o => o.parts
  | .query q => q.live.map (fun b => b.tile)
  | _ => []

/-- Whether a tile runs on a Stand, or its last computation there has to be made again. -/
def tileOn (x : Nat × Nat) (t : TileSt) : Bool :=
  t.running == some x || (t.computed.head? == some x && !t.passed.any (fun a => a.stand == x))

/-- The duty of the Stands that compute a work item's tiles. -/
def tileDuty (w : Work) : Nat := match w.prog with | .query _ => 2 | _ => 0

/-- No tile in flight on a physical Stand is left: each has been computed again elsewhere, unless there is no other Stand to do so (R660,
step 2). -/
def standClear (g p : Nat) (s : State) : Bool :=
  match (s.phys g p).logical with
  | none => true
  | some l => !(s.stand g l).busy && s.work.all (fun w =>
      (workStands w.part (tileDuty w) s).isEmpty || (liveTiles w).all (fun t => !tileOn (g, l) t))

/-- Whether the move of a retiring Stand is asked for already. -/
def moveAsked (g p : Nat) (s : State) : Bool := s.ft.queue.any (fun r => r.activity == 0x06 && r.arg == 100 * g + p)

/-- The lowest retiring Stand of a Grove whose tiles are gone and whose move has yet to be asked for (R661). (DEDUCED, log entry 36.) -/
def nextRetire (g : Nat) (s : State) : Option Nat :=
  (List.range 100).find? (fun p => (s.phys g p).retiring && standClear g p s && !moveAsked g p s)

/-- The tiles of a retiring Stand have been recomputed: the possession of its move is asked for (R660, R661). -/
def execStandRetireTilesCleared (grove physical : Nat) (s : State) : Host.Outcome State Fault Refusal :=
  actIf s (decide (nextRetire grove s = some physical)) (requestPoss 0x06 (oneDomain grove) (100 * grove + physical))

/-- The logical ID of a retired Stand moves to the lowest spare, or becomes ABSENT; in floor-plan mode it always does (R660, R663,
R664, R667). -/
def retireMove (g p : Nat) (s : State) : State :=
  let out : Phys := { st := .retired }
  match (s.phys g p).logical with
  | none => s.modPhys g p (fun _ => out)
  | some l =>
    let spare := if s.boot.floor then none else (List.range 100).find? (fun q => (s.phys g q).st == .spare)
    let s1 := (s.modPhys g p (fun _ => out)).modStand g l (fun x => { x with physical := spare, resident := [] })
    let s2 := match spare with
      | some q => s1.modPhys g q (fun _ => { st := .active, logical := some l })
      | none => s1
    let res := packFields [(g, 2, 0), (l, 8, 8), (p, 8, 16), (spare.getD 0xFF, 8, 24)]
    let s3 := event 0 0x0700 res s2
    if spare.isNone then event 0 0x0701 res s3 else s3

/-! ## Possessions -/

/-- What a granted retrain does: the link trains again, or its lane trains alone; with neither to train it ends at once (R491,
R493). -/
def grantRetrain (arg : Nat) (s : State) : State :=
  let n := arg / 64
  let k := arg % 64
  if k ≥ 32 then
    if (s.link n (k - 32)).up then startTraining n (k - 32) s else releasePoss 0x03 arg s
  else if (s.link n (laneLink n k s)).up ∧ !laneRuns n k s then s.modLane n k (fun x => { x with st := .training })
  else releasePoss 0x03 arg s

/-- The first waiting request that may be granted holds its domains, and its activity runs (R692). -/
def execPossessionGrant (s : State) : Host.Outcome State Fault Refusal :=
  act s (fun s => match nextGrant s.ft.held [] s.ft.queue with
    | none => s
    | some (r, rest) =>
      let s1 : State := { s with ft := { s.ft with held := s.ft.held ++ [{ r with since := s.clk.ac }], queue := rest } }
      if r.activity = 0x10 then pointOfNoReturn r.arg s1
      else if r.activity = 0x03 then grantRetrain r.arg s1
      else if r.activity = 0x06 then releasePoss 0x06 r.arg (retireMove (r.arg / 100) (r.arg % 100) s1)
      else s1)

/-- Activities that firmware starts and ends (R691). -/
def maintenance (a : Byte) : Bool := a == 0x01 || a == 0x02 || a == 0x04 || a == 0x05

/-- An uncorrectable line a patrol scrub found: its poison mark, and the deferred fault of source 0x03 (R674, R675, R678). -/
def scrubLine (stack : Nat) (s : State) (line : Nat) : State :=
  if 64 * line / 2 ^ 36 ≠ stack then s else
  raiseErr' { cls := 1, source := 0x03, domain := 4 + stack, cause := Status.poisonConsumed.code, detail0 := 64 * line % 2 ^ 36,
              detail1 := stack } { s with mem := { s.mem with poison := tput s.mem.poison line true false } }

/-- A maintenance activity on a domain ends and its possession is released (R691, R692); a patrol scrub names the uncorrectable
lines it found. -/
def execMaintenanceComplete (domain : Nat) (badLines : List Nat) (s : State) : Host.Outcome State Fault Refusal :=
  act s (fun s => match s.ft.held.find? (fun h => maintenance h.activity && h.domains.toNat.testBit domain) with
    | none => s
    | some h =>
      let s1 := releasePoss h.activity h.arg s
      if h.activity = 0x01 then badLines.foldl (scrubLine h.arg) s1 else s1)

/-- Firmware asks for a patrol scrub of a stack (R691). -/
def execHbmPatrolScrub (stack : Nat) (s : State) : Host.Outcome State Fault Refusal :=
  actIf s (decide (stack < 8)) (requestPoss 0x01 (oneDomain (4 + stack)) stack)

/-- Firmware asks for a periodic retrain of a stack (R691). -/
def execHbmPeriodicRetrain (stack : Nat) (s : State) : Host.Outcome State Fault Refusal :=
  actIf s (decide (stack < 8)) (requestPoss 0x02 (oneDomain (4 + stack)) stack)

/-- Firmware asks for the calibration of a DDR5 channel (R691). -/
def execDdr5PeriodicCalibration (channel : Nat) (s : State) : Host.Outcome State Fault Refusal :=
  actIf s (decide (channel < 12)) (requestPoss 0x04 (oneDomain (20 + channelStation channel)) channel)

/-- Firmware asks for a Stand firmware broadcast: both Stations and every Grove (R691). -/
def execFirmwareBroadcastRequest (s : State) : Host.Outcome State Fault Refusal := act s (requestPoss 0x05 0x30000F 0)

end Sys2Proof.Machine
end

