-- ==== Sys2Proof/Machine/HostPort.lean ====
section
/-! DEFINITION. The host port's rings (R91 to R122, R401, R402): configuration, tails, descriptor fetch and dispatch, NOP, head
lines, moderation timers, MSI-X vectors; and the host's window into HBM (R84 to R88). -/

namespace Sys2Proof.Machine

/-! ## Configuring rings -/

/-- Records a refused configuration write (R97, R98): kind 0 submission, 1 completion, 2 token. (DEDUCED, log entry 17.) -/
def refuseCfg (f cause kind ring : Nat) (s : State) : State :=
  s.modFn f (fun r => { r with cfgErr :=
    { valid := true, cause := BitVec.ofNat 8 cause, kind := BitVec.ofNat 2 kind, ring := BitVec.ofNat 8 ring } })

/-- The first cause that holds (R97). -/
def firstCause : List (Bool × Nat) → Option Nat
  | [] => none
  | (b, c) :: r => if b then some c else firstCause r

/-- A tail read is issued; one that arrives during another makes the line read again (R99, R107, R108). -/
def readTail (n : Nat) (s : State) : State :=
  if (s.sq n).reading then s.modSq n (fun q => { q with reread := true })
  else (s.modSq n (fun q => { q with reading := true, reread := false })).emit (.tailRead n (s.sq n).tailAddr.toNat)

/-- A submission ring stops: what was being read is not fetched (R99, R100). -/
def stopSq (q : Sq) (st : SqState) : Sq := { q with st, reading := false, reread := false, fetching := 0 }

/-- Positions that a running ring has still to ask for; none while a full completion ring stalls it (R99, R104, R116). -/
def newPositions (n : Nat) (s : State) : Nat :=
  let q := s.sq n
  if q.st = .running ∧ ringStalled n s = false then (q.tail - q.head).toNat - q.fetching else 0

/-- Reads for the next descriptors of a ring, at most 16: its turn (R104, R109). A run past the last slot is two reads. -/
def issueFetch (n : Nat) (s : State) : State :=
  let q := s.sq n
  let k := min 16 (newPositions n s)
  let left := 2 ^ q.logSize.toNat - q.head.toNat % 2 ^ q.logSize.toNat
  let ask (p : W32) (c : Nat) : Out := .descRead n p (slotAddr q.base q.logSize.toNat 64 p) c
  let s1 := (s.modSq n (fun q => { q with fetching := k })).emit (ask q.head (min k left))
  if k ≤ left then s1 else s1.emit (ask (q.head + BitVec.ofNat 32 left) (k - left))

/-- The ring whose turn it is, with whether a new round begins: the rings that have new descriptors and no turn yet in this round come
first; one whose last turn's descriptors have yet to arrive takes none (R104). -/
def nextTurn (s : State) : Option (Nat × Bool) :=
  let want := (s.host.sqs.map Prod.fst).filter (fun n => decide (0 < newPositions n s))
  let due := want.filter (fun n => !s.host.served.any (· == n))
  let free (l : List Nat) : Option Nat := l.find? (fun n => (s.sq n).fetching == 0)
  if due.isEmpty then (free want).map (fun n => (n, true)) else (free due).map (fun n => (n, false))

/-- Rings take their turns, round-robin, while any may (R104); `fuel` bounds them by the rings. -/
def serveRings : Nat → State → State
  | 0, s => s
  | k + 1, s => match nextTurn s with
    | none => s
    | some (n, fresh) =>
      serveRings k (issueFetch n { s with host := { s.host with served := if fresh then [n] else s.host.served ++ [n] } })

/-- The turns that may be taken now. -/
def serve (s : State) : State := serveRings s.host.sqs.length s

/-- A ring that has asked for all its descriptors is served at once when new ones come (R104, R109). -/
def endTurn (n : Nat) (s : State) : State :=
  if newPositions n s = 0 then { s with host := { s.host with served := s.host.served.filter (· != n) } } else s

/-- A write of HI_SQ_CFG (R95, R97, R99). -/
def writeSqCfg (f r : Nat) (cfg : W32) (s : State) : State :=
  let n := ringOf f r
  let q := s.sq n
  let v := cfg.toNat
  let en := v.testBit 0
  let q1 : Sq := { q with polled := v.testBit 1, logSize := BitVec.ofNat 5 (fld v 3 5), cq := BitVec.ofNat 8 (fld v 8 8) }
  let cq := fld v 8 8
  match firstCause [
    (en && readsOnly s, 6), (q.st != .disabled && q1 != q, 1), (decide (fld v 3 5 < 6) || decide (fld v 3 5 > 16), 2),
    (en && q.st == .disabled && !(ringExists f cq && (s.cq (ringOf f cq)).enable), 3)] with
  | some c => refuseCfg f c 0 r s
  | none =>
    if readsOnly s then s
    else if en then
      if q.st = .disabled ∨ q.st = .draining then
        readTail n (s.modSq n (fun _ => { stopSq q1 .running with enable := true, err := 0 }))
      else s
    else if q.st = .running ∨ q.st = .error then
      serve (settleRing n (s.modSq n (fun _ => { stopSq q1 .draining with enable := false })))
    else s.modSq n (fun _ => { q1 with enable := false })

/-- A submission ring of the function that is not disabled names the completion ring (R97). -/
def namesCq (f r : Nat) (s : State) : Bool :=
  s.host.sqs.any (fun kv => ringFn kv.1 == f && kv.2.cq.toNat == r && kv.2.st != .disabled)

/-- Vectors a function may name (R97). -/
def vectorLimit (f : Nat) : Nat := if f = 0 then 128 else 120

/-- Records a ring still held when it stops taking them are lost (R119). -/
def loseN : Nat → Nat → State → State
  | _, 0, s => s
  | f, k + 1, s => loseN f k (loseRec f s)

/-- A write of HI_CQ_CFG (R96, R97). An enabled ring has no room until its head line has been read. -/
def writeCqCfg (f r : Nat) (cfg : W32) (s : State) : State :=
  let n := ringOf f r
  let c := s.cq n
  let v := cfg.toNat
  let en := v.testBit 0
  let c1 : Cq := { c with
    polled := v.testBit 1, logSize := BitVec.ofNat 5 (fld v 3 5), vector := BitVec.ofNat 11 (fld v 8 11), irqEn := v.testBit 19 }
  match firstCause [
    (en && readsOnly s, 6), (c.enable && c1 != c, 1), (decide (fld v 3 5 < 6) || decide (fld v 3 5 > 16), 2),
    (en && !c.enable && decide (fld v 8 11 ≥ vectorLimit f), 4), (!en && c.enable && namesCq f r s, 5)] with
  | some k => refuseCfg f k 1 r s
  | none =>
    if readsOnly s then s
    else if en then
      if c.enable then s
      else (s.modCq n (fun _ => { c1 with
        enable := true, head := c.tail - BitVec.ofNat 32 (2 ^ fld v 3 5), count := 0, timer := false })).emit (.cqHeadRead n c1.headAddr.toNat)
    else loseN f c.held.length (s.modCq n (fun _ => { c1 with enable := false, held := [], count := 0, timer := false }))

/-- A write of HI_TOK_CFG (R401, R402). -/
def writeTokCfg (f : Nat) (cfg : W32) (s : State) : State :=
  let t := s.tok f
  let v := cfg.toNat
  let en := v.testBit 0
  let t1 : Tok := { t with
    polled := v.testBit 1, logSize := BitVec.ofNat 5 (fld v 4 5), vector := BitVec.ofNat 11 (fld v 9 11), irqEn := v.testBit 20 }
  match firstCause [
    (en && readsOnly s, 6), (t.enable && t1 != t, 1), (decide (fld v 4 5 < 6) || decide (fld v 4 5 > 20), 2),
    (en && !t.enable && decide (fld v 9 11 ≥ vectorLimit f), 4)] with
  | some k => refuseCfg f k 2 0 s
  | none =>
    if readsOnly s then s
    else if en then
      if t.enable then s
      else (s.modTok f (fun _ => { t1 with
        enable := true, head := t.tail - BitVec.ofNat 32 (2 ^ fld v 4 5), count := 0, timer := false })).emit (.tokHeadRead f t1.headAddr.toNat)
    else loseN f t.held.length (s.modTok f (fun _ => { t1 with enable := false, held := [], count := 0, timer := false }))

/-- CFG with ENABLE set, and with it clear. -/
def withEnable (cfg : W32) (on : Bool) : W32 := BitVec.ofNat 32 (2 * (cfg.toNat / 2) + b2n on)

/-- Setting HI_SQ_CFG.ENABLE (R97, R99). (DEDUCED, log entry 15.) -/
def execSqEnable (fn ring : Nat) (cfg : W32) (s : State) : Host.Outcome State Fault Refusal :=
  actIf s (reaches fn s && ringExists fn ring) (writeSqCfg fn ring (withEnable cfg true))

/-- Clearing HI_SQ_CFG.ENABLE (R97, R99, R100). -/
def execSqDisable (fn ring : Nat) (cfg : W32) (s : State) : Host.Outcome State Fault Refusal :=
  actIf s (reaches fn s && ringExists fn ring) (writeSqCfg fn ring (withEnable cfg false))

/-- Setting HI_CQ_CFG.ENABLE (R96, R97). -/
def execCqEnable (fn ring : Nat) (cfg : W32) (s : State) : Host.Outcome State Fault Refusal :=
  actIf s (reaches fn s && ringExists fn ring) (writeCqCfg fn ring (withEnable cfg true))

/-- Clearing HI_CQ_CFG.ENABLE (R97). -/
def execCqDisable (fn ring : Nat) (cfg : W32) (s : State) : Host.Outcome State Fault Refusal :=
  actIf s (reaches fn s && ringExists fn ring) (writeCqCfg fn ring (withEnable cfg false))

/-- Setting HI_TOK_CFG.ENABLE (R401, R402). -/
def execTokRingEnable (fn : Nat) (cfg : W32) (s : State) : Host.Outcome State Fault Refusal :=
  actIf s (reaches fn s && decide (fn ≤ 16)) (writeTokCfg fn (withEnable cfg true))

/-- Clearing HI_TOK_CFG.ENABLE (R401). -/
def execTokRingDisable (fn : Nat) (cfg : W32) (s : State) : Host.Outcome State Fault Refusal :=
  actIf s (reaches fn s && decide (fn ≤ 16)) (writeTokCfg fn (withEnable cfg false))

/-- The address a base register keeps: 4 KiB aligned (R95, R96). -/
def baseAddr (v : W64) : W64 := BitVec.ofNat 64 (v.toNat / 4096 * 4096)
/-- The address of a line: 64-byte aligned (R94). -/
def lineAddr (v : W64) : W64 := BitVec.ofNat 64 (v.toNat / 64 * 64)

/-- The low word of a written value. -/
def low32 (v : W64) : W32 := BitVec.ofNat 32 v.toNat

/-- Registers of a ring's set other than CFG: 64 bits at 0 and 8, 32 bits from 0x14 (R95, R96, R402). -/
def setReg (o width : Nat) : Bool :=
  (width == 64 && (o == 0 || o == 8)) || (width == 32 && (o == 0x14 || o == 0x18 || o == 0x1C))

/-- A write into a submission ring's set (R91, R95, R97). -/
def writeSqReg (f r o width : Nat) (v : W64) (s : State) : State :=
  if o = 0x10 ∧ width = 32 then writeSqCfg f r (low32 v) s
  else if !setReg o width || readsOnly s then s
  else if (s.sq (ringOf f r)).st ≠ .disabled then refuseCfg f 1 0 r s
  else s.modSq (ringOf f r) (fun q =>
    { q with
      base := if o = 0 then baseAddr v else q.base, tailAddr := if o = 8 then lineAddr v else q.tailAddr,
      head := if o = 0x18 then low32 v else q.head })

/-- A write into a completion ring's set (R91, R96, R97). -/
def writeCqReg (f r o width : Nat) (v : W64) (s : State) : State :=
  if o = 0x10 ∧ width = 32 then writeCqCfg f r (low32 v) s
  else if !setReg o width || readsOnly s then s
  else if (s.cq (ringOf f r)).enable then refuseCfg f 1 1 r s
  else s.modCq (ringOf f r) (fun c =>
    { c with
      base := if o = 0 then baseAddr v else c.base, headAddr := if o = 8 then lineAddr v else c.headAddr,
      modCount := if o = 0x14 then BitVec.ofNat 8 v.toNat else c.modCount,
      modTime := if o = 0x14 then BitVec.ofNat 24 (v.toNat / 256) else c.modTime,
      tail := if o = 0x18 then low32 v else c.tail })

/-- A write into the token ring's set (R401, R402). -/
def writeTokReg (f o width : Nat) (v : W64) (s : State) : State :=
  if o = 0x10 ∧ width = 32 then writeTokCfg f (low32 v) s
  else if !setReg o width || readsOnly s then s
  else if (s.tok f).enable then refuseCfg f 1 2 0 s
  else s.modTok f (fun c =>
    { c with
      base := if o = 0 then baseAddr v else c.base, headAddr := if o = 8 then lineAddr v else c.headAddr,
      modCount := if o = 0x14 then BitVec.ofNat 8 v.toNat else c.modCount,
      modTime := if o = 0x14 then BitVec.ofNat 24 (v.toNat / 256) else c.modTime,
      tail := if o = 0x18 then low32 v else c.tail })

/-- Which ring register set a BAR0 offset lies in (R83, R402): kind 0 submission, 1 completion, 2 token, its ring number and
the offset within the set. -/
def ringSet (off : Nat) : Option (Nat × Nat × Nat) :=
  if 0x201000 ≤ off ∧ off < 0x205000 then some (0, (off - 0x201000) / 64, off % 64)
  else if 0x208000 ≤ off ∧ off < 0x20C000 then some (1, (off - 0x208000) / 64, off % 64)
  else if 0x200040 ≤ off ∧ off < 0x200060 then some (2, 0, off - 0x200040)
  else none

/-- A write to a ring register (R91, R95 to R98). -/
def execRingConfigWrite (fn off width : Nat) (value : W64) (s : State) : Host.Outcome State Fault Refusal :=
  actIf s (reaches fn s && decide (fn ≤ 16)) (fun s => match ringSet off with
    | some (0, r, o) => if ringExists fn r then writeSqReg fn r o width value s else s
    | some (1, r, o) => if ringExists fn r then writeCqReg fn r o width value s else s
    | some (_, _, o) => writeTokReg fn o width value s
    | none => s)

/-! ## Tails -/

/-- The line of a watched ring is lost: it is read again, and the device wakes from N1 or N2 (R73, R107, R108, R112). -/
def execTailLineInvalidation (ring : Nat) (s : State) : Host.Outcome State Fault Refusal :=
  actIf s (portOpen s && cxlMode s && !(s.sq ring).polled && (s.sq ring).st == .running) (fun s => readTail ring (wakeSubmit s))

/-- The poll interval of a polled ring passes: its line is read (R111); PCIE mode polls every ring (R95). -/
def execTailPoll (ring : Nat) (s : State) : Host.Outcome State Fault Refusal :=
  actIf s (portOpen s && ((s.sq ring).polled || s.host.mode == .pcie) && (s.sq ring).st == .running && !(s.sq ring).reading) (readTail ring)

/-- A submission ring enters error (R100). -/
def ringError (n err : Nat) (tail : W32) (s : State) : State :=
  let q := s.sq n
  event (ringFn n) 0x0200 (packFields [(ringLocal n, 8, 0), (err, 8, 8), (tail.toNat, 32, 16)])
    (s.modSq n (fun q => { stopSq q .error with err := BitVec.ofNat 8 err })) 0 q.head

/-- A tail value returns, or its line cannot be read (R100, R108, R109); a new tail seen by polling wakes the device (R73). -/
def execTailReadReturn (ring : Nat) (tail : Option W32) (s : State) : Host.Outcome State Fault Refusal :=
  actIf s (portOpen s && (s.sq ring).st == .running && (s.sq ring).reading) (fun s =>
    let q := s.sq ring
    match tail with
    | none => serve (ringError ring 2 0 s)
    | some t =>
      if (t - q.head).toNat > 2 ^ q.logSize.toNat then serve (ringError ring 1 t (s.modSq ring (fun q => { q with tail := t })))
      else
        let s1 := s.modSq ring (fun q => { q with tail := t, reading := false, reread := false })
        let s2 := if (q.polled || s.host.mode == .pcie) && t != q.tail then wakeSubmit s1 else s1
        serve (if q.reread then readTail ring s2 else s2))

/-! ## Fetch and dispatch -/

/-- The opcodes R102's ranges define; every other is reserved (R103). -/
def opcodeDefined (op : Nat) : Bool :=
  op == 0 || (decide (0x10 ≤ op) && decide (op ≤ 0x19)) || (decide (0x20 ≤ op) && decide (op ≤ 0x24)) ||
  (decide (0x30 ≤ op) && decide (op ≤ 0x38)) || (decide (0x40 ≤ op) && decide (op ≤ 0x4B)) ||
  (decide (0x50 ≤ op) && decide (op ≤ 0x56)) || (decide (0x60 ≤ op) && decide (op ≤ 0x62)) ||
  (decide (0x70 ≤ op) && decide (op ≤ 0x73)) || (decide (0x80 ≤ op) && decide (op ≤ 0x82))

/-- The descriptors that go on during a load: NOP, snapshot reads, image control, waybill retrieval, work requests on the
management connection (R171). -/
def loadExempt (w : Work) : Bool :=
  w.opcode == 0x00 || w.opcode == 0x12 || imageOp w.opcode || decide (0x80 ≤ w.opcode.toNat ∧ w.opcode.toNat ≤ 0x8F) ||
  (decide (0x43 ≤ w.opcode.toNat) && decide (w.opcode.toNat ≤ 0x48) && connOf w == 0)

/-- A load is past step 1 of R170. -/
def loadCancels (s : State) : Bool :=
  (imageAt .draining s).isSome || (imageAt .possess s).isSome || (imageAt .applying s).isSome

/-- What a descriptor completes with as it arrives, if anything: a reserved opcode, no image in force (R172), a load (R171), a
context that fails R103 or R715 (R764). Image control of the physical function names no tenant's object and is taken in every state (R172).
(DEDUCED, log entry 8.) -/
def dispatchFails (w : Work) (s : State) : Option (Status × Nat) :=
  firstFail [
    (!opcodeDefined w.opcode.toNat, (.malformed, 0)),
    (s.img.image.isNone && !loadExempt w, (.malformed, Config.random s.free % 256)),
    (loadCancels s && !loadExempt w, (.cancelled, 1)),
    (!(imageOp w.opcode && w.fn == 0) && !switching w.part s && ctxMismatch w.fn w.context s, (.tenantMismatch, 0))]

/-- The work item of a descriptor fetched at a position (R101, R715). -/
def workOf (n : Nat) (p : W32) (d : Descriptor) (s : State) : Work :=
  let c := dat d 2 12
  let m := s.ctxMap c
  { wid := s.nextWid, src := .ring n p, fn := ringFn n, tag := BitVec.ofNat 32 (dat d 4 32), opcode := BitVec.ofNat 8 (dat d 0 8),
    context := c, fence := d.getLsbD 9, irq := d.getLsbD 8, silent := d.getLsbD 10, body := d, fetchSc := s.clk.sc,
    tenant := m.tenant, part := m.part, notUnsealed := writesSealed d s }

/-- The record of a position whose descriptor read failed (R106). The rule gives STATUS, TAG and OPCODE; CONTEXT, RESULT and EXEC_SC are 0 and
the record counts toward no moderation. (DESIGN CHOICE, log entry 94.) -/
def badRead (n : Nat) (p : W32) (s : State) : State :=
  giveRec (ringFn n) (s.sq n).cq.toNat
    { tag := 0, status := Status.poisonConsumed.code, opcode := 0, sq := BitVec.ofNat 8 (ringLocal n), sqPos := p, context := 0,
      result := 0, execSc := 0, phase := false, faultRef := 0, counted := false } s

/-- A descriptor arrives: HEAD goes past it, and it is dispatched (R99, R103, R106). -/
def fetchOne (n : Nat) (s : State) (o : Option Descriptor) : State :=
  let q := s.sq n
  let s1 := s.modSq n (fun q => { q with head := q.head + 1, fetching := q.fetching - 1 })
  match o with
  | none => badRead n q.head s1
  | some d =>
    let w := workOf n q.head d s1
    let s2 : State := { s1 with work := s1.work ++ [w], nextWid := s1.nextWid + 1 }
    match dispatchFails w s2 with
    | some (st, r) => complete w st r (if s2.img.image.isNone && st == .malformed then s2.fresh else s2)
    | none => s2

/-- Descriptors return in position order (R104 to R106, R109); the turns that are then free follow. -/
def execDescriptorReadReturn (ring : Nat) (ds : List (Option Descriptor)) (s : State) : Host.Outcome State Fault Refusal :=
  actIf s (portOpen s && (s.sq ring).st == .running && decide (ds.length ≤ (s.sq ring).fetching)) (fun s =>
    serve (endTurn ring (ds.foldl (fetchOne ring) s)))

/-- NOP completes with OK and RESULT 0 (R102). -/
def execNop (wid : Nat) (s : State) : Host.Outcome State Fault Refusal := start wid 0x00 s (fun w s => complete w .ok 0 s)

/-! ## Heads, moderation and vectors -/

/-- The head line of a completion ring is read: held records that now fit are written, and the rings it stalled go on; while it is full
the line is read again (R116). -/
def execCqHeadLineRead (ring : Nat) (head : W32) (s : State) : Host.Outcome State Fault Refusal :=
  actIf s (portOpen s && (s.cq ring).enable) (fun s =>
    let s1 := s.modCq ring (fun c => { c with head })
    serve (if (s1.cq ring).held.isEmpty || !(s1.cq ring).room then readHead ring s1 else flushHeld ring (s1.cq ring).held.length s1))

/-- The head line of a token ring is read (R401). -/
def execTokHeadLineRead (fn : Nat) (head : W32) (s : State) : Host.Outcome State Fault Refusal :=
  actIf s (portOpen s && (s.tok fn).enable) (fun s =>
    let s1 := s.modTok fn (fun c => { c with head })
    if (s1.tok fn).held.isEmpty || !decide ((s1.tok fn).used < 2 ^ (s1.tok fn).logSize.toNat) then readTokHead fn s1
    else flushTok fn (s1.tok fn).held.length s1)

/-- HI_CQ_MOD.TIME has passed since the first counted record: the vector is signalled (R122). -/
def execCqModTimerExpire (ring : Nat) (s : State) : Host.Outcome State Fault Refusal :=
  actIf s (portOpen s && (s.cq ring).timer) (fun s =>
    msixSignal (ringFn ring) (s.cq ring).vector.toNat (s.modCq ring (fun c => { c with count := 0, timer := false })))

/-- HI_TOK_MOD.TIME has passed (R122, R402). -/
def execTokModTimerExpire (fn : Nat) (s : State) : Host.Outcome State Fault Refusal :=
  actIf s (portOpen s && (s.tok fn).timer) (fun s =>
    msixSignal fn (s.tok fn).vector.toNat (s.modTok fn (fun c => { c with count := 0, timer := false })))

/-- How a change of MSI-X reaches the device: Enable and Function Mask by configuration space, a vector's Mask bit by BAR0 (R78, R85, R121). -/
def msixReaches (fn : Nat) (target : MsixTarget) (s : State) : Bool :=
  match target with
  | .vector _ => writes fn s
  | _ => portOpen s && answers fn s

/-- MSI-X Enable is set, or the function or a vector is unmasked (R121). -/
def execMsixVectorUnmask (fn : Nat) (target : MsixTarget) (s : State) : Host.Outcome State Fault Refusal :=
  actIf s (msixReaches fn target s && decide (fn ≤ 16)) (fun s => sendPending fn (match target with
    | .enable => s.modFn fn (fun r => { r with msixEn := true })
    | .functionUnmask => s.modFn fn (fun r => { r with fmask := false })
    | .vector v => if v ≥ vectorCount fn then s else
      { s with host := { s.host with msix := tmod s.host.msix (vectorOf fn v) {} (fun m => { m with mask := false }) } }))

/-- VF Enable is set again, with NumVFs virtual functions (R89, R124). -/
def execVfEnableSet (numVfs : Nat) (s : State) : Host.Outcome State Fault Refusal :=
  actIf s (portOpen s && (s.host.mode == .cxl2 || s.host.mode == .pcie) && !s.host.vfEnable && decide (numVfs ≤ 16)) (fun s =>
    { s with host := { s.host with vfEnable := true, numVfs } })

/-! ## The host's window -/

/-- The region a window access lies in, and its offset there. (DEDUCED, log entry 18.) -/
def windowAt (off len : Nat) (s : State) : Option (Region × Nat) :=
  ((window s).find? (fun x =>
    decide (x.1 ≤ off) && decide (off + len ≤ x.1 + x.2.size))).map (fun x => (x.2, off - x.1))

/-- Counts a rejected BAR2 access (R85). -/
def hostReject (s : State) : State := { s with ddr := { s.ddr with hostReject := satBv s.ddr.hostReject 1 } }

/-- A read of a host-visible region: data, with poison where a line is marked or an uncorrectable error is met, which is then a
fault of source 0x03 (R88, R675). -/
def windowRead (r : Region) (o len : Nat) (obs : HbmObs) (s : State) : State :=
  let f := hbmFound obs (fun a => (regionLines r o len).any (· == a / 64)) s
  let h := injectHit 0x05 (regionAddr r o / 2 ^ 36) f.2
  let s1 := match f.1, h.1 with
    | some a, _ => raiseErr' (hbmErr a h.1) h.2
    | none, true => raiseErr' (hbmErr (regionAddr r o) true) h.2
    | none, false => h.2
  s1.emit (.memData (regionRead s1 r o len) (h.1 || regionPoisoned s1 r o len))

/-- A BAR2 read (R85, R88). One of a region waits while HBM is in self-refresh. (DESIGN CHOICE, log entry 95.) -/
def execBar2Read (off : Nat) (rd : HbmRead) (s : State) : Host.Outcome State Fault Refusal :=
  actIf s (portOpen s) (fun s =>
    if readsOnly s then (hostReject s).emit .unsupportedRequest
    else match windowAt off rd.len s with
    | some (r, o) => if s.awake then windowRead r o rd.len rd.obs s else s
    | none => (hostReject s).emit (.memData (List.replicate rd.len 0xFF) false))

/-- A BAR2 write (R85, R274). One to a region waits while HBM is in self-refresh. (DESIGN CHOICE, log entry 95.) -/
def execBar2Write (off : Nat) (data : List Byte) (s : State) : Host.Outcome State Fault Refusal :=
  actIf s (portOpen s) (fun s =>
    if readsOnly s then hostReject s
    else match windowAt off data.length s with
    | some (r, o) => if r.flags.getLsbD 1 then hostReject s else if s.awake then regionWrite r o data s else s
    | none => hostReject s)

/-- The region and offset that a host physical address names through the HDM-D decoder (R86). -/
def hdmAt (addr len : Nat) (s : State) : Option (Region × Nat) :=
  if addr < s.host.hdmBase.toNat then none else windowAt (addr - s.host.hdmBase.toNat) len s

/-- A CXL.mem read through the HDM-D decoder (R86, R88); it waits while HBM is in self-refresh. (DESIGN CHOICE, log entry 95.) -/
def execCxlMemRead (addr : Nat) (rd : HbmRead) (s : State) : Host.Outcome State Fault Refusal :=
  actIf s (portOpen s && cxlMode s && !readsOnly s && s.awake) (fun s => match hdmAt addr rd.len s with
    | some (r, o) => windowRead r o rd.len rd.obs s
    | none => s)

/-- A CXL.mem write; a region read-only to the host takes none (R85, R86); it waits while HBM is in self-refresh. (DESIGN CHOICE, log
entry 95.) -/
def execCxlMemWrite (addr : Nat) (data : List Byte) (s : State) : Host.Outcome State Fault Refusal :=
  actIf s (portOpen s && cxlMode s && !readsOnly s && s.awake) (fun s => match hdmAt addr data.length s with
    | some (r, o) => if r.flags.getLsbD 1 then s else regionWrite r o data s
    | none => s)

end Sys2Proof.Machine
end

