-- ==== Sys2Proof/Machine/Recovery.lean ====
section
/-! DEFINITION. Faults and recovery (chapter 17): stopping a descriptor (R685), the levels of the reset ladder, watchdogs and
escalation (R684 to R689), disabling a function (R696), contexts and semaphores (R697 to R705), the fault state and ERR_N (R682,
R683), die links, control state and cores (R28 to R30, R675), injection (R710). -/

namespace Sys2Proof.Machine

/-! ## Stopping a descriptor -/

/-- The Stands that run tiles are free at once (R185, R685). -/
def freeStands (l : List TileSt) (s : State) : State :=
  l.foldl (fun s t => match t.running with | some x => s.modStand x.1 x.2 (fun y => { y with busy := false }) | none => s) s

/-- The reads of a work item are abandoned. -/
def dropReads (wid : Nat) (s : State) : State :=
  let mine := s.sleeper.reads.filter (fun r => r.forw.wid == wid)
  let s1 : State := { s with sleeper := { s.sleeper with
    reads := s.sleeper.reads.filter (fun r => r.forw.wid != wid), bufs := s.sleeper.bufs.filter (fun d => d.forw.wid != wid) } }
  (mine.filter (fun r => !r.remote && r.arrived.isNone)).foldl (fun s r => s.modDdr r.region (fun x => { x with inFlight := x.inFlight - 1 })) s1

/-- Pages a stopped KV_FETCH took and has not entered in its list (R321). -/
def unfetched (b : BlockOp) : List Nat :=
  (b.pages.zipIdx.filter (fun x => decide ((b.endedIdx.filter (fun k => k / 16 == x.2)).length < 16))).map (fun x => x.1.2)

/-- The region of a pool a list operation names. -/
def listPool (w : Work) (s : State) : Nat := match listAt s (dat w.body 8 64) with | some h => h.pool | none => 0

/-- What a stopped work item held goes back (R226, R228, R274, R288, R450, R471, R542, R623). -/
def stopProg (w : Work) (s : State) : State :=
  match w.prog with
  | .tiles _ | .scatter _ | .attend _ | .query _ => freeStands (liveTiles w) s
  | .canopyLoad g k => s.modSlotC g k (fun _ => {})
  | .canopyFree g k => s.modSlotC g k (fun x => { x with st := .ready })
  | .measure r => { s with waybill := { s.waybill with measuring := s.waybill.measuring.filter (· != r) } }
  | .coding b => s.modDdr (codeDest w 0).1 (fun r => { r with inFlight := r.inFlight - (b.total - b.ended) })
  | .fetching b => if w.opcode = 0x55 then s else returnPages (listPool w s) (unfetched b) s
  | .image _ =>
    { s with
      img := { s.img with staged := none, st := settledState s },
      ft := { s.ft with queue := s.ft.queue.filter (fun q => !(q.activity == 0x10 && q.arg == w.wid)) } }
  | .ddrInit id =>
    let r := s.ddrRegion id
    (s.modDdr id (fun _ => {})).modShare r.tenant (fun x => { x with
      used := x.used - r.units, pinned := if r.pin then x.pinned - r.units else x.pinned })
  | .create c => s.modConn c (fun _ => {})
  | .conn c => s.modConn c (fun x => { x with opener := none })
  | .boundary i => if w.opcode = 0x11 then s.modEntry i (fun e => { e with cancelPend := false }) else s
  | .indexLoad r => { s with cs := { s.cs with index := tmod s.cs.index r {} (fun x => { x with st := .unloaded }) } }
  | .rail _ | .posted =>
    s.modConn (connOf w) (fun c => { c with queue := c.queue.filter (· != w.wid), recvs := c.recvs.filter (· != w.wid) })
  | _ => s

/-- A load past the point of no return, and an issued Rail request, run to their end (R172, R551, R685). -/
def runsOn (w : Work) : Bool :=
  match w.prog with
  | .image st => st == .applying
  | .rail r => r.issued
  | _ => false

/-- An executed operation of the Groves: its end is recorded, by itself or in its step (R261, R262, R264). -/
def recorded (w : Work) : Bool :=
  decide (0x20 ≤ w.opcode.toNat) && decide (w.opcode.toNat ≤ 0x3F) && w.prog != .waiting

/-- What an operation that is stopped gives its record: what it has read, written and counted so far (R264 to R266). -/
def stopInfo (w : Work) (st : Status) (s : State) : StepInfo :=
  match w.prog with
  | .ended x _ _ => { x with status := st }
  | .tiles o =>
    if w.opcode = 0x22 then
      let v := vecOf w
      tileInfo w { o with worst := st } (inputRegions s v.inputs) (refRead s v.out 0 v.outBytes)
    else
      let m := matOf w
      tileInfo w { o with worst := st } (inputRegions s [m.a, m.b]) (refRead s m.c 0 m.cBytes)
  | .attend o => attInfo w o st s
  | .scatter _ => scatterInfo w st s
  | .canopyLoad _ _ => { opInfo w st [] with regions := inputRegions s [refAt w.body 8] }
  | _ => opInfo w st []

/-- Stops a descriptor as level 1 does (R685): what it held goes back and it completes with a status, its record appended first or, without
room for one, held with that status (R262, R271); a request whose messages have issued completes with it when they have run to their end.
(DEDUCED, log entry 76.) -/
def stopWork (st : Status) (result : Nat) (fr : BitVec 16) (s : State) (wid : Nat) : State :=
  match s.item wid with
  | none => s
  | some w =>
    if runsOn w then
      (match w.prog with
       | .rail r => s.setProg wid (.rail { r with reset := some st })
       | _ => s)
    else
      let s1 := stopProg w (dropReads wid s)
      let s2 := if recorded w then finishOp w (stopInfo w st s) result s1 fr else complete w st result s1 fr
      match w.prog with
      | .rail _ => settleConn (connOf w) s2
      | _ => s2

/-! ## Semaphores -/

/-- The semaphores a context waits for, and those it owns. -/
def waitsOf (c : Nat) (s : State) : List Nat := (s.ft.sems.filter (fun kv => kv.2.waiters.any (fun x => x.1 == c))).map Prod.fst
def semsOf (c : Nat) (s : State) : List Nat := (s.ft.sems.filter (fun kv => kv.2.owner == some c)).map Prod.fst

def State.sem (s : State) (k : Nat) : Sem := tget s.ft.sems k {}
def State.modSem (s : State) (k : Nat) (f : Sem → Sem) : State := { s with ft := { s.ft with sems := tmod s.ft.sems k {} f } }
def State.slot703 (s : State) (p : Nat) : Reserved := tget s.ft.slots p {}
def State.modSlot703 (s : State) (p : Nat) (f : Reserved → Reserved) : State :=
  { s with ft := { s.ft with slots := tmod s.ft.slots p {} f } }

/-- The field that says a context is blocked follows the queues (R702). -/
def syncWait (c : Nat) (s : State) : State :=
  s.modCtx c (fun x => { x with waiting := (waitsOf c s).head?.map (fun k => (k / 64, k % 64)) })

/-- The connections of a context. -/
def connsOf (c : Nat) (s : State) : List Nat :=
  (s.rc.conns.filter (fun kv => kv.1 != 0 && kv.2.st != .free && kv.2.context == c)).map Prod.fst

/-- A save starts: the context is SAVING, and its connections issue no new packet (R543, R698). -/
def startSave (c : Nat) (s : State) : State :=
  (connsOf c s).foldl (fun s n => s.modConn n (fun x => { x with saved := true })) (s.modCtx c (fun x => { x with st := .saving }))

/-- The reserved slot of a partition takes the first owner that waits for it (R703). -/
def takeSlot (p : Nat) (s : State) : State :=
  match (s.slot703 p).holder, (s.slot703 p).waiting with
  | none, x :: rest =>
    (s.modSlot703 p (fun _ => { holder := some x, waiting := rest })).modCtx x.1 (fun y => { y with restoring := true })
  | _, _ => s

/-- A context has blocked on a semaphore whose owner is SAVED: the owner is restored into its partition's reserved slot, or waits
for it; an INHERIT context that blocks gives the slot up and takes it back later (R703). -/
def inheritOwner (c key : Nat) (s : State) : State :=
  match (s.sem key).owner with
  | none => s
  | some o =>
    let p := (s.ctxMap o).part
    let r := s.slot703 p
    if (s.ctx o).st ≠ .saved ∨ (s.ctx o).restoring = true ∨ r.waiting.any (fun x => x.1 == o) then s
    else match r.holder with
      | some (h, k) =>
        if h = c ∧ (s.ctx c).st = .inherit then
          startSave c (s.modSlot703 p (fun r => { r with waiting := (o, key) :: (h, k) :: r.waiting }))
        else s.modSlot703 p (fun r => { r with waiting := r.waiting ++ [(o, key)] })
      | none => takeSlot p (s.modSlot703 p (fun r => { r with waiting := r.waiting ++ [(o, key)] }))

/-- The owner releases a semaphore: the oldest waiter has it and its function learns of it; an owner that ran in the reserved slot
for this semaphore is saved again (R702, R703). -/
def releaseSem (key : Nat) (s : State) : State :=
  let x := s.sem key
  let s1 := match x.owner with
    | some o =>
      if (s.slot703 (s.ctxMap o).part).holder = some (o, key) ∧ (s.ctx o).st = CtxState.inherit then startSave o s else s
    | none => s
  match x.waiters with
  | [] => s1.modSem key (fun _ => {})
  | (c, f) :: rest =>
    let s2 := syncWait c (s1.modSem key (fun _ => { owner := some c, waiters := rest }))
    let s3 := event f 0x0805 (packFields [(key % 64, 6, 0), (c, 12, 16)]) s2 0 0 c
    match rest with
    | [] => s3
    | y :: _ => inheritOwner y.1 key s3

/-- Every semaphore of a context is released (R702). -/
def releaseSems (c : Nat) (s : State) : State := (semsOf c s).foldl (fun s k => releaseSem k s) s

/-! ## Levels 1 to 3 (R685) -/

/-- Work of a context that has started. -/
def startedOf (c : Nat) (s : State) : List Work :=
  s.work.filter (fun w => w.context == c && w.prog != .waiting && !imageOp w.opcode)

/-- Level 1: the context's started descriptors complete with INTERNAL, and its semaphores are released. -/
def ctxReset (c : Nat) (fr : BitVec 16) (s : State) : State :=
  releaseSems c (((startedOf c s).map (fun w => w.wid)).foldl (stopWork .internal 0 fr) s)

/-- A tile that ran on a Stand which is reset is computed again on another, without a charge; no check of it has failed. -/
def restartTile (x : Nat × Nat) (t : TileSt) : TileSt :=
  if t.running = some x then
    { t with running := none, kind := if t.kind = .first then .recompute else t.kind, computed := x :: t.computed.filter (· != x) }
  else t

/-- The first computations that a reset of a Stand abandoned count as tiles of their operation (R264). -/
def ChkCnt.restarted (c : ChkCnt) (x : Nat × Nat) (l : List TileSt) : ChkCnt :=
  let mine := l.filter (fun t => t.running == some x && t.kind == .first)
  { c with firsts := c.firsts + mine.length, xchecked := c.xchecked + (mine.filter (fun t => t.sampled)).length }

/-- The work of every context on a Stand restarts elsewhere. -/
def restartProg (x : Nat × Nat) : Prog → Prog
  | .tiles o => .tiles { o with live := o.live.map (restartTile x), cnt := o.cnt.restarted x o.live }
  | .scatter o => .scatter { o with parts := o.parts.map (restartTile x) }
  | .attend o => .attend { o with parts := o.parts.map (restartTile x), cnt := o.cnt.restarted x o.parts }
  | .query q => .query { q with live := q.live.map (fun b => { b with tile := restartTile x b.tile }) }
  | p => p

/-- Level 2: the culprit context is reset, and a Stand's other work restarts; its resident stores go. Blocks are coded and rows
written in one piece here, so the other engines have nothing to restart. -/
def engineReset (e : EngineId) (ctx : Option Nat) (fr : BitVec 16) (s : State) : State :=
  let s1 := match ctx with | some c => ctxReset c fr s | none => s
  if e.kind ≠ 1 then s1 else
  let x : Nat × Nat := (e.unit / 256, e.unit % 256)
  let s2 : State := { s1 with work := s1.work.map (fun w => { w with prog := restartProg x w.prog }) }
  s2.modStand x.1 x.2 (fun y => { y with busy := false, resident := [] })

/-- The contexts of a partition that have a mapping or work there. -/
def ctxsOf (p : Nat) (s : State) : List Nat :=
  (((s.tn.ctx.filter (fun kv => kv.2.valid && kv.2.part == p)).map Prod.fst) ++
    ((s.work.filter (fun w => w.part == p)).map (fun w => w.context))).foldl (fun l c => if l.any (· == c) then l else l ++ [c]) []

/-- The Groves of a partition. -/
def grovesOf (p : Nat) (s : State) : List Nat := match s.img.image with | some i => i.grovesOf p | none => []

/-- Canopy slots of a partition are EMPTY and its Understory stores dropped (R229, R685). -/
def emptyGroves (p : Nat) (s : State) : State :=
  let gs := grovesOf p s
  { s with groves := { s.groves with
      slots := s.groves.slots.filter (fun kv => !gs.any (· == kv.1 / 256)),
      canopy := memClear s.groves.canopy (fun a => gs.any (· == a / 0x3000000)),
      canopyPoison := s.groves.canopyPoison.filter (fun kv => !gs.any (· == 8 * kv.1 / 0x3000000)),
      stands := tmap s.groves.stands {} (fun k x => if gs.any (· == k / 100) then { x with resident := [] } else x) } }

/-- Level 3: every context of the partition is reset; the step in flight fails with INTERNAL and its program is removed. -/
def partReset (p : Nat) (fr : BitVec 16) (s : State) : State :=
  let s1 := (ctxsOf p s).foldl (fun s c => ctxReset c fr s) s
  let s2 := match s1.stepOf p with
    | some _ => failStep p .internal s1
    | none => { s1 with tt := { s1.tt with progs := tput s1.tt.progs p none none } }
  emptyGroves p s2

/-! ## The ladder -/

/-- Watchdogs count in N0 and N1 once bring-up has ended (R640, R684). -/
def watching (s : State) : Bool := s.ready && (s.power.st == .n0 || s.power.st == .n1)

/-- The highest level a domain was reset at within FT_ESC.WINDOW (R687). -/
def recentLevel (domain : Nat) (s : State) : Nat :=
  ((s.ft.marks.filter (fun m => m.domain == domain && decide (s.clk.ac - m.ac ≤ s.ft.escWindow.toNat))).map (fun m => m.level)).foldl max 0

/-- The level a watchdog of its own level starts (R687). (DEDUCED, log entry 75.) -/
def levelFor (own domain : Nat) (s : State) : Nat :=
  let l := recentLevel domain s
  if l = 0 then own else max own (l + 1)

/-- A hang: its watchdog 0 to 3, engine, context, partition, domain, DETAIL1, who learns of it, and what its record waits for. -/
structure Hang where
  wd     : Nat
  eng    : EngineId := { kind := 0, unit := 0 }
  ctx    : Option Nat := none
  part   : Nat := 0
  tenant : Nat := 0
  domain : Nat
  unit   : Nat := 0
  who    : Nat := 0
  cause  : Byte := Status.internal.code
  waits  : List Closer := []

/-- DETAIL0 of a HANG record: watchdog and engine where FT_CULPRIT has them (R675, R709). -/
def Hang.detail (h : Hang) : Nat := packFields [(h.wd, 2, 52), (h.eng.kind.toNat, 4, 48), (h.eng.unit, 16, 32)]

/-- The reset of a level. Levels 4 and 5 start with the fatal record itself (R689). -/
def runLevel (level : Nat) (h : Hang) (fr : BitVec 16) (s : State) : State :=
  if level = 1 then (match h.ctx with | some c => ctxReset c fr s | none => s)
  else if level = 2 then engineReset h.eng h.ctx fr s
  else if level = 3 then partReset h.part fr s
  else s

/-- A HANG record opens, the culprit is named, and its level runs (R675, R686). `mark` says whether the reset counts toward R687. -/
def hangAt (level own : Nat) (mark : Bool) (h : Hang) (s : State) : State :=
  let r := raiseErr { cls := if level ≥ 4 then 3 else 2, source := 0x0B, domain := h.domain, cause := h.cause, detail0 := h.detail,
                      detail1 := h.unit, ctx := h.ctx, tenant := h.tenant, part := h.part, who := h.who, waits := h.waits, level,
                      escalated := decide (level > own) } s
  let cul : Culprit :=
    { valid := true, level := BitVec.ofNat 3 level, watchdog := BitVec.ofNat 2 h.wd, kind := h.eng.kind, engine := BitVec.ofNat 16 h.eng.unit,
      ctxValid := h.ctx.isSome, part := BitVec.ofNat 2 h.part, context := BitVec.ofNat 12 (h.ctx.getD 0), number := r.2 }
  let s1 : State := { r.1 with ft := { r.1.ft with
    culprit := if mark then cul else r.1.ft.culprit,
    marks := if mark ∧ level < 4 then r.1.ft.marks ++ [{ domain := h.domain, level, ac := s.clk.ac }] else r.1.ft.marks } }
  runLevel level h r.2 s1

/-- A watchdog fires: its level, or a higher one in a domain that was reset lately; above MAX_LEVEL the unit stays stopped
(R686, R687). -/
def watchdog (own : Nat) (h : Hang) (s : State) : State :=
  let key := (h.wd, if h.wd = 1 then 65536 * h.eng.kind.toNat + h.eng.unit else if h.wd = 0 then h.ctx.getD 0 else h.part)
  let level := min 5 (levelFor own h.domain s)
  if s.ft.stopped.any (· == key) then s
  else if level > s.ft.maxLevel.toNat then { s with ft := { s.ft with stopped := s.ft.stopped ++ [key] } }
  else hangAt level own true h s

/-- The first Grove of a partition, as its domain. -/
def partDomain (p : Nat) (s : State) : Nat := (grovesOf p s).headD 0

/-- The domain of a descriptor's hang: its connection's Station, or its partition's first Grove (R686). -/
def workDomain (w : Work) (s : State) : Nat :=
  if 0x40 ≤ w.opcode.toNat ∧ w.opcode.toNat ≤ 0x4F then 20 + connStation (connOf w)
  else if w.opcode.toNat ≥ 0x50 then 20
  else partDomain w.part s

/-- A wait that never counts toward the context watchdog (R684, R705). The sender of a SEND cannot tell a peer without a posted buffer from
one that is slow: every issued SEND counts as waiting. (DEDUCED, log entry 75.) -/
def excused (w : Work) (s : State) : Bool :=
  (s.ctx w.context).waiting.isSome || (operandRefs w).any (slotLoading s) || stalledWork w s ||
  (match w.prog with
   | .rail r => if r.issued then w.opcode == 0x43 else armed w
   | .attend o => o.seqs.any (fun q => q.phase == .waiting) && !o.seqs.any (fun q => q.phase == .running)
   | .posted | .waiting => true
   | _ => false)

/-- A started descriptor of a context makes no progress (R684). -/
def execContextWatchdog (wid : Nat) (s : State) : Host.Outcome State Fault Refusal :=
  act s (fun s => match s.item wid with
    | some w =>
      if watching s && !excused w s && !imageOp w.opcode then
        let d := workDomain w s
        watchdog 1 { wd := 0, ctx := some w.context, part := w.part, tenant := w.tenant, domain := d, unit := if d ≥ 20 then d - 20 else d,
                     who := w.fn, waits := (startedOf w.context s).flatMap closersOf } s
      else s
    | none => s)

/-- Whether an engine exists (R24, R236, R684): the Stands of the mode in force, the Shunters, crypto pipe, selection units and Clearing
engine of each Station, the last fused off on SG-6400-G, and the eight Porter cores of each Station. -/
def engineExists (e : EngineId) (s : State) : Bool :=
  match e.kind.toNat with
  | 1 => decide (e.unit / 256 < 4) && decide (e.unit % 256 < if s.boot.floor then 100 else 96)
  | 2 | 3 | 4 => decide (e.unit < 2)
  | 5 => decide (e.unit < 2) && s.fuses.grade == .x
  | 6 => decide (e.unit < 16)
  | _ => false

/-- The domain of an engine (R686). -/
def engineDomain (e : EngineId) : Nat :=
  if e.kind = 1 then e.unit / 256 else if e.kind = 6 then 20 + e.unit / 8 else 20 + e.unit % 2

/-- The hang of an engine and its context. -/
def engineHang (wd : Nat) (e : EngineId) (ctx : Option Nat) (s : State) : Hang :=
  let m := s.ctxMap (ctx.getD 0)
  { wd, eng := e, ctx, part := if ctx.isSome then m.part else if e.kind = 1 then grovePart (e.unit / 256) s else 0, tenant := m.tenant,
    domain := engineDomain e, unit := engineDomain e % 20,
    who := match ctx with | some c => ((startedOf c s).head?.map (fun w => w.fn)).getD (tenantFn m.tenant s) | none => 0,
    waits := match ctx with | some c => (startedOf c s).flatMap closersOf | none => [] }

/-- An engine with queued work completes no unit of it (R684). -/
def execEngineWatchdog (e : EngineId) (ctx : Option Nat) (s : State) : Host.Outcome State Fault Refusal :=
  actIf s (watching s && engineExists e s) (watchdog 2 (engineHang 1 e ctx s))

/-- The hang of a partition. -/
def partHang (p : Nat) (s : State) : Hang :=
  { wd := 2, part := p, domain := partDomain p s, unit := partDomain p s,
    waits := (s.work.filter (fun w => w.part == p && w.prog != .waiting && !imageOp w.opcode)).flatMap closersOf ++
      (if (s.stepOf p).isSome then [.step p] else []) }

/-- Whether a step waits only for what never counts: room in its token rings, or entries whose own wait does not count (R684). -/
def stepExcused (p : Nat) (s : State) : Bool :=
  match s.stepOf p with
  | none => false
  | some x =>
    let ws := s.work.filter (fun w => match w.src with | .step q _ => q == p | .ring _ _ => false)
    (stepDone p x s && !tokensFit x s) || (!ws.isEmpty && ws.all (fun w => w.prog != .waiting && excused w s))

/-- A partition with runnable entries or a program completes no step (R684). -/
def execPartitionWatchdog (p : Nat) (s : State) : Host.Outcome State Fault Refusal :=
  actIf s (watching s && decide (p < s.partitions) && ((s.progOf p).isSome || !(entriesWhere p Entry.runnable s).isEmpty) &&
    !stepExcused p s) (watchdog 3 (partHang p s))

/-- The Lodge receives no heartbeat from any Porter of a Station: level 4, or level 5 soon after a chip reset (R684, R689). -/
def execChipWatchdog (station : Nat) (s : State) : Host.Outcome State Fault Refusal :=
  actIf s (watching s && decide (station < 2)) (fun s =>
    let level := if recentLevel 0xFF s ≥ 4 then 5 else 4
    if level > s.ft.maxLevel.toNat then { s with ft := { s.ft with stopped := s.ft.stopped ++ [(3, station)] } }
    else hangAt level 4 true { wd := 3, eng := { kind := 6, unit := station }, domain := 20 + station, unit := station } s)

/-- The hang a record names, from its DETAIL0. -/
def hangOf (r : FaultRec) : Hang :=
  { wd := fld r.detail0.toNat 52 2, eng := { kind := BitVec.ofNat 4 (fld r.detail0.toNat 48 4), unit := fld r.detail0.toNat 32 16 },
    ctx := if r.ctxValid then some r.context else none, part := r.part, tenant := r.tenant, domain := r.domain.toNat }

/-- A reset has not ended within FT_ESC.LIMIT: it is raised one level, up to MAX_LEVEL (R687). -/
def execResetLimitExpire (record : Nat) (s : State) : Host.Outcome State Fault Refusal :=
  let k := record % 4096
  let r := tget s.ft.recs k {}
  let level := r.level.toNat + 1
  actIf s (r.isOpen && decide (r.number.toNat = record) && decide (1 ≤ r.level.toNat) && decide (r.level.toNat < 5) &&
      decide (level ≤ s.ft.maxLevel.toNat)) (fun s =>
    let s1 : State := { s with ft := { s.ft with recs := tmod s.ft.recs k {} (fun r =>
      { r with level := BitVec.ofNat 3 level, escalated := true, cls := if level ≥ 4 then 3 else r.cls,
               waits := if level ≥ 4 then r.waits ++ [.chip] else r.waits }) } }
    if level ≥ 4 then chipLevel level s1 else runLevel level (hangOf r) r.number s1)

/-! ## Host resets (R688) -/

/-- A host reset: a HANG record with cause CANCELLED, which never counts toward R687. -/
def hostReset (level : Nat) (h : Hang) (s : State) : State :=
  if level > s.ft.maxLevel.toNat then s else hangAt level level false { h with cause := Status.cancelled.code } s

/-- FT_RESET, level 2: the unit is a Stand, Grove in bits 9:8 and logical Stand in bits 6:0 (R688, R709). -/
def execFtResetEngine (unit : Nat) (s : State) : Host.Outcome State Fault Refusal :=
  let e : EngineId := { kind := 1, unit }
  actIf s (writes 0 s && engineExists e s) (fun s =>
    let x : Nat × Nat := (unit / 256, unit % 256)
    let ctx := (s.work.find? (fun w => (liveTiles w).any (fun t => t.running == some x))).map (fun w => w.context)
    hostReset 2 (engineHang 1 e ctx s) s)

/-- FT_RESET, level 3 (R688). -/
def execFtResetPartition (unit : Nat) (s : State) : Host.Outcome State Fault Refusal :=
  actIf s (writes 0 s && decide (unit < s.partitions)) (fun s => hostReset 3 (partHang unit s) s)

/-- FT_RESET, level 4: the device (R688). -/
def execFtResetChip (unit : Nat) (s : State) : Host.Outcome State Fault Refusal :=
  actIf s (writes 0 s && decide (unit < 4096)) (hostReset 4 { wd := 3, domain := 0xFF })

/-! ## The fault state and ERR_N -/

/-- FT_QUIET has passed with no record open: the device leaves the fault state (R682). -/
def execFaultQuietExpire (s : State) : Host.Outcome State Fault Refusal :=
  actIf s (s.ft.fault && s.ft.recs.all (fun kv => !kv.2.isOpen)) (fun s =>
    event 0 0x0801 0 { s with ft := { s.ft with fault := false, recoveries := s.ft.recoveries + 1 } })

/-- The pulse on ERR_N ends; the pin follows HOLD (R683). -/
def execErrNPulseEnd (s : State) : Host.Outcome State Fault Refusal :=
  act s (fun s => { s with power := { s.power with errnPulse := false } })

/-! ## Errors of the package and of control state -/

/-- Whether a die link carries flits: link 34, Lodge to Y0, is wires alone, and in N3 only link 33 has power (R27, R31). -/
def couplingUp (link : Nat) (s : State) : Bool := decide (link < 34) && (s.power.st != .n3 || link == 33)

/-- A flit fails its CRC and is replayed: a corrected error of source 0x09 (R28, R675, R681). An injected error is one (R710). -/
def execDieLinkFlitCrcFail (link : Nat) (s : State) : Host.Outcome State Fault Refusal :=
  actIf s (couplingUp link s) (fun s =>
    raiseErr' { cls := 0, source := 0x09, domain := 0xFF, cause := Status.crcFail.code, detail0 := link } (injectHit 0x09 link s).2)

/-- A link is declared failed after 8 replays: fatal (R30, R675). (PRESUMED, log entry 60.) -/
def execDieLinkFailed (link : Nat) (s : State) : Host.Outcome State Fault Refusal :=
  actIf s (couplingUp link s) (raiseErr' { cls := 3, source := 0x09, domain := 0xFF, cause := Status.internal.code, detail0 := link, level := 4 })

/-- An uncorrectable word of Timetable, connection, key, route or Platform state: fatal (R675). -/
def execStateSramFault (station : Nat) (addr : W64) (s : State) : Host.Outcome State Fault Refusal :=
  actIf s (decide (station < 2)) (raiseErr'
    { cls := 3, source := 0x0A, domain := 20 + station, cause := Status.internal.code, detail0 := addr.toNat, detail1 := station, level := 4 })

/-- A Porter or Lodge core fails its self-check or its lockstep compare: fatal (R675). -/
def execControlCoreFault (core : W64) (s : State) : Host.Outcome State Fault Refusal :=
  act s (raiseErr' { cls := 3, source := 0x0C, domain := 0xFF, cause := Status.internal.code, detail0 := core.toNat, level := 4 })

/-- A write of FT_INJECT (R709, R710). -/
def execInjectionArm (value : W64) (s : State) : Host.Outcome State Fault Refusal :=
  actIf s (writes 0 s) (fun s =>
    let v := value.toNat
    { s with ft := { s.ft with inject :=
      { arm := v.testBit 63, checker := BitVec.ofNat 8 (fld v 48 8), unit := BitVec.ofNat 16 (fld v 32 16), count := BitVec.ofNat 8 v } } })

/-! ## Disabling a function (R696) -/

/-- Step 1: the function's rings stop fetching and it drains; a disable during another of the same function has no effect. -/
def startDisable (f : Nat) (s : State) : State :=
  if (s.fn f).disabling ≠ .no then s else
  let s1 := s.modFn f (fun r => { r with disabling := .draining })
  serve (((s1.host.sqs.filter (fun kv => ringFn kv.1 == f)).map Prod.fst).foldl (fun s n =>
    if (s.sq n).st = .running ∨ (s.sq n).st = .error then settleRing n (s.modSq n (fun q => { stopSq q .draining with enable := false })) else s) s1)

/-- FT_FN_DISABLE: v + 1 disables virtual function v (R696, R709). -/
def execFunctionDisable (value : BitVec 5) (s : State) : Host.Outcome State Fault Refusal :=
  actIf s (writes 0 s && decide (2 ≤ value.toNat) && decide (value.toNat ≤ 17)) (startDisable (value.toNat - 1))

/-- A function-level reset of a virtual function (R125). -/
def execVfFlr (v : Nat) (s : State) : Host.Outcome State Fault Refusal :=
  actIf s (reaches v s && decide (1 ≤ v) && decide (v ≤ 16)) (startDisable v)

/-- A function-level reset of the physical function: it and every virtual function are disabled (R125). -/
def execPfFlr (s : State) : Host.Outcome State Fault Refusal :=
  actIf s (reaches 0 s) (fun s => (List.range 17).foldl (fun s f => startDisable f s) s)

/-- The host clears VF Enable: every virtual function is disabled (R696). -/
def execVfEnableClear (s : State) : Host.Outcome State Fault Refusal :=
  actIf s (reaches 0 s && s.host.vfEnable) (fun s =>
    let s1 := (List.range 16).foldl (fun s v => startDisable (v + 1) s) s
    { s1 with host := { s1.host with vfEnable := false } })

/-- The drain of a disable ends: what is unfinished is stopped with FUNCTION_DISABLED and the semaphores of its contexts are
released; the function's registers reset once nothing of it is left (R696, R702). -/
def execFunctionDisableDrainEnd (fn : Nat) (s : State) : Host.Outcome State Fault Refusal :=
  actIf s (decide ((s.fn fn).disabling = .draining)) (fun s =>
    let ws := s.work.filter (fun w => w.fn == fn && (match w.src with | .ring _ _ => true | .step _ _ => false))
    let s1 := s.modFn fn (fun r => { r with disabling := .ending })
    let s2 := (ws.map (fun w => w.wid)).foldl (stopWork .functionDisabled 0 0) s1
    let s3 := (ws.map (fun w => w.context)).foldl (fun s c => releaseSems c s) s2
    settleDisable fn s3)

/-! ## Contexts (R697 to R700, R708) -/

/-- Records the result of HI_CTX_CTRL or HI_SEM_OP (R708). -/
def ctxResult (f : Nat) (code : Byte) (s : State) : State := s.modFn f (fun r => { r with ctxRes := some code })
def semResult (f : Nat) (code : Byte) (s : State) : State := s.modFn f (fun r => { r with semRes := some code })

/-- A context of another tenant than the function's (R708). -/
def ctxForeign (f c : Nat) (s : State) : Bool :=
  f != 0 && !((s.ctxMap c).valid && fnTenant f s == some (s.ctxMap c).tenant)

/-- A save is refused (R699). -/
def saveRefused (c : Nat) (s : State) : Bool :=
  (s.ctx c).st != .active ||
  s.tt.entries.any (fun kv => kv.2.context == c && activeEntry kv.2) ||
  s.tt.progs.any (fun kv => match kv.2 with | some g => g.context == c | none => false)

/-- HI_CTX_CTRL SAVE (R698, R699). (DEDUCED, log entry 77.) -/
def execContextSave (fn ctx : Nat) (s : State) : Host.Outcome State Fault Refusal :=
  actIf s (writes fn s && decide (ctx < 4096)) (fun s =>
    if ctxForeign fn ctx s then ctxResult fn 1 s
    else if saveRefused ctx s then ctxResult fn 3 s
    else ctxResult fn 0 (startSave ctx (s.modCtx ctx (fun x => { x with asker := fn }))))

/-- A context saves nothing more: no tile of it runs, no query of it holds a search context, and what its connections sent has been
acknowledged (R543, R698). -/
def saveDone (c : Nat) (s : State) : Bool :=
  s.work.all (fun w => w.context != c ||
    ((liveTiles w).all (fun t => t.running.isNone) && (match w.prog with | .query q => q.station.isNone | _ => true))) &&
  (connsOf c s).all (fun n => (s.conn n).unacked.isEmpty)

/-- A SAVING context becomes SAVED (R698); a reserved slot it held goes to the next owner, and waiters of its semaphores need it
restored (R703). -/
def execContextSaved (ctx : Nat) (s : State) : Host.Outcome State Fault Refusal :=
  actIf s (decide ((s.ctx ctx).st = .saving) && saveDone ctx s) (fun s =>
    let p := (s.ctxMap ctx).part
    let s1 := event (s.ctx ctx).asker 0x0804 0 (s.modCtx ctx (fun x => { x with st := .saved })) 0 0 ctx
    let s2 := match (s1.slot703 p).holder with
      | some (h, _) => if h = ctx then takeSlot p (s1.modSlot703 p (fun r => { r with holder := none })) else s1
      | none => s1
    (semsOf ctx s2).foldl (fun s k => match (s.sem k).waiters with | (c, _) :: _ => inheritOwner c k s | [] => s) s2)

/-- HI_CTX_CTRL RESTORE (R700): an INHERIT context becomes ACTIVE and frees the slot. -/
def execContextRestore (fn ctx : Nat) (s : State) : Host.Outcome State Fault Refusal :=
  actIf s (writes fn s && decide (ctx < 4096)) (fun s =>
    let p := (s.ctxMap ctx).part
    let leave (s : State) : State :=
      let r := s.slot703 p
      let mine : Bool := match r.holder with | some (h, _) => h == ctx | none => false
      takeSlot p (s.modSlot703 p (fun r => { holder := if mine then none else r.holder, waiting := r.waiting.filter (fun x => x.1 != ctx) }))
    if ctxForeign fn ctx s then ctxResult fn 1 s
    else match (s.ctx ctx).st with
      | .inherit => ctxResult fn 0 (leave (s.modCtx ctx (fun x => { x with st := .active })))
      | .saved => ctxResult fn 0 ((leave s).modCtx ctx (fun x => { x with restoring := true }))
      | _ => ctxResult fn 2 s)

/-- Whether the units a context's connections gave back can be reserved again (R543, R700). -/
def unitsFit (c : Nat) (s : State) : Bool :=
  [0, 1].all (fun st => (List.range 8).all (fun k =>
    let need := (((connsOf c s).filter (fun n => connStation n == st && (s.conn n).cls == k && (s.conn n).saved)).map (fun n => (s.conn n).txUnits)).sum
    decide (need = 0) || decide (need ≤ pfFree st k s)))

/-- A restoring context's units are reserved: it is ACTIVE, or INHERIT in the reserved slot, and its connections send again (R543,
R700, R703). -/
def execContextRestoreUnitsReserved (ctx : Nat) (s : State) : Host.Outcome State Fault Refusal :=
  actIf s ((s.ctx ctx).restoring && unitsFit ctx s) (fun s =>
    let mine : Bool := match (s.slot703 (s.ctxMap ctx).part).holder with | some (h, _) => h == ctx | none => false
    let s1 := s.modCtx ctx (fun x => { x with st := if mine then .inherit else .active, restoring := false })
    (connsOf ctx s1).foldl (fun s n =>
      let s2 := s.modConn n (fun x => { x with saved := false })
      pump n (s2.conn n).txq.length (pfTouch (connStation n) (s2.conn n).cls s2)) s1)

/-- HI_CTX_CTRL RESET: a level-1 reset (R685, R688). -/
def execContextResetRequest (fn ctx : Nat) (s : State) : Host.Outcome State Fault Refusal :=
  actIf s (writes fn s && decide (ctx < 4096)) (fun s =>
    if ctxForeign fn ctx s then ctxResult fn 1 s
    else
      let ws := startedOf ctx s
      let m := s.ctxMap ctx
      let d := match ws.head? with | some w => workDomain w s | none => partDomain m.part s
      let h : Hang :=
        { wd := 0, ctx := some ctx, part := m.part, tenant := m.tenant, domain := d, unit := if d ≥ 20 then d - 20 else d,
          who := (ws.head?.map (fun w => w.fn)).getD (tenantFn m.tenant s), waits := ws.flatMap closersOf }
      ctxResult fn 0 (hostReset 1 h s))

/-! ## Semaphore operations (R701 to R705) -/

/-- The contexts that own what a list of contexts waits for. -/
def ownersAhead (cs : List Nat) (s : State) : List Nat := cs.flatMap (fun c => (waitsOf c s).filterMap (fun k => (s.sem k).owner))

/-- Whether a chain of waits from some contexts reaches another; `fuel` bounds its length. -/
def waitReaches (goal : Nat) (s : State) : Nat → List Nat → Bool
  | 0, cs => cs.any (· == goal)
  | n + 1, cs => cs.any (· == goal) || waitReaches goal s n (ownersAhead cs s)

/-- The tenant an operation acts for: named by the physical function, else the function's own (R708). -/
def semTenant (f t : Nat) (s : State) : Option Nat := if f = 0 then some t else fnTenant f s

/-- Whether a semaphore operation may name the context (R701, R708). -/
def semOk (f t c : Nat) (s : State) : Bool :=
  match semTenant f t s with
  | some t => (s.ctxMap c).valid && (s.ctxMap c).tenant == t
  | none => false

/-- HI_SEM_OP acquire (R702, R703). -/
def execSemAcquire (fn tenant sem ctx : Nat) (s : State) : Host.Outcome State Fault Refusal :=
  actIf s (writes fn s && decide (sem < 64) && decide (ctx < 4096) && decide (tenant < 16)) (fun s =>
    let k := 64 * (semTenant fn tenant s).getD 0 + sem
    if !semOk fn tenant ctx s then semResult fn 4 s
    else match (s.sem k).owner with
      | none => semResult fn 0 (s.modSem k (fun x => { x with owner := some ctx }))
      | some o =>
        if o = ctx then semResult fn 0 s
        else if waitReaches ctx s s.ft.sems.length [o] then semResult fn 2 s
        else if (s.sem k).waiters.any (fun x => x.1 == ctx) then semResult fn 1 s
        else inheritOwner ctx k (semResult fn 1 (syncWait ctx (s.modSem k (fun x => { x with waiters := x.waiters ++ [(ctx, fn)] })))))

/-- HI_SEM_OP release (R702). -/
def execSemRelease (fn tenant sem ctx : Nat) (s : State) : Host.Outcome State Fault Refusal :=
  actIf s (writes fn s && decide (sem < 64) && decide (ctx < 4096) && decide (tenant < 16)) (fun s =>
    let k := 64 * (semTenant fn tenant s).getD 0 + sem
    if !semOk fn tenant ctx s then semResult fn 4 s
    else if (s.sem k).owner ≠ some ctx then semResult fn 3 s
    else semResult fn 0 (releaseSem k s))

end Sys2Proof.Machine
end

