-- ==== Sys2Proof/Machine/Tenancy.lean ====
section
/-! DEFINITION. Tenancy and trust (chapter 18): the maps of tenants to partitions, functions and contexts (R711 to R717), tenant
switches and first mappings (R718 to R723), key-derivation indices and fabric slots (R732, R733), the security version (R737),
firmware sets (R738), debug unlock (R739), attestation reports (R740, R741). -/

namespace Sys2Proof.Machine

/-- Records a code in LD_TN_STATUS (R743). -/
def tnCode (code : Byte) (s : State) : State := { s with tn := { s.tn with status := { valid := true, code } } }

/-! ## LD_TN_VF and LD_TN_CTX -/

/-- A write of LD_TN_VF: a change of the tenant of an enabled function first disables it (R714). -/
def execTnVfWrite (v : Nat) (value : W32) (s : State) : Host.Outcome State Fault Refusal :=
  actIf s (writes 0 s && decide (1 ≤ v) && decide (v ≤ 16)) (fun s =>
    let new := vfMapOf value
    if s.host.vfEnable ∧ v ≤ s.host.numVfs ∧ new ≠ tget s.tn.vf v {} then
      startDisable v (s.modFn v (fun r => { r with newTenant := some value }))
    else { s with tn := { s.tn with vf := tput s.tn.vf v new {} } })

/-- LD_TN_CTX as written (R743). -/
def ctxMapOf (v : W32) : CtxMap := { valid := v.toNat.testBit 31, part := fld v.toNat 4 2, tenant := fld v.toNat 0 4 }

/-- The context has work, an entry, a connection or a semaphore (R716). A detached STUB has no context. -/
def ctxBusy (c : Nat) (s : State) : Bool :=
  s.work.any (fun w => w.context == c && (match w.src with | .ring _ _ => true | .step _ _ => false)) ||
  s.tt.entries.any (fun kv => kv.2.st != .free && kv.2.context == c && !detached kv.1 s) ||
  !(connsOf c s).isEmpty || !(semsOf c s).isEmpty

/-- A write of LD_TN_CTX maps a context, or is refused with code 0x05, else 0x06 (R715, R716). -/
def execTnCtxWrite (ctx : Nat) (value : W32) (s : State) : Host.Outcome State Fault Refusal :=
  actIf s (writes 0 s && decide (ctx < 4096)) (fun s =>
    let m := ctxMapOf value
    if ctxBusy ctx s then tnCode 0x05 s
    else if m.valid ∧ !mapped m.part m.tenant s then tnCode 0x06 s
    else tnCode 0x00 { s with tn := { s.tn with ctx := tput s.tn.ctx ctx m {} } })

/-! ## The write of LD_TN_SWITCH -/

/-- The tenant set of a partition. -/
def State.tenants (s : State) (p : Nat) : BitVec 16 := tget s.tn.parts p 0

/-- The tenants of a set, in increasing order. -/
def setOf (b : BitVec 16) : List Nat := (List.range 16).filter (fun t => b.getLsbD t)

/-- The regions LD_TN_KEEP names. -/
def keepBits (s : State) : List Nat := (List.range 256).filter (fun id => (tget s.tn.keep (id / 32) 0).getLsbD (id % 32))

/-- The HBM regions of a partition. -/
def partRegions (p : Nat) (s : State) : List Region :=
  match s.img.image with | some i => i.regions.filter (fun r => r.part == p) | none => []

/-- A KEEP region of a partition (R139). -/
def isKeep (p id : Nat) (s : State) : Bool := (partRegions p s).any (fun r => r.id == id && r.flags.getLsbD 2)

/-- The entries of a partition, on both Stations. -/
def partEntries (p : Nat) (s : State) : List Nat :=
  match s.img.image with | some i => entriesOf i p 0 ++ entriesOf i p 1 | none => []

/-- Why a switch or first mapping is refused (R719). -/
def switchRefused (p : Nat) (new : BitVec 16) (s : State) : Option Byte :=
  if s.img.st = .loading ∨ s.tn.switch.isSome then some 0x01
  else if (partEntries p s).any (fun i => (s.entry i).st == .handoffOut || (s.entry i).st == .handoffIn) then some 0x02
  else if (match s.img.image with | some i => i.fixed | none => false) && decide ((setOf new).length > 1) then some 0x03
  else if (keepBits s).any (fun id => !isKeep p id s) then some 0x04
  else none

/-- The retained regions of a partition that a first mapping clears (R718). (DEDUCED, log entry 81.) -/
def firstClears (p : Nat) (keep : List Nat) (s : State) : List Nat :=
  ((partRegions p s).map (fun r => r.id)).filter (fun id => s.tn.retained.any (· == id) && !keep.any (· == id))

/-! ## The scrub (R721) -/

/-- Regions are zeroed: poison marks and measurements go, an index is UNLOADED, a pool is empty. -/
def clearRegions (ids : List Nat) (s : State) : State :=
  let rs := ids.filterMap s.region
  let gone (id : Nat) : Bool := ids.any (· == id)
  { s with
    mem := { clearHbm (fun a => rs.any (fun r => inRegion r a)) s.mem with pools := s.mem.pools.filter (fun kv => !gone kv.1) },
    waybill := { s.waybill with
      measure := s.waybill.measure.filter (fun kv => !gone kv.1), measuring := s.waybill.measuring.filter (fun id => !gone id) },
    cs := { s.cs with index := s.cs.index.filter (fun kv => !gone kv.1) } }

/-- The partition's entries but STUBs are FREE. -/
def freeEntries (p : Nat) (s : State) : State :=
  (partEntries p s).foldl (fun s i => if (s.entry i).st = .free ∨ (s.entry i).st = .stub then s else toFree i s) s

/-- Blocks in the partition's encoders and expanders are discarded (R357). -/
def discardBlocks (p : Nat) (s : State) : State :=
  { s with sleeper := { s.sleeper with
      reads := s.sleeper.reads.filter (fun r => r.part != p),
      bufs := s.sleeper.bufs.filter (fun b => s.work.any (fun w => w.wid == b.forw.wid && w.part != p)) } }

/-- The scrub of a partition: Groves, resident copies, codec blocks, entries, and the regions not kept (R721). -/
def scrubPart (p : Nat) (keep : List Nat) (s : State) : State :=
  clearRegions (((partRegions p s).map (fun r => r.id)).filter (fun id => !keep.any (· == id)))
    (freeEntries p (discardBlocks p (emptyGroves p s)))

/-! ## The end of a switch -/

/-- Tenants of the old set that the new one does not hold. -/
def departing (p : Nat) (new : BitVec 16) (s : State) : List Nat := (setOf (s.tenants p)).filter (fun t => !new.getLsbD t)

/-- Step 9: the contexts of a departing tenant in the partition lose their mapping and semaphores; its STUBs are detached; left
with no partition, its key slots and trigger counters are released (R720, R391). -/
def departTenant (p : Nat) (s : State) (t : Nat) : State :=
  let cs := (s.tn.ctx.filter (fun kv => kv.2.valid && kv.2.part == p && kv.2.tenant == t)).map Prod.fst
  let s1 := cs.foldl (fun s c => releaseSems c s) s
  let elsewhere := (List.range 4).any (fun q => q != p && mapped q t s)
  { s1 with
    tn := { s1.tn with ctx := tmap s1.tn.ctx {} (fun c m => if cs.any (· == c) then { m with valid := false } else m) },
    tt := { s1.tt with entries := tmap s1.tt.entries {} (fun i e =>
      if e.st = .stub ∧ e.tenant = t ∧ entryPart i s1 = some p then detachStub i s1 e else e) },
    mem := { s1.mem with keySlots := if elsewhere then s1.mem.keySlots else s1.mem.keySlots.filter (fun kv => kv.2.tenant != t) },
    rc := { s1.rc with trigs := if elsewhere then s1.rc.trigs else s1.rc.trigs.filter (fun kv => kv.2.tenant != t) } }

/-- Descriptors held during the switch whose context lost its mapping complete with TENANT_MISMATCH (R715). -/
def failUnmapped (p : Nat) (s : State) : State :=
  (s.work.filter (fun w => w.part == p && w.prog == .waiting && !imageOp w.opcode)).foldl (fun s w =>
    if ctxMismatch w.fn w.context s then complete w .tenantMismatch 0 s else s) s

/-- Steps 10 and 11: the tenant set is replaced, a chain starts, the physical function learns of it (R720). A switch to the empty
set leaves the regions it kept as retained ones (R718). -/
def endSwitch (x : Switch) (s : State) : State :=
  let ids := (partRegions x.part s).map (fun r => r.id)
  let s1 : State := { s with tn := { s.tn with
    parts := tput s.tn.parts x.part x.tenants 0, switch := none,
    retained := s.tn.retained.filter (fun id => !ids.any (· == id)) ++ (if x.tenants = 0 then ids.filter (fun id => x.keep.any (· == id)) else []) } }
  let sat := min 0xFFFFFFFF (s.clk.ac - x.startAc)
  event 0 0x0900 (packFields [(x.part, 2, 0), (x.tenants.toNat, 16, 16), (sat, 32, 32)]) (failUnmapped x.part (chainStart x.part s1))

/-! ## TENANT_SWITCH and FIRST_MAPPING -/

/-- A write of LD_TN_SWITCH: `empty` says which of the two it is. Code 0x09 is tested first; an unchanged set has no effect; an
accepted write records code 0x00 (R718, R719). (DEDUCED, log entry 80.) -/
def switchWrite (empty : Bool) (p : Nat) (new : BitVec 16) (f : Switch → State → State) (s : State) :
    Host.Outcome State Fault Refusal :=
  actIf s (writes 0 s && decide (p < 4) && decide ((s.tenants p = 0) = (empty = true))) (fun s =>
    if p ≥ s.partitions then tnCode 0x09 s
    else if new = s.tenants p then s
    else match switchRefused p new s with
      | some c => tnCode c s
      | none => f { part := p, tenants := new, startAc := s.clk.ac, keep := keepBits s } (tnCode 0x00 s))

/-- A switch starts: the partition's descriptors are held and what has started drains (R720, steps 1 and 2). -/
def execTenantSwitch (p : Nat) (tenants : BitVec 16) (s : State) : Host.Outcome State Fault Refusal :=
  switchWrite false p tenants (fun x s => { s with tn := { s.tn with switch := some x } }) s

/-- A first mapping: it takes effect at once unless a retained region has to be cleared first (R718). -/
def execFirstMapping (p : Nat) (tenants : BitVec 16) (s : State) : Host.Outcome State Fault Refusal :=
  switchWrite true p tenants (fun x s =>
    if (firstClears p x.keep s).isEmpty then endSwitch x s
    else { s with tn := { s.tn with switch := some { x with stage := .scrubbing, first := true } } }) s

/-! ## TENANT_SWITCH_DRAIN_END -/

/-- A stopped step appends no record, publishes no token and makes no transition; its boundary follows (R720, step 3). -/
def dropStep (p : Nat) (s : State) : State :=
  let mine := s.work.filter (fun w => match w.src with | .step q _ => q == p | .ring _ _ => false)
  let s1 := mine.foldl (fun s w =>
    let s1 := stopProg w (dropReads w.wid s)
    closeFor (.work w.wid) { s1 with work := s1.work.filter (fun x => x.wid != w.wid) }) s
  if (s1.stepOf p).isNone then s1 else stepBoundary p [] { s1 with tt := { s1.tt with steps := tput s1.tt.steps p none none } }

/-- A connection closes at once: CLOSE is sent where there is a peer's connection, and its work ends with CANCELLED (step 4). -/
def closeConn (s : State) (num : Nat) : State :=
  let c := s.conn num
  let s1 := if c.st = .opened ∨ c.st = .closing then
      sendOnce num c.peerNode { op := 11, dstConn := c.peerConn, srcConn := num, srcInc := s.rail.inc, dstInc := c.peerInc, mseq := c.nextMseq } s
    else s
  connFree num s1

/-- The connections of a partition's contexts. -/
def partConns (p : Nat) (s : State) : List Nat :=
  (s.rc.conns.filter (fun kv => kv.1 != 0 && kv.2.st != .free && kv.2.part == p)).map Prod.fst

/-- Step 6: entries go LOST with CANCELLED; STUBs stay. -/
def loseEntries (p : Nat) (s : State) : State :=
  (partEntries p s).foldl (fun s i =>
    match (s.entry i).st with
    | .admitted | .prefill | .decode | .parked | .done => toLost i 0x51 s
    | _ => s) s

/-- The drain of a switch ends: steps 3 to 7, and the scrub starts (R720). -/
def execTenantSwitchDrainEnd (p : Nat) (s : State) : Host.Outcome State Fault Refusal :=
  act s (fun s => match s.tn.switch with
    | none => s
    | some x =>
      if x.part ≠ p ∨ x.stage ≠ .draining then s else
      let ws := (s.work.filter (fun w => w.part == p && w.prog != .waiting && !imageOp w.opcode &&
        (match w.src with | .ring _ _ => true | .step _ _ => false))).map (fun w => w.wid)
      let s1 := dropStep p (ws.foldl (stopWork .cancelled 2 0) s)
      let s2 := (partConns p s1).foldl closeConn s1
      let s3 := revokeNow (fun k => (partRegions p s).any (fun r => r.id == k.regionId)) s2
      let s4 := chainEnd p (loseEntries p s3)
      { s4 with tn := { s4.tn with switch := some { x with stage := .scrubbing } } })

/-- Scrub and clearing end: the partition is clean and the switch ends (R720, steps 9 to 11; R721); a first mapping has cleared only
the retained regions without a keep bit (R718). -/
def execTenantSwitchScrubComplete (p : Nat) (s : State) : Host.Outcome State Fault Refusal :=
  act s (fun s => match s.tn.switch with
    | none => s
    | some x =>
      if x.part ≠ p ∨ x.stage ≠ .scrubbing then s
      else if x.first then endSwitch x (clearRegions (firstClears p x.keep s) s)
      else endSwitch x ((departing p x.tenants s).foldl (departTenant p) (scrubPart p x.keep s)))

/-! ## Key-derivation indices and fabric slots (R732, R733) -/

/-- Retirements of an index whose flash write is under way. -/
def retiring (t : Nat) (ddr : Bool) (s : State) : Nat := (s.tn.retire.filter (fun r => r.tenant == t && r.ddr == ddr)).length

/-- An index can rise no further: it is 0xFFFF, or will be once the writes under way end. -/
def indexSpent (t : Nat) (ddr : Bool) (s : State) : Bool :=
  decide ((if ddr then (s.keysOf t).ddr else (s.keysOf t).remote).toNat + retiring t ddr s ≥ 0xFFFF)

/-- Starts the flash write of a retirement, or refuses it with code 0x07 (R732). -/
def retireIndex (t : Nat) (ddr : Bool) (slot : Option (BitVec 2)) (s : State) : State :=
  if indexSpent t ddr s then tnCode 0x07 s else { s with tn := { s.tn with retire := s.tn.retire ++ [{ tenant := t, ddr, slot }] } }

/-- LD_TN_RETIRE.DDR (R732). -/
def execRetireDdrIndex (tenant : Nat) (s : State) : Host.Outcome State Fault Refusal :=
  actIf s (writes 0 s && decide (tenant < 16)) (retireIndex tenant true none)

/-- LD_TN_RETIRE.REMOTE (R732). -/
def execRetireRemoteIndex (tenant : Nat) (s : State) : Host.Outcome State Fault Refusal :=
  actIf s (writes 0 s && decide (tenant < 16)) (retireIndex tenant false none)

/-- The fabric slot a tenant has, or will have once the writes under way end. -/
def slotSoon (t : Nat) (s : State) : BitVec 2 :=
  (((s.tn.retire.filter (fun r => r.tenant == t)).filterMap (fun r => r.slot)).getLast?).getD (s.keysOf t).fabric

/-- A write of FABRIC_SLOT: a change retires the remote index too; code 0x07 where that cannot be, 0x08 for an unburned slot
(R733). -/
def execFabricSlotWrite (tenant : Nat) (slot : BitVec 2) (s : State) : Host.Outcome State Fault Refusal :=
  actIf s (writes 0 s && decide (tenant < 16)) (fun s =>
    if slot ≠ slotSoon tenant s ∧ indexSpent tenant false s then tnCode 0x07 s
    else if !s.fuses.fabric.getLsbD slot.toNat then tnCode 0x08 s
    else if slot = slotSoon tenant s then tnCode 0x00 s
    else retireIndex tenant false (some slot) s)

/-- A tenant's keys after a retirement. -/
def Keys.retired (k : Keys) (r : Retire) : Keys :=
  { k with ddr := if r.ddr then k.ddr + 1 else k.ddr, remote := if r.ddr then k.remote else k.remote + 1, fabric := r.slot.getD k.fabric }

/-- The flash write of the oldest retirement ends: it takes effect, and code 0x00 is recorded (R732). -/
def execRetirementFlashWriteComplete (s : State) : Host.Outcome State Fault Refusal :=
  act s (fun s => match s.tn.retire with
    | [] => s
    | r :: rest =>
      let s1 : State := { s with flash := { s.flash with keys := tmod s.flash.keys r.tenant {} (fun k => k.retired r) } }
      tnCode 0x00 { s1 with tn := { s1.tn with retire := rest } })

/-! ## Security version and firmware (R736 to R738) -/

/-- LD_SVN_COMMIT: 0x5356 commits, other values are ignored (R737, R743). -/
def execSvnCommit (key : BitVec 16) (s : State) : Host.Outcome State Fault Refusal :=
  actIf s (writes 0 s && key == 0x5356) (fun s => { s with trust := { s.trust with svnBusy := true } })

/-- The fuses are burned: the version never falls (R737). (DEDUCED, log entry 83.) -/
def execSvnCommitDone (s : State) : Host.Outcome State Fault Refusal :=
  .next (if s.live && s.trust.svnBusy then
    { s with
      fuses := { s.fuses with svn := max s.fuses.svn s.flash.active.svn, keyRevoked := s.fuses.keyRevoked ||| s.flash.active.revoke },
      trust := { s.trust with svnBusy := false, svnDone := true } }
  else s)

/-- The digest of the public key that signed a manifest: PUB_X ‖ PUB_Y (R736). -/
def manifestSigner (b : List Byte) : Digest := sha384 ((b.drop 776).take 96)

/-- The fields of a manifest (R735); no more than 8 image signers count. -/
def parseManifest (b : List Byte) : Manifest :=
  let dig (o : Nat) : Digest := BitVec.ofNat 384 (leAt b o 48)
  { svn := leAt b 6 1, revoke := BitVec.ofNat 4 (leAt b 7 1), flags := BitVec.ofNat 8 (leAt b 9 1),
    signers := (List.range (min 8 (leAt b 8 1))).map (fun k => dig (256 + 48 * k)),
    versions := (List.range 3).map (fun j => BitVec.ofNat 32 (leAt b (64 + 64 * j) 4)),
    lengths := (List.range 3).map (fun j => leAt b (72 + 64 * j) 4),
    digests := (List.range 3).map (fun j => dig (80 + 64 * j)),
    debugKey := dig 640, digest := sha384 b, signer := manifestSigner b }

/-- MAGIC, FORMAT, length and the signature over bytes 0 to 767 (R735, R736). -/
def manifestSigned (b : List Byte) : Bool :=
  let num (o : Nat) : Digest := BitVec.ofNat 384 (leAt b o 48)
  b.length == 1024 && leAt b 0 4 == 0x54464E4D && leAt b 4 2 == 1 && leAt b 768 4 == 0x4749534D &&
    ecdsaVerify (sha384 (b.take 768)) (num 776) (num 824) (num 872) (num 920)

/-- A key slot can have signed a manifest: its fused digest is the signer's, it is not revoked, and REVOKE does not name it (R736). -/
def slotSigns (b : List Byte) (s : State) (k : Nat) : Bool :=
  nth s.fuses.fwKeys k 0 == manifestSigner b && !s.fuses.keyRevoked.getLsbD k && !(parseManifest b).revoke.getLsbD k

/-- The Lodge accepts a manifest: R736's five conditions. -/
def manifestFits (b : List Byte) (s : State) : Bool :=
  manifestSigned b && (List.range 4).any (slotSigns b s) && decide (s.fuses.svn ≤ (parseManifest b).svn)

/-- The three objects of a set have the lengths and digests the manifest gives (R649, R735). -/
def objectsFit (b : List Byte) (objects : List (List Byte)) : Bool :=
  let m := parseManifest b
  (List.range 3).all (fun j => match objects[j]? with
    | some o => o.length == nth m.lengths j 0 && sha384 o == nth m.digests j 0
    | none => false)

/-- The tray controller has written a firmware set, its manifest and its objects; one that the Lodge verifies is active from the
next reset (R736, R738). -/
def execFirmwareSetWrite (manifest : List Byte) (objects : List (List Byte)) (s : State) : Host.Outcome State Fault Refusal :=
  actIf s (manifestFits manifest s && objectsFit manifest objects) (fun s =>
    { s with flash := { s.flash with inactive := some (parseManifest manifest) } })

/-! ## Debug unlock (R739) -/

/-- The Platform units of a partition's connections are zeroed and returned. -/
def returnUnits (p : Nat) (s : State) : State :=
  { s with rc := { s.rc with conns := tmap s.rc.conns {} (fun n c =>
      if n ≠ 0 ∧ c.part = p then { c with txUnits := 0, rxUnits := 0, unacked := [], txq := [], rx := [] } else c) } }

/-- The sequences of a step that runs lose their entries. -/
def forgetSeqs (p : Nat) (s : State) : State := modStep p (fun x => { x with seqs := x.seqs.map (fun q => { q with gone := true }) }) s

/-- A debugger's answer: the key x ‖ y whose digest is DEBUG_KEY, and its signature r ‖ s over the challenge (R739). Keys and
signatures lie with byte 0 in bits 7:0. -/
def debugAnswer (key sig : BitVec 768) (s : State) : Bool :=
  let half (v : BitVec 768) (k : Nat) : Digest := BitVec.ofNat 384 (fld v.toNat (384 * k) 384)
  s.flash.active.flags.getLsbD 0 && sha384 (leBytes 96 key.toNat) == s.flash.active.debugKey &&
    ecdsaVerify (sha384 (digestBytes s.trust.challenge)) (half key 0) (half key 1) (half sig 0) (half sig 1)

/-- Debug access is open: keys go, every partition is cleared with no keep bit, every link is DOWN, signing stops (R739). -/
def unlockDebug (s : State) : State :=
  let s1 := (List.range s.partitions).foldl (fun s p => returnUnits p (scrubPart p [] (forgetSeqs p s))) s
  let s2 := (List.range 8).foldl (fun s n => (List.range 2).foldl (fun s l =>
    if (s.link n l).st = .disabled then s else linkDown n l .down 0 s) s) s1
  { s2 with
    waybill := { s2.waybill with signing := none, waiting := [] },
    trust := { s2.trust with unlocked := true } }

/-- A signed answer to the challenge opens debug access where the manifest allows it; the challenge is used up (R739). -/
def execDebugUnlock (answer : DebugAnswer) (s : State) : Host.Outcome State Fault Refusal :=
  actIf s (debugAnswer answer.key answer.sig s && !s.trust.unlocked) (fun s => newChallenge (unlockDebug s))

/-! ## Attestation (R740, R741) -/

/-- LD_ATT_CTRL.GO: a report over the nonce is begun; ignored while BUSY (R740). -/
def execAttestationGo (s : State) : Host.Outcome State Fault Refusal :=
  actIf s (!s.trust.busy) (fun s =>
    { s with trust := { s.trust with busy := true, done := false, attNonce := s.trust.nonce, attAc := s.clk.ac } })

/-- LD_PART (R9). -/
def partWord (f : Fuses) : Nat :=
  let x := f.grade == .x
  packFields [(0x6400, 16, 16), (if x then 0xFF else 0x0F, 8, 8), (b2n x, 1, 7), (if x then 1 else 2, 3, 4), (f.stepping.toNat, 4, 0)]

/-- CI_STATUS.ROLE (R180). -/
def roleCode (s : State) : Nat :=
  match s.img.image with
  | none => 3
  | some i => match i.role with | .prompt => 0 | .generation => 1 | .cache => 2

/-- The entry of a partition in the report (R741). -/
def reportPart (s : State) (p : Nat) : List Byte :=
  match s.img.image.bind (fun i => (i.parts[p]?).map (fun q => (i, q))) with
  | none => List.replicate 32 0
  | some (i, q) =>
    [q.groves, if i.fixed then 1 else 0] ++ leBytes 2 (s.tenants p).toNat ++ List.replicate 4 0 ++ leBytes 8 (s.chain p).chainId.toNat ++
      leBytes 8 (s.chain p).signed ++ List.replicate 8 0

/-- The key indices of a tenant in the report. -/
def reportKeys (s : State) (t : Nat) : List Byte := leBytes 2 (s.keysOf t).ddr.toNat ++ leBytes 2 (s.keysOf t).remote.toNat

/-- Bytes 0 to 639 of the report (R741). -/
def reportBody (s : State) : List Byte :=
  let m := s.flash.active
  let flags := b2n s.trust.unlocked + 2 * b2n s.boot.floor + 4 * b2n s.img.image.isNone + 8 * b2n (decide (s.fuses.svn < m.svn))
  leBytes 4 0x50525441 ++ leBytes 2 1 ++ leBytes 2 768 ++ leBytes 4 (partWord s.fuses) ++ leBytes 4 s.rail.inc.toNat ++
  leBytes 8 s.trust.attAc ++ leBytes 1 (s.rail.nodeId.toNat + 128 * b2n s.rail.nodeSet) ++ leBytes 1 flags ++
  leBytes 1 (roleCode s) ++ leBytes 1 s.partitions ++ leBytes 4 0 ++
  leBytes 32 s.trust.attNonce.toNat ++ publicKey Config.identityScalar ++ publicKey (attestScalar s) ++
  digestBytes m.digest ++ digestBytes (match s.img.image with | some i => i.digest | none => 0) ++
  leBytes 1 m.svn ++ leBytes 1 s.fuses.svn ++ leBytes 2 0 ++ (List.range 3).flatMap (fun j => leBytes 4 (nth m.versions j 0).toNat) ++
  List.replicate 16 0 ++ (List.range 4).flatMap (reportPart s) ++ (List.range 16).flatMap (reportKeys s) ++ List.replicate 64 0

/-- The report is signed and written, and DONE is set (R740, R741). -/
def execAttestationReportDone (s : State) : Host.Outcome State Fault Refusal :=
  actIf s s.trust.busy (fun s =>
    let body := reportBody s
    let sig := ecdsaSign Config.identityScalar (Config.random s.free) (sha384 body)
    let s1 := s.fresh
    { s1 with trust := { s1.trust with
        busy := false, done := true, report := body ++ leBytes 96 sig.toNat ++ List.replicate 32 0 } })

end Sys2Proof.Machine
end

