-- ==== Sys2Proof/Machine/Regs.lean ====
section
/-! DEFINITION. The register map of BAR0 (R17 to R21, R82, R83, R90, R763 and each chapter's register tables): what a read of
every offset returns, what a read clears, and writes of the RW fields that no other command writes. -/

namespace Sys2Proof.Machine

/-! ## Registers -/

/-- What stands at an offset: nothing, a 32-bit or 64-bit register, or bytes that either width may read (fault records, the
attestation report, the certificate, the MSI-X table). -/
inductive Reg where
  | none
  | r32 (v : Nat)
  | r64 (v : Nat)
  | any (v : Nat)
deriving DecidableEq, Repr

/-- Element `i` of an array of registers `step` bytes apart from `base`, `n` of them, and the offset within it. -/
def arrAt (off base step n : Nat) : Option (Nat × Nat) :=
  if base ≤ off ∧ off < base + step * n then some ((off - base) / step, (off - base) % step) else none

/-- The 8 bytes from an offset of a list of bytes. -/
def bytesAt (l : List Byte) (o : Nat) : Reg := .any (leAt l o 8)

/-- The codes of state fields in registers. -/
def SqState.code : SqState → Nat
  | .disabled => 0 | .running => 1 | .draining => 2 | .error => 3
def PState.code : PState → Nat
  | .n0 => 0 | .n1 => 1 | .n2 => 2 | .n3 => 3 | .off => 0
def LinkMode.code : LinkMode → Nat
  | .down => 0 | .cxl2 => 1 | .cxl1 => 2 | .pcie => 3 | .degraded => 4
def CiState.code : CiState → Nat
  | .active => 0 | .loading => 1 | .unconfigured => 2
def SlotState.code : SlotState → Nat
  | .empty => 0 | .loading => 1 | .ready => 2 | .freeing => 3
def PhysState.code : PhysState → Nat
  | .active => 0 | .spare => 1 | .unused => 2 | .fusedBad => 3 | .failedTest => 4 | .retired => 5
def DdrState.code : DdrState → Nat
  | .undeclared => 0 | .unsealed => 1 | .sealed => 2 | .unsealing => 3 | .retiring => 4
def LinkSt.code : LinkSt → Nat
  | .down => 0 | .training => 1 | .up => 2 | .degraded => 3 | .trickle => 4 | .failed => 5 | .disabled => 6
def LaneSt.code : LaneSt → Nat
  | .down => 0 | .training => 1 | .upV3 => 2 | .upV2 => 3 | .trickle => 4 | .los => 5 | .miswired => 6
def PeerSt.code : PeerSt → Nat
  | .unwatched => 0 | .alive => 1 | .suspect => 2 | .dead => 3
def ConnSt.code : ConnSt → Nat
  | .free => 0 | .init => 1 | .opening => 2 | .opened => 3 | .closing => 4 | .error => 5
def RegSt.code : RegSt → Nat
  | .free => 0 | .registered => 1 | .revoking => 2 | .revoked => 3
def IdxSt.code : IdxSt → Nat
  | .unloaded => 0 | .loading => 1 | .ready => 2
def CtxState.code : CtxState → Nat
  | .active => 0 | .saving => 1 | .saved => 2 | .inherit => 3
def Stage.code : Stage → Nat
  | .lodge => 0 | .porters => 1 | .couplings => 2 | .testsTraining => 3 | .mapFirmware => 4 | .image => 5 | .ready => 6 | .failed => 7
def BootPath.code : BootPath → Nat
  | .cold => 0 | .warmFast => 1 | .warmSlow => 2 | .n3Exit => 3

/-! ## LD_: identity, bring-up, tenancy, attestation, waybills (R9, R25, R671, R672, R743, R278) -/

/-- LD_DIE_PRESENT (R25). -/
def dieWord (f : Fuses) : Nat :=
  packFields [(f.hbm.toNat, 8, 17), (1, 1, 16), (if f.grade = .x then 0xFF else 0x0F, 8, 8), (f.yard.toNat, 2, 6), (f.station.toNat, 2, 4),
    (f.grove.toNat, 4, 0)]

/-- LD_BOOT (R671). -/
def bootWord (b : Boot) : Nat :=
  packFields [(b.stage.code, 4, 28), (b.path.code, 2, 26), (b.cause.toNat, 2, 24), (b.ovrRej.toNat, 8, 16), (b.setRej.toNat, 4, 12), (b.warms.toNat, 8, 0)]

/-- LD_BOOT_FAIL (R672). -/
def bootFailWord (b : Boot) : Nat :=
  match b.fail with
  | none => 0
  | some f => packFields [(1, 1, 31), (f.kind.toNat, 4, 24), (f.unit.toNat, 8, 16), (f.cause.toNat, 8, 0)]

/-- The waybill registers of a partition (R278). -/
def wbReg (s : State) (p o : Nat) : Reg :=
  let c := s.chain p
  match o with
  | 0x00 => .r64 c.chainId.toNat
  | 0x08 => .r64 c.seq
  | 0x10 => .r64 c.signed
  | 0x18 => .r64 c.oldest
  | 0x20 => .r64 c.consumed
  | 0x28 => .r32 (b2n c.overwrite)
  | 0x2C => .r32 (packFields [(c.coalesced.toNat, 16, 16), (c.overwritten.toNat, 16, 0)])
  | 0x30 => .r64 c.stallSc.toNat
  | _ => .none

/-- LD_TN_STATUS (R743). -/
def tnStatusWord (s : State) : Nat :=
  packFields [(b2n s.tn.status.valid, 1, 31), (b2n (s.tn.switch.isSome || !s.tn.retire.isEmpty), 1, 8), (s.tn.status.code.toNat, 8, 0)]

/-- The tenancy registers. -/
def tnReg (s : State) (off : Nat) : Reg :=
  match arrAt off 0x2000 4 16, arrAt off 0x2040 4 4, arrAt off 0x2060 4 8, arrAt off 0x2100 8 16, arrAt off 0x3000 4 4096 with
  | some (i, 0), _, _, _, _ => let v := tget s.tn.vf (i + 1) {}; .r32 (packFields [(b2n v.valid, 1, 31), (v.tenant, 4, 0)])
  | _, some (p, 0), _, _, _ => .r32 (packFields [(b2n (switching p s), 1, 31), ((s.tenants p).toNat, 16, 0)])
  | _, _, some (i, 0), _, _ => .r32 (tget s.tn.keep i 0).toNat
  | _, _, _, some (t, 0), _ => let k := s.keysOf t; .r64 (packFields [(k.ddr.toNat, 16, 48), (k.remote.toNat, 16, 32), (k.fabric.toNat, 2, 0)])
  | _, _, _, _, some (c, 0) => let m := s.ctxMap c; .r32 (packFields [(b2n m.valid, 1, 31), (m.part, 2, 4), (m.tenant, 4, 0)])
  | _, _, _, _, _ =>
    if off = 0x2050 ∨ off = 0x2180 then .r32 0
    else if off = 0x2080 then .r32 (tnStatusWord s)
    else if off = 0x2084 then .r32 s.tn.drain.toNat
    else .none

/-- The trust registers. -/
def trustReg (s : State) (off : Nat) : Reg :=
  let t := s.trust
  if 0x7000 ≤ off ∧ off < 0x7020 ∧ off % 8 = 0 then .r64 (fld t.nonce.toNat (8 * (off - 0x7000)) 64)
  else if off = 0x7020 then .r32 (packFields [(b2n t.done, 1, 31), (b2n t.busy, 1, 30), (s.fuses.cert.length, 12, 16)])
  else if off = 0x7028 then .r32 (packFields [(b2n t.svnDone, 1, 31), (s.flash.active.svn, 6, 8), (s.fuses.svn, 6, 0)])
  else if off = 0x702C then .r32 0
  else if off = 0x7030 then .r32 (b2n t.unlocked)
  else if 0x7400 ≤ off ∧ off < 0x7700 then bytesAt t.report (off - 0x7400)
  else if 0x7800 ≤ off ∧ off < 0x8000 then bytesAt s.fuses.cert (off - 0x7800)
  else .none

/-- The LD_ block. -/
def ldReg (s : State) (off : Nat) : Reg :=
  match off with
  | 0x0000 => .r32 (partWord s.fuses)
  | 0x0004 => .r32 (dieWord s.fuses)
  | 0x0100 => .r32 (bootWord s.boot)
  | 0x0104 => .r32 (bootFailWord s.boot)
  | 0x0108 => .r32 0
  | 0x010C => .r32 (packFields [(b2n s.flash.clearRetired, 1, 1), (b2n s.flash.floorplan, 1, 0)])
  | 0x0110 => .r64 s.boot.bootAc
  | 0x0118 => .r32 (packFields [(s.flash.setSeq.toNat, 16, 16), (b2n s.flash.setBank, 1, 15), (b2n s.boot.savePend, 1, 14)])
  | _ =>
    if 0x2000 ≤ off ∧ off < 0x7000 then tnReg s off
    else if 0x7000 ≤ off ∧ off < 0x8000 then trustReg s off
    else match arrAt off 0x8000 0x100 4 with
      | some (p, o) => wbReg s p o
      | none => .none

/-! ## CK_ and PW_ (R55 to R57, R76, R77, R759, R760) -/

/-- CK_STATUS (R55, R748). -/
def ckWord (c : Clk) : Nat :=
  packFields [(c.throttleCount.toNat, 16, 16), (c.ddrRate.toNat, 3, 5), (b2n (decide (0 < gckDiv c)), 1, 4), (gckDiv c, 3, 1), (b2n c.pllLock, 1, 0)]

/-- PW_STATUS (R77). -/
def pwWord (p : Power) : Nat :=
  packFields [(p.wakeCause.toNat, 7, 16), (p.refuse.toNat, 8, 8), (p.gated.toNat, 4, 4), (b2n p.trans.isSome, 1, 3), (p.st.code, 3, 0)]

/-- PW_SENSOR (R759). -/
def sensorWord (x : Sensor) : Nat :=
  if x.valid then packFields [(1, 1, 31), (x.temp.toNat, 8, 23), (x.vmargin.toNat, 11, 12), (x.tmargin.toNat, 12, 0)] else 0

/-- The CK_ and PW_ blocks. -/
def ckReg (s : State) (off : Nat) : Reg :=
  match off with
  | 0x100000 => .r32 (ckWord s.clk)
  | 0x100008 => .r64 s.clk.sc
  | 0x100010 => .r64 s.clk.ac
  | 0x100018 => .r32 0
  | 0x100020 => .r64 s.clk.snapSc.toNat
  | 0x100028 => .r64 s.clk.snapAc.toNat
  | 0x100100 => .r32 (packFields [(s.power.n1Idle.toNat, 12, 8), (s.power.target.toNat, 3, 0)])
  | 0x100104 => .r32 (pwWord s.power)
  | 0x100280 => .r32 (packFields [(b2n s.power.tripped, 1, 31), (s.power.tripCause.toNat, 2, 8), (s.power.tripUnit.toNat, 8, 0)])
  | _ => match arrAt off 0x100200 4 17 with
    | some (d, 0) => .r32 (sensorWord (tget s.power.sensors d {}))
    | _ => .none

/-! ## HI_ (R81, R83, R95 to R98, R111, R118, R119, R121, R402, R708) -/

/-- HI_LINK (R81). -/
def linkWord (h : HostIf) : Nat :=
  packFields [(h.linkups.toNat, 8, 24), (h.width.toNat, 3, 8), (h.rate.toNat, 3, 5), (h.mode.code, 3, 0)]

/-- HI_CFG_ERR (R98). -/
def CfgErr.word (e : CfgErr) : Nat := packFields [(b2n e.valid, 1, 31), (e.cause.toNat, 8, 16), (e.kind.toNat, 2, 8), (e.ring.toNat, 8, 0)]

/-- A submission ring's set (R95). -/
def sqReg (s : State) (n o : Nat) : Reg :=
  let q := s.sq n
  match o with
  | 0x00 => .r64 q.base.toNat
  | 0x08 => .r64 q.tailAddr.toNat
  | 0x10 => .r32 (packFields [(b2n q.enable, 1, 0), (b2n q.polled, 1, 1), (q.logSize.toNat, 5, 3), (q.cq.toNat, 8, 8)])
  | 0x14 => .r32 (packFields [(q.st.code, 2, 0), (q.err.toNat, 8, 7), (inFlight n s, 17, 15)])
  | 0x18 => .r32 q.head.toNat
  | 0x1C => .r32 q.tail.toNat
  | _ => .none

/-- A completion ring's set (R96). -/
def cqReg (s : State) (n o : Nat) : Reg :=
  let c := s.cq n
  match o with
  | 0x00 => .r64 c.base.toNat
  | 0x08 => .r64 c.headAddr.toNat
  | 0x10 => .r32 (packFields [(b2n c.enable, 1, 0), (b2n c.polled, 1, 1), (c.logSize.toNat, 5, 3), (c.vector.toNat, 11, 8), (b2n c.irqEn, 1, 19)])
  | 0x14 => .r32 (packFields [(c.modCount.toNat, 8, 0), (c.modTime.toNat, 24, 8)])
  | 0x18 => .r32 c.tail.toNat
  | 0x1C => .r32 c.stall.toNat
  | _ => .none

/-- A function's token ring registers (R402). -/
def tokReg (s : State) (f o : Nat) : Reg :=
  let c := s.tok f
  match o with
  | 0x00 => .r64 c.base.toNat
  | 0x08 => .r64 c.headAddr.toNat
  | 0x10 => .r32 (packFields [(b2n c.enable, 1, 0), (b2n c.polled, 1, 1), (c.logSize.toNat, 5, 4), (c.vector.toNat, 11, 9), (b2n c.irqEn, 1, 20)])
  | 0x14 => .r32 (packFields [(c.modCount.toNat, 8, 0), (c.modTime.toNat, 24, 8)])
  | 0x18 => .r32 c.tail.toNat
  | 0x1C => .r32 c.stall.toNat
  | _ => .none

/-- The 16 bytes of an MSI-X vector in the table (R121). -/
def msixEntry (m : Msix) : List Byte := leBytes 8 m.addr.toNat ++ leBytes 4 m.data.toNat ++ leBytes 4 (b2n m.mask)

/-- The pending bits of 64 vectors of a function. -/
def pbaWord (s : State) (f i : Nat) : Nat :=
  ((List.range 64).map (fun k => if 64 * i + k < vectorCount f && (tget s.host.msix (vectorOf f (64 * i + k)) {}).pend then 2 ^ k else 0)).sum

/-- The result registers of R708. -/
def resWord (r : Option Byte) : Nat := match r with | none => 0 | some c => packFields [(1, 1, 31), (c.toNat, 8, 0)]

/-- Rings of each kind that a function's BAR0 shows (R91, R763). -/
def ringsSeen (f : Nat) : Nat := if f = 0 then 256 else 8

/-- The HI_ block of a function. -/
def hiReg (s : State) (f off : Nat) : Reg :=
  let r := s.fn f
  match off with
  | 0x200000 => .r32 (linkWord s.host)
  | 0x200004 => .r32 r.cfgErr.word
  | 0x200008 => .r32 s.host.poll.toNat
  | 0x200010 => .r32 (packFields [(b2n r.evtEnable, 1, 8), (r.evtCq.toNat, 8, 0)])
  | 0x200014 => .r32 r.lost.toNat
  | 0x200080 => .r32 0
  | 0x200084 => .r32 (resWord r.ctxRes)
  | 0x200088 => .r32 0
  | 0x20008C => .r32 (resWord r.semRes)
  | _ =>
    match ringSet off with
    | some (0, n, o) => (match sqReg s (ringOf f n) o with
      | .r64 v => .r64 (if n < ringsSeen f then v else 0)
      | .r32 v => .r32 (if n < ringsSeen f then v else 0)
      | x => x)
    | some (1, n, o) => (match cqReg s (ringOf f n) o with
      | .r64 v => .r64 (if n < ringsSeen f then v else 0)
      | .r32 v => .r32 (if n < ringsSeen f then v else 0)
      | x => x)
    | some (_, _, o) => tokReg s f o
    | none =>
      match arrAt off 0x210000 16 (vectorCount f), arrAt off 0x218000 8 2 with
      | some (v, o), _ => bytesAt (msixEntry (tget s.host.msix (vectorOf f v) {})) o
      | none, some (i, o) => bytesAt (leBytes 8 (pbaWord s f i)) o
      | none, none => .none

/-! ## CI_ (R180 to R182, R277) -/

/-- CI_STATUS (R180). -/
def ciWord (s : State) : Nat :=
  packFields [(s.img.loads.toNat, 16, 16), (s.partitions - 1, 2, 8), (b2n s.img.flashCopy, 1, 7), (b2n s.img.ovrPend, 1, 6),
    (b2n (drainedNow s), 1, 5), (b2n s.img.draining, 1, 4), (s.img.st.code, 2, 2), (roleCode s, 2, 0)]

/-- The CI_ block. -/
def ciReg (s : State) (off : Nat) : Reg :=
  match off with
  | 0x400000 => .r32 (ciWord s)
  | 0x400004 => .r32 (2 ^ 31 * b2n s.img.err.valid + s.img.err.result)
  | 0x400008 => .r64 (match s.img.image with | some i => i.imageId.toNat | none => 0)
  | _ => match arrAt off 0x400040 8 6, arrAt off 0x400100 4 4 with
    | some (i, 0), _ => .r64 (match s.img.image with | some x => fld x.digest.toNat (64 * i) 64 | none => 0)
    | _, some (p, 0) => .r32 (tget s.img.xcheck p 0).toNat
    | _, _ => .none

/-! ## TT_, SB_ and PF_ (R415, R417, R443, R614 to R617) -/

/-- The registers of a partition as software last wrote them: a write waits for the step boundary (R20, R415). (DEDUCED, log entry 22.) -/
def ttShown (s : State) (p : Nat) : TtRegs :=
  match tget s.tt.pend p none with
  | some r => (s.ttregs p).take r
  | none => s.ttregs p

/-- TT_SEL.LOCKED (R443). -/
def selLocked (s : State) (p : Nat) : Bool :=
  (partEntries p s).any (fun i => match (s.entry i).st with
    | .admitted | .prefill | .handoffOut | .handoffIn | .decode | .parked | .done => true
    | _ => false)

/-- The partition registers (R415, R443). -/
def ttPartReg (s : State) (p o : Nat) : Reg :=
  let r := ttShown s p
  match o with
  | 0x00 => .r64 (packFields [(r.layers, 12, 40), (r.kvHeads, 7, 32), (r.geometry.toNat, 8, 24), (r.pool, 8, 16)])
  | 0x08 => .r32 (packFields [(r.stepTokens.toNat, 16, 16), (r.chunk.toNat, 16, 0)])
  | 0x0C => .r32 r.ageSteps.toNat
  | 0x30 => .r32 (packFields [(r.genFraction.toNat, 8, 24), (r.headroom.toNat, 8, 16)])
  | 0x38 => .r64 r.reserveSc.toNat
  | 0x40 => .r32 r.stepEst.toNat
  | 0x48 => .r32 r.stepAvg
  | 0x4C => .r32 r.tokAvg16
  | 0x50 => .r64 r.steps
  | 0x58 => .r32 r.refusedMem.toNat
  | 0x5C => .r32 r.refusedTime.toNat
  | 0x60 => .r32 r.starved.toNat
  | 0x80 => .r32 (packFields [(b2n (selLocked s p), 1, 31), (r.selHeads.toNat, 3, 24), (r.logitFmt.toNat, 4, 20), (r.vocab.toNat, 19, 0)])
  | 0x88 => .r64 r.treeBase.toNat
  | 0x90 => .r32 r.treeCount.toNat
  | 0x98 => .r64 r.specRows
  | 0xA0 => .r64 r.specAccept
  | 0xA8 => .r32 r.selMismatch.toNat
  | 0xAC => .r32 r.selNan.toNat
  | 0xB0 => .r32 r.tallyDrop.toNat
  | _ => match arrAt o 0x10 4 7 with
    | some (b, 0) => .r32 (nth r.buckets b 0)
    | _ => .none

/-- TT_STATE_COUNT: a Station's entries in a state (R366, R416). -/
def stateCount (s : State) (st n : Nat) : Nat :=
  let held (k : Nat) : Nat := (s.tt.entries.filter (fun kv => kv.1 / 8192 == st && kv.2.st.code == k)).length
  if n = 0 then 8192 - ((List.range 10).map (fun k => held (k + 1))).sum else held n

/-- The TT_ block. -/
def ttReg (s : State) (off : Nat) : Reg :=
  if off = 0x800010 then .r32 (s.tt.races.filter (fun kv => kv.2.isOpen)).length
  else match arrAt off 0x801000 0x100 4, arrAt off 0x800100 4 11, arrAt off 0xC00100 4 11 with
    | some (p, o), _, _ => ttPartReg s p o
    | _, some (n, 0), _ => .r32 (stateCount s 0 n)
    | _, _, some (n, 0) => .r32 (stateCount s 1 n)
    | _, _, _ => .none

/-- The SB_ and PF_ blocks. -/
def sbReg (s : State) (off : Nat) : Reg :=
  let h := s.ho
  match off with
  | 0x1000000 => .r32 (h.window.toNat * 2 ^ 24)
  | 0x1000004 => .r32 h.wait.toNat
  | 0x1000008 => .r32 h.platWait.toNat
  | 0x1000100 => .r64 h.out
  | 0x1000108 => .r64 h.moved
  | 0x1000110 => .r64 h.kept
  | 0x1000118 => .r64 h.outLost
  | 0x1000120 => .r64 h.accepted
  | 0x1000128 => .r64 h.abandoned
  | 0x1000130 => .r64 h.partnerLost
  | 0x1000138 => .r64 h.probes
  | 0x1000140 => .r64 h.itemsTx
  | 0x1000148 => .r64 h.itemsRx
  | _ =>
    match arrAt off 0x1000040 0x10 4, arrAt off 0x1010000 0x100 2 with
    | some (p, 0), _ => .r64 (tget h.tally p {}).base.toNat
    | some (p, 8), _ => .r32 (packFields [((tget h.tally p {}).held.length, 16, 16), ((tget h.tally p {}).count, 16, 0)])
    | _, some (st, o) =>
      if o < 0x20 ∧ o % 4 = 0 then .r32 (packFields [(tget h.pfPeak (8 * st + o / 4) 0, 10, 16), (pfInUse st (o / 4) s, 10, 0)])
      else if 0x40 ≤ o ∧ o < 0x68 ∧ o % 8 = 0 then .r64 (tget h.pfStall (8 * st + (o - 0x40) / 8) 0).toNat
      else .none
    | _, none => .none

/-! ## RL_ (R570 to R572) -/

/-- RL_ROUTE (R570). -/
def routeWord (s : State) (n : Nat) : Nat :=
  packFields ((List.range 4).flatMap (fun k => let r := s.route n k
    [(b2n r.valid, 1, 8 * k + 7), (r.lantern, 3, 8 * k + 1), (r.link, 1, 8 * k)]))

/-- RL_CONN (R571). -/
def connReg (s : State) (n o : Nat) : Reg :=
  let c := s.conn n
  match o with
  | 0x00 => .r32 (packFields [(c.st.code, 3, 29), (c.cls, 3, 26), (b2n c.v2, 1, 25), (c.paths.toNat, 4, 21), (c.peerNode, 7, 14), (c.tenant, 4, 10)])
  | 0x04 => .r32 (packFields [(c.peerConn, 12, 16), (c.context, 12, 0)])
  | 0x08 => .r32 c.peerInc.toNat
  | 0x0C => .r32 c.nextMseq.toNat
  | 0x10 => .r32 c.cum.toNat
  | 0x14 => .r32 c.rxCum.toNat
  | 0x18 => .r32 (packFields [(c.txUnits, 8, 8), (c.rxUnits, 8, 0)])
  | 0x20 => .r64 c.rnrSc.toNat
  | 0x28 => .r64 c.retx
  | 0x30 => .r32 c.service.toNat
  | _ => .none

/-- RL_REGION (R572). -/
def slotReg (s : State) (k o : Nat) : Reg :=
  let x := s.slot k
  match o with
  | 0x00 => .r32 (packFields [(x.st.code, 2, 30), (x.rights.toNat, 3, 27), (x.tenant, 4, 23), (x.regionId, 8, 0)])
  | 0x04 => .r32 (packFields [(x.gen.toNat, 16, 16), (b2n x.peerValid, 1, 15), (x.peer, 7, 0)])
  | 0x08 => .r32 x.inFlight
  | 0x0C => .r32 x.peerInc.toNat
  | 0x10 => .r64 x.offset
  | 0x18 => .r64 x.length
  | _ => .none

/-- The RL_ block. -/
def rlReg (s : State) (off : Nat) : Reg :=
  let r := s.rc
  match off with
  | 0x1400000 => .r32 (packFields [(r.hops.toNat, 8, 24), (r.retxMax.toNat, 4, 20), (r.retxSc.toNat, 20, 0)])
  | 0x1400004 => .r32 r.timeout.toNat
  | 0x1400040 => .r64 r.txPkts
  | 0x1400048 => .r64 r.rxPkts
  | 0x1400050 => .r64 r.retx
  | 0x1400058 => .r64 r.noRoute
  | 0x1400060 => .r64 r.stale
  | 0x1400068 => .r64 r.dropped
  | 0x1400070 => .r64 r.keyRefused
  | 0x1400078 => .r64 r.timeouts
  | 0x1400080 => .r64 r.trigDrop
  | _ =>
    match arrAt off 0x1401000 4 128, arrAt off 0x1410000 0x40 4096, arrAt off 0x1500000 0x20 65536, arrAt off 0x1700000 8 4096 with
    | some (n, 0), _, _, _ => .r32 (routeWord s n)
    | _, some (c, o), _, _ => connReg s c o
    | _, _, some (k, o), _ => slotReg s k o
    | _, _, _, some (n, 0) => let t := s.trig n; .r64 (packFields [(b2n t.bound, 1, 63), (t.tenant, 4, 59), (t.value.toNat, 32, 0)])
    | _, _, _, _ => .none

/-! ## LN_ (R530 to R534) -/

/-- LN_CLASS of a Lantern (R532); the deficit is that of its v3 link. (DEDUCED, log entry 21.) -/
def classReg (x : Lantern) (c o : Nat) : Reg :=
  let k := tget x.classes c {}
  match o with
  | 0x00 => .r64 k.txBytes
  | 0x08 => .r64 k.creditWait.toNat
  | 0x10 => .r64 k.gateWait.toNat
  | 0x18 => .r32 (tget (tget x.links 0 {}).deficit c 0)
  | _ => .none

/-- LN_LANE (R533, R758). -/
def laneReg (s : State) (n l o : Nat) : Reg :=
  let x := s.lane n l
  match o with
  | 0x00 => .r32 (x.st.code * 2 ^ 29)
  | 0x04 => .r32 (packFields [((signedField 16 x.tx).toNat, 16, 16), ((signedField 16 x.rx).toNat, 16, 0)])
  | 0x08 => .r64 x.symCorr
  | 0x10 => .r32 (signedField 16 (x.rx - ((s.lantern n).los.toInt + modeOffset x.st (laneLink n l s)))).toNat
  | _ => .none

/-- The registers of a Lantern (R530 to R533). LANES_UP counts lanes that carry frames. -/
def lanternReg (s : State) (n o : Nat) : Reg :=
  let x := s.lantern n
  let lk (k : Nat) : Nat :=
    let y := s.link n k
    let carries := y.up || y.st == .trickle
    packFields [(y.st.code, 4, 28), (if carries then y.lanesUp else 0, 5, 23), (y.peer, 7, 8), (y.cause.toNat, 8, 0)]
  match o with
  | 0x0000 => .r32 (lk 0)
  | 0x0004 => .r32 (lk 1)
  | 0x0008 => .r32 (s.link n 0).peerInc.toNat
  | 0x000C => .r32 (s.link n 1).peerInc.toNat
  | 0x0010 => .r32 (x.keySlot.toNat * 16)
  | 0x0014 => .r32 (packFields [(x.hbMiss.toNat, 8, 16), (x.hbPeriod.toNat, 16, 0)])
  | 0x0018 => .r32 (packFields [(x.warn.toNat, 16, 16), (x.los.toNat, 16, 0)])
  | 0x0100 => .r64 x.txFrames
  | 0x0108 => .r64 x.rxFrames
  | 0x0110 => .r64 x.fecUncorr
  | 0x0118 => .r64 x.crcFail
  | 0x0120 => .r64 x.authFail
  | 0x0128 => .r64 x.stomped
  | 0x0130 => .r64 x.replays
  | 0x0138 => .r64 x.retrains
  | 0x0140 => .r64 x.cutThrough
  | 0x0148 => .r64 x.stored
  | 0x0150 => .r64 x.dropped
  | _ =>
    match arrAt o 0x200 0x20 8, arrAt o 0x400 0x20 16 with
    | some (c, r), _ => classReg x c r
    | none, some (l, r) => laneReg s n l r
    | none, none => .none

/-- The LN_ block: the node registers, the detector (R534), and the Lanterns; those the grade lacks read as zero (R5). -/
def lnReg (s : State) (off : Nat) : Reg :=
  match off with
  | 0x1900000 => .r32 (packFields [(b2n s.rail.nodeSet, 1, 31), (s.rail.nodeId.toNat, 7, 0)])
  | 0x1900004 => .r32 s.rail.inc.toNat
  | 0x1900010 => .r32 (packFields [(s.rail.liveMiss.toNat, 8, 24), (s.rail.livePer.toNat, 24, 0)])
  | _ =>
    match arrAt off 0x1800000 0x20000 8, arrAt off 0x1900020 4 4, arrAt off 0x1901000 8 128 with
    | some (n, o), _, _ => (match lanternReg s n o with
      | .r32 v => .r32 (if s.fuses.grade = .g ∧ n ≥ 4 then 0 else v)
      | .r64 v => .r64 (if s.fuses.grade = .g ∧ n ≥ 4 then 0 else v)
      | x => x)
    | _, some (w, 0), _ => .r32 (tget s.rail.watch w 0).toNat
    | _, _, some (n, 0) =>
      let p := s.peer n
      .r64 (packFields [(p.inc.toNat, 32, 32), (p.st.code, 2, 30), (p.misses, 8, 22), (p.deaths.toNat, 16, 0)])
    | _, _, _ => .none

/-! ## GV_ and ST_ (R233 to R236, R275, R276, R673) -/

/-- Present logical Stands of a Grove with a duty. -/
def dutyCount (s : State) (g duty : Nat) : Nat :=
  ((List.range 100).filter (fun l => (s.stand g l).physical.isSome && (s.stand g l).duty == duty)).length

/-- GV_STATUS (R233). Before a map is built there are four spares and no Stand is ABSENT (the reset values). -/
def gvWord (s : State) (g : Nat) : Nat :=
  let mapped := s.groves.phys.any (fun kv => kv.1 / 100 == g)
  let present := ((List.range 100).filter (fun l => (s.stand g l).physical.isSome)).length
  let spares := ((List.range 100).filter (fun p => (s.phys g p).st == .spare)).length
  let on := s.img.image.isSome
  packFields [(if on then grovePart g s else 0, 2, 30), (if mapped then spares else 4, 3, 27), (if mapped then 96 - present else 0, 7, 20),
    (if on then dutyCount s g 0 else 0, 7, 13), (if on then dutyCount s g 1 else 0, 6, 7), (if on then dutyCount s g 2 else 0, 7, 0)]

/-- Canopy units held in a Grove. -/
def canopyUsed (s : State) (g : Nat) : Nat := ((s.groves.slots.filter (fun kv => kv.1 / 256 == g)).map (fun kv => kv.2.units)).sum

/-- GV_CHK_LAST (R275). -/
def ChkLast.word (c : ChkLast) : Nat :=
  packFields [(b2n c.valid, 1, 31), (c.stand.toNat, 7, 24), (c.row.toNat, 7, 17), (b2n c.rowValid, 1, 16), (c.col.toNat, 7, 9),
    (b2n c.colValid, 1, 8), (c.format.toNat, 4, 4), (c.kind.toNat, 4, 0)]

/-- The Stands a Grove's registers show: 0 to 95, and in floor-plan mode 0 to 99 (R236, R665). -/
def standCount (s : State) : Nat := if s.boot.floor then 100 else 96

/-- The physical Stand of a logical one: that of the map in force, and before the first map is built that which the fuses give (R236, R657).
(DEDUCED, log entry 99.) -/
def physicalOf (s : State) (g l : Nat) : Option Nat :=
  if s.boot.mapped then (s.stand g l).physical
  else ((buildGrove ((s.fuses.fusedBad.filter (fun x => x.1 == g)).map Prod.snd) []).map.find? (fun y => y.1 == l)).bind Prod.snd

/-- A logical Stand's registers (R236, R276). -/
def standReg (s : State) (g l o : Nat) : Reg :=
  let x := s.stand g l
  let p := physicalOf s g l
  match o with
  | 0x00 => .r32 (packFields [(p.getD 0xFF, 8, 24), (x.duty, 2, 8),
      (if p.isNone then 3 else if s.power.gated.getLsbD g then 2 else b2n x.busy, 2, 6)])
  | 0x08 => .r64 x.activeGc
  | 0x10 => .r64 x.tiles
  | 0x18 => .r64 x.stallGc
  | 0x20 => .r32 (packFields [(x.fails.toNat, 16, 16), (match x.physical with | some p => (s.phys g p).charges | none => 0, 8, 0)])
  | _ => .none

/-- The registers of a Grove; in N2 every one reads as all ones (R59). -/
def gvReg (s : State) (g o : Nat) : Reg :=
  let x := s.grove g
  match o with
  | 0x0000 => .r32 (gvWord s g)
  | 0x0008 => .r32 (packFields [((s.groves.slots.filter (fun kv => kv.1 / 256 == g)).length, 9, 23), (768 - canopyUsed s g, 10, 0)])
  | 0x0010 => .r32 x.affinityWait.toNat
  | 0x0100 => .r64 x.chkTiles
  | 0x0108 => .r64 x.chkFail
  | 0x0110 => .r64 x.chkRecomp
  | 0x0118 => .r64 x.chkXchecked
  | 0x0120 => .r64 x.chkMismatch
  | 0x0128 => .r64 x.chkUnchecked
  | 0x0130 => .r32 x.retireLimit.toNat
  | 0x0134 => .r32 x.chkLast.word
  | _ =>
    match arrAt o 0x40 4 4, arrAt o 0x200 4 100, arrAt o 0x1000 4 256, arrAt o 0x100000 0x1000 (standCount s) with
    | some (i, 0), _, _, _ => .r32 (((List.range 32).map (fun b => if 32 * i + b < 100 && (match (s.phys g (32 * i + b)).st with
        | .fusedBad | .failedTest | .retired => true | _ => false) then 2 ^ b else 0)).sum)
    | _, some (p, 0), _, _ => .r32 (packFields [((s.phys g p).st.code, 3, 29), ((s.phys g p).logical.getD 0xFF, 8, 0)])
    | _, _, some (n, 0), _ => let k := s.cslot g n; .r32 (packFields [(k.st.code, 2, 30), (k.units, 10, 10), (k.base, 10, 0)])
    | _, _, _, some (l, r) => standReg s g l r
    | _, _, _, _ => .none

/-- The GV_ and ST_ blocks. -/
def groveReg (s : State) (off : Nat) : Reg :=
  match arrAt off 0x2000000 0x1000000 4 with
  | none => .none
  | some (g, o) => (match gvReg s g o with
    | .r32 v => .r32 (if s.power.st = .n2 then 0xFFFFFFFF else v)
    | .r64 v => .r64 (if s.power.st = .n2 then 0xFFFFFFFFFFFFFFFF else v)
    | x => x)

/-! ## MT_, SL_ and CS_ (R331, R332, R363 to R365, R480 to R483, R637, R638) -/

/-- The region of an identifier, if it is of a kind. -/
def regionOfKind (s : State) (id kind : Nat) : Option Region := (s.region id).filter (fun r => r.kind == kind)

/-- MT_KV_POOL (R332). -/
def poolReg (s : State) (id o : Nat) : Reg :=
  let v (f : Region → Nat) : Nat := match regionOfKind s id 1 with | some r => f r | none => 0
  match o with
  | 0x0 => .r32 (v poolTotal)
  | 0x4 => .r32 (v (fun r => poolFree r s))
  | 0x8 => .r32 (v (fun _ => (s.pool id).reserved))
  | 0xC => .r32 (v (fun r => (s.pool id).low.getD (poolFree r s)))
  | _ => .none

/-- MT_TENANT (R481). -/
def tenantReg (s : State) (t o : Nat) : Reg :=
  let x := tget s.ddr.tenants t {}
  match o with
  | 0x0 => .r32 x.floor.toNat
  | 0x4 => .r32 x.cap.toNat
  | 0x8 => .r32 x.used
  | 0xC => .r32 x.pinned
  | _ => .none

/-- MT_DDR_REGION (R482). -/
def ddrReg (s : State) (r o : Nat) : Reg :=
  let x := s.ddrRegion r
  match o with
  | 0x00 => .r32 (packFields [(x.st.code, 3, 29), (b2n x.pin, 1, 28), (x.tenant, 4, 24), (x.units, 18, 0)])
  | 0x04 => .r32 (packFields [(x.keyIdx.toNat, 16, 16), (x.inFlight, 16, 0)])
  | 0x08 => .r32 x.gen.toNat
  | 0x10 => .r64 x.lastUse
  | _ => .none

/-- The Sleeper counters of a partition (R363). -/
def slReg (s : State) (p o : Nat) : Reg :=
  let x := tget s.sleeper.cnt p {}
  match o with
  | 0x00 => .r64 x.coded
  | 0x08 => .r64 x.raw
  | 0x10 => .r64 x.zero
  | 0x18 => .r64 x.plain
  | 0x20 => .r64 x.stored
  | 0x28 => .r64 x.expanded
  | 0x30 => .r64 (packFields [(x.errLen.toNat, 16, 48), (x.errCode.toNat, 16, 32), (x.errCrc.toNat, 16, 16), (x.errKey.toNat, 16, 0)])
  | 0x38 => .r64 x.codecGc
  | _ => .none

/-- SL_LAST_ERR (R364). -/
def SlLast.word (x : SlLast) : Nat :=
  packFields [(b2n x.valid, 1, 63), (x.part.toNat, 2, 56), (x.status.toNat, 8, 48), (x.tier.toNat, 2, 46), (x.place.toNat, 46, 0)]

/-- The MT_ and SL_ blocks. -/
def mtReg (s : State) (off : Nat) : Reg :=
  let d := s.ddr
  match off with
  | 0x6000000 => .r32 (packFields [(d.channels, 4, 28), (b2n d.mismatch, 1, 27), (b2n d.x8, 1, 26), (d.units, 21, 0)])
  | 0x6000004 => .r32 (d.units - (unitsUsed s).length)
  | 0x6000008 => .r32 d.hostReject.toNat
  | 0x6000010 => .r64 d.ce
  | 0x6000018 => .r64 d.ue
  | 0x6000020 => .r64 d.macFail
  | 0x6000028 => .r64 d.refused
  | 0x6000030 => .r64 d.evictions
  | 0x6400000 => .r32 (packFields [(s.mem.prefetch.toNat, 8, 24), (s.mem.kvWait.toNat, 24, 0)])
  | 0x6400004 => .r32 s.mem.kvSpan.toNat
  | 0x6400010 => .r64 s.mem.kvRows
  | 0x6400018 => .r64 s.mem.kvTaken
  | 0x6400020 => .r64 s.mem.kvUnits
  | 0x6400028 => .r64 s.mem.kvLower
  | 0x6400030 => .r64 s.mem.kvCommitSc.toNat
  | 0x6600400 => .r64 s.sleeper.last.word
  | _ =>
    match arrAt off 0x6001000 0x10 16, arrAt off 0x6002000 0x20 256, arrAt off 0x6010000 8 32, arrAt off 0x6401000 0x10 256,
          arrAt off 0x6600000 0x100 4, arrAt off 0x6610000 8 4096 with
    | some (t, o), _, _, _, _, _ => tenantReg s t o
    | _, some (r, o), _, _, _, _ => ddrReg s r o
    | _, _, some (k, 0), _, _, _ => .r64 (tget d.stall k 0).toNat
    | _, _, _, some (r, o), _, _ => poolReg s r o
    | _, _, _, _, some (p, o), _ => slReg s p o
    | _, _, _, _, _, some (c, 0) => .r64 (tget s.sleeper.stall c 0).toNat
    | _, _, _, _, _, _ => .none

/-- Queries on a region fetched and not completed (R638). -/
def queriesOn (s : State) (r : Nat) : Nat := (s.work.filter (fun w => w.opcode == 0x60 && csRegion w == r)).length

/-- The CS_ block (R637, R638); absent on grade G, where it reads as zero (R6). -/
def csReg (s : State) (off : Nat) : Reg :=
  let c := s.cs
  if s.fuses.grade = .g then .none else
  match off with
  | 0x6800000 => .r32 (packFields [(ctxInUse 1 s, 8, 16), (ctxInUse 0 s, 8, 0)])
  | 0x6800100 => .r64 c.queries
  | 0x6800108 => .r64 c.visits
  | 0x6800110 => .r64 c.tombVisits
  | 0x6800118 => .r64 c.short
  | 0x6800120 => .r64 c.memWait
  | 0x6800128 => .r64 c.ctxWait.toNat
  | _ =>
    match arrAt off 0x6801000 0x10 256 with
    | none => .none
    | some (r, o) =>
      let v (n : Nat) : Nat := if (regionOfKind s r 5).isSome then n else 0
      let x := s.idx r
      match o with
      | 0x0 => .r32 (v (packFields [(x.st.code, 2, 30), (x.nodes, 28, 0)]))
      | 0x4 => .r32 (v x.tombs)
      | 0x8 => .r32 (v (queriesOn s r))
      | _ => .none

/-! ## FT_ (R676, R677, R709) -/

/-- The 64 bytes of a fault record (R677). -/
def FaultRec.bytes (r : FaultRec) : List Byte :=
  leBytes 2 r.number.toNat ++ leBytes 1 r.cls.toNat ++
  leBytes 1 (b2n r.isOpen + 2 * b2n r.injected + 4 * b2n r.ctxValid + 8 * b2n r.escalated) ++ [r.source, r.domain, r.cause, r.cause2] ++
  leBytes 2 r.merges.toNat ++ leBytes 1 r.level.toNat ++ [0] ++ leBytes 2 r.context ++ leBytes 1 (r.tenant % 16 + 16 * (r.part % 4)) ++ [0] ++
  leBytes 8 r.openAc ++ leBytes 8 r.lastAc ++ leBytes 8 r.closeAc ++ leBytes 8 r.detail0.toNat ++ leBytes 8 r.detail1.toNat ++ leBytes 8 0

/-- FT_CULPRIT (R709). -/
def Culprit.word (c : Culprit) : Nat :=
  packFields [(b2n c.valid, 1, 63), (c.level.toNat, 3, 56), (c.watchdog.toNat, 2, 52), (c.kind.toNat, 4, 48), (c.engine.toNat, 16, 32),
    (b2n c.ctxValid, 1, 31), (c.part.toNat, 2, 28), (c.context.toNat, 12, 16), (c.number.toNat, 16, 0)]

/-- The possession that holds a domain, if any. -/
def holderOf (s : State) (d : Nat) : Option Poss := s.ft.held.find? (fun h => h.domains.getLsbD d)

/-- FT_POSS of a domain (R709). -/
def possReg (s : State) (d o : Nat) : Reg :=
  match o with
  | 0 => .r32 (packFields [(b2n (holderOf s d).isSome, 1, 31), (match holderOf s d with | some h => h.activity.toNat | none => 0, 8, 16),
      (min 8 (waitingOn d s), 4, 0)])
  | 8 => .r64 (match holderOf s d with | some h => h.since | none => 0)
  | _ => .none

/-- FT_POSS_Q (R709). -/
def possQ (s : State) (i : Nat) : Nat :=
  match s.ft.queue[i]? with
  | some q => packFields [(1, 1, 63), (q.activity.toNat, 8, 48), (q.domains.toNat, 22, 0)]
  | none => 0

/-- The FT_ block. -/
def ftReg (s : State) (off : Nat) : Reg :=
  let f := s.ft
  match off with
  | 0x7000000 => .r32 (packFields [(b2n f.fault, 1, 31), ((f.recs.filter (fun kv => kv.2.isOpen)).length, 12, 16), (f.last.toNat, 16, 0)])
  | 0x7000008 => .r64 f.recoveries
  | 0x7000010 => .r32 f.quiet.toNat
  | 0x7000014 => .r32 (packFields [(b2n f.errnHold, 1, 31), (f.errnPulse.toNat, 16, 0)])
  | 0x7000018 => .r32 f.possRefused.toNat
  | 0x7000020 => .r64 (packFields [(b2n f.inject.arm, 1, 63), (f.inject.checker.toNat, 8, 48), (f.inject.unit.toNat, 16, 32), (f.inject.count.toNat, 8, 0)])
  | 0x7000028 => .r32 0
  | 0x7000040 => .r64 f.culprit.word
  | 0x7000060 => .r32 f.wdtCtx.toNat
  | 0x7000064 => .r32 f.wdtEngine.toNat
  | 0x7000068 => .r32 f.wdtPart.toNat
  | 0x700006C => .r32 f.wdtChip.toNat
  | 0x7000080 => .r32 f.escWindow.toNat
  | 0x7000084 => .r32 f.escLimit.toNat
  | 0x7000088 => .r32 f.maxLevel.toNat
  | 0x700008C => .r32 f.fnDrain.toNat
  | 0x7000090 => .r32 0
  | _ =>
    match arrAt off 0x7000100 8 256, arrAt off 0x7001000 0x10 22, arrAt off 0x7002000 8 256, arrAt off 0x7010000 4 4096,
          arrAt off 0x7020000 8 16384, arrAt off 0x7040000 8 256, arrAt off 0x7100000 64 4096 with
    | some (k, 0), _, _, _, _, _, _ => .r64 (tget f.corrected k 0)
    | _, some (d, o), _, _, _, _, _ => possReg s d o
    | _, _, some (i, 0), _, _, _, _ => .r64 (possQ s i)
    | _, _, _, some (c, 0), _, _, _ => .r32 (packFields [((s.ctx c).st.code, 2, 30), ((semsOf c s).length, 7, 0)])
    | _, _, _, _, some (k, 0), _, _ => .r64 (tget f.slow k 0).toNat
    | _, _, _, _, _, some (k, 0), _ => if k % 4 = 3 then .none else .r64 (tget f.usage k 0)
    | _, _, _, _, _, _, some (k, o) => bytesAt ((tget f.recs k {}).bytes) o
    | _, _, _, _, _, _, _ => .none

/-! ## A read -/

/-- What stands at an offset of the physical function's BAR0 (R82). -/
def pfReg (s : State) (off : Nat) : Reg :=
  if off < 0x100000 then ldReg s off
  else if off < 0x200000 then ckReg s off
  else if off < 0x400000 then hiReg s 0 off
  else if off < 0x800000 then ciReg s off
  else if off < 0x1000000 then ttReg s off
  else if off < 0x1400000 then sbReg s off
  else if off < 0x1800000 then rlReg s off
  else if off < 0x2000000 then lnReg s off
  else if off < 0x6000000 then groveReg s off
  else if off < 0x6800000 then mtReg s off
  else if off < 0x7000000 then csReg s off
  else if off < 0x7800000 then ftReg s off
  else .none

/-- What stands at an offset of a function's BAR0: a virtual function sees LD_PART and its own HI_ block (R90, R763). -/
def regAt (s : State) (f off : Nat) : Reg :=
  if f = 0 then pfReg s off
  else if off = 0 then ldReg s 0
  else if 0x200000 ≤ off ∧ off < 0x400000 then hiReg s f off
  else .none

/-- All ones of a width. -/
def onesOf (width : Nat) : Nat := 2 ^ width - 1

/-- The value of a read: a register of the access's own width and alignment; all ones where the access touches a register in any
other way; zero at reserved offsets (R17 to R19). (DEDUCED, log entry 20.) -/
def readValue (s : State) (f off width : Nat) : Nat :=
  let touches (o : Nat) : Bool := match regAt s f o with | .none => false | _ => true
  let wide (o : Nat) : Bool := match regAt s f o with | .r64 _ => true | _ => false
  if !(width == 32 || width == 64) || off % (width / 8) != 0 then
    if (List.range (max 1 (width / 8))).any (fun i => touches (4 * ((off + i) / 4)) || (decide (4 ≤ off + i) && wide (4 * ((off + i) / 4) - 4))) then
      onesOf width else 0
  else match regAt s f off with
    | .r32 v => if width = 32 then v else onesOf width
    | .r64 v => if width = 64 then v else onesOf width
    | .any v => v % 2 ^ width
    | .none =>
      if (decide (width = 32) && decide (4 ≤ off) && wide (off - 4)) || (decide (width = 64) && touches (off + 4)) then onesOf width else 0

/-- Whether a read of a function is a whole access of a register of its width. -/
def readsReg (s : State) (f off width : Nat) : Bool :=
  off % (width / 8) == 0 && (match regAt s f off with
    | .r32 _ => width == 32
    | .r64 _ => width == 64
    | _ => false)

/-- In FAILED only these can be read (R646). -/
def failedReads (off : Nat) : Bool :=
  decide (off < 0x200000) || off == 0x200000 || (decide (0x7000000 ≤ off) && decide (off < 0x7800000))

/-! ## What a read clears -/

/-- RC fields of a function's HI_ block (R98, R119, R402, R708, R96). -/
def clearHi (f off : Nat) (s : State) : State :=
  match off with
  | 0x200004 => s.modFn f (fun r => { r with cfgErr := {} })
  | 0x200014 => s.modFn f (fun r => { r with lost := 0 })
  | 0x200084 => s.modFn f (fun r => { r with ctxRes := none })
  | 0x20008C => s.modFn f (fun r => { r with semRes := none })
  | _ => match ringSet off with
    | some (1, n, 0x1C) => if n < ringsSeen f then s.modCq (ringOf f n) (fun c => { c with stall := 0 }) else s
    | some (2, _, 0x1C) => s.modTok f (fun c => { c with stall := 0 })
    | _ => s

/-- RC fields of the Timetable and of the handoff (R415, R443, R616, R617). -/
def clearTt (off : Nat) (s : State) : State :=
  match arrAt off 0x801000 0x100 4, arrAt off 0x1010000 0x100 2 with
  | some (p, o), _ => s.modTtRegs p (fun r => { r with
      refusedMem := if o = 0x58 then 0 else r.refusedMem, refusedTime := if o = 0x5C then 0 else r.refusedTime,
      starved := if o = 0x60 then 0 else r.starved, selMismatch := if o = 0xA8 then 0 else r.selMismatch,
      selNan := if o = 0xAC then 0 else r.selNan, tallyDrop := if o = 0xB0 then 0 else r.tallyDrop })
  | none, some (st, o) =>
    { s with ho := { s.ho with
      pfPeak := if o < 0x20 then tput s.ho.pfPeak (8 * st + o / 4) 0 0 else s.ho.pfPeak,
      pfStall := if 0x40 ≤ o then tput s.ho.pfStall (8 * st + (o - 0x40) / 8) 0 0 else s.ho.pfStall } }
  | none, none => s

/-- RC fields of the LN_ classes and the RL_ connections (R532, R571). -/
def clearRail (off : Nat) (s : State) : State :=
  match arrAt off 0x1800000 0x20000 8, arrAt off 0x1410000 0x40 4096 with
  | some (n, o), _ => (match arrAt o 0x200 0x20 8 with
    | some (c, 0x08) => s.modLantern n (fun x => { x with classes := tmod x.classes c {} (fun k => { k with creditWait := 0 }) })
    | some (c, 0x10) => s.modLantern n (fun x => { x with classes := tmod x.classes c {} (fun k => { k with gateWait := 0 }) })
    | _ => s)
  | none, some (c, 0x20) => s.modConn c (fun x => { x with rnrSc := 0 })
  | _, _ => s

/-- RC fields of the memory blocks (R331, R332, R363 to R365, R480, R483). -/
def clearMt (off : Nat) (s : State) : State :=
  match off with
  | 0x6000008 => { s with ddr := { s.ddr with hostReject := 0 } }
  | 0x6400030 => { s with mem := { s.mem with kvCommitSc := 0 } }
  | 0x6600400 => { s with sleeper := { s.sleeper with last := {} } }
  | _ =>
    match arrAt off 0x6010000 8 32, arrAt off 0x6401000 0x10 256, arrAt off 0x6600000 0x100 4, arrAt off 0x6610000 8 4096 with
    | some (k, _), _, _, _ => { s with ddr := { s.ddr with stall := tput s.ddr.stall k 0 0 } }
    | _, some (r, 0xC), _, _ => s.modPool r (fun p => { p with low := none })
    | _, _, some (p, 0x30), _ => s.modSl p (fun c => { c with errLen := 0, errCode := 0, errCrc := 0, errKey := 0 })
    | _, _, _, some (c, _) => { s with sleeper := { s.sleeper with stall := tput s.sleeper.stall c 0 0 } }
    | _, _, _, _ => s

/-- RC fields of the other blocks (R55, R77, R181, R275, R278, R637, R709, R743). -/
def clearRest (off : Nat) (s : State) : State :=
  match off with
  | 0x2080 => { s with tn := { s.tn with status := {} } }
  | 0x7028 => { s with trust := { s.trust with svnDone := false } }
  | 0x100000 => { s with clk := { s.clk with throttleCount := 0 } }
  | 0x100104 => { s with power := { s.power with wakeCause := 0, refuse := 0 } }
  | 0x400004 => { s with img := { s.img with err := {} } }
  | 0x6800128 => { s with cs := { s.cs with ctxWait := 0 } }
  | 0x7000018 => { s with ft := { s.ft with possRefused := 0 } }
  | 0x7000040 => { s with ft := { s.ft with culprit := {} } }
  | _ =>
    match arrAt off 0x8000 0x100 4, arrAt off 0x2000000 0x1000000 4, arrAt off 0x7020000 8 16384 with
    | some (p, 0x2C), _, _ => s.modChain p (fun c => { c with coalesced := 0, overwritten := 0 })
    | some (p, 0x30), _, _ => s.modChain p (fun c => { c with stallSc := 0 })
    | _, some (g, 0x0134), _ => if s.power.st = .n2 then s else s.modGrove g (fun x => { x with chkLast := {} })
    | _, _, some (k, _) => { s with ft := { s.ft with slow := tput s.ft.slow k 0 0 } }
    | _, _, _ => s

/-- The RC fields of a register that has been read (R20). -/
def clearOnRead (f off : Nat) (s : State) : State :=
  if 0x200000 ≤ off ∧ off < 0x400000 then clearHi f off s
  else if f ≠ 0 then s
  else if (0x800000 ≤ off ∧ off < 0x1400000) then clearTt off s
  else if (0x1400000 ≤ off ∧ off < 0x2000000) then clearRail off s
  else if (0x6000000 ≤ off ∧ off < 0x6800000) then clearMt off s
  else clearRest off s

/-- The registers the tray controller reads over I3C: LD_BOOT, PW_STATUS, PW_SENSOR, PW_TRIP, HI_LINK, and those of attestation (R77, R81,
R671, R743, R759, R760). -/
def i3cReads (off : Nat) : Bool :=
  off == 0x100 || off == 0x100104 || off == 0x100280 || off == 0x200000 || (decide (0x100200 ≤ off) && decide (off < 0x100244)) ||
  (decide (0x7000 ≤ off) && decide (off < 0x7024)) || (decide (0x7400 ≤ off) && decide (off < 0x7700)) ||
  (decide (0x7800 ≤ off) && decide (off < 0x8000))

/-- The value of a read leaves, and the RC fields of the register are cleared (R19, R20). -/
def readReg (fn off width : Nat) (s : State) : State :=
  let s1 := s.emit (.regRead fn off (BitVec.ofNat 64 (readValue s fn off width)))
  if readsReg s fn off width then clearOnRead fn off s1 else s1

/-- A register is read: over BAR0, where in FAILED the other blocks answer with a value the spec does not give (R646); or over I3C, which
works in every state except Off, a trip included (R44, R77, R81, R671). -/
def execRegisterReadClear (by_ : Port) (off width : Nat) (s : State) : Host.Outcome State Fault Refusal :=
  match by_ with
  | .bar0 fn => actIf s (reaches fn s && decide (fn ≤ 16)) (fun s =>
      if s.boot.stage = .failed ∧ !failedReads off then (s.fresh).emit (.regRead fn off (BitVec.ofNat 64 (Config.random s.free)))
      else readReg fn off width s)
  | .i3c => .next (if s.power.st ≠ .off ∧ i3cReads off = true then s.kept (readReg 0 off width s) else s)

/-! ## Writes -/

/-- RW fields of a function's HI_ block: HI_POLL, HI_EVT_CFG, the MSI-X table (R111, R118, R121). -/
def writeHi (f off width : Nat) (v : Nat) (s : State) : State :=
  if off = 0x200008 ∧ width = 32 then (if f = 0 then { s with host := { s.host with poll := BitVec.ofNat 21 v } } else s)
  else if off = 0x200010 ∧ width = 32 then s.modFn f (fun r => { r with evtEnable := v.testBit 8, evtCq := BitVec.ofNat 8 v })
  else match arrAt off 0x210000 16 (vectorCount f) with
    | some (n, o) =>
      let put (g : Msix → Msix) (s : State) : State := { s with host := { s.host with msix := tmod s.host.msix (vectorOf f n) {} g } }
      let lo := fld v 0 32
      let hi := fld v 32 32
      let dword (o w : Nat) (m : Msix) : Msix :=
        match o with
        | 0 => { m with addr := BitVec.ofNat 64 (setFld m.addr.toNat 0 32 w) }
        | 4 => { m with addr := BitVec.ofNat 64 (setFld m.addr.toNat 32 32 w) }
        | 8 => { m with data := BitVec.ofNat 32 w }
        | _ => { m with mask := w.testBit 0 }
      if width = 32 ∧ o % 4 = 0 then sendPending f (put (dword o lo) s)
      else if width = 64 ∧ o % 8 = 0 then sendPending f (put (fun m => dword (o + 4) hi (dword o lo m)) s)
      else s
    | none => s

/-- RW fields of the LD_ block: LD_BOOT_CTRL, LD_TN_KEEP, LD_TN_DRAIN, LD_ATT_NONCE, LD_WB_CFG (R672, R743, R278). -/
def writeLd (off width v : Nat) (s : State) : State :=
  if width = 32 then
    match off with
    | 0x010C => { s with flash := { s.flash with clearRetired := v.testBit 1, floorplan := v.testBit 0 } }
    | 0x2084 => { s with tn := { s.tn with drain := BitVec.ofNat 32 v } }
    | _ => match arrAt off 0x2060 4 8, arrAt off 0x8000 0x100 4 with
      | some (i, 0), _ => { s with tn := { s.tn with keep := tput s.tn.keep i (BitVec.ofNat 32 v) 0 } }
      | _, some (p, 0x28) => retryEnded p (s.modChain p (fun c => { c with overwrite := v.testBit 0 }))
      | _, _ => s
  else if width = 64 ∧ 0x7000 ≤ off ∧ off < 0x7020 ∧ off % 8 = 0 then
    { s with trust := { s.trust with nonce := BitVec.ofNat 256 (setFld s.trust.nonce.toNat (8 * (off - 0x7000)) 64 v) } }
  else s

/-- A write of a partition's RW registers into a copy of them (R415, R443). -/
def TtRegs.write (r : TtRegs) (o width v : Nat) (locked : Bool) : TtRegs :=
  if width = 64 then
    match o with
    | 0x00 => { r with layers := fld v 40 12, kvHeads := fld v 32 7, geometry := BitVec.ofNat 8 (fld v 24 8), pool := fld v 16 8 }
    | 0x38 => { r with reserveSc := BitVec.ofNat 64 v }
    | 0x88 => if locked then r else { r with treeBase := BitVec.ofNat 64 v }
    | _ => r
  else if width = 32 then
    match o with
    | 0x08 => { r with stepTokens := BitVec.ofNat 16 (fld v 16 16), chunk := BitVec.ofNat 16 v }
    | 0x0C => { r with ageSteps := BitVec.ofNat 16 v }
    | 0x30 => { r with genFraction := BitVec.ofNat 8 (fld v 24 8), headroom := BitVec.ofNat 8 (fld v 16 8) }
    | 0x40 => { r with stepEst := BitVec.ofNat 32 v }
    | 0x80 => if locked then r else
        { r with selHeads := BitVec.ofNat 3 (fld v 24 3), logitFmt := BitVec.ofNat 4 (fld v 20 4), vocab := BitVec.ofNat 19 v }
    | 0x90 => if locked then r else { r with treeCount := BitVec.ofNat 13 v }
    | _ => match arrAt o 0x10 4 7 with
      | some (b, 0) => { r with buckets := r.buckets.set b (fld v 0 32) }
      | _ => r
  else r

/-- A write of the partition registers takes effect at the next step boundary: at once where no step is in flight (R415, R443). -/
def writeTt (off width v : Nat) (s : State) : State :=
  match arrAt off 0x801000 0x100 4 with
  | none => s
  | some (p, o) =>
    let r := (ttShown s p).write o width v (selLocked s p)
    if (s.stepOf p).isSome then { s with tt := { s.tt with pend := tput s.tt.pend p (some r) none } }
    else s.modTtRegs p (fun c => c.take r)

/-- RW fields of the SB_ block (R614, R615). -/
def writeSb (off width v : Nat) (s : State) : State :=
  let put (h : Handoff) : State := { s with ho := h }
  if width = 32 then
    match off with
    | 0x1000000 => put { s.ho with window := BitVec.ofNat 8 (fld v 24 8) }
    | 0x1000004 => put { s.ho with wait := BitVec.ofNat 24 v }
    | 0x1000008 => put { s.ho with platWait := BitVec.ofNat 24 v }
    | _ => match arrAt off 0x1000040 0x10 4 with
      | some (p, 8) => put { s.ho with tally := tmod s.ho.tally p {} (fun t => if t.held.isEmpty then { t with count := fld v 0 16 } else t) }
      | _ => s
  else match arrAt off 0x1000040 0x10 4 with
    | some (p, 0) => if width = 64 then put { s.ho with tally := tmod s.ho.tally p {} (fun t => { t with base := BitVec.ofNat 64 v }) } else s
    | _ => s

/-- RW fields of the RL_ and LN_ blocks: RL_CFG, RL_TIMEOUT, RL_ROUTE, LN_LIVE_CFG, LN_CTRL.KEY_SLOT, LN_HB, LN_RX_THRESH (R530,
R534, R570). -/
def writeRail (off width v : Nat) (s : State) : State :=
  if width ≠ 32 then s else
  match off with
  | 0x1400000 => { s with rc := { s.rc with hops := BitVec.ofNat 8 (fld v 24 8), retxMax := BitVec.ofNat 4 (fld v 20 4), retxSc := BitVec.ofNat 20 v } }
  | 0x1400004 => { s with rc := { s.rc with timeout := BitVec.ofNat 24 v } }
  | 0x1900010 => { s with rail := { s.rail with liveMiss := BitVec.ofNat 8 (fld v 24 8), livePer := BitVec.ofNat 24 v } }
  | _ =>
    match arrAt off 0x1401000 4 128, arrAt off 0x1800000 0x20000 8 with
    | some (n, 0), _ =>
      { s with rail := { s.rail with routes := (List.range 4).foldl (fun t k =>
          tput t (4 * n + k) { valid := v.testBit (8 * k + 7), lantern := fld v (8 * k + 1) 3, link := fld v (8 * k) 1 } {}) s.rail.routes } }
    | _, some (n, o) =>
      if s.fuses.grade = .g ∧ n ≥ 4 then s else
      (match o with
      | 0x10 => s.modLantern n (fun x => { x with keySlot := BitVec.ofNat 2 (fld v 4 2) })
      | 0x14 => s.modLantern n (fun x => { x with hbMiss := BitVec.ofNat 8 (fld v 16 8), hbPeriod := BitVec.ofNat 16 v })
      | 0x18 => s.modLantern n (fun x => { x with warn := BitVec.ofNat 16 (fld v 16 16), los := BitVec.ofNat 16 v })
      | _ => s)
    | _, _ => s

/-- RW fields of the CK_, CI_, GV_ and MT_ blocks: PW_CTRL.N1_IDLE, CI_XCHECK, GV_AFFINITY_WAIT, GV_CHK_RETIRE, MT_KV_CFG and
MT_KV_SPAN (R59, R76, R234, R275, R277, R331). -/
def writeMid (off width v : Nat) (s : State) : State :=
  if width ≠ 32 then s else
  match off with
  | 0x100100 => { s with power := { s.power with n1Idle := BitVec.ofNat 12 (fld v 8 12) } }
  | 0x6400000 => { s with mem := { s.mem with prefetch := BitVec.ofNat 8 (fld v 24 8), kvWait := BitVec.ofNat 24 v } }
  | 0x6400004 => { s with mem := { s.mem with kvSpan := BitVec.ofNat 32 v } }
  | _ =>
    match arrAt off 0x400100 4 4, arrAt off 0x2000000 0x1000000 4 with
    | some (p, 0), _ => (match s.img.image with
      | some i => if fld v 0 5 ≤ i.xcheckK then { s with img := { s.img with xcheck := tput s.img.xcheck p (BitVec.ofNat 5 v) 0 } } else s
      | none => s)
    | _, some (g, o) =>
      if s.power.st = .n2 then s
      else if o = 0x10 then s.modGrove g (fun x => { x with affinityWait := BitVec.ofNat 16 v })
      else if o = 0x0130 then s.modGrove g (fun x => { x with retireLimit := BitVec.ofNat 8 v })
      else s
    | _, _ => s

/-- RW fields of the FT_ block (R709). -/
def writeFt (off width v : Nat) (s : State) : State :=
  if width ≠ 32 then s else
  let put (f : Faults) : State := { s with ft := f }
  match off with
  | 0x7000010 => put { s.ft with quiet := BitVec.ofNat 32 v }
  | 0x7000014 => put { s.ft with errnHold := v.testBit 31, errnPulse := BitVec.ofNat 16 v }
  | 0x7000060 => put { s.ft with wdtCtx := BitVec.ofNat 32 v }
  | 0x7000064 => put { s.ft with wdtEngine := BitVec.ofNat 32 v }
  | 0x7000068 => put { s.ft with wdtPart := BitVec.ofNat 32 v }
  | 0x700006C => put { s.ft with wdtChip := BitVec.ofNat 32 v }
  | 0x7000080 => put { s.ft with escWindow := BitVec.ofNat 32 v }
  | 0x7000084 => put { s.ft with escLimit := BitVec.ofNat 32 v }
  | 0x7000088 => put { s.ft with maxLevel := BitVec.ofNat 3 v }
  | 0x700008C => put { s.ft with fnDrain := BitVec.ofNat 32 v }
  | _ => s

/-- A write into a function's BAR0: a virtual function writes its own HI_ block alone (R90, R763). -/
def writeReg (fn off width v : Nat) (s : State) : State :=
  if 0x200000 ≤ off ∧ off < 0x400000 then writeHi fn off width v s
  else if fn ≠ 0 then s
  else if off < 0x100000 then writeLd off width v s
  else if 0x800000 ≤ off ∧ off < 0x1000000 then writeTt off width v s
  else if 0x1000000 ≤ off ∧ off < 0x1400000 then writeSb off width v s
  else if 0x1400000 ≤ off ∧ off < 0x2000000 then writeRail off width v s
  else if 0x7000000 ≤ off then writeFt off width v s
  else writeMid off width v s

/-- A write of a register whose fields no other command writes (R18 to R20); reserved bits are ignored (R17). The tray controller writes
LD_ATT_NONCE alone (R740). (DEDUCED, log entry 19.) -/
def execRegisterWrite (by_ : Port) (off width : Nat) (value : W64) (s : State) : Host.Outcome State Fault Refusal :=
  match by_ with
  | .bar0 fn => actIf s (writes fn s && decide (fn ≤ 16)) (writeReg fn off width value.toNat)
  | .i3c => actIf s (decide (0x7000 ≤ off ∧ off < 0x7020)) (writeLd off width value.toNat)

end Sys2Proof.Machine
end

