-- ==== Sys2Proof/Machine/Dispatch.lean ====
section
/-! DEFINITION. The one dispatch of commands to their meanings: one arm per constructor. -/

namespace Sys2Proof.Machine

/-- The effect of a command on everything but the queue. -/
def exec (i : Instr) (s : State) : Host.Outcome State Fault Refusal :=
  match i with
  -- power, clocks and bring-up
  | .powerApplied => Sys2Proof.Machine.execPowerApplied s
  | .suppliesValid => Sys2Proof.Machine.execSuppliesValid s
  | .pllLock => Sys2Proof.Machine.execPllLock s
  | .bringUpPhaseComplete ph r => Sys2Proof.Machine.execBringUpPhaseComplete ph r s
  | .settingsBankWriteComplete ok => Sys2Proof.Machine.execSettingsBankWriteComplete ok s
  | .flashCopyComplete => Sys2Proof.Machine.execFlashCopyComplete s
  | .warmResetRequest => Sys2Proof.Machine.execWarmResetRequest s
  | .i3cResetCommand => Sys2Proof.Machine.execI3cResetCommand s
  | .powerRemoved => Sys2Proof.Machine.execPowerRemoved s
  | .aonSupplyLoss => Sys2Proof.Machine.execAonSupplyLoss s
  | .sensorSample obs => Sys2Proof.Machine.execSensorSample obs s
  | .currentLimitRaise grove => Sys2Proof.Machine.execCurrentLimitRaise grove s
  | .throttleLower grove cause => Sys2Proof.Machine.execThrottleLower grove cause s
  | .undervoltageTrip rail => Sys2Proof.Machine.execUndervoltageTrip rail s
  | .groveIdleGate grove => Sys2Proof.Machine.execGroveIdleGate grove s
  | .groveWorkUngate grove => Sys2Proof.Machine.execGroveWorkUngate grove s
  | .pwTargetN0 => Sys2Proof.Machine.execPwTargetN0 s
  | .pwTargetN2 => Sys2Proof.Machine.execPwTargetN2 s
  | .pwTargetN3 => Sys2Proof.Machine.execPwTargetN3 s
  | .pwTargetInvalid value => Sys2Proof.Machine.execPwTargetInvalid value s
  | .n2EntryComplete => Sys2Proof.Machine.execN2EntryComplete s
  | .n3EntryComplete => Sys2Proof.Machine.execN3EntryComplete s
  | .n2ExitComplete => Sys2Proof.Machine.execN2ExitComplete s
  | .n3ExitComplete => Sys2Proof.Machine.execN3ExitComplete s
  | .wakeNLow => Sys2Proof.Machine.execWakeNLow s
  | .perstNAssert => Sys2Proof.Machine.execPerstNAssert s
  | .perstNDeassert => Sys2Proof.Machine.execPerstNDeassert s
  | .hostHotReset => Sys2Proof.Machine.execHostHotReset s
  | .hostLinkDown => Sys2Proof.Machine.execHostLinkDown s
  | .hostLinkUp offer => Sys2Proof.Machine.execHostLinkUp offer s
  | .configRequest req => Sys2Proof.Machine.execConfigRequest req s
  | .ckSnap => Sys2Proof.Machine.execCkSnap s
  | .vfFlr v => Sys2Proof.Machine.execVfFlr v s
  | .pfFlr => Sys2Proof.Machine.execPfFlr s
  | .vfEnableClear => Sys2Proof.Machine.execVfEnableClear s
  | .vfEnableSet numVfs => Sys2Proof.Machine.execVfEnableSet numVfs s
  | .msixVectorUnmask fn target => Sys2Proof.Machine.execMsixVectorUnmask fn target s
  -- rings
  | .sqEnable fn ring cfg => Sys2Proof.Machine.execSqEnable fn ring cfg s
  | .sqDisable fn ring cfg => Sys2Proof.Machine.execSqDisable fn ring cfg s
  | .cqEnable fn ring cfg => Sys2Proof.Machine.execCqEnable fn ring cfg s
  | .cqDisable fn ring cfg => Sys2Proof.Machine.execCqDisable fn ring cfg s
  | .tokRingEnable fn cfg => Sys2Proof.Machine.execTokRingEnable fn cfg s
  | .tokRingDisable fn cfg => Sys2Proof.Machine.execTokRingDisable fn cfg s
  | .ringConfigWrite fn off width value => Sys2Proof.Machine.execRingConfigWrite fn off width value s
  | .tailLineInvalidation ring => Sys2Proof.Machine.execTailLineInvalidation ring s
  | .tailPoll ring => Sys2Proof.Machine.execTailPoll ring s
  | .tailReadReturn ring tail => Sys2Proof.Machine.execTailReadReturn ring tail s
  | .descriptorReadReturn ring ds => Sys2Proof.Machine.execDescriptorReadReturn ring ds s
  | .nop w => Sys2Proof.Machine.execNop w s
  | .cqHeadLineRead ring head => Sys2Proof.Machine.execCqHeadLineRead ring head s
  | .tokHeadLineRead fn head => Sys2Proof.Machine.execTokHeadLineRead fn head s
  | .cqModTimerExpire ring => Sys2Proof.Machine.execCqModTimerExpire ring s
  -- host memory window and registers
  | .bar2Read off read => Sys2Proof.Machine.execBar2Read off read s
  | .bar2Write off data => Sys2Proof.Machine.execBar2Write off data s
  | .cxlMemRead addr read => Sys2Proof.Machine.execCxlMemRead addr read s
  | .cxlMemWrite addr data => Sys2Proof.Machine.execCxlMemWrite addr data s
  | .registerWrite by_ off width value => Sys2Proof.Machine.execRegisterWrite by_ off width value s
  -- image control
  | .imageLoad w => Sys2Proof.Machine.execImageLoad w s
  | .imageCheck w => Sys2Proof.Machine.execImageCheck w s
  | .drainBegin w => Sys2Proof.Machine.execDrainBegin w s
  | .drainEnd w => Sys2Proof.Machine.execDrainEnd w s
  | .imageReadComplete data => Sys2Proof.Machine.execImageReadComplete data s
  | .drainReached => Sys2Proof.Machine.execDrainReached s
  | .drainWaitExpire => Sys2Proof.Machine.execDrainWaitExpire s
  | .imageApplyComplete => Sys2Proof.Machine.execImageApplyComplete s
  | .applyFault => Sys2Proof.Machine.execApplyFault s
  -- Grove arithmetic and checks
  | .matmul w => Sys2Proof.Machine.execMatmul w s
  | .matmulSparse w => Sys2Proof.Machine.execMatmulSparse w s
  | .vector w => Sys2Proof.Machine.execVector w s
  | .canopyLoad w => Sys2Proof.Machine.execCanopyLoad w s
  | .canopyLoadComplete w => Sys2Proof.Machine.execCanopyLoadComplete w s
  | .canopyFree w => Sys2Proof.Machine.execCanopyFree w s
  | .canopyFreeComplete w => Sys2Proof.Machine.execCanopyFreeComplete w s
  | .tileDispatch w tile => Sys2Proof.Machine.execTileDispatch w tile s
  | .affinityWaitExpire w tile => Sys2Proof.Machine.execAffinityWaitExpire w tile s
  | .tileComplete w tile obs => Sys2Proof.Machine.execTileComplete w tile obs s
  | .standRetireTilesCleared grove physical => Sys2Proof.Machine.execStandRetireTilesCleared grove physical s
  | .vectorChunkComplete w chunk obs => Sys2Proof.Machine.execVectorChunkComplete w chunk obs s
  | .waybillSignatureComplete => Sys2Proof.Machine.execWaybillSignatureComplete s
  | .waybillRead w => Sys2Proof.Machine.execWaybillRead w s
  | .waybillSeal w => Sys2Proof.Machine.execWaybillSeal w s
  | .waybillMeasure w => Sys2Proof.Machine.execWaybillMeasure w s
  | .waybillMeasureComplete w => Sys2Proof.Machine.execWaybillMeasureComplete w s
  -- key-value pages and attention
  | .kvListCreate w => Sys2Proof.Machine.execKvListCreate w s
  | .kvScatter w => Sys2Proof.Machine.execKvScatter w s
  | .scatterTurn w seq => Sys2Proof.Machine.execScatterTurn w seq s
  | .attend w => Sys2Proof.Machine.execAttend w s
  | .commitWaitSatisfied w seq => Sys2Proof.Machine.execCommitWaitSatisfied w seq s
  | .commitWaitExpire w seq => Sys2Proof.Machine.execCommitWaitExpire w seq s
  | .attendUnitComplete w unit obs => Sys2Proof.Machine.execAttendUnitComplete w unit obs s
  | .attendBackward w => Sys2Proof.Machine.execAttendBackward w s
  | .kvFreeze w => Sys2Proof.Machine.execKvFreeze w s
  | .kvSpill w => Sys2Proof.Machine.execKvSpill w s
  | .rebindPageReturn pool page => Sys2Proof.Machine.execRebindPageReturn pool page s
  | .kvFetch w => Sys2Proof.Machine.execKvFetch w s
  | .kvListFree w => Sys2Proof.Machine.execKvListFree w s
  | .kvListFreeComplete w => Sys2Proof.Machine.execKvListFreeComplete w s
  | .kvKeyslotSet w => Sys2Proof.Machine.execKvKeyslotSet w s
  | .blockExpand read => Sys2Proof.Machine.execBlockExpand read s
  | .ddr5ReadReturn read obs => Sys2Proof.Machine.execDdr5ReadReturn read obs s
  -- Timetable
  | .ttPlace w block => Sys2Proof.Machine.execTtPlace w block s
  | .ttCancel w => Sys2Proof.Machine.execTtCancel w s
  | .ttSnapshot w => Sys2Proof.Machine.execTtSnapshot w s
  | .ttMove w => Sys2Proof.Machine.execTtMove w s
  | .ttPark w => Sys2Proof.Machine.execTtPark w s
  | .ttResume w => Sys2Proof.Machine.execTtResume w s
  | .ttFree w => Sys2Proof.Machine.execTtFree w s
  | .ttProgram w => Sys2Proof.Machine.execTtProgram w s
  | .ttRaceOpen w => Sys2Proof.Machine.execTtRaceOpen w s
  | .ttRaceClose w => Sys2Proof.Machine.execTtRaceClose w s
  | .stepStart p => Sys2Proof.Machine.execStepStart p s
  | .stepEntryComplete p selDiffer => Sys2Proof.Machine.execStepEntryComplete p selDiffer s
  | .stepEnd p => Sys2Proof.Machine.execStepEnd p s
  | .budgetExpire entry => Sys2Proof.Machine.execBudgetExpire entry s
  | .raceJoin src m => Sys2Proof.Machine.execRaceJoin src m s
  | .raceClaim src m => Sys2Proof.Machine.execRaceClaim src m s
  | .raceGrant src m => Sys2Proof.Machine.execRaceGrant src m s
  | .raceRefuse src m => Sys2Proof.Machine.execRaceRefuse src m s
  | .raceCancel src m => Sys2Proof.Machine.execRaceCancel src m s
  | .raceCancelAck src m => Sys2Proof.Machine.execRaceCancelAck src m s
  | .release src m => Sys2Proof.Machine.execRelease src m s
  | .lost src m => Sys2Proof.Machine.execLost src m s
  | .cancel src m => Sys2Proof.Machine.execCancel src m s
  | .cancelDone src m => Sys2Proof.Machine.execCancelDone src m s
  -- DDR5 tier
  | .mtDdrDeclare w map => Sys2Proof.Machine.execMtDdrDeclare w map s
  | .ddrRecordInitComplete w => Sys2Proof.Machine.execDdrRecordInitComplete w s
  | .mtDdrSeal w => Sys2Proof.Machine.execMtDdrSeal w s
  | .mtDdrUnseal w => Sys2Proof.Machine.execMtDdrUnseal w s
  | .mtDdrRetire w => Sys2Proof.Machine.execMtDdrRetire w s
  | .ddrRegionInFlightDrained region => Sys2Proof.Machine.execDdrRegionInFlightDrained region s
  | .mtStore w => Sys2Proof.Machine.execMtStore w s
  | .mtLoad w => Sys2Proof.Machine.execMtLoad w s
  | .mtDdrPin w => Sys2Proof.Machine.execMtDdrPin w s
  | .mtTenantWrite tenant isCap value => Sys2Proof.Machine.execMtTenantWrite tenant isCap value s
  -- Rail links
  | .lightOn lantern link => Sys2Proof.Machine.execLightOn lantern link s
  | .train lantern link f obs => Sys2Proof.Machine.execTrain lantern link f obs s
  | .keyConfirm lantern link f tag => Sys2Proof.Machine.execKeyConfirm lantern link f tag s
  | .trainingTimeout lantern link => Sys2Proof.Machine.execTrainingTimeout lantern link s
  | .linkRetryTimer lantern link => Sys2Proof.Machine.execLinkRetryTimer lantern link s
  | .laneLoss lantern lane => Sys2Proof.Machine.execLaneLoss lantern lane s
  | .laneUp lantern lane => Sys2Proof.Machine.execLaneUp lantern lane s
  | .lnRetrain lantern mask => Sys2Proof.Machine.execLnRetrain lantern mask s
  | .linkHbSend lantern link => Sys2Proof.Machine.execLinkHbSend lantern link s
  | .linkTimeout lantern link => Sys2Proof.Machine.execLinkTimeout lantern link s
  | .linkHb lantern link f obs => Sys2Proof.Machine.execLinkHb lantern link f obs s
  | .dataFrame lantern link f obs => Sys2Proof.Machine.execDataFrame lantern link f obs s
  | .ackFrame lantern link f obs => Sys2Proof.Machine.execAckFrame lantern link f obs s
  | .nakFrame lantern link f obs => Sys2Proof.Machine.execNakFrame lantern link f obs s
  | .fillFrame lantern link => Sys2Proof.Machine.execFillFrame lantern link s
  | .frameBoundary lantern link => Sys2Proof.Machine.execFrameBoundary lantern link s
  | .peerEntersN3 => Sys2Proof.Machine.execPeerEntersN3 s
  | .peerLeavesN3 => Sys2Proof.Machine.execPeerLeavesN3 s
  | .wake lantern link f obs => Sys2Proof.Machine.execWake lantern link f obs s
  | .nodeHbSend => Sys2Proof.Machine.execNodeHbSend s
  | .nodeHb lantern link f obs => Sys2Proof.Machine.execNodeHb lantern link f obs s
  | .livenessPeriod => Sys2Proof.Machine.execLivenessPeriod s
  | .deadNotice lantern link f obs => Sys2Proof.Machine.execDeadNotice lantern link f obs s
  | .opticalSample lantern obs => Sys2Proof.Machine.execOpticalSample lantern obs s
  | .lnWatchWrite w value => Sys2Proof.Machine.execLnWatchWrite w value s
  | .lnNodeIdWrite value => Sys2Proof.Machine.execLnNodeIdWrite value s
  -- Rail connections
  | .rlCreate w => Sys2Proof.Machine.execRlCreate w s
  | .rlCreateUnitsReserved w => Sys2Proof.Machine.execRlCreateUnitsReserved w s
  | .rlCreateWaitExpire w => Sys2Proof.Machine.execRlCreateWaitExpire w s
  | .rlConnect w => Sys2Proof.Machine.execRlConnect w s
  | .helloResend conn => Sys2Proof.Machine.execHelloResend conn s
  | .rlConnectWaitExpire conn => Sys2Proof.Machine.execRlConnectWaitExpire conn s
  | .rlClose w => Sys2Proof.Machine.execRlClose w s
  | .rlSend w => Sys2Proof.Machine.execRlSend w s
  | .rlRecv w => Sys2Proof.Machine.execRlRecv w s
  | .rlWrite w => Sys2Proof.Machine.execRlWrite w s
  | .rlRead w => Sys2Proof.Machine.execRlRead w s
  | .rlAtomic w => Sys2Proof.Machine.execRlAtomic w s
  | .rlFence w => Sys2Proof.Machine.execRlFence w s
  | .rlRegister w => Sys2Proof.Machine.execRlRegister w s
  | .rlRevoke w => Sys2Proof.Machine.execRlRevoke w s
  | .rlTriggerSet w => Sys2Proof.Machine.execRlTriggerSet w s
  | .railRequestIssue w => Sys2Proof.Machine.execRailRequestIssue w s
  | .armedRequestIssue w => Sys2Proof.Machine.execArmedRequestIssue w s
  | .retxTimer conn mseq offset => Sys2Proof.Machine.execRetxTimer conn mseq offset s
  | .rlTimeoutExpire w => Sys2Proof.Machine.execRlTimeoutExpire w s
  | .sendEffect conn => Sys2Proof.Machine.execSendEffect conn s
  | .writeEffect conn => Sys2Proof.Machine.execWriteEffect conn s
  | .readReqEffect conn => Sys2Proof.Machine.execReadReqEffect conn s
  | .faddEffect conn => Sys2Proof.Machine.execFaddEffect conn s
  | .cswapEffect conn => Sys2Proof.Machine.execCswapEffect conn s
  -- handoff
  | .offer conn m => Sys2Proof.Machine.execOffer conn m s
  | .grant conn m => Sys2Proof.Machine.execGrant conn m s
  | .refuse conn m => Sys2Proof.Machine.execRefuse conn m s
  | .handoffItemSend entry stream => Sys2Proof.Machine.execHandoffItemSend entry stream s
  | .handoffData conn m => Sys2Proof.Machine.execHandoffData conn m s
  | .handoffItemWritten entry item => Sys2Proof.Machine.execHandoffItemWritten entry item s
  | .credit conn m => Sys2Proof.Machine.execCredit conn m s
  | .commit conn m => Sys2Proof.Machine.execCommit conn m s
  | .abort conn m => Sys2Proof.Machine.execAbort conn m s
  | .accept src m => Sys2Proof.Machine.execAccept src m s
  | .acceptAcknowledged entry => Sys2Proof.Machine.execAcceptAcknowledged entry s
  | .handoffTimerExpire entry => Sys2Proof.Machine.execHandoffTimerExpire entry s
  | .probe src m => Sys2Proof.Machine.execProbe src m s
  | .probeReply src m => Sys2Proof.Machine.execProbeReply src m s
  | .handoffUnitsReserved conn => Sys2Proof.Machine.execHandoffUnitsReserved conn s
  | .handoffPlatformWaitExpire conn => Sys2Proof.Machine.execHandoffPlatformWaitExpire conn s
  -- Clearing search
  | .csQuery w => Sys2Proof.Machine.execCsQuery w s
  | .searchContextAllocate w => Sys2Proof.Machine.execSearchContextAllocate w s
  | .indexReadReturn read => Sys2Proof.Machine.execIndexReadReturn read s
  | .distanceBatchComplete w obs => Sys2Proof.Machine.execDistanceBatchComplete w obs s
  | .csIndexLoad w => Sys2Proof.Machine.execCsIndexLoad w s
  | .indexCopyComplete w data => Sys2Proof.Machine.execIndexCopyComplete w data s
  | .csDelete w => Sys2Proof.Machine.execCsDelete w s
  -- faults, hangs and recovery
  | .faultQuietExpire => Sys2Proof.Machine.execFaultQuietExpire s
  | .errNPulseEnd => Sys2Proof.Machine.execErrNPulseEnd s
  | .dieLinkFlitCrcFail link => Sys2Proof.Machine.execDieLinkFlitCrcFail link s
  | .dieLinkFailed link => Sys2Proof.Machine.execDieLinkFailed link s
  | .stateSramFault station addr => Sys2Proof.Machine.execStateSramFault station addr s
  | .controlCoreFault core => Sys2Proof.Machine.execControlCoreFault core s
  | .contextWatchdog w => Sys2Proof.Machine.execContextWatchdog w s
  | .engineWatchdog e ctx => Sys2Proof.Machine.execEngineWatchdog e ctx s
  | .partitionWatchdog p => Sys2Proof.Machine.execPartitionWatchdog p s
  | .chipWatchdog station => Sys2Proof.Machine.execChipWatchdog station s
  | .resetLimitExpire record => Sys2Proof.Machine.execResetLimitExpire record s
  | .chipResetReadyTimeout => Sys2Proof.Machine.execChipResetReadyTimeout s
  | .ftResetEngine unit => Sys2Proof.Machine.execFtResetEngine unit s
  | .ftResetPartition unit => Sys2Proof.Machine.execFtResetPartition unit s
  | .ftResetChip unit => Sys2Proof.Machine.execFtResetChip unit s
  | .functionDisable value => Sys2Proof.Machine.execFunctionDisable value s
  | .functionDisableDrainEnd fn => Sys2Proof.Machine.execFunctionDisableDrainEnd fn s
  | .hbmPatrolScrub stack => Sys2Proof.Machine.execHbmPatrolScrub stack s
  | .hbmPeriodicRetrain stack => Sys2Proof.Machine.execHbmPeriodicRetrain stack s
  | .ddr5PeriodicCalibration channel => Sys2Proof.Machine.execDdr5PeriodicCalibration channel s
  | .possessionGrant => Sys2Proof.Machine.execPossessionGrant s
  | .maintenanceComplete domain badLines => Sys2Proof.Machine.execMaintenanceComplete domain badLines s
  | .retrainRetryTimer lantern link => Sys2Proof.Machine.execRetrainRetryTimer lantern link s
  | .contextSave fn ctx => Sys2Proof.Machine.execContextSave fn ctx s
  | .contextSaved ctx => Sys2Proof.Machine.execContextSaved ctx s
  | .contextRestore fn ctx => Sys2Proof.Machine.execContextRestore fn ctx s
  | .contextRestoreUnitsReserved ctx => Sys2Proof.Machine.execContextRestoreUnitsReserved ctx s
  | .contextResetRequest fn ctx => Sys2Proof.Machine.execContextResetRequest fn ctx s
  | .semAcquire fn tenant sem ctx => Sys2Proof.Machine.execSemAcquire fn tenant sem ctx s
  | .semRelease fn tenant sem ctx => Sys2Proof.Machine.execSemRelease fn tenant sem ctx s
  | .injectionArm value => Sys2Proof.Machine.execInjectionArm value s
  -- tenancy and trust
  | .tenantSwitch p tenants => Sys2Proof.Machine.execTenantSwitch p tenants s
  | .firstMapping p tenants => Sys2Proof.Machine.execFirstMapping p tenants s
  | .tenantSwitchDrainEnd p => Sys2Proof.Machine.execTenantSwitchDrainEnd p s
  | .tenantSwitchScrubComplete p => Sys2Proof.Machine.execTenantSwitchScrubComplete p s
  | .tnCtxWrite ctx value => Sys2Proof.Machine.execTnCtxWrite ctx value s
  | .tnVfWrite v value => Sys2Proof.Machine.execTnVfWrite v value s
  | .retireDdrIndex tenant => Sys2Proof.Machine.execRetireDdrIndex tenant s
  | .retireRemoteIndex tenant => Sys2Proof.Machine.execRetireRemoteIndex tenant s
  | .fabricSlotWrite tenant slot => Sys2Proof.Machine.execFabricSlotWrite tenant slot s
  | .svnCommit key => Sys2Proof.Machine.execSvnCommit key s
  | .attestationGo => Sys2Proof.Machine.execAttestationGo s
  | .attestationReportDone => Sys2Proof.Machine.execAttestationReportDone s
  | .debugUnlock answer => Sys2Proof.Machine.execDebugUnlock answer s
  | .firmwareSetWrite manifest objects => Sys2Proof.Machine.execFirmwareSetWrite manifest objects s
  | .registerReadClear by_ off width => Sys2Proof.Machine.execRegisterReadClear by_ off width s
  | .blockCodingComplete w block stream => Sys2Proof.Machine.execBlockCodingComplete w block stream s
  | .tokModTimerExpire fn => Sys2Proof.Machine.execTokModTimerExpire fn s
  | .firmwareBroadcastRequest => Sys2Proof.Machine.execFirmwareBroadcastRequest s
  | .svnCommitDone => Sys2Proof.Machine.execSvnCommitDone s
  | .retirementFlashWriteComplete => Sys2Proof.Machine.execRetirementFlashWriteComplete s
  | .sidebandSupplyLoss => Sys2Proof.Machine.execSidebandSupplyLoss s

end Sys2Proof.Machine
end

