-- ==== Sys2Proof/Machine/Tick.lean ====
section
/-! DEFINITION. One AON cycle without a command (DESIGN CHOICE): the ac and sc counts advance (R52, R55, R56, R58), budgets count
down (R403), and the counters of time spent waiting count the sc of the cycle. Timers do not expire here: an expiry is a
command of its own. -/

namespace Sys2Proof.Machine

/-- The sc of the next AON cycle: 35 for every two, none while SCK is stopped or the root PLL is not locked (R52, R58). -/
def scOfCycle (s : State) : Nat :=
  if !s.clk.pllLock then 0 else if s.clk.ac % 2 = 0 then 17 else 18

/-- BUDGET after n sc (R403): it stops at 0. -/
def Entry.spend (e : Entry) (n : Nat) : Entry :=
  if e.counting then { e with budget := e.budget - BitVec.ofNat 64 (min n e.budget.toNat) } else e

/-- Every budget counts down (R403). -/
def countBudgets (n : Nat) (t : Timetable) : Timetable := { t with entries := tmap t.entries {} (fun _ e => e.spend n) }

/-- HI_CQ_STALL counts while a ring is full (R96), HI_TOK_STALL while token records wait for room (R401, R402). (DEDUCED, log entry 79.) -/
def countRings (n : Nat) (h : HostIf) : HostIf :=
  { h with
    cqs := tmap h.cqs {} (fun _ c => if c.enable && !c.room then { c with stall := satBv c.stall n } else c),
    fns := tmap h.fns {} (fun _ r => if r.tok.held.isEmpty then r else { r with tok := { r.tok with stall := satBv r.tok.stall n } }) }

/-- Whether a partition's work waits for room in its record store: an operation that has ended, or a step that has run to its end (R271). -/
def waybillWaits (s : State) (p : Nat) : Bool :=
  !wbRoom p s && (s.work.any (fun w => w.part == p && (match w.prog with | .ended _ _ _ => true | _ => false)) ||
    (match s.stepOf p with | some x => stepDone p x s | none => false))

/-- LD_WB_STALL_SC counts while steps wait for record space (R271, R278). -/
def countWaybills (n : Nat) (s : State) : Waybill :=
  { s.waybill with chains := tmap s.waybill.chains {} (fun p c =>
      if waybillWaits s p then { c with stallSc := satBv c.stallSc n } else c) }

/-- Sequences in the wait of R302. -/
def commitWaits (s : State) : Nat :=
  (s.work.map (fun w => match w.prog with
    | .attend o => (o.seqs.filter (fun q => decide (q.phase = .waiting))).length
    | _ => 0)).sum

/-- Whether a query's context waits for a read of HBM (R634, R637). -/
def readWaits (w : Work) : Bool :=
  match w.prog with
  | .query q => q.station.isSome && q.live.isEmpty && !(q.started && q.expand.isNone)
  | _ => false

/-- CS_MEM_WAIT_SC and CS_CTX_WAIT_SC (R633, R637). -/
def countClearing (n : Nat) (s : State) : Clearing :=
  { s.cs with
    memWait := s.cs.memWait + n * (s.work.filter readWaits).length,
    ctxWait := satBv s.cs.ctxWait (n * (s.work.filter ctxWaits).length) }

/-- A SEND that finds no posted RECV waits (R555). -/
def rnrWaits (s : State) (num : Nat) (c : Conn) : Bool :=
  c.recvs.isEmpty && (nextRx num (· == 1) s).isSome

/-- RL_CONN.RNR_SC (R555, R571). -/
def countConns (n : Nat) (s : State) : RailConns :=
  { s.rc with conns := tmap s.rc.conns {} (fun k c => if rnrWaits s k c then { c with rnrSc := satBv c.rnrSc n } else c) }

/-- What the head frame of a class waits for: nothing, only a credit, or only its gate (R532). -/
def headWait (s : State) (ln c : Nat) : Bool × Bool :=
  match qHead ln 0 c s with
  | some q =>
    let cr := (s.link ln 0).hasCredit q.frame
    let ga := gateAdmits ln 0 c q.frame.len s
    (!cr && ga, cr && !ga)
  | none => (false, false)

/-- LN_CLASS.CREDIT_WAIT_SC and GATE_WAIT_SC (R514, R532). -/
def countLinks (n : Nat) (s : State) : Rail :=
  { s.rail with lanterns := tmap s.rail.lanterns {} (fun ln x =>
      { x with classes := (List.range 8).foldl (fun t c =>
          let h := headWait s ln c
          if h.1 || h.2 then tmod t c {} (fun k =>
            { k with
              creditWait := if h.1 then satBv k.creditWait n else k.creditWait,
              gateWait := if h.2 then satBv k.gateWait n else k.gateWait })
          else t) x.classes }) }

/-- Senders stalled on a Station for a cause of R617: a handoff without credits, a connection whose packets wait for
TX_UNITS, a class queue whose head waits for a link credit, an RL_CREATE that waits for units, an OFFER that waits (R597). -/
def stalled (s : State) (st k : Nat) : Nat :=
  match k with
  | 0 => (s.tt.entries.filter (fun kv => match kv.2.snd with
      | some x => decide (x.phase = .sending) && decide (x.credits = 0) && decide (x.sent < x.items) && connStation x.conn == st
      | none => false)).length
  | 1 => (s.rc.conns.filter (fun kv => connStation kv.1 == st && !kv.2.txq.isEmpty)).length
  | 2 => ((List.range 8).map (fun ln => if lanternStation ln = st then
      ((List.range 8).filter (fun c => (headWait s ln c).1)).length else 0)).sum
  | 3 => (s.work.filter (fun w => match w.prog with | .create c => connStation c == st | _ => false)).length
  | 4 => (s.ho.waiting.filter (fun x => connStation x.conn == st)).length
  | _ => 0

/-- PF_STALL (R606, R617). -/
def countPlatform (n : Nat) (s : State) : Handoff :=
  { s.ho with pfStall := (List.range 2).foldl (fun t st => (List.range 5).foldl (fun t k =>
      if stalled s st k = 0 then t else tmod t (8 * st + k) 0 (fun v => satBv v (n * stalled s st k))) t) s.ho.pfStall }

/-- The reads of a unit's pages that have not been delivered, oldest first. -/
def unitReads (s : State) (w : Work) (q : SeqRec) (h : ListHdr) (u : Nat) : List BlockRead :=
  s.sleeper.reads.filter (fun r => r.forw.wid == w.wid && r.forw.block / 2 ^ 60 == unitSeq u &&
    (unitPages w s q h u).any (· == r.forw.block % 2 ^ 60 / 16))

/-- The reads that the running units of an attention operation wait on: the oldest of each unit that has a page missing
(R361, R478). -/
def unitWaits (s : State) (w : Work) (o : SeqOp) : List BlockRead :=
  o.parts.filterMap (fun t =>
    if t.running.isNone then none else
    match (attRecs w s)[unitSeq t.idx]? with
    | some q => (match listAt s q.list with
      | some h => if (unitPoison w s (unitSeq t.idx) q h t.idx).isNone then (unitReads s w q h t.idx).head? else none
      | none => none)
    | none => none)

/-- The reads that stall attention units, each with the context of its unit. -/
def stallReads (s : State) : List (Nat × BlockRead) :=
  s.work.flatMap (fun w => match w.prog with
    | .attend o => (unitWaits s w o).map (fun r => (w.context, r))
    | _ => [])

/-- The cause of R478 that a wait on a read has. A re-read takes no time of its own, so that no wait has cause DDR_RETRY. (DESIGN CHOICE, log
entry 105.) -/
def stallCause (s : State) (r : BlockRead) : Nat :=
  if r.remote then
    if (s.conn 0).txq.any (fun p => p.2.mseq == r.mseq) then 4
    else if (s.conn 0).unacked.any (fun t => t.pkt.mseq == r.mseq && decide (t.sends > 1)) then 6
    else 5
  else if !nextOnChannel s r then 0
  else if servedNow s r then 1 else 3

/-- The reads not yet arrived that stall attention units. -/
def tierStalls (s : State) : List BlockRead := ((stallReads s).map Prod.snd).filter (fun r => r.arrived.isNone)

/-- MT_STALL_CAUSE (R478, R483). -/
def countTier (n : Nat) (s : State) : Ddr :=
  { s.ddr with stall := (tierStalls s).foldl (fun t r => tmod t (8 * r.part + stallCause s r) 0 (fun v => satBv v n)) s.ddr.stall }

/-- The stall each read has cost, by cause. -/
def countReads (n : Nat) (s : State) : List BlockRead :=
  (tierStalls s).foldl (fun l r => l.map (fun x => if x.rid = r.rid then { x with waits := tmod x.waits (stallCause s r) 0 (· + n) } else x))
    s.sleeper.reads

/-- SL_EXPAND_STALL (R361, R365). -/
def countExpand (n : Nat) (s : State) : Sleeper :=
  { s.sleeper with
    reads := countReads n s,
    stall := (stallReads s).foldl (fun t x =>
      if x.2.arrived.isSome then tmod t x.1 0 (fun v => satBv v n) else t) s.sleeper.stall }

/-- The tiles of a work item that run, and those that wait for a Stand (R231). -/
def tilesRun (w : Work) : Bool :=
  match w.prog with
  | .tiles t => t.live.any (fun x => x.running.isSome)
  | .attend o => o.parts.any (fun x => x.running.isSome)
  | _ => false
def tilesWait (w : Work) : Nat :=
  match w.prog with
  | .tiles t => (t.live.filter (fun x => x.running.isNone)).length
  | .attend o => (o.parts.filter (fun x => x.running.isNone)).length
  | _ => 0

/-- What a work item adds to FT_SLOW of its context: tiles waiting while Stands of its partition run tiles of other contexts, and
a connection waiting for Platform units (R706). -/
def slowStand (s : State) (w : Work) : Nat :=
  if s.work.any (fun x => x.part == w.part && x.context != w.context && tilesRun x) then tilesWait w else 0
def slowPlatform (w : Work) : Nat := match w.prog with | .create _ => 1 | _ => 0

/-- Contexts one of whose frames waits in a class queue behind a frame of another context (R513, R706). -/
def slowRail (s : State) : List Nat :=
  let owner (q : QFrame) : Option Nat := q.packet.map (fun p => (s.conn p.1).context)
  s.rail.lanterns.flatMap (fun kv => kv.2.links.flatMap (fun lk => lk.2.queues.flatMap (fun qs =>
    match qs.2 with
    | [] => []
    | q :: rest => (rest.filterMap owner).filter (fun c => owner q != some c))))

/-- FT_SLOW (R700, R706), the wait of a context being restored included; the cause HBM is counted when a tile runs. -/
def countSlow (n : Nat) (s : State) : Faults :=
  let add (t : Tab W64) (k m : Nat) : Tab W64 := if m = 0 then t else tmod t k 0 (fun v => satBv v m)
  let t1 := s.work.foldl (fun t w => add (add t (4 * w.context + 3) (n * slowStand s w)) (4 * w.context + 2) (n * slowPlatform w)) s.ft.slow
  let t2 := s.ft.ctxs.foldl (fun t c => add t (4 * c.1 + 2) (n * b2n c.2.restoring)) t1
  { s.ft with slow := (slowRail s).foldl (fun t c => add t (4 * c + 1) n) t2 }

/-- The next state when the queue is empty. Without power no clock runs; AON runs in every other state, after a trip too (R50, R61, R750). -/
def tick (s : State) : State :=
  if s.power.st = .off then s else
  let n := scOfCycle s
  { s with
    clk := { s.clk with ac := s.clk.ac + 1, sc := s.clk.sc + n },
    tt := countBudgets n s.tt,
    host := countRings n s.host,
    waybill := countWaybills n s,
    mem := { s.mem with kvCommitSc := satBv s.mem.kvCommitSc (n * commitWaits s) },
    cs := countClearing n s,
    rc := countConns n s,
    rail := countLinks n s,
    ho := countPlatform n s,
    ddr := countTier n s,
    sleeper := countExpand n s,
    ft := countSlow n s }

end Sys2Proof.Machine
end

