-- ==== Sys2Proof/WellFormed.lean ====
section
/-! DEFINITION. Which commands name things the device has: functions (R79), rings (R91), partitions (R64), Groves, Stands, Lanterns,
lanes and links (R9, R27, R488), connections, contexts and entries (R540, R102, R366), registers (R17). A command outside these bounds
names nothing; it changes nothing the device has. -/

namespace Sys2Proof

/-- A function: the physical one or one of 16 virtual ones. -/
def fnOk (f : Nat) : Bool := decide (f ≤ 16)
/-- A ring of a function: 128 of the physical function, 8 of a virtual one. -/
def ringOk (f r : Nat) : Bool := if f = 0 then decide (r < 128) else decide (f ≤ 16) && decide (r < 8)
/-- A submission or completion ring of the device: the physical function's 128, then 8 of each virtual function. -/
def devRingOk (n : Nat) : Bool := decide (n < 256)
/-- A partition. -/
def partOk (p : Nat) : Bool := decide (p < 4)
/-- A tenant. -/
def tenantOk (t : Nat) : Bool := decide (t < 16)
/-- A context. -/
def ctxOk (c : Nat) : Bool := decide (c < 4096)
/-- A connection. -/
def connOk (c : Nat) : Bool := decide (c < 4096)
/-- A node. -/
def nodeOk (n : Nat) : Bool := decide (n < 128)
/-- A Timetable entry of the two Stations. -/
def entryOk (e : Nat) : Bool := decide (e < 16384)
/-- A Grove. -/
def groveOk (g : Nat) : Bool := decide (g < 4)
/-- A link of a Lantern: 0 the Rail v3 link, 1 the v2 link. -/
def linkOk (n l : Nat) : Bool := decide (n < 8) && decide (l < 2)
/-- A lane of a Lantern. -/
def laneOk (n k : Nat) : Bool := decide (n < 8) && decide (k < 16)
/-- A register access: 8 to 64 bits inside the 256 MiB of BAR0; one that is not aligned, or not of the register's own width, has no effect
on the register (R19, R82). -/
def accessOk (off width : Nat) : Bool :=
  (width == 8 || width == 16 || width == 32 || width == 64) && decide (off + width / 8 ≤ 0x10000000)
/-- A CONTROL message: its entries, node and request fit their fields (R582). -/
def Ctl.ok (m : Ctl) : Bool :=
  decide (m.sEntry < 16384) && (match m.rEntry with | some e => decide (e < 16384) | none => true) && nodeOk m.origin
/-- A frame: class, nodes, length and hops fit their fields (R495). -/
def Frame.ok (f : Frame) : Bool :=
  decide (f.cls < 8) && nodeOk f.dst && nodeOk f.src && decide (f.len ≤ 4096) && decide (f.hops < 256)
/-- A line of HBM that a read found bad lies in one of the 8 stacks of 64 GiB (R25). -/
def HbmObs.ok (o : HbmObs) : Bool := match o.bad with | some a => decide (a < 0x8000000000) | none => true
/-- A word of SRAM: of one Grove's Canopy of 48 MiB, or of an Understory of 3 MiB (R183, R225). -/
def SramErr.ok (e : SramErr) : Bool :=
  match e.canopy with
  | some g => groveOk g && decide (e.word < 0x600000)
  | none => decide (e.word < 0x60000)
/-- What a Stand reports names rows and columns of the array, elements of a row or of a scale, elements of a chunk, and one of the four
operands (R183, R223, R247). -/
def TileObs.ok (o : TileObs) : Bool :=
  o.cells.all (fun e => decide (e.row < 128) && decide (e.col < 128)) && o.lines.all (fun e => decide (e.idx < 128)) &&
  o.conv.all (fun e => decide (e.row < 128) && decide (e.pos < 132)) && o.fetch.all (fun e => decide (e.operand < 4)) &&
  o.lanes.all (fun e => decide (e.elem < 65536)) && (match o.sramBad with | some e => e.ok | none => true) && o.hbm.ok
/-- The chunks of a block and its record, which came back changed (R455). -/
def DdrObs.ok (o : DdrObs) : Bool := o.changed.all (fun c => decide (c.1 ≤ 8))

/-- A register access names a function, or comes from the tray controller. -/
def Port.ok (p : Port) : Bool := match p with | .bar0 f => fnOk f | .i3c => true

/-- Whether a command names only what the device has. -/
def Instr.wellFormed (i : Instr) : Bool :=
  match i with
  | .hostLinkUp o => decide (o.width ≤ 16)
  | .sensorSample obs => obs.all (fun x => decide (x.die < 17))
  | .currentLimitRaise g | .groveIdleGate g | .groveWorkUngate g => groveOk g
  | .throttleLower g _ => groveOk g
  | .undervoltageTrip r => decide (r < 17)
  | .configRequest r => fnOk r.fn
  | .vfFlr v => decide (1 ≤ v) && decide (v ≤ 16)
  | .vfEnableSet n => decide (n ≤ 16)
  | .msixVectorUnmask f _ => fnOk f
  | .sqEnable f r _ | .sqDisable f r _ | .cqEnable f r _ | .cqDisable f r _ => ringOk f r
  | .tokRingEnable f _ | .tokRingDisable f _ => fnOk f
  | .ringConfigWrite f off width _ => fnOk f && accessOk off width
  | .registerWrite p off width _ => p.ok && accessOk off width
  | .registerReadClear p off width => p.ok && accessOk off width
  | .bar2Read _ r | .cxlMemRead _ r => r.obs.ok
  | .indexReadReturn r => r.obs.ok
  | .ddr5ReadReturn _ o => o.ok
  | .firmwareSetWrite b _ => b.length == 1024
  | .tailLineInvalidation r | .tailPoll r | .cqModTimerExpire r => devRingOk r
  | .tailReadReturn r _ => devRingOk r
  | .descriptorReadReturn r ds => devRingOk r && decide (ds.length ≤ 16)
  | .cqHeadLineRead r _ => devRingOk r
  | .tokHeadLineRead f _ => fnOk f
  | .tokModTimerExpire f => fnOk f
  | .standRetireTilesCleared g p => groveOk g && decide (p < 100)
  | .tileComplete _ _ o | .vectorChunkComplete _ _ o | .attendUnitComplete _ _ o => o.ok
  | .distanceBatchComplete _ o => o.ok
  | .stepStart p | .stepEnd p | .partitionWatchdog p | .tenantSwitchDrainEnd p | .tenantSwitchScrubComplete p => partOk p
  | .stepEntryComplete p _ => partOk p
  | .budgetExpire e | .acceptAcknowledged e | .handoffTimerExpire e => entryOk e
  | .handoffItemSend e _ => entryOk e
  | .handoffItemWritten e _ => entryOk e
  | .raceJoin n m | .raceClaim n m | .raceGrant n m | .raceRefuse n m | .raceCancel n m | .raceCancelAck n m | .release n m | .lost n m
  | .cancel n m | .cancelDone n m | .accept n m | .probe n m | .probeReply n m => nodeOk n && m.ok
  | .offer c m | .grant c m | .refuse c m | .handoffData c m | .credit c m | .commit c m | .abort c m => connOk c && m.ok
  | .ddrRegionInFlightDrained r => decide (r < 256)
  | .mtTenantWrite t _ _ => tenantOk t
  | .lightOn n l | .trainingTimeout n l | .linkRetryTimer n l | .linkHbSend n l | .linkTimeout n l | .fillFrame n l | .frameBoundary n l
  | .retrainRetryTimer n l => linkOk n l
  | .train n l f _ => linkOk n l && f.ok
  | .keyConfirm n l f _ => linkOk n l && f.ok
  | .laneLoss n k | .laneUp n k => laneOk n k
  | .lnRetrain n _ => decide (n < 8)
  | .linkHb n l f _ | .dataFrame n l f _ | .ackFrame n l f _ | .nakFrame n l f _ | .wake n l f _ | .nodeHb n l f _ | .deadNotice n l f _ =>
    linkOk n l && f.ok
  | .opticalSample n obs => decide (n < 8) && obs.all (fun o => decide (o.lane < 16))
  | .lnWatchWrite w _ => decide (w < 4)
  | .helloResend c | .rlConnectWaitExpire c | .sendEffect c | .writeEffect c | .readReqEffect c | .faddEffect c | .cswapEffect c
  | .handoffUnitsReserved c | .handoffPlatformWaitExpire c => connOk c
  | .retxTimer c _ _ => connOk c
  | .dieLinkFlitCrcFail l | .dieLinkFailed l => decide (l < 35)
  | .stateSramFault st _ | .chipWatchdog st => decide (st < 2)
  | .functionDisable v => fnOk v.toNat
  | .functionDisableDrainEnd f => fnOk f
  | .hbmPatrolScrub k | .hbmPeriodicRetrain k => decide (k < 8)
  | .ddr5PeriodicCalibration c => decide (c < 12)
  | .maintenanceComplete d _ => decide (d < 22)
  | .contextSave f c | .contextRestore f c | .contextResetRequest f c => fnOk f && ctxOk c
  | .contextSaved c | .contextRestoreUnitsReserved c => ctxOk c
  | .semAcquire f t _ c | .semRelease f t _ c => fnOk f && tenantOk t && ctxOk c
  | .tenantSwitch p _ | .firstMapping p _ => partOk p
  | .tnCtxWrite c _ => ctxOk c
  | .tnVfWrite v _ => decide (1 ≤ v) && decide (v ≤ 16)
  | .retireDdrIndex t | .retireRemoteIndex t => tenantOk t
  | .fabricSlotWrite t _ => tenantOk t
  | .powerApplied | .suppliesValid | .pllLock | .bringUpPhaseComplete _ _ | .settingsBankWriteComplete _ | .flashCopyComplete
  | .warmResetRequest | .i3cResetCommand | .powerRemoved | .aonSupplyLoss | .pwTargetN0 | .pwTargetN2 | .pwTargetN3 | .pwTargetInvalid _
  | .n2EntryComplete | .n3EntryComplete | .n2ExitComplete | .n3ExitComplete | .wakeNLow | .perstNAssert | .perstNDeassert | .hostHotReset
  | .hostLinkDown | .ckSnap | .pfFlr | .vfEnableClear | .bar2Write _ _ | .cxlMemWrite _ _
  | .imageReadComplete _ | .drainReached | .drainWaitExpire | .imageApplyComplete | .applyFault | .waybillSignatureComplete
  | .peerEntersN3 | .peerLeavesN3 | .nodeHbSend | .livenessPeriod | .lnNodeIdWrite _ | .faultQuietExpire | .errNPulseEnd
  | .controlCoreFault _ | .engineWatchdog _ _ | .resetLimitExpire _ | .chipResetReadyTimeout | .ftResetEngine _ | .ftResetPartition _
  | .ftResetChip _ | .possessionGrant | .injectionArm _ | .svnCommit _ | .attestationGo | .attestationReportDone | .debugUnlock _
  | .firmwareBroadcastRequest | .svnCommitDone | .retirementFlashWriteComplete | .sidebandSupplyLoss
  | .rebindPageReturn _ _ | .blockExpand _ => true
  -- a descriptor's command names it by its work number, which may be any
  | .nop _ | .imageLoad _ | .imageCheck _ | .drainBegin _ | .drainEnd _ | .matmul _ | .matmulSparse _ | .vector _ | .canopyLoad _
  | .canopyLoadComplete _ | .canopyFree _ | .canopyFreeComplete _ | .tileDispatch _ _ | .affinityWaitExpire _ _ | .waybillRead _
  | .waybillSeal _ | .waybillMeasure _ | .waybillMeasureComplete _ | .kvListCreate _ | .kvScatter _ | .scatterTurn _ _ | .attend _
  | .commitWaitSatisfied _ _ | .commitWaitExpire _ _ | .attendBackward _ | .kvFreeze _ | .kvSpill _ | .kvFetch _ | .kvListFree _
  | .kvListFreeComplete _ | .kvKeyslotSet _ | .ttPlace _ _ | .ttCancel _ | .ttSnapshot _ | .ttMove _ | .ttPark _ | .ttResume _ | .ttFree _
  | .ttProgram _ | .ttRaceOpen _ | .ttRaceClose _ | .mtDdrDeclare _ _ | .ddrRecordInitComplete _ | .mtDdrSeal _ | .mtDdrUnseal _
  | .mtDdrRetire _ | .mtStore _ | .mtLoad _ | .mtDdrPin _ | .rlCreate _ | .rlCreateUnitsReserved _ | .rlCreateWaitExpire _ | .rlConnect _
  | .rlClose _ | .rlSend _ | .rlRecv _ | .rlWrite _ | .rlRead _ | .rlAtomic _ | .rlFence _ | .rlRegister _ | .rlRevoke _ | .rlTriggerSet _
  | .railRequestIssue _ | .armedRequestIssue _ | .rlTimeoutExpire _ | .csQuery _ | .searchContextAllocate _
  | .csIndexLoad _ | .indexCopyComplete _ _ | .csDelete _ | .contextWatchdog _ | .blockCodingComplete _ _ _ => true

end Sys2Proof
end

