-- ==== Sys2Proof/Safety.lean ====
section
/-! DEFINITION. The words the statements use: what it means that a command completes, which parts of the state a command may
change, what a byte of HBM reads as, and what stays true of every state the device can be in. -/

namespace Sys2Proof.Machine

/-! ## Completing -/

/-- A command completes: it answers a next state, of which `P` holds. -/
def Completes (c : Instr) (s : State) (P : State → Prop) : Prop := ∃ t, exec c s = .next t ∧ P t

/-- A run neither faults nor refuses: every step on the way answers a next state. -/
def Runs (k : Nat) (s t : State) : Prop := Sys2Proof.core.run k s = .next t

/-! ## Parts of the state -/

/-- The parts of the state, each a field of `State`. -/
inductive Zone where
  | fuses | flash | clk | power | boot | host | work | nextWid | img | groves | waybill | mem | sleeper | tt | ddr | rail | rc | ho | cs
  | ft | tn | trust | free | out | pending
deriving DecidableEq, Repr

/-- All of them. -/
def allZones : List Zone :=
  [.fuses, .flash, .clk, .power, .boot, .host, .work, .nextWid, .img, .groves, .waybill, .mem, .sleeper, .tt, .ddr, .rail, .rc, .ho, .cs,
   .ft, .tn, .trust, .free, .out, .pending]

/-- Whether a part is the same in two states. -/
def sameZone (p : Zone) (s t : State) : Bool :=
  match p with
  | .fuses => decide (t.fuses = s.fuses)
  | .flash => decide (t.flash = s.flash)
  | .clk => decide (t.clk = s.clk)
  | .power => decide (t.power = s.power)
  | .boot => decide (t.boot = s.boot)
  | .host => decide (t.host = s.host)
  | .work => decide (t.work = s.work)
  | .nextWid => decide (t.nextWid = s.nextWid)
  | .img => decide (t.img = s.img)
  | .groves => decide (t.groves = s.groves)
  | .waybill => decide (t.waybill = s.waybill)
  | .mem => decide (t.mem = s.mem)
  | .sleeper => decide (t.sleeper = s.sleeper)
  | .tt => decide (t.tt = s.tt)
  | .ddr => decide (t.ddr = s.ddr)
  | .rail => decide (t.rail = s.rail)
  | .rc => decide (t.rc = s.rc)
  | .ho => decide (t.ho = s.ho)
  | .cs => decide (t.cs = s.cs)
  | .ft => decide (t.ft = s.ft)
  | .tn => decide (t.tn = s.tn)
  | .trust => decide (t.trust = s.trust)
  | .free => decide (t.free = s.free)
  | .out => decide (t.out = s.out)
  | .pending => decide (t.pending = s.pending)

/-- The frame: every part but those named is as it was. -/
def OnlyChanges (ps : List Zone) (s t : State) : Prop := ∀ p, p ∉ ps → sameZone p s t = true

/-- What a byte of a stack's HBM reads as, by its device address: the model's read of one byte. -/
def hbmByte (s : State) (addr : Nat) : Byte := memGet s.mem.hbm addr

/-- Every byte of HBM outside `n` bytes from `addr` reads as before. -/
def HbmSameOutside (addr n : Nat) (s t : State) : Prop :=
  ∀ a, ¬ (addr ≤ a ∧ a < addr + n) → hbmByte t a = hbmByte s a

/-! ## Conditions statements share -/

/-- A descriptor is waiting and may start: it is in flight with that opcode, the device is awake, and neither its fence, nor a
full completion ring, nor its context, nor a tenant switch holds it (R101, R116, R697, R702, R720). -/
def MayStart (s : State) (w : Work) (opcode : Byte) : Prop :=
  s.item w.wid = some w ∧ s.awake = true ∧ w.opcode = opcode ∧ mayStart w s = true

/-- A descriptor has left the device: no work item has its number. -/
def Gone (w : Work) (t : State) : Prop := t.item w.wid = none

/-- A descriptor is in flight at a stage of its work. -/
def At (w : Work) (p : Prog) (t : State) : Prop := t.item w.wid = some { w with prog := p }

/-- A descriptor ends with a status and a RESULT: `t` is what its completion makes of a state of which `P` holds. -/
def Ends (w : Work) (st : Status) (result : Nat) (t : State) (P : State → Prop) : Prop :=
  ∃ u fr, t = complete w st result u fr ∧ P u

/-- A list operation may start in its turn on a LIVE list of its own tenant (R322, R330). -/
def ListReady (s : State) (w : Work) (opcode : Byte) (h : ListHdr) : Prop :=
  MayStart s w opcode ∧ listTurn w s = true ∧ listForeign s w (dat w.body 8 64) = false ∧ listAt s (dat w.body 8 64) = some h ∧ h.st = 1

/-- A DDR5 tier operation that runs one at a time may start in its turn (R470). -/
def TierReady (s : State) (w : Work) (opcode : Byte) : Prop := MayStart s w opcode ∧ tierTurn w s = true

/-- A computation of a tile, chunk, unit or batch whose checks all pass and whose words all read (R241, R242, R259). -/
def passing (o : TileObs) (c : Comp) : Prop :=
  o.sramBad = none ∧ o.hbm = {} ∧ c.lines.failed = false ∧ c.convFail = false ∧ c.resFail = false

/-- A submission ring changes by no more than the descriptors asked for: it has, or has not, had its turn (R104). -/
def OnlyFetches (q q' : Sq) : Prop := q' = { q with fetching := q'.fetching }

/-- A HANG record of a domain has been opened, or a hang has merged into one, at a level (R680, R686): the device is in the fault
state, the culprit is named where `named`, and nothing but the record, its event and ERR_N has changed. -/
def HangOpened (level : Nat) (named : Bool) (h : Hang) (fr : BitVec 16) (s u : State) : Prop :=
  u.ft.fault = true ∧ u.ft.quietFrom = s.clk.ac ∧ (mergeInto h.domain s = none → fr = nextNumber s.ft.last ∧ u.power.errnPulse = true) ∧
  (named = true → u.ft.culprit.valid = true ∧ u.ft.culprit.level = BitVec.ofNat 3 level ∧ u.ft.culprit.watchdog = BitVec.ofNat 2 h.wd ∧
    u.ft.culprit.number = fr ∧ u.ft.culprit.ctxValid = h.ctx.isSome ∧ u.ft.culprit.context = BitVec.ofNat 12 (h.ctx.getD 0) ∧
    u.ft.marks = s.ft.marks ++ [{ domain := h.domain, level, ac := s.clk.ac }]) ∧
  (named = false → u.ft.culprit = s.ft.culprit ∧ u.ft.marks = s.ft.marks) ∧
  OnlyChanges [.ft, .host, .power, .out] s u

/-- Link `l` of Lantern `n` stops carrying frames (R491, R499): it is in that state with that cause, holds no unacknowledged frame,
the other links keep their states, LINK_DOWN is sent, and only possessions of the Lantern are given back beside it. -/
def LinkLost (n l : Nat) (st : LinkSt) (cause : Byte) (s t : State) : Prop :=
  (t.link n l).st = st ∧ (t.link n l).cause = cause ∧ (t.link n l).lanesUp = 0 ∧ (t.link n l).unacked = [] ∧
  (∀ m k, ¬ (m = n ∧ k = l) → (t.link m k).st = (s.link m k).st) ∧
  ∃ u, OnlyChanges [.rail, .rc, .ft] s u ∧ OnlyChanges [.ft] (event 0 0x0600 (n + 256 * l) u) t

/-- Link `l` of Lantern `n` starts training (R489): a TRAIN frame with a fresh nonce is what leaves. -/
def TrainsAnew (n l : Nat) (s t : State) : Prop :=
  (t.link n l).st = .training ∧ (t.link n l).nonce = Config.random s.free % 2 ^ 256 ∧ (t.link n l).keyed = false ∧
  (∀ k ∈ linkLanes n l s, (t.lane n k).st = .training) ∧ (∀ m k, ¬ (m = n ∧ k = l) → (t.link m k).st = (s.link m k).st) ∧
  (∃ g, t.out = s.out ++ [.frame n l g (plainWire g) false] ∧ g.typ = 9 ∧ g.version = linkVersion l .training ∧
    g.payload = .train s.me s.rail.inc n (linkVersion l .training) (s.lantern n).keySlot.toNat (Config.random s.free % 2 ^ 256)) ∧
  OnlyChanges [.rail, .rc, .ft, .free, .out] s t

/-- A frame of a type reaches a running link, is of the link's version, and no checker's outcome is inverted by an injection (R498,
R710). -/
def Arrives (n l : Nat) (typ : BitVec 4) (f : Frame) (s : State) : Prop :=
  s.live = true ∧ listens n l s = true ∧ f.typ = typ ∧ f.version = linkVersion l (s.link n l).st ∧ s.ft.inject.arm = false

/-- What the checker sees of a frame whose CRC is good and whose tag is the one its link's keys give (R498, R501). -/
def genuine (n l : Nat) (f : Frame) (s : State) : FrameObs := { tag := rxTag s.me (s.link n l) f }

/-- No message that R583 drops would leave a connection right behind the one that takes effect. -/
def noneDropped (c : Nat) (s : State) : Prop :=
  ∀ m ∈ (s.conn c).rx, dropsCtl c { s.conn c with rxCum := (s.conn c).rxCum + 1 } m = false

/-- The possession of a link's own retrain (R691). -/
def retrainOf (n l : Nat) : Poss := { activity := 0x03, domains := oneDomain (12 + n), arg := 64 * n + 32 + l }

/-- A connection carries handoffs and holds no other message (R580, R581). -/
def HandoffOn (c : Nat) (s : State) : Prop := s.awake = true ∧ c ≠ 0 ∧ (s.conn c).handoff = true ∧ (s.conn c).rx = []

/-- A message names the sender's side `x` of a handoff that no cancel waits for (R583, R590). -/
def NamesSender (m : Ctl) (x : Sender) (s : State) : Prop :=
  (s.entry m.sEntry).st = .handoffOut ∧ (s.entry m.sEntry).snd = some x ∧ (s.entry m.sEntry).reqId = m.reqId ∧
  (s.entry m.sEntry).epoch = m.epoch ∧ m.origin = s.me ∧ (s.entry m.sEntry).cancelPend = false

/-- A message of a connection names the receiver's side `r` of entry `i` in HANDOFF_IN (R583). -/
def NamesReceiver (c : Nat) (m : Ctl) (i : Nat) (r : Receiver) (s : State) : Prop :=
  m.rEntry = some i ∧ (s.entry i).st = .handoffIn ∧ (s.entry i).reqId = m.reqId ∧ (s.entry i).epoch = m.epoch ∧
  (s.entry i).rcv = some r ∧ r.conn = c ∧ r.sEntry = m.sEntry

/-- The sender of a handoff keeps its request (R574, R592): the entry returns to its state with epoch E + 2 and the status as its cause. -/
def KeptAt (i : Nat) (status : Byte) (s u : State) : Prop :=
  u.entry i = { s.entry i with
    version := (s.entry i).version + 1, st := (s.entry i).ret, ret := .free, epoch := (s.entry i).epoch + 2, cause := status,
    node := s.me, snd := none } ∧
  (∀ k, k ≠ i → u.entry k = s.entry k) ∧ u.ho.kept = s.ho.kept + 1

/-- The request of an entry has moved (R574, R590): the entry is a STUB of the new owner's epoch, and its list is released. -/
def MovedAt (i : Nat) (epoch : W32) (s u : State) : Prop :=
  (u.entry i).st = .stub ∧ (u.entry i).epoch = epoch ∧ (u.entry i).list = 0 ∧ (u.entry i).pages = 0 ∧ (u.entry i).resPages = 0 ∧
  (u.entry i).node = (s.entry i).node ∧ (u.entry i).reqId = (s.entry i).reqId ∧ (u.entry i).snd = none ∧
  (∀ k, k ≠ i → u.entry k = s.entry k) ∧ u.ho.moved = s.ho.moved + 1

/-- A partition without a step in flight that has a program or runnable entries (R684). -/
def StepDue (p : Nat) (s : State) : Prop :=
  watching s = true ∧ p < s.partitions ∧ s.stepOf p = none ∧ ((s.progOf p).isSome = true ∨ entriesWhere p Entry.runnable s ≠ [])

/-- The computation of a tile of a matrix operation on a Stand. -/
def tileRun (w : Work) (idx : Nat) (obs : TileObs) (s : State) : Comp :=
  (matOf w).run s obs (idx / ceilDiv (matOf w).n 128) (idx % ceilDiv (matOf w).n 128)

/-- Output tile `idx` of a matrix operation may be computed on a Stand: its operands hold no reserved metadata and no poison, the Stand
is not being retired, and nothing inverts a checker's outcome (R199, R217, R253, R660, R710). -/
def TileReady (w : Work) (idx : Nat) (x : Nat × Nat) (s : State) : Prop :=
  badNibbles s (matOf w) (idx % ceilDiv (matOf w).n 128) = false ∧
  (matOf w).poisoned (idx / ceilDiv (matOf w).n 128) (idx % ceilDiv (matOf w).n 128) s = false ∧
  badResident x (((matOf w).rowTilesA s (idx / ceilDiv (matOf w).n 128) ++
    (matOf w).rowTilesB s (idx % ceilDiv (matOf w).n 128)).map (fun r => r.key)) s = false ∧
  retiringStand s x = false ∧ s.ft.inject.arm = false

/-- A first computation of a tile that no cross-check follows runs on a Stand (R250, R255). -/
def FirstRun (y : TileSt) (x : Nat × Nat) : Prop :=
  y.running = some x ∧ y.kind = .first ∧ y.sampled = false ∧ y.dead = false ∧ y.passed = [] ∧ y.home = some x.1

/-! ## What every state keeps -/

/-- What the fuses say changes in one direction only: beside fuses `f` read earlier, the security version has not fallen, a key slot
revoked then is revoked still, and everything else is as it was burned (R729, R737). -/
def FusesSince (f : Fuses) (s : State) : Prop :=
  f.svn ≤ s.fuses.svn ∧ (∀ k, f.keyRevoked.getLsbD k = true → s.fuses.keyRevoked.getLsbD k = true) ∧
  s.fuses = { f with svn := s.fuses.svn, keyRevoked := s.fuses.keyRevoked }

end Sys2Proof.Machine
end

