-- ==== Sys2Proof/Certificates/Slice0/Obligations.lean ====
section
/-! DEFINITION. The statements about the model: for every command, where it completes and what it then changes, and what every step
of the machine keeps. Each docstring cites the rules of the spec it formalises. -/

open Sys2Proof Sys2Proof.Machine

/-! ## Power, clocks and bring-up -/

/-- Chapter 16 and 19: applying power is a cold reset that keeps only the fuses and the flash; losing it loses everything else
(R639, R753, R770); valid supplies, the root PLL and the sideband supply change only what they name, the sc count being set after a stay in N3 by the ac that
passed (R51, R58, R752, R770). -/
def Obligations.PowerOnAndOff : Prop :=
  (∀ s : State, s.power.st = .off → Completes .powerApplied s (fun t =>
    t.power.st = .n0 ∧ t.boot.stage = .lodge ∧ t.boot.path = .cold ∧ t.fuses = s.fuses ∧ t.flash = s.flash ∧
    t.work = [] ∧ t.mem.hbm = [] ∧ holds 0x12 0 t = true)) ∧
  (∀ s : State, Completes .powerRemoved s (fun t =>
    t.power.st = .off ∧ t.fuses = s.fuses ∧ t.flash = s.flash ∧ t.work = [] ∧ t.mem.hbm = [] ∧ t.tt.entries = [] ∧ t.host.mode = .down)) ∧
  (∀ s : State, Completes .aonSupplyLoss s (fun t =>
    t.power.st = .off ∧ t.fuses = s.fuses ∧ t.flash = s.flash ∧ t.work = [] ∧ t.mem.hbm = [] ∧ t.tt.entries = [] ∧ t.host.mode = .down)) ∧
  (∀ s : State, s.live = true → Completes .suppliesValid s (fun t =>
    t.power = { s.power with supplies := true, sideband := true } ∧ OnlyChanges [.power] s t)) ∧
  (∀ s : State, s.live = true → Completes .sidebandSupplyLoss s (fun t =>
    t.power = { s.power with sideband := false } ∧ OnlyChanges [.power] s t)) ∧
  (∀ s : State, s.live = true → s.power.supplies = true → s.clk.pllLock = false → Completes .pllLock s (fun t =>
    t.clk = { s.clk with pllLock := true, n3Sc := 0, n3Ac := 0,
                         sc := if s.clk.n3Ac = 0 then s.clk.sc else s.clk.n3Sc + 35 * (s.clk.ac - s.clk.n3Ac) / 2 } ∧
    OnlyChanges [.clk] s t))

/-- R748 to R750, R759: a sample of the sensors sets each die's register, raises a Grove's thermal divider to at least what its
junction asks for, and at 120 °C trips; a current limit raises the current divider by one step, to the third at most; a cause that
stays clear lowers its own divider by one; an undervoltage trips with the rail. -/
def Obligations.ThrottlesAndTrips : Prop :=
  (∀ (s : State) (pre : List SensorObs) (o : SensorObs), s.live = true → o.die < 17 →
    Completes (.sensorSample (pre ++ [o])) s (fun t =>
      tget t.power.sensors o.die {} = sensorOf o ∧ (o.die < 4 → o.powered = true → thermalCode o.temp ≤ dividerOf o.die t.clk) ∧
      OnlyChanges [.clk, .power, .host, .out] s t)) ∧
  (∀ (s : State) (obs : List SensorObs) (d : Nat), s.live = true → hotDie obs = some d →
    Completes (.sensorSample obs) s (fun t =>
      t.power.tripped = true ∧ t.power.tripCause = 1 ∧ t.power.tripUnit.toNat = d ∧ t.power.pwrcycLow = true ∧ t.clk.pllLock = false ∧
      t.live = false)) ∧
  (∀ (s : State) (g : Nat), s.live = true → g < 4 → Completes (.currentLimitRaise g) s (fun t =>
    tget t.clk.cur g 0 = min 3 (tget s.clk.cur g 0 + 1) ∧ t.clk.therm = tput s.clk.therm g (tget s.clk.therm g 0) 0 ∧
    (∀ k, k ≠ g → tget t.clk.cur k 0 = tget s.clk.cur k 0) ∧ OnlyChanges [.clk, .host, .out] s t)) ∧
  (∀ (s : State) (g : Nat), s.live = true → g < 4 → Completes (.throttleLower g .thermal) s (fun t =>
    tget t.clk.therm g 0 = tget s.clk.therm g 0 - 1 ∧ tget t.clk.cur g 0 = tget s.clk.cur g 0 ∧
    t.clk.throttleCount = s.clk.throttleCount ∧ OnlyChanges [.clk] s t)) ∧
  (∀ (s : State) (g : Nat), s.live = true → g < 4 → Completes (.throttleLower g .current) s (fun t =>
    tget t.clk.cur g 0 = tget s.clk.cur g 0 - 1 ∧ tget t.clk.therm g 0 = tget s.clk.therm g 0 ∧
    t.clk.throttleCount = s.clk.throttleCount ∧ OnlyChanges [.clk] s t)) ∧
  (∀ (s : State) (rail : Nat), s.live = true → rail ≤ 16 → s.power.supplies = true → Completes (.undervoltageTrip rail) s (fun t =>
    t.power.tripped = true ∧ t.power.tripCause = 2 ∧ t.power.tripUnit.toNat = rail ∧ t.power.errnTrip = true ∧
    t.power.pwrcycLow = true ∧ t.clk.pllLock = false ∧ t.clk.sc = s.clk.sc ∧ OnlyChanges [.clk, .power] s t))

/-- R62, R64, R73, R75 to R77, R761: an idle Grove gates and the state is N1 once all four have, in an entry to N2 or N3 too; work
ungates it; a write of N0 or a low WAKE_N wakes the device, ungates every Grove and leaves its bit of WAKE_CAUSE, and aborts an entry
(that a write of N0 does so is the model's choice, log entry 93); an undefined target is refused with cause 0x05. -/
def Obligations.GatingAndWake : Prop :=
  (∀ (s : State) (g : Nat), s.ready = true → g < 4 → s.power.st = .n0 → groveWork g s = false →
    (enteringN2 s = true ∨ (s.power.trans = none ∧ s.power.n1Idle ≠ 0)) → Completes (.groveIdleGate g) s (fun t =>
      (∀ k < 4, t.power.gated.getLsbD k = (s.power.gated.getLsbD k || decide (k = g))) ∧
      (t.power.st = .n1 ↔ t.power.gated = 15) ∧ t.power.trans = s.power.trans ∧ OnlyChanges [.power] s t)) ∧
  (∀ (s : State) (g : Nat), s.ready = true → g < 4 → (s.power.st = .n0 ∨ s.power.st = .n1) →
    (s.power.trans = none ∨ enteringN2 s = true) → Completes (.groveWorkUngate g) s (fun t =>
      t.power.st = .n0 ∧ (∀ k < 4, t.power.gated.getLsbD k = (s.power.gated.getLsbD k && decide (k ≠ g))) ∧
      t.power.trans = s.power.trans ∧ OnlyChanges [.power] s t)) ∧
  (∀ s : State, pwWrites s = true → s.ready = true → s.power.st = .n0 → s.power.trans = none → Completes .pwTargetN0 s (fun t =>
    t.power = { s.power with gated := 0, target := 0 } ∧ OnlyChanges [.power] s t)) ∧
  (∀ s : State, pwWrites s = true → s.ready = true → s.power.st = .n1 → s.power.trans = none → Completes .pwTargetN0 s (fun t =>
    t.power.st = .n0 ∧ t.power.gated = 0 ∧ t.power.wakeCause = s.power.wakeCause ||| 2 ∧ OnlyChanges [.power] s t)) ∧
  (∀ s : State, pwWrites s = true → s.ready = true → (s.power.st = .n0 ∨ s.power.st = .n1) → enteringN2 s = true →
    Completes .pwTargetN0 s (fun t =>
      t.power.st = .n0 ∧ t.power.trans = none ∧ t.power.gated = 0 ∧ t.power.wakeCause = s.power.wakeCause ||| 0x42 ∧ holds 0x11 0 t = false ∧
      OnlyChanges [.power, .ft] s t)) ∧
  (∀ s : State, s.ready = true → s.power.st = .n1 → s.power.trans = none → Completes .wakeNLow s (fun t =>
    t.power.st = .n0 ∧ t.power.gated = 0 ∧ t.power.wakeCause = s.power.wakeCause ||| 8 ∧ OnlyChanges [.power] s t)) ∧
  (∀ s : State, s.ready = true → s.power.st = .n2 → s.power.trans = none → Completes .wakeNLow s (fun t =>
    t.power.st = .n2 ∧ t.power.trans = some .fromN2 ∧ t.power.wakeCause = s.power.wakeCause ||| 8 ∧ OnlyChanges [.power] s t)) ∧
  (∀ s : State, s.live = true → s.power.trans = some .fromN3 → Completes .wakeNLow s (fun t =>
    t.power = { s.power with wakeCause := s.power.wakeCause ||| 8 } ∧ OnlyChanges [.power] s t)) ∧
  (∀ (s : State) (v : BitVec 3), pwWrites s = true → v ≠ 0 → v ≠ 2 → v ≠ 3 → Completes (.pwTargetInvalid v) s (fun t =>
    t.power = { s.power with refuse := 0x05 } ∧ OnlyChanges [.power] s t))

/-- R61, R64 to R68, R71, R76, R263: an entry to N2 or N3 starts under a possession on every domain where no case of R65 holds, the
Groves without work gating at once, and is refused with the first case's cause otherwise; N2 is reached once all four are gated and
loses the Groves' contents, and an entry to N3 goes on from it; N3 loses the host link and HBM; leaving either one ungates every Grove
and ends the possession. -/
def Obligations.DeepPowerStates : Prop :=
  (∀ s : State, pwWrites s = true → s.power.trans = none → (s.power.st = .n0 ∨ s.power.st = .n1) → entryRefusal false s = none →
    Completes .pwTargetN2 s (fun t =>
      t.power.trans = some .toN2 ∧ t.power.target = 2 ∧ t.power.gated = idleGroves s ∧ t.power.st = gatedState (idleGroves s) ∧
      holds 0x11 0 t = true ∧ OnlyChanges [.power, .ft] s t)) ∧
  (∀ (s : State) (c : Byte), pwWrites s = true → s.power.trans ≠ some .toN2 → ¬ (s.power.st = .n2 ∧ s.power.trans = none) →
    entryRefusal false s = some c → Completes .pwTargetN2 s (fun t =>
      t.power = { s.power with refuse := c } ∧ OnlyChanges [.power] s t)) ∧
  (∀ s : State, s.live = true → s.power.st = .n1 → s.power.trans = some .toN2 → Completes .n2EntryComplete s (fun t =>
    t.power.st = .n2 ∧ t.power.trans = none ∧ t.power.gated = 15 ∧ t.groves.slots = [] ∧ t.groves.canopy = [] ∧
    OnlyChanges [.power, .groves] s t)) ∧
  (∀ s : State, s.live = true → s.power.st = .n1 → s.power.trans = some (.toN3 false) → Completes .n2EntryComplete s (fun t =>
    t.power.st = .n2 ∧ t.power.trans = some (.toN3 true) ∧ t.power.gated = 15 ∧ t.groves.slots = [] ∧ t.groves.canopy = [])) ∧
  (∀ s : State, pwWrites s = true → s.power.trans = none → (s.power.st = .n0 ∨ s.power.st = .n1) → entryRefusal true s = none →
    Completes .pwTargetN3 s (fun t =>
      t.power.trans = some (.toN3 false) ∧ t.power.target = 3 ∧ t.power.copyWait = s.img.copying.isSome ∧ t.power.gated = idleGroves s ∧
      holds 0x11 0 t = true ∧ OnlyChanges [.power, .ft] s t)) ∧
  (∀ (s : State) (c : Byte), pwWrites s = true → enteringN3 s = false → ¬ (s.power.st = .n3 ∧ s.power.trans = none) →
    entryRefusal true s = some c → Completes .pwTargetN3 s (fun t =>
      t.power = { s.power with refuse := c } ∧ OnlyChanges [.power] s t)) ∧
  (∀ s : State, s.live = true → s.power.trans = some (.toN3 true) → s.power.copyWait = false → s.work = [] → s.waybill.signing = none →
    Completes .n3EntryComplete s (fun t =>
      t.power.st = .n3 ∧ t.power.trans = none ∧ t.host.mode = .down ∧ t.mem.hbm = [] ∧ t.clk.pllLock = false ∧ t.clk.n3Sc = s.clk.sc ∧
      t.clk.n3Ac = s.clk.ac ∧ t.flash = s.flash ∧ t.boot = s.boot)) ∧
  (∀ s : State, s.live = true → s.power.trans = some .fromN2 → Completes .n2ExitComplete s (fun t =>
    t.power.st = .n0 ∧ t.power.trans = none ∧ t.power.gated = 0 ∧ holds 0x11 0 t = false ∧ OnlyChanges [.power, .ft] s t)) ∧
  (∀ s : State, s.live = true → s.power.trans = some .fromN3 → .x6 ∈ s.boot.done → Completes .n3ExitComplete s (fun t =>
    t.power.st = .n0 ∧ t.power.trans = none ∧ t.power.gated = 0 ∧ holds 0x11 0 t = false ∧ OnlyChanges [.power, .ft] s t))

/-- R519, R642, R643, R645, R646, R653, R671, R71, R689, R736: a phase that ends without a failure is done; the last of a path leads to
READY; a failure that ends bring-up leads to FAILED, and so does a manifest that the Lodge ROM does not accept; the first phase raises the incarnation by one; the settings write changes banks
only when it succeeds; a flash copy that ends is the image's own unless a load is past its point of no return; a chip reset that does not reach READY asks for a power
cycle. -/
def Obligations.BringUp : Prop :=
  (∀ (s : State) (ph : Phase) (r : PhaseReport), s.live = true → phaseRuns ph s = true → r.failure = none →
    (ph = .c2 ∨ ph = .w2 → manifestBoots s = true) → Completes (.bringUpPhaseComplete ph r) s (fun t => ph ∈ t.boot.done ∧ (∀ q ∈ s.boot.done, q ∈ t.boot.done) ∧
      (s.boot.stage ≠ .ready → ph = .c8 ∨ ph = .w7 ∨ ph = .x6 → t.boot.stage = .ready ∧ holds 0x12 0 t = false))) ∧
  (∀ (s : State) (r : PhaseReport), s.live = true → phaseRuns .c1 s = true → Completes (.bringUpPhaseComplete .c1 r) s (fun t =>
    t.flash.incarnation = s.flash.incarnation + 1 ∧ t.rail.inc = t.flash.incarnation)) ∧
  (∀ (s : State) (ph : Phase) (r : PhaseReport) (f : BootFailure), s.live = true → phaseRuns ph s = true → ph ≠ .c1 → r.failure = some f →
    endsBringUp f = true → s.boot.chipReset = false → s.boot.fail = none → Completes (.bringUpPhaseComplete ph r) s (fun t =>
      t.boot.stage = .failed ∧ t.boot.fail = some f ∧ holds 0x12 0 t = false)) ∧
  (∀ (s : State) (ph : Phase) (r : PhaseReport), s.live = true → phaseRuns ph s = true → ph = .c2 ∨ ph = .w2 → r.failure = none →
    manifestBoots s = false → s.boot.chipReset = false → s.boot.fail = none → Completes (.bringUpPhaseComplete ph r) s (fun t =>
      t.boot.stage = .failed ∧ t.boot.fail = some { kind := 7, unit := 0, cause := 4 } ∧ t.flash.active = s.flash.active ∧
      holds 0x12 0 t = false)) ∧
  (∀ (s : State) (ok : Bool), s.live = true → s.boot.savePend = true → Completes (.settingsBankWriteComplete ok) s (fun t =>
    t.boot.savePend = false ∧ t.flash.setBank = (s.flash.setBank != ok) ∧ (ok = false → t.flash = s.flash) ∧
    (ok = true → t.flash.repairs = s.boot.repairs ∧ t.flash.setSeq = s.flash.setSeq + 1) ∧
    OnlyChanges [.boot, .flash] s t)) ∧
  (∀ (s : State) (b : List Byte), s.live = true → s.img.copying = some b → Completes .flashCopyComplete s (fun t =>
    t.flash.image = some b ∧ t.img.copying = none ∧ (t.img.flashCopy = true ↔ s.img.image.isSome = true ∧ applying s = false) ∧
    t.power.copyWait = false ∧
    OnlyChanges [.flash, .img, .power] s t)) ∧
  (∀ s : State, s.live = true → s.boot.chipReset = true → s.boot.stage ≠ .ready → s.boot.stage ≠ .failed → 5 ≤ s.ft.maxLevel.toNat →
    Completes .chipResetReadyTimeout s (fun t => t.power = { s.power with pwrcycLow := true } ∧ OnlyChanges [.power] s t))

/-- R639, R640, R670, R123, R124: a warm reset ends all work, forgets the Timetable, the connections and the mappings, keeps HBM, raises
the incarnation and starts the warm path with its cause, out of an exit from N3 too (R762); a reset of the host port takes the link
down, stops every submission ring from running, clears VF Enable and leaves what was fetched without a ring to complete to, and changes
nothing else; releasing PERST_N in N3 wakes the device. -/
def Obligations.Resets : Prop :=
  (∀ s : State, writes 0 s = true → Completes .warmResetRequest s (fun t =>
    t.boot.stage = .lodge ∧ t.boot.path = .warmFast ∧ t.boot.cause = 1 ∧ t.work = [] ∧ t.tt.entries = [] ∧ t.tn.parts = [] ∧
    t.mem.hbm = s.mem.hbm ∧ t.rail.inc = s.rail.inc + 1 ∧ t.flash.incarnation = s.flash.incarnation + 1 ∧ t.host.mode = .down)) ∧
  (∀ s : State, (s.ready = true ∨ (s.live = true ∧ s.power.trans = some .fromN3)) → Completes .i3cResetCommand s (fun t =>
    t.boot.stage = .lodge ∧ t.boot.path = .warmFast ∧ t.boot.cause = 2 ∧ t.work = [] ∧ t.tt.entries = [] ∧ t.tn.parts = [] ∧
    t.mem.hbm = s.mem.hbm ∧ t.rail.inc = s.rail.inc + 1 ∧ t.flash.incarnation = s.flash.incarnation + 1 ∧ t.host.mode = .down)) ∧
  (∀ s : State, s.live = true → Completes .perstNAssert s (fun t =>
    t.power = { s.power with perstLow := true } ∧ t.host.mode = .down ∧ t.host.vfEnable = false ∧ (∀ n, (t.sq n).st ≠ .running) ∧
    (∀ w ∈ t.work, ∀ n p, w.src = .ring n p → w.orphan = true) ∧ OnlyChanges [.power, .host, .work] s t)) ∧
  (∀ s : State, s.live = true → s.power.perstLow = true → s.power.st = .n3 → s.power.trans = none → Completes .perstNDeassert s (fun t =>
    t.power.perstLow = false ∧ t.power.trans = some .fromN3 ∧ t.boot.path = .n3Exit ∧ OnlyChanges [.power, .boot] s t)) ∧
  (∀ s : State, s.live = true → s.power.perstLow = true → s.power.st ≠ .n3 → s.power.trans = none → Completes .perstNDeassert s (fun t =>
    t.power = { s.power with perstLow := false } ∧ OnlyChanges [.power] s t)) ∧
  (∀ s : State, s.live = true → Completes .hostHotReset s (fun t =>
    t.host.mode = .down ∧ t.host.vfEnable = false ∧ (∀ n, (t.sq n).st ≠ .running) ∧
    (∀ w ∈ t.work, ∀ n p, w.src = .ring n p → w.orphan = true) ∧ OnlyChanges [.host, .work] s t)) ∧
  (∀ s : State, s.live = true → Completes .hostLinkDown s (fun t =>
    t.host.mode = .down ∧ t.host.vfEnable = false ∧ (∀ n, (t.sq n).st ≠ .running) ∧
    (∀ w ∈ t.work, ∀ n p, w.src = .ring n p → w.orphan = true) ∧ OnlyChanges [.host, .work] s t))
/-! ## The host port and its rings -/

/-- R78, R79, R81, R86, R57, R641, R121: a link that comes up takes the mode its offer allows and counts one link-up; a configuration
request is answered with Retry Status before bring-up ends and completes after, with what the function advertises, and sets what it
writes; CK_SNAP captures both counts at once; an unmasked vector with a
pending bit sends its message. -/
def Obligations.HostLinkAndSnap : Prop :=
  (∀ (s : State) (o : LinkOffer), portPowered s = true → s.host.mode = .down → Completes (.hostLinkUp o) s (fun t =>
    t.host.mode = linkMode o ∧ t.host.linkups = satBv s.host.linkups 1 ∧ t.host.vfEnable = s.host.vfEnable ∧ t.host.sqs = [] ∧
    (o.cxl = .cxl20 → o.rate = 320 → o.width = 16 → t.host.mode = .cxl2) ∧ (o.cxl = .none → o.rate = 80 → o.width = 4 → t.host.mode = .pcie) ∧
    OnlyChanges [.host] s t)) ∧
  (∀ (s : State) (f : Nat) (op : CfgOp), s.live = true → s.host.mode ≠ .down → s.boot.stage ≠ .ready → s.boot.stage ≠ .failed →
    Completes (.configRequest ⟨f, op⟩) s (fun t => t.out = s.out ++ [.cfgRetry f] ∧ OnlyChanges [.out] s t)) ∧
  (∀ (s : State) (f : Nat), portOpen s = true → answers f s = true → Completes (.configRequest ⟨f, .read⟩) s (fun t =>
    t.out = s.out ++ [.cfgOk f (capsOf f s)] ∧ OnlyChanges [.out] s t)) ∧
  (∀ (s : State) (f : Nat) (en m : Bool), portOpen s = true → answers f s = true → Completes (.configRequest ⟨f, .msix en m⟩) s (fun t =>
    (t.fn f).msixEn = en ∧ (t.fn f).fmask = m ∧ (∀ k, k ≠ f → t.fn k = s.fn k) ∧ .cfgOk f (capsOf f s) ∈ t.out ∧
    OnlyChanges [.host, .out] s t)) ∧
  (∀ (s : State) (b : W64), portOpen s = true → cxlMode s = true → Completes (.configRequest ⟨0, .hdmBase b⟩) s (fun t =>
    t.host = { s.host with hdmBase := b } ∧ t.out = s.out ++ [.cfgOk 0 (capsOf 0 s)] ∧ OnlyChanges [.host, .out] s t)) ∧
  (∀ s : State, writes 0 s = true → Completes .ckSnap s (fun t =>
    t.clk = { s.clk with snapSc := BitVec.ofNat 64 s.clk.sc, snapAc := BitVec.ofNat 64 s.clk.ac } ∧ OnlyChanges [.clk] s t)) ∧
  (∀ (s : State) (f v : Nat), writes f s = true → f ≤ 16 → v < vectorCount f → (s.fn f).msixEn = true → (s.fn f).fmask = false →
    (tget s.host.msix (vectorOf f v) {}).pend = true → Completes (.msixVectorUnmask f (.vector v)) s (fun t =>
      (tget t.host.msix (vectorOf f v) {}).mask = false ∧ (tget t.host.msix (vectorOf f v) {}).pend = false ∧
      .msix (vectorOf f v) ∈ t.out ∧ OnlyChanges [.host, .out] s t))

/-- R95 to R100, R401, R402: a ring whose configuration is valid starts when ENABLE is set (its tail, or its head line, is then read)
and stops when it is clear: a submission ring with nothing in flight is disabled at once and drains otherwise, and other rings take the turns it leaves; a base address is
written only while the ring is disabled, else the write is refused with cause 1. -/
def Obligations.RingControl : Prop :=
  (∀ (s : State) (f r : Nat) (cfg : W32), reaches f s = true → readsOnly s = false → ringExists f r = true →
    (s.sq (ringOf f r)).st = .disabled → 6 ≤ fld cfg.toNat 3 5 → fld cfg.toNat 3 5 ≤ 16 → ringExists f (fld cfg.toNat 8 8) = true →
    (s.cq (ringOf f (fld cfg.toNat 8 8))).enable = true → Completes (.sqEnable f r cfg) s (fun t =>
      (t.sq (ringOf f r)).st = .running ∧ (t.sq (ringOf f r)).enable = true ∧ (t.sq (ringOf f r)).logSize.toNat = fld cfg.toNat 3 5 ∧
      (t.sq (ringOf f r)).cq.toNat = fld cfg.toNat 8 8 ∧ (t.sq (ringOf f r)).reading = true ∧
      t.out = s.out ++ [.tailRead (ringOf f r) (s.sq (ringOf f r)).tailAddr.toNat] ∧
      (∀ n, n ≠ ringOf f r → t.sq n = s.sq n) ∧ OnlyChanges [.host, .out] s t)) ∧
  (∀ (s : State) (f r : Nat) (cfg : W32), reaches f s = true → readsOnly s = false → ringExists f r = true →
    (s.sq (ringOf f r)).st = .running → (s.sq (ringOf f r)).polled = cfg.toNat.testBit 1 → 6 ≤ fld cfg.toNat 3 5 → fld cfg.toNat 3 5 ≤ 16 →
    (s.sq (ringOf f r)).logSize.toNat = fld cfg.toNat 3 5 → (s.sq (ringOf f r)).cq.toNat = fld cfg.toNat 8 8 →
    Completes (.sqDisable f r cfg) s (fun t =>
      (t.sq (ringOf f r)).st = (if inFlight (ringOf f r) s = 0 then .disabled else .draining) ∧ (t.sq (ringOf f r)).enable = false ∧
      (t.sq (ringOf f r)).fetching = 0 ∧ (∀ n, n ≠ ringOf f r → OnlyFetches (s.sq n) (t.sq n)) ∧ OnlyChanges [.host, .out] s t)) ∧
  (∀ (s : State) (f r : Nat) (cfg : W32), reaches f s = true → readsOnly s = false → ringExists f r = true →
    (s.cq (ringOf f r)).enable = false → 6 ≤ fld cfg.toNat 3 5 → fld cfg.toNat 3 5 ≤ 16 → fld cfg.toNat 8 11 < vectorLimit f →
    Completes (.cqEnable f r cfg) s (fun t =>
      (t.cq (ringOf f r)).enable = true ∧ (t.cq (ringOf f r)).logSize.toNat = fld cfg.toNat 3 5 ∧
      (t.cq (ringOf f r)).vector.toNat = fld cfg.toNat 8 11 ∧ (t.cq (ringOf f r)).tail = (s.cq (ringOf f r)).tail ∧
      t.out = s.out ++ [.cqHeadRead (ringOf f r) (s.cq (ringOf f r)).headAddr.toNat] ∧ (∀ n, n ≠ ringOf f r → t.cq n = s.cq n) ∧ OnlyChanges [.host, .out] s t)) ∧
  (∀ (s : State) (f r : Nat) (cfg : W32), reaches f s = true → readsOnly s = false → ringExists f r = true →
    (s.cq (ringOf f r)).enable = true → (s.cq (ringOf f r)).polled = cfg.toNat.testBit 1 → (s.cq (ringOf f r)).irqEn = cfg.toNat.testBit 19 →
    6 ≤ fld cfg.toNat 3 5 → fld cfg.toNat 3 5 ≤ 16 → (s.cq (ringOf f r)).logSize.toNat = fld cfg.toNat 3 5 →
    (s.cq (ringOf f r)).vector.toNat = fld cfg.toNat 8 11 → namesCq f r s = false → Completes (.cqDisable f r cfg) s (fun t =>
      (t.cq (ringOf f r)).enable = false ∧ (t.cq (ringOf f r)).held = [] ∧ (∀ n, n ≠ ringOf f r → t.cq n = s.cq n) ∧ t.host.sqs = s.host.sqs ∧
      OnlyChanges [.host] s t)) ∧
  (∀ (s : State) (f : Nat) (cfg : W32), reaches f s = true → readsOnly s = false → f ≤ 16 → (s.tok f).enable = false →
    6 ≤ fld cfg.toNat 4 5 → fld cfg.toNat 4 5 ≤ 20 → fld cfg.toNat 9 11 < vectorLimit f → Completes (.tokRingEnable f cfg) s (fun t =>
      (t.tok f).enable = true ∧ (t.tok f).logSize.toNat = fld cfg.toNat 4 5 ∧ (t.tok f).tail = (s.tok f).tail ∧
      t.out = s.out ++ [.tokHeadRead f (s.tok f).headAddr.toNat] ∧ (∀ n, n ≠ f → t.fn n = s.fn n) ∧ OnlyChanges [.host, .out] s t)) ∧
  (∀ (s : State) (f : Nat) (cfg : W32), reaches f s = true → readsOnly s = false → f ≤ 16 → (s.tok f).enable = true →
    (s.tok f).polled = cfg.toNat.testBit 1 → (s.tok f).irqEn = cfg.toNat.testBit 20 → 6 ≤ fld cfg.toNat 4 5 → fld cfg.toNat 4 5 ≤ 20 →
    (s.tok f).logSize.toNat = fld cfg.toNat 4 5 → (s.tok f).vector.toNat = fld cfg.toNat 9 11 → Completes (.tokRingDisable f cfg) s (fun t =>
      (t.tok f).enable = false ∧ (t.tok f).held = [] ∧ (∀ n, n ≠ f → t.fn n = s.fn n) ∧ OnlyChanges [.host] s t)) ∧
  (∀ (s : State) (f r : Nat) (v : W64), reaches f s = true → readsOnly s = false → f ≤ 16 → ringExists f r = true →
    (s.sq (ringOf f r)).st = .disabled → Completes (.ringConfigWrite f (0x201000 + 64 * r) 64 v) s (fun t =>
      (t.sq (ringOf f r)).base.toNat = v.toNat / 4096 * 4096 ∧ (t.sq (ringOf f r)).st = .disabled ∧ (∀ n, n ≠ ringOf f r → t.sq n = s.sq n) ∧
      OnlyChanges [.host] s t)) ∧
  (∀ (s : State) (f r : Nat) (v : W64), reaches f s = true → readsOnly s = false → f ≤ 16 → ringExists f r = true →
    (s.sq (ringOf f r)).st ≠ .disabled → Completes (.ringConfigWrite f (0x201000 + 64 * r) 64 v) s (fun t =>
      t.host.sqs = s.host.sqs ∧ (t.fn f).cfgErr.cause = 1 ∧ (t.fn f).cfgErr.ring.toNat = r ∧ OnlyChanges [.host] s t))

/-- R73, R99 to R104, R106 to R111, R715: the tail of a running ring is read when its line is lost or its poll interval passes; a tail in
range is taken and, when it is the ring's turn, the descriptors up to it are fetched, at most 16; a tail out of range or unreadable stops the ring with error 1 or
2; a fetched descriptor with a defined opcode and a mapped context joins the work of the device, in order, and HEAD passes it; a
reserved opcode never does, and neither does a position that could not be read. -/
def Obligations.TailsAndFetch : Prop :=
  (∀ (s : State) (n : Nat), portOpen s = true → cxlMode s = true → (s.sq n).polled = false → (s.sq n).st = .running →
    (s.sq n).reading = false → s.power.st = .n0 → s.power.trans = none → Completes (.tailLineInvalidation n) s (fun t =>
      (t.sq n).reading = true ∧ t.out = s.out ++ [.tailRead n (s.sq n).tailAddr.toNat] ∧ (∀ m, m ≠ n → t.sq m = s.sq m) ∧
      t.power = { s.power with gated := 0 } ∧ OnlyChanges [.host, .power, .out] s t)) ∧
  (∀ (s : State) (n : Nat), portOpen s = true → ((s.sq n).polled = true ∨ s.host.mode = .pcie) → (s.sq n).st = .running →
    (s.sq n).reading = false → Completes (.tailPoll n) s (fun t =>
      (t.sq n).reading = true ∧ t.out = s.out ++ [.tailRead n (s.sq n).tailAddr.toNat] ∧ (∀ m, m ≠ n → t.sq m = s.sq m) ∧ OnlyChanges [.host, .out] s t)) ∧
  (∀ (s : State) (n : Nat) (v : W32), portOpen s = true → (s.sq n).st = .running → (s.sq n).reading = true → (s.sq n).reread = false →
    (s.sq n).polled = false → s.host.mode ≠ .pcie → (s.sq n).fetching = 0 → (v - (s.sq n).head).toNat ≤ 2 ^ (s.sq n).logSize.toNat →
    ringStalled n s = false → n ∉ s.host.served → (∀ m, m ≠ n → newPositions m s = 0) → Completes (.tailReadReturn n (some v)) s (fun t =>
      (t.sq n).tail = v ∧ (t.sq n).reading = false ∧ (t.sq n).st = .running ∧ (t.sq n).head = (s.sq n).head ∧
      (t.sq n).fetching = min 16 (v - (s.sq n).head).toNat ∧ OnlyChanges [.host, .out] s t)) ∧
  (∀ (s : State) (n : Nat) (v : W32), portOpen s = true → (s.sq n).st = .running → (s.sq n).reading = true →
    (v - (s.sq n).head).toNat > 2 ^ (s.sq n).logSize.toNat → Completes (.tailReadReturn n (some v)) s (fun t =>
      (t.sq n).st = .error ∧ (t.sq n).err = 1 ∧ (t.sq n).head = (s.sq n).head ∧ OnlyChanges [.host, .out] s t)) ∧
  (∀ (s : State) (n : Nat), portOpen s = true → (s.sq n).st = .running → (s.sq n).reading = true →
    Completes (.tailReadReturn n none) s (fun t => (t.sq n).st = .error ∧ (t.sq n).err = 2 ∧ OnlyChanges [.host, .out] s t)) ∧
  (∀ (s : State) (n : Nat) (d : Descriptor), portOpen s = true → (s.sq n).st = .running → 1 ≤ (s.sq n).fetching →
    opcodeDefined (dat d 0 8) = true → s.img.image.isSome = true → loadCancels s = false → ctxMismatch (ringFn n) (dat d 2 12) s = false →
    Completes (.descriptorReadReturn n [some d]) s (fun t =>
      t.work = s.work ++ [workOf n (s.sq n).head d s] ∧ t.nextWid = s.nextWid + 1 ∧ (t.sq n).head = (s.sq n).head + 1 ∧
      OnlyChanges [.host, .work, .nextWid, .out] s t)) ∧
  (∀ (s : State) (n : Nat), portOpen s = true → (s.sq n).st = .running → 1 ≤ (s.sq n).fetching →
    Completes (.descriptorReadReturn n [none]) s (fun t =>
      t.work = s.work ∧ t.nextWid = s.nextWid ∧ (t.sq n).head = (s.sq n).head + 1 ∧ OnlyChanges [.host, .out] s t)) ∧
  (∀ (s : State) (n : Nat) (d : Descriptor), portOpen s = true → (s.sq n).st = .running → 1 ≤ (s.sq n).fetching →
    opcodeDefined (dat d 0 8) = false → s.img.image.isSome = true → Completes (.descriptorReadReturn n [some d]) s (fun t =>
      t.item s.nextWid = none ∧ t.nextWid = s.nextWid + 1 ∧ (∀ x, x ≠ s.nextWid → t.item x = s.item x)))

/-- R99, R101, R102, R113 to R116, R119, R122, R401: a NOP that may start completes with OK and RESULT 0: it leaves the device, every
other descriptor stays, and, unless SILENT is set, its record with its tag, opcode, position and context goes to its completion ring,
when that ring is enabled, has room and holds no record back. A read of a head line takes the new head and the held records that fit are
written; when a moderation time passes its vector is signalled and the count starts again. -/
def Obligations.HeadsAndModeration : Prop :=
  (∀ (s : State) (w : Work), MayStart s w 0x00 → Completes (.nop w.wid) s (fun t =>
    t = complete w .ok 0 s ∧ Gone w t ∧ (∀ x, x ≠ w.wid → t.item x = s.item x) ∧ OnlyChanges [.host, .work, .tt, .ft, .tn, .out] s t)) ∧
  (∀ (s : State) (w : Work) (n : Nat) (p : W32) (st : Status) (r : Nat) (fr : BitVec 16), w.src = .ring n p → w.silent = false → w.orphan = false →
    reachable (ringFn n) s = true → ringExists (ringFn n) (s.sq n).cq.toNat = true →
    (s.cq (ringOf (ringFn n) (s.sq n).cq.toNat)).enable = true → (s.cq (ringOf (ringFn n) (s.sq n).cq.toNat)).held = [] →
    (s.cq (ringOf (ringFn n) (s.sq n).cq.toNat)).room = true →
    ∃ rec : Rec, rec.tag = w.tag ∧ rec.status = st.code ∧ rec.opcode = w.opcode ∧ rec.sqPos = p ∧ rec.context = BitVec.ofNat 12 w.context ∧
      rec.result = BitVec.ofNat 64 r ∧ rec.faultRef = fr ∧
      .record (ringOf (ringFn n) (s.sq n).cq.toNat) (s.cq (ringOf (ringFn n) (s.sq n).cq.toNat)).tail
        (slotAddr (s.cq (ringOf (ringFn n) (s.sq n).cq.toNat)).base (s.cq (ringOf (ringFn n) (s.sq n).cq.toNat)).logSize.toNat 32
          (s.cq (ringOf (ringFn n) (s.sq n).cq.toNat)).tail) rec.bytes ∈ (complete w st r s fr).out) ∧
  (∀ (s : State) (w : Work) (n : Nat) (p : W32) (r : Nat), w.src = .ring n p → w.silent = true → (complete w .ok r s).out = s.out) ∧
  (∀ (s : State) (n : Nat) (h : W32), portOpen s = true → (s.cq n).enable = true → (s.cq n).held = [] → Completes (.cqHeadLineRead n h) s (fun t =>
    t.cq n = { s.cq n with head := h } ∧ (∀ m, m ≠ n → t.cq m = s.cq m) ∧ (∀ m, OnlyFetches (s.sq m) (t.sq m)) ∧ OnlyChanges [.host, .out] s t)) ∧
  (∀ (s : State) (n : Nat) (h : W32) (r : Rec), portOpen s = true → (s.cq n).enable = true → (s.cq n).held = [r] →
    ((s.cq n).tail - h).toNat < 2 ^ (s.cq n).logSize.toNat → Completes (.cqHeadLineRead n h) s (fun t =>
      (t.cq n).held = [] ∧ (t.cq n).tail = (s.cq n).tail + 1 ∧
      (∃ x : Rec, x.tag = r.tag ∧ x.status = r.status ∧ x.result = r.result ∧
        .record n (s.cq n).tail (slotAddr (s.cq n).base (s.cq n).logSize.toNat 32 (s.cq n).tail) x.bytes ∈ t.out) ∧ OnlyChanges [.host, .out] s t)) ∧
  (∀ (s : State) (f : Nat) (h : W32), portOpen s = true → (s.tok f).enable = true → (s.tok f).held = [] → Completes (.tokHeadLineRead f h) s (fun t =>
    t.tok f = { s.tok f with head := h } ∧ (∀ m, m ≠ f → t.fn m = s.fn m) ∧ OnlyChanges [.host, .out] s t)) ∧
  (∀ (s : State) (n : Nat), portOpen s = true → (s.cq n).timer = true → (s.fn (ringFn n)).msixEn = true → (s.fn (ringFn n)).fmask = false →
    (tget s.host.msix (vectorOf (ringFn n) (s.cq n).vector.toNat) {}).mask = false → Completes (.cqModTimerExpire n) s (fun t =>
      t.cq n = { s.cq n with count := 0, timer := false } ∧ t.out = s.out ++ [.msix (vectorOf (ringFn n) (s.cq n).vector.toNat)] ∧
      OnlyChanges [.host, .out] s t)) ∧
  (∀ (s : State) (f : Nat), portOpen s = true → (s.tok f).timer = true → (s.fn f).msixEn = true → (s.fn f).fmask = false →
    (tget s.host.msix (vectorOf f (s.tok f).vector.toNat) {}).mask = false → Completes (.tokModTimerExpire f) s (fun t =>
      t.tok f = { s.tok f with count := 0, timer := false } ∧ t.out = s.out ++ [.msix (vectorOf f (s.tok f).vector.toNat)] ∧
      OnlyChanges [.host, .out] s t))

/-- R84 to R88, R253, R274: a write through BAR2 or CXL.mem to a host-visible region that the host may write stores its bytes at the
region's addresses and nowhere else; a read returns the bytes there, as poison where a line is marked or cannot be corrected; an access
of no region is counted and changes no byte, and a read in DEGRADED or FAILED is an Unsupported Request. -/
def Obligations.HostWindow : Prop :=
  (∀ (s : State) (off : Nat) (data : List Byte) (r : Region) (o : Nat), portOpen s = true → readsOnly s = false → s.awake = true →
    windowAt off data.length s = some (r, o) → r.flags.getLsbD 1 = false → Completes (.bar2Write off data) s (fun t =>
      t = regionWrite r o data s ∧ (∀ a, (∀ i < data.length, a ≠ regionAddr r (o + i)) → hbmByte t a = hbmByte s a) ∧
      OnlyChanges [.mem, .waybill] s t)) ∧
  (∀ (s : State) (addr : Nat) (data : List Byte) (r : Region) (o : Nat), portOpen s = true → cxlMode s = true → readsOnly s = false →
    s.awake = true → hdmAt addr data.length s = some (r, o) → r.flags.getLsbD 1 = false → Completes (.cxlMemWrite addr data) s (fun t =>
      t = regionWrite r o data s ∧ (∀ a, (∀ i < data.length, a ≠ regionAddr r (o + i)) → hbmByte t a = hbmByte s a) ∧
      OnlyChanges [.mem, .waybill] s t)) ∧
  (∀ (s : State) (off len n : Nat) (r : Region) (o : Nat), portOpen s = true → readsOnly s = false → s.awake = true →
    windowAt off len s = some (r, o) → s.ft.inject.arm = false → Completes (.bar2Read off ⟨len, { corrected := n }⟩) s (fun t =>
      t.out = s.out ++ [.memData (regionRead s r o len) (regionPoisoned s r o len)] ∧ t.ft.recs = s.ft.recs ∧
      tget t.ft.corrected 3 0 = tget s.ft.corrected 3 0 + n ∧ OnlyChanges [.ft, .out] s t)) ∧
  (∀ (s : State) (off len n a : Nat) (r : Region) (o : Nat), portOpen s = true → readsOnly s = false → s.awake = true →
    windowAt off len s = some (r, o) → a / 64 ∈ regionLines r o len → s.ft.inject.arm = false →
    Completes (.bar2Read off ⟨len, { corrected := n, bad := some a }⟩) s (fun t =>
      (∃ data, .memData data true ∈ t.out) ∧ tget t.mem.poison (a / 64) false = true ∧ t.ft.fault = true ∧ t.mem.hbm = s.mem.hbm ∧
      OnlyChanges [.ft, .mem, .host, .power, .out] s t)) ∧
  (∀ (s : State) (addr len n : Nat) (r : Region) (o : Nat), portOpen s = true → cxlMode s = true → readsOnly s = false → s.awake = true →
    hdmAt addr len s = some (r, o) → s.ft.inject.arm = false → Completes (.cxlMemRead addr ⟨len, { corrected := n }⟩) s (fun t =>
      t.out = s.out ++ [.memData (regionRead s r o len) (regionPoisoned s r o len)] ∧ t.ft.recs = s.ft.recs ∧
      tget t.ft.corrected 3 0 = tget s.ft.corrected 3 0 + n ∧ OnlyChanges [.ft, .out] s t)) ∧
  (∀ (s : State) (off : Nat) (data : List Byte), portOpen s = true → windowAt off data.length s = none → Completes (.bar2Write off data) s (fun t =>
    t.ddr.hostReject = satBv s.ddr.hostReject 1 ∧ (∀ a, hbmByte t a = hbmByte s a) ∧ OnlyChanges [.ddr] s t)) ∧
  (∀ (s : State) (off len : Nat) (obs : HbmObs), portOpen s = true → readsOnly s = false → windowAt off len s = none →
    Completes (.bar2Read off ⟨len, obs⟩) s (fun t =>
      t.out = s.out ++ [.memData (List.replicate len 0xFF) false] ∧ t.ddr.hostReject = satBv s.ddr.hostReject 1 ∧ OnlyChanges [.ddr, .out] s t)) ∧
  (∀ (s : State) (off len : Nat) (obs : HbmObs), portOpen s = true → readsOnly s = true → Completes (.bar2Read off ⟨len, obs⟩) s (fun t =>
    t.out = s.out ++ [.unsupportedRequest] ∧ t.ddr.hostReject = satBv s.ddr.hostReject 1 ∧ OnlyChanges [.ddr, .out] s t))

/-! ## Image control, possessions and maintenance -/

/-- R160, R163 to R166, R168: DRAIN_BEGIN and DRAIN_END set and clear DRAINING and complete; IMAGE_LOAD and IMAGE_CHECK issue the read
of the image; a virtual function may use none of the four (cause 0x22), and a misaligned address fails with cause 0x24. -/
def Obligations.ImageControl : Prop :=
  (∀ (s : State) (w : Work), MayStart s w 0x71 → imageAhead w s = false → w.fn = 0 → Completes (.drainBegin w.wid) s (fun t =>
    t = complete w .ok 0 { s with img := { s.img with draining := true } } ∧ t.img = { s.img with draining := true } ∧ Gone w t ∧
    OnlyChanges [.host, .work, .img, .tt, .ft, .tn, .out] s t)) ∧
  (∀ (s : State) (w : Work), MayStart s w 0x72 → imageAhead w s = false → w.fn = 0 → Completes (.drainEnd w.wid) s (fun t =>
    t = complete w .ok 0 { s with img := { s.img with draining := false } } ∧ t.img = { s.img with draining := false } ∧ Gone w t ∧
    OnlyChanges [.host, .work, .img, .tt, .ft, .tn, .out] s t)) ∧
  (∀ (s : State) (w : Work), MayStart s w 0x70 → imageAhead w s = false → w.fn = 0 → s.tn.switch = none → dat w.body 8 64 % 8 = 0 →
    Completes (.imageLoad w.wid) s (fun t =>
      t.img = { s.img with st := .loading } ∧ t.out = s.out ++ [.hostRead 0 (dat w.body 8 64) (dat w.body 16 32)] ∧
      At w (.image .reading) t ∧ OnlyChanges [.img, .work, .out] s t)) ∧
  (∀ (s : State) (w : Work), MayStart s w 0x73 → imageAhead w s = false → w.fn = 0 → dat w.body 8 64 % 8 = 0 →
    Completes (.imageCheck w.wid) s (fun t =>
      t.out = s.out ++ [.hostRead 0 (dat w.body 8 64) (dat w.body 16 32)] ∧ At w (.image .reading) t ∧ OnlyChanges [.work, .out] s t)) ∧
  (∀ (s : State) (w : Work), MayStart s w 0x70 → imageAhead w s = false → w.fn = 0 → s.tn.switch = none → dat w.body 8 64 % 8 ≠ 0 →
    Completes (.imageLoad w.wid) s (fun t => Gone w t ∧ t.img.err.cause = 0x24 ∧ t.img.image = s.img.image)) ∧
  (∀ (s : State) (w : Work), MayStart s w 0x73 → imageAhead w s = false → w.fn = 0 → dat w.body 8 64 % 8 ≠ 0 →
    Completes (.imageCheck w.wid) s (fun t => Gone w t ∧ t.img.err.cause = 0x24 ∧ t.img.image = s.img.image)) ∧
  (∀ (s : State) (w : Work), MayStart s w 0x70 → imageAhead w s = false → w.fn ≠ 0 → Completes (.imageLoad w.wid) s (fun t =>
    Gone w t ∧ t.img.err.cause = 0x22 ∧ t.img.image = s.img.image)) ∧
  (∀ (s : State) (w : Work), MayStart s w 0x71 → imageAhead w s = false → w.fn ≠ 0 → Completes (.drainBegin w.wid) s (fun t =>
    Gone w t ∧ t.img.err.cause = 0x22 ∧ t.img.draining = s.img.draining)) ∧
  (∀ (s : State) (w : Work), MayStart s w 0x72 → imageAhead w s = false → w.fn ≠ 0 → Completes (.drainEnd w.wid) s (fun t =>
    Gone w t ∧ t.img.err.cause = 0x22 ∧ t.img.draining = s.img.draining)) ∧
  (∀ (s : State) (w : Work), MayStart s w 0x73 → imageAhead w s = false → w.fn ≠ 0 → Completes (.imageCheck w.wid) s (fun t =>
    Gone w t ∧ t.img.err.cause = 0x22 ∧ t.img.image = s.img.image))

/-- R160 to R162, R167, R169 to R177: the image read is validated: a check ends with the image's identifier, and a failure found ends
either operation and is what CI_ERR records, the image in force staying; a load that passes drains the device, asks for a possession on
every domain where it is drained already, and fails with cause 0x20 where it may not wait; a read that fails has cause 0x23. A drained
device that passes the state check asks for that possession; one that does not drain in time fails with cause 0x20 and keeps DRAINING;
when the application ends the new image is in force, its copy to flash runs, the possession is over and the load is counted and
complete; a fault on the way leaves no image in force and HBM cleared. -/
def Obligations.ImageApplication : Prop :=
  (∀ (s : State) (w : Work) (b : List Byte), s.live = true → imageAt .reading s = some w → b.length = min (dat w.body 16 32) 0x1000000 →
    w.opcode = 0x73 → validateImage s b (dat w.body 16 32) = none → Completes (.imageReadComplete (some b)) s (fun t =>
      t = complete w .ok (parseImage b).imageId.toNat s ∧ Gone w t ∧ t.img = s.img)) ∧
  (∀ (s : State) (w : Work) (b : List Byte) (f : ImgFail), s.live = true → imageAt .reading s = some w →
    b.length = min (dat w.body 16 32) 0x1000000 → validateImage s b (dat w.body 16 32) = some f →
    Completes (.imageReadComplete (some b)) s (fun t => Gone w t ∧ t.img.err = f.toErr ∧ t.img.image = s.img.image)) ∧
  (∀ (s : State) (w : Work) (b : List Byte), s.live = true → imageAt .reading s = some w → b.length = min (dat w.body 16 32) 0x1000000 →
    w.opcode = 0x70 → validateImage s b (dat w.body 16 32) = none → drainedNow s = false → dat w.body 20 32 ≠ 0 →
    Completes (.imageReadComplete (some b)) s (fun t =>
      t.img = { s.img with staged := some (parseImage b, b), draining := true } ∧ At w (.image .draining) t ∧ OnlyChanges [.img, .work] s t)) ∧
  (∀ (s : State) (w : Work) (b : List Byte), s.live = true → imageAt .reading s = some w → b.length = min (dat w.body 16 32) 0x1000000 →
    w.opcode = 0x70 → validateImage s b (dat w.body 16 32) = none → drainedNow s = false → dat w.body 20 32 = 0 →
    Completes (.imageReadComplete (some b)) s (fun t =>
      Gone w t ∧ t.img.err.cause = 0x20 ∧ t.img.draining = true ∧ t.img.staged = none ∧ t.img.image = s.img.image)) ∧
  (∀ (s : State) (w : Work) (b : List Byte), s.live = true → imageAt .reading s = some w → b.length = min (dat w.body 16 32) 0x1000000 →
    w.opcode = 0x70 → validateImage s b (dat w.body 16 32) = none → drainedNow s = true → stateCheck (parseImage b) b s = none →
    Completes (.imageReadComplete (some b)) s (fun t =>
      t.img = { s.img with staged := some (parseImage b, b) } ∧ At w (.image .possess) t ∧
      t.ft.queue = s.ft.queue ++ [{ activity := 0x10, domains := allDomains, arg := w.wid }] ∧ OnlyChanges [.img, .work, .ft] s t)) ∧
  (∀ (s : State) (w : Work), s.live = true → imageAt .reading s = some w → Completes (.imageReadComplete none) s (fun t =>
    Gone w t ∧ t.img.err.cause = 0x23 ∧ t.img.image = s.img.image)) ∧
  (∀ (s : State) (w : Work) (i : Image) (b : List Byte), s.live = true → drainedNow s = true → imageAt .draining s = some w →
    s.img.staged = some (i, b) → Completes .drainReached s (fun t =>
      match stateCheck i b s with
      | none => t.ft.queue = s.ft.queue ++ [{ activity := 0x10, domains := allDomains, arg := w.wid }] ∧ t.img = s.img ∧
          OnlyChanges [.work, .ft] s t
      | some f => Gone w t ∧ t.img.err = f.toErr ∧ t.img.staged = none ∧ t.img.image = s.img.image)) ∧
  (∀ (s : State) (w : Work), s.live = true → imageAt .draining s = some w → Completes .drainWaitExpire s (fun t =>
    Gone w t ∧ t.img.err.cause = 0x20 ∧ t.img.staged = none ∧ t.img.draining = s.img.draining ∧ t.img.image = s.img.image)) ∧
  (∀ (s : State) (w : Work) (i : Image) (b : List Byte), s.live = true → lanesTrain s = false → imageAt .applying s = some w →
    s.img.staged = some (i, b) → Completes .imageApplyComplete s (fun t =>
      t.img.image = some i ∧ t.img.st = .active ∧ t.img.staged = none ∧ t.img.draining = false ∧ t.img.loads = satBv s.img.loads 1 ∧
      t.img.copying = some b ∧ t.flash.image = none ∧ holds 0x10 w.wid t = false ∧ Gone w t)) ∧
  (∀ (s : State) (w : Work), s.live = true → imageAt .applying s = some w → Completes .applyFault s (fun t =>
    t.img.image = none ∧ t.img.st = .unconfigured ∧ t.img.err.cause = 0x30 ∧ (∀ a, hbmByte t a = 0) ∧ holds 0x10 w.wid t = false ∧ Gone w t))

/-- R690 to R693: the first waiting request whose domains overlap neither a held possession nor an earlier waiting one is granted, so
that two held possessions never overlap; a granted load passes the point of no return; a granted retirement moves the Stand's logical
ID and ends; any other activity holds its domains and nothing else changes. -/
def Obligations.PossessionGrant : Prop :=
  (∀ (s : State) (r : Poss) (rest : List Poss), s.live = true → nextGrant s.ft.held [] s.ft.queue = some (r, rest) →
    r.activity ≠ 0x10 → r.activity ≠ 0x03 → r.activity ≠ 0x06 → Completes .possessionGrant s (fun t =>
      t.ft = { s.ft with held := s.ft.held ++ [{ r with since := s.clk.ac }], queue := rest } ∧
      (∀ h ∈ s.ft.held, domsOverlap h.domains r.domains = false) ∧ r ∈ s.ft.queue ∧ rest.length + 1 = s.ft.queue.length ∧
      OnlyChanges [.ft] s t)) ∧
  (∀ (s : State) (r : Poss) (rest : List Poss) (i : Image) (b : List Byte), s.live = true → nextGrant s.ft.held [] s.ft.queue = some (r, rest) →
    r.activity = 0x10 → s.img.staged = some (i, b) → Completes .possessionGrant s (fun t =>
      t.tn.parts = [] ∧ t.img.flashCopy = false ∧ t.img.staged = some (i, b) ∧ t.img.image = s.img.image ∧ t.mem = s.mem)) ∧
  (∀ (s : State) (r : Poss) (rest : List Poss), s.live = true → nextGrant s.ft.held [] s.ft.queue = some (r, rest) → r.activity = 0x06 →
    (∀ q, q < 100 → (s.phys (r.arg / 100) q).st ≠ .spare) → Completes .possessionGrant s (fun t =>
      (t.phys (r.arg / 100) (r.arg % 100)).st = .retired ∧
      (∀ l, (s.phys (r.arg / 100) (r.arg % 100)).logical = some l → (t.stand (r.arg / 100) l).physical = none) ∧
      t.ft.queue = rest ∧ holds 0x06 r.arg t = false))

/-- R660, R661, R691 to R693: firmware's maintenance asks for a possession of the domain it works on, or, that domain's queue holding
eight, is refused and counted; a finished activity releases what it held, and each line a patrol scrub found bad in its stack is
marked poisoned; the last tile of a retiring Stand asks for the possession of its move. -/
def Obligations.Maintenance : Prop :=
  (∀ (s : State) (k : Nat), s.live = true → k < 8 → fullDomain (oneDomain (4 + k)) s = none → Completes (.hbmPatrolScrub k) s (fun t =>
    t.ft = { s.ft with queue := s.ft.queue ++ [{ activity := 0x01, domains := oneDomain (4 + k), arg := k }] } ∧ OnlyChanges [.ft] s t)) ∧
  (∀ (s : State) (k d : Nat), s.live = true → k < 8 → fullDomain (oneDomain (4 + k)) s = some d → Completes (.hbmPatrolScrub k) s (fun t =>
    t.ft = { s.ft with possRefused := satBv s.ft.possRefused 1 } ∧ OnlyChanges [.ft, .host, .out] s t)) ∧
  (∀ (s : State) (k : Nat), s.live = true → k < 8 → fullDomain (oneDomain (4 + k)) s = none → Completes (.hbmPeriodicRetrain k) s (fun t =>
    t.ft = { s.ft with queue := s.ft.queue ++ [{ activity := 0x02, domains := oneDomain (4 + k), arg := k }] } ∧ OnlyChanges [.ft] s t)) ∧
  (∀ (s : State) (c : Nat), s.live = true → c < 12 → fullDomain (oneDomain (20 + channelStation c)) s = none →
    Completes (.ddr5PeriodicCalibration c) s (fun t =>
      t.ft = { s.ft with queue := s.ft.queue ++ [{ activity := 0x04, domains := oneDomain (20 + channelStation c), arg := c }] } ∧
      OnlyChanges [.ft] s t)) ∧
  (∀ s : State, s.live = true → fullDomain 0x30000F s = none → Completes .firmwareBroadcastRequest s (fun t =>
    t.ft = { s.ft with queue := s.ft.queue ++ [{ activity := 0x05, domains := 0x30000F, arg := 0 }] } ∧ OnlyChanges [.ft] s t)) ∧
  (∀ (s : State) (g p : Nat), s.live = true → nextRetire g s = some p → Completes (.standRetireTilesCleared g p) s (fun t =>
    t.ft = { s.ft with queue := s.ft.queue ++ [{ activity := 0x06, domains := oneDomain g, arg := 100 * g + p }] } ∧ OnlyChanges [.ft] s t)) ∧
  (∀ (s : State) (d : Nat) (bad : List Nat) (h : Poss), s.live = true →
    s.ft.held.find? (fun h => maintenance h.activity && h.domains.toNat.testBit d) = some h → h.activity ≠ 0x01 →
    Completes (.maintenanceComplete d bad) s (fun t => holds h.activity h.arg t = false ∧ t.ft.queue = s.ft.queue ∧ OnlyChanges [.ft] s t)) ∧
  (∀ (s : State) (d line : Nat) (h : Poss), s.live = true →
    s.ft.held.find? (fun h => maintenance h.activity && h.domains.toNat.testBit d) = some h → h.activity = 0x01 → 64 * line / 2 ^ 36 = h.arg →
    Completes (.maintenanceComplete d [line]) s (fun t =>
      tget t.mem.poison line false = true ∧ t.mem.hbm = s.mem.hbm ∧ holds h.activity h.arg t = false ∧ OnlyChanges [.ft, .mem, .host, .out] s t))

/-! ## Registers, functions, faults and contexts -/

/-- R18 to R20: a read answers the register's value and clears the fields that a read clears, here those of CI_ERR, CK_THROTTLE_COUNT,
HI_LOST_CPL, HI_CFG_ERR and MT_HOST_REJECT; a read of FT_MAX_LEVEL's register, which has none, changes nothing; a virtual function sees
zero outside its own block; the tray controller reads PW_STATUS and LD_BOOT in every state except Off (R44). -/
def Obligations.RegisterReads : Prop :=
  (∀ (s : State) (off width : Nat), reaches 0 s = true → s.boot.stage = .ready → readsReg s 0 off width = false →
    Completes (.registerReadClear (.bar0 0) off width) s (fun t =>
      t.out = s.out ++ [.regRead 0 off (BitVec.ofNat 64 (readValue s 0 off width))] ∧ OnlyChanges [.out] s t)) ∧
  (∀ s : State, reaches 0 s = true → s.boot.stage = .ready → Completes (.registerReadClear (.bar0 0) 0x400004 32) s (fun t =>
    t.out = s.out ++ [.regRead 0 0x400004 (BitVec.ofNat 64 (2 ^ 31 * b2n s.img.err.valid + s.img.err.result))] ∧
    t.img = { s.img with err := {} } ∧ OnlyChanges [.img, .out] s t)) ∧
  (∀ s : State, reaches 0 s = true → s.boot.stage = .ready → Completes (.registerReadClear (.bar0 0) 0x6000008 32) s (fun t =>
    t.out = s.out ++ [.regRead 0 0x6000008 (BitVec.ofNat 64 s.ddr.hostReject.toNat)] ∧ t.ddr = { s.ddr with hostReject := 0 } ∧
    OnlyChanges [.ddr, .out] s t)) ∧
  (∀ s : State, reaches 0 s = true → s.boot.stage = .ready → Completes (.registerReadClear (.bar0 0) 0x7000088 32) s (fun t =>
    t.out = s.out ++ [.regRead 0 0x7000088 (BitVec.ofNat 64 s.ft.maxLevel.toNat)] ∧ OnlyChanges [.out] s t)) ∧
  (∀ (s : State) (f : Nat), reaches f s = true → f ≤ 16 → s.boot.stage = .ready → Completes (.registerReadClear (.bar0 f) 0x200014 32) s (fun t =>
    t.out = s.out ++ [.regRead f 0x200014 (BitVec.ofNat 64 (s.fn f).lost.toNat)] ∧ t.fn f = { s.fn f with lost := 0 } ∧
    (∀ k, k ≠ f → t.fn k = s.fn k) ∧ OnlyChanges [.host, .out] s t)) ∧
  (∀ (s : State) (f off : Nat), reaches f s = true → 1 ≤ f → f ≤ 16 → s.boot.stage = .ready → off % 4 = 0 → 0x400008 ≤ off →
    Completes (.registerReadClear (.bar0 f) off 32) s (fun t => t.out = s.out ++ [.regRead f off 0] ∧ OnlyChanges [.out] s t)) ∧
  (∀ s : State, s.power.st ≠ .off → Completes (.registerReadClear .i3c 0x100104 32) s (fun t =>
    t.out = s.out ++ [.regRead 0 0x100104 (BitVec.ofNat 64 (pwWord s.power))] ∧ t.power = { s.power with wakeCause := 0, refuse := 0 } ∧
    OnlyChanges [.power, .out] s t)) ∧
  (∀ s : State, s.power.st ≠ .off → Completes (.registerReadClear .i3c 0x100 32) s (fun t =>
    t.out = s.out ++ [.regRead 0 0x100 (BitVec.ofNat 64 (bootWord s.boot))] ∧ OnlyChanges [.out] s t))

/-- R17 to R20, R90, R763: a write of a read-write register changes that register alone (here FT_QUIET, PW_CTRL, HI_EVT_CFG, LN_HB,
GV_AFFINITY_WAIT, MT_KV_CFG, RL_TIMEOUT, LD_ATT_NONCE and, with no step in flight, TT_STEP_EST); no write of a register changes
clocks, connections' work or a byte of HBM, and none but LD_WB_CFG, which lets records that waited for room be written, moves work; a virtual function writes nothing outside its own block, and the
tray controller LD_ATT_NONCE alone. -/
def Obligations.RegisterWrites : Prop :=
  (∀ (s : State) (v : W64), reaches 0 s = true → readsOnly s = false → Completes (.registerWrite (.bar0 0) 0x7000010 32 v) s (fun t =>
    t.ft = { s.ft with quiet := v.setWidth 32 } ∧ OnlyChanges [.ft] s t)) ∧
  (∀ (s : State) (v : W64), reaches 0 s = true → readsOnly s = false → Completes (.registerWrite (.bar0 0) 0x100100 32 v) s (fun t =>
    t.power = { s.power with n1Idle := (v >>> 8).setWidth 12 } ∧ OnlyChanges [.power] s t)) ∧
  (∀ (s : State) (f : Nat) (v : W64), reaches f s = true → f ≤ 16 → readsOnly s = false → Completes (.registerWrite (.bar0 f) 0x200010 32 v) s (fun t =>
    t.fn f = { s.fn f with evtEnable := v.getLsbD 8, evtCq := v.setWidth 8 } ∧ (∀ k, k ≠ f → t.fn k = s.fn k) ∧ OnlyChanges [.host] s t)) ∧
  (∀ (s : State) (n : Nat) (v : W64), reaches 0 s = true → readsOnly s = false → n < 8 → (s.fuses.grade = .g → n < 4) →
    Completes (.registerWrite (.bar0 0) (0x1800000 + 0x20000 * n + 0x14) 32 v) s (fun t =>
      t.lantern n = { s.lantern n with hbMiss := (v >>> 16).setWidth 8, hbPeriod := v.setWidth 16 } ∧
      (∀ k, k ≠ n → t.lantern k = s.lantern k) ∧ OnlyChanges [.rail] s t)) ∧
  (∀ (s : State) (g : Nat) (v : W64), reaches 0 s = true → readsOnly s = false → g < 4 → s.power.st ≠ .n2 →
    Completes (.registerWrite (.bar0 0) (0x2000000 + 0x1000000 * g + 0x10) 32 v) s (fun t =>
      t.grove g = { s.grove g with affinityWait := v.setWidth 16 } ∧ (∀ k, k ≠ g → t.grove k = s.grove k) ∧ OnlyChanges [.groves] s t)) ∧
  (∀ (s : State) (v : W64), reaches 0 s = true → readsOnly s = false → Completes (.registerWrite (.bar0 0) 0x6400000 32 v) s (fun t =>
    t.mem = { s.mem with prefetch := (v >>> 24).setWidth 8, kvWait := v.setWidth 24 } ∧ OnlyChanges [.mem] s t)) ∧
  (∀ (s : State) (v : W64), reaches 0 s = true → readsOnly s = false → Completes (.registerWrite (.bar0 0) 0x1400004 32 v) s (fun t =>
    t.rc = { s.rc with timeout := v.setWidth 24 } ∧ OnlyChanges [.rc] s t)) ∧
  (∀ (s : State) (k : Nat) (v : W64), reaches 0 s = true → readsOnly s = false → k < 4 → Completes (.registerWrite (.bar0 0) (0x7000 + 8 * k) 64 v) s (fun t =>
    (∀ i < 256, t.trust.nonce.getLsbD i = if 64 * k ≤ i ∧ i < 64 * k + 64 then v.getLsbD (i - 64 * k) else s.trust.nonce.getLsbD i) ∧
    OnlyChanges [.trust] s t)) ∧
  (∀ (s : State) (p : Nat) (v : W64), reaches 0 s = true → readsOnly s = false → p < 4 → s.stepOf p = none → tget s.tt.pend p none = none →
    Completes (.registerWrite (.bar0 0) (0x801000 + 0x100 * p + 0x40) 32 v) s (fun t =>
      (t.ttregs p).stepEst = v.setWidth 32 ∧ (∀ q, q ≠ p → t.ttregs q = s.ttregs q) ∧ OnlyChanges [.tt] s t)) ∧
  (∀ (s : State) (p : Nat) (v : W64), reaches 0 s = true → readsOnly s = false → p < 4 → (s.stepOf p).isSome = true →
    Completes (.registerWrite (.bar0 0) (0x801000 + 0x100 * p + 0x40) 32 v) s (fun t =>
      t.tt.regs = s.tt.regs ∧ (ttShown t p).stepEst = v.setWidth 32 ∧ OnlyChanges [.tt] s t)) ∧
  (∀ (s : State) (f off width : Nat) (v : W64), reaches f s = true → f ≤ 16 → readsOnly s = false →
    Completes (.registerWrite (.bar0 f) off width v) s (fun t =>
      t.mem.hbm = s.mem.hbm ∧ t.mem.poison = s.mem.poison ∧
      OnlyChanges [.flash, .power, .host, .work, .img, .groves, .waybill, .mem, .tt, .rail, .rc, .ho, .ft, .tn, .trust, .free, .out] s t)) ∧
  (∀ (s : State) (f off width : Nat) (v : W64), reaches f s = true → f ≤ 16 → readsOnly s = false → (∀ p < 4, off ≠ 0x8028 + 0x100 * p) →
    Completes (.registerWrite (.bar0 f) off width v) s (fun t => t.work = s.work ∧ t.free = s.free)) ∧
  (∀ (s : State) (f off width : Nat) (v : W64), reaches f s = true → 1 ≤ f → f ≤ 16 → readsOnly s = false →
    off < 0x200000 ∨ 0x400000 ≤ off → Completes (.registerWrite (.bar0 f) off width v) s (fun t => OnlyChanges [] s t)) ∧
  (∀ (s : State) (off width : Nat) (v : W64), s.live = true → 0x7000 ≤ off → off < 0x7020 → Completes (.registerWrite .i3c off width v) s (fun t =>
    OnlyChanges [.trust] s t ∧ (∀ a, hbmByte t a = hbmByte s a)))

/-- R89, R125, R696: the host enables virtual functions; a function-level reset, FT_FN_DISABLE and clearing VF Enable start a disable:
the function drains and none of its rings fetches any more; a second disable meanwhile has no effect; at the end of the drain nothing
of a function without descriptors is left, and its registers are at reset but HI_LOST_CPL. -/
def Obligations.FunctionResets : Prop :=
  (∀ (s : State) (n : Nat), portOpen s = true → (s.host.mode = .cxl2 ∨ s.host.mode = .pcie) → s.host.vfEnable = false → n ≤ 16 →
    Completes (.vfEnableSet n) s (fun t => t.host = { s.host with vfEnable := true, numVfs := n } ∧ OnlyChanges [.host] s t)) ∧
  (∀ (s : State) (v : Nat), reaches v s = true → 1 ≤ v → v ≤ 16 → (s.fn v).disabling = .no → Completes (.vfFlr v) s (fun t =>
    (t.fn v).disabling = .draining ∧ (∀ n, ringFn n = v → (t.sq n).st ≠ .running) ∧ (∀ n, ringFn n ≠ v → OnlyFetches (s.sq n) (t.sq n)) ∧
    (∀ k, k ≠ v → t.fn k = s.fn k) ∧ t.host.cqs = s.host.cqs ∧ (t.fn v).tok = (s.fn v).tok ∧ OnlyChanges [.host, .out] s t)) ∧
  (∀ (s : State) (v : Nat), reaches v s = true → 1 ≤ v → v ≤ 16 → (s.fn v).disabling ≠ .no → Completes (.vfFlr v) s (fun t =>
    OnlyChanges [] s t)) ∧
  (∀ (s : State) (v : BitVec 5), reaches 0 s = true → readsOnly s = false → 2 ≤ v.toNat → v.toNat ≤ 17 →
    (s.fn (v.toNat - 1)).disabling = .no → Completes (.functionDisable v) s (fun t =>
      (t.fn (v.toNat - 1)).disabling = .draining ∧ (∀ n, ringFn n = v.toNat - 1 → (t.sq n).st ≠ .running) ∧
      (∀ n, ringFn n ≠ v.toNat - 1 → OnlyFetches (s.sq n) (t.sq n)) ∧ (∀ k, k ≠ v.toNat - 1 → t.fn k = s.fn k) ∧
      OnlyChanges [.host, .out] s t)) ∧
  (∀ s : State, reaches 0 s = true → Completes .pfFlr s (fun t =>
    (∀ f, f ≤ 16 → (t.fn f).disabling ≠ .no) ∧ (∀ n, n < 256 → (s.fn (ringFn n)).disabling = .no → (t.sq n).st ≠ .running) ∧
    OnlyChanges [.host, .out] s t)) ∧
  (∀ s : State, reaches 0 s = true → s.host.vfEnable = true → Completes .vfEnableClear s (fun t =>
    t.host.vfEnable = false ∧ (∀ f, 1 ≤ f → f ≤ 16 → (t.fn f).disabling ≠ .no) ∧ t.fn 0 = s.fn 0 ∧
    (∀ n, ringFn n = 0 → OnlyFetches (s.sq n) (t.sq n)) ∧ OnlyChanges [.host, .out] s t)) ∧
  (∀ (s : State) (f : Nat), s.live = true → (s.fn f).disabling = .draining → (∀ w ∈ s.work, w.fn ≠ f) → (s.fn f).newTenant = none →
    Completes (.functionDisableDrainEnd f) s (fun t =>
      (t.fn f).disabling = .no ∧ (t.fn f).evtEnable = false ∧ (t.fn f).tok = {} ∧ (s.fn f).lost.toNat ≤ (t.fn f).lost.toNat ∧
      (∀ n, ringFn n = f → t.sq n = {} ∧ t.cq n = {}) ∧ (∀ n, ringFn n ≠ f → t.sq n = s.sq n ∧ t.cq n = s.cq n) ∧
      OnlyChanges [.host, .tt] s t))

/-- R28, R30, R675 to R683, R689, R710: a replayed flit is a corrected error, counted and no more; a failed die link, lost control
state and a failed core each start a chip reset at once (a warm reset with cause 3) and leave their record open; the fault state ends
once no record is open and FT_QUIET has passed; the pulse on ERR_N ends; FT_INJECT is written whole. -/
def Obligations.ErrorsAndFaultState : Prop :=
  (∀ (s : State) (k : Nat), s.live = true → couplingUp k s = true → s.ft.inject.arm = false → Completes (.dieLinkFlitCrcFail k) s (fun t =>
    t.ft = { s.ft with corrected := tmod s.ft.corrected 0x09 0 (· + 1) } ∧ OnlyChanges [.ft] s t)) ∧
  (∀ (s : State) (k : Nat), s.ready = true → couplingUp k s = true → 4 ≤ s.ft.maxLevel.toNat → mergeInto 0xFF s = none →
    Completes (.dieLinkFailed k) s (fun t =>
    t.boot.stage = .lodge ∧ t.boot.cause = 3 ∧ t.boot.chipReset = true ∧ t.work = [] ∧ t.mem.hbm = s.mem.hbm ∧ t.ft.fault = true ∧
    (tget t.ft.recs ((nextNumber s.ft.last).toNat % 4096) {}).isOpen = true ∧
    (tget t.ft.recs ((nextNumber s.ft.last).toNat % 4096) {}).source = 0x09)) ∧
  (∀ (s : State) (st : Nat) (a : W64), s.ready = true → st < 2 → 4 ≤ s.ft.maxLevel.toNat → mergeInto (20 + st) s = none →
    Completes (.stateSramFault st a) s (fun t =>
      t.boot.stage = .lodge ∧ t.boot.cause = 3 ∧ t.boot.chipReset = true ∧ t.work = [] ∧ t.mem.hbm = s.mem.hbm ∧ t.ft.fault = true ∧
      (tget t.ft.recs ((nextNumber s.ft.last).toNat % 4096) {}).isOpen = true ∧
      (tget t.ft.recs ((nextNumber s.ft.last).toNat % 4096) {}).source = 0x0A)) ∧
  (∀ (s : State) (c : W64), s.ready = true → 4 ≤ s.ft.maxLevel.toNat → mergeInto 0xFF s = none → Completes (.controlCoreFault c) s (fun t =>
    t.boot.stage = .lodge ∧ t.boot.cause = 3 ∧ t.boot.chipReset = true ∧ t.work = [] ∧ t.mem.hbm = s.mem.hbm ∧ t.ft.fault = true ∧
    (tget t.ft.recs ((nextNumber s.ft.last).toNat % 4096) {}).isOpen = true ∧
    (tget t.ft.recs ((nextNumber s.ft.last).toNat % 4096) {}).source = 0x0C)) ∧
  (∀ s : State, s.live = true → s.ft.fault = true → (∀ kv ∈ s.ft.recs, kv.2.isOpen = false) → Completes .faultQuietExpire s (fun t =>
    t.ft = { s.ft with fault := false, recoveries := s.ft.recoveries + 1 } ∧ OnlyChanges [.ft, .host, .out] s t)) ∧
  (∀ s : State, s.live = true → Completes .errNPulseEnd s (fun t =>
    t.power = { s.power with errnPulse := false } ∧ OnlyChanges [.power] s t)) ∧
  (∀ (s : State) (v : W64), reaches 0 s = true → readsOnly s = false → Completes (.injectionArm v) s (fun t =>
    t.ft.inject = { arm := v.getLsbD 63, checker := (v >>> 48).setWidth 8, unit := (v >>> 32).setWidth 16, count := v.setWidth 8 } ∧
    t.ft = { s.ft with inject := t.ft.inject } ∧ OnlyChanges [.ft] s t))

/-- R684 to R687: a watchdog that fires in a domain not reset lately opens a HANG record, names its culprit and runs its own level,
1 for a context, 2 for an engine, 3 for a partition; the chip watchdog runs level 4; in a domain reset lately a higher level runs; above
MAX_LEVEL nothing does; a reset that has not ended in time is raised by one level, with ESCALATED set. -/
def Obligations.Watchdogs : Prop :=
  (∀ (s : State) (w : Work), s.item w.wid = some w → watching s = true → excused w s = false → imageOp w.opcode = false →
    recentLevel (workDomain w s) s = 0 → 1 ≤ s.ft.maxLevel.toNat → s.ft.stopped = [] → Completes (.contextWatchdog w.wid) s (fun t => ∃ h fr u,
      h.domain = workDomain w s ∧ h.wd = 0 ∧ h.ctx = some w.context ∧ HangOpened 1 true h fr s u ∧ t = s.kept (ctxReset w.context fr u))) ∧
  (∀ (s : State) (e : EngineId) (c : Nat), watching s = true → engineExists e s = true → recentLevel (engineDomain e) s = 0 →
    2 ≤ s.ft.maxLevel.toNat → s.ft.stopped = [] → Completes (.engineWatchdog e (some c)) s (fun t => ∃ h fr u,
      h.domain = engineDomain e ∧ h.wd = 1 ∧ h.eng = e ∧ h.ctx = some c ∧ HangOpened 2 true h fr s u ∧
      t = s.kept (engineReset e (some c) fr u))) ∧
  (∀ (s : State) (e : EngineId), watching s = true → engineExists e s = true → recentLevel (engineDomain e) s = 0 →
    2 ≤ s.ft.maxLevel.toNat → s.ft.stopped = [] → Completes (.engineWatchdog e none) s (fun t => ∃ h fr u,
      h.domain = engineDomain e ∧ h.wd = 1 ∧ h.eng = e ∧ h.ctx = none ∧ HangOpened 2 true h fr s u ∧ t = s.kept (engineReset e none fr u) ∧
      t.work.map (fun w => w.wid) = s.work.map (fun w => w.wid))) ∧
  (∀ (s : State) (p : Nat), StepDue p s → recentLevel (partDomain p s) s = 0 →
    3 ≤ s.ft.maxLevel.toNat → s.ft.stopped = [] → Completes (.partitionWatchdog p) s (fun t => ∃ h fr u,
      h.domain = partDomain p s ∧ h.wd = 2 ∧ h.part = p ∧ HangOpened 3 true h fr s u ∧ t = s.kept (partReset p fr u))) ∧
  (∀ (s : State) (p : Nat), StepDue p s → recentLevel (partDomain p s) s = 3 →
    4 ≤ s.ft.maxLevel.toNat → s.ft.stopped = [] → Completes (.partitionWatchdog p) s (fun t =>
      t.boot.stage = .lodge ∧ t.boot.cause = 3 ∧ t.work = [])) ∧
  (∀ (s : State) (p : Nat), StepDue p s → recentLevel (partDomain p s) s = 0 →
    s.ft.maxLevel.toNat < 3 → s.ft.stopped = [] → Completes (.partitionWatchdog p) s (fun t =>
      t.ft = { s.ft with stopped := [(2, p)] } ∧ OnlyChanges [.ft] s t)) ∧
  (∀ (s : State) (st : Nat), watching s = true → st < 2 → recentLevel 0xFF s < 4 → 4 ≤ s.ft.maxLevel.toNat →
    Completes (.chipWatchdog st) s (fun t => t.boot.stage = .lodge ∧ t.boot.cause = 3 ∧ t.boot.chipReset = true ∧ t.work = [] ∧
      t.mem.hbm = s.mem.hbm)) ∧
  (∀ (s : State) (st : Nat), watching s = true → st < 2 → 4 ≤ recentLevel 0xFF s → 5 ≤ s.ft.maxLevel.toNat →
    Completes (.chipWatchdog st) s (fun t => t.power.pwrcycLow = true ∧ OnlyChanges [.ft, .host, .power, .out] s t)) ∧
  (∀ (s : State) (n : Nat), s.ready = true → (tget s.ft.recs (n % 4096) {}).isOpen = true → (tget s.ft.recs (n % 4096) {}).number.toNat = n →
    (tget s.ft.recs (n % 4096) {}).level = 3 → 4 ≤ s.ft.maxLevel.toNat → Completes (.resetLimitExpire n) s (fun t =>
      t.boot.stage = .lodge ∧ t.boot.cause = 3 ∧ t.work = [] ∧ (tget t.ft.recs (n % 4096) {}).escalated = true ∧
      (tget t.ft.recs (n % 4096) {}).level = 4))

/-- R262, R271, R685, R688: level 1 stops a descriptor by giving back what it held and completing it, an executed operation once its
record has room; FT_RESET starts a reset of a Stand, a
partition or the device under a HANG record that counts toward nothing; no level above MAX_LEVEL is started. -/
def Obligations.HostStartedResets : Prop :=
  (∀ (s : State) (w : Work) (st : Status) (r : Nat) (fr : BitVec 16), s.item w.wid = some w → runsOn w = false →
    (match w.prog with | .rail _ => False | _ => True) → (recorded w = false ∨ wbRoom w.part s = true) →
    (stopWork st r fr s w.wid).item w.wid = none ∧ ∀ x, x ≠ w.wid → (stopWork st r fr s w.wid).item x = s.item x) ∧
  (∀ (s : State) (w : Work) (n : Nat) (p : W32) (st : Status) (r : Nat) (fr : BitVec 16), s.item w.wid = some w → w.src = .ring n p →
    recorded w = true → wbRoom w.part s = false → runsOn w = false → (match w.prog with | .rail _ => False | _ => True) →
    At w (.ended (stopInfo w st s) r fr) (stopWork st r fr s w.wid)) ∧
  (∀ (s : State) (u : Nat), reaches 0 s = true → readsOnly s = false → engineExists { kind := 1, unit := u } s = true →
    2 ≤ s.ft.maxLevel.toNat → (∀ w ∈ s.work, ∀ t ∈ liveTiles w, t.running ≠ some (u / 256, u % 256)) → Completes (.ftResetEngine u) s (fun t =>
      ∃ h fr v, h.domain = u / 256 ∧ h.ctx = none ∧ HangOpened 2 false h fr s v ∧ t = s.kept (engineReset { kind := 1, unit := u } none fr v) ∧
      (t.stand (u / 256) (u % 256)).busy = false ∧ (t.stand (u / 256) (u % 256)).resident = [])) ∧
  (∀ (s : State) (p : Nat), reaches 0 s = true → readsOnly s = false → p < s.partitions → 3 ≤ s.ft.maxLevel.toNat →
    Completes (.ftResetPartition p) s (fun t => ∃ h fr u,
      h.domain = partDomain p s ∧ h.cause = Status.cancelled.code ∧ HangOpened 3 false h fr s u ∧ t = s.kept (partReset p fr u))) ∧
  (∀ (s : State) (u : Nat), reaches 0 s = true → readsOnly s = false → s.ready = true → u < 4096 → 4 ≤ s.ft.maxLevel.toNat →
    Completes (.ftResetChip u) s (fun t =>
      t.boot.stage = .lodge ∧ t.boot.cause = 3 ∧ t.boot.chipReset = true ∧ t.work = [] ∧ t.mem.hbm = s.mem.hbm ∧ t.ft.culprit = s.ft.culprit)) ∧
  (∀ (s : State) (u : Nat), reaches 0 s = true → readsOnly s = false → u < 4096 → s.ft.maxLevel.toNat < 4 →
    Completes (.ftResetChip u) s (fun t => OnlyChanges [] s t))

/-- R697 to R700, R703, R708: a save of an ACTIVE context moves it to SAVING and, once it holds nothing, to SAVED, with its event; one
that is not ACTIVE is refused with code 3; a restore of a SAVED context waits for its units and then makes it ACTIVE; a restore of an
ACTIVE one is refused with code 2; a host reset of a context runs level 1. -/
def Obligations.ContextsSavedAndRestored : Prop :=
  (∀ (s : State) (f c : Nat), reaches f s = true → readsOnly s = false → c < 4096 → ctxForeign f c s = false → saveRefused c s = false →
    Completes (.contextSave f c) s (fun t =>
      (t.ctx c).st = .saving ∧ (t.ctx c).asker = f ∧ (t.fn f).ctxRes = some 0 ∧ (∀ k, k ≠ c → t.ctx k = s.ctx k) ∧
      (∀ n ∈ connsOf c s, (t.conn n).saved = true) ∧ OnlyChanges [.host, .rc, .ft] s t)) ∧
  (∀ (s : State) (f c : Nat), reaches f s = true → readsOnly s = false → c < 4096 → ctxForeign f c s = false → (s.ctx c).st ≠ .active →
    Completes (.contextSave f c) s (fun t => t.fn f = { s.fn f with ctxRes := some 3 } ∧ OnlyChanges [.host] s t)) ∧
  (∀ (s : State) (f c : Nat), reaches f s = true → readsOnly s = false → c < 4096 → ctxForeign f c s = true →
    Completes (.contextSave f c) s (fun t => t.fn f = { s.fn f with ctxRes := some 1 } ∧ OnlyChanges [.host] s t)) ∧
  (∀ (s : State) (c : Nat), s.live = true → (s.ctx c).st = .saving → saveDone c s = true → semsOf c s = [] →
    (s.slot703 (s.ctxMap c).part).holder = none → Completes (.contextSaved c) s (fun t =>
      t.ctx c = { s.ctx c with st := .saved } ∧ (∀ k, k ≠ c → t.ctx k = s.ctx k) ∧ OnlyChanges [.host, .ft, .out] s t)) ∧
  (∀ (s : State) (f c : Nat), reaches f s = true → readsOnly s = false → c < 4096 → ctxForeign f c s = false → (s.ctx c).st = .saved →
    (s.slot703 (s.ctxMap c).part).holder = none → (s.slot703 (s.ctxMap c).part).waiting = [] → Completes (.contextRestore f c) s (fun t =>
      t.ctx c = { s.ctx c with restoring := true } ∧ (t.fn f).ctxRes = some 0 ∧ (∀ k, k ≠ c → t.ctx k = s.ctx k) ∧
      OnlyChanges [.host, .ft] s t)) ∧
  (∀ (s : State) (f c : Nat), reaches f s = true → readsOnly s = false → c < 4096 → ctxForeign f c s = false → (s.ctx c).st = .active →
    Completes (.contextRestore f c) s (fun t => t.fn f = { s.fn f with ctxRes := some 2 } ∧ OnlyChanges [.host] s t)) ∧
  (∀ (s : State) (c : Nat), s.live = true → (s.ctx c).restoring = true → connsOf c s = [] → (s.slot703 (s.ctxMap c).part).holder = none →
    Completes (.contextRestoreUnitsReserved c) s (fun t =>
      t.ctx c = { s.ctx c with st := .active, restoring := false } ∧ (∀ k, k ≠ c → t.ctx k = s.ctx k) ∧ OnlyChanges [.ft] s t)) ∧
  (∀ (s : State) (f c : Nat), reaches f s = true → readsOnly s = false → c < 4096 → ctxForeign f c s = false → 1 ≤ s.ft.maxLevel.toNat →
    Completes (.contextResetRequest f c) s (fun t => (t.fn f).ctxRes = some 0 ∧ ∃ h fr u,
      h.ctx = some c ∧ h.cause = Status.cancelled.code ∧ HangOpened 1 false h fr s u ∧ t = s.kept (ctxResult f 0 (ctxReset c fr u))))

/-- R701 to R703, R708: an acquire of a free semaphore grants it; of one held by another running context queues; of one that would
close a cycle is refused and blocks nobody; a release by the owner passes it to the oldest waiter, or frees it; by any other context is
refused with NOT_OWNER. -/
def Obligations.Semaphores : Prop :=
  (∀ (s : State) (f t k c : Nat), reaches f s = true → readsOnly s = false → k < 64 → c < 4096 → t < 16 → semOk f t c s = true →
    (s.sem (64 * (semTenant f t s).getD 0 + k)).owner = none → Completes (.semAcquire f t k c) s (fun u =>
      (u.sem (64 * (semTenant f t s).getD 0 + k)).owner = some c ∧ (u.fn f).semRes = some 0 ∧
      (∀ j, j ≠ 64 * (semTenant f t s).getD 0 + k → u.sem j = s.sem j) ∧ (∀ j, u.ctx j = s.ctx j) ∧ OnlyChanges [.host, .ft] s u)) ∧
  (∀ (s : State) (f t k c o : Nat), reaches f s = true → readsOnly s = false → k < 64 → c < 4096 → t < 16 → semOk f t c s = true →
    (s.sem (64 * (semTenant f t s).getD 0 + k)).owner = some o → o ≠ c → waitReaches c s s.ft.sems.length [o] = false →
    (s.sem (64 * (semTenant f t s).getD 0 + k)).waiters.any (fun x => x.1 == c) = false → (s.ctx o).st = .active →
    Completes (.semAcquire f t k c) s (fun u =>
      u.sem (64 * (semTenant f t s).getD 0 + k) =
        { s.sem (64 * (semTenant f t s).getD 0 + k) with waiters := (s.sem (64 * (semTenant f t s).getD 0 + k)).waiters ++ [(c, f)] } ∧
      (u.fn f).semRes = some 1 ∧ (∀ j, j ≠ 64 * (semTenant f t s).getD 0 + k → u.sem j = s.sem j) ∧ ctxRuns c u = false ∧
      (∀ j, j ≠ c → u.ctx j = s.ctx j) ∧ OnlyChanges [.host, .ft] s u)) ∧
  (∀ (s : State) (f t k c o : Nat), reaches f s = true → readsOnly s = false → k < 64 → c < 4096 → t < 16 → semOk f t c s = true →
    (s.sem (64 * (semTenant f t s).getD 0 + k)).owner = some o → o ≠ c → waitReaches c s s.ft.sems.length [o] = true →
    Completes (.semAcquire f t k c) s (fun u => u.fn f = { s.fn f with semRes := some 2 } ∧ OnlyChanges [.host] s u)) ∧
  (∀ (s : State) (f t k c : Nat), reaches f s = true → readsOnly s = false → k < 64 → c < 4096 → t < 16 → semOk f t c s = true →
    (s.sem (64 * (semTenant f t s).getD 0 + k)).owner = some c → (s.sem (64 * (semTenant f t s).getD 0 + k)).waiters = [] →
    (s.ctx c).st = .active → Completes (.semRelease f t k c) s (fun u =>
      (u.sem (64 * (semTenant f t s).getD 0 + k)).owner = none ∧ (u.fn f).semRes = some 0 ∧
      (∀ j, j ≠ 64 * (semTenant f t s).getD 0 + k → u.sem j = s.sem j) ∧ OnlyChanges [.host, .ft] s u)) ∧
  (∀ (s : State) (f t k c d g : Nat), reaches f s = true → readsOnly s = false → k < 64 → c < 4096 → t < 16 → semOk f t c s = true →
    (s.sem (64 * (semTenant f t s).getD 0 + k)).owner = some c → (s.sem (64 * (semTenant f t s).getD 0 + k)).waiters = [(d, g)] →
    (s.ctx c).st = .active → Completes (.semRelease f t k c) s (fun u =>
      u.sem (64 * (semTenant f t s).getD 0 + k) = { owner := some d, waiters := [] } ∧ (u.fn f).semRes = some 0 ∧
      (∀ j, j ≠ 64 * (semTenant f t s).getD 0 + k → u.sem j = s.sem j) ∧ OnlyChanges [.host, .ft, .out] s u)) ∧
  (∀ (s : State) (f t k c : Nat), reaches f s = true → readsOnly s = false → k < 64 → c < 4096 → t < 16 → semOk f t c s = true →
    (s.sem (64 * (semTenant f t s).getD 0 + k)).owner ≠ some c → Completes (.semRelease f t k c) s (fun u =>
      u.fn f = { s.fn f with semRes := some 3 } ∧ OnlyChanges [.host] s u))

/-! ## The Groves and their records -/

/-- R202, R212, R214, R220, R232: a matrix or vector operation whose fields are good is cut into tiles (a vector one into chunks of
65,536 elements) and numbered; one whose fields are not completes with the first cause and changes nothing else. -/
def Obligations.GroveOperationsStart : Prop :=
  (∀ (s : State) (w : Work), MayStart s w 0x20 → matChecks w s = none → Completes (.matmul w.wid) s (fun t =>
    At w (.tiles { total := tilesOf (matOf w).m (matOf w).n, cnt := (newOp w.part (matOf w).xk s).1 }) t ∧
    t.groves = { s.groves with opSeq := s.groves.opSeq + 1 } ∧ (∀ x, x ≠ w.wid → t.item x = s.item x) ∧ OnlyChanges [.work, .groves] s t)) ∧
  (∀ (s : State) (w : Work) (st : Status) (r : Nat), MayStart s w 0x20 → matChecks w s = some (st, r) → Completes (.matmul w.wid) s (fun t =>
    t = complete w st r s ∧ Gone w t ∧ OnlyChanges [.host, .work, .tt, .ft, .tn, .out] s t)) ∧
  (∀ (s : State) (w : Work), MayStart s w 0x21 → matChecks w s = none → Completes (.matmulSparse w.wid) s (fun t =>
    At w (.tiles { total := tilesOf (matOf w).m (matOf w).n, cnt := (newOp w.part (matOf w).xk s).1 }) t ∧
    t.groves = { s.groves with opSeq := s.groves.opSeq + 1 } ∧ (∀ x, x ≠ w.wid → t.item x = s.item x) ∧ OnlyChanges [.work, .groves] s t)) ∧
  (∀ (s : State) (w : Work) (st : Status) (r : Nat), MayStart s w 0x21 → matChecks w s = some (st, r) →
    Completes (.matmulSparse w.wid) s (fun t =>
      t = complete w st r s ∧ Gone w t ∧ OnlyChanges [.host, .work, .tt, .ft, .tn, .out] s t)) ∧
  (∀ (s : State) (w : Work), MayStart s w 0x22 → vecChecks w s = none → Completes (.vector w.wid) s (fun t =>
    At w (.tiles { total := ceilDiv (vecOf w).count 65536, cnt := (newOp w.part 0xFF s).1 }) t ∧
    t.groves = { s.groves with opSeq := s.groves.opSeq + 1 } ∧ (∀ x, x ≠ w.wid → t.item x = s.item x) ∧ OnlyChanges [.work, .groves] s t)) ∧
  (∀ (s : State) (w : Work) (st : Status) (r : Nat), MayStart s w 0x22 → vecChecks w s = some (st, r) → Completes (.vector w.wid) s (fun t =>
    t = complete w st r s ∧ Gone w t ∧ OnlyChanges [.host, .work, .tt, .ft, .tn, .out] s t))

/-- R237, R238, R241, R244, R246, R247: the accumulators of a computation without a fault are those of its arithmetic; the check of an
integer tile without a fault fails no line, and the check of one with a single wrong element fails its row and its column. -/
def Obligations.IntegerChecks : Prop :=
  (∀ (p : Product) (o : TileObs) (tile : Nat), o.cells = [] → (p.run o tile).1 = p.accs) ∧
  (∀ (p : Product) (o : TileObs) (tile : Nat), p.int = true → p.rows ≤ 128 → p.cols ≤ 128 → o.cells = [] → o.lines = [] →
    (p.run o tile).2 = {}) ∧
  (∀ (p : Product) (o : TileObs) (tile : Nat) (e : CellErr), p.int = true → p.rows ≤ 128 → p.cols ≤ 128 → o.cells = [e] → o.lines = [] →
    e.tile = tile → e.row < p.rows → e.col < p.cols → e.value.toNat ≠ mod32 (p.intSum e.row e.col) →
    (p.run o tile).2 = { rowFail := some e.row, colFail := some e.col })

/-- R184, R215, R218, R223, R230 to R232, R241, R249, R260, R275: the tile whose turn it is goes to an idle Stand that the order of
preference gives, which is then busy, or waits at a rank; a first tile or chunk that passes its checks and is not sampled is written,
nothing outside the output changes, and its Stand is free; with the last one the operation ends; a tile that fails its check while the
limit allows another computation is computed again, charges its physical Stand and writes nothing; a waiting tile whose wait expires
falls by one rank. -/
def Obligations.TilesAndChunks : Prop :=
  (∀ (s : State) (w : Work) (o : TileOp) (k : Nat) (y : TileSt) (x : Nat × Nat), s.item w.wid = some w → s.awake = true →
    w.prog = .tiles o → ctxGiven w s = true → (operandRefs w).any (slotLoading s) = false → standsOf w.part 0 s ≠ [] →
    dispatchable w k o.live (o.nextTile w s) s = some y → placeTile w o.cnt y s = .ok x → s.power.gated.getLsbD x.1 = false →
    Completes (.tileDispatch w.wid k) s (fun t =>
      At w (.tiles { o with live := putTile (y.startOn x s) o.live, next := if y.idx = o.next then o.next + 1 else o.next }) t ∧
      (s.stand x.1 x.2).busy = false ∧ (t.stand x.1 x.2).busy = true ∧ OnlyChanges [.work, .groves] s t)) ∧
  (∀ (s : State) (w : Work) (o : TileOp) (k r : Nat) (y : TileSt), s.item w.wid = some w → s.awake = true → w.prog = .tiles o →
    ctxGiven w s = true → (operandRefs w).any (slotLoading s) = false → standsOf w.part 0 s ≠ [] →
    dispatchable w k o.live (o.nextTile w s) s = some y → placeTile w o.cnt y s = .error r → Completes (.tileDispatch w.wid k) s (fun t =>
      At w (.tiles { o with live := putTile { y with rank := max y.rank r } o.live,
                            next := if y.idx = o.next then o.next + 1 else o.next }) t ∧ OnlyChanges [.work] s t)) ∧
  (∀ (s : State) (w : Work) (o : TileOp) (y : TileSt) (x : Nat × Nat) (obs : TileObs), s.item w.wid = some w → s.awake = true →
    (w.opcode = 0x20 ∨ w.opcode = 0x21) → w.prog = .tiles o → o.live = [y] → o.next ≠ o.total → FirstRun y x → TileReady w y.idx x s →
    passing obs (tileRun w y.idx obs s) → (matOf w).c.regionId.isSome = true → Completes (.tileComplete w.wid y.idx obs) s (fun t =>
      t.mem = ((matOf w).write (y.idx / ceilDiv (matOf w).n 128) (y.idx % ceilDiv (matOf w).n 128) (tileRun w y.idx obs s).out s).mem ∧
      (∃ z, t.item w.wid = some z ∧ ∃ p, z.prog = .tiles p ∧ p.live = [] ∧ p.written = o.written + 1 ∧ p.next = o.next ∧
        p.clamped = o.clamped + (tileRun w y.idx obs s).out.clamped ∧ p.worst = worseOp o.worst (tileStatus y)) ∧
      (t.stand x.1 x.2).busy = false ∧ (t.stand x.1 x.2).fails = (s.stand x.1 x.2).fails ∧
      (t.grove x.1).chkTiles = (s.grove x.1).chkTiles + 1 ∧ OnlyChanges [.work, .groves, .waybill, .mem, .ft, .free] s t)) ∧
  (∀ (s : State) (w : Work) (o : TileOp) (y : TileSt) (x : Nat × Nat) (obs : TileObs) (g : Region) (id off : Nat), s.item w.wid = some w →
    s.awake = true → (w.opcode = 0x20 ∨ w.opcode = 0x21) → w.prog = .tiles o → o.live = [y] → o.next = o.total → FirstRun y x →
    TileReady w y.idx x s → passing obs (tileRun w y.idx obs s) → wbRoom w.part s = true → (matOf w).c = .hbm id off → s.region id = some g →
    Completes (.tileComplete w.wid y.idx obs) s (fun t =>
      Gone w t ∧
      (∀ a, (∀ i, (2048 * (matOf w).outBits * y.idx ≤ i ∧ i < 2048 * (matOf w).outBits * (y.idx + 1)) ∨
          (2048 * (matOf w).outBits * tilesOf (matOf w).m (matOf w).n + 512 * y.idx ≤ i ∧
           i < 2048 * (matOf w).outBits * tilesOf (matOf w).m (matOf w).n + 512 * (y.idx + 1)) → a ≠ regionAddr g (off + i)) →
        hbmByte t a = hbmByte s a) ∧
      OnlyChanges [.host, .work, .groves, .waybill, .mem, .tt, .ft, .tn, .free, .out] s t)) ∧
  (∀ (s : State) (w : Work) (o : TileOp) (y : TileSt) (x : Nat × Nat) (obs : TileObs), s.item w.wid = some w → s.awake = true →
    (w.opcode = 0x20 ∨ w.opcode = 0x21) → w.prog = .tiles o → o.live = [y] → FirstRun y x → TileReady w y.idx x s →
    y.recomputes < recomputeLimit s → onFail s = false → (tileRun w y.idx obs s).lines.failed = true → obs.sramBad = none → obs.hbm = {} →
    (s.phys x.1 y.phys).st = .active → (s.phys x.1 y.phys).charges + 1 < max 1 (s.grove x.1).retireLimit.toNat →
    Completes (.tileComplete w.wid y.idx obs) s (fun t =>
      (∃ z, t.item w.wid = some z ∧ ∃ p, z.prog = .tiles p ∧ p.live.map (fun v => v.kind) = [.recompute] ∧ p.written = o.written) ∧
      t.mem = s.mem ∧ (t.stand x.1 x.2).busy = false ∧ (t.grove x.1).chkFail = (s.grove x.1).chkFail + 1 ∧
      (t.grove x.1).chkLast = lastOf x 1 (matOf w).accFmt (tileRun w y.idx obs s).lines ∧
      t.phys x.1 y.phys = { s.phys x.1 y.phys with charges := (s.phys x.1 y.phys).charges + 1 } ∧
      OnlyChanges [.work, .groves, .ft, .free] s t)) ∧
  (∀ (s : State) (w : Work) (o : TileOp) (y : TileSt) (x : Nat × Nat) (obs : TileObs), s.item w.wid = some w → s.awake = true →
    w.opcode = 0x22 → w.prog = .tiles o → o.live = [y] → o.next ≠ o.total → FirstRun y x → retiringStand s x = false →
    passing obs ((vecOf w).run s obs y.idx) → s.ft.inject.arm = false → (vecOf w).poisoned y.idx s = false →
    (vecOf w).out.regionId.isSome = true → Completes (.vectorChunkComplete w.wid y.idx obs) s (fun t =>
      t.mem = ((vecOf w).write y.idx ((vecOf w).run s obs y.idx).out s).mem ∧
      (∃ z, t.item w.wid = some z ∧ ∃ p, z.prog = .tiles p ∧ p.live = [] ∧ p.written = o.written + 1 ∧ p.next = o.next) ∧
      (t.stand x.1 x.2).busy = false ∧ OnlyChanges [.work, .groves, .waybill, .mem, .ft, .free] s t)) ∧
  (∀ (s : State) (w : Work) (o : TileOp) (k : Nat), s.item w.wid = some w → s.awake = true → w.prog = .tiles o →
    Completes (.affinityWaitExpire w.wid k) s (fun t =>
      At w (.tiles { o with live := o.live.map (fun y => { y with
        rank := if y.idx = k ∧ y.running = none ∧ y.kind = .first ∧ y.rank < 4 then y.rank + 1 else y.rank }) }) t ∧
      OnlyChanges [.work] s t))

/-- R225 to R228: a load takes the lowest base at which its units are free, the slot is LOADING, then READY with the bytes of its
source; a load into a slot that is not EMPTY fails with cause 0x09; a free of a slot makes it FREEING, then EMPTY once no earlier
operation names it; a free of an EMPTY slot completes at once. -/
def Obligations.CanopySlots : Prop :=
  (∀ (s : State) (w : Work) (b : Nat), MayStart s w 0x23 → refForeign s w.part (refAt w.body 8) = false →
    refForeign s w.part (.canopy (dat w.body 20 2) (dat w.body 21 8) 0) = false → 1 ≤ dat w.body 16 32 → dat w.body 16 32 ≤ 50331648 →
    refBad s (refAt w.body 8) (dat w.body 16 32) = false → (refAt w.body 8).regionId.isSome = true →
    (s.cslot (dat w.body 20 2) (dat w.body 21 8)).st = .empty →
    canopyBase s (dat w.body 20 2) (ceilDiv (dat w.body 16 32) 65536) = some b → Completes (.canopyLoad w.wid) s (fun t =>
      At w (.canopyLoad (dat w.body 20 2) (dat w.body 21 8)) t ∧
      t.cslot (dat w.body 20 2) (dat w.body 21 8) = { st := .loading, units := ceilDiv (dat w.body 16 32) 65536, base := b } ∧
      (∀ g k, 256 * g + k ≠ 256 * dat w.body 20 2 + dat w.body 21 8 → t.cslot g k = s.cslot g k) ∧ OnlyChanges [.work, .groves] s t)) ∧
  (∀ (s : State) (w : Work), MayStart s w 0x23 → refForeign s w.part (refAt w.body 8) = false →
    refForeign s w.part (.canopy (dat w.body 20 2) (dat w.body 21 8) 0) = false → 1 ≤ dat w.body 16 32 → dat w.body 16 32 ≤ 50331648 →
    refBad s (refAt w.body 8) (dat w.body 16 32) = false → (refAt w.body 8).regionId.isSome = true →
    (s.cslot (dat w.body 20 2) (dat w.body 21 8)).st ≠ .empty → Completes (.canopyLoad w.wid) s (fun t =>
      t = complete w .malformed 0x09 s ∧ OnlyChanges [.host, .work, .tt, .ft, .tn, .out] s t)) ∧
  (∀ (s : State) (w : Work) (g k : Nat), s.item w.wid = some w → s.awake = true → w.prog = .canopyLoad g k →
    (s.cslot g k).st = .loading → wbRoom w.part s = true → Completes (.canopyLoadComplete w.wid) s (fun t =>
      Gone w t ∧ t.cslot g k = { s.cslot g k with st := .ready } ∧
      (∀ i < dat w.body 16 32, memGet t.groves.canopy (canopyAddr s g k i) = (refRead s (refAt w.body 8) 0 (dat w.body 16 32)).getD i 0) ∧
      OnlyChanges [.host, .work, .groves, .waybill, .tt, .ft, .tn, .free, .out] s t)) ∧
  (∀ (s : State) (w : Work), MayStart s w 0x24 → refForeign s w.part (.canopy (dat w.body 20 2) (dat w.body 21 8) 0) = false →
    (s.cslot (dat w.body 20 2) (dat w.body 21 8)).st ≠ .empty → Completes (.canopyFree w.wid) s (fun t =>
      At w (.canopyFree (dat w.body 20 2) (dat w.body 21 8)) t ∧ (t.cslot (dat w.body 20 2) (dat w.body 21 8)).st = .freeing ∧
      t.groves.canopy = s.groves.canopy ∧ OnlyChanges [.work, .groves] s t)) ∧
  (∀ (s : State) (w : Work), MayStart s w 0x24 → refForeign s w.part (.canopy (dat w.body 20 2) (dat w.body 21 8) 0) = false →
    (s.cslot (dat w.body 20 2) (dat w.body 21 8)).st = .empty → wbRoom w.part s = true → Completes (.canopyFree w.wid) s (fun t =>
      Ends w .ok 0 t (fun u => OnlyChanges [.waybill, .tt, .free] s u))) ∧
  (∀ (s : State) (w : Work) (g k : Nat), s.item w.wid = some w → s.awake = true → w.prog = .canopyFree g k → wbRoom w.part s = true →
    (∀ x ∈ s.work, x.wid < w.wid → namesSlot g k x = false) → Completes (.canopyFreeComplete w.wid) s (fun t =>
      Ends w .ok 0 t (fun u => u.cslot g k = {} ∧ OnlyChanges [.groves, .waybill, .tt, .free] s u)))

/-- R262, R264, R268 to R274: a signature that ends is stored where its store has room, covers its point and lets the next point start; a
seal marks the last record, whose link is then over that mark, and asks for its signature, or ends with STATE_LOST where there is none;
records and signature blocks are copied to the host by the function that asks, and records read with CONSUME by the physical function
become consumed; a measurement hashes a whole region, is kept unless the region was written meanwhile, and is written to the host. -/
def Obligations.WaybillCommands : Prop :=
  (∀ (s : State) (q : SignReq), s.live = true → s.waybill.signing = some q → q.wids = [] → sigRoom q.part s = true →
    Completes .waybillSignatureComplete s (fun t =>
      (∃ g, (t.chain q.part).sigs.getLast? = some g ∧ g.seq = q.seq ∧ g.reason = q.reason ∧ g.link = q.link ∧ g.nonce = q.nonce ∧
        g.image = q.image ∧ g.chain = q.chain ∧ g.signedAc = q.ac) ∧
      ((s.chain q.part).chainId = q.chain → (t.chain q.part).signed = q.seq) ∧ (t.chain q.part).recs = (s.chain q.part).recs ∧
      t.waybill.signing.map (fun x => x.link) = s.waybill.waiting.head?.map (fun x => x.link) ∧ t.waybill.waiting = s.waybill.waiting.drop 1 ∧
      OnlyChanges [.waybill, .free] s t)) ∧
  (∀ (s : State) (q : SignReq) (w : Work), s.live = true → s.waybill.signing = some q → q.wids = [w.wid] → sigRoom q.part s = true →
    s.item w.wid = some w → Completes .waybillSignatureComplete s (fun t => Ends w .ok q.seq t (fun u => OnlyChanges [.waybill, .free] s u))) ∧
  (∀ (s : State) (w : Work) (r : WbRec), MayStart s w 0x81 → wbForeign w.fn (dat w.body 8 8) s = false →
    (s.chain (dat w.body 8 8)).recs.getLast? = some r → s.waybill.signing = none → s.trust.unlocked = false →
    Completes (.waybillSeal w.wid) s (fun t =>
      At w (.seal (dat w.body 8 8) r.seq) t ∧
      (t.chain (dat w.body 8 8)).recs.getLast? = some (({ r with signed := true, sealed := true }).linked (dat w.body 8 8)) ∧
      (t.chain (dat w.body 8 8)).recs.dropLast = (s.chain (dat w.body 8 8)).recs.dropLast ∧
      (∃ q, t.waybill.signing = some q ∧ q.link = (({ r with signed := true, sealed := true }).linked (dat w.body 8 8)).link ∧
        q.seq = r.seq ∧ q.reason = 3 ∧ q.wids = [w.wid] ∧ q.nonce = BitVec.ofNat 256 (dat w.body 16 256)) ∧
      OnlyChanges [.work, .waybill] s t)) ∧
  (∀ (s : State) (w : Work), MayStart s w 0x81 → wbForeign w.fn (dat w.body 8 8) s = false → (s.chain (dat w.body 8 8)).recs = [] →
    Completes (.waybillSeal w.wid) s (fun t =>
      t = complete w .stateLost 0 s ∧ OnlyChanges [.host, .work, .tt, .ft, .tn, .out] s t)) ∧
  (∀ (s : State) (w : Work) (rs : List WbRec), MayStart s w 0x80 → wbForeign w.fn (dat w.body 8 8) s = false → dat w.body 9 8 = 0 →
    rs = runFrom (dat w.body 24 64) (min (dat w.body 32 32) (dat w.body 48 32 / 256))
      ((s.chain (dat w.body 8 8)).recsOf (BitVec.ofNat 64 (dat w.body 16 64))) → rs ≠ [] → (s.chain (dat w.body 8 8)).due = false →
    (∀ x ∈ s.work, match x.prog with | .ended _ _ _ => False | _ => True) → Completes (.waybillRead w.wid) s (fun t =>
      Ends w (if rs.length < dat w.body 32 32 then .okShort else .ok) rs.length t (fun u =>
        u.out = s.out ++ [.hostWrite w.fn (dat w.body 40 64) (rs.flatMap (recBytes (dat w.body 8 8)))] ∧
        ((dat w.body 10 8).testBit 0 = true → w.fn = 0 → u.chain (dat w.body 8 8) =
          (s.chain (dat w.body 8 8)).consume (BitVec.ofNat 64 (dat w.body 16 64)) (dat w.body 24 64 + rs.length - 1)) ∧
        ((dat w.body 10 8).testBit 0 = false ∨ w.fn ≠ 0 → u.waybill = s.waybill) ∧ OnlyChanges [.waybill, .out] s u))) ∧
  (∀ (s : State) (w : Work) (gs : List WbSig), MayStart s w 0x80 → wbForeign w.fn (dat w.body 8 8) s = false → dat w.body 9 8 = 1 →
    gs = ((s.chain (dat w.body 8 8)).sigs.filter (fun g => g.chain == (if dat w.body 16 64 = 0 then (s.chain (dat w.body 8 8)).chainId
      else BitVec.ofNat 64 (dat w.body 16 64)) && decide (g.seq ≥ dat w.body 24 64))).take (min (dat w.body 32 32) (dat w.body 48 32 / 256)) →
    gs ≠ [] → Completes (.waybillRead w.wid) s (fun t =>
      Ends w (if gs.length < dat w.body 32 32 then .okShort else .ok) gs.length t (fun u =>
        u.out = s.out ++ [.hostWrite w.fn (dat w.body 40 64) (gs.flatMap (sigBytes (dat w.body 8 8)))] ∧ OnlyChanges [.out] s u))) ∧
  (∀ (s : State) (w : Work), MayStart s w 0x80 → wbForeign w.fn (dat w.body 8 8) s = false → dat w.body 9 8 = 2 →
    (∀ r ∈ (s.chain (dat w.body 8 8)).recsOf (BitVec.ofNat 64 (dat w.body 16 64)), r.seq ≠ dat w.body 24 64) →
    Completes (.waybillRead w.wid) s (fun t => t = complete w .stateLost 0 s ∧ OnlyChanges [.host, .work, .tt, .ft, .tn, .out] s t)) ∧
  (∀ (s : State) (w : Work) (g : Region), MayStart s w 0x82 → s.region (dat w.body 8 16) = some g → wbForeign w.fn g.part s = false →
    Completes (.waybillMeasure w.wid) s (fun t =>
      At w (.measure (dat w.body 8 16)) t ∧ t.waybill = { s.waybill with measuring := s.waybill.measuring ++ [dat w.body 8 16] } ∧
      OnlyChanges [.work, .waybill] s t)) ∧
  (∀ (s : State) (w : Work) (id : Nat) (g : Region) (d : Digest), s.item w.wid = some w → s.awake = true → w.prog = .measure id →
    s.region id = some g → d = sha384Of (fun i => memGet s.mem.hbm (regionAddr g i)) g.size →
    Completes (.waybillMeasureComplete w.wid) s (fun t => Ends w .ok g.size t (fun u =>
      u.out = s.out ++ [.hostWrite w.fn (dat w.body 16 64) (digestBytes d)] ∧
      (id ∈ s.waybill.measuring → tget u.waybill.measure id none = some d) ∧
      (id ∉ s.waybill.measuring → u.waybill.measure = s.waybill.measure) ∧ OnlyChanges [.waybill, .out] s u)))

/-! ## Key-value lists and attention -/

/-- R285, R288, R289, R316, R324, R330: a list is created in a free page of its pool, which is then taken, with the header the spec
gives, and RESULT is its reference; without a free page beyond the pool's reservations the create ends with ADMIT_MEMORY and writes
nothing; a freeze sets FROZEN and the entries it covers; a free makes the list FREEING and, once no earlier operation uses it, returns
its pages. -/
def Obligations.KvListsLiveAndDie : Prop :=
  (∀ (s : State) (w : Work) (g : Region), MayStart s w 0x30 → s.region (dat w.body 8 8) = some g → g.part = w.part → g.kind = 1 →
    (geoElem (dat w.body 13 8)).isSome = true → fmtEnabled (dat w.body 13 8 / 16) s = true → geoOk (dat w.body 13 8) = true →
    1 ≤ dat w.body 10 16 → dat w.body 10 16 ≤ 1008 → 1 ≤ dat w.body 12 8 → dat w.body 12 8 ≤ 64 → (s.pool g.id).reserved < poolFree g s →
    wbRoom w.part s = true → Completes (.kvListCreate w.wid) s (fun t => ∃ p, Ends w .ok (mkRef g.id (65536 * p)) t (fun u =>
      u.mem.hbm = regionPut g (65536 * p) (newHeader (dat w.body 10 16) (dat w.body 12 8) (dat w.body 13 8) g.id w.tenant (65536 * p)) s.mem.hbm ∧
      p ∈ (u.pool g.id).used ∧ (∀ q ∈ (s.pool g.id).used, q ∈ (u.pool g.id).used) ∧ (u.pool g.id).reserved = (s.pool g.id).reserved ∧
      OnlyChanges [.mem, .waybill, .tt, .free] s u))) ∧
  (∀ (s : State) (w : Work) (g : Region), MayStart s w 0x30 → s.region (dat w.body 8 8) = some g → g.part = w.part → g.kind = 1 →
    (geoElem (dat w.body 13 8)).isSome = true → fmtEnabled (dat w.body 13 8 / 16) s = true → geoOk (dat w.body 13 8) = true →
    1 ≤ dat w.body 10 16 → dat w.body 10 16 ≤ 1008 → 1 ≤ dat w.body 12 8 → dat w.body 12 8 ≤ 64 → poolFree g s ≤ (s.pool g.id).reserved →
    wbRoom w.part s = true → Completes (.kvListCreate w.wid) s (fun t => Ends w .admitMemory 0 t (fun u =>
      (u.ttregs w.part).refusedMem = satBv (s.ttregs w.part).refusedMem 1 ∧ OnlyChanges [.waybill, .tt, .free] s u))) ∧
  (∀ (s : State) (w : Work) (h : ListHdr), ListReady s w 0x34 h → dat w.body 16 32 % geoT h.geometry = 0 → h.frozen ≤ dat w.body 16 32 →
    dat w.body 16 32 ≤ h.commit → wbRoom w.part s = true → Completes (.kvFreeze w.wid) s (fun t => Ends w .ok 0 t (fun u =>
      u.mem.hbm = (putHdr h 4 4 (dat w.body 16 32) (freezeEnts h 0 (dat w.body 16 32 / geoT h.geometry * h.g) s)).mem.hbm ∧
      OnlyChanges [.mem, .waybill, .tt, .free] s u))) ∧
  (∀ (s : State) (w : Work) (h : ListHdr), ListReady s w 0x34 h → dat w.body 16 32 < h.frozen ∨ h.commit < dat w.body 16 32 →
    Completes (.kvFreeze w.wid) s (fun t => t = complete w .malformed 0x09 s ∧ OnlyChanges [.host, .work, .tt, .ft, .tn, .out] s t)) ∧
  (∀ (s : State) (w : Work) (h : ListHdr), ListReady s w 0x37 h → Completes (.kvListFree w.wid) s (fun t =>
    At w .list t ∧ t.mem.hbm = regionPut h.region (h.off + 22) [2] s.mem.hbm ∧ OnlyChanges [.work, .mem, .waybill] s t)) ∧
  (∀ (s : State) (w : Work) (h : ListHdr), s.item w.wid = some w → s.awake = true → w.prog = .list →
    (∀ x ∈ s.work, x.wid < w.wid → usesList s (dat w.body 8 64) x = false) → listAt s (dat w.body 8 64) = some h → h.st = 2 →
    wbRoom w.part s = true → Completes (.kvListFreeComplete w.wid) s (fun t => Ends w .ok 0 t (fun u =>
      (u.pool h.pool).used = (s.pool h.pool).used.filter (fun x => !(listPages s h).any (· == x)) ∧
      (∀ g l, ∀ r ∈ (u.stand g l).resident, r.key.ofList (dat w.body 8 64) = false) ∧ OnlyChanges [.groves, .mem, .waybill, .tt, .free] s u)))

/-- R317 to R321, R325: a copy of frozen pages to a DDR5 region codes 16 blocks a page; a rebind rewrites the entries of its range and
ends at once; a fetch of pages that are in HBM ends at once, a fetch of a DDR5 page takes a page of the pool and reads its 16 blocks; a
page left by a rebind returns to its pool once the operations that may read it have ended; a key slot below 4,096 is bound, or cleared,
for its own tenant. -/
def Obligations.KvTiersAndKeySlots : Prop :=
  (∀ (s : State) (w : Work) (h : ListHdr), ListReady s w 0x35 h → firstFail (spillChecks w h s) = none → dat w.body 16 8 ≠ 1 →
    dat w.body 17 8 = 1 → hasCodec w.part s = true → (∀ k < (pageRange w h).2, (pageEnt s h ((pageRange w h).1 + k)).tier = 0) →
    Completes (.kvSpill w.wid) s (fun t =>
      At w (.coding { total := 16 * (pageRange w h).2 }) t ∧
      (t.ddrRegion (locRegion (fld (dat w.body 32 64) 0 46))).inFlight =
        (s.ddrRegion (locRegion (fld (dat w.body 32 64) 0 46))).inFlight + 16 * (pageRange w h).2 ∧ OnlyChanges [.work, .ddr] s t)) ∧
  (∀ (s : State) (w : Work) (h : ListHdr) (readers : List Nat), ListReady s w 0x35 h → firstFail (spillChecks w h s) = none →
    dat w.body 16 8 = 1 → wbRoom w.part s = true →
    readers = (s.work.filter (fun x => decide (x.wid < w.wid) && usesList s (dat w.body 8 64) x)).map (fun x => x.wid) →
    Completes (.kvSpill w.wid) s (fun t => Ends w .ok 0 t (fun u =>
      u.mem = (rebindPages w h readers (pageRange w h).1 (pageRange w h).2 s).mem ∧ OnlyChanges [.mem, .waybill, .tt, .free] s u))) ∧
  (∀ (s : State) (w : Work) (h : ListHdr), ListReady s w 0x36 h → (pageRange w h).1 + (pageRange w h).2 ≤ h.pages →
    (∀ k < (pageRange w h).2, (pageEnt s h ((pageRange w h).1 + k)).tier = 0) → wbRoom w.part s = true → Completes (.kvFetch w.wid) s (fun t =>
      Ends w .ok 0 t (fun u => OnlyChanges [.waybill, .tt, .free] s u))) ∧
  (∀ (s : State) (w : Work) (h : ListHdr) (g : Region) (e : PageEnt), ListReady s w 0x36 h → (pageRange w h).1 + 1 ≤ h.pages →
    (pageRange w h).2 = 1 → pageEnt s h (pageRange w h).1 = e → e.tier = 1 → hasCodec w.part s = true → s.region h.pool = some g →
    (s.pool g.id).reserved < poolFree g s → (∀ j < 16, mayRead (locRegion e.loc) (16 * locPage e.loc + j) w.tenant s = true) →
    Completes (.kvFetch w.wid) s (fun t =>
      (∃ p, At w (.fetching { total := 16, pages := [((pageRange w h).1, p)] }) t ∧ p ∈ (t.pool g.id).used) ∧
      t.sleeper.reads.length = s.sleeper.reads.length + 16 ∧ t.mem.hbm = s.mem.hbm ∧ OnlyChanges [.work, .mem, .sleeper, .ddr, .free] s t)) ∧
  (∀ (s : State) (pool page : Nat), s.live = true →
    (s.pool pool).waiting.any (fun x => x.1 == page && x.2.all (fun i => (s.item i).isNone)) = true →
    Completes (.rebindPageReturn pool page) s (fun t =>
      page ∉ (t.pool pool).used ∧ (∀ q, q ≠ page → (q ∈ (t.pool pool).used ↔ q ∈ (s.pool pool).used)) ∧
      (∀ x ∈ (t.pool pool).waiting, x.1 ≠ page) ∧ t.mem.hbm = s.mem.hbm ∧ OnlyChanges [.mem] s t)) ∧
  (∀ (s : State) (w : Work), MayStart s w 0x38 → dat w.body 8 16 < 4096 →
    ((s.keySlot (dat w.body 8 16)).bound = true → (s.keySlot (dat w.body 8 16)).tenant = w.tenant) → wbRoom w.part s = true →
    Completes (.kvKeyslotSet w.wid) s (fun t => Ends w .ok 0 t (fun u =>
      ((dat w.body 16 8).testBit 0 = true → u.keySlot (dat w.body 8 16) = {}) ∧
      ((dat w.body 16 8).testBit 0 = false → u.keySlot (dat w.body 8 16) =
        { bound := true, tenant := w.tenant, node := dat w.body 10 7, cls := dat w.body 11 3, regionKey := BitVec.ofNat 32 (dat w.body 12 32) }) ∧
      (∀ k, k ≠ dat w.body 8 16 → u.keySlot k = s.keySlot k) ∧ u.mem.hbm = s.mem.hbm ∧ OnlyChanges [.mem, .waybill, .tt, .free] s u))) ∧
  (∀ (s : State) (w : Work), MayStart s w 0x38 → 4096 ≤ dat w.body 8 16 → Completes (.kvKeyslotSet w.wid) s (fun t =>
    t = complete w .malformed 0x08 s ∧ OnlyChanges [.host, .work, .tt, .ft, .tn, .out] s t))

/-- R290 to R296: a scatter whose fields are good waits for the turns of its sequences; in its turn a sequence whose LENGTH is not the
layer's COMMIT ends with MALFORMED and cause 0x06 and writes nothing but its STATUS; else its rows, commits and STATUS are what R291 to
R294 give; the last sequence ends the scatter, whose RESULT counts the good and the failed. -/
def Obligations.KvScatter : Prop :=
  (∀ (s : State) (w : Work), MayStart s w 0x31 → scatterChecks w s = none → Completes (.kvScatter w.wid) s (fun t =>
    At w (.scatter { seqs := List.replicate (dat w.body 12 32) {} }) t ∧ OnlyChanges [.work] s t)) ∧
  (∀ (s : State) (w : Work) (st : Status) (r : Nat), MayStart s w 0x31 → scatterChecks w s = some (st, r) → Completes (.kvScatter w.wid) s (fun t =>
    t = complete w st r s ∧ OnlyChanges [.host, .work, .tt, .ft, .tn, .out] s t)) ∧
  (∀ (s : State) (w : Work) (h : ListHdr), s.item w.wid = some w → s.awake = true → ctxGiven w s = true → w.prog = .scatter { seqs := [{}] } →
    scatterTurn w 0 s = true → wbRoom w.part s = true → listAt s (seqRec s (refAt w.body 16) 0).list = some h →
    (seqRec s (refAt w.body 16) 0).length ≠ listCommit s h (dat w.body 8 16) → Completes (.scatterTurn w.wid 0) s (fun t =>
      Ends w .okShort (2 ^ 32) t (fun u => u.mem = (refWrite (refAt w.body 16) 48 [Status.malformed.code] s).mem ∧
        OnlyChanges [.groves, .mem, .waybill, .tt, .free] s u))) ∧
  (∀ (s : State) (w : Work) (o : SeqOp) (r : Status × Nat × State), s.item w.wid = some w → s.awake = true → ctxGiven w s = true →
    w.prog = .scatter o → o.seqs = [{}, {}] → scatterTurn w 0 s = true → scatterSeq w (seqRec s (refAt w.body 16) 0) s = r →
    Completes (.scatterTurn w.wid 0) s (fun t =>
      At w (.scatter (o.done 0 r.1 r.2.1)) t ∧ t.mem = (putStatus (refAt w.body 16) 0 r.1 r.2.2).mem ∧
      OnlyChanges [.work, .groves, .mem, .waybill, .tt, .free] s t)) ∧
  (∀ (s : State) (w : Work) (h : ListHdr) (g : Region) (q : SeqRec), q = seqRec s (refAt w.body 16) 0 → listAt s q.list = some h →
    s.region h.pool = some g → q.length = listCommit s h (dat w.body 8 16) → listOwner q.list s = none →
    (∀ b, q.length / geoT h.geometry ≤ b → b ≤ (q.length + q.qCount - 1) / geoT h.geometry →
      (pageEnt s h (pageIdx h b (dat w.body 8 16) 0)).tier ≠ 3) →
    (scatterSeq w q s).1 = (if (srcRows s q).any (fun r => rowPoisoned w h r s) then .poisonConsumed else .ok))

/-- R298 to R303, R309 to R312: an attention operation, forward or backward, whose fields are good waits for the commits of its
sequences, one whose fields are not completes with the first cause; a sequence whose COMMIT has come starts its units; one whose wait
expires fails with cause 0x07 and only its STATUS is written; a unit that passes its check and is not the last of its sequence ends with
no byte of HBM written, its Stand free and its pages, the latest first, resident there. -/
def Obligations.Attention : Prop :=
  (∀ (s : State) (w : Work), MayStart s w 0x32 → attChecks w s = none → standsOf w.part 0 s ≠ [] → Completes (.attend w.wid) s (fun t =>
    At w (.attend { seqs := List.replicate (attOf w s).n {}, cnt := (newOp w.part (attOf w s).xk s).1 }) t ∧
    t.groves = { s.groves with opSeq := s.groves.opSeq + 1 } ∧ OnlyChanges [.work, .groves] s t)) ∧
  (∀ (s : State) (w : Work) (st : Status) (r : Nat), MayStart s w 0x32 → attChecks w s = some (st, r) → Completes (.attend w.wid) s (fun t =>
    t = complete w st r s ∧ OnlyChanges [.host, .work, .tt, .ft, .tn, .out] s t)) ∧
  (∀ (s : State) (w : Work), MayStart s w 0x33 → attChecks w s = none → standsOf w.part 0 s ≠ [] → Completes (.attendBackward w.wid) s (fun t =>
    At w (.attend { seqs := List.replicate (attOf w s).n {}, cnt := (newOp w.part (attOf w s).xk s).1 }) t ∧
    t.groves = { s.groves with opSeq := s.groves.opSeq + 1 } ∧ OnlyChanges [.work, .groves] s t)) ∧
  (∀ (s : State) (w : Work) (st : Status) (r : Nat), MayStart s w 0x33 → attChecks w s = some (st, r) →
    Completes (.attendBackward w.wid) s (fun t => t = complete w st r s ∧ OnlyChanges [.host, .work, .tt, .ft, .tn, .out] s t)) ∧
  (∀ (s : State) (w : Work) (o : SeqOp) (q : SeqRec) (h : ListHdr), s.item w.wid = some w → s.awake = true → w.prog = .attend o → o.seqs = [{}] →
    (attRecs w s)[0]? = some q → listAt s q.list = some h → q.length ≤ listCommit s h (attOf w s).layer → unitsOf w s 0 q ≠ [] →
    Completes (.commitWaitSatisfied w.wid 0) s (fun t =>
      At w (.attend { o with seqs := [{ phase := .running, units := (unitsOf w s 0 q).length }] }) t ∧ OnlyChanges [.work] s t)) ∧
  (∀ (s : State) (w : Work) (o : SeqOp) (k : Nat) (x : SeqSt), s.item w.wid = some w → s.awake = true → w.prog = .attend o →
    o.seqs[k]? = some x → x.phase = .waiting → (o.done k .malformed 0x07).seqs.all (fun q => q.phase == .done) = false →
    Completes (.commitWaitExpire w.wid k) s (fun t =>
      At w (.attend (o.done k .malformed 0x07)) t ∧ t.mem = (refWrite (attOf w s).table (64 * k + 48) [Status.malformed.code] s).mem ∧
      OnlyChanges [.work, .groves, .mem, .waybill] s t)) ∧
  (∀ (s : State) (w : Work) (o : SeqOp) (y : TileSt) (q : SeqRec) (h : ListHdr) (x : Nat × Nat) (z : SeqSt) (obs : TileObs),
    s.item w.wid = some w → s.awake = true → w.prog = .attend o → o.parts = [y] → FirstRun y x → retiringStand s x = false →
    (attRecs w s)[unitSeq y.idx]? = some q → listAt s q.list = some h → unitPoison w s (unitSeq y.idx) q h y.idx = some false →
    badResident x ((unitTiles w s q h y.idx).map (fun r => r.key)) s = false → passing obs (unitRun w s obs q h y.idx) →
    s.ft.inject.arm = false → o.seqs[unitSeq y.idx]? = some z →
    (o.ended.filter (fun e => unitSeq e.unit == unitSeq y.idx)).length + 1 < z.units → Completes (.attendUnitComplete w.wid y.idx obs) s (fun t =>
      (∃ v p, t.item w.wid = some v ∧ v.prog = .attend p ∧ p.parts = [] ∧ p.seqs = o.seqs ∧
        p.ended = o.ended ++ [{ unit := y.idx, again := y.again, out := (unitRun w s obs q h y.idx).out }]) ∧
      t.mem = { s.mem with kvUnits := s.mem.kvUnits + 1 } ∧ (t.stand x.1 x.2).busy = false ∧
      (t.stand x.1 x.2).resident = ((holdTiles x (unitTiles w s q h y.idx) s).stand x.1 x.2).resident ∧
      OnlyChanges [.work, .groves, .mem, .ft, .free] s t))

/-! ## The DDR5 tier -/

/-- R450, R462 to R469: a declaration that the tests admit and that finds enough units free allocates the lowest of them and is
UNSEALED once its record places are written, or at once with RESTORE; one the tests refuse ends with ADMIT_MEMORY and the reason; seals,
unseals, retirements and pins change the region's state as the table gives; a drained region that was RETIRING is undeclared and its
tenant's use falls; a tenant's CAP, and a FLOOR that keeps the floor rules, are written. -/
def Obligations.TierRegions : Prop :=
  (∀ (s : State) (w : Work) (map : List Nat), TierReady s w 0x50 → declareChecks w map s = none →
    admitUnits w.tenant (dat w.body 12 32) ((dat w.body 9 8).testBit 1) s = none → dat w.body 12 32 ≤ ddrFree s → (dat w.body 9 8).testBit 0 = false →
    Completes (.mtDdrDeclare w.wid map) s (fun t =>
      At w (.ddrInit (dat w.body 8 8)) t ∧ (t.ddrRegion (dat w.body 8 8)).map = lowestFree (dat w.body 12 32) (unitsUsed s) ∧
      (t.ddrRegion (dat w.body 8 8)).st = .undeclared ∧ (t.ddrRegion (dat w.body 8 8)).tenant = w.tenant ∧
      (t.ddrRegion (dat w.body 8 8)).units = dat w.body 12 32 ∧ (t.share w.tenant).used = (s.share w.tenant).used + dat w.body 12 32 ∧
      t.out = s.out ++ [.hostWrite w.fn (dat w.body 24 64) ((lowestFree (dat w.body 12 32) (unitsUsed s)).flatMap (leBytes 4))] ∧
      (∀ k, k ≠ dat w.body 8 8 → t.ddrRegion k = s.ddrRegion k) ∧ OnlyChanges [.work, .ddr, .out] s t)) ∧
  (∀ (s : State) (w : Work) (map : List Nat), TierReady s w 0x50 → declareChecks w map s = none →
    admitUnits w.tenant (dat w.body 12 32) ((dat w.body 9 8).testBit 1) s = none → dat w.body 12 32 ≤ ddrFree s → (dat w.body 9 8).testBit 0 = true →
    Completes (.mtDdrDeclare w.wid map) s (fun t => Ends w .ok (dat w.body 12 32) t (fun u =>
      (u.ddrRegion (dat w.body 8 8)).st = .unsealed ∧ (u.ddrRegion (dat w.body 8 8)).map = map ∧ OnlyChanges [.ddr] s u))) ∧
  (∀ (s : State) (w : Work) (map : List Nat) (r : Nat), TierReady s w 0x50 → declareChecks w map s = none →
    admitUnits w.tenant (dat w.body 12 32) ((dat w.body 9 8).testBit 1) s = some r → Completes (.mtDdrDeclare w.wid map) s (fun t =>
      t = complete w .admitMemory r s ∧ OnlyChanges [.host, .work, .tt, .ft, .tn, .out] s t)) ∧
  (∀ (s : State) (w : Work) (id : Nat), s.item w.wid = some w → s.awake = true → w.prog = .ddrInit id →
    Completes (.ddrRecordInitComplete w.wid) s (fun t => Ends w .ok (s.ddrRegion id).units t (fun u =>
      u.ddrRegion id = { s.ddrRegion id with st := .unsealed } ∧ (∀ k, k ≠ id → u.ddrRegion k = s.ddrRegion k) ∧ OnlyChanges [.ddr] s u))) ∧
  (∀ (s : State) (w : Work), TierReady s w 0x51 → regionChecks w (· == .unsealed) s = none → writesBefore w (dat w.body 8 8) s = false →
    Completes (.mtDdrSeal w.wid) s (fun t => Ends w .ok 0 t (fun u =>
      u.ddrRegion (dat w.body 8 8) = { s.ddrRegion (dat w.body 8 8) with st := .sealed, lastUse := s.clk.sc } ∧
      (∀ k, k ≠ dat w.body 8 8 → u.ddrRegion k = s.ddrRegion k) ∧ OnlyChanges [.ddr] s u))) ∧
  (∀ (s : State) (w : Work), TierReady s w 0x51 → regionChecks w (· == .unsealed) s = none → writesBefore w (dat w.body 8 8) s = true →
    Completes (.mtDdrSeal w.wid) s (fun t => At w (.ddr (dat w.body 8 8)) t ∧ OnlyChanges [.work] s t)) ∧
  (∀ (s : State) (w : Work), TierReady s w 0x52 → regionChecks w (· == .sealed) s = none → Completes (.mtDdrUnseal w.wid) s (fun t =>
    At w (.ddr (dat w.body 8 8)) t ∧ t.ddrRegion (dat w.body 8 8) = { s.ddrRegion (dat w.body 8 8) with st := .unsealing } ∧
    (∀ k, k ≠ dat w.body 8 8 → t.ddrRegion k = s.ddrRegion k) ∧ OnlyChanges [.work, .ddr] s t)) ∧
  (∀ (s : State) (w : Work), TierReady s w 0x53 → regionChecks w (· != .retiring) s = none → Completes (.mtDdrRetire w.wid) s (fun t =>
    At w (.ddr (dat w.body 8 8)) t ∧ t.ddrRegion (dat w.body 8 8) = { s.ddrRegion (dat w.body 8 8) with st := .retiring } ∧
    (∀ k, k ≠ dat w.body 8 8 → t.ddrRegion k = s.ddrRegion k) ∧ OnlyChanges [.work, .ddr] s t)) ∧
  (∀ (s : State) (w : Work), TierReady s w 0x56 → regionChecks w (fun _ => true) s = none → (dat w.body 9 8).testBit 0 = true →
    (s.ddrRegion (dat w.body 8 8)).pin = false →
    (s.share (s.ddrRegion (dat w.body 8 8)).tenant).pinned + (s.ddrRegion (dat w.body 8 8)).units ≤
      (s.share (s.ddrRegion (dat w.body 8 8)).tenant).floor.toNat → Completes (.mtDdrPin w.wid) s (fun t => Ends w .ok 0 t (fun u =>
      (u.ddrRegion (dat w.body 8 8)).pin = true ∧ (u.share (s.ddrRegion (dat w.body 8 8)).tenant).pinned =
        (s.share (s.ddrRegion (dat w.body 8 8)).tenant).pinned + (s.ddrRegion (dat w.body 8 8)).units ∧ OnlyChanges [.ddr] s u))) ∧
  (∀ (s : State) (w : Work), TierReady s w 0x56 → regionChecks w (fun _ => true) s = none → (dat w.body 9 8).testBit 0 = true →
    (s.ddrRegion (dat w.body 8 8)).pin = false →
    (s.share (s.ddrRegion (dat w.body 8 8)).tenant).floor.toNat <
      (s.share (s.ddrRegion (dat w.body 8 8)).tenant).pinned + (s.ddrRegion (dat w.body 8 8)).units →
    Completes (.mtDdrPin w.wid) s (fun t => t = complete w .admitMemory 0x04 s ∧ OnlyChanges [.host, .work, .tt, .ft, .tn, .out] s t)) ∧
  (∀ (s : State) (id : Nat) (w : Work), s.live = true → (s.ddrRegion id).inFlight = 0 → (s.ddrRegion id).st = .unsealing →
    waiterOf id 0x52 s = some w → Completes (.ddrRegionInFlightDrained id) s (fun t => Ends w .ok 0 t (fun u =>
      u.ddrRegion id = { s.ddrRegion id with st := .unsealed } ∧ OnlyChanges [.ddr] s u))) ∧
  (∀ (s : State) (id : Nat), s.live = true → (s.ddrRegion id).inFlight = 0 → (s.ddrRegion id).st = .retiring →
    waiterOf id 0x53 s = none → (∀ x ∈ s.work, match x.prog with | .ddrEvict _ _ => False | _ => True) →
    Completes (.ddrRegionInFlightDrained id) s (fun t =>
      t.ddrRegion id = {} ∧ (t.share (s.ddrRegion id).tenant).used = (s.share (s.ddrRegion id).tenant).used - (s.ddrRegion id).units ∧
      (∀ k, k ≠ id → t.ddrRegion k = s.ddrRegion k) ∧ OnlyChanges [.ddr] s t)) ∧
  (∀ (s : State) (k : Nat) (v : W32), writes 0 s = true → k < 16 → Completes (.mtTenantWrite k true v) s (fun t =>
    t.share k = { s.share k with cap := v.setWidth 21 } ∧ (∀ j, j ≠ k → t.share j = s.share j) ∧ OnlyChanges [.ddr] s t)) ∧
  (∀ (s : State) (k : Nat) (v : W32), writes 0 s = true → k < 16 → (s.share k).pinned ≤ (v.setWidth 21).toNat →
    ((List.range 16).map (fun j => if j = k then 0 else (s.share j).floor.toNat)).sum + (v.setWidth 21).toNat ≤ s.ddr.units →
    Completes (.mtTenantWrite k false v) s (fun t =>
      t.share k = { s.share k with floor := v.setWidth 21 } ∧ (∀ j, j ≠ k → t.share j = s.share j) ∧ OnlyChanges [.ddr] s t)) ∧
  (∀ (s : State) (k : Nat) (v : W32), writes 0 s = true → k < 16 → (v.setWidth 21).toNat < (s.share k).pinned →
    Completes (.mtTenantWrite k false v) s (fun t => OnlyChanges [] s t))

/-- R346 to R354, R360, R451, R454 to R458, R471, R473, R479: a store codes one block for each 4 KiB, a load reads as many places as it asks
for; a coded block is written to its place with the region's bindings; a read whose check bits pass joins the end of the expand queue, one
that stays uncorrectable is counted; the block at the front is checked, expanded and, for a load, written at its destination. -/
def Obligations.TierBlocks : Prop :=
  (∀ (s : State) (w : Work), MayStart s w 0x54 → storeChecks w s = none → hasCodec w.part s = true → Completes (.mtStore w.wid) s (fun t =>
    At w (.coding { total := ceilDiv (dat w.body 16 32) 4096 }) t ∧
    t.ddrRegion (dat w.body 20 8) = { s.ddrRegion (dat w.body 20 8) with
      inFlight := (s.ddrRegion (dat w.body 20 8)).inFlight + ceilDiv (dat w.body 16 32) 4096 } ∧ OnlyChanges [.work, .ddr] s t)) ∧
  (∀ (s : State) (w : Work), MayStart s w 0x55 → loadChecks w s = none → hasCodec w.part s = true → Completes (.mtLoad w.wid) s (fun t =>
    At w (.fetching { total := dat w.body 28 32 }) t ∧ t.sleeper.reads.length = s.sleeper.reads.length + dat w.body 28 32 ∧
    (t.ddrRegion (dat w.body 20 8)).inFlight = (s.ddrRegion (dat w.body 20 8)).inFlight + dat w.body 28 32 ∧
    OnlyChanges [.work, .ddr, .sleeper] s t)) ∧
  (∀ (s : State) (w : Work) (st : Status) (r : Nat), MayStart s w 0x55 → loadChecks w s = some (st, r) → Completes (.mtLoad w.wid) s (fun t =>
    t = complete w st r s ∧ OnlyChanges [.host, .work, .tt, .ft, .tn, .out] s t)) ∧
  (∀ (s : State) (w : Work) (b : BlockOp) (i : Nat) (plain stream : List Byte), s.item w.wid = some w → s.awake = true →
    (s.ctx w.context).st ≠ .saved → w.opcode = 0x54 → w.prog = .coding b → i < b.total → i ∉ b.endedIdx → placeOwed w i s = false →
    b.ended + 1 < b.total → b.acks = [] → codePlain w i s = some (some plain) →
    (needsStream (codecOf w s) plain = true → streamFits (codecOf w s) plain stream = true) →
    Completes (.blockCodingComplete w.wid i stream) s (fun t =>
      t.ddr.chunks = (writePlace (dat w.body 20 8) (dat w.body 24 32 + i) (codeBlock (codecOf w s)
        (s.ddrRegion (dat w.body 20 8)).keyIdx.toNat (Config.random s.free) (sleeperKey s w.tenant false) plain stream) s).ddr.chunks ∧
      t.ddrRegion (dat w.body 20 8) = { s.ddrRegion (dat w.body 20 8) with inFlight := (s.ddrRegion (dat w.body 20 8)).inFlight - 1 } ∧
      (∃ z p, t.item w.wid = some z ∧ z.prog = .coding p ∧ p.ended = b.ended + 1 ∧ p.endedIdx = b.endedIdx ++ [i] ∧ p.worst = b.worst) ∧
      OnlyChanges [.work, .sleeper, .ddr, .ft, .free] s t)) ∧
  (∀ (s : State) (rd : BlockRead) (obs : DdrObs) (b : Block), s.awake = true → s.readNo rd.rid = some rd → rd.remote = false →
    rd.arrived = none → rd.ended = none → servedNow s rd = true → s.ft.inject.arm = false → placeCheck s rd.region rd.place obs = .ok b →
    Completes (.ddr5ReadReturn rd.rid obs) s (fun t =>
      t.sleeper.reads = s.sleeper.reads.filter (fun r => r.rid != rd.rid) ++ [{ rd with
        arrived := some b, station := channelStation (placeChannel s (tierPlace (s.ddrRegion rd.region) rd.place)) }] ∧
      t.ddr.ce = s.ddr.ce + obs.corrected ∧ (t.ddrRegion rd.region).inFlight = (s.ddrRegion rd.region).inFlight - 1 ∧
      OnlyChanges [.sleeper, .ddr, .ft] s t)) ∧
  (∀ (s : State) (rd : BlockRead) (obs : DdrObs) (n : Nat), s.awake = true → s.readNo rd.rid = some rd → rd.remote = false →
    rd.arrived = none → rd.ended = none → servedNow s rd = true → s.ft.inject.arm = false →
    placeCheck s rd.region rd.place obs = .error (.poisonConsumed, n) → oldestRead rd.forw s = some rd → s.item rd.forw.wid = none →
    Completes (.ddr5ReadReturn rd.rid obs) s (fun t =>
      t.readNo rd.rid = none ∧ t.ddr.ue = s.ddr.ue + n ∧ t.ddr.macFail = s.ddr.macFail ∧ OnlyChanges [.sleeper, .ddr, .ft] s t)) ∧
  (∀ (s : State) (rd : BlockRead) (obs : DdrObs), servedNow s rd = false → s.readNo rd.rid = some rd →
    Completes (.ddr5ReadReturn rd.rid obs) s (fun t => OnlyChanges [] s t)) ∧
  (∀ (s : State) (rd : BlockRead) (w : Work) (x : Block) (b : BlockOp) (plain : List Byte), s.awake = true → s.readNo rd.rid = some rd →
    rd.arrived = some x → rd.ended = none → s.sleeper.reads.filter (fun r => sameConsumer r.forw rd.forw) = [rd] →
    s.item rd.forw.wid = some w → w.opcode = 0x55 → w.prog = .fetching b → b.ended + 1 < b.total →
    nextExpand rd.part s = some rd → hasCodec rd.part s = true → s.ft.inject.arm = false →
    checkBlock (s.keyInForce rd.tenant rd.remote) (sleeperKey s rd.tenant rd.remote) false x = .ok plain → Completes (.blockExpand rd.rid) s (fun t =>
      At w (.fetching { b with ended := b.ended + 1, delivered := b.delivered + 1 }) t ∧
      t.mem = (refWrite (refAt w.body 8) (4096 * rd.forw.block) plain s).mem ∧ t.readNo rd.rid = none ∧
      OnlyChanges [.work, .groves, .waybill, .mem, .sleeper, .ft] s t)) ∧
  (∀ (s : State) (rd : BlockRead) (w : Work) (x : Block) (b : BlockOp), s.awake = true → s.readNo rd.rid = some rd →
    rd.arrived = some x → rd.ended = none → s.sleeper.reads.filter (fun r => sameConsumer r.forw rd.forw) = [rd] →
    s.item rd.forw.wid = some w → w.opcode = 0x55 → w.prog = .fetching b → b.ended + 1 < b.total →
    nextExpand rd.part s = some rd → hasCodec rd.part s = true → s.ft.inject.arm = false →
    checkBlock (s.keyInForce rd.tenant rd.remote) (sleeperKey s rd.tenant rd.remote) false x = .error .poisonConsumed →
    Completes (.blockExpand rd.rid) s (fun t =>
      (∃ z p, t.item w.wid = some z ∧ z.prog = .fetching p ∧ p.ended = b.ended + 1 ∧ p.delivered = b.delivered ∧
        p.worst = worseBlock b.worst .poisonConsumed) ∧ t.mem.hbm = s.mem.hbm ∧ t.readNo rd.rid = none))

/-! ## The Timetable -/

/-- R367, R371, R372, R377 to R380, R420: a placement whose block is good and that the Signal box admits takes the lowest FREE entry,
whose fields are the block's with epoch 1 and the list just created, its RESULT the index and version; one the Signal box refuses is
counted and changes no entry. -/
def Obligations.TimetablePlacement : Prop :=
  (∀ (s : State) (w : Work) (b : EntryBlock) (need i : Nat) (g : Region), MayStart s w 0x10 → placeChecks w b s = none →
    admitEntry w.part false (blockEntry b).ask s = .ok need → 1 ≤ need → freeEntry w.part (dat w.body 16 8) s = some i →
    s.region (s.ttregs w.part).pool = some g → (blockEntry b).raceValid = false → Completes (.ttPlace w.wid b) s (fun t =>
      ∃ ref, Ends w .ok (i + ((s.entry i).version + 1).toNat * 2 ^ 32) t (fun u =>
        u.entry i = { blockEntry b with
          version := (s.entry i).version + 1, st := .admitted, epoch := 1, node := s.me, fn := w.fn, tenant := w.tenant, part := w.part,
          list := BitVec.ofNat 64 ref, pages := 1, resPages := need - 1 } ∧
        (∀ k, k ≠ i → u.entry k = s.entry k) ∧ (u.pool g.id).reserved = (s.pool g.id).reserved + (need - 1) ∧
        OnlyChanges [.groves, .waybill, .mem, .tt, .free] s u))) ∧
  (∀ (s : State) (w : Work) (b : EntryBlock) (st : Status) (c : Nat), MayStart s w 0x10 → placeChecks w b s = none →
    admitEntry w.part false (blockEntry b).ask s = .error (st, c) → Completes (.ttPlace w.wid b) s (fun t => Ends w st c t (fun u =>
      u.tt.entries = s.tt.entries ∧
      (st = .admitTime → (u.ttregs w.part).refusedTime = satBv (s.ttregs w.part).refusedTime 1) ∧
      (st = .admitMemory → (u.ttregs w.part).refusedMem = satBv (s.ttregs w.part).refusedMem 1) ∧ OnlyChanges [.tt] s u))) ∧
  (∀ (s : State) (w : Work) (b : EntryBlock), MayStart s w 0x10 → s.img.draining = true → Completes (.ttPlace w.wid b) s (fun t =>
    Ends w .cancelled 1 t (fun u => OnlyChanges [.free] s u)))

/-- R374, R375, R382, R385, R387, R590: an operation waits for the boundary of a step that includes its entry; a cancel makes the entry
CANCELLED with cause 0x51; a move enters HANDOFF_OUT toward its node; a park makes it PARKED and returns the reservation; a resumption
makes it ADMITTED for a new turn; a free clears all but VERSION, which rises; an operation the entry's state does not accept fails with
cause 0x04. -/
def Obligations.TimetableOperations : Prop :=
  (∀ (s : State) (w : Work), MayStart s w 0x11 → opAhead w s = false → headerCheck w s = none → (s.entry (dat w.body 8 16)).accepting = false →
    inStep (dat w.body 8 16) s = false → (s.entry (dat w.body 8 16)).st.cancels = true → (s.entry (dat w.body 8 16)).fromValid = false →
    Completes (.ttCancel w.wid) s (fun t => Ends w .ok 0 t (fun u =>
      (u.entry (dat w.body 8 16)).st = .cancelled ∧ (u.entry (dat w.body 8 16)).cause = 0x51 ∧ (u.entry (dat w.body 8 16)).list = 0 ∧
      (u.entry (dat w.body 8 16)).resPages = 0 ∧ (u.entry (dat w.body 8 16)).reqId = (s.entry (dat w.body 8 16)).reqId ∧
      (∀ k, k ≠ dat w.body 8 16 → u.entry k = s.entry k) ∧ OnlyChanges [.host, .groves, .waybill, .mem, .tt, .out] s u))) ∧
  (∀ (s : State) (w : Work), MayStart s w 0x11 → opAhead w s = false → headerCheck w s = none → (s.entry (dat w.body 8 16)).accepting = false →
    inStep (dat w.body 8 16) s = true → Completes (.ttCancel w.wid) s (fun t =>
      At w (.boundary (dat w.body 8 16)) t ∧ OnlyChanges [.work] s t)) ∧
  (∀ (s : State) (w : Work), MayStart s w 0x14 → opAhead w s = false → headerCheck w s = some (.malformed, 0x04) →
    Completes (.ttPark w.wid) s (fun t => t = complete w .malformed 0x04 s ∧ OnlyChanges [.host, .work, .tt, .ft, .tn, .out] s t)) ∧
  (∀ (s : State) (w : Work) (c : Nat), MayStart s w 0x13 → opAhead w s = false → headerCheck w s = none →
    (s.entry (dat w.body 8 16)).accepting = false → inStep (dat w.body 8 16) s = false → switching (s.entry (dat w.body 8 16)).part s = false →
    routable (dat w.body 10 7) s = true → handoffConn (s.entry (dat w.body 8 16)).tenant (dat w.body 10 7) s = some c →
    Completes (.ttMove w.wid) s (fun t =>
      At w (.move (dat w.body 8 16)) t ∧ (t.entry (dat w.body 8 16)).st = .handoffOut ∧
      (t.entry (dat w.body 8 16)).ret = (s.entry (dat w.body 8 16)).st ∧ (t.entry (dat w.body 8 16)).node = dat w.body 10 7 ∧
      (t.entry (dat w.body 8 16)).epoch = (s.entry (dat w.body 8 16)).epoch ∧ (∀ k, k ≠ dat w.body 8 16 → t.entry k = s.entry k) ∧
      t.ho.out = s.ho.out + 1 ∧ OnlyChanges [.work, .tt, .ho, .rail, .rc, .ft] s t)) ∧
  (∀ (s : State) (w : Work), MayStart s w 0x14 → opAhead w s = false → headerCheck w s = none → (s.entry (dat w.body 8 16)).accepting = false →
    inStep (dat w.body 8 16) s = false → Completes (.ttPark w.wid) s (fun t => Ends w .ok 0 t (fun u =>
      u.entry (dat w.body 8 16) = { s.entry (dat w.body 8 16) with
        version := (s.entry (dat w.body 8 16)).version + 1, st := .parked, resPages := 0 } ∧
      (∀ k, k ≠ dat w.body 8 16 → u.entry k = s.entry k) ∧ u.mem.hbm = s.mem.hbm ∧ OnlyChanges [.mem, .tt] s u))) ∧
  (∀ (s : State) (w : Work) (need : Nat), MayStart s w 0x15 → opAhead w s = false → headerCheck w s = none → isCache s = false →
    (s.entry (dat w.body 8 16)).accepting = false → resumeChecks w (s.entry (dat w.body 8 16)) s = none →
    admitEntry (s.entry (dat w.body 8 16)).part true (resumeEntry w (s.entry (dat w.body 8 16))).ask s = .ok need →
    Completes (.ttResume w.wid) s (fun t => Ends w .ok 0 t (fun u =>
      u.entry (dat w.body 8 16) = { resumeEntry w (s.entry (dat w.body 8 16)) with
        version := (s.entry (dat w.body 8 16)).version + 1, st := .admitted, resPages := (s.entry (dat w.body 8 16)).resPages + need } ∧
      (∀ k, k ≠ dat w.body 8 16 → u.entry k = s.entry k) ∧ OnlyChanges [.groves, .waybill, .mem, .tt] s u))) ∧
  (∀ (s : State) (w : Work), MayStart s w 0x16 → opAhead w s = false → headerCheck w s = none → (s.entry (dat w.body 8 16)).accepting = false →
    ((s.entry (dat w.body 8 16)).st = .stub ∨ (s.entry (dat w.body 8 16)).st = .lost ∨ (s.entry (dat w.body 8 16)).st = .cancelled) →
    Completes (.ttFree w.wid) s (fun t => Ends w .ok 0 t (fun u =>
      u.entry (dat w.body 8 16) = { version := (s.entry (dat w.body 8 16)).version + 1 } ∧
      (∀ k, k ≠ dat w.body 8 16 → u.entry k = s.entry k) ∧ OnlyChanges [.tt, .ho] s u)))

/-- R392, R403, R404, R407 to R410: a snapshot copies the entries of its range to the host; a program is installed, or waits for the
boundary of the step in flight; a race group is opened with its members and closed; a budget at 0 sets EXPIRED once. -/
def Obligations.TimetableOther : Prop :=
  (∀ (s : State) (w : Work), MayStart s w 0x12 → w.fn = 0 → 1 ≤ dat w.body 10 16 → dat w.body 8 16 + dat w.body 10 16 ≤ 16384 →
    dat w.body 16 64 % 128 = 0 → dat w.body 10 16 ≤ dat w.body 24 32 / 128 → dat w.body 12 16 = 0 → Completes (.ttSnapshot w.wid) s (fun t =>
      Ends w .ok (dat w.body 10 16) t (fun u =>
        u.out = s.out ++ [.hostWrite w.fn (dat w.body 16 64) (((List.range (dat w.body 10 16)).map (fun k =>
          let e := entryView 0 (dat w.body 8 16 + k) s
          leBytes 128 (if e = {} then 0 else e.word s.clk.sc))).flatten)] ∧ OnlyChanges [.out] s u))) ∧
  (∀ (s : State) (w : Work), MayStart s w 0x17 → programChecks w s = none → s.stepOf w.part = none → Completes (.ttProgram w.wid) s (fun t =>
    Ends w .ok 0 t (fun u => u.progOf w.part = some (programOf w s) ∧ (∀ q, q ≠ w.part → u.progOf q = s.progOf q) ∧ OnlyChanges [.tt] s u))) ∧
  (∀ (s : State) (w : Work), MayStart s w 0x17 → programChecks w s = none → (s.stepOf w.part).isSome = true → Completes (.ttProgram w.wid) s (fun t =>
    At w (.program w.part) t ∧ OnlyChanges [.work] s t)) ∧
  (∀ (s : State) (w : Work), MayStart s w 0x18 → (s.tt.races.filter (fun kv => kv.2.isOpen)).length < 1024 → 2 ≤ dat w.body 8 8 →
    dat w.body 8 8 ≤ 4 → Completes (.ttRaceOpen w.wid) s (fun t => ∃ g, Ends w .ok g t (fun u =>
      u.race g = { isOpen := true, members := dat w.body 8 8, tenant := w.tenant } ∧ (∀ k, k ≠ g → u.race k = s.race k) ∧
      OnlyChanges [.tt, .free] s u))) ∧
  (∀ (s : State) (w : Work), MayStart s w 0x19 → (s.race (dat w.body 8 16)).isOpen = true → (s.race (dat w.body 8 16)).tenant = w.tenant →
    Completes (.ttRaceClose w.wid) s (fun t => Ends w .ok 0 t (fun u =>
      u.race (dat w.body 8 16) = {} ∧ (∀ k, k ≠ dat w.body 8 16 → u.race k = s.race k) ∧ OnlyChanges [.tt] s u))) ∧
  (∀ (s : State) (w : Work), MayStart s w 0x19 → (s.race (dat w.body 8 16)).isOpen = false → Completes (.ttRaceClose w.wid) s (fun t =>
    t = complete w .malformed 0x08 s ∧ OnlyChanges [.host, .work, .tt, .ft, .tn, .out] s t)) ∧
  (∀ (s : State) (i : Nat), s.live = true → (s.entry i).counting = true → (s.entry i).budget = 0 → (s.entry i).expired = false →
    Completes (.budgetExpire i) s (fun t =>
      t.entry i = { s.entry i with version := (s.entry i).version + 1, expired := true } ∧ (∀ k, k ≠ i → t.entry k = s.entry k) ∧
      OnlyChanges [.host, .tt, .out] s t))

/-- R393 to R399, R262, R383: where no request can run no step starts; a step of a program whose context is not mapped fails as a whole
with TENANT_MISMATCH and the program goes; else the step holds the listed sequences and its first entry is in flight; an entry that
completes well lets the next one start, one that fails malformed ends the step's program; a step that ends appends its record, counts,
and advances its requests. -/
def Obligations.TimetableSteps : Prop :=
  (∀ (s : State) (p : Nat), mayStep p s = true → candidates p s = [] → Completes (.stepStart p) s (fun t => OnlyChanges [] s t)) ∧
  (∀ (s : State) (p : Nat) (g : StepProg) (b : Build), mayStep p s = true → s.progOf p = some g →
    b = (candidates p s).foldl (Build.add p) { state := s } → b.list ≠ [] → ctxMismatch 0 g.context s = true → Completes (.stepStart p) s (fun t =>
      (∃ x, t.stepOf p = some x ∧ x.failAll = some .tenantMismatch ∧ x.seqs = recordOrder p b.list b.state) ∧ t.progOf p = none)) ∧
  (∀ (s : State) (p : Nat) (g : StepProg) (b : Build) (e : Descriptor × Byte) (rest : List (Descriptor × Byte)), mayStep p s = true →
    s.progOf p = some g → b = (candidates p s).foldl (Build.add p) { state := s } → b.list ≠ [] → ctxMismatch 0 g.context s = false →
    (∀ q ∈ recordOrder p b.list b.state, q.decode = false) → refBad s (refOf g.x.toNat) (max 1 (b.rows * g.embedRow)) = false →
    refBad s (refOf g.logits.toNat) (max 1 (b.rows * (logitsOf p g s).row)) = false → g.entries = e :: rest → e.2.getLsbD 0 = false →
    s.item s.nextWid = none → Completes (.stepStart p) s (fun t =>
      (∃ x, t.stepOf p = some x ∧ x.seqs = recordOrder p b.list b.state ∧ x.rows = b.rows ∧ x.entry = 0 ∧ x.startSc = s.clk.sc ∧ x.failAll = none) ∧
      (∃ w, t.item s.nextWid = some w ∧ w.src = .step p 0 ∧ w.opcode = BitVec.ofNat 8 (dat e.1 0 8) ∧ w.context = g.context ∧ w.prog = .waiting) ∧
      t.nextWid = s.nextWid + 1)) ∧
  (∀ (s : State) (p : Nat) (x : Step) (g : StepProg) (r : W64) (e : Descriptor × Byte) (l : List Nat), s.awake = true → s.stepOf p = some x →
    s.progOf p = some g → x.ended = some (.malformed, r) → g.entries[x.entry]? = some e → Completes (.stepEntryComplete p l) s (fun t =>
      t.stepOf p = some { x with failAll := some .malformed, ended := none } ∧ t.progOf p = none ∧
      (∀ q, q ≠ p → t.stepOf q = s.stepOf q ∧ t.progOf q = s.progOf q) ∧ OnlyChanges [.tt] s t)) ∧
  (∀ (s : State) (p : Nat) (x : Step) (g : StepProg) (r : W64) (e d : Descriptor × Byte) (l : List Nat), s.awake = true → s.stepOf p = some x →
    s.progOf p = some g → x.selected = false → x.ended = some (.ok, r) → g.entries[x.entry]? = some e → e.2.getLsbD 0 = false →
    g.entries[x.entry + 1]? = some d → d.2.getLsbD 0 = false → s.item s.nextWid = none → Completes (.stepEntryComplete p l) s (fun t =>
      t.stepOf p = some { x with entry := x.entry + 1, ended := none, worst := worseOp x.worst .ok } ∧
      (∃ w, t.item s.nextWid = some w ∧ w.src = .step p (x.entry + 1) ∧ w.opcode = BitVec.ofNat 8 (dat d.1 0 8)) ∧
      t.nextWid = s.nextWid + 1 ∧ OnlyChanges [.work, .nextWid, .tt] s t)) ∧
  (∀ (s : State) (p : Nat) (x : Step) (q : StepSeq) (h : ListHdr), s.awake = true → s.stepOf p = some x → stepDone p x s = true →
    wbRoom p s = true → x.failAll = none → x.seqs = [q] → q.status = .ok → q.gone = false → q.decode = false → q.emitted = [] →
    (refNum s (s.entry q.entry).tallyRef 346 1).testBit 0 = false → listAt s (s.entry q.entry).list.toNat = some h →
    (s.entry q.entry).askers = [] → (s.entry q.entry).raceHit = none → tget s.tt.pend p none = none →
    (∀ w ∈ s.work, match w.prog with | .boundary _ => False | .program _ => False | _ => True) → Completes (.stepEnd p) s (fun t =>
      t.stepOf p = none ∧ (∀ k, k ≠ p → t.stepOf k = s.stepOf k) ∧ (t.chain p).seq = (s.chain p).seq + 1 ∧ (t.ttregs p).steps = (s.ttregs p).steps + 1 ∧
      t.entry q.entry = { s.entry q.entry with
        version := (s.entry q.entry).version + 1, length := h.commit, pages := (listPages s h).length,
        prefilled := (s.entry q.entry).prefilled + q.rows } ∧
      (∀ k, k ≠ q.entry → t.entry k = s.entry k) ∧ OnlyChanges [.waybill, .tt, .ft, .free] s t))

/-- R410 to R414: the home counts a join, grants the first claim, refuses one for a group that is not open, and counts a
cancel's acknowledgement; a granted member that withheld nothing goes on; a refused or cancelled member outside any step becomes
CANCELLED with cause 0x52, and a cancel is acknowledged. -/
def Obligations.RaceMessages : Prop :=
  (∀ (s : State) (src : Nat) (m : Ctl), s.awake = true → m.ctype = 0x20 → (s.conn 0).rx = [] → (s.race (groupOf m)).isOpen = true →
    (s.race (groupOf m)).won = false → Completes (.raceJoin src m) s (fun t =>
      t.race (groupOf m) = { s.race (groupOf m) with joined := (s.race (groupOf m)).joined ++ [(src, m.sEntry, m.reqId)] } ∧
      (∀ g, g ≠ groupOf m → t.race g = s.race g) ∧ OnlyChanges [.tt] s t)) ∧
  (∀ (s : State) (src : Nat) (m : Ctl), s.awake = true → m.ctype = 0x21 → (s.conn 0).rx = [] → src ≠ s.me → (s.race (groupOf m)).isOpen = true →
    (s.race (groupOf m)).won = false → (s.race (groupOf m)).joined = [(src, m.sEntry, m.reqId)] → (s.race (groupOf m)).claimed = [] →
    (s.race (groupOf m)).acks = 0 → 2 ≤ (s.race (groupOf m)).members → Completes (.raceClaim src m) s (fun t =>
      t.race (groupOf m) = { s.race (groupOf m) with claimed := [m.reqId], won := true } ∧
      ∃ u, OnlyChanges [.tt] s u ∧ t = s.kept (mgmtSend src (raceMsg 0x22 m.sEntry (some m.sEntry) m.reqId m.epoch (groupOf m) s) u))) ∧
  (∀ (s : State) (src : Nat) (m : Ctl), s.awake = true → m.ctype = 0x21 → (s.conn 0).rx = [] → src ≠ s.me → (s.race (groupOf m)).isOpen = false →
    Completes (.raceClaim src m) s (fun t =>
      t = s.kept (mgmtSend src (raceMsg 0x23 m.sEntry (some m.sEntry) m.reqId m.epoch (groupOf m) s) s) ∧ t.tt = s.tt)) ∧
  (∀ (s : State) (src i : Nat) (m : Ctl), s.awake = true → m.ctype = 0x22 → (s.conn 0).rx = [] → m.rEntry = some i →
    (s.entry i).claiming = true → (s.entry i).reqId = m.reqId → (s.entry i).withheld = none → Completes (.raceGrant src m) s (fun t =>
      t.entry i = { s.entry i with version := (s.entry i).version + 1, claiming := false } ∧ (∀ k, k ≠ i → t.entry k = s.entry k) ∧
      OnlyChanges [.tt] s t)) ∧
  (∀ (s : State) (src i : Nat) (m : Ctl), s.awake = true → m.ctype = 0x23 → (s.conn 0).rx = [] → m.rEntry = some i →
    (s.entry i).reqId = m.reqId → (s.entry i).st.cancels = true → inStep i s = false → (s.entry i).fromValid = false →
    Completes (.raceRefuse src m) s (fun t =>
      (t.entry i).st = .cancelled ∧ (t.entry i).cause = 0x52 ∧ (t.entry i).claiming = false ∧ (t.entry i).withheld = none ∧
      (∀ k, k ≠ i → t.entry k = s.entry k) ∧ OnlyChanges [.host, .groves, .waybill, .mem, .tt, .out] s t)) ∧
  (∀ (s : State) (src i : Nat) (m : Ctl), s.awake = true → m.ctype = 0x24 → (s.conn 0).rx = [] → m.rEntry = some i →
    (s.entry i).reqId = m.reqId → (s.entry i).st.cancels = true → inStep i s = false → (s.entry i).fromValid = false →
    (s.entry i).raceHome ≠ s.me → Completes (.raceCancel src m) s (fun t =>
      (t.entry i).st = .cancelled ∧ (t.entry i).cause = 0x52 ∧ (∀ k, k ≠ i → t.entry k = s.entry k) ∧
      ∃ u, OnlyChanges [.host, .groves, .waybill, .mem, .tt, .out] s u ∧ t = s.kept (mgmtSend (s.entry i).raceHome
        (raceMsg 0x25 i none (s.entry i).reqId (s.entry i).epoch (groupOf m) s) u))) ∧
  (∀ (s : State) (src : Nat) (m : Ctl), s.awake = true → m.ctype = 0x25 → (s.conn 0).rx = [] → (s.race (groupOf m)).isOpen = true →
    (s.race (groupOf m)).claimed.length + (s.race (groupOf m)).acks + 1 < (s.race (groupOf m)).members → Completes (.raceCancelAck src m) s (fun t =>
      t.race (groupOf m) = { s.race (groupOf m) with acks := (s.race (groupOf m)).acks + 1 } ∧ (∀ g, g ≠ groupOf m → t.race g = s.race g) ∧
      OnlyChanges [.tt] s t))

/-! ## Rail links -/

/-- R489 to R492, R502, R503, R518: light starts the training of a DOWN link, 1 ms that of a FAILED one, and the peer's exit from N3 that of
the trickle link; a good TRAIN frame derives the keys and sends KEY_CONFIRM, a bad one fails the training with its cause; the peer's
KEY_CONFIRM with the right tag brings the link UP with every lane and DEGRADED without; another tag and the end of the time fail it;
silence takes a running link DOWN. -/
def Obligations.RailLinkTraining : Prop :=
  (∀ (s : State) (n l : Nat), s.live = true → (s.link n l).st = .down → forwards s = true → s.rail.nodeSet = true →
    Completes (.lightOn n l) s (TrainsAnew n l s)) ∧
  (∀ (s : State) (n l : Nat), s.live = true → (s.link n l).st = .failed → forwards s = true → s.rail.nodeSet = true →
    Completes (.linkRetryTimer n l) s (TrainsAnew n l s)) ∧
  (∀ s : State, s.live = true → (s.link 0 0).st = .trickle → s.rail.nodeSet = true → Completes .peerLeavesN3 s (TrainsAnew 0 0 s)) ∧
  (∀ (s : State) (n l node slot nonce a : Nat) (inc : W32) (f : Frame) (o : TrainObs), s.live = true → (s.link n l).st = .training →
    f.payload = .train node inc a (linkVersion l .training) slot nonce → node ≠ s.me → o.versionOk = true →
    s.fuses.fabric.getLsbD (s.link n l).keySlot = true → s.trust.unlocked = false → Completes (.train n l f o) s (fun t =>
      (t.link n l).st = .training ∧ (t.link n l).peer = node ∧ (t.link n l).peerInc = inc ∧ (t.link n l).keyed = true ∧
      (t.link n l).peerConf = decide (slot = (s.link n l).keySlot) ∧
      (t.link n l).key0 ++ (t.link n l).key1 = linkKeys (Config.fabricKey (s.link n l).keySlot) (linkVersion l .training)
        ⟨s.me, n, (s.link n l).nonce⟩ ⟨node, a, nonce⟩ ∧
      (t.link n l).lanesUp = ((linkLanes n l s).filter (fun k => decide (k ∈ o.up) && !decide (k ∈ o.miswired))).length ∧
      (∀ k ∈ linkLanes n l s, k ∈ o.miswired → (t.lane n k).st = .miswired) ∧
      (∃ g, t.out = s.out ++ [.frame n l g (wireOf s.me (t.link n l) g false) false] ∧ g.typ = 8 ∧ g.dst = node ∧ g.fseq = 0 ∧
        g.version = linkVersion l .training) ∧
      OnlyChanges [.rail, .out] s t)) ∧
  (∀ (s : State) (n l node slot nonce a : Nat) (inc : W32) (v : BitVec 4) (f : Frame) (o : TrainObs), s.live = true →
    (s.link n l).st = .training → f.payload = .train node inc a v slot nonce → Completes (.train n l f o) s (fun t =>
      (node = s.me → LinkLost n l .failed 0x02 s t) ∧
      (node ≠ s.me → (v ≠ linkVersion l .training ∨ o.versionOk = false) → LinkLost n l .failed 0x04 s t) ∧
      (node ≠ s.me → v = linkVersion l .training → o.versionOk = true →
        (s.fuses.fabric.getLsbD (s.link n l).keySlot = false ∨ s.trust.unlocked = true) → LinkLost n l .failed 0x03 s t))) ∧
  (∀ (s : State) (n l : Nat) (f : Frame), s.live = true → (s.link n l).st = .training → (s.link n l).keyed = true → f.typ = 8 →
    (s.link n l).peerConf = true → Completes (.keyConfirm n l f (rxTag s.me (s.link n l) f)) s (fun t =>
      (t.link n l).st = (if (s.link n l).allLanes then .up else .degraded) ∧ (t.link n l).trained = true ∧ (t.link n l).cause = 0 ∧
      (t.link n l).rxCtl = f.fseq + 1 ∧
      (∀ m k, ¬ (m = n ∧ k = l) → t.link m k = s.link m k) ∧
      ∃ u, OnlyChanges [.rail] s u ∧ OnlyChanges [.ft] (event 0 0x0601 (n + 256 * l) u) t)) ∧
  (∀ (s : State) (n l : Nat) (f : Frame) (tag : BitVec 128), s.live = true → (s.link n l).st = .training → (s.link n l).keyed = true →
    f.typ = 8 → (tag ≠ rxTag s.me (s.link n l) f ∨ (s.link n l).peerConf = false) →
    Completes (.keyConfirm n l f tag) s (LinkLost n l .failed 0x03 s)) ∧
  (∀ (s : State) (n l : Nat), s.live = true → (s.link n l).st = .training → Completes (.trainingTimeout n l) s (LinkLost n l .failed 0x05 s)) ∧
  (∀ (s : State) (n l : Nat), s.live = true → (s.link n l).up = true → Completes (.linkTimeout n l) s (LinkLost n l .down 0x00 s))

/-- R488, R491, R493, R516, R523, R527, R528, R530, R534, R691: a lost lane leaves its link DEGRADED and asks for the Lantern's
possession, the last one takes the link DOWN; a lane that returns makes it UP again when it was the last missing; a host retrain and a
retry ask for the possession; measurements are recorded and a low power raises RX_POWER_LOW once; the peer's N3 leaves lane 0 as the
trickle link; a written watch bit makes its node UNWATCHED; the node ID is taken while every link is down, and only then. -/
def Obligations.RailLanesAndIdentity : Prop :=
  (∀ (s : State) (n k : Nat), s.live = true → k < 16 → laneRuns n k s = true → (s.link n (laneLink n k s)).up = true →
    2 ≤ (s.link n (laneLink n k s)).lanesUp → fullDomain (oneDomain (12 + n)) s = none → Completes (.laneLoss n k) s (fun t =>
      (t.lane n k).st = .los ∧ (∀ j, j ≠ k → t.lane n j = s.lane n j) ∧ (t.link n (laneLink n k s)).st = .degraded ∧
      (t.link n (laneLink n k s)).lanesUp = (s.link n (laneLink n k s)).lanesUp - 1 ∧
      t.ft.queue = s.ft.queue ++ [{ activity := 0x03, domains := oneDomain (12 + n), arg := 64 * n + k }] ∧ OnlyChanges [.rail, .ft] s t)) ∧
  (∀ (s : State) (n k : Nat), s.live = true → k < 16 → laneRuns n k s = true → (s.link n (laneLink n k s)).up = true →
    (s.link n (laneLink n k s)).lanesUp ≤ 1 → Completes (.laneLoss n k) s (fun t =>
      (t.lane n k).st = .los ∧ LinkLost n (laneLink n k s) .down 0x01 s t)) ∧
  (∀ (s : State) (n k : Nat), s.live = true → k < 16 → laneRuns n k s = false → (s.link n (laneLink n k s)).up = true →
    Completes (.laneUp n k) s (fun t =>
      (t.lane n k).st = laneUpSt (laneLink n k s) ∧ (∀ j, j ≠ k → t.lane n j = s.lane n j) ∧
      (t.lantern n).retrains = (s.lantern n).retrains + 1 ∧
      ((∀ j ∈ linkLanes n (laneLink n k s) s, j ≠ k → laneRuns n j s = true) → (t.link n (laneLink n k s)).st = .up) ∧
      ((∃ j ∈ linkLanes n (laneLink n k s) s, j ≠ k ∧ laneRuns n j s = false) → (t.link n (laneLink n k s)).st = .degraded) ∧
      holds 0x03 (64 * n + k) t = false ∧ OnlyChanges [.rail, .ft] s t)) ∧
  (∀ (s : State) (n k : Nat), writes 0 s = true → k < 2 → (s.link n k).up = true → Completes (.lnRetrain n (BitVec.ofNat 2 (2 ^ k))) s (fun t =>
    (fullDomain (oneDomain (12 + n)) s = none → OnlyChanges [.ft] s t ∧
      t.ft.queue = s.ft.queue ++ [retrainOf n k]) ∧
    (fullDomain (oneDomain (12 + n)) s ≠ none → t.ft.queue = s.ft.queue ∧ t.ft.possRefused = satBv s.ft.possRefused 1 ∧
      OnlyChanges [.host, .ft, .out] s t))) ∧
  (∀ (s : State) (n l k : Nat), s.live = true → (s.link n l).retrainWaits = true → fullDomain (oneDomain (12 + n)) s = none →
    (linkLanes n l s).filter (fun j => (s.lane n j).st == .los) = [k] → Completes (.retrainRetryTimer n l) s (fun t =>
      (t.link n l).retrainWaits = false ∧
      t.ft.queue = s.ft.queue ++ [{ activity := 0x03, domains := oneDomain (12 + n), arg := 64 * n + k }] ∧ OnlyChanges [.rail, .ft] s t)) ∧
  (∀ (s : State) (n : Nat) (o : LaneObs), s.live = true → o.lane < 16 → o.locked = true →
    (s.lantern n).los.toInt + modeOffset (s.lane n o.lane).st (laneLink n o.lane s) ≤ o.rx → Completes (.opticalSample n [o]) s (fun t =>
      (t.lane n o.lane).rx = o.rx ∧ (t.lane n o.lane).tx = o.tx ∧ (t.lane n o.lane).st = (s.lane n o.lane).st ∧
      (t.lane n o.lane).symCorr = (s.lane n o.lane).symCorr + o.symCorr ∧ (∀ j, j ≠ o.lane → t.lane n j = s.lane n j) ∧
      (o.rx < (s.lantern n).warn.toInt + modeOffset (s.lane n o.lane).st (laneLink n o.lane s) → (s.lane n o.lane).warned = false →
        ∃ u, OnlyChanges [.rail] s u ∧ t = s.kept (event 0 0x0602 (n + 256 * o.lane) u)) ∧
      ((s.lantern n).warn.toInt + modeOffset (s.lane n o.lane).st (laneLink n o.lane s) ≤ o.rx ∨ (s.lane n o.lane).warned = true →
        OnlyChanges [.rail] s t))) ∧
  (∀ s : State, s.live = true → (s.link 0 0).up = true → Completes .peerEntersN3 s (fun t =>
    (t.link 0 0).st = .trickle ∧ (t.link 0 0).lanesUp = 1 ∧ (t.link 0 0).key0 = ((s.link 0 0).keyedAs s.me 0 7).key0 ∧
    (t.link 0 0).key1 = ((s.link 0 0).keyedAs s.me 0 7).key1 ∧ (0 ∈ linkLanes 0 0 s → (t.lane 0 0).st = .trickle) ∧
    (∀ k ∈ linkLanes 0 0 s, k ≠ 0 → (t.lane 0 k).st = .down) ∧ (∀ x ∈ (t.link 0 0).unacked, frameSpecial x.q.frame = true ∧ x.q.frame.version = 7) ∧
    OnlyChanges [.rail, .rc, .ft] s t)) ∧
  (∀ (s : State) (w : Nat) (v : W32), writes 0 s = true → w < 4 → Completes (.lnWatchWrite w v) s (fun t =>
    tget t.rail.watch w 0 = v ∧ (∀ k, k ≠ w → tget t.rail.watch k 0 = tget s.rail.watch k 0) ∧
    (∀ b < 32, (tget s.rail.watch w 0).getLsbD b ≠ v.getLsbD b →
      t.peer (32 * w + b) = { s.peer (32 * w + b) with st := .unwatched, misses := 0, beat := false }) ∧
    (∀ m, (∀ b < 32, m = 32 * w + b → (tget s.rail.watch w 0).getLsbD b = v.getLsbD b) → t.peer m = s.peer m) ∧ OnlyChanges [.rail] s t)) ∧
  (∀ (s : State) (v : W32), s.live = true → linksDown s = true → Completes (.lnNodeIdWrite v) s (fun t =>
    t.me = v.toNat % 128 ∧ t.rail.nodeSet = true ∧ t.rail.lanterns = s.rail.lanterns ∧ OnlyChanges [.flash, .boot, .rail] s t)) ∧
  (∀ (s : State) (v : W32), linksDown s = false → Completes (.lnNodeIdWrite v) s (OnlyChanges [] s))

/-- R494, R496 to R499, R501, R511 to R513: a LINK_HB or an ACK that passes the checks is counted and frees what its ACK_SEQ covers; of the
checks of R498 the first that fails decides: each has its counter, and a NAK is queued except for a stomped frame; a NAK has every frame
left sent again as it was, and takes a link FAILED with cause 0x06 that resent one 8 times; a silent link sends LINK_HB; at a frame
boundary a waiting control frame goes first, then the head of class 0, then an ACK that is due, then FILL; a link whose GEN is in its last
turn asks for its retrain, and sends no numbered frame once that turn is spent. -/
def Obligations.RailLinkFrames : Prop :=
  (∀ (s : State) (n l : Nat) (f : Frame) (c : Instr), ((c = .linkHb n l f (genuine n l f s) ∧ Arrives n l 4 f s) ∨
      (c = .ackFrame n l f (genuine n l f s) ∧ Arrives n l 2 f s)) →
    Completes c s (fun t =>
      t.link n l = { ackUpTo f.ackSeq (s.link n l) with
        heard := true, rxCtl := f.fseq + 1,
        rxCtlGen := genAfter (genOf (s.link n l).rxCtlGen (s.link n l).rxCtl f.fseq) f.fseq } ∧
      (t.lantern n).rxFrames = (s.lantern n).rxFrames + 1 ∧
      (∀ m k, ¬ (m = n ∧ k = l) → t.link m k = s.link m k) ∧ OnlyChanges [.rail] s t)) ∧
  (∀ (s : State) (n l : Nat) (f : Frame) (o : FrameObs), s.live = true → listens n l s = true → f.typ = 4 → s.ft.inject.arm = false →
    (o.fecBad ≠ 0 ∨ o.crc ≠ .good ∨ o.tag ≠ rxTag s.me (s.link n l) f ∨ f.version ≠ linkVersion l (s.link n l).st) →
    Completes (.linkHb n l f o) s (fun t =>
      (t.lantern n).rxFrames = (s.lantern n).rxFrames ∧ (t.link n l).unacked = (s.link n l).unacked ∧
      (t.lantern n).fecUncorr = (s.lantern n).fecUncorr + o.fecBad ∧
      (t.lantern n).stomped = (s.lantern n).stomped + (if o.fecBad = 0 ∧ o.crc = .inverted then 1 else 0) ∧
      (t.lantern n).crcFail = (s.lantern n).crcFail + (if o.fecBad = 0 ∧ o.crc = .bad then 1 else 0) ∧
      (t.lantern n).dropped = (s.lantern n).dropped + (if o.fecBad = 0 ∧ o.crc = .good ∧ f.version ≠ linkVersion l (s.link n l).st then 1 else 0) ∧
      (t.lantern n).authFail = (s.lantern n).authFail + (if o.fecBad = 0 ∧ o.crc = .good ∧ f.version = linkVersion l (s.link n l).st then 1 else 0) ∧
      (t.link n l).ctlq = (s.link n l).ctlq ++ (if o.fecBad = 0 ∧ o.crc = .inverted then [] else [ownFrame s 3 (s.link n l).peer .none]) ∧
      OnlyChanges [.rail] s t)) ∧
  (∀ (s : State) (n l : Nat) (f : Frame), Arrives n l 3 f s → (∀ x ∈ (ackUpTo f.ackSeq (s.link n l)).unacked, x.resends < 8) →
    Completes (.nakFrame n l f (genuine n l f s)) s (fun t =>
      (t.link n l).unacked = (ackUpTo f.ackSeq (s.link n l)).unacked.map (fun x => { x with resends := x.resends + 1 }) ∧
      t.out = s.out ++ (ackUpTo f.ackSeq (s.link n l)).unacked.map (fun x =>
        .frame n l x.q.frame (wireOf s.me (s.link n l) x.q.frame false) false) ∧
      (t.lantern n).replays = (s.lantern n).replays + (ackUpTo f.ackSeq (s.link n l)).unacked.length ∧ OnlyChanges [.rail, .out] s t)) ∧
  (∀ (s : State) (n l : Nat) (f : Frame), Arrives n l 3 f s → (∃ x ∈ (ackUpTo f.ackSeq (s.link n l)).unacked, 8 ≤ x.resends) →
    Completes (.nakFrame n l f (genuine n l f s)) s (LinkLost n l .failed 0x06 s)) ∧
  (∀ (s : State) (n l : Nat), s.live = true → listens n l s = true → Completes (.fillFrame n l) s (fun t =>
    t.link n l = { s.link n l with heard := true } ∧ OnlyChanges [.rail] s t)) ∧
  (∀ (s : State) (n l : Nat), s.live = true → listens n l s = true → (s.link n l).genDue = false → Completes (.linkHbSend n l) s (fun t =>
    (∃ g, t.out = s.out ++ [.frame n l g (wireOf s.me (s.link n l) g false) false] ∧ g.typ = 4 ∧ g.fseq = (s.link n l).txCtl ∧
      g.ackSeq = (s.link n l).rxSeq ∧ g.version = linkVersion l (s.link n l).st) ∧
    (t.link n l).txCtl = (s.link n l).txCtl + 1 ∧ (t.link n l).txSeq = (s.link n l).txSeq ∧ OnlyChanges [.rail, .out] s t)) ∧
  (∀ (s : State) (n l : Nat) (f : Frame) (rest : List Frame), s.live = true → listens n l s = true → (s.link n l).genDue = false →
    (s.link n l).ctlq = f :: rest → (s.link n l).ctlLast = false → Completes (.frameBoundary n l) s (fun t =>
      (∃ g, g = { f with version := linkVersion l (s.link n l).st, fseq := (s.link n l).txCtl, ackSeq := (s.link n l).rxSeq } ∧
        t.out = s.out ++ [.frame n l g (wireOf s.me (s.link n l) g false) false]) ∧
      (t.link n l).ctlq = rest ∧ OnlyChanges [.rail, .out] s t)) ∧
  (∀ (s : State) (n l : Nat) (q : QFrame) (rest : List QFrame), s.live = true → listens n l s = true → (s.link n l).genDue = false →
    (s.link n l).ctlq = [] → tget (s.link n l).queues 0 [] = q :: rest → headAdmits n l 0 s = true → passedOver n l 0 s = false →
    Completes (.frameBoundary n l) s (fun t =>
      (∃ g, t.out = s.out ++ [.frame n l g (wireOf s.me (s.link n l) g false) false] ∧ g.payload = q.frame.payload ∧
        g.fseq = (s.link n l).txSeq ∧ g.ackSeq = (s.link n l).rxSeq ∧
        (t.link n l).unacked.map (fun x => x.q.frame) = (s.link n l).unacked.map (fun x => x.q.frame) ++ [g]) ∧
      (t.link n l).txSeq = (s.link n l).txSeq + 1 ∧ tget (t.link n l).queues 0 [] = rest ∧ OnlyChanges [.rail, .out] s t)) ∧
  (∀ (s : State) (n l : Nat), s.live = true → listens n l s = true → (s.link n l).genDue = false → (s.link n l).ctlq = [] →
    (∀ c < 8, headAdmits n l c s = false) → Completes (.frameBoundary n l) s (fun t =>
      (∃ g, t.out = s.out ++ [.frame n l g (if (s.link n l).ackDue then wireOf s.me (s.link n l) g false else plainWire g) false] ∧
        g.typ = (if (s.link n l).ackDue then 2 else 0)) ∧
      (t.link n l).ackDue = false ∧ ((s.link n l).ackDue = false → OnlyChanges [.out] s t) ∧ OnlyChanges [.rail, .out] s t)) ∧
  (∀ (s : State) (n l : Nat) (c : Instr), (c = .linkHbSend n l ∨ c = .frameBoundary n l) → s.live = true → listens n l s = true →
    (s.link n l).up = true → (s.link n l).genDue = true → holds 0x03 (64 * n + 32 + l) s = false →
    (∀ p ∈ s.ft.queue, ¬ (p.activity = 0x03 ∧ p.arg = 64 * n + 32 + l)) → fullDomain (oneDomain (12 + n)) s = none →
    Completes c s (fun t => t.ft.queue = s.ft.queue ++ [retrainOf n l] ∧
      ((s.link n l).genSpent = true → (∃ g, t.out = s.out ++ [.frame n l g (plainWire g) false] ∧ g.typ = 0) ∧
        OnlyChanges [.ft, .out] s t)))

/-- R63, R498, R506 to R509, R518 to R522, R526, R539, R552: a DATA frame out of its turn is not delivered; a transit frame goes on with one
hop less, cut through (stomped when it proves bad) or stored, and is dropped at its last hop; a packet for this node that fails the tests
of R552 is counted; a request that needs the Groves (log entry 102) and a WAKE frame start the exit from N2; a DEAD_NOTICE makes a new incarnation and ends connections and requests;
heartbeats go to every watched node and move the detector as R522 writes it; a node that misses too many is dead. -/
def Obligations.RailDeliveryAndLiveness : Prop :=
  (∀ (s : State) (n l : Nat) (f : Frame), Arrives n l 1 f s → f.fseq ≠ (s.link n l).rxSeq → Completes (.dataFrame n l f (genuine n l f s)) s (fun t =>
    (t.link n l).rxSeq = (s.link n l).rxSeq ∧ (t.link n l).unacked = (s.link n l).unacked ∧ (t.lantern n).rxFrames = (s.lantern n).rxFrames ∧
    (t.link n l).ctlq = (s.link n l).ctlq ++ (if seqBefore (s.link n l).rxSeq f.fseq then [ownFrame s 3 (s.link n l).peer .none] else []) ∧
    OnlyChanges [.rail] s t)) ∧
  (∀ (s : State) (n l m : Nat) (f : Frame), Arrives n l 1 f s → f.fseq = (s.link n l).rxSeq → cutEgress l f s = some m →
    Completes (.dataFrame n l f (genuine n l f s)) s (fun t =>
      (∃ g, t.out = s.out ++ [.frame m 0 g (wireOf s.me (s.link m 0) g false) false] ∧ g.payload = f.payload ∧ g.dst = f.dst ∧ g.hops = f.hops - 1 ∧ g.fseq = (s.link m 0).txSeq) ∧
      (t.lantern n).cutThrough = (s.lantern n).cutThrough + 1 ∧ (t.link n l).rxSeq = (s.link n l).rxSeq + 1 ∧ OnlyChanges [.rail, .out] s t)) ∧
  (∀ (s : State) (n l m : Nat) (f : Frame), Arrives n l 1 f s → cutEgress l f s = some m →
    Completes (.dataFrame n l f { crc := .bad }) s (fun t =>
      (∃ g, g = { f with
          hops := f.hops - 1, version := linkVersion 0 (s.link m 0).st, fseq := (s.link m 0).txSeq,
          ackSeq := (s.link m 0).rxSeq } ∧ t.out = s.out ++ [.frame m 0 g (wireOf s.me (s.link m 0) g true) true]) ∧
      (t.link m 0).txSeq = (s.link m 0).txSeq ∧ (t.lantern n).crcFail = (s.lantern n).crcFail + 1 ∧
      OnlyChanges [.rail, .out] s t)) ∧
  (∀ (s : State) (n l : Nat) (f : Frame), Arrives n l 1 f s → f.fseq = (s.link n l).rxSeq → f.dst ≠ s.me → forwards s = true →
    cutEgress l f s = none → Completes (.dataFrame n l f (genuine n l f s)) s (fun t =>
      (1 < f.hops → (t.lantern n).stored = (s.lantern n).stored + 1) ∧ (f.hops ≤ 1 → (t.lantern n).dropped = (s.lantern n).dropped + 1 ∧
        OnlyChanges [.rail] s t) ∧
      (t.link n l).rxSeq = (s.link n l).rxSeq + 1 ∧ OnlyChanges [.rail, .rc, .ho] s t)) ∧
  (∀ (s : State) (n l : Nat) (f : Frame) (p : Packet), Arrives n l 1 f s → f.fseq = (s.link n l).rxSeq → f.dst = s.me → f.payload = .packet p →
    p.op ≠ 10 → acceptable p.dstConn f.src p s = false → Completes (.dataFrame n l f (genuine n l f s)) s (fun t =>
      t.rc = { s.rc with stale := s.rc.stale + 1 } ∧ (t.link n l).ackDue = true ∧ OnlyChanges [.rail, .rc] s t)) ∧
  (∀ (s : State) (n l : Nat) (f : Frame) (p : Packet), Arrives n l 1 f s → f.fseq = (s.link n l).rxSeq → f.dst = s.me → f.payload = .packet p →
    p.op = 2 → p.ctl = none → p.dstConn ≠ 0 → acceptable p.dstConn f.src p s = true → (s.conn p.dstConn).rx = [] → p.mseq = (s.conn p.dstConn).rxCum →
    keyCheck f.src p false s = none → s.power.st ≠ .n2 → s.power.trans = none → 0 < p.data.length → p.offset = 0 → p.mlen.toNat = p.data.length → Completes (.dataFrame n l f (genuine n l f s)) s (fun t =>
      (∃ m, (t.conn p.dstConn).rx = [m] ∧ m.mseq = p.mseq ∧ m.op = 2 ∧ m.got = [(0, p.data)] ∧ m.raddr = p.raddr ∧ m.rkey = p.rkey ∧
        m.refused = none ∧ m.complete = true) ∧
      (t.slot (p.rkey.toNat % 65536)).inFlight = (s.slot (p.rkey.toNat % 65536)).inFlight + 1 ∧ OnlyChanges [.rail, .rc, .ft] s t)) ∧
  (∀ (s : State) (n l : Nat) (f : Frame) (p : Packet), Arrives n l 1 f s → f.fseq = (s.link n l).rxSeq → f.dst = s.me →
    f.payload = .packet p → p.op ≠ 10 → acceptable p.dstConn f.src p s = true → needsGroves p = true → s.power.st = .n2 →
    s.power.trans = none → Completes (.dataFrame n l f (genuine n l f s)) s (fun t =>
      t.power = { s.power with trans := some .fromN2, wakeCause := s.power.wakeCause ||| 4 })) ∧
  (∀ (s : State) (n l : Nat) (f : Frame), Arrives n l 7 f s → f.fseq = (s.link n l).rxSeq → f.dst = s.me → s.power.st = .n2 →
    s.power.trans = none → Completes (.wake n l f (genuine n l f s)) s (fun t =>
      t.power = { s.power with trans := some .fromN2, wakeCause := s.power.wakeCause ||| 4 } ∧ OnlyChanges [.power, .rail] s t)) ∧
  (∀ (s : State) (n l : Nat) (f : Frame), Arrives n l 6 f s → f.fseq = (s.link n l).rxSeq → f.dst = s.me →
    s.rc.conns = [(0, s.conn 0)] → s.tt.entries = [] → Completes (.deadNotice n l f (genuine n l f s)) s (fun t =>
      t.rail.inc = s.rail.inc + 1 ∧ t.flash.incarnation = s.flash.incarnation + 1 ∧
      ∃ u, OnlyChanges [.flash, .rail] s u ∧ t = s.kept (event 0 0x0605 ((s.rail.inc + 1).toNat * 2 ^ 32) u))) ∧
  (∀ (s : State) (n l c : Nat) (x : Conn) (f : Frame), Arrives n l 6 f s → f.fseq = (s.link n l).rxSeq → f.dst = s.me → c ≠ 0 →
    s.rc.conns = [(0, s.conn 0), (c, x)] → x.st = .opened → x.queue = [] → x.recvs = [] → x.opener = none → x.rx = [] → s.tt.entries = [] →
    Completes (.deadNotice n l f (genuine n l f s)) s (fun t => (t.conn c).st = .error ∧ t.rail.inc = s.rail.inc + 1)) ∧
  (∀ (s : State) (n l i : Nat) (e : Entry) (f : Frame), Arrives n l 6 f s → f.fseq = (s.link n l).rxSeq → f.dst = s.me →
    s.rc.conns = [(0, s.conn 0)] → s.tt.entries = [(i, e)] → e.st.owner = true → e.snd = none → e.rcv = none → e.fromValid = false → e.askers = [] → s.work = [] →
    Completes (.deadNotice n l f (genuine n l f s)) s (fun t => (t.entry i).st = .lost ∧ (t.entry i).cause = 0x32 ∧ t.rail.inc = s.rail.inc + 1)) ∧
  (∀ s : State, s.live = true → s.rail.nodeSet = true → forwards s = true → Completes .nodeHbSend s (fun t =>
    (∀ m < 128, watched m s = true → trickleTo m s = false → ∀ a b, routeFor m 0 s = some (a, b) →
      ∃ g ∈ (t.link a b).ctlq, g.typ = 5 ∧ g.dst = m ∧ g.payload = .nodeHb s.me s.rail.inc) ∧ OnlyChanges [.rail] s t)) ∧
  (∀ (s : State) (n l m : Nat) (i : W32) (f : Frame), Arrives n l 5 f s → f.dst = s.me → f.payload = .nodeHb m i → m < 128 → s.power.st ≠ .n3 →
    watched m s = true → Completes (.nodeHb n l f (genuine n l f s)) s (fun t =>
      (i.toNat < (s.peer m).inc.toNat → t.peer m = s.peer m ∧ OnlyChanges [.rail] s t) ∧
      (i = (s.peer m).inc → ((s.peer m).st = .alive ∨ (s.peer m).st = .suspect) →
        t.peer m = { s.peer m with st := .alive, beat := true } ∧ OnlyChanges [.rail] s t) ∧
      ((s.peer m).st = .unwatched → ((s.peer m).inc = 0 ∨ (s.peer m).inc = i) →
        t.peer m = { s.peer m with inc := i, st := .alive, misses := 0, beat := true } ∧ OnlyChanges [.rail] s t) ∧
      ((s.peer m).st = .dead → (s.peer m).inc.toNat < i.toNat →
        t.peer m = { s.peer m with inc := i, st := .alive, misses := 0, beat := true } ∧
        ∃ u, OnlyChanges [.rail] s u ∧ t = s.kept (event 0 0x0604 (m + i.toNat * 2 ^ 32) u)) ∧
      ((s.peer m).st = .dead → (s.peer m).inc = i → trickleTo m s = false → ∀ a b, routeFor m 0 s = some (a, b) →
        t.peer m = s.peer m ∧ ∃ q ∈ tget (t.link a b).queues 0 [], q.frame.typ = 6 ∧ q.frame.dst = m))) ∧
  (∀ s : State, s.live = true → forwards s = true →
    (∀ m < 128, watched m s = true → ((s.peer m).st = .alive ∨ (s.peer m).st = .suspect) → (s.peer m).beat = false →
      (s.peer m).misses + 1 < max 2 s.rail.liveMiss.toNat) → Completes .livenessPeriod s (fun t =>
    (∀ m < 128, watched m s = true → ((s.peer m).st = .alive ∨ (s.peer m).st = .suspect) →
      t.peer m = (if (s.peer m).beat then { s.peer m with misses := 0, beat := false }
        else { s.peer m with misses := min 255 ((s.peer m).misses + 1), st := .suspect })) ∧ OnlyChanges [.rail] s t)) ∧
  (∀ (s : State) (m : Nat), s.live = true → forwards s = true → m < 128 → (∀ k, watched k s = decide (k = m)) →
    ((s.peer m).st = .alive ∨ (s.peer m).st = .suspect) → (s.peer m).beat = false → max 2 s.rail.liveMiss.toNat ≤ (s.peer m).misses + 1 →
    s.rc.conns = [(0, s.conn 0)] → (s.conn 0).queue = [] → (s.conn 0).unacked = [] → (s.conn 0).txq = [] → s.rc.slots = [] →
    s.tt.entries = [] → s.sleeper.reads = [] → Completes .livenessPeriod s (fun t =>
      (t.peer m).st = .dead ∧ (t.peer m).deaths = satBv (s.peer m).deaths 1 ∧ (t.peer m).inc = (s.peer m).inc ∧
      ∃ u v, OnlyChanges [.rail, .rc] s u ∧ v = event 0 0x0603 (m + (s.peer m).inc.toNat * 2 ^ 32) u ∧ OnlyChanges [.rail] v t))

/-! ## Rail connections -/

/-- R540, R542, R544, R547, R569: RL_CREATE takes the lowest FREE connection and, with its units, answers its number in INIT; without them
it ends with PLATFORM_EXHAUSTED; bad fields have cause 0x03, no connection cause 0x0A; RL_CONNECT makes an INIT connection OPENING and
sends HELLO, again whenever RETX_SC passes; its WAIT returns it to INIT; RL_CLOSE frees an idle connection, after CLOSE if it was OPEN,
and waits for one that is not idle. -/
def Obligations.RailConnections : Prop :=
  (∀ (s : State) (w : Work) (n : Nat), MayStart s w 0x40 → dat w.body 9 4 ≠ 0 → (dat w.body 11 8 = 0 ∨ dat w.body 11 8 = 1 ∨ dat w.body 11 8 = 0xFF) →
    2 ≤ dat w.body 12 8 → 2 ≤ dat w.body 13 8 → dat w.body 13 8 ≤ 64 →
    (∀ i, s.img.image = some i → i.fixed = true → ∃ p, i.parts[w.part]? = some p ∧ p.classes.getLsbD (dat w.body 8 3) = true) →
    freeConn (dat w.body 11 8) s = some n → Completes (.rlCreate w.wid) s (fun t => At w (.create n) t ∧ OnlyChanges [.work] s t)) ∧
  (∀ (s : State) (w : Work), MayStart s w 0x40 → (dat w.body 9 4 = 0 ∨ dat w.body 12 8 < 2 ∨ dat w.body 13 8 < 2 ∨ 64 < dat w.body 13 8) →
    Completes (.rlCreate w.wid) s (fun t => t = complete w .malformed 0x03 s ∧ OnlyChanges [.host, .work, .tt, .ft, .tn, .out] s t)) ∧
  (∀ (s : State) (w : Work) (n : Nat), s.live = true → s.item w.wid = some w → w.prog = .create n →
    dat w.body 12 8 + dat w.body 13 8 ≤ pfFree (connStation n) (dat w.body 8 3) s → Completes (.rlCreateUnitsReserved w.wid) s (fun t =>
      Ends w .ok n t (fun u =>
        u.conn n = {
          st := .init, cls := dat w.body 8 3, v2 := (dat w.body 10 8).testBit 0, paths := BitVec.ofNat 4 (dat w.body 9 4),
          tenant := w.tenant, context := w.context, part := w.part, txUnits := dat w.body 12 8, rxUnits := dat w.body 13 8 } ∧
        (∀ k, k ≠ n → u.conn k = s.conn k) ∧ OnlyChanges [.rc, .ho] s u))) ∧
  (∀ (s : State) (w : Work) (n : Nat), s.live = true → s.item w.wid = some w → w.prog = .create n →
    Completes (.rlCreateWaitExpire w.wid) s (fun t =>
      t = complete w .platformExhausted 0 s ∧ OnlyChanges [.host, .work, .tt, .ft, .tn, .out] s t)) ∧
  (∀ (s : State) (w : Work), MayStart s w 0x41 → connOf w ≠ 0 → connOf w < 4096 → (s.conn (connOf w)).st = .init →
    (s.conn (connOf w)).tenant = w.tenant → dat w.body 10 7 ≠ s.me →
    (∃ k < 4, (s.conn (connOf w)).paths.getLsbD k = true ∧ (s.route (dat w.body 10 7) k).valid = true) → Completes (.rlConnect w.wid) s (fun t =>
      At w (.conn (connOf w)) t ∧ (t.conn (connOf w)).st = .opening ∧ (t.conn (connOf w)).peerNode = dat w.body 10 7 ∧
      (t.conn (connOf w)).peerConn = dat w.body 12 16 ∧ (t.conn (connOf w)).opener = some w.wid ∧
      (∀ k, k ≠ connOf w → t.conn k = s.conn k) ∧ (∃ u, OnlyChanges [.work, .rc] s u ∧ t = s.kept (sendHello (connOf w) u)) ∧
      OnlyChanges [.work, .rail, .rc, .ft] s t)) ∧
  (∀ (s : State) (w : Work), MayStart s w 0x41 → connOf w ≠ 0 → connOf w < 4096 → (s.conn (connOf w)).st ≠ .init →
    (s.conn (connOf w)).tenant = w.tenant → Completes (.rlConnect w.wid) s (fun t =>
      t = complete w .malformed 0x02 s ∧ OnlyChanges [.host, .work, .tt, .ft, .tn, .out] s t)) ∧
  (∀ (s : State) (c : Nat), s.live = true → (s.conn c).st = .opening → Completes (.helloResend c) s (fun t =>
    t = s.kept (sendHello c s) ∧ (t.conn c).st = .opening ∧ t.rc.txPkts = s.rc.txPkts + 1 ∧ OnlyChanges [.rail, .rc, .ft] s t)) ∧
  (∀ (s : State) (w : Work) (c : Nat), s.live = true → (s.conn c).st = .opening → (s.conn c).opener = some w.wid → s.item w.wid = some w →
    Completes (.rlConnectWaitExpire c) s (fun t => Ends w .remoteTimeout 0 t (fun u =>
      u.conn c = { s.conn c with st := .init, opener := none } ∧ (∀ k, k ≠ c → u.conn k = s.conn k) ∧ OnlyChanges [.rc] s u))) ∧
  (∀ (s : State) (w : Work), MayStart s w 0x42 → connOf w ≠ 0 → connOf w < 4096 → (s.conn (connOf w)).tenant = w.tenant →
    ((s.conn (connOf w)).st = .init ∨ (s.conn (connOf w)).st = .error) → (s.conn (connOf w)).queue = [] → (s.conn (connOf w)).recvs = [] →
    (s.conn (connOf w)).rx = [] → (s.conn (connOf w)).opener = none → (∀ kv ∈ s.tt.entries, (s.entry kv.1).st ≠ .handoffOut) →
    Completes (.rlClose w.wid) s (fun t => Ends w .ok 0 t (fun u =>
      u.conn (connOf w) = {} ∧ (∀ k, k ≠ connOf w → u.conn k = s.conn k) ∧ OnlyChanges [.rc] s u))) ∧
  (∀ (s : State) (w : Work), MayStart s w 0x42 → connOf w ≠ 0 → connOf w < 4096 → (s.conn (connOf w)).tenant = w.tenant →
    (s.conn (connOf w)).st = .opened → (s.conn (connOf w)).queue = [] → (s.conn (connOf w)).recvs = [] → (s.conn (connOf w)).rx = [] →
    (s.conn (connOf w)).txq = [] → (∀ kv ∈ s.tt.entries, (s.entry kv.1).st ≠ .handoffOut) → Completes (.rlClose w.wid) s (fun t =>
      ((s.conn (connOf w)).unacked = [] → Ends w .ok 0 t (fun u => u.conn (connOf w) = {} ∧ u.rc.txPkts = s.rc.txPkts + 1 ∧
        (∀ k, k ≠ connOf w → u.conn k = s.conn k) ∧ OnlyChanges [.work, .rail, .rc, .ft] s u)) ∧
      ((s.conn (connOf w)).unacked ≠ [] → At w (.conn (connOf w)) t ∧ OnlyChanges [.work, .rc] s t ∧
        t.conn (connOf w) = { s.conn (connOf w) with st := .closing, opener := some w.wid })))

/-- R559, R561, R565, R569: RL_REGISTER registers a range of a region under the lowest free slot and answers a key whose generation is not
0; RL_REVOKE revokes a registration, at once when no message of it is in flight, and waits for them otherwise; a key of another generation
is invalid; RL_TRIGGER_SET binds and sets a counter or releases it. -/
def Obligations.RailKeysAndTriggers : Prop :=
  (∀ (s : State) (w : Work) (g : Region) (k : Nat), MayStart s w 0x49 → s.region (dat w.body 8 8) = some g → g.part = w.part →
    dat w.body 16 64 + dat w.body 24 64 ≤ g.size → 1 ≤ dat w.body 9 8 → dat w.body 9 8 ≤ 7 → dat w.body 16 64 % 4096 = 0 →
    dat w.body 24 64 % 4096 = 0 → dat w.body 24 64 ≠ 0 → freeSlot s = some k → Completes (.rlRegister w.wid) s (fun t =>
      ∃ gen, 1 ≤ gen ∧ gen < 65536 ∧ Ends w .ok (gen * 65536 + k) t (fun u =>
        (u.slot k).st = .registered ∧ (u.slot k).gen.toNat = gen ∧ (u.slot k).rights.toNat = dat w.body 9 8 ∧ (u.slot k).tenant = w.tenant ∧
        (u.slot k).regionId = dat w.body 8 8 ∧ (u.slot k).offset = dat w.body 16 64 ∧ (u.slot k).length = dat w.body 24 64 ∧
        (u.slot k).inFlight = 0 ∧ (∀ j, j ≠ k → u.slot j = s.slot j) ∧ OnlyChanges [.rc, .free] s u))) ∧
  (∀ (s : State) (w : Work) (g : Region), MayStart s w 0x49 → s.region (dat w.body 8 8) = some g → g.part = w.part →
    (g.size < dat w.body 16 64 + dat w.body 24 64 ∨ dat w.body 9 8 = 0 ∨ 7 < dat w.body 9 8 ∨ dat w.body 16 64 % 4096 ≠ 0 ∨ dat w.body 24 64 % 4096 ≠ 0 ∨ dat w.body 24 64 = 0) →
    Completes (.rlRegister w.wid) s (fun t =>
      t = complete w .malformed 0x07 s ∧ OnlyChanges [.host, .work, .tt, .ft, .tn, .out] s t)) ∧
  (∀ (s : State) (w : Work), MayStart s w 0x4A → (s.slot (dat w.body 40 32 % 65536)).st = .registered →
    (s.slot (dat w.body 40 32 % 65536)).tenant = w.tenant → (s.slot (dat w.body 40 32 % 65536)).gen.toNat = dat w.body 40 32 / 65536 →
    (∀ x ∈ s.work, x.prog ≠ .revoke (dat w.body 40 32 % 65536)) → Completes (.rlRevoke w.wid) s (fun t =>
      ((s.slot (dat w.body 40 32 % 65536)).inFlight = 0 → Ends w .ok 0 t (fun u =>
        u.slot (dat w.body 40 32 % 65536) = { s.slot (dat w.body 40 32 % 65536) with st := .revoked } ∧
        (∀ j, j ≠ dat w.body 40 32 % 65536 → u.slot j = s.slot j) ∧ OnlyChanges [.work, .rc] s u)) ∧
      ((s.slot (dat w.body 40 32 % 65536)).inFlight ≠ 0 → At w (.revoke (dat w.body 40 32 % 65536)) t ∧
        t.slot (dat w.body 40 32 % 65536) = { s.slot (dat w.body 40 32 % 65536) with st := .revoking } ∧ OnlyChanges [.work, .rc] s t))) ∧
  (∀ (s : State) (w : Work), MayStart s w 0x4A → (s.slot (dat w.body 40 32 % 65536)).tenant = w.tenant →
    (s.slot (dat w.body 40 32 % 65536)).gen.toNat ≠ dat w.body 40 32 / 65536 → Completes (.rlRevoke w.wid) s (fun t =>
      t = complete w .keyInvalid 0 s ∧ OnlyChanges [.host, .work, .tt, .ft, .tn, .out] s t)) ∧
  (∀ (s : State) (w : Work), MayStart s w 0x4B → dat w.body 8 16 < 4096 →
    ((s.trig (dat w.body 8 16)).bound = false ∨ (s.trig (dat w.body 8 16)).tenant = w.tenant) → Completes (.rlTriggerSet w.wid) s (fun t =>
      Ends w .ok 0 t (fun u =>
        u.trig (dat w.body 8 16) = (if (dat w.body 16 8).testBit 0 then { s.trig (dat w.body 8 16) with bound := false }
          else { bound := true, tenant := w.tenant, value := BitVec.ofNat 32 (dat w.body 12 32) }) ∧
        (∀ n, n ≠ dat w.body 8 16 → u.trig n = s.trig n) ∧ OnlyChanges [.rc] s u))) ∧
  (∀ (s : State) (w : Work), MayStart s w 0x4B → dat w.body 8 16 < 4096 → (s.trig (dat w.body 8 16)).bound = true →
    (s.trig (dat w.body 8 16)).tenant ≠ w.tenant → Completes (.rlTriggerSet w.wid) s (fun t =>
      t = complete w .tenantMismatch 0 s ∧ OnlyChanges [.host, .work, .tt, .ft, .tn, .out] s t))

/-- R548 to R551, R557, R567, R569: a work request that passes the checks queues on its connection, a RECV is posted, one that fails them
completes so; in its turn a request issues: its packet leaves with the next MSEQ, its bytes read then; an armed one only once its counter
has reached the threshold; a fence completes when everything before it is visible; an unacknowledged packet is sent again, until the
limit takes its connection to ERROR. -/
def Obligations.RailRequests : Prop :=
  (∀ (s : State) (w : Work) (c : Instr) (op : Byte), (c, op) ∈ [(Instr.rlSend w.wid, (0x43 : Byte)), (Instr.rlWrite w.wid, 0x45),
    (Instr.rlRead w.wid, 0x46), (Instr.rlAtomic w.wid, 0x47), (Instr.rlFence w.wid, 0x48)] → MayStart s w op → reqChecks w s = none →
    Completes c s (fun t =>
      At w (.rail {}) t ∧ t.conn (connOf w) = { s.conn (connOf w) with queue := insertSorted w.wid (s.conn (connOf w)).queue } ∧
      (∀ k, k ≠ connOf w → t.conn k = s.conn k) ∧ OnlyChanges [.work, .rc] s t)) ∧
  (∀ (s : State) (w : Work), MayStart s w 0x44 → reqChecks w s = none → Completes (.rlRecv w.wid) s (fun t =>
    At w .posted t ∧ t.conn (connOf w) = { s.conn (connOf w) with recvs := insertSorted w.wid (s.conn (connOf w)).recvs } ∧
    (∀ k, k ≠ connOf w → t.conn k = s.conn k) ∧ OnlyChanges [.work, .rc] s t)) ∧
  (∀ (s : State) (w : Work) (st : Status) (r : Nat) (c : Instr) (op : Byte), (c, op) ∈ [(Instr.rlSend w.wid, (0x43 : Byte)),
    (Instr.rlRecv w.wid, 0x44), (Instr.rlWrite w.wid, 0x45), (Instr.rlRead w.wid, 0x46), (Instr.rlAtomic w.wid, 0x47),
    (Instr.rlFence w.wid, 0x48)] → MayStart s w op → reqChecks w s = some (st, r) → Completes c s (fun t =>
      t = complete w st r s ∧ OnlyChanges [.host, .work, .tt, .ft, .tn, .out] s t)) ∧
  (∀ (s : State) (w : Work), MayStart s w 0x45 → connOf w ≠ 0 → connOf w < 4096 → (s.conn (connOf w)).tenant = w.tenant →
    refForeign s w.part (localRef w) = false → (dat w.body 10 8).testBit 0 = false → (s.conn (connOf w)).st = .init →
    Completes (.rlWrite w.wid) s (fun t => t = complete w .malformed 0x02 s)) ∧
  (∀ (s : State) (w : Work) (c : Instr), s.live = true → s.item w.wid = some w → w.prog = .rail {} → hasTurn w s = true → w.opcode ≠ 0x48 →
    (c = .railRequestIssue w.wid ∧ armed w = false ∨ c = .armedRequestIssue w.wid ∧ armed w = true ∧ (s.trig (dat w.body 12 16)).bound = true ∧
      (s.trig (dat w.body 12 16)).tenant = w.tenant ∧ dat w.body 16 32 ≤ (s.trig (dat w.body 12 16)).value.toNat) →
    1 ≤ reqLen w → reqLen w ≤ maxData (connOf w) (s.conn (connOf w)) → (s.conn (connOf w)).txq = [] → (s.conn (connOf w)).saved = false →
    (s.conn (connOf w)).unacked.length < txLimit (connOf w) (s.conn (connOf w)) → Completes c s (fun t =>
      (∃ x, (t.conn (connOf w)).unacked = (s.conn (connOf w)).unacked ++ [x] ∧ x.pkt.op = reqOp w ∧ x.pkt.mseq = (s.conn (connOf w)).nextMseq ∧
        x.dst = reqDst w s ∧ x.sends = 1 ∧ x.pkt.rkey.toNat = dat w.body 40 32 ∧ x.pkt.raddr = dat w.body 32 46 ∧
        (w.opcode = 0x43 ∨ w.opcode = 0x45 → x.pkt.data = refRead s (localRef w) 0 (reqLen w) ∧ x.pkt.poison = refPoisoned s (localRef w) 0 (reqLen w)) ∧
        (w.opcode = 0x46 → x.pkt.mlen = BitVec.ofNat 32 (reqLen w))) ∧
      (t.conn (connOf w)).nextMseq = (s.conn (connOf w)).nextMseq + 1 ∧
      (∃ r, At w (.rail r) t ∧ r.issued = true ∧ r.firstMseq = (s.conn (connOf w)).nextMseq ∧ r.lastMseq = (s.conn (connOf w)).nextMseq ∧ r.msgs = 1) ∧
      OnlyChanges [.work, .rail, .rc, .ft] s t)) ∧
  (∀ (s : State) (w : Work), s.item w.wid = some w → w.prog = .rail {} → armed w = true →
    (s.trig (dat w.body 12 16)).value.toNat < dat w.body 16 32 → Completes (.armedRequestIssue w.wid) s (OnlyChanges [] s)) ∧
  (∀ (s : State) (w : Work), s.live = true → s.item w.wid = some w → w.prog = .rail {} → w.opcode = 0x48 → armed w = false →
    (s.conn (connOf w)).st = .opened → (s.conn (connOf w)).queue = [w.wid] → (s.conn (connOf w)).cum = (s.conn (connOf w)).nextMseq →
    Completes (.railRequestIssue w.wid) s (fun t => Ends w .ok 0 t (fun u =>
      u.conn (connOf w) = { s.conn (connOf w) with queue := [], recvs := (s.conn (connOf w)).recvs.filter (· != w.wid) } ∧
      OnlyChanges [.work, .rc] s u))) ∧
  (∀ (s : State) (c : Nat) (m : W32) (o : Nat) (x : TxPkt), s.live = true → (s.conn c).unacked = [x] → x.pkt.mseq = m → x.pkt.offset = o →
    (c = 0 ∨ x.sends < max 1 s.rc.retxMax.toNat) → Completes (.retxTimer c m o) s (fun t =>
      (∃ y, (t.conn c).unacked = [y] ∧ y.pkt = x.pkt ∧ y.sends = x.sends + 1) ∧ (t.conn c).retx = (s.conn c).retx + 1 ∧
      t.rc.retx = s.rc.retx + 1 ∧ t.rc.txPkts = s.rc.txPkts + 1 ∧ OnlyChanges [.rail, .rc, .ft] s t)) ∧
  (∀ (s : State) (c : Nat) (m : W32) (o : Nat) (x : TxPkt), s.live = true → c ≠ 0 → (s.conn c).unacked = [x] → x.pkt.mseq = m → x.pkt.offset = o →
    max 1 s.rc.retxMax.toNat ≤ x.sends → (s.conn c).queue = [] → (s.conn c).recvs = [] → (s.conn c).rx = [] → (s.conn c).opener = none →
    s.tt.entries = [] → Completes (.retxTimer c m o) s (fun t =>
      (t.conn c).st = .error ∧ (t.conn c).unacked = [] ∧ (∀ k, k ≠ c → t.conn k = s.conn k) ∧ OnlyChanges [.host, .power, .rc, .ft, .out] s t))

/-- R554 to R556, R560, R562 to R564, R566: a complete SEND fills the oldest posted RECV and completes it with its length, or both are
refused when it is too long; a complete WRITE stores its bytes in its range and nowhere else, and counts a notification; a refused one
changes no byte; a READ_REQ answers the bytes there now; FADD and CSWAP update the word and answer its old value, and a poisoned word is
answered with poison and left; a read that times out ends with REMOTE_TIMEOUT. -/
def Obligations.RailEffects : Prop :=
  (∀ (s : State) (c id off : Nat) (m : RxMsg) (w : Work) (ws : List Work) (g : Region) (bs : List Byte), s.awake = true → c ≠ 0 →
    nextRx c (· == 1) s = some m → (s.conn c).recvs.filterMap s.item = w :: ws → w.prog = .posted → localRef w = .hbm id off →
    s.region id = some g → m.mlen ≤ reqLen w → m.got = [(0, bs)] → m.poison = false → m.slot = none → m.notify = none →
    (s.conn c).st = .opened → noneDropped c s → Completes (.sendEffect c) s (fun t => Ends w .ok m.mlen t (fun u =>
      u.mem.hbm = regionPut g off bs s.mem.hbm ∧ (∀ a, (∀ i < bs.length, a ≠ regionAddr g (off + i)) → hbmByte u a = hbmByte s a) ∧
      (u.conn c).rxCum = (s.conn c).rxCum + 1 ∧ (u.conn c).recvs = (s.conn c).recvs.filter (· != w.wid) ∧
      OnlyChanges [.waybill, .mem, .rail, .rc, .ft] s u))) ∧
  (∀ (s : State) (c : Nat) (m : RxMsg) (w : Work) (ws : List Work), s.awake = true → c ≠ 0 → nextRx c (· == 1) s = some m →
    (s.conn c).recvs.filterMap s.item = w :: ws → w.prog = .posted → reqLen w < m.mlen → m.slot = none → (s.conn c).st = .opened → noneDropped c s →
    Completes (.sendEffect c) s (fun t => Gone w t ∧ t.mem = s.mem ∧
      ∃ u, OnlyChanges [.rc] s u ∧ t = s.kept (refuseRx c m .malformed (complete w .malformed 0x0B u)))) ∧
  (∀ (s : State) (c : Nat), nextRx c (· == 1) s = none ∨ (s.conn c).recvs = [] → Completes (.sendEffect c) s (OnlyChanges [] s)) ∧
  (∀ (s : State) (c k id off : Nat) (m : RxMsg) (g : Region) (bs : List Byte), s.awake = true → c ≠ 0 → nextRx c (· == 2) s = some m →
    m.refused = none → m.ctl = none → slotRef s m = .hbm id off → s.region id = some g → m.got = [(0, bs)] → m.poison = false → m.slot = some k →
    (s.slot k).st = .registered → (s.conn c).st = .opened → noneDropped c s → Completes (.writeEffect c) s (fun t =>
      t.mem.hbm = regionPut g off bs s.mem.hbm ∧ (∀ a, (∀ i < bs.length, a ≠ regionAddr g (off + i)) → hbmByte t a = hbmByte s a) ∧
      (t.conn c).rxCum = (s.conn c).rxCum + 1 ∧ (t.slot k).inFlight = (s.slot k).inFlight - 1 ∧
      (m.notify = none → t.rc.trigs = s.rc.trigs) ∧
      (∀ n, m.notify = some n → (s.trig n).bound = true → (s.trig n).tenant = (s.conn c).tenant →
        (t.trig n).value = satBv (s.trig n).value 1 ∧ ∀ j, j ≠ n → t.trig j = s.trig j) ∧
      OnlyChanges [.waybill, .mem, .rail, .rc, .ft] s t)) ∧
  (∀ (s : State) (c : Nat) (m : RxMsg) (st : Status), s.awake = true → c ≠ 0 → nextRx c (· == 2) s = some m → m.refused = some st →
    m.slot = none → (s.conn c).st = .opened → noneDropped c s → Completes (.writeEffect c) s (fun t =>
      (t.conn c).rxCum = (s.conn c).rxCum + 1 ∧ t.rc.txPkts = s.rc.txPkts + 2 ∧ OnlyChanges [.rail, .rc, .ft] s t)) ∧
  (∀ (s : State) (c k : Nat) (m : RxMsg), s.awake = true → c ≠ 0 → nextRx c (· == 3) s = some m → m.refused = none → m.ctl = none →
    m.slot = some k → (s.slot k).st = .registered → (s.conn c).st = .opened → noneDropped c s → 1 ≤ m.mlen → m.mlen ≤ maxData c (s.conn c) →
    (s.conn c).txq = [] → (s.conn c).saved = false → (s.conn c).unacked.length < txLimit c (s.conn c) → Completes (.readReqEffect c) s (fun t =>
      (∃ x, (t.conn c).unacked = (s.conn c).unacked ++ [x] ∧ x.pkt.op = 4 ∧ x.pkt.mseq = m.mseq ∧ x.dst = m.src ∧
        x.pkt.data = refRead s (slotRef s m) 0 m.mlen ∧ x.pkt.poison = refPoisoned s (slotRef s m) 0 m.mlen) ∧
      (t.conn c).rxCum = (s.conn c).rxCum + 1 ∧ (t.slot k).inFlight = (s.slot k).inFlight - 1 ∧ OnlyChanges [.rail, .rc, .ft] s t)) ∧
  (∀ (s : State) (c k id off : Nat) (m : RxMsg) (g : Region), s.awake = true → c ≠ 0 → m.refused = none → m.slot = some k →
    (s.slot k).st = .registered → (s.conn c).st = .opened → noneDropped c s → slotRef s m = .hbm id off → s.region id = some g →
    (s.conn c).txq = [] → (s.conn c).saved = false → (s.conn c).unacked.length < txLimit c (s.conn c) → refPoisoned s (slotRef s m) 0 8 = false →
    (nextRx c (· == 5) s = some m → Completes (.faddEffect c) s (fun t =>
      t.mem.hbm = regionPut g off (leBytes 8 ((refNum s (slotRef s m) 0 8 + m.operand.toNat) % 2 ^ 64)) s.mem.hbm ∧
      (∃ x, (t.conn c).unacked = (s.conn c).unacked ++ [x] ∧ x.pkt.op = 7 ∧ x.pkt.mseq = m.mseq ∧
        x.pkt.operand = BitVec.ofNat 64 (refNum s (slotRef s m) 0 8) ∧ x.pkt.poison = false) ∧
      (t.conn c).rxCum = (s.conn c).rxCum + 1 ∧ OnlyChanges [.waybill, .mem, .rail, .rc, .ft] s t)) ∧
    (∀ v, nextRx c (· == 6) s = some m → m.got = [(0, v)] → Completes (.cswapEffect c) s (fun t =>
      (refNum s (slotRef s m) 0 8 = m.operand.toNat → t.mem.hbm = regionPut g off (leBytes 8 (ofBytes v)) s.mem.hbm) ∧
      (refNum s (slotRef s m) 0 8 ≠ m.operand.toNat → ∀ a, hbmByte t a = hbmByte s a) ∧
      (∃ x, (t.conn c).unacked = (s.conn c).unacked ++ [x] ∧ x.pkt.op = 7 ∧ x.pkt.mseq = m.mseq ∧
        x.pkt.operand = BitVec.ofNat 64 (refNum s (slotRef s m) 0 8)) ∧
      (t.conn c).rxCum = (s.conn c).rxCum + 1 ∧ OnlyChanges [.waybill, .mem, .rail, .rc, .ft] s t))) ∧
  (∀ (s : State) (c k : Nat) (m : RxMsg), s.awake = true → c ≠ 0 → nextRx c (· == 5) s = some m → m.refused = none → m.slot = some k →
    (s.slot k).st = .registered → (s.conn c).st = .opened → noneDropped c s → (s.conn c).txq = [] → (s.conn c).saved = false →
    (s.conn c).unacked.length < txLimit c (s.conn c) → refPoisoned s (slotRef s m) 0 8 = true → Completes (.faddEffect c) s (fun t =>
      t.mem = s.mem ∧ (∃ x, (t.conn c).unacked = (s.conn c).unacked ++ [x] ∧ x.pkt.op = 7 ∧ x.pkt.poison = true) ∧
      OnlyChanges [.rail, .rc, .ft] s t)) ∧
  (∀ (s : State) (w : Work), s.live = true → s.item w.wid = some w → (w.opcode = 0x46 ∨ w.opcode = 0x47) →
    (∃ r, w.prog = .rail r ∧ r.issued = true ∧ r.reset = none) → (s.conn (connOf w)).st = .opened → Completes (.rlTimeoutExpire w.wid) s (fun t =>
      Ends w .remoteTimeout (((railOf w).got.map Prod.snd).sum) t (fun u =>
        u.rc.timeouts = s.rc.timeouts + 1 ∧ (u.conn (connOf w)).queue = (s.conn (connOf w)).queue.filter (· != w.wid) ∧
        (u.conn (connOf w)).st = .opened ∧ u.ft.fault = true)))

/-! ## Handing a request over -/

/-- R574, R587, R589, R590, R592, R604, R607, R609: a GRANT lets items go with the credits it gives and the round trip measured; a CREDIT
adds; with a credit the next item leaves and COMMIT follows the last one; a poisoned source loses the request; ACCEPT, or a probe's
OWNED, makes the entry a STUB; REFUSE, ABORT or NOT_HELD leaves the request with the sender under epoch E + 2; the timer sends PROBE. -/
def Obligations.HandoffSender : Prop :=
  (∀ (s : State) (c n h : Nat) (m : Ctl) (x : Sender), HandoffOn c s → m.ctype = 0x02 → NamesSender m x s → x.conn = c → x.phase = .offered →
    m.body = .grant n h → Completes (.grant c m) s (fun t =>
      t.entry m.sEntry = { s.entry m.sEntry with
        snd := some { x with phase := .sending, credits := n, rEntry := m.rEntry, rtt := s.clk.sc - x.offerSc - h } } ∧
      (∀ k, k ≠ m.sEntry → t.entry k = s.entry k) ∧ OnlyChanges [.tt] s t)) ∧
  (∀ (s : State) (c n : Nat) (m : Ctl) (x : Sender), HandoffOn c s → m.ctype = 0x05 → NamesSender m x s → x.conn = c → m.body = .credit n →
    Completes (.credit c m) s (fun t =>
      t.entry m.sEntry = { s.entry m.sEntry with snd := some { x with credits := x.credits + n } } ∧
      (∀ k, k ≠ m.sEntry → t.entry k = s.entry k) ∧ OnlyChanges [.tt] s t)) ∧
  (∀ (s : State) (i : Nat) (x : Sender) (p st : List Byte), s.awake = true → (s.entry i).st = .handoffOut → (s.entry i).snd = some x →
    x.phase = .sending → 0 < x.credits → x.sent < x.items → toCode x.sent s = true → hasCodec (s.entry i).part s = true →
    codeSource i x.sent s = (some p, s) → (needsStream (itemCodec i x.sent s) p = true → streamFits (itemCodec i x.sent s) p st = true) →
    Completes (.handoffItemSend i st) s (fun t =>
      (∃ b, b = codeBlock (itemCodec i x.sent s) (s.keysOf (s.entry i).tenant).remote.toNat (Config.random s.free)
          (sleeperKey s (s.entry i).tenant true) p st ∧
        t.entry i = { s.entry i with snd := some { x with
          sent := x.sent + 1, credits := x.credits - 1, records := x.records ++ [b.record],
          phase := if x.sent + 1 < x.items then .sending else .committed } }) ∧
      (∀ k, k ≠ i → t.entry k = s.entry k) ∧ t.ho.itemsTx = s.ho.itemsTx + 1 ∧
      OnlyChanges [.sleeper, .tt, .rail, .rc, .ho, .ft, .free] s t)) ∧
  (∀ (s : State) (i : Nat) (x : Sender) (b : Block) (st : List Byte), s.awake = true → (s.entry i).st = .handoffOut → (s.entry i).snd = some x →
    x.phase = .sending → 0 < x.credits → x.sent < x.items → toCode x.sent s = false → storedItem i x.sent s = some b →
    Completes (.handoffItemSend i st) s (fun t =>
      t.entry i = { s.entry i with snd := some { x with
        sent := x.sent + 1, credits := x.credits - 1, records := x.records ++ [b.record],
        phase := if x.sent + 1 < x.items then .sending else .committed } } ∧
      (∀ k, k ≠ i → t.entry k = s.entry k) ∧ t.ho.itemsTx = s.ho.itemsTx + 1 ∧ OnlyChanges [.tt, .rail, .rc, .ho, .ft] s t)) ∧
  (∀ (s : State) (i : Nat) (x : Sender) (st : List Byte), s.awake = true → (s.entry i).st = .handoffOut → (s.entry i).snd = some x →
    x.phase = .sending → 0 < x.credits → x.sent < x.items → toCode x.sent s = true → hasCodec (s.entry i).part s = true →
    codeSource i x.sent s = (none, s) → x.wid = none → x.cancels = [] → (s.entry i).askers = [] → Completes (.handoffItemSend i st) s (fun t =>
      (t.entry i).st = .lost ∧ (t.entry i).cause = 0x14 ∧ (t.entry i).list = 0 ∧ (∀ k, k ≠ i → t.entry k = s.entry k) ∧
      t.ho.outLost = s.ho.outLost + 1)) ∧
  (∀ (s : State) (c : Nat) (m : Ctl) (x : Sender) (cmd : Instr), HandoffOn c s → NamesSender m x s → x.conn = c → x.phase ≠ .probing →
    (cmd = .refuse c m ∧ m.ctype = 0x03 ∨ cmd = .abort c m ∧ m.ctype = 0x07) → Completes cmd s (fun t =>
      (x.wid = none → KeptAt m.sEntry m.status s t ∧ OnlyChanges [.host, .tt, .ho, .out] s t) ∧
      (∀ w, x.wid = some w.wid → s.item w.wid = some w → Ends w (statusOf m.status.toNat) m.reason.toNat t (fun u =>
        KeptAt m.sEntry m.status s u ∧ OnlyChanges [.tt, .ho] s u)))) ∧
  (∀ (s : State) (src : Nat) (m : Ctl) (x : Sender) (e : W32) (cmd : Instr), s.awake = true → (s.conn 0).rx = [] → NamesSender m x s →
    (s.entry m.sEntry).node = src →
    (cmd = .accept src m ∧ m.ctype = 0x08 ∧ x.phase = .committed ∧ m.body = .newEpoch e ∨
      cmd = .probeReply src m ∧ m.ctype = 0x0A ∧ x.phase = .probing ∧ m.body = .probeReply true e) → Completes cmd s (fun t =>
      (x.wid = none → MovedAt m.sEntry e s t ∧ OnlyChanges [.groves, .waybill, .mem, .tt, .ho] s t) ∧
      (∀ w, x.wid = some w.wid → s.item w.wid = some w → Ends w .ok (src + e.toNat * 2 ^ 32) t (fun u =>
        MovedAt m.sEntry e s u ∧ OnlyChanges [.groves, .waybill, .mem, .tt, .ho] s u)))) ∧
  (∀ (s : State) (src : Nat) (m : Ctl) (x : Sender) (e : W32), s.awake = true → (s.conn 0).rx = [] → NamesSender m x s →
    (s.entry m.sEntry).node = src → m.ctype = 0x0A → x.phase = .probing → m.body = .probeReply false e → x.wid = none →
    Completes (.probeReply src m) s (fun t => KeptAt m.sEntry 0x33 s t ∧ OnlyChanges [.host, .tt, .ho, .out] s t)) ∧
  (∀ (s : State) (i : Nat) (x : Sender), s.live = true → (s.entry i).st = .handoffOut → (s.entry i).snd = some x →
    (x.phase ≠ .sending ∨ x.credits = 0) → Completes (.handoffTimerExpire i) s (fun t =>
      t.entry i = { s.entry i with version := (s.entry i).version + 1, snd := some { x with phase := .probing } } ∧
      (∀ k, k ≠ i → t.entry k = s.entry k) ∧ t.ho.probes = s.ho.probes + 1 ∧
      (∃ u, OnlyChanges [.tt, .ho] s u ∧ t = s.kept (mgmtSend (s.entry i).node
        { ctype := 0x09, sEntry := i, rEntry := x.rEntry, status := 0, reason := 0, reqId := (s.entry i).reqId, epoch := (s.entry i).epoch,
          origin := s.me, body := .none } u)) ∧
      OnlyChanges [.tt, .ho, .rail, .rc, .ft] s t))

/-- R593, R595 to R600, R605, R609: an OFFER that passes the tests takes a FREE entry in HANDOFF_IN with its reservations and draws GRANT,
waits while units are missing, and is refused with the test's reason, or with 0x0A when it waited too long; items are staged and written
in order, each counted; the last one under COMMIT makes the receiver owner with epoch E + 1, and ACCEPT goes out; a bad item, or ABORT,
returns the entry to FREE. -/
def Obligations.HandoffReceiver : Prop :=
  (∀ (s : State) (c need w i : Nat) (m : Ctl) (o : Offer), HandoffOn c s → m.ctype = 0x01 → m.body = .offer o → offerTests c o s = .ok need →
    stagingUnits c s = some w → freeEntry (s.conn c).part (connStation c) s = some i → isGen s = true → Completes (.offer c m) s (fun t =>
      (t.entry i).st = .handoffIn ∧ (t.entry i).reqId = m.reqId ∧ (t.entry i).epoch = m.epoch ∧ (t.entry i).node = (s.conn c).peerNode ∧
      (t.entry i).tenant = (s.conn c).tenant ∧ (t.entry i).promptLen = o.promptLen ∧ (t.entry i).length = o.length ∧ (t.entry i).resPages = need ∧
      (∃ r, (t.entry i).rcv = some r ∧ r.conn = c ∧ r.sEntry = m.sEntry ∧ r.window = w ∧ r.offer = some o ∧ r.staged = [] ∧ r.records = []) ∧
      (∀ k, k ≠ i → t.entry k = s.entry k) ∧
      (t.pool (s.ttregs (s.conn c).part).pool).reserved = (s.pool (s.ttregs (s.conn c).part).pool).reserved + need ∧
      (∃ u, t = s.kept (connSend c (receiverMsg m (some i) 0x02 0 0 (.grant w 0)) u)) ∧ OnlyChanges [.mem, .tt, .rail, .rc, .ho, .ft, .free] s t)) ∧
  (∀ (s : State) (c n : Nat) (m : Ctl) (o : Offer) (st : Status) (box : Bool), HandoffOn c s → m.ctype = 0x01 → m.body = .offer o →
    offerTests c o s = .error ((st, n), box) → Completes (.offer c m) s (fun t =>
      t.tt.entries = s.tt.entries ∧ (∃ u, OnlyChanges [.tt] s u ∧
        t = s.kept (connSend c (receiverMsg m none 0x03 st.code (BitVec.ofNat 8 n) .none) u)) ∧ OnlyChanges [.tt, .rail, .rc, .ft] s t)) ∧
  (∀ (s : State) (c need : Nat) (m : Ctl) (o : Offer), HandoffOn c s → m.ctype = 0x01 → m.body = .offer o → offerTests c o s = .ok need →
    stagingUnits c s = none → Completes (.offer c m) s (fun t =>
      t.ho.waiting = s.ho.waiting ++ [{ conn := c, msg := m, sc := s.clk.sc }] ∧ OnlyChanges [.ho] s t)) ∧
  (∀ (s : State) (c need w i : Nat) (x : WaitOffer) (o : Offer), s.awake = true → waitingOffer c s = some x → x.msg.body = .offer o →
    (s.conn c).handoff = true → stagingUnits c (dropWaiting c s) = some w → offerTests c o (dropWaiting c s) = .ok need →
    stagingUnits c s = some w → freeEntry (s.conn c).part (connStation c) s = some i → isGen s = true →
    Completes (.handoffUnitsReserved c) s (fun t =>
      (t.entry i).st = .handoffIn ∧ (t.entry i).reqId = x.msg.reqId ∧ (∀ k, k ≠ i → t.entry k = s.entry k) ∧
      t.ho.waiting = s.ho.waiting.eraseP (fun y => y.conn == c) ∧
      (∃ u, t = s.kept (connSend c (receiverMsg x.msg (some i) 0x02 0 0 (.grant w (s.clk.sc - x.sc))) u)) ∧
      OnlyChanges [.mem, .tt, .rail, .rc, .ho, .ft, .free] s t)) ∧
  (∀ (s : State) (c : Nat) (x : WaitOffer), s.live = true → waitingOffer c s = some x → Completes (.handoffPlatformWaitExpire c) s (fun t =>
    t = s.kept (connSend c (receiverMsg x.msg none 0x03 0x22 0x0A .none) (dropWaiting c s)) ∧ t.tt = s.tt ∧
    t.ho.waiting = s.ho.waiting.eraseP (fun y => y.conn == c) ∧ OnlyChanges [.rail, .rc, .ho, .ft] s t)) ∧
  (∀ (s : State) (c i n : Nat) (m : Ctl) (r : Receiver) (b : Block), HandoffOn c s → m.ctype = 0x04 → NamesReceiver c m i r s → m.body = .data n [b] →
    Completes (.handoffData c m) s (fun t =>
      t.entry i = { s.entry i with rcv := some { r with staged := r.staged ++ [(n, b)] } } ∧ (∀ k, k ≠ i → t.entry k = s.entry k) ∧
      OnlyChanges [.tt] s t)) ∧
  (∀ (s : State) (i : Nat) (r : Receiver) (o : Offer) (b : Block) (p : List Byte), s.awake = true → (s.entry i).st = .handoffIn →
    (s.entry i).rcv = some r → r.records = [] → r.staged.find? (fun x => x.1 == 0) = some (0, b) → r.offer = some o → r.commit = none →
    hasCodec (s.entry i).part s = true → isCache s = false → s.ft.inject.arm = false →
    checkBlock (s.keyInForce (s.entry i).tenant true) (sleeperKey s (s.entry i).tenant true) false b = .ok p → Completes (.handoffItemWritten i 0) s (fun t =>
      (t.entry i).st = .handoffIn ∧ (t.entry i).reqId = BitVec.ofNat 64 (fld (ofBytes p) 64 64) ∧
      (t.entry i).promptLen = fld (ofBytes p) 224 32 ∧ (t.entry i).tag = BitVec.ofNat 64 (fld (ofBytes p) 960 64) ∧
      (∃ x, (t.entry i).rcv = some x ∧ x.records = [b.record] ∧ x.staged = r.staged.filter (fun y => y.1 != 0)) ∧
      (∀ k, k ≠ i → t.entry k = s.entry k) ∧ t.ho.itemsRx = s.ho.itemsRx + 1 ∧ t.mem = s.mem ∧
      OnlyChanges [.sleeper, .tt, .rail, .rc, .ho, .ft] s t)) ∧
  (∀ (s : State) (i j q : Nat) (g : Region) (r : Receiver) (o : Offer) (b : Block) (p : List Byte), s.awake = true → (s.entry i).st = .handoffIn →
    (s.entry i).rcv = some r → r.records.length = j → j ≠ 0 → r.staged.find? (fun x => x.1 == j) = some (j, b) → r.offer = some o →
    r.commit = none → hasCodec (s.entry i).part s = true → isCache s = true → s.ft.inject.arm = false →
    placeAt (stateRegions (s.entry i).part s) (nth (s.entry i).parcel j 0) = some (g, q) →
    checkBlock (s.keyInForce (s.entry i).tenant true) (sleeperKey s (s.entry i).tenant true) false b = .ok p → Completes (.handoffItemWritten i j) s (fun t =>
      t.mem.hbm = regionPut g (placeRec g q) (leBytes 16 b.record.toNat) (regionPut g (4096 * q) (b.stored.take (recStored b.record)) s.mem.hbm) ∧
      (∃ x, (t.entry i).rcv = some x ∧ x.records = r.records ++ [b.record]) ∧ t.ho.itemsRx = s.ho.itemsRx + 1 ∧
      (∀ k, k ≠ i → t.entry k = s.entry k) ∧ OnlyChanges [.sleeper, .waybill, .mem, .tt, .rail, .rc, .ho, .ft] s t)) ∧
  (∀ (s : State) (i j : Nat) (r : Receiver) (o : Offer) (b : Block) (st : Status), s.awake = true → (s.entry i).st = .handoffIn →
    (s.entry i).rcv = some r → r.records.length = j → r.staged.find? (fun x => x.1 == j) = some (j, b) → r.offer = some o →
    hasCodec (s.entry i).part s = true → s.ft.inject.arm = false → checkBlock (s.keyInForce (s.entry i).tenant true) (sleeperKey s (s.entry i).tenant true) false b = .error st →
    Completes (.handoffItemWritten i j) s (fun t => (t.entry i).st = .free ∧ t.ho.abandoned = s.ho.abandoned + 1)) ∧
  (∀ (s : State) (c i n : Nat) (bud : W64) (dg : Digest) (m : Ctl) (r : Receiver) (o : Offer), HandoffOn c s → m.ctype = 0x06 →
    NamesReceiver c m i r s → m.body = .commit n bud dg → r.offer = some o → o.items = n → r.records.length < n → Completes (.commit c m) s (fun t =>
      t.entry i = { s.entry i with
        version := (s.entry i).version + 1, budget := bud, rcv := some { r with commit := some (n, dg) } } ∧
      (∀ k, k ≠ i → t.entry k = s.entry k) ∧ OnlyChanges [.tt] s t)) ∧
  (∀ (s : State) (c i n : Nat) (bud : W64) (m : Ctl) (r : Receiver) (o : Offer), HandoffOn c s → m.ctype = 0x06 →
    NamesReceiver c m i r s → m.body = .commit n bud (parcelDigest r.records) → r.offer = some o → o.items = n → n ≤ r.records.length →
    isCache s = false → o.turnEnded = false → Completes (.commit c m) s (fun t =>
      (t.entry i).st = .decode ∧ (t.entry i).epoch = r.epoch + 1 ∧ (t.entry i).node = s.me ∧ (t.entry i).accepting = true ∧
      (t.entry i).fromValid = true ∧ (t.entry i).fromNode = (s.entry i).node ∧ (t.entry i).fromIndex = r.sEntry ∧ (t.entry i).rcv = none ∧
      (t.entry i).budget = bud ∧ (∀ k, k ≠ i → t.entry k = s.entry k) ∧ t.ho.accepted = s.ho.accepted + 1 ∧
      OnlyChanges [.host, .groves, .waybill, .mem, .tt, .rail, .rc, .ho, .ft, .out] s t)) ∧
  (∀ (s : State) (c i : Nat) (m : Ctl) (r : Receiver), HandoffOn c s → m.ctype = 0x07 → NamesReceiver c m i r s → m.origin ≠ s.me →
    Completes (.abort c m) s (fun t => (t.entry i).st = .free ∧ t.ho.abandoned = s.ho.abandoned + 1)) ∧
  (∀ (s : State) (i : Nat), s.live = true → (s.entry i).accepting = true → acceptOut i s = false → (s.entry i).askers = [] →
    (s.entry i).raceHit = none → (∀ w ∈ s.work, w.prog ≠ .boundary i) → Completes (.acceptAcknowledged i) s (fun t =>
      t.entry i = { s.entry i with version := (s.entry i).version + 1, accepting := false } ∧ (∀ k, k ≠ i → t.entry k = s.entry k) ∧
      OnlyChanges [.tt] s t))

/-- R382, R388, R389, R578, R590, R601, R613: a PROBE of a request this node holds under a higher epoch is answered OWNED, any other
NOT_HELD, and an entry of that very handoff is abandoned; RELEASE frees a STUB and LOST loses it with the cause it carries; a CANCEL
applies to the entry of the greatest epoch: an owner is CANCELLED and answers, a STUB passes it on, a handoff keeps it; CANCEL_DONE
completes the TT_CANCEL that waits. -/
def Obligations.HandoffChain : Prop :=
  (∀ (s : State) (src : Nat) (m : Ctl) (cmd : Ctl), s.awake = true → m.ctype = 0x09 → (s.conn 0).rx = [] →
    cmd = { ctype := 0x0A, sEntry := m.sEntry, rEntry := m.rEntry, status := 0, reason := 0, reqId := m.reqId, epoch := m.epoch, origin := src,
            body := .none } → Completes (.probe src m) s (fun t =>
      ((∃ i ∈ holders m.reqId s, ((s.entry i).st.owner = true ∨ (s.entry i).st = .stub) ∧ m.epoch.toNat < 2 ^ 32 - 1 ∧
          m.epoch.toNat + 1 ≤ (s.entry i).epoch.toNat) →
        t = s.kept (mgmtSend src { cmd with body := .probeReply true (m.epoch + 1) } s) ∧ OnlyChanges [.rail, .rc, .ft] s t) ∧
      (holders m.reqId s = [] → t = s.kept (mgmtSend src { cmd with body := .probeReply false 0 } s) ∧ OnlyChanges [.rail, .rc, .ft] s t) ∧
      (∀ i, holders m.reqId s = [i] → (s.entry i).st = .handoffIn → (s.entry i).node = src → (s.entry i).epoch = m.epoch →
        (t.entry i).st = .free ∧ t.ho.abandoned = s.ho.abandoned + 1))) ∧
  (∀ (s : State) (src i : Nat) (m : Ctl), s.awake = true → m.ctype = 0x10 → (s.conn 0).rx = [] → m.rEntry = some i → (s.entry i).st = .stub →
    (s.entry i).reqId = m.reqId → (s.entry i).epoch.toNat ≤ m.epoch.toNat → Completes (.release src m) s (fun t =>
      t.entry i = { version := (s.entry i).version + 1 } ∧ (∀ k, k ≠ i → t.entry k = s.entry k) ∧
      ((s.entry i).fromValid = false → OnlyChanges [.host, .tt, .ho, .out] s t) ∧
      OnlyChanges [.host, .tt, .rail, .rc, .ho, .ft, .out] s t)) ∧
  (∀ (s : State) (src i : Nat) (m : Ctl), s.awake = true → m.ctype = 0x11 → (s.conn 0).rx = [] → m.rEntry = some i → (s.entry i).st = .stub →
    (s.entry i).reqId = m.reqId → (s.entry i).epoch.toNat ≤ m.epoch.toNat → detached i s = false → Completes (.lost src m) s (fun t =>
      (t.entry i).st = .lost ∧ (t.entry i).cause = m.status ∧ (t.entry i).reqId = m.reqId ∧ (∀ k, k ≠ i → t.entry k = s.entry k))) ∧
  (∀ (s : State) (src i : Nat) (m : Ctl), s.awake = true → m.ctype = 0x12 → (s.conn 0).rx = [] → greatest m.reqId s = some i →
    (s.entry i).epoch.toNat ≤ m.epoch.toNat → Completes (.cancel src m) s (fun t =>
      ((s.entry i).st.cancels = true → inStep i s = false → (s.entry i).accepting = false →
        (t.entry i).st = .cancelled ∧ (t.entry i).cause = 0x51 ∧ ∃ u, t = s.kept (mgmtSend m.origin
          { ctype := 0x13, sEntry := m.sEntry, rEntry := none, status := 0, reason := 0, reqId := (s.entry i).reqId,
            epoch := (s.entry i).epoch, origin := m.origin, body := .none } u)) ∧
      ((s.entry i).st.cancels = true → inStep i s = true →
        t.entry i = { s.entry i with askers := (s.entry i).askers ++ [(m.origin, m.sEntry)] } ∧ OnlyChanges [.tt] s t) ∧
      ((s.entry i).st = .handoffOut ∨ (s.entry i).st = .handoffIn →
        t.entry i = { s.entry i with
          version := (s.entry i).version + 1, cancelPend := true, askers := (s.entry i).askers ++ [(m.origin, m.sEntry)] } ∧ OnlyChanges [.tt] s t) ∧
      ((s.entry i).st = .stub → inStep i s = false → (s.entry i).accepting = false →
        t.entry i = { s.entry i with fwd := (s.entry i).fwd ++ [(m.origin, m.sEntry)] } ∧ OnlyChanges [.tt, .rail, .rc, .ft] s t) ∧
      (∀ k, k ≠ i → t.entry k = s.entry k))) ∧
  (∀ (s : State) (src : Nat) (m : Ctl), s.awake = true → m.ctype = 0x12 → (s.conn 0).rx = [] → greatest m.reqId s = none →
    Completes (.cancel src m) s (OnlyChanges [] s)) ∧
  (∀ (s : State) (src : Nat) (m : Ctl) (w : Work), s.awake = true → m.ctype = 0x13 → (s.conn 0).rx = [] → (s.entry m.sEntry).st ≠ .handoffOut →
    s.work.find? (fun x => x.prog == .forwarded m.sEntry && dat x.body 16 64 == m.reqId.toNat) = some w → Completes (.cancelDone src m) s (fun t =>
      t = s.kept (complete w (statusOf m.status.toNat) (if m.status = 0x70 then 0x04 else 0) s) ∧
      OnlyChanges [.host, .work, .tt, .ft, .tn, .out] s t))

/-! ## Clearing -/

/-- R618, R622 to R630, R632 to R637: a query whose fields are good, and that no change of its index precedes, asks for a search
context, and takes one on the Station with fewer in use; its first read finds the entry nodes and gives a SEARCH Stand the first batch,
and poison or an uncorrectable line ends it; at most two batches are in flight; one that passes its check is visited in order and the
next one follows, until the query ends and writes only its results;
a load makes the index LOADING and, with a source that fits, READY; a delete sets exactly the tombstones it names. -/
def Obligations.ClearingSearch : Prop :=
  (∀ (s : State) (w : Work), MayStart s w 0x60 → changeBefore w s = false → queryChecks w s = none → (queryOf w).visits ≤ 65536 →
    Completes (.csQuery w.wid) s (fun t =>
      At w (.query { cnt := (newOp w.part 0xFF s).1 }) t ∧ t.groves = { s.groves with opSeq := s.groves.opSeq + 1 } ∧
      OnlyChanges [.work, .groves] s t)) ∧
  (∀ (s : State) (w : Work) (st : Status) (r : Nat), MayStart s w 0x60 → changeBefore w s = false → queryChecks w s = some (st, r) →
    Completes (.csQuery w.wid) s (fun t =>
      t = complete w st r s ∧ Gone w t ∧ OnlyChanges [.host, .work, .tt, .ft, .tn, .out] s t)) ∧
  (∀ (s : State) (w : Work), MayStart s w 0x60 → changeBefore w s = true → Completes (.csQuery w.wid) s (OnlyChanges [] s)) ∧
  (∀ (s : State) (w : Work) (q : QueryOp), s.awake = true → s.item w.wid = some w → w.prog = .query q → q.station = none →
    ctxGiven w s = true →
    Completes (.searchContextAllocate w.wid) s (fun t =>
      (ctxInUse 1 s < ctxInUse 0 s → ctxInUse 1 s < 128 → At w (.query { q with station := some 1 }) t) ∧
      (ctxInUse 0 s ≤ ctxInUse 1 s → ctxInUse 0 s < 128 → At w (.query { q with station := some 0 }) t) ∧
      (128 ≤ ctxInUse 0 s → 128 ≤ ctxInUse 1 s → OnlyChanges [] s t) ∧ OnlyChanges [.work] s t)) ∧
  (∀ (s : State) (w : Work) (q : QueryOp) (g : Region), s.awake = true → s.item w.wid = some w → w.prog = .query q → q.station.isSome = true →
    q.live = [] → q.started = false → q.expand = none → s.region (csRegion w) = some g → s.ft.inject.arm = false →
    readPoisoned w g (idxHdr s g) q s = false → standsOf w.part 2 s ≠ [] → addNew [] (idxEntries s g (idxHdr s g)) ≠ [] →
    Completes (.indexReadReturn ⟨w.wid, {}⟩) s (fun t =>
      (∃ p, At w (.query p) t ∧ p.started = true ∧ p.station = q.station ∧ p.batches = q.batches + p.live.length ∧
        1 ≤ p.live.length ∧ p.live.length ≤ 2 ∧ (∀ b ∈ p.live, b.nodes.length ≤ (idxHdr s g).degree) ∧
        (p.toVisit ≠ [] → p.live.length = 2 ∧ ∀ b ∈ p.live, b.nodes.length = (idxHdr s g).degree) ∧
        p.live.flatMap (fun b => b.nodes) ++ p.toVisit = addNew [] (idxEntries s g (idxHdr s g))) ∧
      OnlyChanges [.work, .groves, .ft] s t)) ∧
  (∀ (s : State) (w : Work) (q : QueryOp) (g : Region), s.awake = true → s.item w.wid = some w → w.prog = .query q → q.station.isSome = true →
    q.live = [] → (q.started = false ∨ q.expand.isSome = true) → s.region (csRegion w) = some g → s.ft.inject.arm = false →
    readPoisoned w g (idxHdr s g) q s = true → Completes (.indexReadReturn ⟨w.wid, {}⟩) s (fun t =>
      Ends w .poisonConsumed 0 t (fun u => u.cs = { s.cs with queries := s.cs.queries + 1 } ∧ OnlyChanges [.cs, .ft] s u))) ∧
  (∀ (s : State) (w : Work) (q : QueryOp) (g : Region) (o : HbmObs) (a : Nat), s.awake = true → s.item w.wid = some w → w.prog = .query q →
    q.station.isSome = true → q.live = [] → (q.started = false ∨ q.expand.isSome = true) → s.region (csRegion w) = some g →
    o.bad = some a → inRegion g a = true → Completes (.indexReadReturn ⟨w.wid, o⟩) s (fun t =>
      Ends w .poisonConsumed 0 t (fun u => u.cs = { s.cs with queries := s.cs.queries + 1 } ∧ u.ft.fault = true ∧
        tget u.mem.poison (a / 64) false = true))) ∧
  (∀ (s : State) (w : Work) (q : QueryOp) (g : Region) (b : DistBatch) (x : Nat × Nat) (obs : TileObs), s.awake = true →
    s.item w.wid = some w → w.prog = .query q → q.live.find? (fun y => y.tile.running.isSome) = some b → FirstRun b.tile x →
    retiringStand s x = false → s.region (csRegion w) = some g → passing obs (batchRun s obs g (idxHdr s g) (queryOf w).q b.nodes) →
    s.ft.inject.arm = false → batchPoisoned w g (idxHdr s g) b.nodes s = false →
    (q.toVisit ≠ [] ∨ ∃ y ∈ q.live, y.tile.idx ≠ b.tile.idx) → standsOf w.part 2 s ≠ [] →
    Completes (.distanceBatchComplete w.wid obs) s (fun t =>
      (∃ p, At w (.query p) t ∧ p.visited = b.nodes.reverse ++ q.visited ∧ p.live.length ≤ max 2 q.live.length ∧
        p.live.flatMap (fun y => y.nodes) ++ p.toVisit =
          (q.live.filter (fun y => y.tile.idx != b.tile.idx)).flatMap (fun y => y.nodes) ++ q.toVisit) ∧
      t.cs.visits = s.cs.visits + b.nodes.length ∧ OnlyChanges [.work, .groves, .cs, .ft, .free] s t)) ∧
  (∀ (s : State) (w : Work) (q : QueryOp) (g r : Region) (b : DistBatch) (x : Nat × Nat) (obs : TileObs) (id off : Nat), s.awake = true →
    s.item w.wid = some w → w.prog = .query q → q.live = [b] → FirstRun b.tile x → retiringStand s x = false →
    s.region (csRegion w) = some g → passing obs (batchRun s obs g (idxHdr s g) (queryOf w).q b.nodes) → s.ft.inject.arm = false →
    batchPoisoned w g (idxHdr s g) b.nodes s = false → q.toVisit = [] → q.limit = true → (queryOf w).filter = false →
    (queryOf w).dest = .hbm id off → s.region id = some r → Completes (.distanceBatchComplete w.wid obs) s (fun t =>
      Gone w t ∧ t.cs.queries = s.cs.queries + 1 ∧ t.cs.visits = s.cs.visits + b.nodes.length ∧
      (∀ a, (∀ i < 8 * (queryOf w).k, a ≠ regionAddr r (off + i)) → hbmByte t a = hbmByte s a))) ∧
  (∀ (s : State) (w : Work), MayStart s w 0x61 → changeBefore w s = false → idxLoadChecks w s = none → dat w.body 16 64 % 4096 = 0 →
    Completes (.csIndexLoad w.wid) s (fun t =>
      At w (.indexLoad (csRegion w)) t ∧ (t.idx (csRegion w)).st = .loading ∧ t.out = s.out ++ [.hostRead w.fn (dat w.body 16 64) (dat w.body 24 64)] ∧
      t.mem = s.mem ∧ OnlyChanges [.work, .cs, .out] s t)) ∧
  (∀ (s : State) (w : Work) (st : Status) (r : Nat), MayStart s w 0x61 → changeBefore w s = false → idxLoadChecks w s = some (st, r) →
    Completes (.csIndexLoad w.wid) s (fun t =>
      t = complete w st r s ∧ OnlyChanges [.host, .work, .tt, .ft, .tn, .out] s t)) ∧
  (∀ (s : State) (w : Work) (id : Nat) (g : Region) (bs : List Byte), s.awake = true → s.item w.wid = some w → w.prog = .indexLoad id →
    s.region id = some g → queriesBefore w s = false → bs.length = dat w.body 24 64 → Completes (.indexCopyComplete w.wid bs) s (fun t =>
      (indexFits (regionWrite g 0 bs s) g = true → Ends w .ok (idxHdr (regionWrite g 0 bs s) g).nodes t (fun u =>
        (u.idx id).st = .ready ∧ (u.idx id).nodes = (idxHdr (regionWrite g 0 bs s) g).nodes ∧ (∀ k, k ≠ id → u.idx k = s.idx k) ∧
        u.mem.hbm = regionPut g 0 bs s.mem.hbm ∧ OnlyChanges [.mem, .waybill, .cs] s u)) ∧
      (indexFits (regionWrite g 0 bs s) g = false → Ends w .malformed 0x08 t (fun u =>
        u.idx id = {} ∧ (∀ k, k ≠ id → u.idx k = s.idx k) ∧ OnlyChanges [.mem, .waybill, .cs] s u)))) ∧
  (∀ (s : State) (w : Work) (g : Region), MayStart s w 0x62 → changeBefore w s = false → queriesBefore w s = false → deleteChecks w s = none →
    s.region (csRegion w) = some g → (s.idx (csRegion w)).nodes = (idxHdr s g).nodes →
    (idxHdr s g).tomb + ceilDiv (idxHdr s g).nodes 8 ≤ g.size → g.offset + g.size ≤ 2 ^ 36 → Completes (.csDelete w.wid) s (fun t =>
      Ends w .ok 0 t (fun u =>
        (∀ n < (idxHdr s g).nodes, isTomb u g (idxHdr s g) n = (isTomb s g (idxHdr s g) n || decide (n ∈ deleteList w s))) ∧
        (∀ a, (∀ j < ceilDiv (idxHdr s g).nodes 8, a ≠ regionAddr g ((idxHdr s g).tomb + j)) → hbmByte u a = hbmByte s a) ∧
        OnlyChanges [.mem, .waybill, .cs] s u)))

/-! ## Tenancy and trust -/

/-- R711, R714 to R716, R718 to R721, R743: the physical function maps a virtual function, which is disabled first when it is in use, and a
context, unless it is in use or its tenant not mapped; a switch is accepted with code 0x00 or refused with its code; its drain makes the
partition's requests LOST; its scrub clears every region not kept and no other byte, frees the entries and replaces the tenant set; a
first mapping takes effect at once where nothing is to be cleared. -/
def Obligations.Tenancy : Prop :=
  (∀ (s : State) (v : Nat) (x : W32), writes 0 s = true → 1 ≤ v → v ≤ 16 →
    (s.host.vfEnable = false ∨ s.host.numVfs < v) → Completes (.tnVfWrite v x) s (fun t =>
      tget t.tn.vf v {} = vfMapOf x ∧ (∀ k, k ≠ v → tget t.tn.vf k {} = tget s.tn.vf k {}) ∧ OnlyChanges [.tn] s t)) ∧
  (∀ (s : State) (v : Nat) (x : W32), writes 0 s = true → 1 ≤ v → v ≤ 16 → s.host.vfEnable = true → v ≤ s.host.numVfs →
    vfMapOf x ≠ tget s.tn.vf v {} → (s.fn v).disabling = .no → Completes (.tnVfWrite v x) s (fun t =>
      (t.fn v).disabling = .draining ∧ (t.fn v).newTenant = some x ∧ (∀ k, k ≠ v → t.fn k = s.fn k) ∧ OnlyChanges [.host] s t)) ∧
  (∀ (s : State) (c : Nat) (x : W32), writes 0 s = true → c < 4096 → Completes (.tnCtxWrite c x) s (fun t =>
    (ctxBusy c s = true → t.tn = { s.tn with status := { valid := true, code := 0x05 } }) ∧
    (ctxBusy c s = false → (ctxMapOf x).valid = true → mapped (ctxMapOf x).part (ctxMapOf x).tenant s = false →
      t.tn = { s.tn with status := { valid := true, code := 0x06 } }) ∧
    (ctxBusy c s = false → ((ctxMapOf x).valid = false ∨ mapped (ctxMapOf x).part (ctxMapOf x).tenant s = true) →
      t.ctxMap c = ctxMapOf x ∧ (∀ k, k ≠ c → t.ctxMap k = s.ctxMap k) ∧ t.tn.status = { valid := true, code := 0x00 }) ∧
    OnlyChanges [.tn] s t)) ∧
  (∀ (s : State) (p : Nat) (n : BitVec 16), writes 0 s = true → p < s.partitions → p < 4 → s.tenants p ≠ 0 →
    Completes (.tenantSwitch p n) s (fun t =>
      (n = s.tenants p → OnlyChanges [] s t) ∧
      (n ≠ s.tenants p → switchRefused p n s = none → OnlyChanges [.tn] s t ∧ t.tn = { s.tn with
        status := { valid := true, code := 0x00 }
        switch := some { part := p, tenants := n, startAc := s.clk.ac, keep := keepBits s } }) ∧
      (∀ c, n ≠ s.tenants p → switchRefused p n s = some c → OnlyChanges [.tn] s t ∧ t.tn = { s.tn with status := { valid := true, code := c } }))) ∧
  (∀ (s : State) (p : Nat) (n : BitVec 16), writes 0 s = true → p < s.partitions → p < 4 → s.tenants p = 0 → n ≠ 0 →
    switchRefused p n s = none → Completes (.firstMapping p n) s (fun t =>
      (firstClears p (keepBits s) s = [] → t.tenants p = n ∧ t.tn.switch = none ∧ t.tn.status = { valid := true, code := 0x00 } ∧
        (∀ k, k ≠ p → t.tenants k = s.tenants k) ∧ t.mem = s.mem ∧ OnlyChanges [.host, .work, .waybill, .tt, .ft, .tn, .free, .out] s t) ∧
      (firstClears p (keepBits s) s ≠ [] → OnlyChanges [.tn] s t ∧ t.tn = { s.tn with
        status := { valid := true, code := 0x00 }
        switch := some { part := p, tenants := n, startAc := s.clk.ac, stage := .scrubbing, first := true, keep := keepBits s } }))) ∧
  (∀ (s : State) (p : Nat) (x : Switch), s.live = true → s.tn.switch = some x → x.part = p → x.stage = .draining → s.work = [] →
    s.rc.conns = [(0, s.conn 0)] → s.rc.slots = [] → s.stepOf p = none → Completes (.tenantSwitchDrainEnd p) s (fun t =>
      t.tn = { s.tn with switch := some { x with stage := .scrubbing } } ∧
      (∀ i ∈ partEntries p s, ((s.entry i).st = .admitted ∨ (s.entry i).st = .prefill ∨ (s.entry i).st = .decode ∨ (s.entry i).st = .parked ∨
        (s.entry i).st = .done) → (t.entry i).st = .lost ∧ (t.entry i).cause = 0x51) ∧
      (∀ i, i ∉ partEntries p s → t.entry i = s.entry i) ∧
      OnlyChanges [.host, .groves, .waybill, .mem, .tt, .rail, .rc, .ho, .ft, .tn, .out] s t)) ∧
  (∀ (s : State) (p : Nat) (x : Switch), s.live = true → s.tn.switch = some x → x.part = p → x.stage = .scrubbing → x.first = false →
    (∀ g ∈ partRegions p s, s.region g.id = some g) → Completes (.tenantSwitchScrubComplete p) s (fun t =>
      t.tenants p = x.tenants ∧ t.tn.switch = none ∧ (∀ k, k ≠ p → t.tenants k = s.tenants k) ∧
      (∀ g ∈ partRegions p s, g.id ∉ x.keep → ∀ a, inRegion g a = true → hbmByte t a = 0) ∧
      (∀ a, (∀ g ∈ partRegions p s, g.id ∉ x.keep → inRegion g a = false) → hbmByte t a = hbmByte s a) ∧
      (∀ i ∈ partEntries p s, (s.entry i).st ≠ .free → (s.entry i).st ≠ .stub → (t.entry i).st = .free) ∧
      (∀ g ∈ grovesOf p s, ∀ k < 256, t.cslot g k = {}))) ∧
  (∀ (s : State) (p : Nat) (x : Switch), s.live = true → s.tn.switch = some x → x.part = p → x.stage = .scrubbing → x.first = true →
    (∀ g ∈ partRegions p s, s.region g.id = some g) → Completes (.tenantSwitchScrubComplete p) s (fun t =>
      t.tenants p = x.tenants ∧ t.tn.switch = none ∧
      (∀ g ∈ partRegions p s, g.id ∈ firstClears p x.keep s → ∀ a, inRegion g a = true → hbmByte t a = 0) ∧
      (∀ a, (∀ g ∈ partRegions p s, g.id ∈ firstClears p x.keep s → inRegion g a = false) → hbmByte t a = hbmByte s a)))

/-- R732, R733, R736 to R741, R743: a retirement and a change of fabric slot are begun, or refused with their code, and take effect when
the flash is written; a commit raises the security version to that of the active set and revokes what it revokes, and never lowers it; a
set that verifies becomes the inactive one; a report is begun over the nonce and holds the body of R741 and its signature; a debug unlock
clears every region, stops signing and takes every link DOWN. -/
def Obligations.TrustAndKeys : Prop :=
  (∀ (s : State) (t0 : Nat) (ddr : Bool) (c : Instr), writes 0 s = true → t0 < 16 →
    (c = .retireDdrIndex t0 ∧ ddr = true ∨ c = .retireRemoteIndex t0 ∧ ddr = false) → Completes c s (fun t =>
      (indexSpent t0 ddr s = false → t.tn = { s.tn with retire := s.tn.retire ++ [{ tenant := t0, ddr }] }) ∧
      (indexSpent t0 ddr s = true → t.tn = { s.tn with status := { valid := true, code := 0x07 } }) ∧ OnlyChanges [.tn] s t)) ∧
  (∀ (s : State) (t0 : Nat) (k : BitVec 2), writes 0 s = true → t0 < 16 → Completes (.fabricSlotWrite t0 k) s (fun t =>
    (k ≠ slotSoon t0 s → indexSpent t0 false s = false → s.fuses.fabric.getLsbD k.toNat = true →
      t.tn = { s.tn with retire := s.tn.retire ++ [{ tenant := t0, ddr := false, slot := some k }] }) ∧
    (k ≠ slotSoon t0 s → indexSpent t0 false s = true → t.tn = { s.tn with status := { valid := true, code := 0x07 } }) ∧
    ((k = slotSoon t0 s ∨ indexSpent t0 false s = false) → s.fuses.fabric.getLsbD k.toNat = false →
      t.tn = { s.tn with status := { valid := true, code := 0x08 } }) ∧
    (k = slotSoon t0 s → s.fuses.fabric.getLsbD k.toNat = true → t.tn = { s.tn with status := { valid := true, code := 0x00 } }) ∧
    OnlyChanges [.tn] s t)) ∧
  (∀ (s : State) (r : Retire) (rest : List Retire), s.live = true → s.tn.retire = r :: rest → Completes .retirementFlashWriteComplete s (fun t =>
    t.keysOf r.tenant = { s.keysOf r.tenant with
      ddr := if r.ddr then (s.keysOf r.tenant).ddr + 1 else (s.keysOf r.tenant).ddr
      remote := if r.ddr then (s.keysOf r.tenant).remote else (s.keysOf r.tenant).remote + 1
      fabric := r.slot.getD (s.keysOf r.tenant).fabric } ∧
    (∀ k, k ≠ r.tenant → t.keysOf k = s.keysOf k) ∧
    t.tn = { s.tn with retire := rest, status := { valid := true, code := 0x00 } } ∧ OnlyChanges [.flash, .tn] s t)) ∧
  (∀ (s : State) (k : BitVec 16), writes 0 s = true → Completes (.svnCommit k) s (fun t =>
    (k = 0x5356 → t.trust = { s.trust with svnBusy := true } ∧ OnlyChanges [.trust] s t) ∧ (k ≠ 0x5356 → OnlyChanges [] s t))) ∧
  (∀ s : State, s.live = true → s.trust.svnBusy = true → Completes .svnCommitDone s (fun t =>
    t.fuses = { s.fuses with svn := max s.fuses.svn s.flash.active.svn, keyRevoked := s.fuses.keyRevoked ||| s.flash.active.revoke } ∧
    t.trust = { s.trust with svnBusy := false, svnDone := true } ∧ OnlyChanges [.fuses, .trust] s t)) ∧
  (∀ (s : State) (m : List Byte) (os : List (List Byte)), s.live = true → manifestFits m s = true → objectsFit m os = true →
    Completes (.firmwareSetWrite m os) s (fun t =>
      t.flash = { s.flash with inactive := some (parseManifest m) } ∧ OnlyChanges [.flash] s t)) ∧
  (∀ (s : State) (m : List Byte) (os : List (List Byte)),
    (manifestSigned m = false ∨ (parseManifest m).svn < s.fuses.svn ∨ (∀ k < 4, slotSigns m s k = false) ∨ objectsFit m os = false) →
    Completes (.firmwareSetWrite m os) s (OnlyChanges [] s)) ∧
  (∀ s : State, s.live = true → s.trust.busy = false → Completes .attestationGo s (fun t =>
    t.trust = { s.trust with busy := true, done := false, attNonce := s.trust.nonce, attAc := s.clk.ac } ∧ OnlyChanges [.trust] s t)) ∧
  (∀ s : State, s.live = true → s.trust.busy = true → Completes .attestationReportDone s (fun t =>
    t.trust = { s.trust with
      busy := false, done := true,
      report := reportBody s ++
        leBytes 96 (ecdsaSign Config.identityScalar (Config.random s.free) (sha384 (reportBody s))).toNat ++ List.replicate 32 0 } ∧
    OnlyChanges [.trust, .free] s t)) ∧
  (∀ (s : State) (key sig : BitVec 768), s.live = true → debugAnswer key sig s = true → s.trust.unlocked = false →
    (∀ p, ∀ g ∈ partRegions p s, s.region g.id = some g) → Completes (.debugUnlock ⟨key, sig⟩) s (fun t =>
      t.trust = { s.trust with unlocked := true, challenge := t.trust.challenge } ∧ t.waybill.signing = none ∧ t.waybill.waiting = [] ∧
      (∀ n < 8, ∀ l < 2, (s.link n l).st ≠ .disabled → (t.link n l).st = .down) ∧
      (∀ p < s.partitions, ∀ g ∈ partRegions p s, ∀ a, inRegion g a = true → hbmByte t a = 0) ∧
      (∀ a, (∀ p < s.partitions, ∀ g ∈ partRegions p s, inRegion g a = false) → hbmByte t a = hbmByte s a) ∧
      OnlyChanges [.host, .groves, .waybill, .mem, .sleeper, .tt, .rail, .rc, .ho, .cs, .ft, .trust, .free, .out] s t)) ∧
  (∀ (s : State) (key sig : BitVec 768), (s.flash.active.flags.getLsbD 0 = false ∨ sha384 (leBytes 96 key.toNat) ≠ s.flash.active.debugKey) →
    Completes (.debugUnlock ⟨key, sig⟩) s (OnlyChanges [] s))

/-! ## The machine as a whole -/

/-- The machine right after a cold reset: bring-up starts in the Lodge with its possession held, no supply valid, the root PLL not
locked, both counts at zero, no image, no work, no command waiting, every link and ring off, the Timetable free, every context ACTIVE
and the management connection open (R489, R541, R639 to R642, R697). Log entry 2 names the values that the model chooses. -/
def Obligations.ResetState : Prop :=
  State.reset.live = true ∧ State.reset.boot.stage = .lodge ∧ State.reset.boot.path = .cold ∧ State.reset.boot.done = [] ∧
  State.reset.power.st = .n0 ∧ State.reset.power.supplies = false ∧ State.reset.clk.sc = 0 ∧ State.reset.clk.ac = 0 ∧
  State.reset.clk.pllLock = false ∧ State.reset.flash.image = none ∧ State.reset.img.image = none ∧ State.reset.img.st = .unconfigured ∧
  State.reset.work = [] ∧ State.reset.pending = [] ∧ State.reset.out = [] ∧ State.reset.mem.hbm = [] ∧
  (∀ n l, (State.reset.link n l).st = .disabled) ∧ (∀ k, (State.reset.sq k).enable = false ∧ (State.reset.cq k).enable = false) ∧
  (∀ i, (State.reset.entry i).st = .free) ∧ (∀ c, (State.reset.ctx c).st = .active) ∧
  (State.reset.conn 0).st = .opened ∧ (∀ c, c ≠ 0 → (State.reset.conn c).st = .free) ∧
  State.reset.ft.held = [{ activity := 0x12, domains := 0x3FFFFF }] ∧ FusesSince State.reset.fuses State.reset

/-- A step takes the command at the front of the queue and answers what its meaning answers with the rest of the queue; the queue of
this block is first in, first out. -/
def Obligations.StepRunsFrontCommand : Prop :=
  ∀ (s : State) (c : Instr) (rest : List Instr), s.pending = c :: rest → step s = exec c { s with pending := rest }

/-- R729, R737: from every state, a step only raises the security version, only adds revoked key slots, and leaves every other fuse as
it was burned. -/
def Obligations.StepKeepsFuses : Prop :=
  ∀ (f : Fuses) (s t : State), FusesSince f s → step s = .next t → FusesSince f t

/-- No command stops and none changes the queue, so that a queue of any length is run to its end, one step for each command; and an
idle device with its root PLL locked counts 35 sc for every 2 ac (R52; that a step on an empty queue is one AON cycle is this model's
DESIGN CHOICE, log entry 1). -/
def Obligations.QueueRunsFirstInFirstOut : Prop :=
  (∀ (c : Instr) (s : State), Completes c s (fun t => t.pending = s.pending)) ∧
  (∀ s : State, ∃ t, Runs s.pending.length s t ∧ t.pending = []) ∧
  (∀ (s : State) (cs ds : List Instr) (t : State), s.pending = cs ++ ds → Runs cs.length s t → t.pending = ds) ∧
  (∀ (s : State) (n : Nat), s.power.st ≠ .off → s.pending = [] → s.clk.pllLock = true →
    ∃ t, Runs (2 * n) s t ∧ t.clk.ac = s.clk.ac + 2 * n ∧ t.clk.sc = s.clk.sc + 35 * n)

/-- R54: a change of a GCK divider, however it comes about, alters no count kept in sc or ac and no budget; and with any other dividers
a cycle advances every count exactly as it would have. -/
def Obligations.ThrottlingLeavesCounts : Prop :=
  (∀ (s : State) (g : Nat), Completes (.currentLimitRaise g) s (fun t =>
    t.clk.sc = s.clk.sc ∧ t.clk.ac = s.clk.ac ∧ t.tt = s.tt ∧ t.rc = s.rc ∧ t.rail = s.rail ∧ t.work = s.work)) ∧
  (∀ (s : State) (g : Nat) (c : ThrottleCause), Completes (.throttleLower g c) s (fun t =>
    t.clk.sc = s.clk.sc ∧ t.clk.ac = s.clk.ac ∧ t.tt = s.tt ∧ t.rc = s.rc ∧ t.rail = s.rail ∧ t.work = s.work)) ∧
  (∀ (s : State) (obs : List SensorObs), Completes (.sensorSample obs) s (fun t =>
    t.clk.sc = s.clk.sc ∧ t.clk.ac = s.clk.ac ∧ t.tt = s.tt ∧ t.rc = s.rc ∧ t.rail = s.rail ∧ t.work = s.work)) ∧
  (∀ (s t : State) (therm cur : Tab Nat), step { s with clk := { s.clk with therm := therm, cur := cur }, pending := [] } = .next t →
    step { s with pending := [] } = .next { t with clk := { t.clk with therm := s.clk.therm, cur := s.clk.cur } })

/-- R57: a write of CK_SNAP captures the sc and the ac count at once, in two 64-bit registers that a read answers and no write
changes. -/
def Obligations.SnapshotOfBothCounts : Prop :=
  (∀ s : State, writes 0 s = true → Completes .ckSnap s (fun t =>
    t.clk = { s.clk with snapSc := BitVec.ofNat 64 s.clk.sc, snapAc := BitVec.ofNat 64 s.clk.ac } ∧ OnlyChanges [.clk] s t)) ∧
  (∀ s : State, reaches 0 s = true → s.boot.stage = .ready → Completes (.registerReadClear (.bar0 0) 0x100020 64) s (fun t =>
    t.out = s.out ++ [.regRead 0 0x100020 s.clk.snapSc] ∧ OnlyChanges [.out] s t)) ∧
  (∀ s : State, reaches 0 s = true → s.boot.stage = .ready → Completes (.registerReadClear (.bar0 0) 0x100028 64) s (fun t =>
    t.out = s.out ++ [.regRead 0 0x100028 s.clk.snapAc] ∧ OnlyChanges [.out] s t)) ∧
  (∀ s : State, reaches 0 s = true → s.boot.stage = .ready → Completes (.registerReadClear (.bar0 0) 0x100018 32) s (fun t =>
    t.out = s.out ++ [.regRead 0 0x100018 0] ∧ OnlyChanges [.out] s t)) ∧
  (∀ (s : State) (p : Port) (off : Nat) (v : W64), off = 0x100020 ∨ off = 0x100028 → Completes (.registerWrite p off 64 v) s (fun t =>
    OnlyChanges [] s t))

/-- R44, R50, R61, R639, R671, R750: in Off nothing runs and no time passes; after a trip SCK is stopped and no command acts but a register
read of the tray controller and those that apply and remove power, while AON counts on. -/
def Obligations.UnpoweredDoesNothing : Prop :=
  (∀ (c : Instr) (s : State), s.live = false → c ≠ .powerApplied → c ≠ .powerRemoved → c ≠ .aonSupplyLoss →
    (∀ o w, c ≠ .registerReadClear .i3c o w) → exec c s = .next s) ∧
  (∀ (s : State) (o w : Nat), s.power.st = .off → exec (.registerReadClear .i3c o w) s = .next s) ∧
  (∀ s : State, s.power.st = .off → s.pending = [] → step s = .next s) ∧
  (∀ s : State, s.power.st ≠ .off → s.pending = [] → ∃ t, step s = .next t ∧ t.clk.ac = s.clk.ac + 1 ∧
    (s.clk.pllLock = false → t.clk.sc = s.clk.sc))
end

