-- ==== Sys2Proof/Laws/State.lean ====
section
/-! SUPPORT. What each update of the state leaves alone: one lemma per field per update, true by definition. -/

namespace Sys2Proof.Machine

/-! ## State.modFn changes `host` only -/

@[simp] theorem State.modFn_fuses (s : State) (f : Nat) (g : FnRegs → FnRegs) : (s.modFn f g).fuses = s.fuses := rfl
@[simp] theorem State.modFn_flash (s : State) (f : Nat) (g : FnRegs → FnRegs) : (s.modFn f g).flash = s.flash := rfl
@[simp] theorem State.modFn_clk (s : State) (f : Nat) (g : FnRegs → FnRegs) : (s.modFn f g).clk = s.clk := rfl
@[simp] theorem State.modFn_power (s : State) (f : Nat) (g : FnRegs → FnRegs) : (s.modFn f g).power = s.power := rfl
@[simp] theorem State.modFn_boot (s : State) (f : Nat) (g : FnRegs → FnRegs) : (s.modFn f g).boot = s.boot := rfl
@[simp] theorem State.modFn_work (s : State) (f : Nat) (g : FnRegs → FnRegs) : (s.modFn f g).work = s.work := rfl
@[simp] theorem State.modFn_nextWid (s : State) (f : Nat) (g : FnRegs → FnRegs) : (s.modFn f g).nextWid = s.nextWid := rfl
@[simp] theorem State.modFn_img (s : State) (f : Nat) (g : FnRegs → FnRegs) : (s.modFn f g).img = s.img := rfl
@[simp] theorem State.modFn_groves (s : State) (f : Nat) (g : FnRegs → FnRegs) : (s.modFn f g).groves = s.groves := rfl
@[simp] theorem State.modFn_waybill (s : State) (f : Nat) (g : FnRegs → FnRegs) : (s.modFn f g).waybill = s.waybill := rfl
@[simp] theorem State.modFn_mem (s : State) (f : Nat) (g : FnRegs → FnRegs) : (s.modFn f g).mem = s.mem := rfl
@[simp] theorem State.modFn_sleeper (s : State) (f : Nat) (g : FnRegs → FnRegs) : (s.modFn f g).sleeper = s.sleeper := rfl
@[simp] theorem State.modFn_tt (s : State) (f : Nat) (g : FnRegs → FnRegs) : (s.modFn f g).tt = s.tt := rfl
@[simp] theorem State.modFn_ddr (s : State) (f : Nat) (g : FnRegs → FnRegs) : (s.modFn f g).ddr = s.ddr := rfl
@[simp] theorem State.modFn_rail (s : State) (f : Nat) (g : FnRegs → FnRegs) : (s.modFn f g).rail = s.rail := rfl
@[simp] theorem State.modFn_rc (s : State) (f : Nat) (g : FnRegs → FnRegs) : (s.modFn f g).rc = s.rc := rfl
@[simp] theorem State.modFn_ho (s : State) (f : Nat) (g : FnRegs → FnRegs) : (s.modFn f g).ho = s.ho := rfl
@[simp] theorem State.modFn_cs (s : State) (f : Nat) (g : FnRegs → FnRegs) : (s.modFn f g).cs = s.cs := rfl
@[simp] theorem State.modFn_ft (s : State) (f : Nat) (g : FnRegs → FnRegs) : (s.modFn f g).ft = s.ft := rfl
@[simp] theorem State.modFn_tn (s : State) (f : Nat) (g : FnRegs → FnRegs) : (s.modFn f g).tn = s.tn := rfl
@[simp] theorem State.modFn_trust (s : State) (f : Nat) (g : FnRegs → FnRegs) : (s.modFn f g).trust = s.trust := rfl
@[simp] theorem State.modFn_free (s : State) (f : Nat) (g : FnRegs → FnRegs) : (s.modFn f g).free = s.free := rfl
@[simp] theorem State.modFn_out (s : State) (f : Nat) (g : FnRegs → FnRegs) : (s.modFn f g).out = s.out := rfl
@[simp] theorem State.modFn_pending (s : State) (f : Nat) (g : FnRegs → FnRegs) : (s.modFn f g).pending = s.pending := rfl

/-! ## State.modSq changes `host` only -/

@[simp] theorem State.modSq_fuses (s : State) (n : Nat) (g : Sq → Sq) : (s.modSq n g).fuses = s.fuses := rfl
@[simp] theorem State.modSq_flash (s : State) (n : Nat) (g : Sq → Sq) : (s.modSq n g).flash = s.flash := rfl
@[simp] theorem State.modSq_clk (s : State) (n : Nat) (g : Sq → Sq) : (s.modSq n g).clk = s.clk := rfl
@[simp] theorem State.modSq_power (s : State) (n : Nat) (g : Sq → Sq) : (s.modSq n g).power = s.power := rfl
@[simp] theorem State.modSq_boot (s : State) (n : Nat) (g : Sq → Sq) : (s.modSq n g).boot = s.boot := rfl
@[simp] theorem State.modSq_work (s : State) (n : Nat) (g : Sq → Sq) : (s.modSq n g).work = s.work := rfl
@[simp] theorem State.modSq_nextWid (s : State) (n : Nat) (g : Sq → Sq) : (s.modSq n g).nextWid = s.nextWid := rfl
@[simp] theorem State.modSq_img (s : State) (n : Nat) (g : Sq → Sq) : (s.modSq n g).img = s.img := rfl
@[simp] theorem State.modSq_groves (s : State) (n : Nat) (g : Sq → Sq) : (s.modSq n g).groves = s.groves := rfl
@[simp] theorem State.modSq_waybill (s : State) (n : Nat) (g : Sq → Sq) : (s.modSq n g).waybill = s.waybill := rfl
@[simp] theorem State.modSq_mem (s : State) (n : Nat) (g : Sq → Sq) : (s.modSq n g).mem = s.mem := rfl
@[simp] theorem State.modSq_sleeper (s : State) (n : Nat) (g : Sq → Sq) : (s.modSq n g).sleeper = s.sleeper := rfl
@[simp] theorem State.modSq_tt (s : State) (n : Nat) (g : Sq → Sq) : (s.modSq n g).tt = s.tt := rfl
@[simp] theorem State.modSq_ddr (s : State) (n : Nat) (g : Sq → Sq) : (s.modSq n g).ddr = s.ddr := rfl
@[simp] theorem State.modSq_rail (s : State) (n : Nat) (g : Sq → Sq) : (s.modSq n g).rail = s.rail := rfl
@[simp] theorem State.modSq_rc (s : State) (n : Nat) (g : Sq → Sq) : (s.modSq n g).rc = s.rc := rfl
@[simp] theorem State.modSq_ho (s : State) (n : Nat) (g : Sq → Sq) : (s.modSq n g).ho = s.ho := rfl
@[simp] theorem State.modSq_cs (s : State) (n : Nat) (g : Sq → Sq) : (s.modSq n g).cs = s.cs := rfl
@[simp] theorem State.modSq_ft (s : State) (n : Nat) (g : Sq → Sq) : (s.modSq n g).ft = s.ft := rfl
@[simp] theorem State.modSq_tn (s : State) (n : Nat) (g : Sq → Sq) : (s.modSq n g).tn = s.tn := rfl
@[simp] theorem State.modSq_trust (s : State) (n : Nat) (g : Sq → Sq) : (s.modSq n g).trust = s.trust := rfl
@[simp] theorem State.modSq_free (s : State) (n : Nat) (g : Sq → Sq) : (s.modSq n g).free = s.free := rfl
@[simp] theorem State.modSq_out (s : State) (n : Nat) (g : Sq → Sq) : (s.modSq n g).out = s.out := rfl
@[simp] theorem State.modSq_pending (s : State) (n : Nat) (g : Sq → Sq) : (s.modSq n g).pending = s.pending := rfl

/-! ## State.modCq changes `host` only -/

@[simp] theorem State.modCq_fuses (s : State) (n : Nat) (g : Cq → Cq) : (s.modCq n g).fuses = s.fuses := rfl
@[simp] theorem State.modCq_flash (s : State) (n : Nat) (g : Cq → Cq) : (s.modCq n g).flash = s.flash := rfl
@[simp] theorem State.modCq_clk (s : State) (n : Nat) (g : Cq → Cq) : (s.modCq n g).clk = s.clk := rfl
@[simp] theorem State.modCq_power (s : State) (n : Nat) (g : Cq → Cq) : (s.modCq n g).power = s.power := rfl
@[simp] theorem State.modCq_boot (s : State) (n : Nat) (g : Cq → Cq) : (s.modCq n g).boot = s.boot := rfl
@[simp] theorem State.modCq_work (s : State) (n : Nat) (g : Cq → Cq) : (s.modCq n g).work = s.work := rfl
@[simp] theorem State.modCq_nextWid (s : State) (n : Nat) (g : Cq → Cq) : (s.modCq n g).nextWid = s.nextWid := rfl
@[simp] theorem State.modCq_img (s : State) (n : Nat) (g : Cq → Cq) : (s.modCq n g).img = s.img := rfl
@[simp] theorem State.modCq_groves (s : State) (n : Nat) (g : Cq → Cq) : (s.modCq n g).groves = s.groves := rfl
@[simp] theorem State.modCq_waybill (s : State) (n : Nat) (g : Cq → Cq) : (s.modCq n g).waybill = s.waybill := rfl
@[simp] theorem State.modCq_mem (s : State) (n : Nat) (g : Cq → Cq) : (s.modCq n g).mem = s.mem := rfl
@[simp] theorem State.modCq_sleeper (s : State) (n : Nat) (g : Cq → Cq) : (s.modCq n g).sleeper = s.sleeper := rfl
@[simp] theorem State.modCq_tt (s : State) (n : Nat) (g : Cq → Cq) : (s.modCq n g).tt = s.tt := rfl
@[simp] theorem State.modCq_ddr (s : State) (n : Nat) (g : Cq → Cq) : (s.modCq n g).ddr = s.ddr := rfl
@[simp] theorem State.modCq_rail (s : State) (n : Nat) (g : Cq → Cq) : (s.modCq n g).rail = s.rail := rfl
@[simp] theorem State.modCq_rc (s : State) (n : Nat) (g : Cq → Cq) : (s.modCq n g).rc = s.rc := rfl
@[simp] theorem State.modCq_ho (s : State) (n : Nat) (g : Cq → Cq) : (s.modCq n g).ho = s.ho := rfl
@[simp] theorem State.modCq_cs (s : State) (n : Nat) (g : Cq → Cq) : (s.modCq n g).cs = s.cs := rfl
@[simp] theorem State.modCq_ft (s : State) (n : Nat) (g : Cq → Cq) : (s.modCq n g).ft = s.ft := rfl
@[simp] theorem State.modCq_tn (s : State) (n : Nat) (g : Cq → Cq) : (s.modCq n g).tn = s.tn := rfl
@[simp] theorem State.modCq_trust (s : State) (n : Nat) (g : Cq → Cq) : (s.modCq n g).trust = s.trust := rfl
@[simp] theorem State.modCq_free (s : State) (n : Nat) (g : Cq → Cq) : (s.modCq n g).free = s.free := rfl
@[simp] theorem State.modCq_out (s : State) (n : Nat) (g : Cq → Cq) : (s.modCq n g).out = s.out := rfl
@[simp] theorem State.modCq_pending (s : State) (n : Nat) (g : Cq → Cq) : (s.modCq n g).pending = s.pending := rfl

/-! ## State.modTok changes `host` only -/

@[simp] theorem State.modTok_fuses (s : State) (n : Nat) (g : Tok → Tok) : (s.modTok n g).fuses = s.fuses := rfl
@[simp] theorem State.modTok_flash (s : State) (n : Nat) (g : Tok → Tok) : (s.modTok n g).flash = s.flash := rfl
@[simp] theorem State.modTok_clk (s : State) (n : Nat) (g : Tok → Tok) : (s.modTok n g).clk = s.clk := rfl
@[simp] theorem State.modTok_power (s : State) (n : Nat) (g : Tok → Tok) : (s.modTok n g).power = s.power := rfl
@[simp] theorem State.modTok_boot (s : State) (n : Nat) (g : Tok → Tok) : (s.modTok n g).boot = s.boot := rfl
@[simp] theorem State.modTok_work (s : State) (n : Nat) (g : Tok → Tok) : (s.modTok n g).work = s.work := rfl
@[simp] theorem State.modTok_nextWid (s : State) (n : Nat) (g : Tok → Tok) : (s.modTok n g).nextWid = s.nextWid := rfl
@[simp] theorem State.modTok_img (s : State) (n : Nat) (g : Tok → Tok) : (s.modTok n g).img = s.img := rfl
@[simp] theorem State.modTok_groves (s : State) (n : Nat) (g : Tok → Tok) : (s.modTok n g).groves = s.groves := rfl
@[simp] theorem State.modTok_waybill (s : State) (n : Nat) (g : Tok → Tok) : (s.modTok n g).waybill = s.waybill := rfl
@[simp] theorem State.modTok_mem (s : State) (n : Nat) (g : Tok → Tok) : (s.modTok n g).mem = s.mem := rfl
@[simp] theorem State.modTok_sleeper (s : State) (n : Nat) (g : Tok → Tok) : (s.modTok n g).sleeper = s.sleeper := rfl
@[simp] theorem State.modTok_tt (s : State) (n : Nat) (g : Tok → Tok) : (s.modTok n g).tt = s.tt := rfl
@[simp] theorem State.modTok_ddr (s : State) (n : Nat) (g : Tok → Tok) : (s.modTok n g).ddr = s.ddr := rfl
@[simp] theorem State.modTok_rail (s : State) (n : Nat) (g : Tok → Tok) : (s.modTok n g).rail = s.rail := rfl
@[simp] theorem State.modTok_rc (s : State) (n : Nat) (g : Tok → Tok) : (s.modTok n g).rc = s.rc := rfl
@[simp] theorem State.modTok_ho (s : State) (n : Nat) (g : Tok → Tok) : (s.modTok n g).ho = s.ho := rfl
@[simp] theorem State.modTok_cs (s : State) (n : Nat) (g : Tok → Tok) : (s.modTok n g).cs = s.cs := rfl
@[simp] theorem State.modTok_ft (s : State) (n : Nat) (g : Tok → Tok) : (s.modTok n g).ft = s.ft := rfl
@[simp] theorem State.modTok_tn (s : State) (n : Nat) (g : Tok → Tok) : (s.modTok n g).tn = s.tn := rfl
@[simp] theorem State.modTok_trust (s : State) (n : Nat) (g : Tok → Tok) : (s.modTok n g).trust = s.trust := rfl
@[simp] theorem State.modTok_free (s : State) (n : Nat) (g : Tok → Tok) : (s.modTok n g).free = s.free := rfl
@[simp] theorem State.modTok_out (s : State) (n : Nat) (g : Tok → Tok) : (s.modTok n g).out = s.out := rfl
@[simp] theorem State.modTok_pending (s : State) (n : Nat) (g : Tok → Tok) : (s.modTok n g).pending = s.pending := rfl

/-! ## State.modCtx changes `ft` only -/

@[simp] theorem State.modCtx_fuses (s : State) (c : Nat) (g : Ctx → Ctx) : (s.modCtx c g).fuses = s.fuses := rfl
@[simp] theorem State.modCtx_flash (s : State) (c : Nat) (g : Ctx → Ctx) : (s.modCtx c g).flash = s.flash := rfl
@[simp] theorem State.modCtx_clk (s : State) (c : Nat) (g : Ctx → Ctx) : (s.modCtx c g).clk = s.clk := rfl
@[simp] theorem State.modCtx_power (s : State) (c : Nat) (g : Ctx → Ctx) : (s.modCtx c g).power = s.power := rfl
@[simp] theorem State.modCtx_boot (s : State) (c : Nat) (g : Ctx → Ctx) : (s.modCtx c g).boot = s.boot := rfl
@[simp] theorem State.modCtx_host (s : State) (c : Nat) (g : Ctx → Ctx) : (s.modCtx c g).host = s.host := rfl
@[simp] theorem State.modCtx_work (s : State) (c : Nat) (g : Ctx → Ctx) : (s.modCtx c g).work = s.work := rfl
@[simp] theorem State.modCtx_nextWid (s : State) (c : Nat) (g : Ctx → Ctx) : (s.modCtx c g).nextWid = s.nextWid := rfl
@[simp] theorem State.modCtx_img (s : State) (c : Nat) (g : Ctx → Ctx) : (s.modCtx c g).img = s.img := rfl
@[simp] theorem State.modCtx_groves (s : State) (c : Nat) (g : Ctx → Ctx) : (s.modCtx c g).groves = s.groves := rfl
@[simp] theorem State.modCtx_waybill (s : State) (c : Nat) (g : Ctx → Ctx) : (s.modCtx c g).waybill = s.waybill := rfl
@[simp] theorem State.modCtx_mem (s : State) (c : Nat) (g : Ctx → Ctx) : (s.modCtx c g).mem = s.mem := rfl
@[simp] theorem State.modCtx_sleeper (s : State) (c : Nat) (g : Ctx → Ctx) : (s.modCtx c g).sleeper = s.sleeper := rfl
@[simp] theorem State.modCtx_tt (s : State) (c : Nat) (g : Ctx → Ctx) : (s.modCtx c g).tt = s.tt := rfl
@[simp] theorem State.modCtx_ddr (s : State) (c : Nat) (g : Ctx → Ctx) : (s.modCtx c g).ddr = s.ddr := rfl
@[simp] theorem State.modCtx_rail (s : State) (c : Nat) (g : Ctx → Ctx) : (s.modCtx c g).rail = s.rail := rfl
@[simp] theorem State.modCtx_rc (s : State) (c : Nat) (g : Ctx → Ctx) : (s.modCtx c g).rc = s.rc := rfl
@[simp] theorem State.modCtx_ho (s : State) (c : Nat) (g : Ctx → Ctx) : (s.modCtx c g).ho = s.ho := rfl
@[simp] theorem State.modCtx_cs (s : State) (c : Nat) (g : Ctx → Ctx) : (s.modCtx c g).cs = s.cs := rfl
@[simp] theorem State.modCtx_tn (s : State) (c : Nat) (g : Ctx → Ctx) : (s.modCtx c g).tn = s.tn := rfl
@[simp] theorem State.modCtx_trust (s : State) (c : Nat) (g : Ctx → Ctx) : (s.modCtx c g).trust = s.trust := rfl
@[simp] theorem State.modCtx_free (s : State) (c : Nat) (g : Ctx → Ctx) : (s.modCtx c g).free = s.free := rfl
@[simp] theorem State.modCtx_out (s : State) (c : Nat) (g : Ctx → Ctx) : (s.modCtx c g).out = s.out := rfl
@[simp] theorem State.modCtx_pending (s : State) (c : Nat) (g : Ctx → Ctx) : (s.modCtx c g).pending = s.pending := rfl

/-! ## State.modEntry changes `tt` only -/

@[simp] theorem State.modEntry_fuses (s : State) (i : Nat) (g : Entry → Entry) : (s.modEntry i g).fuses = s.fuses := rfl
@[simp] theorem State.modEntry_flash (s : State) (i : Nat) (g : Entry → Entry) : (s.modEntry i g).flash = s.flash := rfl
@[simp] theorem State.modEntry_clk (s : State) (i : Nat) (g : Entry → Entry) : (s.modEntry i g).clk = s.clk := rfl
@[simp] theorem State.modEntry_power (s : State) (i : Nat) (g : Entry → Entry) : (s.modEntry i g).power = s.power := rfl
@[simp] theorem State.modEntry_boot (s : State) (i : Nat) (g : Entry → Entry) : (s.modEntry i g).boot = s.boot := rfl
@[simp] theorem State.modEntry_host (s : State) (i : Nat) (g : Entry → Entry) : (s.modEntry i g).host = s.host := rfl
@[simp] theorem State.modEntry_work (s : State) (i : Nat) (g : Entry → Entry) : (s.modEntry i g).work = s.work := rfl
@[simp] theorem State.modEntry_nextWid (s : State) (i : Nat) (g : Entry → Entry) : (s.modEntry i g).nextWid = s.nextWid := rfl
@[simp] theorem State.modEntry_img (s : State) (i : Nat) (g : Entry → Entry) : (s.modEntry i g).img = s.img := rfl
@[simp] theorem State.modEntry_groves (s : State) (i : Nat) (g : Entry → Entry) : (s.modEntry i g).groves = s.groves := rfl
@[simp] theorem State.modEntry_waybill (s : State) (i : Nat) (g : Entry → Entry) : (s.modEntry i g).waybill = s.waybill := rfl
@[simp] theorem State.modEntry_mem (s : State) (i : Nat) (g : Entry → Entry) : (s.modEntry i g).mem = s.mem := rfl
@[simp] theorem State.modEntry_sleeper (s : State) (i : Nat) (g : Entry → Entry) : (s.modEntry i g).sleeper = s.sleeper := rfl
@[simp] theorem State.modEntry_ddr (s : State) (i : Nat) (g : Entry → Entry) : (s.modEntry i g).ddr = s.ddr := rfl
@[simp] theorem State.modEntry_rail (s : State) (i : Nat) (g : Entry → Entry) : (s.modEntry i g).rail = s.rail := rfl
@[simp] theorem State.modEntry_rc (s : State) (i : Nat) (g : Entry → Entry) : (s.modEntry i g).rc = s.rc := rfl
@[simp] theorem State.modEntry_ho (s : State) (i : Nat) (g : Entry → Entry) : (s.modEntry i g).ho = s.ho := rfl
@[simp] theorem State.modEntry_cs (s : State) (i : Nat) (g : Entry → Entry) : (s.modEntry i g).cs = s.cs := rfl
@[simp] theorem State.modEntry_ft (s : State) (i : Nat) (g : Entry → Entry) : (s.modEntry i g).ft = s.ft := rfl
@[simp] theorem State.modEntry_tn (s : State) (i : Nat) (g : Entry → Entry) : (s.modEntry i g).tn = s.tn := rfl
@[simp] theorem State.modEntry_trust (s : State) (i : Nat) (g : Entry → Entry) : (s.modEntry i g).trust = s.trust := rfl
@[simp] theorem State.modEntry_free (s : State) (i : Nat) (g : Entry → Entry) : (s.modEntry i g).free = s.free := rfl
@[simp] theorem State.modEntry_out (s : State) (i : Nat) (g : Entry → Entry) : (s.modEntry i g).out = s.out := rfl
@[simp] theorem State.modEntry_pending (s : State) (i : Nat) (g : Entry → Entry) : (s.modEntry i g).pending = s.pending := rfl

/-! ## State.modTtRegs changes `tt` only -/

@[simp] theorem State.modTtRegs_fuses (s : State) (p : Nat) (g : TtRegs → TtRegs) : (s.modTtRegs p g).fuses = s.fuses := rfl
@[simp] theorem State.modTtRegs_flash (s : State) (p : Nat) (g : TtRegs → TtRegs) : (s.modTtRegs p g).flash = s.flash := rfl
@[simp] theorem State.modTtRegs_clk (s : State) (p : Nat) (g : TtRegs → TtRegs) : (s.modTtRegs p g).clk = s.clk := rfl
@[simp] theorem State.modTtRegs_power (s : State) (p : Nat) (g : TtRegs → TtRegs) : (s.modTtRegs p g).power = s.power := rfl
@[simp] theorem State.modTtRegs_boot (s : State) (p : Nat) (g : TtRegs → TtRegs) : (s.modTtRegs p g).boot = s.boot := rfl
@[simp] theorem State.modTtRegs_host (s : State) (p : Nat) (g : TtRegs → TtRegs) : (s.modTtRegs p g).host = s.host := rfl
@[simp] theorem State.modTtRegs_work (s : State) (p : Nat) (g : TtRegs → TtRegs) : (s.modTtRegs p g).work = s.work := rfl
@[simp] theorem State.modTtRegs_nextWid (s : State) (p : Nat) (g : TtRegs → TtRegs) : (s.modTtRegs p g).nextWid = s.nextWid := rfl
@[simp] theorem State.modTtRegs_img (s : State) (p : Nat) (g : TtRegs → TtRegs) : (s.modTtRegs p g).img = s.img := rfl
@[simp] theorem State.modTtRegs_groves (s : State) (p : Nat) (g : TtRegs → TtRegs) : (s.modTtRegs p g).groves = s.groves := rfl
@[simp] theorem State.modTtRegs_waybill (s : State) (p : Nat) (g : TtRegs → TtRegs) : (s.modTtRegs p g).waybill = s.waybill := rfl
@[simp] theorem State.modTtRegs_mem (s : State) (p : Nat) (g : TtRegs → TtRegs) : (s.modTtRegs p g).mem = s.mem := rfl
@[simp] theorem State.modTtRegs_sleeper (s : State) (p : Nat) (g : TtRegs → TtRegs) : (s.modTtRegs p g).sleeper = s.sleeper := rfl
@[simp] theorem State.modTtRegs_ddr (s : State) (p : Nat) (g : TtRegs → TtRegs) : (s.modTtRegs p g).ddr = s.ddr := rfl
@[simp] theorem State.modTtRegs_rail (s : State) (p : Nat) (g : TtRegs → TtRegs) : (s.modTtRegs p g).rail = s.rail := rfl
@[simp] theorem State.modTtRegs_rc (s : State) (p : Nat) (g : TtRegs → TtRegs) : (s.modTtRegs p g).rc = s.rc := rfl
@[simp] theorem State.modTtRegs_ho (s : State) (p : Nat) (g : TtRegs → TtRegs) : (s.modTtRegs p g).ho = s.ho := rfl
@[simp] theorem State.modTtRegs_cs (s : State) (p : Nat) (g : TtRegs → TtRegs) : (s.modTtRegs p g).cs = s.cs := rfl
@[simp] theorem State.modTtRegs_ft (s : State) (p : Nat) (g : TtRegs → TtRegs) : (s.modTtRegs p g).ft = s.ft := rfl
@[simp] theorem State.modTtRegs_tn (s : State) (p : Nat) (g : TtRegs → TtRegs) : (s.modTtRegs p g).tn = s.tn := rfl
@[simp] theorem State.modTtRegs_trust (s : State) (p : Nat) (g : TtRegs → TtRegs) : (s.modTtRegs p g).trust = s.trust := rfl
@[simp] theorem State.modTtRegs_free (s : State) (p : Nat) (g : TtRegs → TtRegs) : (s.modTtRegs p g).free = s.free := rfl
@[simp] theorem State.modTtRegs_out (s : State) (p : Nat) (g : TtRegs → TtRegs) : (s.modTtRegs p g).out = s.out := rfl
@[simp] theorem State.modTtRegs_pending (s : State) (p : Nat) (g : TtRegs → TtRegs) : (s.modTtRegs p g).pending = s.pending := rfl

/-! ## State.modConn changes `rc` only -/

@[simp] theorem State.modConn_fuses (s : State) (c : Nat) (g : Conn → Conn) : (s.modConn c g).fuses = s.fuses := rfl
@[simp] theorem State.modConn_flash (s : State) (c : Nat) (g : Conn → Conn) : (s.modConn c g).flash = s.flash := rfl
@[simp] theorem State.modConn_clk (s : State) (c : Nat) (g : Conn → Conn) : (s.modConn c g).clk = s.clk := rfl
@[simp] theorem State.modConn_power (s : State) (c : Nat) (g : Conn → Conn) : (s.modConn c g).power = s.power := rfl
@[simp] theorem State.modConn_boot (s : State) (c : Nat) (g : Conn → Conn) : (s.modConn c g).boot = s.boot := rfl
@[simp] theorem State.modConn_host (s : State) (c : Nat) (g : Conn → Conn) : (s.modConn c g).host = s.host := rfl
@[simp] theorem State.modConn_work (s : State) (c : Nat) (g : Conn → Conn) : (s.modConn c g).work = s.work := rfl
@[simp] theorem State.modConn_nextWid (s : State) (c : Nat) (g : Conn → Conn) : (s.modConn c g).nextWid = s.nextWid := rfl
@[simp] theorem State.modConn_img (s : State) (c : Nat) (g : Conn → Conn) : (s.modConn c g).img = s.img := rfl
@[simp] theorem State.modConn_groves (s : State) (c : Nat) (g : Conn → Conn) : (s.modConn c g).groves = s.groves := rfl
@[simp] theorem State.modConn_waybill (s : State) (c : Nat) (g : Conn → Conn) : (s.modConn c g).waybill = s.waybill := rfl
@[simp] theorem State.modConn_mem (s : State) (c : Nat) (g : Conn → Conn) : (s.modConn c g).mem = s.mem := rfl
@[simp] theorem State.modConn_sleeper (s : State) (c : Nat) (g : Conn → Conn) : (s.modConn c g).sleeper = s.sleeper := rfl
@[simp] theorem State.modConn_tt (s : State) (c : Nat) (g : Conn → Conn) : (s.modConn c g).tt = s.tt := rfl
@[simp] theorem State.modConn_ddr (s : State) (c : Nat) (g : Conn → Conn) : (s.modConn c g).ddr = s.ddr := rfl
@[simp] theorem State.modConn_rail (s : State) (c : Nat) (g : Conn → Conn) : (s.modConn c g).rail = s.rail := rfl
@[simp] theorem State.modConn_ho (s : State) (c : Nat) (g : Conn → Conn) : (s.modConn c g).ho = s.ho := rfl
@[simp] theorem State.modConn_cs (s : State) (c : Nat) (g : Conn → Conn) : (s.modConn c g).cs = s.cs := rfl
@[simp] theorem State.modConn_ft (s : State) (c : Nat) (g : Conn → Conn) : (s.modConn c g).ft = s.ft := rfl
@[simp] theorem State.modConn_tn (s : State) (c : Nat) (g : Conn → Conn) : (s.modConn c g).tn = s.tn := rfl
@[simp] theorem State.modConn_trust (s : State) (c : Nat) (g : Conn → Conn) : (s.modConn c g).trust = s.trust := rfl
@[simp] theorem State.modConn_free (s : State) (c : Nat) (g : Conn → Conn) : (s.modConn c g).free = s.free := rfl
@[simp] theorem State.modConn_out (s : State) (c : Nat) (g : Conn → Conn) : (s.modConn c g).out = s.out := rfl
@[simp] theorem State.modConn_pending (s : State) (c : Nat) (g : Conn → Conn) : (s.modConn c g).pending = s.pending := rfl

/-! ## State.modSlot changes `rc` only -/

@[simp] theorem State.modSlot_fuses (s : State) (k : Nat) (g : RegSlot → RegSlot) : (s.modSlot k g).fuses = s.fuses := rfl
@[simp] theorem State.modSlot_flash (s : State) (k : Nat) (g : RegSlot → RegSlot) : (s.modSlot k g).flash = s.flash := rfl
@[simp] theorem State.modSlot_clk (s : State) (k : Nat) (g : RegSlot → RegSlot) : (s.modSlot k g).clk = s.clk := rfl
@[simp] theorem State.modSlot_power (s : State) (k : Nat) (g : RegSlot → RegSlot) : (s.modSlot k g).power = s.power := rfl
@[simp] theorem State.modSlot_boot (s : State) (k : Nat) (g : RegSlot → RegSlot) : (s.modSlot k g).boot = s.boot := rfl
@[simp] theorem State.modSlot_host (s : State) (k : Nat) (g : RegSlot → RegSlot) : (s.modSlot k g).host = s.host := rfl
@[simp] theorem State.modSlot_work (s : State) (k : Nat) (g : RegSlot → RegSlot) : (s.modSlot k g).work = s.work := rfl
@[simp] theorem State.modSlot_nextWid (s : State) (k : Nat) (g : RegSlot → RegSlot) : (s.modSlot k g).nextWid = s.nextWid := rfl
@[simp] theorem State.modSlot_img (s : State) (k : Nat) (g : RegSlot → RegSlot) : (s.modSlot k g).img = s.img := rfl
@[simp] theorem State.modSlot_groves (s : State) (k : Nat) (g : RegSlot → RegSlot) : (s.modSlot k g).groves = s.groves := rfl
@[simp] theorem State.modSlot_waybill (s : State) (k : Nat) (g : RegSlot → RegSlot) : (s.modSlot k g).waybill = s.waybill := rfl
@[simp] theorem State.modSlot_mem (s : State) (k : Nat) (g : RegSlot → RegSlot) : (s.modSlot k g).mem = s.mem := rfl
@[simp] theorem State.modSlot_sleeper (s : State) (k : Nat) (g : RegSlot → RegSlot) : (s.modSlot k g).sleeper = s.sleeper := rfl
@[simp] theorem State.modSlot_tt (s : State) (k : Nat) (g : RegSlot → RegSlot) : (s.modSlot k g).tt = s.tt := rfl
@[simp] theorem State.modSlot_ddr (s : State) (k : Nat) (g : RegSlot → RegSlot) : (s.modSlot k g).ddr = s.ddr := rfl
@[simp] theorem State.modSlot_rail (s : State) (k : Nat) (g : RegSlot → RegSlot) : (s.modSlot k g).rail = s.rail := rfl
@[simp] theorem State.modSlot_ho (s : State) (k : Nat) (g : RegSlot → RegSlot) : (s.modSlot k g).ho = s.ho := rfl
@[simp] theorem State.modSlot_cs (s : State) (k : Nat) (g : RegSlot → RegSlot) : (s.modSlot k g).cs = s.cs := rfl
@[simp] theorem State.modSlot_ft (s : State) (k : Nat) (g : RegSlot → RegSlot) : (s.modSlot k g).ft = s.ft := rfl
@[simp] theorem State.modSlot_tn (s : State) (k : Nat) (g : RegSlot → RegSlot) : (s.modSlot k g).tn = s.tn := rfl
@[simp] theorem State.modSlot_trust (s : State) (k : Nat) (g : RegSlot → RegSlot) : (s.modSlot k g).trust = s.trust := rfl
@[simp] theorem State.modSlot_free (s : State) (k : Nat) (g : RegSlot → RegSlot) : (s.modSlot k g).free = s.free := rfl
@[simp] theorem State.modSlot_out (s : State) (k : Nat) (g : RegSlot → RegSlot) : (s.modSlot k g).out = s.out := rfl
@[simp] theorem State.modSlot_pending (s : State) (k : Nat) (g : RegSlot → RegSlot) : (s.modSlot k g).pending = s.pending := rfl

/-! ## State.modDdr changes `ddr` only -/

@[simp] theorem State.modDdr_fuses (s : State) (r : Nat) (g : DdrRegion → DdrRegion) : (s.modDdr r g).fuses = s.fuses := rfl
@[simp] theorem State.modDdr_flash (s : State) (r : Nat) (g : DdrRegion → DdrRegion) : (s.modDdr r g).flash = s.flash := rfl
@[simp] theorem State.modDdr_clk (s : State) (r : Nat) (g : DdrRegion → DdrRegion) : (s.modDdr r g).clk = s.clk := rfl
@[simp] theorem State.modDdr_power (s : State) (r : Nat) (g : DdrRegion → DdrRegion) : (s.modDdr r g).power = s.power := rfl
@[simp] theorem State.modDdr_boot (s : State) (r : Nat) (g : DdrRegion → DdrRegion) : (s.modDdr r g).boot = s.boot := rfl
@[simp] theorem State.modDdr_host (s : State) (r : Nat) (g : DdrRegion → DdrRegion) : (s.modDdr r g).host = s.host := rfl
@[simp] theorem State.modDdr_work (s : State) (r : Nat) (g : DdrRegion → DdrRegion) : (s.modDdr r g).work = s.work := rfl
@[simp] theorem State.modDdr_nextWid (s : State) (r : Nat) (g : DdrRegion → DdrRegion) : (s.modDdr r g).nextWid = s.nextWid := rfl
@[simp] theorem State.modDdr_img (s : State) (r : Nat) (g : DdrRegion → DdrRegion) : (s.modDdr r g).img = s.img := rfl
@[simp] theorem State.modDdr_groves (s : State) (r : Nat) (g : DdrRegion → DdrRegion) : (s.modDdr r g).groves = s.groves := rfl
@[simp] theorem State.modDdr_waybill (s : State) (r : Nat) (g : DdrRegion → DdrRegion) : (s.modDdr r g).waybill = s.waybill := rfl
@[simp] theorem State.modDdr_mem (s : State) (r : Nat) (g : DdrRegion → DdrRegion) : (s.modDdr r g).mem = s.mem := rfl
@[simp] theorem State.modDdr_sleeper (s : State) (r : Nat) (g : DdrRegion → DdrRegion) : (s.modDdr r g).sleeper = s.sleeper := rfl
@[simp] theorem State.modDdr_tt (s : State) (r : Nat) (g : DdrRegion → DdrRegion) : (s.modDdr r g).tt = s.tt := rfl
@[simp] theorem State.modDdr_rail (s : State) (r : Nat) (g : DdrRegion → DdrRegion) : (s.modDdr r g).rail = s.rail := rfl
@[simp] theorem State.modDdr_rc (s : State) (r : Nat) (g : DdrRegion → DdrRegion) : (s.modDdr r g).rc = s.rc := rfl
@[simp] theorem State.modDdr_ho (s : State) (r : Nat) (g : DdrRegion → DdrRegion) : (s.modDdr r g).ho = s.ho := rfl
@[simp] theorem State.modDdr_cs (s : State) (r : Nat) (g : DdrRegion → DdrRegion) : (s.modDdr r g).cs = s.cs := rfl
@[simp] theorem State.modDdr_ft (s : State) (r : Nat) (g : DdrRegion → DdrRegion) : (s.modDdr r g).ft = s.ft := rfl
@[simp] theorem State.modDdr_tn (s : State) (r : Nat) (g : DdrRegion → DdrRegion) : (s.modDdr r g).tn = s.tn := rfl
@[simp] theorem State.modDdr_trust (s : State) (r : Nat) (g : DdrRegion → DdrRegion) : (s.modDdr r g).trust = s.trust := rfl
@[simp] theorem State.modDdr_free (s : State) (r : Nat) (g : DdrRegion → DdrRegion) : (s.modDdr r g).free = s.free := rfl
@[simp] theorem State.modDdr_out (s : State) (r : Nat) (g : DdrRegion → DdrRegion) : (s.modDdr r g).out = s.out := rfl
@[simp] theorem State.modDdr_pending (s : State) (r : Nat) (g : DdrRegion → DdrRegion) : (s.modDdr r g).pending = s.pending := rfl

/-! ## State.modLantern changes `rail` only -/

@[simp] theorem State.modLantern_fuses (s : State) (n : Nat) (g : Lantern → Lantern) : (s.modLantern n g).fuses = s.fuses := rfl
@[simp] theorem State.modLantern_flash (s : State) (n : Nat) (g : Lantern → Lantern) : (s.modLantern n g).flash = s.flash := rfl
@[simp] theorem State.modLantern_clk (s : State) (n : Nat) (g : Lantern → Lantern) : (s.modLantern n g).clk = s.clk := rfl
@[simp] theorem State.modLantern_power (s : State) (n : Nat) (g : Lantern → Lantern) : (s.modLantern n g).power = s.power := rfl
@[simp] theorem State.modLantern_boot (s : State) (n : Nat) (g : Lantern → Lantern) : (s.modLantern n g).boot = s.boot := rfl
@[simp] theorem State.modLantern_host (s : State) (n : Nat) (g : Lantern → Lantern) : (s.modLantern n g).host = s.host := rfl
@[simp] theorem State.modLantern_work (s : State) (n : Nat) (g : Lantern → Lantern) : (s.modLantern n g).work = s.work := rfl
@[simp] theorem State.modLantern_nextWid (s : State) (n : Nat) (g : Lantern → Lantern) : (s.modLantern n g).nextWid = s.nextWid := rfl
@[simp] theorem State.modLantern_img (s : State) (n : Nat) (g : Lantern → Lantern) : (s.modLantern n g).img = s.img := rfl
@[simp] theorem State.modLantern_groves (s : State) (n : Nat) (g : Lantern → Lantern) : (s.modLantern n g).groves = s.groves := rfl
@[simp] theorem State.modLantern_waybill (s : State) (n : Nat) (g : Lantern → Lantern) : (s.modLantern n g).waybill = s.waybill := rfl
@[simp] theorem State.modLantern_mem (s : State) (n : Nat) (g : Lantern → Lantern) : (s.modLantern n g).mem = s.mem := rfl
@[simp] theorem State.modLantern_sleeper (s : State) (n : Nat) (g : Lantern → Lantern) : (s.modLantern n g).sleeper = s.sleeper := rfl
@[simp] theorem State.modLantern_tt (s : State) (n : Nat) (g : Lantern → Lantern) : (s.modLantern n g).tt = s.tt := rfl
@[simp] theorem State.modLantern_ddr (s : State) (n : Nat) (g : Lantern → Lantern) : (s.modLantern n g).ddr = s.ddr := rfl
@[simp] theorem State.modLantern_rc (s : State) (n : Nat) (g : Lantern → Lantern) : (s.modLantern n g).rc = s.rc := rfl
@[simp] theorem State.modLantern_ho (s : State) (n : Nat) (g : Lantern → Lantern) : (s.modLantern n g).ho = s.ho := rfl
@[simp] theorem State.modLantern_cs (s : State) (n : Nat) (g : Lantern → Lantern) : (s.modLantern n g).cs = s.cs := rfl
@[simp] theorem State.modLantern_ft (s : State) (n : Nat) (g : Lantern → Lantern) : (s.modLantern n g).ft = s.ft := rfl
@[simp] theorem State.modLantern_tn (s : State) (n : Nat) (g : Lantern → Lantern) : (s.modLantern n g).tn = s.tn := rfl
@[simp] theorem State.modLantern_trust (s : State) (n : Nat) (g : Lantern → Lantern) : (s.modLantern n g).trust = s.trust := rfl
@[simp] theorem State.modLantern_free (s : State) (n : Nat) (g : Lantern → Lantern) : (s.modLantern n g).free = s.free := rfl
@[simp] theorem State.modLantern_out (s : State) (n : Nat) (g : Lantern → Lantern) : (s.modLantern n g).out = s.out := rfl
@[simp] theorem State.modLantern_pending (s : State) (n : Nat) (g : Lantern → Lantern) : (s.modLantern n g).pending = s.pending := rfl

/-! ## State.modLink changes `rail` only -/

@[simp] theorem State.modLink_fuses (s : State) (n l : Nat) (g : Link → Link) : (s.modLink n l g).fuses = s.fuses := rfl
@[simp] theorem State.modLink_flash (s : State) (n l : Nat) (g : Link → Link) : (s.modLink n l g).flash = s.flash := rfl
@[simp] theorem State.modLink_clk (s : State) (n l : Nat) (g : Link → Link) : (s.modLink n l g).clk = s.clk := rfl
@[simp] theorem State.modLink_power (s : State) (n l : Nat) (g : Link → Link) : (s.modLink n l g).power = s.power := rfl
@[simp] theorem State.modLink_boot (s : State) (n l : Nat) (g : Link → Link) : (s.modLink n l g).boot = s.boot := rfl
@[simp] theorem State.modLink_host (s : State) (n l : Nat) (g : Link → Link) : (s.modLink n l g).host = s.host := rfl
@[simp] theorem State.modLink_work (s : State) (n l : Nat) (g : Link → Link) : (s.modLink n l g).work = s.work := rfl
@[simp] theorem State.modLink_nextWid (s : State) (n l : Nat) (g : Link → Link) : (s.modLink n l g).nextWid = s.nextWid := rfl
@[simp] theorem State.modLink_img (s : State) (n l : Nat) (g : Link → Link) : (s.modLink n l g).img = s.img := rfl
@[simp] theorem State.modLink_groves (s : State) (n l : Nat) (g : Link → Link) : (s.modLink n l g).groves = s.groves := rfl
@[simp] theorem State.modLink_waybill (s : State) (n l : Nat) (g : Link → Link) : (s.modLink n l g).waybill = s.waybill := rfl
@[simp] theorem State.modLink_mem (s : State) (n l : Nat) (g : Link → Link) : (s.modLink n l g).mem = s.mem := rfl
@[simp] theorem State.modLink_sleeper (s : State) (n l : Nat) (g : Link → Link) : (s.modLink n l g).sleeper = s.sleeper := rfl
@[simp] theorem State.modLink_tt (s : State) (n l : Nat) (g : Link → Link) : (s.modLink n l g).tt = s.tt := rfl
@[simp] theorem State.modLink_ddr (s : State) (n l : Nat) (g : Link → Link) : (s.modLink n l g).ddr = s.ddr := rfl
@[simp] theorem State.modLink_rc (s : State) (n l : Nat) (g : Link → Link) : (s.modLink n l g).rc = s.rc := rfl
@[simp] theorem State.modLink_ho (s : State) (n l : Nat) (g : Link → Link) : (s.modLink n l g).ho = s.ho := rfl
@[simp] theorem State.modLink_cs (s : State) (n l : Nat) (g : Link → Link) : (s.modLink n l g).cs = s.cs := rfl
@[simp] theorem State.modLink_ft (s : State) (n l : Nat) (g : Link → Link) : (s.modLink n l g).ft = s.ft := rfl
@[simp] theorem State.modLink_tn (s : State) (n l : Nat) (g : Link → Link) : (s.modLink n l g).tn = s.tn := rfl
@[simp] theorem State.modLink_trust (s : State) (n l : Nat) (g : Link → Link) : (s.modLink n l g).trust = s.trust := rfl
@[simp] theorem State.modLink_free (s : State) (n l : Nat) (g : Link → Link) : (s.modLink n l g).free = s.free := rfl
@[simp] theorem State.modLink_out (s : State) (n l : Nat) (g : Link → Link) : (s.modLink n l g).out = s.out := rfl
@[simp] theorem State.modLink_pending (s : State) (n l : Nat) (g : Link → Link) : (s.modLink n l g).pending = s.pending := rfl

/-! ## State.modLane changes `rail` only -/

@[simp] theorem State.modLane_fuses (s : State) (n l : Nat) (g : Lane → Lane) : (s.modLane n l g).fuses = s.fuses := rfl
@[simp] theorem State.modLane_flash (s : State) (n l : Nat) (g : Lane → Lane) : (s.modLane n l g).flash = s.flash := rfl
@[simp] theorem State.modLane_clk (s : State) (n l : Nat) (g : Lane → Lane) : (s.modLane n l g).clk = s.clk := rfl
@[simp] theorem State.modLane_power (s : State) (n l : Nat) (g : Lane → Lane) : (s.modLane n l g).power = s.power := rfl
@[simp] theorem State.modLane_boot (s : State) (n l : Nat) (g : Lane → Lane) : (s.modLane n l g).boot = s.boot := rfl
@[simp] theorem State.modLane_host (s : State) (n l : Nat) (g : Lane → Lane) : (s.modLane n l g).host = s.host := rfl
@[simp] theorem State.modLane_work (s : State) (n l : Nat) (g : Lane → Lane) : (s.modLane n l g).work = s.work := rfl
@[simp] theorem State.modLane_nextWid (s : State) (n l : Nat) (g : Lane → Lane) : (s.modLane n l g).nextWid = s.nextWid := rfl
@[simp] theorem State.modLane_img (s : State) (n l : Nat) (g : Lane → Lane) : (s.modLane n l g).img = s.img := rfl
@[simp] theorem State.modLane_groves (s : State) (n l : Nat) (g : Lane → Lane) : (s.modLane n l g).groves = s.groves := rfl
@[simp] theorem State.modLane_waybill (s : State) (n l : Nat) (g : Lane → Lane) : (s.modLane n l g).waybill = s.waybill := rfl
@[simp] theorem State.modLane_mem (s : State) (n l : Nat) (g : Lane → Lane) : (s.modLane n l g).mem = s.mem := rfl
@[simp] theorem State.modLane_sleeper (s : State) (n l : Nat) (g : Lane → Lane) : (s.modLane n l g).sleeper = s.sleeper := rfl
@[simp] theorem State.modLane_tt (s : State) (n l : Nat) (g : Lane → Lane) : (s.modLane n l g).tt = s.tt := rfl
@[simp] theorem State.modLane_ddr (s : State) (n l : Nat) (g : Lane → Lane) : (s.modLane n l g).ddr = s.ddr := rfl
@[simp] theorem State.modLane_rc (s : State) (n l : Nat) (g : Lane → Lane) : (s.modLane n l g).rc = s.rc := rfl
@[simp] theorem State.modLane_ho (s : State) (n l : Nat) (g : Lane → Lane) : (s.modLane n l g).ho = s.ho := rfl
@[simp] theorem State.modLane_cs (s : State) (n l : Nat) (g : Lane → Lane) : (s.modLane n l g).cs = s.cs := rfl
@[simp] theorem State.modLane_ft (s : State) (n l : Nat) (g : Lane → Lane) : (s.modLane n l g).ft = s.ft := rfl
@[simp] theorem State.modLane_tn (s : State) (n l : Nat) (g : Lane → Lane) : (s.modLane n l g).tn = s.tn := rfl
@[simp] theorem State.modLane_trust (s : State) (n l : Nat) (g : Lane → Lane) : (s.modLane n l g).trust = s.trust := rfl
@[simp] theorem State.modLane_free (s : State) (n l : Nat) (g : Lane → Lane) : (s.modLane n l g).free = s.free := rfl
@[simp] theorem State.modLane_out (s : State) (n l : Nat) (g : Lane → Lane) : (s.modLane n l g).out = s.out := rfl
@[simp] theorem State.modLane_pending (s : State) (n l : Nat) (g : Lane → Lane) : (s.modLane n l g).pending = s.pending := rfl

/-! ## State.modGrove changes `groves` only -/

@[simp] theorem State.modGrove_fuses (s : State) (n : Nat) (g : Grove → Grove) : (s.modGrove n g).fuses = s.fuses := rfl
@[simp] theorem State.modGrove_flash (s : State) (n : Nat) (g : Grove → Grove) : (s.modGrove n g).flash = s.flash := rfl
@[simp] theorem State.modGrove_clk (s : State) (n : Nat) (g : Grove → Grove) : (s.modGrove n g).clk = s.clk := rfl
@[simp] theorem State.modGrove_power (s : State) (n : Nat) (g : Grove → Grove) : (s.modGrove n g).power = s.power := rfl
@[simp] theorem State.modGrove_boot (s : State) (n : Nat) (g : Grove → Grove) : (s.modGrove n g).boot = s.boot := rfl
@[simp] theorem State.modGrove_host (s : State) (n : Nat) (g : Grove → Grove) : (s.modGrove n g).host = s.host := rfl
@[simp] theorem State.modGrove_work (s : State) (n : Nat) (g : Grove → Grove) : (s.modGrove n g).work = s.work := rfl
@[simp] theorem State.modGrove_nextWid (s : State) (n : Nat) (g : Grove → Grove) : (s.modGrove n g).nextWid = s.nextWid := rfl
@[simp] theorem State.modGrove_img (s : State) (n : Nat) (g : Grove → Grove) : (s.modGrove n g).img = s.img := rfl
@[simp] theorem State.modGrove_waybill (s : State) (n : Nat) (g : Grove → Grove) : (s.modGrove n g).waybill = s.waybill := rfl
@[simp] theorem State.modGrove_mem (s : State) (n : Nat) (g : Grove → Grove) : (s.modGrove n g).mem = s.mem := rfl
@[simp] theorem State.modGrove_sleeper (s : State) (n : Nat) (g : Grove → Grove) : (s.modGrove n g).sleeper = s.sleeper := rfl
@[simp] theorem State.modGrove_tt (s : State) (n : Nat) (g : Grove → Grove) : (s.modGrove n g).tt = s.tt := rfl
@[simp] theorem State.modGrove_ddr (s : State) (n : Nat) (g : Grove → Grove) : (s.modGrove n g).ddr = s.ddr := rfl
@[simp] theorem State.modGrove_rail (s : State) (n : Nat) (g : Grove → Grove) : (s.modGrove n g).rail = s.rail := rfl
@[simp] theorem State.modGrove_rc (s : State) (n : Nat) (g : Grove → Grove) : (s.modGrove n g).rc = s.rc := rfl
@[simp] theorem State.modGrove_ho (s : State) (n : Nat) (g : Grove → Grove) : (s.modGrove n g).ho = s.ho := rfl
@[simp] theorem State.modGrove_cs (s : State) (n : Nat) (g : Grove → Grove) : (s.modGrove n g).cs = s.cs := rfl
@[simp] theorem State.modGrove_ft (s : State) (n : Nat) (g : Grove → Grove) : (s.modGrove n g).ft = s.ft := rfl
@[simp] theorem State.modGrove_tn (s : State) (n : Nat) (g : Grove → Grove) : (s.modGrove n g).tn = s.tn := rfl
@[simp] theorem State.modGrove_trust (s : State) (n : Nat) (g : Grove → Grove) : (s.modGrove n g).trust = s.trust := rfl
@[simp] theorem State.modGrove_free (s : State) (n : Nat) (g : Grove → Grove) : (s.modGrove n g).free = s.free := rfl
@[simp] theorem State.modGrove_out (s : State) (n : Nat) (g : Grove → Grove) : (s.modGrove n g).out = s.out := rfl
@[simp] theorem State.modGrove_pending (s : State) (n : Nat) (g : Grove → Grove) : (s.modGrove n g).pending = s.pending := rfl

/-! ## State.modStand changes `groves` only -/

@[simp] theorem State.modStand_fuses (s : State) (n l : Nat) (g : Stand → Stand) : (s.modStand n l g).fuses = s.fuses := rfl
@[simp] theorem State.modStand_flash (s : State) (n l : Nat) (g : Stand → Stand) : (s.modStand n l g).flash = s.flash := rfl
@[simp] theorem State.modStand_clk (s : State) (n l : Nat) (g : Stand → Stand) : (s.modStand n l g).clk = s.clk := rfl
@[simp] theorem State.modStand_power (s : State) (n l : Nat) (g : Stand → Stand) : (s.modStand n l g).power = s.power := rfl
@[simp] theorem State.modStand_boot (s : State) (n l : Nat) (g : Stand → Stand) : (s.modStand n l g).boot = s.boot := rfl
@[simp] theorem State.modStand_host (s : State) (n l : Nat) (g : Stand → Stand) : (s.modStand n l g).host = s.host := rfl
@[simp] theorem State.modStand_work (s : State) (n l : Nat) (g : Stand → Stand) : (s.modStand n l g).work = s.work := rfl
@[simp] theorem State.modStand_nextWid (s : State) (n l : Nat) (g : Stand → Stand) : (s.modStand n l g).nextWid = s.nextWid := rfl
@[simp] theorem State.modStand_img (s : State) (n l : Nat) (g : Stand → Stand) : (s.modStand n l g).img = s.img := rfl
@[simp] theorem State.modStand_waybill (s : State) (n l : Nat) (g : Stand → Stand) : (s.modStand n l g).waybill = s.waybill := rfl
@[simp] theorem State.modStand_mem (s : State) (n l : Nat) (g : Stand → Stand) : (s.modStand n l g).mem = s.mem := rfl
@[simp] theorem State.modStand_sleeper (s : State) (n l : Nat) (g : Stand → Stand) : (s.modStand n l g).sleeper = s.sleeper := rfl
@[simp] theorem State.modStand_tt (s : State) (n l : Nat) (g : Stand → Stand) : (s.modStand n l g).tt = s.tt := rfl
@[simp] theorem State.modStand_ddr (s : State) (n l : Nat) (g : Stand → Stand) : (s.modStand n l g).ddr = s.ddr := rfl
@[simp] theorem State.modStand_rail (s : State) (n l : Nat) (g : Stand → Stand) : (s.modStand n l g).rail = s.rail := rfl
@[simp] theorem State.modStand_rc (s : State) (n l : Nat) (g : Stand → Stand) : (s.modStand n l g).rc = s.rc := rfl
@[simp] theorem State.modStand_ho (s : State) (n l : Nat) (g : Stand → Stand) : (s.modStand n l g).ho = s.ho := rfl
@[simp] theorem State.modStand_cs (s : State) (n l : Nat) (g : Stand → Stand) : (s.modStand n l g).cs = s.cs := rfl
@[simp] theorem State.modStand_ft (s : State) (n l : Nat) (g : Stand → Stand) : (s.modStand n l g).ft = s.ft := rfl
@[simp] theorem State.modStand_tn (s : State) (n l : Nat) (g : Stand → Stand) : (s.modStand n l g).tn = s.tn := rfl
@[simp] theorem State.modStand_trust (s : State) (n l : Nat) (g : Stand → Stand) : (s.modStand n l g).trust = s.trust := rfl
@[simp] theorem State.modStand_free (s : State) (n l : Nat) (g : Stand → Stand) : (s.modStand n l g).free = s.free := rfl
@[simp] theorem State.modStand_out (s : State) (n l : Nat) (g : Stand → Stand) : (s.modStand n l g).out = s.out := rfl
@[simp] theorem State.modStand_pending (s : State) (n l : Nat) (g : Stand → Stand) : (s.modStand n l g).pending = s.pending := rfl

/-! ## State.modPhys changes `groves` only -/

@[simp] theorem State.modPhys_fuses (s : State) (n p : Nat) (g : Phys → Phys) : (s.modPhys n p g).fuses = s.fuses := rfl
@[simp] theorem State.modPhys_flash (s : State) (n p : Nat) (g : Phys → Phys) : (s.modPhys n p g).flash = s.flash := rfl
@[simp] theorem State.modPhys_clk (s : State) (n p : Nat) (g : Phys → Phys) : (s.modPhys n p g).clk = s.clk := rfl
@[simp] theorem State.modPhys_power (s : State) (n p : Nat) (g : Phys → Phys) : (s.modPhys n p g).power = s.power := rfl
@[simp] theorem State.modPhys_boot (s : State) (n p : Nat) (g : Phys → Phys) : (s.modPhys n p g).boot = s.boot := rfl
@[simp] theorem State.modPhys_host (s : State) (n p : Nat) (g : Phys → Phys) : (s.modPhys n p g).host = s.host := rfl
@[simp] theorem State.modPhys_work (s : State) (n p : Nat) (g : Phys → Phys) : (s.modPhys n p g).work = s.work := rfl
@[simp] theorem State.modPhys_nextWid (s : State) (n p : Nat) (g : Phys → Phys) : (s.modPhys n p g).nextWid = s.nextWid := rfl
@[simp] theorem State.modPhys_img (s : State) (n p : Nat) (g : Phys → Phys) : (s.modPhys n p g).img = s.img := rfl
@[simp] theorem State.modPhys_waybill (s : State) (n p : Nat) (g : Phys → Phys) : (s.modPhys n p g).waybill = s.waybill := rfl
@[simp] theorem State.modPhys_mem (s : State) (n p : Nat) (g : Phys → Phys) : (s.modPhys n p g).mem = s.mem := rfl
@[simp] theorem State.modPhys_sleeper (s : State) (n p : Nat) (g : Phys → Phys) : (s.modPhys n p g).sleeper = s.sleeper := rfl
@[simp] theorem State.modPhys_tt (s : State) (n p : Nat) (g : Phys → Phys) : (s.modPhys n p g).tt = s.tt := rfl
@[simp] theorem State.modPhys_ddr (s : State) (n p : Nat) (g : Phys → Phys) : (s.modPhys n p g).ddr = s.ddr := rfl
@[simp] theorem State.modPhys_rail (s : State) (n p : Nat) (g : Phys → Phys) : (s.modPhys n p g).rail = s.rail := rfl
@[simp] theorem State.modPhys_rc (s : State) (n p : Nat) (g : Phys → Phys) : (s.modPhys n p g).rc = s.rc := rfl
@[simp] theorem State.modPhys_ho (s : State) (n p : Nat) (g : Phys → Phys) : (s.modPhys n p g).ho = s.ho := rfl
@[simp] theorem State.modPhys_cs (s : State) (n p : Nat) (g : Phys → Phys) : (s.modPhys n p g).cs = s.cs := rfl
@[simp] theorem State.modPhys_ft (s : State) (n p : Nat) (g : Phys → Phys) : (s.modPhys n p g).ft = s.ft := rfl
@[simp] theorem State.modPhys_tn (s : State) (n p : Nat) (g : Phys → Phys) : (s.modPhys n p g).tn = s.tn := rfl
@[simp] theorem State.modPhys_trust (s : State) (n p : Nat) (g : Phys → Phys) : (s.modPhys n p g).trust = s.trust := rfl
@[simp] theorem State.modPhys_free (s : State) (n p : Nat) (g : Phys → Phys) : (s.modPhys n p g).free = s.free := rfl
@[simp] theorem State.modPhys_out (s : State) (n p : Nat) (g : Phys → Phys) : (s.modPhys n p g).out = s.out := rfl
@[simp] theorem State.modPhys_pending (s : State) (n p : Nat) (g : Phys → Phys) : (s.modPhys n p g).pending = s.pending := rfl

/-! ## State.modChain changes `waybill` only -/

@[simp] theorem State.modChain_fuses (s : State) (p : Nat) (g : Chain → Chain) : (s.modChain p g).fuses = s.fuses := rfl
@[simp] theorem State.modChain_flash (s : State) (p : Nat) (g : Chain → Chain) : (s.modChain p g).flash = s.flash := rfl
@[simp] theorem State.modChain_clk (s : State) (p : Nat) (g : Chain → Chain) : (s.modChain p g).clk = s.clk := rfl
@[simp] theorem State.modChain_power (s : State) (p : Nat) (g : Chain → Chain) : (s.modChain p g).power = s.power := rfl
@[simp] theorem State.modChain_boot (s : State) (p : Nat) (g : Chain → Chain) : (s.modChain p g).boot = s.boot := rfl
@[simp] theorem State.modChain_host (s : State) (p : Nat) (g : Chain → Chain) : (s.modChain p g).host = s.host := rfl
@[simp] theorem State.modChain_work (s : State) (p : Nat) (g : Chain → Chain) : (s.modChain p g).work = s.work := rfl
@[simp] theorem State.modChain_nextWid (s : State) (p : Nat) (g : Chain → Chain) : (s.modChain p g).nextWid = s.nextWid := rfl
@[simp] theorem State.modChain_img (s : State) (p : Nat) (g : Chain → Chain) : (s.modChain p g).img = s.img := rfl
@[simp] theorem State.modChain_groves (s : State) (p : Nat) (g : Chain → Chain) : (s.modChain p g).groves = s.groves := rfl
@[simp] theorem State.modChain_mem (s : State) (p : Nat) (g : Chain → Chain) : (s.modChain p g).mem = s.mem := rfl
@[simp] theorem State.modChain_sleeper (s : State) (p : Nat) (g : Chain → Chain) : (s.modChain p g).sleeper = s.sleeper := rfl
@[simp] theorem State.modChain_tt (s : State) (p : Nat) (g : Chain → Chain) : (s.modChain p g).tt = s.tt := rfl
@[simp] theorem State.modChain_ddr (s : State) (p : Nat) (g : Chain → Chain) : (s.modChain p g).ddr = s.ddr := rfl
@[simp] theorem State.modChain_rail (s : State) (p : Nat) (g : Chain → Chain) : (s.modChain p g).rail = s.rail := rfl
@[simp] theorem State.modChain_rc (s : State) (p : Nat) (g : Chain → Chain) : (s.modChain p g).rc = s.rc := rfl
@[simp] theorem State.modChain_ho (s : State) (p : Nat) (g : Chain → Chain) : (s.modChain p g).ho = s.ho := rfl
@[simp] theorem State.modChain_cs (s : State) (p : Nat) (g : Chain → Chain) : (s.modChain p g).cs = s.cs := rfl
@[simp] theorem State.modChain_ft (s : State) (p : Nat) (g : Chain → Chain) : (s.modChain p g).ft = s.ft := rfl
@[simp] theorem State.modChain_tn (s : State) (p : Nat) (g : Chain → Chain) : (s.modChain p g).tn = s.tn := rfl
@[simp] theorem State.modChain_trust (s : State) (p : Nat) (g : Chain → Chain) : (s.modChain p g).trust = s.trust := rfl
@[simp] theorem State.modChain_free (s : State) (p : Nat) (g : Chain → Chain) : (s.modChain p g).free = s.free := rfl
@[simp] theorem State.modChain_out (s : State) (p : Nat) (g : Chain → Chain) : (s.modChain p g).out = s.out := rfl
@[simp] theorem State.modChain_pending (s : State) (p : Nat) (g : Chain → Chain) : (s.modChain p g).pending = s.pending := rfl

/-! ## State.modPeer changes `rail` only -/

@[simp] theorem State.modPeer_fuses (s : State) (n : Nat) (g : Peer → Peer) : (s.modPeer n g).fuses = s.fuses := rfl
@[simp] theorem State.modPeer_flash (s : State) (n : Nat) (g : Peer → Peer) : (s.modPeer n g).flash = s.flash := rfl
@[simp] theorem State.modPeer_clk (s : State) (n : Nat) (g : Peer → Peer) : (s.modPeer n g).clk = s.clk := rfl
@[simp] theorem State.modPeer_power (s : State) (n : Nat) (g : Peer → Peer) : (s.modPeer n g).power = s.power := rfl
@[simp] theorem State.modPeer_boot (s : State) (n : Nat) (g : Peer → Peer) : (s.modPeer n g).boot = s.boot := rfl
@[simp] theorem State.modPeer_host (s : State) (n : Nat) (g : Peer → Peer) : (s.modPeer n g).host = s.host := rfl
@[simp] theorem State.modPeer_work (s : State) (n : Nat) (g : Peer → Peer) : (s.modPeer n g).work = s.work := rfl
@[simp] theorem State.modPeer_nextWid (s : State) (n : Nat) (g : Peer → Peer) : (s.modPeer n g).nextWid = s.nextWid := rfl
@[simp] theorem State.modPeer_img (s : State) (n : Nat) (g : Peer → Peer) : (s.modPeer n g).img = s.img := rfl
@[simp] theorem State.modPeer_groves (s : State) (n : Nat) (g : Peer → Peer) : (s.modPeer n g).groves = s.groves := rfl
@[simp] theorem State.modPeer_waybill (s : State) (n : Nat) (g : Peer → Peer) : (s.modPeer n g).waybill = s.waybill := rfl
@[simp] theorem State.modPeer_mem (s : State) (n : Nat) (g : Peer → Peer) : (s.modPeer n g).mem = s.mem := rfl
@[simp] theorem State.modPeer_sleeper (s : State) (n : Nat) (g : Peer → Peer) : (s.modPeer n g).sleeper = s.sleeper := rfl
@[simp] theorem State.modPeer_tt (s : State) (n : Nat) (g : Peer → Peer) : (s.modPeer n g).tt = s.tt := rfl
@[simp] theorem State.modPeer_ddr (s : State) (n : Nat) (g : Peer → Peer) : (s.modPeer n g).ddr = s.ddr := rfl
@[simp] theorem State.modPeer_rc (s : State) (n : Nat) (g : Peer → Peer) : (s.modPeer n g).rc = s.rc := rfl
@[simp] theorem State.modPeer_ho (s : State) (n : Nat) (g : Peer → Peer) : (s.modPeer n g).ho = s.ho := rfl
@[simp] theorem State.modPeer_cs (s : State) (n : Nat) (g : Peer → Peer) : (s.modPeer n g).cs = s.cs := rfl
@[simp] theorem State.modPeer_ft (s : State) (n : Nat) (g : Peer → Peer) : (s.modPeer n g).ft = s.ft := rfl
@[simp] theorem State.modPeer_tn (s : State) (n : Nat) (g : Peer → Peer) : (s.modPeer n g).tn = s.tn := rfl
@[simp] theorem State.modPeer_trust (s : State) (n : Nat) (g : Peer → Peer) : (s.modPeer n g).trust = s.trust := rfl
@[simp] theorem State.modPeer_free (s : State) (n : Nat) (g : Peer → Peer) : (s.modPeer n g).free = s.free := rfl
@[simp] theorem State.modPeer_out (s : State) (n : Nat) (g : Peer → Peer) : (s.modPeer n g).out = s.out := rfl
@[simp] theorem State.modPeer_pending (s : State) (n : Nat) (g : Peer → Peer) : (s.modPeer n g).pending = s.pending := rfl

/-! ## State.modPool changes `mem` only -/

@[simp] theorem State.modPool_fuses (s : State) (r : Nat) (g : Pool → Pool) : (s.modPool r g).fuses = s.fuses := rfl
@[simp] theorem State.modPool_flash (s : State) (r : Nat) (g : Pool → Pool) : (s.modPool r g).flash = s.flash := rfl
@[simp] theorem State.modPool_clk (s : State) (r : Nat) (g : Pool → Pool) : (s.modPool r g).clk = s.clk := rfl
@[simp] theorem State.modPool_power (s : State) (r : Nat) (g : Pool → Pool) : (s.modPool r g).power = s.power := rfl
@[simp] theorem State.modPool_boot (s : State) (r : Nat) (g : Pool → Pool) : (s.modPool r g).boot = s.boot := rfl
@[simp] theorem State.modPool_host (s : State) (r : Nat) (g : Pool → Pool) : (s.modPool r g).host = s.host := rfl
@[simp] theorem State.modPool_work (s : State) (r : Nat) (g : Pool → Pool) : (s.modPool r g).work = s.work := rfl
@[simp] theorem State.modPool_nextWid (s : State) (r : Nat) (g : Pool → Pool) : (s.modPool r g).nextWid = s.nextWid := rfl
@[simp] theorem State.modPool_img (s : State) (r : Nat) (g : Pool → Pool) : (s.modPool r g).img = s.img := rfl
@[simp] theorem State.modPool_groves (s : State) (r : Nat) (g : Pool → Pool) : (s.modPool r g).groves = s.groves := rfl
@[simp] theorem State.modPool_waybill (s : State) (r : Nat) (g : Pool → Pool) : (s.modPool r g).waybill = s.waybill := rfl
@[simp] theorem State.modPool_sleeper (s : State) (r : Nat) (g : Pool → Pool) : (s.modPool r g).sleeper = s.sleeper := rfl
@[simp] theorem State.modPool_tt (s : State) (r : Nat) (g : Pool → Pool) : (s.modPool r g).tt = s.tt := rfl
@[simp] theorem State.modPool_ddr (s : State) (r : Nat) (g : Pool → Pool) : (s.modPool r g).ddr = s.ddr := rfl
@[simp] theorem State.modPool_rail (s : State) (r : Nat) (g : Pool → Pool) : (s.modPool r g).rail = s.rail := rfl
@[simp] theorem State.modPool_rc (s : State) (r : Nat) (g : Pool → Pool) : (s.modPool r g).rc = s.rc := rfl
@[simp] theorem State.modPool_ho (s : State) (r : Nat) (g : Pool → Pool) : (s.modPool r g).ho = s.ho := rfl
@[simp] theorem State.modPool_cs (s : State) (r : Nat) (g : Pool → Pool) : (s.modPool r g).cs = s.cs := rfl
@[simp] theorem State.modPool_ft (s : State) (r : Nat) (g : Pool → Pool) : (s.modPool r g).ft = s.ft := rfl
@[simp] theorem State.modPool_tn (s : State) (r : Nat) (g : Pool → Pool) : (s.modPool r g).tn = s.tn := rfl
@[simp] theorem State.modPool_trust (s : State) (r : Nat) (g : Pool → Pool) : (s.modPool r g).trust = s.trust := rfl
@[simp] theorem State.modPool_free (s : State) (r : Nat) (g : Pool → Pool) : (s.modPool r g).free = s.free := rfl
@[simp] theorem State.modPool_out (s : State) (r : Nat) (g : Pool → Pool) : (s.modPool r g).out = s.out := rfl
@[simp] theorem State.modPool_pending (s : State) (r : Nat) (g : Pool → Pool) : (s.modPool r g).pending = s.pending := rfl

/-! ## State.modSl changes `sleeper` only -/

@[simp] theorem State.modSl_fuses (s : State) (p : Nat) (g : SlCnt → SlCnt) : (s.modSl p g).fuses = s.fuses := rfl
@[simp] theorem State.modSl_flash (s : State) (p : Nat) (g : SlCnt → SlCnt) : (s.modSl p g).flash = s.flash := rfl
@[simp] theorem State.modSl_clk (s : State) (p : Nat) (g : SlCnt → SlCnt) : (s.modSl p g).clk = s.clk := rfl
@[simp] theorem State.modSl_power (s : State) (p : Nat) (g : SlCnt → SlCnt) : (s.modSl p g).power = s.power := rfl
@[simp] theorem State.modSl_boot (s : State) (p : Nat) (g : SlCnt → SlCnt) : (s.modSl p g).boot = s.boot := rfl
@[simp] theorem State.modSl_host (s : State) (p : Nat) (g : SlCnt → SlCnt) : (s.modSl p g).host = s.host := rfl
@[simp] theorem State.modSl_work (s : State) (p : Nat) (g : SlCnt → SlCnt) : (s.modSl p g).work = s.work := rfl
@[simp] theorem State.modSl_nextWid (s : State) (p : Nat) (g : SlCnt → SlCnt) : (s.modSl p g).nextWid = s.nextWid := rfl
@[simp] theorem State.modSl_img (s : State) (p : Nat) (g : SlCnt → SlCnt) : (s.modSl p g).img = s.img := rfl
@[simp] theorem State.modSl_groves (s : State) (p : Nat) (g : SlCnt → SlCnt) : (s.modSl p g).groves = s.groves := rfl
@[simp] theorem State.modSl_waybill (s : State) (p : Nat) (g : SlCnt → SlCnt) : (s.modSl p g).waybill = s.waybill := rfl
@[simp] theorem State.modSl_mem (s : State) (p : Nat) (g : SlCnt → SlCnt) : (s.modSl p g).mem = s.mem := rfl
@[simp] theorem State.modSl_tt (s : State) (p : Nat) (g : SlCnt → SlCnt) : (s.modSl p g).tt = s.tt := rfl
@[simp] theorem State.modSl_ddr (s : State) (p : Nat) (g : SlCnt → SlCnt) : (s.modSl p g).ddr = s.ddr := rfl
@[simp] theorem State.modSl_rail (s : State) (p : Nat) (g : SlCnt → SlCnt) : (s.modSl p g).rail = s.rail := rfl
@[simp] theorem State.modSl_rc (s : State) (p : Nat) (g : SlCnt → SlCnt) : (s.modSl p g).rc = s.rc := rfl
@[simp] theorem State.modSl_ho (s : State) (p : Nat) (g : SlCnt → SlCnt) : (s.modSl p g).ho = s.ho := rfl
@[simp] theorem State.modSl_cs (s : State) (p : Nat) (g : SlCnt → SlCnt) : (s.modSl p g).cs = s.cs := rfl
@[simp] theorem State.modSl_ft (s : State) (p : Nat) (g : SlCnt → SlCnt) : (s.modSl p g).ft = s.ft := rfl
@[simp] theorem State.modSl_tn (s : State) (p : Nat) (g : SlCnt → SlCnt) : (s.modSl p g).tn = s.tn := rfl
@[simp] theorem State.modSl_trust (s : State) (p : Nat) (g : SlCnt → SlCnt) : (s.modSl p g).trust = s.trust := rfl
@[simp] theorem State.modSl_free (s : State) (p : Nat) (g : SlCnt → SlCnt) : (s.modSl p g).free = s.free := rfl
@[simp] theorem State.modSl_out (s : State) (p : Nat) (g : SlCnt → SlCnt) : (s.modSl p g).out = s.out := rfl
@[simp] theorem State.modSl_pending (s : State) (p : Nat) (g : SlCnt → SlCnt) : (s.modSl p g).pending = s.pending := rfl

/-! ## State.slow changes `ft` only -/

@[simp] theorem State.slow_fuses (s : State) (c k n : Nat) : (s.slow c k n).fuses = s.fuses := rfl
@[simp] theorem State.slow_flash (s : State) (c k n : Nat) : (s.slow c k n).flash = s.flash := rfl
@[simp] theorem State.slow_clk (s : State) (c k n : Nat) : (s.slow c k n).clk = s.clk := rfl
@[simp] theorem State.slow_power (s : State) (c k n : Nat) : (s.slow c k n).power = s.power := rfl
@[simp] theorem State.slow_boot (s : State) (c k n : Nat) : (s.slow c k n).boot = s.boot := rfl
@[simp] theorem State.slow_host (s : State) (c k n : Nat) : (s.slow c k n).host = s.host := rfl
@[simp] theorem State.slow_work (s : State) (c k n : Nat) : (s.slow c k n).work = s.work := rfl
@[simp] theorem State.slow_nextWid (s : State) (c k n : Nat) : (s.slow c k n).nextWid = s.nextWid := rfl
@[simp] theorem State.slow_img (s : State) (c k n : Nat) : (s.slow c k n).img = s.img := rfl
@[simp] theorem State.slow_groves (s : State) (c k n : Nat) : (s.slow c k n).groves = s.groves := rfl
@[simp] theorem State.slow_waybill (s : State) (c k n : Nat) : (s.slow c k n).waybill = s.waybill := rfl
@[simp] theorem State.slow_mem (s : State) (c k n : Nat) : (s.slow c k n).mem = s.mem := rfl
@[simp] theorem State.slow_sleeper (s : State) (c k n : Nat) : (s.slow c k n).sleeper = s.sleeper := rfl
@[simp] theorem State.slow_tt (s : State) (c k n : Nat) : (s.slow c k n).tt = s.tt := rfl
@[simp] theorem State.slow_ddr (s : State) (c k n : Nat) : (s.slow c k n).ddr = s.ddr := rfl
@[simp] theorem State.slow_rail (s : State) (c k n : Nat) : (s.slow c k n).rail = s.rail := rfl
@[simp] theorem State.slow_rc (s : State) (c k n : Nat) : (s.slow c k n).rc = s.rc := rfl
@[simp] theorem State.slow_ho (s : State) (c k n : Nat) : (s.slow c k n).ho = s.ho := rfl
@[simp] theorem State.slow_cs (s : State) (c k n : Nat) : (s.slow c k n).cs = s.cs := rfl
@[simp] theorem State.slow_tn (s : State) (c k n : Nat) : (s.slow c k n).tn = s.tn := rfl
@[simp] theorem State.slow_trust (s : State) (c k n : Nat) : (s.slow c k n).trust = s.trust := rfl
@[simp] theorem State.slow_free (s : State) (c k n : Nat) : (s.slow c k n).free = s.free := rfl
@[simp] theorem State.slow_out (s : State) (c k n : Nat) : (s.slow c k n).out = s.out := rfl
@[simp] theorem State.slow_pending (s : State) (c k n : Nat) : (s.slow c k n).pending = s.pending := rfl

/-! ## State.use changes `ft` only -/

@[simp] theorem State.use_fuses (s : State) (t p j n : Nat) : (s.use t p j n).fuses = s.fuses := rfl
@[simp] theorem State.use_flash (s : State) (t p j n : Nat) : (s.use t p j n).flash = s.flash := rfl
@[simp] theorem State.use_clk (s : State) (t p j n : Nat) : (s.use t p j n).clk = s.clk := rfl
@[simp] theorem State.use_power (s : State) (t p j n : Nat) : (s.use t p j n).power = s.power := rfl
@[simp] theorem State.use_boot (s : State) (t p j n : Nat) : (s.use t p j n).boot = s.boot := rfl
@[simp] theorem State.use_host (s : State) (t p j n : Nat) : (s.use t p j n).host = s.host := rfl
@[simp] theorem State.use_work (s : State) (t p j n : Nat) : (s.use t p j n).work = s.work := rfl
@[simp] theorem State.use_nextWid (s : State) (t p j n : Nat) : (s.use t p j n).nextWid = s.nextWid := rfl
@[simp] theorem State.use_img (s : State) (t p j n : Nat) : (s.use t p j n).img = s.img := rfl
@[simp] theorem State.use_groves (s : State) (t p j n : Nat) : (s.use t p j n).groves = s.groves := rfl
@[simp] theorem State.use_waybill (s : State) (t p j n : Nat) : (s.use t p j n).waybill = s.waybill := rfl
@[simp] theorem State.use_mem (s : State) (t p j n : Nat) : (s.use t p j n).mem = s.mem := rfl
@[simp] theorem State.use_sleeper (s : State) (t p j n : Nat) : (s.use t p j n).sleeper = s.sleeper := rfl
@[simp] theorem State.use_tt (s : State) (t p j n : Nat) : (s.use t p j n).tt = s.tt := rfl
@[simp] theorem State.use_ddr (s : State) (t p j n : Nat) : (s.use t p j n).ddr = s.ddr := rfl
@[simp] theorem State.use_rail (s : State) (t p j n : Nat) : (s.use t p j n).rail = s.rail := rfl
@[simp] theorem State.use_rc (s : State) (t p j n : Nat) : (s.use t p j n).rc = s.rc := rfl
@[simp] theorem State.use_ho (s : State) (t p j n : Nat) : (s.use t p j n).ho = s.ho := rfl
@[simp] theorem State.use_cs (s : State) (t p j n : Nat) : (s.use t p j n).cs = s.cs := rfl
@[simp] theorem State.use_tn (s : State) (t p j n : Nat) : (s.use t p j n).tn = s.tn := rfl
@[simp] theorem State.use_trust (s : State) (t p j n : Nat) : (s.use t p j n).trust = s.trust := rfl
@[simp] theorem State.use_free (s : State) (t p j n : Nat) : (s.use t p j n).free = s.free := rfl
@[simp] theorem State.use_out (s : State) (t p j n : Nat) : (s.use t p j n).out = s.out := rfl
@[simp] theorem State.use_pending (s : State) (t p j n : Nat) : (s.use t p j n).pending = s.pending := rfl

/-! ## State.emit changes `out` only -/

@[simp] theorem State.emit_fuses (s : State) (o : Out) : (s.emit o).fuses = s.fuses := rfl
@[simp] theorem State.emit_flash (s : State) (o : Out) : (s.emit o).flash = s.flash := rfl
@[simp] theorem State.emit_clk (s : State) (o : Out) : (s.emit o).clk = s.clk := rfl
@[simp] theorem State.emit_power (s : State) (o : Out) : (s.emit o).power = s.power := rfl
@[simp] theorem State.emit_boot (s : State) (o : Out) : (s.emit o).boot = s.boot := rfl
@[simp] theorem State.emit_host (s : State) (o : Out) : (s.emit o).host = s.host := rfl
@[simp] theorem State.emit_work (s : State) (o : Out) : (s.emit o).work = s.work := rfl
@[simp] theorem State.emit_nextWid (s : State) (o : Out) : (s.emit o).nextWid = s.nextWid := rfl
@[simp] theorem State.emit_img (s : State) (o : Out) : (s.emit o).img = s.img := rfl
@[simp] theorem State.emit_groves (s : State) (o : Out) : (s.emit o).groves = s.groves := rfl
@[simp] theorem State.emit_waybill (s : State) (o : Out) : (s.emit o).waybill = s.waybill := rfl
@[simp] theorem State.emit_mem (s : State) (o : Out) : (s.emit o).mem = s.mem := rfl
@[simp] theorem State.emit_sleeper (s : State) (o : Out) : (s.emit o).sleeper = s.sleeper := rfl
@[simp] theorem State.emit_tt (s : State) (o : Out) : (s.emit o).tt = s.tt := rfl
@[simp] theorem State.emit_ddr (s : State) (o : Out) : (s.emit o).ddr = s.ddr := rfl
@[simp] theorem State.emit_rail (s : State) (o : Out) : (s.emit o).rail = s.rail := rfl
@[simp] theorem State.emit_rc (s : State) (o : Out) : (s.emit o).rc = s.rc := rfl
@[simp] theorem State.emit_ho (s : State) (o : Out) : (s.emit o).ho = s.ho := rfl
@[simp] theorem State.emit_cs (s : State) (o : Out) : (s.emit o).cs = s.cs := rfl
@[simp] theorem State.emit_ft (s : State) (o : Out) : (s.emit o).ft = s.ft := rfl
@[simp] theorem State.emit_tn (s : State) (o : Out) : (s.emit o).tn = s.tn := rfl
@[simp] theorem State.emit_trust (s : State) (o : Out) : (s.emit o).trust = s.trust := rfl
@[simp] theorem State.emit_free (s : State) (o : Out) : (s.emit o).free = s.free := rfl
@[simp] theorem State.emit_pending (s : State) (o : Out) : (s.emit o).pending = s.pending := rfl

/-! ## State.fresh changes `free` only -/

@[simp] theorem State.fresh_fuses (s : State)  : (s.fresh).fuses = s.fuses := rfl
@[simp] theorem State.fresh_flash (s : State)  : (s.fresh).flash = s.flash := rfl
@[simp] theorem State.fresh_clk (s : State)  : (s.fresh).clk = s.clk := rfl
@[simp] theorem State.fresh_power (s : State)  : (s.fresh).power = s.power := rfl
@[simp] theorem State.fresh_boot (s : State)  : (s.fresh).boot = s.boot := rfl
@[simp] theorem State.fresh_host (s : State)  : (s.fresh).host = s.host := rfl
@[simp] theorem State.fresh_work (s : State)  : (s.fresh).work = s.work := rfl
@[simp] theorem State.fresh_nextWid (s : State)  : (s.fresh).nextWid = s.nextWid := rfl
@[simp] theorem State.fresh_img (s : State)  : (s.fresh).img = s.img := rfl
@[simp] theorem State.fresh_groves (s : State)  : (s.fresh).groves = s.groves := rfl
@[simp] theorem State.fresh_waybill (s : State)  : (s.fresh).waybill = s.waybill := rfl
@[simp] theorem State.fresh_mem (s : State)  : (s.fresh).mem = s.mem := rfl
@[simp] theorem State.fresh_sleeper (s : State)  : (s.fresh).sleeper = s.sleeper := rfl
@[simp] theorem State.fresh_tt (s : State)  : (s.fresh).tt = s.tt := rfl
@[simp] theorem State.fresh_ddr (s : State)  : (s.fresh).ddr = s.ddr := rfl
@[simp] theorem State.fresh_rail (s : State)  : (s.fresh).rail = s.rail := rfl
@[simp] theorem State.fresh_rc (s : State)  : (s.fresh).rc = s.rc := rfl
@[simp] theorem State.fresh_ho (s : State)  : (s.fresh).ho = s.ho := rfl
@[simp] theorem State.fresh_cs (s : State)  : (s.fresh).cs = s.cs := rfl
@[simp] theorem State.fresh_ft (s : State)  : (s.fresh).ft = s.ft := rfl
@[simp] theorem State.fresh_tn (s : State)  : (s.fresh).tn = s.tn := rfl
@[simp] theorem State.fresh_trust (s : State)  : (s.fresh).trust = s.trust := rfl
@[simp] theorem State.fresh_out (s : State)  : (s.fresh).out = s.out := rfl
@[simp] theorem State.fresh_pending (s : State)  : (s.fresh).pending = s.pending := rfl

/-! ## State.setProg changes `work` only -/

@[simp] theorem State.setProg_fuses (s : State) (wid : Nat) (p : Prog) : (s.setProg wid p).fuses = s.fuses := rfl
@[simp] theorem State.setProg_flash (s : State) (wid : Nat) (p : Prog) : (s.setProg wid p).flash = s.flash := rfl
@[simp] theorem State.setProg_clk (s : State) (wid : Nat) (p : Prog) : (s.setProg wid p).clk = s.clk := rfl
@[simp] theorem State.setProg_power (s : State) (wid : Nat) (p : Prog) : (s.setProg wid p).power = s.power := rfl
@[simp] theorem State.setProg_boot (s : State) (wid : Nat) (p : Prog) : (s.setProg wid p).boot = s.boot := rfl
@[simp] theorem State.setProg_host (s : State) (wid : Nat) (p : Prog) : (s.setProg wid p).host = s.host := rfl
@[simp] theorem State.setProg_nextWid (s : State) (wid : Nat) (p : Prog) : (s.setProg wid p).nextWid = s.nextWid := rfl
@[simp] theorem State.setProg_img (s : State) (wid : Nat) (p : Prog) : (s.setProg wid p).img = s.img := rfl
@[simp] theorem State.setProg_groves (s : State) (wid : Nat) (p : Prog) : (s.setProg wid p).groves = s.groves := rfl
@[simp] theorem State.setProg_waybill (s : State) (wid : Nat) (p : Prog) : (s.setProg wid p).waybill = s.waybill := rfl
@[simp] theorem State.setProg_mem (s : State) (wid : Nat) (p : Prog) : (s.setProg wid p).mem = s.mem := rfl
@[simp] theorem State.setProg_sleeper (s : State) (wid : Nat) (p : Prog) : (s.setProg wid p).sleeper = s.sleeper := rfl
@[simp] theorem State.setProg_tt (s : State) (wid : Nat) (p : Prog) : (s.setProg wid p).tt = s.tt := rfl
@[simp] theorem State.setProg_ddr (s : State) (wid : Nat) (p : Prog) : (s.setProg wid p).ddr = s.ddr := rfl
@[simp] theorem State.setProg_rail (s : State) (wid : Nat) (p : Prog) : (s.setProg wid p).rail = s.rail := rfl
@[simp] theorem State.setProg_rc (s : State) (wid : Nat) (p : Prog) : (s.setProg wid p).rc = s.rc := rfl
@[simp] theorem State.setProg_ho (s : State) (wid : Nat) (p : Prog) : (s.setProg wid p).ho = s.ho := rfl
@[simp] theorem State.setProg_cs (s : State) (wid : Nat) (p : Prog) : (s.setProg wid p).cs = s.cs := rfl
@[simp] theorem State.setProg_ft (s : State) (wid : Nat) (p : Prog) : (s.setProg wid p).ft = s.ft := rfl
@[simp] theorem State.setProg_tn (s : State) (wid : Nat) (p : Prog) : (s.setProg wid p).tn = s.tn := rfl
@[simp] theorem State.setProg_trust (s : State) (wid : Nat) (p : Prog) : (s.setProg wid p).trust = s.trust := rfl
@[simp] theorem State.setProg_free (s : State) (wid : Nat) (p : Prog) : (s.setProg wid p).free = s.free := rfl
@[simp] theorem State.setProg_out (s : State) (wid : Nat) (p : Prog) : (s.setProg wid p).out = s.out := rfl
@[simp] theorem State.setProg_pending (s : State) (wid : Nat) (p : Prog) : (s.setProg wid p).pending = s.pending := rfl

/-! ## State.kept: the fuses and the queue are those of the state before, the rest that of the state after -/

@[simp] theorem State.kept_fuses (s t : State) : (s.kept t).fuses = s.fuses := rfl
@[simp] theorem State.kept_pending (s t : State) : (s.kept t).pending = s.pending := rfl
@[simp] theorem State.kept_flash (s t : State) : (s.kept t).flash = t.flash := rfl
@[simp] theorem State.kept_clk (s t : State) : (s.kept t).clk = t.clk := rfl
@[simp] theorem State.kept_power (s t : State) : (s.kept t).power = t.power := rfl
@[simp] theorem State.kept_boot (s t : State) : (s.kept t).boot = t.boot := rfl
@[simp] theorem State.kept_host (s t : State) : (s.kept t).host = t.host := rfl
@[simp] theorem State.kept_work (s t : State) : (s.kept t).work = t.work := rfl
@[simp] theorem State.kept_nextWid (s t : State) : (s.kept t).nextWid = t.nextWid := rfl
@[simp] theorem State.kept_img (s t : State) : (s.kept t).img = t.img := rfl
@[simp] theorem State.kept_groves (s t : State) : (s.kept t).groves = t.groves := rfl
@[simp] theorem State.kept_waybill (s t : State) : (s.kept t).waybill = t.waybill := rfl
@[simp] theorem State.kept_mem (s t : State) : (s.kept t).mem = t.mem := rfl
@[simp] theorem State.kept_sleeper (s t : State) : (s.kept t).sleeper = t.sleeper := rfl
@[simp] theorem State.kept_tt (s t : State) : (s.kept t).tt = t.tt := rfl
@[simp] theorem State.kept_ddr (s t : State) : (s.kept t).ddr = t.ddr := rfl
@[simp] theorem State.kept_rail (s t : State) : (s.kept t).rail = t.rail := rfl
@[simp] theorem State.kept_rc (s t : State) : (s.kept t).rc = t.rc := rfl
@[simp] theorem State.kept_ho (s t : State) : (s.kept t).ho = t.ho := rfl
@[simp] theorem State.kept_cs (s t : State) : (s.kept t).cs = t.cs := rfl
@[simp] theorem State.kept_ft (s t : State) : (s.kept t).ft = t.ft := rfl
@[simp] theorem State.kept_tn (s t : State) : (s.kept t).tn = t.tn := rfl
@[simp] theorem State.kept_trust (s t : State) : (s.kept t).trust = t.trust := rfl
@[simp] theorem State.kept_free (s t : State) : (s.kept t).free = t.free := rfl
@[simp] theorem State.kept_out (s t : State) : (s.kept t).out = t.out := rfl

/-! ## What an update puts in its field -/

@[simp] theorem State.emit_out (s : State) (o : Out) : (s.emit o).out = s.out ++ [o] := rfl
@[simp] theorem State.fresh_free (s : State) : s.fresh.free = s.free + 1 := rfl

end Sys2Proof.Machine
end

