-- ==== Sys2Proof/Laws/Tab.lean ====
section
/-! SUPPORT. Sparse tables: a read after a write, and the canonical form that every table operation keeps. -/

namespace Sys2Proof.Machine

variable {α : Type}

theorem tget_terase_same (t : Tab α) (k : Nat) (d : α) : tget (terase t k) k d = d := by
  induction t with
  | nil => rfl
  | cons h r ih =>
    obtain ⟨k', v⟩ := h
    by_cases hk : k' = k <;> simp [terase, tget, hk, ih]

theorem tget_terase_other (t : Tab α) (k j : Nat) (d : α) (hj : j ≠ k) : tget (terase t k) j d = tget t j d := by
  induction t with
  | nil => rfl
  | cons h r ih =>
    obtain ⟨k', v⟩ := h
    by_cases hk : k' = k
    · subst hk
      simp [terase, tget, ih, Ne.symm hj]
    · simp [terase, tget, hk, ih]

theorem tget_tinsert_same (t : Tab α) (k : Nat) (v d : α) (h : ∀ x ∈ t, x.1 ≠ k) : tget (tinsert t k v) k d = v := by
  induction t with
  | nil => simp [tinsert, tget]
  | cons x r ih =>
    obtain ⟨k', v'⟩ := x
    have hk : k' ≠ k := h (k', v') (by simp)
    by_cases hlt : k < k'
    · simp [tinsert, tget, hlt]
    · simp [tinsert, tget, hlt, hk, ih (fun y hy => h y (by simp [hy]))]

theorem tget_tinsert_other (t : Tab α) (k j : Nat) (v d : α) (hj : j ≠ k) : tget (tinsert t k v) j d = tget t j d := by
  induction t with
  | nil => simp [tinsert, tget, Ne.symm hj]
  | cons x r ih =>
    obtain ⟨k', v'⟩ := x
    by_cases hlt : k < k'
    · simp [tinsert, tget, hlt, Ne.symm hj]
    · simp [tinsert, tget, hlt, ih]

theorem not_mem_terase (t : Tab α) (k : Nat) : ∀ x ∈ terase t k, x.1 ≠ k := by
  induction t with
  | nil => simp [terase]
  | cons h r ih =>
    obtain ⟨k', v⟩ := h
    by_cases hk : k' = k
    · simpa [terase, hk] using ih
    · simp only [terase, hk, if_false, List.mem_cons]
      rintro x (rfl | hx)
      · exact hk
      · exact ih x hx

theorem mem_terase {t : Tab α} {k : Nat} {x : Nat × α} (h : x ∈ terase t k) : x ∈ t := by
  induction t with
  | nil => simp [terase] at h
  | cons y r ih =>
    obtain ⟨k', v⟩ := y
    by_cases hk : k' = k
    · simp only [terase, hk, if_true] at h
      exact List.mem_cons_of_mem _ (ih h)
    · simp only [terase, hk, if_false, List.mem_cons] at h
      rcases h with rfl | h
      · simp
      · exact List.mem_cons_of_mem _ (ih h)

variable [DecidableEq α]

/-- A read after a write to the same key. -/
@[simp] theorem tget_tput_same (t : Tab α) (k : Nat) (v d : α) : tget (tput t k v d) k d = v := by
  by_cases h : v = d
  · simp [tput, h, tget_terase_same]
  · simp [tput, h, tget_tinsert_same _ _ _ _ (not_mem_terase t k)]

/-- A write leaves every other key alone. -/
theorem tget_tput_other (t : Tab α) (k j : Nat) (v d : α) (hj : j ≠ k) : tget (tput t k v d) j d = tget t j d := by
  by_cases h : v = d
  · simp [tput, h, tget_terase_other t k j d hj]
  · simp [tput, h, tget_tinsert_other _ _ _ _ _ hj, tget_terase_other t k j d hj]

@[simp] theorem tget_tmod_same (t : Tab α) (k : Nat) (d : α) (f : α → α) : tget (tmod t k d f) k d = f (tget t k d) :=
  tget_tput_same ..

theorem tget_tmod_other (t : Tab α) (k j : Nat) (d : α) (f : α → α) (hj : j ≠ k) : tget (tmod t k d f) j d = tget t j d :=
  tget_tput_other _ _ _ _ _ hj

/-! ## The canonical form -/

theorem twf_cons (d : α) (k : Nat) (v : α) (t : Tab α) :
    twf d ((k, v) :: t) = true ↔ v ≠ d ∧ (∀ x ∈ t, k < x.1) ∧ twf d t = true := by
  induction t generalizing k v with
  | nil => simp [twf]
  | cons x r ih =>
    obtain ⟨k', v'⟩ := x
    simp only [twf, Bool.and_eq_true, decide_eq_true_eq, List.mem_cons, forall_eq_or_imp]
    constructor
    · rintro ⟨⟨h1, h2⟩, h3⟩
      exact ⟨h1, ⟨h2, fun y hy => lt_trans h2 (((ih k' v').1 h3).2.1 y hy)⟩, h3⟩
    · rintro ⟨h1, ⟨h2, _⟩, h3⟩
      exact ⟨⟨h1, h2⟩, h3⟩

theorem twf_terase (d : α) (t : Tab α) (k : Nat) (h : twf d t = true) : twf d (terase t k) = true := by
  induction t with
  | nil => rfl
  | cons x r ih =>
    obtain ⟨k', v⟩ := x
    obtain ⟨h1, h2, h3⟩ := (twf_cons d k' v r).1 h
    by_cases hk : k' = k
    · simpa [terase, hk] using ih h3
    · simp only [terase, hk, if_false]
      exact (twf_cons ..).2 ⟨h1, fun y hy => h2 y (mem_terase hy), ih h3⟩

omit [DecidableEq α] in
theorem mem_tinsert {t : Tab α} {k : Nat} {v : α} {x : Nat × α} (h : x ∈ tinsert t k v) : x = (k, v) ∨ x ∈ t := by
  induction t with
  | nil => simpa [tinsert] using h
  | cons y r ih =>
    obtain ⟨k', v'⟩ := y
    by_cases hlt : k < k'
    · simpa [tinsert, hlt] using h
    · simp only [tinsert, hlt, if_false, List.mem_cons] at h
      rcases h with rfl | h
      · simp
      · rcases ih h with h | h <;> simp [h]

theorem twf_tinsert (d : α) (t : Tab α) (k : Nat) (v : α) (hv : v ≠ d) (hk : ∀ x ∈ t, x.1 ≠ k) (h : twf d t = true) :
    twf d (tinsert t k v) = true := by
  induction t with
  | nil => simpa [tinsert, twf] using hv
  | cons x r ih =>
    obtain ⟨k', v'⟩ := x
    obtain ⟨h1, h2, h3⟩ := (twf_cons d k' v' r).1 h
    by_cases hlt : k < k'
    · simp only [tinsert, hlt, if_true]
      refine (twf_cons ..).2 ⟨hv, ?_, h⟩
      rintro y hy
      rcases List.mem_cons.1 hy with rfl | hy
      · exact hlt
      · exact lt_trans hlt (h2 y hy)
    · simp only [tinsert, hlt, if_false]
      refine (twf_cons ..).2 ⟨h1, ?_, ih (fun y hy => hk y (by simp [hy])) h3⟩
      intro y hy
      rcases mem_tinsert hy with rfl | hy
      · have := hk (k', v') (by simp)
        simp only at this
        simp only
        omega
      · exact h2 y hy

/-- A write keeps the canonical form. -/
theorem twf_tput (d : α) (t : Tab α) (k : Nat) (v : α) (h : twf d t = true) : twf d (tput t k v d) = true := by
  by_cases hv : v = d
  · simpa [tput, hv] using twf_terase d t k h
  · simpa [tput, hv] using twf_tinsert d _ k v hv (not_mem_terase t k) (twf_terase d t k h)

theorem twf_tmod (d : α) (t : Tab α) (k : Nat) (f : α → α) (h : twf d t = true) : twf d (tmod t k d f) = true :=
  twf_tput d t k _ h

theorem twf_filter (d : α) (t : Tab α) (p : Nat × α → Bool) (h : twf d t = true) : twf d (t.filter p) = true := by
  induction t with
  | nil => rfl
  | cons x r ih =>
    obtain ⟨k, v⟩ := x
    obtain ⟨h1, h2, h3⟩ := (twf_cons d k v r).1 h
    by_cases hp : p (k, v) = true
    · simp only [List.filter_cons, hp, if_true]
      exact (twf_cons ..).2 ⟨h1, fun y hy => h2 y (List.mem_filter.1 hy).1, ih h3⟩
    · simpa [List.filter_cons, hp] using ih h3

end Sys2Proof.Machine
end

