-- ==== Sys2Proof/Laws/Memory.lean ====
section
/-! SUPPORT. HBM: a read after a write, that a write leaves every other byte alone, and that every memory operation keeps the
canonical form. -/

namespace Sys2Proof.Machine

theorem memGet_memPut_same (m : List Host.Cell) (a : Nat) (b : Byte) : memGet (memPut m a b) a = b := tget_tput_same ..

theorem memGet_memPut_other (m : List Host.Cell) (a c : Nat) (b : Byte) (h : c ≠ a) : memGet (memPut m a b) c = memGet m c :=
  tget_tput_other _ _ _ _ _ h

/-- Bytes stored from `a` leave every address outside them alone. -/
theorem memGet_memWrite_other (m : List Host.Cell) (a : Nat) (bs : List Byte) (c : Nat) (h : ¬ (a ≤ c ∧ c < a + bs.length)) :
    memGet (memWrite m a bs) c = memGet m c := by
  induction bs generalizing m a with
  | nil => rfl
  | cons b r ih =>
    simp only [List.length_cons] at h
    rw [memWrite, ih _ _ (by omega), memGet_memPut_other _ _ _ _ (by omega)]

/-- A cleared address reads as 0, any other as before. -/
theorem memGet_memClear (m : List Host.Cell) (p : Nat → Bool) (a : Nat) :
    memGet (memClear m p) a = if p a then 0 else memGet m a := by
  unfold memGet memClear
  induction m with
  | nil => simp [tget]
  | cons x r ih =>
    obtain ⟨k, v⟩ := x
    by_cases hp : p k = true
    · by_cases hk : k = a
      · subst hk
        simpa [List.filter_cons, hp] using ih
      · simpa [List.filter_cons, hp, tget, hk] using ih
    · by_cases hk : k = a
      · subst hk
        simp [hp, tget]
      · simpa [List.filter_cons, hp, tget, hk] using ih

/-! ## The canonical form -/

theorem memPut_wf (m : List Host.Cell) (a : Nat) (b : Byte) (h : Memory.wf m = true) : Memory.wf (memPut m a b) = true :=
  twf_tput _ _ _ _ h

theorem memWrite_wf (m : List Host.Cell) (a : Nat) (bs : List Byte) (h : Memory.wf m = true) : Memory.wf (memWrite m a bs) = true := by
  induction bs generalizing m a with
  | nil => exact h
  | cons b r ih => exact ih _ _ (memPut_wf _ _ _ h)

theorem memClear_wf (m : List Host.Cell) (p : Nat → Bool) (h : Memory.wf m = true) : Memory.wf (memClear m p) = true :=
  twf_filter _ _ _ h

theorem regionPut_wf (r : Region) (o : Nat) (bs : List Byte) (m : List Host.Cell) (h : Memory.wf m = true) :
    Memory.wf (regionPut r o bs m) = true := by
  induction bs generalizing m o with
  | nil => exact h
  | cons b rest ih => exact ih _ _ (memPut_wf _ _ _ h)

theorem regionWrite_wf (r : Region) (o : Nat) (bs : List Byte) (s : State) (h : Memory.wf s.mem.hbm = true) :
    Memory.wf (regionWrite r o bs s).mem.hbm = true := regionPut_wf _ _ _ _ h

theorem regionPoison_hbm (r : Region) (o n : Nat) (s : State) : (regionPoison r o n s).mem.hbm = s.mem.hbm := rfl

theorem clearHbm_wf (p : Nat → Bool) (m : Mem) (h : Memory.wf m.hbm = true) : Memory.wf (clearHbm p m).hbm = true :=
  memClear_wf _ _ h

/-- Reset memory lists nothing. -/
theorem reset_hbm_wf : Memory.wf State.reset.mem.hbm = true := rfl

/-- A store to a region leaves every byte outside the addresses stored to alone. -/
theorem memGet_regionPut_other (r : Region) (o : Nat) (bs : List Byte) (m : List Host.Cell) (c : Nat)
    (h : ∀ i < bs.length, c ≠ regionAddr r (o + i)) : memGet (regionPut r o bs m) c = memGet m c := by
  induction bs generalizing m o with
  | nil => rfl
  | cons b rest ih =>
    rw [regionPut, ih, memGet_memPut_other _ _ _ _ (by simpa using h 0 (by simp))]
    intro i hi
    have := h (i + 1) (by simpa using hi)
    rwa [show o + 1 + i = o + (i + 1) by omega]

end Sys2Proof.Machine
end

