-- ==== Sys2Proof/Laws/Ops.lean ====
section
/-! SUPPORT. What each shared operation can change: one lemma for every part of the state it leaves alone, and the lemmas that say
what completing a descriptor does to the list of work. -/

namespace Sys2Proof.Machine

/-! ## msixSignal changes at most: host, out -/

@[simp] theorem msixSignal_fuses (f v : Nat) (s : State) : (msixSignal f v s).fuses = s.fuses := by unfold msixSignal; (try dsimp only); (repeat' split) <;> simp
@[simp] theorem msixSignal_flash (f v : Nat) (s : State) : (msixSignal f v s).flash = s.flash := by unfold msixSignal; (try dsimp only); (repeat' split) <;> simp
@[simp] theorem msixSignal_clk (f v : Nat) (s : State) : (msixSignal f v s).clk = s.clk := by unfold msixSignal; (try dsimp only); (repeat' split) <;> simp
@[simp] theorem msixSignal_power (f v : Nat) (s : State) : (msixSignal f v s).power = s.power := by unfold msixSignal; (try dsimp only); (repeat' split) <;> simp
@[simp] theorem msixSignal_boot (f v : Nat) (s : State) : (msixSignal f v s).boot = s.boot := by unfold msixSignal; (try dsimp only); (repeat' split) <;> simp
@[simp] theorem msixSignal_work (f v : Nat) (s : State) : (msixSignal f v s).work = s.work := by unfold msixSignal; (try dsimp only); (repeat' split) <;> simp
@[simp] theorem msixSignal_nextWid (f v : Nat) (s : State) : (msixSignal f v s).nextWid = s.nextWid := by unfold msixSignal; (try dsimp only); (repeat' split) <;> simp
@[simp] theorem msixSignal_img (f v : Nat) (s : State) : (msixSignal f v s).img = s.img := by unfold msixSignal; (try dsimp only); (repeat' split) <;> simp
@[simp] theorem msixSignal_groves (f v : Nat) (s : State) : (msixSignal f v s).groves = s.groves := by unfold msixSignal; (try dsimp only); (repeat' split) <;> simp
@[simp] theorem msixSignal_waybill (f v : Nat) (s : State) : (msixSignal f v s).waybill = s.waybill := by unfold msixSignal; (try dsimp only); (repeat' split) <;> simp
@[simp] theorem msixSignal_mem (f v : Nat) (s : State) : (msixSignal f v s).mem = s.mem := by unfold msixSignal; (try dsimp only); (repeat' split) <;> simp
@[simp] theorem msixSignal_sleeper (f v : Nat) (s : State) : (msixSignal f v s).sleeper = s.sleeper := by unfold msixSignal; (try dsimp only); (repeat' split) <;> simp
@[simp] theorem msixSignal_tt (f v : Nat) (s : State) : (msixSignal f v s).tt = s.tt := by unfold msixSignal; (try dsimp only); (repeat' split) <;> simp
@[simp] theorem msixSignal_ddr (f v : Nat) (s : State) : (msixSignal f v s).ddr = s.ddr := by unfold msixSignal; (try dsimp only); (repeat' split) <;> simp
@[simp] theorem msixSignal_rail (f v : Nat) (s : State) : (msixSignal f v s).rail = s.rail := by unfold msixSignal; (try dsimp only); (repeat' split) <;> simp
@[simp] theorem msixSignal_rc (f v : Nat) (s : State) : (msixSignal f v s).rc = s.rc := by unfold msixSignal; (try dsimp only); (repeat' split) <;> simp
@[simp] theorem msixSignal_ho (f v : Nat) (s : State) : (msixSignal f v s).ho = s.ho := by unfold msixSignal; (try dsimp only); (repeat' split) <;> simp
@[simp] theorem msixSignal_cs (f v : Nat) (s : State) : (msixSignal f v s).cs = s.cs := by unfold msixSignal; (try dsimp only); (repeat' split) <;> simp
@[simp] theorem msixSignal_ft (f v : Nat) (s : State) : (msixSignal f v s).ft = s.ft := by unfold msixSignal; (try dsimp only); (repeat' split) <;> simp
@[simp] theorem msixSignal_tn (f v : Nat) (s : State) : (msixSignal f v s).tn = s.tn := by unfold msixSignal; (try dsimp only); (repeat' split) <;> simp
@[simp] theorem msixSignal_trust (f v : Nat) (s : State) : (msixSignal f v s).trust = s.trust := by unfold msixSignal; (try dsimp only); (repeat' split) <;> simp
@[simp] theorem msixSignal_free (f v : Nat) (s : State) : (msixSignal f v s).free = s.free := by unfold msixSignal; (try dsimp only); (repeat' split) <;> simp
@[simp] theorem msixSignal_pending (f v : Nat) (s : State) : (msixSignal f v s).pending = s.pending := by unfold msixSignal; (try dsimp only); (repeat' split) <;> simp

/-! ## loseRec changes at most: host -/

@[simp] theorem loseRec_fuses (f : Nat) (s : State) : (loseRec f s).fuses = s.fuses := rfl
@[simp] theorem loseRec_flash (f : Nat) (s : State) : (loseRec f s).flash = s.flash := rfl
@[simp] theorem loseRec_clk (f : Nat) (s : State) : (loseRec f s).clk = s.clk := rfl
@[simp] theorem loseRec_power (f : Nat) (s : State) : (loseRec f s).power = s.power := rfl
@[simp] theorem loseRec_boot (f : Nat) (s : State) : (loseRec f s).boot = s.boot := rfl
@[simp] theorem loseRec_work (f : Nat) (s : State) : (loseRec f s).work = s.work := rfl
@[simp] theorem loseRec_nextWid (f : Nat) (s : State) : (loseRec f s).nextWid = s.nextWid := rfl
@[simp] theorem loseRec_img (f : Nat) (s : State) : (loseRec f s).img = s.img := rfl
@[simp] theorem loseRec_groves (f : Nat) (s : State) : (loseRec f s).groves = s.groves := rfl
@[simp] theorem loseRec_waybill (f : Nat) (s : State) : (loseRec f s).waybill = s.waybill := rfl
@[simp] theorem loseRec_mem (f : Nat) (s : State) : (loseRec f s).mem = s.mem := rfl
@[simp] theorem loseRec_sleeper (f : Nat) (s : State) : (loseRec f s).sleeper = s.sleeper := rfl
@[simp] theorem loseRec_tt (f : Nat) (s : State) : (loseRec f s).tt = s.tt := rfl
@[simp] theorem loseRec_ddr (f : Nat) (s : State) : (loseRec f s).ddr = s.ddr := rfl
@[simp] theorem loseRec_rail (f : Nat) (s : State) : (loseRec f s).rail = s.rail := rfl
@[simp] theorem loseRec_rc (f : Nat) (s : State) : (loseRec f s).rc = s.rc := rfl
@[simp] theorem loseRec_ho (f : Nat) (s : State) : (loseRec f s).ho = s.ho := rfl
@[simp] theorem loseRec_cs (f : Nat) (s : State) : (loseRec f s).cs = s.cs := rfl
@[simp] theorem loseRec_ft (f : Nat) (s : State) : (loseRec f s).ft = s.ft := rfl
@[simp] theorem loseRec_tn (f : Nat) (s : State) : (loseRec f s).tn = s.tn := rfl
@[simp] theorem loseRec_trust (f : Nat) (s : State) : (loseRec f s).trust = s.trust := rfl
@[simp] theorem loseRec_free (f : Nat) (s : State) : (loseRec f s).free = s.free := rfl
@[simp] theorem loseRec_out (f : Nat) (s : State) : (loseRec f s).out = s.out := rfl
@[simp] theorem loseRec_pending (f : Nat) (s : State) : (loseRec f s).pending = s.pending := rfl

/-! ## readHead changes at most: out -/

@[simp] theorem readHead_fuses (n : Nat) (s : State) : (readHead n s).fuses = s.fuses := by unfold readHead; (try dsimp only); (repeat' split) <;> simp
@[simp] theorem readHead_flash (n : Nat) (s : State) : (readHead n s).flash = s.flash := by unfold readHead; (try dsimp only); (repeat' split) <;> simp
@[simp] theorem readHead_clk (n : Nat) (s : State) : (readHead n s).clk = s.clk := by unfold readHead; (try dsimp only); (repeat' split) <;> simp
@[simp] theorem readHead_power (n : Nat) (s : State) : (readHead n s).power = s.power := by unfold readHead; (try dsimp only); (repeat' split) <;> simp
@[simp] theorem readHead_boot (n : Nat) (s : State) : (readHead n s).boot = s.boot := by unfold readHead; (try dsimp only); (repeat' split) <;> simp
@[simp] theorem readHead_host (n : Nat) (s : State) : (readHead n s).host = s.host := by unfold readHead; (try dsimp only); (repeat' split) <;> simp
@[simp] theorem readHead_work (n : Nat) (s : State) : (readHead n s).work = s.work := by unfold readHead; (try dsimp only); (repeat' split) <;> simp
@[simp] theorem readHead_nextWid (n : Nat) (s : State) : (readHead n s).nextWid = s.nextWid := by unfold readHead; (try dsimp only); (repeat' split) <;> simp
@[simp] theorem readHead_img (n : Nat) (s : State) : (readHead n s).img = s.img := by unfold readHead; (try dsimp only); (repeat' split) <;> simp
@[simp] theorem readHead_groves (n : Nat) (s : State) : (readHead n s).groves = s.groves := by unfold readHead; (try dsimp only); (repeat' split) <;> simp
@[simp] theorem readHead_waybill (n : Nat) (s : State) : (readHead n s).waybill = s.waybill := by unfold readHead; (try dsimp only); (repeat' split) <;> simp
@[simp] theorem readHead_mem (n : Nat) (s : State) : (readHead n s).mem = s.mem := by unfold readHead; (try dsimp only); (repeat' split) <;> simp
@[simp] theorem readHead_sleeper (n : Nat) (s : State) : (readHead n s).sleeper = s.sleeper := by unfold readHead; (try dsimp only); (repeat' split) <;> simp
@[simp] theorem readHead_tt (n : Nat) (s : State) : (readHead n s).tt = s.tt := by unfold readHead; (try dsimp only); (repeat' split) <;> simp
@[simp] theorem readHead_ddr (n : Nat) (s : State) : (readHead n s).ddr = s.ddr := by unfold readHead; (try dsimp only); (repeat' split) <;> simp
@[simp] theorem readHead_rail (n : Nat) (s : State) : (readHead n s).rail = s.rail := by unfold readHead; (try dsimp only); (repeat' split) <;> simp
@[simp] theorem readHead_rc (n : Nat) (s : State) : (readHead n s).rc = s.rc := by unfold readHead; (try dsimp only); (repeat' split) <;> simp
@[simp] theorem readHead_ho (n : Nat) (s : State) : (readHead n s).ho = s.ho := by unfold readHead; (try dsimp only); (repeat' split) <;> simp
@[simp] theorem readHead_cs (n : Nat) (s : State) : (readHead n s).cs = s.cs := by unfold readHead; (try dsimp only); (repeat' split) <;> simp
@[simp] theorem readHead_ft (n : Nat) (s : State) : (readHead n s).ft = s.ft := by unfold readHead; (try dsimp only); (repeat' split) <;> simp
@[simp] theorem readHead_tn (n : Nat) (s : State) : (readHead n s).tn = s.tn := by unfold readHead; (try dsimp only); (repeat' split) <;> simp
@[simp] theorem readHead_trust (n : Nat) (s : State) : (readHead n s).trust = s.trust := by unfold readHead; (try dsimp only); (repeat' split) <;> simp
@[simp] theorem readHead_free (n : Nat) (s : State) : (readHead n s).free = s.free := by unfold readHead; (try dsimp only); (repeat' split) <;> simp
@[simp] theorem readHead_pending (n : Nat) (s : State) : (readHead n s).pending = s.pending := by unfold readHead; (try dsimp only); (repeat' split) <;> simp

/-! ## putRec changes at most: host, out -/

@[simp] theorem putRec_fuses (n : Nat) (r : Rec) (s : State) : (putRec n r s).fuses = s.fuses := by unfold putRec; (try dsimp only); (repeat' split) <;> simp
@[simp] theorem putRec_flash (n : Nat) (r : Rec) (s : State) : (putRec n r s).flash = s.flash := by unfold putRec; (try dsimp only); (repeat' split) <;> simp
@[simp] theorem putRec_clk (n : Nat) (r : Rec) (s : State) : (putRec n r s).clk = s.clk := by unfold putRec; (try dsimp only); (repeat' split) <;> simp
@[simp] theorem putRec_power (n : Nat) (r : Rec) (s : State) : (putRec n r s).power = s.power := by unfold putRec; (try dsimp only); (repeat' split) <;> simp
@[simp] theorem putRec_boot (n : Nat) (r : Rec) (s : State) : (putRec n r s).boot = s.boot := by unfold putRec; (try dsimp only); (repeat' split) <;> simp
@[simp] theorem putRec_work (n : Nat) (r : Rec) (s : State) : (putRec n r s).work = s.work := by unfold putRec; (try dsimp only); (repeat' split) <;> simp
@[simp] theorem putRec_nextWid (n : Nat) (r : Rec) (s : State) : (putRec n r s).nextWid = s.nextWid := by unfold putRec; (try dsimp only); (repeat' split) <;> simp
@[simp] theorem putRec_img (n : Nat) (r : Rec) (s : State) : (putRec n r s).img = s.img := by unfold putRec; (try dsimp only); (repeat' split) <;> simp
@[simp] theorem putRec_groves (n : Nat) (r : Rec) (s : State) : (putRec n r s).groves = s.groves := by unfold putRec; (try dsimp only); (repeat' split) <;> simp
@[simp] theorem putRec_waybill (n : Nat) (r : Rec) (s : State) : (putRec n r s).waybill = s.waybill := by unfold putRec; (try dsimp only); (repeat' split) <;> simp
@[simp] theorem putRec_mem (n : Nat) (r : Rec) (s : State) : (putRec n r s).mem = s.mem := by unfold putRec; (try dsimp only); (repeat' split) <;> simp
@[simp] theorem putRec_sleeper (n : Nat) (r : Rec) (s : State) : (putRec n r s).sleeper = s.sleeper := by unfold putRec; (try dsimp only); (repeat' split) <;> simp
@[simp] theorem putRec_tt (n : Nat) (r : Rec) (s : State) : (putRec n r s).tt = s.tt := by unfold putRec; (try dsimp only); (repeat' split) <;> simp
@[simp] theorem putRec_ddr (n : Nat) (r : Rec) (s : State) : (putRec n r s).ddr = s.ddr := by unfold putRec; (try dsimp only); (repeat' split) <;> simp
@[simp] theorem putRec_rail (n : Nat) (r : Rec) (s : State) : (putRec n r s).rail = s.rail := by unfold putRec; (try dsimp only); (repeat' split) <;> simp
@[simp] theorem putRec_rc (n : Nat) (r : Rec) (s : State) : (putRec n r s).rc = s.rc := by unfold putRec; (try dsimp only); (repeat' split) <;> simp
@[simp] theorem putRec_ho (n : Nat) (r : Rec) (s : State) : (putRec n r s).ho = s.ho := by unfold putRec; (try dsimp only); (repeat' split) <;> simp
@[simp] theorem putRec_cs (n : Nat) (r : Rec) (s : State) : (putRec n r s).cs = s.cs := by unfold putRec; (try dsimp only); (repeat' split) <;> simp
@[simp] theorem putRec_ft (n : Nat) (r : Rec) (s : State) : (putRec n r s).ft = s.ft := by unfold putRec; (try dsimp only); (repeat' split) <;> simp
@[simp] theorem putRec_tn (n : Nat) (r : Rec) (s : State) : (putRec n r s).tn = s.tn := by unfold putRec; (try dsimp only); (repeat' split) <;> simp
@[simp] theorem putRec_trust (n : Nat) (r : Rec) (s : State) : (putRec n r s).trust = s.trust := by unfold putRec; (try dsimp only); (repeat' split) <;> simp
@[simp] theorem putRec_free (n : Nat) (r : Rec) (s : State) : (putRec n r s).free = s.free := by unfold putRec; (try dsimp only); (repeat' split) <;> simp
@[simp] theorem putRec_pending (n : Nat) (r : Rec) (s : State) : (putRec n r s).pending = s.pending := by unfold putRec; (try dsimp only); (repeat' split) <;> simp

/-! ## giveRec changes at most: host, out -/

@[simp] theorem giveRec_fuses (f l : Nat) (r : Rec) (s : State) : (giveRec f l r s).fuses = s.fuses := by unfold giveRec; (try dsimp only); (repeat' split) <;> simp
@[simp] theorem giveRec_flash (f l : Nat) (r : Rec) (s : State) : (giveRec f l r s).flash = s.flash := by unfold giveRec; (try dsimp only); (repeat' split) <;> simp
@[simp] theorem giveRec_clk (f l : Nat) (r : Rec) (s : State) : (giveRec f l r s).clk = s.clk := by unfold giveRec; (try dsimp only); (repeat' split) <;> simp
@[simp] theorem giveRec_power (f l : Nat) (r : Rec) (s : State) : (giveRec f l r s).power = s.power := by unfold giveRec; (try dsimp only); (repeat' split) <;> simp
@[simp] theorem giveRec_boot (f l : Nat) (r : Rec) (s : State) : (giveRec f l r s).boot = s.boot := by unfold giveRec; (try dsimp only); (repeat' split) <;> simp
@[simp] theorem giveRec_work (f l : Nat) (r : Rec) (s : State) : (giveRec f l r s).work = s.work := by unfold giveRec; (try dsimp only); (repeat' split) <;> simp
@[simp] theorem giveRec_nextWid (f l : Nat) (r : Rec) (s : State) : (giveRec f l r s).nextWid = s.nextWid := by unfold giveRec; (try dsimp only); (repeat' split) <;> simp
@[simp] theorem giveRec_img (f l : Nat) (r : Rec) (s : State) : (giveRec f l r s).img = s.img := by unfold giveRec; (try dsimp only); (repeat' split) <;> simp
@[simp] theorem giveRec_groves (f l : Nat) (r : Rec) (s : State) : (giveRec f l r s).groves = s.groves := by unfold giveRec; (try dsimp only); (repeat' split) <;> simp
@[simp] theorem giveRec_waybill (f l : Nat) (r : Rec) (s : State) : (giveRec f l r s).waybill = s.waybill := by unfold giveRec; (try dsimp only); (repeat' split) <;> simp
@[simp] theorem giveRec_mem (f l : Nat) (r : Rec) (s : State) : (giveRec f l r s).mem = s.mem := by unfold giveRec; (try dsimp only); (repeat' split) <;> simp
@[simp] theorem giveRec_sleeper (f l : Nat) (r : Rec) (s : State) : (giveRec f l r s).sleeper = s.sleeper := by unfold giveRec; (try dsimp only); (repeat' split) <;> simp
@[simp] theorem giveRec_tt (f l : Nat) (r : Rec) (s : State) : (giveRec f l r s).tt = s.tt := by unfold giveRec; (try dsimp only); (repeat' split) <;> simp
@[simp] theorem giveRec_ddr (f l : Nat) (r : Rec) (s : State) : (giveRec f l r s).ddr = s.ddr := by unfold giveRec; (try dsimp only); (repeat' split) <;> simp
@[simp] theorem giveRec_rail (f l : Nat) (r : Rec) (s : State) : (giveRec f l r s).rail = s.rail := by unfold giveRec; (try dsimp only); (repeat' split) <;> simp
@[simp] theorem giveRec_rc (f l : Nat) (r : Rec) (s : State) : (giveRec f l r s).rc = s.rc := by unfold giveRec; (try dsimp only); (repeat' split) <;> simp
@[simp] theorem giveRec_ho (f l : Nat) (r : Rec) (s : State) : (giveRec f l r s).ho = s.ho := by unfold giveRec; (try dsimp only); (repeat' split) <;> simp
@[simp] theorem giveRec_cs (f l : Nat) (r : Rec) (s : State) : (giveRec f l r s).cs = s.cs := by unfold giveRec; (try dsimp only); (repeat' split) <;> simp
@[simp] theorem giveRec_ft (f l : Nat) (r : Rec) (s : State) : (giveRec f l r s).ft = s.ft := by unfold giveRec; (try dsimp only); (repeat' split) <;> simp
@[simp] theorem giveRec_tn (f l : Nat) (r : Rec) (s : State) : (giveRec f l r s).tn = s.tn := by unfold giveRec; (try dsimp only); (repeat' split) <;> simp
@[simp] theorem giveRec_trust (f l : Nat) (r : Rec) (s : State) : (giveRec f l r s).trust = s.trust := by unfold giveRec; (try dsimp only); (repeat' split) <;> simp
@[simp] theorem giveRec_free (f l : Nat) (r : Rec) (s : State) : (giveRec f l r s).free = s.free := by unfold giveRec; (try dsimp only); (repeat' split) <;> simp
@[simp] theorem giveRec_pending (f l : Nat) (r : Rec) (s : State) : (giveRec f l r s).pending = s.pending := by unfold giveRec; (try dsimp only); (repeat' split) <;> simp

/-! ## settleRing changes at most: host -/

@[simp] theorem settleRing_fuses (n : Nat) (s : State) : (settleRing n s).fuses = s.fuses := by unfold settleRing; (try dsimp only); (repeat' split) <;> simp
@[simp] theorem settleRing_flash (n : Nat) (s : State) : (settleRing n s).flash = s.flash := by unfold settleRing; (try dsimp only); (repeat' split) <;> simp
@[simp] theorem settleRing_clk (n : Nat) (s : State) : (settleRing n s).clk = s.clk := by unfold settleRing; (try dsimp only); (repeat' split) <;> simp
@[simp] theorem settleRing_power (n : Nat) (s : State) : (settleRing n s).power = s.power := by unfold settleRing; (try dsimp only); (repeat' split) <;> simp
@[simp] theorem settleRing_boot (n : Nat) (s : State) : (settleRing n s).boot = s.boot := by unfold settleRing; (try dsimp only); (repeat' split) <;> simp
@[simp] theorem settleRing_work (n : Nat) (s : State) : (settleRing n s).work = s.work := by unfold settleRing; (try dsimp only); (repeat' split) <;> simp
@[simp] theorem settleRing_nextWid (n : Nat) (s : State) : (settleRing n s).nextWid = s.nextWid := by unfold settleRing; (try dsimp only); (repeat' split) <;> simp
@[simp] theorem settleRing_img (n : Nat) (s : State) : (settleRing n s).img = s.img := by unfold settleRing; (try dsimp only); (repeat' split) <;> simp
@[simp] theorem settleRing_groves (n : Nat) (s : State) : (settleRing n s).groves = s.groves := by unfold settleRing; (try dsimp only); (repeat' split) <;> simp
@[simp] theorem settleRing_waybill (n : Nat) (s : State) : (settleRing n s).waybill = s.waybill := by unfold settleRing; (try dsimp only); (repeat' split) <;> simp
@[simp] theorem settleRing_mem (n : Nat) (s : State) : (settleRing n s).mem = s.mem := by unfold settleRing; (try dsimp only); (repeat' split) <;> simp
@[simp] theorem settleRing_sleeper (n : Nat) (s : State) : (settleRing n s).sleeper = s.sleeper := by unfold settleRing; (try dsimp only); (repeat' split) <;> simp
@[simp] theorem settleRing_tt (n : Nat) (s : State) : (settleRing n s).tt = s.tt := by unfold settleRing; (try dsimp only); (repeat' split) <;> simp
@[simp] theorem settleRing_ddr (n : Nat) (s : State) : (settleRing n s).ddr = s.ddr := by unfold settleRing; (try dsimp only); (repeat' split) <;> simp
@[simp] theorem settleRing_rail (n : Nat) (s : State) : (settleRing n s).rail = s.rail := by unfold settleRing; (try dsimp only); (repeat' split) <;> simp
@[simp] theorem settleRing_rc (n : Nat) (s : State) : (settleRing n s).rc = s.rc := by unfold settleRing; (try dsimp only); (repeat' split) <;> simp
@[simp] theorem settleRing_ho (n : Nat) (s : State) : (settleRing n s).ho = s.ho := by unfold settleRing; (try dsimp only); (repeat' split) <;> simp
@[simp] theorem settleRing_cs (n : Nat) (s : State) : (settleRing n s).cs = s.cs := by unfold settleRing; (try dsimp only); (repeat' split) <;> simp
@[simp] theorem settleRing_ft (n : Nat) (s : State) : (settleRing n s).ft = s.ft := by unfold settleRing; (try dsimp only); (repeat' split) <;> simp
@[simp] theorem settleRing_tn (n : Nat) (s : State) : (settleRing n s).tn = s.tn := by unfold settleRing; (try dsimp only); (repeat' split) <;> simp
@[simp] theorem settleRing_trust (n : Nat) (s : State) : (settleRing n s).trust = s.trust := by unfold settleRing; (try dsimp only); (repeat' split) <;> simp
@[simp] theorem settleRing_free (n : Nat) (s : State) : (settleRing n s).free = s.free := by unfold settleRing; (try dsimp only); (repeat' split) <;> simp
@[simp] theorem settleRing_out (n : Nat) (s : State) : (settleRing n s).out = s.out := by unfold settleRing; (try dsimp only); (repeat' split) <;> simp
@[simp] theorem settleRing_pending (n : Nat) (s : State) : (settleRing n s).pending = s.pending := by unfold settleRing; (try dsimp only); (repeat' split) <;> simp

/-! ## event changes at most: host, out -/

@[simp] theorem event_fuses (f c r : Nat) (s : State) (st : Byte) (q : W32) (x : Nat) (fr : BitVec 16) : (event f c r s st q x fr).fuses = s.fuses := by unfold event; (try dsimp only); (repeat' split) <;> simp
@[simp] theorem event_flash (f c r : Nat) (s : State) (st : Byte) (q : W32) (x : Nat) (fr : BitVec 16) : (event f c r s st q x fr).flash = s.flash := by unfold event; (try dsimp only); (repeat' split) <;> simp
@[simp] theorem event_clk (f c r : Nat) (s : State) (st : Byte) (q : W32) (x : Nat) (fr : BitVec 16) : (event f c r s st q x fr).clk = s.clk := by unfold event; (try dsimp only); (repeat' split) <;> simp
@[simp] theorem event_power (f c r : Nat) (s : State) (st : Byte) (q : W32) (x : Nat) (fr : BitVec 16) : (event f c r s st q x fr).power = s.power := by unfold event; (try dsimp only); (repeat' split) <;> simp
@[simp] theorem event_boot (f c r : Nat) (s : State) (st : Byte) (q : W32) (x : Nat) (fr : BitVec 16) : (event f c r s st q x fr).boot = s.boot := by unfold event; (try dsimp only); (repeat' split) <;> simp
@[simp] theorem event_work (f c r : Nat) (s : State) (st : Byte) (q : W32) (x : Nat) (fr : BitVec 16) : (event f c r s st q x fr).work = s.work := by unfold event; (try dsimp only); (repeat' split) <;> simp
@[simp] theorem event_nextWid (f c r : Nat) (s : State) (st : Byte) (q : W32) (x : Nat) (fr : BitVec 16) : (event f c r s st q x fr).nextWid = s.nextWid := by unfold event; (try dsimp only); (repeat' split) <;> simp
@[simp] theorem event_img (f c r : Nat) (s : State) (st : Byte) (q : W32) (x : Nat) (fr : BitVec 16) : (event f c r s st q x fr).img = s.img := by unfold event; (try dsimp only); (repeat' split) <;> simp
@[simp] theorem event_groves (f c r : Nat) (s : State) (st : Byte) (q : W32) (x : Nat) (fr : BitVec 16) : (event f c r s st q x fr).groves = s.groves := by unfold event; (try dsimp only); (repeat' split) <;> simp
@[simp] theorem event_waybill (f c r : Nat) (s : State) (st : Byte) (q : W32) (x : Nat) (fr : BitVec 16) : (event f c r s st q x fr).waybill = s.waybill := by unfold event; (try dsimp only); (repeat' split) <;> simp
@[simp] theorem event_mem (f c r : Nat) (s : State) (st : Byte) (q : W32) (x : Nat) (fr : BitVec 16) : (event f c r s st q x fr).mem = s.mem := by unfold event; (try dsimp only); (repeat' split) <;> simp
@[simp] theorem event_sleeper (f c r : Nat) (s : State) (st : Byte) (q : W32) (x : Nat) (fr : BitVec 16) : (event f c r s st q x fr).sleeper = s.sleeper := by unfold event; (try dsimp only); (repeat' split) <;> simp
@[simp] theorem event_tt (f c r : Nat) (s : State) (st : Byte) (q : W32) (x : Nat) (fr : BitVec 16) : (event f c r s st q x fr).tt = s.tt := by unfold event; (try dsimp only); (repeat' split) <;> simp
@[simp] theorem event_ddr (f c r : Nat) (s : State) (st : Byte) (q : W32) (x : Nat) (fr : BitVec 16) : (event f c r s st q x fr).ddr = s.ddr := by unfold event; (try dsimp only); (repeat' split) <;> simp
@[simp] theorem event_rail (f c r : Nat) (s : State) (st : Byte) (q : W32) (x : Nat) (fr : BitVec 16) : (event f c r s st q x fr).rail = s.rail := by unfold event; (try dsimp only); (repeat' split) <;> simp
@[simp] theorem event_rc (f c r : Nat) (s : State) (st : Byte) (q : W32) (x : Nat) (fr : BitVec 16) : (event f c r s st q x fr).rc = s.rc := by unfold event; (try dsimp only); (repeat' split) <;> simp
@[simp] theorem event_ho (f c r : Nat) (s : State) (st : Byte) (q : W32) (x : Nat) (fr : BitVec 16) : (event f c r s st q x fr).ho = s.ho := by unfold event; (try dsimp only); (repeat' split) <;> simp
@[simp] theorem event_cs (f c r : Nat) (s : State) (st : Byte) (q : W32) (x : Nat) (fr : BitVec 16) : (event f c r s st q x fr).cs = s.cs := by unfold event; (try dsimp only); (repeat' split) <;> simp
@[simp] theorem event_ft (f c r : Nat) (s : State) (st : Byte) (q : W32) (x : Nat) (fr : BitVec 16) : (event f c r s st q x fr).ft = s.ft := by unfold event; (try dsimp only); (repeat' split) <;> simp
@[simp] theorem event_tn (f c r : Nat) (s : State) (st : Byte) (q : W32) (x : Nat) (fr : BitVec 16) : (event f c r s st q x fr).tn = s.tn := by unfold event; (try dsimp only); (repeat' split) <;> simp
@[simp] theorem event_trust (f c r : Nat) (s : State) (st : Byte) (q : W32) (x : Nat) (fr : BitVec 16) : (event f c r s st q x fr).trust = s.trust := by unfold event; (try dsimp only); (repeat' split) <;> simp
@[simp] theorem event_free (f c r : Nat) (s : State) (st : Byte) (q : W32) (x : Nat) (fr : BitVec 16) : (event f c r s st q x fr).free = s.free := by unfold event; (try dsimp only); (repeat' split) <;> simp
@[simp] theorem event_pending (f c r : Nat) (s : State) (st : Byte) (q : W32) (x : Nat) (fr : BitVec 16) : (event f c r s st q x fr).pending = s.pending := by unfold event; (try dsimp only); (repeat' split) <;> simp

/-! ## finishDisable changes at most: host, tt, tn -/

@[simp] theorem finishDisable_fuses (f : Nat) (s : State) : (finishDisable f s).fuses = s.fuses := rfl
@[simp] theorem finishDisable_flash (f : Nat) (s : State) : (finishDisable f s).flash = s.flash := rfl
@[simp] theorem finishDisable_clk (f : Nat) (s : State) : (finishDisable f s).clk = s.clk := rfl
@[simp] theorem finishDisable_power (f : Nat) (s : State) : (finishDisable f s).power = s.power := rfl
@[simp] theorem finishDisable_boot (f : Nat) (s : State) : (finishDisable f s).boot = s.boot := rfl
@[simp] theorem finishDisable_work (f : Nat) (s : State) : (finishDisable f s).work = s.work := rfl
@[simp] theorem finishDisable_nextWid (f : Nat) (s : State) : (finishDisable f s).nextWid = s.nextWid := rfl
@[simp] theorem finishDisable_img (f : Nat) (s : State) : (finishDisable f s).img = s.img := rfl
@[simp] theorem finishDisable_groves (f : Nat) (s : State) : (finishDisable f s).groves = s.groves := rfl
@[simp] theorem finishDisable_waybill (f : Nat) (s : State) : (finishDisable f s).waybill = s.waybill := rfl
@[simp] theorem finishDisable_mem (f : Nat) (s : State) : (finishDisable f s).mem = s.mem := rfl
@[simp] theorem finishDisable_sleeper (f : Nat) (s : State) : (finishDisable f s).sleeper = s.sleeper := rfl
@[simp] theorem finishDisable_ddr (f : Nat) (s : State) : (finishDisable f s).ddr = s.ddr := rfl
@[simp] theorem finishDisable_rail (f : Nat) (s : State) : (finishDisable f s).rail = s.rail := rfl
@[simp] theorem finishDisable_rc (f : Nat) (s : State) : (finishDisable f s).rc = s.rc := rfl
@[simp] theorem finishDisable_ho (f : Nat) (s : State) : (finishDisable f s).ho = s.ho := rfl
@[simp] theorem finishDisable_cs (f : Nat) (s : State) : (finishDisable f s).cs = s.cs := rfl
@[simp] theorem finishDisable_ft (f : Nat) (s : State) : (finishDisable f s).ft = s.ft := rfl
@[simp] theorem finishDisable_trust (f : Nat) (s : State) : (finishDisable f s).trust = s.trust := rfl
@[simp] theorem finishDisable_free (f : Nat) (s : State) : (finishDisable f s).free = s.free := rfl
@[simp] theorem finishDisable_out (f : Nat) (s : State) : (finishDisable f s).out = s.out := rfl
@[simp] theorem finishDisable_pending (f : Nat) (s : State) : (finishDisable f s).pending = s.pending := rfl

/-! ## settleDisable changes at most: host, tt, tn -/

@[simp] theorem settleDisable_fuses (f : Nat) (s : State) : (settleDisable f s).fuses = s.fuses := by unfold settleDisable; (try dsimp only); (repeat' split) <;> simp
@[simp] theorem settleDisable_flash (f : Nat) (s : State) : (settleDisable f s).flash = s.flash := by unfold settleDisable; (try dsimp only); (repeat' split) <;> simp
@[simp] theorem settleDisable_clk (f : Nat) (s : State) : (settleDisable f s).clk = s.clk := by unfold settleDisable; (try dsimp only); (repeat' split) <;> simp
@[simp] theorem settleDisable_power (f : Nat) (s : State) : (settleDisable f s).power = s.power := by unfold settleDisable; (try dsimp only); (repeat' split) <;> simp
@[simp] theorem settleDisable_boot (f : Nat) (s : State) : (settleDisable f s).boot = s.boot := by unfold settleDisable; (try dsimp only); (repeat' split) <;> simp
@[simp] theorem settleDisable_work (f : Nat) (s : State) : (settleDisable f s).work = s.work := by unfold settleDisable; (try dsimp only); (repeat' split) <;> simp
@[simp] theorem settleDisable_nextWid (f : Nat) (s : State) : (settleDisable f s).nextWid = s.nextWid := by unfold settleDisable; (try dsimp only); (repeat' split) <;> simp
@[simp] theorem settleDisable_img (f : Nat) (s : State) : (settleDisable f s).img = s.img := by unfold settleDisable; (try dsimp only); (repeat' split) <;> simp
@[simp] theorem settleDisable_groves (f : Nat) (s : State) : (settleDisable f s).groves = s.groves := by unfold settleDisable; (try dsimp only); (repeat' split) <;> simp
@[simp] theorem settleDisable_waybill (f : Nat) (s : State) : (settleDisable f s).waybill = s.waybill := by unfold settleDisable; (try dsimp only); (repeat' split) <;> simp
@[simp] theorem settleDisable_mem (f : Nat) (s : State) : (settleDisable f s).mem = s.mem := by unfold settleDisable; (try dsimp only); (repeat' split) <;> simp
@[simp] theorem settleDisable_sleeper (f : Nat) (s : State) : (settleDisable f s).sleeper = s.sleeper := by unfold settleDisable; (try dsimp only); (repeat' split) <;> simp
@[simp] theorem settleDisable_ddr (f : Nat) (s : State) : (settleDisable f s).ddr = s.ddr := by unfold settleDisable; (try dsimp only); (repeat' split) <;> simp
@[simp] theorem settleDisable_rail (f : Nat) (s : State) : (settleDisable f s).rail = s.rail := by unfold settleDisable; (try dsimp only); (repeat' split) <;> simp
@[simp] theorem settleDisable_rc (f : Nat) (s : State) : (settleDisable f s).rc = s.rc := by unfold settleDisable; (try dsimp only); (repeat' split) <;> simp
@[simp] theorem settleDisable_ho (f : Nat) (s : State) : (settleDisable f s).ho = s.ho := by unfold settleDisable; (try dsimp only); (repeat' split) <;> simp
@[simp] theorem settleDisable_cs (f : Nat) (s : State) : (settleDisable f s).cs = s.cs := by unfold settleDisable; (try dsimp only); (repeat' split) <;> simp
@[simp] theorem settleDisable_ft (f : Nat) (s : State) : (settleDisable f s).ft = s.ft := by unfold settleDisable; (try dsimp only); (repeat' split) <;> simp
@[simp] theorem settleDisable_trust (f : Nat) (s : State) : (settleDisable f s).trust = s.trust := by unfold settleDisable; (try dsimp only); (repeat' split) <;> simp
@[simp] theorem settleDisable_free (f : Nat) (s : State) : (settleDisable f s).free = s.free := by unfold settleDisable; (try dsimp only); (repeat' split) <;> simp
@[simp] theorem settleDisable_out (f : Nat) (s : State) : (settleDisable f s).out = s.out := by unfold settleDisable; (try dsimp only); (repeat' split) <;> simp
@[simp] theorem settleDisable_pending (f : Nat) (s : State) : (settleDisable f s).pending = s.pending := by unfold settleDisable; (try dsimp only); (repeat' split) <;> simp

/-! ## settleRecs changes at most: ft -/

@[simp] theorem settleRecs_fuses (s : State) : (settleRecs s).fuses = s.fuses := rfl
@[simp] theorem settleRecs_flash (s : State) : (settleRecs s).flash = s.flash := rfl
@[simp] theorem settleRecs_clk (s : State) : (settleRecs s).clk = s.clk := rfl
@[simp] theorem settleRecs_power (s : State) : (settleRecs s).power = s.power := rfl
@[simp] theorem settleRecs_boot (s : State) : (settleRecs s).boot = s.boot := rfl
@[simp] theorem settleRecs_host (s : State) : (settleRecs s).host = s.host := rfl
@[simp] theorem settleRecs_work (s : State) : (settleRecs s).work = s.work := rfl
@[simp] theorem settleRecs_nextWid (s : State) : (settleRecs s).nextWid = s.nextWid := rfl
@[simp] theorem settleRecs_img (s : State) : (settleRecs s).img = s.img := rfl
@[simp] theorem settleRecs_groves (s : State) : (settleRecs s).groves = s.groves := rfl
@[simp] theorem settleRecs_waybill (s : State) : (settleRecs s).waybill = s.waybill := rfl
@[simp] theorem settleRecs_mem (s : State) : (settleRecs s).mem = s.mem := rfl
@[simp] theorem settleRecs_sleeper (s : State) : (settleRecs s).sleeper = s.sleeper := rfl
@[simp] theorem settleRecs_tt (s : State) : (settleRecs s).tt = s.tt := rfl
@[simp] theorem settleRecs_ddr (s : State) : (settleRecs s).ddr = s.ddr := rfl
@[simp] theorem settleRecs_rail (s : State) : (settleRecs s).rail = s.rail := rfl
@[simp] theorem settleRecs_rc (s : State) : (settleRecs s).rc = s.rc := rfl
@[simp] theorem settleRecs_ho (s : State) : (settleRecs s).ho = s.ho := rfl
@[simp] theorem settleRecs_cs (s : State) : (settleRecs s).cs = s.cs := rfl
@[simp] theorem settleRecs_tn (s : State) : (settleRecs s).tn = s.tn := rfl
@[simp] theorem settleRecs_trust (s : State) : (settleRecs s).trust = s.trust := rfl
@[simp] theorem settleRecs_free (s : State) : (settleRecs s).free = s.free := rfl
@[simp] theorem settleRecs_out (s : State) : (settleRecs s).out = s.out := rfl
@[simp] theorem settleRecs_pending (s : State) : (settleRecs s).pending = s.pending := rfl

/-! ## closeFor changes at most: ft -/

@[simp] theorem closeFor_fuses (c : Closer) (s : State) : (closeFor c s).fuses = s.fuses := rfl
@[simp] theorem closeFor_flash (c : Closer) (s : State) : (closeFor c s).flash = s.flash := rfl
@[simp] theorem closeFor_clk (c : Closer) (s : State) : (closeFor c s).clk = s.clk := rfl
@[simp] theorem closeFor_power (c : Closer) (s : State) : (closeFor c s).power = s.power := rfl
@[simp] theorem closeFor_boot (c : Closer) (s : State) : (closeFor c s).boot = s.boot := rfl
@[simp] theorem closeFor_host (c : Closer) (s : State) : (closeFor c s).host = s.host := rfl
@[simp] theorem closeFor_work (c : Closer) (s : State) : (closeFor c s).work = s.work := rfl
@[simp] theorem closeFor_nextWid (c : Closer) (s : State) : (closeFor c s).nextWid = s.nextWid := rfl
@[simp] theorem closeFor_img (c : Closer) (s : State) : (closeFor c s).img = s.img := rfl
@[simp] theorem closeFor_groves (c : Closer) (s : State) : (closeFor c s).groves = s.groves := rfl
@[simp] theorem closeFor_waybill (c : Closer) (s : State) : (closeFor c s).waybill = s.waybill := rfl
@[simp] theorem closeFor_mem (c : Closer) (s : State) : (closeFor c s).mem = s.mem := rfl
@[simp] theorem closeFor_sleeper (c : Closer) (s : State) : (closeFor c s).sleeper = s.sleeper := rfl
@[simp] theorem closeFor_tt (c : Closer) (s : State) : (closeFor c s).tt = s.tt := rfl
@[simp] theorem closeFor_ddr (c : Closer) (s : State) : (closeFor c s).ddr = s.ddr := rfl
@[simp] theorem closeFor_rail (c : Closer) (s : State) : (closeFor c s).rail = s.rail := rfl
@[simp] theorem closeFor_rc (c : Closer) (s : State) : (closeFor c s).rc = s.rc := rfl
@[simp] theorem closeFor_ho (c : Closer) (s : State) : (closeFor c s).ho = s.ho := rfl
@[simp] theorem closeFor_cs (c : Closer) (s : State) : (closeFor c s).cs = s.cs := rfl
@[simp] theorem closeFor_tn (c : Closer) (s : State) : (closeFor c s).tn = s.tn := rfl
@[simp] theorem closeFor_trust (c : Closer) (s : State) : (closeFor c s).trust = s.trust := rfl
@[simp] theorem closeFor_free (c : Closer) (s : State) : (closeFor c s).free = s.free := rfl
@[simp] theorem closeFor_out (c : Closer) (s : State) : (closeFor c s).out = s.out := rfl
@[simp] theorem closeFor_pending (c : Closer) (s : State) : (closeFor c s).pending = s.pending := rfl

/-! ## noteStepEntry changes at most: tt -/

@[simp] theorem noteStepEntry_fuses (p : Nat) (st : Status) (r : Nat) (fr : BitVec 16) (s : State) : (noteStepEntry p st r fr s).fuses = s.fuses := rfl
@[simp] theorem noteStepEntry_flash (p : Nat) (st : Status) (r : Nat) (fr : BitVec 16) (s : State) : (noteStepEntry p st r fr s).flash = s.flash := rfl
@[simp] theorem noteStepEntry_clk (p : Nat) (st : Status) (r : Nat) (fr : BitVec 16) (s : State) : (noteStepEntry p st r fr s).clk = s.clk := rfl
@[simp] theorem noteStepEntry_power (p : Nat) (st : Status) (r : Nat) (fr : BitVec 16) (s : State) : (noteStepEntry p st r fr s).power = s.power := rfl
@[simp] theorem noteStepEntry_boot (p : Nat) (st : Status) (r : Nat) (fr : BitVec 16) (s : State) : (noteStepEntry p st r fr s).boot = s.boot := rfl
@[simp] theorem noteStepEntry_host (p : Nat) (st : Status) (r : Nat) (fr : BitVec 16) (s : State) : (noteStepEntry p st r fr s).host = s.host := rfl
@[simp] theorem noteStepEntry_work (p : Nat) (st : Status) (r : Nat) (fr : BitVec 16) (s : State) : (noteStepEntry p st r fr s).work = s.work := rfl
@[simp] theorem noteStepEntry_nextWid (p : Nat) (st : Status) (r : Nat) (fr : BitVec 16) (s : State) : (noteStepEntry p st r fr s).nextWid = s.nextWid := rfl
@[simp] theorem noteStepEntry_img (p : Nat) (st : Status) (r : Nat) (fr : BitVec 16) (s : State) : (noteStepEntry p st r fr s).img = s.img := rfl
@[simp] theorem noteStepEntry_groves (p : Nat) (st : Status) (r : Nat) (fr : BitVec 16) (s : State) : (noteStepEntry p st r fr s).groves = s.groves := rfl
@[simp] theorem noteStepEntry_waybill (p : Nat) (st : Status) (r : Nat) (fr : BitVec 16) (s : State) : (noteStepEntry p st r fr s).waybill = s.waybill := rfl
@[simp] theorem noteStepEntry_mem (p : Nat) (st : Status) (r : Nat) (fr : BitVec 16) (s : State) : (noteStepEntry p st r fr s).mem = s.mem := rfl
@[simp] theorem noteStepEntry_sleeper (p : Nat) (st : Status) (r : Nat) (fr : BitVec 16) (s : State) : (noteStepEntry p st r fr s).sleeper = s.sleeper := rfl
@[simp] theorem noteStepEntry_ddr (p : Nat) (st : Status) (r : Nat) (fr : BitVec 16) (s : State) : (noteStepEntry p st r fr s).ddr = s.ddr := rfl
@[simp] theorem noteStepEntry_rail (p : Nat) (st : Status) (r : Nat) (fr : BitVec 16) (s : State) : (noteStepEntry p st r fr s).rail = s.rail := rfl
@[simp] theorem noteStepEntry_rc (p : Nat) (st : Status) (r : Nat) (fr : BitVec 16) (s : State) : (noteStepEntry p st r fr s).rc = s.rc := rfl
@[simp] theorem noteStepEntry_ho (p : Nat) (st : Status) (r : Nat) (fr : BitVec 16) (s : State) : (noteStepEntry p st r fr s).ho = s.ho := rfl
@[simp] theorem noteStepEntry_cs (p : Nat) (st : Status) (r : Nat) (fr : BitVec 16) (s : State) : (noteStepEntry p st r fr s).cs = s.cs := rfl
@[simp] theorem noteStepEntry_ft (p : Nat) (st : Status) (r : Nat) (fr : BitVec 16) (s : State) : (noteStepEntry p st r fr s).ft = s.ft := rfl
@[simp] theorem noteStepEntry_tn (p : Nat) (st : Status) (r : Nat) (fr : BitVec 16) (s : State) : (noteStepEntry p st r fr s).tn = s.tn := rfl
@[simp] theorem noteStepEntry_trust (p : Nat) (st : Status) (r : Nat) (fr : BitVec 16) (s : State) : (noteStepEntry p st r fr s).trust = s.trust := rfl
@[simp] theorem noteStepEntry_free (p : Nat) (st : Status) (r : Nat) (fr : BitVec 16) (s : State) : (noteStepEntry p st r fr s).free = s.free := rfl
@[simp] theorem noteStepEntry_out (p : Nat) (st : Status) (r : Nat) (fr : BitVec 16) (s : State) : (noteStepEntry p st r fr s).out = s.out := rfl
@[simp] theorem noteStepEntry_pending (p : Nat) (st : Status) (r : Nat) (fr : BitVec 16) (s : State) : (noteStepEntry p st r fr s).pending = s.pending := rfl

/-! ## complete changes at most: host, work, tt, ft, tn, out -/

@[simp] theorem complete_fuses (w : Work) (st : Status) (r : Nat) (s : State) (fr : BitVec 16) : (complete w st r s fr).fuses = s.fuses := by unfold complete; dsimp only; rw [settleDisable_fuses, closeFor_fuses]; (repeat' split) <;> simp
@[simp] theorem complete_flash (w : Work) (st : Status) (r : Nat) (s : State) (fr : BitVec 16) : (complete w st r s fr).flash = s.flash := by unfold complete; dsimp only; rw [settleDisable_flash, closeFor_flash]; (repeat' split) <;> simp
@[simp] theorem complete_clk (w : Work) (st : Status) (r : Nat) (s : State) (fr : BitVec 16) : (complete w st r s fr).clk = s.clk := by unfold complete; dsimp only; rw [settleDisable_clk, closeFor_clk]; (repeat' split) <;> simp
@[simp] theorem complete_power (w : Work) (st : Status) (r : Nat) (s : State) (fr : BitVec 16) : (complete w st r s fr).power = s.power := by unfold complete; dsimp only; rw [settleDisable_power, closeFor_power]; (repeat' split) <;> simp
@[simp] theorem complete_boot (w : Work) (st : Status) (r : Nat) (s : State) (fr : BitVec 16) : (complete w st r s fr).boot = s.boot := by unfold complete; dsimp only; rw [settleDisable_boot, closeFor_boot]; (repeat' split) <;> simp
@[simp] theorem complete_nextWid (w : Work) (st : Status) (r : Nat) (s : State) (fr : BitVec 16) : (complete w st r s fr).nextWid = s.nextWid := by unfold complete; dsimp only; rw [settleDisable_nextWid, closeFor_nextWid]; (repeat' split) <;> simp
@[simp] theorem complete_img (w : Work) (st : Status) (r : Nat) (s : State) (fr : BitVec 16) : (complete w st r s fr).img = s.img := by unfold complete; dsimp only; rw [settleDisable_img, closeFor_img]; (repeat' split) <;> simp
@[simp] theorem complete_groves (w : Work) (st : Status) (r : Nat) (s : State) (fr : BitVec 16) : (complete w st r s fr).groves = s.groves := by unfold complete; dsimp only; rw [settleDisable_groves, closeFor_groves]; (repeat' split) <;> simp
@[simp] theorem complete_waybill (w : Work) (st : Status) (r : Nat) (s : State) (fr : BitVec 16) : (complete w st r s fr).waybill = s.waybill := by unfold complete; dsimp only; rw [settleDisable_waybill, closeFor_waybill]; (repeat' split) <;> simp
@[simp] theorem complete_mem (w : Work) (st : Status) (r : Nat) (s : State) (fr : BitVec 16) : (complete w st r s fr).mem = s.mem := by unfold complete; dsimp only; rw [settleDisable_mem, closeFor_mem]; (repeat' split) <;> simp
@[simp] theorem complete_sleeper (w : Work) (st : Status) (r : Nat) (s : State) (fr : BitVec 16) : (complete w st r s fr).sleeper = s.sleeper := by unfold complete; dsimp only; rw [settleDisable_sleeper, closeFor_sleeper]; (repeat' split) <;> simp
@[simp] theorem complete_ddr (w : Work) (st : Status) (r : Nat) (s : State) (fr : BitVec 16) : (complete w st r s fr).ddr = s.ddr := by unfold complete; dsimp only; rw [settleDisable_ddr, closeFor_ddr]; (repeat' split) <;> simp
@[simp] theorem complete_rail (w : Work) (st : Status) (r : Nat) (s : State) (fr : BitVec 16) : (complete w st r s fr).rail = s.rail := by unfold complete; dsimp only; rw [settleDisable_rail, closeFor_rail]; (repeat' split) <;> simp
@[simp] theorem complete_rc (w : Work) (st : Status) (r : Nat) (s : State) (fr : BitVec 16) : (complete w st r s fr).rc = s.rc := by unfold complete; dsimp only; rw [settleDisable_rc, closeFor_rc]; (repeat' split) <;> simp
@[simp] theorem complete_ho (w : Work) (st : Status) (r : Nat) (s : State) (fr : BitVec 16) : (complete w st r s fr).ho = s.ho := by unfold complete; dsimp only; rw [settleDisable_ho, closeFor_ho]; (repeat' split) <;> simp
@[simp] theorem complete_cs (w : Work) (st : Status) (r : Nat) (s : State) (fr : BitVec 16) : (complete w st r s fr).cs = s.cs := by unfold complete; dsimp only; rw [settleDisable_cs, closeFor_cs]; (repeat' split) <;> simp
@[simp] theorem complete_trust (w : Work) (st : Status) (r : Nat) (s : State) (fr : BitVec 16) : (complete w st r s fr).trust = s.trust := by unfold complete; dsimp only; rw [settleDisable_trust, closeFor_trust]; (repeat' split) <;> simp
@[simp] theorem complete_free (w : Work) (st : Status) (r : Nat) (s : State) (fr : BitVec 16) : (complete w st r s fr).free = s.free := by unfold complete; dsimp only; rw [settleDisable_free, closeFor_free]; (repeat' split) <;> simp
@[simp] theorem complete_pending (w : Work) (st : Status) (r : Nat) (s : State) (fr : BitVec 16) : (complete w st r s fr).pending = s.pending := by unfold complete; dsimp only; rw [settleDisable_pending, closeFor_pending]; (repeat' split) <;> simp

/-! ## completeWid changes at most: host, work, tt, ft, tn, out -/

@[simp] theorem completeWid_fuses (i : Nat) (st : Status) (r : Nat) (s : State) (fr : BitVec 16) : (completeWid i st r s fr).fuses = s.fuses := by unfold completeWid; (try dsimp only); (repeat' split) <;> simp
@[simp] theorem completeWid_flash (i : Nat) (st : Status) (r : Nat) (s : State) (fr : BitVec 16) : (completeWid i st r s fr).flash = s.flash := by unfold completeWid; (try dsimp only); (repeat' split) <;> simp
@[simp] theorem completeWid_clk (i : Nat) (st : Status) (r : Nat) (s : State) (fr : BitVec 16) : (completeWid i st r s fr).clk = s.clk := by unfold completeWid; (try dsimp only); (repeat' split) <;> simp
@[simp] theorem completeWid_power (i : Nat) (st : Status) (r : Nat) (s : State) (fr : BitVec 16) : (completeWid i st r s fr).power = s.power := by unfold completeWid; (try dsimp only); (repeat' split) <;> simp
@[simp] theorem completeWid_boot (i : Nat) (st : Status) (r : Nat) (s : State) (fr : BitVec 16) : (completeWid i st r s fr).boot = s.boot := by unfold completeWid; (try dsimp only); (repeat' split) <;> simp
@[simp] theorem completeWid_nextWid (i : Nat) (st : Status) (r : Nat) (s : State) (fr : BitVec 16) : (completeWid i st r s fr).nextWid = s.nextWid := by unfold completeWid; (try dsimp only); (repeat' split) <;> simp
@[simp] theorem completeWid_img (i : Nat) (st : Status) (r : Nat) (s : State) (fr : BitVec 16) : (completeWid i st r s fr).img = s.img := by unfold completeWid; (try dsimp only); (repeat' split) <;> simp
@[simp] theorem completeWid_groves (i : Nat) (st : Status) (r : Nat) (s : State) (fr : BitVec 16) : (completeWid i st r s fr).groves = s.groves := by unfold completeWid; (try dsimp only); (repeat' split) <;> simp
@[simp] theorem completeWid_waybill (i : Nat) (st : Status) (r : Nat) (s : State) (fr : BitVec 16) : (completeWid i st r s fr).waybill = s.waybill := by unfold completeWid; (try dsimp only); (repeat' split) <;> simp
@[simp] theorem completeWid_mem (i : Nat) (st : Status) (r : Nat) (s : State) (fr : BitVec 16) : (completeWid i st r s fr).mem = s.mem := by unfold completeWid; (try dsimp only); (repeat' split) <;> simp
@[simp] theorem completeWid_sleeper (i : Nat) (st : Status) (r : Nat) (s : State) (fr : BitVec 16) : (completeWid i st r s fr).sleeper = s.sleeper := by unfold completeWid; (try dsimp only); (repeat' split) <;> simp
@[simp] theorem completeWid_ddr (i : Nat) (st : Status) (r : Nat) (s : State) (fr : BitVec 16) : (completeWid i st r s fr).ddr = s.ddr := by unfold completeWid; (try dsimp only); (repeat' split) <;> simp
@[simp] theorem completeWid_rail (i : Nat) (st : Status) (r : Nat) (s : State) (fr : BitVec 16) : (completeWid i st r s fr).rail = s.rail := by unfold completeWid; (try dsimp only); (repeat' split) <;> simp
@[simp] theorem completeWid_rc (i : Nat) (st : Status) (r : Nat) (s : State) (fr : BitVec 16) : (completeWid i st r s fr).rc = s.rc := by unfold completeWid; (try dsimp only); (repeat' split) <;> simp
@[simp] theorem completeWid_ho (i : Nat) (st : Status) (r : Nat) (s : State) (fr : BitVec 16) : (completeWid i st r s fr).ho = s.ho := by unfold completeWid; (try dsimp only); (repeat' split) <;> simp
@[simp] theorem completeWid_cs (i : Nat) (st : Status) (r : Nat) (s : State) (fr : BitVec 16) : (completeWid i st r s fr).cs = s.cs := by unfold completeWid; (try dsimp only); (repeat' split) <;> simp
@[simp] theorem completeWid_trust (i : Nat) (st : Status) (r : Nat) (s : State) (fr : BitVec 16) : (completeWid i st r s fr).trust = s.trust := by unfold completeWid; (try dsimp only); (repeat' split) <;> simp
@[simp] theorem completeWid_free (i : Nat) (st : Status) (r : Nat) (s : State) (fr : BitVec 16) : (completeWid i st r s fr).free = s.free := by unfold completeWid; (try dsimp only); (repeat' split) <;> simp
@[simp] theorem completeWid_pending (i : Nat) (st : Status) (r : Nat) (s : State) (fr : BitVec 16) : (completeWid i st r s fr).pending = s.pending := by unfold completeWid; (try dsimp only); (repeat' split) <;> simp

/-! ## malformed changes at most: host, work, tt, ft, tn, out -/

@[simp] theorem malformed_fuses (w : Work) (c : Nat) (s : State) : (malformed w c s).fuses = s.fuses := by simp [malformed]
@[simp] theorem malformed_flash (w : Work) (c : Nat) (s : State) : (malformed w c s).flash = s.flash := by simp [malformed]
@[simp] theorem malformed_clk (w : Work) (c : Nat) (s : State) : (malformed w c s).clk = s.clk := by simp [malformed]
@[simp] theorem malformed_power (w : Work) (c : Nat) (s : State) : (malformed w c s).power = s.power := by simp [malformed]
@[simp] theorem malformed_boot (w : Work) (c : Nat) (s : State) : (malformed w c s).boot = s.boot := by simp [malformed]
@[simp] theorem malformed_nextWid (w : Work) (c : Nat) (s : State) : (malformed w c s).nextWid = s.nextWid := by simp [malformed]
@[simp] theorem malformed_img (w : Work) (c : Nat) (s : State) : (malformed w c s).img = s.img := by simp [malformed]
@[simp] theorem malformed_groves (w : Work) (c : Nat) (s : State) : (malformed w c s).groves = s.groves := by simp [malformed]
@[simp] theorem malformed_waybill (w : Work) (c : Nat) (s : State) : (malformed w c s).waybill = s.waybill := by simp [malformed]
@[simp] theorem malformed_mem (w : Work) (c : Nat) (s : State) : (malformed w c s).mem = s.mem := by simp [malformed]
@[simp] theorem malformed_sleeper (w : Work) (c : Nat) (s : State) : (malformed w c s).sleeper = s.sleeper := by simp [malformed]
@[simp] theorem malformed_ddr (w : Work) (c : Nat) (s : State) : (malformed w c s).ddr = s.ddr := by simp [malformed]
@[simp] theorem malformed_rail (w : Work) (c : Nat) (s : State) : (malformed w c s).rail = s.rail := by simp [malformed]
@[simp] theorem malformed_rc (w : Work) (c : Nat) (s : State) : (malformed w c s).rc = s.rc := by simp [malformed]
@[simp] theorem malformed_ho (w : Work) (c : Nat) (s : State) : (malformed w c s).ho = s.ho := by simp [malformed]
@[simp] theorem malformed_cs (w : Work) (c : Nat) (s : State) : (malformed w c s).cs = s.cs := by simp [malformed]
@[simp] theorem malformed_trust (w : Work) (c : Nat) (s : State) : (malformed w c s).trust = s.trust := by simp [malformed]
@[simp] theorem malformed_free (w : Work) (c : Nat) (s : State) : (malformed w c s).free = s.free := by simp [malformed]
@[simp] theorem malformed_pending (w : Work) (c : Nat) (s : State) : (malformed w c s).pending = s.pending := by simp [malformed]

/-! ## malformedFree changes at most: host, work, tt, ft, tn, free, out -/

@[simp] theorem malformedFree_fuses (w : Work) (s : State) : (malformedFree w s).fuses = s.fuses := by simp [malformedFree]
@[simp] theorem malformedFree_flash (w : Work) (s : State) : (malformedFree w s).flash = s.flash := by simp [malformedFree]
@[simp] theorem malformedFree_clk (w : Work) (s : State) : (malformedFree w s).clk = s.clk := by simp [malformedFree]
@[simp] theorem malformedFree_power (w : Work) (s : State) : (malformedFree w s).power = s.power := by simp [malformedFree]
@[simp] theorem malformedFree_boot (w : Work) (s : State) : (malformedFree w s).boot = s.boot := by simp [malformedFree]
@[simp] theorem malformedFree_nextWid (w : Work) (s : State) : (malformedFree w s).nextWid = s.nextWid := by simp [malformedFree]
@[simp] theorem malformedFree_img (w : Work) (s : State) : (malformedFree w s).img = s.img := by simp [malformedFree]
@[simp] theorem malformedFree_groves (w : Work) (s : State) : (malformedFree w s).groves = s.groves := by simp [malformedFree]
@[simp] theorem malformedFree_waybill (w : Work) (s : State) : (malformedFree w s).waybill = s.waybill := by simp [malformedFree]
@[simp] theorem malformedFree_mem (w : Work) (s : State) : (malformedFree w s).mem = s.mem := by simp [malformedFree]
@[simp] theorem malformedFree_sleeper (w : Work) (s : State) : (malformedFree w s).sleeper = s.sleeper := by simp [malformedFree]
@[simp] theorem malformedFree_ddr (w : Work) (s : State) : (malformedFree w s).ddr = s.ddr := by simp [malformedFree]
@[simp] theorem malformedFree_rail (w : Work) (s : State) : (malformedFree w s).rail = s.rail := by simp [malformedFree]
@[simp] theorem malformedFree_rc (w : Work) (s : State) : (malformedFree w s).rc = s.rc := by simp [malformedFree]
@[simp] theorem malformedFree_ho (w : Work) (s : State) : (malformedFree w s).ho = s.ho := by simp [malformedFree]
@[simp] theorem malformedFree_cs (w : Work) (s : State) : (malformedFree w s).cs = s.cs := by simp [malformedFree]
@[simp] theorem malformedFree_trust (w : Work) (s : State) : (malformedFree w s).trust = s.trust := by simp [malformedFree]
@[simp] theorem malformedFree_pending (w : Work) (s : State) : (malformedFree w s).pending = s.pending := by simp [malformedFree]

/-! ## requestPoss changes at most: host, ft, out -/

@[simp] theorem requestPoss_fuses (a : Byte) (d : BitVec 22) (arg : Nat) (s : State) : (requestPoss a d arg s).fuses = s.fuses := by unfold requestPoss; (try dsimp only); (repeat' split) <;> simp
@[simp] theorem requestPoss_flash (a : Byte) (d : BitVec 22) (arg : Nat) (s : State) : (requestPoss a d arg s).flash = s.flash := by unfold requestPoss; (try dsimp only); (repeat' split) <;> simp
@[simp] theorem requestPoss_clk (a : Byte) (d : BitVec 22) (arg : Nat) (s : State) : (requestPoss a d arg s).clk = s.clk := by unfold requestPoss; (try dsimp only); (repeat' split) <;> simp
@[simp] theorem requestPoss_power (a : Byte) (d : BitVec 22) (arg : Nat) (s : State) : (requestPoss a d arg s).power = s.power := by unfold requestPoss; (try dsimp only); (repeat' split) <;> simp
@[simp] theorem requestPoss_boot (a : Byte) (d : BitVec 22) (arg : Nat) (s : State) : (requestPoss a d arg s).boot = s.boot := by unfold requestPoss; (try dsimp only); (repeat' split) <;> simp
@[simp] theorem requestPoss_work (a : Byte) (d : BitVec 22) (arg : Nat) (s : State) : (requestPoss a d arg s).work = s.work := by unfold requestPoss; (try dsimp only); (repeat' split) <;> simp
@[simp] theorem requestPoss_nextWid (a : Byte) (d : BitVec 22) (arg : Nat) (s : State) : (requestPoss a d arg s).nextWid = s.nextWid := by unfold requestPoss; (try dsimp only); (repeat' split) <;> simp
@[simp] theorem requestPoss_img (a : Byte) (d : BitVec 22) (arg : Nat) (s : State) : (requestPoss a d arg s).img = s.img := by unfold requestPoss; (try dsimp only); (repeat' split) <;> simp
@[simp] theorem requestPoss_groves (a : Byte) (d : BitVec 22) (arg : Nat) (s : State) : (requestPoss a d arg s).groves = s.groves := by unfold requestPoss; (try dsimp only); (repeat' split) <;> simp
@[simp] theorem requestPoss_waybill (a : Byte) (d : BitVec 22) (arg : Nat) (s : State) : (requestPoss a d arg s).waybill = s.waybill := by unfold requestPoss; (try dsimp only); (repeat' split) <;> simp
@[simp] theorem requestPoss_mem (a : Byte) (d : BitVec 22) (arg : Nat) (s : State) : (requestPoss a d arg s).mem = s.mem := by unfold requestPoss; (try dsimp only); (repeat' split) <;> simp
@[simp] theorem requestPoss_sleeper (a : Byte) (d : BitVec 22) (arg : Nat) (s : State) : (requestPoss a d arg s).sleeper = s.sleeper := by unfold requestPoss; (try dsimp only); (repeat' split) <;> simp
@[simp] theorem requestPoss_tt (a : Byte) (d : BitVec 22) (arg : Nat) (s : State) : (requestPoss a d arg s).tt = s.tt := by unfold requestPoss; (try dsimp only); (repeat' split) <;> simp
@[simp] theorem requestPoss_ddr (a : Byte) (d : BitVec 22) (arg : Nat) (s : State) : (requestPoss a d arg s).ddr = s.ddr := by unfold requestPoss; (try dsimp only); (repeat' split) <;> simp
@[simp] theorem requestPoss_rail (a : Byte) (d : BitVec 22) (arg : Nat) (s : State) : (requestPoss a d arg s).rail = s.rail := by unfold requestPoss; (try dsimp only); (repeat' split) <;> simp
@[simp] theorem requestPoss_rc (a : Byte) (d : BitVec 22) (arg : Nat) (s : State) : (requestPoss a d arg s).rc = s.rc := by unfold requestPoss; (try dsimp only); (repeat' split) <;> simp
@[simp] theorem requestPoss_ho (a : Byte) (d : BitVec 22) (arg : Nat) (s : State) : (requestPoss a d arg s).ho = s.ho := by unfold requestPoss; (try dsimp only); (repeat' split) <;> simp
@[simp] theorem requestPoss_cs (a : Byte) (d : BitVec 22) (arg : Nat) (s : State) : (requestPoss a d arg s).cs = s.cs := by unfold requestPoss; (try dsimp only); (repeat' split) <;> simp
@[simp] theorem requestPoss_tn (a : Byte) (d : BitVec 22) (arg : Nat) (s : State) : (requestPoss a d arg s).tn = s.tn := by unfold requestPoss; (try dsimp only); (repeat' split) <;> simp
@[simp] theorem requestPoss_trust (a : Byte) (d : BitVec 22) (arg : Nat) (s : State) : (requestPoss a d arg s).trust = s.trust := by unfold requestPoss; (try dsimp only); (repeat' split) <;> simp
@[simp] theorem requestPoss_free (a : Byte) (d : BitVec 22) (arg : Nat) (s : State) : (requestPoss a d arg s).free = s.free := by unfold requestPoss; (try dsimp only); (repeat' split) <;> simp
@[simp] theorem requestPoss_pending (a : Byte) (d : BitVec 22) (arg : Nat) (s : State) : (requestPoss a d arg s).pending = s.pending := by unfold requestPoss; (try dsimp only); (repeat' split) <;> simp

/-! ## releasePoss changes at most: ft -/

@[simp] theorem releasePoss_fuses (a : Byte) (arg : Nat) (s : State) : (releasePoss a arg s).fuses = s.fuses := rfl
@[simp] theorem releasePoss_flash (a : Byte) (arg : Nat) (s : State) : (releasePoss a arg s).flash = s.flash := rfl
@[simp] theorem releasePoss_clk (a : Byte) (arg : Nat) (s : State) : (releasePoss a arg s).clk = s.clk := rfl
@[simp] theorem releasePoss_power (a : Byte) (arg : Nat) (s : State) : (releasePoss a arg s).power = s.power := rfl
@[simp] theorem releasePoss_boot (a : Byte) (arg : Nat) (s : State) : (releasePoss a arg s).boot = s.boot := rfl
@[simp] theorem releasePoss_host (a : Byte) (arg : Nat) (s : State) : (releasePoss a arg s).host = s.host := rfl
@[simp] theorem releasePoss_work (a : Byte) (arg : Nat) (s : State) : (releasePoss a arg s).work = s.work := rfl
@[simp] theorem releasePoss_nextWid (a : Byte) (arg : Nat) (s : State) : (releasePoss a arg s).nextWid = s.nextWid := rfl
@[simp] theorem releasePoss_img (a : Byte) (arg : Nat) (s : State) : (releasePoss a arg s).img = s.img := rfl
@[simp] theorem releasePoss_groves (a : Byte) (arg : Nat) (s : State) : (releasePoss a arg s).groves = s.groves := rfl
@[simp] theorem releasePoss_waybill (a : Byte) (arg : Nat) (s : State) : (releasePoss a arg s).waybill = s.waybill := rfl
@[simp] theorem releasePoss_mem (a : Byte) (arg : Nat) (s : State) : (releasePoss a arg s).mem = s.mem := rfl
@[simp] theorem releasePoss_sleeper (a : Byte) (arg : Nat) (s : State) : (releasePoss a arg s).sleeper = s.sleeper := rfl
@[simp] theorem releasePoss_tt (a : Byte) (arg : Nat) (s : State) : (releasePoss a arg s).tt = s.tt := rfl
@[simp] theorem releasePoss_ddr (a : Byte) (arg : Nat) (s : State) : (releasePoss a arg s).ddr = s.ddr := rfl
@[simp] theorem releasePoss_rail (a : Byte) (arg : Nat) (s : State) : (releasePoss a arg s).rail = s.rail := rfl
@[simp] theorem releasePoss_rc (a : Byte) (arg : Nat) (s : State) : (releasePoss a arg s).rc = s.rc := rfl
@[simp] theorem releasePoss_ho (a : Byte) (arg : Nat) (s : State) : (releasePoss a arg s).ho = s.ho := rfl
@[simp] theorem releasePoss_cs (a : Byte) (arg : Nat) (s : State) : (releasePoss a arg s).cs = s.cs := rfl
@[simp] theorem releasePoss_tn (a : Byte) (arg : Nat) (s : State) : (releasePoss a arg s).tn = s.tn := rfl
@[simp] theorem releasePoss_trust (a : Byte) (arg : Nat) (s : State) : (releasePoss a arg s).trust = s.trust := rfl
@[simp] theorem releasePoss_free (a : Byte) (arg : Nat) (s : State) : (releasePoss a arg s).free = s.free := rfl
@[simp] theorem releasePoss_out (a : Byte) (arg : Nat) (s : State) : (releasePoss a arg s).out = s.out := rfl
@[simp] theorem releasePoss_pending (a : Byte) (arg : Nat) (s : State) : (releasePoss a arg s).pending = s.pending := rfl

/-! ## holdAll changes at most: ft -/

@[simp] theorem holdAll_fuses (a : Byte) (s : State) : (holdAll a s).fuses = s.fuses := rfl
@[simp] theorem holdAll_flash (a : Byte) (s : State) : (holdAll a s).flash = s.flash := rfl
@[simp] theorem holdAll_clk (a : Byte) (s : State) : (holdAll a s).clk = s.clk := rfl
@[simp] theorem holdAll_power (a : Byte) (s : State) : (holdAll a s).power = s.power := rfl
@[simp] theorem holdAll_boot (a : Byte) (s : State) : (holdAll a s).boot = s.boot := rfl
@[simp] theorem holdAll_host (a : Byte) (s : State) : (holdAll a s).host = s.host := rfl
@[simp] theorem holdAll_work (a : Byte) (s : State) : (holdAll a s).work = s.work := rfl
@[simp] theorem holdAll_nextWid (a : Byte) (s : State) : (holdAll a s).nextWid = s.nextWid := rfl
@[simp] theorem holdAll_img (a : Byte) (s : State) : (holdAll a s).img = s.img := rfl
@[simp] theorem holdAll_groves (a : Byte) (s : State) : (holdAll a s).groves = s.groves := rfl
@[simp] theorem holdAll_waybill (a : Byte) (s : State) : (holdAll a s).waybill = s.waybill := rfl
@[simp] theorem holdAll_mem (a : Byte) (s : State) : (holdAll a s).mem = s.mem := rfl
@[simp] theorem holdAll_sleeper (a : Byte) (s : State) : (holdAll a s).sleeper = s.sleeper := rfl
@[simp] theorem holdAll_tt (a : Byte) (s : State) : (holdAll a s).tt = s.tt := rfl
@[simp] theorem holdAll_ddr (a : Byte) (s : State) : (holdAll a s).ddr = s.ddr := rfl
@[simp] theorem holdAll_rail (a : Byte) (s : State) : (holdAll a s).rail = s.rail := rfl
@[simp] theorem holdAll_rc (a : Byte) (s : State) : (holdAll a s).rc = s.rc := rfl
@[simp] theorem holdAll_ho (a : Byte) (s : State) : (holdAll a s).ho = s.ho := rfl
@[simp] theorem holdAll_cs (a : Byte) (s : State) : (holdAll a s).cs = s.cs := rfl
@[simp] theorem holdAll_tn (a : Byte) (s : State) : (holdAll a s).tn = s.tn := rfl
@[simp] theorem holdAll_trust (a : Byte) (s : State) : (holdAll a s).trust = s.trust := rfl
@[simp] theorem holdAll_free (a : Byte) (s : State) : (holdAll a s).free = s.free := rfl
@[simp] theorem holdAll_out (a : Byte) (s : State) : (holdAll a s).out = s.out := rfl
@[simp] theorem holdAll_pending (a : Byte) (s : State) : (holdAll a s).pending = s.pending := rfl

/-! ## Completing, and the list of work -/

/-- A completed descriptor has left the device, and every other is as it was. -/
theorem complete_work (w : Work) (st : Status) (r : Nat) (s : State) (fr : BitVec 16) :
    (complete w st r s fr).work = s.work.filter (fun x => x.wid != w.wid) := by
  unfold complete
  dsimp only
  rw [settleDisable_work, closeFor_work]
  split
  · rw [settleRing_work]
    (repeat' split) <;> simp
  · simp

/-- Its number names no descriptor any more. -/
theorem complete_item (w : Work) (st : Status) (r : Nat) (s : State) (fr : BitVec 16) : (complete w st r s fr).item w.wid = none := by
  simp [State.item, complete_work, List.find?_eq_none]

end Sys2Proof.Machine
end

