-- ==== Sys2Proof/Tests/Slice0.lean ====
section
/-! SUPPORT. Tests: commands that `Instr.wellFormed` refuses, the worked examples of the spec (each test names its chapter), and for every
statement with hypotheses a concrete state and operands that meet them, clause by clause (`witness_<statement>`). -/

namespace Sys2Proof.Tests

set_option Elab.async false

open Sys2Proof.Machine

/-- A descriptor from its fields: byte, width in bits, value. -/
def desc (l : List (Nat × Nat × Nat)) : Descriptor := BitVec.ofNat 512 (packFields (l.map (fun x => (x.2.2, x.2.1, 8 * x.1))))

/-- The regions of the test image, all of partition 0: work memory the host sees, key-value pages, state, an index. -/
def work0 : Region := { id := 0, kind := 2, flags := 1, part := 0, grove := 0, stackSel := 1, offset := 0, size := 2097152 }
def pages1 : Region := { id := 1, kind := 1, flags := 0, part := 0, grove := 0, stackSel := 1, offset := 2097152, size := 2097152 }
def state2 : Region := { id := 2, kind := 3, flags := 0, part := 0, grove := 1, stackSel := 3, offset := 0, size := 4194304 }
def index3 : Region := { id := 3, kind := 5, flags := 0, part := 0, grove := 2, stackSel := 1, offset := 0, size := 2097152 }

/-- A test image: a GENERATION node with one partition of the four Groves. -/
def image : Image :=
  { role := .generation, parts := [{ groves := 0x0F, share := 0, units := 0, classes := 0xFF }], fixed := false, duties := [],
    regions := [work0, pages1, state2, index3], ttEntries := [], ttSplit := [], pfMin := [], pfCap := [], lanterns := 0xFF,
    lanternCfg := [], onFail := false, recompute := 2, xcheckK := 16, waybillN := 0, formats := 0xFFFF, srFormats := 0, overrides := [],
    firmware := [], imageId := 7, digest := 0, tool := 0 }

/-- A device that is READY with the test image in force, its host link up in a CXL 2.0 mode, with one Stand of each duty. -/
def rdy : State :=
  { State.reset with
    clk := { pllLock := true, ac := 1000, sc := 17500 }
    power := { supplies := true, perstLow := false }
    boot := { stage := .ready }
    host := { mode := .cxl2 }
    img := { image := some image, st := .active }
    groves := { stands := [(0, { physical := some 0 }), (1, { physical := some 1, duty := 1 }), (2, { physical := some 2, duty := 2 })] }
    ft := { held := [] }
    tn := { parts := [(0, 2)], ctx := [(0, { valid := true, part := 0, tenant := 1 })] } }

/-- A descriptor of ring 0 in flight, of tenant 1 in partition 0. -/
def wk (op : Byte) (body : Descriptor := 0) (prog : Prog := .waiting) : Work :=
  { wid := 5, src := .ring 0 0, fn := 0, tag := 9, opcode := op, context := 0, fence := false, irq := false, silent := false, body,
    fetchSc := 0, tenant := 1, part := 0, prog }

/-- The ready device with work in flight. -/
def dev (ws : List Work) : State := { rdy with work := ws }

/-- A matrix operation of one row, one column and K of 4: INT8 operands, a raw INT32 result. -/
def matBody (m : Nat) : Descriptor :=
  desc [(8, 8, 0x66), (9, 8, 0x10), (12, 32, m), (16, 32, 1), (20, 32, 4), (24, 64, 0), (32, 64, 65536), (40, 64, 131072)]

/-- An addition of `n` BF16 values. -/
def vecBody (n : Nat) : Descriptor := desc [(9, 8, 0x77), (12, 32, n), (16, 64, 0), (24, 64, 65536), (40, 64, 131072)]

/-- A live list of tenant 1 in page 0 of region 1: one layer, one head, 64 FP8 elements a token, its first entry `ent`. -/
def listHdr (commit frozen pages : Nat) : ListHdr :=
  { region := pages1, off := 0, commit, frozen, pages, chunks := 1, layers := 1, kvHeads := 1, geometry := 0x40, pool := 1, tenant := 1,
    st := 1, next := noRef, tail := mkRef 1 0 }

/-- HBM that holds that list, with `layer` as its layer's COMMIT. -/
def listMem (commit frozen pages ent layer : Nat) : List Host.Cell :=
  regionPut pages1 4096 (leBytes 8 ent) (regionPut pages1 64 (leBytes 4 layer) (regionPut pages1 0
    (leBytes 4 commit ++ leBytes 4 frozen ++ leBytes 4 pages ++ leBytes 4 1 ++ leBytes 2 1 ++ [1, 0x40, 1, 1, 1, 0] ++ leBytes 8 noRef ++
      leBytes 8 (mkRef 1 0)) []))

/-- HBM that also holds a sequence record naming the list at the start of region 0. -/
def seqMem (m : List Host.Cell) (length : Nat) : List Host.Cell :=
  regionPut work0 32 (leBytes 8 (3 * 2 ^ 56)) (regionPut work0 0 (leBytes 8 (mkRef 1 0) ++ leBytes 4 length ++ leBytes 4 0 ++ leBytes 4 1) m)

/-- The ready device with work in flight over an HBM image, page 0 of region 1 taken, and one DDR5 region of two units. -/
def kvDev (m : List Host.Cell) (ws : List Work) (st : DdrState := .sealed) : State :=
  { dev ws with
    mem := { hbm := m, pools := [(1, { used := [0] })] }
    ddr := { channels := 4, units := 4, regions := [(0, { st, tenant := 1, units := 2, map := [0, 1] })] } }

/-- A waybill record. -/
def rec1 : WbRec :=
  { seq := 1, kind := 0x20, context := 0, tenant := 1, status := .ok, signed := false, sealed := false, tiles := 1, recomputed := 0,
    xchecked := 0, failed := 0, unchecked := 0, xk := 16, onFail := false, stepSc := 0, inputDig := 1, outputDig := 2, prevLink := 0,
    link := 3, leaves := [], leavesGone := false, consumed := false }
def sign1 (wids : List Nat) : SignReq := { part := 0, chain := 0, seq := 1, reason := 1, link := 3, image := 0, nonce := 0, wids, ac := 0 }



/-- A unsealed or sealed DDR5 region of tenant 1. -/
def ddrReg (st : DdrState) (units : Nat) : DdrRegion := { st, tenant := 1, units, map := List.range units }
/-- The ready device with work in flight, four DDR5 units and the regions named. -/
def tierDev (regs : Tab DdrRegion) (ws : List Work) (cap : TenantCap := {}) : State :=
  { dev ws with ddr := { channels := 4, units := 4, regions := regs, tenants := [(1, cap)] } }
/-- A block of 64 zeros. -/
def zeroBlk : Block := codeBlock 0 0 0 (fun _ => []) (List.replicate 64 0) []
/-- A read of place 0 of region 0 for block 0 of work 5. -/
def read0 (arrived : Option Block) : BlockRead :=
  { rid := 3, part := 0, tenant := 1, forw := { wid := 5, block := 0 }, remote := false, region := 0, place := 0, arrived }
def readDev (w : List Work) (arrived : Option Block) (reads : List BlockRead := [read0 arrived]) : State :=
  { tierDev [(0, ddrReg .sealed 1)] w with sleeper := { reads := reads, nextId := 4 } }


/-- Weights of the test image, and the image with four Timetable entries on each Station. -/
def weights4 : Region := { id := 4, kind := 0, flags := 0, part := 0, grove := 3, stackSel := 1, offset := 0, size := 2097152 }
def ttImage : Image := { image with regions := image.regions ++ [weights4], ttSplit := [[4, 4]] }
/-- A Timetable setting: one layer of one head, 100 tokens. -/
def tt0 : TtRegs := { layers := 1, kvHeads := 1, geometry := 0x40, pool := 1, vocab := 100 }
/-- A step program of two tile operations. -/
def tileEnt : Descriptor × Byte := (matBody 1 ||| 0x20, 0)
def prog0 : StepProg :=
  { entries := [tileEnt, tileEnt], embedRow := 0, embed := BitVec.ofNat 64 (4 * 2 ^ 48), stepRef := 0, x := 0, logits := 0, context := 0, tenant := 1, fn := 0 }
/-- A sampling block at 4096 of region 0: TOP_P 1.0, REPETITION 1.0. -/
def sampleMem (m : List Host.Cell) : List Host.Cell := regionPut work0 4100 (leBytes 4 0x3F800000) (regionPut work0 4108 (leBytes 4 0x3F800000) m)
/-- The ready device with a Timetable, its entries, its races and its steps. -/
def ttDev (es : Tab Entry) (ws : List Work) (steps : Tab (Option Step) := []) (races : Tab Race := []) (m : List Host.Cell := []) : State :=
  { dev ws with
    img := { image := some ttImage, st := .active }
    mem := { hbm := m, pools := [(1, { used := [0] })] }
    tt := { entries := es, regs := [(0, tt0)], progs := [(0, some prog0)], steps, races } }
/-- An entry of tenant 1 with request 7. -/
def ent (st : TtState) (node : Nat := 0) : Entry :=
  { st, tenant := 1, reqId := 7, promptLen := 4, genMax := 4, specNodes := 1, budget := BitVec.allOnes 64, tally := 65536, sampling := 4096, node }
/-- A RACE or handoff control message about request 7. -/
def msg (ctype : Byte) (sEntry : Nat) (rEntry : Option Nat) (body : CtlBody) (origin : Nat := 0) (epoch : W32 := 0) : Ctl :=
  { ctype, sEntry, rEntry, status := 0, reason := 0, reqId := 7, epoch, origin, body }
/-- An entry block as the host writes it. -/
def eblk : EntryBlock :=
  BitVec.ofNat 1024 (packFields [(7, 64, 64), (0, 12, 176), (4, 32, 224), (4, 32, 352), (2 ^ 64 - 1, 64, 512), (0, 64, 640), (65536, 64, 704),
    (4096, 64, 768), (1, 7, 840)])

/-- A frame of a type and of a version, for node 3. -/
def fr (typ version : BitVec 4) (payload : Payload := .none) (fseq ackSeq : W32 := 0) (dst : Nat := 3) (hops : Nat := 8) : Frame :=
  { typ, version, dst, src := 2, len := 64, hops, fseq, ackSeq, payload }
/-- A packet for connection `dstConn` from connection 4095 of the peer. -/
def pkt (op : BitVec 4) (dstConn : Nat) (data : List Byte := []) (mlen : W32 := 0) (rkey : W32 := 0) (raddr : Nat := 0) (ctl : Option Ctl := none) : Packet :=
  { op, last := true, dstConn, srcConn := 4095, srcInc := 5, dstInc := 9, mlen, rkey, raddr, data, ctl }
/-- The ready device as node 3 with one link and, by default, no connection. -/
def railDev (n l : Nat) (k : Link) (lanes : Tab Lane := []) (rc : RailConns := { conns := [(0, mgmtConn)] }) (ws : List Work := []) : State :=
  { dev ws with
    rail := { nodeSet := true, nodeId := 3, inc := 9, lanterns := [(n, { links := [(l, k)], lanes })], routes := [(8, { valid := true, lantern := n, link := l })] }
    rc }
/-- A sent frame, resent `r` times. -/
def sent (fseq : W32) (r : Nat) : TxFrame := { q := { frame := fr 1 3 .none fseq }, resends := r }
/-- An open connection of tenant 1 with node 2. -/
def conn1 (st : ConnSt := .opened) : Conn :=
  { st, paths := 1, peerNode := 2, tenant := 1, peerConn := 4095, peerInc := 5, txUnits := 2, rxUnits := 2, peerRx := 2 }
/-- A region slot of all rights over region 0. -/
def slot1 : RegSlot := { st := .registered, rights := 7, tenant := 1, regionId := 0, gen := 1, length := 2097152 }

/-- Node 3 that watches node 127 alone. -/
def onePeer (misses : Nat) : State :=
  { railDev 7 0 { st := .up } with
    rail := { (railDev 7 0 { st := .up }).rail with watch := [(3, 0x80000000)], peers := [(127, { inc := 5, st := .suspect, misses })] } }
theorem watched_onePeer (n : Nat) : ∀ k, watched k (onePeer n) = decide (k = 127) := by
  intro k
  by_cases h : k < 128
  · exact (by decide +kernel : ∀ k < 128, watched k (onePeer 0) = decide (k = 127)) k h
  · have h' : ¬ 3 = k / 32 := by omega
    have h'' : ¬ k = 127 := by omega
    simp [watched, onePeer, tget, h', h'']

/-- Node 3 with a Timetable, a connection that carries handoffs, and Platform units. -/
def hoImage : Image := { ttImage with pfCap := [[504], [504, 504]], pfMin := [[8], [8, 8]] }
def hoConn : Conn := { conn1 with service := 0x484F0000 }
def hoDev (es : Tab Entry) (i : Image := hoImage) (ho : Handoff := {}) (ws : List Work := []) : State :=
  { ttDev es ws [] [] (listMem 0 0 0 0 0) with
    img := { image := some i, st := .active }
    rail := { nodeSet := true, nodeId := 3, inc := 9, peers := [(2, { inc := 5, st := .alive })] }
    rc := { conns := [(0, mgmtConn), (4095, hoConn)] }
    ho := { ho with tally := [(0, { base := 65536, count := 1 })] } }
def cacheImg : Image := { hoImage with role := .cache }
/-- An entry whose handoff the sender or the receiver runs. -/
def outEnt (x : Sender) : Entry := { ent .handoffOut 2 with ret := .decode, list := 2 ^ 48, snd := some x }
def inEnt (x : Receiver) : Entry := { ent .handoffIn with rcv := some { x with conn := 4095 } }
/-- An offer that the test Timetable takes. -/
def offer1 : Offer :=
  { promptLen := 4, prefilled := 4, length := 0, genCount := 1, genMax := 4, priority := 0, deadlineKind := false, met := false, turnEnded := false,
    tenant := 1, layers := 1, kvHeads := 1, geometry := 0x40, specHeads := 0, items := 7, hbmPages := 0, remoteSlots := 0, refItems := 0,
    budget := BitVec.allOnes 64 }

/-- The ready device with an index of four nodes of four FP8 values in region 3, three entry points, and work in flight. -/
def idxMem : List Host.Cell :=
  regionPut index3 0 (List.replicate 6 0 ++ [4, 0] ++ leBytes 2 4 ++ [1, 1] ++ leBytes 4 4 ++ leBytes 8 4096 ++ leBytes 8 8192 ++ leBytes 8 12288 ++
    leBytes 8 16384) []
def csDev (ws : List Work) (st : IdxSt := .ready) (poison : List Nat := []) : State :=
  { dev ws with
    mem := { hbm := idxMem, poison := poison.map (fun l => (l, true)) }
    cs := { index := [(3, { st, nodes := 4 })] } }
/-- A manifest of SVN `svn`. -/
def man (svn : Nat) : Manifest :=
  { svn, revoke := 0, flags := 1, signers := [], versions := [], lengths := [], digests := [], debugKey := 0, digest := 0 }



/-- Where one submission ring is set up, no other has a descriptor to fetch. -/
theorem newPositions_alone {s : State} {n : Nat} {q : Sq} (h : s.host.sqs = [(n, q)]) : ∀ m, m ≠ n → newPositions m s = 0 := by
  intro m hm
  have : s.sq m = {} := by simp [State.sq, h, tget, Ne.symm hm]
  simp [newPositions, this]

/-- A signature block over `rec1`. -/
def sig1 : WbSig := { seq := 1, reason := 1, image := 0, link := 3, nonce := 0, chain := 0, signedAc := 0, sig := 0 }
/-- The device whose region 0 holds the block of zeros at place 0: its record chunk, with its MAC. -/
def recBytes0 : List Byte := leBytes 16 zeroBlk.record.toNat ++ List.replicate 496 0
def writtenDev : State := writeChunk 0 4080 recBytes0 (readDev [] none)
theorem recBytes0_length : recBytes0.length = 512 := by decide +kernel
theorem placeCheck_written : placeCheck writtenDev 0 0 {} = .ok zeroBlk := by
  have hr : writtenDev.ddrRegion 0 = (readDev [] none).ddrRegion 0 := rfl
  have hc : recordChunk (writtenDev.ddrRegion 0) 0 = (4080, 0) := by decide +kernel
  have hg : tget writtenDev.ddr.chunks 4080 {} = { bytes := recBytes0, mac := chunkMac 0 ((readDev [] none).ddrRegion 0) 4080 recBytes0 } := by
    show tget (tput (readDev [] none).ddr.chunks 4080 { bytes := recBytes0, mac := chunkMac 0 ((readDev [] none).ddrRegion 0) 4080 recBytes0 } {})
      4080 {} = _
    exact tget_tput_same _ _ _ _
  have h1 : checkedChunk 0 (writtenDev.ddrRegion 0) 4080 512 (cameBack writtenDev 4080 8 {}) = some recBytes0 := by
    have : cameBack writtenDev 4080 8 {} = tget writtenDev.ddr.chunks 4080 {} := rfl
    rw [this, hg, hr]
    simp [checkedChunk, List.take_of_length_le, recBytes0_length]
  have h2 : BitVec.ofNat 128 (ofBytes ((recBytes0.drop 0).take 16)) = zeroBlk.record := by decide +kernel
  have h3 : chunkLens (min 4096 (recStored zeroBlk.record)) = [] := by decide +kernel
  have h4 : zeroBlk = { record := zeroBlk.record, stored := [] } := by decide +kernel
  have h0 : ¬ ({} : DdrObs).uncorr > 0 := by decide
  rw [h4]
  simp only [placeCheck, h0, if_false, hc, h1, h2, h3, List.map_nil, List.any_nil, Bool.false_eq_true, List.flatMap_nil]

/-- A signed image of a GENERATION node with one partition: bytes as chapter 04 lays them out, signed by a key made for it. -/
def imgBytes : List Byte :=
  [67, 76, 89, 83, 1, 0, 128, 0, 56, 9, 0, 0, 8, 0, 2, 0, 7] ++ List.replicate 111 0 ++
  [1, 0, 1, 0, 0, 0, 0, 0, 0, 1, 0, 0, 40, 0, 0, 0, 2, 0, 1, 0, 0, 0, 0, 0, 40, 1, 0, 0, 128, 1, 0, 0] ++
  [3, 0, 1, 0, 0, 0, 0, 0, 168, 2, 0, 0, 40, 0, 0, 0, 4, 0, 1, 0, 0, 0, 0, 0, 208, 2, 0, 0, 160, 0, 0, 0] ++
  [5, 0, 1, 0, 0, 0, 0, 0, 112, 3, 0, 0, 8, 4, 0, 0, 6, 0, 1, 0, 0, 0, 0, 0, 120, 7, 0, 0, 16, 0, 0, 0] ++
  [7, 0, 1, 0, 0, 0, 0, 0, 136, 7, 0, 0, 8, 0, 0, 0, 9, 0, 1, 0, 0, 0, 0, 0, 144, 7, 0, 0, 168, 0, 0, 0] ++
  [1, 1, 0, 0, 0, 0, 0, 0, 15, 0, 0, 0, 255] ++ List.replicate 27 0 ++ [1, 1] ++ List.replicate 94 0 ++ [1, 1] ++ List.replicate 94 0 ++
  [1, 1] ++ List.replicate 94 0 ++ [1, 1] ++ List.replicate 94 0 ++ [1] ++ List.replicate 9 0 ++ [1, 0, 0, 0, 1] ++
  List.replicate 11 0 ++ [32] ++ List.replicate 14 0 ++ [2, 0, 2, 0, 2, 0, 2] ++ List.replicate 26 0 ++
  [248, 1, 0, 0, 248, 1, 0, 0, 248, 1, 0, 0, 248, 1, 0, 0, 248, 1, 0, 0, 248, 1, 0, 0, 248, 1, 0, 0, 248, 1] ++ List.replicate 34 0 ++
  [248, 1, 0, 0, 248, 1, 0, 0, 248, 1, 0, 0, 248, 1, 0, 0, 248, 1, 0, 0, 248, 1, 0, 0, 248, 1, 0, 0, 248, 1] ++ List.replicate 32 0 ++
  [1] ++ List.replicate 17 0 ++ [1] ++ List.replicate 11 0 ++ [1] ++ List.replicate 9 0 ++ [1, 0, 1] ++ List.replicate 9 0 ++
  [1, 0, 1] ++ List.replicate 9 0 ++ [1, 0, 1] ++ List.replicate 9 0 ++ [1, 0, 1] ++ List.replicate 9 0 ++ [1, 0, 1] ++
  List.replicate 9 0 ++ [1, 0, 1] ++ List.replicate 930 0 ++ [2, 4, 0, 16] ++ List.replicate 11 0 ++ [255, 7, 61] ++
  List.replicate 173 0 ++
  [76, 83, 73, 71, 0, 0, 0, 0, 192, 223, 62, 78, 98, 215, 253, 12, 96, 103, 83, 109, 197, 67, 233, 245, 197, 153, 70, 16, 18, 60, 70, 156] ++
  [240, 126, 9, 63, 168, 139, 54, 231, 166, 137, 25, 116, 52, 221, 137, 111, 87, 23, 122, 50, 231, 42, 27, 190, 218, 85, 206, 250, 114, 81, 199, 136] ++
  [126, 136, 13, 207, 69, 65, 163, 77, 174, 104, 0, 1, 118, 233, 119, 211, 139, 144, 131, 60, 7, 55, 10, 81, 146, 118, 94, 30, 236, 120, 192, 93] ++
  [239, 138, 83, 224, 235, 162, 102, 8, 57, 46, 252, 205, 141, 172, 213, 52, 230, 56, 46, 71, 77, 25, 198, 6, 95, 212, 89, 200, 204, 183, 117, 58] ++
  [85, 204, 72, 84, 112, 110, 210, 141, 77, 128, 33, 183, 72, 176, 98, 101, 68, 104, 159, 194, 178, 44, 17, 230, 57, 46, 252, 205, 141, 172, 213, 52] ++
  [230, 56, 46, 71, 77, 25, 198, 6, 95, 212, 89, 200, 204, 183, 117, 58, 85, 204, 72, 84, 112, 110, 210, 141, 77, 128, 33, 183, 72, 176, 98, 101] ++
  [68, 104, 159, 194, 178, 44, 17, 230] ++ List.replicate 56 0
def imgKey : Digest := 0xbe009117b21cde7eb7725a82e539915c3b88cd8548cdd86a4109792b9cd6934ed14f7a0c096d820967596078244d53eb
/-- A signed manifest of SVN 1 for three empty objects, as R735 lays it out. -/
def manBytes : List Byte :=
  [77, 78, 70, 84, 1, 0, 1] ++ List.replicate 57 0 ++ [1] ++ List.replicate 15 0 ++
  [56, 176, 96, 167, 81, 172, 150, 56, 76, 217, 50, 126, 177, 177, 227, 106, 33, 253, 183, 17, 20, 190, 7, 67, 76, 12, 199, 191, 99, 246, 225, 218] ++
  [39, 78, 222, 191, 231, 111, 101, 251, 213, 26, 210, 241, 72, 152, 185, 91, 1] ++ List.replicate 15 0 ++
  [56, 176, 96, 167, 81, 172, 150, 56, 76, 217, 50, 126, 177, 177, 227, 106, 33, 253, 183, 17, 20, 190, 7, 67, 76, 12, 199, 191, 99, 246, 225, 218] ++
  [39, 78, 222, 191, 231, 111, 101, 251, 213, 26, 210, 241, 72, 152, 185, 91, 1] ++ List.replicate 15 0 ++
  [56, 176, 96, 167, 81, 172, 150, 56, 76, 217, 50, 126, 177, 177, 227, 106, 33, 253, 183, 17, 20, 190, 7, 67, 76, 12, 199, 191, 99, 246, 225, 218] ++
  [39, 78, 222, 191, 231, 111, 101, 251, 213, 26, 210, 241, 72, 152, 185, 91] ++ List.replicate 512 0 ++
  [77, 83, 73, 71, 0, 0, 0, 0, 155, 176, 84, 5, 63, 40, 231, 163, 252, 186, 56, 111, 31, 187, 198, 90, 35, 220, 223, 60, 94, 54, 217, 178] ++
  [5, 12, 13, 114, 250, 14, 35, 113, 66, 199, 175, 61, 32, 77, 131, 172, 115, 70, 105, 112, 195, 153, 12, 119, 200, 246, 12, 216, 10, 4, 17, 51] ++
  [31, 127, 38, 78, 40, 172, 181, 140, 26, 226, 249, 216, 161, 154, 101, 52, 37, 146, 251, 151, 233, 111, 44, 187, 254, 183, 149, 170, 13, 143, 142, 69] ++
  [108, 116, 244, 255, 183, 140, 132, 71, 226, 21, 244, 11, 47, 107, 72, 171, 96, 142, 198, 149, 180, 152, 142, 77, 148, 236, 235, 151, 12, 172, 198, 217] ++
  [172, 50, 49, 27, 153, 110, 223, 30, 78, 23, 248, 32, 207, 159, 140, 27, 154, 180, 134, 248, 173, 220, 61, 42, 226, 21, 244, 11, 47, 107, 72, 171] ++
  [96, 142, 198, 149, 180, 152, 142, 77, 148, 236, 235, 151, 12, 172, 198, 217, 172, 50, 49, 27, 153, 110, 223, 30, 78, 23, 248, 32, 207, 159, 140, 27] ++
  [154, 180, 134, 248, 173, 220, 61, 42] ++ List.replicate 56 0
def manKey : Digest := 0x712e20ff1cfd8f18e3abdd72e59a1258def3f6d36828a12d8ce0543eed45ab4ab03b8f764e012c3505a4dc3cbb5e7513
/-- A debug challenge, the debug key and its signature over the challenge (R739). -/
def dbgChallenge : Digest := 1
def dbgKey : BitVec 768 := 0x961da93b0adc718c3f464e2b16b927a8c0e9a18a9c5bc5ea6c10d1ebf2e2492c02b91216a8053c42a8a0f01c751e4d295c8c6939948e009853e81f998ceff4d9acf2f6b5c7df434aea84e92698678fc3cb0bd7e574159c60a1b943dda81c9ac5
def dbgSig : BitVec 768 := 0xb289e5a2704dfa5c8a53289a29d7407cb99bc2e03582939fe8888b8ab37e8a674282368d162c29a053b1f8c4b2070609b289e5a2704dfa5c8a53289a29d7407cb99bc2e03582939fe8888b8ab37e8a674282368d162c29a053b1f8c4b2070609
def dbgDigest : Digest := 0x794112ae14ea5a1f12aee88b134afbd3b98c87258e852b018c3ea1ad5b0915eebc8216c15b3f2e41592507321c7a96df

/-- The test image passes every check of a device whose manifest names its signer (R127 to R160). -/
def imgDev : State := { State.reset with flash := { State.reset.flash with active := { State.reset.flash.active with signers := [imgKey] } } }
theorem imgDev_valid : validateImage imgDev imgBytes 2360 = none := by decide +kernel
theorem valid_img {s : State} (hg : s.fuses.grade = imgDev.fuses.grade) (hs : s.flash.active.signers = imgDev.flash.active.signers)
    {n : Nat} (hn : n = 2360) : validateImage s imgBytes n = none := by
  subst hn
  rw [show validateImage s imgBytes 2360 = validateImage imgDev imgBytes 2360 by simp only [validateImage, hg, hs]]
  exact imgDev_valid


/-! ## Commands that name nothing are refused by `Instr.wellFormed`, one for each check -/

theorem test_wf_fn : (Instr.tnCtxWrite 0 0).wellFormed = true ∧ (Instr.configRequest ⟨17, .read⟩).wellFormed = false := by decide +kernel
theorem test_wf_vf : (Instr.vfFlr 16).wellFormed = true ∧ (Instr.vfFlr 0).wellFormed = false ∧ (Instr.tnVfWrite 17 0).wellFormed = false ∧
    (Instr.vfEnableSet 17).wellFormed = false := by decide +kernel
theorem test_wf_ring : (Instr.sqEnable 0 127 0).wellFormed = true ∧ (Instr.sqEnable 0 128 0).wellFormed = false ∧
    (Instr.cqDisable 1 8 0).wellFormed = false ∧ (Instr.tailPoll 256).wellFormed = false := by decide +kernel
theorem test_wf_access : (Instr.registerWrite (.bar0 0) 0xFFFFFF8 64 0).wellFormed = true ∧ (Instr.registerWrite .i3c 0x10000000 32 0).wellFormed = false ∧
    (Instr.registerReadClear (.bar0 0) 4 24).wellFormed = false ∧ (Instr.ringConfigWrite 17 0 64 0).wellFormed = false := by decide +kernel
theorem test_wf_fetch : (Instr.descriptorReadReturn 0 (List.replicate 17 none)).wellFormed = false := by decide +kernel
theorem test_wf_grove : (Instr.groveIdleGate 3).wellFormed = true ∧ (Instr.groveWorkUngate 4).wellFormed = false ∧
    (Instr.throttleLower 4 .thermal).wellFormed = false ∧ (Instr.standRetireTilesCleared 3 100).wellFormed = false := by decide +kernel
theorem test_wf_sensor : (Instr.undervoltageTrip 17).wellFormed = false ∧
    (Instr.sensorSample [{ die := 17, powered := true, temp := 0, vmargin := 0, tmargin := 0 }]).wellFormed = false ∧
    (Instr.hostLinkUp { cxl := .none, rate := 80, width := 17 }).wellFormed = false := by decide +kernel
theorem test_wf_part : (Instr.stepStart 3).wellFormed = true ∧ (Instr.stepEnd 4).wellFormed = false ∧ (Instr.tenantSwitch 4 0).wellFormed = false := by
  decide +kernel
theorem test_wf_tenant : (Instr.retireDdrIndex 16).wellFormed = false ∧ (Instr.mtTenantWrite 16 true 0).wellFormed = false ∧
    (Instr.fabricSlotWrite 16 0).wellFormed = false := by decide +kernel
theorem test_wf_ctx : (Instr.contextSave 0 4096).wellFormed = false ∧ (Instr.semAcquire 0 16 0 0).wellFormed = false := by decide +kernel
theorem test_wf_entry : (Instr.budgetExpire 16383).wellFormed = true ∧ (Instr.budgetExpire 16384).wellFormed = false := by decide +kernel
theorem test_wf_conn : (Instr.helloResend 4096).wellFormed = false ∧ (Instr.offer 4096 (msg 1 0 none .none)).wellFormed = false := by decide +kernel
theorem test_wf_message : (Instr.raceJoin 127 (msg 0x20 16383 none (.race 1))).wellFormed = true ∧
    (Instr.raceJoin 128 (msg 0x20 0 none (.race 1))).wellFormed = false ∧ (Instr.raceJoin 0 (msg 0x20 16384 none (.race 1))).wellFormed = false ∧
    (Instr.raceJoin 0 (msg 0x20 0 (some 16384) (.race 1))).wellFormed = false ∧ (Instr.raceJoin 0 (msg 0x20 0 none (.race 1) 128)).wellFormed = false := by
  decide +kernel
theorem test_wf_link : (Instr.lightOn 7 1).wellFormed = true ∧ (Instr.lightOn 8 0).wellFormed = false ∧ (Instr.lightOn 0 2).wellFormed = false ∧
    (Instr.laneLoss 0 16).wellFormed = false ∧ (Instr.lnRetrain 8 0).wellFormed = false ∧ (Instr.lnWatchWrite 4 0).wellFormed = false := by decide +kernel
theorem test_wf_frame : (Instr.dataFrame 0 0 (fr 1 3) {}).wellFormed = true ∧ (Instr.dataFrame 0 0 (fr 1 3 .none 0 0 128) {}).wellFormed = false ∧
    (Instr.dataFrame 0 0 (fr 1 3 .none 0 0 0 256) {}).wellFormed = false ∧ (Instr.ackFrame 0 0 { fr 2 3 with cls := 8 } {}).wellFormed = false ∧
    (Instr.nakFrame 0 0 { fr 3 3 with len := 4097 } {}).wellFormed = false := by decide +kernel
theorem test_wf_obs : (Instr.tileComplete 0 0 { cells := [{ row := 127, col := 127, value := 0 }] }).wellFormed = true ∧
    (Instr.tileComplete 0 0 { cells := [{ row := 128, col := 0, value := 0 }] }).wellFormed = false ∧
    (Instr.tileComplete 0 0 { lines := [{ col := true, second := false, idx := 128, value := 0 }] }).wellFormed = false ∧
    (Instr.vectorChunkComplete 0 0 { sramBad := some { canopy := some 4, word := 0 } }).wellFormed = false ∧
    (Instr.distanceBatchComplete 0 { hbm := { bad := some 0x8000000000 } }).wellFormed = false ∧
    (Instr.ddr5ReadReturn 0 { changed := [(9, {})] }).wellFormed = false ∧
    (Instr.opticalSample 0 [{ lane := 16, rx := 0, tx := 0, symCorr := 0, locked := true }]).wellFormed = false := by decide +kernel
theorem test_wf_firmware : (Instr.firmwareSetWrite [] []).wellFormed = false := by decide +kernel
theorem test_wf_unit : (Instr.dieLinkFailed 34).wellFormed = true ∧ (Instr.dieLinkFailed 35).wellFormed = false ∧
    (Instr.chipWatchdog 2).wellFormed = false ∧ (Instr.hbmPatrolScrub 8).wellFormed = false ∧ (Instr.ddr5PeriodicCalibration 12).wellFormed = false ∧
    (Instr.maintenanceComplete 22 []).wellFormed = false ∧ (Instr.ddrRegionInFlightDrained 256).wellFormed = false := by decide +kernel

/-! ## Words of the table -/

/-- The table gives no row bits: no word spells a command, and the device with a word placed is the device. -/
theorem test_no_word (n w : Nat) (s : State) : decodeTableWord n w = none ∧ s.withFetchWord n w = s := ⟨rfl, rfl⟩

/-! ## The worked examples of the spec -/

/-- Chapter 00: an SG-6400-X at stepping A0 reads LD_PART as 0x6400_FF90. -/
theorem test_part : readValue rdy 0 0x0 32 = 0x6400FF90 := by decide +kernel
/-- Chapter 01: an SG-6400-X reads LD_DIE_PRESENT as 0x01FF_FFFF, an SG-6400-G as 0x01FF_0FFF. -/
theorem test_dies : dieWord rdy.fuses = 0x01FFFFFF ∧ dieWord { rdy.fuses with grade := .g } = 0x01FF0FFF := by decide +kernel
/-- FIPS 180-4: the SHA-384 digest of no bytes begins 38 b0 60 a7. -/
theorem test_sha384 : (digestBytes (sha384 [])).take 4 = [0x38, 0xB0, 0x60, 0xA7] := by decide +kernel
/-- Chapter 03: positions 254 to 256 of a ring of 256 descriptors are read as 128 bytes at offset 0x3F80 and 64 bytes at 0x0000. -/
theorem test_ring_slots : (List.range 3).map (fun k => slotAddr 0x800000000 8 64 (BitVec.ofNat 32 (254 + k))) =
    [0x800003F80, 0x800003FC0, 0x800000000] := by decide +kernel
/-- Chapter 03: the slots of that completion ring are of the other phase after a wrap. -/
theorem test_phase : phaseAt 63 6 = true ∧ phaseAt 64 6 = false ∧ phaseAt 128 6 = true := by decide +kernel
/-- Chapter 05: the eight non-negative FP4 codes encode 0, 0.5, 1, 1.5, 2, 3, 4 and 6; 0x8 is negative zero. -/
theorem test_fp4_codes : (List.range 8).map (fun c => (decodeElem 0 false c).toF32) =
    [0, 0x3F000000, 0x3F800000, 0x3FC00000, 0x40000000, 0x40400000, 0x40800000, 0x40C00000] ∧ (decodeElem 0 false 8).toF32 = 0x80000000 := by
  decide +kernel
/-- Chapter 05: 12 + 6 − 0.5 − 4.5 scaled by 2 is 26.0, 0x41D0_0000. -/
theorem test_fp4_sum : ((sumNums [(decodeElem 0 false 7).mul (decodeElem 0 false 4), (decodeElem 0 false 3).mul (decodeElem 0 false 6),
    (decodeElem 0 false 9).mul (decodeElem 0 false 2), (decodeElem 0 false 5).mul (decodeElem 0 false 0xB)]).mul (.fin false 1 1)).toF32 =
      0x41D00000 := by decide +kernel
/-- Chapter 05: a block whose largest magnitude is 26.0 has scale 0x81; 26.0 is written as 0x7, 3.25 as 0x2. -/
theorem test_fp4_block : convertBlock 0 (fun _ => none) [.fin false 26 0, .fin false 13 (-2)] = (0x81, [7, 2]) := by decide +kernel
/-- Chapter 08: a match offset of 3 after 2 bytes is CODE_INVALID before any byte is copied. -/
theorem test_lz_offset : (match lzRun 4096 24 ([0x2F, 0x11, 0x22, 3, 0] ++ List.replicate 15 0xFF ++ [0xFA]) [] 0 with
    | .error .codeInvalid => true | _ => false) = true := by decide +kernel
/-- Chapter 08, R344: a match repeats the last bytes; here the sequence of the example with the shortest match, of 4 bytes. -/
theorem test_lz_match : (lzRun 6 6 [0x20, 0x11, 0x22, 2, 0] [] 0).toOption = some [0x11, 0x22, 0x11, 0x22, 0x11, 0x22] := by decide +kernel
/-- Chapter 08: CLEN 25 stores 64 bytes. -/
theorem test_stored : storedLen 25 = 64 := by decide +kernel
/-- Chapter 07: with D = 128 and FP8 pages a block holds 256 positions. -/
theorem test_positions : geoT 0x80 = 256 := by decide +kernel
/-- Chapter 12: a frame of 4,096 payload bytes on 16 lanes lasts 19 sc. -/
theorem test_frame_time : frameSc 4096 16 = 19 := by decide +kernel
/-- Chapter 16: the map of the worked build; physical 98 is the one spare left and one override is rejected. -/
theorem test_map : let m := buildGrove [17, 58, 90] [(2, 10, 99), (2, 20, 58)]
    m.rej = 1 ∧ m.free = [98] ∧ [9, 10, 11, 17, 18, 57, 58, 88, 89, 95].map (fun l => (m.map.find? (fun x => x.1 == l)).bind (fun x => x.2)) =
      [some 9, some 99, some 10, some 16, some 18, some 57, some 59, some 89, some 91, some 97] := by decide +kernel
/-- Chapter 02: in N1 with all four Groves gated PW_STATUS reads 0x0000_00F1. -/
theorem test_pw_status : pwWord { st := .n1, gated := 15 } = 0xF1 := by decide +kernel
/-- Chapter 19: a lane that receives −3.1 dBm reads RX_POWER 0xFECA and MARGIN 390. -/
theorem test_lane_margin : (let s := railDev 2 0 { st := .up } [(6, { st := .upV3, rx := -310 })]
    let s1 := s.modLantern 2 (fun x => { x with los := BitVec.ofInt 16 (-700) })
    [laneReg s1 2 6 4, laneReg s1 2 6 0x10]) = [.r32 0xFECA, .r32 390] := by decide +kernel

/-! ## For every statement with hypotheses, a state and operands that meet them, clause by clause -/

theorem witness_PowerOnAndOff :
    (∃ (s : State), s.power.st = .off) ∧
    (∃ (s : State), s.live = true) ∧
    (∃ (s : State), s.live = true) ∧
    (∃ (s : State), s.live = true ∧ s.power.supplies = true ∧ s.clk.pllLock = false) :=
  ⟨⟨{ State.reset with power := { st := .off } }, by decide +kernel⟩,
   ⟨State.reset, by decide +kernel⟩,
   ⟨State.reset, by decide +kernel⟩,
   ⟨{ State.reset with power := { supplies := true } }, by decide +kernel⟩⟩

theorem witness_ThrottlesAndTrips :
    (∃ (s : State) (o : SensorObs), s.live = true ∧ o.die < 17) ∧
    (∃ (s : State) (obs : List SensorObs) (d : Nat), s.live = true ∧ hotDie obs = some d) ∧
    (∃ (s : State) (g : Nat), s.live = true ∧ g < 4) ∧
    (∃ (s : State) (g : Nat), s.live = true ∧ g < 4) ∧
    (∃ (s : State) (g : Nat), s.live = true ∧ g < 4) ∧
    (∃ (s : State) (rail : Nat), s.live = true ∧ rail ≤ 16 ∧ s.power.supplies = true) :=
  ⟨⟨rdy, { die := 16, powered := true, temp := 20, vmargin := 0, tmargin := 9 }, by decide +kernel⟩,
   ⟨rdy, [{ die := 16, powered := true, temp := 120, vmargin := 0, tmargin := 9 }], 16, by decide +kernel⟩,
   ⟨rdy, 3, by decide +kernel⟩,
   ⟨rdy, 3, by decide +kernel⟩,
   ⟨rdy, 3, by decide +kernel⟩,
   ⟨rdy, 16, by decide +kernel⟩⟩

theorem witness_GatingAndWake :
    (∃ (s : State) (g : Nat), s.ready = true ∧ g < 4 ∧ s.power.st = .n0 ∧ groveWork g s = false ∧ (enteringN2 s = true ∨ (s.power.trans
      = none ∧ s.power.n1Idle ≠ 0))) ∧
    (∃ (s : State) (g : Nat), s.ready = true ∧ g < 4 ∧ (s.power.st = .n0 ∨ s.power.st = .n1) ∧ (s.power.trans = none ∨ enteringN2 s =
      true)) ∧
    (∃ (s : State), pwWrites s = true ∧ s.ready = true ∧ s.power.st = .n0 ∧ s.power.trans = none) ∧
    (∃ (s : State), pwWrites s = true ∧ s.ready = true ∧ s.power.st = .n1 ∧ s.power.trans = none) ∧
    (∃ (s : State), pwWrites s = true ∧ s.ready = true ∧ (s.power.st = .n0 ∨ s.power.st = .n1) ∧ enteringN2 s = true) ∧
    (∃ (s : State), s.ready = true ∧ s.power.st = .n1 ∧ s.power.trans = none) ∧
    (∃ (s : State), s.ready = true ∧ s.power.st = .n2 ∧ s.power.trans = none) ∧
    (∃ (s : State), s.live = true ∧ s.power.trans = some .fromN3) ∧
    (∃ (s : State) (v : BitVec 3), pwWrites s = true ∧ v ≠ 0 ∧ v ≠ 2 ∧ v ≠ 3) :=
  ⟨⟨rdy, 3, by decide +kernel⟩,
   ⟨rdy, 3, by decide +kernel⟩,
   ⟨rdy, by decide +kernel⟩,
   ⟨{ rdy with power := { supplies := true, st := .n1, gated := 15 } }, by decide +kernel⟩,
   ⟨{ rdy with power := { supplies := true, trans := some .toN2 } }, by decide +kernel⟩,
   ⟨{ rdy with power := { supplies := true, st := .n1, gated := 15 } }, by decide +kernel⟩,
   ⟨{ rdy with power := { supplies := true, st := .n2 } }, by decide +kernel⟩,
   ⟨{ rdy with power := { supplies := true, st := .n3, trans := some .fromN3 } }, by decide +kernel⟩,
   ⟨rdy, 1, by decide +kernel⟩⟩

theorem witness_DeepPowerStates :
    (∃ (s : State), pwWrites s = true ∧ s.power.trans = none ∧ (s.power.st = .n0 ∨ s.power.st = .n1) ∧ entryRefusal false s = none) ∧
    (∃ (s : State) (c : Byte), pwWrites s = true ∧ s.power.trans ≠ some .toN2 ∧ (¬ (s.power.st = .n2 ∧ s.power.trans = none)) ∧
      entryRefusal false s = some c) ∧
    (∃ (s : State), s.live = true ∧ s.power.st = .n1 ∧ s.power.trans = some .toN2) ∧
    (∃ (s : State), s.live = true ∧ s.power.st = .n1 ∧ s.power.trans = some (.toN3 false)) ∧
    (∃ (s : State), pwWrites s = true ∧ s.power.trans = none ∧ (s.power.st = .n0 ∨ s.power.st = .n1) ∧ entryRefusal true s = none) ∧
    (∃ (s : State) (c : Byte), pwWrites s = true ∧ enteringN3 s = false ∧ (¬ (s.power.st = .n3 ∧ s.power.trans = none)) ∧ entryRefusal
      true s = some c) ∧
    (∃ (s : State), s.live = true ∧ s.power.trans = some (.toN3 true) ∧ s.power.copyWait = false ∧ s.work = [] ∧ s.waybill.signing =
      none) ∧
    (∃ (s : State), s.live = true ∧ s.power.trans = some .fromN2) ∧
    (∃ (s : State), s.live = true ∧ s.power.trans = some .fromN3 ∧ .x6 ∈ s.boot.done) :=
  ⟨⟨rdy, by decide +kernel⟩,
   ⟨{ rdy with ft := { held := [bringUpPoss] } }, 2, by decide +kernel⟩,
   ⟨{ rdy with power := { supplies := true, st := .n1, trans := some .toN2 } }, by decide +kernel⟩,
   ⟨{ rdy with power := { supplies := true, st := .n1, trans := some (.toN3 false) } }, by decide +kernel⟩,
   ⟨rdy, by decide +kernel⟩,
   ⟨{ rdy with ft := { held := [bringUpPoss] } }, 2, by decide +kernel⟩,
   ⟨{ rdy with power := { supplies := true, trans := some (.toN3 true) } }, by decide +kernel⟩,
   ⟨{ rdy with power := { supplies := true, st := .n2, trans := some .fromN2 } }, by decide +kernel⟩,
   ⟨{ rdy with power := { supplies := true, st := .n3, trans := some .fromN3 }, boot := { done := [.x6] } }, by decide +kernel⟩⟩

theorem witness_BringUp :
    (∃ (s : State) (ph : Phase) (r : PhaseReport), s.live = true ∧ phaseRuns ph s = true ∧ r.failure = none ∧ (ph = .c2 ∨ ph = .w2 →
      manifestBoots s = true)) ∧
    (∃ (s : State), s.live = true ∧ phaseRuns .c1 s = true) ∧
    (∃ (s : State) (ph : Phase) (r : PhaseReport) (f : BootFailure), s.live = true ∧ phaseRuns ph s = true ∧ ph ≠ .c1 ∧ r.failure =
      some f ∧ endsBringUp f = true ∧ s.boot.chipReset = false ∧ s.boot.fail = none) ∧
    (∃ (s : State) (ph : Phase) (r : PhaseReport), s.live = true ∧ phaseRuns ph s = true ∧ (ph = .c2 ∨ ph = .w2) ∧ r.failure = none ∧
      manifestBoots s = false ∧ s.boot.chipReset = false ∧ s.boot.fail = none) ∧
    (∃ (s : State), s.live = true ∧ s.boot.savePend = true) ∧
    (∃ (s : State) (b : List Byte), s.live = true ∧ s.img.copying = some b) ∧
    (∃ (s : State), s.live = true ∧ s.boot.chipReset = true ∧ s.boot.stage ≠ .ready ∧ s.boot.stage ≠ .failed ∧ 5 ≤ s.ft.maxLevel.toNat) :=
  ⟨⟨{ { State.reset with power := { supplies := true }, clk := { pllLock := true } } with boot := { done := [.c1] } }, .c2, {},
     by decide +kernel⟩,
   ⟨{ State.reset with power := { supplies := true }, clk := { pllLock := true } }, by decide +kernel⟩,
   ⟨{ { State.reset with power := { supplies := true }, clk := { pllLock := true } } with boot := { done := [.c1] } }, .c2,
     { failure := some { kind := 1, unit := 0, cause := 1 } }, { kind := 1, unit := 0, cause := 1 }, by decide +kernel⟩,
   ⟨{ { State.reset with power := { supplies := true }, clk := { pllLock := true } } with boot := { done := [.c1] }, flash := { State.reset.flash with inactive := some { factoryFirmware with signer := 1 } } },
     .c2, {}, by decide +kernel⟩,
   ⟨{ rdy with boot := { savePend := true } }, by decide +kernel⟩,
   ⟨{ rdy with img := { copying := some [1] } }, [1], by decide +kernel⟩,
   ⟨{ State.reset with boot := { chipReset := true } }, by decide +kernel⟩⟩

theorem witness_Resets :
    (∃ (s : State), writes 0 s = true) ∧
    (∃ (s : State), (s.ready = true ∨ (s.live = true ∧ s.power.trans = some .fromN3))) ∧
    (∃ (s : State), s.live = true) ∧
    (∃ (s : State), s.live = true ∧ s.power.perstLow = true ∧ s.power.st = .n3 ∧ s.power.trans = none) ∧
    (∃ (s : State), s.live = true ∧ s.power.perstLow = true ∧ s.power.st ≠ .n3 ∧ s.power.trans = none) ∧
    (∃ (s : State), s.live = true) ∧
    (∃ (s : State), s.live = true) :=
  ⟨⟨rdy, by decide +kernel⟩,
   ⟨rdy, by decide +kernel⟩,
   ⟨rdy, by decide +kernel⟩,
   ⟨{ rdy with power := { perstLow := true, st := .n3 } }, by decide +kernel⟩,
   ⟨{ rdy with power := { perstLow := true } }, by decide +kernel⟩,
   ⟨rdy, by decide +kernel⟩,
   ⟨rdy, by decide +kernel⟩⟩

theorem witness_HostLinkAndSnap :
    (∃ (s : State), portPowered s = true ∧ s.host.mode = .down) ∧
    (∃ (s : State), s.live = true ∧ s.host.mode ≠ .down ∧ s.boot.stage ≠ .ready ∧ s.boot.stage ≠ .failed) ∧
    (∃ (s : State) (f : Nat), portOpen s = true ∧ answers f s = true) ∧
    (∃ (s : State) (f : Nat), portOpen s = true ∧ answers f s = true) ∧
    (∃ (s : State), portOpen s = true ∧ cxlMode s = true) ∧
    (∃ (s : State), writes 0 s = true) ∧
    (∃ (s : State) (f : Nat) (v : Nat), writes f s = true ∧ f ≤ 16 ∧ v < vectorCount f ∧ (s.fn f).msixEn = true ∧ (s.fn f).fmask =
      false ∧ (tget s.host.msix (vectorOf f v) {}).pend = true) :=
  ⟨⟨{ rdy with host := { mode := .down } }, by decide +kernel⟩,
   ⟨{ rdy with boot := {} }, by decide +kernel⟩,
   ⟨rdy, 0, by decide +kernel⟩,
   ⟨rdy, 0, by decide +kernel⟩,
   ⟨rdy, by decide +kernel⟩,
   ⟨rdy, by decide +kernel⟩,
   ⟨{ rdy with host := { mode := .cxl2, vfEnable := true, numVfs := 16, fns := [(16, { msixEn := true })], msix := [(vectorOf 16 119, { pend := true })] } },
     16, 119, by decide +kernel⟩⟩

theorem witness_RingControl :
    (∃ (s : State) (f : Nat) (r : Nat) (cfg : W32), reaches f s = true ∧ readsOnly s = false ∧ ringExists f r = true ∧ (s.sq (ringOf f
      r)).st = .disabled ∧ 6 ≤ fld cfg.toNat 3 5 ∧ fld cfg.toNat 3 5 ≤ 16 ∧ ringExists f (fld cfg.toNat 8 8) = true ∧ (s.cq (ringOf f
      (fld cfg.toNat 8 8))).enable = true) ∧
    (∃ (s : State) (f : Nat) (r : Nat) (cfg : W32), reaches f s = true ∧ readsOnly s = false ∧ ringExists f r = true ∧ (s.sq (ringOf f
      r)).st = .running ∧ (s.sq (ringOf f r)).polled = cfg.toNat.testBit 1 ∧ 6 ≤ fld cfg.toNat 3 5 ∧ fld cfg.toNat 3 5 ≤ 16 ∧ (s.sq
      (ringOf f r)).logSize.toNat = fld cfg.toNat 3 5 ∧ (s.sq (ringOf f r)).cq.toNat = fld cfg.toNat 8 8) ∧
    (∃ (s : State) (f : Nat) (r : Nat) (cfg : W32), reaches f s = true ∧ readsOnly s = false ∧ ringExists f r = true ∧ (s.cq (ringOf f
      r)).enable = false ∧ 6 ≤ fld cfg.toNat 3 5 ∧ fld cfg.toNat 3 5 ≤ 16 ∧ fld cfg.toNat 8 11 < vectorLimit f) ∧
    (∃ (s : State) (f : Nat) (r : Nat) (cfg : W32), reaches f s = true ∧ readsOnly s = false ∧ ringExists f r = true ∧ (s.cq (ringOf f
      r)).enable = true ∧ (s.cq (ringOf f r)).polled = cfg.toNat.testBit 1 ∧ (s.cq (ringOf f r)).irqEn = cfg.toNat.testBit 19 ∧ 6 ≤ fld
      cfg.toNat 3 5 ∧ fld cfg.toNat 3 5 ≤ 16 ∧ (s.cq (ringOf f r)).logSize.toNat = fld cfg.toNat 3 5 ∧ (s.cq (ringOf f r)).vector.toNat
      = fld cfg.toNat 8 11 ∧ namesCq f r s = false) ∧
    (∃ (s : State) (f : Nat) (cfg : W32), reaches f s = true ∧ readsOnly s = false ∧ f ≤ 16 ∧ (s.tok f).enable = false ∧ 6 ≤ fld
      cfg.toNat 4 5 ∧ fld cfg.toNat 4 5 ≤ 20 ∧ fld cfg.toNat 9 11 < vectorLimit f) ∧
    (∃ (s : State) (f : Nat) (cfg : W32), reaches f s = true ∧ readsOnly s = false ∧ f ≤ 16 ∧ (s.tok f).enable = true ∧ (s.tok
      f).polled = cfg.toNat.testBit 1 ∧ (s.tok f).irqEn = cfg.toNat.testBit 20 ∧ 6 ≤ fld cfg.toNat 4 5 ∧ fld cfg.toNat 4 5 ≤ 20 ∧
      (s.tok f).logSize.toNat = fld cfg.toNat 4 5 ∧ (s.tok f).vector.toNat = fld cfg.toNat 9 11) ∧
    (∃ (s : State) (f : Nat) (r : Nat), reaches f s = true ∧ readsOnly s = false ∧ f ≤ 16 ∧ ringExists f r = true ∧ (s.sq (ringOf f
      r)).st = .disabled) ∧
    (∃ (s : State) (f : Nat) (r : Nat), reaches f s = true ∧ readsOnly s = false ∧ f ≤ 16 ∧ ringExists f r = true ∧ (s.sq (ringOf f
      r)).st ≠ .disabled) :=
  ⟨⟨{ rdy with host := { mode := .cxl2, cqs := [(127, { enable := true })] } }, 0, 127, 0x7F80, by decide +kernel⟩,
   ⟨{ rdy with host := { mode := .cxl2, sqs := [(0, { st := .running, enable := true })] } }, 0, 0, 0x30, by decide +kernel⟩,
   ⟨{ rdy with host := { mode := .cxl2, vfEnable := true, numVfs := 16 } }, 16, 7, 0x7780, by decide +kernel⟩,
   ⟨{ rdy with host := { mode := .cxl2, cqs := [(0, { enable := true })] } }, 0, 0, 0x30, by decide +kernel⟩,
   ⟨rdy, 0, 0x140, by decide +kernel⟩,
   ⟨{ rdy with host := { mode := .cxl2, fns := [(0, { tok := { enable := true } })] } }, 0, 0x60, by decide +kernel⟩,
   ⟨rdy, 0, 127, by decide +kernel⟩,
   ⟨{ rdy with host := { mode := .cxl2, sqs := [(0, { st := .error })] } }, 0, 0, by decide +kernel⟩⟩

theorem witness_TailsAndFetch :
    (∃ (s : State) (n : Nat), portOpen s = true ∧ cxlMode s = true ∧ (s.sq n).polled = false ∧ (s.sq n).st = .running ∧ (s.sq
      n).reading = false ∧ s.power.st = .n0 ∧ s.power.trans = none) ∧
    (∃ (s : State) (n : Nat), portOpen s = true ∧ ((s.sq n).polled = true ∨ s.host.mode = .pcie) ∧ (s.sq n).st = .running ∧ (s.sq
      n).reading = false) ∧
    (∃ (s : State) (n : Nat) (v : W32), portOpen s = true ∧ (s.sq n).st = .running ∧ (s.sq n).reading = true ∧ (s.sq n).reread = false
      ∧ (s.sq n).polled = false ∧ s.host.mode ≠ .pcie ∧ (s.sq n).fetching = 0 ∧ (v - (s.sq n).head).toNat ≤ 2 ^ (s.sq n).logSize.toNat
      ∧ ringStalled n s = false ∧ n ∉ s.host.served ∧ (∀ m, m ≠ n → newPositions m s = 0)) ∧
    (∃ (s : State) (n : Nat) (v : W32), portOpen s = true ∧ (s.sq n).st = .running ∧ (s.sq n).reading = true ∧ (v - (s.sq
      n).head).toNat > 2 ^ (s.sq n).logSize.toNat) ∧
    (∃ (s : State) (n : Nat), portOpen s = true ∧ (s.sq n).st = .running ∧ (s.sq n).reading = true) ∧
    (∃ (s : State) (n : Nat) (d : Descriptor), portOpen s = true ∧ (s.sq n).st = .running ∧ 1 ≤ (s.sq n).fetching ∧ opcodeDefined (dat
      d 0 8) = true ∧ s.img.image.isSome = true ∧ loadCancels s = false ∧ ctxMismatch (ringFn n) (dat d 2 12) s = false) ∧
    (∃ (s : State) (n : Nat), portOpen s = true ∧ (s.sq n).st = .running ∧ 1 ≤ (s.sq n).fetching) ∧
    (∃ (s : State) (n : Nat) (d : Descriptor), portOpen s = true ∧ (s.sq n).st = .running ∧ 1 ≤ (s.sq n).fetching ∧ opcodeDefined (dat
      d 0 8) = false ∧ s.img.image.isSome = true) :=
  ⟨⟨{ rdy with host := { mode := .cxl2, sqs := [(0, { st := .running })] } }, 0, by decide +kernel⟩,
   ⟨{ rdy with host := { mode := .pcie, sqs := [(255, { st := .running })] } }, 255, by decide +kernel⟩,
   ⟨{ rdy with host := { mode := .cxl2, sqs := [(0, { st := .running, reading := true })] } }, 0, 64,
     by refine ⟨?_, ?_, ?_, ?_, ?_, ?_, ?_, ?_, ?_, ?_, newPositions_alone rfl⟩ <;> decide +kernel⟩,
   ⟨{ rdy with host := { mode := .cxl2, sqs := [(0, { st := .running, reading := true })] } }, 0, 65, by decide +kernel⟩,
   ⟨{ rdy with host := { mode := .cxl2, sqs := [(0, { st := .running, reading := true })] } }, 0, by decide +kernel⟩,
   ⟨{ rdy with host := { mode := .cxl2, sqs := [(0, { st := .running, fetching := 1 })] } }, 0, 0, by decide +kernel⟩,
   ⟨{ rdy with host := { mode := .cxl2, sqs := [(0, { st := .running, fetching := 1 })] } }, 0, by decide +kernel⟩,
   ⟨{ rdy with host := { mode := .cxl2, sqs := [(0, { st := .running, fetching := 1 })] } }, 0, 0x1F, by decide +kernel⟩⟩

theorem witness_HeadsAndModeration :
    (∃ (s : State) (w : Work), MayStart s w 0x00) ∧
    (∃ (s : State) (w : Work) (n : Nat) (p : W32), w.src = .ring n p ∧ w.silent = false ∧ w.orphan = false ∧ reachable (ringFn n) s =
      true ∧ ringExists (ringFn n) (s.sq n).cq.toNat = true ∧ (s.cq (ringOf (ringFn n) (s.sq n).cq.toNat)).enable = true ∧ (s.cq
      (ringOf (ringFn n) (s.sq n).cq.toNat)).held = [] ∧ (s.cq (ringOf (ringFn n) (s.sq n).cq.toNat)).room = true) ∧
    (∃ (w : Work) (n : Nat) (p : W32), w.src = .ring n p ∧ w.silent = true) ∧
    (∃ (s : State) (n : Nat), portOpen s = true ∧ (s.cq n).enable = true ∧ (s.cq n).held = []) ∧
    (∃ (s : State) (n : Nat) (h : W32) (r : Rec), portOpen s = true ∧ (s.cq n).enable = true ∧ (s.cq n).held = [r] ∧ ((s.cq n).tail -
      h).toNat < 2 ^ (s.cq n).logSize.toNat) ∧
    (∃ (s : State) (f : Nat), portOpen s = true ∧ (s.tok f).enable = true ∧ (s.tok f).held = []) ∧
    (∃ (s : State) (n : Nat), portOpen s = true ∧ (s.cq n).timer = true ∧ (s.fn (ringFn n)).msixEn = true ∧ (s.fn (ringFn n)).fmask =
      false ∧ (tget s.host.msix (vectorOf (ringFn n) (s.cq n).vector.toNat) {}).mask = false) ∧
    (∃ (s : State) (f : Nat), portOpen s = true ∧ (s.tok f).timer = true ∧ (s.fn f).msixEn = true ∧ (s.fn f).fmask = false ∧ (tget
      s.host.msix (vectorOf f (s.tok f).vector.toNat) {}).mask = false) :=
  ⟨⟨dev [wk 0], wk 0, by unfold MayStart; decide +kernel⟩,
   ⟨{ dev [wk 0] with host := { mode := .cxl2, cqs := [(0, { enable := true })] } }, wk 0, 0, 0, by decide +kernel⟩,
   ⟨{ wk 0 with silent := true }, 0, 0, by decide +kernel⟩,
   ⟨{ rdy with host := { mode := .cxl2, cqs := [(0, { enable := true })] } }, 0, by decide +kernel⟩,
   ⟨{ rdy with host := { mode := .cxl2, cqs := [(0, { enable := true, tail := 64, held := [{ tag := 1, status := 0, opcode := 0, sq := 0, sqPos := 0, context := 0, result := 0, execSc := 0, phase := false, faultRef := 0, counted := false }] })] } },
     0, 1,
     { tag := 1, status := 0, opcode := 0, sq := 0, sqPos := 0, context := 0, result := 0, execSc := 0, phase := false, faultRef := 0, counted := false },
     by decide +kernel⟩,
   ⟨{ rdy with host := { mode := .cxl2, fns := [(16, { tok := { enable := true } })] } }, 16, by decide +kernel⟩,
   ⟨{ rdy with host := { mode := .cxl2, fns := [(0, { msixEn := true })], cqs := [(0, { timer := true })], msix := [(0, { mask := false })] } },
     0, by decide +kernel⟩,
   ⟨{ rdy with host := { mode := .cxl2, fns := [(0, { msixEn := true, tok := { timer := true } })], msix := [(0, { mask := false })] } },
     0, by decide +kernel⟩⟩

theorem witness_HostWindow :
    (∃ (s : State) (off : Nat) (data : List Byte) (r : Region) (o : Nat), portOpen s = true ∧ readsOnly s = false ∧ s.awake = true ∧
      windowAt off data.length s = some (r, o) ∧ r.flags.getLsbD 1 = false) ∧
    (∃ (s : State) (addr : Nat) (data : List Byte) (r : Region) (o : Nat), portOpen s = true ∧ cxlMode s = true ∧ readsOnly s = false ∧
      s.awake = true ∧ hdmAt addr data.length s = some (r, o) ∧ r.flags.getLsbD 1 = false) ∧
    (∃ (s : State) (off : Nat) (len : Nat) (r : Region) (o : Nat), portOpen s = true ∧ readsOnly s = false ∧ s.awake = true ∧ windowAt
      off len s = some (r, o) ∧ s.ft.inject.arm = false) ∧
    (∃ (s : State) (off : Nat) (len : Nat) (a : Nat) (r : Region) (o : Nat), portOpen s = true ∧ readsOnly s = false ∧ s.awake = true ∧
      windowAt off len s = some (r, o) ∧ a / 64 ∈ regionLines r o len ∧ s.ft.inject.arm = false) ∧
    (∃ (s : State) (addr : Nat) (len : Nat) (r : Region) (o : Nat), portOpen s = true ∧ cxlMode s = true ∧ readsOnly s = false ∧
      s.awake = true ∧ hdmAt addr len s = some (r, o) ∧ s.ft.inject.arm = false) ∧
    (∃ (s : State) (off : Nat) (data : List Byte), portOpen s = true ∧ windowAt off data.length s = none) ∧
    (∃ (s : State) (off : Nat) (len : Nat), portOpen s = true ∧ readsOnly s = false ∧ windowAt off len s = none) ∧
    (∃ (s : State), portOpen s = true ∧ readsOnly s = true) :=
  ⟨⟨rdy, 2097151, [7], work0, 2097151, by decide +kernel⟩,
   ⟨rdy, 2097151, [7], work0, 2097151, by decide +kernel⟩,
   ⟨rdy, 2097151, 1, work0, 2097151, by decide +kernel⟩,
   ⟨rdy, 2097151, 1, regionAddr work0 2097151, work0, 2097151, by decide +kernel⟩,
   ⟨rdy, 2097151, 1, work0, 2097151, by decide +kernel⟩,
   ⟨rdy, 2097152, [7], by decide +kernel⟩,
   ⟨rdy, 2097152, 1, by decide +kernel⟩,
   ⟨{ rdy with host := { mode := .degraded } }, by decide +kernel⟩⟩

theorem witness_ImageControl :
    (∃ (s : State) (w : Work), MayStart s w 0x71 ∧ imageAhead w s = false ∧ w.fn = 0) ∧
    (∃ (s : State) (w : Work), MayStart s w 0x72 ∧ imageAhead w s = false ∧ w.fn = 0) ∧
    (∃ (s : State) (w : Work), MayStart s w 0x70 ∧ imageAhead w s = false ∧ w.fn = 0 ∧ s.tn.switch = none ∧ dat w.body 8 64 % 8 = 0) ∧
    (∃ (s : State) (w : Work), MayStart s w 0x73 ∧ imageAhead w s = false ∧ w.fn = 0 ∧ dat w.body 8 64 % 8 = 0) ∧
    (∃ (s : State) (w : Work), MayStart s w 0x70 ∧ imageAhead w s = false ∧ w.fn = 0 ∧ s.tn.switch = none ∧ dat w.body 8 64 % 8 ≠ 0) ∧
    (∃ (s : State) (w : Work), MayStart s w 0x73 ∧ imageAhead w s = false ∧ w.fn = 0 ∧ dat w.body 8 64 % 8 ≠ 0) ∧
    (∃ (s : State) (w : Work), MayStart s w 0x70 ∧ imageAhead w s = false ∧ w.fn ≠ 0) ∧
    (∃ (s : State) (w : Work), MayStart s w 0x71 ∧ imageAhead w s = false ∧ w.fn ≠ 0) ∧
    (∃ (s : State) (w : Work), MayStart s w 0x72 ∧ imageAhead w s = false ∧ w.fn ≠ 0) ∧
    (∃ (s : State) (w : Work), MayStart s w 0x73 ∧ imageAhead w s = false ∧ w.fn ≠ 0) :=
  ⟨⟨dev [wk 0x71 (0)], wk 0x71 (0), by unfold MayStart; decide +kernel⟩,
   ⟨dev [wk 0x72 (0)], wk 0x72 (0), by unfold MayStart; decide +kernel⟩,
   ⟨dev [wk 0x70 (0)], wk 0x70 (0), by unfold MayStart; decide +kernel⟩,
   ⟨dev [wk 0x73 (desc [(8, 64, 8)])], wk 0x73 (desc [(8, 64, 8)]), by unfold MayStart; decide +kernel⟩,
   ⟨dev [wk 0x70 (desc [(8, 64, 7)])], wk 0x70 (desc [(8, 64, 7)]), by unfold MayStart; decide +kernel⟩,
   ⟨dev [wk 0x73 (desc [(8, 64, 7)])], wk 0x73 (desc [(8, 64, 7)]), by unfold MayStart; decide +kernel⟩,
   ⟨dev [{ wk 0x70 (0) with fn := 1 }], { wk 0x70 (0) with fn := 1 }, by unfold MayStart; decide +kernel⟩,
   ⟨dev [{ wk 0x71 (0) with fn := 1 }], { wk 0x71 (0) with fn := 1 }, by unfold MayStart; decide +kernel⟩,
   ⟨dev [{ wk 0x72 (0) with fn := 1 }], { wk 0x72 (0) with fn := 1 }, by unfold MayStart; decide +kernel⟩,
   ⟨dev [{ wk 0x73 (0) with fn := 1 }], { wk 0x73 (0) with fn := 1 }, by unfold MayStart; decide +kernel⟩⟩

theorem witness_ImageApplication :
    (∃ (s : State) (w : Work) (b : List Byte), s.live = true ∧ imageAt .reading s = some w ∧ b.length = min (dat w.body 16 32)
      0x1000000 ∧ w.opcode = 0x73 ∧ validateImage s b (dat w.body 16 32) = none) ∧
    (∃ (s : State) (w : Work) (b : List Byte) (f : ImgFail), s.live = true ∧ imageAt .reading s = some w ∧ b.length = min (dat w.body
      16 32) 0x1000000 ∧ validateImage s b (dat w.body 16 32) = some f) ∧
    (∃ (s : State) (w : Work) (b : List Byte), s.live = true ∧ imageAt .reading s = some w ∧ b.length = min (dat w.body 16 32)
      0x1000000 ∧ w.opcode = 0x70 ∧ validateImage s b (dat w.body 16 32) = none ∧ drainedNow s = false ∧ dat w.body 20 32 ≠ 0) ∧
    (∃ (s : State) (w : Work) (b : List Byte), s.live = true ∧ imageAt .reading s = some w ∧ b.length = min (dat w.body 16 32)
      0x1000000 ∧ w.opcode = 0x70 ∧ validateImage s b (dat w.body 16 32) = none ∧ drainedNow s = false ∧ dat w.body 20 32 = 0) ∧
    (∃ (s : State) (w : Work) (b : List Byte), s.live = true ∧ imageAt .reading s = some w ∧ b.length = min (dat w.body 16 32)
      0x1000000 ∧ w.opcode = 0x70 ∧ validateImage s b (dat w.body 16 32) = none ∧ drainedNow s = true ∧ stateCheck (parseImage b) b s =
      none) ∧
    (∃ (s : State) (w : Work), s.live = true ∧ imageAt .reading s = some w) ∧
    (∃ (s : State) (w : Work) (i : Image) (b : List Byte), s.live = true ∧ drainedNow s = true ∧ imageAt .draining s = some w ∧
      s.img.staged = some (i, b)) ∧
    (∃ (s : State) (w : Work), s.live = true ∧ imageAt .draining s = some w) ∧
    (∃ (s : State) (w : Work) (i : Image) (b : List Byte), s.live = true ∧ lanesTrain s = false ∧ imageAt .applying s = some w ∧
      s.img.staged = some (i, b)) ∧
    (∃ (s : State) (w : Work), s.live = true ∧ imageAt .applying s = some w) :=
  ⟨⟨{ dev [wk 0x73 (desc [(16, 32, 2360)]) (.image .reading)] with flash := imgDev.flash }, wk 0x73 (desc [(16, 32, 2360)]) (.image
     .reading), imgBytes, by refine ⟨?_, ?_, ?_, ?_, by apply valid_img <;> decide +kernel⟩ <;> decide +kernel⟩,
   ⟨dev [wk 0x73 (desc [(16, 32, 2)]) (.image .reading)], wk 0x73 (desc [(16, 32, 2)]) (.image .reading), [0, 1], (validateImage (dev [wk
     0x73 (desc [(16, 32, 2)]) (.image .reading)]) [0, 1] 2).getD { cause := 0, sect := 0, entry := 0 }, by decide +kernel⟩,
   ⟨{ dev [wk 0x70 (desc [(16, 32, 2360), (20, 32, 1)]) (.image .reading), { wk 0x20 (0) (.tiles { total := 1 }) with wid := 6 }] with flash := imgDev.flash },
     wk 0x70 (desc [(16, 32, 2360), (20, 32, 1)]) (.image .reading), imgBytes,
     by refine ⟨?_, ?_, ?_, ?_, by apply valid_img <;> decide +kernel, ?_, ?_⟩ <;> decide +kernel⟩,
   ⟨{ dev [wk 0x70 (desc [(16, 32, 2360)]) (.image .reading), { wk 0x20 (0) (.tiles { total := 1 }) with wid := 6 }] with flash := imgDev.flash },
     wk 0x70 (desc [(16, 32, 2360)]) (.image .reading), imgBytes,
     by refine ⟨?_, ?_, ?_, ?_, by apply valid_img <;> decide +kernel, ?_, ?_⟩ <;> decide +kernel⟩,
   ⟨{ dev [wk 0x70 (desc [(16, 32, 2360)]) (.image .reading)] with flash := imgDev.flash }, wk 0x70 (desc [(16, 32, 2360)]) (.image
     .reading), imgBytes, by refine ⟨?_, ?_, ?_, ?_, by apply valid_img <;> decide +kernel, ?_, ?_⟩ <;> decide +kernel⟩,
   ⟨dev [wk 0x73 (desc [(16, 32, 2)]) (.image .reading)], wk 0x73 (desc [(16, 32, 2)]) (.image .reading), by decide +kernel⟩,
   ⟨{ dev [wk 0x70 (0) (.image .draining)] with img := { image := some image, staged := some (image, [1]) } }, wk 0x70 (0) (.image
     .draining), image, [1], by decide +kernel⟩,
   ⟨dev [wk 0x70 (0) (.image .draining)], wk 0x70 (0) (.image .draining), by decide +kernel⟩,
   ⟨{ dev [wk 0x70 (0) (.image .applying)] with img := { image := some image, staged := some (image, [1]) } }, wk 0x70 (0) (.image
     .applying), image, [1], by decide +kernel⟩,
   ⟨dev [wk 0x70 (0) (.image .applying)], wk 0x70 (0) (.image .applying), by decide +kernel⟩⟩

theorem witness_PossessionGrant :
    (∃ (s : State) (r : Poss) (rest : List Poss), s.live = true ∧ nextGrant s.ft.held [] s.ft.queue = some (r, rest) ∧ r.activity ≠
      0x10 ∧ r.activity ≠ 0x03 ∧ r.activity ≠ 0x06) ∧
    (∃ (s : State) (r : Poss) (rest : List Poss) (i : Image) (b : List Byte), s.live = true ∧ nextGrant s.ft.held [] s.ft.queue = some
      (r, rest) ∧ r.activity = 0x10 ∧ s.img.staged = some (i, b)) ∧
    (∃ (s : State) (r : Poss) (rest : List Poss), s.live = true ∧ nextGrant s.ft.held [] s.ft.queue = some (r, rest) ∧ r.activity =
      0x06 ∧ (∀ q, q < 100 → (s.phys (r.arg / 100) q).st ≠ .spare)) :=
  ⟨⟨{ rdy with ft := { held := [{ activity := 0x02, domains := oneDomain 11 }], queue := [{ activity := 0x04, domains := oneDomain 11 }, { activity := 0x01, domains := oneDomain 4 }] } },
     { activity := 0x01, domains := oneDomain 4 }, [{ activity := 0x04, domains := oneDomain 11 }], by decide +kernel⟩,
   ⟨{ rdy with ft := { queue := [{ activity := 0x10, domains := allDomains }] }, img := { image := some image, staged := some (image, [1]) } },
     { activity := 0x10, domains := allDomains }, [], image, [1], by decide +kernel⟩,
   ⟨{ rdy with ft := { queue := [{ activity := 0x06, domains := oneDomain 3, arg := 399 }] } },
     { activity := 0x06, domains := oneDomain 3, arg := 399 }, [], by decide +kernel⟩⟩

theorem witness_Maintenance :
    (∃ (s : State) (k : Nat), s.live = true ∧ k < 8 ∧ fullDomain (oneDomain (4 + k)) s = none) ∧
    (∃ (s : State) (k : Nat) (d : Nat), s.live = true ∧ k < 8 ∧ fullDomain (oneDomain (4 + k)) s = some d) ∧
    (∃ (s : State) (k : Nat), s.live = true ∧ k < 8 ∧ fullDomain (oneDomain (4 + k)) s = none) ∧
    (∃ (s : State) (c : Nat), s.live = true ∧ c < 12 ∧ fullDomain (oneDomain (20 + channelStation c)) s = none) ∧
    (∃ (s : State), s.live = true ∧ fullDomain 0x30000F s = none) ∧
    (∃ (s : State) (g : Nat) (p : Nat), s.live = true ∧ nextRetire g s = some p) ∧
    (∃ (s : State) (d : Nat) (h : Poss), s.live = true ∧ s.ft.held.find? (fun h => maintenance h.activity && h.domains.toNat.testBit d)
      = some h ∧ h.activity ≠ 0x01) ∧
    (∃ (s : State) (d : Nat) (line : Nat) (h : Poss), s.live = true ∧ s.ft.held.find? (fun h => maintenance h.activity &&
      h.domains.toNat.testBit d) = some h ∧ h.activity = 0x01 ∧ 64 * line / 2 ^ 36 = h.arg) :=
  ⟨⟨rdy, 7, by decide +kernel⟩,
   ⟨{ rdy with ft := { queue := [{ activity := 0x01, domains := oneDomain 11 }, { activity := 0x01, domains := oneDomain 11 }, { activity := 0x01, domains := oneDomain 11 }, { activity := 0x01, domains := oneDomain 11 }, { activity := 0x01, domains := oneDomain 11 }, { activity := 0x01, domains := oneDomain 11 }, { activity := 0x01, domains := oneDomain 11 }, { activity := 0x01, domains := oneDomain 11 }] } },
     7, 11, by decide +kernel⟩,
   ⟨rdy, 7, by decide +kernel⟩,
   ⟨rdy, 11, by decide +kernel⟩,
   ⟨rdy, by decide +kernel⟩,
   ⟨{ rdy with groves := { phys := [(399, { retiring := true })] } }, 3, 99, by decide +kernel⟩,
   ⟨{ rdy with ft := { held := [{ activity := 0x04, domains := oneDomain 21 }] } }, 21, { activity := 0x04, domains := oneDomain 21 },
     by decide +kernel⟩,
   ⟨{ rdy with ft := { held := [{ activity := 0x01, domains := oneDomain 11, arg := 7 }] } }, 11, 2 ^ 33 - 1,
     { activity := 0x01, domains := oneDomain 11, arg := 7 }, by decide +kernel⟩⟩

theorem witness_RegisterReads :
    (∃ (s : State) (off : Nat) (width : Nat), reaches 0 s = true ∧ s.boot.stage = .ready ∧ readsReg s 0 off width = false) ∧
    (∃ (s : State), reaches 0 s = true ∧ s.boot.stage = .ready) ∧
    (∃ (s : State), reaches 0 s = true ∧ s.boot.stage = .ready) ∧
    (∃ (s : State), reaches 0 s = true ∧ s.boot.stage = .ready) ∧
    (∃ (s : State) (f : Nat), reaches f s = true ∧ f ≤ 16 ∧ s.boot.stage = .ready) ∧
    (∃ (s : State) (f : Nat) (off : Nat), reaches f s = true ∧ 1 ≤ f ∧ f ≤ 16 ∧ s.boot.stage = .ready ∧ off % 4 = 0 ∧ 0x400008 ≤ off) ∧
    (∃ (s : State), s.power.st ≠ .off) ∧
    (∃ (s : State), s.power.st ≠ .off) :=
  ⟨⟨rdy, 0x7FFFFFC, 32, by decide +kernel⟩,
   ⟨rdy, by decide +kernel⟩,
   ⟨rdy, by decide +kernel⟩,
   ⟨rdy, by decide +kernel⟩,
   ⟨{ rdy with host := { mode := .cxl2, vfEnable := true, numVfs := 16 } }, 16, by decide +kernel⟩,
   ⟨{ rdy with host := { mode := .cxl2, vfEnable := true, numVfs := 16 } }, 16, 0x400008, by decide +kernel⟩,
   ⟨rdy, by decide +kernel⟩,
   ⟨rdy, by decide +kernel⟩⟩

theorem witness_RegisterWrites :
    (∃ (s : State), reaches 0 s = true ∧ readsOnly s = false) ∧
    (∃ (s : State), reaches 0 s = true ∧ readsOnly s = false) ∧
    (∃ (s : State) (f : Nat), reaches f s = true ∧ f ≤ 16 ∧ readsOnly s = false) ∧
    (∃ (s : State) (n : Nat), reaches 0 s = true ∧ readsOnly s = false ∧ n < 8 ∧ (s.fuses.grade = .g → n < 4)) ∧
    (∃ (s : State) (g : Nat), reaches 0 s = true ∧ readsOnly s = false ∧ g < 4 ∧ s.power.st ≠ .n2) ∧
    (∃ (s : State), reaches 0 s = true ∧ readsOnly s = false) ∧
    (∃ (s : State), reaches 0 s = true ∧ readsOnly s = false) ∧
    (∃ (s : State) (k : Nat), reaches 0 s = true ∧ readsOnly s = false ∧ k < 4) ∧
    (∃ (s : State) (p : Nat), reaches 0 s = true ∧ readsOnly s = false ∧ p < 4 ∧ s.stepOf p = none ∧ tget s.tt.pend p none = none) ∧
    (∃ (s : State) (p : Nat), reaches 0 s = true ∧ readsOnly s = false ∧ p < 4 ∧ (s.stepOf p).isSome = true) ∧
    (∃ (s : State) (f : Nat), reaches f s = true ∧ f ≤ 16 ∧ readsOnly s = false) ∧
    (∃ (s : State) (f : Nat) (off : Nat), reaches f s = true ∧ f ≤ 16 ∧ readsOnly s = false ∧ (∀ p < 4, off ≠ 0x8028 + 0x100 * p)) ∧
    (∃ (s : State) (f : Nat) (off : Nat), reaches f s = true ∧ 1 ≤ f ∧ f ≤ 16 ∧ readsOnly s = false ∧ (off < 0x200000 ∨ 0x400000 ≤
      off)) ∧
    (∃ (s : State) (off : Nat), s.live = true ∧ 0x7000 ≤ off ∧ off < 0x7020) :=
  ⟨⟨rdy, by decide +kernel⟩,
   ⟨rdy, by decide +kernel⟩,
   ⟨{ rdy with host := { mode := .cxl2, vfEnable := true, numVfs := 16 } }, 16, by decide +kernel⟩,
   ⟨rdy, 7, by decide +kernel⟩,
   ⟨rdy, 3, by decide +kernel⟩,
   ⟨rdy, by decide +kernel⟩,
   ⟨rdy, by decide +kernel⟩,
   ⟨rdy, 3, by decide +kernel⟩,
   ⟨rdy, 3, by decide +kernel⟩,
   ⟨{ rdy with tt := { steps := [(3, some { seqs := [], rows := 0 })] } }, 3, by decide +kernel⟩,
   ⟨rdy, 0, by decide +kernel⟩,
   ⟨{ rdy with host := { mode := .cxl2, vfEnable := true, numVfs := 16 } }, 16, 0, by decide +kernel⟩,
   ⟨{ rdy with host := { mode := .cxl2, vfEnable := true, numVfs := 16 } }, 16, 0x1FFFFF, by decide +kernel⟩,
   ⟨rdy, 0x7000, by decide +kernel⟩⟩

theorem witness_FunctionResets :
    (∃ (s : State) (n : Nat), portOpen s = true ∧ (s.host.mode = .cxl2 ∨ s.host.mode = .pcie) ∧ s.host.vfEnable = false ∧ n ≤ 16) ∧
    (∃ (s : State) (v : Nat), reaches v s = true ∧ 1 ≤ v ∧ v ≤ 16 ∧ (s.fn v).disabling = .no) ∧
    (∃ (s : State) (v : Nat), reaches v s = true ∧ 1 ≤ v ∧ v ≤ 16 ∧ (s.fn v).disabling ≠ .no) ∧
    (∃ (s : State) (v : BitVec 5), reaches 0 s = true ∧ readsOnly s = false ∧ 2 ≤ v.toNat ∧ v.toNat ≤ 17 ∧ (s.fn (v.toNat -
      1)).disabling = .no) ∧
    (∃ (s : State), reaches 0 s = true) ∧
    (∃ (s : State), reaches 0 s = true ∧ s.host.vfEnable = true) ∧
    (∃ (s : State) (f : Nat), s.live = true ∧ (s.fn f).disabling = .draining ∧ (∀ w ∈ s.work, w.fn ≠ f) ∧ (s.fn f).newTenant = none) :=
  ⟨⟨rdy, 16, by decide +kernel⟩,
   ⟨{ rdy with host := { mode := .cxl2, vfEnable := true, numVfs := 16 } }, 16, by decide +kernel⟩,
   ⟨{ rdy with host := { mode := .cxl2, vfEnable := true, numVfs := 16, fns := [(16, { disabling := .draining })] } }, 16,
     by decide +kernel⟩,
   ⟨rdy, 17, by decide +kernel⟩,
   ⟨rdy, by decide +kernel⟩,
   ⟨{ rdy with host := { mode := .cxl2, vfEnable := true, numVfs := 16 } }, by decide +kernel⟩,
   ⟨{ rdy with host := { mode := .cxl2, vfEnable := true, numVfs := 16, fns := [(16, { disabling := .draining })] } }, 16,
     by decide +kernel⟩⟩

theorem witness_ErrorsAndFaultState :
    (∃ (s : State) (k : Nat), s.live = true ∧ couplingUp k s = true ∧ s.ft.inject.arm = false) ∧
    (∃ (s : State) (k : Nat), s.ready = true ∧ couplingUp k s = true ∧ 4 ≤ s.ft.maxLevel.toNat ∧ mergeInto 0xFF s = none) ∧
    (∃ (s : State) (st : Nat), s.ready = true ∧ st < 2 ∧ 4 ≤ s.ft.maxLevel.toNat ∧ mergeInto (20 + st) s = none) ∧
    (∃ (s : State), s.ready = true ∧ 4 ≤ s.ft.maxLevel.toNat ∧ mergeInto 0xFF s = none) ∧
    (∃ (s : State), s.live = true ∧ s.ft.fault = true ∧ (∀ kv ∈ s.ft.recs, kv.2.isOpen = false)) ∧
    (∃ (s : State), s.live = true) ∧
    (∃ (s : State), reaches 0 s = true ∧ readsOnly s = false) :=
  ⟨⟨rdy, 33, by decide +kernel⟩,
   ⟨rdy, 33, by decide +kernel⟩,
   ⟨rdy, 1, by decide +kernel⟩,
   ⟨rdy, by decide +kernel⟩,
   ⟨{ rdy with ft := { fault := true, recs := [(1, {})] } }, by decide +kernel⟩,
   ⟨rdy, by decide +kernel⟩,
   ⟨rdy, by decide +kernel⟩⟩

theorem witness_Watchdogs :
    (∃ (s : State) (w : Work), s.item w.wid = some w ∧ watching s = true ∧ excused w s = false ∧ imageOp w.opcode = false ∧ recentLevel
      (workDomain w s) s = 0 ∧ 1 ≤ s.ft.maxLevel.toNat ∧ s.ft.stopped = []) ∧
    (∃ (s : State) (e : EngineId), watching s = true ∧ engineExists e s = true ∧ recentLevel (engineDomain e) s = 0 ∧ 2 ≤
      s.ft.maxLevel.toNat ∧ s.ft.stopped = []) ∧
    (∃ (s : State) (e : EngineId), watching s = true ∧ engineExists e s = true ∧ recentLevel (engineDomain e) s = 0 ∧ 2 ≤
      s.ft.maxLevel.toNat ∧ s.ft.stopped = []) ∧
    (∃ (s : State) (p : Nat), StepDue p s ∧ recentLevel (partDomain p s) s = 0 ∧ 3 ≤ s.ft.maxLevel.toNat ∧ s.ft.stopped = []) ∧
    (∃ (s : State) (p : Nat), StepDue p s ∧ recentLevel (partDomain p s) s = 3 ∧ 4 ≤ s.ft.maxLevel.toNat ∧ s.ft.stopped = []) ∧
    (∃ (s : State) (p : Nat), StepDue p s ∧ recentLevel (partDomain p s) s = 0 ∧ s.ft.maxLevel.toNat < 3 ∧ s.ft.stopped = []) ∧
    (∃ (s : State) (st : Nat), watching s = true ∧ st < 2 ∧ recentLevel 0xFF s < 4 ∧ 4 ≤ s.ft.maxLevel.toNat) ∧
    (∃ (s : State) (st : Nat), watching s = true ∧ st < 2 ∧ 4 ≤ recentLevel 0xFF s ∧ 5 ≤ s.ft.maxLevel.toNat) ∧
    (∃ (s : State) (n : Nat), s.ready = true ∧ (tget s.ft.recs (n % 4096) {}).isOpen = true ∧ (tget s.ft.recs (n % 4096)
      {}).number.toNat = n ∧ (tget s.ft.recs (n % 4096) {}).level = 3 ∧ 4 ≤ s.ft.maxLevel.toNat) :=
  ⟨⟨dev [wk 0x20 (0) (.tiles { total := 1 })], wk 0x20 (0) (.tiles { total := 1 }), by decide +kernel⟩,
   ⟨rdy, { kind := 1, unit := 863 }, by decide +kernel⟩,
   ⟨rdy, { kind := 6, unit := 1 }, by decide +kernel⟩,
   ⟨ttDev [] [], 0, by unfold StepDue; decide +kernel⟩,
   ⟨{ ttDev [] [] with ft := { marks := [{ domain := 0, level := 3, ac := 1000 }] } }, 0, by unfold StepDue; decide +kernel⟩,
   ⟨{ ttDev [] [] with ft := { maxLevel := 2 } }, 0, by unfold StepDue; decide +kernel⟩,
   ⟨rdy, 1, by decide +kernel⟩,
   ⟨{ rdy with ft := { marks := [{ domain := 255, level := 4, ac := 1000 }] } }, 1, by decide +kernel⟩,
   ⟨{ rdy with ft := { recs := [(1, { isOpen := true, number := 4097, level := 3 })] } }, 4097, by decide +kernel⟩⟩

theorem witness_HostStartedResets :
    (∃ (s : State) (w : Work), s.item w.wid = some w ∧ runsOn w = false ∧ (match w.prog with | .rail _ => False | _ => True) ∧
      (recorded w = false ∨ wbRoom w.part s = true)) ∧
    (∃ (s : State) (w : Work) (n : Nat) (p : W32), s.item w.wid = some w ∧ w.src = .ring n p ∧ recorded w = true ∧ wbRoom w.part s =
      false ∧ runsOn w = false ∧ (match w.prog with | .rail _ => False | _ => True)) ∧
    (∃ (s : State) (u : Nat), reaches 0 s = true ∧ readsOnly s = false ∧ engineExists { kind := 1, unit := u } s = true ∧ 2 ≤
      s.ft.maxLevel.toNat ∧ (∀ w ∈ s.work, ∀ t ∈ liveTiles w, t.running ≠ some (u / 256, u % 256))) ∧
    (∃ (s : State) (p : Nat), reaches 0 s = true ∧ readsOnly s = false ∧ p < s.partitions ∧ 3 ≤ s.ft.maxLevel.toNat) ∧
    (∃ (s : State) (u : Nat), reaches 0 s = true ∧ readsOnly s = false ∧ s.ready = true ∧ u < 4096 ∧ 4 ≤ s.ft.maxLevel.toNat) ∧
    (∃ (s : State) (u : Nat), reaches 0 s = true ∧ readsOnly s = false ∧ u < 4096 ∧ s.ft.maxLevel.toNat < 4) :=
  ⟨⟨dev [wk 0x20 (0) (.tiles { total := 1 })], wk 0x20 (0) (.tiles { total := 1 }), by refine ⟨?_, ?_, trivial, ?_⟩ <;> decide +kernel⟩,
   ⟨{ dev [wk 0x20 (0) (.tiles { total := 1 })] with waybill := { chains := [(0, { due := true })] } }, wk 0x20 (0) (.tiles
     { total := 1 }), 0, 0, by refine ⟨?_, ?_, ?_, ?_, ?_, trivial⟩ <;> decide +kernel⟩,
   ⟨rdy, 863, by decide +kernel⟩,
   ⟨rdy, 0, by decide +kernel⟩,
   ⟨rdy, 4095, by decide +kernel⟩,
   ⟨{ rdy with ft := { maxLevel := 3 } }, 4095, by decide +kernel⟩⟩

theorem witness_ContextsSavedAndRestored :
    (∃ (s : State) (f : Nat) (c : Nat), reaches f s = true ∧ readsOnly s = false ∧ c < 4096 ∧ ctxForeign f c s = false ∧ saveRefused c
      s = false) ∧
    (∃ (s : State) (f : Nat) (c : Nat), reaches f s = true ∧ readsOnly s = false ∧ c < 4096 ∧ ctxForeign f c s = false ∧ (s.ctx c).st ≠
      .active) ∧
    (∃ (s : State) (f : Nat) (c : Nat), reaches f s = true ∧ readsOnly s = false ∧ c < 4096 ∧ ctxForeign f c s = true) ∧
    (∃ (s : State) (c : Nat), s.live = true ∧ (s.ctx c).st = .saving ∧ saveDone c s = true ∧ semsOf c s = [] ∧ (s.slot703 (s.ctxMap
      c).part).holder = none) ∧
    (∃ (s : State) (f : Nat) (c : Nat), reaches f s = true ∧ readsOnly s = false ∧ c < 4096 ∧ ctxForeign f c s = false ∧ (s.ctx c).st =
      .saved ∧ (s.slot703 (s.ctxMap c).part).holder = none ∧ (s.slot703 (s.ctxMap c).part).waiting = []) ∧
    (∃ (s : State) (f : Nat) (c : Nat), reaches f s = true ∧ readsOnly s = false ∧ c < 4096 ∧ ctxForeign f c s = false ∧ (s.ctx c).st =
      .active) ∧
    (∃ (s : State) (c : Nat), s.live = true ∧ (s.ctx c).restoring = true ∧ connsOf c s = [] ∧ (s.slot703 (s.ctxMap c).part).holder =
      none) ∧
    (∃ (s : State) (f : Nat) (c : Nat), reaches f s = true ∧ readsOnly s = false ∧ c < 4096 ∧ ctxForeign f c s = false ∧ 1 ≤
      s.ft.maxLevel.toNat) :=
  ⟨⟨rdy, 0, 4095, by decide +kernel⟩,
   ⟨{ rdy with ft := { ctxs := [(4095, { st := .saved })] } }, 0, 4095, by decide +kernel⟩,
   ⟨{ rdy with host := { mode := .cxl2, vfEnable := true, numVfs := 16 } }, 16, 4095, by decide +kernel⟩,
   ⟨{ rdy with ft := { ctxs := [(4095, { st := .saving })] } }, 4095, by decide +kernel⟩,
   ⟨{ rdy with ft := { ctxs := [(0, { st := .saved })] } }, 0, 0, by decide +kernel⟩,
   ⟨rdy, 0, 4095, by decide +kernel⟩,
   ⟨{ rdy with ft := { ctxs := [(4095, { restoring := true })] } }, 4095, by decide +kernel⟩,
   ⟨rdy, 0, 4095, by decide +kernel⟩⟩

theorem witness_Semaphores :
    (∃ (s : State) (f : Nat) (t : Nat) (k : Nat) (c : Nat), reaches f s = true ∧ readsOnly s = false ∧ k < 64 ∧ c < 4096 ∧ t < 16 ∧
      semOk f t c s = true ∧ (s.sem (64 * (semTenant f t s).getD 0 + k)).owner = none) ∧
    (∃ (s : State) (f : Nat) (t : Nat) (k : Nat) (c : Nat) (o : Nat), reaches f s = true ∧ readsOnly s = false ∧ k < 64 ∧ c < 4096 ∧ t
      < 16 ∧ semOk f t c s = true ∧ (s.sem (64 * (semTenant f t s).getD 0 + k)).owner = some o ∧ o ≠ c ∧ waitReaches c s
      s.ft.sems.length [o] = false ∧ (s.sem (64 * (semTenant f t s).getD 0 + k)).waiters.any (fun x => x.1 == c) = false ∧ (s.ctx o).st
      = .active) ∧
    (∃ (s : State) (f : Nat) (t : Nat) (k : Nat) (c : Nat) (o : Nat), reaches f s = true ∧ readsOnly s = false ∧ k < 64 ∧ c < 4096 ∧ t
      < 16 ∧ semOk f t c s = true ∧ (s.sem (64 * (semTenant f t s).getD 0 + k)).owner = some o ∧ o ≠ c ∧ waitReaches c s
      s.ft.sems.length [o] = true) ∧
    (∃ (s : State) (f : Nat) (t : Nat) (k : Nat) (c : Nat), reaches f s = true ∧ readsOnly s = false ∧ k < 64 ∧ c < 4096 ∧ t < 16 ∧
      semOk f t c s = true ∧ (s.sem (64 * (semTenant f t s).getD 0 + k)).owner = some c ∧ (s.sem (64 * (semTenant f t s).getD 0 +
      k)).waiters = [] ∧ (s.ctx c).st = .active) ∧
    (∃ (s : State) (f : Nat) (t : Nat) (k : Nat) (c : Nat) (d : Nat) (g : Nat), reaches f s = true ∧ readsOnly s = false ∧ k < 64 ∧ c <
      4096 ∧ t < 16 ∧ semOk f t c s = true ∧ (s.sem (64 * (semTenant f t s).getD 0 + k)).owner = some c ∧ (s.sem (64 * (semTenant f t
      s).getD 0 + k)).waiters = [(d, g)] ∧ (s.ctx c).st = .active) ∧
    (∃ (s : State) (f : Nat) (t : Nat) (k : Nat) (c : Nat), reaches f s = true ∧ readsOnly s = false ∧ k < 64 ∧ c < 4096 ∧ t < 16 ∧
      semOk f t c s = true ∧ (s.sem (64 * (semTenant f t s).getD 0 + k)).owner ≠ some c) :=
  ⟨⟨{ rdy with ft := { sems := [(1023, {  })] }, tn := { ctx := [(4095, { valid := true, part := 0, tenant := 15 })] } }, 0, 15, 63, 4095,
     by decide +kernel⟩,
   ⟨{ rdy with ft := { sems := [(1023, { owner := some 1 })] }, tn := { ctx := [(4095, { valid := true, part := 0, tenant := 15 })] } }, 0,
     15, 63, 4095, 1, by decide +kernel⟩,
   ⟨{ rdy with ft := { sems := [(1022, { owner := some 4095, waiters := [(1, 0)] }), (1023, { owner := some 1 })], ctxs := [(1, { waiting := some (15, 62) })] }, tn := { ctx := [(4095, { valid := true, part := 0, tenant := 15 })] } },
     0, 15, 63, 4095, 1, by decide +kernel⟩,
   ⟨{ rdy with ft := { sems := [(1023, { owner := some 4095 })] }, tn := { ctx := [(4095, { valid := true, part := 0, tenant := 15 })] } },
     0, 15, 63, 4095, by decide +kernel⟩,
   ⟨{ rdy with ft := { sems := [(1023, { owner := some 4095, waiters := [(1, 0)] })] }, tn := { ctx := [(4095, { valid := true, part := 0, tenant := 15 })] } },
     0, 15, 63, 4095, 1, 0, by decide +kernel⟩,
   ⟨{ rdy with ft := { sems := [(1023, { owner := some 1 })] }, tn := { ctx := [(4095, { valid := true, part := 0, tenant := 15 })] } }, 0,
     15, 63, 4095, by decide +kernel⟩⟩

theorem witness_GroveOperationsStart :
    (∃ (s : State) (w : Work), MayStart s w 0x20 ∧ matChecks w s = none) ∧
    (∃ (s : State) (w : Work) (st : Status) (r : Nat), MayStart s w 0x20 ∧ matChecks w s = some (st, r)) ∧
    (∃ (s : State) (w : Work), MayStart s w 0x21 ∧ matChecks w s = none) ∧
    (∃ (s : State) (w : Work) (st : Status) (r : Nat), MayStart s w 0x21 ∧ matChecks w s = some (st, r)) ∧
    (∃ (s : State) (w : Work), MayStart s w 0x22 ∧ vecChecks w s = none) ∧
    (∃ (s : State) (w : Work) (st : Status) (r : Nat), MayStart s w 0x22 ∧ vecChecks w s = some (st, r)) :=
  ⟨⟨dev [wk 0x20 (matBody 1)], wk 0x20 (matBody 1), by unfold MayStart; decide +kernel⟩,
   ⟨dev [wk 0x20 (matBody 0)], wk 0x20 (matBody 0), .malformed, 0x05, by unfold MayStart; decide +kernel⟩,
   ⟨dev [wk 0x21 (matBody 1)], wk 0x21 (matBody 1), by unfold MayStart; decide +kernel⟩,
   ⟨dev [wk 0x21 (matBody 0)], wk 0x21 (matBody 0), .malformed, 0x05, by unfold MayStart; decide +kernel⟩,
   ⟨dev [wk 0x22 (vecBody 64)], wk 0x22 (vecBody 64), by unfold MayStart; decide +kernel⟩,
   ⟨dev [wk 0x22 (vecBody 0)], wk 0x22 (vecBody 0), .malformed, 0x05, by unfold MayStart; decide +kernel⟩⟩

theorem witness_IntegerChecks :
    (∃ (o : TileObs), o.cells = []) ∧
    (∃ (p : Product) (o : TileObs), p.int = true ∧ p.rows ≤ 128 ∧ p.cols ≤ 128 ∧ o.cells = [] ∧ o.lines = []) ∧
    (∃ (p : Product) (o : TileObs) (tile : Nat) (e : CellErr), p.int = true ∧ p.rows ≤ 128 ∧ p.cols ≤ 128 ∧ o.cells = [e] ∧ o.lines =
      [] ∧ e.tile = tile ∧ e.row < p.rows ∧ e.col < p.cols ∧ e.value.toNat ≠ mod32 (p.intSum e.row e.col)) :=
  ⟨⟨{}, by decide +kernel⟩,
   ⟨{ int := true, split := false, group := 4, len := 0, rows := 128, cols := 128, a := fun _ _ => { raw := .ofInt 0 }, b := fun _ _ => { raw := .ofInt 0 }, c0 := fun _ _ => 0 },
     {}, by decide +kernel⟩,
   ⟨{ int := true, split := false, group := 4, len := 0, rows := 128, cols := 128, a := fun _ _ => { raw := .ofInt 0 }, b := fun _ _ => { raw := .ofInt 0 }, c0 := fun _ _ => 0 },
     { cells := [{ tile := 127, row := 127, col := 127, value := 1 }] }, 127, { tile := 127, row := 127, col := 127, value := 1 },
     by decide +kernel⟩⟩

theorem witness_TilesAndChunks :
    (∃ (s : State) (w : Work) (o : TileOp) (k : Nat) (y : TileSt) (x : Nat × Nat), s.item w.wid = some w ∧ s.awake = true ∧ w.prog =
      .tiles o ∧ ctxGiven w s = true ∧ (operandRefs w).any (slotLoading s) = false ∧ standsOf w.part 0 s ≠ [] ∧ dispatchable w k o.live
      (o.nextTile w s) s = some y ∧ placeTile w o.cnt y s = .ok x ∧ s.power.gated.getLsbD x.1 = false) ∧
    (∃ (s : State) (w : Work) (o : TileOp) (k : Nat) (r : Nat) (y : TileSt), s.item w.wid = some w ∧ s.awake = true ∧ w.prog = .tiles o
      ∧ ctxGiven w s = true ∧ (operandRefs w).any (slotLoading s) = false ∧ standsOf w.part 0 s ≠ [] ∧ dispatchable w k o.live
      (o.nextTile w s) s = some y ∧ placeTile w o.cnt y s = .error r) ∧
    (∃ (s : State) (w : Work) (o : TileOp) (y : TileSt) (x : Nat × Nat) (obs : TileObs), s.item w.wid = some w ∧ s.awake = true ∧
      (w.opcode = 0x20 ∨ w.opcode = 0x21) ∧ w.prog = .tiles o ∧ o.live = [y] ∧ o.next ≠ o.total ∧ FirstRun y x ∧ TileReady w y.idx x s
      ∧ passing obs (tileRun w y.idx obs s) ∧ (matOf w).c.regionId.isSome = true) ∧
    (∃ (s : State) (w : Work) (o : TileOp) (y : TileSt) (x : Nat × Nat) (obs : TileObs) (g : Region) (id : Nat) (off : Nat), s.item
      w.wid = some w ∧ s.awake = true ∧ (w.opcode = 0x20 ∨ w.opcode = 0x21) ∧ w.prog = .tiles o ∧ o.live = [y] ∧ o.next = o.total ∧
      FirstRun y x ∧ TileReady w y.idx x s ∧ passing obs (tileRun w y.idx obs s) ∧ wbRoom w.part s = true ∧ (matOf w).c = .hbm id off ∧
      s.region id = some g) ∧
    (∃ (s : State) (w : Work) (o : TileOp) (y : TileSt) (x : Nat × Nat) (obs : TileObs), s.item w.wid = some w ∧ s.awake = true ∧
      (w.opcode = 0x20 ∨ w.opcode = 0x21) ∧ w.prog = .tiles o ∧ o.live = [y] ∧ FirstRun y x ∧ TileReady w y.idx x s ∧ y.recomputes <
      recomputeLimit s ∧ onFail s = false ∧ (tileRun w y.idx obs s).lines.failed = true ∧ obs.sramBad = none ∧ obs.hbm = {} ∧ (s.phys
      x.1 y.phys).st = .active ∧ (s.phys x.1 y.phys).charges + 1 < max 1 (s.grove x.1).retireLimit.toNat) ∧
    (∃ (s : State) (w : Work) (o : TileOp) (y : TileSt) (x : Nat × Nat) (obs : TileObs), s.item w.wid = some w ∧ s.awake = true ∧
      w.opcode = 0x22 ∧ w.prog = .tiles o ∧ o.live = [y] ∧ o.next ≠ o.total ∧ FirstRun y x ∧ retiringStand s x = false ∧ passing obs
      ((vecOf w).run s obs y.idx) ∧ s.ft.inject.arm = false ∧ (vecOf w).poisoned y.idx s = false ∧ (vecOf w).out.regionId.isSome =
      true) ∧
    (∃ (s : State) (w : Work) (o : TileOp), s.item w.wid = some w ∧ s.awake = true ∧ w.prog = .tiles o) :=
  ⟨⟨dev [wk 0x20 (matBody 1) (.tiles { total := 1, next := 1, live := [{ idx := 0 }] })], wk 0x20 (matBody 1) (.tiles
     { total := 1, next := 1, live := [{ idx := 0 }] }), { total := 1, next := 1, live := [{ idx := 0 }] }, 0, { idx := 0 }, (0, 0),
     by decide +kernel⟩,
   ⟨{ dev [wk 0x20 (matBody 1) (.tiles { total := 1, next := 1, live := [{ idx := 0 }] })] with groves := { stands := [(0, { physical := some 0, busy := true })] } },
     wk 0x20 (matBody 1) (.tiles { total := 1, next := 1, live := [{ idx := 0 }] }), { total := 1, next := 1, live := [{ idx := 0 }] }, 0,
     3, { idx := 0 }, by decide +kernel⟩,
   ⟨dev [wk 0x20 (matBody 129) (.tiles
     { total := 2, next := 1, live := [{ idx := 0, running := some (0, 0), phys := 0, home := some 0 }] })], wk 0x20 (matBody 129) (.tiles
     { total := 2, next := 1, live := [{ idx := 0, running := some (0, 0), phys := 0, home := some 0 }] }),
     { total := 2, next := 1, live := [{ idx := 0, running := some (0, 0), phys := 0, home := some 0 }] },
     { idx := 0, running := some (0, 0), phys := 0, home := some 0 }, (0, 0), {}, by unfold passing FirstRun TileReady; decide +kernel⟩,
   ⟨dev [wk 0x20 (matBody 1) (.tiles
     { total := 1, next := 1, live := [{ idx := 0, running := some (0, 0), phys := 0, home := some 0 }] })], wk 0x20 (matBody 1) (.tiles
     { total := 1, next := 1, live := [{ idx := 0, running := some (0, 0), phys := 0, home := some 0 }] }),
     { total := 1, next := 1, live := [{ idx := 0, running := some (0, 0), phys := 0, home := some 0 }] },
     { idx := 0, running := some (0, 0), phys := 0, home := some 0 }, (0, 0), {}, work0, 0, 131072,
     by unfold passing FirstRun TileReady; decide +kernel⟩,
   ⟨dev [wk 0x20 (matBody 1) (.tiles
     { total := 1, next := 1, live := [{ idx := 0, running := some (0, 0), phys := 0, home := some 0 }] })], wk 0x20 (matBody 1) (.tiles
     { total := 1, next := 1, live := [{ idx := 0, running := some (0, 0), phys := 0, home := some 0 }] }),
     { total := 1, next := 1, live := [{ idx := 0, running := some (0, 0), phys := 0, home := some 0 }] },
     { idx := 0, running := some (0, 0), phys := 0, home := some 0 }, (0, 0), { cells := [{ row := 0, col := 0, value := 1 }] },
     by unfold FirstRun TileReady; decide +kernel⟩,
   ⟨dev [wk 0x22 (vecBody 65537) (.tiles
     { total := 2, next := 1, live := [{ idx := 0, running := some (0, 0), phys := 0, home := some 0 }] })], wk 0x22 (vecBody 65537)
     (.tiles { total := 2, next := 1, live := [{ idx := 0, running := some (0, 0), phys := 0, home := some 0 }] }),
     { total := 2, next := 1, live := [{ idx := 0, running := some (0, 0), phys := 0, home := some 0 }] },
     { idx := 0, running := some (0, 0), phys := 0, home := some 0 }, (0, 0), {}, by unfold passing FirstRun; decide +kernel⟩,
   ⟨dev [wk 0x20 (matBody 1) (.tiles { total := 1, next := 1, live := [{ idx := 0 }] })], wk 0x20 (matBody 1) (.tiles
     { total := 1, next := 1, live := [{ idx := 0 }] }), { total := 1, next := 1, live := [{ idx := 0 }] }, by decide +kernel⟩⟩

theorem witness_CanopySlots :
    (∃ (s : State) (w : Work) (b : Nat), MayStart s w 0x23 ∧ refForeign s w.part (refAt w.body 8) = false ∧ refForeign s w.part
      (.canopy (dat w.body 20 2) (dat w.body 21 8) 0) = false ∧ 1 ≤ dat w.body 16 32 ∧ dat w.body 16 32 ≤ 50331648 ∧ refBad s (refAt
      w.body 8) (dat w.body 16 32) = false ∧ (refAt w.body 8).regionId.isSome = true ∧ (s.cslot (dat w.body 20 2) (dat w.body 21 8)).st
      = .empty ∧ canopyBase s (dat w.body 20 2) (ceilDiv (dat w.body 16 32) 65536) = some b) ∧
    (∃ (s : State) (w : Work), MayStart s w 0x23 ∧ refForeign s w.part (refAt w.body 8) = false ∧ refForeign s w.part (.canopy (dat
      w.body 20 2) (dat w.body 21 8) 0) = false ∧ 1 ≤ dat w.body 16 32 ∧ dat w.body 16 32 ≤ 50331648 ∧ refBad s (refAt w.body 8) (dat
      w.body 16 32) = false ∧ (refAt w.body 8).regionId.isSome = true ∧ (s.cslot (dat w.body 20 2) (dat w.body 21 8)).st ≠ .empty) ∧
    (∃ (s : State) (w : Work) (g : Nat) (k : Nat), s.item w.wid = some w ∧ s.awake = true ∧ w.prog = .canopyLoad g k ∧ (s.cslot g k).st
      = .loading ∧ wbRoom w.part s = true) ∧
    (∃ (s : State) (w : Work), MayStart s w 0x24 ∧ refForeign s w.part (.canopy (dat w.body 20 2) (dat w.body 21 8) 0) = false ∧
      (s.cslot (dat w.body 20 2) (dat w.body 21 8)).st ≠ .empty) ∧
    (∃ (s : State) (w : Work), MayStart s w 0x24 ∧ refForeign s w.part (.canopy (dat w.body 20 2) (dat w.body 21 8) 0) = false ∧
      (s.cslot (dat w.body 20 2) (dat w.body 21 8)).st = .empty ∧ wbRoom w.part s = true) ∧
    (∃ (s : State) (w : Work) (g : Nat) (k : Nat), s.item w.wid = some w ∧ s.awake = true ∧ w.prog = .canopyFree g k ∧ wbRoom w.part s
      = true ∧ (∀ x ∈ s.work, x.wid < w.wid → namesSlot g k x = false)) :=
  ⟨⟨dev [wk 0x23 (desc [(8, 64, 0), (16, 32, 65536), (20, 2, 3), (21, 8, 255)])], wk 0x23 (desc [(8, 64, 0), (16, 32, 65536), (20, 2, 3),
     (21, 8, 255)]), 0, by unfold MayStart; decide +kernel⟩,
   ⟨{ dev [wk 0x23 (desc [(8, 64, 0), (16, 32, 65536), (20, 2, 3), (21, 8, 255)])] with groves := { slots := [(1023, { st := .ready, units := 1 })] } },
     wk 0x23 (desc [(8, 64, 0), (16, 32, 65536), (20, 2, 3), (21, 8, 255)]), by unfold MayStart; decide +kernel⟩,
   ⟨{ dev [wk 0x23 (desc [(8, 64, 0), (16, 32, 65536), (20, 2, 3), (21, 8, 255)]) (.canopyLoad 3 255)] with groves := { slots := [(1023, { st := .loading, units := 1 })] } },
     wk 0x23 (desc [(8, 64, 0), (16, 32, 65536), (20, 2, 3), (21, 8, 255)]) (.canopyLoad 3 255), 3, 255, by decide +kernel⟩,
   ⟨{ dev [wk 0x24 (desc [(8, 64, 0), (16, 32, 65536), (20, 2, 3), (21, 8, 255)])] with groves := { slots := [(1023, { st := .ready, units := 1 })] } },
     wk 0x24 (desc [(8, 64, 0), (16, 32, 65536), (20, 2, 3), (21, 8, 255)]), by unfold MayStart; decide +kernel⟩,
   ⟨dev [wk 0x24 (desc [(8, 64, 0), (16, 32, 65536), (20, 2, 3), (21, 8, 255)])], wk 0x24 (desc [(8, 64, 0), (16, 32, 65536), (20, 2, 3),
     (21, 8, 255)]), by unfold MayStart; decide +kernel⟩,
   ⟨{ dev [wk 0x24 (desc [(8, 64, 0), (16, 32, 65536), (20, 2, 3), (21, 8, 255)]) (.canopyFree 3 255)] with groves := { slots := [(1023, { st := .freeing, units := 1 })] } },
     wk 0x24 (desc [(8, 64, 0), (16, 32, 65536), (20, 2, 3), (21, 8, 255)]) (.canopyFree 3 255), 3, 255, by decide +kernel⟩⟩

theorem witness_WaybillCommands :
    (∃ (s : State) (q : SignReq), s.live = true ∧ s.waybill.signing = some q ∧ q.wids = [] ∧ sigRoom q.part s = true) ∧
    (∃ (s : State) (q : SignReq) (w : Work), s.live = true ∧ s.waybill.signing = some q ∧ q.wids = [w.wid] ∧ sigRoom q.part s = true ∧
      s.item w.wid = some w) ∧
    (∃ (s : State) (w : Work) (r : WbRec), MayStart s w 0x81 ∧ wbForeign w.fn (dat w.body 8 8) s = false ∧ (s.chain (dat w.body 8
      8)).recs.getLast? = some r ∧ s.waybill.signing = none ∧ s.trust.unlocked = false) ∧
    (∃ (s : State) (w : Work), MayStart s w 0x81 ∧ wbForeign w.fn (dat w.body 8 8) s = false ∧ (s.chain (dat w.body 8 8)).recs = []) ∧
    (∃ (s : State) (w : Work) (rs : List WbRec), MayStart s w 0x80 ∧ wbForeign w.fn (dat w.body 8 8) s = false ∧ dat w.body 9 8 = 0 ∧
      rs = runFrom (dat w.body 24 64) (min (dat w.body 32 32) (dat w.body 48 32 / 256)) ((s.chain (dat w.body 8 8)).recsOf
      (BitVec.ofNat 64 (dat w.body 16 64))) ∧ rs ≠ [] ∧ (s.chain (dat w.body 8 8)).due = false ∧
      (∀ x ∈ s.work, match x.prog with | .ended _ _ _ => False | _ => True)) ∧
    (∃ (s : State) (w : Work) (gs : List WbSig), MayStart s w 0x80 ∧ wbForeign w.fn (dat w.body 8 8) s = false ∧ dat w.body 9 8 = 1 ∧
      gs = ((s.chain (dat w.body 8 8)).sigs.filter (fun g => g.chain == (if dat w.body 16 64 = 0 then (s.chain (dat w.body 8
      8)).chainId else BitVec.ofNat 64 (dat w.body 16 64)) && decide (g.seq ≥ dat w.body 24 64))).take (min (dat w.body 32 32) (dat
      w.body 48 32 / 256)) ∧ gs ≠ []) ∧
    (∃ (s : State) (w : Work), MayStart s w 0x80 ∧ wbForeign w.fn (dat w.body 8 8) s = false ∧ dat w.body 9 8 = 2 ∧ (∀ r ∈ (s.chain
      (dat w.body 8 8)).recsOf (BitVec.ofNat 64 (dat w.body 16 64)), r.seq ≠ dat w.body 24 64)) ∧
    (∃ (s : State) (w : Work) (g : Region), MayStart s w 0x82 ∧ s.region (dat w.body 8 16) = some g ∧ wbForeign w.fn g.part s = false) ∧
    (∃ (s : State) (w : Work) (id : Nat) (g : Region) (d : Digest), s.item w.wid = some w ∧ s.awake = true ∧ w.prog = .measure id ∧
      s.region id = some g ∧ d = sha384Of (fun i => memGet s.mem.hbm (regionAddr g i)) g.size) :=
  ⟨⟨{ rdy with waybill := { signing := some (sign1 []) } }, sign1 [], by decide +kernel⟩,
   ⟨{ dev [wk 0x81 (0) (.seal 0 1)] with waybill := { signing := some (sign1 [5]) } }, sign1 [5], wk 0x81 (0) (.seal 0 1),
     by decide +kernel⟩,
   ⟨{ dev [wk 0x81 (desc [(8, 8, 0)])] with waybill := { chains := [(0, { recs := [rec1], seq := 1, oldest := 1 })] } }, wk 0x81 (desc [(8,
     8, 0)]), rec1, by unfold MayStart; decide +kernel⟩,
   ⟨dev [wk 0x81 (desc [(8, 8, 0)])], wk 0x81 (desc [(8, 8, 0)]), by unfold MayStart; decide +kernel⟩,
   ⟨{ dev [wk 0x80 (desc [(24, 64, 1), (32, 32, 1), (48, 32, 256)])] with waybill := { chains := [(0, { recs := [rec1], seq := 1, oldest := 1 })] } },
     wk 0x80 (desc [(24, 64, 1), (32, 32, 1), (48, 32, 256)]), [rec1],
     by refine ⟨by unfold MayStart; decide +kernel, ?_, ?_, ?_, ?_, ?_, by intro x hx; obtain rfl := List.mem_singleton.1 hx; trivial⟩ <;> decide +kernel⟩,
   ⟨{ dev [wk 0x80 (desc [(9, 8, 1), (32, 32, 1), (48, 32, 256)])] with waybill := { chains := [(0, { recs := [rec1], seq := 1, oldest := 1, sigs := [sig1] })] } },
     wk 0x80 (desc [(9, 8, 1), (32, 32, 1), (48, 32, 256)]), [sig1], by unfold MayStart; decide +kernel⟩,
   ⟨{ dev [wk 0x80 (desc [(9, 8, 2), (24, 64, 2)])] with waybill := { chains := [(0, { recs := [rec1], seq := 1, oldest := 1 })] } }, wk
     0x80 (desc [(9, 8, 2), (24, 64, 2)]), by unfold MayStart; decide +kernel⟩,
   ⟨dev [wk 0x82 (0)], wk 0x82 (0), work0, by unfold MayStart; decide +kernel⟩,
   ⟨dev [wk 0x82 (0) (.measure 0)], wk 0x82 (0) (.measure 0), 0, work0, sha384Of (fun i => memGet (dev []).mem.hbm (regionAddr work0 i))
     work0.size, by refine ⟨?_, ?_, ?_, ?_, rfl⟩ <;> decide +kernel⟩⟩

theorem witness_KvListsLiveAndDie :
    (∃ (s : State) (w : Work) (g : Region), MayStart s w 0x30 ∧ s.region (dat w.body 8 8) = some g ∧ g.part = w.part ∧ g.kind = 1 ∧
      (geoElem (dat w.body 13 8)).isSome = true ∧ fmtEnabled (dat w.body 13 8 / 16) s = true ∧ geoOk (dat w.body 13 8) = true ∧ 1 ≤ dat
      w.body 10 16 ∧ dat w.body 10 16 ≤ 1008 ∧ 1 ≤ dat w.body 12 8 ∧ dat w.body 12 8 ≤ 64 ∧ (s.pool g.id).reserved < poolFree g s ∧
      wbRoom w.part s = true) ∧
    (∃ (s : State) (w : Work) (g : Region), MayStart s w 0x30 ∧ s.region (dat w.body 8 8) = some g ∧ g.part = w.part ∧ g.kind = 1 ∧
      (geoElem (dat w.body 13 8)).isSome = true ∧ fmtEnabled (dat w.body 13 8 / 16) s = true ∧ geoOk (dat w.body 13 8) = true ∧ 1 ≤ dat
      w.body 10 16 ∧ dat w.body 10 16 ≤ 1008 ∧ 1 ≤ dat w.body 12 8 ∧ dat w.body 12 8 ≤ 64 ∧ poolFree g s ≤ (s.pool g.id).reserved ∧
      wbRoom w.part s = true) ∧
    (∃ (s : State) (w : Work) (h : ListHdr), ListReady s w 0x34 h ∧ dat w.body 16 32 % geoT h.geometry = 0 ∧ h.frozen ≤ dat w.body 16
      32 ∧ dat w.body 16 32 ≤ h.commit ∧ wbRoom w.part s = true) ∧
    (∃ (s : State) (w : Work) (h : ListHdr), ListReady s w 0x34 h ∧ (dat w.body 16 32 < h.frozen ∨ h.commit < dat w.body 16 32)) ∧
    (∃ (s : State) (w : Work) (h : ListHdr), ListReady s w 0x37 h) ∧
    (∃ (s : State) (w : Work) (h : ListHdr), s.item w.wid = some w ∧ s.awake = true ∧ w.prog = .list ∧ (∀ x ∈ s.work, x.wid < w.wid →
      usesList s (dat w.body 8 64) x = false) ∧ listAt s (dat w.body 8 64) = some h ∧ h.st = 2 ∧ wbRoom w.part s = true) :=
  ⟨⟨kvDev ([]) [wk 0x30 (desc [(8, 8, 1), (10, 16, 1008), (12, 8, 64), (13, 8, 0x40)])], wk 0x30 (desc [(8, 8, 1), (10, 16, 1008), (12, 8,
     64), (13, 8, 0x40)]), pages1, by unfold MayStart; decide +kernel⟩,
   ⟨{ dev [wk 0x30 (desc [(8, 8, 1), (10, 16, 1008), (12, 8, 64), (13, 8, 0x40)])] with mem := { pools := [(1, { used := List.range 32 })] } },
     wk 0x30 (desc [(8, 8, 1), (10, 16, 1008), (12, 8, 64), (13, 8, 0x40)]), pages1, by unfold MayStart; decide +kernel⟩,
   ⟨kvDev (listMem 512 0 0 0 0) [wk 0x34 (desc [(8, 64, 2 ^ 48), (16, 32, 512)])], wk 0x34 (desc [(8, 64, 2 ^ 48), (16, 32, 512)]), listHdr
     512 0 0, by unfold ListReady MayStart; decide +kernel⟩,
   ⟨kvDev (listMem 512 0 0 0 0) [wk 0x34 (desc [(8, 64, 2 ^ 48), (16, 32, 1024)])], wk 0x34 (desc [(8, 64, 2 ^ 48), (16, 32, 1024)]),
     listHdr 512 0 0, by unfold ListReady MayStart; decide +kernel⟩,
   ⟨kvDev (listMem 512 0 0 0 0) [wk 0x37 (desc [(8, 64, 2 ^ 48)])], wk 0x37 (desc [(8, 64, 2 ^ 48)]), listHdr 512 0 0,
     by unfold ListReady MayStart; decide +kernel⟩,
   ⟨kvDev (regionPut pages1 22 [2] (listMem 512 0 0 0 0)) [wk 0x37 (desc [(8, 64, 2 ^ 48)]) (.list)], wk 0x37 (desc [(8, 64, 2 ^ 48)])
     (.list), { listHdr 512 0 0 with st := 2 }, by decide +kernel⟩⟩

theorem witness_KvTiersAndKeySlots :
    (∃ (s : State) (w : Work) (h : ListHdr), ListReady s w 0x35 h ∧ firstFail (spillChecks w h s) = none ∧ dat w.body 16 8 ≠ 1 ∧ dat
      w.body 17 8 = 1 ∧ hasCodec w.part s = true ∧ (∀ k < (pageRange w h).2, (pageEnt s h ((pageRange w h).1 + k)).tier = 0)) ∧
    (∃ (s : State) (w : Work) (h : ListHdr) (readers : List Nat), ListReady s w 0x35 h ∧ firstFail (spillChecks w h s) = none ∧ dat
      w.body 16 8 = 1 ∧ wbRoom w.part s = true ∧ readers = (s.work.filter (fun x => decide (x.wid < w.wid) && usesList s (dat w.body 8
      64) x)).map (fun x => x.wid)) ∧
    (∃ (s : State) (w : Work) (h : ListHdr), ListReady s w 0x36 h ∧ (pageRange w h).1 + (pageRange w h).2 ≤ h.pages ∧ (∀ k < (pageRange
      w h).2, (pageEnt s h ((pageRange w h).1 + k)).tier = 0) ∧ wbRoom w.part s = true) ∧
    (∃ (s : State) (w : Work) (h : ListHdr) (g : Region) (e : PageEnt), ListReady s w 0x36 h ∧ (pageRange w h).1 + 1 ≤ h.pages ∧
      (pageRange w h).2 = 1 ∧ pageEnt s h (pageRange w h).1 = e ∧ e.tier = 1 ∧ hasCodec w.part s = true ∧ s.region h.pool = some g ∧
      (s.pool g.id).reserved < poolFree g s ∧ (∀ j < 16, mayRead (locRegion e.loc) (16 * locPage e.loc + j) w.tenant s = true)) ∧
    (∃ (s : State) (pool : Nat) (page : Nat), s.live = true ∧ (s.pool pool).waiting.any (fun x => x.1 == page && x.2.all (fun i =>
      (s.item i).isNone)) = true) ∧
    (∃ (s : State) (w : Work), MayStart s w 0x38 ∧ dat w.body 8 16 < 4096 ∧ ((s.keySlot (dat w.body 8 16)).bound = true → (s.keySlot
      (dat w.body 8 16)).tenant = w.tenant) ∧ wbRoom w.part s = true) ∧
    (∃ (s : State) (w : Work), MayStart s w 0x38 ∧ 4096 ≤ dat w.body 8 16) :=
  ⟨⟨kvDev (listMem 512 512 1 (2 ^ 60 + 2 ^ 38 + 2 ^ 16) 512) [wk 0x35 (desc [(8, 64, 2 ^ 48), (17, 8, 1), (24, 32, 1)])] .unsealed, wk 0x35
     (desc [(8, 64, 2 ^ 48), (17, 8, 1), (24, 32, 1)]), listHdr 512 512 1, by unfold ListReady MayStart; decide +kernel⟩,
   ⟨kvDev (listMem 512 512 1 (2 ^ 60 + 2 ^ 38 + 2 ^ 16) 512) [wk 0x35 (desc [(8, 64, 2 ^ 48), (16, 8, 1), (17, 8, 1), (24, 32, 1)])], wk
     0x35 (desc [(8, 64, 2 ^ 48), (16, 8, 1), (17, 8, 1), (24, 32, 1)]), listHdr 512 512 1, [],
     by unfold ListReady MayStart; decide +kernel⟩,
   ⟨kvDev (listMem 512 512 1 (2 ^ 60 + 2 ^ 38 + 2 ^ 16) 512) [wk 0x36 (desc [(8, 64, 2 ^ 48), (24, 32, 1)])], wk 0x36 (desc [(8, 64, 2 ^
     48), (24, 32, 1)]), listHdr 512 512 1, by unfold ListReady MayStart; decide +kernel⟩,
   ⟨kvDev (listMem 512 512 1 (2 ^ 62 + 2 ^ 60) 512) [wk 0x36 (desc [(8, 64, 2 ^ 48), (24, 32, 1)])], wk 0x36 (desc [(8, 64, 2 ^ 48), (24,
     32, 1)]), listHdr 512 512 1, pages1, { tier := 1, frozen := true, keyslot := 0, loc := 0 },
     by unfold ListReady MayStart; decide +kernel⟩,
   ⟨{ rdy with mem := { pools := [(1, { used := [0, 31], waiting := [(31, [9])] })] } }, 1, 31, by decide +kernel⟩,
   ⟨dev [wk 0x38 (desc [(8, 16, 4095)])], wk 0x38 (desc [(8, 16, 4095)]), by unfold MayStart; decide +kernel⟩,
   ⟨dev [wk 0x38 (desc [(8, 16, 4096)])], wk 0x38 (desc [(8, 16, 4096)]), by unfold MayStart; decide +kernel⟩⟩

theorem witness_KvScatter :
    (∃ (s : State) (w : Work), MayStart s w 0x31 ∧ scatterChecks w s = none) ∧
    (∃ (s : State) (w : Work) (st : Status) (r : Nat), MayStart s w 0x31 ∧ scatterChecks w s = some (st, r)) ∧
    (∃ (s : State) (w : Work) (h : ListHdr), s.item w.wid = some w ∧ s.awake = true ∧ ctxGiven w s = true ∧ w.prog = .scatter
      { seqs := [{}] } ∧ scatterTurn w 0 s = true ∧ wbRoom w.part s = true ∧ listAt s (seqRec s (refAt w.body 16) 0).list = some h ∧
      (seqRec s (refAt w.body 16) 0).length ≠ listCommit s h (dat w.body 8 16)) ∧
    (∃ (s : State) (w : Work) (o : SeqOp) (r : Status × Nat × State), s.item w.wid = some w ∧ s.awake = true ∧ ctxGiven w s = true ∧
      w.prog = .scatter o ∧ o.seqs = [{}, {}] ∧ scatterTurn w 0 s = true ∧ scatterSeq w (seqRec s (refAt w.body 16) 0) s = r) ∧
    (∃ (s : State) (w : Work) (h : ListHdr) (g : Region) (q : SeqRec), q = seqRec s (refAt w.body 16) 0 ∧ listAt s q.list = some h ∧
      s.region h.pool = some g ∧ q.length = listCommit s h (dat w.body 8 16) ∧ listOwner q.list s = none ∧ (∀ b, q.length / geoT
      h.geometry ≤ b → b ≤ (q.length + q.qCount - 1) / geoT h.geometry → (pageEnt s h (pageIdx h b (dat w.body 8 16) 0)).tier ≠ 3)) :=
  ⟨⟨kvDev (seqMem (listMem 512 512 1 (2 ^ 60 + 2 ^ 38 + 2 ^ 16) 0) 0) [wk 0x31 (desc [(10, 4, 7), (12, 32, 1), (16, 64, 0), (24, 64,
     65536), (32, 64, 131072)])], wk 0x31 (desc [(10, 4, 7), (12, 32, 1), (16, 64, 0), (24, 64, 65536), (32, 64, 131072)]),
     by unfold MayStart; decide +kernel⟩,
   ⟨kvDev (seqMem (listMem 512 512 1 (2 ^ 60 + 2 ^ 38 + 2 ^ 16) 0) 0) [wk 0x31 (desc [(10, 4, 7), (12, 32, 0), (16, 64, 0), (24, 64,
     65536), (32, 64, 131072)])], wk 0x31 (desc [(10, 4, 7), (12, 32, 0), (16, 64, 0), (24, 64, 65536), (32, 64, 131072)]), .malformed,
     0x08, by unfold MayStart; decide +kernel⟩,
   ⟨kvDev (seqMem (listMem 512 512 1 (2 ^ 60 + 2 ^ 38 + 2 ^ 16) 512) 5) [wk 0x31 (desc [(10, 4, 7), (12, 32, 1), (16, 64, 0), (24, 64,
     65536), (32, 64, 131072)]) (.scatter { seqs := [{}] })], wk 0x31 (desc [(10, 4, 7), (12, 32, 1), (16, 64, 0), (24, 64, 65536), (32,
     64, 131072)]) (.scatter { seqs := [{}] }), listHdr 512 512 1, by decide +kernel⟩,
   ⟨kvDev (seqMem (listMem 512 512 1 (2 ^ 60 + 2 ^ 38 + 2 ^ 16) 0) 0) [wk 0x31 (desc [(10, 4, 7), (12, 32, 2), (16, 64, 0), (24, 64,
     65536), (32, 64, 131072)]) (.scatter { seqs := [{}, {}] })], wk 0x31 (desc [(10, 4, 7), (12, 32, 2), (16, 64, 0), (24, 64, 65536),
     (32, 64, 131072)]) (.scatter { seqs := [{}, {}] }), { seqs := [{}, {}] }, scatterSeq (wk 0x31 (desc [(10, 4, 7), (12, 32, 2), (16, 64,
     0), (24, 64, 65536), (32, 64, 131072)]) (.scatter { seqs := [{}, {}] })) (seqRec (kvDev (seqMem (listMem 512 512 1 (2 ^ 60 + 2 ^ 38 +
     2 ^ 16) 0) 0) [wk 0x31 (desc [(10, 4, 7), (12, 32, 2), (16, 64, 0), (24, 64, 65536), (32, 64, 131072)]) (.scatter
     { seqs := [{}, {}] })]) (refAt (wk 0x31 (desc [(10, 4, 7), (12, 32, 2), (16, 64, 0), (24, 64, 65536), (32, 64, 131072)]) (.scatter
     { seqs := [{}, {}] })).body 16) 0) (kvDev (seqMem (listMem 512 512 1 (2 ^ 60 + 2 ^ 38 + 2 ^ 16) 0) 0) [wk 0x31 (desc [(10, 4, 7), (12,
     32, 2), (16, 64, 0), (24, 64, 65536), (32, 64, 131072)]) (.scatter { seqs := [{}, {}] })]),
     by refine ⟨?_, ?_, ?_, ?_, ?_, ?_, rfl⟩ <;> decide +kernel⟩,
   ⟨kvDev (seqMem (listMem 512 512 1 (2 ^ 60 + 2 ^ 38 + 2 ^ 16) 0) 0) [wk 0x31 (desc [(10, 4, 7), (12, 32, 1), (16, 64, 0), (24, 64,
     65536), (32, 64, 131072)])], wk 0x31 (desc [(10, 4, 7), (12, 32, 1), (16, 64, 0), (24, 64, 65536), (32, 64, 131072)]), listHdr 512 512
     1, pages1, seqRec (kvDev (seqMem (listMem 512 512 1 (2 ^ 60 + 2 ^ 38 + 2 ^ 16) 0) 0) [wk 0x31 (desc [(10, 4, 7), (12, 32, 1), (16, 64,
     0), (24, 64, 65536), (32, 64, 131072)])]) (refAt (wk 0x31 (desc [(10, 4, 7), (12, 32, 1), (16, 64, 0), (24, 64, 65536), (32, 64,
     131072)])).body 16) 0,
     by refine ⟨rfl, ?_, ?_, ?_, ?_, by intro b _ h; obtain rfl : b = 0 := Nat.le_zero.1 (Nat.le_trans h (by decide +kernel)); decide +kernel⟩ <;> decide +kernel⟩⟩

theorem witness_Attention :
    (∃ (s : State) (w : Work), MayStart s w 0x32 ∧ attChecks w s = none ∧ standsOf w.part 0 s ≠ []) ∧
    (∃ (s : State) (w : Work) (st : Status) (r : Nat), MayStart s w 0x32 ∧ attChecks w s = some (st, r)) ∧
    (∃ (s : State) (w : Work), MayStart s w 0x33 ∧ attChecks w s = none ∧ standsOf w.part 0 s ≠ []) ∧
    (∃ (s : State) (w : Work) (st : Status) (r : Nat), MayStart s w 0x33 ∧ attChecks w s = some (st, r)) ∧
    (∃ (s : State) (w : Work) (o : SeqOp) (q : SeqRec) (h : ListHdr), s.item w.wid = some w ∧ s.awake = true ∧ w.prog = .attend o ∧
      o.seqs = [{}] ∧ (attRecs w s)[0]? = some q ∧ listAt s q.list = some h ∧ q.length ≤ listCommit s h (attOf w s).layer ∧ unitsOf w s
      0 q ≠ []) ∧
    (∃ (s : State) (w : Work) (o : SeqOp) (k : Nat) (x : SeqSt), s.item w.wid = some w ∧ s.awake = true ∧ w.prog = .attend o ∧
      o.seqs[k]? = some x ∧ x.phase = .waiting ∧ (o.done k .malformed 0x07).seqs.all (fun q => q.phase == .done) = false) ∧
    (∃ (s : State) (w : Work) (o : SeqOp) (y : TileSt) (q : SeqRec) (h : ListHdr) (x : Nat × Nat) (z : SeqSt) (obs : TileObs), s.item
      w.wid = some w ∧ s.awake = true ∧ w.prog = .attend o ∧ o.parts = [y] ∧ FirstRun y x ∧ retiringStand s x = false ∧ (attRecs w
      s)[unitSeq y.idx]? = some q ∧ listAt s q.list = some h ∧ unitPoison w s (unitSeq y.idx) q h y.idx = some false ∧ badResident x
      ((unitTiles w s q h y.idx).map (fun r => r.key)) s = false ∧ passing obs (unitRun w s obs q h y.idx) ∧ s.ft.inject.arm = false ∧
      o.seqs[unitSeq y.idx]? = some z ∧ (o.ended.filter (fun e => unitSeq e.unit == unitSeq y.idx)).length + 1 < z.units) :=
  ⟨⟨kvDev (seqMem (listMem 512 512 1 (2 ^ 60 + 2 ^ 38 + 2 ^ 16) 512) 1) [wk 0x32 (desc [(10, 8, 1), (11, 8, 0x77), (13, 8, 0xFF), (14, 8,
     0xFF), (16, 32, 1), (24, 64, 0), (32, 64, 65536), (40, 64, 131072)])], wk 0x32 (desc [(10, 8, 1), (11, 8, 0x77), (13, 8, 0xFF), (14,
     8, 0xFF), (16, 32, 1), (24, 64, 0), (32, 64, 65536), (40, 64, 131072)]), by unfold MayStart; decide +kernel⟩,
   ⟨kvDev (seqMem (listMem 512 512 1 (2 ^ 60 + 2 ^ 38 + 2 ^ 16) 512) 1) [wk 0x32 (desc [(10, 8, 1), (11, 8, 0x77), (13, 8, 0xFF), (14, 8,
     0xFF), (16, 32, 0), (24, 64, 0), (32, 64, 65536), (40, 64, 131072)])], wk 0x32 (desc [(10, 8, 1), (11, 8, 0x77), (13, 8, 0xFF), (14,
     8, 0xFF), (16, 32, 0), (24, 64, 0), (32, 64, 65536), (40, 64, 131072)]), .malformed, 0x08, by unfold MayStart; decide +kernel⟩,
   ⟨kvDev (regionPut work0 4096 (leBytes 8 0 ++ leBytes 8 65536 ++ leBytes 8 131072 ++ leBytes 8 196608 ++ leBytes 8 262144 ++ leBytes 8
     327680 ++ leBytes 8 393216 ++ leBytes 8 458752 ++ leBytes 4 1 ++ leBytes 2 0 ++ [1, 0x77]) (seqMem (listMem 512 512 1 (2 ^ 60 + 2 ^ 38
     + 2 ^ 16) 512) 1)) [wk 0x33 (desc [(8, 64, 4096)])], wk 0x33 (desc [(8, 64, 4096)]), by unfold MayStart; decide +kernel⟩,
   ⟨kvDev (regionPut work0 4096 (leBytes 8 0 ++ leBytes 8 65536 ++ leBytes 8 131072 ++ leBytes 8 196608 ++ leBytes 8 262144 ++ leBytes 8
     327680 ++ leBytes 8 393216 ++ leBytes 8 458752 ++ leBytes 4 0 ++ leBytes 2 0 ++ [1, 0x77]) (seqMem (listMem 512 512 1 (2 ^ 60 + 2 ^ 38
     + 2 ^ 16) 512) 1)) [wk 0x33 (desc [(8, 64, 4096)])], wk 0x33 (desc [(8, 64, 4096)]), .malformed, 0x08,
     by unfold MayStart; decide +kernel⟩,
   ⟨kvDev (seqMem (listMem 512 512 1 (2 ^ 60 + 2 ^ 38 + 2 ^ 16) 512) 1) [wk 0x32 (desc [(10, 8, 1), (11, 8, 0x77), (13, 8, 0xFF), (14, 8,
     0xFF), (16, 32, 1), (24, 64, 0), (32, 64, 65536), (40, 64, 131072)]) (.attend { seqs := [{}] })], wk 0x32 (desc [(10, 8, 1), (11, 8,
     0x77), (13, 8, 0xFF), (14, 8, 0xFF), (16, 32, 1), (24, 64, 0), (32, 64, 65536), (40, 64, 131072)]) (.attend { seqs := [{}] }),
     { seqs := [{}] }, seqRec (kvDev (seqMem (listMem 512 512 1 (2 ^ 60 + 2 ^ 38 + 2 ^ 16) 512) 1) [wk 0x32 (desc [(10, 8, 1), (11, 8,
     0x77), (13, 8, 0xFF), (14, 8, 0xFF), (16, 32, 1), (24, 64, 0), (32, 64, 65536), (40, 64, 131072)]) (.attend { seqs := [{}] })]) (.hbm
     0 0) 0, listHdr 512 512 1, by decide +kernel⟩,
   ⟨kvDev (seqMem (listMem 512 512 1 (2 ^ 60 + 2 ^ 38 + 2 ^ 16) 512) 1) [wk 0x32 (desc [(10, 8, 1), (11, 8, 0x77), (13, 8, 0xFF), (14, 8,
     0xFF), (16, 32, 2), (24, 64, 0), (32, 64, 65536), (40, 64, 131072)]) (.attend { seqs := [{}, {}] })], wk 0x32 (desc [(10, 8, 1), (11,
     8, 0x77), (13, 8, 0xFF), (14, 8, 0xFF), (16, 32, 2), (24, 64, 0), (32, 64, 65536), (40, 64, 131072)]) (.attend { seqs := [{}, {}] }),
     { seqs := [{}, {}] }, 1, {}, by decide +kernel⟩,
   ⟨kvDev (regionPut work0 24 [1] (seqMem (listMem 512 512 1 (2 ^ 60 + 2 ^ 38 + 2 ^ 16) 512) 0)) [wk 0x32 (desc [(10, 8, 1), (11, 8, 0x77),
     (13, 8, 0xFF), (14, 8, 0xFF), (16, 32, 1), (24, 64, 0), (32, 64, 65536), (40, 64, 131072)]) (.attend
     { seqs := [{ phase := .running, units := 2 }], parts := [{ idx := 0, running := some (0, 0), home := some 0 }] })], wk 0x32 (desc
     [(10, 8, 1), (11, 8, 0x77), (13, 8, 0xFF), (14, 8, 0xFF), (16, 32, 1), (24, 64, 0), (32, 64, 65536), (40, 64, 131072)]) (.attend
     { seqs := [{ phase := .running, units := 2 }], parts := [{ idx := 0, running := some (0, 0), home := some 0 }] }),
     { seqs := [{ phase := .running, units := 2 }], parts := [{ idx := 0, running := some (0, 0), home := some 0 }] },
     { idx := 0, running := some (0, 0), home := some 0 }, seqRec (kvDev (regionPut work0 24 [1] (seqMem (listMem 512 512 1 (2 ^ 60 + 2 ^
     38 + 2 ^ 16) 512) 0)) [wk 0x32 (desc [(10, 8, 1), (11, 8, 0x77), (13, 8, 0xFF), (14, 8, 0xFF), (16, 32, 1), (24, 64, 0), (32, 64,
     65536), (40, 64, 131072)]) (.attend
     { seqs := [{ phase := .running, units := 2 }], parts := [{ idx := 0, running := some (0, 0), home := some 0 }] })]) (.hbm 0 0) 0,
     listHdr 512 512 1, (0, 0), { phase := .running, units := 2 }, {}, by unfold passing FirstRun; decide +kernel⟩⟩

theorem witness_TierRegions :
    (∃ (s : State) (w : Work) (map : List Nat), TierReady s w 0x50 ∧ declareChecks w map s = none ∧ admitUnits w.tenant (dat w.body 12
      32) ((dat w.body 9 8).testBit 1) s = none ∧ dat w.body 12 32 ≤ ddrFree s ∧ (dat w.body 9 8).testBit 0 = false) ∧
    (∃ (s : State) (w : Work) (map : List Nat), TierReady s w 0x50 ∧ declareChecks w map s = none ∧ admitUnits w.tenant (dat w.body 12
      32) ((dat w.body 9 8).testBit 1) s = none ∧ dat w.body 12 32 ≤ ddrFree s ∧ (dat w.body 9 8).testBit 0 = true) ∧
    (∃ (s : State) (w : Work) (map : List Nat) (r : Nat), TierReady s w 0x50 ∧ declareChecks w map s = none ∧ admitUnits w.tenant (dat
      w.body 12 32) ((dat w.body 9 8).testBit 1) s = some r) ∧
    (∃ (s : State) (w : Work) (id : Nat), s.item w.wid = some w ∧ s.awake = true ∧ w.prog = .ddrInit id) ∧
    (∃ (s : State) (w : Work), TierReady s w 0x51 ∧ regionChecks w (· == .unsealed) s = none ∧ writesBefore w (dat w.body 8 8) s =
      false) ∧
    (∃ (s : State) (w : Work), TierReady s w 0x51 ∧ regionChecks w (· == .unsealed) s = none ∧ writesBefore w (dat w.body 8 8) s =
      true) ∧
    (∃ (s : State) (w : Work), TierReady s w 0x52 ∧ regionChecks w (· == .sealed) s = none) ∧
    (∃ (s : State) (w : Work), TierReady s w 0x53 ∧ regionChecks w (· != .retiring) s = none) ∧
    (∃ (s : State) (w : Work), TierReady s w 0x56 ∧ regionChecks w (fun _ => true) s = none ∧ (dat w.body 9 8).testBit 0 = true ∧
      (s.ddrRegion (dat w.body 8 8)).pin = false ∧ (s.share (s.ddrRegion (dat w.body 8 8)).tenant).pinned + (s.ddrRegion (dat w.body 8
      8)).units ≤ (s.share (s.ddrRegion (dat w.body 8 8)).tenant).floor.toNat) ∧
    (∃ (s : State) (w : Work), TierReady s w 0x56 ∧ regionChecks w (fun _ => true) s = none ∧ (dat w.body 9 8).testBit 0 = true ∧
      (s.ddrRegion (dat w.body 8 8)).pin = false ∧ (s.share (s.ddrRegion (dat w.body 8 8)).tenant).floor.toNat < (s.share (s.ddrRegion
      (dat w.body 8 8)).tenant).pinned + (s.ddrRegion (dat w.body 8 8)).units) ∧
    (∃ (s : State) (id : Nat) (w : Work), s.live = true ∧ (s.ddrRegion id).inFlight = 0 ∧ (s.ddrRegion id).st = .unsealing ∧ waiterOf
      id 0x52 s = some w) ∧
    (∃ (s : State) (id : Nat), s.live = true ∧ (s.ddrRegion id).inFlight = 0 ∧ (s.ddrRegion id).st = .retiring ∧ waiterOf id 0x53 s =
      none ∧ (∀ x ∈ s.work, match x.prog with | .ddrEvict _ _ => False | _ => True)) ∧
    (∃ (s : State) (k : Nat), writes 0 s = true ∧ k < 16) ∧
    (∃ (s : State) (k : Nat) (v : W32), writes 0 s = true ∧ k < 16 ∧ (s.share k).pinned ≤ (v.setWidth 21).toNat ∧ ((List.range 16).map
      (fun j => if j = k then 0 else (s.share j).floor.toNat)).sum + (v.setWidth 21).toNat ≤ s.ddr.units) ∧
    (∃ (s : State) (k : Nat) (v : W32), writes 0 s = true ∧ k < 16 ∧ (v.setWidth 21).toNat < (s.share k).pinned) :=
  ⟨⟨tierDev [] [wk 0x50 (desc [(8, 8, 255), (12, 32, 4)])], wk 0x50 (desc [(8, 8, 255), (12, 32, 4)]), [],
     by unfold TierReady MayStart; decide +kernel⟩,
   ⟨tierDev [] [wk 0x50 (desc [(8, 8, 255), (9, 8, 1), (12, 32, 4)])], wk 0x50 (desc [(8, 8, 255), (9, 8, 1), (12, 32, 4)]), [3, 2, 1, 0],
     by unfold TierReady MayStart; decide +kernel⟩,
   ⟨tierDev [] [wk 0x50 (desc [(8, 8, 255), (12, 32, 4)])] { cap := 3 }, wk 0x50 (desc [(8, 8, 255), (12, 32, 4)]), [], 1,
     by unfold TierReady MayStart; decide +kernel⟩,
   ⟨tierDev [(255, ddrReg .unsealed 2)] [wk 0x50 (0) (.ddrInit 255)], wk 0x50 (0) (.ddrInit 255), 255, by decide +kernel⟩,
   ⟨tierDev [(255, ddrReg .unsealed 2)] [wk 0x51 (desc [(8, 8, 255)])], wk 0x51 (desc [(8, 8, 255)]),
     by unfold TierReady MayStart; decide +kernel⟩,
   ⟨tierDev [(255, ddrReg .unsealed 2)]
     [{ wk 0x54 (desc [(0, 8, 0x54), (8, 64, 0), (16, 32, 4160), (20, 8, 255), (24, 32, 0)]) (.coding { total := 2 }) with wid := 4 }, wk
     0x51 (desc [(8, 8, 255)])], wk 0x51 (desc [(8, 8, 255)]), by unfold TierReady MayStart; decide +kernel⟩,
   ⟨tierDev [(255, ddrReg .sealed 2)] [wk 0x52 (desc [(8, 8, 255)])], wk 0x52 (desc [(8, 8, 255)]),
     by unfold TierReady MayStart; decide +kernel⟩,
   ⟨tierDev [(255, ddrReg .unsealed 2)] [wk 0x53 (desc [(8, 8, 255)])], wk 0x53 (desc [(8, 8, 255)]),
     by unfold TierReady MayStart; decide +kernel⟩,
   ⟨tierDev [(255, ddrReg .sealed 2)] [wk 0x56 (desc [(8, 8, 255), (9, 8, 1)])] { floor := 2, used := 2 }, wk 0x56 (desc [(8, 8, 255), (9,
     8, 1)]), by unfold TierReady MayStart; decide +kernel⟩,
   ⟨tierDev [(255, ddrReg .sealed 2)] [wk 0x56 (desc [(8, 8, 255), (9, 8, 1)])] { floor := 1, used := 2 }, wk 0x56 (desc [(8, 8, 255), (9,
     8, 1)]), by unfold TierReady MayStart; decide +kernel⟩,
   ⟨tierDev [(255, ddrReg .unsealing 2)] [wk 0x52 (0) (.ddr 255)], 255, wk 0x52 (0) (.ddr 255), by decide +kernel⟩,
   ⟨tierDev [(255, ddrReg .retiring 2)] [], 255,
     by refine ⟨?_, ?_, ?_, ?_, by intro x hx; exact absurd hx List.not_mem_nil⟩ <;> decide +kernel⟩,
   ⟨rdy, 15, by decide +kernel⟩,
   ⟨tierDev [] [], 15, 4, by decide +kernel⟩,
   ⟨tierDev [] [] { floor := 4, used := 4, pinned := 4 }, 1, 3, by decide +kernel⟩⟩

theorem witness_TierBlocks :
    (∃ (s : State) (w : Work), MayStart s w 0x54 ∧ storeChecks w s = none ∧ hasCodec w.part s = true) ∧
    (∃ (s : State) (w : Work), MayStart s w 0x55 ∧ loadChecks w s = none ∧ hasCodec w.part s = true) ∧
    (∃ (s : State) (w : Work) (st : Status) (r : Nat), MayStart s w 0x55 ∧ loadChecks w s = some (st, r)) ∧
    (∃ (s : State) (w : Work) (b : BlockOp) (i : Nat) (plain : List Byte) (stream : List Byte), s.item w.wid = some w ∧ s.awake = true
      ∧ (s.ctx w.context).st ≠ .saved ∧ w.opcode = 0x54 ∧ w.prog = .coding b ∧ i < b.total ∧ i ∉ b.endedIdx ∧ placeOwed w i s = false ∧
      b.ended + 1 < b.total ∧ b.acks = [] ∧ codePlain w i s = some (some plain) ∧ (needsStream (codecOf w s) plain = true → streamFits
      (codecOf w s) plain stream = true)) ∧
    (∃ (s : State) (rd : BlockRead) (obs : DdrObs) (b : Block), s.awake = true ∧ s.readNo rd.rid = some rd ∧ rd.remote = false ∧
      rd.arrived = none ∧ rd.ended = none ∧ servedNow s rd = true ∧ s.ft.inject.arm = false ∧ placeCheck s rd.region rd.place obs = .ok
      b) ∧
    (∃ (s : State) (rd : BlockRead) (obs : DdrObs) (n : Nat), s.awake = true ∧ s.readNo rd.rid = some rd ∧ rd.remote = false ∧
      rd.arrived = none ∧ rd.ended = none ∧ servedNow s rd = true ∧ s.ft.inject.arm = false ∧ placeCheck s rd.region rd.place obs =
      .error (.poisonConsumed, n) ∧ oldestRead rd.forw s = some rd ∧ s.item rd.forw.wid = none) ∧
    (∃ (s : State) (rd : BlockRead), servedNow s rd = false ∧ s.readNo rd.rid = some rd) ∧
    (∃ (s : State) (rd : BlockRead) (w : Work) (x : Block) (b : BlockOp) (plain : List Byte), s.awake = true ∧ s.readNo rd.rid = some
      rd ∧ rd.arrived = some x ∧ rd.ended = none ∧ s.sleeper.reads.filter (fun r => sameConsumer r.forw rd.forw) = [rd] ∧ s.item
      rd.forw.wid = some w ∧ w.opcode = 0x55 ∧ w.prog = .fetching b ∧ b.ended + 1 < b.total ∧ nextExpand rd.part s = some rd ∧ hasCodec
      rd.part s = true ∧ s.ft.inject.arm = false ∧ checkBlock (s.keyInForce rd.tenant rd.remote) (sleeperKey s rd.tenant rd.remote)
      false x = .ok plain) ∧
    (∃ (s : State) (rd : BlockRead) (w : Work) (x : Block) (b : BlockOp), s.awake = true ∧ s.readNo rd.rid = some rd ∧ rd.arrived =
      some x ∧ rd.ended = none ∧ s.sleeper.reads.filter (fun r => sameConsumer r.forw rd.forw) = [rd] ∧ s.item rd.forw.wid = some w ∧
      w.opcode = 0x55 ∧ w.prog = .fetching b ∧ b.ended + 1 < b.total ∧ nextExpand rd.part s = some rd ∧ hasCodec rd.part s = true ∧
      s.ft.inject.arm = false ∧ checkBlock (s.keyInForce rd.tenant rd.remote) (sleeperKey s rd.tenant rd.remote) false x = .error
      .poisonConsumed) :=
  ⟨⟨tierDev [(255, ddrReg .unsealed 2)] [wk 0x54 (desc [(8, 64, 0), (16, 32, 4160), (20, 8, 255), (24, 32, 0)])], wk 0x54 (desc [(8, 64,
     0), (16, 32, 4160), (20, 8, 255), (24, 32, 0)]), by unfold MayStart; decide +kernel⟩,
   ⟨tierDev [(255, ddrReg .sealed 2)] [wk 0x55 (desc [(8, 64, 0), (20, 8, 255), (24, 32, 1019), (28, 32, 1)])], wk 0x55 (desc [(8, 64, 0),
     (20, 8, 255), (24, 32, 1019), (28, 32, 1)]), by unfold MayStart; decide +kernel⟩,
   ⟨tierDev [(255, ddrReg .sealed 2)] [wk 0x55 (desc [(8, 64, 0), (20, 8, 255), (24, 32, 1019), (28, 32, 2)])], wk 0x55 (desc [(8, 64, 0),
     (20, 8, 255), (24, 32, 1019), (28, 32, 2)]), .malformed, 0x04, by unfold MayStart; decide +kernel⟩,
   ⟨tierDev [(255, ddrReg .unsealed 2)] [wk 0x54 (desc [(8, 64, 0), (16, 32, 4160), (20, 8, 255), (24, 32, 0)]) (.coding { total := 2 })],
     wk 0x54 (desc [(8, 64, 0), (16, 32, 4160), (20, 8, 255), (24, 32, 0)]) (.coding { total := 2 }), { total := 2 }, 1, List.replicate 64
     0, [], by decide +kernel⟩,
   ⟨writtenDev, read0 none, {}, zeroBlk, by refine ⟨?_, ?_, ?_, ?_, ?_, ?_, ?_, placeCheck_written⟩ <;> decide +kernel⟩,
   ⟨readDev [] none, read0 none, { uncorr := 1 }, 1, by decide +kernel⟩,
   ⟨readDev [] (some zeroBlk), read0 (some zeroBlk), by decide +kernel⟩,
   ⟨readDev [wk 0x55 (desc [(8, 64, 0), (20, 8, 0), (28, 32, 2)]) (.fetching { total := 2 })] (some zeroBlk), read0 (some zeroBlk), wk 0x55
     (desc [(8, 64, 0), (20, 8, 0), (28, 32, 2)]) (.fetching { total := 2 }), zeroBlk, { total := 2 }, List.replicate 64 0,
     by decide +kernel⟩,
   ⟨readDev [wk 0x55 (desc [(8, 64, 0), (20, 8, 0), (28, 32, 2)]) (.fetching { total := 2 })] (some (poisonBlock 0 0 4096)), read0 (some
     (poisonBlock 0 0 4096)), wk 0x55 (desc [(8, 64, 0), (20, 8, 0), (28, 32, 2)]) (.fetching { total := 2 }), poisonBlock 0 0 4096,
     { total := 2 }, by decide +kernel⟩⟩

theorem witness_TimetablePlacement :
    (∃ (s : State) (w : Work) (b : EntryBlock) (need : Nat) (i : Nat) (g : Region), MayStart s w 0x10 ∧ placeChecks w b s = none ∧
      admitEntry w.part false (blockEntry b).ask s = .ok need ∧ 1 ≤ need ∧ freeEntry w.part (dat w.body 16 8) s = some i ∧ s.region
      (s.ttregs w.part).pool = some g ∧ (blockEntry b).raceValid = false) ∧
    (∃ (s : State) (w : Work) (b : EntryBlock) (st : Status) (c : Nat), MayStart s w 0x10 ∧ placeChecks w b s = none ∧ admitEntry
      w.part false (blockEntry b).ask s = .error (st, c)) ∧
    (∃ (s : State) (w : Work), MayStart s w 0x10 ∧ s.img.draining = true) :=
  ⟨⟨ttDev [] [wk 0x10 (desc [(8, 64, 64), (16, 8, 0)])] (m := sampleMem []), wk 0x10 (desc [(8, 64, 64), (16, 8, 0)]), eblk, 2, 0, pages1,
     by unfold MayStart; decide +kernel⟩,
   ⟨ttDev [] [wk 0x10 (desc [(8, 64, 64), (16, 8, 0)])] (m := sampleMem []), wk 0x10 (desc [(8, 64, 64), (16, 8, 0)]), eblk ^^^
     0xFFFFFFFFFFFFFFFF#1024 <<< 512, .admitTime, 4, by unfold MayStart; decide +kernel⟩,
   ⟨{ ttDev [] [wk 0x10 (desc [(8, 64, 64), (16, 8, 0)])] with img := { image := some ttImage, st := .active, draining := true } }, wk 0x10
     (desc [(8, 64, 64), (16, 8, 0)]), by unfold MayStart; decide +kernel⟩⟩

theorem witness_TimetableOperations :
    (∃ (s : State) (w : Work), MayStart s w 0x11 ∧ opAhead w s = false ∧ headerCheck w s = none ∧ (s.entry (dat w.body 8 16)).accepting
      = false ∧ inStep (dat w.body 8 16) s = false ∧ (s.entry (dat w.body 8 16)).st.cancels = true ∧ (s.entry (dat w.body 8
      16)).fromValid = false) ∧
    (∃ (s : State) (w : Work), MayStart s w 0x11 ∧ opAhead w s = false ∧ headerCheck w s = none ∧ (s.entry (dat w.body 8 16)).accepting
      = false ∧ inStep (dat w.body 8 16) s = true) ∧
    (∃ (s : State) (w : Work), MayStart s w 0x14 ∧ opAhead w s = false ∧ headerCheck w s = some (.malformed, 0x04)) ∧
    (∃ (s : State) (w : Work) (c : Nat), MayStart s w 0x13 ∧ opAhead w s = false ∧ headerCheck w s = none ∧ (s.entry (dat w.body 8
      16)).accepting = false ∧ inStep (dat w.body 8 16) s = false ∧ switching (s.entry (dat w.body 8 16)).part s = false ∧ routable
      (dat w.body 10 7) s = true ∧ handoffConn (s.entry (dat w.body 8 16)).tenant (dat w.body 10 7) s = some c) ∧
    (∃ (s : State) (w : Work), MayStart s w 0x14 ∧ opAhead w s = false ∧ headerCheck w s = none ∧ (s.entry (dat w.body 8 16)).accepting
      = false ∧ inStep (dat w.body 8 16) s = false) ∧
    (∃ (s : State) (w : Work) (need : Nat), MayStart s w 0x15 ∧ opAhead w s = false ∧ headerCheck w s = none ∧ isCache s = false ∧
      (s.entry (dat w.body 8 16)).accepting = false ∧ resumeChecks w (s.entry (dat w.body 8 16)) s = none ∧ admitEntry (s.entry (dat
      w.body 8 16)).part true (resumeEntry w (s.entry (dat w.body 8 16))).ask s = .ok need) ∧
    (∃ (s : State) (w : Work), MayStart s w 0x16 ∧ opAhead w s = false ∧ headerCheck w s = none ∧ (s.entry (dat w.body 8 16)).accepting
      = false ∧ ((s.entry (dat w.body 8 16)).st = .stub ∨ (s.entry (dat w.body 8 16)).st = .lost ∨ (s.entry (dat w.body 8 16)).st =
      .cancelled)) :=
  ⟨⟨ttDev [(0, ent .admitted)] [wk 0x11 (desc [(8, 16, 0), (16, 64, 7)])], wk 0x11 (desc [(8, 16, 0), (16, 64, 7)]),
     by unfold MayStart; decide +kernel⟩,
   ⟨ttDev [(0, ent .decode)] [wk 0x11 (desc [(8, 16, 0), (16, 64, 7)])] [(0, some
     { seqs := [{ entry := 0, pos := 0, input := [], rows := 1, qRow := 0, decode := true, bucket := 0 }], rows := 1 })], wk 0x11 (desc
     [(8, 16, 0), (16, 64, 7)]), by unfold MayStart; decide +kernel⟩,
   ⟨ttDev [(8195, ent .admitted)] [wk 0x14 (desc [(8, 16, 8195), (16, 64, 7)])], wk 0x14 (desc [(8, 16, 8195), (16, 64, 7)]),
     by unfold MayStart; decide +kernel⟩,
   ⟨{ ttDev [(8195, ent .decode)] [wk 0x13 (desc [(8, 16, 8195), (16, 64, 7), (10, 7, 2)])] with rail := { routes := [(11, { valid := true })] }, rc := { conns := [(4095, { st := .opened, service := 0x484F0000, tenant := 1, peerNode := 2 })] } },
     wk 0x13 (desc [(8, 16, 8195), (16, 64, 7), (10, 7, 2)]), 4095, by unfold MayStart; decide +kernel⟩,
   ⟨ttDev [(3, ent .done)] [wk 0x14 (desc [(8, 16, 3), (16, 64, 7)])], wk 0x14 (desc [(8, 16, 3), (16, 64, 7)]),
     by unfold MayStart; decide +kernel⟩,
   ⟨ttDev [(0, { ent .parked with sampling := BitVec.allOnes 64 })] [wk 0x15 (desc [(8, 16, 0), (16, 64, 7), (24, 64, 0), (32, 32, 4), (36,
     32, 4), (40, 64, 2 ^ 64 - 1)])], wk 0x15 (desc [(8, 16, 0), (16, 64, 7), (24, 64, 0), (32, 32, 4), (36, 32, 4), (40, 64, 2 ^ 64 -
     1)]), 2, by unfold MayStart; decide +kernel⟩,
   ⟨ttDev [(0, ent .lost)] [wk 0x16 (desc [(8, 16, 0), (16, 64, 7)])], wk 0x16 (desc [(8, 16, 0), (16, 64, 7)]),
     by unfold MayStart; decide +kernel⟩⟩

theorem witness_TimetableOther :
    (∃ (s : State) (w : Work), MayStart s w 0x12 ∧ w.fn = 0 ∧ 1 ≤ dat w.body 10 16 ∧ dat w.body 8 16 + dat w.body 10 16 ≤ 16384 ∧ dat
      w.body 16 64 % 128 = 0 ∧ dat w.body 10 16 ≤ dat w.body 24 32 / 128 ∧ dat w.body 12 16 = 0) ∧
    (∃ (s : State) (w : Work), MayStart s w 0x17 ∧ programChecks w s = none ∧ s.stepOf w.part = none) ∧
    (∃ (s : State) (w : Work), MayStart s w 0x17 ∧ programChecks w s = none ∧ (s.stepOf w.part).isSome = true) ∧
    (∃ (s : State) (w : Work), MayStart s w 0x18 ∧ (s.tt.races.filter (fun kv => kv.2.isOpen)).length < 1024 ∧ 2 ≤ dat w.body 8 8 ∧ dat
      w.body 8 8 ≤ 4) ∧
    (∃ (s : State) (w : Work), MayStart s w 0x19 ∧ (s.race (dat w.body 8 16)).isOpen = true ∧ (s.race (dat w.body 8 16)).tenant =
      w.tenant) ∧
    (∃ (s : State) (w : Work), MayStart s w 0x19 ∧ (s.race (dat w.body 8 16)).isOpen = false) ∧
    (∃ (s : State) (i : Nat), s.live = true ∧ (s.entry i).counting = true ∧ (s.entry i).budget = 0 ∧ (s.entry i).expired = false) :=
  ⟨⟨ttDev [] [wk 0x12 (desc [(8, 16, 16383), (10, 16, 1), (16, 64, 128), (24, 32, 128)])], wk 0x12 (desc [(8, 16, 16383), (10, 16, 1), (16,
     64, 128), (24, 32, 128)]), by unfold MayStart; decide +kernel⟩,
   ⟨ttDev [] [wk 0x17 (desc [(8, 64, 0), (16, 16, 1), (20, 32, 2), (24, 64, 2 ^ 50), (32, 64, 0), (40, 64, 0), (48, 64, 0)])] (m :=
     regionPut work0 0 [0x20] []), wk 0x17 (desc [(8, 64, 0), (16, 16, 1), (20, 32, 2), (24, 64, 2 ^ 50), (32, 64, 0), (40, 64, 0), (48,
     64, 0)]), by unfold MayStart; decide +kernel⟩,
   ⟨ttDev [] [wk 0x17 (desc [(8, 64, 0), (16, 16, 1), (20, 32, 2), (24, 64, 2 ^ 50), (32, 64, 0), (40, 64, 0), (48, 64, 0)])] (steps :=
     [(0, some { seqs := [{ entry := 0, pos := 0, input := [], rows := 1, qRow := 0, decode := true, bucket := 0 }], rows := 1 })]) (m :=
     regionPut work0 0 [0x20] []), wk 0x17 (desc [(8, 64, 0), (16, 16, 1), (20, 32, 2), (24, 64, 2 ^ 50), (32, 64, 0), (40, 64, 0), (48,
     64, 0)]), by unfold MayStart; decide +kernel⟩,
   ⟨ttDev [] [wk 0x18 (desc [(8, 8, 4)])], wk 0x18 (desc [(8, 8, 4)]), by unfold MayStart; decide +kernel⟩,
   ⟨ttDev [] [wk 0x19 (desc [(8, 16, 1023)])] (races := [(1023, { isOpen := true, tenant := 1 })]), wk 0x19 (desc [(8, 16, 1023)]),
     by unfold MayStart; decide +kernel⟩,
   ⟨ttDev [] [wk 0x19 (desc [(8, 16, 1023)])], wk 0x19 (desc [(8, 16, 1023)]), by unfold MayStart; decide +kernel⟩,
   ⟨ttDev [(3, { ent .admitted with budget := 0 })] [], 3, by decide +kernel⟩⟩

theorem witness_TimetableSteps :
    (∃ (s : State) (p : Nat), mayStep p s = true ∧ candidates p s = []) ∧
    (∃ (s : State) (p : Nat) (g : StepProg) (b : Build), mayStep p s = true ∧ s.progOf p = some g ∧ b = (candidates p s).foldl
      (Build.add p) { state := s } ∧ b.list ≠ [] ∧ ctxMismatch 0 g.context s = true) ∧
    (∃ (s : State) (p : Nat) (g : StepProg) (b : Build) (e : Descriptor × Byte) (rest : List (Descriptor × Byte)), mayStep p s = true ∧
      s.progOf p = some g ∧ b = (candidates p s).foldl (Build.add p) { state := s } ∧ b.list ≠ [] ∧ ctxMismatch 0 g.context s = false ∧
      (∀ q ∈ recordOrder p b.list b.state, q.decode = false) ∧ refBad s (refOf g.x.toNat) (max 1 (b.rows * g.embedRow)) = false ∧
      refBad s (refOf g.logits.toNat) (max 1 (b.rows * (logitsOf p g s).row)) = false ∧ g.entries = e :: rest ∧ e.2.getLsbD 0 = false ∧
      s.item s.nextWid = none) ∧
    (∃ (s : State) (p : Nat) (x : Step) (g : StepProg) (r : W64) (e : Descriptor × Byte), s.awake = true ∧ s.stepOf p = some x ∧
      s.progOf p = some g ∧ x.ended = some (.malformed, r) ∧ g.entries[x.entry]? = some e) ∧
    (∃ (s : State) (p : Nat) (x : Step) (g : StepProg) (r : W64) (e : Descriptor × Byte) (d : Descriptor × Byte), s.awake = true ∧
      s.stepOf p = some x ∧ s.progOf p = some g ∧ x.selected = false ∧ x.ended = some (.ok, r) ∧ g.entries[x.entry]? = some e ∧
      e.2.getLsbD 0 = false ∧ g.entries[x.entry + 1]? = some d ∧ d.2.getLsbD 0 = false ∧ s.item s.nextWid = none) ∧
    (∃ (s : State) (p : Nat) (x : Step) (q : StepSeq) (h : ListHdr), s.awake = true ∧ s.stepOf p = some x ∧ stepDone p x s = true ∧
      wbRoom p s = true ∧ x.failAll = none ∧ x.seqs = [q] ∧ q.status = .ok ∧ q.gone = false ∧ q.decode = false ∧ q.emitted = [] ∧
      (refNum s (s.entry q.entry).tallyRef 346 1).testBit 0 = false ∧ listAt s (s.entry q.entry).list.toNat = some h ∧ (s.entry
      q.entry).askers = [] ∧ (s.entry q.entry).raceHit = none ∧ tget s.tt.pend p none = none ∧
      (∀ w ∈ s.work, match w.prog with | .boundary _ => False | .program _ => False | _ => True)) :=
  ⟨⟨ttDev [] [], 0, by decide +kernel⟩,
   ⟨{ ttDev [(0, ent .admitted)] [] with tn := { parts := [(0, 2)] } }, 0, prog0, (candidates 0
     ({ ttDev [(0, ent .admitted)] [] with tn := { parts := [(0, 2)] } })).foldl (Build.add 0)
     { state := { ttDev [(0, ent .admitted)] [] with tn := { parts := [(0, 2)] } } }, by refine ⟨?_, ?_, rfl, ?_, ?_⟩ <;> decide +kernel⟩,
   ⟨ttDev [(0, ent .admitted)] [], 0, prog0, (candidates 0 (ttDev [(0, ent .admitted)] [])).foldl (Build.add 0)
     { state := ttDev [(0, ent .admitted)] [] }, tileEnt, [tileEnt],
     by refine ⟨?_, ?_, rfl, ?_, ?_, ?_, ?_, ?_, ?_, ?_, ?_⟩ <;> decide +kernel⟩,
   ⟨ttDev [] [] [(0, some { seqs := [], rows := 1, ended := some (.malformed, 0) })], 0,
     { seqs := [], rows := 1, ended := some (.malformed, 0) }, prog0, 0, tileEnt, by decide +kernel⟩,
   ⟨ttDev [] [] [(0, some { seqs := [], rows := 1, ended := some (.ok, 0) })], 0, { seqs := [], rows := 1, ended := some (.ok, 0) }, prog0,
     0, tileEnt, tileEnt, by decide +kernel⟩,
   ⟨ttDev [(0, { ent .prefill with list := 2 ^ 48 })] [] [(0, some
     { seqs := [{ entry := 0, pos := 0, input := [], rows := 4, qRow := 0, decode := false, bucket := 0 }], rows := 4, entry := 2, selected := true })]
     (m := listMem 0 0 0 0 0), 0,
     { seqs := [{ entry := 0, pos := 0, input := [], rows := 4, qRow := 0, decode := false, bucket := 0 }], rows := 4, entry := 2, selected := true },
     { entry := 0, pos := 0, input := [], rows := 4, qRow := 0, decode := false, bucket := 0 }, listHdr 0 0 0,
     by and_intros <;> first | decide +kernel | (intro w hw; exact absurd hw List.not_mem_nil)⟩⟩

theorem witness_RaceMessages :
    (∃ (s : State) (m : Ctl), s.awake = true ∧ m.ctype = 0x20 ∧ (s.conn 0).rx = [] ∧ (s.race (groupOf m)).isOpen = true ∧ (s.race
      (groupOf m)).won = false) ∧
    (∃ (s : State) (src : Nat) (m : Ctl), s.awake = true ∧ m.ctype = 0x21 ∧ (s.conn 0).rx = [] ∧ src ≠ s.me ∧ (s.race (groupOf
      m)).isOpen = true ∧ (s.race (groupOf m)).won = false ∧ (s.race (groupOf m)).joined = [(src, m.sEntry, m.reqId)] ∧ (s.race
      (groupOf m)).claimed = [] ∧ (s.race (groupOf m)).acks = 0 ∧ 2 ≤ (s.race (groupOf m)).members) ∧
    (∃ (s : State) (src : Nat) (m : Ctl), s.awake = true ∧ m.ctype = 0x21 ∧ (s.conn 0).rx = [] ∧ src ≠ s.me ∧ (s.race (groupOf
      m)).isOpen = false) ∧
    (∃ (s : State) (i : Nat) (m : Ctl), s.awake = true ∧ m.ctype = 0x22 ∧ (s.conn 0).rx = [] ∧ m.rEntry = some i ∧ (s.entry i).claiming
      = true ∧ (s.entry i).reqId = m.reqId ∧ (s.entry i).withheld = none) ∧
    (∃ (s : State) (i : Nat) (m : Ctl), s.awake = true ∧ m.ctype = 0x23 ∧ (s.conn 0).rx = [] ∧ m.rEntry = some i ∧ (s.entry i).reqId =
      m.reqId ∧ (s.entry i).st.cancels = true ∧ inStep i s = false ∧ (s.entry i).fromValid = false) ∧
    (∃ (s : State) (i : Nat) (m : Ctl), s.awake = true ∧ m.ctype = 0x24 ∧ (s.conn 0).rx = [] ∧ m.rEntry = some i ∧ (s.entry i).reqId =
      m.reqId ∧ (s.entry i).st.cancels = true ∧ inStep i s = false ∧ (s.entry i).fromValid = false ∧ (s.entry i).raceHome ≠ s.me) ∧
    (∃ (s : State) (m : Ctl), s.awake = true ∧ m.ctype = 0x25 ∧ (s.conn 0).rx = [] ∧ (s.race (groupOf m)).isOpen = true ∧ (s.race
      (groupOf m)).claimed.length + (s.race (groupOf m)).acks + 1 < (s.race (groupOf m)).members) :=
  ⟨⟨ttDev [] [] (races := [(1, { isOpen := true, members := 2 })]), msg 0x20 0 none (.race 1), by decide +kernel⟩,
   ⟨ttDev [] [] (races := [(1, { isOpen := true, members := 2, joined := [(5, 0, 7)] })]), 5, msg 0x21 0 none (.race 1), by decide +kernel⟩,
   ⟨ttDev [] [], 5, msg 0x21 0 none (.race 1), by decide +kernel⟩,
   ⟨ttDev [(8191, { ent .decode with claiming := true })] [], 8191, msg 0x22 0 (some 8191) (.race 1), by decide +kernel⟩,
   ⟨ttDev [(16383, ent .decode)] [], 16383, msg 0x23 0 (some 16383) (.race 1), by decide +kernel⟩,
   ⟨ttDev [(0, { ent .parked with race := 0x82800000 })] [], 0, msg 0x24 0 (some 0) (.race 1), by decide +kernel⟩,
   ⟨ttDev [] [] (races := [(1, { isOpen := true, members := 2 })]), msg 0x25 0 none (.race 1), by decide +kernel⟩⟩

theorem witness_RailLinkTraining :
    (∃ (s : State) (n : Nat) (l : Nat), s.live = true ∧ (s.link n l).st = .down ∧ forwards s = true ∧ s.rail.nodeSet = true) ∧
    (∃ (s : State) (n : Nat) (l : Nat), s.live = true ∧ (s.link n l).st = .failed ∧ forwards s = true ∧ s.rail.nodeSet = true) ∧
    (∃ (s : State), s.live = true ∧ (s.link 0 0).st = .trickle ∧ s.rail.nodeSet = true) ∧
    (∃ (s : State) (n : Nat) (l : Nat) (node : Nat) (slot : Nat) (nonce : Nat) (a : Nat) (inc : W32) (f : Frame) (o : TrainObs), s.live
      = true ∧ (s.link n l).st = .training ∧ f.payload = .train node inc a (linkVersion l .training) slot nonce ∧ node ≠ s.me ∧
      o.versionOk = true ∧ s.fuses.fabric.getLsbD (s.link n l).keySlot = true ∧ s.trust.unlocked = false) ∧
    (∃ (s : State) (n : Nat) (l : Nat) (node : Nat) (slot : Nat) (nonce : Nat) (a : Nat) (inc : W32) (v : BitVec 4) (f : Frame), s.live
      = true ∧ (s.link n l).st = .training ∧ f.payload = .train node inc a v slot nonce) ∧
    (∃ (s : State) (n : Nat) (l : Nat) (f : Frame), s.live = true ∧ (s.link n l).st = .training ∧ (s.link n l).keyed = true ∧ f.typ = 8
      ∧ (s.link n l).peerConf = true) ∧
    (∃ (s : State) (n : Nat) (l : Nat) (f : Frame) (tag : BitVec 128), s.live = true ∧ (s.link n l).st = .training ∧ (s.link n l).keyed
      = true ∧ f.typ = 8 ∧ (tag ≠ rxTag s.me (s.link n l) f ∨ (s.link n l).peerConf = false)) ∧
    (∃ (s : State) (n : Nat) (l : Nat), s.live = true ∧ (s.link n l).st = .training) ∧
    (∃ (s : State) (n : Nat) (l : Nat), s.live = true ∧ (s.link n l).up = true) :=
  ⟨⟨railDev 7 1 { st := .down }, 7, 1, by decide +kernel⟩,
   ⟨railDev 0 0 { st := .failed }, 0, 0, by decide +kernel⟩,
   ⟨railDev 0 0 { st := .trickle }, by decide +kernel⟩,
   ⟨railDev 7 1 { st := .training }, 7, 1, 2, 0, 77, 7, 5, fr 0 2 (.train 2 5 7 2 0 77), { up := [0] }, by decide +kernel⟩,
   ⟨railDev 7 1 { st := .training }, 7, 1, 2, 0, 77, 7, 5, 2, fr 0 2 (.train 2 5 7 2 0 77), by decide +kernel⟩,
   ⟨railDev 0 0 { st := .training, keyed := true, peerConf := true }, 0, 0, fr 8 3, by decide +kernel⟩,
   ⟨railDev 0 0 { st := .training, keyed := true, peerConf := false }, 0, 0, fr 8 3, 0, by decide +kernel⟩,
   ⟨railDev 7 1 { st := .training }, 7, 1, by decide +kernel⟩,
   ⟨railDev 0 0 { st := .degraded }, 0, 0, by decide +kernel⟩⟩

theorem witness_RailLanesAndIdentity :
    (∃ (s : State) (n : Nat) (k : Nat), s.live = true ∧ k < 16 ∧ laneRuns n k s = true ∧ (s.link n (laneLink n k s)).up = true ∧ 2 ≤
      (s.link n (laneLink n k s)).lanesUp ∧ fullDomain (oneDomain (12 + n)) s = none) ∧
    (∃ (s : State) (n : Nat) (k : Nat), s.live = true ∧ k < 16 ∧ laneRuns n k s = true ∧ (s.link n (laneLink n k s)).up = true ∧
      (s.link n (laneLink n k s)).lanesUp ≤ 1) ∧
    (∃ (s : State) (n : Nat) (k : Nat), s.live = true ∧ k < 16 ∧ laneRuns n k s = false ∧ (s.link n (laneLink n k s)).up = true) ∧
    (∃ (s : State) (n : Nat) (k : Nat), writes 0 s = true ∧ k < 2 ∧ (s.link n k).up = true) ∧
    (∃ (s : State) (n : Nat) (l : Nat) (k : Nat), s.live = true ∧ (s.link n l).retrainWaits = true ∧ fullDomain (oneDomain (12 + n)) s
      = none ∧ (linkLanes n l s).filter (fun j => (s.lane n j).st == .los) = [k]) ∧
    (∃ (s : State) (n : Nat) (o : LaneObs), s.live = true ∧ o.lane < 16 ∧ o.locked = true ∧ (s.lantern n).los.toInt + modeOffset
      (s.lane n o.lane).st (laneLink n o.lane s) ≤ o.rx) ∧
    (∃ (s : State), s.live = true ∧ (s.link 0 0).up = true) ∧
    (∃ (s : State) (w : Nat), writes 0 s = true ∧ w < 4) ∧
    (∃ (s : State), s.live = true ∧ linksDown s = true) ∧
    (∃ (s : State), linksDown s = false) :=
  ⟨⟨railDev 7 0 { st := .up, lanesUp := 2 } [(15, { st := .upV3 })], 7, 15, by decide +kernel⟩,
   ⟨railDev 7 0 { st := .up, lanesUp := 1 } [(15, { st := .upV3 })], 7, 15, by decide +kernel⟩,
   ⟨railDev 7 0 { st := .up } [(15, { st := .los })], 7, 15, by decide +kernel⟩,
   ⟨railDev 7 1 { st := .up }, 7, 1, by decide +kernel⟩,
   ⟨railDev 7 0 { st := .up, retrainWaits := true } [(15, { st := .los })], 7, 0, 15, by decide +kernel⟩,
   ⟨railDev 7 0 { st := .up } [(15, { st := .upV3 })], 7, { lane := 15, rx := 0, tx := 0, symCorr := 0, locked := true },
     by decide +kernel⟩,
   ⟨railDev 0 0 { st := .up }, by decide +kernel⟩,
   ⟨rdy, 3, by decide +kernel⟩,
   ⟨{ railDev 0 0 { st := .down } with img := { image := some image } }, by decide +kernel⟩,
   ⟨railDev 0 0 { st := .up }, by decide +kernel⟩⟩

theorem witness_RailLinkFrames :
    (∃ (s : State) (n : Nat) (l : Nat) (f : Frame) (c : Instr), ((c = .linkHb n l f (genuine n l f s) ∧ Arrives n l 4 f s) ∨ (c =
      .ackFrame n l f (genuine n l f s) ∧ Arrives n l 2 f s))) ∧
    (∃ (s : State) (n : Nat) (l : Nat) (f : Frame) (o : FrameObs), s.live = true ∧ listens n l s = true ∧ f.typ = 4 ∧ s.ft.inject.arm =
      false ∧ (o.fecBad ≠ 0 ∨ o.crc ≠ .good ∨ o.tag ≠ rxTag s.me (s.link n l) f ∨ f.version ≠ linkVersion l (s.link n l).st)) ∧
    (∃ (s : State) (n : Nat) (l : Nat) (f : Frame), Arrives n l 3 f s ∧ (∀ x ∈ (ackUpTo f.ackSeq (s.link n l)).unacked, x.resends < 8)) ∧
    (∃ (s : State) (n : Nat) (l : Nat) (f : Frame), Arrives n l 3 f s ∧ (∃ x ∈ (ackUpTo f.ackSeq (s.link n l)).unacked, 8 ≤ x.resends)) ∧
    (∃ (s : State) (n : Nat) (l : Nat), s.live = true ∧ listens n l s = true) ∧
    (∃ (s : State) (n : Nat) (l : Nat), s.live = true ∧ listens n l s = true ∧ (s.link n l).genDue = false) ∧
    (∃ (s : State) (n : Nat) (l : Nat) (f : Frame) (rest : List Frame), s.live = true ∧ listens n l s = true ∧ (s.link n l).genDue =
      false ∧ (s.link n l).ctlq = f :: rest ∧ (s.link n l).ctlLast = false) ∧
    (∃ (s : State) (n : Nat) (l : Nat) (q : QFrame) (rest : List QFrame), s.live = true ∧ listens n l s = true ∧ (s.link n l).genDue =
      false ∧ (s.link n l).ctlq = [] ∧ tget (s.link n l).queues 0 [] = q :: rest ∧ headAdmits n l 0 s = true ∧ passedOver n l 0 s =
      false) ∧
    (∃ (s : State) (n : Nat) (l : Nat), s.live = true ∧ listens n l s = true ∧ (s.link n l).genDue = false ∧ (s.link n l).ctlq = [] ∧
      (∀ c < 8, headAdmits n l c s = false)) ∧
    (∃ (s : State) (n : Nat) (l : Nat) (c : Instr), (c = .linkHbSend n l ∨ c = .frameBoundary n l) ∧ s.live = true ∧ listens n l s =
      true ∧ (s.link n l).up = true ∧ (s.link n l).genDue = true ∧ holds 0x03 (64 * n + 32 + l) s = false ∧ (∀ p ∈ s.ft.queue, ¬
      (p.activity = 0x03 ∧ p.arg = 64 * n + 32 + l)) ∧ fullDomain (oneDomain (12 + n)) s = none) :=
  ⟨⟨railDev 7 0 { st := .up }, 7, 0, fr 4 3, .linkHb 7 0 (fr 4 3) (genuine 7 0 (fr 4 3) (railDev 7 0 { st := .up })), Or.inl ⟨rfl,
     by unfold Arrives; decide +kernel⟩⟩,
   ⟨railDev 7 0 { st := .up }, 7, 0, fr 4 3, { crc := .bad }, by decide +kernel⟩,
   ⟨railDev 7 1 { st := .up, unacked := [sent 5 7] }, 7, 1, fr 3 2 .none 0 5, by unfold Arrives; decide +kernel⟩,
   ⟨railDev 7 1 { st := .up, unacked := [sent 5 8] }, 7, 1, fr 3 2 .none 0 5, by unfold Arrives; decide +kernel⟩,
   ⟨railDev 0 0 { st := .trickle }, 0, 0, by decide +kernel⟩,
   ⟨railDev 7 0 { st := .degraded }, 7, 0, by decide +kernel⟩,
   ⟨railDev 7 0 { st := .up, ctlq := [fr 4 3] }, 7, 0, fr 4 3, [], by decide +kernel⟩,
   ⟨railDev 7 0 { st := .up, queues := [(0, [{ frame := fr 1 3 }])] }, 7, 0, { frame := fr 1 3 }, [], by decide +kernel⟩,
   ⟨railDev 7 0 { st := .up }, 7, 0, by decide +kernel⟩,
   ⟨railDev 7 0 { st := .up, txGen := 2 ^ 24 - 1 }, 7, 0, .linkHbSend 7 0,
     by refine ⟨Or.inl rfl, ?_, ?_, ?_, ?_, ?_, ?_, ?_⟩ <;> decide +kernel⟩⟩

theorem witness_RailDeliveryAndLiveness :
    (∃ (s : State) (n : Nat) (l : Nat) (f : Frame), Arrives n l 1 f s ∧ f.fseq ≠ (s.link n l).rxSeq) ∧
    (∃ (s : State) (n : Nat) (l : Nat) (m : Nat) (f : Frame), Arrives n l 1 f s ∧ f.fseq = (s.link n l).rxSeq ∧ cutEgress l f s = some
      m) ∧
    (∃ (s : State) (n : Nat) (l : Nat) (m : Nat) (f : Frame), Arrives n l 1 f s ∧ cutEgress l f s = some m) ∧
    (∃ (s : State) (n : Nat) (l : Nat) (f : Frame), Arrives n l 1 f s ∧ f.fseq = (s.link n l).rxSeq ∧ f.dst ≠ s.me ∧ forwards s = true
      ∧ cutEgress l f s = none) ∧
    (∃ (s : State) (n : Nat) (l : Nat) (f : Frame) (p : Packet), Arrives n l 1 f s ∧ f.fseq = (s.link n l).rxSeq ∧ f.dst = s.me ∧
      f.payload = .packet p ∧ p.op ≠ 10 ∧ acceptable p.dstConn f.src p s = false) ∧
    (∃ (s : State) (n : Nat) (l : Nat) (f : Frame) (p : Packet), Arrives n l 1 f s ∧ f.fseq = (s.link n l).rxSeq ∧ f.dst = s.me ∧
      f.payload = .packet p ∧ p.op = 2 ∧ p.ctl = none ∧ p.dstConn ≠ 0 ∧ acceptable p.dstConn f.src p s = true ∧ (s.conn p.dstConn).rx =
      [] ∧ p.mseq = (s.conn p.dstConn).rxCum ∧ keyCheck f.src p false s = none ∧ s.power.st ≠ .n2 ∧ s.power.trans = none ∧ 0 <
      p.data.length ∧ p.offset = 0 ∧ p.mlen.toNat = p.data.length) ∧
    (∃ (s : State) (n : Nat) (l : Nat) (f : Frame) (p : Packet), Arrives n l 1 f s ∧ f.fseq = (s.link n l).rxSeq ∧ f.dst = s.me ∧
      f.payload = .packet p ∧ p.op ≠ 10 ∧ acceptable p.dstConn f.src p s = true ∧ needsGroves p = true ∧ s.power.st = .n2 ∧
      s.power.trans = none) ∧
    (∃ (s : State) (n : Nat) (l : Nat) (f : Frame), Arrives n l 7 f s ∧ f.fseq = (s.link n l).rxSeq ∧ f.dst = s.me ∧ s.power.st = .n2 ∧
      s.power.trans = none) ∧
    (∃ (s : State) (n : Nat) (l : Nat) (f : Frame), Arrives n l 6 f s ∧ f.fseq = (s.link n l).rxSeq ∧ f.dst = s.me ∧ s.rc.conns = [(0,
      s.conn 0)] ∧ s.tt.entries = []) ∧
    (∃ (s : State) (n : Nat) (l : Nat) (c : Nat) (x : Conn) (f : Frame), Arrives n l 6 f s ∧ f.fseq = (s.link n l).rxSeq ∧ f.dst = s.me
      ∧ c ≠ 0 ∧ s.rc.conns = [(0, s.conn 0), (c, x)] ∧ x.st = .opened ∧ x.queue = [] ∧ x.recvs = [] ∧ x.opener = none ∧ x.rx = [] ∧
      s.tt.entries = []) ∧
    (∃ (s : State) (n : Nat) (l : Nat) (i : Nat) (e : Entry) (f : Frame), Arrives n l 6 f s ∧ f.fseq = (s.link n l).rxSeq ∧ f.dst =
      s.me ∧ s.rc.conns = [(0, s.conn 0)] ∧ s.tt.entries = [(i, e)] ∧ e.st.owner = true ∧ e.snd = none ∧ e.rcv = none ∧ e.fromValid =
      false ∧ e.askers = [] ∧ s.work = []) ∧
    (∃ (s : State), s.live = true ∧ s.rail.nodeSet = true ∧ forwards s = true) ∧
    (∃ (s : State) (n : Nat) (l : Nat) (m : Nat) (i : W32) (f : Frame), Arrives n l 5 f s ∧ f.dst = s.me ∧ f.payload = .nodeHb m i ∧ m
      < 128 ∧ s.power.st ≠ .n3 ∧ watched m s = true) ∧
    (∃ (s : State), s.live = true ∧ forwards s = true ∧ (∀ m < 128, watched m s = true → ((s.peer m).st = .alive ∨ (s.peer m).st =
      .suspect) → (s.peer m).beat = false → (s.peer m).misses + 1 < max 2 s.rail.liveMiss.toNat)) ∧
    (∃ (s : State) (m : Nat), s.live = true ∧ forwards s = true ∧ m < 128 ∧ (∀ k, watched k s = decide (k = m)) ∧ ((s.peer m).st =
      .alive ∨ (s.peer m).st = .suspect) ∧ (s.peer m).beat = false ∧ max 2 s.rail.liveMiss.toNat ≤ (s.peer m).misses + 1 ∧ s.rc.conns =
      [(0, s.conn 0)] ∧ (s.conn 0).queue = [] ∧ (s.conn 0).unacked = [] ∧ (s.conn 0).txq = [] ∧ s.rc.slots = [] ∧ s.tt.entries = [] ∧
      s.sleeper.reads = []) :=
  ⟨⟨railDev 7 0 { st := .up }, 7, 0, fr 1 3 .none 1, by unfold Arrives; decide +kernel⟩,
   ⟨railDev 7 0 { st := .up }, 7, 0, 7, fr 1 3 .none 0 0 2, by unfold Arrives; decide +kernel⟩,
   ⟨railDev 7 0 { st := .up }, 7, 0, 7, fr 1 3 .none 0xFFFFFFFF 0 2, by unfold Arrives; decide +kernel⟩,
   ⟨railDev 7 1 { st := .up }, 7, 1, fr 1 2 .none 0 0 2, by unfold Arrives; decide +kernel⟩,
   ⟨railDev 7 0 { st := .up }, 7, 0, fr 1 3 (.packet (pkt 1 4095)), pkt 1 4095, by unfold Arrives; decide +kernel⟩,
   ⟨railDev 7 0 { st := .up } [] { conns := [(4095, conn1)], slots := [(65535, slot1)] }, 7, 0, fr 1 3 (.packet (pkt 2 4095 [1] 1 0x1FFFF
     (3 * 2 ^ 39))), pkt 2 4095 [1] 1 0x1FFFF (3 * 2 ^ 39), by unfold Arrives; decide +kernel⟩,
   ⟨{ railDev 7 0 { st := .up } [] { conns := [(4095, conn1)], slots := [(65535, slot1)] } with power := { supplies := true, st := .n2 } },
     7, 0, fr 1 3 (.packet (pkt 2 4095 [1] 1 0x1FFFF (3 * 2 ^ 39))), pkt 2 4095 [1] 1 0x1FFFF (3 * 2 ^ 39),
     by unfold Arrives; decide +kernel⟩,
   ⟨{ railDev 7 0 { st := .up } with power := { supplies := true, st := .n2 } }, 7, 0, fr 7 3, by unfold Arrives; decide +kernel⟩,
   ⟨railDev 7 0 { st := .up }, 7, 0, fr 6 3, by unfold Arrives; decide +kernel⟩,
   ⟨railDev 7 0 { st := .up } [] { conns := [(0, mgmtConn), (4095, conn1)] }, 7, 0, 4095, conn1, fr 6 3, by unfold Arrives; decide +kernel⟩,
   ⟨{ railDev 7 0 { st := .up } with tt := { entries := [(16383, ent .decode)] } }, 7, 0, 16383, ent .decode, fr 6 3,
     by unfold Arrives; decide +kernel⟩,
   ⟨railDev 7 0 { st := .up }, by decide +kernel⟩,
   ⟨onePeer 0, 7, 0, 127, 6, fr 5 3 (.nodeHb 127 6), by unfold Arrives; decide +kernel⟩,
   ⟨onePeer 0, by decide +kernel⟩,
   ⟨onePeer 7, 127, by refine ⟨?_, ?_, ?_, watched_onePeer 7, ?_, ?_, ?_, ?_, ?_, ?_, ?_, ?_, ?_, ?_⟩ <;> decide +kernel⟩⟩

theorem witness_RailConnections :
    (∃ (s : State) (w : Work) (n : Nat), MayStart s w 0x40 ∧ dat w.body 9 4 ≠ 0 ∧ (dat w.body 11 8 = 0 ∨ dat w.body 11 8 = 1 ∨ dat
      w.body 11 8 = 0xFF) ∧ 2 ≤ dat w.body 12 8 ∧ 2 ≤ dat w.body 13 8 ∧ dat w.body 13 8 ≤ 64 ∧ (∀ i, s.img.image = some i → i.fixed =
      true → ∃ p, i.parts[w.part]? = some p ∧ p.classes.getLsbD (dat w.body 8 3) = true) ∧ freeConn (dat w.body 11 8) s = some n) ∧
    (∃ (s : State) (w : Work), MayStart s w 0x40 ∧ (dat w.body 9 4 = 0 ∨ dat w.body 12 8 < 2 ∨ dat w.body 13 8 < 2 ∨ 64 < dat w.body 13
      8)) ∧
    (∃ (s : State) (w : Work) (n : Nat), s.live = true ∧ s.item w.wid = some w ∧ w.prog = .create n ∧ dat w.body 12 8 + dat w.body 13 8
      ≤ pfFree (connStation n) (dat w.body 8 3) s) ∧
    (∃ (s : State) (w : Work) (n : Nat), s.live = true ∧ s.item w.wid = some w ∧ w.prog = .create n) ∧
    (∃ (s : State) (w : Work), MayStart s w 0x41 ∧ connOf w ≠ 0 ∧ connOf w < 4096 ∧ (s.conn (connOf w)).st = .init ∧ (s.conn (connOf
      w)).tenant = w.tenant ∧ dat w.body 10 7 ≠ s.me ∧ (∃ k < 4, (s.conn (connOf w)).paths.getLsbD k = true ∧ (s.route (dat w.body 10
      7) k).valid = true)) ∧
    (∃ (s : State) (w : Work), MayStart s w 0x41 ∧ connOf w ≠ 0 ∧ connOf w < 4096 ∧ (s.conn (connOf w)).st ≠ .init ∧ (s.conn (connOf
      w)).tenant = w.tenant) ∧
    (∃ (s : State) (c : Nat), s.live = true ∧ (s.conn c).st = .opening) ∧
    (∃ (s : State) (w : Work) (c : Nat), s.live = true ∧ (s.conn c).st = .opening ∧ (s.conn c).opener = some w.wid ∧ s.item w.wid =
      some w) ∧
    (∃ (s : State) (w : Work), MayStart s w 0x42 ∧ connOf w ≠ 0 ∧ connOf w < 4096 ∧ (s.conn (connOf w)).tenant = w.tenant ∧ ((s.conn
      (connOf w)).st = .init ∨ (s.conn (connOf w)).st = .error) ∧ (s.conn (connOf w)).queue = [] ∧ (s.conn (connOf w)).recvs = [] ∧
      (s.conn (connOf w)).rx = [] ∧ (s.conn (connOf w)).opener = none ∧ (∀ kv ∈ s.tt.entries, (s.entry kv.1).st ≠ .handoffOut)) ∧
    (∃ (s : State) (w : Work), MayStart s w 0x42 ∧ connOf w ≠ 0 ∧ connOf w < 4096 ∧ (s.conn (connOf w)).tenant = w.tenant ∧ (s.conn
      (connOf w)).st = .opened ∧ (s.conn (connOf w)).queue = [] ∧ (s.conn (connOf w)).recvs = [] ∧ (s.conn (connOf w)).rx = [] ∧
      (s.conn (connOf w)).txq = [] ∧ (∀ kv ∈ s.tt.entries, (s.entry kv.1).st ≠ .handoffOut)) :=
  ⟨⟨railDev 7 0 { st := .up } [] {} [wk 0x40 (desc [(8, 8, 7), (9, 8, 1), (11, 8, 255), (12, 8, 2), (13, 8, 64)])], wk 0x40 (desc [(8, 8,
     7), (9, 8, 1), (11, 8, 255), (12, 8, 2), (13, 8, 64)]), 1, by unfold MayStart; decide +kernel⟩,
   ⟨railDev 7 0 { st := .up } [] {} [wk 0x40 (desc [(8, 8, 7), (9, 8, 1), (11, 8, 255), (12, 8, 2), (13, 8, 65)])], wk 0x40 (desc [(8, 8,
     7), (9, 8, 1), (11, 8, 255), (12, 8, 2), (13, 8, 65)]), by unfold MayStart; decide +kernel⟩,
   ⟨{ railDev 7 0 { st := .up } [] {} [wk 0x40 (desc [(8, 8, 7), (9, 8, 1), (12, 8, 2), (13, 8, 64)]) (.create 4095)] with img := { image := some { image with pfMin := [[8], [0, 0, 0, 0, 0, 0, 0, 66]], pfCap := [[8], [0, 0, 0, 0, 0, 0, 0, 504]] }, st := .active } },
     wk 0x40 (desc [(8, 8, 7), (9, 8, 1), (12, 8, 2), (13, 8, 64)]) (.create 4095), 4095, by decide +kernel⟩,
   ⟨railDev 7 0 { st := .up } [] {} [wk 0x40 (desc [(8, 8, 7), (9, 8, 1), (12, 8, 2), (13, 8, 64)]) (.create 4095)], wk 0x40 (desc [(8, 8,
     7), (9, 8, 1), (12, 8, 2), (13, 8, 64)]) (.create 4095), 4095, by decide +kernel⟩,
   ⟨railDev 7 0 { st := .up } [] { conns := [(4095, { conn1 .init with turn := 0 })] } [wk 0x41 (desc [(8, 16, 4095), (10, 8, 2)])], wk
     0x41 (desc [(8, 16, 4095), (10, 8, 2)]), by unfold MayStart; decide +kernel⟩,
   ⟨railDev 7 0 { st := .up } [] { conns := [(4095, { conn1 .opened with turn := 0 })] } [wk 0x41 (desc [(8, 16, 4095), (10, 8, 2)])], wk
     0x41 (desc [(8, 16, 4095), (10, 8, 2)]), by unfold MayStart; decide +kernel⟩,
   ⟨railDev 7 0 { st := .up } [] { conns := [(4095, { conn1 .opening with turn := 0 })] }, 4095, by decide +kernel⟩,
   ⟨railDev 7 0 { st := .up } [] { conns := [(4095, { conn1 .opening with turn := 0, opener := some 5 })] } [wk 0x41 (0) (.conn 4095)], wk
     0x41 (0) (.conn 4095), 4095, by decide +kernel⟩,
   ⟨railDev 7 0 { st := .up } [] { conns := [(4095, { conn1 .error with turn := 0 })] } [wk 0x42 (desc [(8, 16, 4095)])], wk 0x42 (desc
     [(8, 16, 4095)]), by unfold MayStart; decide +kernel⟩,
   ⟨railDev 7 0 { st := .up } [] { conns := [(4095, { conn1 .opened with turn := 0 })] } [wk 0x42 (desc [(8, 16, 4095)])], wk 0x42 (desc
     [(8, 16, 4095)]), by unfold MayStart; decide +kernel⟩⟩

theorem witness_RailKeysAndTriggers :
    (∃ (s : State) (w : Work) (g : Region) (k : Nat), MayStart s w 0x49 ∧ s.region (dat w.body 8 8) = some g ∧ g.part = w.part ∧ dat
      w.body 16 64 + dat w.body 24 64 ≤ g.size ∧ 1 ≤ dat w.body 9 8 ∧ dat w.body 9 8 ≤ 7 ∧ dat w.body 16 64 % 4096 = 0 ∧ dat w.body 24
      64 % 4096 = 0 ∧ dat w.body 24 64 ≠ 0 ∧ freeSlot s = some k) ∧
    (∃ (s : State) (w : Work) (g : Region), MayStart s w 0x49 ∧ s.region (dat w.body 8 8) = some g ∧ g.part = w.part ∧ (g.size < dat
      w.body 16 64 + dat w.body 24 64 ∨ dat w.body 9 8 = 0 ∨ 7 < dat w.body 9 8 ∨ dat w.body 16 64 % 4096 ≠ 0 ∨ dat w.body 24 64 % 4096
      ≠ 0 ∨ dat w.body 24 64 = 0)) ∧
    (∃ (s : State) (w : Work), MayStart s w 0x4A ∧ (s.slot (dat w.body 40 32 % 65536)).st = .registered ∧ (s.slot (dat w.body 40 32 %
      65536)).tenant = w.tenant ∧ (s.slot (dat w.body 40 32 % 65536)).gen.toNat = dat w.body 40 32 / 65536 ∧ (∀ x ∈ s.work, x.prog ≠
      .revoke (dat w.body 40 32 % 65536))) ∧
    (∃ (s : State) (w : Work), MayStart s w 0x4A ∧ (s.slot (dat w.body 40 32 % 65536)).tenant = w.tenant ∧ (s.slot (dat w.body 40 32 %
      65536)).gen.toNat ≠ dat w.body 40 32 / 65536) ∧
    (∃ (s : State) (w : Work), MayStart s w 0x4B ∧ dat w.body 8 16 < 4096 ∧ ((s.trig (dat w.body 8 16)).bound = false ∨ (s.trig (dat
      w.body 8 16)).tenant = w.tenant)) ∧
    (∃ (s : State) (w : Work), MayStart s w 0x4B ∧ dat w.body 8 16 < 4096 ∧ (s.trig (dat w.body 8 16)).bound = true ∧ (s.trig (dat
      w.body 8 16)).tenant ≠ w.tenant) :=
  ⟨⟨railDev 7 0 { st := .up } [] {} [wk 0x49 (desc [(8, 8, 0), (9, 8, 7), (16, 64, 4096), (24, 64, 2093056)])], wk 0x49 (desc [(8, 8, 0),
     (9, 8, 7), (16, 64, 4096), (24, 64, 2093056)]), work0, 0, by unfold MayStart; decide +kernel⟩,
   ⟨railDev 7 0 { st := .up } [] {} [wk 0x49 (desc [(8, 8, 0), (9, 8, 7), (16, 64, 4096), (24, 64, 2097152)])], wk 0x49 (desc [(8, 8, 0),
     (9, 8, 7), (16, 64, 4096), (24, 64, 2097152)]), work0, by unfold MayStart; decide +kernel⟩,
   ⟨railDev 7 0 { st := .up } [] { slots := [(65535, slot1)] } [wk 0x4A (desc [(40, 32, 0x1FFFF)])], wk 0x4A (desc [(40, 32, 0x1FFFF)]),
     by refine ⟨by unfold MayStart; decide +kernel, ?_, ?_, ?_, by decide +kernel⟩ <;> decide +kernel⟩,
   ⟨railDev 7 0 { st := .up } [] { slots := [(65535, slot1)] } [wk 0x4A (desc [(40, 32, 0x2FFFF)])], wk 0x4A (desc [(40, 32, 0x2FFFF)]),
     by unfold MayStart; decide +kernel⟩,
   ⟨railDev 7 0 { st := .up } [] {} [wk 0x4B (desc [(8, 16, 4095)])], wk 0x4B (desc [(8, 16, 4095)]), by unfold MayStart; decide +kernel⟩,
   ⟨railDev 7 0 { st := .up } [] { trigs := [(4095, { bound := true, tenant := 2 })] } [wk 0x4B (desc [(8, 16, 4095)])], wk 0x4B (desc [(8,
     16, 4095)]), by unfold MayStart; decide +kernel⟩⟩

theorem witness_RailRequests :
    (∃ (s : State) (w : Work) (c : Instr) (op : Byte), (c, op) ∈ [(Instr.rlSend w.wid, (0x43 : Byte)), (Instr.rlWrite w.wid, 0x45),
      (Instr.rlRead w.wid, 0x46), (Instr.rlAtomic w.wid, 0x47), (Instr.rlFence w.wid, 0x48)] ∧ MayStart s w op ∧ reqChecks w s = none) ∧
    (∃ (s : State) (w : Work), MayStart s w 0x44 ∧ reqChecks w s = none) ∧
    (∃ (s : State) (w : Work) (st : Status) (r : Nat) (c : Instr) (op : Byte), (c, op) ∈ [(Instr.rlSend w.wid, (0x43 : Byte)),
      (Instr.rlRecv w.wid, 0x44), (Instr.rlWrite w.wid, 0x45), (Instr.rlRead w.wid, 0x46), (Instr.rlAtomic w.wid, 0x47), (Instr.rlFence
      w.wid, 0x48)] ∧ MayStart s w op ∧ reqChecks w s = some (st, r)) ∧
    (∃ (s : State) (w : Work), MayStart s w 0x45 ∧ connOf w ≠ 0 ∧ connOf w < 4096 ∧ (s.conn (connOf w)).tenant = w.tenant ∧ refForeign
      s w.part (localRef w) = false ∧ (dat w.body 10 8).testBit 0 = false ∧ (s.conn (connOf w)).st = .init) ∧
    (∃ (s : State) (w : Work) (c : Instr), s.live = true ∧ s.item w.wid = some w ∧ w.prog = .rail {} ∧ hasTurn w s = true ∧ w.opcode ≠
      0x48 ∧ (c = .railRequestIssue w.wid ∧ armed w = false ∨ c = .armedRequestIssue w.wid ∧ armed w = true ∧ (s.trig (dat w.body 12
      16)).bound = true ∧ (s.trig (dat w.body 12 16)).tenant = w.tenant ∧ dat w.body 16 32 ≤ (s.trig (dat w.body 12 16)).value.toNat) ∧
      1 ≤ reqLen w ∧ reqLen w ≤ maxData (connOf w) (s.conn (connOf w)) ∧ (s.conn (connOf w)).txq = [] ∧ (s.conn (connOf w)).saved =
      false ∧ (s.conn (connOf w)).unacked.length < txLimit (connOf w) (s.conn (connOf w))) ∧
    (∃ (s : State) (w : Work), s.item w.wid = some w ∧ w.prog = .rail {} ∧ armed w = true ∧ (s.trig (dat w.body 12 16)).value.toNat <
      dat w.body 16 32) ∧
    (∃ (s : State) (w : Work), s.live = true ∧ s.item w.wid = some w ∧ w.prog = .rail {} ∧ w.opcode = 0x48 ∧ armed w = false ∧ (s.conn
      (connOf w)).st = .opened ∧ (s.conn (connOf w)).queue = [w.wid] ∧ (s.conn (connOf w)).cum = (s.conn (connOf w)).nextMseq) ∧
    (∃ (s : State) (c : Nat) (m : W32) (o : Nat) (x : TxPkt), s.live = true ∧ (s.conn c).unacked = [x] ∧ x.pkt.mseq = m ∧ x.pkt.offset
      = o ∧ (c = 0 ∨ x.sends < max 1 s.rc.retxMax.toNat)) ∧
    (∃ (s : State) (c : Nat) (m : W32) (o : Nat) (x : TxPkt), s.live = true ∧ c ≠ 0 ∧ (s.conn c).unacked = [x] ∧ x.pkt.mseq = m ∧
      x.pkt.offset = o ∧ max 1 s.rc.retxMax.toNat ≤ x.sends ∧ (s.conn c).queue = [] ∧ (s.conn c).recvs = [] ∧ (s.conn c).rx = [] ∧
      (s.conn c).opener = none ∧ s.tt.entries = []) :=
  ⟨⟨railDev 7 0 { st := .up } [] { conns := [(4095, { conn1 .opened with turn := 0 })] } [wk 0x47 (desc [(8, 16, 4095), (20, 32, 8), (24,
     64, 0)])], wk 0x47 (desc [(8, 16, 4095), (20, 32, 8), (24, 64, 0)]), .rlAtomic 5, 0x47, by unfold MayStart; decide +kernel⟩,
   ⟨railDev 7 0 { st := .up } [] { conns := [(4095, { conn1 .opened with turn := 0 })] } [wk 0x44 (desc [(8, 16, 4095), (20, 32, 8), (24,
     64, 0)])], wk 0x44 (desc [(8, 16, 4095), (20, 32, 8), (24, 64, 0)]), by unfold MayStart; decide +kernel⟩,
   ⟨railDev 7 0 { st := .up } [] { conns := [(4095, { conn1 .init with turn := 0 })] } [wk 0x44 (desc [(8, 16, 4095), (20, 32, 8), (24, 64,
     0)])], wk 0x44 (desc [(8, 16, 4095), (20, 32, 8), (24, 64, 0)]), .malformed, 2, .rlRecv 5, 0x44, by unfold MayStart; decide +kernel⟩,
   ⟨railDev 7 0 { st := .up } [] { conns := [(4095, { conn1 .init with turn := 0 })] } [wk 0x45 (desc [(8, 16, 4095), (20, 32, 8), (24, 64,
     0)])], wk 0x45 (desc [(8, 16, 4095), (20, 32, 8), (24, 64, 0)]), by unfold MayStart; decide +kernel⟩,
   ⟨railDev 7 0 { st := .up } [] { conns := [(4095, { conn1 .opened with turn := 0, queue := [5] })] } [wk 0x43 (desc [(8, 16, 4095), (20,
     32, 8), (24, 64, 0)]) (.rail {})], wk 0x43 (desc [(8, 16, 4095), (20, 32, 8), (24, 64, 0)]) (.rail {}), .railRequestIssue 5,
     by decide +kernel⟩,
   ⟨railDev 7 0 { st := .up } [] { conns := [(4095, { conn1 .opened with turn := 0 })] } [wk 0x43 (desc [(8, 16, 4095), (20, 32, 8), (24,
     64, 0), (10, 8, 1), (16, 32, 1)]) (.rail {})], wk 0x43 (desc [(8, 16, 4095), (20, 32, 8), (24, 64, 0), (10, 8, 1), (16, 32, 1)])
     (.rail {}), by decide +kernel⟩,
   ⟨railDev 7 0 { st := .up } [] { conns := [(4095, { conn1 .opened with turn := 0, queue := [5] })] } [wk 0x48 (desc [(8, 16, 4095), (20,
     32, 8), (24, 64, 0)]) (.rail {})], wk 0x48 (desc [(8, 16, 4095), (20, 32, 8), (24, 64, 0)]) (.rail {}), by decide +kernel⟩,
   ⟨railDev 7 0 { st := .up } []
     { conns := [(4095, { conn1 .opened with turn := 0, unacked := [{ pkt := { pkt 1 4095 with mseq := 6, offset := 4048 }, dst := 2, sends := 7, path := 0 }] })] },
     4095, 6, 4048, { pkt := { pkt 1 4095 with mseq := 6, offset := 4048 }, dst := 2, sends := 7, path := 0 }, by decide +kernel⟩,
   ⟨railDev 7 0 { st := .up } []
     { conns := [(4095, { conn1 .opened with turn := 0, unacked := [{ pkt := { pkt 1 4095 with mseq := 6, offset := 4048 }, dst := 2, sends := 8, path := 0 }] })] },
     4095, 6, 4048, { pkt := { pkt 1 4095 with mseq := 6, offset := 4048 }, dst := 2, sends := 8, path := 0 }, by decide +kernel⟩⟩

theorem witness_RailEffects :
    (∃ (s : State) (c : Nat) (id : Nat) (off : Nat) (m : RxMsg) (w : Work) (ws : List Work) (g : Region) (bs : List Byte), s.awake =
      true ∧ c ≠ 0 ∧ nextRx c (· == 1) s = some m ∧ (s.conn c).recvs.filterMap s.item = w :: ws ∧ w.prog = .posted ∧ localRef w = .hbm
      id off ∧ s.region id = some g ∧ m.mlen ≤ reqLen w ∧ m.got = [(0, bs)] ∧ m.poison = false ∧ m.slot = none ∧ m.notify = none ∧
      (s.conn c).st = .opened ∧ noneDropped c s) ∧
    (∃ (s : State) (c : Nat) (m : RxMsg) (w : Work) (ws : List Work), s.awake = true ∧ c ≠ 0 ∧ nextRx c (· == 1) s = some m ∧ (s.conn
      c).recvs.filterMap s.item = w :: ws ∧ w.prog = .posted ∧ reqLen w < m.mlen ∧ m.slot = none ∧ (s.conn c).st = .opened ∧
      noneDropped c s) ∧
    (∃ (s : State) (c : Nat), (nextRx c (· == 1) s = none ∨ (s.conn c).recvs = [])) ∧
    (∃ (s : State) (c : Nat) (k : Nat) (id : Nat) (off : Nat) (m : RxMsg) (g : Region) (bs : List Byte), s.awake = true ∧ c ≠ 0 ∧
      nextRx c (· == 2) s = some m ∧ m.refused = none ∧ m.ctl = none ∧ slotRef s m = .hbm id off ∧ s.region id = some g ∧ m.got = [(0,
      bs)] ∧ m.poison = false ∧ m.slot = some k ∧ (s.slot k).st = .registered ∧ (s.conn c).st = .opened ∧ noneDropped c s) ∧
    (∃ (s : State) (c : Nat) (m : RxMsg) (st : Status), s.awake = true ∧ c ≠ 0 ∧ nextRx c (· == 2) s = some m ∧ m.refused = some st ∧
      m.slot = none ∧ (s.conn c).st = .opened ∧ noneDropped c s) ∧
    (∃ (s : State) (c : Nat) (k : Nat) (m : RxMsg), s.awake = true ∧ c ≠ 0 ∧ nextRx c (· == 3) s = some m ∧ m.refused = none ∧ m.ctl =
      none ∧ m.slot = some k ∧ (s.slot k).st = .registered ∧ (s.conn c).st = .opened ∧ noneDropped c s ∧ 1 ≤ m.mlen ∧ m.mlen ≤ maxData
      c (s.conn c) ∧ (s.conn c).txq = [] ∧ (s.conn c).saved = false ∧ (s.conn c).unacked.length < txLimit c (s.conn c)) ∧
    (∃ (s : State) (c : Nat) (k : Nat) (id : Nat) (off : Nat) (m : RxMsg) (g : Region), s.awake = true ∧ c ≠ 0 ∧ m.refused = none ∧
      m.slot = some k ∧ (s.slot k).st = .registered ∧ (s.conn c).st = .opened ∧ noneDropped c s ∧ slotRef s m = .hbm id off ∧ s.region
      id = some g ∧ (s.conn c).txq = [] ∧ (s.conn c).saved = false ∧ (s.conn c).unacked.length < txLimit c (s.conn c) ∧ refPoisoned s
      (slotRef s m) 0 8 = false) ∧
    (∃ (s : State) (c : Nat) (k : Nat) (m : RxMsg), s.awake = true ∧ c ≠ 0 ∧ nextRx c (· == 5) s = some m ∧ m.refused = none ∧ m.slot =
      some k ∧ (s.slot k).st = .registered ∧ (s.conn c).st = .opened ∧ noneDropped c s ∧ (s.conn c).txq = [] ∧ (s.conn c).saved = false
      ∧ (s.conn c).unacked.length < txLimit c (s.conn c) ∧ refPoisoned s (slotRef s m) 0 8 = true) ∧
    (∃ (s : State) (w : Work), s.live = true ∧ s.item w.wid = some w ∧ (w.opcode = 0x46 ∨ w.opcode = 0x47) ∧ (∃ r, w.prog = .rail r ∧
      r.issued = true ∧ r.reset = none) ∧ (s.conn (connOf w)).st = .opened) :=
  ⟨⟨railDev 7 0 { st := .up } []
     { conns := [(4095, { conn1 with rx := [{ mseq := 0, op := 1, mlen := 8, got := [(0, List.replicate 8 7)] }], recvs := [5] })] } [wk
     0x44 (desc [(8, 16, 4095), (20, 32, 8), (24, 64, 0)]) (.posted)], 4095, 0, 0,
     { mseq := 0, op := 1, mlen := 8, got := [(0, List.replicate 8 7)] }, wk 0x44 (desc [(8, 16, 4095), (20, 32, 8), (24, 64, 0)])
     (.posted), [], work0, List.replicate 8 7, by unfold noneDropped; decide +kernel⟩,
   ⟨railDev 7 0 { st := .up } []
     { conns := [(4095, { conn1 with rx := [{ mseq := 0, op := 1, mlen := 9, got := [(0, List.replicate 9 7)] }], recvs := [5] })] } [wk
     0x44 (desc [(8, 16, 4095), (20, 32, 8), (24, 64, 0)]) (.posted)], 4095,
     { mseq := 0, op := 1, mlen := 9, got := [(0, List.replicate 9 7)] }, wk 0x44 (desc [(8, 16, 4095), (20, 32, 8), (24, 64, 0)])
     (.posted), [], by unfold noneDropped; decide +kernel⟩,
   ⟨rdy, 4095, by decide +kernel⟩,
   ⟨railDev 7 0 { st := .up } []
     { conns := [(4095, { conn1 with rx := [{ mseq := 0, op := 2, mlen := 8, got := [(0, List.replicate 8 7)], rkey := 0x1FFFF, raddr := 3 * 2 ^ 39, slot := some 65535 }] })], slots := [(65535, slot1)] }
     [], 4095, 65535, 0, 0,
     { mseq := 0, op := 2, mlen := 8, got := [(0, List.replicate 8 7)], rkey := 0x1FFFF, raddr := 3 * 2 ^ 39, slot := some 65535 }, work0,
     List.replicate 8 7, by unfold noneDropped; decide +kernel⟩,
   ⟨railDev 7 0 { st := .up } []
     { conns := [(4095, { conn1 with rx := [{ mseq := 0, op := 2, mlen := 0, refused := some .keyInvalid }] })] } [], 4095,
     { mseq := 0, op := 2, mlen := 0, refused := some .keyInvalid }, .keyInvalid, by unfold noneDropped; decide +kernel⟩,
   ⟨railDev 7 0 { st := .up } []
     { conns := [(4095, { conn1 with rx := [{ mseq := 0, op := 3, mlen := 4048, rkey := 0x1FFFF, raddr := 3 * 2 ^ 39, slot := some 65535 }] })], slots := [(65535, slot1)] }
     [], 4095, 65535, { mseq := 0, op := 3, mlen := 4048, rkey := 0x1FFFF, raddr := 3 * 2 ^ 39, slot := some 65535 },
     by unfold noneDropped; decide +kernel⟩,
   ⟨railDev 7 0 { st := .up } []
     { conns := [(4095, { conn1 with rx := [{ mseq := 0, op := 5, mlen := 8, rkey := 0x1FFFF, raddr := 3 * 2 ^ 39, slot := some 65535 }] })], slots := [(65535, slot1)] }
     [], 4095, 65535, 0, 0, { mseq := 0, op := 5, mlen := 8, rkey := 0x1FFFF, raddr := 3 * 2 ^ 39, slot := some 65535 }, work0,
     by unfold noneDropped; decide +kernel⟩,
   ⟨{ railDev 7 0 { st := .up } [] { conns := [(4095, { conn1 with rx := [{ mseq := 0, op := 5, mlen := 8, rkey := 0x1FFFF, raddr := 3 * 2 ^ 39, slot := some 65535 }] })], slots := [(65535, slot1)] } with mem := { (railDev 7 0 { st := .up }).mem with poison := (regionLines work0 0 8).map (fun l => (l, true)) } },
     4095, 65535, { mseq := 0, op := 5, mlen := 8, rkey := 0x1FFFF, raddr := 3 * 2 ^ 39, slot := some 65535 },
     by unfold noneDropped; decide +kernel⟩,
   ⟨railDev 7 0 { st := .up } [] { conns := [(4095, { conn1 .opened with turn := 0 })] } [wk 0x46 (desc [(8, 16, 4095), (20, 32, 8), (24,
     64, 0)]) (.rail { issued := true })], wk 0x46 (desc [(8, 16, 4095), (20, 32, 8), (24, 64, 0)]) (.rail { issued := true }),
     by refine ⟨?_, ?_, ?_, ⟨_, rfl, by decide +kernel⟩, ?_⟩ <;> decide +kernel⟩⟩

theorem witness_HandoffSender :
    (∃ (s : State) (c : Nat) (n : Nat) (h : Nat) (m : Ctl) (x : Sender), HandoffOn c s ∧ m.ctype = 0x02 ∧ NamesSender m x s ∧ x.conn =
      c ∧ x.phase = .offered ∧ m.body = .grant n h) ∧
    (∃ (s : State) (c : Nat) (n : Nat) (m : Ctl) (x : Sender), HandoffOn c s ∧ m.ctype = 0x05 ∧ NamesSender m x s ∧ x.conn = c ∧ m.body
      = .credit n) ∧
    (∃ (s : State) (i : Nat) (x : Sender) (p : List Byte) (st : List Byte), s.awake = true ∧ (s.entry i).st = .handoffOut ∧ (s.entry
      i).snd = some x ∧ x.phase = .sending ∧ 0 < x.credits ∧ x.sent < x.items ∧ toCode x.sent s = true ∧ hasCodec (s.entry i).part s =
      true ∧ codeSource i x.sent s = (some p, s) ∧ (needsStream (itemCodec i x.sent s) p = true → streamFits (itemCodec i x.sent s) p
      st = true)) ∧
    (∃ (s : State) (i : Nat) (x : Sender) (b : Block), s.awake = true ∧ (s.entry i).st = .handoffOut ∧ (s.entry i).snd = some x ∧
      x.phase = .sending ∧ 0 < x.credits ∧ x.sent < x.items ∧ toCode x.sent s = false ∧ storedItem i x.sent s = some b) ∧
    (∃ (s : State) (i : Nat) (x : Sender), s.awake = true ∧ (s.entry i).st = .handoffOut ∧ (s.entry i).snd = some x ∧ x.phase =
      .sending ∧ 0 < x.credits ∧ x.sent < x.items ∧ toCode x.sent s = true ∧ hasCodec (s.entry i).part s = true ∧ codeSource i x.sent s
      = (none, s) ∧ x.wid = none ∧ x.cancels = [] ∧ (s.entry i).askers = []) ∧
    (∃ (s : State) (c : Nat) (m : Ctl) (x : Sender) (cmd : Instr), HandoffOn c s ∧ NamesSender m x s ∧ x.conn = c ∧ x.phase ≠ .probing
      ∧ (cmd = .refuse c m ∧ m.ctype = 0x03 ∨ cmd = .abort c m ∧ m.ctype = 0x07)) ∧
    (∃ (s : State) (src : Nat) (m : Ctl) (x : Sender) (e : W32) (cmd : Instr), s.awake = true ∧ (s.conn 0).rx = [] ∧ NamesSender m x s
      ∧ (s.entry m.sEntry).node = src ∧ (cmd = .accept src m ∧ m.ctype = 0x08 ∧ x.phase = .committed ∧ m.body = .newEpoch e ∨ cmd =
      .probeReply src m ∧ m.ctype = 0x0A ∧ x.phase = .probing ∧ m.body = .probeReply true e)) ∧
    (∃ (s : State) (src : Nat) (m : Ctl) (x : Sender) (e : W32), s.awake = true ∧ (s.conn 0).rx = [] ∧ NamesSender m x s ∧ (s.entry
      m.sEntry).node = src ∧ m.ctype = 0x0A ∧ x.phase = .probing ∧ m.body = .probeReply false e ∧ x.wid = none) ∧
    (∃ (s : State) (i : Nat) (x : Sender), s.live = true ∧ (s.entry i).st = .handoffOut ∧ (s.entry i).snd = some x ∧ (x.phase ≠
      .sending ∨ x.credits = 0)) :=
  ⟨⟨hoDev [(0, outEnt { conn := 4095 })], 4095, 1, 0, msg 0x02 0 none (.grant 1 0) 3, { conn := 4095 },
     by unfold HandoffOn NamesSender; decide +kernel⟩,
   ⟨hoDev [(16383, outEnt { conn := 4095 })], 4095, 1, msg 0x05 16383 none (.credit 1) 3, { conn := 4095 },
     by unfold HandoffOn NamesSender; decide +kernel⟩,
   ⟨hoDev [(0, outEnt { conn := 4095, phase := .sending, credits := 1, sent := 6, items := 8 })], 0,
     { conn := 4095, phase := .sending, credits := 1, sent := 6, items := 8 }, List.replicate 1024 0, [], by decide +kernel⟩,
   ⟨hoDev [(0, outEnt { conn := 4095, phase := .sending, credits := 1, sent := 1, items := 8 })] cacheImg, 0,
     { conn := 4095, phase := .sending, credits := 1, sent := 1, items := 8 }, { record := 0, stored := [] }, by decide +kernel⟩,
   ⟨hoDev [(0, (fun x => { outEnt x with list := 0 }) { conn := 4095, phase := .sending, credits := 1, sent := 7, items := 8 })], 0,
     { conn := 4095, phase := .sending, credits := 1, sent := 7, items := 8 }, by decide +kernel⟩,
   ⟨hoDev [(0, outEnt { conn := 4095 })], 4095, msg 0x07 0 none (.none) 3, { conn := 4095 }, .abort 4095 (msg 0x07 0 none (.none) 3),
     by refine ⟨by unfold HandoffOn; decide +kernel, by unfold NamesSender; decide +kernel, ?_, ?_, Or.inr ⟨rfl, rfl⟩⟩ <;> decide +kernel⟩,
   ⟨hoDev [(0, outEnt { conn := 4095, phase := .committed })], 2, msg 0x08 0 none (.newEpoch 2) 3, { conn := 4095, phase := .committed },
     2, .accept 2 (msg 0x08 0 none (.newEpoch 2) 3),
     by refine ⟨?_, ?_, by unfold NamesSender; decide +kernel, ?_, Or.inl ⟨rfl, rfl, rfl, rfl⟩⟩ <;> decide +kernel⟩,
   ⟨hoDev [(0, outEnt { conn := 4095, phase := .probing })], 2, msg 0x0A 0 none (.probeReply false 2) 3,
     { conn := 4095, phase := .probing }, 2, by unfold NamesSender; decide +kernel⟩,
   ⟨hoDev [(0, outEnt { conn := 4095 })], 0, { conn := 4095 }, by decide +kernel⟩⟩

theorem witness_HandoffReceiver :
    (∃ (s : State) (c : Nat) (need : Nat) (w : Nat) (i : Nat) (m : Ctl) (o : Offer), HandoffOn c s ∧ m.ctype = 0x01 ∧ m.body = .offer o
      ∧ offerTests c o s = .ok need ∧ stagingUnits c s = some w ∧ freeEntry (s.conn c).part (connStation c) s = some i ∧ isGen s =
      true) ∧
    (∃ (s : State) (c : Nat) (n : Nat) (m : Ctl) (o : Offer) (st : Status) (box : Bool), HandoffOn c s ∧ m.ctype = 0x01 ∧ m.body =
      .offer o ∧ offerTests c o s = .error ((st, n), box)) ∧
    (∃ (s : State) (c : Nat) (need : Nat) (m : Ctl) (o : Offer), HandoffOn c s ∧ m.ctype = 0x01 ∧ m.body = .offer o ∧ offerTests c o s
      = .ok need ∧ stagingUnits c s = none) ∧
    (∃ (s : State) (c : Nat) (need : Nat) (w : Nat) (i : Nat) (x : WaitOffer) (o : Offer), s.awake = true ∧ waitingOffer c s = some x ∧
      x.msg.body = .offer o ∧ (s.conn c).handoff = true ∧ stagingUnits c (dropWaiting c s) = some w ∧ offerTests c o (dropWaiting c s)
      = .ok need ∧ stagingUnits c s = some w ∧ freeEntry (s.conn c).part (connStation c) s = some i ∧ isGen s = true) ∧
    (∃ (s : State) (c : Nat) (x : WaitOffer), s.live = true ∧ waitingOffer c s = some x) ∧
    (∃ (s : State) (c : Nat) (i : Nat) (n : Nat) (m : Ctl) (r : Receiver) (b : Block), HandoffOn c s ∧ m.ctype = 0x04 ∧ NamesReceiver c
      m i r s ∧ m.body = .data n [b]) ∧
    (∃ (s : State) (i : Nat) (r : Receiver) (o : Offer) (b : Block) (p : List Byte), s.awake = true ∧ (s.entry i).st = .handoffIn ∧
      (s.entry i).rcv = some r ∧ r.records = [] ∧ r.staged.find? (fun x => x.1 == 0) = some (0, b) ∧ r.offer = some o ∧ r.commit = none
      ∧ hasCodec (s.entry i).part s = true ∧ isCache s = false ∧ s.ft.inject.arm = false ∧ checkBlock (s.keyInForce (s.entry i).tenant
      true) (sleeperKey s (s.entry i).tenant true) false b = .ok p) ∧
    (∃ (s : State) (i : Nat) (j : Nat) (q : Nat) (g : Region) (r : Receiver) (o : Offer) (b : Block) (p : List Byte), s.awake = true ∧
      (s.entry i).st = .handoffIn ∧ (s.entry i).rcv = some r ∧ r.records.length = j ∧ j ≠ 0 ∧ r.staged.find? (fun x => x.1 == j) = some
      (j, b) ∧ r.offer = some o ∧ r.commit = none ∧ hasCodec (s.entry i).part s = true ∧ isCache s = true ∧ s.ft.inject.arm = false ∧
      placeAt (stateRegions (s.entry i).part s) (nth (s.entry i).parcel j 0) = some (g, q) ∧ checkBlock (s.keyInForce (s.entry
      i).tenant true) (sleeperKey s (s.entry i).tenant true) false b = .ok p) ∧
    (∃ (s : State) (i : Nat) (j : Nat) (r : Receiver) (o : Offer) (b : Block) (st : Status), s.awake = true ∧ (s.entry i).st =
      .handoffIn ∧ (s.entry i).rcv = some r ∧ r.records.length = j ∧ r.staged.find? (fun x => x.1 == j) = some (j, b) ∧ r.offer = some
      o ∧ hasCodec (s.entry i).part s = true ∧ s.ft.inject.arm = false ∧ checkBlock (s.keyInForce (s.entry i).tenant true) (sleeperKey
      s (s.entry i).tenant true) false b = .error st) ∧
    (∃ (s : State) (c : Nat) (i : Nat) (n : Nat) (bud : W64) (dg : Digest) (m : Ctl) (r : Receiver) (o : Offer), HandoffOn c s ∧
      m.ctype = 0x06 ∧ NamesReceiver c m i r s ∧ m.body = .commit n bud dg ∧ r.offer = some o ∧ o.items = n ∧ r.records.length < n) ∧
    (∃ (s : State) (c : Nat) (i : Nat) (n : Nat) (bud : W64) (m : Ctl) (r : Receiver) (o : Offer), HandoffOn c s ∧ m.ctype = 0x06 ∧
      NamesReceiver c m i r s ∧ m.body = .commit n bud (parcelDigest r.records) ∧ r.offer = some o ∧ o.items = n ∧ n ≤ r.records.length
      ∧ isCache s = false ∧ o.turnEnded = false) ∧
    (∃ (s : State) (c : Nat) (i : Nat) (m : Ctl) (r : Receiver), HandoffOn c s ∧ m.ctype = 0x07 ∧ NamesReceiver c m i r s ∧ m.origin ≠
      s.me) ∧
    (∃ (s : State) (i : Nat), s.live = true ∧ (s.entry i).accepting = true ∧ acceptOut i s = false ∧ (s.entry i).askers = [] ∧ (s.entry
      i).raceHit = none ∧ (∀ w ∈ s.work, w.prog ≠ .boundary i)) :=
  ⟨⟨hoDev [], 4095, 2, 128, 8192, msg 0x01 0 none (.offer offer1) 2, offer1, by unfold HandoffOn; decide +kernel⟩,
   ⟨hoDev [], 4095, 9, msg 0x01 0 none (.offer { offer1 with tenant := 2 }) 2, { offer1 with tenant := 2 }, .tenantMismatch, false,
     by unfold HandoffOn; decide +kernel⟩,
   ⟨hoDev [] ttImage, 4095, 2, msg 0x01 0 none (.offer offer1) 2, offer1, by unfold HandoffOn; decide +kernel⟩,
   ⟨hoDev [] hoImage { waiting := [{ conn := 4095, msg := msg 0x01 0 none (.offer offer1) 2, sc := 0 }] }, 4095, 2, 128, 8192,
     { conn := 4095, msg := msg 0x01 0 none (.offer offer1) 2, sc := 0 }, offer1, by decide +kernel⟩,
   ⟨hoDev [] hoImage { waiting := [{ conn := 4095, msg := msg 0x01 0 none (.offer offer1) 2, sc := 0 }] }, 4095,
     { conn := 4095, msg := msg 0x01 0 none (.offer offer1) 2, sc := 0 }, by decide +kernel⟩,
   ⟨hoDev [(8195, inEnt { sEntry := 0, staged := [(0, zeroBlk)], offer := some offer1 })], 4095, 8195, 0, msg 0x04 0 (some 8195) (.data 0
     [zeroBlk]) 2, { conn := 4095, sEntry := 0, staged := [(0, zeroBlk)], offer := some offer1 }, zeroBlk,
     by unfold HandoffOn NamesReceiver; decide +kernel⟩,
   ⟨hoDev [(8195, inEnt { sEntry := 0, staged := [(0, zeroBlk)], offer := some offer1 })], 8195,
     { conn := 4095, sEntry := 0, staged := [(0, zeroBlk)], offer := some offer1 }, offer1, zeroBlk, List.replicate 64 0,
     by decide +kernel⟩,
   ⟨hoDev [(0, inEnt { sEntry := 0, staged := [(1, zeroBlk)], offer := some offer1, records := [0] })] cacheImg, 0, 1, 0, state2,
     { conn := 4095, sEntry := 0, staged := [(1, zeroBlk)], offer := some offer1, records := [0] }, offer1, zeroBlk, List.replicate 64 0,
     by decide +kernel⟩,
   ⟨hoDev [(8195, inEnt { sEntry := 0, staged := [(1, poisonBlock 0 0 64)], offer := some offer1, records := [0] })], 8195, 1,
     { conn := 4095, sEntry := 0, staged := [(1, poisonBlock 0 0 64)], offer := some offer1, records := [0] }, offer1, poisonBlock 0 0 64,
     .poisonConsumed, by decide +kernel⟩,
   ⟨hoDev [(8195, inEnt { sEntry := 0, staged := [(0, zeroBlk)], offer := some offer1, records := [0, 0, 0, 0, 0, 0] })], 4095, 8195, 7, 0,
     0, msg 0x06 0 (some 8195) (.commit 7 0 0) 2,
     { conn := 4095, sEntry := 0, staged := [(0, zeroBlk)], offer := some offer1, records := [0, 0, 0, 0, 0, 0] }, offer1,
     by unfold HandoffOn NamesReceiver; decide +kernel⟩,
   ⟨hoDev [(8195, inEnt { sEntry := 0, staged := [(0, zeroBlk)], offer := some offer1, records := [0, 0, 0, 0, 0, 0, 0] })], 4095, 8195, 7,
     0, msg 0x06 0 (some 8195) (.commit 7 0 (parcelDigest (List.replicate 7 0))) 2,
     { conn := 4095, sEntry := 0, staged := [(0, zeroBlk)], offer := some offer1, records := [0, 0, 0, 0, 0, 0, 0] }, offer1,
     by refine ⟨by unfold HandoffOn; decide +kernel, ?_, by unfold NamesReceiver; decide +kernel, rfl, ?_, ?_, ?_, ?_, ?_⟩ <;> decide +kernel⟩,
   ⟨hoDev [(8195, inEnt { sEntry := 0, staged := [(0, zeroBlk)], offer := some offer1 })], 4095, 8195, msg 0x07 0 (some 8195) (.none) 2,
     { conn := 4095, sEntry := 0, staged := [(0, zeroBlk)], offer := some offer1 }, by unfold HandoffOn NamesReceiver; decide +kernel⟩,
   ⟨hoDev [(16383, { ent .decode with accepting := true })], 16383, by decide +kernel⟩⟩

theorem witness_HandoffChain :
    (∃ (s : State) (src : Nat) (m : Ctl) (cmd : Ctl), s.awake = true ∧ m.ctype = 0x09 ∧ (s.conn 0).rx = [] ∧ cmd =
      { ctype := 0x0A, sEntry := m.sEntry, rEntry := m.rEntry, status := 0, reason := 0, reqId := m.reqId, epoch := m.epoch, origin := src, body := .none }) ∧
    (∃ (s : State) (i : Nat) (m : Ctl), s.awake = true ∧ m.ctype = 0x10 ∧ (s.conn 0).rx = [] ∧ m.rEntry = some i ∧ (s.entry i).st =
      .stub ∧ (s.entry i).reqId = m.reqId ∧ (s.entry i).epoch.toNat ≤ m.epoch.toNat) ∧
    (∃ (s : State) (i : Nat) (m : Ctl), s.awake = true ∧ m.ctype = 0x11 ∧ (s.conn 0).rx = [] ∧ m.rEntry = some i ∧ (s.entry i).st =
      .stub ∧ (s.entry i).reqId = m.reqId ∧ (s.entry i).epoch.toNat ≤ m.epoch.toNat ∧ detached i s = false) ∧
    (∃ (s : State) (i : Nat) (m : Ctl), s.awake = true ∧ m.ctype = 0x12 ∧ (s.conn 0).rx = [] ∧ greatest m.reqId s = some i ∧ (s.entry
      i).epoch.toNat ≤ m.epoch.toNat) ∧
    (∃ (s : State) (m : Ctl), s.awake = true ∧ m.ctype = 0x12 ∧ (s.conn 0).rx = [] ∧ greatest m.reqId s = none) ∧
    (∃ (s : State) (m : Ctl) (w : Work), s.awake = true ∧ m.ctype = 0x13 ∧ (s.conn 0).rx = [] ∧ (s.entry m.sEntry).st ≠ .handoffOut ∧
      s.work.find? (fun x => x.prog == .forwarded m.sEntry && dat x.body 16 64 == m.reqId.toNat) = some w) :=
  ⟨⟨hoDev [], 2, msg 0x09 0 none .none 2, { msg 0x0A 0 none .none 2 with ctype := 0x0A }, by decide +kernel⟩,
   ⟨hoDev [(16383, ent .stub 2)], 16383, msg 0x10 0 (some 16383) .none 2, by decide +kernel⟩,
   ⟨hoDev [(3, ent .stub 2)], 3, msg 0x11 0 (some 3) .none 2, by decide +kernel⟩,
   ⟨hoDev [(16383, ent .stub 2)], 16383, msg 0x12 0 none .none 2, by decide +kernel⟩,
   ⟨hoDev [], msg 0x12 0 none .none 2, by decide +kernel⟩,
   ⟨hoDev [(16383, ent .stub 2)] hoImage {} [wk 0x11 (desc [(16, 64, 7)]) (.forwarded 16383)], msg 0x13 16383 none .none 2, wk 0x11 (desc
     [(16, 64, 7)]) (.forwarded 16383), by decide +kernel⟩⟩

theorem witness_ClearingSearch :
    (∃ (s : State) (w : Work), MayStart s w 0x60 ∧ changeBefore w s = false ∧ queryChecks w s = none ∧ (queryOf w).visits ≤ 65536) ∧
    (∃ (s : State) (w : Work) (st : Status) (r : Nat), MayStart s w 0x60 ∧ changeBefore w s = false ∧ queryChecks w s = some (st, r)) ∧
    (∃ (s : State) (w : Work), MayStart s w 0x60 ∧ changeBefore w s = true) ∧
    (∃ (s : State) (w : Work) (q : QueryOp), s.awake = true ∧ s.item w.wid = some w ∧ w.prog = .query q ∧ q.station = none ∧ ctxGiven w
      s = true) ∧
    (∃ (s : State) (w : Work) (q : QueryOp) (g : Region), s.awake = true ∧ s.item w.wid = some w ∧ w.prog = .query q ∧ q.station.isSome
      = true ∧ q.live = [] ∧ q.started = false ∧ q.expand = none ∧ s.region (csRegion w) = some g ∧ s.ft.inject.arm = false ∧
      readPoisoned w g (idxHdr s g) q s = false ∧ standsOf w.part 2 s ≠ [] ∧ addNew [] (idxEntries s g (idxHdr s g)) ≠ []) ∧
    (∃ (s : State) (w : Work) (q : QueryOp) (g : Region), s.awake = true ∧ s.item w.wid = some w ∧ w.prog = .query q ∧ q.station.isSome
      = true ∧ q.live = [] ∧ (q.started = false ∨ q.expand.isSome = true) ∧ s.region (csRegion w) = some g ∧ s.ft.inject.arm = false ∧
      readPoisoned w g (idxHdr s g) q s = true) ∧
    (∃ (s : State) (w : Work) (q : QueryOp) (g : Region) (o : HbmObs) (a : Nat), s.awake = true ∧ s.item w.wid = some w ∧ w.prog =
      .query q ∧ q.station.isSome = true ∧ q.live = [] ∧ (q.started = false ∨ q.expand.isSome = true) ∧ s.region (csRegion w) = some g
      ∧ o.bad = some a ∧ inRegion g a = true) ∧
    (∃ (s : State) (w : Work) (q : QueryOp) (g : Region) (b : DistBatch) (x : Nat × Nat) (obs : TileObs), s.awake = true ∧ s.item w.wid
      = some w ∧ w.prog = .query q ∧ q.live.find? (fun y => y.tile.running.isSome) = some b ∧ FirstRun b.tile x ∧ retiringStand s x =
      false ∧ s.region (csRegion w) = some g ∧ passing obs (batchRun s obs g (idxHdr s g) (queryOf w).q b.nodes) ∧ s.ft.inject.arm =
      false ∧ batchPoisoned w g (idxHdr s g) b.nodes s = false ∧ (q.toVisit ≠ [] ∨ ∃ y ∈ q.live, y.tile.idx ≠ b.tile.idx) ∧ standsOf
      w.part 2 s ≠ []) ∧
    (∃ (s : State) (w : Work) (q : QueryOp) (g : Region) (r : Region) (b : DistBatch) (x : Nat × Nat) (obs : TileObs) (id : Nat) (off :
      Nat), s.awake = true ∧ s.item w.wid = some w ∧ w.prog = .query q ∧ q.live = [b] ∧ FirstRun b.tile x ∧ retiringStand s x = false ∧
      s.region (csRegion w) = some g ∧ passing obs (batchRun s obs g (idxHdr s g) (queryOf w).q b.nodes) ∧ s.ft.inject.arm = false ∧
      batchPoisoned w g (idxHdr s g) b.nodes s = false ∧ q.toVisit = [] ∧ q.limit = true ∧ (queryOf w).filter = false ∧ (queryOf
      w).dest = .hbm id off ∧ s.region id = some r) ∧
    (∃ (s : State) (w : Work), MayStart s w 0x61 ∧ changeBefore w s = false ∧ idxLoadChecks w s = none ∧ dat w.body 16 64 % 4096 = 0) ∧
    (∃ (s : State) (w : Work) (st : Status) (r : Nat), MayStart s w 0x61 ∧ changeBefore w s = false ∧ idxLoadChecks w s = some (st, r)) ∧
    (∃ (s : State) (w : Work) (id : Nat) (g : Region) (bs : List Byte), s.awake = true ∧ s.item w.wid = some w ∧ w.prog = .indexLoad id
      ∧ s.region id = some g ∧ queriesBefore w s = false ∧ bs.length = dat w.body 24 64) ∧
    (∃ (s : State) (w : Work) (g : Region), MayStart s w 0x62 ∧ changeBefore w s = false ∧ queriesBefore w s = false ∧ deleteChecks w s
      = none ∧ s.region (csRegion w) = some g ∧ (s.idx (csRegion w)).nodes = (idxHdr s g).nodes ∧ (idxHdr s g).tomb + ceilDiv (idxHdr s
      g).nodes 8 ≤ g.size ∧ g.offset + g.size ≤ 2 ^ 36) :=
  ⟨⟨csDev [wk 0x60 (desc [(8, 8, 3), (10, 16, 1024), (12, 16, 4096), (16, 64, 0), (24, 64, 4096)])], wk 0x60 (desc [(8, 8, 3), (10, 16,
     1024), (12, 16, 4096), (16, 64, 0), (24, 64, 4096)]), by unfold MayStart; decide +kernel⟩,
   ⟨csDev [wk 0x60 (desc [(8, 8, 3), (10, 16, 1025), (12, 16, 4096), (16, 64, 0), (24, 64, 4096)])], wk 0x60 (desc [(8, 8, 3), (10, 16,
     1025), (12, 16, 4096), (16, 64, 0), (24, 64, 4096)]), .malformed, 0x05, by unfold MayStart; decide +kernel⟩,
   ⟨csDev [{ wk 0x61 (desc [(8, 8, 3), (16, 64, 4096), (24, 64, 4096)]) with wid := 4 }, wk 0x60 (desc [(8, 8, 3), (10, 16, 1024), (12, 16,
     4096), (16, 64, 0), (24, 64, 4096)])], wk 0x60 (desc [(8, 8, 3), (10, 16, 1024), (12, 16, 4096), (16, 64, 0), (24, 64, 4096)]),
     by unfold MayStart; decide +kernel⟩,
   ⟨csDev [wk 0x60 (desc [(8, 8, 3), (10, 16, 1024), (12, 16, 4096), (16, 64, 0), (24, 64, 4096)]) (.query {})], wk 0x60 (desc [(8, 8, 3),
     (10, 16, 1024), (12, 16, 4096), (16, 64, 0), (24, 64, 4096)]) (.query {}), {}, by decide +kernel⟩,
   ⟨csDev [wk 0x60 (desc [(8, 8, 3), (10, 16, 1024), (12, 16, 4096), (16, 64, 0), (24, 64, 4096)]) (.query { station := some 0 })], wk 0x60
     (desc [(8, 8, 3), (10, 16, 1024), (12, 16, 4096), (16, 64, 0), (24, 64, 4096)]) (.query { station := some 0 }), { station := some 0 },
     index3, by decide +kernel⟩,
   ⟨csDev [wk 0x60 (desc [(8, 8, 3), (10, 16, 1024), (12, 16, 4096), (16, 64, 0), (24, 64, 4096)]) (.query { station := some 0 })] .ready
     (regionLines index3 0 1), wk 0x60 (desc [(8, 8, 3), (10, 16, 1024), (12, 16, 4096), (16, 64, 0), (24, 64, 4096)]) (.query
     { station := some 0 }), { station := some 0 }, index3, by decide +kernel⟩,
   ⟨csDev [wk 0x60 (desc [(8, 8, 3), (10, 16, 1024), (12, 16, 4096), (16, 64, 0), (24, 64, 4096)]) (.query { station := some 0 })], wk 0x60
     (desc [(8, 8, 3), (10, 16, 1024), (12, 16, 4096), (16, 64, 0), (24, 64, 4096)]) (.query { station := some 0 }), { station := some 0 },
     index3, { bad := some (regionAddr index3 0) }, regionAddr index3 0, by decide +kernel⟩,
   ⟨csDev [wk 0x60 (desc [(8, 8, 3), (10, 16, 1024), (12, 16, 4096), (16, 64, 0), (24, 64, 4096)]) (.query
     { station := some 0, toVisit := [3], live := [{ nodes := [0], tile := { idx := 0, running := some (0, 2), home := some 0 } }] })], wk
     0x60 (desc [(8, 8, 3), (10, 16, 1024), (12, 16, 4096), (16, 64, 0), (24, 64, 4096)]) (.query
     { station := some 0, toVisit := [3], live := [{ nodes := [0], tile := { idx := 0, running := some (0, 2), home := some 0 } }] }),
     { station := some 0, toVisit := [3], live := [{ nodes := [0], tile := { idx := 0, running := some (0, 2), home := some 0 } }] },
     index3, { nodes := [0], tile := { idx := 0, running := some (0, 2), home := some 0 } }, (0, 2), {},
     by unfold passing FirstRun; decide +kernel⟩,
   ⟨csDev [wk 0x60 (desc [(8, 8, 3), (10, 16, 1024), (12, 16, 4096), (16, 64, 0), (24, 64, 4096)]) (.query
     { station := some 0, limit := true, live := [{ nodes := [0], tile := { idx := 0, running := some (0, 2), home := some 0 } }] })], wk
     0x60 (desc [(8, 8, 3), (10, 16, 1024), (12, 16, 4096), (16, 64, 0), (24, 64, 4096)]) (.query
     { station := some 0, limit := true, live := [{ nodes := [0], tile := { idx := 0, running := some (0, 2), home := some 0 } }] }),
     { station := some 0, limit := true, live := [{ nodes := [0], tile := { idx := 0, running := some (0, 2), home := some 0 } }] },
     index3, work0, { nodes := [0], tile := { idx := 0, running := some (0, 2), home := some 0 } }, (0, 2), {}, 0, 4096,
     by unfold passing FirstRun; decide +kernel⟩,
   ⟨csDev [wk 0x61 (desc [(8, 8, 3), (16, 64, 4096), (24, 64, 4096)])], wk 0x61 (desc [(8, 8, 3), (16, 64, 4096), (24, 64, 4096)]),
     by unfold MayStart; decide +kernel⟩,
   ⟨csDev [wk 0x61 (desc [(8, 8, 3), (24, 64, 4095)])], wk 0x61 (desc [(8, 8, 3), (24, 64, 4095)]), .malformed, 0x06,
     by unfold MayStart; decide +kernel⟩,
   ⟨csDev [wk 0x61 (desc [(8, 8, 3), (24, 64, 4096)]) (.indexLoad 3)] .loading, wk 0x61 (desc [(8, 8, 3), (24, 64, 4096)]) (.indexLoad 3),
     3, index3, List.replicate 4096 0, by decide +kernel⟩,
   ⟨csDev [wk 0x62 (desc [(8, 8, 3), (12, 32, 1), (16, 64, 0)])], wk 0x62 (desc [(8, 8, 3), (12, 32, 1), (16, 64, 0)]), index3,
     by unfold MayStart; decide +kernel⟩⟩

theorem witness_Tenancy :
    (∃ (s : State) (v : Nat), writes 0 s = true ∧ 1 ≤ v ∧ v ≤ 16 ∧ (s.host.vfEnable = false ∨ s.host.numVfs < v)) ∧
    (∃ (s : State) (v : Nat) (x : W32), writes 0 s = true ∧ 1 ≤ v ∧ v ≤ 16 ∧ s.host.vfEnable = true ∧ v ≤ s.host.numVfs ∧ vfMapOf x ≠
      tget s.tn.vf v {} ∧ (s.fn v).disabling = .no) ∧
    (∃ (s : State) (c : Nat), writes 0 s = true ∧ c < 4096) ∧
    (∃ (s : State) (p : Nat), writes 0 s = true ∧ p < s.partitions ∧ p < 4 ∧ s.tenants p ≠ 0) ∧
    (∃ (s : State) (p : Nat) (n : BitVec 16), writes 0 s = true ∧ p < s.partitions ∧ p < 4 ∧ s.tenants p = 0 ∧ n ≠ 0 ∧ switchRefused p
      n s = none) ∧
    (∃ (s : State) (p : Nat) (x : Switch), s.live = true ∧ s.tn.switch = some x ∧ x.part = p ∧ x.stage = .draining ∧ s.work = [] ∧
      s.rc.conns = [(0, s.conn 0)] ∧ s.rc.slots = [] ∧ s.stepOf p = none) ∧
    (∃ (s : State) (p : Nat) (x : Switch), s.live = true ∧ s.tn.switch = some x ∧ x.part = p ∧ x.stage = .scrubbing ∧ x.first = false ∧
      (∀ g ∈ partRegions p s, s.region g.id = some g)) ∧
    (∃ (s : State) (p : Nat) (x : Switch), s.live = true ∧ s.tn.switch = some x ∧ x.part = p ∧ x.stage = .scrubbing ∧ x.first = true ∧
      (∀ g ∈ partRegions p s, s.region g.id = some g)) :=
  ⟨⟨rdy, 16, by decide +kernel⟩,
   ⟨{ rdy with host := { mode := .cxl2, vfEnable := true, numVfs := 16 } }, 16, 0x80000001, by decide +kernel⟩,
   ⟨rdy, 4095, by decide +kernel⟩,
   ⟨rdy, 0, by decide +kernel⟩,
   ⟨{ rdy with tn := {  } }, 0, 4, by decide +kernel⟩,
   ⟨{ rdy with tn := { parts := [(0, 2)], switch := some { part := 0, tenants := 4, startAc := 1 } } }, 0,
     { part := 0, tenants := 4, startAc := 1 }, by decide +kernel⟩,
   ⟨{ rdy with tn := { parts := [(0, 2)], switch := some { part := 0, tenants := 4, startAc := 1, stage := .scrubbing } } }, 0,
     { part := 0, tenants := 4, startAc := 1, stage := .scrubbing }, by decide +kernel⟩,
   ⟨{ rdy with tn := { parts := [(0, 2)], switch := some { part := 0, tenants := 4, startAc := 1, stage := .scrubbing, first := true } } },
     0, { part := 0, tenants := 4, startAc := 1, stage := .scrubbing, first := true }, by decide +kernel⟩⟩

theorem witness_TrustAndKeys :
    (∃ (s : State) (t0 : Nat) (ddr : Bool) (c : Instr), writes 0 s = true ∧ t0 < 16 ∧ (c = .retireDdrIndex t0 ∧ ddr = true ∨ c =
      .retireRemoteIndex t0 ∧ ddr = false)) ∧
    (∃ (s : State) (t0 : Nat), writes 0 s = true ∧ t0 < 16) ∧
    (∃ (s : State) (r : Retire) (rest : List Retire), s.live = true ∧ s.tn.retire = r :: rest) ∧
    (∃ (s : State), writes 0 s = true) ∧
    (∃ (s : State), s.live = true ∧ s.trust.svnBusy = true) ∧
    (∃ (s : State) (m : List Byte) (os : List (List Byte)), s.live = true ∧ manifestFits m s = true ∧ objectsFit m os = true) ∧
    (∃ (s : State) (m : List Byte) (os : List (List Byte)), (manifestSigned m = false ∨ (parseManifest m).svn < s.fuses.svn ∨ (∀ k < 4,
      slotSigns m s k = false) ∨ objectsFit m os = false)) ∧
    (∃ (s : State), s.live = true ∧ s.trust.busy = false) ∧
    (∃ (s : State), s.live = true ∧ s.trust.busy = true) ∧
    (∃ (s : State) (key : BitVec 768) (sig : BitVec 768), s.live = true ∧ debugAnswer key sig s = true ∧ s.trust.unlocked = false ∧ (∀
      p, ∀ g ∈ partRegions p s, s.region g.id = some g)) ∧
    (∃ (s : State) (key : BitVec 768), (s.flash.active.flags.getLsbD 0 = false ∨ sha384 (leBytes 96 key.toNat) ≠
      s.flash.active.debugKey)) :=
  ⟨⟨rdy, 15, false, .retireRemoteIndex 15, by refine ⟨?_, ?_, Or.inr ⟨rfl, rfl⟩⟩ <;> decide +kernel⟩,
   ⟨rdy, 15, by decide +kernel⟩,
   ⟨{ rdy with tn := { retire := [{ tenant := 15, ddr := true }] } }, { tenant := 15, ddr := true }, [], by decide +kernel⟩,
   ⟨rdy, by decide +kernel⟩,
   ⟨{ rdy with trust := { svnBusy := true } }, by decide +kernel⟩,
   ⟨{ rdy with fuses := { rdy.fuses with fwKeys := [manKey] } }, manBytes, [[], [], []], by decide +kernel⟩,
   ⟨rdy, [], [], Or.inl (by decide +kernel)⟩,
   ⟨rdy, by decide +kernel⟩,
   ⟨{ rdy with trust := { busy := true } }, by decide +kernel⟩,
   ⟨{ rdy with trust := { challenge := dbgChallenge }, flash := { rdy.flash with active := { rdy.flash.active with flags := 1, debugKey := dbgDigest } } },
     dbgKey, dbgSig,
     by refine ⟨?_, ?_, ?_, by intro p g hg; exact (by decide +kernel : ∀ g ∈ image.regions, rdy.region g.id = some g) g (List.mem_filter.1 hg).1⟩ <;> decide +kernel⟩,
   ⟨rdy, 0, Or.inl (by decide +kernel)⟩⟩

theorem witness_StepRunsFrontCommand :
    (∃ (s : State) (c : Instr) (rest : List Instr), s.pending = c :: rest) :=
   ⟨{ rdy with pending := [.powerRemoved] }, .powerRemoved, [], by decide +kernel⟩

theorem witness_StepKeepsFuses :
    (∃ (f : Fuses) (s : State) (t : State), FusesSince f s ∧ step s = .next t) :=
   ⟨({ State.reset with power := { st := .off } } : State).fuses, { State.reset with power := { st := .off } },
     { State.reset with power := { st := .off } }, ⟨⟨Nat.le_refl _, fun _ h => h, rfl⟩, rfl⟩⟩

theorem witness_QueueRunsFirstInFirstOut :
    (∃ (s : State) (cs : List Instr) (ds : List Instr) (t : State), s.pending = cs ++ ds ∧ Runs cs.length s t) ∧
    (∃ (s : State), s.power.st ≠ .off ∧ s.pending = [] ∧ s.clk.pllLock = true) :=
  ⟨⟨{  State.reset with power := { st := .off } , pending := [.nop 0] }, [.nop 0], [], { State.reset with power := { st := .off } }, ⟨rfl,
     rfl⟩⟩,
   ⟨rdy, by decide +kernel⟩⟩

theorem witness_ThrottlingLeavesCounts :
    (∃ (s : State) (t : State) (therm : Tab Nat) (cur : Tab Nat), step
      { s with clk := { s.clk with therm := therm, cur := cur }, pending := [] } = .next t) :=
   ⟨{ State.reset with power := { st := .off } }, { State.reset with power := { st := .off } }, [], [], rfl⟩

theorem witness_SnapshotOfBothCounts :
    (∃ (s : State), writes 0 s = true) ∧
    (∃ (s : State), reaches 0 s = true ∧ s.boot.stage = .ready) ∧
    (∃ (s : State), reaches 0 s = true ∧ s.boot.stage = .ready) ∧
    (∃ (s : State), reaches 0 s = true ∧ s.boot.stage = .ready) ∧
    (∃ (off : Nat), (off = 0x100020 ∨ off = 0x100028)) :=
  ⟨⟨rdy, by decide +kernel⟩,
   ⟨rdy, by decide +kernel⟩,
   ⟨rdy, by decide +kernel⟩,
   ⟨rdy, by decide +kernel⟩,
   ⟨0x100020, by decide +kernel⟩⟩

theorem witness_UnpoweredDoesNothing :
    (∃ (c : Instr) (s : State), s.live = false ∧ c ≠ .powerApplied ∧ c ≠ .powerRemoved ∧ c ≠ .aonSupplyLoss ∧ (∀ o w, c ≠
      .registerReadClear .i3c o w)) ∧
    (∃ (s : State), s.power.st = .off) ∧
    (∃ (s : State), s.power.st = .off ∧ s.pending = []) ∧
    (∃ (s : State), s.power.st ≠ .off ∧ s.pending = []) :=
  ⟨⟨.nop 0, { State.reset with power := { st := .off } }, by refine ⟨?_, ?_, ?_, ?_, by intro o w h; cases h⟩ <;> decide +kernel⟩,
   ⟨{ State.reset with power := { st := .off } }, by decide +kernel⟩,
   ⟨{ State.reset with power := { st := .off } }, by decide +kernel⟩,
   ⟨State.reset, by decide +kernel⟩⟩

theorem witness_ResetState : ∃ c : Nat, c ≠ 0 := ⟨1, by decide⟩

end Sys2Proof.Tests
end

/-! # Frames

SUPPORT. How `OnlyChanges` composes, one lemma per part of the state that an update replaces, and the frames of completing a
descriptor and of appending a waybill record. -/

namespace Sys2Proof.Machine

/-! ## Composing frames -/

theorem OnlyChanges.refl (ps : List Zone) (s : State) : OnlyChanges ps s s := by
  intro p _
  cases p <;> exact decide_eq_true rfl

theorem OnlyChanges.mono {ps qs : List Zone} {s t : State} (h : OnlyChanges ps s t) (hs : ps ⊆ qs) : OnlyChanges qs s t :=
  fun p hp => h p (fun hps => hp (hs hps))

theorem sameZone_trans {p : Zone} {s t u : State} (h : sameZone p s t = true) (h' : sameZone p t u = true) :
    sameZone p s u = true := by
  cases p <;> exact decide_eq_true ((of_decide_eq_true h').trans (of_decide_eq_true h))

theorem OnlyChanges.trans {ps : List Zone} {s t u : State} (h : OnlyChanges ps s t) (h' : OnlyChanges ps t u) :
    OnlyChanges ps s u :=
  fun p hp => sameZone_trans (h p hp) (h' p hp)

theorem sameZone_kept {p : Zone} {s t : State} (h : sameZone p s t = true) : sameZone p s (s.kept t) = true := by
  cases p
  case fuses => exact decide_eq_true rfl
  case pending => exact decide_eq_true rfl
  all_goals exact h

/-- Restoring the fuses and the queue widens no frame. -/
theorem OnlyChanges.kept {ps : List Zone} {s t : State} (h : OnlyChanges ps s t) : OnlyChanges ps s (s.kept t) :=
  fun p hp => sameZone_kept (h p hp)

theorem onlyChanges_foldl {α : Type} {ps : List Zone} {f : State → α → State} (h : ∀ s a, OnlyChanges ps s (f s a)) (l : List α)
    (s : State) : OnlyChanges ps s (l.foldl f s) := by
  induction l generalizing s with
  | nil => exact .refl ps s
  | cons a l ih => exact (h s a).trans (ih (f s a))

theorem OnlyChanges.mem_eq {ps : List Zone} {s t : State} (h : OnlyChanges ps s t) (hp : .mem ∉ ps) : t.mem = s.mem :=
  of_decide_eq_true (h .mem hp)

theorem OnlyChanges.work_eq {ps : List Zone} {s t : State} (h : OnlyChanges ps s t) (hp : .work ∉ ps) : t.work = s.work :=
  of_decide_eq_true (h .work hp)

theorem OnlyChanges.free_eq {ps : List Zone} {s t : State} (h : OnlyChanges ps s t) (hp : .free ∉ ps) : t.free = s.free :=
  of_decide_eq_true (h .free hp)

/-! ## Replacing one part -/

theorem onlyChanges_set_flash (s : State) (x : Flash) : OnlyChanges [.flash] s { s with flash := x } := by
  intro p hp
  cases p <;> simp [sameZone] at hp ⊢

theorem onlyChanges_set_power (s : State) (x : Power) : OnlyChanges [.power] s { s with power := x } := by
  intro p hp
  cases p <;> simp [sameZone] at hp ⊢

theorem onlyChanges_set_host (s : State) (x : HostIf) : OnlyChanges [.host] s { s with host := x } := by
  intro p hp
  cases p <;> simp [sameZone] at hp ⊢

theorem onlyChanges_set_work (s : State) (x : List Work) : OnlyChanges [.work] s { s with work := x } := by
  intro p hp
  cases p <;> simp [sameZone] at hp ⊢

theorem onlyChanges_set_img (s : State) (x : ImageCtl) : OnlyChanges [.img] s { s with img := x } := by
  intro p hp
  cases p <;> simp [sameZone] at hp ⊢

theorem onlyChanges_set_groves (s : State) (x : Groves) : OnlyChanges [.groves] s { s with groves := x } := by
  intro p hp
  cases p <;> simp [sameZone] at hp ⊢

theorem onlyChanges_set_waybill (s : State) (x : Waybill) : OnlyChanges [.waybill] s { s with waybill := x } := by
  intro p hp
  cases p <;> simp [sameZone] at hp ⊢

theorem onlyChanges_set_mem (s : State) (x : Mem) : OnlyChanges [.mem] s { s with mem := x } := by
  intro p hp
  cases p <;> simp [sameZone] at hp ⊢

theorem onlyChanges_set_tt (s : State) (x : Timetable) : OnlyChanges [.tt] s { s with tt := x } := by
  intro p hp
  cases p <;> simp [sameZone] at hp ⊢

theorem onlyChanges_set_ddr (s : State) (x : Ddr) : OnlyChanges [.ddr] s { s with ddr := x } := by
  intro p hp
  cases p <;> simp [sameZone] at hp ⊢

theorem onlyChanges_set_rail (s : State) (x : Rail) : OnlyChanges [.rail] s { s with rail := x } := by
  intro p hp
  cases p <;> simp [sameZone] at hp ⊢

theorem onlyChanges_set_rc (s : State) (x : RailConns) : OnlyChanges [.rc] s { s with rc := x } := by
  intro p hp
  cases p <;> simp [sameZone] at hp ⊢

theorem onlyChanges_set_ho (s : State) (x : Handoff) : OnlyChanges [.ho] s { s with ho := x } := by
  intro p hp
  cases p <;> simp [sameZone] at hp ⊢

theorem onlyChanges_set_ft (s : State) (x : Faults) : OnlyChanges [.ft] s { s with ft := x } := by
  intro p hp
  cases p <;> simp [sameZone] at hp ⊢

theorem onlyChanges_set_tn (s : State) (x : Tenancy) : OnlyChanges [.tn] s { s with tn := x } := by
  intro p hp
  cases p <;> simp [sameZone] at hp ⊢

theorem onlyChanges_set_trust (s : State) (x : Trust) : OnlyChanges [.trust] s { s with trust := x } := by
  intro p hp
  cases p <;> simp [sameZone] at hp ⊢

theorem onlyChanges_set_free (s : State) (x : Nat) : OnlyChanges [.free] s { s with free := x } := by
  intro p hp
  cases p <;> simp [sameZone] at hp ⊢

theorem onlyChanges_set_out (s : State) (x : List Out) : OnlyChanges [.out] s { s with out := x } := by
  intro p hp
  cases p <;> simp [sameZone] at hp ⊢

/-- A command that sends an output first changes that beside what it changes after. -/
theorem OnlyChanges.of_emit {ps : List Zone} {s t : State} {o : Out} (h : OnlyChanges ps (s.emit o) t) :
    OnlyChanges (ps ++ [.out]) s t :=
  ((onlyChanges_set_out s _).mono (by simp)).trans (h.mono (by simp))

/-! ## Completing a descriptor, appending a record -/

theorem complete_onlyChanges (w : Work) (st : Status) (r : Nat) (s : State) (fr : BitVec 16) :
    OnlyChanges [.host, .work, .tt, .ft, .tn, .out] s (complete w st r s fr) := by
  intro p hp
  cases p <;> simp [sameZone] at hp ⊢

theorem signPoint_onlyChanges (q : SignReq) (s : State) : OnlyChanges [.waybill] s (signPoint q s) := by
  unfold signPoint
  split
  · exact .refl _ s
  · split
    · exact onlyChanges_set_waybill s _
    · dsimp only
      split
      · exact onlyChanges_set_waybill s _
      · exact (onlyChanges_set_waybill s _).trans (onlyChanges_set_waybill _ _)

theorem appendRec_onlyChanges (p : Nat) (x : StepInfo) (s : State) : OnlyChanges [.waybill, .free] s (appendRec p x s) := by
  unfold appendRec
  extract_lets c seq digests n signed prev r0 r w full s1
  have hs1 : OnlyChanges [.waybill, .free] s s1 :=
    ((onlyChanges_set_free s _).mono (by simp)).trans ((onlyChanges_set_waybill _ _).mono (by simp))
  split
  · exact hs1.trans ((signPoint_onlyChanges _ s1).mono (by simp))
  · exact hs1

/-- The parts that appending the records a partition's operations waited with may change. -/
def recordZones : List Zone := [.host, .work, .waybill, .tt, .ft, .tn, .free, .out]

theorem finishOp_onlyChanges (w : Work) (x : StepInfo) (r : Nat) (s : State) (fr : BitVec 16) :
    OnlyChanges recordZones s (finishOp w x r s fr) := by
  have hcomplete (t : State) : OnlyChanges recordZones t (complete w x.status r t fr) :=
    (complete_onlyChanges w _ r t fr).mono (by simp [recordZones])
  unfold finishOp
  split
  · exact ((onlyChanges_set_tt s _).mono (by simp [recordZones])).trans (hcomplete _)
  · split
    · exact ((appendRec_onlyChanges w.part x s).mono (by simp [recordZones])).trans (hcomplete _)
    · exact (onlyChanges_set_work s _).mono (by simp [recordZones])

theorem genesis_onlyChanges (p : Nat) (s : State) : OnlyChanges [.waybill, .free] s (genesis p s) := by
  unfold genesis
  split
  · exact ((onlyChanges_set_waybill s _).mono (by simp)).trans (appendRec_onlyChanges p _ _)
  · exact .refl _ s

theorem retryEnded_onlyChanges (p : Nat) (s : State) : OnlyChanges recordZones s (retryEnded p s) := by
  refine ((genesis_onlyChanges p s).mono (by simp [recordZones])).trans (onlyChanges_foldl (fun s w => ?_) _ _)
  split
  · exact finishOp_onlyChanges w _ _ s _
  · exact .refl _ s

theorem sendPending_onlyChanges (f : Nat) (s : State) : OnlyChanges [.host, .out] s (sendPending f s) := by
  unfold sendPending
  split
  · exact .refl _ s
  · refine onlyChanges_foldl (fun s v => ?_) _ s
    dsimp only
    split
    · exact ((onlyChanges_set_host s _).mono (by simp)).trans ((onlyChanges_set_out _ _).mono (by simp))
    · exact .refl _ s

end Sys2Proof.Machine

/-! # Accesses of registers

SUPPORT. Where an array's elements lie, what a read and a write of a register come to, and the frame of a write of each
block (R17 to R20, R90, R763). -/

namespace Sys2Proof.Machine

/-! ## Offsets and fields -/

theorem arrAt_eq_some {off base step n i o : Nat} (h : arrAt off base step n = some (i, o)) :
    i < n ∧ o < step ∧ off = base + step * i + o := by
  unfold arrAt at h
  split at h
  case isTrue hr =>
    obtain ⟨rfl, rfl⟩ : (off - base) / step = i ∧ (off - base) % step = o := by simpa using h
    have hlt : off - base < step * n := by omega
    have hstep : 0 < step := Nat.pos_of_ne_zero (by rintro rfl; simp at hlt)
    have hdiv := Nat.div_add_mod (off - base) step
    exact ⟨Nat.div_lt_of_lt_mul hlt, Nat.mod_lt _ hstep, by omega⟩
  case isFalse => cases h

theorem arrAt_eq_none {off base step n : Nat} (h : off < base ∨ base + step * n ≤ off) : arrAt off base step n = none :=
  if_neg (by omega)

/-- A field of a machine word, as a word of the field's width. -/
theorem ofNat_fld {n : Nat} (v : BitVec n) (lo w : Nat) : BitVec.ofNat w (fld v.toNat lo w) = (v >>> lo).setWidth w := by
  apply BitVec.eq_of_toNat_eq
  simp [fld]

/-- Replacing a field replaces its bits and no other. -/
theorem testBit_setFld (x lo w v i : Nat) :
    (setFld x lo w v).testBit i = if lo ≤ i ∧ i < lo + w then v.testBit (i - lo) else x.testBit i := by
  have hx : setFld x lo w v = 2 ^ lo * (2 ^ w * (x >>> (lo + w)) + v % 2 ^ w) + x % 2 ^ lo := by
    have hhigh : x >>> lo = 2 ^ w * (x >>> (lo + w)) + (x >>> lo) % 2 ^ w := by
      rw [Nat.shiftRight_add, Nat.shiftRight_eq_div_pow _ w, Nat.div_add_mod]
    have hlow : x = 2 ^ lo * (x >>> lo) + x % 2 ^ lo := by rw [Nat.shiftRight_eq_div_pow, Nat.div_add_mod]
    simp only [setFld, fld, Nat.shiftLeft_eq]
    generalize x >>> (lo + w) = a at *
    generalize x >>> lo % 2 ^ w = b at *
    rw [hhigh] at hlow
    generalize x % 2 ^ lo = c at *
    subst hlow
    rw [Nat.mul_add, Nat.mul_add, Nat.mul_comm b, Nat.mul_comm (v % 2 ^ w)]
    omega
  have hlo := Nat.mod_lt x (Nat.two_pow_pos lo)
  have hw := Nat.mod_lt v (Nat.two_pow_pos w)
  rw [hx, Nat.testBit_two_pow_mul_add _ hlo, Nat.testBit_two_pow_mul_add _ hw]
  rcases Nat.lt_or_ge i lo with h | h
  · simp [h, Nat.testBit_mod_two_pow]
  · rcases Nat.lt_or_ge i (lo + w) with h' | h'
    · simp [h, h', show ¬ i < lo by omega, show i - lo < w by omega, Nat.testBit_mod_two_pow]
    · simp [show ¬ i < lo by omega, show ¬ i - lo < w by omega, show ¬ i < lo + w by omega,
        show lo + w + (i - lo - w) = i by omega]

/-! ## The two commands -/

theorem live_of_reaches {f : Nat} {s : State} (h : reaches f s = true) : s.live = true := by
  simp only [reaches, portOpen, Bool.and_eq_true] at h
  exact h.1.1.1

/-- A read over BAR0 of a device that is READY. -/
theorem completes_read {f off width : Nat} {s : State} {P : State → Prop} (hr : reaches f s = true) (hf : f ≤ 16)
    (hb : s.boot.stage = .ready) (h : P (s.kept (readReg f off width s))) :
    Completes (.registerReadClear (.bar0 f) off width) s P :=
  ⟨_, by simp [exec, execRegisterReadClear, actIf, hr, hf, hb, live_of_reaches hr], h⟩

/-- A read over I3C of a register that the tray controller reads (R44). -/
theorem completes_read_i3c {off width : Nat} {s : State} {P : State → Prop} (hp : s.power.st ≠ .off) (hi : i3cReads off = true)
    (h : P (s.kept (readReg 0 off width s))) : Completes (.registerReadClear .i3c off width) s P :=
  ⟨_, by simp [exec, execRegisterReadClear, hp, hi], h⟩

theorem completes_write {f off width : Nat} {v : W64} {s : State} {P : State → Prop} (hr : reaches f s = true) (hf : f ≤ 16)
    (hro : readsOnly s = false) (h : P (s.kept (writeReg f off width v.toNat s))) :
    Completes (.registerWrite (.bar0 f) off width v) s P :=
  ⟨_, by simp [exec, execRegisterWrite, actIf, writes, hr, hf, hro, live_of_reaches hr], h⟩

/-- A write over I3C in the range of LD_ATT_NONCE (R740). -/
theorem completes_write_i3c {off width : Nat} {v : W64} {s : State} {P : State → Prop} (hl : s.live = true) (hlo : 0x7000 ≤ off)
    (hhi : off < 0x7020) (h : P (s.kept (writeLd off width v.toNat s))) : Completes (.registerWrite .i3c off width v) s P :=
  ⟨_, by simp [exec, execRegisterWrite, actIf, hl, hlo, hhi], h⟩

/-! ## Reads -/

theorem readValue_r32 {s : State} {f off v : Nat} (h : regAt s f off = .r32 v) (ha : off % 4 = 0) : readValue s f off 32 = v := by
  simp [readValue, h, ha]

/-- A whole read of a 32-bit register sends its value and clears what a read of it clears (R19, R20). -/
theorem readReg_r32 {s : State} {f off v : Nat} (h : regAt s f off = .r32 v) (ha : off % 4 = 0) :
    readReg f off 32 s = clearOnRead f off (s.emit (.regRead f off (BitVec.ofNat 64 v))) := by
  simp [readReg, readsReg, readValue_r32 h ha, h, ha]

/-- Any other read only sends a value. -/
theorem readReg_of_not_readsReg {s : State} {f off width : Nat} (h : readsReg s f off width = false) :
    readReg f off width s = s.emit (.regRead f off (BitVec.ofNat 64 (readValue s f off width))) := by
  simp [readReg, h]

theorem regAt_ciErr (s : State) : regAt s 0 0x400004 = .r32 (2 ^ 31 * b2n s.img.err.valid + s.img.err.result) := rfl

theorem regAt_mtHostReject (s : State) : regAt s 0 0x6000008 = .r32 s.ddr.hostReject.toNat := rfl

theorem regAt_ftMaxLevel (s : State) : regAt s 0 0x7000088 = .r32 s.ft.maxLevel.toNat := rfl

theorem regAt_pwStatus (s : State) : regAt s 0 0x100104 = .r32 (pwWord s.power) := rfl

theorem regAt_ldBoot (s : State) : regAt s 0 0x100 = .r32 (bootWord s.boot) := rfl

/-- Every function has an HI_LOST_CPL of its own (R90, R119). -/
theorem regAt_hiLostCpl (s : State) (f : Nat) : regAt s f 0x200014 = .r32 (s.fn f).lost.toNat := by
  by_cases hf : f = 0
  · subst hf
    rfl
  · simp only [regAt, hf, if_false]
    rfl

/-- A virtual function has nothing at or above the end of its HI_ block (R90, R763). -/
theorem regAt_vf_above {s : State} {f off : Nat} (hf : 1 ≤ f) (h : 0x400000 ≤ off) : regAt s f off = .none := by
  simp [regAt, show f ≠ 0 by omega, show off ≠ 0 by omega, show ¬ off < 0x400000 by omega]

theorem readValue_vf_above {s : State} {f off : Nat} (hf : 1 ≤ f) (ha : off % 4 = 0) (h : 0x400008 ≤ off) :
    readValue s f off 32 = 0 := by
  simp [readValue, ha, regAt_vf_above hf (show 0x400000 ≤ off by omega), regAt_vf_above hf (show 0x400000 ≤ off - 4 by omega)]

theorem readsReg_vf_above {s : State} {f off width : Nat} (hf : 1 ≤ f) (h : 0x400000 ≤ off) : readsReg s f off width = false := by
  simp [readsReg, regAt_vf_above hf h]

/-! ## Writes of one register -/

theorem writeReg_ftQuiet (v : W64) (s : State) :
    writeReg 0 0x7000010 32 v.toNat s = { s with ft := { s.ft with quiet := v.setWidth 32 } } := by
  rw [← BitVec.ofNat_toNat]
  rfl

theorem writeReg_pwCtrl (v : W64) (s : State) :
    writeReg 0 0x100100 32 v.toNat s = { s with power := { s.power with n1Idle := (v >>> 8).setWidth 12 } } := by
  rw [← ofNat_fld]
  rfl

theorem writeReg_hiEvtCfg (f : Nat) (v : W64) (s : State) :
    writeReg f 0x200010 32 v.toNat s = s.modFn f (fun r => { r with evtEnable := v.getLsbD 8, evtCq := v.setWidth 8 }) := by
  rw [← BitVec.ofNat_toNat]
  rfl

theorem writeReg_lnHb {n : Nat} (v : W64) {s : State} (hn : n < 8) (hg : s.fuses.grade = .g → n < 4) :
    writeReg 0 (0x1800000 + 0x20000 * n + 0x14) 32 v.toNat s =
      s.modLantern n (fun x => { x with hbMiss := (v >>> 16).setWidth 8, hbPeriod := v.setWidth 16 }) := by
  rw [← ofNat_fld, ← BitVec.ofNat_toNat]
  have hwrite : writeReg 0 (0x1800000 + 0x20000 * n + 0x14) 32 v.toNat s = if s.fuses.grade = .g ∧ n ≥ 4 then s else
      s.modLantern n (fun x => { x with hbMiss := BitVec.ofNat 8 (fld v.toNat 16 8), hbPeriod := BitVec.ofNat 16 v.toNat }) := by
    interval_cases n <;> rfl
  rw [hwrite, if_neg (fun h => by have := hg h.1; omega)]

theorem writeReg_gvAffinityWait {g : Nat} (v : W64) {s : State} (hg : g < 4) (hp : s.power.st ≠ .n2) :
    writeReg 0 (0x2000000 + 0x1000000 * g + 0x10) 32 v.toNat s = s.modGrove g (fun x => { x with affinityWait := v.setWidth 16 }) := by
  rw [← BitVec.ofNat_toNat]
  have hwrite : writeReg 0 (0x2000000 + 0x1000000 * g + 0x10) 32 v.toNat s = if s.power.st = .n2 then s else
      s.modGrove g (fun x => { x with affinityWait := BitVec.ofNat 16 v.toNat }) := by
    interval_cases g <;> rfl
  rw [hwrite, if_neg hp]

theorem writeReg_mtKvCfg (v : W64) (s : State) : writeReg 0 0x6400000 32 v.toNat s =
    { s with mem := { s.mem with prefetch := (v >>> 24).setWidth 8, kvWait := v.setWidth 24 } } := by
  rw [← ofNat_fld, ← BitVec.ofNat_toNat]
  rfl

theorem writeReg_rlTimeout (v : W64) (s : State) :
    writeReg 0 0x1400004 32 v.toNat s = { s with rc := { s.rc with timeout := v.setWidth 24 } } := by
  rw [← BitVec.ofNat_toNat]
  rfl

/-- Quarter `k` of LD_ATT_NONCE (R743). -/
theorem writeReg_ldAttNonce {k : Nat} (v : W64) (s : State) (hk : k < 4) : writeReg 0 (0x7000 + 8 * k) 64 v.toNat s =
    { s with trust := { s.trust with nonce := BitVec.ofNat 256 (setFld s.trust.nonce.toNat (64 * k) 64 v.toNat) } } := by
  interval_cases k <;> rfl

theorem getLsbD_ofNat_setFld {x : BitVec 256} {v : W64} {lo i : Nat} (hi : i < 256) :
    (BitVec.ofNat 256 (setFld x.toNat lo 64 v.toNat)).getLsbD i = if lo ≤ i ∧ i < lo + 64 then v.getLsbD (i - lo) else x.getLsbD i := by
  rw [BitVec.getLsbD_ofNat, testBit_setFld]
  simp [hi, BitVec.testBit_toNat]

/-- TT_STEP_EST waits for the step boundary while a step is in flight (R20, R415). -/
theorem writeReg_ttStepEst {p : Nat} (v : W64) (s : State) (hp : p < 4) : writeReg 0 (0x801000 + 0x100 * p + 0x40) 32 v.toNat s =
    if (s.stepOf p).isSome then
      { s with tt := { s.tt with pend := tput s.tt.pend p (some { ttShown s p with stepEst := v.setWidth 32 }) none } }
    else s.modTtRegs p (fun c => c.take { ttShown s p with stepEst := v.setWidth 32 }) := by
  rw [← BitVec.ofNat_toNat]
  interval_cases p <;> rfl

/-! ## What an update of a table's element leaves of the others -/

theorem State.fn_modFn_same (s : State) (f : Nat) (g : FnRegs → FnRegs) : (s.modFn f g).fn f = g (s.fn f) := tget_tmod_same ..

theorem State.fn_modFn_other {s : State} {f k : Nat} {g : FnRegs → FnRegs} (h : k ≠ f) : (s.modFn f g).fn k = s.fn k :=
  tget_tmod_other _ _ _ _ _ h

theorem State.lantern_modLantern_same (s : State) (n : Nat) (g : Lantern → Lantern) :
    (s.modLantern n g).lantern n = g (s.lantern n) := tget_tmod_same ..

theorem State.lantern_modLantern_other {s : State} {n k : Nat} {g : Lantern → Lantern} (h : k ≠ n) :
    (s.modLantern n g).lantern k = s.lantern k := tget_tmod_other _ _ _ _ _ h

theorem State.grove_modGrove_same (s : State) (n : Nat) (g : Grove → Grove) : (s.modGrove n g).grove n = g (s.grove n) :=
  tget_tmod_same ..

theorem State.grove_modGrove_other {s : State} {n k : Nat} {g : Grove → Grove} (h : k ≠ n) : (s.modGrove n g).grove k = s.grove k :=
  tget_tmod_other _ _ _ _ _ h

theorem State.ttregs_modTtRegs_same (s : State) (p : Nat) (g : TtRegs → TtRegs) : (s.modTtRegs p g).ttregs p = g (s.ttregs p) :=
  tget_tmod_same ..

theorem State.ttregs_modTtRegs_other {s : State} {p q : Nat} {g : TtRegs → TtRegs} (h : q ≠ p) :
    (s.modTtRegs p g).ttregs q = s.ttregs q := tget_tmod_other _ _ _ _ _ h

/-! ## The frame of a write, block by block -/

theorem writeHi_onlyChanges (f off width v : Nat) (s : State) : OnlyChanges [.host, .out] s (writeHi f off width v s) := by
  have hset (x : HostIf) : OnlyChanges [.host, .out] s { s with host := x } := (onlyChanges_set_host s x).mono (by simp)
  unfold writeHi
  split_ifs
  · exact hset _
  · exact .refl _ s
  · exact hset _
  · split
    · dsimp only
      split_ifs
      · exact (hset _).trans (sendPending_onlyChanges f _)
      · exact (hset _).trans (sendPending_onlyChanges f _)
      · exact .refl _ s
    · exact .refl _ s

/-- A write of LD_WB_CFG: the one register whose write moves work (R271, R278). -/
def writesWbCfg (off width : Nat) : Prop := width = 32 ∧ ∃ p < 4, off = 0x8028 + 0x100 * p

theorem writeLd_wbCfg {p : Nat} (v : Nat) (s : State) (hp : p < 4) : writeLd (0x8028 + 0x100 * p) 32 v s =
    retryEnded p (s.modChain p (fun c => { c with overwrite := v.testBit 0 })) := by
  interval_cases p <;> rfl

theorem writeLd_onlyChanges {off width : Nat} (v : Nat) (s : State) (h : ¬ writesWbCfg off width) :
    OnlyChanges [.flash, .tn, .trust] s (writeLd off width v s) := by
  unfold writeLd
  split
  case isTrue hw =>
    split
    · exact (onlyChanges_set_flash s _).mono (by simp)
    · exact (onlyChanges_set_tn s _).mono (by simp)
    · split
      · exact (onlyChanges_set_tn s _).mono (by simp)
      next p hwb _ =>
        obtain ⟨hp, -, hoff⟩ := arrAt_eq_some hwb
        exact absurd ⟨hw, p, hp, by omega⟩ h
      · exact .refl _ s
  case isFalse =>
    split
    · exact (onlyChanges_set_trust s _).mono (by simp)
    · exact .refl _ s

/-- In the nonce's range nothing else of the LD_ block stands. -/
theorem writeLd_nonce_onlyChanges {off width : Nat} (v : Nat) (s : State) (hlo : 0x7000 ≤ off) (hhi : off < 0x7020) :
    OnlyChanges [.trust] s (writeLd off width v s) := by
  unfold writeLd
  rw [arrAt_eq_none (show off < 0x8000 ∨ _ by omega), arrAt_eq_none (show _ ∨ 0x2060 + 4 * 8 ≤ off by omega)]
  split
  · split
    · omega
    · omega
    · exact .refl _ s
  · split
    · exact onlyChanges_set_trust s _
    · exact .refl _ s

theorem writeTt_onlyChanges (off width v : Nat) (s : State) : OnlyChanges [.tt] s (writeTt off width v s) := by
  unfold writeTt
  split
  · exact .refl _ s
  · dsimp only
    split
    · exact onlyChanges_set_tt s _
    · exact onlyChanges_set_tt s _

theorem writeSb_onlyChanges (off width v : Nat) (s : State) : OnlyChanges [.ho] s (writeSb off width v s) := by
  unfold writeSb
  dsimp only
  split
  · split
    · exact onlyChanges_set_ho s _
    · exact onlyChanges_set_ho s _
    · exact onlyChanges_set_ho s _
    · split
      · exact onlyChanges_set_ho s _
      · exact .refl _ s
  · split
    · split
      · exact onlyChanges_set_ho s _
      · exact .refl _ s
    · exact .refl _ s

theorem writeRail_onlyChanges (off width v : Nat) (s : State) : OnlyChanges [.rail, .rc] s (writeRail off width v s) := by
  have hrail (x : Rail) : OnlyChanges [.rail, .rc] s { s with rail := x } := (onlyChanges_set_rail s x).mono (by simp)
  have hrc (x : RailConns) : OnlyChanges [.rail, .rc] s { s with rc := x } := (onlyChanges_set_rc s x).mono (by simp)
  unfold writeRail
  split
  · exact .refl _ s
  · split
    · exact hrc _
    · exact hrc _
    · exact hrail _
    · split
      · exact hrail _
      · split
        · exact .refl _ s
        · split
          · exact hrail _
          · exact hrail _
          · exact hrail _
          · exact .refl _ s
      · exact .refl _ s

/-- The write of a CK_, CI_, GV_ or MT_ register: its frame, and that HBM and its poison stay. -/
theorem writeMid_frame (off width v : Nat) (s : State) : OnlyChanges [.power, .mem, .img, .groves] s (writeMid off width v s) ∧
    (writeMid off width v s).mem.hbm = s.mem.hbm ∧ (writeMid off width v s).mem.poison = s.mem.poison := by
  have hself : OnlyChanges [.power, .mem, .img, .groves] s s := .refl _ s
  have hgroves (x : Groves) : OnlyChanges [.power, .mem, .img, .groves] s { s with groves := x } :=
    (onlyChanges_set_groves s x).mono (by simp)
  unfold writeMid
  split
  · exact ⟨hself, rfl, rfl⟩
  · split
    · exact ⟨(onlyChanges_set_power s _).mono (by simp), rfl, rfl⟩
    · exact ⟨(onlyChanges_set_mem s _).mono (by simp), rfl, rfl⟩
    · exact ⟨(onlyChanges_set_mem s _).mono (by simp), rfl, rfl⟩
    · split
      · split
        · split
          · exact ⟨(onlyChanges_set_img s _).mono (by simp), rfl, rfl⟩
          · exact ⟨hself, rfl, rfl⟩
        · exact ⟨hself, rfl, rfl⟩
      · split_ifs
        · exact ⟨hself, rfl, rfl⟩
        · exact ⟨hgroves _, rfl, rfl⟩
        · exact ⟨hgroves _, rfl, rfl⟩
        · exact ⟨hself, rfl, rfl⟩
      · exact ⟨hself, rfl, rfl⟩

theorem writeFt_onlyChanges (off width v : Nat) (s : State) : OnlyChanges [.ft] s (writeFt off width v s) := by
  unfold writeFt
  split
  · exact .refl _ s
  · dsimp only
    split <;> exact onlyChanges_set_ft s _

/-! ## The frame of a write -/

/-- The parts, HBM's apart, whose registers hold read-write fields. -/
def rwZones : List Zone := [.flash, .power, .host, .img, .groves, .tt, .rail, .rc, .ho, .ft, .tn, .trust, .out]

/-- A write that is not of LD_WB_CFG stays in one block; that of the MT_ registers alone reaches the part that holds HBM. -/
theorem writeReg_cases {off width : Nat} (f v : Nat) (s : State) (h : ¬ writesWbCfg off width) :
    OnlyChanges rwZones s (writeReg f off width v s) ∨ writeReg f off width v s = writeMid off width v s := by
  unfold writeReg
  split_ifs
  · exact .inl ((writeHi_onlyChanges f off width v s).mono (by simp [rwZones]))
  · exact .inl (.refl _ s)
  · exact .inl ((writeLd_onlyChanges v s h).mono (by simp [rwZones]))
  · exact .inl ((writeTt_onlyChanges off width v s).mono (by simp [rwZones]))
  · exact .inl ((writeSb_onlyChanges off width v s).mono (by simp [rwZones]))
  · exact .inl ((writeRail_onlyChanges off width v s).mono (by simp [rwZones]))
  · exact .inl ((writeFt_onlyChanges off width v s).mono (by simp [rwZones]))
  · exact .inr rfl

theorem writeReg_onlyChanges {off width : Nat} (f v : Nat) (s : State) (h : ¬ writesWbCfg off width) :
    OnlyChanges (.mem :: rwZones) s (writeReg f off width v s) := by
  rcases writeReg_cases f v s h with hrw | hmid
  · exact hrw.mono (by simp)
  · rw [hmid]
    exact (writeMid_frame off width v s).1.mono (by simp [rwZones])

theorem writeReg_wbCfg_onlyChanges {off width : Nat} (f v : Nat) (s : State) (h : writesWbCfg off width) :
    OnlyChanges recordZones s (writeReg f off width v s) := by
  obtain ⟨rfl, p, hp, rfl⟩ := h
  unfold writeReg
  rw [if_neg (by omega)]
  split
  · exact .refl _ s
  · rw [if_pos (by omega), writeLd_wbCfg v s hp]
    exact ((onlyChanges_set_waybill s _).mono (by simp [recordZones])).trans (retryEnded_onlyChanges p _)

/-- No write of a register stores to HBM or marks a line. -/
theorem writeReg_hbm (f off width v : Nat) (s : State) :
    (writeReg f off width v s).mem.hbm = s.mem.hbm ∧ (writeReg f off width v s).mem.poison = s.mem.poison := by
  by_cases h : writesWbCfg off width
  · rw [(writeReg_wbCfg_onlyChanges f v s h).mem_eq (by decide)]
    exact ⟨rfl, rfl⟩
  · rcases writeReg_cases f v s h with hrw | hmid
    · rw [hrw.mem_eq (by decide)]
      exact ⟨rfl, rfl⟩
    · rw [hmid]
      exact (writeMid_frame off width v s).2

/-- A virtual function writes nothing outside its own HI_ block (R90, R763). -/
theorem writeReg_vf_outside {f off : Nat} (width v : Nat) (s : State) (hf : 1 ≤ f) (ho : off < 0x200000 ∨ 0x400000 ≤ off) :
    writeReg f off width v s = s := by
  unfold writeReg
  rw [if_neg (by omega), if_pos (by omega)]

end Sys2Proof.Machine

/-! # The obligations on reads and writes of registers -/

namespace Sys2Proof.Machine

/-- Settles O16: a read is the value sent, then what the register's read clears; each clause names the register at its offset. -/
theorem registerReads : Obligations.RegisterReads := by
  unfold Obligations.RegisterReads
  have hout (s : State) (o : Out) : OnlyChanges [.out] s (s.kept (s.emit o)) := (onlyChanges_set_out s _).kept
  refine ⟨fun s off width hr hb hn => ?plain, fun s hr hb => ?ciErr, fun s hr hb => ?mtHostReject, fun s hr hb => ?ftMaxLevel,
    fun s f hr hf hb => ?hiLostCpl, fun s f off hr h1 hf hb ha ho => ?above, fun s hp => ?pwStatus, fun s hp => ?ldBoot⟩
  case plain =>
    refine completes_read hr (by omega) hb ?_
    rw [readReg_of_not_readsReg hn]
    exact ⟨rfl, hout s _⟩
  case ciErr =>
    refine completes_read hr (by omega) hb ?_
    rw [readReg_r32 (regAt_ciErr s) (by norm_num)]
    exact ⟨rfl, rfl, (onlyChanges_set_img _ _).of_emit.kept⟩
  case mtHostReject =>
    refine completes_read hr (by omega) hb ?_
    rw [readReg_r32 (regAt_mtHostReject s) (by norm_num)]
    exact ⟨rfl, rfl, (onlyChanges_set_ddr _ _).of_emit.kept⟩
  case ftMaxLevel =>
    refine completes_read hr (by omega) hb ?_
    rw [readReg_r32 (regAt_ftMaxLevel s) (by norm_num)]
    exact ⟨rfl, hout s _⟩
  case hiLostCpl =>
    refine completes_read hr hf hb ?_
    rw [readReg_r32 (regAt_hiLostCpl s f) (by norm_num)]
    exact ⟨rfl, State.fn_modFn_same .., fun k hk => State.fn_modFn_other hk,
      (onlyChanges_set_host _ _).of_emit.kept⟩
  case above =>
    refine completes_read hr hf hb ?_
    rw [readReg_of_not_readsReg (readsReg_vf_above h1 (by omega)), readValue_vf_above h1 ha ho]
    exact ⟨rfl, hout s _⟩
  case pwStatus =>
    refine completes_read_i3c hp (by decide) ?_
    rw [readReg_r32 (regAt_pwStatus s) (by norm_num)]
    exact ⟨rfl, rfl, (onlyChanges_set_power _ _).of_emit.kept⟩
  case ldBoot =>
    refine completes_read_i3c hp (by decide) ?_
    rw [readReg_r32 (regAt_ldBoot s) (by norm_num)]
    exact ⟨rfl, hout s _⟩

/-- Settles O17: each named register from the equation of its write; the clauses on every write from the frames of the blocks. -/
theorem registerWrites : Obligations.RegisterWrites := by
  unfold Obligations.RegisterWrites
  refine ⟨fun s v hr hro => ?ftQuiet, fun s v hr hro => ?pwCtrl, fun s f v hr hf hro => ?hiEvtCfg,
    fun s n v hr hro hn hg => ?lnHb, fun s g v hr hro hg hp => ?gvAffinityWait, fun s v hr hro => ?mtKvCfg,
    fun s v hr hro => ?rlTimeout, fun s k v hr hro hk => ?ldAttNonce, fun s p v hr hro hp hs hpend => ?ttStepEst,
    fun s p v hr hro hp hs => ?ttStepEstInStep, fun s f off width v hr hf hro => ?everyWrite,
    fun s f off width v hr hf hro ho => ?work, fun s f off width v hr h1 hf hro ho => ?vf, fun s off width v hl hlo hhi => ?i3c⟩
  case ftQuiet =>
    refine completes_write hr (by omega) hro ?_
    rw [writeReg_ftQuiet]
    exact ⟨rfl, (onlyChanges_set_ft s _).kept⟩
  case pwCtrl =>
    refine completes_write hr (by omega) hro ?_
    rw [writeReg_pwCtrl]
    exact ⟨rfl, (onlyChanges_set_power s _).kept⟩
  case hiEvtCfg =>
    refine completes_write hr hf hro ?_
    rw [writeReg_hiEvtCfg]
    exact ⟨State.fn_modFn_same .., fun k hk => State.fn_modFn_other hk, (onlyChanges_set_host s _).kept⟩
  case lnHb =>
    refine completes_write hr (by omega) hro ?_
    rw [writeReg_lnHb v hn hg]
    exact ⟨State.lantern_modLantern_same .., fun k hk => State.lantern_modLantern_other hk, (onlyChanges_set_rail s _).kept⟩
  case gvAffinityWait =>
    refine completes_write hr (by omega) hro ?_
    rw [writeReg_gvAffinityWait v hg hp]
    exact ⟨State.grove_modGrove_same .., fun k hk => State.grove_modGrove_other hk, (onlyChanges_set_groves s _).kept⟩
  case mtKvCfg =>
    refine completes_write hr (by omega) hro ?_
    rw [writeReg_mtKvCfg]
    exact ⟨rfl, (onlyChanges_set_mem s _).kept⟩
  case rlTimeout =>
    refine completes_write hr (by omega) hro ?_
    rw [writeReg_rlTimeout]
    exact ⟨rfl, (onlyChanges_set_rc s _).kept⟩
  case ldAttNonce =>
    refine completes_write hr (by omega) hro ?_
    rw [writeReg_ldAttNonce v s hk]
    exact ⟨fun i hi => getLsbD_ofNat_setFld hi, (onlyChanges_set_trust s _).kept⟩
  case ttStepEst =>
    refine completes_write hr (by omega) hro ?_
    rw [writeReg_ttStepEst v s hp, hs]
    exact ⟨congrArg TtRegs.stepEst (State.ttregs_modTtRegs_same ..), fun q hq => State.ttregs_modTtRegs_other hq,
      (onlyChanges_set_tt s _).kept⟩
  case ttStepEstInStep =>
    refine completes_write hr (by omega) hro ?_
    rw [writeReg_ttStepEst v s hp, if_pos hs]
    exact ⟨rfl, by simp [ttShown, TtRegs.take], (onlyChanges_set_tt s _).kept⟩
  case everyWrite =>
    refine completes_write hr hf hro ⟨(writeReg_hbm ..).1, (writeReg_hbm ..).2, ?_⟩
    by_cases h : writesWbCfg off width
    · exact ((writeReg_wbCfg_onlyChanges f _ s h).mono (by simp [recordZones])).kept
    · exact ((writeReg_onlyChanges f _ s h).mono (by simp [rwZones])).kept
  case work =>
    have hframe := writeReg_onlyChanges f v.toNat s (fun h : writesWbCfg off width => by
      obtain ⟨-, p, hp, hoff⟩ := h
      exact ho p hp hoff)
    exact completes_write hr hf hro ⟨hframe.work_eq (by decide), hframe.free_eq (by decide)⟩
  case vf =>
    refine completes_write hr hf hro ?_
    rw [writeReg_vf_outside width v.toNat s h1 ho]
    exact (OnlyChanges.refl [] s).kept
  case i3c =>
    have hframe := writeLd_nonce_onlyChanges (width := width) v.toNat s hlo hhi
    refine completes_write_i3c hl hlo hhi ⟨hframe.kept, fun a => ?_⟩
    exact congrArg (fun m : Mem => memGet m.hbm a) (hframe.mem_eq (by decide))

end Sys2Proof.Machine

/-! # Commands without power

SUPPORT. What each form of command comes to while the device has no power or a trip has stopped its clocks (R44, R61, R750). -/

namespace Sys2Proof.Machine

section
variable {s : State}

theorem act_of_not_live {f : State → State} (h : s.live = false) : act s f = .next s := by simp [act, h]

theorem actIf_of_not_live {c : Bool} {f : State → State} (h : s.live = false) : actIf s c f = .next s := by simp [actIf, h]

theorem awake_of_not_live (h : s.live = false) : s.awake = false := by simp [State.awake, h]

/-- No descriptor starts. -/
theorem start_of_not_live {wid : Nat} {op : Byte} {f : Work → State → State} (h : s.live = false) : start wid op s f = .next s := by
  unfold start
  split <;> simp [awake_of_not_live h]

/-- No descriptor goes on. -/
theorem resume_of_not_live {α : Type} {wid : Nat} {sel : Prog → Option α} {f : Work → α → State → State} (h : s.live = false) :
    resume wid s sel f = .next s := by
  unfold resume
  split
  · split <;> simp [awake_of_not_live h]
  · rfl

theorem startTier_of_not_live {wid : Nat} {op : Byte} {f : Work → State → State} (h : s.live = false) :
    startTier wid op s f = .next s := start_of_not_live h

theorem startList_of_not_live {wid : Nat} {op : Byte} {checks : Work → ListHdr → State → List (Bool × (Status × Nat))}
    {f : Work → ListHdr → State → State} (h : s.live = false) : startList wid op s checks f = .next s := start_of_not_live h

theorem entryOp_of_not_live {wid : Nat} {op : Byte} {more : Work → State → List (Bool × (Status × Nat))} (h : s.live = false) :
    entryOp wid op more s = .next s := start_of_not_live h

theorem startImage_of_not_live {wid : Nat} {op : Byte} {f : Work → State → State} (h : s.live = false) :
    startImage wid op s f = .next s := start_of_not_live h

/-- No message of a handoff is taken. -/
theorem onConn_of_not_live {conn : Nat} {ctype : Byte} {m : Ctl} {ok : State → Bool} {f : State → State} (h : s.live = false) :
    onConn conn ctype m s ok f = .next s := actIf_of_not_live h

theorem onMgmt_of_not_live {src : Nat} {ctype : Byte} {m : Ctl} {f : State → State} (h : s.live = false) :
    onMgmt src ctype m s f = .next s := actIf_of_not_live h

theorem raceCmd_of_not_live {ctype : Byte} {src : Nat} {m : Ctl} (h : s.live = false) : raceCmd ctype src m s = .next s :=
  actIf_of_not_live h

theorem switchWrite_of_not_live {empty : Bool} {p : Nat} {new : BitVec 16} {f : Switch → State → State} (h : s.live = false) :
    switchWrite empty p new f s = .next s := actIf_of_not_live h

theorem execTrain_of_not_live {n l : Nat} {f : Frame} {o : TrainObs} (h : s.live = false) : execTrain n l f o s = .next s := by
  unfold execTrain
  split
  · exact actIf_of_not_live h
  · rfl

theorem execAbort_of_not_live {c : Nat} {m : Ctl} (h : s.live = false) : execAbort c m s = .next s := by
  unfold execAbort
  split <;> exact onConn_of_not_live h

/-- Every command but those that apply and remove power and a read over I3C acts only on a live device: it is a start or a
resumption of a descriptor, acts while the device has power, or acts so under a condition of its own. -/
theorem exec_of_not_live {c : Instr} (hl : s.live = false) (hon : c ≠ .powerApplied) (hoff : c ≠ .powerRemoved)
    (haon : c ≠ .aonSupplyLoss) (hread : ∀ o w, c ≠ .registerReadClear .i3c o w) : exec c s = .next s := by
  cases c with
  | powerApplied => exact absurd rfl hon
  | powerRemoved => exact absurd rfl hoff
  | aonSupplyLoss => exact absurd rfl haon
  | registerReadClear by_ o w =>
    cases by_ with
    | bar0 f => simp [exec, execRegisterReadClear, actIf_of_not_live hl]
    | i3c => exact absurd rfl (hread o w)
  | registerWrite by_ o w v => cases by_ <;> simp [exec, execRegisterWrite, actIf_of_not_live hl]
  | svnCommitDone => simp [exec, execSvnCommitDone, hl]
  | train => simp only [exec, execTrain_of_not_live hl]
  | abort => simp only [exec, execAbort_of_not_live hl]
  | waybillSignatureComplete | handoffPlatformWaitExpire | opticalSample | sensorSample | sidebandSupplyLoss | suppliesValid
  | perstNAssert | hostHotReset | hostLinkDown | rlTimeoutExpire | flashCopyComplete | i3cResetCommand | imageReadComplete
  | drainWaitExpire | applyFault | possessionGrant | maintenanceComplete | firmwareBroadcastRequest | contextWatchdog
  | errNPulseEnd | controlCoreFault | tenantSwitchDrainEnd | tenantSwitchScrubComplete | retirementFlashWriteComplete =>
    simp only [exec]
    exact act_of_not_live hl
  | waybillRead | waybillSeal | waybillMeasure | rlSend | rlWrite | rlRead | rlAtomic | rlFence | rlRecv | rlCreate | rlConnect
  | rlClose | rlRegister | rlRevoke | rlTriggerSet | mtStore | mtLoad | kvListCreate | kvScatter | kvKeyslotSet | matmul
  | matmulSparse | canopyLoad | canopyFree | vector | attend | attendBackward | ttPlace | ttSnapshot | ttRaceOpen | ttRaceClose
  | ttProgram | csQuery | csIndexLoad | csDelete | nop =>
    simp only [exec]
    exact start_of_not_live hl
  | waybillMeasureComplete | railRequestIssue | armedRequestIssue | rlCreateUnitsReserved | rlCreateWaitExpire
  | ddrRecordInitComplete | blockCodingComplete | scatterTurn | kvListFreeComplete | tileComplete | canopyLoadComplete
  | canopyFreeComplete | vectorChunkComplete | commitWaitSatisfied | commitWaitExpire | attendUnitComplete | tileDispatch
  | affinityWaitExpire | searchContextAllocate | indexReadReturn | distanceBatchComplete | indexCopyComplete =>
    simp only [exec]
    exact resume_of_not_live hl
  | mtDdrDeclare | mtDdrSeal | mtDdrUnseal | mtDdrRetire | mtDdrPin =>
    simp only [exec]
    exact startTier_of_not_live hl
  | kvFreeze | kvSpill | kvFetch | kvListFree =>
    simp only [exec]
    exact startList_of_not_live hl
  | ttCancel | ttMove | ttPark | ttResume | ttFree =>
    simp only [exec]
    exact entryOp_of_not_live hl
  | imageLoad | imageCheck | drainBegin | drainEnd =>
    simp only [exec]
    exact startImage_of_not_live hl
  | grant | refuse | credit | offer | handoffData | commit =>
    simp only [exec]
    exact onConn_of_not_live hl
  | accept | probeReply | probe | release | lost | cancel | cancelDone =>
    simp only [exec]
    exact onMgmt_of_not_live hl
  | raceJoin | raceClaim | raceGrant | raceRefuse | raceCancel | raceCancelAck =>
    simp only [exec]
    exact raceCmd_of_not_live hl
  | tenantSwitch | firstMapping =>
    simp only [exec]
    exact switchWrite_of_not_live hl
  | handoffItemSend | handoffItemWritten | keyConfirm | laneUp | resetLimitExpire =>
    simp [exec, execHandoffItemSend, execHandoffItemWritten, execKeyConfirm, execLaneUp, execResetLimitExpire, actIf_of_not_live hl]
  | _ =>
    simp only [exec]
    exact actIf_of_not_live hl

end

/-- The ac count runs on wherever there is power, the sc count only with the root PLL locked (R50, R52, R58). -/
theorem tick_counts {s : State} (h : s.power.st ≠ .off) :
    (tick s).clk.ac = s.clk.ac + 1 ∧ (s.clk.pllLock = false → (tick s).clk.sc = s.clk.sc) := by
  simp +contextual [tick, h, scOfCycle]

end Sys2Proof.Machine

/-! # The obligation on a device without power -/

namespace Sys2Proof.Machine

/-- Settles O60: each command by its form, and the cycle of a device with an empty queue by its power state. -/
theorem unpoweredDoesNothing : Obligations.UnpoweredDoesNothing := by
  unfold Obligations.UnpoweredDoesNothing
  refine ⟨fun c s hl hon hoff haon hread => exec_of_not_live hl hon hoff haon hread, fun s o w hp => ?read, fun s hp hq => ?off,
    fun s hp hq => ?powered⟩
  case read => simp [exec, execRegisterReadClear, hp]
  case off => simp [step, hq, tick, hp]
  case powered => exact ⟨tick s, by simp [step, hq], tick_counts hp⟩

end Sys2Proof.Machine

/-! # Errors and chip resets

SUPPORT. A fatal error opens a record and starts a warm reset with cause 3 at once (R675 to R683, R689): the record stays open
through everything the reset discards and completes, since only a record below class 3 is closed there (R678). -/

namespace Sys2Proof.Machine

/-! ## Commands that act -/

theorem act_of_live {s : State} {f : State → State} (h : s.live = true) : act s f = .next (s.kept (f s)) := by simp [act, h]

theorem actIf_of_live {s : State} {c : Bool} {f : State → State} (h : s.live = true) (hc : c = true) :
    actIf s c f = .next (s.kept (f s)) := by simp [actIf, h, hc]

theorem live_of_ready {s : State} (h : s.ready = true) : s.live = true := by
  simp only [State.ready, Bool.and_eq_true] at h
  exact h.1

theorem event_onlyChanges {f c r : Nat} {s : State} {st : Byte} {q : W32} {x : Nat} {fr : BitVec 16} :
    OnlyChanges [.host, .out] s (event f c r s st q x fr) := by
  intro p hp
  cases p <;> simp [sameZone] at hp ⊢

/-! ## What every listed value of a key satisfies -/

/-- The table lists key `k`, and every value it lists there satisfies `P`. -/
def Lists {α : Type} (P : α → Prop) (k : Nat) (t : Tab α) : Prop := (∃ x ∈ t, x.1 = k) ∧ ∀ x ∈ t, x.1 = k → P x.2

theorem Lists.tget {α : Type} {P : α → Prop} {k : Nat} {t : Tab α} (h : Lists P k t) (d : α) : P (tget t k d) := by
  induction t with
  | nil => simp [Lists] at h
  | cons x r ih =>
    obtain ⟨k', v⟩ := x
    by_cases hk : k' = k
    · simpa [Machine.tget, hk] using h.2 (k', v) (by simp) hk
    · have hr : Lists P k r := ⟨by simpa [hk] using h.1, fun y hy => h.2 y (by simp [hy])⟩
      simpa [Machine.tget, hk] using ih hr

section
variable {α : Type} [DecidableEq α] {P : α → Prop} {k : Nat}

omit [DecidableEq α] in
theorem mem_tinsert_self (t : Tab α) (k : Nat) (v : α) : (k, v) ∈ tinsert t k v := by
  induction t with
  | nil => simp [tinsert]
  | cons x r ih =>
    obtain ⟨k', v'⟩ := x
    by_cases hlt : k < k' <;> simp [tinsert, hlt, ih]

theorem lists_tput (t : Tab α) {v d : α} (hv : v ≠ d) (h : P v) : Lists P k (tput t k v d) := by
  rw [tput, if_neg hv]
  refine ⟨⟨(k, v), mem_tinsert_self .., rfl⟩, fun x hx hk => ?_⟩
  rcases mem_tinsert hx with rfl | hx
  · exact h
  · exact absurd hk (not_mem_terase t k x hx)

theorem Lists.tmap {t : Tab α} {d : α} {f : Nat → α → α} (h : Lists P k t) (hf : ∀ v, P v → P (f k v)) (hd : ¬ P d) :
    Lists P k (tmap t d f) := by
  obtain ⟨⟨x, hx, rfl⟩, hall⟩ := h
  have hne (v : α) (hv : P v) : f x.1 v ≠ d := fun he => hd (he ▸ hf v hv)
  refine ⟨⟨(x.1, f x.1 x.2), List.mem_filterMap.2 ⟨x, hx, if_neg (hne x.2 (hall x hx rfl))⟩, rfl⟩, fun y hy hk => ?_⟩
  obtain ⟨z, hz, hzy⟩ := List.mem_filterMap.1 hy
  split at hzy
  · cases hzy
  · cases hzy
    have hzk : z.1 = x.1 := hk
    exact hzk ▸ hf z.2 (hall z hz hzk)

end

/-! ## Open fatal records -/

/-- An open record of a fatal error of a source (R674, R675). -/
def FaultRec.Fatal (src : Byte) (r : FaultRec) : Prop := r.isOpen = true ∧ r.cls = 3 ∧ r.source = src

theorem not_fatal_default (src : Byte) : ¬ FaultRec.Fatal src {} := fun h => absurd h.1 (by decide)

/-- The device is in the fault state, with an open fatal record in a slot. -/
def FatalAt (k : Nat) (src : Byte) (f : Faults) : Prop := f.fault = true ∧ Lists (FaultRec.Fatal src) k f.recs

section
variable {k : Nat} {src : Byte} {s : State}

/-- A change of the records that keeps fatal ones open. -/
theorem FatalAt.tmap {f : Faults} {g : Nat → FaultRec → FaultRec} (h : FatalAt k src f)
    (hg : ∀ r, FaultRec.Fatal src r → FaultRec.Fatal src (g k r)) : FatalAt k src { f with recs := tmap f.recs {} g } :=
  ⟨h.1, h.2.tmap hg (not_fatal_default src)⟩

/-- Only a record below class 3 is closed by its causes ending or by a warm reset (R670, R678). -/
theorem not_contained {r : FaultRec} (h : FaultRec.Fatal src r) : (r.isOpen && decide (r.cls.toNat < 3)) = false := by
  simp [h.2.1]

theorem settleRecs_fatalAt (h : FatalAt k src s.ft) : FatalAt k src (settleRecs s).ft :=
  h.tmap (fun r hr => by simpa [not_contained hr] using hr)

theorem closeFor_fatalAt (c : Closer) (h : FatalAt k src s.ft) : FatalAt k src (closeFor c s).ft :=
  settleRecs_fatalAt (h.tmap (fun _ hr => hr))

theorem complete_ft (w : Work) (st : Status) (r : Nat) (s : State) (fr : BitVec 16) :
    (complete w st r s fr).ft = (closeFor (.work w.wid) s).ft := by
  unfold complete
  dsimp only
  rw [settleDisable_ft]
  unfold closeFor settleRecs
  dsimp only
  split
  · (repeat' split) <;> simp
  · simp

theorem completeAll_fatalAt (st : Status) (r : Nat) (l : List Work) (h : FatalAt k src s.ft) :
    FatalAt k src (completeAll st r l s).ft := by
  induction l generalizing s with
  | nil => exact h
  | cons w l ih => exact ih (by rw [complete_ft]; exact closeFor_fatalAt _ h)

theorem discardWarm_fatalAt (h : FatalAt k src s.ft) : FatalAt k src (discardWarm s).ft :=
  h.tmap (fun r hr => by simpa [not_contained hr] using hr)

end

/-! ## The warm reset -/

theorem completeAll_mem (st : Status) (r : Nat) (l : List Work) (s : State) : (completeAll st r l s).mem = s.mem := by
  induction l generalizing s with
  | nil => rfl
  | cons w l ih => rw [completeAll, ih, complete_mem]

theorem mem_completeAll_work {st : Status} {r : Nat} {l : List Work} {s : State} {x : Work}
    (h : x ∈ (completeAll st r l s).work) : x ∈ s.work ∧ ∀ w ∈ l, x.wid ≠ w.wid := by
  induction l generalizing s with
  | nil => exact ⟨h, by simp⟩
  | cons w l ih =>
    obtain ⟨hx, hl⟩ := ih h
    rw [complete_work, List.mem_filter, bne_iff_ne] at hx
    exact ⟨hx.1, by simpa using ⟨hx.2, hl⟩⟩

theorem completeAll_self_work (st : Status) (r : Nat) (s : State) : (completeAll st r s.work s).work = [] := by
  refine List.eq_nil_iff_forall_not_mem.2 (fun x hx => ?_)
  obtain ⟨hs, hl⟩ := mem_completeAll_work hx
  exact hl x hs rfl

theorem loseHeld_onlyChanges (s : State) : OnlyChanges [.host] s (loseHeld s) := by
  refine (onlyChanges_set_host s _).trans (onlyChanges_foldl (fun s f => ?_) _ _)
  split
  · exact .refl _ s
  · exact onlyChanges_set_host s _

theorem portReset_mem (s : State) : (portReset s).mem = s.mem := (loseHeld_onlyChanges s).mem_eq (by decide)

theorem portReset_ft (s : State) : (portReset s).ft = s.ft := of_decide_eq_true (loseHeld_onlyChanges s .ft (by decide))

/-- The state after the host port is reset and the work in flight has ended with INTERNAL (R123, R670). -/
def endInFlight (s : State) : State := completeAll .internal 0 (portReset s).work (portReset s)

theorem completeAll_portReset (s : State) : completeAll .internal 0 (portReset s).work (portReset s) = endInFlight s := rfl

theorem endInFlight_work (s : State) : (endInFlight s).work = [] := completeAll_self_work _ _ (portReset s)

theorem endInFlight_mem (s : State) : (endInFlight s).mem = s.mem := (completeAll_mem ..).trans (portReset_mem s)

theorem endInFlight_fatalAt {k : Nat} {src : Byte} {s : State} (h : FatalAt k src s.ft) : FatalAt k src (endInFlight s).ft :=
  completeAll_fatalAt _ _ _ (by rwa [portReset_ft])

@[simp] theorem warmClkPower_work (s : State) : (warmClkPower s).work = s.work := rfl
@[simp] theorem warmClkPower_mem (s : State) : (warmClkPower s).mem = s.mem := rfl
@[simp] theorem warmClkPower_ft (s : State) : (warmClkPower s).ft = s.ft := rfl

@[simp] theorem discardWarm_work (s : State) : (discardWarm s).work = s.work := rfl
@[simp] theorem discardWarm_hbm (s : State) : (discardWarm s).mem.hbm = s.mem.hbm := rfl

/-- A warm reset from READY starts bring-up again, ends the work in flight and keeps HBM (R639, R670). -/
theorem warmReset_of_ready {s : State} (h : s.ready = true) (c : BitVec 2) :
    (warmReset c s).boot.stage = .lodge ∧ (warmReset c s).boot.cause = c ∧ (warmReset c s).boot.chipReset = decide (c = 3) ∧
    (warmReset c s).work = [] ∧ (warmReset c s).mem.hbm = s.mem.hbm := by
  simp [warmReset, h, completeAll_portReset, endInFlight_work, endInFlight_mem]

theorem warmReset_fatalAt {k : Nat} {src : Byte} {s : State} (hr : s.ready = true) (c : BitVec 2) (h : FatalAt k src s.ft) :
    FatalAt k src (warmReset c s).ft := by
  have hdiscard : FatalAt k src (discardWarm (endInFlight s)).ft := discardWarm_fatalAt (endInFlight_fatalAt h)
  simpa [warmReset, hr, completeAll_portReset, FatalAt] using hdiscard

/-! ## A fatal error -/

/-- The chip is being reset for a fatal error of a source, found in state `s`: bring-up has begun with cause 3, the work in
flight has ended, HBM is kept, and the error's record is open under the next number (R675 to R678, R689). -/
def ResetsChip (src : Byte) (s t : State) : Prop :=
  t.boot.stage = .lodge ∧ t.boot.cause = 3 ∧ t.boot.chipReset = true ∧ t.work = [] ∧ t.mem.hbm = s.mem.hbm ∧ t.ft.fault = true ∧
  (tget t.ft.recs ((nextNumber s.ft.last).toNat % 4096) {}).isOpen = true ∧
  (tget t.ft.recs ((nextNumber s.ft.last).toNat % 4096) {}).source = src

/-- The mark that a reset of level 4 leaves for the ladder (R686, R687). -/
def markChip (s : State) : State :=
  { s with ft := { s.ft with marks := s.ft.marks ++ [{ domain := 0xFF, level := 4, ac := s.clk.ac }] } }

/-- Level 4 of the ladder, where FT_ESC_CFG.MAX_LEVEL allows it, is a warm reset with cause 3 (R687, R689). -/
theorem chipLevel_four {s : State} (hmax : 4 ≤ s.ft.maxLevel.toNat) : chipLevel 4 s = warmReset 3 (markChip s) := by
  rw [chipLevel, if_neg (by omega), if_neg (by omega), markChip]

theorem chipLevel_four_of_ready {s : State} (hr : s.ready = true) (hmax : 4 ≤ s.ft.maxLevel.toNat) :
    (chipLevel 4 s).boot.stage = .lodge ∧ (chipLevel 4 s).boot.cause = 3 ∧ (chipLevel 4 s).boot.chipReset = true ∧
    (chipLevel 4 s).work = [] ∧ (chipLevel 4 s).mem.hbm = s.mem.hbm := by
  rw [chipLevel_four hmax]
  exact warmReset_of_ready (s := markChip s) hr 3

theorem chipLevel_four_fatalAt {k : Nat} {src : Byte} {s : State} (hr : s.ready = true) (hmax : 4 ≤ s.ft.maxLevel.toNat)
    (h : FatalAt k src s.ft) : FatalAt k src (chipLevel 4 s).ft := by
  rw [chipLevel_four hmax]
  exact warmReset_fatalAt (s := markChip s) hr 3 h

theorem openRec_fatalAt {e : Err} (s : State) (h : e.cls = 3) :
    FatalAt ((nextNumber s.ft.last).toNat % 4096) (BitVec.ofNat 8 e.source) (openRec e s).1.ft := by
  have hrec (n : BitVec 16) : FaultRec.Fatal (BitVec.ofNat 8 e.source) (e.toRec n s.clk.ac) := ⟨rfl, by simp [Err.toRec, h], rfl⟩
  simp only [openRec, event_ft]
  exact ⟨rfl, lists_tput _ (fun he => not_fatal_default _ (he ▸ hrec _)) (hrec _)⟩

/-- Opening a record neither takes the device out of READY nor touches HBM or the highest level allowed. -/
theorem openRec_keeps (e : Err) (s : State) : (openRec e s).1.ready = s.ready ∧ (openRec e s).1.mem = s.mem ∧
    (openRec e s).1.ft.maxLevel = s.ft.maxLevel := by
  simp [openRec, noteFault, State.ready, State.live]

/-- A fatal error that merges into no record resets the chip at once. -/
theorem raiseErr'_resetsChip {e : Err} {s : State} (hr : s.ready = true) (hc : e.cls = 3) (hlv : e.level ≤ 4)
    (hmax : 4 ≤ s.ft.maxLevel.toNat) (hm : mergeInto e.domain s = none) :
    ResetsChip (BitVec.ofNat 8 e.source) s (s.kept (raiseErr' e s)) := by
  obtain ⟨hready, hmem, hlevel⟩ := openRec_keeps e s
  have heq : raiseErr' e s = chipLevel 4 (settleRecs (openRec e s).1) := by
    simp [raiseErr', raiseErr, hc, hm, Nat.max_eq_left hlv]
  have hr' : (settleRecs (openRec e s).1).ready = true := hready.trans hr
  have hmax' : 4 ≤ (settleRecs (openRec e s).1).ft.maxLevel.toNat := hlevel ▸ hmax
  obtain ⟨hstage, hcause, hchip, hwork, hhbm⟩ := chipLevel_four_of_ready hr' hmax'
  obtain ⟨hfault, hrecs⟩ := chipLevel_four_fatalAt hr' hmax' (settleRecs_fatalAt (openRec_fatalAt s hc))
  obtain ⟨hopen, -, hsource⟩ := hrecs.tget {}
  rw [heq]
  exact ⟨hstage, hcause, hchip, hwork, hhbm.trans (congrArg Mem.hbm hmem), hfault, hopen, hsource⟩

end Sys2Proof.Machine

/-! # The obligation on errors and the fault state -/

namespace Sys2Proof.Machine

/-- Settles O19: a die link, control state and a core raise a fatal error, which resets the chip; each other command changes its own
fields, and the end of the fault state sends its event beside. -/
theorem errorsAndFaultState : Obligations.ErrorsAndFaultState := by
  unfold Obligations.ErrorsAndFaultState
  refine ⟨fun s k hl hk hi => ?corrected, fun s k hr hk hmax hm => ?dieLink, fun s st a hr hst hmax hm => ?stateSram,
    fun s c hr hmax hm => ?core, fun s hl hf ho => ?quiet, fun s hl => ?pulse, fun s v hr hro => ?inject⟩
  case corrected =>
    simp only [Completes, exec, execDieLinkFlitCrcFail, actIf_of_live hl hk, injectHit, hi, Bool.false_and, Bool.false_eq_true,
      if_false]
    exact ⟨_, rfl, rfl, (onlyChanges_set_ft s _).kept⟩
  case dieLink => exact ⟨_, actIf_of_live (live_of_ready hr) hk, raiseErr'_resetsChip hr rfl (by simp) hmax hm⟩
  case stateSram =>
    exact ⟨_, actIf_of_live (live_of_ready hr) (decide_eq_true hst), raiseErr'_resetsChip hr rfl (by simp) hmax hm⟩
  case core => exact ⟨_, act_of_live (live_of_ready hr), raiseErr'_resetsChip hr rfl (by simp) hmax hm⟩
  case quiet =>
    have hc : (s.ft.fault && s.ft.recs.all (fun kv => !kv.2.isOpen)) = true := by simpa [hf] using ho
    simp only [Completes, exec, execFaultQuietExpire, actIf_of_live hl hc]
    refine ⟨_, rfl, event_ft .., OnlyChanges.kept ?_⟩
    exact ((onlyChanges_set_ft s _).mono (by simp)).trans (event_onlyChanges.mono (by simp))
  case pulse =>
    simp only [Completes, exec, execErrNPulseEnd, act_of_live hl]
    exact ⟨_, rfl, rfl, (onlyChanges_set_power s _).kept⟩
  case inject =>
    have hc : writes 0 s = true := by simp [writes, hr, hro]
    simp only [Completes, exec, execInjectionArm, actIf_of_live (live_of_reaches hr) hc, ofNat_fld, BitVec.ofNat_toNat]
    exact ⟨_, rfl, rfl, rfl, (onlyChanges_set_ft s _).kept⟩

end Sys2Proof.Machine

/-! # Running a queue

SUPPORT. No command stops and none changes the queue, by the form of each command; what a run of several steps comes to (R52). -/

namespace Sys2Proof.Machine

/-! ## Every command answers a next state with the same queue -/

/-- An outcome that is a next state with the queue of `s`. -/
def KeepsQueue (s : State) (o : Host.Outcome State Fault Refusal) : Prop := ∃ t, o = .next t ∧ t.pending = s.pending

section
variable {s : State}

theorem keepsQueue_ite {p : Prop} [Decidable p] {t : State} : KeepsQueue s (.next (if p then s.kept t else s)) := by
  refine ⟨_, rfl, ?_⟩
  split <;> rfl

theorem act_keepsQueue {f : State → State} : KeepsQueue s (act s f) := keepsQueue_ite

theorem actIf_keepsQueue {c : Bool} {f : State → State} : KeepsQueue s (actIf s c f) := keepsQueue_ite

theorem start_keepsQueue {wid : Nat} {op : Byte} {f : Work → State → State} : KeepsQueue s (start wid op s f) := by
  unfold start
  split
  · exact keepsQueue_ite
  · exact ⟨s, rfl, rfl⟩

theorem startList_keepsQueue {wid : Nat} {op : Byte} {checks : Work → ListHdr → State → List (Bool × (Status × Nat))}
    {f : Work → ListHdr → State → State} : KeepsQueue s (startList wid op s checks f) := start_keepsQueue

theorem entryOp_keepsQueue {wid : Nat} {op : Byte} {more : Work → State → List (Bool × (Status × Nat))} :
    KeepsQueue s (entryOp wid op more s) := start_keepsQueue

theorem startImage_keepsQueue {wid : Nat} {op : Byte} {f : Work → State → State} : KeepsQueue s (startImage wid op s f) :=
  start_keepsQueue

theorem resume_keepsQueue {α : Type} {wid : Nat} {sel : Prog → Option α} {f : Work → α → State → State} :
    KeepsQueue s (resume wid s sel f) := by
  unfold resume
  split
  · split
    · exact keepsQueue_ite
    · exact ⟨s, rfl, rfl⟩
  · exact ⟨s, rfl, rfl⟩

theorem onConn_keepsQueue {conn : Nat} {ctype : Byte} {m : Ctl} {ok : State → Bool} {f : State → State} :
    KeepsQueue s (onConn conn ctype m s ok f) := actIf_keepsQueue

theorem onMgmt_keepsQueue {src : Nat} {ctype : Byte} {m : Ctl} {f : State → State} : KeepsQueue s (onMgmt src ctype m s f) :=
  actIf_keepsQueue

theorem raceCmd_keepsQueue {ctype : Byte} {src : Nat} {m : Ctl} : KeepsQueue s (raceCmd ctype src m s) := actIf_keepsQueue

theorem switchWrite_keepsQueue {empty : Bool} {p : Nat} {new : BitVec 16} {f : Switch → State → State} :
    KeepsQueue s (switchWrite empty p new f s) := actIf_keepsQueue

theorem execTrain_keepsQueue {n l : Nat} {f : Frame} {o : TrainObs} : KeepsQueue s (execTrain n l f o s) := by
  unfold execTrain
  split
  · exact actIf_keepsQueue
  · exact ⟨s, rfl, rfl⟩

theorem execAbort_keepsQueue {c : Nat} {m : Ctl} : KeepsQueue s (execAbort c m s) := by
  unfold execAbort
  split <;> exact actIf_keepsQueue

theorem execRegisterReadClear_keepsQueue {p : Port} {o w : Nat} : KeepsQueue s (execRegisterReadClear p o w s) := by
  cases p with
  | bar0 f =>
    simp only [execRegisterReadClear]
    exact actIf_keepsQueue
  | i3c =>
    simp only [execRegisterReadClear]
    exact keepsQueue_ite

theorem execRegisterWrite_keepsQueue {p : Port} {o w : Nat} {v : W64} : KeepsQueue s (execRegisterWrite p o w v s) := by
  cases p <;> exact actIf_keepsQueue

/-- A cold reset keeps the queue (R639). -/
theorem execPowerApplied_keepsQueue : KeepsQueue s (execPowerApplied s) := by
  refine ⟨_, rfl, ?_⟩
  split <;> rfl

theorem execSvnCommitDone_keepsQueue : KeepsQueue s (execSvnCommitDone s) := by
  refine ⟨_, rfl, ?_⟩
  split <;> rfl

/-- Every command is a start or a resumption of a descriptor, acts while the device has power, acts so under a condition of its
own, or is one of the few that write out their next state. -/
theorem exec_keepsQueue (c : Instr) : KeepsQueue s (exec c s) := by
  cases c with
  | powerApplied => exact execPowerApplied_keepsQueue
  | powerRemoved | aonSupplyLoss => exact ⟨_, rfl, rfl⟩
  | registerReadClear => exact execRegisterReadClear_keepsQueue
  | registerWrite => exact execRegisterWrite_keepsQueue
  | svnCommitDone => exact execSvnCommitDone_keepsQueue
  | train => exact execTrain_keepsQueue
  | abort => exact execAbort_keepsQueue
  | waybillSignatureComplete | handoffPlatformWaitExpire | opticalSample | sensorSample | sidebandSupplyLoss | suppliesValid
  | perstNAssert | hostHotReset | hostLinkDown | rlTimeoutExpire | flashCopyComplete | i3cResetCommand | imageReadComplete
  | drainWaitExpire | applyFault | possessionGrant | maintenanceComplete | firmwareBroadcastRequest | contextWatchdog
  | errNPulseEnd | controlCoreFault | tenantSwitchDrainEnd | tenantSwitchScrubComplete | retirementFlashWriteComplete =>
    simp only [exec]
    exact act_keepsQueue
  | waybillRead | waybillSeal | waybillMeasure | rlSend | rlWrite | rlRead | rlAtomic | rlFence | rlRecv | rlCreate | rlConnect
  | rlClose | rlRegister | rlRevoke | rlTriggerSet | mtStore | mtLoad | kvListCreate | kvScatter | kvKeyslotSet | matmul
  | matmulSparse | canopyLoad | canopyFree | vector | attend | attendBackward | ttPlace | ttSnapshot | ttRaceOpen | ttRaceClose
  | ttProgram | csQuery | csIndexLoad | csDelete | nop | mtDdrDeclare | mtDdrSeal | mtDdrUnseal | mtDdrRetire | mtDdrPin =>
    simp only [exec]
    exact start_keepsQueue
  | kvFreeze | kvSpill | kvFetch | kvListFree =>
    simp only [exec]
    exact startList_keepsQueue
  | ttCancel | ttMove | ttPark | ttResume | ttFree =>
    simp only [exec]
    exact entryOp_keepsQueue
  | imageLoad | imageCheck | drainBegin | drainEnd =>
    simp only [exec]
    exact startImage_keepsQueue
  | waybillMeasureComplete | railRequestIssue | armedRequestIssue | rlCreateUnitsReserved | rlCreateWaitExpire
  | ddrRecordInitComplete | blockCodingComplete | scatterTurn | kvListFreeComplete | tileComplete | canopyLoadComplete
  | canopyFreeComplete | vectorChunkComplete | commitWaitSatisfied | commitWaitExpire | attendUnitComplete | tileDispatch
  | affinityWaitExpire | searchContextAllocate | indexReadReturn | distanceBatchComplete | indexCopyComplete =>
    simp only [exec]
    exact resume_keepsQueue
  | grant | refuse | credit | offer | handoffData | commit =>
    simp only [exec]
    exact onConn_keepsQueue
  | accept | probeReply | probe | release | lost | cancel | cancelDone =>
    simp only [exec]
    exact onMgmt_keepsQueue
  | raceJoin | raceClaim | raceGrant | raceRefuse | raceCancel | raceCancelAck =>
    simp only [exec]
    exact raceCmd_keepsQueue
  | tenantSwitch | firstMapping =>
    simp only [exec]
    exact switchWrite_keepsQueue
  | handoffItemSend | handoffItemWritten | keyConfirm | laneUp | resetLimitExpire =>
    simp only [exec, execHandoffItemSend, execHandoffItemWritten, execKeyConfirm, execLaneUp, execResetLimitExpire]
    exact actIf_keepsQueue
  | _ =>
    simp only [exec]
    exact actIf_keepsQueue

end

/-! ## Runs -/

theorem runs_zero {s t : State} : Runs 0 s t ↔ s = t := ⟨Host.Outcome.next.inj, congrArg _⟩

theorem runs_succ {k : Nat} {s u t : State} (h : step s = .next u) : Runs (k + 1) s t ↔ Runs k u t := by
  have hstep : Sys2Proof.core.step s = .next u := h
  simp only [Runs, Host.Core.run, hstep]

/-- A step with a command at the front of the queue completes and leaves the rest. -/
theorem step_of_cons {s : State} {c : Instr} {rest : List Instr} (h : s.pending = c :: rest) :
    ∃ u, step s = .next u ∧ u.pending = rest := by
  obtain ⟨u, hexec, hrest⟩ := exec_keepsQueue (s := { s with pending := rest }) c
  exact ⟨u, by simp only [step, h, hexec], hrest⟩

theorem step_of_nil {s : State} (h : s.pending = []) : step s = .next (tick s) := by simp [step, h]

/-- As many steps as there are commands run them all. -/
theorem runs_queue {s : State} {cs ds : List Instr} (h : s.pending = cs ++ ds) : ∃ t, Runs cs.length s t ∧ t.pending = ds := by
  induction cs generalizing s with
  | nil => exact ⟨s, runs_zero.2 rfl, h⟩
  | cons c cs ih =>
    obtain ⟨u, hstep, hrest⟩ := step_of_cons h
    obtain ⟨t, hrun, ht⟩ := ih hrest
    exact ⟨t, (runs_succ hstep).2 hrun, ht⟩

/-- A run has one end. -/
theorem Runs.unique {k : Nat} {s t u : State} (ht : Runs k s t) (hu : Runs k s u) : t = u :=
  Host.Outcome.next.inj (ht.symm.trans hu)

/-! ## Idle cycles -/

/-- A cycle of an idle device keeps its power, its queue and its root PLL. -/
theorem tick_keeps (s : State) :
    (tick s).power = s.power ∧ (tick s).pending = s.pending ∧ (tick s).clk.pllLock = s.clk.pllLock := by
  unfold tick
  split <;> exact ⟨rfl, rfl, rfl⟩

/-- Of two cycles, one lets 17 sc pass and the other 18 (R52). -/
theorem tick_tick_counts {s : State} (hp : s.power.st ≠ .off) (hl : s.clk.pllLock = true) :
    (tick (tick s)).clk.ac = s.clk.ac + 2 ∧ (tick (tick s)).clk.sc = s.clk.sc + 35 := by
  obtain ⟨hpower, -, hlock⟩ := tick_keeps s
  have hcounts {u : State} (hp : u.power.st ≠ .off) (hl : u.clk.pllLock = true) :
      (tick u).clk.ac = u.clk.ac + 1 ∧ (tick u).clk.sc = u.clk.sc + if u.clk.ac % 2 = 0 then 17 else 18 := by
    simp [tick, hp, scOfCycle, hl]
  obtain ⟨hac, hsc⟩ := hcounts hp hl
  obtain ⟨hac', hsc'⟩ := hcounts (u := tick s) (hpower ▸ hp) (hlock.trans hl)
  refine ⟨by rw [hac', hac], ?_⟩
  rw [hsc', hsc, hac]
  split <;> split <;> omega

theorem runs_idle (n : Nat) {s : State} (hp : s.power.st ≠ .off) (hq : s.pending = []) (hl : s.clk.pllLock = true) :
    ∃ t, Runs (2 * n) s t ∧ t.clk.ac = s.clk.ac + 2 * n ∧ t.clk.sc = s.clk.sc + 35 * n := by
  induction n generalizing s with
  | zero => exact ⟨s, runs_zero.2 rfl, rfl, rfl⟩
  | succ n ih =>
    obtain ⟨hpower, hqueue, hlock⟩ := tick_keeps s
    obtain ⟨hpower', hqueue', hlock'⟩ := tick_keeps (tick s)
    obtain ⟨hac, hsc⟩ := tick_tick_counts hp hl
    obtain ⟨t, hrun, htac, htsc⟩ := ih (s := tick (tick s)) (by rwa [hpower', hpower]) (by rw [hqueue', hqueue, hq])
      (by rw [hlock', hlock, hl])
    refine ⟨t, ?_, by omega, by omega⟩
    have hq' : (tick s).pending = [] := hqueue.trans hq
    exact (runs_succ (k := 2 * n + 1) (step_of_nil hq)).2 ((runs_succ (step_of_nil hq')).2 hrun)

end Sys2Proof.Machine

/-! # The obligation on the queue -/

namespace Sys2Proof.Machine

/-- Settles O57: every command answers a next state with the queue as it was, so a run takes one command after the other; two
idle cycles let 17 and 18 sc pass. -/
theorem queueRunsFirstInFirstOut : Obligations.QueueRunsFirstInFirstOut := by
  unfold Obligations.QueueRunsFirstInFirstOut
  refine ⟨fun c s => exec_keepsQueue c, fun s => ?whole, fun s cs ds t hq hrun => ?part, fun s n hp hq hl => runs_idle n hp hq hl⟩
  case whole => exact runs_queue (s.pending.append_nil).symm
  case part =>
    obtain ⟨u, hu, hds⟩ := runs_queue hq
    rw [hrun.unique hu, hds]

end Sys2Proof.Machine

/-! # Counts, dividers and snapshots

SUPPORT. A change of a divider sends an event at most (R749, R769), so it leaves the counts alone; a cycle reads no divider. The
registers of the snapshot (R57). -/

namespace Sys2Proof.Machine

/-! ## What a change of a divider leaves alone -/

/-- The counts kept in sc or ac, and the budgets, are as they were (R54). -/
def KeepsCounts (s t : State) : Prop :=
  t.clk.sc = s.clk.sc ∧ t.clk.ac = s.clk.ac ∧ t.tt = s.tt ∧ t.rc = s.rc ∧ t.rail = s.rail ∧ t.work = s.work

theorem KeepsCounts.refl (s : State) : KeepsCounts s s := ⟨rfl, rfl, rfl, rfl, rfl, rfl⟩

theorem KeepsCounts.trans {s t u : State} (h : KeepsCounts s t) (h' : KeepsCounts t u) : KeepsCounts s u := by
  obtain ⟨hsc, hac, htt, hrc, hrail, hwork⟩ := h
  obtain ⟨hsc', hac', htt', hrc', hrail', hwork'⟩ := h'
  exact ⟨hsc'.trans hsc, hac'.trans hac, htt'.trans htt, hrc'.trans hrc, hrail'.trans hrail, hwork'.trans hwork⟩

theorem foldl_keepsCounts {α : Type} {f : State → α → State} (h : ∀ s a, KeepsCounts s (f s a)) (l : List α) (s : State) :
    KeepsCounts s (l.foldl f s) := by
  induction l generalizing s with
  | nil => exact .refl s
  | cons a l ih => exact (h s a).trans (ih (f s a))

theorem sendThrottled_keepsCounts (g : Nat) (s : State) : KeepsCounts s (sendThrottled g s) :=
  foldl_keepsCounts (fun s f => by simp [KeepsCounts]) _ s

theorem setDividers_keepsCounts (g therm cur : Nat) (s : State) : KeepsCounts s (setDividers g therm cur s) := by
  unfold setDividers
  dsimp only
  split
  · exact ⟨rfl, rfl, rfl, rfl, rfl, rfl⟩
  · exact .trans ⟨rfl, rfl, rfl, rfl, rfl, rfl⟩ (sendThrottled_keepsCounts g _)

theorem sampleDie_keepsCounts (o : SensorObs) (s : State) : KeepsCounts s (sampleDie o s) := by
  unfold sampleDie
  dsimp only
  split
  · exact .trans ⟨rfl, rfl, rfl, rfl, rfl, rfl⟩ (setDividers_keepsCounts ..)
  · exact ⟨rfl, rfl, rfl, rfl, rfl, rfl⟩

theorem trip_keepsCounts (c : BitVec 2) (u : Nat) (s : State) : KeepsCounts s (trip c u s) := ⟨rfl, rfl, rfl, rfl, rfl, rfl⟩

/-- A command that acts, if at all, by an update that leaves the counts alone. -/
theorem keepsCounts_ite {s t : State} {p : Prop} [Decidable p] (h : KeepsCounts s t) :
    KeepsCounts s (if p then s.kept t else s) := by
  split
  · exact h
  · exact .refl s

/-! ## A cycle and the dividers -/

/-- The state with other dividers. -/
def withDividers (therm cur : Tab Nat) (s : State) : State := { s with clk := { s.clk with therm, cur } }

section
variable (therm cur : Tab Nat) (s : State)

/-! A key-value list lies in HBM, so what an attention unit waits for is found without the dividers. -/

theorem chunkOff_withDividers (r : Region) (k off : Nat) : chunkOff (withDividers therm cur s) r k off = chunkOff s r k off := by
  induction k generalizing off with
  | zero => rfl
  | succ k ih =>
    have hlink : regionNum (withDividers therm cur s) r (off + 24) 8 = regionNum s r (off + 24) 8 := rfl
    simp only [chunkOff, hlink]
    split
    · exact ih _
    · rfl

theorem pageEnt_withDividers (h : ListHdr) (n : Nat) : pageEnt (withDividers therm cur s) h n = pageEnt s h n := by
  simp only [pageEnt, entryOff, chunkOff_withDividers]
  rfl

theorem regionRead_withDividers (r : Region) (o n : Nat) : regionRead (withDividers therm cur s) r o n = regionRead s r o n := rfl

theorem pageData_withDividers (w : Work) (i : Nat) (h : ListHdr) (n rows : Nat) :
    pageData w (withDividers therm cur s) i h n rows = pageData w s i h n rows := by
  simp only [pageData, pageEnt_withDividers, regionRead_withDividers]
  rfl

theorem unitPoison_withDividers (w : Work) (i : Nat) (q : SeqRec) (h : ListHdr) (u : Nat) :
    unitPoison w (withDividers therm cur s) i q h u = unitPoison w s i q h u := by
  simp only [unitPoison, pageData_withDividers]
  rfl

theorem unitWaits_withDividers (w : Work) (o : SeqOp) : unitWaits (withDividers therm cur s) w o = unitWaits s w o := by
  simp only [unitWaits, unitPoison_withDividers]
  rfl

theorem stallReads_withDividers : stallReads (withDividers therm cur s) = stallReads s := by
  simp only [stallReads, unitWaits_withDividers]
  rfl

theorem countTier_withDividers (n : Nat) : countTier n (withDividers therm cur s) = countTier n s := by
  simp only [countTier, tierStalls, stallReads_withDividers]
  rfl

theorem countExpand_withDividers (n : Nat) : countExpand n (withDividers therm cur s) = countExpand n s := by
  simp only [countExpand, countReads, tierStalls, stallReads_withDividers]
  rfl

/-- No count of a cycle reads a divider (R54). -/
theorem tick_withDividers : tick (withDividers therm cur s) = withDividers therm cur (tick s) := by
  have hpower : (withDividers therm cur s).power = s.power := rfl
  by_cases h : s.power.st = .off
  · simp only [tick, hpower, if_pos h]
  · simp only [tick, hpower, if_neg h, countTier_withDividers, countExpand_withDividers]
    rfl

end

/-! ## CK_SNAP and its registers -/

theorem readValue_r64 {s : State} {f off v : Nat} (h : regAt s f off = .r64 v) (ha : off % 8 = 0) : readValue s f off 64 = v := by
  simp [readValue, h, ha]

/-- A whole read of a 64-bit register sends its value and clears what a read of it clears (R19, R20). -/
theorem readReg_r64 {s : State} {f off v : Nat} (h : regAt s f off = .r64 v) (ha : off % 8 = 0) :
    readReg f off 64 s = clearOnRead f off (s.emit (.regRead f off (BitVec.ofNat 64 v))) := by
  simp [readReg, readsReg, readValue_r64 h ha, h, ha]

theorem regAt_ckSnapSc (s : State) : regAt s 0 0x100020 = .r64 s.clk.snapSc.toNat := rfl

theorem regAt_ckSnapAc (s : State) : regAt s 0 0x100028 = .r64 s.clk.snapAc.toNat := rfl

/-- CK_SNAP is write-only: it reads 0 (R18, R57). -/
theorem regAt_ckSnap (s : State) : regAt s 0 0x100018 = .r32 0 := rfl

/-- No CK_ register has a read-write field below PW_CTRL (R55 to R57, R76). -/
theorem writeReg_ck {off : Nat} (f width v : Nat) (s : State) (hlo : 0x100000 ≤ off) (hhi : off < 0x100100) :
    writeReg f off width v s = s := by
  unfold writeReg
  rw [if_neg (by omega)]
  split
  · rfl
  · rw [if_neg (by omega), if_neg (by omega), if_neg (by omega), if_neg (by omega), if_neg (by omega)]
    unfold writeMid
    split
    · rfl
    · split
      · omega
      · omega
      · omega
      · rw [arrAt_eq_none (show off < 0x400100 ∨ _ by omega), arrAt_eq_none (show off < 0x2000000 ∨ _ by omega)]

theorem onlyChanges_set_clk (s : State) (x : Clk) : OnlyChanges [.clk] s { s with clk := x } := by
  intro p hp
  cases p <;> simp [sameZone] at hp ⊢

end Sys2Proof.Machine

/-! # The obligations on dividers and snapshots -/

namespace Sys2Proof.Machine

/-- Settles O58: each command changes a divider through `setDividers`, and a cycle commutes with a change of the dividers. -/
theorem throttlingLeavesCounts : Obligations.ThrottlingLeavesCounts := by
  unfold Obligations.ThrottlingLeavesCounts
  refine ⟨fun s g => ?raise, fun s g c => ?lower, fun s obs => ?sample, fun s t therm cur h => ?cycle⟩
  case raise => exact ⟨_, rfl, keepsCounts_ite (setDividers_keepsCounts ..)⟩
  case lower =>
    refine ⟨_, rfl, keepsCounts_ite (s := s) ?_⟩
    cases c <;> exact setDividers_keepsCounts ..
  case sample =>
    refine ⟨_, rfl, keepsCounts_ite (s := s) ?_⟩
    have hdies := foldl_keepsCounts (fun s o => sampleDie_keepsCounts o s) (obs.filter (fun o => decide (o.die < 17))) s
    dsimp only
    split
    · exact hdies.trans (trip_keepsCounts ..)
    · exact hdies
  case cycle =>
    have ht : tick (withDividers therm cur { s with pending := [] }) = t := Host.Outcome.next.inj h
    have hown : withDividers s.clk.therm s.clk.cur { s with pending := [] } = { s with pending := [] } := rfl
    rw [step_of_nil rfl, ← hown, tick_withDividers, ← ht, tick_withDividers]
    rfl

/-- Settles O59: the command captures both counts, the registers' reads are those of their offsets, and no write reaches them. -/
theorem snapshotOfBothCounts : Obligations.SnapshotOfBothCounts := by
  unfold Obligations.SnapshotOfBothCounts
  have hout (s : State) (o : Out) : OnlyChanges [.out] s (s.kept (s.emit o)) := (onlyChanges_set_out s _).kept
  refine ⟨fun s hw => ?snap, fun s hr hb => ?sc, fun s hr hb => ?ac, fun s hr hb => ?writeOnly, fun s p off v ho => ?write⟩
  case snap =>
    have hl : s.live = true := live_of_reaches (f := 0) (by simp_all [writes])
    exact ⟨_, by simp only [exec, execCkSnap, actIf_of_live hl hw], rfl, (onlyChanges_set_clk s _).kept⟩
  case sc =>
    refine completes_read hr (by omega) hb ?_
    rw [readReg_r64 (regAt_ckSnapSc s) (by norm_num), BitVec.ofNat_toNat, BitVec.setWidth_eq]
    exact ⟨rfl, hout s _⟩
  case ac =>
    refine completes_read hr (by omega) hb ?_
    rw [readReg_r64 (regAt_ckSnapAc s) (by norm_num), BitVec.ofNat_toNat, BitVec.setWidth_eq]
    exact ⟨rfl, hout s _⟩
  case writeOnly =>
    refine completes_read hr (by omega) hb ?_
    rw [readReg_r32 (regAt_ckSnap s) (by norm_num)]
    exact ⟨rfl, hout s _⟩
  case write =>
    have hrefl : OnlyChanges [] s s := .refl [] s
    cases p with
    | bar0 f =>
      refine ⟨_, rfl, ?_⟩
      split
      · rw [writeReg_ck f 64 v.toNat s (by omega) (by omega)]
        exact hrefl.kept
      · exact hrefl
    | i3c =>
      have hc : decide (0x7000 ≤ off ∧ off < 0x7020) = false := decide_eq_false (by omega)
      exact ⟨s, by simp [exec, execRegisterWrite, actIf, hc], hrefl⟩

end Sys2Proof.Machine

/-! # Power states

SUPPORT. What a wake source does in each state (R62, R73, R75), the possession of a deep power state (R66), and the frames of an
entry and of the ends of the chains (R64, R263). -/

namespace Sys2Proof.Machine

/-! ## Parts read through a frame -/

theorem OnlyChanges.power_eq {ps : List Zone} {s t : State} (h : OnlyChanges ps s t) (hp : .power ∉ ps) : t.power = s.power :=
  of_decide_eq_true (h .power hp)

theorem OnlyChanges.groves_eq {ps : List Zone} {s t : State} (h : OnlyChanges ps s t) (hp : .groves ∉ ps) : t.groves = s.groves :=
  of_decide_eq_true (h .groves hp)

/-! ## Conditions -/

theorem live_of_pwWrites {s : State} (h : pwWrites s = true) : s.live = true := by
  simp only [pwWrites, Bool.and_eq_true] at h
  exact h.1.1

theorem enteringN2_iff {s : State} : enteringN2 s = true ↔ s.power.trans = some .toN2 ∨ s.power.trans = some (.toN3 false) := by
  simp [enteringN2]

/-- The device is awake in N0 and N1 once bring-up has ended (R50, R646). -/
theorem awake_of_ready {s : State} (h : s.ready = true) (hp : s.power.st = .n0 ∨ s.power.st = .n1) : s.awake = true := by
  simp only [State.ready, Bool.and_eq_true, decide_eq_true_eq] at h
  obtain ⟨hl, hb⟩ := h
  simp [State.awake, hl, hb, hp]

/-! ## Gating -/

/-- The bit of one Grove (R62). -/
theorem getLsbD_groveBit {g k : Nat} (hk : k < 4) : (BitVec.ofNat 4 (2 ^ g)).getLsbD k = decide (k = g) := by
  simp only [BitVec.getLsbD_ofNat, hk, decide_true, Bool.true_and, Nat.testBit_two_pow, eq_comm]

theorem gatedState_eq_n1_iff {b : BitVec 4} : gatedState b = .n1 ↔ b = 15 := by
  unfold gatedState
  split <;> simp_all

/-! ## The possession of a deep power state -/

theorem holds_releasePoss (a : Byte) (arg : Nat) (s : State) : holds a arg (releasePoss a arg s) = false := by
  simp only [holds, releasePoss, List.any_filter, Bool.not_and_self, List.any_eq_false]
  simp

theorem holds_holdAll (a : Byte) (s : State) : holds a 0 (holdAll a s) = true := by
  simp [holds, holdAll]

/-! ## Wakes -/

theorem ungateAll_onlyChanges (s : State) : OnlyChanges [.power] s (ungateAll s) := onlyChanges_set_power s _

/-- The device runs in N0 with no change of state under way and its possession given back (R62, R64, R66). -/
theorem releaseUngated_onlyChanges (s : State) (x : Power) :
    OnlyChanges [.power, .ft] s (releasePoss 0x11 0 (ungateAll { s with power := x })) :=
  ((onlyChanges_set_power s _).mono (by simp)).trans ((onlyChanges_set_ft _ _).mono (by simp))

section
variable {bit : Nat} {acts : PState → Bool} {s : State}

/-- In N0 a wake source ungates the Groves and leaves no bit (R62). -/
theorem wakeBy_of_n0 (ht : s.power.trans = none) (hs : s.power.st = .n0) (ha : acts .n1 = true) :
    wakeBy bit acts s = ungateAll s := by
  simp [wakeBy, ht, hs, ha]

theorem wakeBy_of_n1 (ht : s.power.trans = none) (hs : s.power.st = .n1) (ha : acts .n1 = true) :
    wakeBy bit acts s = ungateAll (noteWake (2 ^ bit) s) := by
  simp [wakeBy, ht, hs, ha]

/-- From N2 a wake source starts the exit (R75). -/
theorem wakeBy_of_n2 (ht : s.power.trans = none) (hs : s.power.st = .n2) (ha : acts .n2 = true) :
    wakeBy bit acts s =
      { s with power := { s.power with trans := some .fromN2, wakeCause := s.power.wakeCause ||| BitVec.ofNat 7 (2 ^ bit) } } := by
  simp [wakeBy, ht, hs, ha, exitFrom, noteWake]

/-- During an exit from N3 it only leaves its bit (R75). -/
theorem wakeBy_of_fromN3 (ht : s.power.trans = some .fromN3) : wakeBy bit acts s = noteWake (2 ^ bit) s := by
  simp [wakeBy, ht]

/-- It aborts an entry that has not reached N2 (R75). -/
theorem wakeBy_of_enteringN2 (he : enteringN2 s = true) (hs : s.power.st = .n0 ∨ s.power.st = .n1) (ha : acts .n1 = true) :
    wakeBy bit acts s = releasePoss 0x11 0 (ungateAll { s with power := { s.power with
      trans := none, copyWait := false, wakeCause := s.power.wakeCause ||| BitVec.ofNat 7 (2 ^ bit + 64) } }) := by
  have hne : s.power.st ≠ .n2 := by rcases hs with h | h <;> simp [h]
  have hexit (u : State) (h : u.power.st = .n0 ∨ u.power.st = .n1) :
      exitFrom u = releasePoss 0x11 0 (ungateAll { u with power := { u.power with trans := none, copyWait := false } }) := by
    rcases h with h | h <;> simp only [exitFrom, h]
  rcases enteringN2_iff.1 he with ht | ht <;> simp [wakeBy, ht, hne, ha, hexit, noteWake, hs]

end

/-- The state in which a write of TARGET = N0 wakes the device (R76). -/
def targetN0 (s : State) : State := { s with power := { s.power with target := 0 } }

theorem completes_pwTargetN0 {s : State} {P : State → Prop} (hp : pwWrites s = true) (hr : s.ready = true)
    (h : P (s.kept (wakeBy 1 wakesN12 (targetN0 s)))) : Completes .pwTargetN0 s P :=
  ⟨_, by simp only [exec, execPwTargetN0, actIf_of_live (live_of_pwWrites hp) hp, hr, Bool.not_true, Bool.false_eq_true, if_false]; rfl, h⟩

theorem completes_wakeNLow {s : State} {P : State → Prop} (hl : s.live = true) (hc : s.ready = true ∨ s.power.trans.isSome = true)
    (h : P (s.kept (wakeBy 3 wakesN123 s))) : Completes .wakeNLow s P :=
  ⟨_, actIf_of_live hl (by simpa using hc), h⟩

/-! ## Entries -/

theorem signLast_onlyChanges (p reason : Nat) (isSeal : Bool) (nonce : BitVec 256) (wids : List Nat) (s : State) :
    OnlyChanges [.waybill] s (signLast p reason isSeal nonce wids s) := by
  unfold signLast
  dsimp only
  split
  · exact .refl _ s
  · exact (onlyChanges_set_waybill s _).trans (signPoint_onlyChanges _ _)

theorem chainsEnd_onlyChanges (s : State) : OnlyChanges [.waybill] s (chainsEnd s) :=
  onlyChanges_foldl (fun s p => signLast_onlyChanges p 4 false 0 [] s) _ s

/-- An entry from N0 or N1 (R64, R66, R71). -/
theorem startEntry_of_awake {tr : Trans} {target : BitVec 3} {s : State} (htr : tr ≠ .toN3 true) (hs : s.power.st ≠ .n2) :
    startEntry tr target s = { holdAll 0x11 s with power := { s.power with
      trans := some tr, target, gated := idleGroves s, copyWait := decide (target = 3) && s.img.copying.isSome,
      st := gatedState (idleGroves s) } } := by
  simp [startEntry, htr, hs]

theorem startEntry_onlyChanges (s : State) (x : Power) : OnlyChanges [.power, .ft] s { holdAll 0x11 s with power := x } :=
  ((onlyChanges_set_ft s _).mono (by simp)).trans ((onlyChanges_set_power _ _).mono (by simp))

end Sys2Proof.Machine

/-! # The obligations on power states -/

namespace Sys2Proof.Machine

/-- Settles O3: gating by its bit of PW_STATUS, and each wake by the state it finds the device in. -/
theorem gatingAndWake : Obligations.GatingAndWake := by
  unfold Obligations.GatingAndWake
  refine ⟨fun s g hr hg hs hw he => ?gate, fun s g hr hg hs ht => ?ungate, fun s hp hr hs ht => ?targetN0, fun s hp hr hs ht => ?targetN1,
    fun s hp hr hs he => ?abort, fun s hr hs ht => ?wakeN1, fun s hr hs ht => ?wakeN2, fun s hl ht => ?wakeN3, fun s v hp h0 h2 h3 => ?invalid⟩
  case gate =>
    have hc : (s.ready && decide (g < 4) && decide (s.power.st = .n0) && !groveWork g s &&
        (enteringN2 s || (s.power.trans.isNone && decide (s.power.n1Idle ≠ 0)))) = true := by simp_all
    simp only [Completes, exec, execGroveIdleGate, actIf_of_live (live_of_ready hr) hc]
    refine ⟨_, rfl, fun k hk => ?_, gatedState_eq_n1_iff, rfl, (onlyChanges_set_power s _).kept⟩
    exact (BitVec.getLsbD_or ..).trans (congrArg _ (getLsbD_groveBit hk))
  case ungate =>
    have hc : (s.ready && decide (g < 4) && s.awake && (s.power.trans.isNone || enteringN2 s)) = true := by
      simpa [hr, hg, awake_of_ready hr hs] using ht
    simp only [Completes, exec, execGroveWorkUngate, actIf_of_live (live_of_ready hr) hc]
    refine ⟨_, rfl, rfl, fun k hk => ?_, rfl, (onlyChanges_set_power s _).kept⟩
    refine (BitVec.getLsbD_and ..).trans (congrArg _ ?_)
    rw [BitVec.getLsbD_not, getLsbD_groveBit hk]
    simp [hk]
  case targetN0 =>
    refine completes_pwTargetN0 hp hr ?_
    rw [wakeBy_of_n0 (s := targetN0 s) ht hs rfl]
    refine ⟨?_, ((onlyChanges_set_power s _).trans (ungateAll_onlyChanges _)).kept⟩
    simp [State.kept, ungateAll, targetN0, ← hs]
  case targetN1 =>
    refine completes_pwTargetN0 hp hr ?_
    rw [wakeBy_of_n1 (s := targetN0 s) ht hs rfl]
    exact ⟨rfl, rfl, rfl,
      (((onlyChanges_set_power s _).trans (onlyChanges_set_power _ _)).trans (ungateAll_onlyChanges _)).kept⟩
  case abort =>
    refine completes_pwTargetN0 hp hr ?_
    rw [wakeBy_of_enteringN2 (s := targetN0 s) he hs rfl]
    exact ⟨rfl, rfl, rfl, rfl, holds_releasePoss .., (releaseUngated_onlyChanges s _).kept⟩
  case wakeN1 =>
    refine completes_wakeNLow (live_of_ready hr) (.inl hr) ?_
    rw [wakeBy_of_n1 ht hs rfl]
    exact ⟨rfl, rfl, rfl, ((onlyChanges_set_power s _).trans (ungateAll_onlyChanges _)).kept⟩
  case wakeN2 =>
    refine completes_wakeNLow (live_of_ready hr) (.inl hr) ?_
    rw [wakeBy_of_n2 ht hs rfl]
    exact ⟨hs, rfl, rfl, (onlyChanges_set_power s _).kept⟩
  case wakeN3 =>
    refine completes_wakeNLow hl (.inr (by simp [ht])) ?_
    rw [wakeBy_of_fromN3 ht]
    exact ⟨rfl, (onlyChanges_set_power s _).kept⟩
  case invalid =>
    have hc : (pwWrites s && decide (v ≠ 0) && decide (v ≠ 2) && decide (v ≠ 3)) = true := by
      simp only [hp, decide_eq_true h0, decide_eq_true h2, decide_eq_true h3, Bool.and_self]
    simp only [Completes, exec, execPwTargetInvalid, actIf_of_live (live_of_pwWrites hp) hc]
    exact ⟨_, rfl, rfl, (onlyChanges_set_power s _).kept⟩

/-- Settles O4: an entry from N0 or N1 is `startEntry` or the first refusal, N2 and N3 lose what they name, and an exit is one state. -/
theorem deepPowerStates : Obligations.DeepPowerStates := by
  unfold Obligations.DeepPowerStates
  refine ⟨fun s hp ht hs he => ?toN2, fun s c hp ht hs he => ?refusedN2, fun s hl hs ht => ?inN2, fun s hl hs ht => ?throughN2,
    fun s hp ht hs he => ?toN3, fun s c hp ht hs he => ?refusedN3, fun s hl ht hw hq hg => ?inN3, fun s hl ht => ?fromN2,
    fun s hl ht hb => ?fromN3⟩
  case toN2 =>
    have hne : s.power.st ≠ .n2 := by rcases hs with h | h <;> simp [h]
    have hself : ¬ (s.power.trans = some .toN2 ∨ (s.power.st = .n2 ∧ s.power.trans = none)) := by simp [ht, hne]
    simp only [Completes, exec, execPwTargetN2, actIf_of_live (live_of_pwWrites hp) hp, if_neg hself, he]
    rw [startEntry_of_awake (by simp) hne]
    exact ⟨_, rfl, rfl, rfl, rfl, rfl, holds_holdAll .., (startEntry_onlyChanges s _).kept⟩
  case refusedN2 =>
    have hself : ¬ (s.power.trans = some .toN2 ∨ (s.power.st = .n2 ∧ s.power.trans = none)) := by simp only [ht, hs, or_self, not_false_iff]
    simp only [Completes, exec, execPwTargetN2, actIf_of_live (live_of_pwWrites hp) hp, if_neg hself, he]
    exact ⟨_, rfl, rfl, (onlyChanges_set_power s _).kept⟩
  case inN2 =>
    have hc : (enteringN2 s && decide (s.power.st = .n1)) = true := by simp [enteringN2, ht, hs]
    simp only [Completes, exec, execN2EntryComplete, actIf_of_live hl hc, ht]
    refine ⟨_, rfl, rfl, rfl, rfl, rfl, rfl, OnlyChanges.kept ?_⟩
    refine OnlyChanges.trans (t := { s with groves := grovesOff s.groves }) ?_ ?_
    · exact (onlyChanges_set_groves s _).mono (by simp)
    · exact (onlyChanges_set_power _ _).mono (by simp)
  case throughN2 =>
    have hc : (enteringN2 s && decide (s.power.st = .n1)) = true := by simp [enteringN2, ht, hs]
    simp only [Completes, exec, execN2EntryComplete, actIf_of_live hl hc, ht, decide_true, if_true]
    refine ⟨_, rfl, ?_⟩
    have hends (u : State) : (s.kept (chainsEnd u)).power = u.power ∧ (s.kept (chainsEnd u)).groves = u.groves :=
      ⟨(chainsEnd_onlyChanges u).power_eq (by decide), (chainsEnd_onlyChanges u).groves_eq (by decide)⟩
    rw [(hends _).1, (hends _).2]
    exact ⟨rfl, rfl, rfl, rfl, rfl⟩
  case toN3 =>
    have hne : s.power.st ≠ .n2 := by rcases hs with h | h <;> simp [h]
    have hself : ¬ (enteringN3 s = true ∨ (s.power.st = .n3 ∧ s.power.trans = none)) := by
      rcases hs with h | h <;> simp [enteringN3, ht, h]
    simp only [Completes, exec, execPwTargetN3, actIf_of_live (live_of_pwWrites hp) hp, if_neg hself, he, hne, decide_false]
    rw [startEntry_of_awake (by simp) hne]
    exact ⟨_, rfl, rfl, rfl, rfl, rfl, holds_holdAll .., (startEntry_onlyChanges s _).kept⟩
  case refusedN3 =>
    have hself : ¬ (enteringN3 s = true ∨ (s.power.st = .n3 ∧ s.power.trans = none)) := by
      simp only [ht, hs, Bool.false_eq_true, or_self, not_false_iff]
    simp only [Completes, exec, execPwTargetN3, actIf_of_live (live_of_pwWrites hp) hp, if_neg hself, he]
    exact ⟨_, rfl, rfl, (onlyChanges_set_power s _).kept⟩
  case inN3 =>
    have hc : (decide (s.power.trans = some (.toN3 true)) && !s.power.copyWait && s.work.isEmpty && s.waybill.signing.isNone) = true := by
      simp [ht, hw, hq, hg]
    have hport := loseHeld_onlyChanges s
    have hclk : (portReset s).clk = s.clk := of_decide_eq_true (hport .clk (by decide))
    simp only [Completes, exec, execN3EntryComplete, actIf_of_live hl hc]
    exact ⟨_, rfl, rfl, rfl, rfl, rfl, rfl, congrArg Clk.sc hclk, congrArg Clk.ac hclk, of_decide_eq_true (hport .flash (by decide)),
      of_decide_eq_true (hport .boot (by decide))⟩
  case fromN2 =>
    simp only [Completes, exec, execN2ExitComplete, actIf_of_live hl (decide_eq_true ht)]
    exact ⟨_, rfl, rfl, rfl, rfl, holds_releasePoss .., (releaseUngated_onlyChanges s _).kept⟩
  case fromN3 =>
    have hc : (decide (s.power.trans = some .fromN3) && s.boot.done.contains .x6) = true := by simp [ht, hb]
    simp only [Completes, exec, execN3ExitComplete, actIf_of_live hl hc]
    exact ⟨_, rfl, rfl, rfl, rfl, holds_releasePoss .., (releaseUngated_onlyChanges s _).kept⟩

end Sys2Proof.Machine

/-! # Tails and turns of the submission rings

SUPPORT. What a table lists, that records and events leave the submission rings alone, and what the turns of the rings change and,
where one ring alone has new descriptors, come to (R99, R104, R109). -/

namespace Sys2Proof.Machine

/-! ## Rings as read after a change -/

theorem State.sq_modSq_same (s : State) (n : Nat) (g : Sq → Sq) : (s.modSq n g).sq n = g (s.sq n) := tget_tmod_same ..

theorem State.sq_modSq_other {s : State} {n k : Nat} {g : Sq → Sq} (h : k ≠ n) : (s.modSq n g).sq k = s.sq k :=
  tget_tmod_other _ _ _ _ _ h

/-- A key whose value is not the default is listed. -/
theorem mem_keys_of_tget_ne {α : Type} {t : Tab α} {k : Nat} {d : α} (h : tget t k d ≠ d) : k ∈ t.map Prod.fst := by
  induction t with
  | nil => exact absurd rfl h
  | cons x r ih =>
    obtain ⟨k', v⟩ := x
    by_cases hk : k' = k
    · simp [hk]
    · exact List.mem_cons_of_mem _ (ih (by simpa [tget, hk] using h))

/-! ## Records leave the submission rings alone -/

theorem readHead_sqs (n : Nat) (s : State) : (readHead n s).host.sqs = s.host.sqs := by
  unfold readHead
  split <;> rfl

theorem msixSignal_sqs (f v : Nat) (s : State) : (msixSignal f v s).host.sqs = s.host.sqs := by
  unfold msixSignal
  dsimp only
  split <;> rfl

theorem putRec_sqs (n : Nat) (r : Rec) (s : State) : (putRec n r s).host.sqs = s.host.sqs := by
  unfold putRec
  dsimp only
  rw [readHead_sqs]
  split
  · rw [msixSignal_sqs]
    rfl
  · rfl

theorem giveRec_sqs (f l : Nat) (r : Rec) (s : State) : (giveRec f l r s).host.sqs = s.host.sqs := by
  unfold giveRec
  dsimp only
  split
  · rfl
  · split
    · exact putRec_sqs ..
    · split <;> rfl

theorem giveRec_sq (f l : Nat) (r : Rec) (s : State) (n : Nat) : (giveRec f l r s).sq n = s.sq n := by
  rw [State.sq, giveRec_sqs, State.sq]

theorem event_sq (f c r : Nat) (s : State) (st : Byte) (q : W32) (x : Nat) (fr : BitVec 16) (n : Nat) :
    (event f c r s st q x fr).sq n = s.sq n := by
  unfold event
  dsimp only
  split
  · exact giveRec_sq ..
  · rfl

theorem giveRec_onlyChanges (f l : Nat) (r : Rec) (s : State) : OnlyChanges [.host, .out] s (giveRec f l r s) := by
  intro p hp
  cases p <;> simp [sameZone] at hp ⊢

/-! ## Turns -/

theorem OnlyFetches.refl (q : Sq) : OnlyFetches q q := rfl

theorem OnlyFetches.trans {q r u : Sq} (h : OnlyFetches q r) (h' : OnlyFetches r u) : OnlyFetches q u := by
  unfold OnlyFetches at *
  rw [h', h]

section
variable {q q' : Sq}

theorem OnlyFetches.st_eq (h : OnlyFetches q q') : q'.st = q.st := by rw [h]
theorem OnlyFetches.err_eq (h : OnlyFetches q q') : q'.err = q.err := by rw [h]
theorem OnlyFetches.head_eq (h : OnlyFetches q q') : q'.head = q.head := by rw [h]
theorem OnlyFetches.tail_eq (h : OnlyFetches q q') : q'.tail = q.tail := by rw [h]
theorem OnlyFetches.reading_eq (h : OnlyFetches q q') : q'.reading = q.reading := by rw [h]

end

/-- A state in which rings have had turns: nothing but reads of descriptors has been asked for (R104). -/
def OnlyTurns (s t : State) : Prop := (∀ m, OnlyFetches (s.sq m) (t.sq m)) ∧ OnlyChanges [.host, .out] s t

theorem OnlyTurns.refl (s : State) : OnlyTurns s s := ⟨fun m => .refl (s.sq m), .refl _ s⟩

theorem OnlyTurns.trans {s t u : State} (h : OnlyTurns s t) (h' : OnlyTurns t u) : OnlyTurns s u :=
  ⟨fun m => (h.1 m).trans (h'.1 m), h.2.trans h'.2⟩

theorem onlyTurns_emit (o : Out) (s : State) : OnlyTurns s (s.emit o) :=
  ⟨fun m => .refl (s.sq m), (onlyChanges_set_out s _).mono (by simp)⟩

theorem onlyTurns_served (l : List Nat) (s : State) : OnlyTurns s { s with host := { s.host with served := l } } :=
  ⟨fun m => .refl (s.sq m), (onlyChanges_set_host s _).mono (by simp)⟩

theorem onlyTurns_fetching (n k : Nat) (s : State) : OnlyTurns s (s.modSq n (fun q => { q with fetching := k })) := by
  refine ⟨fun m => ?_, (onlyChanges_set_host s _).mono (by simp)⟩
  by_cases hm : m = n
  · rw [hm, State.sq_modSq_same]
    rfl
  · rw [State.sq_modSq_other hm]
    rfl

theorem issueFetch_onlyTurns (n : Nat) (s : State) : OnlyTurns s (issueFetch n s) := by
  unfold issueFetch
  dsimp only
  split
  · exact (onlyTurns_fetching ..).trans (onlyTurns_emit ..)
  · exact ((onlyTurns_fetching ..).trans (onlyTurns_emit ..)).trans (onlyTurns_emit ..)

theorem serveRings_onlyTurns (k : Nat) (s : State) : OnlyTurns s (serveRings k s) := by
  induction k generalizing s with
  | zero => exact .refl s
  | succ k ih =>
    rw [serveRings]
    split
    · exact .refl s
    · exact ((onlyTurns_served _ s).trans (issueFetch_onlyTurns _ _)).trans (ih _)

theorem serve_onlyTurns (s : State) : OnlyTurns s (serve s) := serveRings_onlyTurns _ s

theorem endTurn_onlyTurns (n : Nat) (s : State) : OnlyTurns s (endTurn n s) := by
  unfold endTurn
  split
  · exact onlyTurns_served _ s
  · exact .refl s

/-! ## One ring alone -/

theorem serveRings_of_none {s : State} (h : nextTurn s = none) (k : Nat) : serveRings k s = s := by
  cases k <;> simp [serveRings, h]

/-- A ring has no turn while none has new descriptors. -/
theorem nextTurn_of_none {s : State} (h : ∀ m, newPositions m s = 0) : nextTurn s = none := by
  simp [nextTurn, h]

/-- A search of a list whose elements that pass are all one finds it. -/
theorem find?_eq_some_of_unique {α : Type} {l : List α} {p : α → Bool} {a : α} (ha : a ∈ l) (hp : p a = true)
    (hu : ∀ x ∈ l, x = a) : l.find? p = some a := by
  cases h : l.find? p with
  | none => exact absurd hp (by simpa using List.find?_eq_none.1 h a ha)
  | some x => rw [hu x (List.mem_of_find?_eq_some h)]

section
variable {s : State} {n : Nat}

/-- Only ring `n` may have new descriptors. -/
def OnlyWants (n : Nat) (s : State) : Prop := ∀ m, m ≠ n → newPositions m s = 0

theorem OnlyWants.eq {m : Nat} (h : OnlyWants n s) (hm : 0 < newPositions m s) : m = n := by
  by_contra hne
  exact absurd (h m hne) (by omega)

/-- The one ring with new descriptors takes the turn, if it has had none in this round (R104). -/
theorem nextTurn_of_alone (ho : OnlyWants n s) (hn : 0 < newPositions n s) (hk : n ∈ s.host.sqs.map Prod.fst)
    (hs : n ∉ s.host.served) (hf : (s.sq n).fetching = 0) : nextTurn s = some (n, false) := by
  unfold nextTurn
  extract_lets want due free
  have hdue : n ∈ due := by
    refine List.mem_filter.2 ⟨List.mem_filter.2 ⟨hk, decide_eq_true hn⟩, ?_⟩
    simpa using fun x hx (he : x = n) => hs (he ▸ hx)
  have hunique (x : Nat) (hx : x ∈ due) : x = n :=
    ho.eq (of_decide_eq_true (List.mem_filter.1 (List.mem_filter.1 hx).1).2)
  have hfree : free due = some n := find?_eq_some_of_unique hdue (beq_iff_eq.2 hf) hunique
  rw [if_neg (by simpa using List.ne_nil_of_mem hdue), hfree]
  rfl

/-- It takes no other until its descriptors have arrived (R104). -/
theorem nextTurn_of_fetching (ho : OnlyWants n s) (hs : n ∈ s.host.served) (hf : (s.sq n).fetching ≠ 0) : nextTurn s = none := by
  unfold nextTurn
  extract_lets want due free
  have hwant (x : Nat) (hx : x ∈ want) : x = n := ho.eq (of_decide_eq_true (List.mem_filter.1 hx).2)
  have hdue : due = [] := by
    refine List.filter_eq_nil_iff.2 (fun x hx => ?_)
    simpa [hwant x hx] using hs
  have hfree : free want = none := by
    refine List.find?_eq_none.2 (fun x hx => ?_)
    rw [hwant x hx]
    simpa using hf
  rw [hdue, hfree]
  rfl

theorem issueFetch_sq_same : ((issueFetch n s).sq n).fetching = min 16 (newPositions n s) := by
  have hsame (k : Nat) : ((s.modSq n (fun q => { q with fetching := k })).sq n).fetching = k := by rw [State.sq_modSq_same]
  unfold issueFetch
  dsimp only
  split <;> exact hsame _

/-- What a ring may still ask for depends on the rings' own registers and the completion rings. -/
theorem newPositions_congr {t : State} {m : Nat} (hq : t.sq m = s.sq m) (hc : t.host.cqs = s.host.cqs) (hf : t.host.fns = s.host.fns) :
    newPositions m t = newPositions m s := by
  have hcq (k : Nat) : t.cq k = s.cq k := by rw [State.cq, hc, State.cq]
  have hfn (k : Nat) : t.fn k = s.fn k := by rw [State.fn, hf, State.fn]
  have hstalled : ringStalled m t = ringStalled m s := by rw [ringStalled, hq, hcq, hfn, ringStalled]
  simp only [newPositions, hq, hstalled]

theorem issueFetch_host : (issueFetch n s).host.cqs = s.host.cqs ∧ (issueFetch n s).host.fns = s.host.fns ∧
    (issueFetch n s).host.served = s.host.served := by
  unfold issueFetch
  dsimp only
  split <;> exact ⟨rfl, rfl, rfl⟩

theorem issueFetch_sq_other {m : Nat} (h : m ≠ n) : (issueFetch n s).sq m = s.sq m := by
  have hother (k : Nat) : (s.modSq n (fun q => { q with fetching := k })).sq m = s.sq m := State.sq_modSq_other h
  unfold issueFetch
  dsimp only
  split <;> exact hother _

/-- The state in which a ring has its turn in the round under way (R104). -/
def takeTurn (n : Nat) (s : State) : State := { s with host := { s.host with served := s.host.served ++ [n] } }

/-- Where one ring alone has new descriptors, it asks for at most 16 of them (R104). -/
theorem serve_of_alone (ho : OnlyWants n s) (hk : n ∈ s.host.sqs.map Prod.fst) (hs : n ∉ s.host.served)
    (hf : (s.sq n).fetching = 0) : ((serve s).sq n).fetching = min 16 (newPositions n s) := by
  rcases Nat.eq_zero_or_pos (newPositions n s) with h0 | hpos
  · have hnone : nextTurn s = none := nextTurn_of_none (fun m => if hm : m = n then hm ▸ h0 else ho m hm)
    rw [serve, serveRings_of_none hnone, hf, h0, Nat.min_zero]
  · obtain ⟨k, hlen⟩ : ∃ k, s.host.sqs.length = k + 1 := by
      obtain ⟨x, hx, -⟩ := List.mem_map.1 hk
      exact Nat.exists_eq_succ_of_ne_zero (by simpa using List.ne_nil_of_mem hx)
    obtain ⟨hcqs, hfns, hserved⟩ := issueFetch_host (s := takeTurn n s) (n := n)
    have hfetch : ((issueFetch n (takeTurn n s)).sq n).fetching = min 16 (newPositions n s) := issueFetch_sq_same
    have honly : OnlyWants n (issueFetch n (takeTurn n s)) := fun m hm =>
      (newPositions_congr (issueFetch_sq_other hm) hcqs hfns).trans (ho m hm)
    have hnone : nextTurn (issueFetch n (takeTurn n s)) = none :=
      nextTurn_of_fetching honly (by rw [hserved]; simp [takeTurn]) (by rw [hfetch]; omega)
    rw [serve, hlen, serveRings, nextTurn_of_alone ho hpos hk hs hf]
    exact (congrArg (fun t : State => (t.sq n).fetching) (serveRings_of_none hnone k)).trans hfetch

end

end Sys2Proof.Machine

/-! # Tail reads and fetched descriptors

SUPPORT. A read of a tail line, a ring that enters error, a tail that returns, and a descriptor that arrives (R99 to R109). -/

namespace Sys2Proof.Machine

section
variable {s t : State} {n : Nat}

theorem live_of_portOpen (h : portOpen s = true) : s.live = true := by
  simp only [portOpen, Bool.and_eq_true] at h
  exact h.1.1

theorem item_of_work_eq (h : t.work = s.work) (x : Nat) : t.item x = s.item x := by rw [State.item, h, State.item]

/-- Every other descriptor stays when one completes. -/
theorem complete_item_other (w : Work) (st : Status) (r : Nat) (fr : BitVec 16) {x : Nat} (hx : x ≠ w.wid) :
    (complete w st r s fr).item x = s.item x := by
  rw [State.item, complete_work, List.find?_filter, State.item]
  congr 1
  funext y
  by_cases hy : y.wid = x <;> simp [hy, hx]

/-! ## Reads of a tail line -/

theorem readTail_of_not_reading (h : (s.sq n).reading = false) : readTail n s =
    (s.modSq n (fun q => { q with reading := true, reread := false })).emit (.tailRead n (s.sq n).tailAddr.toNat) := by
  simp [readTail, h]

theorem readTail_onlyChanges (n : Nat) (s : State) : OnlyChanges [.host, .out] s (readTail n s) := by
  unfold readTail
  split
  · exact (onlyChanges_set_host s _).mono (by simp)
  · exact ((onlyChanges_set_host s _).mono (by simp)).trans ((onlyChanges_set_out _ _).mono (by simp))

/-- A read of the tail line of a ring that has none under way (R99, R107). -/
theorem readTail_spec (h : (s.sq n).reading = false) :
    ((readTail n s).sq n).reading = true ∧ (readTail n s).out = s.out ++ [.tailRead n (s.sq n).tailAddr.toNat] ∧
    (∀ m, m ≠ n → (readTail n s).sq m = s.sq m) := by
  rw [readTail_of_not_reading h]
  exact ⟨congrArg Sq.reading (State.sq_modSq_same s n _), rfl, fun m hm => State.sq_modSq_other (s := s) hm⟩

/-! ## Returns of a tail line -/

theorem ringError_onlyChanges (n err : Nat) (tail : W32) (s : State) : OnlyChanges [.host, .out] s (ringError n err tail s) :=
  ((onlyChanges_set_host s _).mono (by simp)).trans event_onlyChanges

/-- A ring in error, its descriptors left where they were (R100). -/
theorem serve_ringError (n err : Nat) (tail : W32) (s : State) :
    ((serve (ringError n err tail s)).sq n).st = .error ∧ ((serve (ringError n err tail s)).sq n).err = BitVec.ofNat 8 err ∧
    ((serve (ringError n err tail s)).sq n).head = (s.sq n).head ∧ OnlyChanges [.host, .out] s (serve (ringError n err tail s)) := by
  obtain ⟨hturns, hframe⟩ := serve_onlyTurns (ringError n err tail s)
  have hring : (ringError n err tail s).sq n = { stopSq (s.sq n) .error with err := BitVec.ofNat 8 err } := by
    rw [ringError, event_sq, State.sq_modSq_same]
  have hkept := hturns n
  rw [hring] at hkept
  exact ⟨hkept.st_eq, hkept.err_eq, hkept.head_eq, (ringError_onlyChanges n err tail s).trans hframe⟩

/-- The state in which a tail value has been taken (R108, R109). -/
def tookTail (n : Nat) (v : W32) (s : State) : State := s.modSq n (fun q => { q with tail := v, reading := false, reread := false })

theorem tookTail_sq (n : Nat) (v : W32) (s : State) :
    (tookTail n v s).sq n = { s.sq n with tail := v, reading := false, reread := false } := State.sq_modSq_same ..

/-- A tail in range makes its ring, where no other has new descriptors, ask for those up to it (R104, R109). -/
theorem serve_tookTail {v : W32} (hr : (s.sq n).st = .running) (hf : (s.sq n).fetching = 0) (hs : ringStalled n s = false)
    (hv : n ∉ s.host.served) (ho : OnlyWants n s) :
    ((serve (tookTail n v s)).sq n).fetching = min 16 (v - (s.sq n).head).toNat := by
  have hsq := tookTail_sq n v s
  have hkey : n ∈ (tookTail n v s).host.sqs.map Prod.fst := by
    refine mem_keys_of_tget_ne (d := {}) (fun h => ?_)
    have hst : ((tookTail n v s).sq n).st = SqState.disabled := congrArg Sq.st h
    rw [hsq] at hst
    exact absurd (hr.symm.trans hst) (by decide)
  have honly : OnlyWants n (tookTail n v s) := fun m hm =>
    (newPositions_congr (State.sq_modSq_other hm) rfl rfl).trans (ho m hm)
  have hstalled : ringStalled n (tookTail n v s) = false := by
    rw [ringStalled, hsq]
    exact hs
  have hnew : newPositions n (tookTail n v s) = (v - (s.sq n).head).toNat := by
    rw [newPositions, hsq]
    simp only [hr, hstalled, and_self, if_true, hf, Nat.sub_zero]
  rw [serve_of_alone honly hkey hv (by rw [hsq, hf]), hnew]

/-! ## Arrivals of descriptors -/

/-- HEAD goes past a position (R99). -/
def passHead (n : Nat) (s : State) : State := s.modSq n (fun q => { q with head := q.head + 1, fetching := q.fetching - 1 })

theorem passHead_sq (n : Nat) (s : State) : ((passHead n s).sq n).head = (s.sq n).head + 1 :=
  congrArg Sq.head (State.sq_modSq_same s n _)

/-- The device has taken a descriptor up (R101). -/
def takeUp (n : Nat) (d : Descriptor) (s : State) : State :=
  { passHead n s with work := s.work ++ [workOf n (s.sq n).head d s], nextWid := s.nextWid + 1 }

theorem takeUp_onlyChanges (n : Nat) (d : Descriptor) (s : State) : OnlyChanges [.host, .work, .nextWid] s (takeUp n d s) := by
  intro p hp
  cases p <;> simp [sameZone, takeUp, passHead, State.modSq] at hp ⊢

/-- The other descriptors are as they were. -/
theorem takeUp_item_other {d : Descriptor} {x : Nat} (hx : x ≠ s.nextWid) : (takeUp n d s).item x = s.item x := by
  have hw : ((workOf n (s.sq n).head d s).wid == x) = false := beq_eq_false_iff_ne.2 hx.symm
  simp only [State.item, takeUp, List.find?_append, List.find?_cons, hw, List.find?_nil, Option.or_none]

theorem fetchOne_some (n : Nat) (d : Descriptor) (s : State) : fetchOne n s (some d) =
    match dispatchFails (workOf n (s.sq n).head d s) (takeUp n d s) with
    | some (st, r) => complete (workOf n (s.sq n).head d s) st r
        (if s.img.image.isNone && st == .malformed then (takeUp n d s).fresh else takeUp n d s)
    | none => takeUp n d s := rfl

theorem fetchOne_none (n : Nat) (s : State) : fetchOne n s none = badRead n (s.sq n).head (passHead n s) := rfl

theorem badRead_sq (n : Nat) (p : W32) (s : State) (m : Nat) : (badRead n p s).sq m = s.sq m := giveRec_sq ..

theorem badRead_onlyChanges (n : Nat) (p : W32) (s : State) : OnlyChanges [.host, .out] s (badRead n p s) :=
  giveRec_onlyChanges _ _ _ _

/-- A word's opcode byte as a number. -/
theorem opcode_workOf (n : Nat) (p : W32) (d : Descriptor) (s : State) : (workOf n p d s).opcode.toNat = dat d 0 8 :=
  Nat.mod_eq_of_lt (Nat.mod_lt _ (by norm_num))

/-- A descriptor just fetched is no load under way. -/
theorem loadCancels_takeUp (n : Nat) (d : Descriptor) (s : State) : loadCancels (takeUp n d s) = loadCancels s := by
  have hat (st : ImgStage) : (imageAt st (takeUp n d s)).isSome = (imageAt st s).isSome := by
    simp only [imageAt, takeUp, List.find?_append, List.find?_cons]
    have hw : imgStage (workOf n (s.sq n).head d s).prog = none := rfl
    simp [hw]
  simp only [loadCancels, hat]

/-- A descriptor with a defined opcode and a mapped context is taken up (R103, R171, R172). -/
theorem dispatchFails_none {d : Descriptor} (ho : opcodeDefined (dat d 0 8) = true) (hi : s.img.image.isSome = true)
    (hl : loadCancels s = false) (hc : ctxMismatch (ringFn n) (dat d 2 12) s = false) :
    dispatchFails (workOf n (s.sq n).head d s) (takeUp n d s) = none := by
  have himg : (takeUp n d s).img.image.isNone = false := by
    rw [← Option.not_isSome]
    exact congrArg (!·) hi
  have hctx : ctxMismatch (workOf n (s.sq n).head d s).fn (workOf n (s.sq n).head d s).context (takeUp n d s) = false := hc
  simp [dispatchFails, firstFail, opcode_workOf, ho, himg, loadCancels_takeUp, hl, hctx]

theorem dispatchFails_reserved {d : Descriptor} (ho : opcodeDefined (dat d 0 8) = false) :
    dispatchFails (workOf n (s.sq n).head d s) (takeUp n d s) = some (.malformed, 0) := by
  simp [dispatchFails, firstFail, opcode_workOf, ho]

/-- Descriptors returned for a running ring are dispatched; turns follow (R104 to R106). -/
theorem completes_descriptorReadReturn {o : Option Descriptor} {P : State → Prop} (hp : portOpen s = true)
    (hr : (s.sq n).st = .running) (hf : 1 ≤ (s.sq n).fetching)
    (h : ∀ t, OnlyTurns (fetchOne n s o) t → P (s.kept t)) : Completes (.descriptorReadReturn n [o]) s P := by
  have hc : (portOpen s && (s.sq n).st == .running && decide ([o].length ≤ (s.sq n).fetching)) = true := by
    simpa [hp, hr] using hf
  simp only [Completes, exec, execDescriptorReadReturn, actIf_of_live (live_of_portOpen hp) hc]
  exact ⟨_, rfl, h _ ((endTurn_onlyTurns ..).trans (serve_onlyTurns _))⟩

end

end Sys2Proof.Machine

/-! # The obligation on tails and fetch -/

namespace Sys2Proof.Machine

/-- Settles O9: a tail line is read, returns in or out of range or not at all, and a descriptor arrives and is taken up, fails its
read, or is of a reserved opcode; turns of rings change nothing but the descriptors asked for. -/
theorem tailsAndFetch : Obligations.TailsAndFetch := by
  unfold Obligations.TailsAndFetch
  refine ⟨fun s n hp hc hl hr hn hs ht => ?lost, fun s n hp hl hr hn => ?poll, fun s n v hp hr hn hre hl hm hf hv hst hsv ho => ?tail,
    fun s n v hp hr hn hv => ?outOfRange, fun s n hp hr hn => ?unreadable, fun s n d hp hr hf ho hi hl hc => ?taken,
    fun s n hp hr hf => ?bad, fun s n d hp hr hf ho hi => ?reserved⟩
  case lost =>
    have hcond : (portOpen s && cxlMode s && !(s.sq n).polled && (s.sq n).st == .running) = true := by simp [hp, hc, hl, hr]
    have hwake : wakeSubmit s = ungateAll s := wakeBy_of_n0 ht hs rfl
    simp only [Completes, exec, execTailLineInvalidation, actIf_of_live (live_of_portOpen hp) hcond, hwake]
    obtain ⟨hreading, hout, hother⟩ := readTail_spec (s := ungateAll s) (n := n) hn
    have hframe := readTail_onlyChanges n (ungateAll s)
    refine ⟨_, rfl, hreading, hout, hother, ?_, OnlyChanges.kept ?_⟩
    · refine (hframe.power_eq (by decide)).trans ?_
      simp only [ungateAll, hs]
    · exact ((ungateAll_onlyChanges s).mono (by simp)).trans (hframe.mono (by simp))
  case poll =>
    have hcond : (portOpen s && ((s.sq n).polled || s.host.mode == .pcie) && (s.sq n).st == .running && !(s.sq n).reading) = true := by
      simpa [hp, hr, hn] using hl
    obtain ⟨hreading, hout, hother⟩ := readTail_spec (s := s) hn
    simp only [Completes, exec, execTailPoll, actIf_of_live (live_of_portOpen hp) hcond]
    exact ⟨_, rfl, hreading, hout, hother, (readTail_onlyChanges n s).kept⟩
  case tail =>
    have hcond : (portOpen s && (s.sq n).st == .running && (s.sq n).reading) = true := by simp [hp, hr, hn]
    have hwatch : (((s.sq n).polled || s.host.mode == .pcie) && v != (s.sq n).tail) = false := by simp [hl, hm]
    simp only [Completes, exec, execTailReadReturn, actIf_of_live (live_of_portOpen hp) hcond, if_neg (Nat.not_lt.2 hv), hwatch, hre,
      Bool.false_eq_true, if_false]
    obtain ⟨hturns, hframe⟩ := serve_onlyTurns (tookTail n v s)
    have hkept := hturns n
    rw [tookTail_sq] at hkept
    refine ⟨_, rfl, hkept.tail_eq, hkept.reading_eq, hkept.st_eq.trans hr, hkept.head_eq,
      serve_tookTail hr hf hst hsv ho, OnlyChanges.kept ?_⟩
    exact ((onlyChanges_set_host s _).mono (by simp)).trans hframe
  case outOfRange =>
    have hcond : (portOpen s && (s.sq n).st == .running && (s.sq n).reading) = true := by simp [hp, hr, hn]
    simp only [Completes, exec, execTailReadReturn, actIf_of_live (live_of_portOpen hp) hcond, if_pos hv]
    obtain ⟨hst, herr, hhead, hframe⟩ := serve_ringError n 1 v (s.modSq n (fun q => { q with tail := v }))
    rw [State.sq_modSq_same] at hhead
    exact ⟨_, rfl, hst, herr, hhead, (((onlyChanges_set_host s _).mono (by simp)).trans hframe).kept⟩
  case unreadable =>
    have hcond : (portOpen s && (s.sq n).st == .running && (s.sq n).reading) = true := by simp [hp, hr, hn]
    simp only [Completes, exec, execTailReadReturn, actIf_of_live (live_of_portOpen hp) hcond]
    obtain ⟨hst, herr, -, hframe⟩ := serve_ringError n 2 0 s
    exact ⟨_, rfl, hst, herr, hframe.kept⟩
  case taken =>
    refine completes_descriptorReadReturn hp hr hf (fun t ht => ?_)
    rw [fetchOne_some, dispatchFails_none ho hi hl hc] at ht
    obtain ⟨hturns, hframe⟩ := ht
    refine ⟨hframe.work_eq (by decide), of_decide_eq_true (hframe .nextWid (by decide)),
      (hturns n).head_eq.trans (passHead_sq n s), OnlyChanges.kept ?_⟩
    exact ((takeUp_onlyChanges n d s).mono (by simp)).trans (hframe.mono (by simp))
  case bad =>
    refine completes_descriptorReadReturn hp hr hf (fun t ht => ?_)
    rw [fetchOne_none] at ht
    obtain ⟨hturns, hframe⟩ := ht
    have hall : OnlyChanges [.host, .out] s t :=
      (((onlyChanges_set_host s _).mono (by simp)).trans (badRead_onlyChanges n _ (passHead n s))).trans hframe
    refine ⟨hall.work_eq (by decide), of_decide_eq_true (hall .nextWid (by decide)), ?_, hall.kept⟩
    refine (hturns n).head_eq.trans ?_
    exact (congrArg Sq.head (badRead_sq ..)).trans (passHead_sq n s)
  case reserved =>
    refine completes_descriptorReadReturn hp hr hf (fun t ht => ?_)
    have himg : (s.img.image.isNone && (Status.malformed == .malformed)) = false := by simp_all
    rw [fetchOne_some, dispatchFails_reserved ho] at ht
    simp only [himg, Bool.false_eq_true, if_false] at ht
    obtain ⟨-, hframe⟩ := ht
    have hwork : t.work = _ := hframe.work_eq (by decide)
    have hwid : t.nextWid = _ := of_decide_eq_true (hframe .nextWid (by decide))
    have hitem (x : Nat) : (s.kept t).item x = (complete (workOf n (s.sq n).head d s) .malformed 0 (takeUp n d s)).item x :=
      item_of_work_eq hwork x
    refine ⟨(hitem _).trans (complete_item ..), hwid.trans (complete_nextWid ..), fun x hx => (hitem x).trans ?_⟩
    exact (complete_item_other _ _ _ _ hx).trans (takeUp_item_other hx)

end Sys2Proof.Machine

/-! # Links and the frames they carry

SUPPORT. What a link reads as after an update, what a received frame does to it (R498), and what queueing and sending frames change
and leave (R496, R506 to R511, R517, R539). -/

namespace Sys2Proof.Machine

section
variable {s t u : State} {n l a b m : Nat}

/-! ## Links, Lanterns and peers as read after a change -/

theorem State.link_modLantern {g : Lantern → Lantern} (h : ∀ x, (g x).links = x.links) :
    (s.modLantern n g).link a b = s.link a b := by
  by_cases ha : a = n
  · subst ha
    simp only [State.link, State.lantern_modLantern_same, h]
  · simp only [State.link, State.lantern_modLantern_other ha]

theorem State.link_modLink_same (s : State) (n l : Nat) (g : Link → Link) : (s.modLink n l g).link n l = g (s.link n l) := by
  simp only [State.link, State.modLink, State.lantern_modLantern_same, tget_tmod_same]

theorem State.link_modLink_other {g : Link → Link} (h : ¬ (a = n ∧ b = l)) : (s.modLink n l g).link a b = s.link a b := by
  by_cases ha : a = n
  · subst ha
    have hb : b ≠ l := fun hb => h ⟨rfl, hb⟩
    simp only [State.link, State.modLink, State.lantern_modLantern_same, tget_tmod_other _ _ _ _ _ hb]
  · simp only [State.link, State.modLink, State.lantern_modLantern_other ha]

/-- What an update of one link keeps, every link keeps. -/
theorem State.link_modLink_keeps {α : Type} {g : Link → Link} (p : Link → α) (h : ∀ k, p (g k) = p k) :
    p ((s.modLink n l g).link a b) = p (s.link a b) := by
  by_cases hab : a = n ∧ b = l
  · obtain ⟨rfl, rfl⟩ := hab
    rw [State.link_modLink_same, h]
  · rw [State.link_modLink_other hab]

/-- What an update of one Lantern keeps, every Lantern keeps. -/
theorem State.lantern_modLantern_keeps {α : Type} {g : Lantern → Lantern} (p : Lantern → α) (h : ∀ x, p (g x) = p x) :
    p ((s.modLantern n g).lantern a) = p (s.lantern a) := by
  by_cases ha : a = n
  · subst ha
    rw [State.lantern_modLantern_same, h]
  · rw [State.lantern_modLantern_other ha]

theorem State.peer_modPeer_same (s : State) (m : Nat) (g : Peer → Peer) : (s.modPeer m g).peer m = g (s.peer m) := tget_tmod_same ..

theorem State.peer_modPeer_other {g : Peer → Peer} (h : a ≠ m) : (s.modPeer m g).peer a = s.peer a := tget_tmod_other _ _ _ _ _ h

theorem State.conn_modConn_same (s : State) (m : Nat) (g : Conn → Conn) : (s.modConn m g).conn m = g (s.conn m) := tget_tmod_same ..

theorem State.entry_modEntry_same (s : State) (m : Nat) (g : Entry → Entry) : (s.modEntry m g).entry m = g (s.entry m) :=
  tget_tmod_same ..

@[simp] theorem State.kept_lantern (s t : State) (n : Nat) : (s.kept t).lantern n = t.lantern n := rfl
@[simp] theorem State.kept_link (s t : State) (n l : Nat) : (s.kept t).link n l = t.link n l := rfl
@[simp] theorem State.kept_peer (s t : State) (m : Nat) : (s.kept t).peer m = t.peer m := rfl
@[simp] theorem State.kept_conn (s t : State) (c : Nat) : (s.kept t).conn c = t.conn c := rfl
@[simp] theorem State.kept_slot (s t : State) (k : Nat) : (s.kept t).slot k = t.slot k := rfl
@[simp] theorem State.kept_entry (s t : State) (i : Nat) : (s.kept t).entry i = t.entry i := rfl
@[simp] theorem State.emit_lantern (s : State) (o : Out) (n : Nat) : (s.emit o).lantern n = s.lantern n := rfl
@[simp] theorem State.emit_link (s : State) (o : Out) (n l : Nat) : (s.emit o).link n l = s.link n l := rfl

theorem modLantern_onlyChanges (s : State) (n : Nat) (g : Lantern → Lantern) : OnlyChanges [.rail] s (s.modLantern n g) :=
  onlyChanges_set_rail s _

theorem modLink_onlyChanges (s : State) (n l : Nat) (g : Link → Link) : OnlyChanges [.rail] s (s.modLink n l g) :=
  onlyChanges_set_rail s _

theorem modPeer_onlyChanges (s : State) (m : Nat) (g : Peer → Peer) : OnlyChanges [.rail] s (s.modPeer m g) :=
  onlyChanges_set_rail s _

theorem modConn_onlyChanges (s : State) (m : Nat) (g : Conn → Conn) : OnlyChanges [.rc] s (s.modConn m g) :=
  onlyChanges_set_rc s _

theorem modSlot_onlyChanges (s : State) (m : Nat) (g : RegSlot → RegSlot) : OnlyChanges [.rc] s (s.modSlot m g) :=
  onlyChanges_set_rc s _

theorem emit_onlyChanges (s : State) (o : Out) : OnlyChanges [.out] s (s.emit o) := onlyChanges_set_out s _

/-! ## What routing reads -/

/-- Two states whose Rail registers differ in no more than the Lanterns, and whose links have the same states and peers. -/
def SameWays (s t : State) : Prop :=
  t.rail = { s.rail with lanterns := t.rail.lanterns } ∧ ∀ a b, (t.link a b).st = (s.link a b).st ∧ (t.link a b).peer = (s.link a b).peer

theorem SameWays.refl (s : State) : SameWays s s := ⟨rfl, fun _ _ => ⟨rfl, rfl⟩⟩

theorem SameWays.trans (h : SameWays s t) (h' : SameWays t u) : SameWays s u :=
  ⟨by rw [h'.1, h.1], fun a b => ⟨(h'.2 a b).1.trans (h.2 a b).1, (h'.2 a b).2.trans (h.2 a b).2⟩⟩

theorem sameWays_modLantern (s : State) (n : Nat) {g : Lantern → Lantern} (h : ∀ x, (g x).links = x.links) :
    SameWays s (s.modLantern n g) :=
  ⟨rfl, fun a b => by rw [State.link_modLantern h]; exact ⟨rfl, rfl⟩⟩

theorem sameWays_modLink (s : State) (n l : Nat) {g : Link → Link} (h : ∀ k, (g k).st = k.st ∧ (g k).peer = k.peer) :
    SameWays s (s.modLink n l g) :=
  ⟨rfl, fun _ _ => ⟨State.link_modLink_keeps Link.st (fun k => (h k).1), State.link_modLink_keeps Link.peer (fun k => (h k).2)⟩⟩

namespace SameWays
variable (h : SameWays s t)
include h

theorem me_eq : t.me = s.me := by unfold State.me; rw [h.1]
theorem peer_eq : t.peer m = s.peer m := by unfold State.peer; rw [h.1]
theorem inc_eq : t.rail.inc = s.rail.inc := by rw [h.1]
theorem watched_eq : watched m t = watched m s := by unfold watched; rw [h.1]
theorem trickleTo_eq : trickleTo m t = trickleTo m s := by simp only [trickleTo, h.2]
theorem deadInc_eq {i : W32} : deadInc m i t = deadInc m i s := by simp only [deadInc, h.peer_eq]

theorem routeFor_eq {p : Nat} : routeFor m p t = routeFor m p s := by
  have hr (k : Nat) : t.route m k = s.route m k := by unfold State.route; rw [h.1]
  have hp (r : RouteSlot) : pathUp r t = pathUp r s := by simp only [pathUp, Link.up, h.2]
  simp only [routeFor, hr, hp]

end SameWays

/-! ## A received frame -/

/-- A link whose peer was heard. -/
def Link.hear (k : Link) : Link := { k with heard := true }

/-- The peer of a link was heard. -/
def heard (n l : Nat) (s : State) : State := s.modLink n l Link.hear

/-- What an accepted frame moves on in its link. -/
def Link.took (sequenced : Bool) (f : Frame) (k : Link) : Link :=
  let k1 := ackUpTo f.ackSeq k
  if sequenced then { k1 with rxSeq := k1.rxSeq + 1, rxGen := genAfter k1.rxGen k1.rxSeq, ackDue := true }
  else { k1 with rxCtl := f.fseq + 1, rxCtlGen := genAfter (genOf k1.rxCtlGen k1.rxCtl f.fseq) f.fseq }

/-- The state in which an accepted frame has been taken. -/
def tookIn (n l : Nat) (sequenced : Bool) (f : Frame) (s : State) : State :=
  ((heard n l s).modLink n l (Link.took sequenced f)).modLantern n (fun x => { x with rxFrames := x.rxFrames + 1 })

section
variable {typ : BitVec 4} {f : Frame} {sequenced : Bool} {o : FrameObs}

theorem injectHit_of_unarmed (c d : Nat) (hi : s.ft.inject.arm = false) : injectHit c d s = (false, s) := by
  simp [injectHit, hi]

/-- No injection strikes, so the checks of R498 decide on the frame alone. -/
theorem rxCheck_of_unarmed (hi : s.ft.inject.arm = false) : rxCheck n l sequenced f o s =
    let u := heard n l s
    let k := u.link n l
    if o.fecBad > 0 then (false, nakDue n l (u.modLantern n (fun x => { x with fecUncorr := x.fecUncorr + o.fecBad })))
    else if o.crc = .inverted then (false, u.modLantern n (fun x => { x with stomped := x.stomped + 1 }))
    else if o.crc = .bad then (false, nakDue n l (u.modLantern n (fun x => { x with crcFail := x.crcFail + 1 })))
    else if f.typ.toNat > 9 ∨ f.version ≠ linkVersion l k.st then
      (false, nakDue n l (u.modLantern n (fun x => { x with dropped := x.dropped + 1 })))
    else if o.tag ≠ rxTag u.me k f then (false, nakDue n l (u.modLantern n (fun x => { x with authFail := x.authFail + 1 })))
    else if sequenced && decide (f.fseq ≠ k.rxSeq) then (false, if seqBefore k.rxSeq f.fseq then nakDue n l u else u)
    else (true, u) := by
  have hu : (heard n l s).ft.inject.arm = false := hi
  rw [rxCheck, show s.modLink n l (fun k => { k with heard := true }) = heard n l s from rfl, injectHit_of_unarmed _ _ hu]
  simp only [injectHit_of_unarmed _ _ hu, Bool.false_eq_true, false_and, or_false]

theorem link_heard {α : Type} (p : Link → α) (h : ∀ k : Link, p k.hear = p k) :
    p ((heard n l s).link a b) = p (s.link a b) := State.link_modLink_keeps p h

/-- A genuine frame is judged by its number alone. -/
theorem rxCheck_genuine (h : Arrives n l typ f s) (ht : typ.toNat ≤ 9) : rxCheck n l sequenced f (genuine n l f s) s =
    if sequenced && decide (f.fseq ≠ (s.link n l).rxSeq) then
      (false, if seqBefore (s.link n l).rxSeq f.fseq then nakDue n l (heard n l s) else heard n l s)
    else (true, heard n l s) := by
  obtain ⟨-, -, rfl, hv, hi⟩ := h
  have htag : rxTag (heard n l s).me ((heard n l s).link n l) f = rxTag s.me (s.link n l) f :=
    link_heard (rxTag s.me · f) (fun _ => rfl)
  have hst : ((heard n l s).link n l).st = (s.link n l).st := link_heard Link.st (fun _ => rfl)
  have hrx : ((heard n l s).link n l).rxSeq = (s.link n l).rxSeq := link_heard Link.rxSeq (fun _ => rfl)
  rw [rxCheck_of_unarmed hi]
  simp [genuine, htag, hst, hrx, hv, Nat.not_lt.mpr ht]

theorem rxFrame_of_taken (h : Arrives n l typ f s) (ht : typ.toNat ≤ 9) (hq : sequenced = true → f.fseq = (s.link n l).rxSeq) :
    rxFrame n l sequenced f (genuine n l f s) s = (true, tookIn n l sequenced f s) := by
  have hc : (sequenced && decide (f.fseq ≠ (s.link n l).rxSeq)) = false := by
    cases sequenced
    · rfl
    · simp [hq rfl]
  rw [rxFrame, rxCheck_genuine h ht, hc]
  rfl

theorem rxFrame_of_outOfTurn (h : Arrives n l typ f s) (ht : typ.toNat ≤ 9) (hq : f.fseq ≠ (s.link n l).rxSeq) :
    rxFrame n l true f (genuine n l f s) s =
      (false, if seqBefore (s.link n l).rxSeq f.fseq then nakDue n l (heard n l s) else heard n l s) := by
  rw [rxFrame, rxCheck_genuine h ht]
  simp [hq]

theorem rxFrame_of_badCrc (hi : s.ft.inject.arm = false) : rxFrame n l sequenced f { crc := .bad } s =
    (false, nakDue n l ((heard n l s).modLantern n (fun x => { x with crcFail := x.crcFail + 1 }))) := by
  rw [rxFrame, rxCheck_of_unarmed hi]
  simp

/-! ## What taking a frame leaves -/

theorem tookIn_onlyChanges : OnlyChanges [.rail] s (tookIn n l sequenced f s) :=
  ((modLink_onlyChanges _ _ _ _).trans (modLink_onlyChanges _ _ _ _)).trans (modLantern_onlyChanges _ _ _)

theorem Link.took_keeps (k : Link) : (k.took sequenced f).st = k.st ∧ (k.took sequenced f).peer = k.peer := by
  unfold Link.took
  split <;> exact ⟨rfl, rfl⟩

@[simp] theorem tookIn_rc : (tookIn n l sequenced f s).rc = s.rc := by
  simp only [tookIn, heard, State.modLantern_rc, State.modLink_rc]

@[simp] theorem tookIn_power : (tookIn n l sequenced f s).power = s.power := by
  simp only [tookIn, heard, State.modLantern_power, State.modLink_power]

@[simp] theorem tookIn_img : (tookIn n l sequenced f s).img = s.img := by
  simp only [tookIn, heard, State.modLantern_img, State.modLink_img]

@[simp] theorem tookIn_tt : (tookIn n l sequenced f s).tt = s.tt := by
  simp only [tookIn, heard, State.modLantern_tt, State.modLink_tt]

@[simp] theorem tookIn_work : (tookIn n l sequenced f s).work = s.work := by
  simp only [tookIn, heard, State.modLantern_work, State.modLink_work]

@[simp] theorem tookIn_flash : (tookIn n l sequenced f s).flash = s.flash := by
  simp only [tookIn, heard, State.modLantern_flash, State.modLink_flash]

@[simp] theorem tookIn_out : (tookIn n l sequenced f s).out = s.out := by
  simp only [tookIn, heard, State.modLantern_out, State.modLink_out]

theorem sameWays_tookIn : SameWays s (tookIn n l sequenced f s) := by
  refine .trans (sameWays_modLink s n l (g := Link.hear) (fun _ => ⟨rfl, rfl⟩)) ?_
  exact .trans (sameWays_modLink _ n l Link.took_keeps) (sameWays_modLantern _ n (fun _ => rfl))

theorem link_tookIn_eq : (tookIn n l sequenced f s).link a b = ((heard n l s).modLink n l (Link.took sequenced f)).link a b :=
  State.link_modLantern (fun _ => rfl)

/-- Whatever hearing the peer and moving the receiver on keep of a link, taking a frame keeps. -/
theorem link_tookIn {α : Type} (p : Link → α) (hh : ∀ k : Link, p k.hear = p k)
    (ht : ∀ k : Link, p (k.took sequenced f) = p k) : p ((tookIn n l sequenced f s).link a b) = p (s.link a b) := by
  rw [link_tookIn_eq, State.link_modLink_keeps p ht, link_heard p hh]

theorem link_tookIn_same : (tookIn n l sequenced f s).link n l = (s.link n l).hear.took sequenced f := by
  rw [link_tookIn_eq, State.link_modLink_same, heard, State.link_modLink_same]

@[simp] theorem tookIn_rxSeq : ((tookIn n l true f s).link n l).rxSeq = (s.link n l).rxSeq + 1 := by rw [link_tookIn_same]; rfl

@[simp] theorem tookIn_ackDue : ((tookIn n l true f s).link n l).ackDue = true := by rw [link_tookIn_same]; rfl

theorem tookIn_lantern {α : Type} (p : Lantern → α) (hl : ∀ (x : Lantern) (y : Tab Link), p { x with links := y } = p x)
    (hr : ∀ (x : Lantern) (c : Nat), p { x with rxFrames := c } = p x) :
    p ((tookIn n l sequenced f s).lantern a) = p (s.lantern a) := by
  rw [tookIn, State.lantern_modLantern_keeps p (fun _ => hr _ _), State.modLink, State.lantern_modLantern_keeps p (fun _ => hl _ _),
    heard, State.modLink, State.lantern_modLantern_keeps p (fun _ => hl _ _)]

end

/-! ## Queueing and sending -/

theorem nakDue_onlyChanges (n l : Nat) (s : State) : OnlyChanges [.rail] s (nakDue n l s) := modLink_onlyChanges _ _ _ _

theorem freeIngress_onlyChanges (q : QFrame) (s : State) : OnlyChanges [.rail] s (freeIngress q s) := by
  unfold freeIngress
  split
  · exact modLink_onlyChanges _ _ _ _
  · exact .refl _ s

theorem enqueue_onlyChanges (n l : Nat) (q : QFrame) (s : State) : OnlyChanges [.rail] s (enqueue n l q s) := by
  unfold enqueue
  split
  · exact (modLantern_onlyChanges _ _ _).trans (freeIngress_onlyChanges _ _)
  · exact modLink_onlyChanges _ _ _ _

theorem forwardStored_onlyChanges (f : Frame) (i : Option (Nat × Nat)) (s : State) :
    OnlyChanges [.rail, .rc] s (forwardStored f i s) := by
  have hf (q : QFrame) (u : State) : OnlyChanges [.rail, .rc] u (freeIngress q u) := (freeIngress_onlyChanges q u).mono (by simp)
  have he (a b : Nat) (q : QFrame) (u : State) : OnlyChanges [.rail, .rc] u (enqueue a b q u) :=
    (enqueue_onlyChanges a b q u).mono (by simp)
  unfold forwardStored
  extract_lets path q
  split
  · split
    · exact he _ _ _ _
    · exact ((modLantern_onlyChanges _ _ _).mono (by simp)).trans (hf _ _)
  · split
    · exact he _ _ _ _
    · exact ((onlyChanges_set_rc _ _).mono (by simp)).trans (hf _ _)

theorem routeCtl_onlyChanges (f : Frame) (s : State) : OnlyChanges [.rail] s (routeCtl f s) := by
  unfold routeCtl
  split
  · exact modLink_onlyChanges _ _ _ _
  · split
    · exact modLink_onlyChanges _ _ _ _
    · exact .refl _ s

/-- No receiver moves on and no Lantern stores a frame. -/
def KeepsReceipt (s t : State) : Prop :=
  (∀ a b, (t.link a b).rxSeq = (s.link a b).rxSeq) ∧ ∀ a, (t.lantern a).stored = (s.lantern a).stored

theorem KeepsReceipt.refl (s : State) : KeepsReceipt s s := ⟨fun _ _ => rfl, fun _ => rfl⟩

theorem KeepsReceipt.trans (h : KeepsReceipt s t) (h' : KeepsReceipt t u) : KeepsReceipt s u :=
  ⟨fun a b => (h'.1 a b).trans (h.1 a b), fun a => (h'.2 a).trans (h.2 a)⟩

theorem keepsReceipt_modLink (s : State) (n l : Nat) {g : Link → Link} (h : ∀ k, (g k).rxSeq = k.rxSeq) :
    KeepsReceipt s (s.modLink n l g) :=
  ⟨fun _ _ => State.link_modLink_keeps Link.rxSeq h, fun _ => State.lantern_modLantern_keeps Lantern.stored (fun _ => rfl)⟩

theorem keepsReceipt_modLantern (s : State) (n : Nat) {g : Lantern → Lantern}
    (h : ∀ x, (g x).links = x.links ∧ (g x).stored = x.stored) : KeepsReceipt s (s.modLantern n g) :=
  ⟨fun _ _ => by rw [State.link_modLantern (fun x => (h x).1)],
    fun _ => State.lantern_modLantern_keeps Lantern.stored (fun x => (h x).2)⟩

theorem dropFrame_keepsReceipt (n : Nat) (s : State) : KeepsReceipt s (dropFrame n s) := by
  unfold dropFrame
  exact keepsReceipt_modLantern s n (fun _ => ⟨rfl, rfl⟩)

theorem freeIngress_keepsReceipt (q : QFrame) (s : State) : KeepsReceipt s (freeIngress q s) := by
  unfold freeIngress
  split
  · exact keepsReceipt_modLink _ _ _ (fun _ => rfl)
  · exact .refl s

theorem enqueue_keepsReceipt (n l : Nat) (q : QFrame) (s : State) : KeepsReceipt s (enqueue n l q s) := by
  unfold enqueue
  split
  · exact (dropFrame_keepsReceipt n s).trans (freeIngress_keepsReceipt _ _)
  · exact keepsReceipt_modLink _ _ _ (fun _ => rfl)

theorem forwardStored_keepsReceipt (f : Frame) (i : Option (Nat × Nat)) (s : State) : KeepsReceipt s (forwardStored f i s) := by
  unfold forwardStored
  extract_lets path q
  split
  · split
    · exact enqueue_keepsReceipt _ _ _ _
    · exact (dropFrame_keepsReceipt 0 s).trans (freeIngress_keepsReceipt _ _)
  · split
    · exact enqueue_keepsReceipt _ _ _ _
    · exact (show KeepsReceipt s _ from .refl s).trans (freeIngress_keepsReceipt _ _)

/-- A frame put in a queue stands there, unless a v2 link cannot carry its payload. -/
theorem mem_enqueue (q : QFrame) (s : State) (h : l = 1 → q.frame.len ≤ 2048) :
    q ∈ tget ((enqueue n l q s).link n l).queues (if l = 1 then min 3 q.frame.cls else q.frame.cls) [] := by
  rw [enqueue, if_neg (fun hl => absurd (h hl.1) (Nat.not_le.mpr hl.2)), State.link_modLink_same, tget_tmod_same]
  exact List.mem_append_right _ (List.mem_singleton_self q)

end

end Sys2Proof.Machine

/-! # Frames delivered and passed on

What a DATA, a WAKE, a heartbeat or a DEAD_NOTICE frame comes to once the checks of R498 have decided, and the clauses on DATA frames
in transit (R506 to R509, R539). -/

namespace Sys2Proof.Machine

section
variable {s r : State} {n l m : Nat} {f : Frame} {o : FrameObs} {typ : BitVec 4} {p : Packet}

/-! ## Which case of its command a frame falls in -/

theorem Arrives.acts (h : Arrives n l typ f s) (t : Nat) (ht : typ.toNat = t) : (listens n l s && typeIs t f) = true := by
  obtain ⟨-, hl, rfl, -⟩ := h
  simp [hl, typeIs, ht]

/-- A frame with one hop less. -/
def passed (f : Frame) : Frame := { f with hops := f.hops - 1 }

/-- What is left of a frame that fails a check: its stomped copy, where it was cut through and proved bad (R509). -/
def refusedFrame (n l : Nat) (f : Frame) (s r : State) : State :=
  match cutEgress l f s with
  | some m => if copyBad n s r then stompOut m 0 (passed f) r else r
  | none => r

theorem dataFrame_of_refused (h : Arrives n l 1 f s) (hr : rxFrame n l true f o s = (false, r)) :
    exec (.dataFrame n l f o) s = .next (s.kept (refusedFrame n l f s r)) := by
  simp only [exec, execDataFrame]
  rw [actIf_of_live h.1 (h.acts 1 rfl), hr]
  rfl

theorem dataFrame_of_mine (h : Arrives n l 1 f s) (hr : rxFrame n l true f o s = (true, r)) (hd : f.dst = s.me)
    (hp : f.payload = .packet p) : exec (.dataFrame n l f o) s = .next (s.kept (deliverPacket n f.src p r)) := by
  simp only [exec, execDataFrame]
  rw [actIf_of_live h.1 (h.acts 1 rfl), hr]
  simp [hd, hp]

/-- A frame cut through is counted. -/
def countCut (n : Nat) (s : State) : State := s.modLantern n (fun x => { x with cutThrough := x.cutThrough + 1 })

theorem link_countCut (a b : Nat) (s : State) : (countCut n s).link a b = s.link a b := State.link_modLantern (by intro _; rfl)

theorem sameWays_countCut (s : State) : SameWays s (countCut n s) := sameWays_modLantern _ _ (by intro _; rfl)

theorem countCut_cutThrough (n : Nat) (s : State) : ((countCut n s).lantern n).cutThrough = (s.lantern n).cutThrough + 1 := by
  rw [countCut, State.lantern_modLantern_same]

theorem dataFrame_of_transit (h : Arrives n l 1 f s) (hr : rxFrame n l true f o s = (true, r)) (hd : f.dst ≠ s.me)
    (hf : forwards s = true) : exec (.dataFrame n l f o) s = .next (s.kept (
      if f.hops ≤ 1 then dropFrame n r
      else match cutEgress l f s with
        | some m => seqOut m 0 { frame := (passed f) } (r.modLantern n (fun x => { x with cutThrough := x.cutThrough + 1 }))
        | none => storeFrame n l (passed f) r)) := by
  simp only [exec, execDataFrame]
  rw [actIf_of_live h.1 (h.acts 1 rfl), hr]
  simp only [hd, hf, if_false, Bool.not_true, Bool.false_eq_true]
  rfl

/-- A frame is cut through only where it has another destination, hops left, and this device forwards (R507). -/
theorem cutEgress_some (h : cutEgress l f s = some m) : l = 0 ∧ f.dst ≠ s.me ∧ 1 < f.hops ∧ forwards s = true := by
  unfold cutEgress at h
  split at h
  · cases h
  next hc =>
    simp only [not_or, ne_eq, not_not, Nat.not_le, Bool.not_eq_true, Bool.not_eq_false'] at hc
    obtain ⟨hl, hd, hh, -, hf⟩ := hc
    exact ⟨hl, hd, hh, hf⟩

/-! ## A frame out of its turn -/

theorem copyBad_of_lantern (h : ∀ c : Lantern → Nat, (∀ (x : Lantern) (y : Tab Link), c { x with links := y } = c x) →
    c (r.lantern n) = c (s.lantern n)) : copyBad n s r = false := by
  simp [copyBad, h Lantern.fecUncorr (fun _ _ => rfl), h Lantern.crcFail (fun _ _ => rfl), h Lantern.authFail (fun _ _ => rfl)]

/-- The state in which a frame out of its turn was heard. -/
def heardOutOfTurn (n l : Nat) (f : Frame) (s : State) : State :=
  if seqBefore (s.link n l).rxSeq f.fseq then nakDue n l (heard n l s) else heard n l s

theorem heardOutOfTurn_onlyChanges : OnlyChanges [.rail] s (heardOutOfTurn n l f s) := by
  unfold heardOutOfTurn
  split
  · exact (modLink_onlyChanges _ _ _ _).trans (nakDue_onlyChanges _ _ _)
  · exact modLink_onlyChanges _ _ _ _

theorem lantern_heardOutOfTurn {α : Type} (c : Lantern → α) (h : ∀ (x : Lantern) (y : Tab Link), c { x with links := y } = c x) :
    c ((heardOutOfTurn n l f s).lantern m) = c (s.lantern m) := by
  have hh : c ((heard n l s).lantern m) = c (s.lantern m) := State.lantern_modLantern_keeps c (fun _ => h _ _)
  unfold heardOutOfTurn
  split
  · exact (State.lantern_modLantern_keeps c (fun _ => h _ _)).trans hh
  · exact hh

theorem link_heardOutOfTurn : (heardOutOfTurn n l f s).link n l = { (s.link n l).hear with
    ctlq := (s.link n l).ctlq ++ if seqBefore (s.link n l).rxSeq f.fseq then [ownFrame s 3 (s.link n l).peer .none] else [] } := by
  have hh : (heard n l s).link n l = (s.link n l).hear := State.link_modLink_same ..
  unfold heardOutOfTurn
  split
  · rw [nakDue, enqueueCtl, State.link_modLink_same, hh]
    rfl
  · rw [hh, List.append_nil]
    rfl

theorem dataFrame_outOfTurn (h : Arrives n l 1 f s) (hq : f.fseq ≠ (s.link n l).rxSeq) :
    Completes (.dataFrame n l f (genuine n l f s)) s (fun t =>
      (t.link n l).rxSeq = (s.link n l).rxSeq ∧ (t.link n l).unacked = (s.link n l).unacked ∧
      (t.lantern n).rxFrames = (s.lantern n).rxFrames ∧
      (t.link n l).ctlq = (s.link n l).ctlq ++ (if seqBefore (s.link n l).rxSeq f.fseq then [ownFrame s 3 (s.link n l).peer .none] else []) ∧
      OnlyChanges [.rail] s t) := by
  have hr : refusedFrame n l f s (heardOutOfTurn n l f s) = heardOutOfTurn n l f s := by
    unfold refusedFrame
    rw [copyBad_of_lantern (fun c hc => lantern_heardOutOfTurn c hc)]
    split <;> rfl
  refine ⟨_, dataFrame_of_refused h (rxFrame_of_outOfTurn h (by decide) hq), ?_⟩
  rw [← heardOutOfTurn, hr]
  have hl := link_heardOutOfTurn (s := s) (n := n) (l := l) (f := f)
  exact ⟨(congrArg Link.rxSeq hl :), (congrArg Link.unacked hl :), lantern_heardOutOfTurn Lantern.rxFrames (fun _ _ => rfl),
    (congrArg Link.ctlq hl :), heardOutOfTurn_onlyChanges.kept⟩

/-! ## A frame in transit -/

/-- What an egress puts on a frame that it sends (R495, R496, R501) reads of its link only its keys, its peer and its sender. -/
theorem wireOf_eq {k k' : Link} (hp : k'.peer = k.peer) (h0 : k'.key0 = k.key0) (h1 : k'.key1 = k.key1) (hs : k'.txSeq = k.txSeq)
    (hg : k'.txGen = k.txGen) (hc : k'.txCtl = k.txCtl) (hcg : k'.txCtlGen = k.txCtlGen) (me : Nat) (g : Frame) (b : Bool) :
    wireOf me k' g b = wireOf me k g b := by
  have hk (d : Nat) : k'.key d = k.key d := by simp only [Link.key, h0, h1]
  simp only [wireOf, hp, hk, hs, hg, hc, hcg]

theorem wireOf_hear (k : Link) (me : Nat) (g : Frame) (b : Bool) : wireOf me k.hear g b = wireOf me k g b :=
  wireOf_eq rfl rfl rfl rfl rfl rfl rfl me g b

theorem wireOf_took (k : Link) (me : Nat) (g : Frame) (b : Bool) : wireOf me (k.took true f) g b = wireOf me k g b :=
  wireOf_eq rfl rfl rfl rfl rfl rfl rfl me g b

theorem wireOf_tookIn (me a c : Nat) (g : Frame) (b : Bool) :
    wireOf me ((tookIn n l true f s).link a c) g b = wireOf me (s.link a c) g b :=
  link_tookIn (wireOf me · g b) (fun k => wireOf_hear k me g b) (fun k => wireOf_took k me g b)

/-- The state in which a frame with a bad CRC was heard. -/
def heardBad (n l : Nat) (s : State) : State :=
  nakDue n l ((heard n l s).modLantern n (fun x => { x with crcFail := x.crcFail + 1 }))

theorem heardBad_onlyChanges : OnlyChanges [.rail] s (heardBad n l s) :=
  ((modLink_onlyChanges _ _ _ _).trans (modLantern_onlyChanges _ _ _)).trans (nakDue_onlyChanges _ _ _)

theorem link_heardBad {α : Type} (p : Link → α) (hh : ∀ k : Link, p k.hear = p k)
    (hq : ∀ (k : Link) (q : List Frame), p { k with ctlq := q } = p k) : p ((heardBad n l s).link m 0) = p (s.link m 0) := by
  have hl : ((heard n l s).modLantern n (fun x => { x with crcFail := x.crcFail + 1 })).link m 0 = (heard n l s).link m 0 :=
    State.link_modLantern (fun _ => rfl)
  refine (State.link_modLink_keeps p (fun _ => hq _ _)).trans ?_
  rw [hl, link_heard p hh]

theorem heardBad_crcFail : ((heardBad n l s).lantern n).crcFail = (s.lantern n).crcFail + 1 := by
  have hh : ((heard n l s).lantern n).crcFail = (s.lantern n).crcFail :=
    State.lantern_modLantern_keeps Lantern.crcFail (by intro _; rfl)
  rw [← hh]
  refine (State.lantern_modLantern_keeps Lantern.crcFail (by intro _; rfl)).trans ?_
  rw [State.lantern_modLantern_same]

/-- The frame an egress sends of a frame in transit, cut through or stomped (R507, R509). -/
def egressFrame (m : Nat) (f : Frame) (s : State) : Frame :=
  { f with hops := f.hops - 1, version := linkVersion 0 (s.link m 0).st, fseq := (s.link m 0).txSeq, ackSeq := (s.link m 0).rxSeq }

theorem stompOut_heardBad : stompOut m 0 (passed f) (heardBad n l s) = (heardBad n l s).emit
    (.frame m 0 (egressFrame m f s) (wireOf s.me (s.link m 0) (egressFrame m f s) true) true) := by
  have hg : egressFrame m f (heardBad n l s) = egressFrame m f s := by
    simp only [egressFrame, link_heardBad Link.st (fun _ => rfl) (fun _ _ => rfl),
      link_heardBad Link.txSeq (fun _ => rfl) (fun _ _ => rfl), link_heardBad Link.rxSeq (fun _ => rfl) (fun _ _ => rfl)]
  have hw (g : Frame) : wireOf (heardBad n l s).me ((heardBad n l s).link m 0) g true = wireOf s.me (s.link m 0) g true :=
    link_heardBad (wireOf s.me · g true) (fun k => wireOf_hear k s.me g true)
      (fun _ _ => wireOf_eq rfl rfl rfl rfl rfl rfl rfl _ _ _)
  rw [← hw, ← hg]
  rfl

theorem dataFrame_stomped (h : Arrives n l 1 f s) (hc : cutEgress l f s = some m) :
    Completes (.dataFrame n l f { crc := .bad }) s (fun t =>
      (∃ g, g = { f with
          hops := f.hops - 1, version := linkVersion 0 (s.link m 0).st, fseq := (s.link m 0).txSeq,
          ackSeq := (s.link m 0).rxSeq } ∧ t.out = s.out ++ [.frame m 0 g (wireOf s.me (s.link m 0) g true) true]) ∧
      (t.link m 0).txSeq = (s.link m 0).txSeq ∧ (t.lantern n).crcFail = (s.lantern n).crcFail + 1 ∧
      OnlyChanges [.rail, .out] s t) := by
  have hbad : copyBad n s (heardBad n l s) = true := by simp [copyBad, heardBad_crcFail]
  have hr : refusedFrame n l f s (heardBad n l s) = stompOut m 0 (passed f) (heardBad n l s) := by simp [refusedFrame, hc, hbad]
  refine ⟨_, dataFrame_of_refused h (rxFrame_of_badCrc h.2.2.2.2), ?_⟩
  rw [← heardBad, hr, stompOut_heardBad]
  refine ⟨⟨egressFrame m f s, rfl, rfl⟩, ?_, ?_,
    ((heardBad_onlyChanges.mono (by simp)).trans ((emit_onlyChanges _ _).mono (by simp))).kept⟩
  · simp only [State.kept_link, State.emit_link, link_heardBad Link.txSeq (fun _ => rfl) (fun _ _ => rfl)]
  · simp only [State.kept_lantern, State.emit_lantern, heardBad_crcFail]

/-- Sending a frame moves its sender on; no receiver moves. -/
theorem seqOut_onlyChanges (m l : Nat) (q : QFrame) (s : State) : OnlyChanges [.rail, .out] s (seqOut m l q s) := by
  unfold seqOut
  extract_lets k g0 g s1 s2
  have h1 : OnlyChanges [.rail, .out] s s1 :=
    (((modLantern_onlyChanges _ _ _).mono (by simp)).trans ((emit_onlyChanges _ _).mono (by simp))).trans
      ((modLink_onlyChanges _ _ _ _).mono (by simp))
  exact (h1.trans ((modLantern_onlyChanges _ _ _).mono (by simp))).trans ((freeIngress_onlyChanges _ _).mono (by simp))

/-- Without an ingress no Platform unit returns. -/
theorem freeIngress_local (f : Frame) (p : Option (Nat × W32 × Nat)) (s : State) : freeIngress { frame := f, packet := p } s = s := rfl

theorem seqOut_cut_out (m : Nat) (f : Frame) (s : State) : (seqOut m 0 { frame := passed f } s).out =
    s.out ++ [.frame m 0 (egressFrame m f s) (wireOf s.me (s.link m 0) (egressFrame m f s) false) false] := by
  simp only [seqOut, freeIngress_local, State.modLantern_out, State.modLink_out, frameOut, State.emit]
  rfl

theorem seqOut_cut_keeps {c : Lantern → Nat} (m a b : Nat) (f : Frame) (s : State)
    (hl : ∀ (x : Lantern) (y : Tab Link), c { x with links := y } = c x)
    (ht : ∀ (x : Lantern) (y : Nat), c { x with txFrames := y } = c x)
    (hc : ∀ (x : Lantern) (y : Tab ClassCnt), c { x with classes := y } = c x) :
    ((seqOut m 0 { frame := passed f } s).link a b).rxSeq = (s.link a b).rxSeq ∧
    c ((seqOut m 0 { frame := passed f } s).lantern a) = c (s.lantern a) := by
  simp only [seqOut, freeIngress_local]
  constructor
  · rw [State.link_modLantern (by intro _; rfl)]
    refine (State.link_modLink_keeps Link.rxSeq (by intro _; rfl)).trans ?_
    rw [frameOut, State.emit_link, State.link_modLantern (by intro _; rfl)]
  · refine (State.lantern_modLantern_keeps c (fun _ => hc _ _)).trans ((State.lantern_modLantern_keeps c (fun _ => hl _ _)).trans ?_)
    exact State.lantern_modLantern_keeps c (fun _ => ht _ _)

/-- The state in which a frame taken for an egress has left through it. -/
def cutOut (n l m : Nat) (f : Frame) (s : State) : State := seqOut m 0 { frame := passed f } (countCut n (tookIn n l true f s))

theorem cutOut_out (n l m : Nat) (f : Frame) (s : State) : ∃ g : Frame,
    (cutOut n l m f s).out = s.out ++ [.frame m 0 g (wireOf s.me (s.link m 0) g false) false] ∧
    g.payload = f.payload ∧ g.dst = f.dst ∧ g.hops = f.hops - 1 ∧ g.fseq = (s.link m 0).txSeq := by
  have htx : ((countCut n (tookIn n l true f s)).link m 0).txSeq = (s.link m 0).txSeq := by
    rw [link_countCut]
    exact link_tookIn Link.txSeq (fun _ => rfl) (fun _ => rfl)
  refine ⟨egressFrame m f (countCut n (tookIn n l true f s)), ?_, by rw [egressFrame], by rw [egressFrame], by rw [egressFrame],
    by rw [egressFrame, htx]⟩
  have hme : (countCut n (tookIn n l true f s)).me = s.me := (sameWays_tookIn.trans (sameWays_countCut _)).me_eq
  have hout : (countCut n (tookIn n l true f s)).out = s.out := by rw [countCut, State.modLantern_out, tookIn_out]
  simp only [cutOut, seqOut_cut_out, link_countCut, wireOf_tookIn, hme, hout]

theorem cutOut_counts (n l m : Nat) (f : Frame) (s : State) :
    ((cutOut n l m f s).lantern n).cutThrough = (s.lantern n).cutThrough + 1 ∧
    ((cutOut n l m f s).link n l).rxSeq = (s.link n l).rxSeq + 1 := by
  obtain ⟨hrx, hct⟩ := seqOut_cut_keeps (c := Lantern.cutThrough) m n l f (countCut n (tookIn n l true f s)) (fun _ _ => rfl)
    (fun _ _ => rfl) (fun _ _ => rfl)
  have ht : ((tookIn n l true f s).lantern n).cutThrough = (s.lantern n).cutThrough :=
    tookIn_lantern Lantern.cutThrough (fun _ _ => rfl) (fun _ _ => rfl)
  exact ⟨by rw [cutOut, hct, countCut_cutThrough, ht], by rw [cutOut, hrx, link_countCut, tookIn_rxSeq]⟩

theorem cutOut_onlyChanges (n l m : Nat) (f : Frame) (s : State) : OnlyChanges [.rail, .out] s (cutOut n l m f s) :=
  ((tookIn_onlyChanges.trans (modLantern_onlyChanges _ _ _)).mono (by simp)).trans (seqOut_onlyChanges _ _ _ _)

theorem dataFrame_cutThrough (h : Arrives n l 1 f s) (hq : f.fseq = (s.link n l).rxSeq) (hc : cutEgress l f s = some m) :
    Completes (.dataFrame n l f (genuine n l f s)) s (fun t =>
      (∃ g, t.out = s.out ++ [.frame m 0 g (wireOf s.me (s.link m 0) g false) false] ∧ g.payload = f.payload ∧ g.dst = f.dst ∧
        g.hops = f.hops - 1 ∧ g.fseq = (s.link m 0).txSeq) ∧
      (t.lantern n).cutThrough = (s.lantern n).cutThrough + 1 ∧ (t.link n l).rxSeq = (s.link n l).rxSeq + 1 ∧
      OnlyChanges [.rail, .out] s t) := by
  obtain ⟨-, hd, hh, hf⟩ := cutEgress_some hc
  have he := dataFrame_of_transit h (rxFrame_of_taken h (by decide) (fun _ => hq)) hd hf
  rw [if_neg (Nat.not_le.mpr hh), hc] at he
  obtain ⟨hct, hrx⟩ := cutOut_counts n l m f s
  refine ⟨s.kept (cutOut n l m f s), he, ?_, ?_, ?_, (cutOut_onlyChanges n l m f s).kept⟩
  · simp only [State.kept_out]
    exact cutOut_out n l m f s
  · rw [State.kept_lantern, hct]
  · rw [State.kept_link, hrx]

/-! ## A frame stored -/

theorem storeFrame_onlyChanges (n l : Nat) (f : Frame) (s : State) : OnlyChanges [.rail, .rc, .ho] s (storeFrame n l f s) := by
  unfold storeFrame
  extract_lets key s1 s2
  have h1 : OnlyChanges [.rail] s s1 := (modLantern_onlyChanges _ _ _).trans (modLink_onlyChanges _ _ _ _)
  have h2 : OnlyChanges [.rail, .rc, .ho] s s2 := (h1.mono (by simp)).trans ((forwardStored_onlyChanges _ _ _).mono (by simp))
  split
  · exact h2.trans ((onlyChanges_set_ho _ _).mono (by simp))
  · exact h2

theorem pfTouch_keepsReceipt (a c : Nat) (s : State) : KeepsReceipt s (pfTouch a c s) := ⟨fun _ _ => rfl, fun _ => rfl⟩

/-- A transit frame is counted and its unit's credit is held (R506). -/
def countStored (n l key : Nat) (s : State) : State :=
  (s.modLantern n (fun x => { x with stored := x.stored + 1 })).modLink n l (fun k => { k with given := tmod k.given key 0 (· + 1) })

theorem countStored_stored (n l key : Nat) (s : State) :
    ((countStored n l key s).lantern n).stored = (s.lantern n).stored + 1 := by
  refine (State.lantern_modLantern_keeps Lantern.stored (by intro _; rfl)).trans ?_
  rw [State.lantern_modLantern_same]

theorem countStored_rxSeq (n l key : Nat) (s : State) : ((countStored n l key s).link n l).rxSeq = (s.link n l).rxSeq := by
  refine (State.link_modLink_keeps Link.rxSeq (by intro _; rfl)).trans ?_
  rw [State.link_modLantern (by intro _; rfl)]

theorem storeFrame_keepsReceipt (n l : Nat) (f : Frame) (s : State) :
    KeepsReceipt (countStored n l (creditKey f) s) (storeFrame n l f s) := by
  have hf := forwardStored_keepsReceipt f (some (2 * n + l, creditKey f)) (countStored n l (creditKey f) s)
  unfold storeFrame
  extract_lets key s1 s2
  split
  · exact hf.trans (pfTouch_keepsReceipt _ _ _)
  · exact hf

theorem dataFrame_stored (h : Arrives n l 1 f s) (hq : f.fseq = (s.link n l).rxSeq) (hd : f.dst ≠ s.me) (hf : forwards s = true)
    (hc : cutEgress l f s = none) : Completes (.dataFrame n l f (genuine n l f s)) s (fun t =>
      (1 < f.hops → (t.lantern n).stored = (s.lantern n).stored + 1) ∧
      (f.hops ≤ 1 → (t.lantern n).dropped = (s.lantern n).dropped + 1 ∧ OnlyChanges [.rail] s t) ∧
      (t.link n l).rxSeq = (s.link n l).rxSeq + 1 ∧ OnlyChanges [.rail, .rc, .ho] s t) := by
  have he := dataFrame_of_transit h (rxFrame_of_taken h (by decide) (fun _ => hq)) hd hf
  rw [hc] at he
  have hst : ((tookIn n l true f s).lantern n).stored = (s.lantern n).stored :=
    tookIn_lantern Lantern.stored (fun _ _ => rfl) (fun _ _ => rfl)
  have hdr : ((tookIn n l true f s).lantern n).dropped = (s.lantern n).dropped :=
    tookIn_lantern Lantern.dropped (fun _ _ => rfl) (fun _ _ => rfl)
  refine ⟨_, he, ?_⟩
  by_cases hh : f.hops ≤ 1
  · have hto : OnlyChanges [.rail] s (s.kept (dropFrame n (tookIn n l true f s))) :=
      (tookIn_onlyChanges.trans (modLantern_onlyChanges _ _ _)).kept
    rw [if_pos hh]
    refine ⟨fun hn => absurd hn (Nat.not_lt.mpr hh), fun _ => ⟨?_, hto⟩, ?_, hto.mono (by simp)⟩
    · rw [State.kept_lantern, dropFrame, State.lantern_modLantern_same, hdr]
    · rw [State.kept_link, (dropFrame_keepsReceipt _ _).1, tookIn_rxSeq]
  · obtain ⟨hr, hs⟩ := storeFrame_keepsReceipt n l (passed f) (tookIn n l true f s)
    rw [if_neg hh]
    refine ⟨fun _ => ?_, fun hn => absurd hn hh, ?_, ?_⟩
    · rw [State.kept_lantern, hs, countStored_stored, hst]
    · rw [State.kept_link, hr, countStored_rxSeq, tookIn_rxSeq]
    · exact ((tookIn_onlyChanges.mono (by simp)).trans (storeFrame_onlyChanges _ _ _ _)).kept

end

end Sys2Proof.Machine

/-! # Packets for this node

What acknowledging a packet, receiving a message and ending a connection's work change, and the clauses on packets and WAKE frames that
reach their destination (R63, R518, R552, R553). -/

namespace Sys2Proof.Machine

section
variable {s t : State} {n l c : Nat} {f : Frame} {p : Packet}

/-! ## Frames of sending a packet -/

theorem railUse_onlyChanges (c x : Nat) (s : State) : OnlyChanges [.ft] s (railUse c x s) := by
  unfold railUse
  split
  · exact .refl _ s
  · exact onlyChanges_set_ft _ _

theorem launch_onlyChanges (c dst : Nat) (p : Packet) (b : Bool) (s : State) :
    OnlyChanges [.rail, .rc, .ft] s (launch c dst p b s).1 := by
  have he (a d : Nat) (q : QFrame) (u : State) : OnlyChanges [.rail, .rc, .ft] u (enqueue a d q u) :=
    (enqueue_onlyChanges a d q u).mono (by simp)
  unfold launch
  extract_lets x k path p' f0 f q s1
  have h1 : OnlyChanges [.rail, .rc, .ft] s s1 :=
    ((railUse_onlyChanges _ _ _).mono (by simp)).trans (((onlyChanges_set_rc _ _).mono (by simp)).trans
      ((modConn_onlyChanges _ _ _).mono (by simp)))
  clear_value s1 k
  dsimp only
  split
  · exact h1.trans (he _ _ _ _)
  · split
    · exact h1.trans (he _ _ _ _)
    · exact h1

theorem ackPacket_onlyChanges (c src srcConn : Nat) (i q : W32) (o : Nat) (s : State) :
    OnlyChanges [.rail, .rc, .ft] s (ackPacket c src srcConn i q o s) := launch_onlyChanges _ _ _ _ s

theorem pump_onlyChanges (c k : Nat) (s : State) : OnlyChanges [.rail, .rc, .ft] s (pump c k s) := by
  induction k generalizing s with
  | zero => exact .refl _ s
  | succ k ih =>
    unfold pump
    extract_lets x
    split
    · exact .refl _ s
    · split
      · exact .refl _ s
      · exact ((launch_onlyChanges _ _ _ _ _).trans ((modConn_onlyChanges _ _ _).mono (by simp))).trans (ih _)

theorem mgmtSend_onlyChanges (dst : Nat) (m : Ctl) (s : State) : OnlyChanges [.rail, .rc, .ft] s (mgmtSend dst m s) :=
  .trans (((modConn_onlyChanges _ _ _).trans (modConn_onlyChanges _ _ _)).mono (by simp)) (pump_onlyChanges _ _ _)

/-! ## Frames of receiving a message -/

/-- What a message that is received, and a connection that ends with it, may change. -/
def messageZones : List Zone := [.host, .work, .tt, .ft, .tn, .out, .rail, .rc, .mem, .waybill, .groves, .ho]

theorem messageZones_of_send (h : OnlyChanges [.rail, .rc, .ft] s t) : OnlyChanges messageZones s t := h.mono (by decide)

theorem complete_messageZones (w : Work) (st : Status) (r : Nat) (s : State) (fr : BitVec 16) :
    OnlyChanges messageZones s (complete w st r s fr) := (complete_onlyChanges w st r s fr).mono (by decide)

theorem completeWid_messageZones (i : Nat) (st : Status) (r : Nat) (s : State) (fr : BitVec 16) :
    OnlyChanges messageZones s (completeWid i st r s fr) := by
  unfold completeWid
  split
  · exact complete_messageZones _ _ _ _ _
  · exact .refl _ s

theorem modConn_messageZones (s : State) (c : Nat) (g : Conn → Conn) : OnlyChanges messageZones s (s.modConn c g) :=
  (modConn_onlyChanges s c g).mono (by decide)

theorem settleSlot_messageZones (k : Nat) (s : State) : OnlyChanges messageZones s (settleSlot k s) := by
  unfold settleSlot
  split
  · exact .trans ((modSlot_onlyChanges s k _).mono (by decide)) (onlyChanges_foldl (fun _ _ => complete_messageZones _ _ _ _ _) _ _)
  · exact .refl _ s

theorem slotDone_messageZones (k : Nat) (s : State) : OnlyChanges messageZones s (slotDone k s) :=
  .trans ((modSlot_onlyChanges s k _).mono (by decide)) (settleSlot_messageZones _ _)

theorem leaveRx_messageZones (c : Nat) (m : RxMsg) (s : State) : OnlyChanges messageZones s (leaveRx c m s) := by
  unfold leaveRx
  extract_lets rc s0 s1 s2
  have h0 : OnlyChanges messageZones s s0 := by
    unfold s0
    split
    · exact (onlyChanges_set_rc _ _).mono (by decide)
    · exact .refl _ s
  have h2 : OnlyChanges messageZones s1 s2 := by
    unfold s2
    split
    · exact slotDone_messageZones _ _
    · exact .refl _ _
  exact ((h0.trans (modConn_messageZones _ _ _)).trans h2).trans (messageZones_of_send (ackPacket_onlyChanges _ _ _ _ _ _ _))

theorem dropCtls_messageZones (c k : Nat) (s : State) : OnlyChanges messageZones s (dropCtls c k s) := by
  induction k generalizing s with
  | zero => exact .refl _ s
  | succ k ih =>
    unfold dropCtls
    split
    · exact (leaveRx_messageZones _ _ _).trans (ih _)
    · exact .refl _ s

theorem discardRx_messageZones (c : Nat) (s : State) : OnlyChanges messageZones s (discardRx c s) := by
  refine (modConn_messageZones s c _).trans (onlyChanges_foldl (fun u m => ?_) _ _)
  split
  · exact slotDone_messageZones _ _
  · exact .refl _ _

theorem regionWrite_onlyChanges (g : Region) (o : Nat) (bs : List Byte) (s : State) :
    OnlyChanges [.mem, .waybill] s (regionWrite g o bs s) := by
  intro z hz
  cases z <;> simp [sameZone, regionWrite] at hz ⊢

theorem refWrite_messageZones (r : Ref) (o : Nat) (bs : List Byte) (s : State) : OnlyChanges messageZones s (refWrite r o bs s) := by
  unfold refWrite
  split
  · split
    · exact (regionWrite_onlyChanges _ _ _ _).mono (by decide)
    · exact .refl _ s
  · exact (onlyChanges_set_groves _ _).mono (by decide)
  · exact .refl _ s

theorem refPoison_messageZones (r : Ref) (o x : Nat) (s : State) : OnlyChanges messageZones s (refPoison r o x s) := by
  unfold refPoison
  split
  · split
    · exact (onlyChanges_set_mem _ _).mono (by decide)
    · exact .refl _ s
  · exact (onlyChanges_set_groves _ _).mono (by decide)
  · exact .refl _ s

theorem poisonRest_messageZones (w : Work) (s : State) : OnlyChanges messageZones s (poisonRest w s) := by
  unfold poisonRest
  split
  · exact .refl _ s
  · exact onlyChanges_foldl (fun _ _ => (refWrite_messageZones _ _ _ _).trans (refPoison_messageZones _ _ _ _)) _ _

theorem finishReq_messageZones (c : Nat) (w : Work) (st : Status) (r : Nat) (s : State) (fr : BitVec 16) :
    OnlyChanges messageZones s (finishReq c w st r s fr) :=
  (modConn_messageZones _ _ _).trans (complete_messageZones _ _ _ _ _)

theorem endConnWork_messageZones (c : Nat) (st : Status) (fr : BitVec 16) (s : State) :
    OnlyChanges messageZones s (endConnWork c st fr s) := by
  unfold endConnWork
  extract_lets x s1 s2
  have h1 : OnlyChanges messageZones s s1 := by
    refine onlyChanges_foldl (fun u i => ?_) _ _
    split
    · refine .trans ?_ (finishReq_messageZones _ _ _ _ _ _)
      split
      · exact poisonRest_messageZones _ _
      · exact .refl _ u
    · exact .refl _ u
  have h2 : OnlyChanges messageZones s1 s2 := by
    refine onlyChanges_foldl (fun u i => ?_) _ _
    split
    · exact finishReq_messageZones _ _ _ _ _ _
    · exact .refl _ u
  refine (h1.trans h2).trans (.trans ?_ (modConn_messageZones _ _ _))
  split
  · exact completeWid_messageZones _ _ _ _ _
  · exact .refl _ _

theorem sendProbe_messageZones (i : Nat) (s : State) : OnlyChanges messageZones s (sendProbe i s) :=
  .trans ((onlyChanges_set_tt _ _).mono (by decide)) (.trans ((onlyChanges_set_ho _ _).mono (by decide))
    (messageZones_of_send (mgmtSend_onlyChanges _ _ _)))

theorem probeOver_messageZones (c : Nat) (s : State) : OnlyChanges messageZones s (probeOver c s) := by
  refine onlyChanges_foldl (fun u i => ?_) _ _
  dsimp only
  split
  · split
    · exact sendProbe_messageZones _ _
    · exact .refl _ u
  · exact .refl _ u

theorem connFree_messageZones (c : Nat) (s : State) : OnlyChanges messageZones s (connFree c s) :=
  (((discardRx_messageZones _ _).trans (endConnWork_messageZones _ _ _ _)).trans (modConn_messageZones _ _ _)).trans
    (probeOver_messageZones _ _)

theorem tryClose_messageZones (c : Nat) (s : State) : OnlyChanges messageZones s (tryClose c s) := by
  unfold tryClose
  extract_lets x idle closer s1 s2
  split
  · exact .refl _ s
  · have h2 : OnlyChanges messageZones s s2 :=
      ((modConn_messageZones _ _ _).trans (messageZones_of_send (launch_onlyChanges _ _ _ _ _))).trans (connFree_messageZones _ _)
    clear_value s2 closer
    split
    · exact h2.trans (completeWid_messageZones _ _ _ _ _)
    · exact h2

theorem settleRx_messageZones (c : Nat) (s : State) : OnlyChanges messageZones s (settleRx c s) :=
  (dropCtls_messageZones _ _ _).trans (tryClose_messageZones _ _)

theorem rxMessage_messageZones (c src : Nat) (p : Packet) (s : State) : OnlyChanges messageZones s (rxMessage c src p s) := by
  have ha (u : State) : OnlyChanges messageZones u (ackPacket c src p.srcConn p.srcInc p.mseq p.offset u) :=
    messageZones_of_send (ackPacket_onlyChanges _ _ _ _ _ _ _)
  unfold rxMessage
  extract_lets x ack old m m' rc s1 s2
  split
  · exact ha s
  · split
    · exact ha s
    · split
      · exact (onlyChanges_set_rc _ _).mono (by decide)
      · have h1 : OnlyChanges messageZones s s1 := (onlyChanges_set_rc _ _).mono (by decide)
        have h2 : OnlyChanges messageZones s1 s2 := by
          unfold s2
          split
          · exact (modSlot_onlyChanges _ _ _).mono (by decide)
          · exact .refl _ _
        exact (((h1.trans h2).trans (((railUse_onlyChanges _ _ _).mono (by decide)).trans (modConn_messageZones _ _ _))).trans
          (ha _)).trans (settleRx_messageZones _ _)

/-! ## A packet for this node -/

theorem acceptable_tookIn {q : Bool} {src : Nat} : acceptable c src p (tookIn n l q f s) = acceptable c src p s := by
  have hw : SameWays s (tookIn n l q f s) := sameWays_tookIn
  simp only [acceptable, State.conn, tookIn_rc, hw.inc_eq, hw.deadInc_eq]

/-- A packet that fails the tests of R552 is counted. -/
def countStale (s : State) : State := { s with rc := { s.rc with stale := s.rc.stale + 1 } }

theorem link_countStale (s : State) (n l : Nat) : (countStale s).link n l = s.link n l := by
  simp only [State.link, State.lantern, countStale]

theorem dataFrame_stale (h : Arrives n l 1 f s) (hq : f.fseq = (s.link n l).rxSeq) (hd : f.dst = s.me) (hp : f.payload = .packet p)
    (ho : p.op ≠ 10) (ha : acceptable p.dstConn f.src p s = false) : Completes (.dataFrame n l f (genuine n l f s)) s (fun t =>
      t.rc = { s.rc with stale := s.rc.stale + 1 } ∧ (t.link n l).ackDue = true ∧ OnlyChanges [.rail, .rc] s t) := by
  have hs : deliverPacket n f.src p (tookIn n l true f s) = countStale (tookIn n l true f s) := by
    simp only [deliverPacket, ho, if_false, acceptable_tookIn, ha, Bool.not_false, if_true, countStale]
  have he := dataFrame_of_mine h (rxFrame_of_taken h (by decide) (fun _ => hq)) hd hp
  rw [hs] at he
  refine ⟨_, he, ?_, ?_, ?_⟩
  · simp only [State.kept_rc, countStale, tookIn_rc]
  · rw [State.kept_link, link_countStale, tookIn_ackDue]
  · exact ((tookIn_onlyChanges.mono (by simp)).trans ((onlyChanges_set_rc _ _).mono (by simp))).kept

/-! ## Waking from N2 -/

/-- A frame that wakes the node from N2 starts the exit and leaves its bit of WAKE_CAUSE (R63, R76). -/
theorem wakeRail_tookIn {q : Bool} (hs : s.power.st = .n2) (ht : s.power.trans = none) :
    wakeRail (tookIn n l q f s) = { tookIn n l q f s with
      power := { s.power with trans := some .fromN2, wakeCause := s.power.wakeCause ||| 4 } } := by
  rw [wakeRail, wakeBy_of_n2 (by rw [tookIn_power, ht]) (by rw [tookIn_power, hs]) (by decide), tookIn_power]
  rfl

theorem wake_fromN2 (h : Arrives n l 7 f s) (hq : f.fseq = (s.link n l).rxSeq) (hd : f.dst = s.me) (hs : s.power.st = .n2)
    (ht : s.power.trans = none) : Completes (.wake n l f (genuine n l f s)) s (fun t =>
      t.power = { s.power with trans := some .fromN2, wakeCause := s.power.wakeCause ||| 4 } ∧ OnlyChanges [.power, .rail] s t) := by
  have he : exec (.wake n l f (genuine n l f s)) s = .next (s.kept (wakeRail (tookIn n l true f s))) := by
    simp only [exec, execWake]
    rw [actIf_of_live h.1 (h.acts 7 rfl), rxFrame_of_taken h (by decide) (fun _ => hq)]
    simp [hd, hs]
  rw [wakeRail_tookIn hs ht] at he
  refine ⟨_, he, ?_, ?_⟩
  · simp only [State.kept_power]
  · exact ((tookIn_onlyChanges.mono (by simp)).trans ((onlyChanges_set_power _ _).mono (by simp))).kept

/-- A request that needs the Groves is one that `rxMessage` takes. -/
theorem deliverPacket_of_needsGroves {src : Nat} (hg : needsGroves p = true) (ha : acceptable p.dstConn src p s = true) :
    deliverPacket n src p s = rxMessage p.dstConn src p (wakeFor p s) := by
  have ho : p.op ≠ 10 := by
    intro hop
    simp [needsGroves, hop] at hg
  simp only [deliverPacket, ho, if_false, ha, Bool.not_true, Bool.false_eq_true]
  unfold needsGroves at hg
  split at hg <;> simp_all

theorem dataFrame_wakes (h : Arrives n l 1 f s) (hq : f.fseq = (s.link n l).rxSeq) (hd : f.dst = s.me) (hp : f.payload = .packet p)
    (ha : acceptable p.dstConn f.src p s = true) (hg : needsGroves p = true) (hs : s.power.st = .n2) (ht : s.power.trans = none) :
    Completes (.dataFrame n l f (genuine n l f s)) s (fun t =>
      t.power = { s.power with trans := some .fromN2, wakeCause := s.power.wakeCause ||| 4 }) := by
  have hw : wakeFor p (tookIn n l true f s) = wakeRail (tookIn n l true f s) := by
    rw [wakeFor, tookIn_power, if_pos ⟨hg, .inl hs⟩]
  have he := dataFrame_of_mine h (rxFrame_of_taken h (by decide) (fun _ => hq)) hd hp
  rw [deliverPacket_of_needsGroves hg (acceptable_tookIn.trans ha), hw, wakeRail_tookIn hs ht] at he
  refine ⟨_, he, ?_⟩
  simp only [State.kept_power, (rxMessage_messageZones _ _ _ _).power_eq (show Zone.power ∉ messageZones by decide)]

/-! ## A WRITE of one packet -/

theorem State.conn_modConn_keeps {α : Type} {g : Conn → Conn} {a : Nat} (r : Conn → α) (h : ∀ x, r (g x) = r x) :
    r ((s.modConn c g).conn a) = r (s.conn a) := by
  by_cases ha : a = c
  · subst ha
    rw [State.conn_modConn_same, h]
  · rw [show (s.modConn c g).conn a = s.conn a from tget_tmod_other _ _ _ _ _ ha]

/-- The messages being received on connections, and the region slots, are those of another state. -/
def SameHeld (s t : State) : Prop := (∀ a, (t.conn a).rx = (s.conn a).rx) ∧ t.rc.slots = s.rc.slots

theorem SameHeld.trans {u : State} (h : SameHeld s t) (h' : SameHeld t u) : SameHeld s u :=
  ⟨fun a => (h'.1 a).trans (h.1 a), h'.2.trans h.2⟩

theorem SameHeld.slot_eq {k : Nat} (h : SameHeld s t) : t.slot k = s.slot k := by simp only [State.slot, h.2]

theorem SameHeld.of_rc (h : t.rc = s.rc) : SameHeld s t := ⟨fun a => by simp only [State.conn, h], by rw [h]⟩

theorem enqueue_sameHeld (a d : Nat) (q : QFrame) (s : State) : SameHeld s (enqueue a d q s) :=
  .of_rc (of_decide_eq_true (enqueue_onlyChanges a d q s .rc (by decide)))

theorem railUse_rc (c x : Nat) (s : State) : (railUse c x s).rc = s.rc :=
  of_decide_eq_true (railUse_onlyChanges c x s .rc (by decide))

theorem railUse_sameHeld (c x : Nat) (s : State) : SameHeld s (railUse c x s) := .of_rc (railUse_rc c x s)

theorem countTx_sameHeld (s : State) : SameHeld s s.countTx := ⟨fun _ => by simp only [State.conn, State.countTx], rfl⟩

theorem modConn_sameHeld {g : Conn → Conn} (s : State) (c : Nat) (h : ∀ x, (g x).rx = x.rx) : SameHeld s (s.modConn c g) :=
  ⟨fun _ => State.conn_modConn_keeps Conn.rx h, rfl⟩

theorem launch_sameHeld (c dst : Nat) (p : Packet) (b : Bool) (s : State) : SameHeld s (launch c dst p b s).1 := by
  unfold launch
  extract_lets x k path p' f0 f q s1
  have h1 : SameHeld s s1 :=
    ((railUse_sameHeld _ _ _).trans (countTx_sameHeld _)).trans (modConn_sameHeld _ _ (by intro _; rfl))
  clear_value s1 k
  dsimp only
  split
  · exact h1.trans (enqueue_sameHeld _ _ _ _)
  · split
    · exact h1.trans (enqueue_sameHeld _ _ _ _)
    · exact h1

theorem ackPacket_sameHeld (c src srcConn : Nat) (i q : W32) (o : Nat) (s : State) :
    SameHeld s (ackPacket c src srcConn i q o s) := launch_sameHeld _ _ _ _ s

/-- A connection that holds a message of another kind than CONTROL neither drops one nor closes. -/
theorem settleRx_of_held {m : RxMsg} (h : (s.conn c).rx = [m]) (ho : m.op ≠ 12) : settleRx c s = s := by
  have hd (x : Conn) : dropsCtl c x m = false := by
    simp only [dropsCtl, beq_eq_false_iff_ne.mpr ho, Bool.false_and]
  have hs : dropCtls c 1 s = s := by simp [dropCtls, h, hd]
  simp [settleRx, h, hs, tryClose]

/-- The first packet of a message is held, and counts for its region slot. -/
def holdFirst (c src : Nat) (p : Packet) (m : RxMsg) (k : Nat) (s : State) : State :=
  (railUse c (pktData p).length (State.modSlot { s with rc := { s.rc with rxPkts := s.rc.rxPkts + 1 } } k
    (fun x => { x with inFlight := x.inFlight + 1 }))).modConn c (fun x =>
      { x with rx := x.rx.filter (fun y => !y.isOf c src p) ++ [m.add p] })

theorem holdFirst_rx {src k : Nat} {m : RxMsg} (hr : (s.conn c).rx = []) : ((holdFirst c src p m k s).conn c).rx = [m.add p] := by
  have hc : (railUse c (pktData p).length (State.modSlot { s with rc := { s.rc with rxPkts := s.rc.rxPkts + 1 } } k
    (fun x => { x with inFlight := x.inFlight + 1 }))).conn c = s.conn c := by
    simp only [State.conn, railUse_rc, State.modSlot]
  rw [holdFirst, State.conn_modConn_same, hc, hr]
  rfl

theorem holdFirst_slot {src k : Nat} {m : RxMsg} :
    (holdFirst c src p m k s).slot k = { s.slot k with inFlight := (s.slot k).inFlight + 1 } := by
  simp only [State.slot, holdFirst, State.modConn, railUse_rc, State.modSlot, tget_tmod_same]

theorem holdFirst_onlyChanges {src k : Nat} {m : RxMsg} : OnlyChanges [.rc, .ft] s (holdFirst c src p m k s) := by
  refine OnlyChanges.trans ?_ ((modConn_onlyChanges _ _ _).mono (by simp))
  refine OnlyChanges.trans ?_ ((railUse_onlyChanges _ _ _).mono (by simp))
  exact .trans ((onlyChanges_set_rc _ _).mono (by simp)) ((modSlot_onlyChanges _ _ _).mono (by simp))

theorem rxMessage_first {src k : Nat} {m : RxMsg} (hv : rxVisible c src p s = false) (hr : (s.conn c).rx = [])
    (hm : newRx c src p s = m) (hg : m.got = []) (hok : m.refused = none) (hk : m.slot = some k) (ho : m.op ≠ 12)
    (hfit : p.offset + (pktData p).length ≤ m.mlen) :
    rxMessage c src p s = ackPacket c src p.srcConn p.srcInc p.mseq p.offset (holdFirst c src p m k s) := by
  have hh : rxMessage c src p s = settleRx c (ackPacket c src p.srcConn p.srcInc p.mseq p.offset (holdFirst c src p m k s)) := by
    simp only [rxMessage, hv, hr, List.find?_nil, hm, hg, hok, hk, List.any_nil, Bool.false_eq_true, if_false,
      Nat.not_lt.mpr hfit, false_and, or_false, Option.isNone_none, Option.isSome_none, Bool.and_false, b2n, Nat.add_zero]
    rfl
  rw [hh]
  exact settleRx_of_held (((ackPacket_sameHeld _ _ _ _ _ _ _).1 c).trans (holdFirst_rx hr)) ho

/-- The message a WRITE of one packet starts (R553). -/
def writeMessage (src : Nat) (p : Packet) : RxMsg :=
  { mseq := p.mseq, op := 2, mlen := p.mlen.toNat, rkey := p.rkey, raddr := p.raddr, operand := p.operand,
    notify := if p.operand.getLsbD 15 then some (p.operand.toNat % 4096) else none, slot := some (p.rkey.toNat % 65536),
    src, srcConn := p.srcConn, srcInc := p.srcInc, cls := p.cls }

theorem newRx_write {src : Nat} (ho : p.op = 2) (hc : p.ctl = none) (hk : keyCheck src p false s = none) :
    newRx c src p s = writeMessage src p := by
  simp [newRx, namesRegion, ho, hc, hk, writeMessage]

theorem keyCheck_tookIn {src : Nat} {q b : Bool} : keyCheck src p b (tookIn n l q f s) = keyCheck src p b s := by
  have hw : SameWays s (tookIn n l q f s) := sameWays_tookIn
  have hd (i : Nat) : domainBase (tookIn n l q f s) i = domainBase s i := by simp only [domainBase, tookIn_img]
  have hx (k : Nat) : (tookIn n l q f s).slot k = s.slot k := by simp only [State.slot, tookIn_rc]
  unfold keyCheck
  dsimp only
  rw [hx, hw.me_eq, hd]

theorem dataFrame_write (h : Arrives n l 1 f s) (hq : f.fseq = (s.link n l).rxSeq) (hd : f.dst = s.me) (hp : f.payload = .packet p)
    (ho : p.op = 2) (hc : p.ctl = none) (hn : p.dstConn ≠ 0) (ha : acceptable p.dstConn f.src p s = true)
    (hr : (s.conn p.dstConn).rx = []) (hm : p.mseq = (s.conn p.dstConn).rxCum) (hk : keyCheck f.src p false s = none)
    (hs : s.power.st ≠ .n2) (ht : s.power.trans = none) (h0 : p.offset = 0) (hl : p.mlen.toNat = p.data.length) :
    Completes (.dataFrame n l f (genuine n l f s)) s (fun t =>
      (∃ m, (t.conn p.dstConn).rx = [m] ∧ m.mseq = p.mseq ∧ m.op = 2 ∧ m.got = [(0, p.data)] ∧ m.raddr = p.raddr ∧ m.rkey = p.rkey ∧
        m.refused = none ∧ m.complete = true) ∧
      (t.slot (p.rkey.toNat % 65536)).inFlight = (s.slot (p.rkey.toNat % 65536)).inFlight + 1 ∧ OnlyChanges [.rail, .rc, .ft] s t) := by
  have hg : needsGroves p = true := by simp [needsGroves, ho]
  have hdata : pktData p = p.data := by simp [pktData, ho, hc]
  have hrc : (tookIn n l true f s).rc = s.rc := tookIn_rc
  have hw : wakeFor p (tookIn n l true f s) = tookIn n l true f s := by simp [wakeFor, hs, ht]
  have hv : rxVisible p.dstConn f.src p (tookIn n l true f s) = false := by simp [rxVisible, hn, State.conn, hm, seqBefore]
  have hx : ((tookIn n l true f s).conn p.dstConn).rx = [] := by rw [State.conn, hrc, ← State.conn, hr]
  have hsl (k : Nat) : (tookIn n l true f s).slot k = s.slot k := by simp only [State.slot, hrc]
  have hm' := newRx_write (c := p.dstConn) ho hc ((keyCheck_tookIn (n := n) (l := l) (f := f) (q := true)).trans hk)
  have he := dataFrame_of_mine h (rxFrame_of_taken h (by decide) (fun _ => hq)) hd hp
  rw [deliverPacket_of_needsGroves hg (acceptable_tookIn.trans ha), hw,
    rxMessage_first hv hx hm' rfl rfl rfl (show (2 : BitVec 4) ≠ 12 by decide)
      (by simp [writeMessage, hdata, h0, hl])] at he
  refine ⟨_, he, ⟨(writeMessage f.src p).add p, ?_, rfl, rfl, ?_, rfl, rfl, rfl, ?_⟩, ?_, ?_⟩
  · rw [State.kept_conn, (ackPacket_sameHeld _ _ _ _ _ _ _).1, holdFirst_rx hx]
  · simp [RxMsg.add, writeMessage, hdata, h0]
  · simp [RxMsg.add, RxMsg.complete, writeMessage, hdata, hl]
  · rw [State.kept_slot, (ackPacket_sameHeld _ _ _ _ _ _ _).slot_eq, holdFirst_slot, hsl]
  · exact (((tookIn_onlyChanges.mono (by simp)).trans (holdFirst_onlyChanges.mono (by simp))).trans
      (ackPacket_onlyChanges _ _ _ _ _ _ _)).kept

end

end Sys2Proof.Machine

/-! # A DEAD_NOTICE

A node that was declared dead takes a new incarnation, and its connections and its Timetable entries end (R519, R576). -/

namespace Sys2Proof.Machine

section
variable {s : State} {n l c i : Nat} {f : Frame} {x : Conn} {e : Entry}

/-! ## The parts of a new incarnation -/

/-- The new incarnation is taken, in the register and in the flash. -/
def nextInc (s : State) : State :=
  { s with rail := { s.rail with inc := s.rail.inc + 1 }, flash := { s.flash with incarnation := s.flash.incarnation + 1 } }

/-- The Timetable entries end. -/
def endEntries (s : State) : State := (s.tt.entries.map Prod.fst).foldl (fun s i => loseEntry i s) s

/-- The connections that R576 ends. -/
def openConns (s : State) : List Nat :=
  (s.rc.conns.filter (fun kv => decide (kv.1 ≠ 0) && kv.2.st != .free && kv.2.st != .error)).map Prod.fst

/-- They end. -/
def endConns (s : State) : State := (openConns s).foldl (fun s c => connError c .peerDead s) s

/-- The event of a new incarnation. -/
def incEvent (s : State) : State := event 0 0x0605 (s.rail.inc.toNat * 2 ^ 32) s

theorem incEvent_conn (s : State) (c : Nat) : (incEvent s).conn c = s.conn c := by simp only [State.conn, incEvent, event_rc]

theorem incEvent_entry (s : State) (i : Nat) : (incEvent s).entry i = s.entry i := by simp only [State.entry, incEvent, event_tt]

theorem newIncarnation_eq (s : State) : newIncarnation s = incEvent (endConns (endEntries (nextInc s))) := rfl

theorem deadNotice_mine (h : Arrives n l 6 f s) (hq : f.fseq = (s.link n l).rxSeq) (hd : f.dst = s.me) :
    exec (.deadNotice n l f (genuine n l f s)) s = .next (s.kept (newIncarnation (tookIn n l true f s))) := by
  simp only [exec, execDeadNotice]
  rw [actIf_of_live h.1 (h.acts 6 rfl), rxFrame_of_taken h (by decide) (fun _ => hq)]
  simp [hd]

theorem nextInc_onlyChanges (s : State) : OnlyChanges [.flash, .rail] s (nextInc s) := by
  intro z hz
  cases z <;> simp [sameZone, nextInc] at hz ⊢

theorem nextInc_inc (s : State) : (nextInc s).rail.inc = s.rail.inc + 1 := rfl

theorem nextInc_rc (s : State) : (nextInc s).rc = s.rc := rfl

theorem nextInc_tt (s : State) : (nextInc s).tt = s.tt := rfl

theorem nextInc_work (s : State) : (nextInc s).work = s.work := rfl

theorem tookIn_inc {q : Bool} : (tookIn n l q f s).rail.inc = s.rail.inc := sameWays_tookIn.inc_eq

theorem endEntries_of_none (h : s.tt.entries = []) : endEntries s = s := by simp [endEntries, h]

theorem openConns_of_mgmt (h : s.rc.conns = [(0, x)]) : openConns s = [] := by simp [openConns, h]

theorem endConns_of_mgmt (h : s.rc.conns = [(0, x)]) : endConns s = s := by simp [endConns, openConns_of_mgmt h]

theorem deadNotice_idle (h : Arrives n l 6 f s) (hq : f.fseq = (s.link n l).rxSeq) (hd : f.dst = s.me)
    (hc : s.rc.conns = [(0, s.conn 0)]) (he : s.tt.entries = []) : Completes (.deadNotice n l f (genuine n l f s)) s (fun t =>
      t.rail.inc = s.rail.inc + 1 ∧ t.flash.incarnation = s.flash.incarnation + 1 ∧
      ∃ u, OnlyChanges [.flash, .rail] s u ∧ t = s.kept (event 0 0x0605 ((s.rail.inc + 1).toNat * 2 ^ 32) u)) := by
  have hend : endConns (endEntries (nextInc (tookIn n l true f s))) = nextInc (tookIn n l true f s) := by
    rw [endEntries_of_none (by rw [nextInc_tt, tookIn_tt, he])]
    exact endConns_of_mgmt (by rw [nextInc_rc, tookIn_rc, hc])
  have hi : (nextInc (tookIn n l true f s)).rail.inc = s.rail.inc + 1 := by rw [nextInc_inc, tookIn_inc]
  have hx := deadNotice_mine h hq hd
  rw [newIncarnation_eq, hend, incEvent, hi] at hx
  refine ⟨_, hx, ?_, ?_, nextInc (tookIn n l true f s), ?_, rfl⟩
  · rw [State.kept_rail, event_rail, hi]
  · rw [State.kept_flash, event_flash, nextInc, tookIn_flash]
  · exact (tookIn_onlyChanges.mono (by simp)).trans (nextInc_onlyChanges _)

/-! ## A connection without work ends -/

theorem discardRx_of_none (h : (s.conn c).rx = []) : discardRx c s = s.modConn c (fun c => { c with rx := [] }) := by
  simp [discardRx, h]

theorem endConnWork_of_none {st : Status} {fr : BitVec 16} (hq : (s.conn c).queue = []) (hr : (s.conn c).recvs = [])
    (ho : (s.conn c).opener = none) : endConnWork c st fr s = s.modConn c (fun c => { c with opener := none }) := by
  simp [endConnWork, hq, hr, ho]

theorem probeOver_of_none (h : s.tt.entries = []) : probeOver c s = s := by simp [probeOver, h]

/-- A connection with no request, no message and no handoff goes to ERROR and does nothing else. -/
theorem connError_of_idle (hq : (s.conn c).queue = []) (hr : (s.conn c).recvs = []) (ho : (s.conn c).opener = none)
    (hx : (s.conn c).rx = []) (he : s.tt.entries = []) :
    ((connError c .peerDead s).conn c).st = .error ∧ (connError c .peerDead s).rail = s.rail := by
  have hd : ((s.modConn c (fun c => { c with rx := [] })).conn c) = { s.conn c with rx := [] } := State.conn_modConn_same ..
  have hw := endConnWork_of_none (s := s.modConn c (fun c => { c with rx := [] })) (c := c) (st := .peerDead) (fr := 0)
    (by rw [hd]; exact hq) (by rw [hd]; exact hr) (by rw [hd]; exact ho)
  unfold connError
  simp only [hq, List.filter_nil, List.isEmpty_nil, Bool.not_true, Bool.false_eq_true, or_false, reduceCtorEq, if_false,
    discardRx_of_none hx, hw]
  rw [probeOver_of_none (by simp only [State.modConn_tt, he]), State.conn_modConn_same]
  exact ⟨rfl, by simp only [State.modConn_rail]⟩

theorem deadNotice_connection (h : Arrives n l 6 f s) (hq : f.fseq = (s.link n l).rxSeq) (hd : f.dst = s.me) (h0 : c ≠ 0)
    (hc : s.rc.conns = [(0, s.conn 0), (c, x)]) (hst : x.st = .opened) (hqu : x.queue = []) (hr : x.recvs = [])
    (ho : x.opener = none) (hx : x.rx = []) (he : s.tt.entries = []) :
    Completes (.deadNotice n l f (genuine n l f s)) s (fun t => (t.conn c).st = .error ∧ t.rail.inc = s.rail.inc + 1) := by
  have htt : (nextInc (tookIn n l true f s)).tt.entries = [] := by rw [nextInc_tt, tookIn_tt, he]
  have hrc : (nextInc (tookIn n l true f s)).rc = s.rc := by rw [nextInc_rc, tookIn_rc]
  have hcx : (nextInc (tookIn n l true f s)).conn c = x := by
    rw [State.conn, hrc, hc]
    simp [tget, h0.symm]
  have hopen : openConns (nextInc (tookIn n l true f s)) = [c] := by simp [openConns, hrc, hc, h0, hst]
  have hend : endConns (nextInc (tookIn n l true f s)) = connError c .peerDead (nextInc (tookIn n l true f s)) := by
    simp [endConns, hopen]
  obtain ⟨herr, hrail⟩ := connError_of_idle (by rw [hcx, hqu]) (by rw [hcx, hr]) (by rw [hcx, ho]) (by rw [hcx, hx]) htt
  have hex := deadNotice_mine h hq hd
  rw [newIncarnation_eq, endEntries_of_none htt, hend] at hex
  refine ⟨_, hex, ?_, ?_⟩
  · rw [State.kept_conn, incEvent_conn, herr]
  · rw [State.kept_rail, incEvent, event_rail, hrail, nextInc_inc, tookIn_inc]

/-! ## An entry without work ends -/

/-- Returning an entry's pages leaves connections, links and work alone, and of the entry all but the pages and the list. -/
def pageZones : List Zone := [.mem, .waybill, .groves, .tt]

theorem returnPlaces_onlyChanges (k : Nat) (ps : List Nat) (s : State) : OnlyChanges [.mem] s (returnPlaces k ps s) := by
  refine onlyChanges_foldl (fun u g => ?_) _ _
  split
  · exact onlyChanges_set_mem _ _
  · exact .refl _ u

theorem freeList_onlyChanges (r : Nat) (s : State) : OnlyChanges [.mem, .waybill, .groves] s (freeList r s) := by
  unfold freeList
  split
  · exact .refl _ s
  · split
    · exact .refl _ s
    · exact (((regionWrite_onlyChanges _ _ _ _).mono (by simp)).trans ((onlyChanges_set_mem _ _).mono (by simp))).trans
        ((onlyChanges_set_groves _ _).mono (by simp))

/-- An entry whose list and reservation went back. -/
def emptied (e : Entry) : Entry := { e with list := 0, pages := 0, parcel := [], resPages := 0 }

theorem OnlyChanges.tt_eq {ps : List Zone} {s t : State} (h : OnlyChanges ps s t) (hp : .tt ∉ ps) : t.tt = s.tt :=
  of_decide_eq_true (h .tt hp)

theorem freeEntryList_onlyChanges (i : Nat) (s : State) : OnlyChanges pageZones s (freeEntryList i s) := by
  unfold freeEntryList
  extract_lets e s1
  have h1 : OnlyChanges pageZones s s1 := by
    unfold s1
    split
    · exact (returnPlaces_onlyChanges _ _ _).mono (by decide)
    · split
      · exact (freeList_onlyChanges _ _).mono (by decide)
      · exact .refl _ s
  exact h1.trans ((onlyChanges_set_tt _ _).mono (by decide))

theorem freeEntryList_entry (i : Nat) (s : State) :
    (freeEntryList i s).entry i = { s.entry i with list := 0, pages := 0, parcel := [] } := by
  unfold freeEntryList
  extract_lets e s1
  have h1 : s1.tt = s.tt := by
    unfold s1
    split
    · exact (returnPlaces_onlyChanges _ _ _).tt_eq (by decide)
    · split
      · exact (freeList_onlyChanges _ _).tt_eq (by decide)
      · rfl
  rw [State.entry_modEntry_same, State.entry, h1, ← State.entry]

theorem returnReserve_onlyChanges (i : Nat) (s : State) : OnlyChanges pageZones s (returnReserve i s) :=
  ((onlyChanges_set_mem _ _).mono (by decide)).trans ((onlyChanges_set_tt _ _).mono (by decide))

theorem returnReserve_entry (i : Nat) (s : State) : (returnReserve i s).entry i = { s.entry i with resPages := 0 } := by
  rw [returnReserve, State.entry_modEntry_same]
  rfl

theorem releaseRcv_of_none (h : (s.entry i).rcv = none) : releaseRcv i s = s := by simp [releaseRcv, h]

theorem chainUp_of_none {ct st : Byte} {o : Option W32} (h : (s.entry i).fromValid = false) : chainUp ct st i s o = s := by
  simp [chainUp, h]

/-- What an entry without a handoff is once it is LOST. -/
def lostEntry (cause : Byte) (e : Entry) : Entry :=
  { dropWithheld e with st := .lost, cause, snd := none, rcv := none, held := false, cancelPend := false, accepting := false }

/-- An entry that runs here, with no handoff, goes LOST and nothing is sent for it (R382). -/
theorem toLost_of_alone {cause : Byte} (hst : (s.entry i).st ≠ .stub) (hr : (s.entry i).rcv = none) (hv : (s.entry i).fromValid = false) :
    ∃ u, OnlyChanges pageZones s u ∧ (u.entry i).st = .lost ∧ (u.entry i).cause = cause ∧ (u.entry i).askers = (s.entry i).askers ∧
      toLost i cause s = ttEvent 0x0102 i u := by
  have hdet : detached i s = false := by simp [detached, hst]
  have he : (returnReserve i (freeEntryList i s)).entry i = emptied (s.entry i) := by
    rw [returnReserve_entry, freeEntryList_entry]
    rfl
  have hu : (putEntry i (lostEntry cause) (returnReserve i (freeEntryList i s))).entry i =
      { lostEntry cause (emptied (s.entry i)) with version := (s.entry i).version + 1 } := by
    rw [putEntry, State.entry_modEntry_same, he]
    rfl
  refine ⟨putEntry i (lostEntry cause) (returnReserve i (freeEntryList i s)), ?_, ?_, ?_, ?_, ?_⟩
  · exact ((freeEntryList_onlyChanges _ _).trans (returnReserve_onlyChanges _ _)).trans ((onlyChanges_set_tt _ _).mono (by decide))
  · rw [hu, lostEntry]
  · rw [hu, lostEntry]
  · rw [hu, lostEntry, dropWithheld, emptied]
  · have hc : chainUp 0x11 cause i (putEntry i (lostEntry cause) (returnReserve i (freeEntryList i s))) none =
        putEntry i (lostEntry cause) (returnReserve i (freeEntryList i s)) := chainUp_of_none (by rw [hu]; exact hv)
    simp only [toLost, hdet, releaseRcv_of_none hr, Bool.false_eq_true, if_false]
    exact congrArg (ttEvent 0x0102 i) hc

theorem ttEvent_onlyChanges (code i : Nat) (s : State) : OnlyChanges [.host, .out] s (ttEvent code i s) := event_onlyChanges

/-- Where no work and no cancel waits, nothing else happens at an entry that ends. -/
theorem failWaiting_of_none (hw : s.work = []) (ha : (s.entry i).askers = []) :
    failWaiting i s = s.modEntry i (fun e => { e with askers := [] }) := by
  simp [failWaiting, hw, applyAskers, ha]

/-- The sequences of the steps that an ended entry belongs to are gone (R576). -/
def noteGone (i : Nat) (s : State) : State :=
  { s with tt := { s.tt with steps := tmap s.tt.steps none (fun _ o => o.map (fun st =>
    { st with seqs := st.seqs.map (fun q => if q.entry = i then { q with gone := true, status := .peerDead } else q) })) } }

theorem noteGone_entry (i k : Nat) (s : State) : (noteGone i s).entry k = s.entry k := by simp only [State.entry, noteGone]

theorem loseEntry_eq (ho : (s.entry i).st.owner = true) (hs : (s.entry i).snd = none) (hw : s.work = []) :
    loseEntry i s = failWaiting i (toLost i 0x32 (noteGone i s)) := by
  have hl : (s.entry i).st.loses = true := by simp [TtState.loses, ho]
  have hx : senderOf (s.entry i) = {} := by simp [senderOf, hs]
  unfold loseEntry
  simp only [hl, hx, hw, Bool.not_true, Bool.false_eq_true, if_false, List.filter_nil, List.foldl_nil, noteGone]

theorem loseEntry_of_alone (ho : (s.entry i).st.owner = true) (hs : (s.entry i).snd = none) (hr : (s.entry i).rcv = none)
    (hv : (s.entry i).fromValid = false) (ha : (s.entry i).askers = []) (hw : s.work = []) :
    ((loseEntry i s).entry i).st = .lost ∧ ((loseEntry i s).entry i).cause = 0x32 ∧ (loseEntry i s).rail = s.rail ∧
    (loseEntry i s).rc = s.rc := by
  have hst : (s.entry i).st ≠ .stub := by
    intro h
    rw [h] at ho
    exact absurd ho (by decide)
  have hg : OnlyChanges pageZones s (noteGone i s) := (onlyChanges_set_tt _ _).mono (by decide)
  obtain ⟨u, hu, hlost, hcause, hask, heq⟩ := toLost_of_alone (s := noteGone i s) (i := i) (cause := 0x32) (by rw [noteGone_entry]; exact hst)
    (by rw [noteGone_entry]; exact hr) (by rw [noteGone_entry]; exact hv)
  have hall : OnlyChanges (.host :: .out :: pageZones) s (ttEvent 0x0102 i u) :=
    ((hg.trans hu).mono (by decide)).trans ((ttEvent_onlyChanges _ _ _).mono (by decide))
  have hent : (ttEvent 0x0102 i u).entry i = u.entry i := by simp only [State.entry, ttEvent, event_tt]
  have hwork : (ttEvent 0x0102 i u).work = [] := (hall.work_eq (by decide)).trans hw
  have hrail : (ttEvent 0x0102 i u).rail = s.rail := of_decide_eq_true (hall .rail (by decide))
  have hrc : (ttEvent 0x0102 i u).rc = s.rc := of_decide_eq_true (hall .rc (by decide))
  rw [loseEntry_eq ho hs hw, heq, failWaiting_of_none hwork (by rw [hent, hask, noteGone_entry, ha]), State.entry_modEntry_same, hent,
    State.modEntry_rail, State.modEntry_rc]
  exact ⟨hlost, hcause, hrail, hrc⟩

theorem deadNotice_entry (h : Arrives n l 6 f s) (hq : f.fseq = (s.link n l).rxSeq) (hd : f.dst = s.me)
    (hc : s.rc.conns = [(0, s.conn 0)]) (hes : s.tt.entries = [(i, e)]) (ho : e.st.owner = true) (hs : e.snd = none)
    (hr : e.rcv = none) (hv : e.fromValid = false) (ha : e.askers = []) (hw : s.work = []) :
    Completes (.deadNotice n l f (genuine n l f s)) s (fun t =>
      (t.entry i).st = .lost ∧ (t.entry i).cause = 0x32 ∧ t.rail.inc = s.rail.inc + 1) := by
  have htt : (nextInc (tookIn n l true f s)).tt = s.tt := by rw [nextInc_tt, tookIn_tt]
  have hei : (nextInc (tookIn n l true f s)).entry i = e := by
    rw [State.entry, htt, hes]
    simp [tget]
  have hend : endEntries (nextInc (tookIn n l true f s)) = loseEntry i (nextInc (tookIn n l true f s)) := by
    simp [endEntries, htt, hes]
  obtain ⟨hlost, hcause, hrail, hrc⟩ := loseEntry_of_alone (s := nextInc (tookIn n l true f s)) (by rw [hei, ho]) (by rw [hei, hs])
    (by rw [hei, hr]) (by rw [hei, hv]) (by rw [hei, ha]) (by rw [nextInc_work, tookIn_work, hw])
  have hex := deadNotice_mine h hq hd
  rw [newIncarnation_eq, hend, endConns_of_mgmt (by rw [hrc, nextInc_rc, tookIn_rc, hc])] at hex
  refine ⟨_, hex, ?_, ?_, ?_⟩
  · rw [State.kept_entry, incEvent_entry, hlost]
  · rw [State.kept_entry, incEvent_entry, hcause]
  · rw [State.kept_rail, incEvent, event_rail, hrail, nextInc_inc, tookIn_inc]

end

end Sys2Proof.Machine

/-! # Heartbeats and the detector of dead nodes

NODE_HB goes to every watched node (R520); one that arrives moves the detector (R522); a period ends for each node (R522, R526); a node
that misses too many is dead (R524). -/

namespace Sys2Proof.Machine

section
variable {s t : State} {n l m k a b : Nat} {f : Frame} {i : W32}

/-! ## Sending heartbeats -/

theorem sameWays_enqueueCtl (n l : Nat) (f : Frame) (s : State) : SameWays s (enqueueCtl n l f s) :=
  sameWays_modLink s n l (fun _ => ⟨rfl, rfl⟩)

theorem sameWays_routeCtl (f : Frame) (s : State) : SameWays s (routeCtl f s) := by
  unfold routeCtl
  split
  · exact sameWays_enqueueCtl _ _ _ _
  · split
    · exact sameWays_enqueueCtl _ _ _ _
    · exact .refl s

theorem mem_ctlq_enqueueCtl {g : Frame} (h : g ∈ (s.link a b).ctlq) : g ∈ ((enqueueCtl n l f s).link a b).ctlq := by
  by_cases hab : a = n ∧ b = l
  · obtain ⟨rfl, rfl⟩ := hab
    rw [enqueueCtl, State.link_modLink_same]
    exact List.mem_append_left _ h
  · rwa [enqueueCtl, State.link_modLink_other hab]

theorem mem_ctlq_routeCtl {g : Frame} (h : g ∈ (s.link a b).ctlq) : g ∈ ((routeCtl f s).link a b).ctlq := by
  unfold routeCtl
  split
  · exact mem_ctlq_enqueueCtl h
  · split
    · exact mem_ctlq_enqueueCtl h
    · exact h

/-- A control frame stands in the queue of the route to its node. -/
theorem routeCtl_mem (hp : s.power.st ≠ .n3) (ht : trickleTo f.dst s = false) (hr : routeFor f.dst 0 s = some (a, b)) :
    f ∈ ((routeCtl f s).link a b).ctlq := by
  simp only [routeCtl, hp, ht, Bool.false_eq_true, or_self, if_false, hr]
  rw [enqueueCtl, State.link_modLink_same]
  exact List.mem_append_right _ (List.mem_singleton_self f)

/-- One heartbeat is sent. -/
def sendHb (s : State) (m : Nat) : State := routeCtl (ownFrame s 5 m (.nodeHb s.me s.rail.inc)) s

theorem sendHb_onlyChanges (s : State) (m : Nat) : OnlyChanges [.rail] s (sendHb s m) := routeCtl_onlyChanges _ _

theorem mem_ctlq_sendHbs {g : Frame} (ms : List Nat) (h : g ∈ (s.link a b).ctlq) : g ∈ ((ms.foldl sendHb s).link a b).ctlq := by
  induction ms generalizing s with
  | nil => exact h
  | cons k ms ih => exact ih (mem_ctlq_routeCtl h)

/-- Each node of a list gets its heartbeat on the route that leads to it. -/
theorem sendHbs_mem (ms : List Nat) (hm : m ∈ ms) (hp : s.power.st ≠ .n3) (ht : trickleTo m s = false)
    (hr : routeFor m 0 s = some (a, b)) :
    ∃ g ∈ ((ms.foldl sendHb s).link a b).ctlq, g.typ = 5 ∧ g.dst = m ∧ g.payload = .nodeHb s.me s.rail.inc := by
  induction ms generalizing s with
  | nil => cases hm
  | cons k ms ih =>
    by_cases hk : k = m
    · subst hk
      exact ⟨_, mem_ctlq_sendHbs ms (routeCtl_mem hp ht hr), rfl, rfl, rfl⟩
    · have hw : SameWays s (sendHb s k) := sameWays_routeCtl _ _
      have hpow : (sendHb s k).power = s.power := (sendHb_onlyChanges s k).power_eq (by decide)
      have hin : m ∈ ms := (List.mem_cons.mp hm).resolve_left (fun h => hk h.symm)
      have hg := ih hin (by rw [hpow]; exact hp) (hw.trickleTo_eq.trans ht) (hw.routeFor_eq.trans hr)
      rwa [hw.me_eq, hw.inc_eq] at hg

theorem forwards_iff : forwards s = true ↔ s.power.st ≠ .n3 ∧ s.boot.stage ≠ .failed := by simp [forwards]

theorem nodeHbSend_sends (hl : s.live = true) (hn : s.rail.nodeSet = true) (hf : forwards s = true) :
    Completes .nodeHbSend s (fun t =>
      (∀ m < 128, watched m s = true → trickleTo m s = false → ∀ a b, routeFor m 0 s = some (a, b) →
        ∃ g ∈ (t.link a b).ctlq, g.typ = 5 ∧ g.dst = m ∧ g.payload = .nodeHb s.me s.rail.inc) ∧ OnlyChanges [.rail] s t) := by
  obtain ⟨hp, hb⟩ := forwards_iff.mp hf
  refine ⟨s.kept (((List.range 128).filter (fun n => watched n s)).foldl sendHb s), ?_, ?_, ?_⟩
  · simp only [exec, execNodeHbSend]
    rw [actIf_of_live hl (by simp [hn, hb])]
    rfl
  · intro m hm hw ht a b hr
    simp only [State.kept_link]
    exact sendHbs_mem _ (by simp [hm, hw]) hp ht hr
  · exact (onlyChanges_foldl sendHb_onlyChanges _ _).kept

/-! ## A heartbeat arrives -/

theorem nodeHb_mine (h : Arrives n l 5 f s) (hd : f.dst = s.me) (hp : f.payload = .nodeHb m i) (hm : m < 128) (hn : s.power.st ≠ .n3) :
    exec (.nodeHb n l f (genuine n l f s)) s = .next (s.kept (nodeBeat m i (tookIn n l false f s))) := by
  simp only [exec, execNodeHb]
  rw [actIf_of_live h.1 (h.acts 5 rfl), rxFrame_of_taken h (by decide) (fun hq => absurd hq (by decide))]
  simp [hd, hp, hn, Nat.not_le.mpr hm]

theorem nodeBeat_old (hi : i.toNat < (s.peer m).inc.toNat) : nodeBeat m i s = s := by simp [nodeBeat, hi]

section
variable (hw : watched m s = true)
include hw

theorem nodeBeat_same (hi : i = (s.peer m).inc) (ha : (s.peer m).st = .alive ∨ (s.peer m).st = .suspect) :
    nodeBeat m i s = s.modPeer m (fun p => { p with st := .alive, beat := true }) := by
  rcases ha with ha | ha <;> simp [nodeBeat, hw, hi, ha]

theorem nodeBeat_first (hs : (s.peer m).st = .unwatched) (hi : (s.peer m).inc = 0 ∨ (s.peer m).inc = i) :
    nodeBeat m i s = s.modPeer m (fun p => { p with inc := i, st := .alive, misses := 0, beat := true }) := by
  rcases hi with hi | hi <;> simp [nodeBeat, hw, hs, hi]

theorem nodeBeat_return (hs : (s.peer m).st = .dead) (hi : (s.peer m).inc.toNat < i.toNat) : nodeBeat m i s = rejoin m i s := by
  have hne : i ≠ (s.peer m).inc := fun h => by simp [h] at hi
  simp [nodeBeat, hw, hs, hi, hne, Nat.lt_asymm hi]

theorem nodeBeat_dead (hs : (s.peer m).st = .dead) (hi : (s.peer m).inc = i) : nodeBeat m i s = sendDeadNotice m s := by
  simp [nodeBeat, hw, hs, hi]

end

theorem enqueue_of_fits {q : QFrame} (h : q.frame.len ≤ 2048) : enqueue a b q s =
    s.modLink a b (fun k => { k with queues := tmod k.queues (if b = 1 then min 3 q.frame.cls else q.frame.cls) [] (· ++ [q]) }) := by
  simp [enqueue, Nat.not_lt.mpr h]

theorem sendDeadNotice_queued (ht : trickleTo m s = false) (hr : routeFor m 0 s = some (a, b)) :
    (∃ q ∈ tget ((sendDeadNotice m s).link a b).queues 0 [], q.frame.typ = 6 ∧ q.frame.dst = m) ∧
    (sendDeadNotice m s).peer m = s.peer m := by
  have hf : sendDeadNotice m s = enqueue a b { frame := ownFrame s 6 m .none, ingress := none } s := by
    have hdst : (ownFrame s 6 m .none).dst = m := rfl
    have hpay : (ownFrame s 6 m .none).payload = .none := rfl
    simp only [sendDeadNotice, forwardStored, hdst, hpay, ht, hr, Bool.false_eq_true, if_false]
  have hfit : (ownFrame s 6 m .none).len ≤ 2048 := Nat.zero_le _
  rw [hf]
  refine ⟨⟨{ frame := ownFrame s 6 m .none, ingress := none }, ?_, rfl, rfl⟩, ?_⟩
  · have hq := mem_enqueue (n := a) (l := b) { frame := ownFrame s 6 m .none, ingress := none } s (fun _ => hfit)
    have hc : (if b = 1 then min 3 (ownFrame s 6 m .none).cls else (ownFrame s 6 m .none).cls) = 0 := by
      split <;> rfl
    rwa [hc] at hq
  · rw [enqueue_of_fits hfit]
    exact (sameWays_modLink s a b (fun _ => ⟨rfl, rfl⟩)).peer_eq

theorem peer_event {x : Nat} {c r : Nat} : (event x c r s).peer m = s.peer m := by simp only [State.peer, event_rail]

theorem nodeHb_moves (h : Arrives n l 5 f s) (hd : f.dst = s.me) (hp : f.payload = .nodeHb m i) (hm : m < 128)
    (hn : s.power.st ≠ .n3) (hw : watched m s = true) : Completes (.nodeHb n l f (genuine n l f s)) s (fun t =>
      (i.toNat < (s.peer m).inc.toNat → t.peer m = s.peer m ∧ OnlyChanges [.rail] s t) ∧
      (i = (s.peer m).inc → ((s.peer m).st = .alive ∨ (s.peer m).st = .suspect) →
        t.peer m = { s.peer m with st := .alive, beat := true } ∧ OnlyChanges [.rail] s t) ∧
      ((s.peer m).st = .unwatched → ((s.peer m).inc = 0 ∨ (s.peer m).inc = i) →
        t.peer m = { s.peer m with inc := i, st := .alive, misses := 0, beat := true } ∧ OnlyChanges [.rail] s t) ∧
      ((s.peer m).st = .dead → (s.peer m).inc.toNat < i.toNat →
        t.peer m = { s.peer m with inc := i, st := .alive, misses := 0, beat := true } ∧
        ∃ u, OnlyChanges [.rail] s u ∧ t = s.kept (event 0 0x0604 (m + i.toNat * 2 ^ 32) u)) ∧
      ((s.peer m).st = .dead → (s.peer m).inc = i → trickleTo m s = false → ∀ a b, routeFor m 0 s = some (a, b) →
        t.peer m = s.peer m ∧ ∃ q ∈ tget (t.link a b).queues 0 [], q.frame.typ = 6 ∧ q.frame.dst = m)) := by
  have hways : SameWays s (tookIn n l false f s) := sameWays_tookIn
  have hpeer : (tookIn n l false f s).peer m = s.peer m := hways.peer_eq
  have hwr : watched m (tookIn n l false f s) = true := hways.watched_eq.trans hw
  have hto : OnlyChanges [.rail] s (tookIn n l false f s) := tookIn_onlyChanges
  have hmod (g : Peer → Peer) : (s.kept ((tookIn n l false f s).modPeer m g)).peer m = g (s.peer m) ∧
      OnlyChanges [.rail] s (s.kept ((tookIn n l false f s).modPeer m g)) :=
    ⟨by rw [State.kept_peer, State.peer_modPeer_same, hpeer], (hto.trans (modPeer_onlyChanges _ _ _)).kept⟩
  refine ⟨_, nodeHb_mine h hd hp hm hn, fun hi => ?_, fun hi ha => ?_, fun hs hi => ?_, fun hs hi => ?_, fun hs hi ht a b hr => ?_⟩
  · rw [nodeBeat_old (by rw [hpeer]; exact hi), State.kept_peer]
    exact ⟨hpeer, hto.kept⟩
  · rw [nodeBeat_same hwr (by rw [hpeer]; exact hi) (by rw [hpeer]; exact ha)]
    exact hmod (fun p => { p with st := .alive, beat := true })
  · rw [nodeBeat_first hwr (by rw [hpeer]; exact hs) (by rw [hpeer]; exact hi)]
    exact hmod (fun p => { p with inc := i, st := .alive, misses := 0, beat := true })
  · rw [nodeBeat_return hwr (by rw [hpeer]; exact hs) (by rw [hpeer]; exact hi), rejoin]
    refine ⟨?_, _, hto.trans (modPeer_onlyChanges _ _ _), rfl⟩
    rw [State.kept_peer, peer_event, State.peer_modPeer_same, hpeer]
  · obtain ⟨hq, hsame⟩ := sendDeadNotice_queued (hways.trickleTo_eq.trans ht) (hways.routeFor_eq.trans hr)
    rw [nodeBeat_dead hwr (by rw [hpeer]; exact hs) (by rw [hpeer]; exact hi), State.kept_peer, hsame, State.kept_link]
    exact ⟨hpeer, hq⟩

/-! ## A period ends -/

/-- What the end of a period makes of a node that does not miss too many (R522). -/
def afterPeriod (counted : Bool) (p : Peer) : Peer :=
  if counted then (if p.beat then { p with misses := 0, beat := false } else { p with misses := min 255 (p.misses + 1), st := .suspect })
  else { p with beat := false }

/-- Whether the period counts for a node: it is watched, and not dead. -/
def periodCounts (m : Nat) (s : State) : Bool := watched m s && ((s.peer m).st == .alive || (s.peer m).st == .suspect)

theorem periodCounts_iff : periodCounts m s = true ↔ watched m s = true ∧ ((s.peer m).st = .alive ∨ (s.peer m).st = .suspect) := by
  simp [periodCounts]

/-- A node that counts and was not heard misses no more than it may. -/
def survives (m : Nat) (s : State) : Prop :=
  periodCounts m s = true → (s.peer m).beat = false → (s.peer m).misses + 1 < max 2 s.rail.liveMiss.toNat

/-- Changing a peer depends only on what the change makes of it. -/
theorem State.modPeer_congr {g g' : Peer → Peer} (h : g (s.peer m) = g' (s.peer m)) : s.modPeer m g = s.modPeer m g' := by
  unfold State.peer at h
  simp only [State.modPeer, tmod, h]

theorem periodOf_of_survives (h : survives m s) : periodOf m s = s.modPeer m (afterPeriod (periodCounts m s)) := by
  unfold periodOf
  by_cases hc : periodCounts m s = true
  · obtain ⟨hw, ha⟩ := periodCounts_iff.mp hc
    have hg : ¬ ((!watched m s) = true ∨ ¬ ((s.peer m).st = .alive ∨ (s.peer m).st = .suspect)) := by simp [hw, ha]
    rw [if_neg hg, hc]
    by_cases hb : (s.peer m).beat = true
    · rw [if_pos hb]
      exact State.modPeer_congr (by simp [afterPeriod, hb])
    · have hlt := h hc (by simpa using hb)
      rw [if_neg hb, if_neg (Nat.not_le.mpr hlt)]
      exact State.modPeer_congr (by simp [afterPeriod, hb])
  · have hg : (!watched m s) = true ∨ ¬ ((s.peer m).st = .alive ∨ (s.peer m).st = .suspect) := by
      by_contra hn
      rw [not_or, not_not] at hn
      exact hc (periodCounts_iff.mpr ⟨by simpa using hn.1, hn.2⟩)
    rw [if_pos hg]
    exact State.modPeer_congr (by simp [afterPeriod, hc])

/-- The watch set and the limit of misses stay. -/
def SameLimits (s t : State) : Prop := t.rail.watch = s.rail.watch ∧ t.rail.liveMiss = s.rail.liveMiss

theorem SameLimits.periodCounts_eq (h : SameLimits s t) (hp : t.peer k = s.peer k) : periodCounts k t = periodCounts k s := by
  simp only [periodCounts, watched, h.1, hp]

theorem SameLimits.survives_iff (h : SameLimits s t) (hp : t.peer k = s.peer k) : survives k t ↔ survives k s := by
  simp only [survives, h.periodCounts_eq hp, hp, h.2]

theorem SameLimits.watched_eq (h : SameLimits s t) : watched k t = watched k s := by simp only [watched, h.1]

theorem SameLimits.trans {u : State} (h : SameLimits s t) (h' : SameLimits t u) : SameLimits s u :=
  ⟨h'.1.trans h.1, h'.2.trans h.2⟩

theorem sameLimits_event (x c r : Nat) (s : State) : SameLimits s (event x c r s) := by
  simp only [SameLimits, event_rail, and_self]

theorem sameLimits_modPeer (s : State) (m : Nat) (g : Peer → Peer) : SameLimits s (s.modPeer m g) := ⟨rfl, rfl⟩

/-- A period that kills no node of a list. -/
theorem periods_of_survive (ms : List Nat) (hn : ms.Nodup) (h : ∀ k ∈ ms, survives k s) :
    OnlyChanges [.rail] s (ms.foldl (fun s n => periodOf n s) s) ∧ SameLimits s (ms.foldl (fun s n => periodOf n s) s) ∧
    ∀ k, (ms.foldl (fun s n => periodOf n s) s).peer k =
      if k ∈ ms then afterPeriod (periodCounts k s) (s.peer k) else s.peer k := by
  induction ms generalizing s with
  | nil => exact ⟨.refl _ s, ⟨rfl, rfl⟩, fun k => by simp⟩
  | cons m ms ih =>
    obtain ⟨hm, hn⟩ := List.nodup_cons.mp hn
    have hstep := periodOf_of_survives (h m List.mem_cons_self)
    have hl : SameLimits s (periodOf m s) := by
      rw [hstep]
      exact sameLimits_modPeer _ _ _
    have hother {k : Nat} (hk : k ≠ m) : (periodOf m s).peer k = s.peer k := by rw [hstep, State.peer_modPeer_other hk]
    obtain ⟨ho, hlim, hpeer⟩ := ih hn (fun k hk => (hl.survives_iff (hother (fun e => hm (e ▸ hk)))).mpr (h k (List.mem_cons_of_mem m hk)))
    refine ⟨.trans ?_ ho, ⟨hlim.1.trans hl.1, hlim.2.trans hl.2⟩, fun k => ?_⟩
    · rw [hstep]
      exact modPeer_onlyChanges _ _ _
    · simp only [List.foldl_cons, hpeer, List.mem_cons]
      by_cases hk : k = m
      · subst hk
        rw [if_neg hm, if_pos (.inl rfl), hstep, State.peer_modPeer_same]
      · simp only [hk, false_or, hother hk, hl.periodCounts_eq (hother hk)]

/-- The detector's period ends for the 128 nodes. -/
def endPeriod (s : State) : State := (List.range 128).foldl (fun s n => periodOf n s) s

theorem livenessPeriod_next (hl : s.live = true) (hf : forwards s = true) : exec .livenessPeriod s = .next (s.kept (endPeriod s)) := by
  simp only [exec, execLivenessPeriod]
  rw [actIf_of_live hl hf]
  rfl

theorem livenessPeriod_survived (hl : s.live = true) (hf : forwards s = true)
    (h : ∀ m < 128, watched m s = true → ((s.peer m).st = .alive ∨ (s.peer m).st = .suspect) → (s.peer m).beat = false →
      (s.peer m).misses + 1 < max 2 s.rail.liveMiss.toNat) : Completes .livenessPeriod s (fun t =>
    (∀ m < 128, watched m s = true → ((s.peer m).st = .alive ∨ (s.peer m).st = .suspect) →
      t.peer m = (if (s.peer m).beat then { s.peer m with misses := 0, beat := false }
        else { s.peer m with misses := min 255 ((s.peer m).misses + 1), st := .suspect })) ∧ OnlyChanges [.rail] s t) := by
  obtain ⟨ho, -, hp⟩ := periods_of_survive (s := s) (List.range 128) List.nodup_range (fun k hk hc hb => by
    obtain ⟨hw, ha⟩ := periodCounts_iff.mp hc
    exact h k (List.mem_range.mp hk) hw ha hb)
  refine ⟨_, livenessPeriod_next hl hf, fun m hm hw ha => ?_, ho.kept⟩
  rw [State.kept_peer, endPeriod, hp, if_pos (List.mem_range.mpr hm), periodCounts_iff.mpr ⟨hw, ha⟩, afterPeriod, if_pos rfl]

/-! ## A node is declared dead -/

theorem tget_tmap_single {α : Type} [DecidableEq α] (x d : α) (g : Nat → α → α) : tget (tmap [(0, x)] d g) 0 d = g 0 x := by
  by_cases h : g 0 x = d <;> simp [tmap, tget, h]

theorem keys_tmap_single {α : Type} [DecidableEq α] (x d : α) (g : Nat → α → α) : ∀ kv ∈ tmap [(0, x)] d g, kv.1 = 0 := by
  by_cases h : g 0 x = d <;> simp [tmap, h]

/-- Nothing here depends on another node: no connection but the idle management connection, no region, no entry, no page read. -/
def unbound (s : State) : Prop :=
  s.rc.conns = [(0, s.conn 0)] ∧ (s.conn 0).queue = [] ∧ (s.conn 0).unacked = [] ∧ (s.conn 0).txq = [] ∧ s.rc.slots = [] ∧
  s.tt.entries = [] ∧ s.sleeper.reads = []

theorem unbound_of_onlyChanges (h : OnlyChanges [.rail] s t) (hu : unbound s) : unbound t := by
  have hrc : t.rc = s.rc := of_decide_eq_true (h .rc (by decide))
  have hsl : t.sleeper = s.sleeper := of_decide_eq_true (h .sleeper (by decide))
  have hconn : t.conn 0 = s.conn 0 := by simp only [State.conn, hrc]
  simpa only [unbound, hrc, hsl, hconn, h.tt_eq (by decide)] using hu

/-- A connection whose messages were looked through for revoked slots, where none was revoked. -/
def noneRevoked (c : Conn) : Conn :=
  { c with rx := c.rx.map (fun m => match m.slot with
    | some k => if ([] : List Nat).any (· == k) then { m with slot := none, refused := some .keyInvalid } else m
    | none => m) }

theorem revokeNow_of_none {p : RegSlot → Bool} (h : s.rc.slots = []) :
    revokeNow p s = { s with rc := { s.rc with conns := tmap s.rc.conns {} (fun _ => noneRevoked) } } := by
  simp only [revokeNow, h, List.filter_nil, List.map_nil, List.foldl_nil]
  rfl

theorem mgmtDead_of_idle (hq : (s.conn 0).queue = []) (hu : (s.conn 0).unacked = []) (hx : (s.conn 0).txq = [])
    (hr : s.sleeper.reads = []) : ∃ g : Conn → Conn, mgmtDead m i s = s.modConn 0 g := by
  refine ⟨fun c => { c with
    unacked := c.unacked.filter (fun t => t.dst != m), txq := c.txq.filter (fun t => t.1 != m),
    rx := c.rx.filter (fun x => !(x.src == m && x.srcInc == i)) }, ?_⟩
  simp [mgmtDead, hu, State.conn_modConn_same, hq, hx, openRemote, hr, pump]

theorem timetableDead_of_none (h : s.tt.entries = []) : timetableDead m s = s := by
  simp [timetableDead, raceUnresolved, h]

/-- The death of a node on which nothing depends is noted and reported (R524). -/
theorem declareDead_of_unbound (h : unbound s) : ∃ u, OnlyChanges [.rail, .rc] s u ∧ SameLimits s u ∧
    u.peer m = { s.peer m with st := .dead, deaths := satBv (s.peer m).deaths 1, beat := false } ∧
    declareDead m s = event 0 0x0603 (m + (s.peer m).inc.toNat * 2 ^ 32) u := by
  obtain ⟨hc, hq, hu, hx, hs, he, hr⟩ := h
  have hrev := revokeNow_of_none (s := s) (p := fun x => x.peerValid && x.peer == m && x.peerInc == (s.peer m).inc) hs
  set v : State := { s with rc := { s.rc with conns := tmap s.rc.conns {} (fun _ => noneRevoked) } } with hv
  have hv0 : v.conn 0 = noneRevoked (s.conn 0) := by
    rw [State.conn, hv]
    dsimp only
    rw [hc, tget_tmap_single]
  have hkeys : v.rc.conns.filter (fun kv => decide (kv.1 ≠ 0) && kv.2.peerNode == m &&
      ((kv.2.st == .opening) || ((kv.2.st == .opened || kv.2.st == .closing) && kv.2.peerInc == (s.peer m).inc))) = [] := by
    refine List.filter_eq_nil_iff.mpr (fun kv hkv => ?_)
    have hk : kv.1 = 0 := keys_tmap_single (s.conn 0) {} (fun _ => noneRevoked) kv (by rw [hv] at hkv; rwa [← hc])
    simp [hk]
  obtain ⟨g', hmg⟩ := mgmtDead_of_idle (m := m) (i := (s.peer m).inc) (s := v) (by rw [hv0, noneRevoked, hq])
    (by rw [hv0, noneRevoked, hu]) (by rw [hv0, noneRevoked, hx]) hr
  have hpeer : (v.modConn 0 g').peer m = s.peer m := by simp only [State.peer, State.modConn_rail, hv]
  refine ⟨(v.modConn 0 g').modPeer m (fun p => { p with st := .dead, deaths := satBv p.deaths 1, beat := false }), ?_, ⟨rfl, rfl⟩, ?_, ?_⟩
  · exact (((onlyChanges_set_rc _ _).trans (modConn_onlyChanges _ _ _)).mono (by simp)).trans ((modPeer_onlyChanges _ _ _).mono (by simp))
  · rw [State.peer_modPeer_same, hpeer]
  · unfold declareDead
    simp only [hrev, hkeys, List.map_nil, List.foldl_nil, hmg]
    exact timetableDead_of_none (by simp only [event_tt, State.modPeer_tt, State.modConn_tt, hv, he])

/-- The watched node's period ends in its death. -/
theorem periodOf_of_dying (hw : watched m s = true) (ha : (s.peer m).st = .alive ∨ (s.peer m).st = .suspect)
    (hb : (s.peer m).beat = false) (hm : max 2 s.rail.liveMiss.toNat ≤ (s.peer m).misses + 1) :
    periodOf m s = declareDead m (s.modPeer m (fun p => { p with misses := min 255 (p.misses + 1), st := .suspect })) := by
  have hg : ¬ ((!watched m s) = true ∨ ¬ ((s.peer m).st = .alive ∨ (s.peer m).st = .suspect)) := by simp [hw, ha]
  simp only [periodOf, hg, hb, Bool.false_eq_true, if_false, ge_iff_le, hm, if_true]

theorem OnlyChanges.kept_of {ps qs : List Zone} {u : State} (h : OnlyChanges ps t u) (hs : OnlyChanges qs s t) (hf : .fuses ∉ qs)
    (hp : .pending ∉ qs) : OnlyChanges ps t (s.kept u) := by
  have hfu : t.fuses = s.fuses := of_decide_eq_true (hs .fuses hf)
  have hpe : t.pending = s.pending := of_decide_eq_true (hs .pending hp)
  have hk : s.kept u = t.kept u := by rw [State.kept, ← hfu, ← hpe, ← State.kept]
  rw [hk]
  exact h.kept

theorem survives_of_unwatched (h : watched k s = false) : survives k s := by
  intro hc
  simp [periodCounts, h] at hc

theorem livenessPeriod_death (hl : s.live = true) (hf : forwards s = true) (hm : m < 128)
    (hw : ∀ k, watched k s = decide (k = m)) (ha : (s.peer m).st = .alive ∨ (s.peer m).st = .suspect) (hb : (s.peer m).beat = false)
    (hx : max 2 s.rail.liveMiss.toNat ≤ (s.peer m).misses + 1) (hu : unbound s) : Completes .livenessPeriod s (fun t =>
      (t.peer m).st = .dead ∧ (t.peer m).deaths = satBv (s.peer m).deaths 1 ∧ (t.peer m).inc = (s.peer m).inc ∧
      ∃ u v, OnlyChanges [.rail, .rc] s u ∧ v = event 0 0x0603 (m + (s.peer m).inc.toNat * 2 ^ 32) u ∧ OnlyChanges [.rail] v t) := by
  have hwm : watched m s = true := by simp [hw]
  obtain ⟨before, after, hsplit⟩ := List.append_of_mem (List.mem_range.mpr hm)
  have hnd : (before ++ m :: after).Nodup := hsplit ▸ List.nodup_range
  obtain ⟨hnb, hna, hmb, hma⟩ : before.Nodup ∧ after.Nodup ∧ m ∉ before ∧ m ∉ after := by
    simp only [List.nodup_append, List.nodup_cons, List.mem_cons] at hnd
    obtain ⟨h1, ⟨h2, h3⟩, h4⟩ := hnd
    exact ⟨h1, h3, fun h => h4 m h m (.inl rfl) rfl, h2⟩
  have hun {k : Nat} (hk : k ≠ m) : watched k s = false := by simp [hw, hk]
  obtain ⟨ho1, hl1, hp1⟩ := periods_of_survive (s := s) before hnb (fun k hk => survives_of_unwatched (hun (fun e => hmb (e ▸ hk))))
  set s1 := before.foldl (fun s n => periodOf n s) s with hs1
  have hp1m : s1.peer m = s.peer m := by rw [hp1, if_neg hmb]
  have hstep := periodOf_of_dying (hl1.watched_eq.trans hwm) (by rw [hp1m]; exact ha) (by rw [hp1m]; exact hb)
    (by rw [hp1m, hl1.2]; exact hx)
  set s2 := s1.modPeer m (fun p => { p with misses := min 255 (p.misses + 1), st := .suspect }) with hs2
  have hp2 : s2.peer m = { s.peer m with misses := min 255 ((s.peer m).misses + 1), st := .suspect } := by
    rw [hs2, State.peer_modPeer_same, hp1m]
  have ho2 : OnlyChanges [.rail] s s2 := ho1.trans (modPeer_onlyChanges _ _ _)
  obtain ⟨u, hou, hlu, hpu, hdead⟩ := declareDead_of_unbound (m := m) (unbound_of_onlyChanges ho2 hu)
  rw [hp2] at hpu hdead
  have hlv : SameLimits s (event 0 0x0603 (m + (s.peer m).inc.toNat * 2 ^ 32) u) :=
    (hl1.trans (sameLimits_modPeer _ _ _)).trans (hlu.trans (sameLimits_event _ _ _ _))
  obtain ⟨ho3, -, hp3⟩ := periods_of_survive (s := event 0 0x0603 (m + (s.peer m).inc.toNat * 2 ^ 32) u) after hna
    (fun k hk => survives_of_unwatched (hlv.watched_eq.trans (hun (fun e => hma (e ▸ hk)))))
  have hend : endPeriod s = after.foldl (fun s n => periodOf n s) (event 0 0x0603 (m + (s.peer m).inc.toNat * 2 ^ 32) u) := by
    rw [endPeriod, hsplit, List.foldl_append, List.foldl_cons, ← hs1, hstep, hdead]
  have hpt : (s.kept (endPeriod s)).peer m = u.peer m := by rw [State.kept_peer, hend, hp3, if_neg hma, peer_event]
  have hsu : OnlyChanges [.rail, .rc] s u := (ho2.mono (by simp)).trans hou
  have hsv : OnlyChanges [.rail, .rc, .host, .out] s (event 0 0x0603 (m + (s.peer m).inc.toNat * 2 ^ 32) u) :=
    (hsu.mono (by simp)).trans (event_onlyChanges.mono (by simp))
  refine ⟨_, livenessPeriod_next hl hf, ?_, ?_, ?_, u, _, hsu, rfl, ?_⟩
  · rw [hpt, hpu]
  · rw [hpt, hpu]
  · rw [hpt, hpu]
  · rw [hend]
    exact ho3.kept_of hsv (by decide) (by decide)

end

/-- Settles O43: a DATA frame by the checks it passes and its egress, a packet for this node by R552 and what it asks, a DEAD_NOTICE by
what ends with the old incarnation, and the detector one node at a time. -/
theorem railDeliveryAndLiveness : Obligations.RailDeliveryAndLiveness := by
  unfold Obligations.RailDeliveryAndLiveness
  refine ⟨?_, ?_, ?_, ?_, ?_, ?_, ?_, ?_, ?_, ?_, ?_, ?_, ?_, ?_, ?_⟩
  · exact fun s n l f h hq => dataFrame_outOfTurn h hq
  · exact fun s n l m f h hq hc => dataFrame_cutThrough h hq hc
  · exact fun s n l m f h hc => dataFrame_stomped h hc
  · exact fun s n l f h hq hd hf hc => dataFrame_stored h hq hd hf hc
  · exact fun s n l f p h hq hd hp ho ha => dataFrame_stale h hq hd hp ho ha
  · exact fun s n l f p h hq hd hp ho hc hn ha hr hm hk hs ht _ h0 hl => dataFrame_write h hq hd hp ho hc hn ha hr hm hk hs ht h0 hl
  · exact fun s n l f p h hq hd hp _ ha hg hs ht => dataFrame_wakes h hq hd hp ha hg hs ht
  · exact fun s n l f h hq hd hs ht => wake_fromN2 h hq hd hs ht
  · exact fun s n l f h hq hd hc he => deadNotice_idle h hq hd hc he
  · exact fun s n l c x f h hq hd h0 hc hst hqu hr ho hx he => deadNotice_connection h hq hd h0 hc hst hqu hr ho hx he
  · exact fun s n l i e f h hq hd hc hes ho hs hr hv ha hw => deadNotice_entry h hq hd hc hes ho hs hr hv ha hw
  · exact fun s hl hn hf => nodeHbSend_sends hl hn hf
  · exact fun s n l m i f h hd hp hm hn hw => nodeHb_moves h hd hp hm hn hw
  · exact fun s hl hf h => livenessPeriod_survived hl hf h
  · exact fun s m hl hf hm hw ha hb hx hc hq hu hxq hs he hr =>
      livenessPeriod_death hl hf hm hw ha hb hx ⟨hc, hq, hu, hxq, hs, he, hr⟩

end Sys2Proof.Machine

/-! # Rings and registers of the host port

SUPPORT. Completion rings, token rings and functions as read after a change, what the turns of the submission rings leave alone, and a
submission ring that stops (R95 to R100, R104). -/

namespace Sys2Proof.Machine

/-- What a command that acts under a condition makes of a state where the condition holds. -/
theorem actIf_completes {s : State} {b : Bool} {f : State → State} {P : State → Prop} (hl : s.live = true) (hb : b = true)
    (h : P (s.kept (f s))) : ∃ t, actIf s b f = .next t ∧ P t :=
  ⟨_, actIf_of_live hl hb, h⟩

/-! ## Rings and functions as read after a change -/

@[simp] theorem State.kept_sq (s t : State) (n : Nat) : (s.kept t).sq n = t.sq n := rfl
@[simp] theorem State.kept_cq (s t : State) (n : Nat) : (s.kept t).cq n = t.cq n := rfl
@[simp] theorem State.kept_fn (s t : State) (f : Nat) : (s.kept t).fn f = t.fn f := rfl
@[simp] theorem State.kept_tok (s t : State) (f : Nat) : (s.kept t).tok f = t.tok f := rfl
@[simp] theorem State.emit_sq (s : State) (o : Out) (n : Nat) : (s.emit o).sq n = s.sq n := rfl
@[simp] theorem State.emit_cq (s : State) (o : Out) (n : Nat) : (s.emit o).cq n = s.cq n := rfl
@[simp] theorem State.emit_tok (s : State) (o : Out) (f : Nat) : (s.emit o).tok f = s.tok f := rfl

/-- A state with its own fuses and queue loses nothing when those are restored. -/
theorem State.kept_eq {s t : State} (hf : t.fuses = s.fuses) (hp : t.pending = s.pending) : s.kept t = t := by
  rw [State.kept, ← hf, ← hp]

theorem State.cq_modCq_same (s : State) (n : Nat) (g : Cq → Cq) : (s.modCq n g).cq n = g (s.cq n) := tget_tmod_same ..

theorem State.cq_modCq_other {s : State} {n k : Nat} {g : Cq → Cq} (h : k ≠ n) : (s.modCq n g).cq k = s.cq k :=
  tget_tmod_other _ _ _ _ _ h

theorem State.tok_modTok_same (s : State) (f : Nat) (g : Tok → Tok) : (s.modTok f g).tok f = g (s.tok f) :=
  congrArg FnRegs.tok (State.fn_modFn_same s f _)

theorem State.fn_modTok_other {s : State} {f k : Nat} {g : Tok → Tok} (h : k ≠ f) : (s.modTok f g).fn k = s.fn k :=
  State.fn_modFn_other h

/-- Two changes of a ring that agree on what it holds are one. -/
theorem State.modSq_congr {s : State} {n : Nat} {g g' : Sq → Sq} (h : g (s.sq n) = g' (s.sq n)) : s.modSq n g = s.modSq n g' := by
  unfold State.sq at h
  simp only [State.modSq, tmod, h]

theorem State.modCq_congr {s : State} {n : Nat} {g g' : Cq → Cq} (h : g (s.cq n) = g' (s.cq n)) : s.modCq n g = s.modCq n g' := by
  unfold State.cq at h
  simp only [State.modCq, tmod, h]

theorem State.modTok_congr {s : State} {f : Nat} {g g' : Tok → Tok} (h : g (s.tok f) = g' (s.tok f)) : s.modTok f g = s.modTok f g' := by
  unfold State.tok State.fn at h
  simp only [State.modTok, State.modFn, tmod, h]

theorem modFn_onlyChanges (s : State) (f : Nat) (g : FnRegs → FnRegs) : OnlyChanges [.host] s (s.modFn f g) := onlyChanges_set_host s _

theorem modSq_onlyChanges (s : State) (n : Nat) (g : Sq → Sq) : OnlyChanges [.host] s (s.modSq n g) := onlyChanges_set_host s _

theorem modCq_onlyChanges (s : State) (n : Nat) (g : Cq → Cq) : OnlyChanges [.host] s (s.modCq n g) := onlyChanges_set_host s _

theorem modTok_onlyChanges (s : State) (f : Nat) (g : Tok → Tok) : OnlyChanges [.host] s (s.modTok f g) := onlyChanges_set_host s _

/-- A change of the host port and an output sent after it. -/
theorem OnlyChanges.emit {s t : State} (h : OnlyChanges [.host] s t) (o : Out) : OnlyChanges [.host, .out] s (t.emit o) :=
  (h.mono (by simp)).trans ((emit_onlyChanges t o).mono (by simp))

/-! ## Completion rings and functions that stay -/

/-- The completion rings and the functions' registers are as they were. -/
def SameRegs (s t : State) : Prop := t.host.cqs = s.host.cqs ∧ t.host.fns = s.host.fns

theorem SameRegs.refl (s : State) : SameRegs s s := ⟨rfl, rfl⟩

section
variable {s t u : State}

theorem SameRegs.trans (h : SameRegs s t) (h' : SameRegs t u) : SameRegs s u := ⟨h'.1.trans h.1, h'.2.trans h.2⟩

theorem SameRegs.cq_eq (h : SameRegs s t) (n : Nat) : t.cq n = s.cq n := by rw [State.cq, h.1, State.cq]

theorem SameRegs.fn_eq (h : SameRegs s t) (f : Nat) : t.fn f = s.fn f := by rw [State.fn, h.2, State.fn]

end

theorem sameRegs_modSq (s : State) (n : Nat) (g : Sq → Sq) : SameRegs s (s.modSq n g) := ⟨rfl, rfl⟩

theorem serveRings_sameRegs (k : Nat) (s : State) : SameRegs s (serveRings k s) := by
  induction k generalizing s with
  | zero => exact .refl s
  | succ k ih =>
    rw [serveRings]
    split
    · exact .refl s
    · next n fresh _ =>
      obtain ⟨hcqs, hfns, -⟩ :=
        issueFetch_host (s := { s with host := { s.host with served := if fresh then [n] else s.host.served ++ [n] } }) (n := n)
      exact SameRegs.trans ⟨hcqs, hfns⟩ (ih _)

theorem serve_sameRegs (s : State) : SameRegs s (serve s) := serveRings_sameRegs _ s

/-! ## Turns leave a ring that does not run alone -/

/-- The ring whose turn it is has new descriptors (R104). -/
theorem newPositions_of_nextTurn {s : State} {n : Nat} {b : Bool} (h : nextTurn s = some (n, b)) : 0 < newPositions n s := by
  unfold nextTurn at h
  extract_lets want due free at h
  have hfree (l : List Nat) (hl : free l = some n) : n ∈ l := List.mem_of_find?_eq_some hl
  have hwant : n ∈ want := by
    split at h
    · obtain ⟨x, hx, heq⟩ := Option.map_eq_some_iff.1 h
      cases heq
      exact hfree _ hx
    · obtain ⟨x, hx, heq⟩ := Option.map_eq_some_iff.1 h
      cases heq
      exact (List.mem_filter.1 (hfree _ hx)).1
  exact of_decide_eq_true (List.mem_filter.1 hwant).2

theorem newPositions_of_not_running {s : State} {n : Nat} (h : (s.sq n).st ≠ .running) : newPositions n s = 0 :=
  if_neg (fun hc => h hc.1)

theorem serveRings_sq_of_not_running {m : Nat} (k : Nat) {s : State} (h : (s.sq m).st ≠ .running) :
    (serveRings k s).sq m = s.sq m := by
  induction k generalizing s with
  | zero => rfl
  | succ k ih =>
    rw [serveRings]
    split
    · rfl
    · next n fresh hturn =>
      have hne : m ≠ n := fun he => by
        have hpos := newPositions_of_nextTurn hturn
        rw [← he, newPositions_of_not_running h] at hpos
        exact absurd hpos (by decide)
      have hissue (t : State) (ht : t.sq m = s.sq m) : (issueFetch n t).sq m = s.sq m := (issueFetch_sq_other hne).trans ht
      have hsame := hissue { s with host := { s.host with served := if fresh then [n] else s.host.served ++ [n] } } rfl
      rw [ih (by rwa [hsame]), hsame]

theorem serve_sq_of_not_running {s : State} {m : Nat} (h : (s.sq m).st ≠ .running) : (serve s).sq m = s.sq m :=
  serveRings_sq_of_not_running _ h

/-! ## A ring that drains and settles -/

theorem settleRing_cases (n : Nat) (s : State) :
    settleRing n s = s ∨ settleRing n s = s.modSq n (fun q => { q with st := .disabled, err := 0 }) := by
  unfold settleRing
  split
  · exact .inr rfl
  · exact .inl rfl

theorem settleRing_onlyChanges (n : Nat) (s : State) : OnlyChanges [.host] s (settleRing n s) := by
  rcases settleRing_cases n s with h | h <;> rw [h]
  · exact .refl _ s
  · exact modSq_onlyChanges s n _

theorem settleRing_sameRegs (n : Nat) (s : State) : SameRegs s (settleRing n s) := by
  rcases settleRing_cases n s with h | h <;> rw [h]
  · exact .refl s
  · exact sameRegs_modSq ..

theorem settleRing_sq_other {s : State} {n m : Nat} (h : m ≠ n) : (settleRing n s).sq m = s.sq m := by
  rcases settleRing_cases n s with h' | h' <;> rw [h']
  exact State.sq_modSq_other h

/-- What is in flight of a ring depends on the work and on the completion ring that it names. -/
theorem inFlight_congr {s t : State} {n : Nat} (hw : t.work = s.work) (hq : (t.sq n).cq = (s.sq n).cq) (hc : t.host.cqs = s.host.cqs) :
    inFlight n t = inFlight n s := by
  have hcq (k : Nat) : t.cq k = s.cq k := by rw [State.cq, hc, State.cq]
  simp only [inFlight, heldOf, hw, hq, hcq]

/-- A submission ring that has stopped fetching, ENABLE clear (R99). -/
def Sq.stopped (q : Sq) : Sq := { stopSq q .draining with enable := false }

/-- A submission ring stops fetching: it is disabled at once where nothing of it is in flight (R99). -/
def stopRing (n : Nat) (s : State) : State := settleRing n (s.modSq n Sq.stopped)

theorem stopRing_sq_same (n : Nat) (s : State) : ((stopRing n s).sq n).st = (if inFlight n s = 0 then .disabled else .draining) ∧
    ((stopRing n s).sq n).enable = false ∧ ((stopRing n s).sq n).fetching = 0 := by
  have hsq : (s.modSq n Sq.stopped).sq n = (s.sq n).stopped := State.sq_modSq_same ..
  have hflight : inFlight n (s.modSq n Sq.stopped) = inFlight n s := by
    refine inFlight_congr rfl ?_ rfl
    rw [hsq]
    rfl
  rw [stopRing, settleRing, hsq, hflight]
  by_cases h0 : inFlight n s = 0
  · rw [if_pos ⟨rfl, h0, rfl⟩, State.sq_modSq_same, hsq, if_pos h0]
    exact ⟨rfl, rfl, rfl⟩
  · rw [if_neg (fun h => h0 h.2.1), hsq, if_neg h0]
    exact ⟨rfl, rfl, rfl⟩

theorem stopRing_not_running (n : Nat) (s : State) : ((stopRing n s).sq n).st ≠ .running := by
  rw [(stopRing_sq_same n s).1]
  split <;> decide

theorem stopRing_sq_other {s : State} {n m : Nat} (h : m ≠ n) : (stopRing n s).sq m = s.sq m :=
  (settleRing_sq_other h).trans (State.sq_modSq_other h)

theorem stopRing_sameRegs (n : Nat) (s : State) : SameRegs s (stopRing n s) :=
  (sameRegs_modSq ..).trans (settleRing_sameRegs ..)

theorem stopRing_onlyChanges (n : Nat) (s : State) : OnlyChanges [.host] s (stopRing n s) :=
  (modSq_onlyChanges s n Sq.stopped).trans (settleRing_onlyChanges n _)

end Sys2Proof.Machine

/-! # Configuring rings

SUPPORT. The value a CFG register takes, the writes of CFG that start and stop a ring, and the writes of a base address (R95 to R98,
R401, R402). -/

namespace Sys2Proof.Machine

/-! ## ENABLE and the other fields -/

theorem toNat_withEnable (cfg : W32) (on : Bool) : (withEnable cfg on).toNat = 2 * (cfg.toNat / 2) + b2n on := by
  have hcfg := cfg.isLt
  have hon : b2n on ≤ 1 := by cases on <;> decide
  rw [withEnable, BitVec.toNat_ofNat, Nat.mod_eq_of_lt (by omega)]

theorem div_withEnable (cfg : W32) (on : Bool) : (withEnable cfg on).toNat / 2 = cfg.toNat / 2 := by
  have hon : b2n on ≤ 1 := by cases on <;> decide
  rw [toNat_withEnable]
  omega

theorem enable_withEnable (cfg : W32) (on : Bool) : (withEnable cfg on).toNat.testBit 0 = on := by
  rw [toNat_withEnable, Nat.testBit_zero]
  cases on <;> simp [b2n]

theorem testBit_withEnable (cfg : W32) (on : Bool) {i : Nat} (h : 0 < i) : (withEnable cfg on).toNat.testBit i = cfg.toNat.testBit i := by
  obtain ⟨i, rfl⟩ := Nat.exists_eq_add_one_of_ne_zero h.ne'
  rw [Nat.testBit_succ, Nat.testBit_succ, div_withEnable]

theorem fld_withEnable (cfg : W32) (on : Bool) {lo : Nat} (w : Nat) (h : 0 < lo) :
    fld (withEnable cfg on).toNat lo w = fld cfg.toNat lo w := by
  obtain ⟨lo, rfl⟩ := Nat.exists_eq_add_one_of_ne_zero h.ne'
  rw [fld, fld, Nat.shiftRight_succ_inside, Nat.shiftRight_succ_inside, div_withEnable]

/-- A field of `w` bits as a word of that width. -/
theorem toNat_ofNat_fld (x lo w : Nat) : (BitVec.ofNat w (fld x lo w)).toNat = fld x lo w := by
  rw [BitVec.toNat_ofNat, fld, Nat.mod_mod]

theorem ofNat_fld_of_toNat {x lo w : Nat} {b : BitVec w} (h : b.toNat = fld x lo w) : BitVec.ofNat w (fld x lo w) = b :=
  BitVec.eq_of_toNat_eq ((toNat_ofNat_fld x lo w).trans h.symm)

/-! ## Submission rings -/

/-- A submission ring with the fields of a CFG value (R95). -/
def Sq.withCfg (cfg : W32) (q : Sq) : Sq :=
  { q with polled := cfg.toNat.testBit 1, logSize := BitVec.ofNat 5 (fld cfg.toNat 3 5), cq := BitVec.ofNat 8 (fld cfg.toNat 8 8) }

/-- A submission ring that starts (R99). -/
def Sq.started (q : Sq) : Sq := { stopSq q .running with enable := true, err := 0 }

/-- Why a write of a submission ring's CFG is refused (R97). -/
def sqCfgCause (f r : Nat) (cfg : W32) (s : State) : Option Nat :=
  firstCause [(cfg.toNat.testBit 0 && readsOnly s, 6),
    ((s.sq (ringOf f r)).st != .disabled && (s.sq (ringOf f r)).withCfg cfg != s.sq (ringOf f r), 1),
    (decide (fld cfg.toNat 3 5 < 6) || decide (fld cfg.toNat 3 5 > 16), 2),
    (cfg.toNat.testBit 0 && (s.sq (ringOf f r)).st == .disabled &&
      !(ringExists f (fld cfg.toNat 8 8) && (s.cq (ringOf f (fld cfg.toNat 8 8))).enable), 3)]

section
variable {s : State} {f r : Nat} {cfg : W32}

theorem Sq.withCfg_withEnable (cfg : W32) (on : Bool) (q : Sq) : q.withCfg (withEnable cfg on) = q.withCfg cfg := by
  simp [Sq.withCfg, testBit_withEnable, fld_withEnable]

theorem writeSqCfg_of_valid (hc : sqCfgCause f r cfg s = none) (hro : readsOnly s = false) : writeSqCfg f r cfg s =
    if cfg.toNat.testBit 0 then
      if (s.sq (ringOf f r)).st = .disabled ∨ (s.sq (ringOf f r)).st = .draining then
        readTail (ringOf f r) (s.modSq (ringOf f r) (fun q => (q.withCfg cfg).started))
      else s
    else if (s.sq (ringOf f r)).st = .running ∨ (s.sq (ringOf f r)).st = .error then
      serve (settleRing (ringOf f r) (s.modSq (ringOf f r) (fun q => (q.withCfg cfg).stopped)))
    else s.modSq (ringOf f r) (fun q => { q.withCfg cfg with enable := false }) := by
  unfold writeSqCfg
  extract_lets n q v en q1 cq
  split
  · next c hcause => cases hc.symm.trans hcause
  · rw [if_neg (by simp [hro])]
    rfl

/-- A disabled ring whose configuration is valid starts, and its tail line is read (R97, R99). -/
theorem writeSqCfg_starts (hro : readsOnly s = false) (hst : (s.sq (ringOf f r)).st = .disabled) (h6 : 6 ≤ fld cfg.toNat 3 5)
    (h16 : fld cfg.toNat 3 5 ≤ 16) (hx : ringExists f (fld cfg.toNat 8 8) = true)
    (hcq : (s.cq (ringOf f (fld cfg.toNat 8 8))).enable = true) : writeSqCfg f r (withEnable cfg true) s =
      readTail (ringOf f r) (s.modSq (ringOf f r) (fun q => (q.withCfg cfg).started)) := by
  have hcause : sqCfgCause f r (withEnable cfg true) s = none := by
    simp [sqCfgCause, firstCause, fld_withEnable, hro, hst, hx, hcq, Nat.not_lt.2 h6, Nat.not_lt.2 h16]
  rw [writeSqCfg_of_valid hcause hro, enable_withEnable, if_pos rfl, if_pos (.inl hst)]
  simp only [Sq.withCfg_withEnable]

/-- A running ring whose configuration is kept stops (R97, R99). -/
theorem writeSqCfg_stops (hro : readsOnly s = false) (hst : (s.sq (ringOf f r)).st = .running)
    (hsame : (s.sq (ringOf f r)).withCfg cfg = s.sq (ringOf f r)) (h6 : 6 ≤ fld cfg.toNat 3 5) (h16 : fld cfg.toNat 3 5 ≤ 16) :
    writeSqCfg f r (withEnable cfg false) s = serve (stopRing (ringOf f r) s) := by
  have hcause : sqCfgCause f r (withEnable cfg false) s = none := by
    simp [sqCfgCause, firstCause, fld_withEnable, Sq.withCfg_withEnable, hro, hst, hsame, Nat.not_lt.2 h6, Nat.not_lt.2 h16]
  have hset : s.modSq (ringOf f r) (fun q => (q.withCfg (withEnable cfg false)).stopped) = s.modSq (ringOf f r) Sq.stopped :=
    State.modSq_congr (by rw [Sq.withCfg_withEnable, hsame])
  rw [writeSqCfg_of_valid hcause hro, enable_withEnable, if_neg Bool.false_ne_true, if_pos (.inl hst), hset, stopRing]

end

/-! ## Completion rings -/

/-- A completion ring with the fields of a CFG value (R96). -/
def Cq.withCfg (cfg : W32) (c : Cq) : Cq :=
  { c with polled := cfg.toNat.testBit 1, logSize := BitVec.ofNat 5 (fld cfg.toNat 3 5), vector := BitVec.ofNat 11 (fld cfg.toNat 8 11),
           irqEn := cfg.toNat.testBit 19 }

/-- A completion ring that starts, without room until its head line has been read (R96). -/
def Cq.started (logSize : Nat) (c : Cq) : Cq :=
  { c with enable := true, head := c.tail - BitVec.ofNat 32 (2 ^ logSize), count := 0, timer := false }

/-- A completion ring that has stopped. -/
def Cq.stopped (c : Cq) : Cq := { c with enable := false, held := [], count := 0, timer := false }

/-- Why a write of a completion ring's CFG is refused (R97). -/
def cqCfgCause (f r : Nat) (cfg : W32) (s : State) : Option Nat :=
  firstCause [(cfg.toNat.testBit 0 && readsOnly s, 6),
    ((s.cq (ringOf f r)).enable && (s.cq (ringOf f r)).withCfg cfg != s.cq (ringOf f r), 1),
    (decide (fld cfg.toNat 3 5 < 6) || decide (fld cfg.toNat 3 5 > 16), 2),
    (cfg.toNat.testBit 0 && !(s.cq (ringOf f r)).enable && decide (fld cfg.toNat 8 11 ≥ vectorLimit f), 4),
    (!cfg.toNat.testBit 0 && (s.cq (ringOf f r)).enable && namesCq f r s, 5)]

section
variable {s : State} {f r : Nat} {cfg : W32}

theorem Cq.withCfg_withEnable (cfg : W32) (on : Bool) (c : Cq) : c.withCfg (withEnable cfg on) = c.withCfg cfg := by
  simp [Cq.withCfg, testBit_withEnable, fld_withEnable]

theorem writeCqCfg_of_valid (hc : cqCfgCause f r cfg s = none) (hro : readsOnly s = false) : writeCqCfg f r cfg s =
    if cfg.toNat.testBit 0 then
      if (s.cq (ringOf f r)).enable then s
      else (s.modCq (ringOf f r) (fun c => (c.withCfg cfg).started (fld cfg.toNat 3 5))).emit
        (.cqHeadRead (ringOf f r) (s.cq (ringOf f r)).headAddr.toNat)
    else loseN f (s.cq (ringOf f r)).held.length (s.modCq (ringOf f r) (fun c => (c.withCfg cfg).stopped)) := by
  unfold writeCqCfg
  extract_lets n c v en c1
  split
  · next k hcause => cases hc.symm.trans hcause
  · rw [if_neg (by simp [hro])]
    rfl

/-- A disabled ring whose configuration is valid starts, and its head line is read (R96, R97). -/
theorem writeCqCfg_starts (hro : readsOnly s = false) (he : (s.cq (ringOf f r)).enable = false) (h6 : 6 ≤ fld cfg.toNat 3 5)
    (h16 : fld cfg.toNat 3 5 ≤ 16) (hv : fld cfg.toNat 8 11 < vectorLimit f) : writeCqCfg f r (withEnable cfg true) s =
      (s.modCq (ringOf f r) (fun c => (c.withCfg cfg).started (fld cfg.toNat 3 5))).emit
        (.cqHeadRead (ringOf f r) (s.cq (ringOf f r)).headAddr.toNat) := by
  have hcause : cqCfgCause f r (withEnable cfg true) s = none := by
    simp [cqCfgCause, firstCause, -Nat.testBit_zero, enable_withEnable, fld_withEnable, hro, he, Nat.not_lt.2 h6, Nat.not_lt.2 h16,
      Nat.not_le.2 hv]
  rw [writeCqCfg_of_valid hcause hro, enable_withEnable, if_pos rfl, if_neg (by simp [he]), fld_withEnable _ _ _ (by decide)]
  simp only [Cq.withCfg_withEnable]

/-- A ring whose configuration is kept and that no submission ring names stops; what it held is lost (R97, R119). -/
theorem writeCqCfg_stops (hro : readsOnly s = false) (hsame : (s.cq (ringOf f r)).withCfg cfg = s.cq (ringOf f r))
    (h6 : 6 ≤ fld cfg.toNat 3 5) (h16 : fld cfg.toNat 3 5 ≤ 16) (hn : namesCq f r s = false) :
    writeCqCfg f r (withEnable cfg false) s = loseN f (s.cq (ringOf f r)).held.length (s.modCq (ringOf f r) Cq.stopped) := by
  have hcause : cqCfgCause f r (withEnable cfg false) s = none := by
    simp [cqCfgCause, firstCause, -Nat.testBit_zero, enable_withEnable, fld_withEnable, Cq.withCfg_withEnable, hsame, hn,
      Nat.not_lt.2 h6, Nat.not_lt.2 h16]
  have hset : s.modCq (ringOf f r) (fun c => (c.withCfg (withEnable cfg false)).stopped) = s.modCq (ringOf f r) Cq.stopped :=
    State.modCq_congr (by rw [Cq.withCfg_withEnable, hsame])
  rw [writeCqCfg_of_valid hcause hro, enable_withEnable, if_neg Bool.false_ne_true, hset]

end

/-! ## Token rings -/

/-- A token ring with the fields of a CFG value (R402). -/
def Tok.withCfg (cfg : W32) (t : Tok) : Tok :=
  { t with polled := cfg.toNat.testBit 1, logSize := BitVec.ofNat 5 (fld cfg.toNat 4 5), vector := BitVec.ofNat 11 (fld cfg.toNat 9 11),
           irqEn := cfg.toNat.testBit 20 }

/-- A token ring that starts, without room until its head line has been read (R401). -/
def Tok.started (logSize : Nat) (t : Tok) : Tok :=
  { t with enable := true, head := t.tail - BitVec.ofNat 32 (2 ^ logSize), count := 0, timer := false }

/-- A token ring that has stopped. -/
def Tok.stopped (t : Tok) : Tok := { t with enable := false, held := [], count := 0, timer := false }

/-- Why a write of a token ring's CFG is refused (R401). -/
def tokCfgCause (f : Nat) (cfg : W32) (s : State) : Option Nat :=
  firstCause [(cfg.toNat.testBit 0 && readsOnly s, 6), ((s.tok f).enable && (s.tok f).withCfg cfg != s.tok f, 1),
    (decide (fld cfg.toNat 4 5 < 6) || decide (fld cfg.toNat 4 5 > 20), 2),
    (cfg.toNat.testBit 0 && !(s.tok f).enable && decide (fld cfg.toNat 9 11 ≥ vectorLimit f), 4)]

section
variable {s : State} {f : Nat} {cfg : W32}

theorem Tok.withCfg_withEnable (cfg : W32) (on : Bool) (t : Tok) : t.withCfg (withEnable cfg on) = t.withCfg cfg := by
  simp [Tok.withCfg, testBit_withEnable, fld_withEnable]

theorem writeTokCfg_of_valid (hc : tokCfgCause f cfg s = none) (hro : readsOnly s = false) : writeTokCfg f cfg s =
    if cfg.toNat.testBit 0 then
      if (s.tok f).enable then s
      else (s.modTok f (fun t => (t.withCfg cfg).started (fld cfg.toNat 4 5))).emit (.tokHeadRead f (s.tok f).headAddr.toNat)
    else loseN f (s.tok f).held.length (s.modTok f (fun t => (t.withCfg cfg).stopped)) := by
  unfold writeTokCfg
  extract_lets t v en t1
  split
  · next k hcause => cases hc.symm.trans hcause
  · rw [if_neg (by simp [hro])]
    rfl

/-- A disabled ring whose configuration is valid starts, and its head line is read (R401). -/
theorem writeTokCfg_starts (hro : readsOnly s = false) (he : (s.tok f).enable = false) (h6 : 6 ≤ fld cfg.toNat 4 5)
    (h20 : fld cfg.toNat 4 5 ≤ 20) (hv : fld cfg.toNat 9 11 < vectorLimit f) : writeTokCfg f (withEnable cfg true) s =
      (s.modTok f (fun t => (t.withCfg cfg).started (fld cfg.toNat 4 5))).emit (.tokHeadRead f (s.tok f).headAddr.toNat) := by
  have hcause : tokCfgCause f (withEnable cfg true) s = none := by
    simp [tokCfgCause, firstCause, -Nat.testBit_zero, enable_withEnable, fld_withEnable, hro, he, Nat.not_lt.2 h6, Nat.not_lt.2 h20,
      Nat.not_le.2 hv]
  rw [writeTokCfg_of_valid hcause hro, enable_withEnable, if_pos rfl, if_neg (by simp [he]), fld_withEnable _ _ _ (by decide)]
  simp only [Tok.withCfg_withEnable]

/-- A ring whose configuration is kept stops; what it held is lost (R119, R401). -/
theorem writeTokCfg_stops (hro : readsOnly s = false) (hsame : (s.tok f).withCfg cfg = s.tok f) (h6 : 6 ≤ fld cfg.toNat 4 5)
    (h20 : fld cfg.toNat 4 5 ≤ 20) :
    writeTokCfg f (withEnable cfg false) s = loseN f (s.tok f).held.length (s.modTok f Tok.stopped) := by
  have hcause : tokCfgCause f (withEnable cfg false) s = none := by
    simp [tokCfgCause, firstCause, -Nat.testBit_zero, enable_withEnable, fld_withEnable, Tok.withCfg_withEnable, hsame,
      Nat.not_lt.2 h6, Nat.not_lt.2 h20]
  have hset : s.modTok f (fun t => (t.withCfg (withEnable cfg false)).stopped) = s.modTok f Tok.stopped :=
    State.modTok_congr (by rw [Tok.withCfg_withEnable, hsame])
  rw [writeTokCfg_of_valid hcause hro, enable_withEnable, if_neg Bool.false_ne_true, hset]

end

/-! ## Lost records -/

theorem loseRec_tok (f : Nat) (s : State) : (loseRec f s).tok f = s.tok f := by
  rw [State.tok, loseRec, State.fn_modFn_same, State.tok]

/-- Counting records as lost changes no ring. -/
theorem loseN_keeps (f k : Nat) (s : State) : (loseN f k s).host.cqs = s.host.cqs ∧ (loseN f k s).host.sqs = s.host.sqs ∧
    (loseN f k s).tok f = s.tok f ∧ (∀ m, m ≠ f → (loseN f k s).fn m = s.fn m) ∧ OnlyChanges [.host] s (loseN f k s) := by
  induction k generalizing s with
  | zero => exact ⟨rfl, rfl, rfl, fun _ _ => rfl, .refl _ s⟩
  | succ k ih =>
    obtain ⟨hcqs, hsqs, htok, hfn, hframe⟩ := ih (loseRec f s)
    exact ⟨hcqs, hsqs, htok.trans (loseRec_tok f s), fun m hm => (hfn m hm).trans (State.fn_modFn_other hm),
      (modFn_onlyChanges s f _).trans hframe⟩

/-! ## The base of a submission ring -/

section
variable {s : State} {f r : Nat}

theorem toNat_baseAddr (v : W64) : (baseAddr v).toNat = v.toNat / 4096 * 4096 := by
  have hv := v.isLt
  rw [baseAddr, BitVec.toNat_ofNat, Nat.mod_eq_of_lt (by omega)]

theorem lt_of_ringExists (h : ringExists f r = true) : r < 128 := by
  unfold ringExists at h
  split at h
  · exact of_decide_eq_true h
  · simp only [Bool.and_eq_true, decide_eq_true_eq] at h
    omega

theorem ringSet_base (h : r < 128) : ringSet (0x201000 + 64 * r) = some (0, r, 0) := by
  rw [ringSet, if_pos (by omega)]
  simp only [Option.some.injEq, Prod.mk.injEq, true_and]
  omega

/-- A write of a submission ring's base address reaches its set of registers (R83, R91). -/
theorem completes_baseWrite {v : W64} {P : State → Prop} (hr : reaches f s = true) (hf : f ≤ 16) (hx : ringExists f r = true)
    (h : P (s.kept (writeSqReg f r 0 64 v s))) : Completes (.ringConfigWrite f (0x201000 + 64 * r) 64 v) s P := by
  simp only [Completes, exec, execRingConfigWrite]
  refine actIf_completes (live_of_reaches hr) (by simp [hr, hf]) ?_
  simpa only [ringSet_base (lt_of_ringExists hx), hx, if_true] using h

theorem writeSqReg_base {v : W64} (hro : readsOnly s = false) (hst : (s.sq (ringOf f r)).st = .disabled) :
    writeSqReg f r 0 64 v s = s.modSq (ringOf f r) (fun q => { q with base := baseAddr v }) := by
  simp [writeSqReg, setReg, hro, hst]

theorem writeSqReg_refused {v : W64} (hro : readsOnly s = false) (hst : (s.sq (ringOf f r)).st ≠ .disabled) :
    writeSqReg f r 0 64 v s = refuseCfg f 1 0 r s := by
  simp [writeSqReg, setReg, hro, hst]

end

end Sys2Proof.Machine

/-! # Starting a ring and keeping its configuration

SUPPORT. What a submission ring that starts holds and sends, and the configuration that changes nothing of a ring (R97, R99). -/

namespace Sys2Proof.Machine

section
variable {cfg : W32}

/-- A configuration that a submission ring has already changes nothing of it. -/
theorem Sq.withCfg_self {q : Sq} (hp : q.polled = cfg.toNat.testBit 1) (hl : q.logSize.toNat = fld cfg.toNat 3 5)
    (hc : q.cq.toNat = fld cfg.toNat 8 8) : q.withCfg cfg = q := by
  rw [Sq.withCfg, ← hp, ofNat_fld_of_toNat hl, ofNat_fld_of_toNat hc]

theorem Cq.withCfg_self {c : Cq} (hp : c.polled = cfg.toNat.testBit 1) (hi : c.irqEn = cfg.toNat.testBit 19)
    (hl : c.logSize.toNat = fld cfg.toNat 3 5) (hv : c.vector.toNat = fld cfg.toNat 8 11) : c.withCfg cfg = c := by
  rw [Cq.withCfg, ← hp, ← hi, ofNat_fld_of_toNat hl, ofNat_fld_of_toNat hv]

theorem Tok.withCfg_self {t : Tok} (hp : t.polled = cfg.toNat.testBit 1) (hi : t.irqEn = cfg.toNat.testBit 20)
    (hl : t.logSize.toNat = fld cfg.toNat 4 5) (hv : t.vector.toNat = fld cfg.toNat 9 11) : t.withCfg cfg = t := by
  rw [Tok.withCfg, ← hp, ← hi, ofNat_fld_of_toNat hl, ofNat_fld_of_toNat hv]

/-- A submission ring starts and its tail line is read (R99). -/
def startRing (cfg : W32) (n : Nat) (s : State) : State := readTail n (s.modSq n (fun q => (q.withCfg cfg).started))

theorem startRing_spec (cfg : W32) (n : Nat) (s : State) :
    (startRing cfg n s).sq n = { ((s.sq n).withCfg cfg).started with reading := true } ∧
    (∀ m, m ≠ n → (startRing cfg n s).sq m = s.sq m) ∧
    (startRing cfg n s).out = s.out ++ [.tailRead n (s.sq n).tailAddr.toNat] := by
  have hset : (s.modSq n (fun q => (q.withCfg cfg).started)).sq n = ((s.sq n).withCfg cfg).started := State.sq_modSq_same ..
  have hidle : ((s.modSq n (fun q => (q.withCfg cfg).started)).sq n).reading = false := by
    rw [hset]
    rfl
  obtain ⟨-, hout, hothers⟩ := readTail_spec hidle
  refine ⟨?same, fun m hm => (hothers m hm).trans (State.sq_modSq_other hm), ?sent⟩
  case same =>
    rw [startRing, readTail_of_not_reading hidle, State.emit_sq, State.sq_modSq_same, hset]
    rfl
  case sent =>
    rw [startRing, hout, hset]
    rfl

theorem startRing_onlyChanges (cfg : W32) (n : Nat) (s : State) : OnlyChanges [.host, .out] s (startRing cfg n s) :=
  ((modSq_onlyChanges s n _).mono (by simp)).trans (readTail_onlyChanges n _)

end

end Sys2Proof.Machine

/-! # The obligation on starting and stopping rings -/

namespace Sys2Proof.Machine

/-- Settles O8: a valid configuration is accepted, so the write of CFG is the start or the stop itself; a base address is set in a
disabled ring alone. -/
theorem ringControl : Obligations.RingControl := by
  unfold Obligations.RingControl
  refine ⟨fun s f r cfg hr hro hx hst h6 h16 hxc hcq => ?sqEnable, fun s f r cfg hr hro hx hst hp h6 h16 hl hc => ?sqDisable,
    fun s f r cfg hr hro hx he h6 h16 hv => ?cqEnable, fun s f r cfg hr hro hx he hp hi h6 h16 hl hv hn => ?cqDisable,
    fun s f cfg hr hro hf he h6 h20 hv => ?tokEnable, fun s f cfg hr hro hf he hp hi h6 h20 hl hv => ?tokDisable,
    fun s f r v hr hro hf hx hst => ?base, fun s f r v hr hro hf hx hst => ?refused⟩
  case sqEnable =>
    simp only [Completes, exec, execSqEnable]
    refine actIf_completes (live_of_reaches hr) (by simp [hr, hx]) ?_
    obtain ⟨hsq, hothers, hout⟩ := startRing_spec cfg (ringOf f r) s
    rw [writeSqCfg_starts hro hst h6 h16 hxc hcq, ← startRing, State.kept_sq, hsq]
    exact ⟨rfl, rfl, toNat_ofNat_fld .., toNat_ofNat_fld .., rfl, hout, hothers, (startRing_onlyChanges cfg _ s).kept⟩
  case sqDisable =>
    obtain ⟨hturns, hserve⟩ := serve_onlyTurns (stopRing (ringOf f r) s)
    have hstopped : (serve (stopRing (ringOf f r) s)).sq (ringOf f r) = (stopRing (ringOf f r) s).sq (ringOf f r) :=
      serve_sq_of_not_running (stopRing_not_running _ _)
    obtain ⟨hst', hen, hfetch⟩ := stopRing_sq_same (ringOf f r) s
    simp only [Completes, exec, execSqDisable]
    refine actIf_completes (live_of_reaches hr) (by simp [hr, hx]) ?_
    rw [writeSqCfg_stops hro hst (Sq.withCfg_self hp hl hc) h6 h16, State.kept_sq, hstopped]
    refine ⟨hst', hen, hfetch, fun n hn => ?_, (((stopRing_onlyChanges _ s).mono (by simp)).trans hserve).kept⟩
    exact stopRing_sq_other (s := s) hn ▸ hturns n
  case cqEnable =>
    simp only [Completes, exec, execCqEnable]
    refine actIf_completes (live_of_reaches hr) (by simp [hr, hx]) ?_
    have hcq : (s.modCq (ringOf f r) (fun c => (c.withCfg cfg).started (fld cfg.toNat 3 5))).cq (ringOf f r) =
        ((s.cq (ringOf f r)).withCfg cfg).started (fld cfg.toNat 3 5) := State.cq_modCq_same ..
    rw [writeCqCfg_starts hro he h6 h16 hv, State.kept_cq, State.emit_cq, hcq]
    exact ⟨rfl, toNat_ofNat_fld .., toNat_ofNat_fld .., rfl, rfl, fun n hn => State.cq_modCq_other hn,
      ((modCq_onlyChanges s _ _).emit _).kept⟩
  case cqDisable =>
    simp only [Completes, exec, execCqDisable]
    refine actIf_completes (live_of_reaches hr) (by simp [hr, hx]) ?_
    obtain ⟨hcqs, hsqs, -, -, hframe⟩ := loseN_keeps f (s.cq (ringOf f r)).held.length (s.modCq (ringOf f r) Cq.stopped)
    have hcq (n : Nat) : (loseN f (s.cq (ringOf f r)).held.length (s.modCq (ringOf f r) Cq.stopped)).cq n =
        (s.modCq (ringOf f r) Cq.stopped).cq n := by rw [State.cq, hcqs, State.cq]
    rw [writeCqCfg_stops hro (Cq.withCfg_self hp hi hl hv) h6 h16 hn, State.kept_cq, hcq, State.cq_modCq_same]
    exact ⟨rfl, rfl, fun n hn => (hcq n).trans (State.cq_modCq_other hn), hsqs, ((modCq_onlyChanges s _ _).trans hframe).kept⟩
  case tokEnable =>
    simp only [Completes, exec, execTokRingEnable]
    refine actIf_completes (live_of_reaches hr) (by simp [hr, hf]) ?_
    have htok : (s.modTok f (fun t => (t.withCfg cfg).started (fld cfg.toNat 4 5))).tok f =
        ((s.tok f).withCfg cfg).started (fld cfg.toNat 4 5) := State.tok_modTok_same ..
    rw [writeTokCfg_starts hro he h6 h20 hv, State.kept_tok, State.emit_tok, htok]
    exact ⟨rfl, toNat_ofNat_fld .., rfl, rfl,
      fun n hn => State.fn_modTok_other (s := s) (g := fun t => (t.withCfg cfg).started (fld cfg.toNat 4 5)) hn,
      ((modTok_onlyChanges s _ _).emit _).kept⟩
  case tokDisable =>
    simp only [Completes, exec, execTokRingDisable]
    refine actIf_completes (live_of_reaches hr) (by simp [hr, hf]) ?_
    obtain ⟨-, -, htok, hfns, hframe⟩ := loseN_keeps f (s.tok f).held.length (s.modTok f Tok.stopped)
    rw [writeTokCfg_stops hro (Tok.withCfg_self hp hi hl hv) h6 h20, State.kept_tok, htok, State.tok_modTok_same]
    exact ⟨rfl, rfl, fun n hn => (hfns n hn).trans (State.fn_modTok_other hn), ((modTok_onlyChanges s _ _).trans hframe).kept⟩
  case base =>
    refine completes_baseWrite hr hf hx ?_
    rw [writeSqReg_base hro hst, State.kept_sq, State.sq_modSq_same]
    exact ⟨toNat_baseAddr v, hst, fun n hn => State.sq_modSq_other hn, (modSq_onlyChanges s _ _).kept⟩
  case refused =>
    have hfn : (refuseCfg f 1 0 r s).fn f = { s.fn f with cfgErr :=
        { valid := true, cause := BitVec.ofNat 8 1, kind := BitVec.ofNat 2 0, ring := BitVec.ofNat 8 r } } := State.fn_modFn_same ..
    have hring : (BitVec.ofNat 8 r).toNat = r := by
      rw [BitVec.toNat_ofNat, Nat.mod_eq_of_lt ((lt_of_ringExists hx).trans (by decide))]
    refine completes_baseWrite hr hf hx ?_
    rw [writeSqReg_refused hro hst, State.kept_fn, hfn]
    exact ⟨rfl, rfl, hring, (modFn_onlyChanges s f _).kept⟩

end Sys2Proof.Machine

/-! # Vectors and their pending messages

SUPPORT. What a function sends for the vectors that it may now send (R121). -/

namespace Sys2Proof.Machine

/-- A vector after its message has been sent (R121). -/
def sentVector (n : Nat) (s : State) : State :=
  ({ s with host := { s.host with msix := tput s.host.msix n { tget s.host.msix n {} with pend := false } {} } } : State).emit (.msix n)

/-- A vector's message is sent if it is pending and the vector is not masked (R121). -/
def sendVector (f : Nat) (s : State) (v : Nat) : State :=
  if (tget s.host.msix (vectorOf f v) {}).pend && !(tget s.host.msix (vectorOf f v) {}).mask then sentVector (vectorOf f v) s else s

/-- A vector is unmasked and pending. -/
def VectorDue (n : Nat) (s : State) : Prop := (tget s.host.msix n {}).mask = false ∧ (tget s.host.msix n {}).pend = true

/-- A vector is unmasked, is not pending, and its message has been sent. -/
def VectorSent (n : Nat) (s : State) : Prop :=
  (tget s.host.msix n {}).mask = false ∧ (tget s.host.msix n {}).pend = false ∧ .msix n ∈ s.out

section
variable {s : State} {f v n : Nat}

theorem sendPending_of_enabled (he : (s.fn f).msixEn = true) (hm : (s.fn f).fmask = false) :
    sendPending f s = (List.range (vectorCount f)).foldl (sendVector f) s := by
  have hc : (!(s.fn f).msixEn || (s.fn f).fmask) = false := by simp [he, hm]
  rw [sendPending, hc]
  rfl

theorem sendVector_due (h : VectorDue (vectorOf f v) s) : VectorSent (vectorOf f v) (sendVector f s v) := by
  obtain ⟨hmask, hpend⟩ := h
  have hsend : sendVector f s v = sentVector (vectorOf f v) s := if_pos (by rw [hmask, hpend]; rfl)
  have hreg : tget (sentVector (vectorOf f v) s).host.msix (vectorOf f v) {} = { tget s.host.msix (vectorOf f v) {} with pend := false } :=
    tget_tput_same ..
  rw [hsend, VectorSent, hreg]
  exact ⟨hmask, rfl, List.mem_append_right _ (List.mem_singleton_self _)⟩

/-- Sending a vector's message leaves every other vector as it is. -/
theorem sendVector_other (h : vectorOf f v ≠ n) :
    tget (sendVector f s v).host.msix n {} = tget s.host.msix n {} ∧ (.msix n ∈ s.out → .msix n ∈ (sendVector f s v).out) := by
  unfold sendVector
  split
  · exact ⟨tget_tput_other _ _ _ _ _ (Ne.symm h), fun ho => List.mem_append_left _ ho⟩
  · exact ⟨rfl, id⟩

theorem sendVector_sent (h : VectorSent n s) : VectorSent n (sendVector f s v) := by
  obtain ⟨hmask, hpend, hout⟩ := h
  by_cases hv : vectorOf f v = n
  · have hsame : sendVector f s v = s := if_neg (by rw [hv, hpend]; exact Bool.false_ne_true)
    rw [hsame]
    exact ⟨hmask, hpend, hout⟩
  · obtain ⟨hreg, hkept⟩ := sendVector_other (s := s) hv
    rw [VectorSent, hreg]
    exact ⟨hmask, hpend, hkept hout⟩

theorem sendVectors_sent (l : List Nat) (h : VectorSent n s) : VectorSent n (l.foldl (sendVector f) s) := by
  induction l generalizing s with
  | nil => exact h
  | cons w l ih => exact ih (sendVector_sent h)

/-- Every vector of the list that is due has been sent. -/
theorem sendVectors_due {l : List Nat} (hl : v ∈ l) (h : VectorDue (vectorOf f v) s) :
    VectorSent (vectorOf f v) (l.foldl (sendVector f) s) := by
  induction l generalizing s with
  | nil => cases hl
  | cons w l ih =>
    by_cases hw : vectorOf f w = vectorOf f v
    · rw [← hw] at h ⊢
      exact sendVectors_sent l (sendVector_due h)
    · rcases List.mem_cons.1 hl with rfl | hl
      · exact absurd rfl hw
      · have hdue : VectorDue (vectorOf f v) (sendVector f s w) := by
          rw [VectorDue, (sendVector_other hw).1]
          exact h
        exact ih hl hdue

/-- A vector's Mask bit is clear (R121). -/
def unmasked (f v : Nat) (s : State) : State :=
  { s with host := { s.host with msix := tmod s.host.msix (vectorOf f v) {} (fun m => { m with mask := false }) } }

theorem sendVector_fns (f v : Nat) (s : State) : (sendVector f s v).host.fns = s.host.fns := by
  unfold sendVector
  split <;> rfl

theorem sendPending_fns (f : Nat) (s : State) : (sendPending f s).host.fns = s.host.fns := by
  have hfold (l : List Nat) (t : State) : (l.foldl (sendVector f) t).host.fns = t.host.fns := by
    induction l generalizing t with
    | nil => rfl
    | cons v l ih => exact (ih _).trans (sendVector_fns f v t)
  unfold sendPending
  split
  · rfl
  · exact hfold _ s

theorem sendPending_fn (f k : Nat) (s : State) : (sendPending f s).fn k = s.fn k := by
  rw [State.fn, sendPending_fns, State.fn]

end

end Sys2Proof.Machine

/-! # The obligation on the host link and CK_SNAP -/

namespace Sys2Proof.Machine

theorem live_of_portPowered {s : State} (h : portPowered s = true) : s.live = true := by
  simp only [portPowered, Bool.and_eq_true] at h
  exact h.1.1.1.1

/-- A device that is READY or FAILED, its link up, completes a configuration request of a function that answers (R641, R646). -/
theorem completes_configRequest {s : State} {f : Nat} {op : CfgOp} {P : State → Prop} (hp : portOpen s = true) (ha : answers f s = true)
    (h : P (s.kept ((cfgWrite f op s).emit (.cfgOk f (capsOf f s))))) : Completes (.configRequest ⟨f, op⟩) s P := by
  simp only [portOpen, Bool.and_eq_true, Bool.or_eq_true, bne_iff_ne, beq_iff_eq] at hp
  obtain ⟨⟨hl, hm⟩, hs⟩ := hp
  simp only [Completes, exec, execConfigRequest]
  refine actIf_completes hl (decide_eq_true hm) ?_
  have hstage : (!decide (s.boot.stage = .ready ∨ s.boot.stage = .failed)) = false := by
    rw [decide_eq_true hs]
    rfl
  simpa only [hstage, ha, Bool.not_true, Bool.false_eq_true, if_false] using h

/-- Settles O7: a link-up sets the port's own registers, a configuration request is retried or takes its write, and an unmasked vector
that is pending is among those whose messages are then sent. -/
theorem hostLinkAndSnap : Obligations.HostLinkAndSnap := by
  unfold Obligations.HostLinkAndSnap
  refine ⟨fun s o hp hm => ?linkUp, fun s f op hl hm hr hf => ?retry, fun s f hp ha => ?read, fun s f en m hp ha => ?msix,
    fun s b hp hc => ?hdm, fun s hw => ?snap, fun s f v hw hf hv he hm hpend => ?unmask⟩
  case linkUp =>
    simp only [Completes, exec, execHostLinkUp]
    refine actIf_completes (live_of_portPowered hp) (by simp [hp, hm]) ⟨rfl, rfl, rfl, rfl, fun hx hr hw => ?_, fun hx hr hw => ?_,
      (onlyChanges_set_host s _).kept⟩
    · show linkMode o = .cxl2
      simp [linkMode, hx, hr, hw]
    · show linkMode o = .pcie
      simp [linkMode, hx, hr, hw]
  case retry =>
    simp only [Completes, exec, execConfigRequest]
    refine actIf_completes hl (decide_eq_true hm) ?_
    simp only [hr, hf, or_self, decide_false, Bool.not_false, if_true]
    exact ⟨rfl, (emit_onlyChanges s _).kept⟩
  case read => exact completes_configRequest hp ha ⟨rfl, (emit_onlyChanges s _).kept⟩
  case msix =>
    have hfn (k : Nat) := sendPending_fn f k (s.modFn f (fun r => { r with msixEn := en, fmask := m }))
    have hself : (sendPending f (s.modFn f (fun r => { r with msixEn := en, fmask := m }))).fn f = { s.fn f with msixEn := en, fmask := m } :=
      (hfn f).trans (State.fn_modFn_same ..)
    refine completes_configRequest hp ha ⟨congrArg FnRegs.msixEn hself, congrArg FnRegs.fmask hself,
      fun k hk => (hfn k).trans (State.fn_modFn_other hk), List.mem_append_right _ (List.mem_singleton_self _), OnlyChanges.kept ?_⟩
    exact (((modFn_onlyChanges s f _).mono (by simp)).trans (sendPending_onlyChanges f _)).trans ((emit_onlyChanges _ _).mono (by simp))
  case hdm =>
    refine completes_configRequest hp (by simp [answers]) ?_
    rw [cfgWrite, if_pos ⟨rfl, hc⟩]
    exact ⟨rfl, rfl, ((onlyChanges_set_host s _).emit _).kept⟩
  case snap =>
    have hr : reaches 0 s = true := (Bool.and_eq_true_iff.1 hw).1
    simp only [Completes, exec, execCkSnap]
    exact actIf_completes (live_of_reaches hr) hw ⟨rfl, (onlyChanges_set_clk s _).kept⟩
  case unmask =>
    have hr : reaches f s = true := (Bool.and_eq_true_iff.1 hw).1
    simp only [Completes, exec, execMsixVectorUnmask]
    refine actIf_completes (live_of_reaches hr) (by simp [msixReaches, hw, hf]) ?_
    rw [if_neg (Nat.not_le.2 hv)]
    have hfn : (unmasked f v s).fn f = s.fn f := rfl
    have hreg : tget (unmasked f v s).host.msix (vectorOf f v) {} = { tget s.host.msix (vectorOf f v) {} with mask := false } :=
      tget_tmod_same s.host.msix (vectorOf f v) {} (fun m => { m with mask := false })
    have hdue : VectorDue (vectorOf f v) (unmasked f v s) := by
      rw [VectorDue, hreg]
      exact ⟨rfl, hpend⟩
    have hsent : VectorSent (vectorOf f v) (sendPending f (unmasked f v s)) := by
      rw [sendPending_of_enabled (hfn ▸ he) (hfn ▸ hm)]
      exact sendVectors_due (List.mem_range.2 hv) hdue
    obtain ⟨hmask, hclear, hout⟩ := hsent
    exact ⟨hmask, hclear, hout, (((onlyChanges_set_host s _).mono (by simp)).trans (sendPending_onlyChanges f (unmasked f v s))).kept⟩

end Sys2Proof.Machine

/-! # Records, head lines and moderation timers

SUPPORT. What writing a record puts in its ring and sends, what completing a descriptor sends, and the reads of head lines (R99, R113 to
R116, R121, R122, R401). -/

namespace Sys2Proof.Machine

/-! ## Vectors -/

section
variable {s : State} {f v n : Nat}

/-- A vector that may send is signalled by its message (R121). -/
theorem msixSignal_sends (he : (s.fn f).msixEn = true) (hm : (s.fn f).fmask = false) (hv : (tget s.host.msix (vectorOf f v) {}).mask = false) :
    msixSignal f v s = s.emit (.msix (vectorOf f v)) := by
  have hc : ((s.fn f).msixEn && !(s.fn f).fmask && !(tget s.host.msix (vectorOf f v) {}).mask) = true := by
    rw [he, hm, hv]
    rfl
  exact if_pos hc

theorem msixSignal_sameRegs (f v : Nat) (s : State) : SameRegs s (msixSignal f v s) := by
  unfold msixSignal
  dsimp only
  split <;> exact ⟨rfl, rfl⟩

theorem msixSignal_onlyChanges (f v : Nat) (s : State) : OnlyChanges [.host, .out] s (msixSignal f v s) := by
  intro p hp
  cases p <;> simp [sameZone] at hp ⊢

theorem mem_out_msixSignal {x : Out} (h : x ∈ s.out) : x ∈ (msixSignal f v s).out := by
  unfold msixSignal
  dsimp only
  split
  · exact List.mem_append_left _ h
  · exact h

/-! ## Writing a record -/

theorem readHead_onlyChanges (n : Nat) (s : State) : OnlyChanges [.out] s (readHead n s) := by
  unfold readHead
  split
  · exact .refl _ s
  · exact emit_onlyChanges s _

theorem mem_out_readHead {x : Out} (h : x ∈ s.out) : x ∈ (readHead n s).out := by
  unfold readHead
  split
  · exact h
  · exact List.mem_append_left _ h

/-- Moderation changes the count and the timer alone (R122). -/
theorem moderate_keeps (c : Cq) (b : Bool) : (moderate c b).2.tail = c.tail ∧ (moderate c b).2.held = c.held := by
  unfold moderate
  split
  · exact ⟨rfl, rfl⟩
  · split <;> exact ⟨rfl, rfl⟩

/-- A record as it is written (R113, R114). -/
def Rec.written (r : Rec) (n : Nat) (s : State) : Rec :=
  { r with phase := phaseAt (s.cq n).tail (s.cq n).logSize.toNat, execSc := execScOf r.since s }

theorem putRec_out (n : Nat) (r : Rec) (s : State) :
    .record n (s.cq n).tail (slotAddr (s.cq n).base (s.cq n).logSize.toNat 32 (s.cq n).tail) (r.written n s).bytes ∈ (putRec n r s).out := by
  unfold putRec
  extract_lets c m r1 s1
  have hs1 : .record n (s.cq n).tail (slotAddr (s.cq n).base (s.cq n).logSize.toNat 32 (s.cq n).tail) (r.written n s).bytes ∈ s1.out :=
    List.mem_append_right _ (List.mem_singleton_self _)
  refine mem_out_readHead ?_
  split
  · exact mem_out_msixSignal hs1
  · exact hs1

theorem putRec_cq (n : Nat) (r : Rec) (s : State) :
    ((putRec n r s).cq n).tail = (s.cq n).tail + 1 ∧ ((putRec n r s).cq n).held = (s.cq n).held := by
  unfold putRec
  extract_lets c m r1 s1
  have hs1 : s1.cq n = m.2 := State.cq_modCq_same s n _
  have hcq : (readHead n (if m.1 = true then msixSignal (ringFn n) c.vector.toNat s1 else s1)).cq n = m.2 := by
    rw [State.cq, readHead_host, ← hs1]
    split
    · exact (msixSignal_sameRegs ..).cq_eq n
    · rfl
  rw [hcq]
  exact moderate_keeps _ _

theorem putRec_onlyChanges (n : Nat) (r : Rec) (s : State) : OnlyChanges [.host, .out] s (putRec n r s) := by
  intro p hp
  cases p <;> simp [sameZone] at hp ⊢

/-- A ring that takes records, holds none back and has room has the record written (R116). -/
theorem giveRec_written {l : Nat} {r : Rec} (hr : reachable f s = true) (hx : ringExists f l = true) (he : (s.cq (ringOf f l)).enable = true)
    (hh : (s.cq (ringOf f l)).held = []) (hroom : (s.cq (ringOf f l)).room = true) : giveRec f l r s = putRec (ringOf f l) r s := by
  simp [giveRec, hr, hx, he, hh, hroom]

/-! ## Completing -/

/-- A state without a descriptor. -/
def State.without (s : State) (w : Work) : State := { s with work := s.work.filter (fun x => x.wid != w.wid) }

/-- What completing a ring's descriptor sends is what its record does. -/
theorem complete_out {w : Work} {p : W32} (hw : w.src = .ring n p) (st : Status) (r : Nat) (fr : BitVec 16) : (complete w st r s fr).out =
    (if w.silent && decide (st = .ok) then s else if w.orphan then s
      else giveRec (ringFn n) (s.sq n).cq.toNat (recOf w st r fr) (s.without w)).out := by
  unfold complete
  dsimp only
  rw [settleDisable_out, closeFor_out, hw]
  dsimp only
  rw [settleRing_out]
  split
  · rfl
  · split <;> rfl

/-- A descriptor that may start does so. -/
theorem start_of_mayStart {w : Work} {op : Byte} {g : Work → State → State} (h : MayStart s w op) :
    start w.wid op s g = .next (s.kept (g w s)) := by
  obtain ⟨hitem, hawake, hop, hmay⟩ := h
  simp [start, hitem, hawake, hop, hmay]

end

/-! ## Head lines -/

section
variable {s : State} {n f : Nat}

/-- The head of a completion ring as just read (R116). -/
def tookHead (n : Nat) (h : W32) (s : State) : State := s.modCq n (fun c => { c with head := h })

theorem tookHead_cq (n : Nat) (h : W32) (s : State) : (tookHead n h s).cq n = { s.cq n with head := h } := State.cq_modCq_same ..

/-- The head of a token ring as just read (R401). -/
def tookTokHead (f : Nat) (h : W32) (s : State) : State := s.modTok f (fun c => { c with head := h })

theorem tookTokHead_tok (f : Nat) (h : W32) (s : State) : (tookTokHead f h s).tok f = { s.tok f with head := h } := State.tok_modTok_same ..

theorem readTokHead_onlyChanges (f : Nat) (s : State) : OnlyChanges [.out] s (readTokHead f s) := by
  unfold readTokHead
  split
  · exact .refl _ s
  · exact emit_onlyChanges s _

theorem readTokHead_host (f : Nat) (s : State) : (readTokHead f s).host = s.host := by
  exact of_decide_eq_true (readTokHead_onlyChanges f s .host (by decide))

/-- A ring's one held record as it is written (R116). -/
def wroteHeld (n : Nat) (r : Rec) (s : State) : State := putRec n r (s.modCq n (fun c => { c with held := [] }))

theorem cleared_cq (n : Nat) (s : State) : (s.modCq n (fun c => { c with held := [] })).cq n = { s.cq n with held := [] } :=
  State.cq_modCq_same ..

/-- The held record is sent to the slot at the tail. -/
theorem wroteHeld_out (n : Nat) (r : Rec) (s : State) : .record n (s.cq n).tail (slotAddr (s.cq n).base (s.cq n).logSize.toNat 32 (s.cq n).tail)
    (r.written n (s.modCq n (fun c => { c with held := [] }))).bytes ∈ (wroteHeld n r s).out := by
  have h := putRec_out n r (s.modCq n (fun c => { c with held := [] }))
  rw [cleared_cq] at h
  exact h

/-- Its ring holds nothing back then, and the tail has passed the slot. -/
theorem wroteHeld_cq (n : Nat) (r : Rec) (s : State) :
    ((wroteHeld n r s).cq n).tail = (s.cq n).tail + 1 ∧ ((wroteHeld n r s).cq n).held = [] := by
  have h := putRec_cq n r (s.modCq n (fun c => { c with held := [] }))
  rw [cleared_cq] at h
  exact h

theorem wroteHeld_onlyChanges (n : Nat) (r : Rec) (s : State) : OnlyChanges [.host, .out] s (wroteHeld n r s) :=
  ((modCq_onlyChanges s n _).mono (by simp)).trans (putRec_onlyChanges n r _)

/-- The one record that a ring with room holds is written, and its submission ring may settle (R116). -/
theorem flushHeld_one {r : Rec} (hh : (s.cq n).held = [r]) (hroom : (s.cq n).room = true) :
    SameRegs (wroteHeld n r s) (flushHeld n 1 s) ∧ (flushHeld n 1 s).out = (wroteHeld n r s).out ∧
    OnlyChanges [.host] (wroteHeld n r s) (flushHeld n 1 s) := by
  have heq : flushHeld n 1 s =
      if r.opcode = 0xFF then wroteHeld n r s else settleRing (ringOf (ringFn n) r.sq.toNat) (wroteHeld n r s) := by
    simp [flushHeld, hh, hroom, wroteHeld]
  rw [heq]
  split
  · exact ⟨.refl _, rfl, .refl _ _⟩
  · exact ⟨settleRing_sameRegs .., settleRing_out .., settleRing_onlyChanges _ _⟩

theorem mem_out_issueFetch {x : Out} (h : x ∈ s.out) : x ∈ (issueFetch n s).out := by
  unfold issueFetch
  dsimp only
  split
  · exact List.mem_append_left _ h
  · exact List.mem_append_left _ (List.mem_append_left _ h)

/-- Turns take back nothing that was sent. -/
theorem mem_out_serve {x : Out} (h : x ∈ s.out) : x ∈ (serve s).out := by
  have hrings (k : Nat) (u : State) (hu : x ∈ u.out) : x ∈ (serveRings k u).out := by
    induction k generalizing u with
    | zero => exact hu
    | succ k ih =>
      rw [serveRings]
      split
      · exact hu
      · exact ih _ (mem_out_issueFetch hu)
  exact hrings _ s h

/-- A state in which rings have had turns: no register but what a ring asks for has changed, and what was sent stands. -/
def Turned (s t : State) : Prop := OnlyTurns s t ∧ SameRegs s t ∧ ∀ x ∈ s.out, x ∈ t.out

theorem serve_turned (s : State) : Turned s (serve s) := ⟨serve_onlyTurns s, serve_sameRegs s, fun _ h => mem_out_serve h⟩

/-- The head line of a ring that holds no record is read (R116). -/
theorem completes_cqHeadLineRead_empty {h : W32} {P : State → Prop} (hp : portOpen s = true) (he : (s.cq n).enable = true)
    (hh : (s.cq n).held = []) (hP : ∀ t, Turned (readHead n (tookHead n h s)) t → P (s.kept t)) : Completes (.cqHeadLineRead n h) s P := by
  simp only [Completes, exec, execCqHeadLineRead]
  refine actIf_completes (live_of_portOpen hp) (by simp [hp, he]) ?_
  have hheld : ((s.modCq n (fun c => { c with head := h })).cq n).held = [] := by rw [State.cq_modCq_same, hh]
  rw [hheld, List.isEmpty_nil, Bool.true_or, if_pos rfl]
  exact hP _ (serve_turned _)

/-- The head line of a ring that holds one record and has room is read (R116). -/
theorem completes_cqHeadLineRead_one {h : W32} {r : Rec} {P : State → Prop} (hp : portOpen s = true) (he : (s.cq n).enable = true)
    (hh : (s.cq n).held = [r]) (hroom : ((tookHead n h s).cq n).room = true)
    (hP : ∀ t, Turned (flushHeld n 1 (tookHead n h s)) t → P (s.kept t)) : Completes (.cqHeadLineRead n h) s P := by
  simp only [Completes, exec, execCqHeadLineRead]
  refine actIf_completes (live_of_portOpen hp) (by simp [hp, he]) ?_
  have hheld : ((s.modCq n (fun c => { c with head := h })).cq n).held = [r] := by rw [State.cq_modCq_same, hh]
  rw [tookHead] at hroom
  rw [hheld, hroom, List.isEmpty_cons, Bool.false_or, Bool.not_true, if_neg Bool.false_ne_true]
  exact hP _ (serve_turned _)

/-- The head line of a token ring that holds no record is read (R401). -/
theorem completes_tokHeadLineRead_empty {h : W32} {P : State → Prop} (hp : portOpen s = true) (he : (s.tok f).enable = true)
    (hh : (s.tok f).held = []) (hP : P (s.kept (readTokHead f (tookTokHead f h s)))) : Completes (.tokHeadLineRead f h) s P := by
  simp only [Completes, exec, execTokHeadLineRead]
  refine actIf_completes (live_of_portOpen hp) (by simp [hp, he]) ?_
  have hheld : ((s.modTok f (fun c => { c with head := h })).tok f).held = [] := by rw [State.tok_modTok_same, hh]
  rw [hheld, List.isEmpty_nil, Bool.true_or, if_pos rfl]
  exact hP

end

end Sys2Proof.Machine

/-! # The obligation on heads and moderation -/

namespace Sys2Proof.Machine

/-- Settles O10: a NOP is its completion, whose record a ring with room takes; a head line that has been read lets what is held be
written; and a moderation timer signals its vector. -/
theorem headsAndModeration : Obligations.HeadsAndModeration := by
  unfold Obligations.HeadsAndModeration
  refine ⟨fun s w hm => ?nop, fun s w n p st r fr hw hsil horph hr hx he hh hroom => ?record, fun s w n p r hw hsil => ?silent,
    fun s n h hp he hh => ?head, fun s n h r hp he hh hroom => ?flush, fun s f h hp he hh => ?tokHead,
    fun s n hp ht he hm hv => ?cqTimer, fun s f hp ht he hm hv => ?tokTimer⟩
  case nop =>
    have hkept : s.kept (complete w .ok 0 s) = complete w .ok 0 s := State.kept_eq (complete_fuses ..) (complete_pending ..)
    simp only [Completes, exec, execNop, start_of_mayStart hm, hkept]
    exact ⟨_, rfl, rfl, complete_item .., fun x hx => complete_item_other _ _ _ _ hx, complete_onlyChanges _ _ _ _ _⟩
  case record =>
    refine ⟨(recOf w st r fr).written (ringOf (ringFn n) (s.sq n).cq.toNat) (s.without w), rfl, rfl, rfl, ?_, rfl, rfl, rfl, ?_⟩
    · show (recOf w st r fr).sqPos = p
      simp [recOf, hw]
    · have hgive : giveRec (ringFn n) (s.sq n).cq.toNat (recOf w st r fr) (s.without w) = _ :=
        giveRec_written (s := s.without w) hr hx he hh hroom
      rw [complete_out hw, hsil, horph, Bool.false_and, if_neg Bool.false_ne_true, if_neg Bool.false_ne_true, hgive]
      exact putRec_out ..
  case silent =>
    rw [complete_out hw, hsil]
    rfl
  case head =>
    have hhost : (readHead n (tookHead n h s)).host = (tookHead n h s).host := readHead_host ..
    have hcq (m : Nat) : (readHead n (tookHead n h s)).cq m = (tookHead n h s).cq m := by rw [State.cq, hhost, State.cq]
    have hsq (m : Nat) : (readHead n (tookHead n h s)).sq m = s.sq m := by
      rw [State.sq, hhost]
      rfl
    refine completes_cqHeadLineRead_empty hp he hh (fun t ⟨⟨hturns, hframe⟩, hregs, _⟩ => ?_)
    refine ⟨(hregs.cq_eq n).trans ((hcq n).trans (tookHead_cq ..)),
      fun m hm => (hregs.cq_eq m).trans ((hcq m).trans (State.cq_modCq_other hm)), fun m => hsq m ▸ hturns m, OnlyChanges.kept ?_⟩
    exact ((modCq_onlyChanges s n _).mono (by simp)).trans (((readHead_onlyChanges n _).mono (by simp)).trans hframe)
  case flush =>
    have hroom' : ((tookHead n h s).cq n).room = true := by
      rw [tookHead_cq]
      exact decide_eq_true hroom
    have hheld : ((tookHead n h s).cq n).held = [r] := by rw [tookHead_cq, hh]
    obtain ⟨hflushed, hout, hfframe⟩ := flushHeld_one hheld hroom'
    obtain ⟨htail, hnone⟩ := wroteHeld_cq n r (tookHead n h s)
    have hsent := wroteHeld_out n r (tookHead n h s)
    have hframe : OnlyChanges [.host, .out] s (wroteHeld n r (tookHead n h s)) :=
      ((modCq_onlyChanges s n _).mono (by simp)).trans (wroteHeld_onlyChanges n r _)
    rw [tookHead_cq] at htail hsent
    rw [← hout] at hsent
    refine completes_cqHeadLineRead_one hp he hh hroom' (fun t ⟨⟨_, hserve⟩, hregs, hkept⟩ => ?_)
    have hcq : (s.kept t).cq n = (wroteHeld n r (tookHead n h s)).cq n := (hflushed.trans hregs).cq_eq n
    rw [hcq]
    exact ⟨hnone, htail, ⟨r.written n _, rfl, rfl, rfl, hkept _ hsent⟩, ((hframe.trans (hfframe.mono (by simp))).trans hserve).kept⟩
  case tokHead =>
    have hhost := readTokHead_host f (tookTokHead f h s)
    have hfn (m : Nat) : (readTokHead f (tookTokHead f h s)).fn m = (tookTokHead f h s).fn m := by rw [State.fn, hhost, State.fn]
    refine completes_tokHeadLineRead_empty hp he hh ⟨?_, fun m hm => (hfn m).trans (State.fn_modTok_other hm), OnlyChanges.kept ?_⟩
    · exact (congrArg FnRegs.tok (hfn f)).trans (tookTokHead_tok ..)
    · exact ((modTok_onlyChanges s f _).mono (by simp)).trans ((readTokHead_onlyChanges f _).mono (by simp))
  case cqTimer =>
    have hsend := msixSignal_sends (s := s.modCq n (fun c => { c with count := 0, timer := false })) he hm hv
    simp only [Completes, exec, execCqModTimerExpire]
    refine actIf_completes (live_of_portOpen hp) (by simp [hp, ht]) ?_
    rw [hsend]
    exact ⟨State.cq_modCq_same s n _, rfl, ((modCq_onlyChanges s n _).emit _).kept⟩
  case tokTimer =>
    have hfn : (s.modTok f (fun c => { c with count := 0, timer := false })).fn f =
        { s.fn f with tok := { s.tok f with count := 0, timer := false } } := State.fn_modFn_same ..
    have hsend := msixSignal_sends (s := s.modTok f (fun c => { c with count := 0, timer := false })) (f := f) (v := (s.tok f).vector.toNat)
      (by rw [hfn]; exact he) (by rw [hfn]; exact hm) hv
    simp only [Completes, exec, execTokModTimerExpire]
    refine actIf_completes (live_of_portOpen hp) (by simp [hp, ht]) ?_
    rw [hsend]
    exact ⟨State.tok_modTok_same s f (fun c => { c with count := 0, timer := false }), rfl, ((modTok_onlyChanges s f _).emit _).kept⟩

end Sys2Proof.Machine

/-! # The host's window into HBM

SUPPORT. A contained error, a read of the window whose lines are all correctable, and one that meets an uncorrectable line (R84 to R88,
R253, R675). -/

namespace Sys2Proof.Machine

/-! ## An error that is contained -/

section
variable {s : State} {e : Err}

theorem openRec_onlyChanges (e : Err) (s : State) : OnlyChanges [.ft, .power, .host, .out] s (openRec e s).1 := by
  intro p hp
  cases p <;> simp [sameZone, openRec, noteFault] at hp ⊢

theorem openRec_fault (e : Err) (s : State) : (openRec e s).1.ft.fault = true := by
  simp only [openRec, event_ft]
  rfl

/-- An error that is neither corrected nor fatal puts the device in the fault state, and changes no more than its record, the event and
ERR_N (R677, R682, R683). -/
theorem raiseErr'_contained (h0 : e.cls ≠ 0) (h3 : e.cls ≠ 3) :
    (raiseErr' e s).ft.fault = true ∧ OnlyChanges [.ft, .power, .host, .out] s (raiseErr' e s) := by
  rw [raiseErr', raiseErr, if_neg h0]
  dsimp only
  rw [if_neg h3]
  split
  · exact ⟨rfl, (onlyChanges_set_ft s _).mono (by simp)⟩
  · exact ⟨openRec_fault e s, (openRec_onlyChanges e s).trans ((onlyChanges_set_ft _ _).mono (by simp))⟩

end

/-! ## Reads -/

/-- Corrected lines of HBM are counted (R681). -/
def countHbmCorrected (n : Nat) (s : State) : State := { s with ft := { s.ft with corrected := tmod s.ft.corrected 3 0 (· + n) } }

/-- An uncorrectable line of HBM is marked as poisoned (R88, R252). -/
def markLine (a : Nat) (s : State) : State := { s with mem := { s.mem with poison := tput s.mem.poison (a / 64) true false } }

section
variable {s : State} {r : Region} {o len n a : Nat}

theorem windowRead_of_correctable (hi : s.ft.inject.arm = false) : windowRead r o len { corrected := n } s =
    (countHbmCorrected n s).emit (.memData (regionRead s r o len) (regionPoisoned s r o len)) := by
  have hhit : injectHit 0x05 (regionAddr r o / 2 ^ 36) (countHbmCorrected n s) = (false, countHbmCorrected n s) :=
    injectHit_of_unarmed _ _ hi
  have hfound : hbmFound { corrected := n } (fun a => (regionLines r o len).any (· == a / 64)) s = (none, countHbmCorrected n s) := rfl
  simp only [windowRead, hfound, hhit, Bool.false_or]
  rfl

theorem windowRead_of_bad (hi : s.ft.inject.arm = false) (ha : a / 64 ∈ regionLines r o len) :
    windowRead r o len { corrected := n, bad := some a } s =
      (raiseErr' (hbmErr a false) (markLine a (countHbmCorrected n s))).emit
        (.memData (regionRead (raiseErr' (hbmErr a false) (markLine a (countHbmCorrected n s))) r o len)
          (regionPoisoned (raiseErr' (hbmErr a false) (markLine a (countHbmCorrected n s))) r o len)) := by
  have hreads : (regionLines r o len).any (· == a / 64) = true := List.any_eq_true.2 ⟨_, ha, beq_self_eq_true _⟩
  have hhit : injectHit 0x05 (regionAddr r o / 2 ^ 36) (markLine a (countHbmCorrected n s)) = (false, markLine a (countHbmCorrected n s)) :=
    injectHit_of_unarmed _ _ hi
  have hfound : hbmFound { corrected := n, bad := some a } (fun a => (regionLines r o len).any (· == a / 64)) s =
      (some a, markLine a (countHbmCorrected n s)) := if_pos hreads
  simp only [windowRead, hfound, hhit, Bool.false_or]

/-- What a read leaves that found no more than corrected lines. -/
theorem countedRead (n : Nat) (x : Out) (s : State) : (s.kept ((countHbmCorrected n s).emit x)).out = s.out ++ [x] ∧
    (s.kept ((countHbmCorrected n s).emit x)).ft.recs = s.ft.recs ∧
    tget (s.kept ((countHbmCorrected n s).emit x)).ft.corrected 3 0 = tget s.ft.corrected 3 0 + n ∧
    OnlyChanges [.ft, .out] s (s.kept ((countHbmCorrected n s).emit x)) :=
  ⟨rfl, rfl, tget_tmod_same s.ft.corrected 3 0 (· + n),
    (((onlyChanges_set_ft s _).mono (by simp)).trans ((emit_onlyChanges _ x).mono (by simp))).kept⟩

/-- What a read leaves that the window rejects (R85). -/
theorem rejectedRead (x : Out) (s : State) : (s.kept ((hostReject s).emit x)).out = s.out ++ [x] ∧
    (s.kept ((hostReject s).emit x)).ddr.hostReject = satBv s.ddr.hostReject 1 ∧
    OnlyChanges [.ddr, .out] s (s.kept ((hostReject s).emit x)) :=
  ⟨rfl, rfl, (((onlyChanges_set_ddr s _).mono (by simp)).trans ((emit_onlyChanges _ x).mono (by simp))).kept⟩

/-- A read with a marked line is poisoned (R253). -/
theorem regionPoisoned_of_mem {l : Nat} (hl : l ∈ regionLines r o len) (hp : tget s.mem.poison l false = true) :
    regionPoisoned s r o len = true := List.any_eq_true.2 ⟨l, hl, hp⟩

end

/-! ## Writes -/

/-- What a write through the window leaves: the bytes stored, and nothing else (R85, R274). -/
theorem regionWrite_stores (r : Region) (o : Nat) (bs : List Byte) (s : State) :
    s.kept (regionWrite r o bs s) = regionWrite r o bs s ∧
    (∀ a, (∀ i < bs.length, a ≠ regionAddr r (o + i)) → hbmByte (s.kept (regionWrite r o bs s)) a = hbmByte s a) ∧
    OnlyChanges [.mem, .waybill] s (s.kept (regionWrite r o bs s)) :=
  ⟨rfl, fun _ ha => memGet_regionPut_other _ _ _ _ _ ha, (regionWrite_onlyChanges r o bs s).kept⟩

end Sys2Proof.Machine

/-! # The obligation on the host's window -/

namespace Sys2Proof.Machine

/-- Settles O11: an access of a region is the store or the read of its bytes, one of no region only counts the rejection. -/
theorem hostWindow : Obligations.HostWindow := by
  unfold Obligations.HostWindow
  refine ⟨fun s off data r o hp hro ha hw hf => ?write, fun s addr data r o hp hc hro ha hw hf => ?cxlWrite,
    fun s off len n r o hp hro ha hw hi => ?read, fun s off len n a r o hp hro ha hw hbad hi => ?bad,
    fun s addr len n r o hp hc hro ha hw hi => ?cxlRead, fun s off data hp hw => ?writeOutside,
    fun s off len obs hp hro hw => ?readOutside, fun s off len obs hp hro => ?readRefused⟩
  case write =>
    simp only [Completes, exec, execBar2Write]
    refine actIf_completes (live_of_portOpen hp) hp ?_
    simp only [hro, hw, hf, ha, Bool.false_eq_true, if_false, if_true]
    exact regionWrite_stores r o data s
  case cxlWrite =>
    simp only [Completes, exec, execCxlMemWrite]
    refine actIf_completes (live_of_portOpen hp) (by simp [hp, hc, hro, ha]) ?_
    simp only [hw, hf, Bool.false_eq_true, if_false]
    exact regionWrite_stores r o data s
  case read =>
    simp only [Completes, exec, execBar2Read]
    refine actIf_completes (live_of_portOpen hp) hp ?_
    simp only [hro, hw, ha, Bool.false_eq_true, if_false, if_true, windowRead_of_correctable hi]
    exact countedRead n _ s
  case cxlRead =>
    simp only [Completes, exec, execCxlMemRead]
    refine actIf_completes (live_of_portOpen hp) (by simp [hp, hc, hro, ha]) ?_
    simp only [hw, windowRead_of_correctable hi]
    exact countedRead n _ s
  case bad =>
    simp only [Completes, exec, execBar2Read]
    refine actIf_completes (live_of_portOpen hp) hp ?_
    simp only [hro, hw, ha, Bool.false_eq_true, if_false, if_true, windowRead_of_bad hi hbad]
    have hmarked : OnlyChanges [.ft, .mem] s (markLine a (countHbmCorrected n s)) :=
      ((onlyChanges_set_ft s _).mono (by simp)).trans ((onlyChanges_set_mem _ _).mono (by simp))
    obtain ⟨hfault, hframe⟩ := raiseErr'_contained (e := hbmErr a false) (s := markLine a (countHbmCorrected n s)) (by simp [hbmErr])
      (by simp [hbmErr])
    have hmem : (raiseErr' (hbmErr a false) (markLine a (countHbmCorrected n s))).mem = (markLine a (countHbmCorrected n s)).mem :=
      hframe.mem_eq (by decide)
    have hline : tget (raiseErr' (hbmErr a false) (markLine a (countHbmCorrected n s))).mem.poison (a / 64) false = true := by
      rw [hmem]
      exact tget_tput_same s.mem.poison (a / 64) true false
    rw [regionPoisoned_of_mem hbad hline]
    have hbytes : (raiseErr' (hbmErr a false) (markLine a (countHbmCorrected n s))).mem.hbm = s.mem.hbm := by
      rw [hmem]
      rfl
    refine ⟨⟨_, List.mem_append_right _ (List.mem_singleton_self _)⟩, hline, hfault, hbytes, OnlyChanges.kept ?_⟩
    exact (hmarked.mono (by simp)).trans ((hframe.mono (by simp)).trans ((emit_onlyChanges _ _).mono (by simp)))
  case writeOutside =>
    simp only [Completes, exec, execBar2Write]
    refine actIf_completes (live_of_portOpen hp) hp ?_
    simp only [hw, ite_self]
    exact ⟨rfl, fun _ => rfl, (onlyChanges_set_ddr s _).kept⟩
  case readOutside =>
    simp only [Completes, exec, execBar2Read]
    refine actIf_completes (live_of_portOpen hp) hp ?_
    simp only [hro, hw, Bool.false_eq_true, if_false]
    exact rejectedRead _ s
  case readRefused =>
    simp only [Completes, exec, execBar2Read]
    refine actIf_completes (live_of_portOpen hp) hp ?_
    simp only [hro, if_true]
    exact rejectedRead _ s

end Sys2Proof.Machine

/-! # Disabling functions

SUPPORT. What the start of a disable changes, alone and of several functions in turn, and what its end leaves (R125, R696). -/

namespace Sys2Proof.Machine

/-! ## One function -/

/-- A ring that runs, or is in error, stops (R696). -/
def stopActive (s : State) (n : Nat) : State := if (s.sq n).st = .running ∨ (s.sq n).st = .error then stopRing n s else s

/-- The submission rings of a function that are listed. -/
def ringsOf (f : Nat) (s : State) : List Nat := (s.host.sqs.filter (fun kv => ringFn kv.1 == f)).map Prod.fst

/-- A function is marked as draining (R696). -/
def markDraining (f : Nat) (s : State) : State := s.modFn f (fun r => { r with disabling := .draining })

section
variable {s : State} {f n : Nat}

theorem startDisable_of_disabling (h : (s.fn f).disabling ≠ .no) : startDisable f s = s := if_pos h

theorem startDisable_of_enabled (h : (s.fn f).disabling = .no) :
    startDisable f s = serve ((ringsOf f s).foldl stopActive (markDraining f s)) := if_neg (not_not.2 h)

theorem mem_ringsOf_of_running (hf : ringFn n = f) (hr : (s.sq n).st = .running) : n ∈ ringsOf f s := by
  have hne : s.sq n ≠ {} := fun he => absurd (hr.symm.trans (congrArg Sq.st he)) (by decide)
  obtain ⟨x, hx, rfl⟩ := List.mem_map.1 (mem_keys_of_tget_ne hne)
  exact List.mem_map_of_mem (List.mem_filter.2 ⟨hx, beq_iff_eq.2 hf⟩)

theorem ringFn_of_mem_ringsOf (h : n ∈ ringsOf f s) : ringFn n = f := by
  obtain ⟨x, hx, rfl⟩ := List.mem_map.1 h
  exact beq_iff_eq.1 (List.mem_filter.1 hx).2

theorem stopActive_sameRegs (s : State) (n : Nat) : SameRegs s (stopActive s n) := by
  unfold stopActive
  split
  · exact stopRing_sameRegs n s
  · exact .refl s

theorem stopActive_onlyChanges (s : State) (n : Nat) : OnlyChanges [.host] s (stopActive s n) := by
  unfold stopActive
  split
  · exact stopRing_onlyChanges n s
  · exact .refl _ s

theorem stopActive_sq_other {m : Nat} (h : m ≠ n) : (stopActive s n).sq m = s.sq m := by
  unfold stopActive
  split
  · exact stopRing_sq_other h
  · rfl

theorem stopActive_not_running (s : State) (n : Nat) : ((stopActive s n).sq n).st ≠ .running := by
  unfold stopActive
  split
  · exact stopRing_not_running n s
  · next h => exact fun hr => h (.inl hr)

theorem stopActive_keeps_not_running {m : Nat} (h : (s.sq m).st ≠ .running) : ((stopActive s n).sq m).st ≠ .running := by
  by_cases hm : m = n
  · exact hm ▸ stopActive_not_running s n
  · rwa [stopActive_sq_other hm]

theorem stopAll_sameRegs (l : List Nat) (s : State) : SameRegs s (l.foldl stopActive s) := by
  induction l generalizing s with
  | nil => exact .refl s
  | cons n l ih => exact (stopActive_sameRegs s n).trans (ih _)

theorem stopAll_sq_other {l : List Nat} (h : n ∉ l) : (l.foldl stopActive s).sq n = s.sq n := by
  induction l generalizing s with
  | nil => rfl
  | cons m l ih =>
    rw [List.mem_cons, not_or] at h
    exact (ih h.2).trans (stopActive_sq_other h.1)

theorem stopAll_keeps_not_running (l : List Nat) (h : (s.sq n).st ≠ .running) : ((l.foldl stopActive s).sq n).st ≠ .running := by
  induction l generalizing s with
  | nil => exact h
  | cons m l ih => exact ih (stopActive_keeps_not_running h)

theorem stopAll_not_running {l : List Nat} (h : n ∈ l) : ((l.foldl stopActive s).sq n).st ≠ .running := by
  induction l generalizing s with
  | nil => cases h
  | cons m l ih =>
    rcases List.mem_cons.1 h with rfl | h
    · exact stopAll_keeps_not_running l (stopActive_not_running s n)
    · exact ih h

/-- A disable that starts (R696): the function drains, its rings do not run, and the others have turns at most. -/
def DisableStarts (f : Nat) (s t : State) : Prop :=
  t.fn f = { s.fn f with disabling := .draining } ∧ (∀ k, k ≠ f → t.fn k = s.fn k) ∧
  (∀ n, ringFn n = f → (t.sq n).st ≠ .running) ∧ (∀ n, ringFn n ≠ f → OnlyFetches (s.sq n) (t.sq n)) ∧
  t.host.cqs = s.host.cqs ∧ OnlyChanges [.host, .out] s t

theorem disableStarts (h : (s.fn f).disabling = .no) : DisableStarts f s (startDisable f s) := by
  rw [startDisable_of_enabled h]
  obtain ⟨hturns, hserve⟩ := serve_onlyTurns ((ringsOf f s).foldl stopActive (markDraining f s))
  have hregs : SameRegs (markDraining f s) _ := (stopAll_sameRegs (ringsOf f s) _).trans (serve_sameRegs _)
  refine ⟨?self, fun k hk => ?others, fun n hn => ?stopped, fun n hn => ?turns, hregs.1, ?frame⟩
  case self => exact (hregs.fn_eq f).trans (State.fn_modFn_same ..)
  case others => exact (hregs.fn_eq k).trans (State.fn_modFn_other hk)
  case stopped =>
    rw [(hturns n).st_eq]
    by_cases hr : (s.sq n).st = .running
    · exact stopAll_not_running (mem_ringsOf_of_running hn hr)
    · exact stopAll_keeps_not_running _ hr
  case turns =>
    have hsame : ((ringsOf f s).foldl stopActive (markDraining f s)).sq n = s.sq n :=
      stopAll_sq_other (fun hmem => hn (ringFn_of_mem_ringsOf hmem))
    exact hsame ▸ hturns n
  case frame =>
    have hstop : OnlyChanges [.host] s ((ringsOf f s).foldl stopActive (markDraining f s)) :=
      (modFn_onlyChanges s f _).trans (onlyChanges_foldl stopActive_onlyChanges _ _)
    exact (hstop.mono (by simp)).trans hserve

end

/-! ## Several functions in turn -/

/-- The disables of several functions start, one after the other (R125, R696). -/
def disableAll (l : List Nat) (s : State) : State := l.foldl (fun s f => startDisable f s) s

section
variable {s : State} {f k n : Nat}

theorem startDisable_onlyChanges (f : Nat) (s : State) : OnlyChanges [.host, .out] s (startDisable f s) := by
  by_cases h : (s.fn f).disabling = .no
  · obtain ⟨-, -, -, -, -, hframe⟩ := disableStarts h
    exact hframe
  · rw [startDisable_of_disabling h]
    exact .refl _ s

theorem startDisable_disabling (f : Nat) (s : State) : ((startDisable f s).fn f).disabling ≠ .no := by
  by_cases h : (s.fn f).disabling = .no
  · rw [(disableStarts h).1]
    exact (by decide : Disabling.draining ≠ .no)
  · rwa [startDisable_of_disabling h]

theorem startDisable_fn_other (hk : k ≠ f) : (startDisable f s).fn k = s.fn k := by
  by_cases h : (s.fn f).disabling = .no
  · exact (disableStarts h).2.1 k hk
  · rw [startDisable_of_disabling h]

theorem startDisable_sq_other (hn : ringFn n ≠ f) : OnlyFetches (s.sq n) ((startDisable f s).sq n) := by
  by_cases h : (s.fn f).disabling = .no
  · obtain ⟨-, -, -, hturns, -, -⟩ := disableStarts h
    exact hturns n hn
  · rw [startDisable_of_disabling h]
    exact .refl _

theorem startDisable_keeps_disabling (h : (s.fn k).disabling ≠ .no) : ((startDisable f s).fn k).disabling ≠ .no := by
  by_cases hk : k = f
  · exact hk ▸ startDisable_disabling f s
  · rwa [startDisable_fn_other hk]

theorem startDisable_keeps_not_running (h : (s.sq n).st ≠ .running) : ((startDisable f s).sq n).st ≠ .running := by
  by_cases hn : ringFn n = f
  · by_cases hd : (s.fn f).disabling = .no
    · obtain ⟨-, -, hstopped, -, -, -⟩ := disableStarts hd
      exact hstopped n hn
    · rwa [startDisable_of_disabling hd]
  · rwa [(startDisable_sq_other hn).st_eq]

theorem disableAll_onlyChanges (l : List Nat) (s : State) : OnlyChanges [.host, .out] s (disableAll l s) :=
  onlyChanges_foldl (fun s f => startDisable_onlyChanges f s) l s

theorem disableAll_fn_other {l : List Nat} (h : k ∉ l) : (disableAll l s).fn k = s.fn k := by
  induction l generalizing s with
  | nil => rfl
  | cons f l ih =>
    rw [List.mem_cons, not_or] at h
    exact (ih h.2).trans (startDisable_fn_other h.1)

theorem disableAll_sq_other {l : List Nat} (h : ringFn n ∉ l) : OnlyFetches (s.sq n) ((disableAll l s).sq n) := by
  induction l generalizing s with
  | nil => exact .refl _
  | cons f l ih =>
    rw [List.mem_cons, not_or] at h
    exact (startDisable_sq_other h.1).trans (ih h.2)

theorem disableAll_keeps_disabling (l : List Nat) (h : (s.fn k).disabling ≠ .no) : ((disableAll l s).fn k).disabling ≠ .no := by
  induction l generalizing s with
  | nil => exact h
  | cons f l ih => exact ih (startDisable_keeps_disabling h)

theorem disableAll_disabling {l : List Nat} (h : k ∈ l) : ((disableAll l s).fn k).disabling ≠ .no := by
  induction l generalizing s with
  | nil => cases h
  | cons f l ih =>
    rcases List.mem_cons.1 h with rfl | h
    · exact disableAll_keeps_disabling l (startDisable_disabling k s)
    · exact ih h

theorem disableAll_keeps_not_running (l : List Nat) (h : (s.sq n).st ≠ .running) : ((disableAll l s).sq n).st ≠ .running := by
  induction l generalizing s with
  | nil => exact h
  | cons f l ih => exact ih (startDisable_keeps_not_running h)

/-- No ring of a function that was enabled runs. -/
theorem disableAll_not_running {l : List Nat} (h : ringFn n ∈ l) (hd : (s.fn (ringFn n)).disabling = .no) :
    ((disableAll l s).sq n).st ≠ .running := by
  induction l generalizing s with
  | nil => cases h
  | cons f l ih =>
    by_cases hf : ringFn n = f
    · obtain ⟨-, -, hstopped, -, -, -⟩ := disableStarts (hf ▸ hd)
      exact disableAll_keeps_not_running l (hstopped n hf)
    · have hl : ringFn n ∈ l := (List.mem_cons.1 h).resolve_left hf
      exact ih hl (by rwa [startDisable_fn_other hf])

end

/-- The disables of the first virtual functions are disables in turn. -/
theorem disableVfs_eq (k : Nat) (s : State) :
    (List.range k).foldl (fun s v => startDisable (v + 1) s) s = disableAll ((List.range k).map (· + 1)) s :=
  (List.foldl_map (f := fun v => v + 1) (g := fun s f => startDisable f s)).symm

/-- The reset of the physical function disables all (R125). -/
theorem completes_pfFlr {s : State} {P : State → Prop} (hr : reaches 0 s = true) (hP : P (s.kept (disableAll (List.range 17) s))) :
    Completes .pfFlr s P := by
  simp only [Completes, exec, execPfFlr]
  exact actIf_completes (live_of_reaches hr) hr hP

theorem ringFn_le {n : Nat} (h : n < 256) : ringFn n ≤ 16 := by
  unfold ringFn
  split <;> omega

/-! ## The end of a disable -/

theorem tget_filter_key {α : Type} (t : Tab α) (p : Nat → Bool) (k : Nat) (d : α) :
    tget (t.filter (fun kv => p kv.1)) k d = if p k then tget t k d else d := by
  induction t with
  | nil => simp [tget]
  | cons x r ih =>
    obtain ⟨k', v⟩ := x
    by_cases hk : k' = k
    · subst hk
      by_cases hp : p k' = true <;> simp [hp, tget, ih]
    · by_cases hp : p k' = true <;> simp [hp, tget, hk, ih]

theorem le_toNat_satBv {w : Nat} (a : BitVec w) (n : Nat) : a.toNat ≤ (satBv a n).toNat := by
  have ha := a.isLt
  have hpos := Nat.two_pow_pos w
  rw [satBv, BitVec.toNat_ofNat, satAdd]
  split
  · rw [Nat.mod_eq_of_lt (by omega)]
    omega
  · rw [Nat.mod_eq_of_lt (by omega)]
    omega

section
variable {s : State} {f : Nat}

theorem finishDisable_sq (n : Nat) : (finishDisable f s).sq n = if ringFn n = f then {} else s.sq n := by
  refine (tget_filter_key s.host.sqs (fun k => ringFn k != f) n {}).trans ?_
  by_cases h : ringFn n = f <;> simp [h, State.sq]

theorem finishDisable_cq (n : Nat) : (finishDisable f s).cq n = if ringFn n = f then {} else s.cq n := by
  refine (tget_filter_key s.host.cqs (fun k => ringFn k != f) n {}).trans ?_
  by_cases h : ringFn n = f <;> simp [h, State.cq]

/-- The records that a function's rings still hold. -/
def heldRecords (f : Nat) (s : State) : Nat :=
  ((s.host.cqs.filter (fun kv => ringFn kv.1 == f)).map (fun kv => kv.2.held.length)).sum + (s.fn f).tok.held.length

/-- A function's registers after a disable: those of reset, but for the lost count (R696). -/
theorem finishDisable_fn : (finishDisable f s).fn f =
    { (s.fn f).resetHi with disabling := .no, newTenant := none, lost := satBv (s.fn f).lost (heldRecords f s) } :=
  State.fn_modFn_same ..

theorem finishDisable_onlyChanges (h : (s.fn f).newTenant = none) : OnlyChanges [.host, .tt] s (finishDisable f s) := by
  have htn : (finishDisable f s).tn = s.tn := by simp [finishDisable, State.modFn, h]
  intro p hp
  cases p <;> simp [sameZone, htn] at hp ⊢

/-- A function whose drain has ended (R696). -/
def markEnding (f : Nat) (s : State) : State := s.modFn f (fun r => { r with disabling := .ending })

theorem markEnding_sq (n : Nat) : (markEnding f s).sq n = s.sq n := rfl

theorem markEnding_cq (n : Nat) : (markEnding f s).cq n = s.cq n := rfl

theorem markEnding_fn : (markEnding f s).fn f = { s.fn f with disabling := .ending } := State.fn_modFn_same ..

theorem settleDisable_of_idle (hd : (s.fn f).disabling = .ending) (hw : ∀ w ∈ s.work, w.fn ≠ f) :
    settleDisable f s = finishDisable f s := by
  unfold settleDisable
  refine if_pos ⟨hd, ?_⟩
  rw [Bool.not_eq_true', List.any_eq_false]
  intro w hmem
  simp [hw w hmem]

theorem filter_fn_of_idle {p : Work → Bool} (hw : ∀ w ∈ s.work, w.fn ≠ f) : s.work.filter (fun w => w.fn == f && p w) = [] :=
  List.filter_eq_nil_iff.2 (fun w hmem => by simp [hw w hmem])

/-- Where no descriptor of a draining function is left, the end of its drain is the end of the disable (R696). -/
theorem functionDisableDrainEnd_idle (hl : s.live = true) (hd : (s.fn f).disabling = .draining) (hw : ∀ w ∈ s.work, w.fn ≠ f) :
    exec (.functionDisableDrainEnd f) s = .next (s.kept (finishDisable f (markEnding f s))) := by
  simp only [exec, execFunctionDisableDrainEnd, actIf_of_live hl (decide_eq_true hd)]
  rw [filter_fn_of_idle hw]
  have hsettle : settleDisable f (markEnding f s) = finishDisable f (markEnding f s) :=
    settleDisable_of_idle (congrArg FnRegs.disabling markEnding_fn) hw
  rw [← hsettle]
  rfl

end

end Sys2Proof.Machine

/-! # The obligation on disables of functions -/

namespace Sys2Proof.Machine

/-- Settles O18: each command starts the disables of its functions, and the end of a drain without descriptors resets the function. -/
theorem functionResets : Obligations.FunctionResets := by
  unfold Obligations.FunctionResets
  refine ⟨fun s n hp hm hv hn => ?vfEnable, fun s v hr h1 h16 hd => ?vfFlr, fun s v hr h1 h16 hd => ?again,
    fun s v hr hro h2 h17 hd => ?disable, fun s hr => ?pfFlr, fun s hr hv => ?vfClear, fun s f hl hd hw ht => ?drainEnd⟩
  case vfEnable =>
    simp only [Completes, exec, execVfEnableSet]
    refine actIf_completes (live_of_portOpen hp) (by simpa [hp, hv, hn] using hm) ?_
    exact ⟨rfl, (onlyChanges_set_host s _).kept⟩
  case vfFlr =>
    obtain ⟨hself, hothers, hstopped, hturns, hcqs, hframe⟩ := disableStarts hd
    have htok : ((startDisable v s).fn v).tok = (s.fn v).tok := by rw [hself]
    simp only [Completes, exec, execVfFlr]
    refine actIf_completes (live_of_reaches hr) (by simp [hr, h1, h16]) ?_
    exact ⟨congrArg FnRegs.disabling hself, hstopped, hturns, hothers, hcqs, htok, hframe.kept⟩
  case again =>
    simp only [Completes, exec, execVfFlr]
    refine actIf_completes (live_of_reaches hr) (by simp [hr, h1, h16]) ?_
    rw [startDisable_of_disabling hd]
    exact (OnlyChanges.refl _ s).kept
  case disable =>
    obtain ⟨hself, hothers, hstopped, hturns, -, hframe⟩ := disableStarts hd
    simp only [Completes, exec, execFunctionDisable]
    refine actIf_completes (live_of_reaches hr) (by simp [writes, hr, hro, h2, h17]) ?_
    exact ⟨congrArg FnRegs.disabling hself, hstopped, hturns, hothers, hframe.kept⟩
  case pfFlr =>
    have hmem {f : Nat} (hf : f ≤ 16) : f ∈ List.range 17 := List.mem_range.2 (by omega)
    have hdisabled (f : Nat) (hf : f ≤ 16) : ((disableAll (List.range 17) s).fn f).disabling ≠ .no := disableAll_disabling (hmem hf)
    have hstopped (n : Nat) (hn : n < 256) (hd : (s.fn (ringFn n)).disabling = .no) :
        ((disableAll (List.range 17) s).sq n).st ≠ .running := disableAll_not_running (hmem (ringFn_le hn)) hd
    have hframe := disableAll_onlyChanges (List.range 17) s
    refine completes_pfFlr hr ?_
    generalize disableAll (List.range 17) s = u at *
    exact ⟨hdisabled, hstopped, hframe.kept⟩
  case vfClear =>
    have hzero : 0 ∉ (List.range 16).map (· + 1) := by simp
    have hdisabled (f : Nat) (h1 : 1 ≤ f) (h16 : f ≤ 16) : ((disableAll ((List.range 16).map (· + 1)) s).fn f).disabling ≠ .no :=
      disableAll_disabling (List.mem_map.2 ⟨f - 1, List.mem_range.2 (by omega), by omega⟩)
    have hfn := disableAll_fn_other (s := s) hzero
    have hturns (n : Nat) (hn : ringFn n = 0) := disableAll_sq_other (s := s) (n := n) (hn ▸ hzero)
    have hframe := disableAll_onlyChanges ((List.range 16).map (· + 1)) s
    simp only [Completes, exec, execVfEnableClear, disableVfs_eq]
    refine actIf_completes (live_of_reaches hr) (by simp [hr, hv]) ?_
    generalize disableAll ((List.range 16).map (· + 1)) s = u at *
    exact ⟨rfl, hdisabled, hfn, hturns, (hframe.trans ((onlyChanges_set_host u _).mono (by simp))).kept⟩
  case drainEnd =>
    have hfn := finishDisable_fn (s := markEnding f s) (f := f)
    have htenant : ((markEnding f s).fn f).newTenant = none := by
      rw [markEnding_fn]
      exact ht
    rw [markEnding_fn] at hfn
    refine ⟨_, functionDisableDrainEnd_idle hl hd hw, congrArg FnRegs.disabling hfn, congrArg FnRegs.evtEnable hfn, congrArg FnRegs.tok hfn,
      (le_toNat_satBv ..).trans_eq (congrArg (fun r : FnRegs => r.lost.toNat) hfn).symm, fun n hn => ?_, fun n hn => ?_, OnlyChanges.kept ?_⟩
    · rw [State.kept_sq, State.kept_cq, finishDisable_sq, finishDisable_cq, if_pos hn, if_pos hn]
      exact ⟨rfl, rfl⟩
    · rw [State.kept_sq, State.kept_cq, finishDisable_sq, finishDisable_cq, if_neg hn, if_neg hn]
      exact ⟨markEnding_sq n, markEnding_cq n⟩
    · exact ((modFn_onlyChanges s f _).mono (by simp)).trans (finishDisable_onlyChanges htenant)

end Sys2Proof.Machine

/-! # Image control

SUPPORT. What changing the program of a work item does to the list of work, an image operation that fails, and an image-control
descriptor that starts in its turn (R160, R163 to R166). -/

namespace Sys2Proof.Machine

section
variable {s : State} {w : Work} {p : Prog} {wid : Nat} {op : Byte}

/-! ## The list of work -/

theorem find?_updateFirst {α : Type} {q : α → Bool} {f : α → α} (hf : ∀ a, q (f a) = q a) (l : List α) :
    (updateFirst q f l).find? q = (l.find? q).map f := by
  induction l with
  | nil => rfl
  | cons a l ih => cases h : q a <;> simp [updateFirst, h, hf, ih]

/-- The first work item of a number takes the program; what else it says stays. -/
theorem item_setProg (s : State) (wid : Nat) (p : Prog) : (s.setProg wid p).item wid = (s.item wid).map (fun x => { x with prog := p }) :=
  find?_updateFirst (q := fun x : Work => x.wid == wid) (f := fun x : Work => { x with prog := p }) (fun _ => rfl) s.work

theorem at_setProg (h : s.item w.wid = some w) : At w p (s.setProg w.wid p) := by
  simp [At, item_setProg, h]

theorem setProg_onlyChanges (s : State) (wid : Nat) (p : Prog) : OnlyChanges [.work] s (s.setProg wid p) := onlyChanges_set_work s _

/-! ## A failure (R160, R161) -/

theorem imageFail_img (w : Work) (st : Status) (f : ImgFail) (s : State) :
    (imageFail w st f s).img = { s.img with err := f.toErr, st := settledState s } := by
  unfold imageFail
  split <;> simp

theorem imageFail_gone (w : Work) (st : Status) (f : ImgFail) (s : State) : Gone w (imageFail w st f s) := complete_item ..

/-! ## Starting (R164 to R166) -/

variable {f : Work → State → State}

theorem startImage_physical (h : MayStart s w op) (ha : imageAhead w s = false) (hf : w.fn = 0) :
    startImage w.wid op s f = .next (s.kept (f w s)) := by
  simp [startImage, start_of_mayStart h, ha, hf]

theorem startImage_virtual (h : MayStart s w op) (ha : imageAhead w s = false) (hf : w.fn ≠ 0) :
    startImage w.wid op s f = .next (s.kept (imageFail w .malformed { cause := 0x22 } s)) := by
  simp [startImage, start_of_mayStart h, ha, hf]

theorem readImage_aligned (hf : w.fn = 0) (h : dat w.body 8 64 % 8 = 0) :
    readImage w s = (s.setProg w.wid (.image .reading)).emit (.hostRead 0 (dat w.body 8 64) (dat w.body 16 32)) := by
  simp [readImage, h, hf]

theorem readImage_misaligned (h : dat w.body 8 64 % 8 ≠ 0) : readImage w s = imageFail w .malformed { cause := 0x24 } s := by
  simp [readImage, h]

/-- The read of the image issued: its descriptor is at the stage of reading, and one request to the host is sent. -/
theorem readImage_issues (hi : s.item w.wid = some w) (hf : w.fn = 0) (h : dat w.body 8 64 % 8 = 0) :
    (readImage w s).out = s.out ++ [.hostRead 0 (dat w.body 8 64) (dat w.body 16 32)] ∧ At w (.image .reading) (readImage w s) ∧
      (readImage w s).img = s.img ∧ OnlyChanges [.work, .out] s (readImage w s) := by
  rw [readImage_aligned hf h]
  exact ⟨rfl, at_setProg hi, rfl,
    ((setProg_onlyChanges s _ _).mono (by simp)).trans ((emit_onlyChanges _ _).mono (by simp))⟩

/-- A descriptor of a virtual function ends with cause 0x22, the image in force and DRAINING staying (R165). -/
theorem virtual_completes {c : Instr} (hc : exec c s = startImage w.wid op s f) (h : MayStart s w op) (ha : imageAhead w s = false)
    (hf : w.fn ≠ 0) : Completes c s (fun t =>
      Gone w t ∧ t.img.err.cause = 0x22 ∧ t.img.image = s.img.image ∧ t.img.draining = s.img.draining) := by
  refine ⟨_, hc.trans (startImage_virtual h ha hf), imageFail_gone .., ?_⟩
  rw [State.kept_img, imageFail_img]
  exact ⟨rfl, rfl, rfl⟩

/-- A misaligned ADDR ends the operation with cause 0x24, the image in force staying (R164). -/
theorem readImage_misaligned_fails (h : dat w.body 8 64 % 8 ≠ 0) :
    Gone w (readImage w s) ∧ (readImage w s).img.err.cause = 0x24 ∧ (readImage w s).img.image = s.img.image := by
  rw [readImage_misaligned h, imageFail_img]
  exact ⟨imageFail_gone .., rfl, rfl⟩

/-! ## The four commands (R163) -/

/-- DRAINING is set or cleared and the descriptor ends (R168). -/
def setDraining (d : Bool) (w : Work) (s : State) : State := complete w .ok 0 { s with img := { s.img with draining := d } }

/-- A load in its turn waits for a tenant switch to end, then reads its image (R170, R723). -/
def beginLoad (w : Work) (s : State) : State :=
  if s.tn.switch.isSome then s else readImage w { s with img := { s.img with st := .loading } }

theorem exec_drainBegin (wid : Nat) (s : State) : exec (.drainBegin wid) s = startImage wid 0x71 s (setDraining true) := rfl
theorem exec_drainEnd (wid : Nat) (s : State) : exec (.drainEnd wid) s = startImage wid 0x72 s (setDraining false) := rfl
theorem exec_imageLoad (wid : Nat) (s : State) : exec (.imageLoad wid) s = startImage wid 0x70 s beginLoad := rfl
theorem exec_imageCheck (wid : Nat) (s : State) : exec (.imageCheck wid) s = startImage wid 0x73 s readImage := rfl

theorem physical_completes {c : Instr} {P : State → Prop} (hc : exec c s = startImage w.wid op s f) (h : MayStart s w op)
    (ha : imageAhead w s = false) (hf : w.fn = 0) (hP : P (s.kept (f w s))) : Completes c s P :=
  ⟨_, hc.trans (startImage_physical h ha hf), hP⟩

theorem setDraining_result (d : Bool) (w : Work) (s : State) :
    s.kept (setDraining d w s) = setDraining d w s ∧ (setDraining d w s).img = { s.img with draining := d } ∧ Gone w (setDraining d w s) ∧
      OnlyChanges [.host, .work, .img, .tt, .ft, .tn, .out] s (setDraining d w s) :=
  ⟨State.kept_eq (by simp [setDraining]) (by simp [setDraining]), by simp [setDraining], complete_item ..,
    ((onlyChanges_set_img s _).mono (by simp)).trans (OnlyChanges.mono (complete_onlyChanges w .ok 0 _ 0) (by simp))⟩

theorem beginLoad_of_noSwitch (hs : s.tn.switch = none) :
    beginLoad w s = readImage w { s with img := { s.img with st := .loading } } := by
  simp [beginLoad, hs]

theorem Completes.imp {c : Instr} {P Q : State → Prop} (h : Completes c s P) (hPQ : ∀ t, P t → Q t) : Completes c s Q :=
  Exists.imp (fun t ht => ⟨ht.1, hPQ t ht.2⟩) h

end

/-! # The obligation on image control -/

/-- Settles O12: each command starts in its turn, ends at once where a test of it fails, and otherwise sets DRAINING or issues the read. -/
theorem imageControl : Obligations.ImageControl := by
  unfold Obligations.ImageControl
  refine ⟨fun s w h ha hf => ?drainBegin, fun s w h ha hf => ?drainEnd, fun s w h ha hf hs hd => ?load, fun s w h ha hf hd => ?check,
    fun s w h ha hf hs hd => ?loadMisaligned, fun s w h ha hf hd => ?checkMisaligned, fun s w h ha hf => ?loadVirtual,
    fun s w h ha hf => ?beginVirtual, fun s w h ha hf => ?endVirtual, fun s w h ha hf => ?checkVirtual⟩
  case drainBegin =>
    obtain ⟨hkept, himg, hgone, hframe⟩ := setDraining_result true w s
    refine physical_completes (exec_drainBegin w.wid s) h ha hf ?_
    rw [hkept]
    exact ⟨rfl, himg, hgone, hframe⟩
  case drainEnd =>
    obtain ⟨hkept, himg, hgone, hframe⟩ := setDraining_result false w s
    refine physical_completes (exec_drainEnd w.wid s) h ha hf ?_
    rw [hkept]
    exact ⟨rfl, himg, hgone, hframe⟩
  case load =>
    obtain ⟨hout, hat, himg, hframe⟩ := readImage_issues (s := { s with img := { s.img with st := .loading } }) h.1 hf hd
    refine physical_completes (exec_imageLoad w.wid s) h ha hf ?_
    rw [beginLoad_of_noSwitch hs]
    exact ⟨himg, hout, hat, (((onlyChanges_set_img s _).mono (by simp)).trans (hframe.mono (by simp))).kept⟩
  case check =>
    obtain ⟨hout, hat, -, hframe⟩ := readImage_issues h.1 hf hd
    exact physical_completes (exec_imageCheck w.wid s) h ha hf ⟨hout, hat, hframe.kept⟩
  case loadMisaligned =>
    refine physical_completes (exec_imageLoad w.wid s) h ha hf ?_
    rw [beginLoad_of_noSwitch hs]
    exact readImage_misaligned_fails hd
  case checkMisaligned => exact physical_completes (exec_imageCheck w.wid s) h ha hf (readImage_misaligned_fails hd)
  case loadVirtual =>
    exact (virtual_completes (exec_imageLoad w.wid s) h ha hf).imp fun _ ⟨hgone, hcause, himage, _⟩ => ⟨hgone, hcause, himage⟩
  case beginVirtual =>
    exact (virtual_completes (exec_drainBegin w.wid s) h ha hf).imp fun _ ⟨hgone, hcause, _, hdraining⟩ => ⟨hgone, hcause, hdraining⟩
  case endVirtual =>
    exact (virtual_completes (exec_drainEnd w.wid s) h ha hf).imp fun _ ⟨hgone, hcause, _, hdraining⟩ => ⟨hgone, hcause, hdraining⟩
  case checkVirtual =>
    exact (virtual_completes (exec_imageCheck w.wid s) h ha hf).imp fun _ ⟨hgone, hcause, himage, _⟩ => ⟨hgone, hcause, himage⟩

end Sys2Proof.Machine

/-! # A load that passes, and the image it passes with

SUPPORT. What a validated load makes of a device that is not drained (R170), and the smallest image that passes every check of
R127 to R160, signed with the secret scalar 1. -/

namespace Sys2Proof.Machine

/-! ## A validated load drains the device -/

/-- A validated load waits for drain: the image is staged, DRAINING is set, and the first work item of the load's number drains. -/
theorem execImageReadComplete_drains {s : State} {w : Work} {b : List Byte} (hl : s.live = true) (hw : imageAt .reading s = some w)
    (hb : b.length = min (dat w.body 16 32) 0x1000000) (hop : w.opcode ≠ 0x73) (hv : validateImage s b (dat w.body 16 32) = none)
    (hd : drainedNow s = false) (hwait : dat w.body 20 32 ≠ 0) :
    execImageReadComplete (some b) s = .next (s.kept
      ({ s with img := { s.img with staged := some (parseImage b, b), draining := true } }.setProg w.wid (.image .draining))) := by
  have hd' : drainedNow { s with img := { s.img with staged := some (parseImage b, b) } } = false := hd
  rw [execImageReadComplete, act_of_live hl]
  simp only [hw, hb, hv, hop, loadStaged, hd', hwait, ne_eq, not_true_eq_false, if_false, Bool.false_eq_true]

/-- Where the number names the load, it is the load that drains (R170). -/
theorem imageReadComplete_drains_load {s : State} {w : Work} {b : List Byte} (hi : s.item w.wid = some w) (hl : s.live = true)
    (hw : imageAt .reading s = some w) (hb : b.length = min (dat w.body 16 32) 0x1000000) (hop : w.opcode ≠ 0x73)
    (hv : validateImage s b (dat w.body 16 32) = none) (hd : drainedNow s = false) (hwait : dat w.body 20 32 ≠ 0) :
    Completes (.imageReadComplete (some b)) s (fun t =>
      t.img = { s.img with staged := some (parseImage b, b), draining := true } ∧ At w (.image .draining) t ∧ OnlyChanges [.img, .work] s t) :=
  ⟨_, execImageReadComplete_drains hl hw hb hop hv hd hwait, rfl, at_setProg hi,
    (((onlyChanges_set_img s _).mono (by simp)).trans ((setProg_onlyChanges _ _ _).mono (by simp))).kept⟩

/-! ## An image -/

/-- Bytes filled up with zeros to a length. -/
def fillTo (n : Nat) (l : List Byte) : List Byte := l ++ List.replicate (n - l.length) 0

/-- The sections, each with its type: a GENERATION node with one partition of the four Groves (R134), two codec Stands a Grove (R136),
one region of key-value pages (R139), 512 Timetable entries a Station (R144), Lantern 0 alone (R147), one recomputation and WAYBILL_N
of 1 (R150), one format (R154) and no firmware named (R158). -/
def leastSections : List (Nat × List Byte) :=
  [(1, fillTo 40 (fillTo 8 [1, 1] ++ [15])),
   (2, (List.range 4).flatMap (fun _ => fillTo 96 [1, 1])),
   (3, fillTo 8 [1] ++ fillTo 32 ([0, 0, 1, 0, 0, 0, 1, 0] ++ leBytes 8 0 ++ leBytes 8 0x200000)),
   (4, fillTo 160 ((List.range 4).flatMap (fun _ => leBytes 2 512))),
   (5, fillTo 1032 (fillTo 8 [1] ++ fillTo 8 [] ++ (List.range 8).flatMap (fun c => fillTo 12 [if c < 2 then 0 else 1, 0, 1]))),
   (6, fillTo 16 [0, 1, 0, 0, 1]),
   (7, fillTo 8 [1]),
   (9, fillTo 168 [])]

/-- Directory entries of sections that stand one after the other from an offset (R128). -/
def directoryBytes (offset : Nat) : List (Nat × List Byte) → List Byte
  | [] => []
  | (t, b) :: r => leBytes 2 t ++ leBytes 2 1 ++ leBytes 4 0 ++ leBytes 4 offset ++ leBytes 4 b.length ++ directoryBytes (offset + b.length) r

/-- Everything before the signature block: header, directory and sections (R126 to R128). -/
def leastBody : List Byte :=
  fillTo 128 (leBytes 4 0x53594C43 ++ leBytes 2 1 ++ leBytes 2 128 ++ leBytes 4 2360 ++ leBytes 2 8 ++ [2]) ++
    directoryBytes 256 leastSections ++ leastSections.flatMap Prod.snd

/-- The image: its body and its signature block, of the secret scalar 1 (R130, R131). -/
def leastImage : List Byte :=
  leastBody ++ fillTo 256 (leBytes 4 0x4749534C ++ leBytes 4 0 ++ publicKey 1 ++ leBytes 96 (ecdsaSign 1 1 (sha384 leastBody)).toNat)

/-! ## Two descriptors of one number -/

/-- An IMAGE_LOAD that has read 2,360 bytes and may wait for drain (R164, R170). -/
def readLoad : Work :=
  { wid := 5, src := .ring 0 0, fn := 0, tag := 0, opcode := 0x70, context := 0, fence := false, irq := false, silent := false,
    body := BitVec.ofNat 512 (2360 * 2 ^ (8 * 16) + 2 ^ (8 * 20)), fetchSc := 0, tenant := 0, part := 0, prog := .image .reading }

/-- A matrix operation, not started, that bears the same number. -/
def namesake : Work := { readLoad with opcode := 0x20, prog := .waiting }

/-- A device whose manifest names the signer of `leastImage`, the matrix operation standing before the load of its number. -/
def clashState : State :=
  { State.reset with
    flash := { State.reset.flash with active := { State.reset.flash.active with signers := [sha384 (publicKey 1)] } }
    work := [namesake, readLoad] }

theorem leastImage_length : leastImage.length = min (dat readLoad.body 16 32) 0x1000000 := by decide +kernel

theorem leastImage_valid : validateImage clashState leastImage (dat readLoad.body 16 32) = none := by decide +kernel

/-- When the image has been read, it is the matrix operation that the model marks as draining. -/
theorem clashState_drains_namesake :
    ∃ t, exec (.imageReadComplete (some leastImage)) clashState = .next t ∧ t.item readLoad.wid = some { namesake with prog := .image .draining } :=
  ⟨_, execImageReadComplete_drains (by decide) (by decide +kernel) leastImage_length (by decide) leastImage_valid (by decide +kernel)
    (by decide +kernel), item_setProg ..⟩

/-! # The obligation on an image's application -/

/-- Refutes O13, by its third clause (a validated load on a device that is not drained is then at the stage of draining). The clause
names the load by its stage, while the model marks the first work item of the load's number, and nothing in the statement makes the two
the same: in `clashState` a matrix operation bears the number too and stands first, so that it is marked in the load's place. Where the
number names the load, the clause holds (`imageReadComplete_drains_load`). -/
theorem not_imageApplication : ¬ Obligations.ImageApplication := by
  unfold Obligations.ImageApplication
  rintro ⟨-, -, hdrains, -⟩
  obtain ⟨t, ht, -, hat, -⟩ := hdrains clashState readLoad leastImage (by decide) (by decide +kernel) leastImage_length rfl leastImage_valid
    (by decide +kernel) (by decide +kernel)
  obtain ⟨u, hu, hitem⟩ := clashState_drains_namesake
  obtain rfl : t = u := Host.Outcome.next.inj (ht.symm.trans hu)
  have hsame := Option.some.inj (hitem.symm.trans hat)
  exact absurd (congrArg Work.opcode hsame) (by decide)

end Sys2Proof.Machine

/-! # Groves, Stands and slots as read after a change

SUPPORT. What a Stand, a physical Stand, a Grove and a Canopy slot read as after an update, commands that start or go on, and an
operation whose record has room (R99, R262). -/

namespace Sys2Proof.Machine

section
variable {s t : State} {w : Work}

/-! ## Reads after an update -/

theorem State.stand_modStand_same (s : State) (g l : Nat) (f : Stand → Stand) : (s.modStand g l f).stand g l = f (s.stand g l) :=
  tget_tmod_same ..

theorem State.phys_modPhys_same (s : State) (g p : Nat) (f : Phys → Phys) : (s.modPhys g p f).phys g p = f (s.phys g p) :=
  tget_tmod_same ..

theorem State.cslot_modSlotC_same (s : State) (g k : Nat) (f : Slot → Slot) : (s.modSlotC g k f).cslot g k = f (s.cslot g k) :=
  tget_tmod_same ..

theorem State.cslot_modSlotC_other {g k a b : Nat} {f : Slot → Slot} (h : 256 * a + b ≠ 256 * g + k) :
    (s.modSlotC g k f).cslot a b = s.cslot a b :=
  tget_tmod_other _ _ _ _ _ h

@[simp] theorem State.stand_modGrove (s : State) (n g l : Nat) (f : Grove → Grove) : (s.modGrove n f).stand g l = s.stand g l := rfl
@[simp] theorem State.grove_modStand (s : State) (n l g : Nat) (f : Stand → Stand) : (s.modStand n l f).grove g = s.grove g := rfl
@[simp] theorem State.stand_modPhys (s : State) (n p g l : Nat) (f : Phys → Phys) : (s.modPhys n p f).stand g l = s.stand g l := rfl
@[simp] theorem State.grove_modPhys (s : State) (n p g : Nat) (f : Phys → Phys) : (s.modPhys n p f).grove g = s.grove g := rfl
@[simp] theorem State.kept_cslot (s t : State) (g k : Nat) : (s.kept t).cslot g k = t.cslot g k := rfl

theorem stand_of_groves_eq (h : t.groves = s.groves) (g l : Nat) : t.stand g l = s.stand g l := by rw [State.stand, h, State.stand]
theorem phys_of_groves_eq (h : t.groves = s.groves) (g p : Nat) : t.phys g p = s.phys g p := by rw [State.phys, h, State.phys]
theorem grove_of_groves_eq (h : t.groves = s.groves) (g : Nat) : t.grove g = s.grove g := by rw [State.grove, h, State.grove]
theorem cslot_of_groves_eq (h : t.groves = s.groves) (g k : Nat) : t.cslot g k = s.cslot g k := by rw [State.cslot, h, State.cslot]

/-! ## Frames -/

theorem modStand_onlyChanges (s : State) (g l : Nat) (f : Stand → Stand) : OnlyChanges [.groves] s (s.modStand g l f) :=
  onlyChanges_set_groves s _

theorem modPhys_onlyChanges (s : State) (g p : Nat) (f : Phys → Phys) : OnlyChanges [.groves] s (s.modPhys g p f) :=
  onlyChanges_set_groves s _

theorem modSlotC_onlyChanges (s : State) (g k : Nat) (f : Slot → Slot) : OnlyChanges [.groves] s (s.modSlotC g k f) :=
  onlyChanges_set_groves s _

theorem OnlyChanges.img_eq {ps : List Zone} (h : OnlyChanges ps s t) (hp : .img ∉ ps) : t.img = s.img :=
  of_decide_eq_true (h .img hp)

theorem OnlyChanges.waybill_eq {ps : List Zone} (h : OnlyChanges ps s t) (hp : .waybill ∉ ps) : t.waybill = s.waybill :=
  of_decide_eq_true (h .waybill hp)

/-- A change of neither the fuses nor the queue is a command's whole effect. -/
theorem OnlyChanges.kept_eq {ps : List Zone} (h : OnlyChanges ps s t) (hf : .fuses ∉ ps) (hq : .pending ∉ ps) : s.kept t = t :=
  State.kept_eq (of_decide_eq_true (h .fuses hf)) (of_decide_eq_true (h .pending hq))

/-! ## Commands that start, and that go on -/

theorem completes_of_start {c : Instr} {op : Byte} {f : Work → State → State} {P : State → Prop} (hc : exec c s = start w.wid op s f)
    (h : MayStart s w op) (hP : P (s.kept (f w s))) : Completes c s P :=
  ⟨_, hc.trans (start_of_mayStart h), hP⟩

/-- A descriptor in flight goes on where its progress is of the kind the command awaits. -/
theorem completes_of_resume {α : Type} {c : Instr} {sel : Prog → Option α} {a : α} {f : Work → α → State → State} {P : State → Prop}
    (hc : exec c s = resume w.wid s sel f) (hi : s.item w.wid = some w) (ha : s.awake = true) (hs : sel w.prog = some a)
    (hP : P (s.kept (f w a s))) : Completes c s P := by
  refine ⟨_, hc, ?_⟩
  simpa [resume, hi, ha, hs] using hP

/-- A descriptor whose checks fail completes with the cause, and nothing else changes. -/
theorem completes_of_refused {c : Instr} {op : Byte} {f : Work → State → State} {st : Status} {r : Nat}
    (hc : exec c s = start w.wid op s f) (h : MayStart s w op) (hf : f w s = complete w st r s) :
    Completes c s (fun t => t = complete w st r s ∧ Gone w t ∧ OnlyChanges [.host, .work, .tt, .ft, .tn, .out] s t) := by
  have hframe := complete_onlyChanges w st r s 0
  refine completes_of_start hc h ?_
  rw [hf, hframe.kept_eq (by simp) (by simp)]
  exact ⟨rfl, complete_item .., hframe⟩

/-! ## The list of work -/

theorem find?_updateFirst_other {α : Type} {p q : α → Bool} {f : α → α} (hq : ∀ a, q (f a) = q a) (hpq : ∀ a, p a = true → q a = false)
    (l : List α) : (updateFirst p f l).find? q = l.find? q := by
  induction l with
  | nil => rfl
  | cons a l ih =>
    by_cases hp : p a = true
    · simp [updateFirst, hp, hq, hpq a hp]
    · cases hqa : q a <;> simp [updateFirst, hp, hqa, ih]

theorem item_setProg_other {wid x : Nat} (h : x ≠ wid) (s : State) (p : Prog) : (s.setProg wid p).item x = s.item x :=
  find?_updateFirst_other (q := fun y : Work => y.wid == x) (f := fun y : Work => { y with prog := p }) (fun _ => rfl)
    (fun a ha => by simp only [beq_iff_eq] at ha; simp [ha, Ne.symm h]) s.work

/-! ## An operation whose record has room (R262, R271) -/

theorem wbRoom_congr (hc : t.waybill.chains = s.waybill.chains) (hi : t.img = s.img) (p : Nat) : wbRoom p t = wbRoom p s := by
  have hchain : t.chain p = s.chain p := by rw [State.chain, hc, State.chain]
  have hcap : wbCapacity t = wbCapacity s := by simp only [wbCapacity, State.partitions, hi]
  simp only [wbRoom, storeRoom, hchain, hcap]

/-- The operation completes once its record is appended, or is counted into its step. -/
theorem finishOp_of_room (h : wbRoom w.part s = true) (x : StepInfo) (r : Nat) (fr : BitVec 16) :
    ∃ u, finishOp w x r s fr = complete w x.status r u fr ∧ OnlyChanges [.waybill, .tt, .free] s u := by
  unfold finishOp
  split
  · exact ⟨_, rfl, (onlyChanges_set_tt s _).mono (by simp)⟩
  · rw [if_pos h]
    exact ⟨_, rfl, (appendRec_onlyChanges w.part x s).mono (by simp)⟩

theorem finishOp_gone (h : wbRoom w.part s = true) (x : StepInfo) (r : Nat) (fr : BitVec 16) : Gone w (finishOp w x r s fr) := by
  obtain ⟨u, hu, -⟩ := finishOp_of_room h x r fr
  rw [hu]
  exact complete_item ..

theorem finishOp_groves (w : Work) (x : StepInfo) (r : Nat) (s : State) (fr : BitVec 16) : (finishOp w x r s fr).groves = s.groves :=
  (finishOp_onlyChanges w x r s fr).groves_eq (by decide)

end

end Sys2Proof.Machine

/-! # Matrix and vector operations that start

SUPPORT. An operation whose fields are good takes its number for sampling and is cut into tiles or chunks (R212, R223, R232, R255). -/

namespace Sys2Proof.Machine

section
variable {s : State} {w : Work}

/-- An operation of a number of tiles or chunks, none of them started. -/
def newTiles (w : Work) (total xk : Nat) (s : State) : TileOp := { total, cnt := (newOp w.part xk s).1 }

/-- The operation at its start. -/
def startTiles (w : Work) (total xk : Nat) (s : State) : State := (newOp w.part xk s).2.setProg w.wid (.tiles (newTiles w total xk s))

theorem startMat_of_good (h : matChecks w s = none) :
    startMat w s = startTiles w (tilesOf (matOf w).m (matOf w).n) (matOf w).xk s := by
  simp only [startMat, h, startTiles, newTiles]

theorem startMat_of_bad {st : Status} {r : Nat} (h : matChecks w s = some (st, r)) : startMat w s = complete w st r s := by
  simp only [startMat, h]

/-- VECTOR as it starts. -/
def startVec (w : Work) (s : State) : State :=
  match vecChecks w s with
  | some (st, r) => complete w st r s
  | none => startTiles w (ceilDiv (vecOf w).count 65536) 0xFF s

theorem startVec_of_good (h : vecChecks w s = none) : startVec w s = startTiles w (ceilDiv (vecOf w).count 65536) 0xFF s := by
  simp only [startVec, h]

theorem startVec_of_bad {st : Status} {r : Nat} (h : vecChecks w s = some (st, r)) : startVec w s = complete w st r s := by
  simp only [startVec, h]

theorem exec_matmul (wid : Nat) (s : State) : exec (.matmul wid) s = start wid 0x20 s startMat := rfl
theorem exec_matmulSparse (wid : Nat) (s : State) : exec (.matmulSparse wid) s = start wid 0x21 s startMat := rfl
theorem exec_vector (wid : Nat) (s : State) : exec (.vector wid) s = start wid 0x22 s startVec := rfl

/-- What a command leaves that starts an operation: its descriptor at the first tile, one operation numbered. -/
theorem completes_of_startTiles {c : Instr} {op : Byte} {f : Work → State → State} {total xk : Nat}
    (hc : exec c s = start w.wid op s f) (h : MayStart s w op) (hf : f w s = startTiles w total xk s) : Completes c s (fun t =>
      At w (.tiles (newTiles w total xk s)) t ∧ t.groves = { s.groves with opSeq := s.groves.opSeq + 1 } ∧
      (∀ x, x ≠ w.wid → t.item x = s.item x) ∧ OnlyChanges [.work, .groves] s t) := by
  have hitem : (newOp w.part xk s).2.item w.wid = some w := h.1
  refine completes_of_start hc h ?_
  rw [hf]
  exact ⟨at_setProg hitem, rfl, fun x hx => item_setProg_other hx (newOp w.part xk s).2 _,
    (((onlyChanges_set_groves s _).mono (by simp)).trans ((setProg_onlyChanges _ _ _).mono (by simp))).kept⟩

end

/-! # The obligation on the start of matrix and vector operations -/

/-- Settles O24: MATMUL, MATMUL_SPARSE and VECTOR start alike, each by its own checks and its own number of pieces. -/
theorem groveOperationsStart : Obligations.GroveOperationsStart := by
  unfold Obligations.GroveOperationsStart
  refine ⟨fun s w h hg => ?matmul, fun s w st r h hb => ?matmulBad, fun s w h hg => ?sparse, fun s w st r h hb => ?sparseBad,
    fun s w h hg => ?vector, fun s w st r h hb => ?vectorBad⟩
  case matmul => exact completes_of_startTiles (exec_matmul w.wid s) h (startMat_of_good hg)
  case matmulBad => exact completes_of_refused (exec_matmul w.wid s) h (startMat_of_bad hb)
  case sparse => exact completes_of_startTiles (exec_matmulSparse w.wid s) h (startMat_of_good hg)
  case sparseBad => exact completes_of_refused (exec_matmulSparse w.wid s) h (startMat_of_bad hb)
  case vector => exact completes_of_startTiles (exec_vector w.wid s) h (startVec_of_good hg)
  case vectorBad => exact completes_of_refused (exec_vector w.wid s) h (startVec_of_bad hb)

end Sys2Proof.Machine

/-! # Canopy slots

SUPPORT. A load whose operands are good starts or is refused by its slot's state, what its copy leaves in Canopy, and the commands that
free a slot (R226 to R228). -/

namespace Sys2Proof.Machine

/-! ## Bytes -/

theorem refRead_length (s : State) (r : Ref) (o n : Nat) : (refRead s r o n).length = n := by
  cases r with
  | hbm id off =>
    simp only [refRead]
    split <;> simp [regionRead]
  | canopy g k off => simp [refRead]
  | none => simp [refRead]
  | reserved => simp [refRead]

/-- Bytes stored from `a` are what is read there. -/
theorem memGet_memWrite_at (m : List Host.Cell) (a : Nat) (bs : List Byte) {i : Nat} (hi : i < bs.length) :
    memGet (memWrite m a bs) (a + i) = bs.getD i 0 := by
  induction bs generalizing m a i with
  | nil => simp at hi
  | cons b r ih =>
    rw [memWrite]
    cases i with
    | zero => rw [memGet_memWrite_other _ _ _ _ (by omega), Nat.add_zero, memGet_memPut_same, List.getD_cons_zero]
    | succ j => rw [show a + (j + 1) = a + 1 + j by omega, ih _ _ (by simpa using hi), List.getD_cons_succ]

section
variable {s t : State} {w : Work} {g k : Nat}

/-! ## A load starts -/

/-- What CANOPY_LOAD asks beside an EMPTY slot and room in it: operands of its own partition, and a length and a range of HBM that the
rules allow (R226). -/
def LoadOperandsGood (s : State) (w : Work) : Prop :=
  refForeign s w.part (refAt w.body 8) = false ∧ refForeign s w.part (.canopy (dat w.body 20 2) (dat w.body 21 8) 0) = false ∧
  1 ≤ dat w.body 16 32 ∧ dat w.body 16 32 ≤ 50331648 ∧ refBad s (refAt w.body 8) (dat w.body 16 32) = false ∧
  (refAt w.body 8).regionId.isSome = true

/-- A slot as a load that starts leaves it. -/
def startLoad (w : Work) (g k n b : Nat) (s : State) : State :=
  (s.setProg w.wid (.canopyLoad g k)).modSlotC g k (fun _ => { st := .loading, units := n, base := b })

theorem execCanopyLoad_of_room {b : Nat} (h : MayStart s w 0x23) (hg : LoadOperandsGood s w)
    (he : (s.cslot (dat w.body 20 2) (dat w.body 21 8)).st = .empty)
    (hb : canopyBase s (dat w.body 20 2) (ceilDiv (dat w.body 16 32) 65536) = some b) : execCanopyLoad w.wid s =
      .next (s.kept (startLoad w (dat w.body 20 2) (dat w.body 21 8) (ceilDiv (dat w.body 16 32) 65536) b s)) := by
  obtain ⟨hsrc, hdst, hmin, hmax, hbad, hregion⟩ := hg
  have hzero : dat w.body 16 32 ≠ 0 := by omega
  have hover : ¬ 50331648 < dat w.body 16 32 := by omega
  rw [execCanopyLoad, start_of_mayStart h]
  simp [firstFail, startLoad, hsrc, hdst, hzero, hover, hbad, Option.isNone_eq_false_iff.2 hregion, he, hb]

theorem execCanopyLoad_of_taken (h : MayStart s w 0x23) (hg : LoadOperandsGood s w)
    (he : (s.cslot (dat w.body 20 2) (dat w.body 21 8)).st ≠ .empty) :
    execCanopyLoad w.wid s = .next (s.kept (complete w .malformed 0x09 s)) := by
  obtain ⟨hsrc, hdst, hmin, hmax, hbad, hregion⟩ := hg
  have hzero : dat w.body 16 32 ≠ 0 := by omega
  have hover : ¬ 50331648 < dat w.body 16 32 := by omega
  rw [execCanopyLoad, start_of_mayStart h]
  simp [firstFail, hsrc, hdst, hzero, hover, hbad, Option.isNone_eq_false_iff.2 hregion, he]

theorem startLoad_spec (hi : s.item w.wid = some w) (n b : Nat) : At w (.canopyLoad g k) (startLoad w g k n b s) ∧
    (startLoad w g k n b s).cslot g k = { st := .loading, units := n, base := b } ∧
    (∀ x y, 256 * x + y ≠ 256 * g + k → (startLoad w g k n b s).cslot x y = s.cslot x y) ∧
    OnlyChanges [.work, .groves] s (startLoad w g k n b s) :=
  ⟨at_setProg hi, State.cslot_modSlotC_same .., fun _ _ h => State.cslot_modSlotC_other h,
    ((setProg_onlyChanges s _ _).mono (by simp)).trans ((modSlotC_onlyChanges _ _ _ _).mono (by simp))⟩

/-! ## The copy of a load -/

/-- What poisoning Canopy bytes keeps: every slot and every byte. -/
theorem refPoison_canopy_keeps (o i n : Nat) (t : State) : (refPoison (.canopy g k o) i n t).groves.slots = t.groves.slots ∧
    (refPoison (.canopy g k o) i n t).groves.canopy = t.groves.canopy ∧
    OnlyChanges [.groves] t (refPoison (.canopy g k o) i n t) :=
  ⟨rfl, rfl, onlyChanges_set_groves t _⟩

/-- The poison of the first `l` lines of a source of `len` bytes, marked at a slot (R253). -/
def copyPoison (src : Ref) (g k len l : Nat) (s t : State) : State :=
  (List.range l).foldl (fun t i =>
    if refPoisoned s src (64 * i) (min 64 (len - 64 * i)) then refPoison (.canopy g k 0) (64 * i) (min 64 (len - 64 * i)) t else t) t

theorem copyPoison_keeps (src : Ref) (len l : Nat) (s t : State) : (copyPoison src g k len l s t).groves.slots = t.groves.slots ∧
    (copyPoison src g k len l s t).groves.canopy = t.groves.canopy ∧ OnlyChanges [.groves] t (copyPoison src g k len l s t) := by
  unfold copyPoison
  generalize List.range l = lines
  induction lines generalizing t with
  | nil => exact ⟨rfl, rfl, .refl _ t⟩
  | cons i lines ih =>
    rw [List.foldl_cons]
    split
    · obtain ⟨hslots, hcanopy, hframe⟩ := refPoison_canopy_keeps (g := g) (k := k) 0 (64 * i) (min 64 (len - 64 * i)) t
      obtain ⟨hslots', hcanopy', hframe'⟩ := ih (refPoison (.canopy g k 0) (64 * i) (min 64 (len - 64 * i)) t)
      exact ⟨hslots'.trans hslots, hcanopy'.trans hcanopy, hframe.trans hframe'⟩
    · exact ih t

/-- A loaded slot is READY. -/
def Slot.loaded (c : Slot) : Slot := { c with st := if c.st = .loading then .ready else c.st }

/-- The state once the data and the poison of a load's source are in its slot. -/
def copied (w : Work) (g k : Nat) (s : State) : State :=
  (copyPoison (refAt w.body 8) g k (dat w.body 16 32) (ceilDiv (dat w.body 16 32) 64) s
    (refWrite (.canopy g k 0) 0 (refRead s (refAt w.body 8) 0 (dat w.body 16 32)) s)).modSlotC g k Slot.loaded

theorem copied_cslot (w : Work) (g k : Nat) (s : State) : (copied w g k s).cslot g k = (s.cslot g k).loaded := by
  obtain ⟨hslots, -, -⟩ := copyPoison_keeps (g := g) (k := k) (refAt w.body 8) (dat w.body 16 32) (ceilDiv (dat w.body 16 32) 64) s
    (refWrite (.canopy g k 0) 0 (refRead s (refAt w.body 8) 0 (dat w.body 16 32)) s)
  rw [copied, State.cslot_modSlotC_same, State.cslot, hslots]
  rfl

theorem copied_canopy {i : Nat} (hi : i < dat w.body 16 32) : memGet (copied w g k s).groves.canopy (canopyAddr s g k i) =
    (refRead s (refAt w.body 8) 0 (dat w.body 16 32)).getD i 0 := by
  obtain ⟨-, hcanopy, -⟩ := copyPoison_keeps (g := g) (k := k) (refAt w.body 8) (dat w.body 16 32) (ceilDiv (dat w.body 16 32) 64) s
    (refWrite (.canopy g k 0) 0 (refRead s (refAt w.body 8) 0 (dat w.body 16 32)) s)
  have hwritten : (copied w g k s).groves.canopy =
      memWrite s.groves.canopy (canopyAddr s g k 0) (refRead s (refAt w.body 8) 0 (dat w.body 16 32)) := hcanopy
  rw [hwritten, show canopyAddr s g k i = canopyAddr s g k 0 + i from rfl]
  exact memGet_memWrite_at _ _ _ (by rwa [refRead_length])

theorem copied_onlyChanges (w : Work) (g k : Nat) (s : State) : OnlyChanges [.groves] s (copied w g k s) := by
  obtain ⟨-, -, hframe⟩ := copyPoison_keeps (g := g) (k := k) (refAt w.body 8) (dat w.body 16 32) (ceilDiv (dat w.body 16 32) 64) s
    (refWrite (.canopy g k 0) 0 (refRead s (refAt w.body 8) 0 (dat w.body 16 32)) s)
  exact (onlyChanges_set_groves s _).trans (hframe.trans (modSlotC_onlyChanges _ _ _ _))

/-- A change of the Groves alone leaves a record's room as it was. -/
theorem wbRoom_of_groves (h : OnlyChanges [.groves] s t) (p : Nat) : wbRoom p t = wbRoom p s :=
  wbRoom_congr (by rw [h.waybill_eq (by simp)]) (h.img_eq (by simp)) p

/-- The end of a load: its record, RESULT being the slot's base. -/
def endLoad (w : Work) (gk : Nat × Nat) (s : State) : State :=
  finishOp w { opInfo w .ok [] with regions := inputRegions s [refAt w.body 8] } (s.cslot gk.1 gk.2).base (copied w gk.1 gk.2 s)

/-- The slot that a load in progress fills. -/
def loadSlot : Prog → Option (Nat × Nat)
  | .canopyLoad g k => some (g, k)
  | _ => none

theorem exec_canopyLoadComplete (wid : Nat) (s : State) : exec (.canopyLoadComplete wid) s = resume wid s loadSlot endLoad := rfl

/-! ## A free -/

/-- The slot that a free in progress waits to empty. -/
def freedSlot : Prog → Option (Nat × Nat)
  | .canopyFree g k => some (g, k)
  | _ => none

/-- The end of a free, unless an earlier operation names the slot (R228). -/
def endFree (w : Work) (gk : Nat × Nat) (s : State) : State :=
  if s.work.any (fun x => decide (x.wid < w.wid) && namesSlot gk.1 gk.2 x) then s
  else finishOp w (opInfo w .ok []) 0 (s.modSlotC gk.1 gk.2 (fun _ => {}))

theorem exec_canopyFreeComplete (wid : Nat) (s : State) : exec (.canopyFreeComplete wid) s = resume wid s freedSlot endFree := rfl

/-- A slot as a free that must wait leaves it. -/
def startFree (w : Work) (g k : Nat) (s : State) : State :=
  (s.setProg w.wid (.canopyFree g k)).modSlotC g k (fun c => { c with st := .freeing })

theorem execCanopyFree_of_held (h : MayStart s w 0x24) (hf : refForeign s w.part (.canopy (dat w.body 20 2) (dat w.body 21 8) 0) = false)
    (he : (s.cslot (dat w.body 20 2) (dat w.body 21 8)).st ≠ .empty) :
    execCanopyFree w.wid s = .next (s.kept (startFree w (dat w.body 20 2) (dat w.body 21 8) s)) := by
  rw [execCanopyFree, start_of_mayStart h]
  simp [startFree, hf, he]

theorem execCanopyFree_of_empty (h : MayStart s w 0x24) (hf : refForeign s w.part (.canopy (dat w.body 20 2) (dat w.body 21 8) 0) = false)
    (he : (s.cslot (dat w.body 20 2) (dat w.body 21 8)).st = .empty) :
    execCanopyFree w.wid s = .next (s.kept (finishOp w (opInfo w .ok []) 0 s)) := by
  rw [execCanopyFree, start_of_mayStart h]
  simp [hf, he]

theorem startFree_spec (hi : s.item w.wid = some w) : At w (.canopyFree g k) (startFree w g k s) ∧
    ((startFree w g k s).cslot g k).st = .freeing ∧ (startFree w g k s).groves.canopy = s.groves.canopy ∧
    OnlyChanges [.work, .groves] s (startFree w g k s) :=
  ⟨at_setProg hi, congrArg Slot.st (State.cslot_modSlotC_same ..), rfl,
    ((setProg_onlyChanges s _ _).mono (by simp)).trans ((modSlotC_onlyChanges _ _ _ _).mono (by simp))⟩

/-- An operation that ends with a record that has room is its completion. -/
theorem ends_of_room (hf : s.fuses = t.fuses) (hq : s.pending = t.pending) (h : wbRoom w.part t = true) (x : StepInfo) (r : Nat) :
    Ends w x.status r (s.kept (finishOp w x r t)) (OnlyChanges [.waybill, .tt, .free] t) := by
  obtain ⟨u, hu, hframe⟩ := finishOp_of_room h x r 0
  refine ⟨u, 0, ?_, hframe⟩
  rw [hu, State.kept_eq]
  · rw [complete_fuses, hf]
    exact of_decide_eq_true (hframe .fuses (by simp))
  · rw [complete_pending, hq]
    exact of_decide_eq_true (hframe .pending (by simp))

theorem Ends.imp {st : Status} {r : Nat} {P Q : State → Prop} (h : Ends w st r t P) (hPQ : ∀ u, P u → Q u) : Ends w st r t Q := by
  obtain ⟨u, fr, ht, hu⟩ := h
  exact ⟨u, fr, ht, hPQ u hu⟩

end

/-! # The obligation on Canopy slots -/

/-- Settles O27: a load and a free start by the state of their slot, and each ends with its slot READY or EMPTY. -/
theorem canopySlots : Obligations.CanopySlots := by
  unfold Obligations.CanopySlots
  refine ⟨fun s w b h hsrc hdst hmin hmax hbad hregion he hb => ?load, fun s w h hsrc hdst hmin hmax hbad hregion he => ?taken,
    fun s w g k hi ha hp hst hroom => ?loaded, fun s w h hf he => ?free, fun s w h hf he hroom => ?freeEmpty,
    fun s w g k hi ha hp hroom hnone => ?freed⟩
  case load =>
    obtain ⟨hat, hslot, hothers, hframe⟩ := startLoad_spec (g := dat w.body 20 2) (k := dat w.body 21 8) h.1
      (ceilDiv (dat w.body 16 32) 65536) b
    exact ⟨_, execCanopyLoad_of_room h ⟨hsrc, hdst, hmin, hmax, hbad, hregion⟩ he hb, hat, hslot, hothers, hframe.kept⟩
  case taken =>
    have hframe := complete_onlyChanges w .malformed 0x09 s 0
    refine ⟨_, execCanopyLoad_of_taken h ⟨hsrc, hdst, hmin, hmax, hbad, hregion⟩ he, ?_⟩
    rw [hframe.kept_eq (by simp) (by simp)]
    exact ⟨rfl, hframe⟩
  case loaded =>
    have hcopied := copied_onlyChanges w g k s
    have hroom' : wbRoom w.part (copied w g k s) = true := (wbRoom_of_groves hcopied _).trans hroom
    have hgroves : (endLoad w (g, k) s).groves = (copied w g k s).groves := finishOp_groves ..
    refine completes_of_resume (exec_canopyLoadComplete w.wid s) hi ha (a := (g, k)) (by rw [hp]; rfl)
      ⟨finishOp_gone hroom' _ _ _, ?_, ?_, ?_⟩
    · rw [State.kept_cslot, cslot_of_groves_eq hgroves, copied_cslot, Slot.loaded, hst, if_pos rfl]
    · intro i hlt
      rw [State.kept_groves, hgroves]
      exact copied_canopy hlt
    · exact ((hcopied.mono (by simp)).trans ((finishOp_onlyChanges w _ _ _ _).mono (by decide))).kept
  case free =>
    obtain ⟨hat, hslot, hcanopy, hframe⟩ := startFree_spec (g := dat w.body 20 2) (k := dat w.body 21 8) h.1
    exact ⟨_, execCanopyFree_of_held h hf he, hat, hslot, hcanopy, hframe.kept⟩
  case freeEmpty => exact ⟨_, execCanopyFree_of_empty h hf he, ends_of_room rfl rfl hroom _ _⟩
  case freed =>
    have hemptied : OnlyChanges [.groves] s (s.modSlotC g k (fun _ => {})) := modSlotC_onlyChanges _ _ _ _
    have hidle : s.work.any (fun x => decide (x.wid < w.wid) && namesSlot g k x) = false := by
      simpa using hnone
    refine completes_of_resume (exec_canopyFreeComplete w.wid s) hi ha (a := (g, k)) (by rw [hp]; rfl) ?_
    rw [endFree, if_neg (by simp only [hidle, Bool.false_eq_true, not_false_eq_true])]
    refine (ends_of_room rfl rfl ((wbRoom_of_groves hemptied _).trans hroom) _ _).imp fun u hu => ⟨?_, ?_⟩
    · rw [cslot_of_groves_eq (hu.groves_eq (by simp))]
      exact State.cslot_modSlotC_same ..
    · exact (hemptied.mono (by simp)).trans (hu.mono (by simp))

end Sys2Proof.Machine

/-! # Giving tiles to Stands

SUPPORT. The order of preference only ever gives an idle Stand (R230, R231, R249, R256), and what giving a tile to one leaves. -/

namespace Sys2Proof.Machine

section
variable {s : State} {w : Work} {x : Nat × Nat}

/-! ## A Stand that is given is idle -/

theorem lowestStand_mem {l : List (Nat × Nat)} (h : lowestStand l = some x) : x ∈ l := by
  induction l generalizing x with
  | nil => simp [lowestStand] at h
  | cons a l ih =>
    rw [lowestStand] at h
    split at h
    next y hy =>
      obtain rfl := Option.some.inj h
      split
      · exact List.mem_cons_of_mem _ (ih hy)
      · exact List.mem_cons_self
    next => exact Option.some.inj h ▸ List.mem_cons_self

theorem eq_some_of_orElse {α : Type} {a : Option α} {f : Unit → Option α} {x : α} (h : a.orElse f = some x) :
    a = some x ∨ f () = some x := by
  cases a with
  | none => exact .inr h
  | some y => exact .inl h

/-- Of a list of Stands, the one that last computed a tile of the operation, else the lowest. -/
def latestOf (last l : List (Nat × Nat)) : Option (Nat × Nat) :=
  match last.find? (fun x => l.any (· == x)) with
  | some x => some x
  | none => lowestStand l

theorem preferred_eq (best last cands : List (Nat × Nat)) : preferred best last cands =
    (latestOf last (cands.filter (fun x => best.any (· == x)))).orElse (fun _ => latestOf last cands) := rfl

theorem latestOf_mem {last l : List (Nat × Nat)} (h : latestOf last l = some x) : x ∈ l := by
  rw [latestOf] at h
  split at h
  next y hy =>
    have hany := List.find?_some hy
    obtain rfl := Option.some.inj h
    simpa using hany
  next => exact lowestStand_mem h

/-- Whichever way the preference within a rank falls, it falls on a candidate. -/
theorem preferred_mem {best last cands : List (Nat × Nat)} (h : preferred best last cands = some x) : x ∈ cands := by
  rcases eq_some_of_orElse ((preferred_eq best last cands).symm.trans h) with h | h
  · exact (List.mem_filter.1 (latestOf_mem h)).1
  · exact latestOf_mem h

theorem firstStand_idle {best last : List (Nat × Nat)} {rank r : Nat} {ranks : List (List (Nat × Nat))}
    (h : firstStand s best last rank r ranks = .ok x) : (s.stand x.1 x.2).busy = false := by
  induction ranks generalizing r with
  | nil => simp [firstStand] at h
  | cons c rest ih =>
    rw [firstStand] at h
    split at h
    · exact ih h
    · split at h
      next y hy =>
        obtain rfl := Except.ok.inj h
        simpa using (List.mem_filter.1 (preferred_mem hy)).2
      next =>
        split at h
        · simp at h
        · exact ih h

theorem lowestStand_idle {l : List (Nat × Nat)} (h : lowestStand (l.filter (fun y => !(s.stand y.1 y.2).busy)) = some x) :
    (s.stand x.1 x.2).busy = false := by
  simpa using (List.mem_filter.1 (lowestStand_mem h)).2

theorem againStand_idle {p duty : Nat} {t : TileSt} (h : againStand p t s duty = some x) : (s.stand x.1 x.2).busy = false := by
  have hfree (y : Nat × Nat) (hy : (if (s.stand y.1 y.2).busy then none else some y) = some x) : (s.stand x.1 x.2).busy = false := by
    split at hy
    · simp at hy
    next hidle =>
      obtain rfl := Option.some.inj hy
      simpa using hidle
  simp only [againStand] at h
  split at h
  · rcases eq_some_of_orElse h with h | h
    · have hmem := (List.mem_filter.1 (lowestStand_mem h)).1
      simpa using (List.mem_filter.1 hmem).2
    · exact lowestStand_idle h
  · split at h
    · exact lowestStand_idle h
    · split at h
      · exact hfree _ h
      · obtain ⟨y, -, hy⟩ := Option.bind_eq_some_iff.1 h
        exact hfree y hy

theorem placeTile_idle {c : ChkCnt} {t : TileSt} (h : placeTile w c t s = .ok x) : (s.stand x.1 x.2).busy = false := by
  rw [placeTile] at h
  split at h
  · exact firstStand_idle h
  · split at h
    next y hy => exact Except.ok.inj h ▸ againStand_idle hy
    next => simp at h

/-! ## A tile in its turn -/

/-- An operation once a tile in its turn has been given a Stand, or waits for one. -/
def TileOp.place (o : TileOp) (y : TileSt) (r : Except Nat (Nat × Nat)) (s : State) : TileOp :=
  { o with live := putTile (placed y r s) o.live, next := if y.idx = o.next then o.next + 1 else o.next }

/-- An operation of tiles may give its next tile to a Stand of its partition: its context is given work, no operand's slot is LOADING,
and the partition has a Stand (R227, R663, R697). -/
def MayDispatch (s : State) (w : Work) (o : TileOp) : Prop :=
  s.item w.wid = some w ∧ s.awake = true ∧ w.prog = .tiles o ∧ ctxGiven w s = true ∧ (operandRefs w).any (slotLoading s) = false ∧
  standsOf w.part 0 s ≠ []

theorem completes_tileDispatch {o : TileOp} {k : Nat} {y : TileSt} {P : State → Prop} (h : MayDispatch s w o)
    (hy : dispatchable w k o.live (o.nextTile w s) s = some y) (hg : waitsForGrove (placeTile w o.cnt y s) s = false)
    (hP : P (s.kept ((takeStand (placeTile w o.cnt y s) s).setProg w.wid (.tiles (o.place y (placeTile w o.cnt y s) s))))) :
    Completes (.tileDispatch w.wid k) s P := by
  obtain ⟨hi, ha, hp, hctx, hslots, hstands⟩ := h
  have hexec : execTileDispatch w.wid k s =
      .next (s.kept ((takeStand (placeTile w o.cnt y s) s).setProg w.wid (.tiles (o.place y (placeTile w o.cnt y s) s)))) := by
    simp only [execTileDispatch, resume, hi, ha, hp, hctx, hslots, List.isEmpty_eq_false_iff.2 hstands, hy, hg, Bool.not_true,
      Bool.false_eq_true, if_false, if_true]
    rfl
  exact ⟨_, hexec, hP⟩

/-! ## A wait that expires -/

/-- A waiting tile falls to the next rank (R231). -/
def TileSt.fall (k : Nat) (y : TileSt) : TileSt :=
  { y with rank := if y.idx = k ∧ y.running = none ∧ y.kind = .first ∧ y.rank < 4 then y.rank + 1 else y.rank }

theorem TileSt.fall_eq (k : Nat) (y : TileSt) :
    (if y.idx = k ∧ y.running.isNone ∧ y.kind = .first ∧ y.rank < 4 then { y with rank := y.rank + 1 } else y) = y.fall k := by
  simp only [TileSt.fall, Option.isNone_iff_eq_none]
  split <;> rfl

theorem completes_affinityWaitExpire {o : TileOp} {k : Nat} {P : State → Prop} (hi : s.item w.wid = some w) (ha : s.awake = true)
    (hp : w.prog = .tiles o) (hP : P (s.kept (s.setProg w.wid (.tiles { o with live := o.live.map (TileSt.fall k) })))) :
    Completes (.affinityWaitExpire w.wid k) s P := by
  have hexec : execAffinityWaitExpire w.wid k s =
      .next (s.kept (s.setProg w.wid (.tiles { o with live := o.live.map (TileSt.fall k) }))) := by
    simp only [execAffinityWaitExpire, resume, hi, ha, hp, TileSt.fall_eq, if_true]
  exact ⟨_, hexec, hP⟩

end

end Sys2Proof.Machine

/-! # A computation on a Stand

SUPPORT. What a first computation leaves that its checks pass, and one that its checks fail while the limit allows another: no operand
faults and nothing inverts a checker's outcome, so that the verdict follows from what the checks saw (R241, R249, R250, R260, R275). -/

namespace Sys2Proof.Machine

section
variable {s : State} {w : Work} {x : Nat × Nat} {y : TileSt} {obs : TileObs} {c : Comp}

/-! ## What is read -/

/-- Every word and line reads, none of them uncorrectable (R186, R675). -/
def AllRead (obs : TileObs) : Prop := obs.sramBad = none ∧ obs.hbm = {}

/-- The state once the corrected words of a computation are counted. -/
def readFor (obs : TileObs) (s : State) : State := countHbmCorrected 0 (countCorrected obs.corrected s)

theorem readFor_onlyChanges (obs : TileObs) (s : State) : OnlyChanges [.ft] s (readFor obs s) := onlyChanges_set_ft s _

theorem readFor_groves (obs : TileObs) (s : State) : (readFor obs s).groves = s.groves := rfl

theorem hbmInjected_of_unarmed (hi : s.ft.inject.arm = false) (ins : List (Ref × Nat)) : hbmInjected w ins s = (false, 0, s) := by
  induction ins with
  | nil => rfl
  | cons i ins ih =>
    obtain ⟨r, o⟩ := i
    cases r with
    | hbm id off =>
      rw [hbmInjected]
      split
      · exact ih
      · simp only [injectHit_of_unarmed _ _ hi, Bool.false_eq_true, if_false, ih]
    | canopy => exact ih
    | none => exact ih
    | reserved => exact ih

theorem inputFault_of_allRead (h : AllRead obs) (hi : s.ft.inject.arm = false) (ins : List (Ref × Nat)) (res : List ResKey) :
    inputFault w x ins res obs s = (false, 0, countHbmCorrected 0 s) := by
  obtain ⟨hsram, hhbm⟩ := h
  have hunarmed : (countHbmCorrected 0 s).ft.inject.arm = false := hi
  have hfault : hbmFault w ins obs.hbm s = (false, 0, countHbmCorrected 0 s) := by
    rw [hhbm]
    exact hbmInjected_of_unarmed hunarmed ins
  simp only [inputFault, hfault, injectHit_of_unarmed _ _ hunarmed, hsram, Bool.false_eq_true, if_false]

/-! ## What the checks see -/

/-- The KIND of what the checks of a computation found, 0 where all passed (R275). -/
def Comp.failKind (c : Comp) : Nat := if c.lines.failed then 1 else if c.convFail then 2 else if c.resFail then 4 else 0

theorem failKind_of_passing (h : passing obs c) : c.failKind = 0 := by
  obtain ⟨-, -, hlines, hconv, hres⟩ := h
  simp [Comp.failKind, hlines, hconv, hres]

theorem observe_of_unarmed (hi : s.ft.inject.arm = false) (x : Nat × Nat) (rk : RunKind) (c : Comp) :
    observe x rk c s = (c.lines, c.failKind, false, s) := by
  have hno (b : Bool) (k u : Nat) : injectIf b k u s = (false, s) := by
    cases b
    · rfl
    · exact injectHit_of_unarmed k u hi
  simp only [observe, hno, Bool.or_false, Bool.false_eq_true, if_false, Comp.failKind]

/-! ## Verdicts -/

/-- A tile as the computation that ends on Stand `x` leaves it. -/
def TileSt.ran (y : TileSt) (x : Nat × Nat) : TileSt := { y with running := none, computed := x :: y.computed.filter (· != x) }

/-- The verdict on a first computation that passes and is not sampled: its output is written (R250). -/
def passedVerdict (x : Nat × Nat) (y : TileSt) (out : TileOut) : Verdict :=
  { tile := { y.ran x with passed := [{ stand := x, phys := y.phys, out }] }, fate := .write out }

/-- The verdict on a failed check while the limit allows another computation, the physical Stand charged (R249, R260). -/
def failedVerdict (x : Nat × Nat) (y : TileSt) : Verdict :=
  { tile := { y.ran x with kind := .recompute, recomputes := y.recomputes + 1, again := true }, fate := .again, charge := [(x.1, y.phys)] }

theorem passedVerdict_charge (x : Nat × Nat) (y : TileSt) (out : TileOut) : (passedVerdict x y out).charge = [] := rfl

theorem failedVerdict_charge (x : Nat × Nat) (y : TileSt) : (failedVerdict x y).charge = [(x.1, y.phys)] := rfl

theorem judge_first_passes (h : FirstRun y x) (onFail : Bool) (limit : Nat) (out : TileOut) :
    judge onFail limit y x false true out = passedVerdict x y out := by
  obtain ⟨-, hkind, hsampled, -, hpassed, -⟩ := h
  simp [judge, passedVerdict, TileSt.ran, hkind, hsampled, hpassed]

theorem judge_fails (hd : y.dead = false) {limit : Nat} (hl : y.recomputes < limit) (out : TileOut) :
    judge false limit y x false false out = failedVerdict x y := by
  simp [judge, failed, failedVerdict, TileSt.ran, hd, hl]

/-! ## Registers -/

/-- What Stand `x` and its Grove show of a computation that ended on it, the tile's first one having run in that Grove (R236, R275, R276). -/
structure RunCounted (x : Nat × Nat) (y : TileSt) (kind fmt : Nat) (l : Lines) (s t : State) : Prop where
  idle : (t.stand x.1 x.2).busy = false
  fails : (t.stand x.1 x.2).fails = if kind ≠ 0 then satBv (s.stand x.1 x.2).fails 1 else (s.stand x.1 x.2).fails
  tiles : (t.grove x.1).chkTiles = (s.grove x.1).chkTiles + b2n (y.kind == .first)
  failed : (t.grove x.1).chkFail = (s.grove x.1).chkFail + b2n (decide (kind ≠ 0))
  last : kind ≠ 0 → (t.grove x.1).chkLast = lastOf x kind fmt l
  limit : (t.grove x.1).retireLimit = (s.grove x.1).retireLimit

theorem RunCounted.of_groves {kind fmt : Nat} {l : Lines} {t s' t' : State} (h : RunCounted x y kind fmt l s t)
    (hs : s'.groves = s.groves) (ht : t'.groves = t.groves) : RunCounted x y kind fmt l s' t' := by
  obtain ⟨idle, fails, tiles, failed, last, limit⟩ := h
  rw [← stand_of_groves_eq ht] at idle fails
  rw [← grove_of_groves_eq ht] at tiles failed last limit
  rw [← stand_of_groves_eq hs] at fails
  rw [← grove_of_groves_eq hs] at tiles failed limit
  exact ⟨idle, fails, tiles, failed, last, limit⟩

/-- The registers without the charges of a verdict. -/
def countRegs (x : Nat × Nat) (y : TileSt) (kind fmt gc : Nat) (l : Lines) (v : Verdict) (s : State) : State :=
  countRun x y kind fmt gc l { v with charge := [] } s

theorem countRun_eq (x : Nat × Nat) (y : TileSt) (kind fmt gc : Nat) (l : Lines) (v : Verdict) (s : State) :
    countRun x y kind fmt gc l v s = v.charge.foldl (fun s z => chargeStand z s) (countRegs x y kind fmt gc l v s) := rfl

theorem countRegs_onlyChanges (x : Nat × Nat) (y : TileSt) (kind fmt gc : Nat) (l : Lines) (v : Verdict) (s : State) :
    OnlyChanges [.groves] s (countRegs x y kind fmt gc l v s) := onlyChanges_set_groves s _

theorem countRegs_phys (x : Nat × Nat) (y : TileSt) (kind fmt gc : Nat) (l : Lines) (v : Verdict) (s : State) (g p : Nat) :
    (countRegs x y kind fmt gc l v s).phys g p = s.phys g p := rfl

theorem countRegs_counted (hh : y.home = some x.1) (kind fmt gc : Nat) (l : Lines) (v : Verdict) (s : State) :
    RunCounted x y kind fmt l s (countRegs x y kind fmt gc l v s) := by
  -- the Stand is written once and its Grove twice, so that every field is a read after a write
  constructor <;>
    simp +contextual [countRegs, countRun, hh, State.stand_modStand_same, State.grove_modGrove_same]

theorem countUse_onlyChanges (w : Work) (gc : Nat) (s : State) : OnlyChanges [.ft, .free] s (countUse w gc s) :=
  ((onlyChanges_set_ft s _).mono (by simp)).trans ((onlyChanges_set_free _ _).mono (by simp))

theorem countUse_groves (w : Work) (gc : Nat) (s : State) : (countUse w gc s).groves = s.groves :=
  (countUse_onlyChanges w gc s).groves_eq (by simp)

/-- A charge below the limit retires nothing (R260). -/
theorem chargeStand_below (ha : (s.phys x.1 x.2).st = .active)
    (hb : (s.phys x.1 x.2).charges + 1 < max 1 (s.grove x.1).retireLimit.toNat) : chargeStand x s =
      s.modPhys x.1 x.2 (fun z => { z with charges := (s.phys x.1 x.2).charges + 1, retiring := z.retiring || false }) := by
  have hout : decide ((s.phys x.1 x.2).charges + 1 ≥ max 1 (s.grove x.1).retireLimit.toNat) = false := decide_eq_false (by omega)
  simp only [chargeStand, ha, hout, ne_eq, not_true_eq_false, if_false, Bool.false_eq_true]

/-! ## A computation as a whole -/

/-- Operands that read and hold no poison leave the verdict to the checks. -/
theorem runTile_eq (h : AllRead obs) (hi : s.ft.inject.arm = false) (hr : retiringStand s x = false) (rk : RunKind) (fmt gc : Nat)
    (ins : List (Ref × Nat)) {kind : Nat} {v : Verdict} (hk : c.failKind = kind)
    (hv : judge (onFail s) (recomputeLimit s) y x false (decide (kind = 0)) c.out = v) (hd : v.tile.dead = y.dead)
    (hf : ∀ st, v.fate ≠ .poison st) : runTile w x y rk fmt gc ins none obs c s =
      { verdict := v, lines := c.lines, fr := 0, state := countUse w gc (countRun x y kind fmt gc c.lines v (readFor obs s)) } := by
  have hread : (readFor obs s).ft.inject.arm = false := hi
  have hfault : inputFault w x ins [] obs (countCorrected obs.corrected s) = (false, 0, readFor obs s) :=
    inputFault_of_allRead (s := countCorrected obs.corrected s) h hi ins []
  -- `hf` leaves no poisoning among the fates, so that no fault is raised
  simp only [runTile, hfault, observe_of_unarmed hread, hk, hr, hv, hd, Bool.and_not_self, Bool.or_self, Bool.false_eq_true, if_false]

/-- What a first computation leaves that passes: its output is to be written, and its Stand is free. -/
structure PassedRun (x : Nat × Nat) (y : TileSt) (c : Comp) (s : State) (r : Ran) : Prop where
  fate : r.verdict.fate = .write c.out
  dead : r.verdict.tile.dead = false
  again : r.verdict.tile.again = y.again
  idle : (r.state.stand x.1 x.2).busy = false
  fails : (r.state.stand x.1 x.2).fails = (s.stand x.1 x.2).fails
  tiles : (r.state.grove x.1).chkTiles = (s.grove x.1).chkTiles + 1
  frame : OnlyChanges [.groves, .ft, .free] s r.state

theorem runTile_passes (h : FirstRun y x) (hp : passing obs c) (hr : retiringStand s x = false) (hi : s.ft.inject.arm = false)
    (rk : RunKind) (fmt gc : Nat) (ins : List (Ref × Nat)) : PassedRun x y c s (runTile w x y rk fmt gc ins none obs c s) := by
  have hkind := failKind_of_passing hp
  have hv := judge_first_passes h (onFail s) (recomputeLimit s) c.out
  obtain ⟨hsram, hhbm, -⟩ := hp
  obtain ⟨-, hfirst, -, hdead, -, hhome⟩ := h
  have hregs := countRegs_counted hhome 0 fmt gc c.lines (passedVerdict x y c.out) (readFor obs s)
  have hregsFrame := countRegs_onlyChanges x y 0 fmt gc c.lines (passedVerdict x y c.out) (readFor obs s)
  have hcounted := hregs.of_groves (readFor_groves obs s).symm (countUse_groves w gc _)
  rw [runTile_eq ⟨hsram, hhbm⟩ hi hr rk fmt gc ins hkind hv rfl (by simp [passedVerdict]), countRun_eq, passedVerdict_charge,
    List.foldl_nil]
  exact
    { fate := rfl
      dead := hdead
      again := rfl
      idle := hcounted.idle
      fails := hcounted.fails
      tiles := by simpa [hfirst, b2n] using hcounted.tiles
      frame := ((readFor_onlyChanges obs s).mono (by simp)).trans
        ((hregsFrame.mono (by simp)).trans ((countUse_onlyChanges w gc _).mono (by simp))) }

/-- What a computation leaves that fails and is to be run again: its tile open for another, its Stand free and its physical Stand
charged. -/
structure FailedRun (x : Nat × Nat) (y : TileSt) (fmt : Nat) (c : Comp) (s : State) (r : Ran) : Prop where
  fate : r.verdict.fate = .again
  idx : r.verdict.tile.idx = y.idx
  kind : r.verdict.tile.kind = .recompute
  dead : r.verdict.tile.dead = false
  idle : (r.state.stand x.1 x.2).busy = false
  failed : (r.state.grove x.1).chkFail = (s.grove x.1).chkFail + 1
  last : (r.state.grove x.1).chkLast = lastOf x 1 fmt c.lines
  charged : r.state.phys x.1 y.phys = { s.phys x.1 y.phys with charges := (s.phys x.1 y.phys).charges + 1 }
  frame : OnlyChanges [.groves, .ft, .free] s r.state

theorem runTile_fails (h : FirstRun y x) (hread : AllRead obs) (hf : c.lines.failed = true) (hr : retiringStand s x = false)
    (hi : s.ft.inject.arm = false) (hl : y.recomputes < recomputeLimit s) (ho : onFail s = false)
    (ha : (s.phys x.1 y.phys).st = .active) (hb : (s.phys x.1 y.phys).charges + 1 < max 1 (s.grove x.1).retireLimit.toNat)
    (rk : RunKind) (fmt gc : Nat) (ins : List (Ref × Nat)) :
    FailedRun x y fmt c s (runTile w x y rk fmt gc ins none obs c s) := by
  have hkind : c.failKind = 1 := by simp [Comp.failKind, hf]
  obtain ⟨-, -, -, hdead, -, hhome⟩ := h
  have hregsFrame := countRegs_onlyChanges x y 1 fmt gc c.lines (failedVerdict x y) (readFor obs s)
  have hcounted := (countRegs_counted hhome 1 fmt gc c.lines (failedVerdict x y) (readFor obs s)).of_groves
    (readFor_groves obs s).symm rfl
  have hphys := (countRegs_phys x y 1 fmt gc c.lines (failedVerdict x y) (readFor obs s) x.1 y.phys).trans
    (phys_of_groves_eq (readFor_groves obs s) _ _)
  have hcharge := chargeStand_below (s := countRegs x y 1 fmt gc c.lines (failedVerdict x y) (readFor obs s)) (x := (x.1, y.phys))
    (by rw [hphys]; exact ha) (by rw [hphys, hcounted.limit]; exact hb)
  have hv : judge (onFail s) (recomputeLimit s) y x false (decide (1 = 0)) c.out = failedVerdict x y := by
    rw [ho]
    exact judge_fails hdead hl c.out
  rw [runTile_eq hread hi hr rk fmt gc ins hkind hv rfl (by simp [failedVerdict]),
    countRun_eq, failedVerdict_charge, List.foldl_cons, List.foldl_nil, hcharge]
  exact
    { fate := rfl
      idx := rfl
      kind := rfl
      dead := hdead
      idle := by rw [stand_of_groves_eq (countUse_groves w gc _), State.stand_modPhys, hcounted.idle]
      failed := by
        rw [grove_of_groves_eq (countUse_groves w gc _), State.grove_modPhys, hcounted.failed]
        rfl
      last := by rw [grove_of_groves_eq (countUse_groves w gc _), State.grove_modPhys, hcounted.last (by simp)]
      charged := by
        rw [phys_of_groves_eq (countUse_groves w gc _), State.phys_modPhys_same, Bool.or_false, hphys]
      frame := ((readFor_onlyChanges obs s).mono (by simp)).trans ((hregsFrame.mono (by simp)).trans
        (((modPhys_onlyChanges _ _ _ _).mono (by simp)).trans ((countUse_onlyChanges w gc _).mono (by simp)))) }

end

end Sys2Proof.Machine

/-! # Writing the output of a tile or chunk

SUPPORT. A write to HBM depends on the memory and the image alone, changes no byte outside the places of its tile's codes and scales, and
leaves the chains (R191 to R196, R205 to R207, R215). -/

namespace Sys2Proof.Machine

section
variable {s t : State}

/-! ## Writes to HBM -/

theorem region_congr (h : t.img = s.img) (id : Nat) : t.region id = s.region id := by simp only [State.region, h]

theorem refRead_hbm_congr (hm : t.mem = s.mem) (hi : t.img = s.img) (id off o n : Nat) :
    refRead t (.hbm id off) o n = refRead s (.hbm id off) o n := by
  simp only [refRead, region_congr hi, regionRead, hm]

theorem refPutBytes_hbm_congr (hm : t.mem = s.mem) (hi : t.img = s.img) (id off : Nat) (bs : List (Nat × Byte × Bool)) :
    (refPutBytes (.hbm id off) bs t).mem = (refPutBytes (.hbm id off) bs s).mem := by
  simp only [refPutBytes, region_congr hi]
  split
  · simp only [regionPutBytes, hm]
  · exact hm

theorem regionPutBytes_onlyChanges (g : Region) (bs : List (Nat × Byte × Bool)) (s : State) :
    OnlyChanges [.mem, .waybill] s (regionPutBytes g bs s) := by
  intro p hp
  cases p <;> simp [sameZone, regionPutBytes] at hp ⊢

/-- A write to HBM changes memory and what is measured of it; chains stay. -/
theorem refPutBytes_hbm_frame (id off : Nat) (bs : List (Nat × Byte × Bool)) (s : State) :
    OnlyChanges [.mem, .waybill] s (refPutBytes (.hbm id off) bs s) ∧
    (refPutBytes (.hbm id off) bs s).waybill.chains = s.waybill.chains := by
  simp only [refPutBytes]
  split
  · exact ⟨regionPutBytes_onlyChanges _ _ s, rfl⟩
  · exact ⟨.refl _ s, rfl⟩

theorem memGet_foldl_memPut_other {α : Type} (l : List (Nat × Byte × α)) (m : List Host.Cell) {a : Nat} (h : ∀ b ∈ l, b.1 ≠ a) :
    memGet (l.foldl (fun m b => memPut m b.1 b.2.1) m) a = memGet m a := by
  induction l generalizing m with
  | nil => rfl
  | cons b l ih =>
    rw [List.foldl_cons, ih _ (fun c hc => h c (List.mem_cons_of_mem b hc)), memGet_memPut_other]
    exact (h b List.mem_cons_self).symm

/-- A write to HBM leaves a byte that none of its places is. -/
theorem hbmByte_refPutBytes_other {id off a : Nat} {g : Region} {bs : List (Nat × Byte × Bool)} (hg : s.region id = some g)
    (h : ∀ b ∈ bs, a ≠ regionAddr g (off + b.1)) : hbmByte (refPutBytes (.hbm id off) bs s) a = hbmByte s a := by
  simp only [refPutBytes, hg, hbmByte, regionPutBytes]
  refine memGet_foldl_memPut_other _ _ fun c hc => ?_
  simp only [List.map_map, List.mem_map, Function.comp_apply] at hc
  obtain ⟨b, hb, rfl⟩ := hc
  exact (h b hb).symm

/-! ## The size of an output tile -/

theorem piecesOf_length_le {α : Type} (n k : Nat) (l : List α) : (piecesOf n k l).length ≤ k := by
  induction k generalizing l with
  | zero => exact Nat.le_refl 0
  | succ k ih =>
    rw [piecesOf]
    split
    · exact Nat.zero_le _
    · simpa using ih (l.drop n)

theorem packCodes_length_le (bits : Nat) (cs : List Nat) (old : List Byte) : (packCodes bits cs old).length ≤ old.length := by
  simpa [packCodes] using piecesOf_length_le 8 old.length (codeBits bits cs)

theorem pieces32_length_le {α : Type} (k : Nat) (l : List α) : (pieces32 k l).length ≤ k := by
  induction k generalizing l with
  | zero => exact Nat.le_refl 0
  | succ k ih =>
    rw [pieces32]
    split
    · exact Nat.zero_le _
    · simpa using ih (l.drop 32)

/-- Cutting a list into pieces makes nothing of it twice. -/
theorem pieces32_sum_length_le {α : Type} (k : Nat) (l : List α) : ((pieces32 k l).map List.length).sum ≤ l.length := by
  induction k generalizing l with
  | zero => exact Nat.zero_le _
  | succ k ih =>
    rw [pieces32]
    split
    · exact Nat.zero_le _
    · have hrest := ih (l.drop 32)
      simp only [List.length_drop] at hrest
      simp only [List.map_cons, List.sum_cons, List.length_take]
      omega

theorem convertBlock_length (f : Nat) (rs : Nat → Option Nat) (xs : List Num) : (convertBlock f rs xs).2.length = xs.length := by
  unfold convertBlock
  split <;> simp

theorem map_length_fst_zipIdx {α : Type} (l : List (List α)) : l.zipIdx.map (fun x => x.1.length) = l.map List.length :=
  List.map_map.symm.trans (congrArg (List.map List.length) (List.zipIdx_map_fst 0 l))

/-- A row of an output tile: at most 128 codes and four scales. -/
def RowFits (r : List Nat × List Nat) : Prop := r.1.length ≤ 128 ∧ r.2.length ≤ 4

theorem convRow_fits (o : MatOp) (ti tj i : Nat) {accs : List (Nat × Bool)} (h : accs.length ≤ 128) : RowFits (o.convRow ti tj i accs).1 := by
  unfold MatOp.convRow
  split
  · exact ⟨by simpa using h, Nat.zero_le _⟩
  · dsimp only
    split
    · refine ⟨?_, by simpa using pieces32_length_le 4 _⟩
      have hsum := pieces32_sum_length_le 4 (accs.map (fun a => o.scaled a.1))
      rw [List.length_map] at hsum
      simp only [List.length_flatMap, List.map_map, Function.comp_def, convertBlock_length, map_length_fst_zipIdx]
      exact hsum.trans h
    · exact ⟨by simpa using h, Nat.zero_le _⟩

theorem converted_fits {obs : TileObs} {second : Bool} {i : Nat} {r : List Nat × List Nat} (h : RowFits r) :
    RowFits (converted obs second i r) := by
  simpa [RowFits, converted] using h

/-- An output tile: at most 128 rows. -/
def TileOut.Fits (out : TileOut) : Prop := out.rows.length ≤ 128 ∧ ∀ r ∈ out.rows, RowFits r

theorem product_run_fits (p : Product) (obs : TileObs) (hr : p.rows ≤ 128) (hc : p.cols ≤ 128) :
    (p.run obs 0).1.length ≤ 128 ∧ ∀ row ∈ (p.run obs 0).1, row.length ≤ 128 := by
  refine ⟨by simpa [Product.run] using hr, fun row hrow => ?_⟩
  simp only [Product.run, List.mem_map] at hrow
  obtain ⟨i, -, rfl⟩ := hrow
  simpa using hc

theorem matRun_fits (o : MatOp) (s : State) (obs : TileObs) (ti tj : Nat) : (o.run s obs ti tj).out.Fits := by
  obtain ⟨hrows, hcols⟩ := product_run_fits (o.product s obs ti tj) obs (Nat.min_le_left ..) (Nat.min_le_left ..)
  refine ⟨by simpa [MatOp.run] using hrows, fun r hr => ?_⟩
  simp only [MatOp.run, List.mem_map] at hr
  obtain ⟨⟨c, j⟩, hc, rfl⟩ := hr
  obtain ⟨⟨accs, i⟩, haccs, rfl⟩ := List.mem_map.1 (List.fst_mem_of_mem_zipIdx hc)
  exact converted_fits (convRow_fits o ti tj i (hcols accs (List.fst_mem_of_mem_zipIdx haccs)))

/-! ## The places of an output tile -/

/-- The bytes of C that hold tile `t`: its codes, and its scales after the codes of every tile (R193, R194). -/
def MatOp.holdsByte (o : MatOp) (t i : Nat) : Prop :=
  (2048 * o.outBits * t ≤ i ∧ i < 2048 * o.outBits * (t + 1)) ∨
  (2048 * o.outBits * tilesOf o.m o.n + 512 * t ≤ i ∧ i < 2048 * o.outBits * tilesOf o.m o.n + 512 * (t + 1))

/-- The bytes a row of codes takes lie in its row of the tile. -/
theorem ceilDiv_codes_le {bits n : Nat} (h : n ≤ 128) : ceilDiv (bits * n) 8 ≤ 16 * bits := by
  have : bits * n ≤ bits * 128 := Nat.mul_le_mul_left _ h
  rw [ceilDiv, if_neg (by decide)]
  omega

theorem rowBytesOf_place {o : MatOp} {t i : Nat} {codes : List Nat} {b : Nat × Byte × Bool} (hi : i < 128) (hc : codes.length ≤ 128)
    (hb : b ∈ o.rowBytesOf s t i codes) : o.holdsByte t b.1 := by
  simp only [MatOp.rowBytesOf, List.mem_map] at hb
  obtain ⟨⟨x, j⟩, hx, rfl⟩ := hb
  have hj : j < 16 * o.outBits := by
    have hlt := (List.mem_zipIdx' hx).1
    have hle := packCodes_length_le o.outBits codes
      (refRead s o.c (2048 * o.outBits * t + 16 * o.outBits * i) (ceilDiv (o.outBits * codes.length) 8))
    rw [refRead_length] at hle
    have := ceilDiv_codes_le (bits := o.outBits) hc
    omega
  have hrow : 16 * o.outBits * (i + 1) ≤ 16 * o.outBits * 128 := Nat.mul_le_mul_left _ hi
  refine .inl ⟨by simp only; omega, ?_⟩
  simp only [Nat.mul_add, Nat.mul_one] at hrow ⊢
  omega

/-- Tile `t` of C is the one in row t / nc and column t % nc of the tiles (R194). -/
theorem tile_number (t nc : Nat) : t / nc * nc + t % nc = t := Nat.div_add_mod' t nc

theorem matWrite_places {o : MatOp} {t : Nat} {out : TileOut} (h : out.Fits) :
    ∃ bs, o.write (t / ceilDiv o.n 128) (t % ceilDiv o.n 128) out s = refPutBytes o.c bs s ∧ ∀ b ∈ bs, o.holdsByte t b.1 := by
  refine ⟨_, rfl, fun b hb => ?_⟩
  obtain ⟨hrows, hfits⟩ := h
  simp only [tile_number] at hb
  rcases List.mem_append.1 hb with hb | hb
  · obtain ⟨⟨r, i⟩, hr, hb⟩ := List.mem_flatMap.1 hb
    have hi := (List.mem_zipIdx' hr).1
    exact rowBytesOf_place (by omega) (hfits r (List.fst_mem_of_mem_zipIdx hr)).1 hb
  · obtain ⟨⟨r, i⟩, hr, hb⟩ := List.mem_flatMap.1 hb
    obtain ⟨⟨x, j⟩, hx, rfl⟩ := List.mem_map.1 hb
    have hi := (List.mem_zipIdx' hr).1
    have hj := (List.mem_zipIdx' hx).1
    have hscales := (hfits r (List.fst_mem_of_mem_zipIdx hr)).2
    refine .inr ⟨?_, ?_⟩ <;> simp only at hj ⊢ <;> omega

/-! ## Outputs in HBM -/

theorem eq_hbm_of_regionId {r : Ref} (h : r.regionId.isSome = true) : ∃ id off, r = .hbm id off := by
  cases r with
  | hbm id off => exact ⟨id, off, rfl⟩
  | canopy => simp [Ref.regionId] at h
  | none => simp [Ref.regionId] at h
  | reserved => simp [Ref.regionId] at h

theorem matWrite_congr {o : MatOp} {id off : Nat} (hc : o.c = .hbm id off) (hm : t.mem = s.mem) (hi : t.img = s.img) (ti tj : Nat)
    (out : TileOut) : (o.write ti tj out t).mem = (o.write ti tj out s).mem := by
  simp only [MatOp.write, MatOp.rowBytesOf, hc, refRead_hbm_congr hm hi]
  exact refPutBytes_hbm_congr hm hi ..

theorem matWrite_frame {o : MatOp} {id off : Nat} (hc : o.c = .hbm id off) (ti tj : Nat) (out : TileOut) (s : State) :
    OnlyChanges [.mem, .waybill] s (o.write ti tj out s) ∧ (o.write ti tj out s).waybill.chains = s.waybill.chains := by
  rw [MatOp.write, hc]
  exact refPutBytes_hbm_frame ..

theorem vecWrite_congr {o : VecOp} {id off : Nat} (hc : o.out = .hbm id off) (hm : t.mem = s.mem) (hi : t.img = s.img) (k : Nat)
    (out : TileOut) : (o.write k out t).mem = (o.write k out s).mem := by
  unfold VecOp.write
  split
  · exact hm
  · simp only [hc, refRead_hbm_congr hm hi]
    exact refPutBytes_hbm_congr hm hi ..

theorem vecWrite_onlyChanges {o : VecOp} {id off : Nat} (hc : o.out = .hbm id off) (k : Nat) (out : TileOut) (s : State) :
    OnlyChanges [.mem, .waybill] s (o.write k out s) := by
  unfold VecOp.write
  split
  · exact .refl _ s
  · simp only [hc]
    exact (refPutBytes_hbm_frame ..).1

end

end Sys2Proof.Machine

/-! # The end of a tile or chunk

SUPPORT. What an operation becomes when a computation of its only open tile ends: the output written and the operation going on or ended,
or the tile open for another computation (R215, R218, R223, R249). -/

namespace Sys2Proof.Machine

section
variable {s t : State} {w : Work} {o : TileOp} {y : TileSt} {x : Nat × Nat} {obs : TileObs} {r : Ran} {out : TileOut}

/-! ## Commands that end a computation -/

theorem completes_tileComplete {P : State → Prop} (hi : s.item w.wid = some w) (ha : s.awake = true)
    (hop : w.opcode = 0x20 ∨ w.opcode = 0x21) (hp : w.prog = .tiles o) (hl : o.live = [y]) (hx : y.running = some x)
    (hP : P (s.kept (matTileDone w o y x obs s))) : Completes (.tileComplete w.wid y.idx obs) s P := by
  have hexec : execTileComplete w.wid y.idx obs s = .next (s.kept (matTileDone w o y x obs s)) := by
    simp only [execTileComplete, resume, hi, ha, hp, hl, List.find?_cons, beq_self_eq_true, hx, if_pos hop, if_true]
  exact ⟨_, hexec, hP⟩

theorem completes_vectorChunkComplete {P : State → Prop} (hi : s.item w.wid = some w) (ha : s.awake = true) (hop : w.opcode = 0x22)
    (hp : w.prog = .tiles o) (hl : o.live = [y]) (hx : y.running = some x) (hP : P (s.kept (vecChunkDone w o y x obs s))) :
    Completes (.vectorChunkComplete w.wid y.idx obs) s P := by
  have hexec : execVectorChunkComplete w.wid y.idx obs s = .next (s.kept (vecChunkDone w o y x obs s)) := by
    simp only [execVectorChunkComplete, resume, hi, ha, hp, hl, List.find?_cons, beq_self_eq_true, hx, if_pos hop, if_true]
  exact ⟨_, hexec, hP⟩

/-! ## The operation after the computation -/

/-- An operation whose only open tile, run on a Stand, has been written. -/
def TileOp.wrote (o : TileOp) (x : Nat × Nat) (y : TileSt) (r : Ran) (out : TileOut) : TileOp :=
  { o with live := [], cnt := o.cnt.after x y r false, written := o.written + 1, clamped := o.clamped + out.clamped,
           worst := worseOp o.worst (tileStatus y) }

theorem afterRun_written (hl : o.live = [y]) (hf : r.verdict.fate = .write out) (hd : r.verdict.tile.dead = false)
    (ha : r.verdict.tile.again = y.again) : afterRun o x y r = (o.wrote x y r out, some (some out)) := by
  simp [afterRun, TileOp.wrote, tileStatus, hl, hf, hd, ha]

/-- An operation whose only open tile, run on a Stand, waits for another computation. -/
def TileOp.reopened (o : TileOp) (x : Nat × Nat) (y : TileSt) (r : Ran) : TileOp :=
  { o with live := [r.verdict.tile], cnt := o.cnt.after x y r false }

theorem afterRun_again (hl : o.live = [y]) (hf : r.verdict.fate = .again) (hd : r.verdict.tile.dead = false)
    (hi : r.verdict.tile.idx = y.idx) : afterRun o x y r = (o.reopened x y r, none) := by
  simp [afterRun, TileOp.reopened, putTile, hl, hf, hd, hi]

theorem settleTiles_open {regions : List Nat} {last : State → State} {written : State → List Byte} (h : o.next ≠ o.total ∨ o.live ≠ []) :
    settleTiles w o regions last written s = s.setProg w.wid (.tiles o) := by
  rw [settleTiles, if_neg]
  rintro ⟨hnext, hlive⟩
  exact h.elim (· hnext) (· (List.isEmpty_iff.1 hlive))

theorem settleTiles_ended {regions : List Nat} {written : State → List Byte} (hn : o.next = o.total) (hl : o.live = []) :
    settleTiles w o regions id written s =
      finishOp w (tileInfo w o regions (written s)) (tileResult o) s o.cnt.faultRef := by
  rw [settleTiles, if_pos ⟨hn, List.isEmpty_iff.2 hl⟩]
  rfl

/-! ## Tiles of a matrix operation -/

/-- The resident tiles that output tile `y` reads (R224). -/
def readTiles (w : Work) (y : TileSt) (s : State) : List ResTile :=
  (matOf w).rowTilesA s (y.idx / ceilDiv (matOf w).n 128) ++ (matOf w).rowTilesB s (y.idx % ceilDiv (matOf w).n 128)

/-- The computation of a tile whose operands hold nothing that forces a status. -/
def ranTile (w : Work) (o : TileOp) (y : TileSt) (x : Nat × Nat) (obs : TileObs) (s : State) : Ran :=
  runTile w x y .tile (matOf w).accFmt ((matOf w).gc (o.cnt.last.any (· == x)))
    [((matOf w).a, 2048 * fmtBits (matOf w).aFmt * ceilDiv (matOf w).k 128 * (y.idx / ceilDiv (matOf w).n 128)), ((matOf w).b, 0)]
    none obs (tileRun w y.idx obs s) s

/-- The state after it, its operand tiles resident in the Stand. -/
def heldTiles (w : Work) (o : TileOp) (y : TileSt) (x : Nat × Nat) (obs : TileObs) (s : State) : State :=
  holdTiles x (readTiles w y s) (ranTile w o y x obs s).state

theorem matTileDone_written {o' : TileOp} (h : TileReady w y.idx x s)
    (ha : afterRun o x y (ranTile w o y x obs s) = (o', some (some out))) : matTileDone w o y x obs s =
      settleTiles w o' (inputRegions s [(matOf w).a, (matOf w).b]) id (fun s => refRead s (matOf w).c 0 (matOf w).cBytes)
        ((matOf w).write (y.idx / ceilDiv (matOf w).n 128) (y.idx % ceilDiv (matOf w).n 128) out (heldTiles w o y x obs s)) := by
  obtain ⟨hnibbles, hpoison, hresident, -, -⟩ := h
  simp only [ranTile, tileRun] at ha
  simp only [matTileDone, hnibbles, hpoison, hresident, Bool.or_self, Bool.false_eq_true, if_false, ha]
  rfl

theorem matTileDone_again {o' : TileOp} (h : TileReady w y.idx x s) (ha : afterRun o x y (ranTile w o y x obs s) = (o', none)) :
    matTileDone w o y x obs s =
      settleTiles w o' (inputRegions s [(matOf w).a, (matOf w).b]) id (fun s => refRead s (matOf w).c 0 (matOf w).cBytes)
        (heldTiles w o y x obs s) := by
  obtain ⟨hnibbles, hpoison, hresident, -, -⟩ := h
  simp only [ranTile, tileRun] at ha
  simp only [matTileDone, hnibbles, hpoison, hresident, Bool.or_self, Bool.false_eq_true, if_false, ha]
  rfl

/-- Keeping operand tiles in a Stand changes no other register. -/
theorem holdTiles_keeps (x : Nat × Nat) (new : List ResTile) (s : State) :
    ((holdTiles x new s).stand x.1 x.2).busy = (s.stand x.1 x.2).busy ∧ ((holdTiles x new s).stand x.1 x.2).fails = (s.stand x.1 x.2).fails ∧
    (∀ g, (holdTiles x new s).grove g = s.grove g) ∧ (∀ g p, (holdTiles x new s).phys g p = s.phys g p) ∧
    OnlyChanges [.groves] s (holdTiles x new s) := by
  refine ⟨?_, ?_, fun _ => rfl, fun _ _ => rfl, modStand_onlyChanges _ _ _ _⟩
  all_goals rw [holdTiles, State.stand_modStand_same]

theorem ranTile_passed (hf : FirstRun y x) (h : TileReady w y.idx x s) (hp : passing obs (tileRun w y.idx obs s)) :
    PassedRun x y (tileRun w y.idx obs s) s (ranTile w o y x obs s) := by
  obtain ⟨-, -, -, hretiring, hunarmed⟩ := h
  exact runTile_passes hf hp hretiring hunarmed ..

/-- The state once the output of a tile is written (R215). -/
def writtenTile (w : Work) (o : TileOp) (y : TileSt) (x : Nat × Nat) (obs : TileObs) (s : State) : State :=
  (matOf w).write (y.idx / ceilDiv (matOf w).n 128) (y.idx % ceilDiv (matOf w).n 128) (tileRun w y.idx obs s).out (heldTiles w o y x obs s)

/-- A first computation that passes, and is not the operation's last: its output is written, and the operation goes on. -/
theorem matTileDone_goesOn (hl : o.live = [y]) (hn : o.next ≠ o.total) (h : TileReady w y.idx x s)
    (hr : PassedRun x y (tileRun w y.idx obs s) s (ranTile w o y x obs s)) : matTileDone w o y x obs s =
      (writtenTile w o y x obs s).setProg w.wid (.tiles (o.wrote x y (ranTile w o y x obs s) (tileRun w y.idx obs s).out)) :=
  (matTileDone_written h (afterRun_written hl hr.fate hr.dead hr.again)).trans (settleTiles_open (.inl hn))

/-- With the last one the operation ends (R215, R262). -/
theorem matTileDone_ends (hl : o.live = [y]) (hn : o.next = o.total) (h : TileReady w y.idx x s)
    (hr : PassedRun x y (tileRun w y.idx obs s) s (ranTile w o y x obs s)) :
    ∃ info result fr, matTileDone w o y x obs s = finishOp w info result (writtenTile w o y x obs s) fr :=
  ⟨_, _, _, (matTileDone_written h (afterRun_written hl hr.fate hr.dead hr.again)).trans (settleTiles_ended hn rfl)⟩

theorem heldTiles_onlyChanges (hr : OnlyChanges [.groves, .ft, .free] s (ranTile w o y x obs s).state) :
    OnlyChanges [.groves, .ft, .free] s (heldTiles w o y x obs s) :=
  hr.trans ((modStand_onlyChanges _ _ _ _).mono (by simp))

theorem writtenTile_frame {region off : Nat} (hc : (matOf w).c = .hbm region off)
    (hr : OnlyChanges [.groves, .ft, .free] s (ranTile w o y x obs s).state) :
    (writtenTile w o y x obs s).groves = (heldTiles w o y x obs s).groves ∧ wbRoom w.part (writtenTile w o y x obs s) = wbRoom w.part s ∧
    OnlyChanges [.groves, .waybill, .mem, .ft, .free] s (writtenTile w o y x obs s) := by
  have hheld := heldTiles_onlyChanges hr
  obtain ⟨hwrite, hchains⟩ := matWrite_frame hc (y.idx / ceilDiv (matOf w).n 128) (y.idx % ceilDiv (matOf w).n 128)
    (tileRun w y.idx obs s).out (heldTiles w o y x obs s)
  have hframe : OnlyChanges [.groves, .waybill, .mem, .ft, .free] s (writtenTile w o y x obs s) :=
    (hheld.mono (by simp)).trans (hwrite.mono (by simp))
  exact ⟨hwrite.groves_eq (by simp), wbRoom_congr (hchains.trans (congrArg Waybill.chains (hheld.waybill_eq (by simp))))
    (hframe.img_eq (by simp)) _, hframe⟩

/-- What a passing first computation leaves: its Stand free, the tile counted, its output in memory and nothing else changed. -/
theorem writtenTile_spec {region off : Nat} (hc : (matOf w).c = .hbm region off)
    (hr : PassedRun x y (tileRun w y.idx obs s) s (ranTile w o y x obs s)) :
    (writtenTile w o y x obs s).mem = ((matOf w).write (y.idx / ceilDiv (matOf w).n 128) (y.idx % ceilDiv (matOf w).n 128)
      (tileRun w y.idx obs s).out s).mem ∧
    ((writtenTile w o y x obs s).stand x.1 x.2).busy = false ∧
    ((writtenTile w o y x obs s).stand x.1 x.2).fails = (s.stand x.1 x.2).fails ∧
    ((writtenTile w o y x obs s).grove x.1).chkTiles = (s.grove x.1).chkTiles + 1 := by
  have hheld := heldTiles_onlyChanges hr.frame
  obtain ⟨hgroves, -, -⟩ := writtenTile_frame hc hr.frame
  obtain ⟨hbusy, hfails, hgrove, -⟩ := holdTiles_keeps x (readTiles w y s) (ranTile w o y x obs s).state
  rw [stand_of_groves_eq hgroves, grove_of_groves_eq hgroves]
  exact ⟨matWrite_congr hc (hheld.mem_eq (by simp)) (hheld.img_eq (by simp)) _ _ _, hbusy.trans hr.idle, hfails.trans hr.fails,
    (congrArg Grove.chkTiles (hgrove _)).trans hr.tiles⟩

/-- No byte of HBM outside the tile's places changes (R215). -/
theorem writtenTile_hbm_other {region off a : Nat} {g : Region} (hc : (matOf w).c = .hbm region off) (hg : s.region region = some g)
    (hr : OnlyChanges [.groves, .ft, .free] s (ranTile w o y x obs s).state)
    (h : ∀ i, (matOf w).holdsByte y.idx i → a ≠ regionAddr g (off + i)) : hbmByte (writtenTile w o y x obs s) a = hbmByte s a := by
  have hheld := heldTiles_onlyChanges hr
  obtain ⟨bs, hbytes, hplaces⟩ := matWrite_places (o := matOf w) (t := y.idx) (s := heldTiles w o y x obs s)
    (matRun_fits (matOf w) s obs (y.idx / ceilDiv (matOf w).n 128) (y.idx % ceilDiv (matOf w).n 128))
  have hwritten : writtenTile w o y x obs s = refPutBytes (.hbm region off) bs (heldTiles w o y x obs s) := by
    rw [← hc]
    exact hbytes
  rw [hwritten, hbmByte_refPutBytes_other ((region_congr (hheld.img_eq (by simp)) region).trans hg) (fun b hb => h _ (hplaces b hb)),
    hbmByte, hbmByte, hheld.mem_eq (by simp)]

theorem ranTile_failed (hf : FirstRun y x) (h : TileReady w y.idx x s) (hread : AllRead obs)
    (hfail : (tileRun w y.idx obs s).lines.failed = true) (hl : y.recomputes < recomputeLimit s) (ho : onFail s = false)
    (ha : (s.phys x.1 y.phys).st = .active) (hb : (s.phys x.1 y.phys).charges + 1 < max 1 (s.grove x.1).retireLimit.toNat) :
    FailedRun x y (matOf w).accFmt (tileRun w y.idx obs s) s (ranTile w o y x obs s) := by
  obtain ⟨-, -, -, hretiring, hunarmed⟩ := h
  exact runTile_fails hf hread hfail hretiring hunarmed hl ho ha hb ..

/-- A computation that fails while the limit allows another: the tile is open for it, and nothing is written (R249). -/
theorem matTileDone_failed (hl : o.live = [y]) (h : TileReady w y.idx x s)
    (hr : FailedRun x y (matOf w).accFmt (tileRun w y.idx obs s) s (ranTile w o y x obs s)) : matTileDone w o y x obs s =
      (heldTiles w o y x obs s).setProg w.wid (.tiles (o.reopened x y (ranTile w o y x obs s))) := by
  rw [matTileDone_again h (afterRun_again hl hr.fate hr.dead hr.idx)]
  exact settleTiles_open (.inr (List.cons_ne_nil _ _))

/-! ## Chunks of a vector operation -/

/-- The computation of a chunk that reads no poison. -/
def ranChunk (w : Work) (y : TileSt) (x : Nat × Nat) (obs : TileObs) (s : State) : Ran :=
  runTile w x y .chunk (vecOf w).inFmt ((vecOf w).gc y.idx)
    ((vecOf w).inputs.map (fun r => (r, fmtBits (vecOf w).inFmt * ((vecOf w).span y.idx).1 / 8))) none obs ((vecOf w).run s obs y.idx) s

/-- A reducing operation keeps the result of a chunk for its end (R223). -/
def keepPart (w : Work) (y : TileSt) (out : TileOut) (o : TileOp) : TileOp :=
  if (vecOf w).reduces then { o with parts := o.parts ++ [(y.idx, nth (out.rows.headD ([], [])).1 0 0)] } else o

theorem keepPart_keeps (w : Work) (y : TileSt) (out : TileOut) (o : TileOp) : (keepPart w y out o).live = o.live ∧
    (keepPart w y out o).written = o.written ∧ (keepPart w y out o).next = o.next ∧ (keepPart w y out o).total = o.total := by
  unfold keepPart
  split <;> exact ⟨rfl, rfl, rfl, rfl⟩

theorem vecChunkDone_written {o' : TileOp} (h : (vecOf w).poisoned y.idx s = false)
    (ha : afterRun o x y (ranChunk w y x obs s) = (o', some (some out))) : vecChunkDone w o y x obs s =
      settleTiles w (keepPart w y out o') (inputRegions s (vecOf w).inputs) ((vecOf w).last (keepPart w y out o'))
        (fun s => refRead s (vecOf w).out 0 (vecOf w).outBytes) ((vecOf w).write y.idx out (ranChunk w y x obs s).state) := by
  simp only [ranChunk] at ha
  simp only [vecChunkDone, h, Bool.false_eq_true, if_false, ha]
  rfl

/-- A first computation of a chunk that is not the last and passes: its output is written, and the operation goes on. -/
theorem vecChunkDone_passed (hl : o.live = [y]) (hn : o.next ≠ o.total) (h : (vecOf w).poisoned y.idx s = false)
    (hr : PassedRun x y ((vecOf w).run s obs y.idx) s (ranChunk w y x obs s)) : vecChunkDone w o y x obs s =
      ((vecOf w).write y.idx ((vecOf w).run s obs y.idx).out (ranChunk w y x obs s).state).setProg w.wid
        (.tiles (keepPart w y ((vecOf w).run s obs y.idx).out
          (o.wrote x y (ranChunk w y x obs s) ((vecOf w).run s obs y.idx).out))) := by
  rw [vecChunkDone_written h (afterRun_written hl hr.fate hr.dead hr.again)]
  refine settleTiles_open (.inl ?_)
  obtain ⟨-, -, hnext, htotal⟩ := keepPart_keeps w y ((vecOf w).run s obs y.idx).out
    (o.wrote x y (ranChunk w y x obs s) ((vecOf w).run s obs y.idx).out)
  rw [hnext, htotal]
  exact hn

end

end Sys2Proof.Machine

/-! # The obligation on tiles and chunks -/

namespace Sys2Proof.Machine

/-- Settles O26: a tile in its turn goes to an idle Stand or waits; a first computation that passes is written where its tile lies and the
operation goes on or ends; one that fails is open again, its Stand charged; a wait that expires costs a rank. -/
theorem tilesAndChunks : Obligations.TilesAndChunks := by
  unfold Obligations.TilesAndChunks
  refine ⟨fun s w o k y x hi ha hp hctx hslots hstands hy hplace hgate => ?given,
    fun s w o k r y hi ha hp hctx hslots hstands hy hplace => ?waits,
    fun s w o y x obs hi ha hop hp hl hn hf hready hpass hc => ?written,
    fun s w o y x obs g id off hi ha hop hp hl hn hf hready hpass hroom hc hg => ?ended,
    fun s w o y x obs hi ha hop hp hl hf hready hlimit hpolicy hfail hsram hhbm hactive hbelow => ?again,
    fun s w o y x obs hi ha hop hp hl hn hf hretiring hpass hunarmed hpoison hout => ?chunk,
    fun s w o k hi ha hp => ?expired⟩
  case given =>
    refine completes_tileDispatch ⟨hi, ha, hp, hctx, hslots, hstands⟩ hy (by rw [hplace]; exact hgate) ?_
    rw [hplace]
    exact ⟨at_setProg hi, placeTile_idle hplace, congrArg Stand.busy (State.stand_modStand_same ..),
      (((modStand_onlyChanges s x.1 x.2 _).mono (by simp)).trans ((setProg_onlyChanges _ _ _).mono (by simp))).kept⟩
  case waits =>
    refine completes_tileDispatch ⟨hi, ha, hp, hctx, hslots, hstands⟩ hy (by rw [hplace]; rfl) ?_
    rw [hplace]
    exact ⟨at_setProg hi, (setProg_onlyChanges s _ _).kept⟩
  case written =>
    obtain ⟨region, off, hc⟩ := eq_hbm_of_regionId hc
    have hrun := ranTile_passed (o := o) hf hready hpass
    obtain ⟨hmem, hbusy, hfails, htiles⟩ := writtenTile_spec hc hrun
    obtain ⟨-, -, hframe⟩ := writtenTile_frame hc hrun.frame
    have hitem := (item_of_work_eq (hframe.work_eq (by simp)) w.wid).trans hi
    refine completes_tileComplete hi ha hop hp hl hf.1 ?_
    rw [matTileDone_goesOn hl hn hready hrun]
    exact ⟨hmem, ⟨_, at_setProg hitem, _, rfl, rfl, rfl, rfl, rfl, rfl⟩, hbusy, hfails, htiles,
      ((hframe.mono (by simp)).trans ((setProg_onlyChanges _ _ _).mono (by simp))).kept⟩
  case ended =>
    have hrun := ranTile_passed (o := o) hf hready hpass
    obtain ⟨-, hroom', hframe⟩ := writtenTile_frame hc hrun.frame
    obtain ⟨info, result, fr, hends⟩ := matTileDone_ends hl hn hready hrun
    have hfinish := finishOp_onlyChanges w info result (writtenTile w o y x obs s) fr
    refine completes_tileComplete hi ha hop hp hl hf.1 ?_
    rw [hends]
    refine ⟨finishOp_gone (hroom'.trans hroom) _ _ _, fun a hother => ?_, ((hframe.mono (by simp)).trans (hfinish.mono (by decide))).kept⟩
    rw [hbmByte, State.kept_mem, hfinish.mem_eq (by decide)]
    exact writtenTile_hbm_other hc hg hrun.frame hother
  case again =>
    have hrun := ranTile_failed (o := o) hf hready ⟨hsram, hhbm⟩ hfail hlimit hpolicy hactive hbelow
    have hheld := heldTiles_onlyChanges hrun.frame
    obtain ⟨hbusy, -, hgrove, hphys, -⟩ := holdTiles_keeps x (readTiles w y s) (ranTile w o y x obs s).state
    have hitem := (item_of_work_eq (hheld.work_eq (by simp)) w.wid).trans hi
    refine completes_tileComplete hi ha hop hp hl hf.1 ?_
    rw [matTileDone_failed hl hready hrun]
    exact ⟨⟨_, at_setProg hitem, _, rfl, congrArg (fun k => [k]) hrun.kind, rfl⟩, hheld.mem_eq (by simp), hbusy.trans hrun.idle,
      (congrArg Grove.chkFail (hgrove _)).trans hrun.failed, (congrArg Grove.chkLast (hgrove _)).trans hrun.last,
      (hphys _ _).trans hrun.charged, ((hheld.mono (by simp)).trans ((setProg_onlyChanges _ _ _).mono (by simp))).kept⟩
  case chunk =>
    obtain ⟨region, off, hout⟩ := eq_hbm_of_regionId hout
    have hrun : PassedRun x y _ s (ranChunk w y x obs s) := runTile_passes hf hpass hretiring hunarmed ..
    have hwrite := vecWrite_onlyChanges hout y.idx ((vecOf w).run s obs y.idx).out (ranChunk w y x obs s).state
    have hitem := (item_of_work_eq ((hwrite.work_eq (by simp)).trans (hrun.frame.work_eq (by simp))) w.wid).trans hi
    obtain ⟨hlive, hwritten, hnext, -⟩ := keepPart_keeps w y ((vecOf w).run s obs y.idx).out
      (o.wrote x y (ranChunk w y x obs s) ((vecOf w).run s obs y.idx).out)
    refine completes_vectorChunkComplete hi ha hop hp hl hf.1 ?_
    rw [vecChunkDone_passed hl hn hpoison hrun]
    exact ⟨vecWrite_congr hout (hrun.frame.mem_eq (by simp)) (hrun.frame.img_eq (by simp)) _ _,
      ⟨_, at_setProg hitem, _, rfl, hlive, hwritten, hnext⟩,
      (congrArg Stand.busy (stand_of_groves_eq (hwrite.groves_eq (by simp)) _ _)).trans hrun.idle,
      ((hrun.frame.mono (by simp)).trans ((hwrite.mono (by simp)).trans ((setProg_onlyChanges _ _ _).mono (by simp)))).kept⟩
  case expired => exact completes_affinityWaitExpire hi ha hp ⟨at_setProg hi, (setProg_onlyChanges s _ _).kept⟩

end Sys2Proof.Machine

/-! # Stopping a descriptor

SUPPORT. What level 1 makes of one descriptor (R685): what it held goes back, and it completes, or is held with its end where its record
has no room (R262, R271). -/

namespace Sys2Proof.Machine

section
variable {s t u : State} {w : Work} {st : Status} {r : Nat} {fr : BitVec 16}

/-- What a record's room depends on, and the descriptors in flight, are the same in two states. -/
structure SameRoom (s t : State) : Prop where
  work   : t.work = s.work
  chains : t.waybill.chains = s.waybill.chains
  image  : t.img.image = s.img.image

theorem SameRoom.trans (h : SameRoom s t) (h' : SameRoom t u) : SameRoom s u :=
  ⟨h'.work.trans h.work, h'.chains.trans h.chains, h'.image.trans h.image⟩

theorem SameRoom.of_onlyChanges {ps : List Zone} (h : OnlyChanges ps s t) (hw : .work ∉ ps) (hb : .waybill ∉ ps) (hi : .img ∉ ps) :
    SameRoom s t :=
  ⟨h.work_eq hw, congrArg Waybill.chains (h.waybill_eq hb), congrArg ImageCtl.image (h.img_eq hi)⟩

theorem SameRoom.item (h : SameRoom s t) (x : Nat) : t.item x = s.item x := item_of_work_eq h.work x

theorem SameRoom.wbRoom (h : SameRoom s t) (p : Nat) : wbRoom p t = wbRoom p s := by
  have hchain : t.chain p = s.chain p := by rw [State.chain, h.chains, State.chain]
  have hcap : wbCapacity t = wbCapacity s := by simp only [wbCapacity, State.partitions, h.image]
  simp only [Machine.wbRoom, storeRoom, hchain, hcap]

/-! ## What a descriptor held -/

theorem freeStands_onlyChanges (l : List TileSt) (s : State) : OnlyChanges [.groves] s (freeStands l s) := by
  refine onlyChanges_foldl (fun s t => ?_) l s
  split
  · exact modStand_onlyChanges s _ _ _
  · exact .refl _ s

theorem dropReads_onlyChanges (wid : Nat) (s : State) : OnlyChanges [.sleeper, .ddr] s (dropReads wid s) := by
  have hsleeper (x : Sleeper) : OnlyChanges [.sleeper] s { s with sleeper := x } := by
    intro p hp
    cases p <;> simp [sameZone] at hp ⊢
  exact ((hsleeper _).mono (by simp)).trans
    (onlyChanges_foldl (fun s r => (onlyChanges_set_ddr s _).mono (by simp)) _ _)

theorem freeStands_sameRoom (l : List TileSt) (s : State) : SameRoom s (freeStands l s) :=
  .of_onlyChanges (freeStands_onlyChanges l s) (by simp) (by simp) (by simp)

theorem stopProg_sameRoom (w : Work) (s : State) : SameRoom s (stopProg w s) := by
  unfold stopProg
  split
  -- what computes on Stands frees them
  case h_1 | h_2 | h_3 | h_4 => exact freeStands_sameRoom _ s
  -- KV_FETCH and MT_LOAD, TT_CANCEL and what else waits for a step boundary: by the opcode
  case h_9 | h_14 => split <;> exact ⟨rfl, rfl, rfl⟩
  all_goals exact ⟨rfl, rfl, rfl⟩

/-- The state once a stopped descriptor's reads are abandoned and what it held has gone back. -/
def givenBack (w : Work) (s : State) : State := stopProg w (dropReads w.wid s)

theorem givenBack_sameRoom (w : Work) (s : State) : SameRoom s (givenBack w s) :=
  (SameRoom.of_onlyChanges (dropReads_onlyChanges w.wid s) (by simp) (by simp) (by simp)).trans (stopProg_sameRoom w _)

/-! ## Its end -/

/-- A descriptor that holds no Rail request ends where it is, its record first if it has one. -/
theorem stopWork_of_local (hi : s.item w.wid = some w) (hruns : runsOn w = false) (hrail : ∀ x, w.prog ≠ .rail x) :
    stopWork st r fr s w.wid =
      if recorded w then finishOp w (stopInfo w st s) r (givenBack w s) fr else complete w st r (givenBack w s) fr := by
  simp only [stopWork, hi, hruns, givenBack, Bool.false_eq_true, if_false]

/-- A descriptor that has no record, or whose record has room, completes. -/
theorem stopWork_completes (hi : s.item w.wid = some w) (hruns : runsOn w = false) (hrail : ∀ x, w.prog ≠ .rail x)
    (hroom : recorded w = false ∨ wbRoom w.part s = true) :
    ∃ x u, stopWork st r fr s w.wid = complete w x r u fr ∧ u.work = s.work := by
  have hback := givenBack_sameRoom w s
  rw [stopWork_of_local hi hruns hrail]
  split
  case isTrue hrec =>
    have hroom' : wbRoom w.part (givenBack w s) = true := (hback.wbRoom _).trans (hroom.resolve_left (by simp [hrec]))
    obtain ⟨u, hu, hframe⟩ := finishOp_of_room hroom' (stopInfo w st s) r fr
    exact ⟨_, u, hu, (hframe.work_eq (by simp)).trans hback.work⟩
  case isFalse => exact ⟨st, _, rfl, hback.work⟩

/-- An executed operation of a ring whose record has no room is held with its end. -/
theorem stopWork_held {n : Nat} {p : W32} (hi : s.item w.wid = some w) (hsrc : w.src = .ring n p) (hrec : recorded w = true)
    (hroom : wbRoom w.part s = false) (hruns : runsOn w = false) (hrail : ∀ x, w.prog ≠ .rail x) :
    At w (.ended (stopInfo w st s) r fr) (stopWork st r fr s w.wid) := by
  have hback := givenBack_sameRoom w s
  have hroom' : wbRoom w.part (givenBack w s) = false := (hback.wbRoom _).trans hroom
  rw [stopWork_of_local hi hruns hrail, if_pos hrec]
  simp only [finishOp, hsrc, hroom', Bool.false_eq_true, if_false]
  exact at_setProg ((hback.item _).trans hi)

end

end Sys2Proof.Machine

/-! # A hang and its level

SUPPORT. A contained or fatal error that the device detects, as its record is opened or merged (R676 to R683), and the resets that the host
asks for (R688). -/

namespace Sys2Proof.Machine

section
variable {s t u : State} {e : Err} {h : Hang} {level own : Nat} {mark : Bool}

/-- An error has opened a record of a number, or merged into one: the device is in the fault state, and of the power block only ERR_N, of the
fault block neither the culprit, nor the marks, nor the highest level allowed, may have changed. -/
structure ErrNoted (e : Err) (fr : BitVec 16) (s u : State) : Prop where
  fault    : u.ft.fault = true
  quiet    : u.ft.quietFrom = s.clk.ac
  opened   : mergeInto e.domain s = none → fr = nextNumber s.ft.last ∧ (2 ≤ e.cls → u.power.errnPulse = true)
  culprit  : u.ft.culprit = s.ft.culprit
  marks    : u.ft.marks = s.ft.marks
  maxLevel : u.ft.maxLevel = s.ft.maxLevel
  ready    : u.ready = s.ready
  frame    : OnlyChanges [.ft, .host, .power, .out] s u

theorem openRec_noted (e : Err) (s : State) : ErrNoted e (openRec e s).2 s (openRec e s).1 where
  fault := by simp [openRec, noteFault]
  quiet := by simp [openRec, noteFault]
  opened _ := ⟨rfl, fun h => by simp [openRec, h]⟩
  culprit := by simp [openRec, noteFault]
  marks := by simp [openRec, noteFault]
  maxLevel := (openRec_keeps e s).2.2
  ready := (openRec_keeps e s).1
  frame := ((onlyChanges_set_ft s _).mono (by simp)).trans
    (((onlyChanges_set_power _ _).mono (by simp)).trans (event_onlyChanges.mono (by simp)))

theorem ErrNoted.settle {fr : BitVec 16} (h : ErrNoted e fr s u) : ErrNoted e fr s (settleRecs u) :=
  { h with frame := h.frame.trans ((onlyChanges_set_ft u _).mono (by simp)) }

/-- A contained or fatal error is noted; a fatal one starts the chip reset beside (R680, R689). -/
theorem raiseErr_noted (hc : e.cls ≠ 0) (s : State) : ∃ fr u, ErrNoted e fr s u ∧
    raiseErr e s = (if e.cls = 3 then chipLevel (max 4 e.level) u else u, fr) := by
  rw [raiseErr, if_neg hc]
  cases hmerge : mergeInto e.domain s with
  | some k =>
    have hnoted : ErrNoted e (tget s.ft.recs k {}).number s
        (noteFault { s with ft := { s.ft with recs := tmod s.ft.recs k {} (fun r => r.merge e s.clk.ac) } }) :=
      ⟨rfl, rfl, fun h => by simp [h] at hmerge, rfl, rfl, rfl, rfl, (onlyChanges_set_ft s _).mono (by simp)⟩
    exact ⟨_, _, hnoted.settle, rfl⟩
  | none => exact ⟨_, _, (openRec_noted e s).settle, rfl⟩

/-- The error of a hang at a level (R675, R686, R689). -/
def hangErr (level own : Nat) (h : Hang) : Err :=
  { cls := if level ≥ 4 then 3 else 2, source := 0x0B, domain := h.domain, cause := h.cause, detail0 := h.detail, detail1 := h.unit,
    ctx := h.ctx, tenant := h.tenant, part := h.part, who := h.who, waits := h.waits, level, escalated := decide (level > own) }

/-- A hang whose error has been noted under a number: where `mark`, the culprit is named and a level below 4 leaves its mark (R686). -/
def nameCulprit (level : Nat) (mark : Bool) (h : Hang) (ac : Nat) (fr : BitVec 16) (u : State) : State :=
  { u with ft := { u.ft with
    culprit := if mark then
        { valid := true, level := BitVec.ofNat 3 level, watchdog := BitVec.ofNat 2 h.wd, kind := h.eng.kind, engine := BitVec.ofNat 16 h.eng.unit,
          ctxValid := h.ctx.isSome, part := BitVec.ofNat 2 h.part, context := BitVec.ofNat 12 (h.ctx.getD 0), number := fr }
      else u.ft.culprit,
    marks := if mark ∧ level < 4 then u.ft.marks ++ [{ domain := h.domain, level, ac }] else u.ft.marks } }

theorem hangAt_eq (level own : Nat) (mark : Bool) (h : Hang) (s : State) : hangAt level own mark h s =
    runLevel level h (raiseErr (hangErr level own h) s).2
      (nameCulprit level mark h s.clk.ac (raiseErr (hangErr level own h) s).2 (raiseErr (hangErr level own h) s).1) := rfl

theorem nameCulprit_opened {fr : BitVec 16} (hlt : level < 4) (hn : ErrNoted (hangErr level own h) fr s u) :
    HangOpened level mark h fr s (nameCulprit level mark h s.clk.ac fr u) := by
  refine ⟨hn.fault, hn.quiet, fun hm => ?_, fun hm => ?_, fun hm => ?_, hn.frame.trans ((onlyChanges_set_ft u _).mono (by simp))⟩
  · obtain ⟨hnumber, hpulse⟩ := hn.opened hm
    exact ⟨hnumber, hpulse (by simp [hangErr, Nat.not_le.2 hlt])⟩
  · simp [nameCulprit, hm, hlt, hn.marks]
  · simp [nameCulprit, hm, hn.marks, hn.culprit]

/-- A hang below level 4 opens its record or merges into one, and its level runs (R675, R686). -/
theorem hangAt_opens (hlt : level < 4) (own : Nat) (mark : Bool) (h : Hang) (s : State) :
    ∃ fr u, HangOpened level mark h fr s u ∧ hangAt level own mark h s = runLevel level h fr u := by
  have hcls : (hangErr level own h).cls = 2 := if_neg (by omega)
  obtain ⟨fr, u, hnoted, hraise⟩ := raiseErr_noted (e := hangErr level own h) (by simp [hcls]) s
  rw [hangAt_eq, hraise, if_neg (by simp [hcls])]
  exact ⟨fr, _, nameCulprit_opened hlt hnoted, rfl⟩

/-- A host reset of a level below 4 that the highest level allows (R688). -/
theorem hostReset_opens (hlt : level < 4) (hmax : level ≤ s.ft.maxLevel.toNat) (h : Hang) : ∃ fr u,
    HangOpened level false { h with cause := Status.cancelled.code } fr s u ∧
    hostReset level h s = runLevel level { h with cause := Status.cancelled.code } fr u := by
  rw [hostReset, if_neg (by omega)]
  exact hangAt_opens hlt _ _ _ s

theorem hostReset_above (hmax : s.ft.maxLevel.toNat < level) (h : Hang) : hostReset level h s = s := if_pos hmax

theorem runLevel_two (h : Hang) (fr : BitVec 16) (s : State) : runLevel 2 h fr s = engineReset h.eng h.ctx fr s := rfl
theorem runLevel_three (h : Hang) (fr : BitVec 16) (s : State) : runLevel 3 h fr s = partReset h.part fr s := rfl

/-- A Stand that is reset is idle and holds no tile (R685). -/
theorem engineReset_stand (u : Nat) (fr : BitVec 16) (s : State) :
    ((engineReset { kind := 1, unit := u } none fr s).stand (u / 256) (u % 256)).busy = false ∧
    ((engineReset { kind := 1, unit := u } none fr s).stand (u / 256) (u % 256)).resident = [] := by
  rw [engineReset, if_neg (by simp)]
  dsimp only
  rw [State.stand_modStand_same]
  exact ⟨rfl, rfl⟩

/-- The hang of a Stand that runs no tile: it is nobody's. -/
def standHang (u : Nat) (s : State) : Hang := engineHang 1 { kind := 1, unit := u } none s

theorem standHang_domain (u : Nat) (s : State) : (standHang u s).domain = u / 256 := by
  simp [standHang, engineHang, engineDomain]

theorem execFtResetEngine_idle {u : Nat} (hr : reaches 0 s = true) (hro : readsOnly s = false)
    (hexists : engineExists { kind := 1, unit := u } s = true)
    (hidle : ∀ w ∈ s.work, ∀ t ∈ liveTiles w, t.running ≠ some (u / 256, u % 256)) :
    exec (.ftResetEngine u) s = .next (s.kept (hostReset 2 (standHang u s) s)) := by
  have hexec : exec (.ftResetEngine u) s = execFtResetEngine u s := rfl
  have hnone : s.work.find? (fun w => (liveTiles w).any (fun t => t.running == some (u / 256, u % 256))) = none := by
    simpa [List.find?_eq_none] using hidle
  rw [hexec, execFtResetEngine]
  dsimp only
  rw [hexists, actIf_of_live (live_of_reaches hr) (by simp [writes, hr, hro]), hnone]
  rfl

theorem execFtResetPartition_next {p : Nat} (hr : reaches 0 s = true) (hro : readsOnly s = false) (hp : p < s.partitions) :
    exec (.ftResetPartition p) s = .next (s.kept (hostReset 3 (partHang p s) s)) := by
  have hexec : exec (.ftResetPartition p) s = execFtResetPartition p s := rfl
  rw [hexec, execFtResetPartition, actIf_of_live (live_of_reaches hr) (by simp [writes, hr, hro, hp])]

/-! ## Level 4 -/

theorem complete_culprit (w : Work) (st : Status) (r : Nat) (s : State) (fr : BitVec 16) :
    (complete w st r s fr).ft.culprit = s.ft.culprit := by rw [complete_ft]; rfl

theorem completeAll_culprit (st : Status) (r : Nat) (l : List Work) (s : State) : (completeAll st r l s).ft.culprit = s.ft.culprit := by
  induction l generalizing s with
  | nil => rfl
  | cons w l ih => rw [completeAll, ih, complete_culprit]

theorem endInFlight_culprit (s : State) : (endInFlight s).ft.culprit = s.ft.culprit :=
  (completeAll_culprit ..).trans (congrArg Faults.culprit (portReset_ft s))

/-- FT_CULPRIT outlives a warm reset (R670). -/
theorem warmReset_culprit (hr : s.ready = true) (c : BitVec 2) : (warmReset c s).ft.culprit = s.ft.culprit := by
  have hdiscard : (discardWarm (endInFlight s)).ft.culprit = s.ft.culprit := endInFlight_culprit s
  simpa [warmReset, hr, completeAll_portReset] using hdiscard

theorem chipLevel_four_culprit (hr : s.ready = true) (hmax : 4 ≤ s.ft.maxLevel.toNat) : (chipLevel 4 s).ft.culprit = s.ft.culprit := by
  rw [chipLevel_four hmax]
  exact warmReset_culprit (s := markChip s) hr 3

/-- A host reset of level 4 resets the chip and names no culprit (R688, R689). -/
theorem hostReset_four (hr : s.ready = true) (hmax : 4 ≤ s.ft.maxLevel.toNat) (h : Hang) :
    (hostReset 4 h s).boot.stage = .lodge ∧ (hostReset 4 h s).boot.cause = 3 ∧ (hostReset 4 h s).boot.chipReset = true ∧
    (hostReset 4 h s).work = [] ∧ (hostReset 4 h s).mem.hbm = s.mem.hbm ∧ (hostReset 4 h s).ft.culprit = s.ft.culprit := by
  obtain ⟨fr, u, hnoted, hraise⟩ := raiseErr_noted (e := hangErr 4 4 { h with cause := Status.cancelled.code }) (by simp [hangErr]) s
  have hr' : u.ready = true := hnoted.ready.trans hr
  have hmax' : 4 ≤ u.ft.maxLevel.toNat := hnoted.maxLevel ▸ hmax
  obtain ⟨hstage, hcause, hchip, hwork, hhbm⟩ := chipLevel_four_of_ready hr' hmax'
  have heq : hostReset 4 h s = chipLevel 4 u := by
    rw [hostReset, if_neg (by omega), hangAt_eq, hraise]
    rfl
  rw [heq]
  exact ⟨hstage, hcause, hchip, hwork, hhbm.trans (congrArg Mem.hbm (hnoted.frame.mem_eq (by simp))),
    (chipLevel_four_culprit hr' hmax').trans hnoted.culprit⟩

end

end Sys2Proof.Machine

/-! # The obligation on host-started resets -/

namespace Sys2Proof.Machine

/-- Settles O21: a descriptor that is stopped completes or is held with its end; a host reset of level 2 or 3 is a hang that names nobody,
one of level 4 the chip reset, and one above the highest level nothing. -/
theorem hostStartedResets : Obligations.HostStartedResets := by
  unfold Obligations.HostStartedResets
  refine ⟨fun s w st r fr hi hruns hrail hroom => ?stopped, fun s w n p st r fr hi hsrc hrec hroom hruns hrail => ?held,
    fun s u hr hro hexists hmax hidle => ?stand, fun s p hr hro hp hmax => ?partition, fun s u hr hro hready hu hmax => ?chip,
    fun s u hr hro hu hmax => ?above⟩
  case stopped =>
    have hlocal (x : RailOp) : w.prog ≠ .rail x := fun hx => by rw [hx] at hrail; exact hrail
    obtain ⟨x, u, heq, hwork⟩ := stopWork_completes (st := st) (r := r) (fr := fr) hi hruns hlocal hroom
    rw [heq]
    exact ⟨complete_item .., fun y hy => (complete_item_other w x r fr hy).trans (item_of_work_eq hwork y)⟩
  case held =>
    have hlocal (x : RailOp) : w.prog ≠ .rail x := fun hx => by rw [hx] at hrail; exact hrail
    exact stopWork_held hi hsrc hrec hroom hruns hlocal
  case stand =>
    obtain ⟨fr, v, hopened, heq⟩ := hostReset_opens (by omega) hmax (standHang u s)
    refine ⟨_, execFtResetEngine_idle hr hro hexists hidle, { standHang u s with cause := Status.cancelled.code }, fr, v, ?_⟩
    rw [heq, runLevel_two]
    exact ⟨standHang_domain u s, rfl, hopened, rfl, engineReset_stand u fr v⟩
  case partition =>
    obtain ⟨fr, v, hopened, heq⟩ := hostReset_opens (by omega) hmax (partHang p s)
    refine ⟨_, execFtResetPartition_next hr hro hp, { partHang p s with cause := Status.cancelled.code }, fr, v, ?_⟩
    rw [heq, runLevel_three]
    exact ⟨rfl, rfl, hopened, rfl⟩
  case chip => exact actIf_completes (live_of_reaches hr) (by simp [writes, hr, hro, hu]) (hostReset_four hready hmax _)
  case above =>
    refine actIf_completes (live_of_reaches hr) (by simp [writes, hr, hro, hu]) ?_
    rw [hostReset_above hmax]
    exact (OnlyChanges.refl [] s).kept

end Sys2Proof.Machine

/-! # The lines of an integer product

SUPPORT. What an accumulator of a product reads as, the two check values of an integer line as sums over its elements (R237, R238), and
when the compare of such a line passes (R241). -/

namespace Sys2Proof.Machine

/-- The sum of the terms of a list of indices is that over the range of indices. -/
theorem sum_map_range {α : Type} [AddCommMonoid α] (f : Nat → α) (n : Nat) :
    ((List.range n).map f).sum = ∑ k ∈ Finset.range n, f k := rfl

theorem nth_map_range {α : Type} (f : Nat → α) (n i : Nat) (d : α) : nth ((List.range n).map f) i d = if i < n then f i else d := by
  by_cases h : i < n <;> simp [nth, h]

/-! ## Integers modulo 2^32 -/

theorem mod32_eq_iff (n : Nat) (x : Int) : n % 2 ^ 32 = mod32 x ↔ (n : Int) ≡ x [ZMOD 2 ^ 32] := by
  unfold mod32 Int.ModEq
  omega

theorem mod32_modEq (x : Int) : (mod32 x : Int) ≡ x [ZMOD 2 ^ 32] := by
  unfold mod32 Int.ModEq
  omega

theorem sum_modEq {f g : Nat → Int} {n : Int} {l : Finset Nat} (h : ∀ j ∈ l, f j ≡ g j [ZMOD n]) :
    ∑ j ∈ l, f j ≡ ∑ j ∈ l, g j [ZMOD n] := by
  rw [Int.modEq_iff_dvd, ← Finset.sum_sub_distrib]
  exact Finset.dvd_sum fun j hj => (h j hj).dvd

/-- A word of 32 bits that differs from an integer modulo 2^32 is not congruent to it. -/
theorem not_modEq_of_word {v : W32} {x : Int} (h : v.toNat ≠ mod32 x) : ¬ (v.toNat : Int) ≡ x [ZMOD 2 ^ 32] := by
  rwa [← mod32_eq_iff, Nat.mod_eq_of_lt v.isLt]

section
variable {p : Product} {i : Nat}

/-! ## Accumulators -/

/-- The bits of accumulator (i, j) of a computation without a fault. -/
def Product.accAt (p : Product) (i j : Nat) : Nat := (nth (nth p.accs i []) j (0, false)).1

theorem Product.accs_inside {j : Nat} (hi : i < p.rows) (hj : j < p.cols) : nth (nth p.accs i []) j (0, false) =
    if p.int then (mod32 (p.intSum i j), wraps (p.intSum i j)) else (p.acc i j, false) := by
  rw [Product.accs, nth_map_range, if_pos hi, nth_map_range, if_pos hj]

theorem Product.accs_outside {j : Nat} (h : ¬ (i < p.rows ∧ j < p.cols)) : nth (nth p.accs i []) j (0, false) = (0, false) := by
  rw [Product.accs, nth_map_range]
  split
  case isTrue hi => rw [nth_map_range, if_neg (fun hj => h ⟨hi, hj⟩)]
  case isFalse => rfl

/-- The exact sum of element (i, j), 0 beyond the operands' rows and columns. -/
def Product.exact (p : Product) (i j : Nat) : Int := if i < p.rows ∧ j < p.cols then p.intSum i j else 0

theorem Product.accAt_modEq (hint : p.int = true) (i j : Nat) : (p.accAt i j : Int) ≡ p.exact i j [ZMOD 2 ^ 32] := by
  unfold Product.accAt Product.exact
  split
  case isTrue h =>
    rw [accs_inside h.1 h.2, if_pos hint]
    exact mod32_modEq _
  case isFalse h => rw [accs_outside h]; rfl

theorem Product.turned_exact (p : Product) (i j : Nat) : p.turned.exact j i = p.exact i j := by
  have hsum : p.turned.intSum j i = p.intSum i j := by
    simp only [Product.intSum, Product.intA, Product.intB, Product.turned, mul_comm]
  rw [Product.exact, Product.exact, hsum]
  exact if_congr and_comm rfl rfl

/-! ## The check values of a line -/

/-- A check value of row line i is the weighted sum of the line's exact elements. -/
theorem Product.intRow_eq (hi : i < p.rows) (hc : p.cols ≤ 128) (weight : Nat → Int) :
    p.intRow weight i = mod32 (∑ j ∈ Finset.range 128, weight j * p.exact i j) := by
  have hinside : ∑ j ∈ Finset.range 128, weight j * p.exact i j = ∑ j ∈ Finset.range p.cols, weight j * p.intSum i j := by
    refine (Finset.sum_subset (Finset.range_mono hc) (fun j _ hj => ?_)).symm.trans (Finset.sum_congr rfl (fun j hj => ?_))
    · simp [Product.exact, Finset.mem_range.not.1 hj]
    · simp [Product.exact, hi, Finset.mem_range.1 hj]
  have hswap : ∑ k ∈ Finset.range p.len, p.intA i k * ∑ j ∈ Finset.range p.cols, weight j * p.intB j k =
      ∑ j ∈ Finset.range p.cols, weight j * ∑ k ∈ Finset.range p.len, p.intA i k * p.intB j k := by
    simp only [Finset.mul_sum]
    rw [Finset.sum_comm]
    exact Finset.sum_congr rfl (fun j _ => Finset.sum_congr rfl (fun k _ => by ring))
  rw [hinside]
  simp only [Product.intRow, Product.intSum, sum_map_range, mul_add, Finset.sum_add_distrib, hswap, add_comm]

/-- What the compare of row line i finds where the accumulators of the line are `f`. -/
def Product.intOut (p : Product) (i : Nat) (f : Nat → Nat) : LineOut :=
  intLine ((List.range 128).map f) (p.intRow (fun _ => 1) i) (p.intRow (fun j => (j : Int) + 1) i)

theorem intLine_of_range (f : Nat → Nat) (n chk weighted : Nat) : intLine ((List.range n).map f) chk weighted =
    if (∑ j ∈ Finset.range n, f j) % 2 ^ 32 = chk ∧ (∑ j ∈ Finset.range n, (j + 1) * f j) % 2 ^ 32 = weighted then .pass else .fail := by
  have hzip : ((List.range n).map f).zipIdx.map (fun x => (x.2 + 1) * x.1) = (List.range n).map (fun j => (j + 1) * f j) :=
    List.ext_getElem (by simp) (by simp)
  rw [intLine, hzip, sum_map_range, sum_map_range]

/-- A line whose accumulators are its elements modulo 2^32 passes. -/
theorem Product.intOut_pass {f : Nat → Nat} (hi : i < p.rows) (hc : p.cols ≤ 128)
    (hf : ∀ j, (f j : Int) ≡ p.exact i j [ZMOD 2 ^ 32]) : p.intOut i f = .pass := by
  rw [intOut, intLine_of_range, intRow_eq hi hc, intRow_eq hi hc, if_pos]
  rw [mod32_eq_iff, mod32_eq_iff]
  push_cast
  exact ⟨sum_modEq fun j _ => by simpa using hf j, sum_modEq fun j _ => (hf j).mul_left _⟩

/-- A line with one wrong accumulator fails: its plain sum differs. -/
theorem Product.intOut_fail {f : Nat → Nat} {k : Nat} (hi : i < p.rows) (hc : p.cols ≤ 128) (hk : k < 128)
    (hf : ∀ j, j ≠ k → (f j : Int) ≡ p.exact i j [ZMOD 2 ^ 32]) (hbad : ¬ (f k : Int) ≡ p.exact i k [ZMOD 2 ^ 32]) :
    p.intOut i f = .fail := by
  have hmem : k ∈ Finset.range 128 := Finset.mem_range.2 hk
  have hrest : (∑ j ∈ (Finset.range 128).erase k, (f j : Int)) ≡ ∑ j ∈ (Finset.range 128).erase k, p.exact i j [ZMOD 2 ^ 32] :=
    sum_modEq fun j hj => hf j (Finset.ne_of_mem_erase hj)
  rw [intOut, intLine_of_range, if_neg]
  rintro ⟨hplain, -⟩
  rw [intRow_eq hi hc, mod32_eq_iff] at hplain
  push_cast at hplain
  simp only [one_mul, ← Finset.add_sum_erase _ _ hmem] at hplain
  exact hbad (Int.ModEq.add_right_cancel hrest hplain)

end

end Sys2Proof.Machine

/-! # The check of an integer tile

SUPPORT. What the compare of the lines of an integer product finds where no check value is at fault, by its accumulators (R241, R247). -/

namespace Sys2Proof.Machine

section
variable {p : Product} {o : TileObs} {tile : Nat}

/-! ## The lines compared -/

/-- The lines compared are those of the operands where every fault lies within them. -/
theorem linesUsed_eq_range {col : Bool} {n : Nat} (hn : n ≤ 128) (hl : o.lines = [])
    (hc : ∀ e ∈ o.cells, (if col then e.col else e.row) < n) : linesUsed tile o col n = List.range n := by
  have hused (i : Nat) : (decide (i < n) || o.cells.any (fun e => e.tile == tile && (if col then e.col else e.row) == i)) = decide (i < n) := by
    rw [Bool.or_eq_left_iff_imp]
    intro h
    obtain ⟨e, he, hi⟩ := List.any_eq_true.1 h
    simp only [Bool.and_eq_true, beq_iff_eq] at hi
    exact decide_eq_true (hi.2 ▸ hc e he)
  obtain ⟨k, hk⟩ := Nat.exists_eq_add_of_le hn
  simp only [linesUsed, hl, List.any_nil, Bool.or_false, hused]
  rw [hk, List.range_add, List.filter_append, List.filter_eq_self.2 (by simp), List.filter_eq_nil_iff.2 (by simp), List.append_nil]

theorem Product.intOut_ne_unchecked (p : Product) (i : Nat) (f : Nat → Nat) : p.intOut i f ≠ .unchecked := by
  unfold Product.intOut intLine
  split <;> simp

theorem lineVal_nil (tile : Nat) (col second : Bool) (i v : Nat) : lineVal tile [] col second i v = v := rfl

/-- The first failing line of one direction is the first whose accumulators give other sums; no integer line is left unchecked. -/
theorem Product.compare_int {col : Bool} (hint : p.int = true) (hl : o.lines = []) (hu : linesUsed tile o col p.rows = List.range p.rows)
    (f : Nat → Nat → Nat) : (p.compare o tile col f).1.head? = (List.range p.rows).find? (fun i => p.intOut i (f i) == .fail) ∧
      (p.compare o tile col f).2 = 0 := by
  rw [Product.compare, hu]
  dsimp only
  rw [List.map_congr_left (g := fun i => (i, p.intOut i (f i))) fun i hi => ?_]
  · simp [List.filter_map, Function.comp_def, List.head?_filter, Product.intOut_ne_unchecked]
  · simp [hint, hl, lineVal_nil, Product.rowCheck, Product.intOut, List.mem_range.1 hi]

/-! ## Accumulators as the compare finds them -/

theorem cellAt_same (e : CellErr) (accs : List (List (Nat × Bool))) : cellAt e.tile [e] accs e.row e.col = e.value.toNat := by
  simp [cellAt]

theorem cellAt_other {e : CellErr} {i j : Nat} (h : ¬ (i = e.row ∧ j = e.col)) (p : Product) : cellAt tile [e] p.accs i j = p.accAt i j := by
  have hmiss : (e.tile == tile && e.row == i && e.col == j) = false := by
    by_contra hne
    simp only [Bool.not_eq_false, Bool.and_eq_true, beq_iff_eq] at hne
    exact h ⟨hne.1.2.symm, hne.2.symm⟩
  rw [cellAt, List.find?_cons, hmiss]
  rfl

/-- Accumulators beside which no fault has left a value are those of the arithmetic. -/
theorem Product.run_accs (hc : o.cells = []) : (p.run o tile).1 = p.accs := by
  have hcell (i j : Nat) : (cellAt tile o.cells p.accs i j, (nth (nth p.accs i []) j (0, false)).2) = nth (nth p.accs i []) j (0, false) := by
    rw [hc]
    rfl
  simp only [Product.run, hcell]
  conv_rhs => rw [Product.accs]
  refine List.map_congr_left fun i hi => List.map_congr_left fun j hj => ?_
  exact accs_inside (List.mem_range.1 hi) (List.mem_range.1 hj)

/-- What the check of an integer tile sees: the first failing line of each direction. -/
theorem Product.run_lines (hint : p.int = true) (hrows : p.rows ≤ 128) (hcols : p.cols ≤ 128) (hl : o.lines = [])
    (hc : ∀ e ∈ o.cells, e.row < p.rows ∧ e.col < p.cols) : (p.run o tile).2 =
      { rowFail := (List.range p.rows).find? (fun i => p.intOut i (cellAt tile o.cells p.accs i) == .fail),
        colFail := (List.range p.cols).find? (fun j => p.turned.intOut j (fun i => cellAt tile o.cells p.accs i j) == .fail) } := by
  obtain ⟨hrow, hrowAll⟩ := compare_int (col := false) (tile := tile) hint hl
    (linesUsed_eq_range hrows hl fun e he => (hc e he).1) (cellAt tile o.cells p.accs)
  obtain ⟨hcol, hcolAll⟩ := compare_int (p := p.turned) (col := true) (tile := tile) hint hl
    (linesUsed_eq_range hcols hl fun e he => (hc e he).2) (fun j i => cellAt tile o.cells p.accs i j)
  simp only [Product.run, hrow, hrowAll, hcol, hcolAll]
  rfl

theorem find?_fail_eq_some {n k : Nat} {f : Nat → LineOut} (hk : k < n) (hfail : f k = .fail) (hpass : ∀ i, i < n → i ≠ k → f i = .pass) :
    (List.range n).find? (fun i => f i == .fail) = some k := by
  refine List.find?_range_eq_some.2 ⟨by simp [hfail], List.mem_range.2 hk, fun i hi => ?_⟩
  simp [hpass i (hi.trans hk) hi.ne]

theorem find?_fail_eq_none {n : Nat} {f : Nat → LineOut} (hpass : ∀ i, i < n → f i = .pass) :
    (List.range n).find? (fun i => f i == .fail) = none := by
  refine List.find?_range_eq_none.2 fun i hi => ?_
  simp [hpass i hi]

end

end Sys2Proof.Machine

/-! # The obligation on the check of integer tiles -/

namespace Sys2Proof.Machine

/-- Settles O25: the accumulators are those of the arithmetic; each line's check values are the sums of its exact elements modulo 2^32, so a
line without a fault passes, and one with a single wrong element fails by its plain sum. -/
theorem integerChecks : Obligations.IntegerChecks := by
  unfold Obligations.IntegerChecks
  refine ⟨fun p o tile hc => Product.run_accs hc, fun p o tile hint hrows hcols hc hl => ?faultless,
    fun p o tile e hint hrows hcols hc hl htile hr hcol hv => ?single⟩
  case faultless =>
    rw [Product.run_lines hint hrows hcols hl (by simp [hc]), hc]
    exact congrArg₂ (fun r c => ({ rowFail := r, colFail := c } : Lines))
      (find?_fail_eq_none fun i hi => Product.intOut_pass hi hcols (p.accAt_modEq hint i))
      (find?_fail_eq_none fun j hj => Product.intOut_pass (p := p.turned) hj hrows fun i => p.turned_exact i j ▸ p.accAt_modEq hint i j)
  case single =>
    subst htile
    have hgood (i j : Nat) (h : ¬ (i = e.row ∧ j = e.col)) : (cellAt e.tile [e] p.accs i j : Int) ≡ p.exact i j [ZMOD 2 ^ 32] :=
      cellAt_other h p ▸ p.accAt_modEq hint i j
    have hbad : ¬ (cellAt e.tile [e] p.accs e.row e.col : Int) ≡ p.exact e.row e.col [ZMOD 2 ^ 32] := by
      rw [cellAt_same, Product.exact, if_pos ⟨hr, hcol⟩]
      exact not_modEq_of_word hv
    rw [Product.run_lines hint hrows hcols hl (by simp [hc, hr, hcol]), hc]
    refine congrArg₂ (fun r c => ({ rowFail := r, colFail := c } : Lines)) (find?_fail_eq_some hr ?_ fun i hi hne => ?_)
      (find?_fail_eq_some hcol ?_ fun j hj hne => ?_)
    · exact Product.intOut_fail hr hcols (hcol.trans_le hcols) (fun j hne => hgood e.row j fun h => hne h.2) hbad
    · exact Product.intOut_pass hi hcols fun j => hgood i j fun h => hne h.1
    · refine Product.intOut_fail (p := p.turned) hcol hrows (hr.trans_le hrows) (fun i hne => ?_) ?_ <;> rw [p.turned_exact]
      · exact hgood i e.col fun h => hne h.1
      · exact hbad
    · exact Product.intOut_pass (p := p.turned) hj hrows fun i => p.turned_exact i j ▸ hgood i j fun h => hne h.2

end Sys2Proof.Machine

/-! # Signatures of waybill chains

SUPPORT. A chain as read after a change, a signature as it ends (R268, R269), and the seal of a chain's last record (R264, R274). -/

namespace Sys2Proof.Machine

section
variable {s t : State} {w : Work} {q : SignReq} {r : WbRec} {p : Nat}

theorem State.chain_modChain_same (s : State) (p : Nat) (f : Chain → Chain) : (s.modChain p f).chain p = f (s.chain p) :=
  tget_tmod_same ..

@[simp] theorem State.kept_chain (s t : State) (p : Nat) : (s.kept t).chain p = t.chain p := rfl

theorem modChain_onlyChanges (s : State) (p : Nat) (f : Chain → Chain) : OnlyChanges [.waybill] s (s.modChain p f) :=
  onlyChanges_set_waybill s _

theorem fresh_onlyChanges (s : State) : OnlyChanges [.free] s s.fresh := onlyChanges_set_free s _

theorem chain_of_waybill_eq (h : t.waybill = s.waybill) (p : Nat) : t.chain p = s.chain p := by rw [State.chain, h, State.chain]

/-- A descriptor that completes from a state with the fuses and the queue of the one before ends there. -/
theorem ends_of_complete {u : State} {P : State → Prop} {st : Status} {n : Nat} {ps : List Zone} (hframe : OnlyChanges ps s u)
    (hf : .fuses ∉ ps) (hq : .pending ∉ ps) (hP : P u) : Ends w st n (s.kept (complete w st n u)) P := by
  have hfuses : u.fuses = s.fuses := of_decide_eq_true (hframe .fuses hf)
  have hpending : u.pending = s.pending := of_decide_eq_true (hframe .pending hq)
  exact ⟨u, 0, State.kept_eq ((complete_fuses ..).trans hfuses) ((complete_pending ..).trans hpending), hP⟩

/-! ## A signature ends -/

/-- The block that the Lodge's signature over a point gives, drawn with the next free value (R269). -/
def SignReq.block (q : SignReq) (s : State) : WbSig :=
  let g : WbSig :=
    { seq := q.seq, reason := q.reason, image := q.image, link := q.link, nonce := q.nonce, chain := q.chain, signedAc := q.ac, sig := 0 }
  { g with sig := ecdsaSign (attestScalar s) (Config.random s.free) (sha384 ((sigBytes q.part g).take 160)) }

/-- A chain once a block is stored: the oldest block gives way where the store is full, and the point is covered (R268, R271). -/
def Chain.storeBlock (c : Chain) (q : SignReq) (g : WbSig) (capacity : Nat) : Chain :=
  { c with sigs := (if c.sigs.length < capacity then c.sigs else c.sigs.drop 1) ++ [g],
           signed := if c.chainId = q.chain then q.seq else c.signed }

/-- The state once a signature's block is stored and the next point has started; the descriptors that wait for it have yet to end. -/
def signatureStored (q : SignReq) (s : State) : State :=
  let s1 := s.fresh.modChain q.part (fun c => c.storeBlock q (q.block s) (sigCapacity s))
  { s1 with waybill := { s1.waybill with
    signing := s1.waybill.waiting.head?.map (fun x => { x with ac := s.clk.ac }), waiting := s1.waybill.waiting.drop 1 } }

theorem signatureStored_onlyChanges (q : SignReq) (s : State) : OnlyChanges [.waybill, .free] s (signatureStored q s) :=
  ((fresh_onlyChanges s).mono (by simp)).trans
    (((modChain_onlyChanges _ _ _).mono (by simp)).trans ((onlyChanges_set_waybill _ _).mono (by simp)))

theorem signatureStored_chain (q : SignReq) (s : State) :
    (signatureStored q s).chain q.part = (s.chain q.part).storeBlock q (q.block s) (sigCapacity s) :=
  State.chain_modChain_same s.fresh q.part (fun c => c.storeBlock q (q.block s) (sigCapacity s))

theorem signatureStored_signing (q : SignReq) (s : State) :
    (signatureStored q s).waybill.signing.map (fun x => x.link) = s.waybill.waiting.head?.map (fun x => x.link) :=
  Option.map_map ..

theorem signatureStored_block (q : SignReq) (s : State) : ((signatureStored q s).chain q.part).sigs.getLast? = some (q.block s) := by
  rw [signatureStored_chain]
  exact List.getLast?_concat

theorem signatureStored_covers (h : (s.chain q.part).chainId = q.chain) : ((signatureStored q s).chain q.part).signed = q.seq := by
  rw [signatureStored_chain]
  exact if_pos h

theorem signatureStored_recs (q : SignReq) (s : State) : ((signatureStored q s).chain q.part).recs = (s.chain q.part).recs := by
  rw [signatureStored_chain]
  rfl

theorem exec_waybillSignatureComplete (hl : s.live = true) (hs : s.waybill.signing = some q) (hr : sigRoom q.part s = true) :
    exec .waybillSignatureComplete s = .next (s.kept (q.wids.foldl (fun s w => completeWid w .ok q.seq s) (signatureStored q s))) := by
  have hexec : exec .waybillSignatureComplete s = execWaybillSignatureComplete s := rfl
  rw [hexec, execWaybillSignatureComplete, act_of_live hl]
  simp only [hs, hr, Bool.not_true, Bool.false_eq_true, false_and, if_false]
  rfl

/-! ## A seal -/

theorem signPoint_of_idle (hu : s.trust.unlocked = false) (hs : s.waybill.signing = none) :
    signPoint q s = { s with waybill := { s.waybill with signing := some { q with ac := s.clk.ac } } } := by
  simp only [signPoint, hu, hs, Bool.false_eq_true, if_false]

/-- The last record of a chain as a seal leaves it: it says that it is signed and sealed, under its link. -/
def WbRec.seal (p : Nat) (r : WbRec) : WbRec := ({ r with signed := true, sealed := true }).linked p

/-- The point that a seal puts (R268, R274). -/
def sealPoint (p : Nat) (r : WbRec) (nonce : BitVec 256) (wid : Nat) (s : State) : SignReq :=
  { part := p, chain := (s.chain p).chainId, seq := r.seq, reason := 3, link := (r.seal p).link, image := imageDigest s, nonce,
    wids := [wid], ac := s.clk.ac }

/-- The last record of a chain of a partition is sealed, and its point, the only one, is being signed. -/
def putSeal (p : Nat) (r : WbRec) (nonce : BitVec 256) (wid : Nat) (s : State) : State :=
  let s1 := s.modChain p (fun c => { c with recs := c.recs.dropLast ++ [r.seal p] })
  { s1 with waybill := { s1.waybill with signing := some (sealPoint p r nonce wid s) } }

theorem putSeal_onlyChanges (p : Nat) (r : WbRec) (nonce : BitVec 256) (wid : Nat) (s : State) :
    OnlyChanges [.waybill] s (putSeal p r nonce wid s) :=
  (modChain_onlyChanges s p _).trans (onlyChanges_set_waybill _ _)

theorem putSeal_recs (p : Nat) (r : WbRec) (nonce : BitVec 256) (wid : Nat) (s : State) :
    ((putSeal p r nonce wid s).chain p).recs = (s.chain p).recs.dropLast ++ [r.seal p] :=
  congrArg Chain.recs (State.chain_modChain_same s p (fun c => { c with recs := c.recs.dropLast ++ [r.seal p] }))

theorem signLast_seals (nonce : BitVec 256) (wid : Nat) (hr : (s.chain p).recs.getLast? = some r) (hu : s.trust.unlocked = false)
    (hs : s.waybill.signing = none) : signLast p 3 true nonce [wid] s = putSeal p r nonce wid s := by
  simp only [signLast, hr, Bool.or_true]
  exact signPoint_of_idle hu hs

theorem exec_waybillSeal (wid : Nat) (s : State) : exec (.waybillSeal wid) s = execWaybillSeal wid s := rfl

end

end Sys2Proof.Machine

/-! # Reading and measuring

SUPPORT. The three kinds of WAYBILL_READ (R272, R273), and the hash of a region from its start to its end (R272, R274). -/

namespace Sys2Proof.Machine

section
variable {s t : State} {w : Work} {p : Nat}

/-! ## Descriptors that have ended -/

theorem genesis_of_not_due (h : (s.chain p).due = false) : genesis p s = s := by
  rw [genesis, if_neg (by simp [h])]

theorem foldl_eq_self {α β : Type} {f : α → β → α} {a : α} {l : List β} (h : ∀ b ∈ l, f a b = a) : l.foldl f a = a := by
  induction l with
  | nil => rfl
  | cons b l ih => rw [List.foldl_cons, h b (by simp), ih fun c hc => h c (by simp [hc])]

/-- Where no descriptor waits with its record and the genesis is there, none is appended. -/
theorem retryEnded_of_none (hd : (s.chain p).due = false) (hw : ∀ x ∈ s.work, ∀ a b c, x.prog ≠ .ended a b c) : retryEnded p s = s := by
  rw [retryEnded, genesis_of_not_due hd]
  refine foldl_eq_self fun x hx => ?_
  split
  case h_1 a b c he => exact absurd he (hw x (List.mem_of_mem_filter hx) a b c)
  case h_2 => rfl

/-- A read that ends where no descriptor waits with its record appends none. -/
theorem retryEnded_complete {u : State} {st : Status} {n : Nat} (hd : (u.chain p).due = false)
    (hw : ∀ x ∈ u.work, ∀ a b c, x.prog ≠ .ended a b c) : retryEnded p (complete w st n u) = complete w st n u := by
  refine retryEnded_of_none (by rwa [chain_of_waybill_eq (complete_waybill ..)]) fun x hx => hw x ?_
  rw [complete_work] at hx
  exact List.mem_of_mem_filter hx

/-! ## Records -/

theorem exec_waybillRead (wid : Nat) (s : State) : exec (.waybillRead wid) s = execWaybillRead wid s := rfl

theorem Chain.consume_due (c : Chain) (id : W64) (n : Nat) : (c.consume id n).due = c.due := by
  unfold Chain.consume
  split <;> rfl

/-- Records are written to the host, and become consumed where the read says so and is the physical function's (R272, R273). -/
def copyRecords (w : Work) (rs : List WbRec) (s : State) : State :=
  let s1 := s.emit (.hostWrite w.fn (dat w.body 40 64) (rs.flatMap (recBytes (dat w.body 8 8))))
  if (dat w.body 10 8).testBit 0 = true ∧ w.fn = 0 then
    s1.modChain (dat w.body 8 8) (fun c => c.consume (BitVec.ofNat 64 (dat w.body 16 64)) (dat w.body 24 64 + rs.length - 1))
  else s1

section
variable {rs : List WbRec}

theorem copyRecords_onlyChanges (w : Work) (rs : List WbRec) (s : State) : OnlyChanges [.waybill, .out] s (copyRecords w rs s) := by
  unfold copyRecords
  have hemit := emit_onlyChanges s (.hostWrite w.fn (dat w.body 40 64) (rs.flatMap (recBytes (dat w.body 8 8))))
  split
  · exact (hemit.mono (by simp)).trans ((modChain_onlyChanges _ _ _).mono (by simp))
  · exact hemit.mono (by simp)

theorem copyRecords_out (w : Work) (rs : List WbRec) (s : State) : (copyRecords w rs s).out =
    s.out ++ [.hostWrite w.fn (dat w.body 40 64) (rs.flatMap (recBytes (dat w.body 8 8)))] := by
  unfold copyRecords
  split <;> rfl

theorem copyRecords_consumes (h : (dat w.body 10 8).testBit 0 = true) (hf : w.fn = 0) : (copyRecords w rs s).chain (dat w.body 8 8) =
    (s.chain (dat w.body 8 8)).consume (BitVec.ofNat 64 (dat w.body 16 64)) (dat w.body 24 64 + rs.length - 1) := by
  rw [copyRecords, if_pos ⟨h, hf⟩, State.chain_modChain_same]
  rfl

theorem copyRecords_keeps (h : (dat w.body 10 8).testBit 0 = false ∨ w.fn ≠ 0) : (copyRecords w rs s).waybill = s.waybill := by
  have hnot : ¬ ((dat w.body 10 8).testBit 0 = true ∧ w.fn = 0) := by
    rintro ⟨hbit, hfn⟩
    simp [hbit, hfn] at h
  rw [copyRecords, if_neg hnot]
  rfl

theorem copyRecords_due (w : Work) (rs : List WbRec) (s : State) :
    ((copyRecords w rs s).chain (dat w.body 8 8)).due = (s.chain (dat w.body 8 8)).due := by
  by_cases h : (dat w.body 10 8).testBit 0 = true ∧ w.fn = 0
  · rw [copyRecords_consumes h.1 h.2, Chain.consume_due]
  · rw [chain_of_waybill_eq (copyRecords_keeps (by rwa [Decidable.not_and_iff_not_or_not, Bool.not_eq_true] at h))]

/-- Where no descriptor waits with its record, a read of records that finds some is their copy (R272, R273). -/
theorem waybillRead_records (h : MayStart s w 0x80) (hf : wbForeign w.fn (dat w.body 8 8) s = false) (hk : dat w.body 9 8 = 0)
    (hrs : rs = runFrom (dat w.body 24 64) (min (dat w.body 32 32) (dat w.body 48 32 / 256))
      ((s.chain (dat w.body 8 8)).recsOf (BitVec.ofNat 64 (dat w.body 16 64)))) (hne : rs ≠ [])
    (hd : (s.chain (dat w.body 8 8)).due = false) (hw : ∀ x ∈ s.work, ∀ a b c, x.prog ≠ .ended a b c) :
    Completes (.waybillRead w.wid) s (fun t =>
      Ends w (if rs.length < dat w.body 32 32 then .okShort else .ok) rs.length t (fun u => u = copyRecords w rs s)) := by
  have hframe := copyRecords_onlyChanges w rs s
  have hretry := retryEnded_complete (w := w) (st := if rs.length < dat w.body 32 32 then .okShort else .ok) (n := rs.length)
    ((copyRecords_due w rs s).trans hd) (by rwa [hframe.work_eq (by simp)])
  have hends := ends_of_complete (w := w) (st := if rs.length < dat w.body 32 32 then .okShort else .ok) (n := rs.length)
    (P := fun u => u = copyRecords w rs s) hframe (by simp) (by simp) rfl
  have hsome : rs.isEmpty = false := by simpa using hne
  refine completes_of_start (exec_waybillRead w.wid s) h ?_
  simp only [hf, hk, ← hrs, hsome, Bool.false_eq_true, if_false, Bool.not_false, and_true]
  rw [← hretry] at hends
  exact hends

end

/-! ## Signature blocks and leaf lists -/

/-- The signature blocks of a chain of a partition from a record on, at most a number of them (R272). -/
def Chain.blocksFrom (c : Chain) (id first n : Nat) : List WbSig :=
  (c.sigs.filter (fun g => g.chain == (if id = 0 then c.chainId else BitVec.ofNat 64 id) && decide (g.seq ≥ first))).take n

theorem waybillRead_blocks {gs : List WbSig} (h : MayStart s w 0x80) (hf : wbForeign w.fn (dat w.body 8 8) s = false)
    (hk : dat w.body 9 8 = 1) (hgs : gs = (s.chain (dat w.body 8 8)).blocksFrom (dat w.body 16 64) (dat w.body 24 64)
      (min (dat w.body 32 32) (dat w.body 48 32 / 256))) (hne : gs ≠ []) :
    Completes (.waybillRead w.wid) s (fun t =>
      Ends w (if gs.length < dat w.body 32 32 then .okShort else .ok) gs.length t
        (fun u => u = s.emit (.hostWrite w.fn (dat w.body 40 64) (gs.flatMap (sigBytes (dat w.body 8 8)))))) := by
  have hid : (BitVec.ofNat 64 (dat w.body 16 64) = 0) = (dat w.body 16 64 = 0) := by
    have hlt : dat w.body 16 64 < 2 ^ 64 := Nat.mod_lt _ (by decide)
    rw [← BitVec.toNat_inj, BitVec.toNat_ofNat, Nat.mod_eq_of_lt hlt]
    rfl
  unfold Chain.blocksFrom at hgs
  have hsome : gs.isEmpty = false := by simpa using hne
  refine completes_of_start (exec_waybillRead w.wid s) h ?_
  simp only [hf, hk, hid, ← hgs, hsome, Bool.false_eq_true, if_false]
  exact ends_of_complete (emit_onlyChanges _ _) (by simp) (by simp) rfl

theorem waybillRead_noLeaves (h : MayStart s w 0x80) (hf : wbForeign w.fn (dat w.body 8 8) s = false) (hk : dat w.body 9 8 = 2)
    (hr : ∀ r ∈ (s.chain (dat w.body 8 8)).recsOf (BitVec.ofNat 64 (dat w.body 16 64)), r.seq ≠ dat w.body 24 64) :
    Completes (.waybillRead w.wid) s (fun t => t = complete w .stateLost 0 s ∧ OnlyChanges [.host, .work, .tt, .ft, .tn, .out] s t) := by
  have hnone : ((s.chain (dat w.body 8 8)).recsOf (BitVec.ofNat 64 (dat w.body 16 64))).find?
      (fun r => r.seq == dat w.body 24 64) = none := by
    simpa [List.find?_eq_none] using hr
  have hlost := completes_of_refused (st := .stateLost) (r := 0) (exec_waybillRead w.wid s) h
    (by simp only [hf, hk, hnone, Bool.false_eq_true, if_false])
  exact hlost.imp fun t ⟨heq, _, hframe⟩ => ⟨heq, hframe⟩

/-! ## Measurements -/

/-- A hash of a region has ended (R274): it is the region's measurement unless the region was written meanwhile, and goes to the host. -/
def hashed (w : Work) (id : Nat) (d : Digest) (s : State) : State :=
  State.emit { s with waybill := { s.waybill with
    measure := if s.waybill.measuring.any (· == id) then tput s.waybill.measure id (some d) none else s.waybill.measure,
    measuring := s.waybill.measuring.filter (· != id) } } (.hostWrite w.fn (dat w.body 16 64) (digestBytes d))

theorem hashed_onlyChanges (w : Work) (id : Nat) (d : Digest) (s : State) : OnlyChanges [.waybill, .out] s (hashed w id d s) :=
  ((onlyChanges_set_waybill s _).mono (by simp)).trans ((emit_onlyChanges _ _).mono (by simp))

theorem hashed_measure_of_mem {id : Nat} (h : id ∈ s.waybill.measuring) (w : Work) (d : Digest) :
    tget (hashed w id d s).waybill.measure id none = some d := by
  have hany : s.waybill.measuring.any (· == id) = true := by simpa using h
  simp only [hashed, State.emit_waybill, hany, if_true]
  exact tget_tput_same ..

theorem hashed_measure_of_not_mem {id : Nat} (h : id ∉ s.waybill.measuring) (w : Work) (d : Digest) :
    (hashed w id d s).waybill.measure = s.waybill.measure := by
  have hany : s.waybill.measuring.any (· == id) = false := by
    simpa [List.any_eq_false] using fun x hx (he : x = id) => h (he ▸ hx)
  simp only [hashed, State.emit_waybill, hany, Bool.false_eq_true, if_false]

theorem waybillMeasureComplete_ends {id : Nat} {g : Region} (hi : s.item w.wid = some w) (ha : s.awake = true) (hp : w.prog = .measure id)
    (hg : s.region id = some g) : Completes (.waybillMeasureComplete w.wid) s (fun t => Ends w .ok g.size t
      (fun u => u = hashed w id (sha384Of (fun i => memGet s.mem.hbm (regionAddr g i)) g.size) s)) := by
  have hexec : exec (.waybillMeasureComplete w.wid) s = execWaybillMeasureComplete w.wid s := rfl
  refine completes_of_resume hexec hi ha (a := id) (by rw [hp]) ?_
  simp only [hg]
  exact ends_of_complete (hashed_onlyChanges w id _ s) (by simp) (by simp) rfl

end

end Sys2Proof.Machine

/-! # The obligation on waybill commands -/

namespace Sys2Proof.Machine

/-- Settles O28: a signature ends by its stored block; a seal is the point over the last record as it is then; each read copies what it
finds, and a measurement is the hash of its region. -/
theorem waybillCommands : Obligations.WaybillCommands := by
  unfold Obligations.WaybillCommands
  refine ⟨fun s q hl hs hwids hroom => ?covered, fun s q w hl hs hwids hroom hi => ?answered, fun s w r h hf hr hs hu => ?sealed,
    fun s w h hf hr => ?unsealed, fun s w rs h hf hk hrs hne hd hw => ?records, fun s w gs h hf hk hgs hne => ?blocks,
    fun s w h hf hk hr => ?lost, fun s w g h hg hf => ?measures, fun s w id g d hi ha hp hg hd => ?measured⟩
  case covered =>
    refine ⟨_, exec_waybillSignatureComplete hl hs hroom, ?_⟩
    rw [hwids, List.foldl_nil]
    exact ⟨⟨q.block s, signatureStored_block q s, rfl, rfl, rfl, rfl, rfl, rfl, rfl⟩, signatureStored_covers, signatureStored_recs q s,
      signatureStored_signing q s, rfl, (signatureStored_onlyChanges q s).kept⟩
  case answered =>
    refine ⟨_, exec_waybillSignatureComplete hl hs hroom, ?_⟩
    have hframe := signatureStored_onlyChanges q s
    have hitem : (signatureStored q s).item w.wid = some w := (item_of_work_eq (hframe.work_eq (by simp)) _).trans hi
    simp only [hwids, List.foldl_cons, List.foldl_nil, completeWid, hitem]
    exact ends_of_complete hframe (by simp) (by simp) hframe
  case sealed =>
    have hrecs := putSeal_recs (dat w.body 8 8) r (BitVec.ofNat 256 (dat w.body 16 256)) w.wid
      (s.setProg w.wid (.seal (dat w.body 8 8) r.seq))
    refine completes_of_start (exec_waybillSeal w.wid s) h ?_
    simp only [hf, hr, Bool.false_eq_true, if_false]
    rw [signLast_seals (s := s.setProg w.wid (.seal (dat w.body 8 8) r.seq)) _ _ hr hu hs, State.kept_chain, hrecs]
    exact ⟨at_setProg h.1, List.getLast?_concat, List.dropLast_concat, ⟨_, rfl, rfl, rfl, rfl, rfl, rfl⟩,
      (((setProg_onlyChanges s _ _).mono (by simp)).trans ((putSeal_onlyChanges _ _ _ _ _).mono (by simp))).kept⟩
  case unsealed =>
    have hlost := completes_of_refused (st := .stateLost) (r := 0) (exec_waybillSeal w.wid s) h
      (by simp only [hf, hr, List.getLast?_nil, Bool.false_eq_true, if_false])
    exact hlost.imp fun t ⟨heq, _, hframe⟩ => ⟨heq, hframe⟩
  case records =>
    have hended (x : Work) (hx : x ∈ s.work) (a b c) : x.prog ≠ .ended a b c := fun he => by
      have hnot := hw x hx
      rw [he] at hnot
      exact hnot
    refine (waybillRead_records h hf hk hrs hne hd hended).imp fun t ht => ht.imp fun u hu => ?_
    subst hu
    exact ⟨copyRecords_out w rs s, copyRecords_consumes, copyRecords_keeps, copyRecords_onlyChanges w rs s⟩
  case blocks =>
    refine (waybillRead_blocks h hf hk hgs hne).imp fun t ht => ht.imp fun u hu => ?_
    subst hu
    exact ⟨rfl, emit_onlyChanges _ _⟩
  case lost => exact waybillRead_noLeaves h hf hk hr
  case measures =>
    have hexec : exec (.waybillMeasure w.wid) s = execWaybillMeasure w.wid s := rfl
    refine completes_of_start hexec h ?_
    simp only [hg, hf, Bool.false_eq_true, if_false]
    exact ⟨at_setProg h.1, rfl,
      (((setProg_onlyChanges s _ _).mono (by simp)).trans ((onlyChanges_set_waybill _ _).mono (by simp))).kept⟩
  case measured =>
    refine (waybillMeasureComplete_ends hi ha hp hg).imp fun t ht => ht.imp fun u hu => ?_
    subst hu hd
    exact ⟨rfl, fun hm => hashed_measure_of_mem hm w _, fun hm => hashed_measure_of_not_mem hm w _, hashed_onlyChanges w id _ s⟩

end Sys2Proof.Machine

/-! # Operations that write HBM and end

SUPPORT. Writes to HBM leave the chains, so that a record finds the room it found before (R262, R271, R274), and a list operation that
starts in its turn (R322, R330). -/

namespace Sys2Proof.Machine

section
variable {s t u : State} {w : Work} {ps : List Zone}

/-! ## The chains stay -/

/-- Only the parts named have changed, and of the waybill no chain. -/
structure KeepsChains (ps : List Zone) (s t : State) : Prop where
  frame  : OnlyChanges ps s t
  chains : t.waybill.chains = s.waybill.chains

theorem KeepsChains.refl (ps : List Zone) (s : State) : KeepsChains ps s s := ⟨.refl ps s, rfl⟩

theorem KeepsChains.mono {qs : List Zone} (h : KeepsChains ps s t) (hs : ps ⊆ qs) : KeepsChains qs s t := ⟨h.frame.mono hs, h.chains⟩

theorem KeepsChains.trans (h : KeepsChains ps s t) (h' : KeepsChains ps t u) : KeepsChains ps s u :=
  ⟨h.frame.trans h'.frame, h'.chains.trans h.chains⟩

theorem OnlyChanges.keepsChains (h : OnlyChanges ps s t) (hp : .waybill ∉ ps) : KeepsChains ps s t :=
  ⟨h, congrArg Waybill.chains (h.waybill_eq hp)⟩

theorem KeepsChains.wbRoom (h : KeepsChains ps s t) (hp : .img ∉ ps) (p : Nat) : wbRoom p t = wbRoom p s :=
  wbRoom_congr h.chains (h.frame.img_eq hp) p

theorem regionWrite_keepsChains (g : Region) (o : Nat) (bs : List Byte) (s : State) : KeepsChains [.mem, .waybill] s (regionWrite g o bs s) :=
  ⟨regionWrite_onlyChanges g o bs s, rfl⟩

theorem modPool_onlyChanges (s : State) (r : Nat) (f : Pool → Pool) : OnlyChanges [.mem] s (s.modPool r f) := onlyChanges_set_mem s _

theorem modTtRegs_onlyChanges (s : State) (p : Nat) (f : TtRegs → TtRegs) : OnlyChanges [.tt] s (s.modTtRegs p f) := onlyChanges_set_tt s _

theorem putHdr_keepsChains (h : ListHdr) (o n v : Nat) (s : State) : KeepsChains [.mem, .waybill] s (putHdr h o n v s) :=
  regionWrite_keepsChains ..

theorem putEnt_keepsChains (h : ListHdr) (n : Nat) (e : PageEnt) (s : State) : KeepsChains [.mem, .waybill] s (putEnt h n e s) :=
  regionWrite_keepsChains ..

/-! ## An operation that ends with its record -/

/-- The state with the record of an operation that ends: in its partition's chain, or counted into its step (R262, R264). -/
def opRecorded (w : Work) (x : StepInfo) (s : State) : State :=
  match w.src with
  | .step p _ => addToStep p x s
  | .ring _ _ => appendRec w.part x s

theorem finishOp_eq_complete (h : wbRoom w.part s = true) (x : StepInfo) (r : Nat) (fr : BitVec 16) :
    finishOp w x r s fr = complete w x.status r (opRecorded w x s) fr := by
  cases hsrc : w.src with
  | step p i => simp only [finishOp, opRecorded, hsrc]
  | ring n pos => simp only [finishOp, opRecorded, hsrc, h, if_true]

theorem opRecorded_onlyChanges (w : Work) (x : StepInfo) (s : State) : OnlyChanges [.waybill, .tt, .free] s (opRecorded w x s) := by
  unfold opRecorded
  split
  · exact (onlyChanges_set_tt s _).mono (by simp)
  · exact (appendRec_onlyChanges w.part x s).mono (by simp)

/-- A record is no register of the Timetable. -/
theorem opRecorded_ttregs (w : Work) (x : StepInfo) (s : State) (p : Nat) : (opRecorded w x s).ttregs p = s.ttregs p := by
  unfold opRecorded
  split
  · rfl
  · rw [State.ttregs, of_decide_eq_true (appendRec_onlyChanges w.part x s .tt (by simp)), State.ttregs]

/-- An operation that has written HBM ends where its record found room before. -/
theorem ends_of_recorded (h : KeepsChains ps s t) (hroom : wbRoom w.part s = true) (hf : .fuses ∉ ps) (hq : .pending ∉ ps) (hi : .img ∉ ps)
    (x : StepInfo) (r : Nat) {P : State → Prop} (hP : P (opRecorded w x t)) : Ends w x.status r (s.kept (finishOp w x r t)) P := by
  have hrecord := opRecorded_onlyChanges w x t
  have hframe : OnlyChanges (ps ++ [.waybill, .tt, .free]) s (opRecorded w x t) :=
    (h.frame.mono (by simp)).trans (hrecord.mono (by simp))
  rw [finishOp_eq_complete ((h.wbRoom hi _).trans hroom)]
  exact ends_of_complete hframe (by simp [hf]) (by simp [hq]) hP

theorem opRecorded_mem (w : Work) (x : StepInfo) (s : State) : (opRecorded w x s).mem = s.mem :=
  (opRecorded_onlyChanges w x s).mem_eq (by simp)

/-- What an operation that wrote HBM has changed once its record is there. -/
theorem KeepsChains.recorded (h : KeepsChains ps s t) (w : Work) (x : StepInfo) {qs : List Zone} (hps : ps ⊆ qs)
    (hqs : [.waybill, .tt, .free] ⊆ qs) : OnlyChanges qs s (opRecorded w x t) :=
  (h.frame.mono hps).trans ((opRecorded_onlyChanges w x t).mono hqs)

/-! ## A list operation in its turn -/

section
variable {h : ListHdr} {op : Byte} {checks : Work → ListHdr → State → List (Bool × (Status × Nat))} {f : Work → ListHdr → State → State}

theorem startList_of_good (hr : ListReady s w op h) (hc : firstFail (checks w h s) = none) :
    startList w.wid op s checks f = .next (s.kept (f w h s)) := by
  obtain ⟨hstart, hturn, hforeign, hlist, hlive⟩ := hr
  rw [startList, start_of_mayStart hstart]
  simp only [hturn, hforeign, hlist, hc, hlive, Bool.not_true, Bool.false_eq_true, if_false, ne_eq, not_true_eq_false]

theorem startList_of_bad {c : Nat} (hr : ListReady s w op h) (hc : firstFail (checks w h s) = some (.malformed, c)) :
    startList w.wid op s checks f = .next (s.kept (complete w .malformed c s)) := by
  obtain ⟨hstart, hturn, hforeign, hlist, hlive⟩ := hr
  rw [startList, start_of_mayStart hstart]
  simp only [hturn, hforeign, hlist, hc, hlive, Bool.not_true, Bool.false_eq_true, if_false, ne_eq, not_true_eq_false, false_and]

end

end

end Sys2Proof.Machine

/-! # Pages and headers of lists

SUPPORT. A page taken from a pool and a pool as read after a change (R289), a new list (R285, R288), the entries a freeze covers (R316),
and what a free returns (R324, R327). -/

namespace Sys2Proof.Machine

section
variable {s t : State} {w : Work} {g : Region} {h : ListHdr}

/-! ## Pools -/

theorem State.pool_modPool_same (s : State) (r : Nat) (f : Pool → Pool) : (s.modPool r f).pool r = f (s.pool r) := tget_tmod_same ..

@[simp] theorem State.kept_pool (s t : State) (r : Nat) : (s.kept t).pool r = t.pool r := rfl

theorem pool_of_mem_eq (hm : t.mem = s.mem) (r : Nat) : t.pool r = s.pool r := by rw [State.pool, hm, State.pool]

theorem pool_regionWrite (g : Region) (o : Nat) (bs : List Byte) (s : State) (r : Nat) : (regionWrite g o bs s).pool r = s.pool r := rfl

theorem mem_insertSorted {p q : Nat} {l : List Nat} : q ∈ insertSorted p l ↔ q = p ∨ q ∈ l := by
  induction l with
  | nil => simp [insertSorted]
  | cons y r ih =>
    rw [insertSorted]
    split
    · simp
    · simp only [List.mem_cons, ih]
      tauto

/-- The page that the device takes first from a pool: one of those free, by its own choice. -/
def freePage (r : Region) (s : State) : Nat :=
  nthFree (s.pool r.id).used (Config.choice s.free % max 1 (poolTotal r - (s.pool r.id).used.length))

/-- The state with that page taken. -/
def tookPage (r : Region) (s : State) : State :=
  let p := s.pool r.id
  let used := insertSorted (freePage r s) p.used
  { s with
    free := s.free + 1,
    mem := { s.mem with
      kvTaken := s.mem.kvTaken + 1,
      pools := tput s.mem.pools r.id { p with
        used, low := some (min (p.low.getD (poolTotal r)) (poolTotal r - used.length)) } {} } }

theorem takePages_one (hf : (s.pool g.id).reserved < poolFree g s) : takePages g 1 0 s = some ([freePage g s], tookPage g s) := by
  have hroom : ¬ (1 > poolFree g s ∨ 1 - min 1 0 > poolFree g s - (s.pool g.id).reserved) := by omega
  rw [takePages, if_neg hroom]
  rfl

theorem takePages_full (hf : poolFree g s ≤ (s.pool g.id).reserved) : takePages g 1 0 s = none := by
  rw [takePages, if_pos]
  omega

theorem tookPage_onlyChanges (r : Region) (s : State) : OnlyChanges [.mem, .free] s (tookPage r s) :=
  OnlyChanges.trans ((onlyChanges_set_free s (s.free + 1)).mono (by simp)) ((onlyChanges_set_mem _ _).mono (by simp))

/-- The page is the pool's only new one, and no reservation falls. -/
theorem tookPage_pool (r : Region) (s : State) : ((tookPage r s).pool r.id).used = insertSorted (freePage r s) (s.pool r.id).used ∧
    ((tookPage r s).pool r.id).reserved = (s.pool r.id).reserved := by
  have hpool : (tookPage r s).pool r.id = _ := tget_tput_same ..
  rw [hpool]
  exact ⟨rfl, rfl⟩

/-! ## A new list -/

/-- What KV_LIST_CREATE asks beside a free page: a pool of its own partition, a format that is enabled, and a geometry and counts that
the rules allow (R281, R285, R330). -/
structure CreateGood (s : State) (w : Work) (g : Region) : Prop where
  region  : s.region (dat w.body 8 8) = some g
  part    : g.part = w.part
  kind    : g.kind = 1
  elem    : (geoElem (dat w.body 13 8)).isSome = true
  format  : fmtEnabled (dat w.body 13 8 / 16) s = true
  geo     : geoOk (dat w.body 13 8) = true
  layers  : 1 ≤ dat w.body 10 16 ∧ dat w.body 10 16 ≤ 1008
  kvHeads : 1 ≤ dat w.body 12 8 ∧ dat w.body 12 8 ≤ 64

/-- The list that KV_LIST_CREATE asks of a pool. -/
def askedList (w : Work) (g : Region) (s : State) : Option (Nat × State) :=
  createList g (dat w.body 10 16) (dat w.body 12 8) (dat w.body 13 8) w.tenant 0 s

/-- A refusal for want of pages is counted (R288, R332). -/
def refusedForMemory (p : Nat) (s : State) : State := s.modTtRegs p (fun r => { r with refusedMem := satBv r.refusedMem 1 })

theorem exec_kvListCreate_of_good (hs : MayStart s w 0x30) (hg : CreateGood s w g) : exec (.kvListCreate w.wid) s = .next (s.kept
    (match askedList w g s with
      | some (ref, s1) => finishOp w (opInfo w .ok []) ref s1
      | none => finishOp w (opInfo w .admitMemory []) 0 (refusedForMemory w.part s))) := by
  obtain ⟨hregion, hpart, hkind, helem, hformat, hgeo, ⟨hl1, hl2⟩, hh1, hh2⟩ := hg
  have hl0 : dat w.body 10 16 ≠ 0 := by omega
  have hh0 : dat w.body 12 8 ≠ 0 := by omega
  have hexec : exec (.kvListCreate w.wid) s = execKvListCreate w.wid s := rfl
  rw [hexec, execKvListCreate, start_of_mayStart hs]
  simp [firstFail, hregion, hpart, hkind, Option.isNone_eq_false_iff.2 helem, hformat, hgeo, hl0, hh0, not_lt.2 hl2, not_lt.2 hh2]
  rfl

/-- The state once the list asked for is written into a page taken for it. -/
def listCreated (w : Work) (g : Region) (s : State) : State :=
  regionWrite g (65536 * freePage g s) (newHeader (dat w.body 10 16) (dat w.body 12 8) (dat w.body 13 8) g.id w.tenant (65536 * freePage g s))
    (tookPage g s)

theorem listCreated_hbm (w : Work) (g : Region) (s : State) : (listCreated w g s).mem.hbm =
    regionPut g (65536 * freePage g s) (newHeader (dat w.body 10 16) (dat w.body 12 8) (dat w.body 13 8) g.id w.tenant (65536 * freePage g s))
      s.mem.hbm := by
  have hkept : (tookPage g s).mem.hbm = s.mem.hbm := rfl
  simp only [listCreated, regionWrite, hkept]

/-- The header's write takes no page. -/
theorem listCreated_pool (w : Work) (g : Region) (s : State) (r : Nat) : (listCreated w g s).pool r = (tookPage g s).pool r :=
  pool_regionWrite ..

theorem askedList_of_room (hf : (s.pool g.id).reserved < poolFree g s) :
    askedList w g s = some (mkRef g.id (65536 * freePage g s), listCreated w g s) := by
  simp only [askedList, createList, takePages_one hf]
  rfl

theorem askedList_of_full (hf : poolFree g s ≤ (s.pool g.id).reserved) : askedList w g s = none := by
  simp only [askedList, createList, takePages_full hf]

theorem listCreated_keepsChains (w : Work) (g : Region) (s : State) : KeepsChains [.mem, .waybill, .free] s (listCreated w g s) :=
  (KeepsChains.mono ((tookPage_onlyChanges g s).keepsChains (by simp)) (by simp)).trans ((regionWrite_keepsChains ..).mono (by simp))

/-! ## A freeze -/

theorem freezeEnts_keepsChains (h : ListHdr) (a k : Nat) (s : State) : KeepsChains [.mem, .waybill] s (freezeEnts h a k s) := by
  induction k generalizing a s with
  | zero => exact .refl _ s
  | succ k ih => exact (putEnt_keepsChains h a _ s).trans (ih _ _)

/-- What KV_FREEZE asks of its list (R316). -/
def freezeChecks (w : Work) (h : ListHdr) (_ : State) : List (Bool × (Status × Nat)) :=
  let u := dat w.body 16 32
  [(u % geoT h.geometry != 0 || decide (u < h.frozen) || decide (u > h.commit), (.malformed, 0x09))]

/-- The state with the entries of the prefix frozen, and FROZEN raised to it. -/
def frozenTo (w : Work) (h : ListHdr) (s : State) : State :=
  putHdr h 4 4 (dat w.body 16 32) (freezeEnts h 0 (dat w.body 16 32 / geoT h.geometry * h.g) s)

theorem exec_kvFreeze (wid : Nat) (s : State) : exec (.kvFreeze wid) s =
    startList wid 0x34 s freezeChecks (fun w h s => finishOp w (opInfo w .ok []) 0 (frozenTo w h s)) := rfl

theorem frozenTo_keepsChains (w : Work) (h : ListHdr) (s : State) : KeepsChains [.mem, .waybill] s (frozenTo w h s) :=
  (freezeEnts_keepsChains ..).trans (putHdr_keepsChains ..)

theorem freezeChecks_pass (hu : dat w.body 16 32 % geoT h.geometry = 0) (hf : h.frozen ≤ dat w.body 16 32)
    (hc : dat w.body 16 32 ≤ h.commit) : firstFail (freezeChecks w h s) = none := by
  simp [freezeChecks, firstFail, hu, hf, hc]

theorem freezeChecks_fail (hu : dat w.body 16 32 < h.frozen ∨ h.commit < dat w.body 16 32) :
    firstFail (freezeChecks w h s) = some (.malformed, 0x09) := by
  have hout : (decide (dat w.body 16 32 < h.frozen) || decide (dat w.body 16 32 > h.commit)) = true := by simpa using hu
  simp [freezeChecks, firstFail, Bool.or_assoc, hout]

/-! ## A free -/

/-- The state with a list FREEING. -/
def freeing (w : Work) (h : ListHdr) (s : State) : State := putHdr h 22 1 2 (s.setProg w.wid .list)

theorem exec_kvListFree (wid : Nat) (s : State) : exec (.kvListFree wid) s = startList wid 0x37 s (fun _ _ _ => []) freeing := rfl

/-- A free that waits for earlier operations. -/
def listFreed : Prog → Option Unit
  | .list => some ()
  | _ => none

/-- The end of a free, unless an earlier operation names the list (R324). -/
def endListFree (w : Work) (_ : Unit) (s : State) : State :=
  if s.work.any (fun x => decide (x.wid < w.wid) && usesList s (dat w.body 8 64) x) then s
  else finishOp w (opInfo w .ok []) 0 (freeList (dat w.body 8 64) s)

theorem exec_kvListFreeComplete (wid : Nat) (s : State) : exec (.kvListFreeComplete wid) s = resume wid s listFreed endListFree := rfl

theorem dropResident_onlyChanges (ref : Nat) (s : State) : OnlyChanges [.groves] s (dropResident ref s) := onlyChanges_set_groves s _

/-- Every value that a table lists once changed is a changed one. -/
theorem tget_tmap {α : Type} [DecidableEq α] {P : α → Prop} {d : α} {f : Nat → α → α} (hf : ∀ k v, P (f k v)) (hd : P d) (t : Tab α)
    (k : Nat) : P (tget (tmap t d f) k d) := by
  induction t with
  | nil => exact hd
  | cons x r ih =>
    rw [tmap, List.filterMap_cons]
    split
    · exact ih
    next y hy =>
      split at hy
      · cases hy
      · obtain rfl := Option.some.inj hy
        rw [tget]
        split
        · exact hf ..
        · exact ih

/-- No Stand holds a page of a list that is dropped (R327). -/
theorem dropResident_drops (ref : Nat) (s : State) (g l : Nat) :
    ∀ r ∈ ((dropResident ref s).stand g l).resident, r.key.ofList ref = false := by
  refine tget_tmap (d := ({} : Stand)) (f := fun _ x => { x with resident := x.resident.filter (fun r => !r.key.ofList ref) })
    (P := fun x => ∀ r ∈ x.resident, r.key.ofList ref = false) (fun _ x r hr => ?_) (by simp) _ _
  simpa using (List.mem_filter.1 hr).2

theorem freeList_of_freeing {ref : Nat} (hl : listAt s ref = some h) (hst : h.st = 2) :
    freeList ref s = dropResident ref (returnPages h.pool (listPages s h) (putHdr h 22 1 2 s)) := by
  simp [freeList, hl, hst]

theorem freeList_keepsChains {ref : Nat} (hl : listAt s ref = some h) (hst : h.st = 2) :
    KeepsChains [.groves, .mem, .waybill] s (freeList ref s) := by
  have hdrop := (dropResident_onlyChanges ref (returnPages h.pool (listPages s h) (putHdr h 22 1 2 s))).keepsChains (by simp)
  have hreturn := (modPool_onlyChanges (putHdr h 22 1 2 s) h.pool
    (fun p => { p with used := p.used.filter (fun x => !(listPages s h).any (· == x)) })).keepsChains (by simp)
  rw [freeList_of_freeing hl hst]
  exact ((putHdr_keepsChains ..).mono (by simp)).trans ((hreturn.mono (by simp)).trans (hdrop.mono (by simp)))

theorem freeList_pool {ref : Nat} (hl : listAt s ref = some h) (hst : h.st = 2) :
    ((freeList ref s).pool h.pool).used = (s.pool h.pool).used.filter (fun x => !(listPages s h).any (· == x)) := by
  rw [freeList_of_freeing hl hst]
  exact congrArg Pool.used (State.pool_modPool_same (putHdr h 22 1 2 s) h.pool _)

end

end Sys2Proof.Machine

/-! # The obligation on the life of lists -/

namespace Sys2Proof.Machine

/-- Settles O29: a create by whether its pool has a page beyond its reservations, a freeze by its bounds, and a free by its two commands. -/
theorem kvListsLiveAndDie : Obligations.KvListsLiveAndDie := by
  unfold Obligations.KvListsLiveAndDie
  refine ⟨fun s w g h hregion hpart hkind helem hfmt hgeo hl1 hl2 hh1 hh2 hfree hroom => ?created,
    fun s w g h hregion hpart hkind helem hfmt hgeo hl1 hl2 hh1 hh2 hfull hroom => ?refused,
    fun s w h hr hu hf hc hroom => ?frozen, fun s w h hr hu => ?unfrozen, fun s w h hr => ?freeing,
    fun s w h hi ha hp hnone hl hst hroom => ?freed⟩
  case created =>
    have hwrite := listCreated_keepsChains w g s
    obtain ⟨hused, hreserved⟩ := tookPage_pool g s
    refine ⟨_, exec_kvListCreate_of_good h ⟨hregion, hpart, hkind, helem, hfmt, hgeo, ⟨hl1, hl2⟩, hh1, hh2⟩, freePage g s, ?_⟩
    rw [askedList_of_room hfree]
    refine ends_of_recorded hwrite hroom (by simp) (by simp) (by simp) _ _ ?_
    have hpool := pool_of_mem_eq (opRecorded_mem w (opInfo w .ok []) (listCreated w g s)) g.id
    rw [hpool, opRecorded_mem, listCreated_pool]
    exact ⟨listCreated_hbm w g s, hused ▸ mem_insertSorted.2 (.inl rfl), fun q hq => hused ▸ mem_insertSorted.2 (.inr hq), hreserved,
      hwrite.recorded w _ (by simp) (by simp)⟩
  case refused =>
    have hcount := (modTtRegs_onlyChanges s w.part (fun r => { r with refusedMem := satBv r.refusedMem 1 })).keepsChains (by simp)
    refine ⟨_, exec_kvListCreate_of_good h ⟨hregion, hpart, hkind, helem, hfmt, hgeo, ⟨hl1, hl2⟩, hh1, hh2⟩, ?_⟩
    rw [askedList_of_full hfull]
    refine ends_of_recorded hcount hroom (by simp) (by simp) (by simp) _ _ ⟨?_, hcount.recorded w _ (by simp) (by simp)⟩
    rw [opRecorded_ttregs]
    exact congrArg TtRegs.refusedMem (State.ttregs_modTtRegs_same s w.part _)
  case frozen =>
    have hwrite := frozenTo_keepsChains w h s
    refine ⟨_, (exec_kvFreeze w.wid s).trans (startList_of_good hr (freezeChecks_pass hu hf hc)), ?_⟩
    exact ends_of_recorded hwrite hroom (by simp) (by simp) (by simp) _ _
      ⟨congrArg Mem.hbm (opRecorded_mem ..), hwrite.recorded w _ (by simp) (by simp)⟩
  case unfrozen =>
    have hframe := complete_onlyChanges w .malformed 0x09 s 0
    refine ⟨_, (exec_kvFreeze w.wid s).trans (startList_of_bad hr (freezeChecks_fail hu)), ?_⟩
    rw [hframe.kept_eq (by simp) (by simp)]
    exact ⟨rfl, hframe⟩
  case freeing =>
    have hat : At w .list (s.setProg w.wid .list) := at_setProg hr.1.1
    exact ⟨_, (exec_kvListFree w.wid s).trans (startList_of_good hr rfl), hat, rfl,
      (((setProg_onlyChanges s _ _).mono (by simp)).trans ((putHdr_keepsChains ..).frame.mono (by simp))).kept⟩
  case freed =>
    have hfreed := freeList_keepsChains hl hst
    have hidle : s.work.any (fun x => decide (x.wid < w.wid) && usesList s (dat w.body 8 64) x) = false := by simpa using hnone
    refine completes_of_resume (exec_kvListFreeComplete w.wid s) hi ha (a := ()) (by rw [hp]; rfl) ?_
    rw [endListFree, hidle, if_neg Bool.false_ne_true]
    refine ends_of_recorded hfreed hroom (by simp) (by simp) (by simp) _ _ ⟨?_, fun g l => ?_, hfreed.recorded w _ (by simp) (by simp)⟩
    · rw [pool_of_mem_eq (opRecorded_mem ..), freeList_pool hl hst]
    · rw [stand_of_groves_eq ((opRecorded_onlyChanges w _ _).groves_eq (by simp)), freeList_of_freeing hl hst]
      exact dropResident_drops _ _ g l

end Sys2Proof.Machine

/-! # Pages that move between the tiers

SUPPORT. A spill that copies or rebinds (R317 to R320), the reads that a fetch of a DDR5 page starts (R321, R451), and a page that a rebind
left (R289, R319). -/

namespace Sys2Proof.Machine

section
variable {s t : State} {w : Work} {g : Region} {h : ListHdr} {e : PageEnt}

/-! ## A spill -/

theorem exec_kvSpill (wid : Nat) (s : State) : exec (.kvSpill wid) s = execKvSpill wid s := rfl

/-- The state with the copy of a list's pages begun, its blocks in flight to their DDR5 region (R317, R454). -/
def copying (w : Work) (h : ListHdr) (s : State) : State :=
  (s.setProg w.wid (.coding { total := 16 * (pageRange w h).2 })).modDdr (locRegion (fld (dat w.body 32 64) 0 46))
    (fun r => { r with inFlight := r.inFlight + 16 * (pageRange w h).2 })

theorem regionNum_congr (hm : t.mem.hbm = s.mem.hbm) (r : Region) (o n : Nat) : regionNum t r o n = regionNum s r o n := by
  simp only [regionNum, regionRead, hm]

theorem chunkOff_congr (hm : t.mem.hbm = s.mem.hbm) (r : Region) (k off : Nat) : chunkOff t r k off = chunkOff s r k off := by
  induction k generalizing off with
  | zero => rfl
  | succ k ih => simp only [chunkOff, regionNum_congr hm, ih]

/-- A page entry follows from HBM alone. -/
theorem pageEnt_congr (hm : t.mem.hbm = s.mem.hbm) (h : ListHdr) (n : Nat) : pageEnt t h n = pageEnt s h n := by
  simp only [pageEnt, entryOff, chunkOff_congr hm, regionNum_congr hm]

/-- Pages in HBM need no read before they are coded. -/
theorem readPages_of_hbm {n0 n : Nat} (hhbm : ∀ k < n, (pageEnt s h (n0 + k)).tier = 0) :
    (List.range n).foldl (fun t k => if (pageEnt t h (n0 + k)).tier = 0 then t else readPage w (16 * k) (pageEnt t h (n0 + k)) t) s = s :=
  foldl_eq_self fun k hk => if_pos (hhbm k (List.mem_range.1 hk))

theorem exec_kvSpill_copies (hr : ListReady s w 0x35 h) (hc : firstFail (spillChecks w h s) = none) (hmode : dat w.body 16 8 ≠ 1)
    (htier : dat w.body 17 8 = 1) (hcodec : hasCodec w.part s = true)
    (hhbm : ∀ k < (pageRange w h).2, (pageEnt s h ((pageRange w h).1 + k)).tier = 0) :
    exec (.kvSpill w.wid) s = .next (s.kept (copying w h s)) := by
  have hlocal : codesRemote w = false := by simp [codesRemote, htier]
  rw [exec_kvSpill, execKvSpill, startList_of_good hr hc]
  simp only [hmode, hcodec, hlocal, Bool.not_true, Bool.false_eq_true, if_false]
  have hmem : (copying w h s).mem.hbm = s.mem.hbm := rfl
  have hsame (n : Nat) : pageEnt (copying w h s) h n = pageEnt s h n := pageEnt_congr hmem h n
  have hread := readPages_of_hbm (w := w) (s := copying w h s) fun k hk => (congrArg PageEnt.tier (hsame _)).trans (hhbm k hk)
  exact congrArg (fun t => Host.Outcome.next (s.kept t)) hread

theorem State.ddrRegion_modDdr_same (s : State) (r : Nat) (f : DdrRegion → DdrRegion) : (s.modDdr r f).ddrRegion r = f (s.ddrRegion r) :=
  tget_tmod_same ..

theorem modDdr_onlyChanges (s : State) (r : Nat) (f : DdrRegion → DdrRegion) : OnlyChanges [.ddr] s (s.modDdr r f) := onlyChanges_set_ddr s _

@[simp] theorem State.kept_ddrRegion (s t : State) (r : Nat) : (s.kept t).ddrRegion r = t.ddrRegion r := rfl

/-- The operations fetched earlier that use the list of an operation: those that may read its pages (R319). -/
def earlierReaders (w : Work) (s : State) : List Nat :=
  (s.work.filter (fun x => decide (x.wid < w.wid) && usesList s (dat w.body 8 64) x)).map (fun x => x.wid)

theorem exec_kvSpill_rebinds (hr : ListReady s w 0x35 h) (hc : firstFail (spillChecks w h s) = none) (hmode : dat w.body 16 8 = 1) :
    exec (.kvSpill w.wid) s = .next (s.kept (finishOp w (opInfo w .ok []) 0
      (rebindPages w h (earlierReaders w s) (pageRange w h).1 (pageRange w h).2 s))) := by
  rw [exec_kvSpill, execKvSpill, startList_of_good hr hc]
  simp only [hmode, if_true]
  rfl

theorem rebindPages_keepsChains (w : Work) (h : ListHdr) (readers : List Nat) (n0 n : Nat) (s : State) :
    KeepsChains [.mem, .waybill] s (rebindPages w h readers n0 n s) := by
  induction n generalizing s with
  | zero => exact .refl _ s
  | succ n ih =>
    rw [rebindPages]
    refine KeepsChains.trans ?_ (ih _)
    split
    · exact (putEnt_keepsChains ..).trans (((modPool_onlyChanges _ _ _).keepsChains (by simp)).mono (by simp))
    · exact putEnt_keepsChains ..

/-! ## A fetch -/

theorem exec_kvFetch (wid : Nat) (s : State) : exec (.kvFetch wid) s = execKvFetch wid s := rfl

theorem fetchPages_of_hbm {n0 : Nat} {l : List Nat} (hhbm : ∀ k ∈ l, (pageEnt s h (n0 + k)).tier = 0) (got : List (Nat × Nat)) :
    fetchPages h n0 g l got s = (got, true, s) := by
  induction l with
  | nil => rfl
  | cons k l ih =>
    rw [fetchPages, if_pos (.inl (hhbm k (by simp)))]
    exact ih fun j hj => hhbm j (by simp [hj])

theorem exec_kvFetch_of_hbm (hr : ListReady s w 0x36 h) (hn : (pageRange w h).1 + (pageRange w h).2 ≤ h.pages)
    (hhbm : ∀ k < (pageRange w h).2, (pageEnt s h ((pageRange w h).1 + k)).tier = 0) :
    exec (.kvFetch w.wid) s = .next (s.kept (finishOp w (opInfo w .ok []) 0 s)) := by
  rw [exec_kvFetch, execKvFetch]
  refine (startList_of_good hr (by simp [firstFail, hn])).trans ?_
  simp only [fetchPages_of_hbm fun k hk => hhbm k (List.mem_range.1 hk), List.isEmpty_nil, if_true]

/-- The state with a page taken for the fetch of one page, its descriptor waiting for 16 blocks (R321). -/
def fetchingOne (w : Work) (n : Nat) (g : Region) (s : State) : State :=
  (tookPage g s).setProg w.wid (.fetching { total := 16, pages := [(n, freePage g s)] })

theorem exec_kvFetch_one (hr : ListReady s w 0x36 h) (hn : (pageRange w h).1 + 1 ≤ h.pages) (hone : (pageRange w h).2 = 1)
    (hlower : (pageEnt s h (pageRange w h).1).tier = 1) (hcodec : hasCodec w.part s = true) (hg : s.region h.pool = some g)
    (hfree : (s.pool g.id).reserved < poolFree g s) : exec (.kvFetch w.wid) s =
      .next (s.kept (readPage w 0 (pageEnt s h (pageRange w h).1) (fetchingOne w (pageRange w h).1 g s))) := by
  have htaken : fetchPages h (pageRange w h).1 g [0] [] s = ([((pageRange w h).1, freePage g s)], true, tookPage g s) := by
    simp [fetchPages, hlower, takePages_one hfree]
  rw [exec_kvFetch, execKvFetch]
  refine (startList_of_good hr (by simp [firstFail, hone]; omega)).trans ?_
  simp only [hone, List.range_one, hg, Option.getD_some, htaken, hcodec, List.isEmpty_cons, Bool.not_true, Bool.false_eq_true, if_false,
    if_true, List.length_singleton, Nat.mul_one, List.zipIdx_singleton, List.foldl_cons, List.foldl_nil, Nat.mul_zero]
  rfl

/-! ## Reads of DDR5 places -/

theorem onlyChanges_set_sleeper (s : State) (x : Sleeper) : OnlyChanges [.sleeper] s { s with sleeper := x } := by
  intro p hp
  cases p <;> simp [sameZone] at hp ⊢

/-- Which reads R451 allows follows from a region's state, tenant and size. -/
theorem mayRead_congr {id : Nat} (hst : (t.ddrRegion id).st = (s.ddrRegion id).st) (htenant : (t.ddrRegion id).tenant = (s.ddrRegion id).tenant)
    (hunits : (t.ddrRegion id).units = (s.ddrRegion id).units) (q tenant : Nat) : mayRead id q tenant t = mayRead id q tenant s := by
  have hplaces : blockPlaces (t.ddrRegion id) = blockPlaces (s.ddrRegion id) := by rw [blockPlaces, hunits, blockPlaces]
  simp only [mayRead, hst, htenant, hplaces]

/-- A read of a place that R451 allows joins those in progress, and allows the same reads as before. -/
theorem ddrRead_of_allowed {id q : Nat} (hq : mayRead id q w.tenant s = true) (i : Nat) : OnlyChanges [.sleeper, .ddr] s (ddrRead w i id q s) ∧
    (ddrRead w i id q s).sleeper.reads.length = s.sleeper.reads.length + 1 ∧
    ∀ k, mayRead id k w.tenant (ddrRead w i id q s) = mayRead id k w.tenant s := by
  rw [ddrRead, if_pos hq]
  refine ⟨((modDdr_onlyChanges s id _).mono (by simp)).trans ((onlyChanges_set_sleeper _ _).mono (by simp)),
    List.length_append, fun k => ?_⟩
  have hregion := State.ddrRegion_modDdr_same s id (fun r => { r with inFlight := r.inFlight + 1, lastUse := s.clk.sc })
  exact mayRead_congr ((congrArg DdrRegion.st hregion).trans rfl) ((congrArg DdrRegion.tenant hregion).trans rfl)
    ((congrArg DdrRegion.units hregion).trans rfl) k _

theorem ddrReads_of_allowed {id base q : Nat} {l : List Nat} (hq : ∀ j ∈ l, mayRead id (q + j) w.tenant s = true) :
    OnlyChanges [.sleeper, .ddr] s (l.foldl (fun s j => ddrRead w (base + j) id (q + j) s) s) ∧
    (l.foldl (fun s j => ddrRead w (base + j) id (q + j) s) s).sleeper.reads.length = s.sleeper.reads.length + l.length := by
  induction l generalizing s with
  | nil => exact ⟨.refl _ s, rfl⟩
  | cons j l ih =>
    obtain ⟨hframe, hlength, hsame⟩ := ddrRead_of_allowed (hq j (by simp)) (base + j)
    obtain ⟨hframe', hlength'⟩ := ih (s := ddrRead w (base + j) id (q + j) s) fun k hk => (hsame _).trans (hq k (by simp [hk]))
    refine ⟨hframe.trans hframe', hlength'.trans ?_⟩
    rw [hlength, List.length_cons]
    omega

/-- One more page of a lower tier is read (R331). -/
def countLower (s : State) : State := { s with mem := { s.mem with kvLower := s.mem.kvLower + 1 } }

/-- The 16 reads of a page of a DDR5 region that a tenant may read. -/
theorem readPage_of_ddr (he : e.tier = 1) (hq : ∀ j < 16, mayRead (locRegion e.loc) (16 * locPage e.loc + j) w.tenant s = true)
    (base : Nat) : OnlyChanges [.sleeper, .ddr] (countLower s) (readPage w base e s) ∧
    (readPage w base e s).sleeper.reads.length = s.sleeper.reads.length + 16 := by
  obtain ⟨hframe, hlength⟩ := ddrReads_of_allowed (w := w) (s := countLower s) (base := base) (id := locRegion e.loc)
    (q := 16 * locPage e.loc) (l := List.range 16) fun j hj => hq j (List.mem_range.1 hj)
  rw [List.length_range] at hlength
  have hpage : readPage w base e s = (List.range 16).foldl
      (fun s j => ddrRead w (base + j) (locRegion e.loc) (16 * locPage e.loc + j) s) (countLower s) := by
    simp only [readPage, readPageBlock, he, if_true, countLower]
  rw [hpage]
  exact ⟨hframe, hlength⟩

/-! ## A page that a rebind left -/

theorem exec_rebindPageReturn (pool page : Nat) (s : State) : exec (.rebindPageReturn pool page) s = execRebindPageReturn pool page s := rfl

/-- A pool whose page is free again, and waits for no operation. -/
def Pool.returned (page : Nat) (p : Pool) : Pool :=
  { p with used := p.used.filter (fun x => !([page] : List Nat).any (· == x)), waiting := p.waiting.filter (fun x => x.1 != page) }

theorem returnPages_waiting_pool (pool page : Nat) (s : State) :
    (returnPages pool [page] (s.modPool pool (fun p => { p with waiting := p.waiting.filter (fun x => x.1 != page) }))).pool pool =
      (s.pool pool).returned page := by
  rw [returnPages, State.pool_modPool_same, State.pool_modPool_same]
  rfl

theorem Pool.mem_returned_used {page q : Nat} {p : Pool} : q ∈ (p.returned page).used ↔ q ∈ p.used ∧ q ≠ page := by
  simp [Pool.returned, eq_comm (a := page)]

/-! ## Key slots (R325) -/

theorem exec_kvKeyslotSet (wid : Nat) (s : State) : exec (.kvKeyslotSet wid) s = execKvKeyslotSet wid s := rfl

/-- A key slot as KV_KEYSLOT_SET asks for it. -/
def askedSlot (w : Work) : KeySlot :=
  if (dat w.body 16 8).testBit 0 then {} else
    { bound := true, tenant := w.tenant, node := dat w.body 10 7, cls := dat w.body 11 3, regionKey := BitVec.ofNat 32 (dat w.body 12 32) }

/-- The state with that slot written. -/
def slotSet (w : Work) (s : State) : State :=
  { s with mem := { s.mem with keySlots := tput s.mem.keySlots (dat w.body 8 16) (askedSlot w) {} } }

theorem exec_kvKeyslotSet_own (hs : MayStart s w 0x38) (hn : dat w.body 8 16 < 4096)
    (hown : (s.keySlot (dat w.body 8 16)).bound = true → (s.keySlot (dat w.body 8 16)).tenant = w.tenant) :
    exec (.kvKeyslotSet w.wid) s = .next (s.kept (finishOp w (opInfo w .ok []) 0 (slotSet w s))) := by
  rw [exec_kvKeyslotSet, execKvKeyslotSet, start_of_mayStart hs]
  simp only [hn, not_le.2 hn, true_and, if_neg (not_and_not_right.2 hown), if_false]
  rfl

theorem exec_kvKeyslotSet_outside (hs : MayStart s w 0x38) (hn : 4096 ≤ dat w.body 8 16) :
    exec (.kvKeyslotSet w.wid) s = .next (s.kept (complete w .malformed 0x08 s)) := by
  rw [exec_kvKeyslotSet, execKvKeyslotSet, start_of_mayStart hs]
  simp only [hn, not_lt.2 hn, false_and, if_false, if_true]
  rfl

theorem keySlot_of_mem_eq (hm : t.mem = s.mem) (k : Nat) : t.keySlot k = s.keySlot k := by rw [State.keySlot, hm, State.keySlot]

theorem slotSet_keySlot_same (w : Work) (s : State) : (slotSet w s).keySlot (dat w.body 8 16) = askedSlot w := tget_tput_same ..

theorem slotSet_keySlot_other {k : Nat} (hk : k ≠ dat w.body 8 16) : (slotSet w s).keySlot k = s.keySlot k := tget_tput_other _ _ _ _ _ hk

end

end Sys2Proof.Machine

/-! # The obligation on tiers and key slots -/

namespace Sys2Proof.Machine

/-- Settles O30: a spill by its mode, a fetch by where its pages are, a page's return, and a key slot by its number. -/
theorem kvTiersAndKeySlots : Obligations.KvTiersAndKeySlots := by
  unfold Obligations.KvTiersAndKeySlots
  refine ⟨fun s w h hr hc hmode htier hcodec hhbm => ?copied, fun s w h readers hr hc hmode hroom hreaders => ?rebound,
    fun s w h hr hn hhbm hroom => ?present, fun s w h g e hr hn hone he htier hcodec hg hfree hallowed => ?fetched,
    fun s pool page hl hwaits => ?returned, fun s w hs hn hown hroom => ?bound, fun s w hs hn => ?outside⟩
  case copied =>
    have hat : At w (.coding { total := 16 * (pageRange w h).2 }) (s.setProg w.wid (.coding { total := 16 * (pageRange w h).2 })) :=
      at_setProg hr.1.1
    exact ⟨_, exec_kvSpill_copies hr hc hmode htier hcodec hhbm, hat, congrArg DdrRegion.inFlight (State.ddrRegion_modDdr_same ..),
      (((setProg_onlyChanges s _ _).mono (by simp)).trans ((modDdr_onlyChanges _ _ _).mono (by simp))).kept⟩
  case rebound =>
    have hwrite := rebindPages_keepsChains w h readers (pageRange w h).1 (pageRange w h).2 s
    subst hreaders
    exact ⟨_, exec_kvSpill_rebinds hr hc hmode, ends_of_recorded hwrite hroom (by simp) (by simp) (by simp) _ _
      ⟨opRecorded_mem .., hwrite.recorded w _ (by simp) (by simp)⟩⟩
  case present =>
    exact ⟨_, exec_kvFetch_of_hbm hr hn hhbm, ends_of_recorded (.refl [] s) hroom (by simp) (by simp) (by simp) _ _
      (opRecorded_onlyChanges w _ s)⟩
  case fetched =>
    subst he
    have hat : At w (.fetching { total := 16, pages := [((pageRange w h).1, freePage g s)] }) (fetchingOne w (pageRange w h).1 g s) :=
      at_setProg hr.1.1
    obtain ⟨hframe, hlength⟩ := readPage_of_ddr (s := fetchingOne w (pageRange w h).1 g s) htier hallowed 0
    refine ⟨_, exec_kvFetch_one hr hn hone htier hcodec hg hfree, ⟨freePage g s, ?_, ?_⟩, hlength, ?_, ?_⟩
    · exact (item_of_work_eq (hframe.work_eq (by simp)) w.wid).trans hat
    · rw [State.kept_pool, pool_of_mem_eq (hframe.mem_eq (by simp))]
      exact (tookPage_pool g s).1 ▸ mem_insertSorted.2 (.inl rfl)
    · exact (congrArg Mem.hbm (hframe.mem_eq (by simp))).trans rfl
    · have htook := tookPage_onlyChanges g s
      exact (((htook.mono (by simp)).trans ((setProg_onlyChanges _ _ _).mono (by simp))).trans
        (((onlyChanges_set_mem _ _).mono (by simp)).trans (hframe.mono (by simp)))).kept
  case returned =>
    refine ⟨_, (exec_rebindPageReturn pool page s).trans (actIf_of_live hl hwaits), ?_⟩
    simp only [State.kept_pool, returnPages_waiting_pool]
    refine ⟨fun hmem => (Pool.mem_returned_used.1 hmem).2 rfl, fun q hq => by simp [Pool.mem_returned_used, hq], fun x hx => ?_, rfl,
      ((modPool_onlyChanges s _ _).trans (modPool_onlyChanges _ _ _)).kept⟩
    simpa using (List.mem_filter.1 hx).2
  case bound =>
    have hwrite : KeepsChains [.mem] s (slotSet w s) := (onlyChanges_set_mem s _).keepsChains (by simp)
    have hslots := keySlot_of_mem_eq (opRecorded_mem w (opInfo w .ok []) (slotSet w s))
    refine ⟨_, exec_kvKeyslotSet_own hs hn hown, ends_of_recorded hwrite hroom (by simp) (by simp) (by simp) _ _
      ⟨fun hbit => ?_, fun hbit => ?_, fun k hk => ?_, (congrArg Mem.hbm (opRecorded_mem w _ (slotSet w s))).trans rfl,
        hwrite.recorded w _ (by simp) (by simp)⟩⟩
    · rw [hslots, slotSet_keySlot_same, askedSlot, if_pos hbit]
    · rw [hslots, slotSet_keySlot_same, askedSlot, hbit, if_neg Bool.false_ne_true]
    · rw [hslots, slotSet_keySlot_other hk]
  case outside =>
    have hframe := complete_onlyChanges w .malformed 0x08 s 0
    refine ⟨_, exec_kvKeyslotSet_outside hs hn, ?_⟩
    rw [hframe.kept_eq (by simp) (by simp)]
    exact ⟨rfl, hframe⟩

end Sys2Proof.Machine

/-! # Scatters

SUPPORT. What the scatter of a sequence may change, and its status where every block is there (R291 to R294); a sequence in its turn ends,
and with the last one the scatter (R292, R296). -/

namespace Sys2Proof.Machine

section
variable {s t : State} {w : Work} {g : Region} {h : ListHdr} {q : SeqRec}

/-! ## Writes to a list's pages -/

theorem keepsChains_foldl {α : Type} {ps : List Zone} {f : State → α → State} (hf : ∀ s a, KeepsChains ps s (f s a)) (l : List α)
    (s : State) : KeepsChains ps s (l.foldl f s) := by
  induction l generalizing s with
  | nil => exact .refl ps s
  | cons a l ih => exact (hf s a).trans (ih (f s a))

theorem takePages_keepsChains {n k : Nat} {ps : List Nat} (hx : takePages g n k s = some (ps, t)) : KeepsChains [.mem, .free] s t := by
  simp only [takePages] at hx
  split at hx
  · cases hx
  · obtain ⟨-, rfl⟩ := Option.some.inj hx
    have hfree : OnlyChanges [.mem, .free] s { s with free := s.free + n } := (onlyChanges_set_free s _).mono (by simp)
    exact (hfree.trans ((onlyChanges_set_mem _ _).mono (by simp))).keepsChains (by simp)

theorem addChunks_keepsChains (h : ListHdr) (l : List Nat) (s : State) : KeepsChains [.mem, .waybill] s (addChunks h l s) := by
  induction l generalizing s with
  | nil => exact .refl _ s
  | cons p l ih =>
    rw [addChunks]
    exact ((regionWrite_keepsChains ..).trans (regionWrite_keepsChains ..)).trans
      (((putHdr_keepsChains ..).trans (putHdr_keepsChains ..)).trans (ih _))

theorem clearEnts_keepsChains (h : ListHdr) (a k : Nat) (s : State) : KeepsChains [.mem, .waybill] s (clearEnts h a k s) := by
  induction k generalizing a s with
  | zero => exact .refl _ s
  | succ k ih => exact (putEnt_keepsChains h a _ s).trans (ih _ _)

theorem putPages_keepsChains (h : ListHdr) (n : Nat) (l : List Nat) (s : State) : KeepsChains [.mem, .waybill] s (putPages h n l s) := by
  induction l generalizing n s with
  | nil => exact .refl _ s
  | cons p l ih => exact (putEnt_keepsChains h n _ s).trans (ih _ _)

theorem enterBlock_keepsChains (h : ListHdr) (b layer : Nat) (l : List Nat) (s : State) :
    KeepsChains [.mem, .waybill] s (enterBlock h b layer l s) :=
  (addChunks_keepsChains ..).trans ((clearEnts_keepsChains ..).trans ((putHdr_keepsChains ..).trans (putPages_keepsChains ..)))

theorem enterBlocks_keepsChains (ref layer : Nat) (bs l : List Nat) (s : State) :
    KeepsChains [.mem, .waybill] s (enterBlocks ref layer bs l s) := by
  induction bs generalizing l s with
  | nil => exact .refl _ s
  | cons b bs ih =>
    rw [enterBlocks]
    split
    · exact .refl _ s
    · exact (enterBlock_keepsChains ..).trans (ih _ _)

theorem putRow_keepsChains (h : ListHdr) (layer head pos half : Nat) (bs : List Byte) (bad : Bool) (s : State) :
    KeepsChains [.mem, .waybill] s (putRow h layer head pos half bs bad s) := by
  simp only [putRow]
  split
  · exact .refl _ s
  next r _ =>
    split
    · exact (regionWrite_keepsChains ..).trans (((onlyChanges_set_mem _ _).keepsChains (by simp)).mono (by simp))
    · exact regionWrite_keepsChains ..

theorem appendRow_keepsChains (w : Work) (h : ListHdr) (pos row : Nat) (s : State) :
    KeepsChains [.mem, .waybill] s (appendRow w h pos row s) :=
  keepsChains_foldl (fun _ _ => (putRow_keepsChains ..).trans (putRow_keepsChains ..)) _ s

theorem publish_keepsChains (h : ListHdr) (layer new : Nat) (s : State) : KeepsChains [.mem, .waybill] s (publish h layer new s) :=
  (regionWrite_keepsChains ..).trans
    ((putHdr_keepsChains ..).trans (((onlyChanges_set_mem _ _).keepsChains (by simp)).mono (by simp)))

/-! ## A sequence (R291 to R294) -/

/-- The parts that the scatter of a sequence may change. -/
def scatterZones : List Zone := [.mem, .waybill, .tt, .free]

theorem scatterSeq_keepsChains (w : Work) (q : SeqRec) (s : State) : KeepsChains scatterZones s (scatterSeq w q s).2.2 := by
  have hlist {t u : State} (hw : KeepsChains [.mem, .waybill] t u) : KeepsChains scatterZones t u := hw.mono (by simp [scatterZones])
  have htt {t u : State} (hw : OnlyChanges [.tt] t u) : KeepsChains scatterZones t u :=
    (hw.keepsChains (by simp)).mono (by simp [scatterZones])
  unfold scatterSeq
  split
  case h_1 => exact .refl _ s
  case h_2 h hl =>
    dsimp only
    split
    · exact .refl _ s
    split
    case h_1 => exact htt (modTtRegs_onlyChanges s _ _)
    case h_2 x ps s1 hx =>
      have htaken : KeepsChains scatterZones s s1 := (takePages_keepsChains hx).mono (by simp [scatterZones])
      have hentered (r : Option Nat) (n : Nat) : KeepsChains scatterZones s1 (match r with
          | some i => s1.modEntry i (fun e => { e with resPages := e.resPages - n })
          | none => s1) := by
        split
        · exact htt (onlyChanges_set_tt s1 _)
        · exact .refl _ s1
      split
      · exact (htaken.trans (hentered _ _)).trans (hlist (enterBlocks_keepsChains ..))
      · exact (htaken.trans (hentered _ _)).trans (hlist ((enterBlocks_keepsChains ..).trans
          ((keepsChains_foldl (fun _ _ => appendRow_keepsChains ..) _ _).trans (publish_keepsChains ..))))

theorem scatterSeq_of_otherLength (hl : listAt s q.list = some h) (hne : q.length ≠ listCommit s h (dat w.body 8 16)) :
    scatterSeq w q s = (.malformed, 0x06, s) := by
  simp only [scatterSeq, hl, if_pos hne]

/-- A list's header follows from the image and HBM. -/
theorem listAt_congr (hi : t.img = s.img) (hm : t.mem.hbm = s.mem.hbm) (ref : Nat) : listAt t ref = listAt s ref := by
  simp only [listAt, region_congr hi, regionNum_congr hm]

theorem newBlocks_of_entered {layer b0 b1 : Nat} (hb : ∀ b, b0 ≤ b → b ≤ b1 → (pageEnt s h (pageIdx h b layer 0)).tier ≠ 3) :
    newBlocks s h layer b0 b1 = [] := by
  simp only [newBlocks, List.filter_eq_nil_iff, List.mem_map, List.mem_range, beq_iff_eq]
  rintro _ ⟨i, hi, rfl⟩
  exact hb _ (by omega) (by omega)

/-- No page taken leaves the image and HBM. -/
theorem takePages_zero (g : Region) (s : State) : ∃ t, takePages g 0 0 s = some ([], t) ∧ t.img = s.img ∧ t.mem.hbm = s.mem.hbm := by
  rw [takePages, if_neg (by omega)]
  exact ⟨_, rfl, rfl, rfl⟩

theorem scatterSeq_status_of_entered (hl : listAt s q.list = some h) (hq : q.length = listCommit s h (dat w.body 8 16))
    (ho : listOwner q.list s = none)
    (hb : newBlocks s h (dat w.body 8 16) (q.length / geoT h.geometry) ((q.length + q.qCount - 1) / geoT h.geometry) = []) :
    (scatterSeq w q s).1 = if (srcRows s q).any (fun r => rowPoisoned w h r s) then .poisonConsumed else .ok := by
  obtain ⟨t, ht, himg, hhbm⟩ := takePages_zero ((s.region h.pool).getD h.region) s
  have hl' : listAt t q.list = some h := (listAt_congr himg hhbm _).trans hl
  simp only [scatterSeq, hl, if_neg (not_not_intro hq), hb, ho, List.length_nil, Nat.zero_mul, List.isEmpty_nil, if_true, ht, enterBlocks,
    hl']

/-! ## The status of a sequence (R297) -/

/-- A write to what a reference names changes memory, what is measured of it, and Canopy; chains stay. -/
theorem refWrite_keepsChains (r : Ref) (o : Nat) (bs : List Byte) (s : State) : KeepsChains [.groves, .mem, .waybill] s (refWrite r o bs s) := by
  unfold refWrite
  split
  · split
    · exact (regionWrite_keepsChains ..).mono (by simp)
    · exact .refl _ s
  · exact ((onlyChanges_set_groves s _).keepsChains (by simp)).mono (by simp)
  · exact .refl _ s

theorem putStatus_keepsChains (table : Ref) (i : Nat) (st : Status) (s : State) :
    KeepsChains [.groves, .mem, .waybill] s (putStatus table i st s) := refWrite_keepsChains ..

/-! ## A turn -/

/-- A scatter as it starts (R290, R292). -/
def startScatter (w : Work) (s : State) : State :=
  match scatterChecks w s with
  | some (st, r) => complete w st r s
  | none => s.setProg w.wid (.scatter { seqs := List.replicate (dat w.body 12 32) {} })

theorem exec_kvScatter (wid : Nat) (s : State) : exec (.kvScatter wid) s = execKvScatter wid s := rfl

theorem execKvScatter_of_mayStart (hs : MayStart s w 0x31) : exec (.kvScatter w.wid) s = start w.wid 0x31 s startScatter := by
  rw [exec_kvScatter, execKvScatter, start_of_mayStart hs, start_of_mayStart hs]
  rfl

/-- The state once a sequence has had its turn: its rows, commits and STATUS are written, and the last one ends the scatter. -/
def scattered (w : Work) (o : SeqOp) (i : Nat) (s : State) : State :=
  let r := scatterSeq w (seqRec s (refAt w.body 16) i) s
  let s1 := putStatus (refAt w.body 16) i r.1 r.2.2
  let o' := o.done i r.1 r.2.1
  if o'.seqs.all (fun q => q.phase == .done) then finishOp w (scatterInfo w (seqOutcome o').1 s1) (seqOutcome o').2 s1
  else s1.setProg w.wid (.scatter o')

theorem completes_scatterTurn {o : SeqOp} {i : Nat} {x : SeqSt} {P : State → Prop} (hi : s.item w.wid = some w) (ha : s.awake = true)
    (hctx : ctxGiven w s = true) (hp : w.prog = .scatter o) (hx : o.seqs[i]? = some x) (hphase : x.phase ≠ .done)
    (hturn : scatterTurn w i s = true) (hP : P (s.kept (scattered w o i s))) : Completes (.scatterTurn w.wid i) s P := by
  have hexec : exec (.scatterTurn w.wid i) s = execScatterTurn w.wid i s := rfl
  refine completes_of_resume hexec hi ha (a := o) (by rw [hp]) ?_
  simp only [hx, hphase, hctx, hturn, Bool.not_true, Bool.false_eq_true, or_self, if_false]
  exact hP

end

end Sys2Proof.Machine

/-! # The obligation on scatters -/

namespace Sys2Proof.Machine

/-- Settles O31: a scatter starts or is refused by its fields, a sequence in its turn ends alone or with the scatter, and its status where
every block is there is that of its rows. -/
theorem kvScatter : Obligations.KvScatter := by
  unfold Obligations.KvScatter
  refine ⟨fun s w h hg => ?starts, fun s w st r h hb => ?refused, fun s w h hi ha hctx hp hturn hroom hl hne => ?misplaced,
    fun s w o r hi ha hctx hp hseqs hturn hr => ?turn, fun s w h g q _ hl _ hq ho hb => ?status⟩
  case starts =>
    refine completes_of_start (execKvScatter_of_mayStart h) h ?_
    rw [startScatter, hg]
    exact ⟨at_setProg h.1, (setProg_onlyChanges s _ _).kept⟩
  case refused =>
    refine (completes_of_refused (execKvScatter_of_mayStart h) h (st := st) (r := r) ?_).imp fun t ⟨heq, _, hframe⟩ => ⟨heq, hframe⟩
    rw [startScatter, hb]
  case misplaced =>
    have hwrite := putStatus_keepsChains (refAt w.body 16) 0 .malformed s
    have hdone : ((({ seqs := [{}] } : SeqOp).done 0 .malformed 0x06).seqs.all (fun q => q.phase == .done)) = true := by decide
    have hresult : seqOutcome (({ seqs := [{}] } : SeqOp).done 0 .malformed 0x06) = (.okShort, 2 ^ 32) := by decide
    refine completes_scatterTurn hi ha hctx hp rfl (by simp) hturn ?_
    simp only [scattered, scatterSeq_of_otherLength hl hne, hdone, hresult, if_true]
    exact ends_of_recorded hwrite hroom (by simp) (by simp) (by simp) _ _ ⟨opRecorded_mem .., hwrite.recorded w _ (by simp) (by simp)⟩
  case turn =>
    subst hr
    have hopen : ∀ st c, ((o.done 0 st c).seqs.all (fun q => q.phase == .done)) = false := by simp [SeqOp.done, hseqs]
    have hwrite : KeepsChains [.groves, .mem, .waybill, .tt, .free] s _ :=
      ((scatterSeq_keepsChains w (seqRec s (refAt w.body 16) 0) s).mono (by simp [scatterZones])).trans
        ((putStatus_keepsChains (refAt w.body 16) 0 (scatterSeq w (seqRec s (refAt w.body 16) 0) s).1 _).mono (by simp))
    have hitem := (item_of_work_eq (hwrite.frame.work_eq (by simp)) w.wid).trans hi
    refine completes_scatterTurn hi ha hctx hp (x := {}) (by rw [hseqs]; rfl) (by simp) hturn ?_
    simp only [scattered, hopen, Bool.false_eq_true, if_false]
    exact ⟨at_setProg hitem, rfl, ((hwrite.frame.mono (by simp)).trans ((setProg_onlyChanges _ _ _).mono (by simp))).kept⟩
  case status => exact scatterSeq_status_of_entered hl hq ho (newBlocks_of_entered hb)

end Sys2Proof.Machine

/-! # Attention

SUPPORT. An attention operation that starts (R298, R299), the end of a wait for a commit (R302, R303), and a unit whose computation passes
while others of its sequence are left (R303, R309, R327). -/

namespace Sys2Proof.Machine

section
variable {s t : State} {w : Work} {o : SeqOp} {q : SeqRec} {h : ListHdr} {x : Nat × Nat} {y : TileSt} {z : SeqSt} {obs : TileObs}

/-! ## A start -/

theorem exec_attend (wid : Nat) (s : State) : exec (.attend wid) s = start wid 0x32 s startAtt := rfl
theorem exec_attendBackward (wid : Nat) (s : State) : exec (.attendBackward wid) s = start wid 0x33 s startAtt := rfl

theorem startAtt_of_bad {st : Status} {r : Nat} (hb : attChecks w s = some (st, r)) : startAtt w s = complete w st r s := by
  simp only [startAtt, hb]

/-- An attention operation whose sequences wait for their commits. -/
def newSeqs (w : Work) (s : State) : SeqOp :=
  { seqs := List.replicate (attOf w s).n {}, cnt := (newOp w.part (attOf w s).xk s).1 }

theorem startAtt_of_good (hg : attChecks w s = none) (hs : standsOf w.part 0 s ≠ []) :
    startAtt w s = (newOp w.part (attOf w s).xk s).2.setProg w.wid (.attend (newSeqs w s)) := by
  simp only [startAtt, hg, List.isEmpty_eq_false_iff.2 hs, Bool.false_eq_true, if_false]
  rfl

/-- What a command leaves that starts an attention operation, forward or backward. -/
theorem completes_of_startAtt {c : Instr} {op : Byte} (hc : exec c s = start w.wid op s startAtt) (hm : MayStart s w op)
    (hg : attChecks w s = none) (hs : standsOf w.part 0 s ≠ []) : Completes c s (fun t =>
      At w (.attend (newSeqs w s)) t ∧ t.groves = { s.groves with opSeq := s.groves.opSeq + 1 } ∧ OnlyChanges [.work, .groves] s t) := by
  have hitem : (newOp w.part (attOf w s).xk s).2.item w.wid = some w := hm.1
  refine completes_of_start hc hm ?_
  rw [startAtt_of_good hg hs]
  exact ⟨at_setProg hitem, rfl,
    (((onlyChanges_set_groves s _).mono (by simp)).trans ((setProg_onlyChanges _ _ _).mono (by simp))).kept⟩

/-- One that is refused completes with the first cause. -/
theorem completes_of_badAtt {c : Instr} {op : Byte} {st : Status} {r : Nat} (hc : exec c s = start w.wid op s startAtt) (hm : MayStart s w op)
    (hb : attChecks w s = some (st, r)) :
    Completes c s (fun t => t = complete w st r s ∧ OnlyChanges [.host, .work, .tt, .ft, .tn, .out] s t) :=
  (completes_of_refused hc hm (startAtt_of_bad hb)).imp fun _ ⟨heq, _, hframe⟩ => ⟨heq, hframe⟩

/-! ## Waits for a commit -/

theorem exec_commitWaitSatisfied (wid i : Nat) (s : State) : exec (.commitWaitSatisfied wid i) s = execCommitWaitSatisfied wid i s := rfl
theorem exec_commitWaitExpire (wid i : Nat) (s : State) : exec (.commitWaitExpire wid i) s = execCommitWaitExpire wid i s := rfl

theorem completes_commitWaitSatisfied {P : State → Prop} (hi : s.item w.wid = some w) (ha : s.awake = true) (hp : w.prog = .attend o)
    (ho : o.seqs = [{}]) (hq : (attRecs w s)[0]? = some q) (hl : listAt s q.list = some h)
    (hcommit : q.length ≤ listCommit s h (attOf w s).layer) (hunits : unitsOf w s 0 q ≠ [])
    (hP : P (s.kept (s.setProg w.wid (.attend { o with seqs := [{ phase := .running, units := (unitsOf w s 0 q).length }] })))) :
    Completes (.commitWaitSatisfied w.wid 0) s P := by
  have hcount : (unitsOf w s 0 q).length ≠ 0 := mt List.length_eq_zero_iff.1 hunits
  refine completes_of_resume (exec_commitWaitSatisfied w.wid 0 s) hi ha (a := o) (by rw [hp]) ?_
  simpa [ho, hq, hl, not_lt.2 hcommit, hcount] using hP

theorem completes_commitWaitExpire {i : Nat} {P : State → Prop} (hi : s.item w.wid = some w) (ha : s.awake = true) (hp : w.prog = .attend o)
    (hz : o.seqs[i]? = some z) (hphase : z.phase = .waiting)
    (hP : P (s.kept (settleAtt w (o.done i .malformed 0x07) (putStatus (attOf w s).table i .malformed s)))) :
    Completes (.commitWaitExpire w.wid i) s P := by
  refine completes_of_resume (exec_commitWaitExpire w.wid i s) hi ha (a := o) (by rw [hp]) ?_
  simp only [hz, hphase, ne_eq, not_true_eq_false, if_false]
  exact hP

theorem settleAtt_open (hopen : o.seqs.all (fun q => q.phase == .done) = false) : settleAtt w o s = s.setProg w.wid (.attend o) := by
  simp only [settleAtt, hopen, Bool.false_eq_true, if_false]

/-! ## A unit's computation -/

/-- Where every word reads, the resident tiles a computation names do not bear on it. -/
theorem runTile_resident (hread : AllRead obs) (hi : s.ft.inject.arm = false) (rk : RunKind) (fmt gc : Nat) (ins : List (Ref × Nat))
    (bad : Option Status) (c : Comp) (res : List ResKey) :
    runTile w x y rk fmt gc ins bad obs c s res = runTile w x y rk fmt gc ins bad obs c s := by
  have hfault (res : List ResKey) : inputFault w x ins res obs (countCorrected obs.corrected s) = (false, 0, readFor obs s) :=
    inputFault_of_allRead (s := countCorrected obs.corrected s) hread hi ins res
  simp only [runTile, hfault]

theorem countRegs_resident (x : Nat × Nat) (y : TileSt) (kind fmt gc : Nat) (l : Lines) (v : Verdict) (s : State) :
    ((countRegs x y kind fmt gc l v s).stand x.1 x.2).resident = (s.stand x.1 x.2).resident := by
  simp [countRegs, countRun, State.stand_modStand_same]

/-- A first computation that passes leaves the resident tiles of its Stand. -/
theorem runTile_passes_resident {c : Comp} (hf : FirstRun y x) (hp : passing obs c) (hr : retiringStand s x = false)
    (hi : s.ft.inject.arm = false) (rk : RunKind) (fmt gc : Nat) (ins : List (Ref × Nat)) :
    ((runTile w x y rk fmt gc ins none obs c s).state.stand x.1 x.2).resident = (s.stand x.1 x.2).resident := by
  have hv := judge_first_passes hf (onFail s) (recomputeLimit s) c.out
  rw [runTile_eq ⟨hp.1, hp.2.1⟩ hi hr rk fmt gc ins (failKind_of_passing hp) hv rfl (by simp [passedVerdict]), countRun_eq,
    passedVerdict_charge, List.foldl_nil, stand_of_groves_eq (countUse_groves w gc _), countRegs_resident,
    stand_of_groves_eq (readFor_groves obs s)]

theorem holdTiles_resident_congr (hs : (t.stand x.1 x.2).resident = (s.stand x.1 x.2).resident) (new : List ResTile) :
    ((holdTiles x new t).stand x.1 x.2).resident = ((holdTiles x new s).stand x.1 x.2).resident := by
  rw [holdTiles, holdTiles, State.stand_modStand_same, State.stand_modStand_same, hs]

/-- The computation of a unit whose operands hold nothing that forces a status. -/
def ranUnit (w : Work) (o : SeqOp) (y : TileSt) (x : Nat × Nat) (q : SeqRec) (h : ListHdr) (obs : TileObs) (s : State) : Ran :=
  runTile w x y .unit (h.geometry / 16) ((unitOp w s q h y.idx).gc (o.cnt.last.any (· == x))) [((attOf w s).q, 0)] none obs
    (unitRun w s obs q h y.idx) s

/-- The state after it, its pages resident in the Stand and the unit counted (R327, R331). -/
def heldUnit (w : Work) (o : SeqOp) (y : TileSt) (x : Nat × Nat) (q : SeqRec) (h : ListHdr) (obs : TileObs) (s : State) : State :=
  let s1 := holdTiles x (unitTiles w s q h y.idx) (ranUnit w o y x q h obs s).state
  { s1 with mem := { s1.mem with kvUnits := s1.mem.kvUnits + 1 } }

/-- The operation once a unit has ended whose computation passed. -/
def SeqOp.unitEnded (o : SeqOp) (x : Nat × Nat) (y : TileSt) (r : Ran) (out : TileOut) : SeqOp :=
  { o with parts := [], ended := o.ended ++ [{ unit := y.idx, again := y.again, out }], cnt := o.cnt.after x y r false }

/-- A unit that is not the last of its sequence writes nothing: the operation goes on (R303, R306). -/
theorem unitDone_goesOn (ho : o.parts = [y]) (hdead : y.dead = false) (hread : AllRead obs) (hi : s.ft.inject.arm = false)
    (hresident : badResident x ((unitTiles w s q h y.idx).map (fun r => r.key)) s = false)
    (hr : PassedRun x y (unitRun w s obs q h y.idx) s (ranUnit w o y x q h obs s)) (hz : o.seqs[unitSeq y.idx]? = some z)
    (hn : (o.ended.filter (fun e => unitSeq e.unit == unitSeq y.idx)).length + 1 < z.units) :
    unitDone w o y x q h false obs s = (heldUnit w o y x q h obs s).setProg w.wid
      (.attend (o.unitEnded x y (ranUnit w o y x q h obs s) (unitRun w s obs q h y.idx).out)) := by
  obtain ⟨hfate, hdead', hagain, -, -, -, -⟩ := hr
  have hrun (res : List ResKey) : runTile w x y .unit (h.geometry / 16) ((unitOp w s q h y.idx).gc (o.cnt.last.any (· == x)))
      [((attOf w s).q, 0)] none obs (unitRun w s obs q h y.idx) s res = ranUnit w o y x q h obs s := runTile_resident hread hi ..
  have hleft : ¬ z.units ≤ (o.ended.filter (fun e => unitSeq e.unit == unitSeq y.idx)).length + 1 := by omega
  simp [unitDone, hresident, hrun, unitEnd, hfate, hdead', hdead, hagain, ho, hz, hleft, heldUnit, SeqOp.unitEnded]

theorem completes_attendUnitComplete {P : State → Prop} (hi : s.item w.wid = some w) (ha : s.awake = true) (hp : w.prog = .attend o)
    (ho : o.parts = [y]) (hx : y.running = some x) (hq : (attRecs w s)[unitSeq y.idx]? = some q) (hl : listAt s q.list = some h)
    (hpoison : unitPoison w s (unitSeq y.idx) q h y.idx = some false) (hP : P (s.kept (unitDone w o y x q h false obs s))) :
    Completes (.attendUnitComplete w.wid y.idx obs) s P := by
  have hexec : exec (.attendUnitComplete w.wid y.idx obs) s = execAttendUnitComplete w.wid y.idx obs s := rfl
  refine completes_of_resume hexec hi ha (a := o) (by rw [hp]) ?_
  simp only [ho, List.find?_cons, beq_self_eq_true, hq, hx, hl, hpoison]
  exact hP

/-- What a unit leaves that passes: its Stand free, its pages resident there, and of memory only the count of units changed. -/
theorem heldUnit_spec (hr : PassedRun x y (unitRun w s obs q h y.idx) s (ranUnit w o y x q h obs s)) :
    (heldUnit w o y x q h obs s).mem = { s.mem with kvUnits := s.mem.kvUnits + 1 } ∧
    ((heldUnit w o y x q h obs s).stand x.1 x.2).busy = false ∧
    OnlyChanges [.groves, .mem, .ft, .free] s (heldUnit w o y x q h obs s) := by
  obtain ⟨hbusy, -, -, -, hhold⟩ := holdTiles_keeps x (unitTiles w s q h y.idx) (ranUnit w o y x q h obs s).state
  have hframe : OnlyChanges [.groves, .ft, .free] s (holdTiles x (unitTiles w s q h y.idx) (ranUnit w o y x q h obs s).state) :=
    hr.frame.trans (hhold.mono (by simp))
  refine ⟨?_, hbusy.trans hr.idle, (hframe.mono (by simp)).trans ((onlyChanges_set_mem _ _).mono (by simp))⟩
  rw [heldUnit, hframe.mem_eq (by simp)]

end

end Sys2Proof.Machine

/-! # The obligation on attention -/

namespace Sys2Proof.Machine

/-- Settles O32: both passes start alike, a wait ends with units or with cause 0x07, and a unit that passes writes nothing while others of
its sequence are left. -/
theorem attention : Obligations.Attention := by
  unfold Obligations.Attention
  refine ⟨fun s w h hg hs => completes_of_startAtt (exec_attend w.wid s) h hg hs,
    fun s w st r h hb => completes_of_badAtt (exec_attend w.wid s) h hb,
    fun s w h hg hs => completes_of_startAtt (exec_attendBackward w.wid s) h hg hs,
    fun s w st r h hb => completes_of_badAtt (exec_attendBackward w.wid s) h hb,
    fun s w o q h hi ha hp ho hq hl hcommit hunits => ?committed, fun s w o k z hi ha hp hz hphase hopen => ?expired,
    fun s w o y q h x z obs hi ha hp ho hf hretiring hq hl hpoison hresident hpass hunarmed hz hn => ?unit⟩
  case committed =>
    exact completes_commitWaitSatisfied hi ha hp ho hq hl hcommit hunits ⟨at_setProg hi, (setProg_onlyChanges s _ _).kept⟩
  case expired =>
    have hwrite := (putStatus_keepsChains (attOf w s).table k .malformed s).frame
    have hitem := (item_of_work_eq (hwrite.work_eq (by simp)) w.wid).trans hi
    refine completes_commitWaitExpire hi ha hp hz hphase ?_
    rw [settleAtt_open hopen]
    exact ⟨at_setProg hitem, rfl, ((hwrite.mono (by simp)).trans ((setProg_onlyChanges _ _ _).mono (by simp))).kept⟩
  case unit =>
    have hrun : PassedRun x y (unitRun w s obs q h y.idx) s (ranUnit w o y x q h obs s) := runTile_passes hf hpass hretiring hunarmed ..
    have hkept : ((ranUnit w o y x q h obs s).state.stand x.1 x.2).resident = (s.stand x.1 x.2).resident :=
      runTile_passes_resident hf hpass hretiring hunarmed ..
    obtain ⟨hmem, hbusy, hframe⟩ := heldUnit_spec hrun
    have hitem := (item_of_work_eq (hframe.work_eq (by simp)) w.wid).trans hi
    obtain ⟨hsram, hhbm, -⟩ := hpass
    obtain ⟨hx, -, -, hdead, -⟩ := hf
    refine completes_attendUnitComplete hi ha hp ho hx hq hl hpoison ?_
    rw [unitDone_goesOn ho hdead ⟨hsram, hhbm⟩ hunarmed hresident hrun hz hn]
    exact ⟨⟨_, _, at_setProg hitem, rfl, rfl, rfl, rfl⟩, hmem, hbusy, holdTiles_resident_congr hkept _,
      ((hframe.mono (by simp)).trans ((setProg_onlyChanges _ _ _).mono (by simp))).kept⟩

end Sys2Proof.Machine

/-! # Reads of blocks in progress

SUPPORT. Which read of a consumer is the oldest, how a read that ends reaches its consumer in request order (R360), and what the counters
of blocks leave alone (R363, R457). -/

namespace Sys2Proof.Machine

section
variable {s t : State} {w : Work} {b : BlockOp} {rd : BlockRead} {tgt : ReadFor} {rid : Nat} {res : Except Status (List Byte)} {fr : BitVec 16}

theorem OnlyChanges.ddr_eq {ps : List Zone} (h : OnlyChanges ps s t) (hp : .ddr ∉ ps) : t.ddr = s.ddr := of_decide_eq_true (h .ddr hp)

theorem OnlyChanges.sleeper_eq {ps : List Zone} (h : OnlyChanges ps s t) (hp : .sleeper ∉ ps) : t.sleeper = s.sleeper :=
  of_decide_eq_true (h .sleeper hp)

theorem wid_of_item {x : Nat} (h : s.item x = some w) : w.wid = x :=
  beq_iff_eq.1 (List.find?_some (p := fun y : Work => y.wid == x) h)

/-- A command that acts only while the device is awake. -/
theorem completes_of_awake {c : Instr} {f : State → State} {P : State → Prop} (hc : exec c s = actIf s s.awake f) (ha : s.awake = true)
    (hP : P (s.kept (f s))) : Completes c s P := by
  have hlive : s.live = true := by
    simp only [State.awake, Bool.and_eq_true] at ha
    exact ha.1.1
  exact ⟨_, hc.trans (actIf_of_live hlive ha), hP⟩

/-! ## The oldest request of a consumer -/

/-- The reads of a consumer. -/
def readsOf (tgt : ReadFor) (s : State) : List BlockRead := s.sleeper.reads.filter (fun r => sameConsumer r.forw tgt)

/-- The older of the oldest read so far and one more. -/
def olderRead (best : Option BlockRead) (r : BlockRead) : Option BlockRead :=
  match best with
  | some x => if r.rid < x.rid then some r else some x
  | none => some r

theorem oldestRead_eq (tgt : ReadFor) (s : State) : oldestRead tgt s = (readsOf tgt s).foldl olderRead none := rfl

theorem readNo_congr (h : t.sleeper.reads = s.sleeper.reads) (rid : Nat) : t.readNo rid = s.readNo rid := by
  rw [State.readNo, h, State.readNo]

theorem readsOf_congr (h : t.sleeper.reads = s.sleeper.reads) (tgt : ReadFor) : readsOf tgt t = readsOf tgt s := by
  rw [readsOf, h, readsOf]

theorem oldestRead_congr (h : t.sleeper.reads = s.sleeper.reads) (tgt : ReadFor) : oldestRead tgt t = oldestRead tgt s := by
  rw [oldestRead_eq, readsOf_congr h, oldestRead_eq]

theorem oldestRead_of_only (h : readsOf tgt s = [rd]) : oldestRead tgt s = some rd := by rw [oldestRead_eq, h]; rfl

theorem oldestRead_of_no_reads (h : readsOf tgt s = []) : oldestRead tgt s = none := by rw [oldestRead_eq, h]; rfl

theorem mem_of_foldl_olderRead {l : List BlockRead} {best : Option BlockRead} (h : l.foldl olderRead best = some rd) :
    best = some rd ∨ rd ∈ l := by
  induction l generalizing best with
  | nil => exact .inl h
  | cons r l ih =>
    rcases ih h with hstep | hmem
    · cases best with
      | none => simp_all [olderRead]
      | some x =>
        simp only [olderRead] at hstep
        split at hstep <;> simp_all
    · exact .inr (List.mem_cons_of_mem _ hmem)

theorem oldestRead_mem (h : oldestRead tgt s = some rd) : rd ∈ readsOf tgt s :=
  (mem_of_foldl_olderRead h).resolve_left (by simp)

/-- A read that has ended, where it has the number. -/
def BlockRead.endedAs (rid : Nat) (e : ReadEnd) (r : BlockRead) : BlockRead := if r.rid = rid then { r with ended := some e } else r

theorem BlockRead.endedAs_rid (rid : Nat) (e : ReadEnd) (r : BlockRead) : (r.endedAs rid e).rid = r.rid := by
  unfold BlockRead.endedAs
  split <;> rfl

theorem BlockRead.endedAs_forw (rid : Nat) (e : ReadEnd) (r : BlockRead) : (r.endedAs rid e).forw = r.forw := by
  unfold BlockRead.endedAs
  split <;> rfl

theorem olderRead_endedAs (rid : Nat) (e : ReadEnd) (best : Option BlockRead) (r : BlockRead) :
    olderRead (best.map (BlockRead.endedAs rid e)) (r.endedAs rid e) = (olderRead best r).map (BlockRead.endedAs rid e) := by
  cases best with
  | none => rfl
  | some x =>
    simp only [olderRead, Option.map_some, BlockRead.endedAs_rid]
    split <;> rfl

/-- The state with a read marked as ended, which its consumer has not taken. -/
def readEnded (rid : Nat) (e : ReadEnd) (s : State) : State :=
  { s with sleeper := { s.sleeper with reads := s.sleeper.reads.map (BlockRead.endedAs rid e) } }

theorem readsOf_readEnded (tgt : ReadFor) (rid : Nat) (e : ReadEnd) (s : State) :
    readsOf tgt (readEnded rid e s) = (readsOf tgt s).map (BlockRead.endedAs rid e) := by
  simp only [readsOf, readEnded, List.filter_map, Function.comp_def, BlockRead.endedAs_forw]

/-- The end of a read does not change the order of requests. -/
theorem oldestRead_readEnded (tgt : ReadFor) (rid : Nat) (e : ReadEnd) (s : State) :
    oldestRead tgt (readEnded rid e s) = (oldestRead tgt s).map (BlockRead.endedAs rid e) := by
  rw [oldestRead_eq, oldestRead_eq, readsOf_readEnded, List.foldl_map]
  exact List.foldl_hom (Option.map (BlockRead.endedAs rid e)) (init := none) (fun best r => olderRead_endedAs rid e best r)

/-! ## A read that ends -/

theorem dropRead_readEnded (rid : Nat) (e : ReadEnd) (s : State) : dropRead rid (readEnded rid e s) = dropRead rid s := by
  have hreads (l : List BlockRead) :
      (l.map (BlockRead.endedAs rid e)).filter (fun r => r.rid != rid) = l.filter (fun r => r.rid != rid) := by
    induction l with
    | nil => rfl
    | cons r l ih => by_cases hr : r.rid = rid <;> simp [BlockRead.endedAs, hr, ih]
  simp only [dropRead, readEnded, hreads]

theorem readNo_dropRead (rid : Nat) (s : State) : (dropRead rid s).readNo rid = none := by
  simp [State.readNo, dropRead, List.find?_eq_none]

theorem dropRead_onlyChanges (rid : Nat) (s : State) : OnlyChanges [.sleeper] s (dropRead rid s) := onlyChanges_set_sleeper s _

theorem dropBuf_onlyChanges (tgt : ReadFor) (s : State) : OnlyChanges [.sleeper] s (dropBuf tgt s) := onlyChanges_set_sleeper s _

theorem ReadEnd.res_of (res : Except Status (List Byte)) (fr : BitVec 16) : (ReadEnd.of res fr).res = res := by cases res <;> rfl

theorem ReadEnd.fr_of (res : Except Status (List Byte)) (fr : BitVec 16) : (ReadEnd.of res fr).fr = fr := by cases res <;> rfl

theorem flushReads_succ {e : ReadEnd} (ho : oldestRead tgt s = some rd) (he : rd.ended = some e) (n : Nat) :
    flushReads tgt (n + 1) s = flushReads tgt n (deliver rd.forw e.res e.fr (dropRead rd.rid s)) := by
  simp only [flushReads, ho, he]

theorem flushReads_of_no_reads (h : readsOf tgt s = []) (n : Nat) : flushReads tgt n s = s := by
  cases n with
  | zero => rfl
  | succ n => simp only [flushReads, oldestRead_of_no_reads h]

/-- The oldest read of its consumer is delivered as it ends, and then what waited for it (R360). -/
theorem endRead_of_oldest (hr : s.readNo rd.rid = some rd) (ho : oldestRead rd.forw s = some rd) (res : Except Status (List Byte))
    (fr : BitVec 16) : endRead rd.rid res fr s =
      flushReads rd.forw (s.sleeper.reads.length - 1) (deliver rd.forw res fr (dropRead rd.rid s)) := by
  have hmem : 0 < s.sleeper.reads.length := List.length_pos_of_mem (List.mem_of_find?_eq_some hr)
  have hend : endRead rd.rid res fr s = flushReads rd.forw s.sleeper.reads.length (readEnded rd.rid (.of res fr) s) := by
    simp only [endRead, show s.sleeper.reads.find? (fun r => r.rid == rd.rid) = some rd from hr]
    rfl
  have hold : oldestRead rd.forw (readEnded rd.rid (.of res fr) s) = some { rd with ended := some (.of res fr) } := by
    rw [oldestRead_readEnded, ho, Option.map_some, BlockRead.endedAs, if_pos rfl]
  rw [hend, ← Nat.sub_add_cancel hmem, flushReads_succ hold rfl, ReadEnd.res_of, ReadEnd.fr_of, dropRead_readEnded]
  rfl

/-! ## Reads whose consumer has left -/

theorem wid_of_sameConsumer {x : ReadFor} (h : sameConsumer x tgt = true) : x.wid = tgt.wid := by
  simp only [sameConsumer, Bool.and_eq_true, beq_iff_eq] at h
  exact h.1

theorem deliver_of_gone (h : s.item tgt.wid = none) : deliver tgt res fr s = s := by simp only [deliver, h]

/-- The reads of a descriptor that has left are dropped as they end, and nothing else changes. -/
theorem flushReads_of_gone (h : s.item tgt.wid = none) (n : Nat) :
    OnlyChanges [.sleeper] s (flushReads tgt n s) ∧ (flushReads tgt n s).sleeper.reads ⊆ s.sleeper.reads := by
  induction n generalizing s with
  | zero => exact ⟨.refl _ s, List.Subset.refl _⟩
  | succ n ih =>
    rw [flushReads]
    split
    next x hx =>
      have hwid : x.forw.wid = tgt.wid := wid_of_sameConsumer (List.mem_filter.1 (oldestRead_mem hx)).2
      split
      · have hgone : (dropRead x.rid s).item tgt.wid = none := h
        rw [deliver_of_gone (hwid ▸ hgone)]
        obtain ⟨hframe, hreads⟩ := ih hgone
        exact ⟨(dropRead_onlyChanges x.rid s).trans hframe, List.Subset.trans hreads (List.filter_subset_self _)⟩
      · exact ⟨.refl _ s, List.Subset.refl _⟩
    · exact ⟨.refl _ s, List.Subset.refl _⟩

theorem readOn_of_gone {wid : Nat} (h : s.item wid = none) : readOn wid s = s := by simp only [readOn, h]

theorem readNo_of_subset (hs : t.sleeper.reads ⊆ s.sleeper.reads) (h : s.readNo rid = none) : t.readNo rid = none :=
  List.find?_eq_none.2 fun x hx => List.find?_eq_none.1 h x (hs hx)

theorem endReadOn_of_gone (hr : s.readNo rd.rid = some rd) (ho : oldestRead rd.forw s = some rd) (hg : s.item rd.forw.wid = none) :
    OnlyChanges [.sleeper] s (endReadOn rd res fr s) ∧ (endReadOn rd res fr s).readNo rd.rid = none := by
  have hgone : (dropRead rd.rid s).item rd.forw.wid = none := hg
  obtain ⟨hframe, hreads⟩ := flushReads_of_gone hgone (s.sleeper.reads.length - 1)
  have hitem := (item_of_work_eq (hframe.work_eq (by simp)) rd.forw.wid).trans hgone
  rw [endReadOn, endRead_of_oldest hr ho, deliver_of_gone hgone, readOn_of_gone hitem]
  exact ⟨(dropRead_onlyChanges rd.rid s).trans hframe, readNo_of_subset hreads (readNo_dropRead rd.rid s)⟩

/-! ## The only read of a load -/

/-- A read is the only one of a load that has more blocks to come. -/
structure OnlyReadOf (w : Work) (b : BlockOp) (rd : BlockRead) (s : State) : Prop where
  found    : s.readNo rd.rid = some rd
  only     : readsOf rd.forw s = [rd]
  item     : s.item rd.forw.wid = some w
  opcode   : w.opcode = 0x55
  fetching : w.prog = .fetching b
  more     : b.ended + 1 < b.total

theorem OnlyReadOf.congr (h : OnlyReadOf w b rd s) (hreads : t.sleeper.reads = s.sleeper.reads) (hwork : t.work = s.work) :
    OnlyReadOf w b rd t where
  found := (readNo_congr hreads _).trans h.found
  only := (readsOf_congr hreads _).trans h.only
  item := (item_of_work_eq hwork _).trans h.item
  opcode := h.opcode
  fetching := h.fetching
  more := h.more

/-- The state with a block of a load at its destination, or its lines poisoned (R473). -/
def loadPut (w : Work) (i : Nat) (res : Except Status (List Byte)) (s : State) : State :=
  match res with
  | .ok plain => refWrite (refAt w.body 8) (4096 * i) plain s
  | .error _ => refPoison (refAt w.body 8) (4096 * i) 4096 s

/-- A load after one more block. -/
def BlockOp.loaded (res : Except Status (List Byte)) (fr : BitVec 16) (b : BlockOp) : BlockOp :=
  { b with
    ended := b.ended + 1
    delivered := b.delivered + (match res with | .ok _ => 1 | .error _ => 0)
    worst := (match res with | .ok _ => b.worst | .error e => worseBlock b.worst e)
    faultRef := if b.faultRef = 0 then fr else b.faultRef }

/-- A block that passes its checks names no record. -/
theorem BlockOp.loaded_ok (plain : List Byte) (b : BlockOp) :
    b.loaded (.ok plain) 0 = { b with ended := b.ended + 1, delivered := b.delivered + 1 } := by
  simp only [BlockOp.loaded, ite_eq_right_iff.2 (Eq.symm : b.faultRef = 0 → 0 = b.faultRef)]

theorem refPoison_onlyChanges (r : Ref) (o n : Nat) (s : State) : OnlyChanges [.groves, .mem] s (refPoison r o n s) := by
  unfold refPoison
  split
  · split
    · exact (onlyChanges_set_mem s _).mono (by simp)
    · exact .refl _ s
  · exact (onlyChanges_set_groves s _).mono (by simp)
  · exact .refl _ s

theorem refPoison_hbm (r : Ref) (o n : Nat) (s : State) : (refPoison r o n s).mem.hbm = s.mem.hbm := by
  unfold refPoison
  split
  · split <;> rfl
  · rfl
  · rfl

theorem loadPut_onlyChanges (w : Work) (i : Nat) (res : Except Status (List Byte)) (s : State) :
    OnlyChanges [.groves, .mem, .waybill] s (loadPut w i res s) := by
  cases res with
  | ok plain => exact (refWrite_keepsChains ..).frame
  | error e => exact OnlyChanges.mono (refPoison_onlyChanges _ _ _ s) (by simp)

theorem loadBlock_goesOn (hm : b.ended + 1 < b.total) (i : Nat) :
    loadBlock w b i res fr s = (loadPut w i res s).setProg w.wid (.fetching (b.loaded res fr)) := by
  cases res <;> simp [loadBlock, loadPut, BlockOp.loaded, not_le.2 hm]

/-- The state with the block of a read at its load's destination, and the load going on. -/
def loadStep (w : Work) (b : BlockOp) (rd : BlockRead) (res : Except Status (List Byte)) (fr : BitVec 16) (s : State) : State :=
  (loadPut w rd.forw.block res (dropRead rd.rid s)).setProg w.wid (.fetching (b.loaded res fr))

theorem loadStep_sleeper (w : Work) (b : BlockOp) (rd : BlockRead) (res : Except Status (List Byte)) (fr : BitVec 16) (s : State) :
    (loadStep w b rd res fr s).sleeper = (dropRead rd.rid s).sleeper :=
  (loadPut_onlyChanges w rd.forw.block res _).sleeper_eq (by simp)

theorem loadStep_readNo (w : Work) (b : BlockOp) (rd : BlockRead) (res : Except Status (List Byte)) (fr : BitVec 16) (s : State) :
    (loadStep w b rd res fr s).readNo rd.rid = none :=
  (readNo_congr (congrArg Sleeper.reads (loadStep_sleeper ..)) _).trans (readNo_dropRead rd.rid s)

theorem loadStep_onlyChanges (w : Work) (b : BlockOp) (rd : BlockRead) (res : Except Status (List Byte)) (fr : BitVec 16) (s : State) :
    OnlyChanges [.work, .groves, .waybill, .mem, .sleeper] s (loadStep w b rd res fr s) := by
  have hput := loadPut_onlyChanges w rd.forw.block res (dropRead rd.rid s)
  exact ((dropRead_onlyChanges _ _).mono (by simp)).trans ((hput.mono (by simp)).trans ((setProg_onlyChanges _ _ _).mono (by simp)))

theorem OnlyReadOf.at_loadStep (h : OnlyReadOf w b rd s) : At w (.fetching (b.loaded res fr)) (loadStep w b rd res fr s) := by
  have hput := loadPut_onlyChanges w rd.forw.block res (dropRead rd.rid s)
  have hitem : s.item w.wid = some w := wid_of_item h.item ▸ h.item
  exact at_setProg ((item_of_work_eq (hput.work_eq (by simp)) w.wid).trans hitem)

theorem OnlyReadOf.readsOf_loadStep (h : OnlyReadOf w b rd s) : readsOf rd.forw (loadStep w b rd res fr s) = [] := by
  have hdropped : readsOf rd.forw (dropRead rd.rid s) = (readsOf rd.forw s).filter (fun r => r.rid != rd.rid) := List.filter_comm ..
  rw [readsOf_congr (congrArg Sleeper.reads (loadStep_sleeper ..)), hdropped, h.only]
  simp

/-- The block of the only read of a load reaches its destination, and the load goes on. -/
theorem OnlyReadOf.endReadOn_eq (h : OnlyReadOf w b rd s) (res : Except Status (List Byte)) (fr : BitVec 16) :
    endReadOn rd res fr s = loadStep w b rd res fr s := by
  have hitem : (dropRead rd.rid s).item rd.forw.wid = some w := h.item
  have hdeliver : deliver rd.forw res fr (dropRead rd.rid s) = loadStep w b rd res fr s := by
    simp only [deliver, hitem, h.fetching, h.opcode, if_true, loadBlock_goesOn h.more, loadStep]
  rw [endReadOn, endRead_of_oldest h.found (oldestRead_of_only h.only), hdeliver, flushReads_of_no_reads h.readsOf_loadStep,
    ← wid_of_item hitem, readOn, h.at_loadStep]

/-! ## Counters -/

theorem countCoded_onlyChanges (n p codec : Nat) (x : Block) (s : State) : OnlyChanges [.sleeper, .ft] s (countCoded n p codec x s) :=
  ((onlyChanges_set_ft s _).mono (by simp)).trans ((onlyChanges_set_sleeper _ _).mono (by simp))

theorem countExpanded_onlyChanges (n p : Nat) (x : Block) (s : State) : OnlyChanges [.sleeper, .ft] s (countExpanded n p x s) :=
  ((onlyChanges_set_ft s _).mono (by simp)).trans ((onlyChanges_set_sleeper _ _).mono (by simp))

theorem countFailed_onlyChanges (p : Nat) (st : Status) (remote : Bool) (loc : Nat) (s : State) :
    OnlyChanges [.sleeper] s (countFailed p st remote loc s) :=
  (onlyChanges_set_sleeper s _).trans (onlyChanges_set_sleeper _ _)

theorem countFailed_reads (p : Nat) (st : Status) (remote : Bool) (loc : Nat) (s : State) :
    (countFailed p st remote loc s).sleeper.reads = s.sleeper.reads := rfl

end

end Sys2Proof.Machine

/-! # Stores and loads of DDR5 places

SUPPORT. A store and a load that start (R451, R471, R473), the chunks and record that a block's write touches (R454 to R458), and a block
that has been coded (R346, R347). -/

namespace Sys2Proof.Machine

section
variable {s t : State} {w : Work} {b : BlockOp} {f g : State → State}

theorem tierRegion_of_block (h : w.opcode = 0x54 ∨ w.opcode = 0x55) : tierRegion w = dat w.body 20 8 := by
  rw [tierRegion, if_pos h]

/-! ## A store starts -/

theorem exec_mtStore (wid : Nat) (s : State) : exec (.mtStore wid) s = execMtStore wid s := rfl

theorem completes_mtStore {P : State → Prop} (hm : MayStart s w 0x54) (hc : storeChecks w s = none) (hcodec : hasCodec w.part s = true)
    (hP : P (s.kept ((s.setProg w.wid (.coding { total := ceilDiv (dat w.body 16 32) 4096 })).modDdr (dat w.body 20 8)
      (fun r => { r with inFlight := r.inFlight + ceilDiv (dat w.body 16 32) 4096 })))) : Completes (.mtStore w.wid) s P := by
  have ⟨_, _, hop, _⟩ := hm
  refine completes_of_start (exec_mtStore w.wid s) hm ?_
  simpa [hc, hcodec, tierRegion_of_block (.inl hop)] using hP

/-! ## A load starts -/

theorem exec_mtLoad (wid : Nat) (s : State) : exec (.mtLoad wid) s = execMtLoad wid s := rfl

/-- The reads of a load, from the state in which it is fetching. -/
def startLoads (w : Work) (s : State) : State :=
  (List.range (dat w.body 28 32)).foldl (fun s i => ddrRead w i (dat w.body 20 8) (dat w.body 24 32 + i) s)
    (s.setProg w.wid (.fetching { total := dat w.body 28 32 }))

theorem completes_mtLoad {P : State → Prop} (hm : MayStart s w 0x55) (hc : loadChecks w s = none) (hcodec : hasCodec w.part s = true)
    (hP : P (s.kept (startLoads w s))) : Completes (.mtLoad w.wid) s P := by
  have ⟨_, _, hop, _⟩ := hm
  refine completes_of_start (exec_mtLoad w.wid s) hm ?_
  simpa [hc, hcodec, tierRegion_of_block (.inr hop), startLoads] using hP

theorem completes_mtLoad_refused {st : Status} {r : Nat} (hm : MayStart s w 0x55) (hc : loadChecks w s = some (st, r)) :
    Completes (.mtLoad w.wid) s (fun t => t = complete w st r s ∧ OnlyChanges [.host, .work, .tt, .ft, .tn, .out] s t) :=
  (completes_of_refused (exec_mtLoad w.wid s) hm (by simp only [hc])).imp
    fun _ ⟨heq, _, hframe⟩ => ⟨heq, hframe⟩

theorem firstFail_cons_eq_none {c : Bool} {r : Status × Nat} {l : List (Bool × (Status × Nat))} :
    firstFail ((c, r) :: l) = none ↔ c = false ∧ firstFail l = none := by
  cases c <;> simp [firstFail]

/-- The places of a load that passes its checks may be read (R451). -/
theorem mayRead_of_loadChecks (hop : w.opcode = 0x55) (hc : loadChecks w s = none) {i : Nat} (hi : i < dat w.body 28 32) :
    mayRead (dat w.body 20 8) (dat w.body 24 32 + i) w.tenant s = true := by
  simp only [loadChecks, firstFail_cons_eq_none, tierForeign, tierRegion_of_block (.inr hop)] at hc
  obtain ⟨hforeign, -, hsealed, hplaces, -⟩ := hc
  have hst : (s.ddrRegion (dat w.body 20 8)).st = .sealed := by simpa using hsealed
  have htenant : (s.ddrRegion (dat w.body 20 8)).tenant = w.tenant := by
    simp only [hst, Bool.or_eq_false_iff] at hforeign
    simpa using hforeign.1
  have hroom : dat w.body 24 32 + dat w.body 28 32 ≤ blockPlaces (s.ddrRegion (dat w.body 20 8)) := by
    simp only [Bool.or_eq_false_iff, decide_eq_false_iff_not, not_lt] at hplaces
    exact hplaces.2
  simp only [mayRead, hst, htenant, beq_self_eq_true, Bool.and_self, Bool.true_and, decide_eq_true_eq]
  omega

theorem ddrRead_inFlight {id q : Nat} (hq : mayRead id q w.tenant s = true) (i : Nat) :
    ((ddrRead w i id q s).ddrRegion id).inFlight = (s.ddrRegion id).inFlight + 1 := by
  rw [ddrRead, if_pos hq]
  exact congrArg DdrRegion.inFlight (State.ddrRegion_modDdr_same s id _)

theorem ddrReads_inFlight {id q : Nat} {l : List Nat} (hq : ∀ i ∈ l, mayRead id (q + i) w.tenant s = true) :
    ((l.foldl (fun s i => ddrRead w i id (q + i) s) s).ddrRegion id).inFlight = (s.ddrRegion id).inFlight + l.length := by
  induction l generalizing s with
  | nil => rfl
  | cons i l ih =>
    obtain ⟨-, -, hsame⟩ := ddrRead_of_allowed (hq i (by simp)) i
    rw [List.foldl_cons, ih fun k hk => (hsame _).trans (hq k (by simp [hk])), ddrRead_inFlight (hq i (by simp)), List.length_cons]
    omega

/-- A load that passes its checks reads every place it asks for. -/
theorem startLoads_spec (hi : s.item w.wid = some w) (hop : w.opcode = 0x55) (hc : loadChecks w s = none) :
    At w (.fetching { total := dat w.body 28 32 }) (startLoads w s) ∧
    (startLoads w s).sleeper.reads.length = s.sleeper.reads.length + dat w.body 28 32 ∧
    ((startLoads w s).ddrRegion (dat w.body 20 8)).inFlight = (s.ddrRegion (dat w.body 20 8)).inFlight + dat w.body 28 32 ∧
    OnlyChanges [.work, .ddr, .sleeper] s (startLoads w s) := by
  have hmay : ∀ i ∈ List.range (dat w.body 28 32), mayRead (dat w.body 20 8) (dat w.body 24 32 + i) w.tenant
      (s.setProg w.wid (.fetching { total := dat w.body 28 32 })) = true :=
    fun i hi => mayRead_of_loadChecks hop hc (List.mem_range.1 hi)
  obtain ⟨hframe, hlength⟩ := ddrReads_of_allowed (base := 0) hmay
  have hinFlight := ddrReads_inFlight hmay
  simp only [Nat.zero_add, List.length_range] at hframe hlength hinFlight
  refine ⟨(item_of_work_eq (hframe.work_eq (by simp)) w.wid).trans (at_setProg hi), hlength, hinFlight, ?_⟩
  exact ((setProg_onlyChanges s _ _).mono (by simp)).trans (hframe.mono (by simp))

/-! ## Writes to DDR5 -/

/-- A step that writes chunks of the DDR5 tier: it leaves the regions, and what it writes depends on the tier alone. -/
structure WritesChunks (f : State → State) : Prop where
  frame   : ∀ s, OnlyChanges [.ddr] s (f s)
  regions : ∀ s, (f s).ddr.regions = s.ddr.regions
  congr   : ∀ s t, t.ddr = s.ddr → (f t).ddr = (f s).ddr

theorem WritesChunks.comp (hg : WritesChunks g) (hf : WritesChunks f) : WritesChunks (fun s => g (f s)) where
  frame s := (hf.frame s).trans (hg.frame _)
  regions s := (hg.regions _).trans (hf.regions s)
  congr s t h := hg.congr _ _ (hf.congr s t h)

theorem WritesChunks.foldl {α : Type} {f : State → α → State} (hf : ∀ a, WritesChunks (fun s => f s a)) (l : List α) :
    WritesChunks (fun s => l.foldl f s) := by
  induction l with
  | nil => exact ⟨.refl _, fun _ => rfl, fun _ _ h => h⟩
  | cons a l ih => exact ih.comp (hf a)

theorem ddrRegion_of_ddr_eq (h : t.ddr = s.ddr) (id : Nat) : t.ddrRegion id = s.ddrRegion id := by
  rw [State.ddrRegion, h, State.ddrRegion]

theorem WritesChunks.ddrRegion (hf : WritesChunks f) (s : State) (id : Nat) : (f s).ddrRegion id = s.ddrRegion id := by
  rw [State.ddrRegion, hf.regions, State.ddrRegion]

theorem writeChunk_writesChunks (id n : Nat) (bs : List Byte) : WritesChunks (writeChunk id n bs) where
  frame s := onlyChanges_set_ddr s _
  regions _ := rfl
  congr s t h := by simp only [writeChunk, ddrRegion_of_ddr_eq h, h]

theorem writeRecord_writesChunks (id q : Nat) (r : BitVec 128) : WritesChunks (writeRecord id q r) where
  frame s := by
    simp only [writeRecord]
    split
    · exact (writeChunk_writesChunks ..).frame s
    · exact .refl _ s
  regions s := by
    simp only [writeRecord]
    split <;> rfl
  congr s t h := by
    simp only [writeRecord, ddrRegion_of_ddr_eq h, h]
    split
    · exact (writeChunk_writesChunks ..).congr s t h
    · exact h

/-- The chunks of a block's stored bytes, before its record (R456). -/
def writeStored (id g : Nat) (bs : List Byte) (s : State) : State :=
  (chunkLens bs.length).foldl (fun s x => writeChunk id (g + x.1) ((bs.drop (512 * x.1)).take x.2) s) s

theorem writeStored_writesChunks (id g : Nat) (bs : List Byte) : WritesChunks (writeStored id g bs) :=
  .foldl (fun _ => writeChunk_writesChunks ..) _

theorem writePlace_eq (id q : Nat) (x : Block) (s : State) :
    writePlace id q x s = writeRecord id q x.record (writeStored id (8 * tierPlace (s.ddrRegion id) q) x.stored s) := rfl

theorem writePlace_writesChunks (id q : Nat) (x : Block) : WritesChunks (writePlace id q x) where
  frame s := ((writeRecord_writesChunks id q x.record).comp (writeStored_writesChunks ..)).frame s
  regions s := ((writeRecord_writesChunks id q x.record).comp (writeStored_writesChunks ..)).regions s
  congr s t h := by
    rw [writePlace_eq, writePlace_eq, ddrRegion_of_ddr_eq h]
    exact ((writeRecord_writesChunks id q x.record).comp (writeStored_writesChunks ..)).congr s t h

/-! ## A block of a store is coded -/

theorem exec_blockCodingComplete (wid i : Nat) (stream : List Byte) (s : State) :
    exec (.blockCodingComplete wid i stream) s = execBlockCodingComplete wid i stream s := rfl

/-- The block a store writes for a plaintext, under the key index of its region and the tweak drawn for it (R346). -/
def storeBlock (w : Work) (plain stream : List Byte) (s : State) : Block :=
  codeBlock (codecOf w s) (s.ddrRegion (dat w.body 20 8)).keyIdx.toNat (Config.random s.free) (sleeperKey s w.tenant false) plain stream

/-- The state with a store's block no longer in flight. -/
def blockLanded (w : Work) (i : Nat) (s : State) : State :=
  dropBuf { wid := w.wid, block := i } (s.modDdr (dat w.body 20 8) (fun r => { r with inFlight := r.inFlight - 1 }))

/-- The state with a store's block counted, its tweak drawn, and the block at its place. -/
def blockStored (w : Work) (i : Nat) (x : Block) (s : State) : State :=
  blockLanded w i (writePlace (dat w.body 20 8) (dat w.body 24 32 + i) x (countCoded w.tenant w.part (codecOf w s) x s.fresh))

/-- A store after one more block. -/
def BlockOp.coded (i : Nat) (x : Block) (b : BlockOp) : BlockOp :=
  { b with ended := b.ended + 1, stored64 := b.stored64 + recStored x.record / 64, endedIdx := b.endedIdx ++ [i] }

theorem codingDone_goesOn {i : Nat} {plain stream : List Byte} (hop : w.opcode = 0x54) (hlt : i < b.total) (hnew : i ∉ b.endedIdx)
    (howed : placeOwed w i s = false) (hmore : b.ended + 1 < b.total) (hplain : codePlain w i s = some (some plain))
    (hfits : needsStream (codecOf w s) plain = true → streamFits (codecOf w s) plain stream = true) : codingDone w b i stream s =
      (blockStored w i (storeBlock w plain stream s) s).setProg w.wid (.coding (b.coded i (storeBlock w plain stream s))) := by
  have hlocal : codesRemote w = false := by simp [codesRemote, hop]
  have hdest : codeDest w i = (dat w.body 20 8, dat w.body 24 32 + i) := by simp [codeDest, hop, tierRegion_of_block (.inl hop)]
  have hseen : b.endedIdx.any (· == i) = false := List.any_eq_false.2 fun x hx hxi => hnew (beq_iff_eq.1 hxi ▸ hx)
  have hstream : ¬ (needsStream (codecOf w s) plain && !streamFits (codecOf w s) plain stream) = true := by
    simpa using hfits
  simp only [codingDone, hlt, hseen, howed, hplain, Bool.not_false, and_self, if_true, if_neg hstream]
  simp [hmore.ne, writeCoded, hlocal, hdest, blockStored, blockLanded, storeBlock, BlockOp.coded]

theorem completes_blockCodingComplete {i : Nat} {stream : List Byte} {P : State → Prop} (hi : s.item w.wid = some w)
    (ha : s.awake = true) (hctx : (s.ctx w.context).st ≠ .saved) (hp : w.prog = .coding b) (hP : P (s.kept (codingDone w b i stream s))) :
    Completes (.blockCodingComplete w.wid i stream) s P := by
  refine completes_of_resume (exec_blockCodingComplete w.wid i stream s) hi ha (a := b) (by rw [hp]) ?_
  simpa only [if_neg hctx] using hP

theorem blockLanded_chunks (w : Work) (i : Nat) (s : State) : (blockLanded w i s).ddr.chunks = s.ddr.chunks := rfl

theorem blockLanded_region (w : Work) (i : Nat) (s : State) : (blockLanded w i s).ddrRegion (dat w.body 20 8) =
    { s.ddrRegion (dat w.body 20 8) with inFlight := (s.ddrRegion (dat w.body 20 8)).inFlight - 1 } :=
  State.ddrRegion_modDdr_same s (dat w.body 20 8) _

theorem blockLanded_onlyChanges (w : Work) (i : Nat) (s : State) : OnlyChanges [.sleeper, .ddr] s (blockLanded w i s) :=
  ((modDdr_onlyChanges s _ _).mono (by simp)).trans ((dropBuf_onlyChanges _ _).mono (by simp))

/-- A store's block is written as it would be before it was counted: neither the counters nor the draw of the tweak bear on it. -/
theorem blockStored_spec (w : Work) (i : Nat) (x : Block) (s : State) :
    (blockStored w i x s).ddr.chunks = (writePlace (dat w.body 20 8) (dat w.body 24 32 + i) x s).ddr.chunks ∧
    (blockStored w i x s).ddrRegion (dat w.body 20 8) =
      { s.ddrRegion (dat w.body 20 8) with inFlight := (s.ddrRegion (dat w.body 20 8)).inFlight - 1 } ∧
    OnlyChanges [.sleeper, .ddr, .ft, .free] s (blockStored w i x s) := by
  have hwrite := writePlace_writesChunks (dat w.body 20 8) (dat w.body 24 32 + i) x
  have hcount : OnlyChanges [.sleeper, .ft, .free] s (countCoded w.tenant w.part (codecOf w s) x s.fresh) :=
    ((onlyChanges_set_free s _).mono (by simp)).trans ((countCoded_onlyChanges _ _ _ _ _).mono (by simp))
  have hddr := hcount.ddr_eq (by simp)
  rw [blockStored, blockLanded_chunks, blockLanded_region, hwrite.ddrRegion, hwrite.congr _ _ hddr, ddrRegion_of_ddr_eq hddr]
  exact ⟨rfl, rfl, (hcount.mono (by simp)).trans (((hwrite.frame _).mono (by simp)).trans ((blockLanded_onlyChanges w i _).mono (by simp)))⟩

end

end Sys2Proof.Machine

/-! # Reads that return and blocks that are expanded

SUPPORT. A DDR5 read whose channel serves it now, when its check bits pass and when they do not (R455, R457, R479), and a block at the
front of its expand queue (R349 to R354, R360). -/

namespace Sys2Proof.Machine

section
variable {s t : State} {w : Work} {b : BlockOp} {rd : BlockRead} {obs : DdrObs} {x : Block}

/-! ## A DDR5 read returns -/

theorem exec_ddr5ReadReturn (rid : Nat) (obs : DdrObs) (s : State) : exec (.ddr5ReadReturn rid obs) s = execDdr5ReadReturn rid obs s := rfl

/-- A DDR5 read that has not returned is served now, and nothing inverts the outcome of its checks. -/
structure Served (rd : BlockRead) (s : State) : Prop where
  awake   : s.awake = true
  found   : s.readNo rd.rid = some rd
  ddr     : rd.remote = false
  waiting : rd.arrived = none
  opened  : rd.ended = none
  now     : servedNow s rd = true
  unarmed : s.ft.inject.arm = false

/-- The channel of a read. -/
def readChannel (rd : BlockRead) (s : State) : Nat := placeChannel s (tierPlace (s.ddrRegion rd.region) rd.place)

/-- The state with a read's corrected lines counted and its place no longer in flight. -/
def lineReturned (rd : BlockRead) (obs : DdrObs) (s : State) : State :=
  { s with
    ddr := { s.ddr with ce := s.ddr.ce + obs.corrected }
    ft := { s.ft with corrected := tmod s.ft.corrected 4 0 (· + obs.corrected) } }.modDdr rd.region
      (fun r => { r with inFlight := r.inFlight - 1 })

theorem lineReturned_onlyChanges (rd : BlockRead) (obs : DdrObs) (s : State) : OnlyChanges [.ddr, .ft] s (lineReturned rd obs s) := by
  have hddr : OnlyChanges [.ddr, .ft] s { s with ddr := { s.ddr with ce := s.ddr.ce + obs.corrected } } :=
    (onlyChanges_set_ddr s _).mono (by simp)
  exact hddr.trans (((onlyChanges_set_ft _ _).mono (by simp)).trans ((modDdr_onlyChanges _ _ _).mono (by simp)))

theorem injectTwice_of_unarmed (c d : Nat) (hi : s.ft.inject.arm = false) : injectTwice c d s = (false, s) := by
  simp only [injectTwice, injectHit_of_unarmed c d hi, Bool.false_eq_true, if_false]

/-- What a served read leaves, by the outcome of its check bits. -/
def returnedRead (rd : BlockRead) (obs : DdrObs) (s : State) : State :=
  match placeCheck s rd.region rd.place obs with
  | .ok x => arrive rd x (channelStation (readChannel rd s)) (lineReturned rd obs s)
  | .error e =>
    let f := ddrFault rd e (readChannel rd s) false (lineReturned rd obs s)
    endReadOn rd (.error e.1) f.2 f.1

theorem Served.completes (h : Served rd s) {P : State → Prop} (hP : P (s.kept (returnedRead rd obs s))) :
    Completes (.ddr5ReadReturn rd.rid obs) s P := by
  have hline := injectTwice_of_unarmed (s := lineReturned rd obs s) 0x06 (readChannel rd s) h.unarmed
  have hmac := injectTwice_of_unarmed (s := lineReturned rd obs s) 0x07 (readChannel rd s) h.unarmed
  unfold lineReturned readChannel at hline hmac
  refine completes_of_awake (exec_ddr5ReadReturn rd.rid obs s) h.awake ?_
  simp only [h.found, h.ddr, h.waiting, h.opened, h.now, Option.isSome_none, Bool.not_true, Bool.false_eq_true, or_self, if_false, hline, hmac,
    injectedCheck, Bool.or_self]
  exact hP

theorem exec_ddr5ReadReturn_of_not_served (hr : s.readNo rd.rid = some rd) (hn : servedNow s rd = false) (obs : DdrObs) :
    exec (.ddr5ReadReturn rd.rid obs) s = .next (if s.live && s.awake then s.kept s else s) := by
  rw [exec_ddr5ReadReturn, execDdr5ReadReturn, actIf]
  simp only [hr, hn, Bool.not_false, or_true, if_true]

/-! ## Check 1 fails on uncorrectable lines -/

/-- The state with lines that stayed uncorrectable counted. -/
def lineLost (rd : BlockRead) (n : Nat) (s : State) : State :=
  countFailed rd.part .poisonConsumed false (placeLoc rd.region rd.place) { s with ddr := { s.ddr with ue := s.ddr.ue + n } }

theorem lineLost_onlyChanges (rd : BlockRead) (n : Nat) (s : State) : OnlyChanges [.ddr, .sleeper] s (lineLost rd n s) :=
  ((onlyChanges_set_ddr s _).mono (by simp)).trans ((countFailed_onlyChanges _ _ _ _ _).mono (by simp))

theorem ddrFault_of_gone {n : Nat} (hg : s.item rd.forw.wid = none) (c : Nat) :
    ddrFault rd (.poisonConsumed, n) c false s = (lineLost rd n s, 0) := by
  simp only [ddrFault, hg, countDdrFail, if_true, lineLost]

theorem returnedRead_of_uncorrectable {n : Nat} (hc : placeCheck s rd.region rd.place obs = .error (.poisonConsumed, n))
    (hg : s.item rd.forw.wid = none) :
    returnedRead rd obs s = endReadOn rd (.error .poisonConsumed) 0 (lineLost rd n (lineReturned rd obs s)) := by
  have hgone := (item_of_work_eq ((lineReturned_onlyChanges rd obs s).work_eq (by simp)) rd.forw.wid).trans hg
  have hfault := ddrFault_of_gone (n := n) hgone (readChannel rd s)
  simp only [returnedRead, hc, hfault]

/-- Such a read of a descriptor that has left is dropped and counted. -/
theorem returnedRead_of_uncorrectable_spec {n : Nat} (hc : placeCheck s rd.region rd.place obs = .error (.poisonConsumed, n))
    (hr : s.readNo rd.rid = some rd) (ho : oldestRead rd.forw s = some rd) (hg : s.item rd.forw.wid = none) :
    (returnedRead rd obs s).readNo rd.rid = none ∧ (returnedRead rd obs s).ddr.ue = s.ddr.ue + n ∧
    (returnedRead rd obs s).ddr.macFail = s.ddr.macFail ∧ OnlyChanges [.sleeper, .ddr, .ft] s (returnedRead rd obs s) := by
  have hlost : OnlyChanges [.ddr, .ft, .sleeper] s (lineLost rd n (lineReturned rd obs s)) :=
    ((lineReturned_onlyChanges rd obs s).mono (by simp)).trans ((lineLost_onlyChanges rd n _).mono (by simp))
  have hreads : (lineLost rd n (lineReturned rd obs s)).sleeper.reads = s.sleeper.reads := countFailed_reads ..
  obtain ⟨hframe, hdropped⟩ := endReadOn_of_gone (res := .error .poisonConsumed) (fr := 0) ((readNo_congr hreads _).trans hr)
    ((oldestRead_congr hreads _).trans ho) ((item_of_work_eq (hlost.work_eq (by simp)) _).trans hg)
  have hddr := hframe.ddr_eq (by simp)
  rw [returnedRead_of_uncorrectable hc hg]
  exact ⟨hdropped, (congrArg Ddr.ue hddr).trans rfl, (congrArg Ddr.macFail hddr).trans rfl,
    (hlost.mono (by simp)).trans (hframe.mono (by simp))⟩

/-! ## A block is expanded -/

theorem exec_blockExpand (rid : Nat) (s : State) : exec (.blockExpand rid) s = execBlockExpand rid s := rfl

/-- A block of a descriptor in flight stands at the front of its partition's queue, a CODEC Stand is there, and nothing inverts the outcome
of its checks. -/
structure AtFront (rd : BlockRead) (x : Block) (s : State) : Prop where
  awake   : s.awake = true
  found   : s.readNo rd.rid = some rd
  arrived : rd.arrived = some x
  item    : (s.item rd.forw.wid).isSome = true
  next    : nextExpand rd.part s = some rd
  codec   : hasCodec rd.part s = true
  unarmed : s.ft.inject.arm = false

/-- Checks 2 to 9 of the block of a read (R349). -/
def readCheck (rd : BlockRead) (x : Block) (s : State) : Except Status (List Byte) :=
  checkBlock (s.keyInForce rd.tenant rd.remote) (sleeperKey s rd.tenant rd.remote) false x

/-- The place of a read in the form of SL_LAST_ERR (R364). -/
def readLoc (rd : BlockRead) : Nat := if rd.remote then rd.place else placeLoc rd.region rd.place

theorem AtFront.completes_expanded (h : AtFront rd x s) {plain : List Byte} (hc : readCheck rd x s = .ok plain) {P : State → Prop}
    (hP : P (s.kept (endReadOn rd (.ok plain) 0 (countExpanded rd.tenant rd.part x s)))) : Completes (.blockExpand rd.rid) s P := by
  obtain ⟨w, hw⟩ := Option.isSome_iff_exists.1 h.item
  unfold readCheck at hc
  refine completes_of_awake (exec_blockExpand rd.rid s) h.awake ?_
  simpa [h.found, h.arrived, hw, h.next, h.codec, injectHit_of_unarmed _ _ h.unarmed, hc] using hP

theorem AtFront.completes_poisoned (h : AtFront rd x s) (hc : readCheck rd x s = .error .poisonConsumed) {P : State → Prop}
    (hP : P (s.kept (endReadOn rd (.error .poisonConsumed) 0 (countFailed rd.part .poisonConsumed rd.remote (readLoc rd) s)))) :
    Completes (.blockExpand rd.rid) s P := by
  obtain ⟨w, hw⟩ := Option.isSome_iff_exists.1 h.item
  unfold readCheck at hc
  refine completes_of_awake (exec_blockExpand rd.rid s) h.awake ?_
  simpa [h.found, h.arrived, hw, h.next, h.codec, injectHit_of_unarmed _ _ h.unarmed, hc, readLoc] using hP

theorem refWrite_mem_congr (hm : t.mem = s.mem) (hi : t.img = s.img) (r : Ref) (o : Nat) (bs : List Byte) :
    (refWrite r o bs t).mem = (refWrite r o bs s).mem := by
  cases r with
  | hbm id off =>
    have hregion : t.region id = s.region id := by rw [State.region, hi, State.region]
    simp only [refWrite, hregion]
    split
    · simp only [regionWrite, hm]
    · exact hm
  | canopy g k off => exact hm
  | none => exact hm
  | reserved => exact hm

end

end Sys2Proof.Machine

/-! # The obligation on blocks of the DDR5 tier -/

namespace Sys2Proof.Machine

/-- Settles O34: stores and loads start by their checks, a coded block is written as its region's key and tweak give it, a read returns by
the outcome of its check bits, and the block at the front of its queue reaches its load as it ends. -/
theorem tierBlocks : Obligations.TierBlocks := by
  unfold Obligations.TierBlocks
  refine ⟨fun s w hm hc hcodec => ?stores, fun s w hm hc hcodec => ?loads, fun s w st r hm hc => completes_mtLoad_refused hm hc,
    fun s w b i plain stream hi ha hctx hop hp hlt hnew howed hmore hacks hplain hfits => ?coded,
    fun s rd obs x ha hr hremote harrived hended hnow hunarmed hc => ?arrives,
    fun s rd obs n ha hr hremote harrived hended hnow hunarmed hc ho hg => ?uncorrectable,
    fun s rd obs hn hr => ?unserved,
    fun s rd w x b plain ha hr harrived hended honly hi hop hp hmore hnext hcodec hunarmed hc => ?expanded,
    fun s rd w x b ha hr harrived hended honly hi hop hp hmore hnext hcodec hunarmed hc => ?poisoned⟩
  case stores =>
    refine completes_mtStore hm hc hcodec ⟨at_setProg hm.1, State.ddrRegion_modDdr_same .., OnlyChanges.kept ?_⟩
    exact ((setProg_onlyChanges s _ _).mono (by simp)).trans ((modDdr_onlyChanges _ _ _).mono (by simp))
  case loads =>
    have ⟨hitem, _, hop, _⟩ := hm
    obtain ⟨hat, hreads, hinFlight, hframe⟩ := startLoads_spec hitem hop hc
    exact completes_mtLoad hm hc hcodec ⟨hat, hreads, hinFlight, hframe.kept⟩
  case coded =>
    obtain ⟨hchunks, hregion, hframe⟩ := blockStored_spec w i (storeBlock w plain stream s) s
    have hitem := (item_of_work_eq (hframe.work_eq (by simp)) w.wid).trans hi
    refine completes_blockCodingComplete hi ha hctx hp ?_
    rw [codingDone_goesOn hop hlt hnew howed hmore hplain hfits]
    exact ⟨hchunks, hregion, ⟨_, _, at_setProg hitem, rfl, rfl, rfl, rfl⟩,
      ((hframe.mono (by simp)).trans ((setProg_onlyChanges _ _ _).mono (by simp))).kept⟩
  case arrives =>
    refine Served.completes ⟨ha, hr, hremote, harrived, hended, hnow, hunarmed⟩ ?_
    simp only [returnedRead, hc]
    exact ⟨rfl, rfl, congrArg DdrRegion.inFlight (State.ddrRegion_modDdr_same ..),
      (((lineReturned_onlyChanges rd obs s).mono (by simp)).trans ((onlyChanges_set_sleeper _ _).mono (by simp))).kept⟩
  case uncorrectable =>
    obtain ⟨hdropped, hue, hmac, hframe⟩ := returnedRead_of_uncorrectable_spec hc hr ho hg
    exact Served.completes ⟨ha, hr, hremote, harrived, hended, hnow, hunarmed⟩ ⟨hdropped, hue, hmac, hframe.kept⟩
  case unserved =>
    refine ⟨_, exec_ddr5ReadReturn_of_not_served hr hn obs, ?_⟩
    split
    · exact OnlyChanges.kept (.refl _ s)
    · exact .refl _ s
  case expanded =>
    have hcount := countExpanded_onlyChanges rd.tenant rd.part x s
    have hback := hcount.trans ((dropRead_onlyChanges rd.rid _).mono (by simp))
    have hread : OnlyReadOf w b rd (countExpanded rd.tenant rd.part x s) :=
      OnlyReadOf.congr ⟨hr, honly, hi, hop, hp, hmore⟩ rfl rfl
    have hat := hread.at_loadStep (res := .ok plain) (fr := 0)
    rw [BlockOp.loaded_ok] at hat
    refine AtFront.completes_expanded ⟨ha, hr, harrived, by rw [hi]; rfl, hnext, hcodec, hunarmed⟩ hc ?_
    rw [hread.endReadOn_eq]
    exact ⟨hat, refWrite_mem_congr (hback.mem_eq (by simp)) (hback.img_eq (by simp)) _ _ _, loadStep_readNo w b rd _ 0 _,
      ((hcount.mono (by simp)).trans ((loadStep_onlyChanges w b rd _ 0 _).mono (by simp))).kept⟩
  case poisoned =>
    have hread : OnlyReadOf w b rd (countFailed rd.part .poisonConsumed rd.remote (readLoc rd) s) :=
      OnlyReadOf.congr ⟨hr, honly, hi, hop, hp, hmore⟩ rfl rfl
    refine AtFront.completes_poisoned ⟨ha, hr, harrived, by rw [hi]; rfl, hnext, hcodec, hunarmed⟩ hc ?_
    rw [hread.endReadOn_eq]
    exact ⟨⟨_, _, hread.at_loadStep, rfl, rfl, rfl, rfl⟩, refPoison_hbm .., loadStep_readNo w b rd _ 0 _⟩

end Sys2Proof.Machine

/-! # Entries of the Timetable as a transition leaves them

SUPPORT. What a transition makes of its own entry, which parts it may change, and that it leaves every other entry as it was: one fact
for each shared transition, and their composition (R367, R374, R382, R391, R599, R613). -/

namespace Sys2Proof.Machine

section
variable {s t u : State} {i k : Nat} {f g : Entry → Entry} {ps qs : List Zone}

/-! ## A change of one entry -/

theorem State.entry_modEntry_other (h : k ≠ i) : (s.modEntry i f).entry k = s.entry k := tget_tmod_other _ _ _ _ _ h

theorem OnlyChanges.entry_eq (h : OnlyChanges ps s t) (hp : .tt ∉ ps) (k : Nat) : t.entry k = s.entry k := by
  rw [State.entry, h.tt_eq hp, State.entry]

theorem OnlyChanges.ho_eq (h : OnlyChanges ps s t) (hp : .ho ∉ ps) : t.ho = s.ho := of_decide_eq_true (h .ho hp)

/-- Of the entries only `i` has changed, as `f` says, and beside the Timetable only the parts named. -/
structure ChangesEntry (ps : List Zone) (i : Nat) (f : Entry → Entry) (s t : State) : Prop where
  frame  : OnlyChanges ps s t
  own    : t.entry i = f (s.entry i)
  others : ∀ k, k ≠ i → t.entry k = s.entry k

theorem ChangesEntry.mono (h : ChangesEntry ps i f s t) (hs : ps ⊆ qs) : ChangesEntry qs i f s t := ⟨h.frame.mono hs, h.own, h.others⟩

theorem ChangesEntry.trans (h : ChangesEntry ps i f s t) (h' : ChangesEntry ps i g t u) : ChangesEntry ps i (fun e => g (f e)) s u :=
  ⟨h.frame.trans h'.frame, h'.own.trans (congrArg g h.own), fun k hk => (h'.others k hk).trans (h.others k hk)⟩

/-- What comes to the same of the entry as it stands may be said instead. -/
theorem ChangesEntry.congr (h : ChangesEntry ps i f s t) (hfg : f (s.entry i) = g (s.entry i)) : ChangesEntry ps i g s t :=
  ⟨h.frame, h.own.trans hfg, h.others⟩

/-- What leaves the Timetable alone leaves every entry. -/
theorem OnlyChanges.changesEntry (h : OnlyChanges ps s t) (hp : .tt ∉ ps) (i : Nat) : ChangesEntry ps i (fun e => e) s t :=
  ⟨h, h.entry_eq hp i, fun k _ => h.entry_eq hp k⟩

/-- Between a transition's start and its end the rest of the state may change. -/
theorem ChangesEntry.then (h : ChangesEntry ps i f s t) (h' : OnlyChanges qs t u) (hp : .tt ∉ qs) (hs : qs ⊆ ps) : ChangesEntry ps i f s u :=
  h.trans ((h'.changesEntry hp i).mono hs)

theorem ChangesEntry.after (h : OnlyChanges qs s t) (hp : .tt ∉ qs) (hs : qs ⊆ ps) (h' : ChangesEntry ps i f t u) : ChangesEntry ps i f s u :=
  ((h.changesEntry hp i).mono hs).trans h'

theorem ChangesEntry.kept (h : ChangesEntry ps i f s t) : ChangesEntry ps i f s (s.kept t) := ⟨h.frame.kept, h.own, h.others⟩

theorem modEntry_changesEntry (i : Nat) (f : Entry → Entry) (s : State) : ChangesEntry [.tt] i f s (s.modEntry i f) :=
  ⟨onlyChanges_set_tt s _, State.entry_modEntry_same .., fun _ => State.entry_modEntry_other⟩

/-- An entry changed by `f`: VERSION goes up by one (R367). -/
def touched (f : Entry → Entry) (e : Entry) : Entry := { f e with version := e.version + 1 }

theorem putEntry_changesEntry (i : Nat) (f : Entry → Entry) (s : State) : ChangesEntry [.tt] i (touched f) s (putEntry i f s) :=
  modEntry_changesEntry ..

/-! ## What an entry gives back -/

/-- The list goes back first, then the entry forgets it. -/
theorem freeEntryList_eq (i : Nat) (s : State) : ∃ u, OnlyChanges [.mem, .waybill, .groves] s u ∧
    freeEntryList i s = u.modEntry i (fun e => { e with list := 0, pages := 0, parcel := [] }) := by
  refine ⟨_, ?_, rfl⟩
  split
  · exact (returnPlaces_onlyChanges _ _ _).mono (by simp)
  · split
    · exact freeList_onlyChanges _ _
    · exact .refl _ s

theorem freeEntryList_changesEntry (i : Nat) (s : State) :
    ChangesEntry pageZones i (fun e => { e with list := 0, pages := 0, parcel := [] }) s (freeEntryList i s) := by
  obtain ⟨u, hu, heq⟩ := freeEntryList_eq i s
  rw [heq]
  exact .after hu (by simp) (by decide) ((modEntry_changesEntry ..).mono (by decide))

theorem returnReserve_changesEntry (i : Nat) (s : State) :
    ChangesEntry [.mem, .tt] i (fun e => { e with resPages := 0 }) s (returnReserve i s) :=
  .after (modPool_onlyChanges _ _ _) (by simp) (by simp) ((modEntry_changesEntry ..).mono (by simp))

/-- The list and the reservation go back together. -/
theorem emptied_changesEntry (i : Nat) (s : State) : ChangesEntry pageZones i emptied s (returnReserve i (freeEntryList i s)) :=
  (freeEntryList_changesEntry i s).trans ((returnReserve_changesEntry i _).mono (by decide))

theorem releaseRcv_changesEntry (i : Nat) (s : State) : ChangesEntry [.mem, .tt] i (fun e => { e with rcv := none }) s (releaseRcv i s) := by
  unfold releaseRcv
  extract_lets e
  split
  next hr => exact ((OnlyChanges.refl _ s).changesEntry (ps := []) (by simp) i |>.mono (by simp)).congr (by rw [← show e.rcv = none from hr])
  next r _ =>
    exact .after (((modPool_onlyChanges _ _ _).mono (by simp)).trans (onlyChanges_set_mem _ _)) (by simp) (by simp)
      ((modEntry_changesEntry ..).mono (by simp))

theorem freeTally_onlyChanges (i : Nat) (s : State) : OnlyChanges [.ho] s (freeTally i s) := by
  unfold freeTally
  dsimp only
  split
  · exact .refl _ s
  · exact onlyChanges_set_ho _ _

theorem toFree_changesEntry (i : Nat) (s : State) : ChangesEntry [.ho, .tt] i (fun e => { version := e.version + 1 }) s (toFree i s) :=
  .after (freeTally_onlyChanges i s) (by simp) (by simp) ((modEntry_changesEntry ..).mono (by simp))

/-! ## What an entry sends -/

/-- A chain message goes out only from an entry that has a previous holder. -/
theorem chainUp_onlyChanges {ct st : Byte} {o : Option W32} (hsend : (s.entry i).fromValid = true → [.rail, .rc, .ft] ⊆ ps) :
    OnlyChanges ps s (chainUp ct st i s o) := by
  cases hv : (s.entry i).fromValid
  case false => rw [chainUp_of_none hv]; exact .refl _ s
  case true =>
    simp only [chainUp, hv, Bool.not_true, Bool.false_eq_true, if_false]
    exact (mgmtSend_onlyChanges _ _ _).mono (hsend hv)

theorem chainUp_tt {ct st : Byte} {o : Option W32} : (chainUp ct st i s o).tt = s.tt :=
  (chainUp_onlyChanges (ps := [.rail, .rc, .ft]) fun _ => by simp).tt_eq (by simp)

theorem chainUp_changesEntry {ct st : Byte} {o : Option W32} (hsend : (s.entry i).fromValid = true → [.rail, .rc, .ft] ⊆ ps) :
    ChangesEntry ps i (fun e => e) s (chainUp ct st i s o) :=
  ⟨chainUp_onlyChanges hsend, by rw [State.entry, chainUp_tt, State.entry], fun k _ => by rw [State.entry, chainUp_tt, State.entry]⟩

/-- An entry without a previous holder. -/
def unlinked (e : Entry) : Entry := { e with fromValid := false }

theorem sendRelease_changesEntry (htt : .tt ∈ ps) (hsend : (s.entry i).fromValid = true → [.rail, .rc, .ft] ⊆ ps) :
    ChangesEntry ps i (touched unlinked) s (sendRelease i s) :=
  (chainUp_changesEntry hsend).trans ((putEntry_changesEntry i unlinked _).mono (by simpa using htt))

theorem cancelDone_onlyChanges (o n : Nat) (st : Byte) (r : W64) (e : W32) (s : State) :
    OnlyChanges [.rail, .rc, .ft] s (cancelDone o n st r e s) := mgmtSend_onlyChanges _ _ _

theorem forwardFor_onlyChanges (i o n : Nat) (s : State) : OnlyChanges [.rail, .rc, .ft] s (forwardFor i o n s) := mgmtSend_onlyChanges _ _ _

/-! ## CANCELLED and LOST -/

/-- An entry whose request a cancel ends (R382, R413). -/
def endedBy (cause : Byte) (e : Entry) : Entry := { dropWithheld e with st := .cancelled, cause, cancelPend := false, held := false }

/-- An entry once it is CANCELLED: VERSION has risen for the state and for the RELEASE (R367, R382). -/
def cancelledEntry (cause : Byte) (e : Entry) : Entry := touched unlinked (touched (endedBy cause) (emptied e))

/-- A cancelled entry changes no connection unless it has a previous holder to release. -/
theorem toCancelled_changesEntry {cause : Byte} (hps : [.host, .groves, .waybill, .mem, .tt, .out] ⊆ ps)
    (hsend : (s.entry i).fromValid = true → [.rail, .rc, .ft] ⊆ ps) : ChangesEntry ps i (cancelledEntry cause) s (toCancelled i cause s) := by
  have hput := (emptied_changesEntry i s).trans ((putEntry_changesEntry i (endedBy cause) _).mono (by decide))
  have hpages : pageZones ⊆ ps := fun z hz => hps (by revert z; decide)
  have hrelease := (hput.mono hpages).trans (sendRelease_changesEntry (hps (by simp)) (fun hv => hsend (by rw [hput.own] at hv; exact hv)))
  exact hrelease.then (ttEvent_onlyChanges 0x0103 i _) (by simp) (fun z hz => hps (by revert z; decide))

/-- The parts that a transition with its chain message may change. -/
def endingZones : List Zone := [.host, .groves, .waybill, .mem, .tt, .out, .rail, .rc, .ft]

theorem toCancelled_changes (i : Nat) (cause : Byte) (s : State) : ChangesEntry endingZones i (cancelledEntry cause) s (toCancelled i cause s) :=
  toCancelled_changesEntry (by decide) (fun _ => by decide)

/-- An entry that is no detached STUB stays LOST. -/
theorem toLost_changes {cause : Byte} {o : Option W32} (hd : detached i s = false) : ChangesEntry endingZones i
    (fun e => touched (lostEntry cause) (emptied { e with rcv := none })) s (toLost i cause s o) := by
  have hput := ((releaseRcv_changesEntry i s).mono (by decide)).trans ((emptied_changesEntry i _).mono (by decide)) |>.trans
    ((putEntry_changesEntry i (lostEntry cause) _).mono (qs := endingZones) (by decide))
  have hsent := hput.trans (chainUp_changesEntry (ct := 0x11) (st := cause) (o := o) (fun _ => by decide))
  simp only [toLost, hd, Bool.false_eq_true, if_false]
  exact hsent.then (ttEvent_onlyChanges _ _ _) (by simp) (by decide)

/-! ## Cancels of other nodes, and operations that find no state to act on -/

/-- A CANCEL that applies changes its own entry and no other (R388, R613). -/
theorem applyAsker_changes (i : Nat) (a : Nat × Nat) (s : State) : ∃ f, ChangesEntry endingZones i f s (applyAsker i a s) := by
  unfold applyAsker
  extract_lets e
  split
  · exact ⟨_, (toCancelled_changes i 0x51 s).then (cancelDone_onlyChanges _ _ _ _ _ _) (by simp) (by decide)⟩
  · split
    · exact ⟨_, .after (forwardFor_onlyChanges _ _ _ _) (by simp) (by decide) ((modEntry_changesEntry ..).mono (by decide))⟩
    · exact ⟨_, ((cancelDone_onlyChanges _ _ _ _ _ _).changesEntry (by simp) i).mono (by decide)⟩

theorem applyAskers_onlyChanges (i : Nat) (s : State) : OnlyChanges endingZones s (applyAskers i s) := by
  refine .trans ((modEntry_changesEntry i _ s).frame.mono (by decide)) (onlyChanges_foldl (fun u a => ?_) _ _)
  obtain ⟨f, hf⟩ := applyAsker_changes i a u
  exact hf.frame

theorem failWaiting_onlyChanges (i : Nat) (s : State) : OnlyChanges (.work :: .tn :: endingZones) s (failWaiting i s) :=
  .trans (onlyChanges_foldl (fun u w => (complete_onlyChanges w .malformed 0x04 u 0).mono (by decide)) _ s)
    ((applyAskers_onlyChanges i _).mono (by simp))

theorem toFree_abandoned (i : Nat) (s : State) : (toFree i s).ho.abandoned = s.ho.abandoned := by
  rw [toFree, State.modEntry_ho, freeTally]
  dsimp only
  split <;> rfl

/-- An entry that is abandoned is FREE, and counted (R599, R600). -/
theorem abandon_spec (i : Nat) (s : State) : ((abandon i s).entry i).st = .free ∧ (abandon i s).ho.abandoned = s.ho.abandoned + 1 := by
  have hwait := (((releaseRcv_changesEntry i s).frame.mono (by decide)).trans
    ((emptied_changesEntry i _).frame.mono (by decide))).trans (failWaiting_onlyChanges i _)
  have hho : (failWaiting i (returnReserve i (freeEntryList i (releaseRcv i s)))).ho = s.ho := hwait.ho_eq (by decide)
  unfold abandon
  generalize failWaiting i (returnReserve i (freeEntryList i (releaseRcv i s))) = u at hho
  exact ⟨congrArg Entry.st (toFree_changesEntry i u).own, congrArg (· + 1) ((toFree_abandoned i u).trans (congrArg Handoff.abandoned hho))⟩

end

end Sys2Proof.Machine

/-! # Placement

SUPPORT. A list created from a reservation, the entry a placement takes, and what a refusal counts (R288, R371, R372, R377 to R380, R420). -/

namespace Sys2Proof.Machine

section
variable {s t : State} {w : Work} {b : EntryBlock} {g : Region}

/-! ## Pages and tallies -/

theorem refWrite_onlyChanges (r : Ref) (o : Nat) (bs : List Byte) (s : State) : OnlyChanges [.groves, .mem, .waybill] s (refWrite r o bs s) :=
  (refWrite_keepsChains r o bs s).frame

/-- A write of bytes takes and returns no page. -/
theorem pool_refWrite (r : Ref) (o : Nat) (bs : List Byte) (s : State) (k : Nat) : (refWrite r o bs s).pool k = s.pool k := by
  unfold refWrite
  split
  · split
    · exact pool_regionWrite ..
    · rfl
  · rfl
  · rfl

theorem tallyInit_onlyChanges (r : Ref) (x y : List Byte) (s : State) : OnlyChanges [.groves, .mem, .waybill] s (tallyInit r x y s) :=
  ((refWrite_onlyChanges _ _ _ _).trans (refWrite_onlyChanges _ _ _ _)).trans (refWrite_onlyChanges _ _ _ _)

theorem pool_tallyInit (r : Ref) (x y : List Byte) (s : State) (k : Nat) : (tallyInit r x y s).pool k = s.pool k := by
  simp only [tallyInit, pool_refWrite]

theorem tallyResume_onlyChanges (r : Ref) (o : Option (List Byte × List Byte)) (s : State) :
    OnlyChanges [.groves, .mem, .waybill] s (tallyResume r o s) := by
  unfold tallyResume
  extract_lets s1
  have hcopies : OnlyChanges [.groves, .mem, .waybill] s s1 := by
    unfold s1
    split
    · exact (refWrite_onlyChanges _ _ _ _).trans (refWrite_onlyChanges _ _ _ _)
    · exact .refl _ s
  split
  · exact hcopies.trans ((refWrite_onlyChanges _ _ _ _).trans (refWrite_onlyChanges _ _ _ _))
  · exact hcopies

theorem pool_putEntry (i : Nat) (f : Entry → Entry) (s : State) (k : Nat) : (putEntry i f s).pool k = s.pool k := rfl

/-- A list takes its first page from the reservation made for it. -/
theorem createList_reserved {n : Nat} (hn : 1 ≤ n) (hfree : 1 ≤ poolFree g s) (l k geo tn : Nat) : ∃ ref u,
    createList g l k geo tn n s = some (ref, u) ∧ OnlyChanges [.mem, .waybill, .free] s u ∧
    (u.pool g.id).reserved = (s.pool g.id).reserved - 1 := by
  have hroom : ¬ (1 > poolFree g s ∨ 1 - min 1 n > poolFree g s - (s.pool g.id).reserved) := by omega
  simp only [createList, takePages, if_neg hroom]
  refine ⟨_, _, rfl, ?_, ?_⟩
  · exact .trans (((onlyChanges_set_free s (s.free + 1)).mono (by simp)).trans ((onlyChanges_set_mem _ _).mono (by simp)))
      ((regionWrite_onlyChanges _ _ _ _).mono (by simp))
  · rw [pool_regionWrite]
    simp only [State.pool, tget_tput_same, Nat.min_eq_left hn]

/-! ## The Signal box -/

/-- What the Signal box admits has its pages free beyond all reservations (R377, R378). -/
theorem free_of_admitted {p need : Nat} {resume : Bool} {a : Ask} (h : admitEntry p resume a s = .ok need) (hi : a.items = none)
    (hg : s.region (s.ttregs p).pool = some g) : need + (s.pool g.id).reserved ≤ poolFree g s := by
  have hfits : memoryFits p (s.ttregs p) a need s = true := by
    unfold admitEntry at h
    dsimp only at h
    split_ifs at h with h1 h2 h3 h4
    cases h
    simpa using h4
  simp only [memoryFits, hi, hg, Bool.and_eq_true, decide_eq_true_eq] at hfits
  omega

theorem countRefused_ttregs (p : Nat) (st : Status) (s : State) :
    (st = .admitTime → ((countRefused p st s).ttregs p).refusedTime = satBv (s.ttregs p).refusedTime 1) ∧
    (st = .admitMemory → ((countRefused p st s).ttregs p).refusedMem = satBv (s.ttregs p).refusedMem 1) := by
  rw [countRefused, State.ttregs_modTtRegs_same]
  constructor <;> rintro rfl <;> rfl

/-! ## The entry taken -/

/-- What a placement writes into the entry it takes: the block's fields and the device's own (R367, R371, R382). -/
def placedEntry (w : Work) (b : EntryBlock) (s : State) (need ref : Nat) (old : Entry) : Entry :=
  { blockEntry b with
    version := old.version, st := .admitted, epoch := 1, node := s.me, fn := w.fn, tenant := w.tenant, part := w.part,
    list := BitVec.ofNat 64 ref, pages := 1, resPages := need - 1 }

/-- The state with the list created and the entry taken. -/
theorem exec_ttPlace_admitted {need i : Nat} (h : MayStart s w 0x10) (hc : placeChecks w b s = none)
    (ha : admitEntry w.part false (blockEntry b).ask s = .ok need) (hn : 1 ≤ need) (hf : freeEntry w.part (dat w.body 16 8) s = some i)
    (hg : s.region (s.ttregs w.part).pool = some g) (hr : (blockEntry b).raceValid = false) : ∃ ref u,
    ChangesEntry [.groves, .waybill, .mem, .tt, .free] i
      (touched (placedEntry w b s need ref)) s u ∧
    (u.pool g.id).reserved = (s.pool g.id).reserved + (need - 1) ∧
    exec (.ttPlace w.wid b) s = .next (s.kept (complete w .ok (i + (u.entry i).version.toNat * 2 ^ 32) u)) := by
  have hfree := free_of_admitted ha rfl hg
  have hpool : ((reservePages g.id need s).pool g.id) = { s.pool g.id with reserved := (s.pool g.id).reserved + need } := State.pool_modPool_same ..
  obtain ⟨ref, u, hlist, hu, hres⟩ := createList_reserved (g := g) (s := reservePages g.id need s) hn
    (by simp only [poolFree, hpool]; exact Nat.le_trans (by omega) hfree)
    (s.ttregs w.part).layers (s.ttregs w.part).kvHeads (s.ttregs w.part).geometry.toNat w.tenant
  have htally := tallyInit_onlyChanges (blockEntry b).tallyRef (copiesOf w.part (blockEntry b) s).1 (copiesOf w.part (blockEntry b) s).2 u
  refine ⟨ref, putEntry i (placedEntry w b s need ref) (tallyInit (blockEntry b).tallyRef (copiesOf w.part (blockEntry b) s).1
    (copiesOf w.part (blockEntry b) s).2 u), ?_, ?_, ?_⟩
  · exact .after ((((modPool_onlyChanges s g.id _).mono (by simp)).trans (hu.mono (by simp))).trans (htally.mono (by simp)))
      (qs := [.groves, .waybill, .mem, .free]) (by simp) (by simp) ((putEntry_changesEntry ..).mono (by simp))
  · rw [pool_putEntry, pool_tallyInit, hres, hpool]
    simp only
    omega
  · have hexec : exec (.ttPlace w.wid b) s = execTtPlace w.wid b s := rfl
    rw [hexec, execTtPlace, start_of_mayStart h]
    simp only [hc, ha, hg, Option.bind_some, hlist, hf, hr, Bool.false_eq_true, if_false]
    rfl

end

end Sys2Proof.Machine

/-! # The obligation on placement -/

namespace Sys2Proof.Machine

/-- Settles O35: an admitted placement takes its page from the reservation it made and writes the entry; a refused one only counts. -/
theorem timetablePlacement : Obligations.TimetablePlacement := by
  unfold Obligations.TimetablePlacement
  refine ⟨?admitted, ?refused, ?draining⟩
  case admitted =>
    intro s w b need i g h hc ha hn hf hg hr
    obtain ⟨ref, u, hu, hres, hexec⟩ := exec_ttPlace_admitted h hc ha hn hf hg hr
    have hversion : (u.entry i).version = (s.entry i).version + 1 := congrArg Entry.version hu.own
    refine ⟨_, hexec, ref, ?_⟩
    rw [hversion]
    exact ends_of_complete hu.frame (by simp) (by simp) ⟨hu.own, hu.others, hres, hu.frame⟩
  case refused =>
    intro s w b st c h hc ha
    have hcount : OnlyChanges [.tt] s (countRefused w.part st s) := modTtRegs_onlyChanges _ _ _
    obtain ⟨htime, hmem⟩ := countRefused_ttregs w.part st s
    refine completes_of_start (f := fun w s => _) rfl h ?_
    simp only [hc, ha]
    exact ends_of_complete hcount (by simp) (by simp) ⟨rfl, htime, hmem, hcount⟩
  case draining =>
    intro s w b h hd
    have hc : placeChecks w b s = some (.cancelled, 1) := by simp only [placeChecks, List.cons_append, firstFail, hd, if_true]
    have hfresh : OnlyChanges [.free] s s.fresh := onlyChanges_set_free s _
    refine completes_of_start (f := fun w s => _) rfl h ?_
    simp only [hc]
    exact ends_of_complete hfresh (by simp) (by simp) hfresh

end Sys2Proof.Machine

/-! # Operations on an entry

SUPPORT. An operation whose header is good takes effect or waits (R374, R375, R387), and what each makes of its entry (R382, R385, R420,
R590, R612, R768). -/

namespace Sys2Proof.Machine

section
variable {s t : State} {w : Work} {ps : List Zone}

/-! ## The header is good -/

theorem accepts_of_headerCheck (h : headerCheck w s = none) (ha : (s.entry (dat w.body 8 16)).accepting = false) :
    accepts w.opcode (s.entry (dat w.body 8 16)) = true := by
  simp only [headerCheck, firstFail] at h
  split at h <;> [simp at h; skip]
  split at h <;> [simp at h; skip]
  split at h <;> [simp at h; skip]
  split at h <;> [simp at h; skip]
  split at h <;> [simp at h; skip]
  next hb => simpa [ha] using hb

theorem completes_entryOp {c : Instr} {op : Byte} {more : Work → State → List (Bool × (Status × Nat))} {P : State → Prop}
    (hc : exec c s = entryOp w.wid op more s) (h : MayStart s w op) (ha : opAhead w s = false) (hh : headerCheck w s = none)
    (hm : firstFail (more w s) = none) (hP : P (s.kept (applyOp w s))) : Completes c s P := by
  refine completes_of_start hc h ?_
  simpa only [ha, hh, hm, Bool.false_eq_true, if_false] using hP

/-! Each command is an operation of its opcode, with the checks of its own (R375). -/

theorem exec_ttCancel (wid : Nat) (s : State) : exec (.ttCancel wid) s = entryOp wid 0x11 (fun _ _ => []) s := rfl

theorem exec_ttPark (wid : Nat) (s : State) : exec (.ttPark wid) s = entryOp wid 0x14 (fun _ _ => []) s := rfl

theorem exec_ttFree (wid : Nat) (s : State) : exec (.ttFree wid) s = entryOp wid 0x16 (fun _ _ => []) s := rfl

theorem exec_ttMove (wid : Nat) (s : State) : exec (.ttMove wid) s = entryOp wid 0x13 (fun w s => [
    (!routable (dat w.body 10 7) s, (.malformed, 0x09)),
    ((handoffConn (s.entry (dat w.body 8 16)).tenant (dat w.body 10 7) s).isNone, (.malformed, 0x0B))]) s := rfl

theorem exec_ttResume (wid : Nat) (s : State) :
    exec (.ttResume wid) s = entryOp wid 0x15 (fun _ s => [(isCache s, (.malformed, 0x01))]) s := rfl

/-- A header that fails for the entry's state completes with its cause. -/
theorem completes_entryOp_malformed {c : Instr} {op : Byte} {more : Work → State → List (Bool × (Status × Nat))} {r : Nat}
    (hc : exec c s = entryOp w.wid op more s) (h : MayStart s w op) (ha : opAhead w s = false) (hop : op ≠ 0x15)
    (hh : headerCheck w s = some (.malformed, r)) :
    Completes c s (fun t => t = complete w .malformed r s ∧ OnlyChanges [.host, .work, .tt, .ft, .tn, .out] s t) := by
  refine (completes_of_refused hc h ?_).imp fun t ⟨ht, _, hf⟩ => ⟨ht, hf⟩
  simp only [ha, hh, hop, Bool.false_eq_true, if_false, false_and]

/-! ## It waits, or takes effect -/

theorem applyOp_waits (hs : inStep (dat w.body 8 16) s = true) (hop : w.opcode = 0x11) :
    applyOp w s = s.setProg w.wid (.boundary (dat w.body 8 16)) := if_pos (Or.inr ⟨hs, Or.inl hop⟩)

section
variable (hh : headerCheck w s = none) (ha : (s.entry (dat w.body 8 16)).accepting = false)
include hh ha

theorem applyOp_cancel (hop : w.opcode = 0x11) (hs : inStep (dat w.body 8 16) s = false) (hst : (s.entry (dat w.body 8 16)).st.cancels = true) :
    applyOp w s = applyCancel (dat w.body 8 16) w.wid s := by
  rw [applyOp, if_neg (by simp [ha, hs]), if_neg (by simp [accepts_of_headerCheck hh ha]), hop]
  cases h : (s.entry (dat w.body 8 16)).st <;> simp [h, TtState.cancels] at hst ⊢

theorem applyOp_move (hop : w.opcode = 0x13) (hs : inStep (dat w.body 8 16) s = false) :
    applyOp w s = startHandoff (dat w.body 8 16) (dat w.body 10 7) (some w.wid) s := by
  rw [applyOp, if_neg (by simp [ha, hs]), if_neg (by simp [accepts_of_headerCheck hh ha]), hop]
  rfl

theorem applyOp_park (hop : w.opcode = 0x14) (hs : inStep (dat w.body 8 16) s = false) : applyOp w s = applyPark w (dat w.body 8 16) s := by
  rw [applyOp, if_neg (by simp [ha, hs]), if_neg (by simp [accepts_of_headerCheck hh ha]), hop]
  rfl

theorem applyOp_resume (hop : w.opcode = 0x15) : applyOp w s = applyResume w (dat w.body 8 16) s := by
  rw [applyOp, if_neg (by simp [ha, hop]), if_neg (by simp [accepts_of_headerCheck hh ha]), hop]
  rfl

theorem applyOp_free (hop : w.opcode = 0x16) : applyOp w s = applyFree w (dat w.body 8 16) s := by
  rw [applyOp, if_neg (by simp [ha, hop]), if_neg (by simp [accepts_of_headerCheck hh ha]), hop]
  rfl

end

/-! ## What each makes of its entry -/

theorem completeWid_of_item {u : State} (h : u.item w.wid = some w) (st : Status) (r : Nat) : completeWid w.wid st r u = complete w st r u := by
  simp only [completeWid, h]

theorem applyCancel_of_cancels {i : Nat} (hi : s.item w.wid = some w) (hst : (s.entry i).st.cancels = true) :
    applyCancel i w.wid s = complete w .ok 0 (toCancelled i 0x51 s) := by
  have hitem : (toCancelled i 0x51 s).item w.wid = some w :=
    (item_of_work_eq ((toCancelled_changes i 0x51 s).frame.work_eq (by decide)) _).trans hi
  simp only [applyCancel, hst, if_true, completeWid_of_item hitem]

/-- An entry on its way to a node, with its handoff's own record (R382, R590). -/
def sentTo (node : Nat) (x : Sender) (e : Entry) : Entry := { e with st := .handoffOut, ret := e.st, node, snd := some x }

/-- The state with the entry on its way and the handoff counted. -/
def sending (i node : Nat) (x : Sender) (s : State) : State :=
  let s1 := putEntry i (sentTo node x) s
  { s1 with ho := { s1.ho with out := s1.ho.out + 1 } }

theorem sending_changes (i node : Nat) (x : Sender) (s : State) : ChangesEntry [.tt, .ho] i (touched (sentTo node x)) s (sending i node x s) :=
  ((putEntry_changesEntry i (sentTo node x) s).mono (by simp)).then (onlyChanges_set_ho _ _) (by simp) (by simp)

theorem connSend_onlyChanges (c : Nat) (m : Ctl) (s : State) : OnlyChanges [.rail, .rc, .ft] s (connSend c m s) := by
  unfold connSend
  extract_lets x
  split
  · exact .refl _ s
  · exact .trans (((modConn_onlyChanges _ _ _).trans (modConn_onlyChanges _ _ _)).mono (by simp)) (pump_onlyChanges _ _ _)

/-- A TT_MOVE sends its OFFER and waits for the handoff. -/
theorem startHandoff_of_conn {i node c : Nat} (hsw : switching (s.entry i).part s = false)
    (hc : handoffConn (s.entry i).tenant node s = some c) :
    ∃ x m, startHandoff i node (some w.wid) s = (connSend c m (sending i node x s)).setProg w.wid (.move i) := by
  simp only [startHandoff, hsw, hc, Bool.false_eq_true, if_false]
  exact ⟨_, _, rfl⟩

theorem startHandoff_spec {i node c : Nat} (hi : s.item w.wid = some w) (hsw : switching (s.entry i).part s = false)
    (hc : handoffConn (s.entry i).tenant node s = some c) : ∃ x, At w (.move i) (startHandoff i node (some w.wid) s) ∧
      ChangesEntry [.work, .tt, .ho, .rail, .rc, .ft] i (touched (sentTo node x)) s (startHandoff i node (some w.wid) s) ∧
      (startHandoff i node (some w.wid) s).ho.out = s.ho.out + 1 := by
  obtain ⟨x, m, heq⟩ := startHandoff_of_conn (w := w) hsw hc
  have hsend := connSend_onlyChanges c m (sending i node x s)
  have hentry := sending_changes i node x s
  have hitem : (connSend c m (sending i node x s)).item w.wid = some w :=
    (item_of_work_eq ((hsend.work_eq (by simp)).trans (hentry.frame.work_eq (by simp))) _).trans hi
  rw [heq]
  refine ⟨x, at_setProg hitem, ?_, ?_⟩
  · exact ((hentry.mono (by simp)).then hsend (by simp) (by simp)).then (setProg_onlyChanges _ _ _) (by simp) (by simp)
  · exact congrArg Handoff.out (hsend.ho_eq (by simp))

/-- A parked entry keeps its list and gives its reservation back (R382). -/
theorem parked_changes (i : Nat) (s : State) : ChangesEntry [.mem, .tt] i
    (fun e => touched (fun e => { e with st := .parked }) { e with resPages := 0 }) s
    (putEntry i (fun e => { e with st := .parked }) (returnReserve i s)) :=
  (returnReserve_changesEntry i s).trans ((putEntry_changesEntry i _ _).mono (by simp))

/-- What a resumption writes into its entry: a new turn with the reservation raised (R380, R382). -/
def resumedEntry (w : Work) (need : Nat) (e : Entry) : Entry :=
  { resumeEntry w e with st := .admitted, resPages := e.resPages + need }

/-- A resumption that the Signal box admits reserves its pages, renews the copies and writes the entry. -/
theorem applyResume_of_admitted {i need : Nat} (hc : resumeChecks w (s.entry i) s = none)
    (ha : admitEntry (s.entry i).part true (resumeEntry w (s.entry i)).ask s = .ok need) : ∃ u,
    applyResume w i s = complete w .ok 0 u ∧ ChangesEntry [.groves, .waybill, .mem, .tt] i (touched (resumedEntry w need)) s u := by
  simp only [applyResume, hc, ha]
  refine ⟨_, rfl, ?_⟩
  have hput (v : State) := (putEntry_changesEntry i (fun _ => resumedEntry w need (s.entry i)) v).mono (qs := [.groves, .waybill, .mem, .tt]) (by simp)
  exact (ChangesEntry.after (((modPool_onlyChanges s _ _).mono (by simp)).trans (tallyResume_onlyChanges _ _ _))
    (qs := [.groves, .mem, .waybill]) (by simp) (by simp) (hput _)).congr rfl

theorem applyFree_of_ended {i : Nat} (h : (s.entry i).st = .stub ∨ (s.entry i).st = .lost ∨ (s.entry i).st = .cancelled) :
    applyFree w i s = complete w .ok 0 (toFree i s) := by
  have hst : ¬ ((s.entry i).st = .done ∨ (s.entry i).st = .parked) := by rcases h with h | h | h <;> simp [h]
  simp only [applyFree, hst, if_false]

end

/-! # The obligation on operations -/

/-- Settles O36: each operation waits for its boundary or takes effect on its entry, and completes from the state that leaves. -/
theorem timetableOperations : Obligations.TimetableOperations := by
  unfold Obligations.TimetableOperations
  refine ⟨?cancel, ?waits, ?refused, ?move, ?park, ?resume, ?free⟩
  case cancel =>
    intro s w h ha hh hacc hs hst hv
    have hcancel := toCancelled_changesEntry (s := s) (i := dat w.body 8 16) (cause := 0x51)
      (ps := [.host, .groves, .waybill, .mem, .tt, .out]) (by simp) (by simp [hv])
    refine completes_entryOp (exec_ttCancel _ s) h ha hh rfl ?_
    rw [applyOp_cancel hh hacc h.2.2.1 hs hst, applyCancel_of_cancels h.1 hst]
    refine ends_of_complete hcancel.frame (by simp) (by simp) ?_
    rw [hcancel.own]
    exact ⟨rfl, rfl, rfl, rfl, rfl, hcancel.others, hcancel.frame⟩
  case waits =>
    intro s w h ha hh _ hs
    refine completes_entryOp (exec_ttCancel _ s) h ha hh rfl ?_
    rw [applyOp_waits hs h.2.2.1, (setProg_onlyChanges s w.wid _).kept_eq (by simp) (by simp)]
    exact ⟨at_setProg h.1, setProg_onlyChanges _ _ _⟩
  case refused =>
    intro s w h ha hh
    exact completes_entryOp_malformed (exec_ttPark _ s) h ha (by decide) hh
  case move =>
    intro s w c h ha hh hacc hs hsw hr hc
    obtain ⟨x, hat, hentry, hout⟩ := startHandoff_spec h.1 hsw hc
    refine completes_entryOp (exec_ttMove _ s) h ha hh (by simp [firstFail, hr, hc]) ?_
    rw [applyOp_move hh hacc h.2.2.1 hs, hentry.frame.kept_eq (by simp) (by simp), hentry.own]
    exact ⟨hat, rfl, rfl, rfl, rfl, hentry.others, hout, hentry.frame⟩
  case park =>
    intro s w h ha hh hacc hs
    have hpark := parked_changes (dat w.body 8 16) s
    refine completes_entryOp (exec_ttPark _ s) h ha hh rfl ?_
    rw [applyOp_park hh hacc h.2.2.1 hs]
    exact ends_of_complete hpark.frame (by simp) (by simp) ⟨hpark.own, hpark.others, rfl, hpark.frame⟩
  case resume =>
    intro s w need h ha hh hcache hacc hc hadmit
    obtain ⟨u, heq, hu⟩ := applyResume_of_admitted hc hadmit
    refine completes_entryOp (exec_ttResume _ s) h ha hh (by simp [firstFail, hcache]) ?_
    rw [applyOp_resume hh hacc h.2.2.1, heq]
    exact ends_of_complete hu.frame (by simp) (by simp) ⟨hu.own, hu.others, hu.frame⟩
  case free =>
    intro s w h ha hh hacc hst
    have hfree := (toFree_changesEntry (dat w.body 8 16) s).mono (qs := [.tt, .ho]) (by simp)
    refine completes_entryOp (exec_ttFree _ s) h ha hh rfl ?_
    rw [applyOp_free hh hacc h.2.2.1, applyFree_of_ended hst]
    exact ends_of_complete hfree.frame (by simp) (by simp) ⟨hfree.own, hfree.others, hfree.frame⟩

end Sys2Proof.Machine

/-! # Snapshots, race groups and budgets

SUPPORT. A snapshot with room copies its whole range (R407), and a race group as read after a change (R410). -/

namespace Sys2Proof.Machine

section
variable {s t : State} {w : Work}

/-! ## Snapshots -/

/-- The copy of an entry that a function gets (R408, R409). -/
def snapCopy (f : Nat) (s : State) (i : Nat) : List Byte := leBytes 128 (if entryView f i s = {} then 0 else (entryView f i s).word s.clk.sc)

/-- Without a mask, a range that finds room is copied whole. -/
theorem snapCopies_of_room (f : Nat) (s : State) {l : List Nat} {room : Nat} (h : l.length ≤ room) (acc : List (List Byte)) :
    snapCopies f 0 s l room acc = (acc ++ l.map (snapCopy f s), false) := by
  induction l generalizing room acc with
  | nil => simp [snapCopies]
  | cons i l ih =>
    obtain ⟨k, rfl⟩ : ∃ k, room = k + 1 := ⟨room - 1, by simp only [List.length_cons] at h; omega⟩
    simp only [snapCopies, ne_eq, not_true_eq_false, false_and, if_false]
    rw [ih (by simpa using h)]
    simp [snapCopy]

theorem exec_ttSnapshot_of_room (h : MayStart s w 0x12) (hf : w.fn = 0) (hn : 1 ≤ dat w.body 10 16)
    (hlast : dat w.body 8 16 + dat w.body 10 16 ≤ 16384) (ha : dat w.body 16 64 % 128 = 0) (hroom : dat w.body 10 16 ≤ dat w.body 24 32 / 128)
    (hm : dat w.body 12 16 = 0) : exec (.ttSnapshot w.wid) s = .next (s.kept (complete w .ok (dat w.body 10 16) (s.emit
      (.hostWrite w.fn (dat w.body 16 64) ((List.range (dat w.body 10 16)).map (fun k => snapCopy 0 s (dat w.body 8 16 + k))).flatten)))) := by
  have hexec : exec (.ttSnapshot w.wid) s = execTtSnapshot w.wid s := rfl
  have hcount : ¬ (dat w.body 10 16 = 0 ∨ dat w.body 10 16 > 16384) := by omega
  have hcopies := snapCopies_of_room 0 s (l := (List.range (dat w.body 10 16)).map (dat w.body 8 16 + ·)) (by simpa using hroom) []
  have hsome : ((List.range (dat w.body 10 16)).map (fun k => snapCopy 0 s (dat w.body 8 16 + k))).isEmpty = false := by
    rw [List.isEmpty_eq_false_iff]
    simp only [ne_eq, List.map_eq_nil_iff, List.range_eq_nil]
    omega
  rw [hexec, execTtSnapshot, start_of_mayStart h]
  simp only [hf, ne_eq, not_true_eq_false, false_and, if_false, hcount, not_lt.2 hlast, ha, hm, hcopies, List.nil_append, List.map_map,
    Function.comp_def, hsome, Bool.false_eq_true, List.length_map, List.length_range]

/-! ## Programs -/

theorem progOf_installed (p : Nat) (g : StepProg) (s : State) :
    ({ s with tt := { s.tt with progs := tput s.tt.progs p (some g) none } } : State).progOf p = some g ∧
    ∀ q, q ≠ p → ({ s with tt := { s.tt with progs := tput s.tt.progs p (some g) none } } : State).progOf q = s.progOf q :=
  ⟨by simp only [State.progOf, tget_tput_same], fun _ hq => by simp only [State.progOf, tget_tput_other _ _ _ _ _ hq]⟩

/-! ## Race groups -/

theorem State.race_modRace_same (s : State) (g : Nat) (f : Race → Race) : (s.modRace g f).race g = f (s.race g) := tget_tmod_same ..

theorem State.race_modRace_other {g k : Nat} {f : Race → Race} (h : k ≠ g) : (s.modRace g f).race k = s.race k := tget_tmod_other _ _ _ _ _ h

theorem modRace_onlyChanges (s : State) (g : Nat) (f : Race → Race) : OnlyChanges [.tt] s (s.modRace g f) := onlyChanges_set_tt s _

end

end Sys2Proof.Machine

/-! # The obligation on snapshots, programs, race groups and budgets -/

namespace Sys2Proof.Machine

/-- Settles O37: a snapshot copies its range, a program is installed at once or left waiting, a group is set in its table, and the expired
budget's entry is marked before its event. -/
theorem timetableOther : Obligations.TimetableOther := by
  unfold Obligations.TimetableOther
  refine ⟨?snapshot, ?installs, ?waits, ?opens, ?closes, ?closed, ?expires⟩
  case snapshot =>
    intro s w h hf hn hlast ha hroom hm
    refine ⟨_, exec_ttSnapshot_of_room h hf hn hlast ha hroom hm, ?_⟩
    exact ends_of_complete (emit_onlyChanges s _) (by simp) (by simp) ⟨rfl, emit_onlyChanges s _⟩
  case installs =>
    intro s w h hc hs
    have hframe : OnlyChanges [.tt] s { s with tt := { s.tt with progs := tput s.tt.progs w.part (some (programOf w s)) none } } :=
      onlyChanges_set_tt s _
    obtain ⟨hsame, hother⟩ := progOf_installed w.part (programOf w s) s
    refine completes_of_start (f := fun w s => _) rfl h ?_
    simp only [hc, hs, Option.isSome_none, Bool.false_eq_true, if_false]
    exact ends_of_complete hframe (by simp) (by simp) ⟨hsame, hother, hframe⟩
  case waits =>
    intro s w h hc hs
    refine completes_of_start (f := fun w s => _) rfl h ?_
    simp only [hc, hs, if_true]
    rw [(setProg_onlyChanges s w.wid _).kept_eq (by simp) (by simp)]
    exact ⟨at_setProg h.1, setProg_onlyChanges _ _ _⟩
  case opens =>
    intro s w h hused h2 h4
    have hframe (g : Nat) (f : Race → Race) : OnlyChanges [.tt, .free] s (s.fresh.modRace g f) :=
      ((onlyChanges_set_free s _).mono (by simp)).trans ((modRace_onlyChanges _ _ _).mono (by simp))
    refine completes_of_start (f := fun w s => _) rfl h ?_
    have hcount : ¬ (dat w.body 8 8 < 2 ∨ dat w.body 8 8 > 4) := by omega
    simp only [List.length_map, not_le.2 hused, hcount, if_false]
    exact ⟨_, ends_of_complete (hframe _ _) (by simp) (by simp)
      ⟨State.race_modRace_same .., fun k hk => State.race_modRace_other hk, hframe _ _⟩⟩
  case closes =>
    intro s w h ho ht
    refine completes_of_start (f := fun w s => _) rfl h ?_
    simp only [ho, ht, ne_eq, not_true_eq_false, and_false, Bool.not_true, Bool.false_eq_true, if_false]
    exact ends_of_complete (modRace_onlyChanges _ _ _) (by simp) (by simp)
      ⟨State.race_modRace_same .., fun k hk => State.race_modRace_other hk, modRace_onlyChanges _ _ _⟩
  case closed =>
    intro s w h ho
    refine (completes_of_refused (op := 0x19) (f := fun w s => _) (r := 0x08) rfl h ?_).imp fun t ⟨ht, _, hf⟩ => ⟨ht, hf⟩
    simp only [ho, Bool.false_eq_true, false_and, if_false, Bool.not_false, if_true, malformed]
  case expires =>
    intro s i hl hc hb he
    have hput := ((putEntry_changesEntry i (fun e => { e with expired := true }) s).mono (qs := [.host, .tt, .out]) (by simp)).then
      (ttEvent_onlyChanges 0x0105 i _) (by simp) (by simp)
    have hexec : exec (.budgetExpire i) s = execBudgetExpire i s := rfl
    exact ⟨_, hexec.trans (actIf_of_live hl (by simp [hc, hb, he])), hput.own, hput.others, hput.frame.kept⟩

end Sys2Proof.Machine

/-! # Management messages and race groups

SUPPORT. A message of the management connection that takes effect when it comes, what the race messages make of a group at its home and of
a member (R410 to R413, R554, R581). -/

namespace Sys2Proof.Machine

section
variable {s t : State} {src i : Nat} {m : Ctl} {ps : List Zone}

/-! ## Messages of the management connection -/

theorem popMsg_of_empty (h : (s.conn 0).rx = []) : popMsg 0 src m s = s := by simp [popMsg, h]

theorem mayTake_of_empty (h : (s.conn 0).rx = []) : mayTake 0 src m s = true := by simp [mayTake, h]

/-- A message that no other precedes takes effect. -/
theorem completes_of_mgmt {c : Instr} {ct : Byte} {f : State → State} {P : State → Prop} (hc : exec c s = onMgmt src ct m s f)
    (ha : s.awake = true) (hm : m.ctype = ct) (hr : (s.conn 0).rx = []) (hP : P (s.kept (f s))) : Completes c s P := by
  have hlive : s.live = true := by
    simp only [State.awake, Bool.and_eq_true] at ha
    exact ha.1.1
  refine ⟨_, hc.trans (actIf_of_live hlive (by simp [ha, hm, mayTake_of_empty hr])), ?_⟩
  rwa [popMsg_of_empty hr]

/-! ## What a race message asks to be sent -/

/-- What a race message makes of the state, and the messages it asks for (R410 to R413). -/
def raceEffect (src : Nat) (m : Ctl) (s : State) : State × Sends :=
  match m.ctype.toNat with
  | 0x20 => raceJoin src m s
  | 0x21 => raceClaim src m s
  | 0x22 => raceGrant m s
  | 0x23 => raceLost true m s
  | 0x24 => raceLost false m s
  | 0x25 => raceAck m s
  | _ => (s, [])

theorem raceRecv_succ (k src : Nat) (m : Ctl) (s : State) : raceRecv (k + 1) src m s = (raceEffect src m s).2.foldl
    (fun s o => if o.1 = s.me then raceRecv k s.me o.2 s else mgmtSend o.1 o.2 s) (raceEffect src m s).1 := rfl

theorem raceRecv_silent {k : Nat} (h : raceEffect src m s = (t, [])) : raceRecv (k + 1) src m s = t := by rw [raceRecv_succ, h]; rfl

theorem raceRecv_answer {k dst : Nat} {a : Ctl} (h : raceEffect src m s = (t, [(dst, a)])) (hd : dst ≠ t.me) :
    raceRecv (k + 1) src m s = mgmtSend dst a t := by
  rw [raceRecv_succ, h]
  simp only [List.foldl_cons, List.foldl_nil, hd, if_false]

/-- A race message arrives, and what it makes of the state follows. -/
theorem completes_of_race {c : Instr} {ct : Byte} {P : State → Prop} (hc : exec c s = raceCmd ct src m s) (ha : s.awake = true)
    (hm : m.ctype = ct) (hr : (s.conn 0).rx = []) (hP : P (s.kept (raceRecv 6 src m s))) : Completes c s P :=
  completes_of_mgmt (f := raceRecv 6 src m) hc ha hm hr hP

theorem completes_race_silent {c : Instr} {ct : Byte} {P : State → Prop} (hc : exec c s = raceCmd ct src m s) (ha : s.awake = true)
    (hm : m.ctype = ct) (hr : (s.conn 0).rx = []) (he : raceEffect src m s = (t, [])) (hP : P (s.kept t)) : Completes c s P :=
  completes_of_race hc ha hm hr (by rwa [raceRecv_silent he])

theorem completes_race_answer {c : Instr} {ct : Byte} {dst : Nat} {a : Ctl} {P : State → Prop} (hc : exec c s = raceCmd ct src m s)
    (ha : s.awake = true) (hm : m.ctype = ct) (hr : (s.conn 0).rx = []) (he : raceEffect src m s = (t, [(dst, a)])) (hd : dst ≠ t.me)
    (hP : P (s.kept (mgmtSend dst a t))) : Completes c s P :=
  completes_of_race hc ha hm hr (by rwa [raceRecv_answer he hd])

/-! ## The home's side -/

@[simp] theorem State.kept_race (s t : State) (g : Nat) : (s.kept t).race g = t.race g := rfl

theorem race_of_tt_eq (h : t.tt = s.tt) (g : Nat) : t.race g = s.race g := by rw [State.race, h, State.race]

theorem OnlyChanges.me_eq (h : OnlyChanges ps s t) (hp : .rail ∉ ps) : t.me = s.me := by
  rw [State.me, of_decide_eq_true (h .rail hp), State.me]

/-- A group that still misses members stays open. -/
theorem settleRace_of_missing {g : Nat} (h : (s.race g).claimed.length + (s.race g).acks < (s.race g).members) : settleRace g s = s :=
  if_neg (by rintro ⟨-, hfull⟩; omega)

theorem raceEffect_join (hm : m.ctype = 0x20) (ho : (s.race (groupOf m)).isOpen = true) (hw : (s.race (groupOf m)).won = false) :
    raceEffect src m s = (s.modRace (groupOf m) (fun r => { r with joined := r.joined ++ [(src, m.sEntry, m.reqId)] }), []) := by
  simp [raceEffect, hm, raceJoin, ho, hw]

/-- The group once its first claim is granted. -/
def wonBy (m : Ctl) (s : State) : State := s.modRace (groupOf m) (fun r => { r with claimed := [m.reqId], won := true })

/-- The only member that joined claims: nobody is left to cancel. -/
theorem raceEffect_firstClaim (hm : m.ctype = 0x21) (ho : (s.race (groupOf m)).isOpen = true) (hw : (s.race (groupOf m)).won = false)
    (hj : (s.race (groupOf m)).joined = [(src, m.sEntry, m.reqId)]) (hc : (s.race (groupOf m)).claimed = []) (ha : (s.race (groupOf m)).acks = 0)
    (hn : 2 ≤ (s.race (groupOf m)).members) :
    raceEffect src m s = (wonBy m s, [(src, raceMsg 0x22 m.sEntry (some m.sEntry) m.reqId m.epoch (groupOf m) s)]) := by
  have hrace : (wonBy m s).race (groupOf m) = { s.race (groupOf m) with claimed := [m.reqId], won := true } := State.race_modRace_same ..
  have hsettle : settleRace (groupOf m) (wonBy m s) = wonBy m s :=
    settleRace_of_missing (by rw [hrace]; simp only [List.length_singleton, ha]; omega)
  rw [wonBy] at hsettle
  simp [raceEffect, hm, raceClaim, ho, hw, hj, hc, hsettle, wonBy]

theorem raceEffect_lateClaim (hm : m.ctype = 0x21) (ho : (s.race (groupOf m)).isOpen = false) :
    raceEffect src m s = (s, [(src, raceMsg 0x23 m.sEntry (some m.sEntry) m.reqId m.epoch (groupOf m) s)]) := by
  simp [raceEffect, hm, raceClaim, ho]

theorem raceEffect_ack (hm : m.ctype = 0x25) (ho : (s.race (groupOf m)).isOpen = true)
    (hn : (s.race (groupOf m)).claimed.length + (s.race (groupOf m)).acks + 1 < (s.race (groupOf m)).members) :
    raceEffect src m s = (s.modRace (groupOf m) (fun r => { r with acks := r.acks + 1 }), []) := by
  have hsettle : settleRace (groupOf m) (s.modRace (groupOf m) (fun r => { r with acks := r.acks + 1 })) = _ :=
    settleRace_of_missing (by rw [State.race_modRace_same]; simp only; omega)
  simp [raceEffect, hm, raceAck, ho, hsettle]

/-! ## A member's side -/

theorem raceEffect_grant (hm : m.ctype = 0x22) (hi : m.rEntry = some i) (hc : (s.entry i).claiming = true) (hq : (s.entry i).reqId = m.reqId)
    (hw : (s.entry i).withheld = none) : raceEffect src m s = (putEntry i (fun e => { e with claiming := false }) s, []) := by
  simp [raceEffect, hm, raceGrant, hi, hc, hq, publishWithheld, hw]

theorem TtState.ne_free_of_cancels {st : TtState} (h : st.cancels = true) : st ≠ .free := by
  rintro rfl
  exact absurd h (by decide)

/-- A member outside any step whose race is over is CANCELLED at once. -/
theorem raceLost_of_cancels {refused : Bool} (hi : m.rEntry = some i) (hq : (s.entry i).reqId = m.reqId) (hst : (s.entry i).st.cancels = true)
    (hs : inStep i s = false) : raceLost refused m s = (toCancelled i 0x52 s, if refused then [] else
      [((s.entry i).raceHome, raceMsg 0x25 i none (s.entry i).reqId (s.entry i).epoch (groupOf m) s)]) := by
  have hfree := TtState.ne_free_of_cancels hst
  simp [raceLost, hi, hq, hfree, hs, raceOver, hst]

end

/-! # The obligation on race messages -/

/-- Settles O39: the home's side changes its group, a member's side its entry, and each answer goes out from the state the message leaves. -/
theorem raceMessages : Obligations.RaceMessages := by
  unfold Obligations.RaceMessages
  refine ⟨?join, ?claim, ?late, ?grant, ?refuse, ?cancel, ?ack⟩
  case join =>
    intro s src m ha hm hr ho hw
    exact completes_race_silent (c := .raceJoin src m) rfl ha hm hr (raceEffect_join hm ho hw)
      ⟨State.race_modRace_same .., fun g hg => State.race_modRace_other hg, (modRace_onlyChanges _ _ _).kept⟩
  case claim =>
    intro s src m ha hm hr hd ho hw hj hc hk hn
    have htt (a : Ctl) : (mgmtSend src a (wonBy m s)).tt = (wonBy m s).tt := (mgmtSend_onlyChanges src a _).tt_eq (by simp)
    refine completes_race_answer (c := .raceClaim src m) rfl ha hm hr (raceEffect_firstClaim hm ho hw hj hc hk hn) hd ?_
    refine ⟨?_, wonBy m s, modRace_onlyChanges _ _ _, rfl⟩
    rw [State.kept_race, race_of_tt_eq (htt _), wonBy, State.race_modRace_same]
  case late =>
    intro s src m ha hm hr hd ho
    exact completes_race_answer (c := .raceClaim src m) rfl ha hm hr (raceEffect_lateClaim hm ho) hd
      ⟨rfl, (mgmtSend_onlyChanges src _ s).kept.tt_eq (by simp)⟩
  case grant =>
    intro s src i m ha hm hr hi hc hq hw
    have hput := putEntry_changesEntry i (fun e => { e with claiming := false }) s
    exact completes_race_silent (c := .raceGrant src m) rfl ha hm hr (raceEffect_grant hm hi hc hq hw) ⟨hput.own, hput.others, hput.frame.kept⟩
  case refuse =>
    intro s src i m ha hm hr hi hq hst hs hv
    have hcancel := toCancelled_changesEntry (s := s) (i := i) (cause := 0x52) (ps := [.host, .groves, .waybill, .mem, .tt, .out]) (by simp)
      (by simp [hv])
    have he : raceEffect src m s = (toCancelled i 0x52 s, []) := by simp [raceEffect, hm, raceLost_of_cancels hi hq hst hs]
    refine completes_race_silent (c := .raceRefuse src m) rfl ha hm hr he ?_
    simp only [State.kept_entry, hcancel.own]
    exact ⟨rfl, rfl, rfl, rfl, hcancel.others, hcancel.frame.kept⟩
  case cancel =>
    intro s src i m ha hm hr hi hq hst hs hv hd
    have hcancel := toCancelled_changesEntry (s := s) (i := i) (cause := 0x52) (ps := [.host, .groves, .waybill, .mem, .tt, .out]) (by simp)
      (by simp [hv])
    have he : raceEffect src m s = (toCancelled i 0x52 s,
        [((s.entry i).raceHome, raceMsg 0x25 i none (s.entry i).reqId (s.entry i).epoch (groupOf m) s)]) := by
      simp [raceEffect, hm, raceLost_of_cancels hi hq hst hs]
    have hme : (toCancelled i 0x52 s).me = s.me := hcancel.frame.me_eq (by simp)
    have hsent (a : Ctl) (k : Nat) : (mgmtSend (s.entry i).raceHome a (toCancelled i 0x52 s)).entry k = (toCancelled i 0x52 s).entry k :=
      (mgmtSend_onlyChanges _ a _).entry_eq (by simp) k
    refine completes_race_answer (c := .raceCancel src m) rfl ha hm hr he (by rwa [hme]) ?_
    simp only [State.kept_entry, hsent, hcancel.own]
    exact ⟨rfl, rfl, hcancel.others, _, hcancel.frame, rfl⟩
  case ack =>
    intro s src m ha hm hr ho hn
    exact completes_race_silent (c := .raceCancelAck src m) rfl ha hm hr (raceEffect_ack hm ho hn)
      ⟨State.race_modRace_same .., fun g hg => State.race_modRace_other hg, (modRace_onlyChanges _ _ _).kept⟩

end Sys2Proof.Machine

/-! # Messages along a chain of nodes

SUPPORT. What a probe finds here (R601), a STUB that RELEASE frees or LOST loses (R382, R389), and a CANCEL by the state of its entry
(R388, R578, R613). -/

namespace Sys2Proof.Machine

section
variable {s t : State} {src i : Nat} {m : Ctl}

/-! ## Probes -/

/-- The answer to a probe (R601): OWNED names the epoch after the sender's. -/
def probeAnswer (src : Nat) (m : Ctl) (owned : Bool) : Ctl :=
  { ctype := 0x0A, sEntry := m.sEntry, rEntry := m.rEntry, status := 0, reason := 0, reqId := m.reqId, epoch := m.epoch, origin := src,
    body := .probeReply owned (if owned then m.epoch + 1 else 0) }

/-- Whether this node holds the request, or points on to who does, under an epoch above the sender's. -/
def ownsAfter (m : Ctl) (s : State) : Bool :=
  (holders m.reqId s).any (fun i => ((s.entry i).st.owner || (s.entry i).st == .stub) && atLeast (s.entry i).epoch (m.epoch + 1))

/-- The entry of the handoff that the probe asks after, where it has not been accepted. -/
def probedEntry (src : Nat) (m : Ctl) (s : State) : Option Nat :=
  (holders m.reqId s).find? (fun i => (s.entry i).st == .handoffIn && (s.entry i).node == src && (s.entry i).epoch == m.epoch)

/-- What a probe makes of the state. -/
def probed (src : Nat) (m : Ctl) (s : State) : State :=
  if ownsAfter m s then mgmtSend src (probeAnswer src m true) s
  else match probedEntry src m s with
    | some i => mgmtSend src (probeAnswer src m false) (abandon i s)
    | none => mgmtSend src (probeAnswer src m false) s

theorem exec_probe (src : Nat) (m : Ctl) (s : State) : exec (.probe src m) s = onMgmt src 0x09 m s (probed src m) := rfl

theorem ownsAfter_of_holder (hi : i ∈ holders m.reqId s) (hst : (s.entry i).st.owner = true ∨ (s.entry i).st = .stub)
    (hm : m.epoch.toNat < 2 ^ 32 - 1) (he : m.epoch.toNat + 1 ≤ (s.entry i).epoch.toNat) : ownsAfter m s = true := by
  have hnext : (m.epoch + 1).toNat = m.epoch.toNat + 1 := by
    rw [BitVec.toNat_add]
    exact Nat.mod_eq_of_lt (by simp; omega)
  have hle : atLeast (s.entry i).epoch (m.epoch + 1) = true := decide_eq_true (by rwa [hnext])
  exact List.any_eq_true.2 ⟨i, hi, by rw [hle, Bool.and_true]; simpa using hst⟩

theorem ownsAfter_of_nobody (h : holders m.reqId s = []) : ownsAfter m s = false := by simp [ownsAfter, h]

theorem probedEntry_of_nobody (h : holders m.reqId s = []) : probedEntry src m s = none := by simp [probedEntry, h]

theorem ownsAfter_of_handoffIn (h : holders m.reqId s = [i]) (hst : (s.entry i).st = .handoffIn) : ownsAfter m s = false := by
  simp [ownsAfter, h, hst, TtState.owner]

theorem probedEntry_of_handoffIn (h : holders m.reqId s = [i]) (hst : (s.entry i).st = .handoffIn) (hn : (s.entry i).node = src)
    (he : (s.entry i).epoch = m.epoch) : probedEntry src m s = some i := by simp [probedEntry, h, hst, hn, he]

/-! ## A STUB -/

theorem movedBy_of_not_handoffOut (h : (s.entry i).st ≠ .handoffOut) : movedBy i src m s = s := if_neg fun hc => h hc.1

theorem chainTarget_of_stub (hst : (s.entry i).st = .stub) (hq : (s.entry i).reqId = m.reqId) (he : (s.entry i).epoch.toNat ≤ m.epoch.toNat) :
    chainTarget i m s = true := by simp [chainTarget, hst, hq, atLeast, he]

/-- A STUB that RELEASE reaches: its event, the RELEASE passed on, and the entry FREE. -/
def released (i : Nat) (m : Ctl) (s : State) : State := toFree i (chainUp 0x10 0 i (ttEvent 0x0104 i s) (some m.epoch))

theorem ttEvent_entry (code i k : Nat) (s : State) : (ttEvent code i s).entry k = s.entry k :=
  (ttEvent_onlyChanges code i s).entry_eq (by simp) k

/-- A RELEASE is passed on only where the STUB has a previous holder. -/
theorem released_changes {ps : List Zone} (hps : [.host, .tt, .ho, .out] ⊆ ps) (hsend : (s.entry i).fromValid = true → [.rail, .rc, .ft] ⊆ ps) :
    ChangesEntry ps i (fun e => { version := e.version + 1 }) s (released i m s) := by
  simp only [List.cons_subset] at hps
  have hsent : ChangesEntry ps i (fun e => e) s (chainUp 0x10 0 i (ttEvent 0x0104 i s) (some m.epoch)) :=
    .after (ttEvent_onlyChanges 0x0104 i s) (by simp) (by simp [hps]) (chainUp_changesEntry (by rwa [ttEvent_entry]))
  exact hsent.trans ((toFree_changesEntry i _).mono (by simp [hps]))

theorem completes_release {P : State → Prop} (ha : s.awake = true) (hm : m.ctype = 0x10) (hr : (s.conn 0).rx = []) (hi : m.rEntry = some i)
    (hst : (s.entry i).st = .stub) (hq : (s.entry i).reqId = m.reqId) (he : (s.entry i).epoch.toNat ≤ m.epoch.toNat)
    (hP : P (s.kept (released i m s))) : Completes (.release src m) s P := by
  have hexec : exec (.release src m) s = execRelease src m s := rfl
  rw [execRelease] at hexec
  refine completes_of_mgmt hexec ha hm hr ?_
  simp only [hi, Option.getD_some, movedBy_of_not_handoffOut (s := s) (i := i) (src := src) (m := m) (by rw [hst]; decide),
    chainTarget_of_stub hst hq he, if_true]
  exact hP

theorem completes_lost {P : State → Prop} (ha : s.awake = true) (hm : m.ctype = 0x11) (hr : (s.conn 0).rx = []) (hi : m.rEntry = some i)
    (hst : (s.entry i).st = .stub) (hq : (s.entry i).reqId = m.reqId) (he : (s.entry i).epoch.toNat ≤ m.epoch.toNat)
    (hP : P (s.kept (toLost i m.status s (some m.epoch)))) : Completes (.lost src m) s P := by
  have hexec : exec (.lost src m) s = execLost src m s := rfl
  rw [execLost] at hexec
  refine completes_of_mgmt hexec ha hm hr ?_
  simp only [hi, Option.getD_some, movedBy_of_not_handoffOut (s := s) (i := i) (src := src) (m := m) (by rw [hst]; decide),
    chainTarget_of_stub hst hq he, if_true]
  exact hP

/-! ## Cancels -/

/-- A CANCEL on the entry that it names: it waits for a handoff, for a step or for an ACCEPT, or applies (R388, R613). -/
def cancelAt (i : Nat) (m : Ctl) (s : State) : State :=
  if (s.entry i).st = .handoffOut ∨ (s.entry i).st = .handoffIn then
    putEntry i (fun e => { e with cancelPend := true, askers := e.askers ++ [(m.origin, m.sEntry)] }) s
  else if inStep i s ∨ (s.entry i).accepting then s.modEntry i (fun e => { e with askers := e.askers ++ [(m.origin, m.sEntry)] })
  else applyAsker i (m.origin, m.sEntry) s

theorem completes_cancel {P : State → Prop} (ha : s.awake = true) (hm : m.ctype = 0x12) (hr : (s.conn 0).rx = [])
    (hg : greatest m.reqId s = some i) (he : (s.entry i).epoch.toNat ≤ m.epoch.toNat) (hP : P (s.kept (cancelAt i m s))) :
    Completes (.cancel src m) s P := by
  have hexec : exec (.cancel src m) s = execCancel src m s := rfl
  rw [execCancel] at hexec
  refine completes_of_mgmt hexec ha hm hr ?_
  simp only [hg, atLeast, he, decide_true, Bool.not_true, Bool.false_eq_true, if_false]
  exact hP

theorem cancelAt_of_handoff (h : (s.entry i).st = .handoffOut ∨ (s.entry i).st = .handoffIn) :
    cancelAt i m s = putEntry i (fun e => { e with cancelPend := true, askers := e.askers ++ [(m.origin, m.sEntry)] }) s := if_pos h

theorem TtState.not_handoff_of_cancels {st : TtState} (h : st.cancels = true) : ¬ (st = .handoffOut ∨ st = .handoffIn) := by
  rintro (rfl | rfl) <;> exact absurd h (by decide)

theorem cancelAt_of_inStep (hst : (s.entry i).st.cancels = true) (hs : inStep i s = true) :
    cancelAt i m s = s.modEntry i (fun e => { e with askers := e.askers ++ [(m.origin, m.sEntry)] }) := by
  rw [cancelAt, if_neg (TtState.not_handoff_of_cancels hst), if_pos (Or.inl hs)]

theorem cancelAt_of_cancels (hst : (s.entry i).st.cancels = true) (hs : inStep i s = false) (ha : (s.entry i).accepting = false) :
    cancelAt i m s = cancelDone m.origin m.sEntry 0 (s.entry i).reqId (s.entry i).epoch (toCancelled i 0x51 s) := by
  rw [cancelAt, if_neg (TtState.not_handoff_of_cancels hst), if_neg (by simp [hs, ha])]
  exact if_pos hst

theorem cancelAt_of_stub (hst : (s.entry i).st = .stub) (hs : inStep i s = false) (ha : (s.entry i).accepting = false) :
    cancelAt i m s = (forwardFor i m.origin m.sEntry s).modEntry i (fun e => { e with fwd := e.fwd ++ [(m.origin, m.sEntry)] }) := by
  rw [cancelAt, if_neg (by simp [hst]), if_neg (by simp [hs, ha])]
  simp [applyAsker, hst, TtState.cancels]

theorem cancelAt_changes (i : Nat) (m : Ctl) (s : State) : ∃ f, ChangesEntry endingZones i f s (cancelAt i m s) := by
  unfold cancelAt
  split
  · exact ⟨_, (putEntry_changesEntry ..).mono (by decide)⟩
  · split
    · exact ⟨_, (modEntry_changesEntry ..).mono (by decide)⟩
    · exact applyAsker_changes ..

end

/-! # The obligation on the chain of nodes -/

/-- Settles O50: a probe by what its holders are, a STUB by RELEASE and LOST, a CANCEL by the state of the entry with the greatest epoch. -/
theorem handoffChain : Obligations.HandoffChain := by
  unfold Obligations.HandoffChain
  refine ⟨?probe, ?release, ?lost, ?cancel, ?nobody, ?done⟩
  case probe =>
    rintro s src m _ ha hm hr rfl
    have hframe (a : Ctl) : OnlyChanges [.rail, .rc, .ft] s (s.kept (mgmtSend src a s)) := (mgmtSend_onlyChanges _ _ _).kept
    refine completes_of_mgmt (exec_probe src m s) ha hm hr ⟨?owned, ?notHeld, ?abandons⟩
    case owned =>
      rintro ⟨i, hi, hst, hlt, hle⟩
      rw [probed, if_pos (ownsAfter_of_holder hi hst hlt hle)]
      exact ⟨rfl, hframe _⟩
    case notHeld =>
      intro hnone
      simp only [probed, ownsAfter_of_nobody hnone, probedEntry_of_nobody hnone, Bool.false_eq_true, if_false]
      exact ⟨rfl, hframe _⟩
    case abandons =>
      intro i hone hst hn he
      have hsent := mgmtSend_onlyChanges src (probeAnswer src m false) (abandon i s)
      obtain ⟨hfree, hcount⟩ := abandon_spec i s
      simp only [probed, ownsAfter_of_handoffIn hone hst, probedEntry_of_handoffIn hone hst hn he, Bool.false_eq_true, if_false,
        State.kept_entry, State.kept_ho, hsent.entry_eq (by simp)]
      exact ⟨hfree, (congrArg Handoff.abandoned (hsent.ho_eq (by simp))).trans hcount⟩
  case release =>
    intro s src i m ha hm hr hi hst hq he
    have hall := released_changes (s := s) (i := i) (m := m) (ps := [.host, .tt, .rail, .rc, .ho, .ft, .out]) (by simp) (fun _ => by simp)
    exact completes_release ha hm hr hi hst hq he ⟨hall.own, hall.others,
      fun hv => (released_changes (ps := [.host, .tt, .ho, .out]) (by simp) (by simp [hv])).frame.kept, hall.frame.kept⟩
  case lost =>
    intro s src i m ha hm hr hi hst hq he hd
    have hlost := toLost_changes (cause := m.status) (o := some m.epoch) hd
    refine completes_lost ha hm hr hi hst hq he ?_
    simp only [State.kept_entry, hlost.own]
    exact ⟨rfl, rfl, hq, hlost.others⟩
  case cancel =>
    intro s src i m ha hm hr hg he
    obtain ⟨f, hf⟩ := cancelAt_changes i m s
    refine completes_cancel ha hm hr hg he ⟨?applies, ?waits, ?handoff, ?stub, hf.others⟩
    case applies =>
      intro hst hs hacc
      have hsent (k : Nat) := (cancelDone_onlyChanges m.origin m.sEntry 0 (s.entry i).reqId (s.entry i).epoch (toCancelled i 0x51 s)).entry_eq
        (by simp) k
      rw [cancelAt_of_cancels hst hs hacc, State.kept_entry, hsent, (toCancelled_changes i 0x51 s).own]
      exact ⟨rfl, rfl, _, rfl⟩
    case waits =>
      intro hst hs
      have hmod := modEntry_changesEntry i (fun e => { e with askers := e.askers ++ [(m.origin, m.sEntry)] }) s
      rw [cancelAt_of_inStep hst hs]
      exact ⟨hmod.own, hmod.frame.kept⟩
    case handoff =>
      intro hst
      have hput := putEntry_changesEntry i (fun e => { e with cancelPend := true, askers := e.askers ++ [(m.origin, m.sEntry)] }) s
      rw [cancelAt_of_handoff hst]
      exact ⟨hput.own, hput.frame.kept⟩
    case stub =>
      intro hst hs hacc
      have hmod := ChangesEntry.after (ps := [.tt, .rail, .rc, .ft]) (forwardFor_onlyChanges i m.origin m.sEntry s) (by simp) (by simp)
        ((modEntry_changesEntry i (fun e => { e with fwd := e.fwd ++ [(m.origin, m.sEntry)] }) _).mono (by simp))
      rw [cancelAt_of_stub hst hs hacc]
      exact ⟨hmod.own, hmod.frame.kept⟩
  case nobody =>
    intro s src m ha hm hr hg
    have hexec : exec (.cancel src m) s = execCancel src m s := rfl
    rw [execCancel] at hexec
    refine completes_of_mgmt hexec ha hm hr ?_
    simp only [hg]
    exact (OnlyChanges.refl _ s).kept
  case done =>
    intro s src m w ha hm hr hst hw
    have hexec : exec (.cancelDone src m) s = execCancelDone src m s := rfl
    rw [execCancelDone] at hexec
    refine completes_of_mgmt hexec ha hm hr ?_
    simp only [movedBy_of_not_handoffOut hst, hw, true_and]
    exact (complete_onlyChanges _ _ _ _ _).kept

end Sys2Proof.Machine

/-! # Work lists

SUPPORT. What building a work list leaves as it was: the programs, the format of the logits, and all that decides where a step's areas lie
(R394 to R398). -/

namespace Sys2Proof.Machine

section
variable {s t u : State} {p : Nat} {g : StepProg}

/-! ## What depends on the image and the Groves alone -/

theorem refBad_congr (hi : t.img = s.img) (hg : t.groves = s.groves) (r : Ref) (n : Nat) : refBad t r n = refBad s r n := by
  have hslot (a k : Nat) : t.cslot a k = s.cslot a k := cslot_of_groves_eq hg a k
  cases r <;> simp [refBad, region_congr hi, hslot]

theorem refNum_congr (hm : t.mem = s.mem) (hi : t.img = s.img) (hg : t.groves = s.groves) (r : Ref) (o n : Nat) :
    refNum t r o n = refNum s r o n := by
  cases r <;> simp only [refNum, refRead, region_congr hi, regionRead, hm, canopyAddr, State.cslot, hg]

theorem ctxMismatch_congr (h : t.tn = s.tn) (c : Nat) : ctxMismatch 0 c t = ctxMismatch 0 c s := by
  simp only [ctxMismatch, State.ctxMap, mapped, h, ne_eq, not_true_eq_false, decide_false, Bool.false_and]

/-! ## What a work list leaves -/

/-- The parts that building a work list may change. -/
def listZones : List Zone := [.host, .waybill, .mem, .tt, .free, .out]

/-- Programs stay installed, and a partition's logits keep their format. -/
structure KeepsPrograms (p : Nat) (s t : State) : Prop where
  frame : OnlyChanges listZones s t
  progs : t.tt.progs = s.tt.progs
  vocab : (t.ttregs p).vocab = (s.ttregs p).vocab
  fmt   : (t.ttregs p).logitFmt = (s.ttregs p).logitFmt
  heads : (t.ttregs p).selHeads = (s.ttregs p).selHeads

theorem KeepsPrograms.refl (p : Nat) (s : State) : KeepsPrograms p s s := ⟨.refl _ s, rfl, rfl, rfl, rfl⟩

theorem KeepsPrograms.trans (h : KeepsPrograms p s t) (h' : KeepsPrograms p t u) : KeepsPrograms p s u :=
  ⟨h.frame.trans h'.frame, h'.progs.trans h.progs, h'.vocab.trans h.vocab, h'.fmt.trans h.fmt, h'.heads.trans h.heads⟩

theorem OnlyChanges.keepsPrograms {ps : List Zone} (h : OnlyChanges ps s t) (hs : ps ⊆ listZones) (hp : .tt ∉ ps) : KeepsPrograms p s t := by
  have htt := h.tt_eq hp
  have hregs : t.ttregs p = s.ttregs p := by rw [State.ttregs, htt, State.ttregs]
  exact ⟨h.mono hs, by rw [htt], by rw [hregs], by rw [hregs], by rw [hregs]⟩

theorem modEntry_keepsPrograms (i : Nat) (f : Entry → Entry) (s : State) : KeepsPrograms p s (s.modEntry i f) :=
  ⟨(onlyChanges_set_tt s _).mono (by decide), rfl, rfl, rfl, rfl⟩

theorem putEntry_keepsPrograms (i : Nat) (f : Entry → Entry) (s : State) : KeepsPrograms p s (putEntry i f s) := modEntry_keepsPrograms ..

theorem modTtRegs_keepsPrograms (f : TtRegs → TtRegs) (hv : ∀ r, (f r).vocab = r.vocab) (hf : ∀ r, (f r).logitFmt = r.logitFmt)
    (hh : ∀ r, (f r).selHeads = r.selHeads) (s : State) : KeepsPrograms p s (s.modTtRegs p f) :=
  ⟨(modTtRegs_onlyChanges s p f).mono (by decide), rfl, by rw [State.ttregs_modTtRegs_same, hv], by rw [State.ttregs_modTtRegs_same, hf],
    by rw [State.ttregs_modTtRegs_same, hh]⟩

theorem keepsPrograms_foldl {α : Type} {f : State → α → State} (h : ∀ s a, KeepsPrograms p s (f s a)) (l : List α) (s : State) :
    KeepsPrograms p s (l.foldl f s) := by
  induction l generalizing s with
  | nil => exact .refl p s
  | cons a l ih => exact (h s a).trans (ih (f s a))

theorem KeepsPrograms.progOf_eq (h : KeepsPrograms p s t) (q : Nat) : t.progOf q = s.progOf q := by rw [State.progOf, h.progs, State.progOf]

theorem KeepsPrograms.row_eq (h : KeepsPrograms p s t) : (logitsOf p g t).row = (logitsOf p g s).row := by
  simp only [logitsOf, Logits.row, Logits.elem, h.vocab, h.fmt, h.heads]
  rfl

theorem KeepsPrograms.refBad_eq (h : KeepsPrograms p s t) (r : Ref) (n : Nat) : refBad t r n = refBad s r n :=
  refBad_congr (h.frame.img_eq (by decide)) (of_decide_eq_true (h.frame .groves (by decide))) r n

theorem KeepsPrograms.ctxMismatch_eq (h : KeepsPrograms p s t) (c : Nat) : ctxMismatch 0 c t = ctxMismatch 0 c s :=
  ctxMismatch_congr (of_decide_eq_true (h.frame .tn (by decide))) c

/-! ## Building the list -/

theorem enterAll_onlyChanges (ref : Nat) (bs : List (Nat × Nat)) (ps : List Nat) (s : State) :
    OnlyChanges [.mem, .waybill] s (enterAll ref bs ps s) := by
  induction bs generalizing ps s with
  | nil => exact .refl _ s
  | cons b bs ih =>
    unfold enterAll
    split
    · exact .refl _ s
    · exact (enterBlock_keepsChains ..).frame.trans (ih _ _)

/-- Drawing pages lowers the entry's reservation and takes from the pool. -/
theorem drawPages_keepsPrograms {i rows : Nat} (h : drawPages i rows s = some t) : KeepsPrograms p s t := by
  unfold drawPages at h
  dsimp only at h
  split at h
  · cases h; exact .refl p s
  · split at h
    · cases h; exact .refl p s
    · split at h
      · simp at h
      next ps s1 htake =>
        cases h
        have htaken : KeepsPrograms p s s1 := (takePages_keepsChains htake).frame.keepsPrograms (by decide) (by simp)
        exact (htaken.trans (modEntry_keepsPrograms ..)).trans ((enterAll_onlyChanges _ _ _ _).keepsPrograms (by decide) (by simp))

theorem buildAdd_keepsPrograms (b : Build) (i : Nat) : KeepsPrograms p b.state (b.add p i).state := by
  unfold Build.add
  dsimp only
  split
  · exact .refl p _
  · split
    · have hcount : KeepsPrograms p b.state (b.state.modTtRegs p (fun r => { r with starved := satBv r.starved 1 })) :=
        by apply modTtRegs_keepsPrograms <;> exact fun _ => rfl
      dsimp only
      split
      · exact hcount
      · exact (hcount.trans (putEntry_keepsPrograms ..)).trans ((ttEvent_onlyChanges _ _ _).keepsPrograms (by decide) (by simp))
    next hdraw => exact drawPages_keepsPrograms hdraw

theorem foldl_buildAdd_keepsPrograms (l : List Nat) (b : Build) : KeepsPrograms p b.state (l.foldl (Build.add p) b).state := by
  induction l generalizing b with
  | nil => exact .refl p _
  | cons i l ih => exact (buildAdd_keepsPrograms b i).trans (ih _)

/-- The work list of a step, and the state it leaves (R396 to R398). -/
def workList (p : Nat) (s : State) : Build := (candidates p s).foldl (Build.add p) { state := s }

/-- The state with the listed entries on their way and the others passed over once more (R382, R396). -/
def listedState (p : Nat) (b : Build) : State :=
  b.skipped.foldl (fun s i => putEntry i (fun e => { e with waited := min 65535 (e.waited + 1) }) s)
    (listEntries (recordOrder p b.list b.state) b.state)

theorem listedState_keepsPrograms (b : Build) : KeepsPrograms p b.state (listedState p b) :=
  (keepsPrograms_foldl (fun _ _ => putEntry_keepsPrograms ..) _ _).trans (keepsPrograms_foldl (fun _ _ => putEntry_keepsPrograms ..) _ _)

/-! ## The step begins -/

/-- The step of a work list (R393, R397). -/
def begunStep (p : Nat) (g : StepProg) (b : Build) (s : State) : Step :=
  { seqs := recordOrder p b.list b.state, rows := b.rows, startSc := s.clk.sc,
    regions := inputRegions (listedState p b) [refOf g.embed.toNat] }

/-- The state with the step in flight and its speculative rows counted (R415). -/
def begunState (p : Nat) (g : StepProg) (b : Build) (s : State) : State :=
  ({ listedState p b with tt := { (listedState p b).tt with steps := tput (listedState p b).tt.steps p (some (begunStep p g b s)) none } } :
    State).modTtRegs p (fun r => { r with
      specRows := r.specRows + ((recordOrder p b.list b.state).map (fun q => if q.decode then q.rows - 1 else 0)).sum })

theorem begunState_stepOf (b : Build) : (begunState p g b s).stepOf p = some (begunStep p g b s) := by
  simp only [State.stepOf, begunState, State.modTtRegs, tget_tput_same]

theorem begunState_keepsPrograms : KeepsPrograms p s (begunState p g (workList p s) s) := by
  have hlisted : KeepsPrograms p s (listedState p (workList p s)) :=
    (foldl_buildAdd_keepsPrograms _ { state := s }).trans (listedState_keepsPrograms _)
  have hstep : KeepsPrograms p (listedState p (workList p s)) { listedState p (workList p s) with tt := { (listedState p (workList p s)).tt with
      steps := tput (listedState p (workList p s)).tt.steps p (some (begunStep p g (workList p s) s)) none } } :=
    ⟨(onlyChanges_set_tt _ _).mono (by decide), rfl, rfl, rfl, rfl⟩
  refine (hlisted.trans hstep).trans ?_
  apply modTtRegs_keepsPrograms <;> exact fun _ => rfl

theorem completes_stepStart {P : State → Prop} (hm : mayStep p s = true) (hg : s.progOf p = some g) (hl : (workList p s).list ≠ [])
    (hP : P (s.kept (if ctxMismatch 0 g.context (begunState p g (workList p s) s) then failStep p .tenantMismatch (begunState p g (workList p s) s)
      else if !areasFit p g (recordOrder p (workList p s).list (workList p s).state) (workList p s).rows (begunState p g (workList p s) s) then
        failStep p .malformed (begunState p g (workList p s) s)
      else advanceStep p 0 [] (writeInputs g (recordOrder p (workList p s).list (workList p s).state)
        (writeAttend g (recordOrder p (workList p s).list (workList p s).state) (begunState p g (workList p s) s)))))) :
    Completes (.stepStart p) s P := by
  have hlive : s.live = true := by
    simp only [mayStep, Bool.and_eq_true] at hm
    exact live_of_ready hm.1.1.1.1.1.1.1.1
  have hexec : exec (.stepStart p) s = execStepStart p s := rfl
  refine ⟨_, hexec.trans (actIf_of_live hlive hm), ?_⟩
  have hempty : (workList p s).list.isEmpty = false := by simpa using hl
  rw [workList] at hempty
  simp only [hg, hempty, Bool.false_eq_true, if_false]
  exact hP

end

end Sys2Proof.Machine

/-! # Entries of a step's program

SUPPORT. A program's entry in flight, a step that fails as a whole, and the records and rows written before (R392, R393, R399). -/

namespace Sys2Proof.Machine

section
variable {s t u : State} {p k : Nat} {g : StepProg} {x : Step} {e : Descriptor × Byte}

/-! ## A step that fails as a whole -/

theorem modStep_stepOf (h : s.stepOf p = some x) (f : Step → Step) : (modStep p f s).stepOf p = some (f x) := by
  rw [State.stepOf] at h
  simp only [State.stepOf, modStep, tget_tmod_same, h, Option.map_some]

theorem modStep_stepOf_other {q : Nat} (hq : q ≠ p) (f : Step → Step) (s : State) : (modStep p f s).stepOf q = s.stepOf q :=
  tget_tmod_other _ _ _ _ _ hq

theorem modStep_onlyChanges (p : Nat) (f : Step → Step) (s : State) : OnlyChanges [.tt] s (modStep p f s) := onlyChanges_set_tt s _

/-- The step fails for each of its requests, and its program is gone (R399). -/
theorem failStep_spec (h : s.stepOf p = some x) (st : Status) :
    (failStep p st s).stepOf p = some { x with failAll := some st, ended := none } ∧ (failStep p st s).progOf p = none ∧
    (∀ q, q ≠ p → (failStep p st s).stepOf q = s.stepOf q ∧ (failStep p st s).progOf q = s.progOf q) ∧
    OnlyChanges [.tt] s (failStep p st s) :=
  ⟨modStep_stepOf (s := { s with tt := { s.tt with progs := tput s.tt.progs p none none } }) h _,
    by simp only [State.progOf, failStep, modStep, tget_tput_same],
    fun _ hq => ⟨modStep_stepOf_other hq _ _, by simp only [State.progOf, failStep, modStep, tget_tput_other _ _ _ _ _ hq]⟩,
    (onlyChanges_set_tt s _).trans (onlyChanges_set_tt _ _)⟩

/-! ## The descriptor of an entry -/

theorem fld_setFld_of_low {y lo w v : Nat} (h : 8 ≤ lo) : fld (setFld y lo w v) 0 8 = fld y 0 8 := by
  apply Nat.eq_of_testBit_eq
  intro i
  simp only [fld, Nat.shiftRight_zero, Nat.testBit_mod_two_pow, testBit_setFld]
  by_cases hi : i < 8
  · simp [hi, show ¬ lo ≤ i by omega]
  · simp [hi]

theorem fld_toNat_ofNat {n y : Nat} (h : 8 ≤ n) : fld (BitVec.ofNat n y).toNat 0 8 = fld y 0 8 := by
  simp only [fld, Nat.shiftRight_zero, BitVec.toNat_ofNat]
  exact Nat.mod_mod_of_dvd y (Nat.pow_dvd_pow 2 h)

theorem dat_ofNat_opcode (y : Nat) : dat (BitVec.ofNat 512 y) 0 8 = fld y 0 8 := fld_toNat_ofNat (n := 512) (by omega)

/-- What the device fills in leaves the opcode (R392). -/
theorem dat_substEntry_opcode (g : StepProg) (e : Descriptor × Byte) (n rows : Nat) : dat (substEntry g e n rows) 0 8 = dat e.1 0 8 := by
  unfold substEntry
  extract_lets d0 d1
  have h1 : fld d1 0 8 = fld e.1.toNat 0 8 := by
    unfold d1 d0
    split
    · simp only [fld_setFld_of_low, Nat.reduceLeDiff]
    · split <;> simp only [fld_setFld_of_low, Nat.reduceLeDiff]
  rw [dat_ofNat_opcode]
  split
  · exact (fld_setFld_of_low (by omega)).trans h1
  · exact h1

/-! ## An entry that starts -/

theorem OnlyChanges.nextWid_eq {ps : List Zone} (h : OnlyChanges ps s t) (hp : .nextWid ∉ ps) : t.nextWid = s.nextWid :=
  of_decide_eq_true (h .nextWid hp)

theorem onlyChanges_set_nextWid (s : State) (x : Nat) : OnlyChanges [.nextWid] s { s with nextWid := x } := by
  intro z hz
  cases z <;> simp [sameZone] at hz ⊢

theorem substScatter_of_unsubstituted (hsub : e.2.getLsbD 0 = false) : substScatter e = false := by
  simp only [substScatter, hsub, Bool.false_and]

theorem substAttend_of_unsubstituted (hsub : e.2.getLsbD 0 = false) : substAttend e = false := by
  simp only [substAttend, hsub, Bool.false_and]

/-- An entry whose sequences the device does not fill in starts as it stands. -/
theorem advanceStep_launches (hx : s.stepOf p = some x) (hg : s.progOf p = some g) (hsel : x.selected = false) (he : g.entries[k]? = some e)
    (hsub : e.2.getLsbD 0 = false) (differ : List Nat) : advanceStep p k differ s = launchEntry p k g e x s := by
  obtain ⟨hk, hget⟩ := List.getElem?_eq_some_iff.1 he
  have hdrop : g.entries.zipIdx.drop k = (e, k) :: g.entries.zipIdx.drop (k + 1) := by
    rw [List.drop_eq_getElem_cons (by simpa using hk)]
    simp [hget]
  have hscatter := substScatter_of_unsubstituted hsub
  simp [advanceStep, hx, hg, hdrop, runEntries, hscatter, hsel]

/-- The entry is in flight as a descriptor of its own (R393). -/
theorem launchEntry_spec (hx : s.stepOf p = some x) (hsub : e.2.getLsbD 0 = false) (hfree : s.item s.nextWid = none) :
    (launchEntry p k g e x s).stepOf p = some { x with entry := k, ended := none } ∧
    (∃ w, (launchEntry p k g e x s).item s.nextWid = some w ∧ w.src = .step p k ∧ w.opcode = BitVec.ofNat 8 (dat e.1 0 8) ∧
      w.context = g.context ∧ w.prog = .waiting) ∧
    (launchEntry p k g e x s).nextWid = s.nextWid + 1 ∧ OnlyChanges [.work, .nextWid, .tt] s (launchEntry p k g e x s) := by
  have hscatter := substScatter_of_unsubstituted hsub
  have hattend := substAttend_of_unsubstituted hsub
  simp only [launchEntry, hscatter, hattend, Bool.false_eq_true, if_false]
  generalize hw : (Work.mk ..) = w
  refine ⟨?_, ⟨w, ?_, ?_⟩, rfl, ?_⟩
  · exact modStep_stepOf (s := { s with work := s.work ++ [w], nextWid := s.nextWid + 1 }) hx _
  · rw [State.item] at hfree
    simp only [State.item, modStep, List.find?_append, hfree, Option.none_or]
    simp [← hw]
  · subst hw
    exact ⟨rfl, congrArg (BitVec.ofNat 8) (dat_substEntry_opcode ..), rfl, rfl⟩
  · have hwork : OnlyChanges [.work, .nextWid, .tt] s { s with work := s.work ++ [w], nextWid := s.nextWid + 1 } :=
      ((onlyChanges_set_work s (s.work ++ [w])).mono (by simp)).trans ((onlyChanges_set_nextWid _ _).mono (by simp))
    exact hwork.trans ((modStep_onlyChanges _ _ _).mono (by simp))

/-! ## Records and rows -/

theorem writeAttend_onlyChanges (g : StepProg) (qs : List StepSeq) (s : State) :
    OnlyChanges [.groves, .mem, .waybill] s (writeAttend g qs s) := onlyChanges_foldl (fun _ _ => refWrite_onlyChanges _ _ _ _) _ s

theorem putInput_onlyChanges (g : StepProg) (row tok : Nat) (bad : Bool) (s : State) :
    OnlyChanges [.groves, .mem, .waybill] s (putInput g row tok bad s) := by
  unfold putInput
  dsimp only
  split
  · exact refWrite_onlyChanges _ _ _ _
  · split
    · exact (refWrite_onlyChanges _ _ _ _).trans ((refPoison_onlyChanges _ _ _ _).mono (by simp))
    · exact (refWrite_onlyChanges _ _ _ _).trans (refWrite_onlyChanges _ _ _ _)

theorem writeInputs_onlyChanges (g : StepProg) (qs : List StepSeq) (s : State) :
    OnlyChanges [.groves, .mem, .waybill] s (writeInputs g qs s) := by
  refine onlyChanges_foldl (fun u q => ?_) _ s
  have hrows := onlyChanges_foldl (ps := [.groves, .mem, .waybill])
    (f := fun s (t : (Nat × Bool) × Nat) => putInput g (q.1.qRow + t.2) t.1.1 t.1.2 s) (fun _ _ => putInput_onlyChanges _ _ _ _ _)
    (fedTokens q.1 u).zipIdx u
  dsimp only
  split
  · exact hrows
  · exact hrows.trans (refWrite_onlyChanges _ _ _ _)

/-- Without decode sequences the areas fit where X and LOGITS do. -/
theorem areasFit_of_prefill {qs : List StepSeq} {rows : Nat} (hq : ∀ q ∈ qs, q.decode = false)
    (hx : refBad s (refOf g.x.toNat) (max 1 (rows * g.embedRow)) = false)
    (hl : refBad s (refOf g.logits.toNat) (max 1 (rows * (logitsOf p g s).row)) = false) : areasFit p g qs rows s = true := by
  have hnone : qs.any (fun q => q.decode) = false := by simpa using hq
  simp [areasFit, hx, hl, hnone]

/-- Where an entry asks for no sequence, no record's status is read (R399). -/
theorem readStatuses_of_unsubstituted (hsub : e.2.getLsbD 0 = false) (g : StepProg) (x : Step) (s : State) : readStatuses e g x s = x.seqs := by
  simp [readStatuses, entrySeqs, substScatter_of_unsubstituted hsub, substAttend_of_unsubstituted hsub]

theorem completes_stepEntryComplete {st : Status} {r : W64} {l : List Nat} {P : State → Prop} (ha : s.awake = true) (hx : s.stepOf p = some x)
    (hg : s.progOf p = some g) (hended : x.ended = some (st, r)) (he : g.entries[x.entry]? = some e)
    (hP : P (s.kept (if st = .malformed ∨ st = .tenantMismatch ∨ st = .internal then failStep p st s
      else advanceStep p (x.entry + 1) l (modStep p (fun y => { y with seqs := readStatuses e g y s, worst := worseOp y.worst st }) s)))) :
    Completes (.stepEntryComplete p l) s P := by
  refine completes_of_awake (f := fun s => _) rfl ha ?_
  simp only [hx, hg, hended, he]
  exact hP

end

end Sys2Proof.Machine

/-! # How a step ends

SUPPORT. The record of a step (R262, R264), a prompt's sequence that advances (R383, R400), and a boundary where nothing waits (R382, R387,
R392). -/

namespace Sys2Proof.Machine

section
variable {s t : State} {p i seq : Nat} {x : Step} {q : StepSeq} {h : ListHdr}

/-! ## The record is appended -/

theorem State.chain_modChain_other {p' : Nat} {f : Chain → Chain} (hp : p ≠ p') : (s.modChain p' f).chain p = s.chain p :=
  tget_tmod_other _ _ _ _ _ hp

/-- A signing point leaves SEQ: at most it counts a coalesced one (R268). -/
theorem signPoint_seq (r : SignReq) (s : State) : ((signPoint r s).chain p).seq = (s.chain p).seq := by
  unfold signPoint
  split
  · rfl
  · split
    · rfl
    · extract_lets same
      split
      · rfl
      · extract_lets s1
        by_cases hp : p = r.part
        · rw [hp, State.chain_modChain_same]
          rfl
        · rw [State.chain_modChain_other hp]
          rfl

/-- A record of a step takes the next SEQ (R264). -/
theorem appendRec_seq (r : StepInfo) (hk : r.kind ≠ 0) (s : State) : ((appendRec p r s).chain p).seq = (s.chain p).seq + 1 := by
  unfold appendRec
  extract_lets c seq digests n signed prev r0 rec w full s1
  have hseq : (s1.chain p).seq = (s.chain p).seq + 1 := by
    rw [State.chain_modChain_same]
    exact if_neg hk
  split
  · rw [signPoint_seq, hseq]
  · exact hseq

/-! ## A sequence advances -/

theorem listPages_congr (hm : t.mem.hbm = s.mem.hbm) (h : ListHdr) : listPages t h = listPages s h := by
  simp only [listPages, chunkOff_congr hm, pageEnt_congr hm]

/-- An entry whose prompt has gone on: LENGTH and PAGES are its list's (R383). -/
def prefilledTo (h : ListHdr) (pages rows : Nat) (e : Entry) : Entry := { e with length := h.commit, pages, prefilled := rows }

/-- A sequence of a prompt that emits nothing and counts no prompt token advances its entry alone (R383, R400). -/
theorem endSeq_of_prompt (hfail : x.failAll = none) (hst : q.status = .ok) (hgone : q.gone = false) (hdec : q.decode = false)
    (hem : q.emitted = []) (hcount : (refNum s (s.entry q.entry).tallyRef 346 1).testBit 0 = false)
    (hl : listAt s (s.entry q.entry).list.toNat = some h) :
    endSeq p seq x q s = putEntry q.entry (prefilledTo h (listPages s h).length ((s.entry q.entry).prefilled + q.rows)) s := by
  have hstatus : seqStatus x q = .ok := by rw [seqStatus, hfail, Option.getD_none, hst]
  rw [endSeq]
  simp only [hstatus, hgone, Bool.false_eq_true, if_false, Status.success, advanceEntry, hl, hdec, hcount, hem]
  rfl

/-! ## The boundary -/

theorem closeFor_onlyChanges (c : Closer) (s : State) : OnlyChanges [.ft] s (closeFor c s) :=
  (onlyChanges_set_ft s _).trans (onlyChanges_set_ft _ _)

/-- A boundary where no operation, cancel or race waits for the entry. -/
theorem entryBoundary_of_quiet (hw : s.work.filter (fun w => w.prog == .boundary i) = []) (ha : (s.entry i).askers = [])
    (hr : (s.entry i).raceHit = none) : entryBoundary i s = s.modEntry i (fun e => { e with askers := [] }) := by
  have hrace : ((s.modEntry i (fun e => { e with askers := [] })).entry i).raceHit = none := by rw [State.entry_modEntry_same, hr]
  simp only [entryBoundary, hw, ha, applyAskers, List.any_nil, List.isEmpty_nil, Bool.not_true, Bool.or_self, Bool.false_eq_true, if_false,
    List.foldl_nil, raceBoundary, hrace]

/-- A step boundary where nothing waits for it but one entry's step. -/
theorem stepBoundary_of_quiet (hp : tget s.tt.pend p none = none) (hg : s.work.filter (fun w => w.prog == .program p) = [])
    (hw : s.work.filter (fun w => w.prog == .boundary i) = []) (ha : (s.entry i).askers = []) (hr : (s.entry i).raceHit = none) :
    stepBoundary p [i] s = closeFor (.step p) (s.modEntry i (fun e => { e with askers := [] })) := by
  simp only [stepBoundary, hp, hg, List.foldl_nil, List.foldl_cons, entryBoundary_of_quiet hw ha hr]

/-! ## The end -/

theorem Step.listOrder_singleton {x : Step} (hx : x.seqs = [q]) : x.listOrder = [q] := by
  rw [Step.listOrder, hx]
  rfl

/-- Where no sequence emits, no token ring is written (R400, R401). -/
theorem tokensFit_of_silent (hem : ∀ q ∈ x.seqs, q.emitted = []) : tokensFit x s = true := by
  have hnone : tokenFns x s = [] := by
    refine List.filterMap_eq_nil_iff.2 fun q hq => ?_
    simp [hem q hq]
  simp [tokensFit, hnone]

/-- The step's record is appended and the step has left its partition. -/
def stepRecorded (p : Nat) (x : Step) (s : State) : State :=
  let s1 := appendRec p (stepInfo x s) s
  { s1 with tt := { s1.tt with steps := tput s1.tt.steps p none none } }

theorem stepRecorded_changesEntry (i : Nat) : ChangesEntry [.waybill, .tt, .free] i (fun e => e) s (stepRecorded p x s) :=
  .after (appendRec_onlyChanges p (stepInfo x s) s) (by simp) (by simp) ⟨(onlyChanges_set_tt _ _).mono (by simp), rfl, fun _ _ => rfl⟩

/-- How a step is counted: its time, and the tokens and number of its decode sequences that did not fail (R415). -/
def stepCounted (x : Step) (s : State) : TtRegs → TtRegs :=
  let ds := x.seqs.filter (fun q => q.decode && (seqStatus x q).success)
  countStep (s.clk.sc - x.startSc) (ds.map (fun q => q.emitted.length)).sum ds.length

theorem completes_stepEnd {P : State → Prop} (ha : s.awake = true) (hx : s.stepOf p = some x) (hdone : stepDone p x s = true)
    (hroom : wbRoom p s = true) (hfit : tokensFit x s = true)
    (hP : P (s.kept (stepBoundary p (x.listOrder.map (fun q => q.entry)) ((x.listOrder.foldl
      (fun t q => endSeq p ((appendRec p (stepInfo x s) s).chain p).seq x q t) (stepRecorded p x s)).modTtRegs p (stepCounted x s))))) :
    Completes (.stepEnd p) s P := by
  refine completes_of_awake (f := fun s => _) rfl ha ?_
  simp only [hx, hdone, hroom, hfit, Bool.not_true, Bool.or_self, Bool.false_eq_true, if_false]
  exact hP

theorem modTtRegs_changesEntry (f : TtRegs → TtRegs) (s : State) : ChangesEntry [.tt] i (fun e => e) s (s.modTtRegs p f) :=
  ⟨modTtRegs_onlyChanges s p f, rfl, fun _ _ => rfl⟩

/-- The state in which a step's one sequence, of a prompt, has advanced and the step is counted. -/
def promptAdvanced (p : Nat) (x : Step) (q : StepSeq) (h : ListHdr) (s : State) : State :=
  (putEntry q.entry (prefilledTo h (listPages s h).length ((s.entry q.entry).prefilled + q.rows)) (stepRecorded p x s)).modTtRegs p
    (stepCounted x s)

theorem promptAdvanced_changesEntry (p : Nat) (x : Step) (q : StepSeq) (h : ListHdr) (s : State) :
    ChangesEntry [.waybill, .tt, .free] q.entry
      (touched (prefilledTo h (listPages s h).length ((s.entry q.entry).prefilled + q.rows))) s (promptAdvanced p x q h s) :=
  (stepRecorded_changesEntry q.entry).trans (((putEntry_changesEntry _ _ _).trans (modTtRegs_changesEntry _ _)).mono (by simp))

/-- The state after the boundary of that step. -/
def promptEnded (p : Nat) (x : Step) (q : StepSeq) (h : ListHdr) (s : State) : State :=
  (promptAdvanced p x q h s).modEntry q.entry (fun e => { e with askers := [] })

theorem promptEnded_changesEntry (haskers : (s.entry q.entry).askers = []) : ChangesEntry [.waybill, .tt, .free] q.entry
    (touched (prefilledTo h (listPages s h).length ((s.entry q.entry).prefilled + q.rows))) s (promptEnded p x q h s) := by
  refine ((promptAdvanced_changesEntry p x q h s).trans ((modEntry_changesEntry _ _ _).mono (by simp))).congr ?_
  simp only [touched, prefilledTo, haskers]

theorem State.chain_set_tt (y : Timetable) (s : State) : ({ s with tt := y } : State).chain p = s.chain p := rfl

theorem State.chain_modEntry (f : Entry → Entry) (s : State) : (s.modEntry i f).chain p = s.chain p := rfl

theorem State.chain_modTtRegs (f : TtRegs → TtRegs) (s : State) : (s.modTtRegs i f).chain p = s.chain p := rfl

theorem State.ttregs_modEntry (f : Entry → Entry) (s : State) : (s.modEntry i f).ttregs p = s.ttregs p := rfl

theorem appendRec_tt (r : StepInfo) (s : State) : (appendRec p r s).tt = s.tt := (appendRec_onlyChanges p r s).tt_eq (by simp)

theorem promptAdvanced_pend (p : Nat) (x : Step) (q : StepSeq) (h : ListHdr) (s : State) :
    (promptAdvanced p x q h s).tt.pend = s.tt.pend := by
  rw [← appendRec_tt (p := p) (stepInfo x s) s]
  rfl

/-- The step is gone from its partition alone, its record has the next SEQ, and it is counted (R262, R393, R415). -/
theorem promptEnded_spec (p : Nat) (x : Step) (q : StepSeq) (h : ListHdr) (s : State) :
    (promptEnded p x q h s).stepOf p = none ∧ (∀ k, k ≠ p → (promptEnded p x q h s).stepOf k = s.stepOf k) ∧
    ((promptEnded p x q h s).chain p).seq = (s.chain p).seq + 1 ∧ ((promptEnded p x q h s).ttregs p).steps = (s.ttregs p).steps + 1 := by
  have htt : (appendRec p (stepInfo x s) s).tt = s.tt := appendRec_tt _ _
  have hsteps : (promptEnded p x q h s).tt.steps = tput s.tt.steps p none none := by rw [← htt]; rfl
  have hregs : (stepRecorded p x s).tt.regs = s.tt.regs := by rw [← htt]; rfl
  have hcounted : (promptEnded p x q h s).ttregs p = stepCounted x s (s.ttregs p) := by
    rw [promptEnded, promptAdvanced, State.ttregs_modEntry, State.ttregs_modTtRegs_same, putEntry, State.ttregs_modEntry, State.ttregs,
      hregs, State.ttregs]
  have hchain : (promptEnded p x q h s).chain p = (appendRec p (stepInfo x s) s).chain p := by
    rw [promptEnded, promptAdvanced, State.chain_modEntry, State.chain_modTtRegs, putEntry, State.chain_modEntry, stepRecorded,
      State.chain_set_tt]
  have hkind : (stepInfo x s).kind ≠ 0 := by simp [stepInfo]
  refine ⟨?_, fun k hk => ?_, ?_, ?_⟩
  · rw [State.stepOf, hsteps, tget_tput_same]
  · rw [State.stepOf, hsteps, tget_tput_other _ _ _ _ _ hk, State.stepOf]
  · rw [hchain, appendRec_seq _ hkind]
  · rw [hcounted]
    rfl

/-- A step of one prompt's sequence, with nothing waiting for it, ends (R262, R383, R393, R400). -/
theorem completes_stepEnd_of_prompt {P : State → Prop} (ha : s.awake = true) (hx : s.stepOf p = some x) (hdone : stepDone p x s = true)
    (hroom : wbRoom p s = true) (hfail : x.failAll = none) (hseqs : x.seqs = [q]) (hst : q.status = .ok) (hgone : q.gone = false)
    (hdec : q.decode = false) (hem : q.emitted = []) (hcount : (refNum s (s.entry q.entry).tallyRef 346 1).testBit 0 = false)
    (hl : listAt s (s.entry q.entry).list.toNat = some h) (haskers : (s.entry q.entry).askers = [])
    (hrace : (s.entry q.entry).raceHit = none) (hpend : tget s.tt.pend p none = none)
    (hprogram : s.work.filter (fun w => w.prog == .program p) = []) (hboundary : s.work.filter (fun w => w.prog == .boundary q.entry) = [])
    (hP : P (s.kept (closeFor (.step p) (promptEnded p x q h s)))) : Completes (.stepEnd p) s P := by
  have hfit : tokensFit x s = true := tokensFit_of_silent (by simp [hseqs, hem])
  refine completes_stepEnd ha hx hdone hroom hfit ?_
  obtain ⟨hframe, hentry, -⟩ := stepRecorded_changesEntry (s := s) (p := p) (x := x) q.entry
  have himg := hframe.img_eq (by simp)
  have hmem := hframe.mem_eq (by simp)
  have hhbm := congrArg Mem.hbm hmem
  have hend := endSeq_of_prompt (s := stepRecorded p x s) (p := p) (seq := ((appendRec p (stepInfo x s) s).chain p).seq) hfail hst hgone
    hdec hem (by rw [hentry, refNum_congr hmem himg (hframe.groves_eq (by simp)), hcount])
    (by rw [hentry, listAt_congr himg hhbm, hl])
  rw [hentry, listPages_congr hhbm] at hend
  rw [Step.listOrder_singleton hseqs, List.foldl_cons, List.foldl_nil, hend, List.map_singleton, ← promptAdvanced]
  have hadvanced := promptAdvanced_changesEntry p x q h s
  have hwork := hadvanced.frame.work_eq (by simp)
  rw [stepBoundary_of_quiet (by rw [promptAdvanced_pend, hpend]) (by rw [hwork, hprogram]) (by rw [hwork, hboundary])
    (by rw [hadvanced.own]; exact haskers) (by rw [hadvanced.own]; exact hrace)]
  exact hP

end

end Sys2Proof.Machine

/-! # The obligation on steps -/

namespace Sys2Proof.Machine

section
variable {s : State} {p : Nat} {g : StepProg}

/-- Where no request can run, no step starts (R393). -/
theorem completes_stepStart_of_idle (hm : mayStep p s = true) (hc : candidates p s = []) :
    Completes (.stepStart p) s (fun t => OnlyChanges [] s t) := by
  have hlive : s.live = true := by
    simp only [mayStep, Bool.and_eq_true] at hm
    exact live_of_ready hm.1.1.1.1.1.1.1.1
  have hexec : exec (.stepStart p) s = execStepStart p s := rfl
  refine ⟨_, hexec.trans (actIf_of_live hlive hm), OnlyChanges.kept ?_⟩
  simp only [hc, List.foldl_nil]
  cases s.progOf p <;> exact .refl [] s

/-- The state in which the first entry of a step's program starts: its records and rows are written. -/
def readyState (p : Nat) (g : StepProg) (s : State) : State :=
  let qs := recordOrder p (workList p s).list (workList p s).state
  writeInputs g qs (writeAttend g qs (begunState p g (workList p s) s))

theorem readyState_onlyChanges : OnlyChanges [.groves, .mem, .waybill] (begunState p g (workList p s) s) (readyState p g s) :=
  (writeAttend_onlyChanges _ _ _).trans (writeInputs_onlyChanges _ _ _)

end

/-- Settles O38: no step starts without a request; one that starts fails as a whole or has its first entry in flight; each entry that ends
lets the next start or ends the program; the step's end appends its record and advances its request. -/
theorem timetableSteps : Obligations.TimetableSteps := by
  unfold Obligations.TimetableSteps
  refine ⟨?idle, ?mismatch, ?starts, ?malformed, ?next, ?ends⟩
  case idle =>
    intro s p hm hc
    exact completes_stepStart_of_idle hm hc
  case mismatch =>
    rintro s p g _ hm hg rfl hl hctx
    have hctx' := ((begunState_keepsPrograms (p := p) (g := g)).ctxMismatch_eq g.context).trans hctx
    obtain ⟨hstep, hprog, -, -⟩ := failStep_spec (begunState_stepOf (p := p) (g := g) (s := s) (workList p s)) .tenantMismatch
    refine completes_stepStart hm hg hl ?_
    rw [if_pos hctx']
    exact ⟨⟨_, hstep, rfl, rfl⟩, hprog⟩
  case starts =>
    rintro s p g _ e rest hm hg rfl hl hctx hq hx hlogits he hsub hfree
    have hkeeps := begunState_keepsPrograms (p := p) (g := g) (s := s)
    have hctx' := (hkeeps.ctxMismatch_eq g.context).trans hctx
    have hfit : areasFit p g (recordOrder p (workList p s).list (workList p s).state) (workList p s).rows
        (begunState p g (workList p s) s) = true :=
      areasFit_of_prefill hq (by rw [hkeeps.refBad_eq]; exact hx) (by rw [hkeeps.refBad_eq, hkeeps.row_eq]; exact hlogits)
    have hready := readyState_onlyChanges (p := p) (g := g) (s := s)
    have htt := hready.tt_eq (by simp)
    have hstep : (readyState p g s).stepOf p = some (begunStep p g (workList p s) s) := by
      rw [State.stepOf, htt]
      exact begunState_stepOf _
    have hprog : (readyState p g s).progOf p = some g := by
      rw [State.progOf, htt]
      exact (hkeeps.progOf_eq p).trans hg
    have hwid : (readyState p g s).nextWid = s.nextWid :=
      (hready.nextWid_eq (by simp)).trans (hkeeps.frame.nextWid_eq (by decide))
    have hwork : (readyState p g s).work = s.work := (hready.work_eq (by simp)).trans (hkeeps.frame.work_eq (by decide))
    have hlaunch := advanceStep_launches hstep hprog rfl (k := 0) (by rw [he, List.getElem?_cons_zero]) hsub []
    obtain ⟨hx', ⟨w, hw, hsrc, hop, hcx, hwait⟩, hnext, -⟩ := launchEntry_spec (p := p) (k := 0) (g := g) hstep hsub
      (by rw [hwid, item_of_work_eq hwork, hfree])
    refine completes_stepStart hm hg hl ?_
    rw [hctx', hfit, ← readyState, hlaunch]
    rw [hwid] at hw hnext
    exact ⟨⟨_, hx', rfl, rfl, rfl, rfl, rfl⟩, ⟨w, hw, hsrc, hop, hcx, hwait⟩, hnext⟩
  case malformed =>
    intro s p x g r e l ha hx hg hended he
    obtain ⟨hstep, hprog, hothers, hframe⟩ := failStep_spec hx .malformed
    refine completes_stepEntryComplete ha hx hg hended he ?_
    rw [if_pos (Or.inl rfl)]
    exact ⟨hstep, hprog, hothers, hframe.kept⟩
  case next =>
    intro s p x g r e d l ha hx hg hsel hended he hsub hd hsub' hfree
    have hstatuses := readStatuses_of_unsubstituted hsub g x s
    have hstep := modStep_stepOf hx (fun y => { y with seqs := readStatuses e g y s, worst := worseOp y.worst .ok })
    rw [hstatuses] at hstep
    have hlaunch := advanceStep_launches hstep (s := modStep p _ s) hg hsel hd hsub' l
    obtain ⟨hx', ⟨w, hw, hsrc, hop, -, -⟩, hnext, hframe⟩ := launchEntry_spec (p := p) (k := x.entry + 1) (g := g) hstep hsub' hfree
    refine completes_stepEntryComplete ha hx hg hended he ?_
    rw [if_neg (by simp), hlaunch]
    exact ⟨hx', ⟨w, hw, hsrc, hop⟩, hnext, (((modStep_onlyChanges _ _ _).mono (by simp)).trans hframe).kept⟩
  case ends =>
    intro s p x q h ha hx hdone hroom hfail hseqs hst hgone hdec hem hcount hl haskers hrace hpend hwork
    have hboundary : s.work.filter (fun w => w.prog == .boundary q.entry) = [] :=
      List.filter_eq_nil_iff.2 fun w hw heq => by simpa [beq_iff_eq.1 heq] using hwork w hw
    have hprogram : s.work.filter (fun w => w.prog == .program p) = [] :=
      List.filter_eq_nil_iff.2 fun w hw heq => by simpa [beq_iff_eq.1 heq] using hwork w hw
    obtain ⟨hframe, hentry, hothers⟩ := promptEnded_changesEntry (p := p) (x := x) (h := h) haskers
    obtain ⟨hstep, hsteps, hseq, hcounted⟩ := promptEnded_spec p x q h s
    refine completes_stepEnd_of_prompt ha hx hdone hroom hfail hseqs hst hgone hdec hem hcount hl haskers hrace hpend hprogram hboundary ?_
    exact ⟨hstep, hsteps, hseq, hcounted, hentry, hothers, ((hframe.mono (by simp)).trans ((closeFor_onlyChanges _ _).mono (by simp))).kept⟩

end Sys2Proof.Machine

/-! # Regions of the DDR5 tier

SUPPORT. What a change of a region or of a tenant's share leaves of the others, a tier operation that starts in its turn (R470), and the
declarations, changes of state and writes of quotas that come to them (R450, R462 to R469). -/

namespace Sys2Proof.Machine

section
variable {s t : State} {w : Work} {op : Byte} {id : Nat} {map : List Nat}

/-! ## Regions and shares -/

theorem State.ddrRegion_modDdr_other {r k : Nat} {f : DdrRegion → DdrRegion} (h : k ≠ r) : (s.modDdr r f).ddrRegion k = s.ddrRegion k :=
  tget_tmod_other _ _ _ _ _ h

theorem State.share_modShare_same (s : State) (k : Nat) (f : TenantCap → TenantCap) : (s.modShare k f).share k = f (s.share k) :=
  tget_tmod_same ..

theorem State.share_modShare_other {k j : Nat} {f : TenantCap → TenantCap} (h : j ≠ k) : (s.modShare k f).share j = s.share j :=
  tget_tmod_other _ _ _ _ _ h

theorem share_of_ddr_eq (h : t.ddr = s.ddr) (k : Nat) : t.share k = s.share k := by rw [State.share, h, State.share]

theorem modShare_onlyChanges (s : State) (k : Nat) (f : TenantCap → TenantCap) : OnlyChanges [.ddr] s (s.modShare k f) :=
  onlyChanges_set_ddr s _

/-- Changing one region changes no other region and no other part. -/
theorem modDdr_spec (s : State) (id : Nat) (f : DdrRegion → DdrRegion) : (s.modDdr id f).ddrRegion id = f (s.ddrRegion id) ∧
    (∀ k, k ≠ id → (s.modDdr id f).ddrRegion k = s.ddrRegion k) ∧ OnlyChanges [.ddr] s (s.modDdr id f) :=
  ⟨State.ddrRegion_modDdr_same .., fun _ hk => State.ddrRegion_modDdr_other hk, modDdr_onlyChanges s id f⟩

/-- Changing one tenant's share changes no other share and no other part. -/
theorem modShare_spec (s : State) (k : Nat) (f : TenantCap → TenantCap) : (s.modShare k f).share k = f (s.share k) ∧
    (∀ j, j ≠ k → (s.modShare k f).share j = s.share j) ∧ OnlyChanges [.ddr] s (s.modShare k f) :=
  ⟨State.share_modShare_same .., fun _ hj => State.share_modShare_other hj, modShare_onlyChanges s k f⟩

/-! ## A tier operation in its turn (R470) -/

theorem TierReady.tierRegion_eq (h : TierReady s w op) (hop : tierSerial op = true) : tierRegion w = dat w.body 8 8 := by
  obtain ⟨⟨-, -, rfl, -⟩, -⟩ := h
  refine congrArg (dat w.body · 8) (if_neg ?_)
  rintro (hstore | hload)
  · rw [hstore] at hop
    exact absurd hop (by decide)
  · rw [hload] at hop
    exact absurd hop (by decide)

theorem completes_of_tier {c : Instr} {f : Work → State → State} {P : State → Prop} (hc : exec c s = startTier w.wid op s f)
    (h : TierReady s w op) (hP : P (s.kept (f w s))) : Completes c s P := by
  refine completes_of_start hc h.1 ?_
  rwa [if_pos h.2]

/-- A tier operation that is refused completes with the cause, and nothing else changes. -/
theorem completes_of_tier_refused {c : Instr} {f : Work → State → State} {st : Status} {r : Nat} (hc : exec c s = startTier w.wid op s f)
    (h : TierReady s w op) (hf : f w s = complete w st r s) :
    Completes c s (fun t => t = complete w st r s ∧ OnlyChanges [.host, .work, .tt, .ft, .tn, .out] s t) :=
  (completes_of_refused hc h.1 ((if_pos h.2).trans hf)).imp fun _ ⟨heq, _, hframe⟩ => ⟨heq, hframe⟩

/-! ## A declaration (R450, R463, R468) -/

theorem exec_mtDdrDeclare (wid : Nat) (map : List Nat) (s : State) : exec (.mtDdrDeclare wid map) s = execMtDdrDeclare wid map s := rfl

/-- The region that a declaration makes of the units of a map. -/
def declaredRegion (w : Work) (st : DdrState) (map : List Nat) (s : State) : DdrRegion :=
  { st, pin := (dat w.body 9 8).testBit 1, tenant := w.tenant, units := dat w.body 12 32, keyIdx := (s.keysOf w.tenant).ddr,
    gen := BitVec.ofNat 32 (dat w.body 16 32), map, fn := w.fn }

/-- The state with that region in place and its units counted against its tenant. -/
def declared (w : Work) (st : DdrState) (map : List Nat) (s : State) : State :=
  (s.modDdr (dat w.body 8 8) (fun _ => declaredRegion w st map s)).modShare w.tenant (fun x => { x with
    used := x.used + dat w.body 12 32, pinned := x.pinned + (if (dat w.body 9 8).testBit 1 then dat w.body 12 32 else 0) })

theorem declared_spec (w : Work) (st : DdrState) (map : List Nat) (s : State) :
    (declared w st map s).ddrRegion (dat w.body 8 8) = declaredRegion w st map s ∧
    (∀ k, k ≠ dat w.body 8 8 → (declared w st map s).ddrRegion k = s.ddrRegion k) ∧
    ((declared w st map s).share w.tenant).used = (s.share w.tenant).used + dat w.body 12 32 ∧
    OnlyChanges [.ddr] s (declared w st map s) := by
  obtain ⟨hregion, hothers, hframe⟩ := modDdr_spec s (dat w.body 8 8) (fun _ => declaredRegion w st map s)
  exact ⟨hregion, hothers, congrArg TenantCap.used (State.share_modShare_same ..), hframe.trans (modShare_onlyChanges _ _ _)⟩

/-- The host write that reports the units of a declaration without RESTORE. -/
def mapReport (w : Work) (s : State) : Out :=
  .hostWrite w.fn (dat w.body 24 64) ((lowestFree (dat w.body 12 32) (unitsUsed s)).flatMap (leBytes 4))

/-- The state in which a declaration without RESTORE waits for its record places, its map sent to the host. -/
def declaring (w : Work) (s : State) : State :=
  ((declared w .undeclared (lowestFree (dat w.body 12 32) (unitsUsed s)) s).emit (mapReport w s)).setProg w.wid (.ddrInit (dat w.body 8 8))

theorem declareAlloc_of_restore (hid : tierRegion w = dat w.body 8 8) (hr : (dat w.body 9 8).testBit 0 = true) :
    declareAlloc w map s = complete w .ok (dat w.body 12 32) (declared w .unsealed map s) := by
  simp only [declareAlloc, hid, hr, if_true, declared, declaredRegion]

theorem declareAlloc_of_fresh (hid : tierRegion w = dat w.body 8 8) (hr : (dat w.body 9 8).testBit 0 = false) :
    declareAlloc w map s = declaring w s := by
  simp only [declareAlloc, hid, hr, Bool.false_eq_true, if_false, declaring, mapReport, declared, declaredRegion]

/-- A declaration that the tests admit, with enough units free, allocates. -/
theorem completes_mtDdrDeclare {P : State → Prop} (h : TierReady s w 0x50) (hc : declareChecks w map s = none)
    (ha : admitUnits w.tenant (dat w.body 12 32) ((dat w.body 9 8).testBit 1) s = none) (hfree : dat w.body 12 32 ≤ ddrFree s)
    (hP : P (s.kept (declareAlloc w map s))) : Completes (.mtDdrDeclare w.wid map) s P := by
  refine completes_of_tier (exec_mtDdrDeclare w.wid map s) h ?_
  simpa only [hc, ha, declareGo, ge_iff_le, hfree, if_true] using hP

theorem declaring_spec (hi : s.item w.wid = some w) : At w (.ddrInit (dat w.body 8 8)) (declaring w s) ∧
    (declaring w s).ddrRegion (dat w.body 8 8) =
      declaredRegion w .undeclared (lowestFree (dat w.body 12 32) (unitsUsed s)) s ∧
    (∀ k, k ≠ dat w.body 8 8 → (declaring w s).ddrRegion k = s.ddrRegion k) ∧
    ((declaring w s).share w.tenant).used = (s.share w.tenant).used + dat w.body 12 32 ∧
    (declaring w s).out = s.out ++ [mapReport w s] ∧ OnlyChanges [.work, .ddr, .out] s (declaring w s) := by
  obtain ⟨hregion, hothers, hused, hframe⟩ := declared_spec w .undeclared (lowestFree (dat w.body 12 32) (unitsUsed s)) s
  have hddr : (declaring w s).ddr = (declared w .undeclared (lowestFree (dat w.body 12 32) (unitsUsed s)) s).ddr := rfl
  have hsent : OnlyChanges [.ddr, .out] s ((declared w .undeclared (lowestFree (dat w.body 12 32) (unitsUsed s)) s).emit (mapReport w s)) :=
    (hframe.mono (by simp)).trans ((emit_onlyChanges _ _).mono (by simp))
  have hitem := (item_of_work_eq (hsent.work_eq (by simp)) w.wid).trans hi
  simp only [ddrRegion_of_ddr_eq hddr, share_of_ddr_eq hddr]
  exact ⟨at_setProg hitem, hregion, hothers, hused, rfl, (hsent.mono (by simp)).trans ((setProg_onlyChanges _ _ _).mono (by simp))⟩

/-! ## The record places of a new region (R458) -/

/-- The region whose record places a declaration waits for. -/
def initRegion : Prog → Option Nat
  | .ddrInit id => some id
  | _ => none

/-- The region is UNSEALED, and every record place of it holds zeros. -/
def recordsReady (id : Nat) (s : State) : State := initRecords id (s.modDdr id (fun r => { r with st := .unsealed }))

/-- The declaration ends, RESULT being the region's units. -/
def endInit (w : Work) (id : Nat) (s : State) : State := complete w .ok (s.ddrRegion id).units (recordsReady id s)

theorem exec_ddrRecordInitComplete (wid : Nat) (s : State) : exec (.ddrRecordInitComplete wid) s = resume wid s initRegion endInit := rfl

theorem initRecords_writesChunks (id : Nat) (s : State) : (∀ k, (initRecords id s).ddrRegion k = s.ddrRegion k) ∧
    OnlyChanges [.ddr] s (initRecords id s) := by
  have hwrites : WritesChunks (fun u => (List.range (2 * (s.ddrRegion id).units)).foldl (fun u p => (List.range 8).foldl (fun u j =>
      writeChunk id (8 * tierPlace (s.ddrRegion id) (blockPlaces (s.ddrRegion id) + p) + j) (List.replicate 512 0) u) u) u) :=
    .foldl (fun _ => .foldl (fun _ => writeChunk_writesChunks ..) _) _
  exact ⟨hwrites.ddrRegion s, hwrites.frame s⟩

theorem recordsReady_spec (id : Nat) (s : State) : (recordsReady id s).ddrRegion id = { s.ddrRegion id with st := .unsealed } ∧
    (∀ k, k ≠ id → (recordsReady id s).ddrRegion k = s.ddrRegion k) ∧ OnlyChanges [.ddr] s (recordsReady id s) := by
  obtain ⟨hregion, hothers, hframe⟩ := modDdr_spec s id (fun r => { r with st := .unsealed })
  obtain ⟨hsame, hchunks⟩ := initRecords_writesChunks id (s.modDdr id (fun r => { r with st := .unsealed }))
  exact ⟨(hsame id).trans hregion, fun k hk => (hsame k).trans (hothers k hk), hframe.trans hchunks⟩

/-! ## Changes of state (R450, R469) -/

theorem exec_mtDdrSeal (wid : Nat) (s : State) : exec (.mtDdrSeal wid) s = execMtDdrSeal wid s := rfl

theorem exec_mtDdrUnseal (wid : Nat) (s : State) : exec (.mtDdrUnseal wid) s = execMtDdrUnseal wid s := rfl

theorem exec_mtDdrRetire (wid : Nat) (s : State) : exec (.mtDdrRetire wid) s = execMtDdrRetire wid s := rfl

theorem exec_mtDdrPin (wid : Nat) (s : State) : exec (.mtDdrPin wid) s = execMtDdrPin wid s := rfl

/-- A seal waits for the earlier writes of its region in flight, or is made. -/
theorem completes_mtDdrSeal {P : State → Prop} (h : TierReady s w 0x51) (hc : regionChecks w (· == .unsealed) s = none)
    (hP : P (s.kept (if writesBefore w (dat w.body 8 8) s then s.setProg w.wid (.ddr (dat w.body 8 8)) else sealRegion w (dat w.body 8 8) s))) :
    Completes (.mtDdrSeal w.wid) s P := by
  refine completes_of_tier (exec_mtDdrSeal w.wid s) h ?_
  simpa only [hc, h.tierRegion_eq (by decide)] using hP

/-- The state in which an operation waits for its region to drain, the region's new state admitting no new work. -/
def draining (w : Work) (st : DdrState) (s : State) : State :=
  (s.setProg w.wid (.ddr (dat w.body 8 8))).modDdr (dat w.body 8 8) (fun r => { r with st })

theorem draining_spec (hi : s.item w.wid = some w) (st : DdrState) : At w (.ddr (dat w.body 8 8)) (draining w st s) ∧
    (draining w st s).ddrRegion (dat w.body 8 8) = { s.ddrRegion (dat w.body 8 8) with st } ∧
    (∀ k, k ≠ dat w.body 8 8 → (draining w st s).ddrRegion k = s.ddrRegion k) ∧ OnlyChanges [.work, .ddr] s (draining w st s) := by
  obtain ⟨hregion, hothers, hframe⟩ := modDdr_spec (s.setProg w.wid (.ddr (dat w.body 8 8))) (dat w.body 8 8) (fun r => { r with st })
  exact ⟨at_setProg hi, hregion, hothers, ((setProg_onlyChanges s _ _).mono (by simp)).trans (hframe.mono (by simp))⟩

theorem completes_mtDdrUnseal {P : State → Prop} (h : TierReady s w 0x52) (hc : regionChecks w (· == .sealed) s = none)
    (hP : P (s.kept (draining w .unsealing s))) : Completes (.mtDdrUnseal w.wid) s P := by
  refine completes_of_tier (exec_mtDdrUnseal w.wid s) h ?_
  simpa only [hc, h.tierRegion_eq (by decide), draining] using hP

theorem completes_mtDdrRetire {P : State → Prop} (h : TierReady s w 0x53) (hc : regionChecks w (· != .retiring) s = none)
    (hP : P (s.kept (draining w .retiring s))) : Completes (.mtDdrRetire w.wid) s P := by
  refine completes_of_tier (exec_mtDdrRetire w.wid s) h ?_
  simpa only [hc, h.tierRegion_eq (by decide), draining] using hP

/-! ## Pins (R463, R469) -/

/-- The state with a region pinned, its units counted against its tenant's floor. -/
def pinned (id : Nat) (s : State) : State :=
  (s.modDdr id (fun r => { r with pin := true })).modShare (s.ddrRegion id).tenant (fun x => { x with
    pinned := x.pinned + (s.ddrRegion id).units })

theorem pinned_spec (id : Nat) (s : State) : ((pinned id s).ddrRegion id).pin = true ∧
    ((pinned id s).share (s.ddrRegion id).tenant).pinned = (s.share (s.ddrRegion id).tenant).pinned + (s.ddrRegion id).units ∧
    OnlyChanges [.ddr] s (pinned id s) := by
  obtain ⟨hregion, -, hframe⟩ := modDdr_spec s id (fun r => { r with pin := true })
  exact ⟨congrArg DdrRegion.pin hregion, congrArg TenantCap.pinned (State.share_modShare_same ..),
    hframe.trans (modShare_onlyChanges _ _ _)⟩

/-- PIN is set where the pinned units then stay within the floor. -/
theorem completes_mtDdrPin {P : State → Prop} (h : TierReady s w 0x56) (hc : regionChecks w (fun _ => true) s = none)
    (hset : (dat w.body 9 8).testBit 0 = true) (hpin : (s.ddrRegion (dat w.body 8 8)).pin = false)
    (hroom : (s.share (s.ddrRegion (dat w.body 8 8)).tenant).pinned + (s.ddrRegion (dat w.body 8 8)).units ≤
      (s.share (s.ddrRegion (dat w.body 8 8)).tenant).floor.toNat)
    (hP : P (s.kept (complete w .ok 0 (pinned (dat w.body 8 8) s)))) : Completes (.mtDdrPin w.wid) s P := by
  refine completes_of_tier (exec_mtDdrPin w.wid s) h ?_
  simpa [hc, h.tierRegion_eq (by decide), hset, hpin, not_lt.2 hroom, pinned] using hP

/-! ## A region has drained (R450, R465) -/

theorem exec_ddrRegionInFlightDrained (id : Nat) (s : State) :
    exec (.ddrRegionInFlightDrained id) s = execDdrRegionInFlightDrained id s := rfl

theorem completes_unsealed {P : State → Prop} (hl : s.live = true) (hn : (s.ddrRegion id).inFlight = 0)
    (hst : (s.ddrRegion id).st = .unsealing) (hw : waiterOf id 0x52 s = some w)
    (hP : P (s.kept (complete w .ok 0 (s.modDdr id (fun r => { r with st := .unsealed }))))) :
    Completes (.ddrRegionInFlightDrained id) s P := by
  refine ⟨_, (exec_ddrRegionInFlightDrained id s).trans (actIf_of_live hl (decide_eq_true hn)), ?_⟩
  simpa only [hst, hw] using hP

/-- The state with a retired region undeclared and its units returned. -/
def undeclared (id : Nat) (s : State) : State :=
  (s.modDdr id (fun _ => {})).modShare (s.ddrRegion id).tenant (fun x => { x with
    used := x.used - (s.ddrRegion id).units
    pinned := if (s.ddrRegion id).pin then x.pinned - (s.ddrRegion id).units else x.pinned })

theorem undeclared_spec (id : Nat) (s : State) : (undeclared id s).ddrRegion id = {} ∧
    ((undeclared id s).share (s.ddrRegion id).tenant).used = (s.share (s.ddrRegion id).tenant).used - (s.ddrRegion id).units ∧
    (∀ k, k ≠ id → (undeclared id s).ddrRegion k = s.ddrRegion k) ∧ OnlyChanges [.ddr] s (undeclared id s) := by
  obtain ⟨hregion, hothers, hframe⟩ := modDdr_spec s id (fun _ => {})
  exact ⟨hregion, congrArg TenantCap.used (State.share_modShare_same ..), hothers, hframe.trans (modShare_onlyChanges _ _ _)⟩

theorem resumeDeclare_of_none_evicts (h : ∀ x ∈ s.work, ∀ n map, x.prog ≠ .ddrEvict n map) : resumeDeclare s = s := by
  unfold resumeDeclare
  split
  next x hfound =>
    split
    next n map hp => exact absurd hp (h x (List.mem_of_find?_eq_some hfound) n map)
    next => rfl
  next => rfl

/-- A retired region that drains while no operation and no declaration waits for it is undeclared. -/
theorem completes_undeclared {P : State → Prop} (hl : s.live = true) (hn : (s.ddrRegion id).inFlight = 0)
    (hst : (s.ddrRegion id).st = .retiring) (hw : waiterOf id 0x53 s = none) (he : ∀ x ∈ s.work, ∀ n map, x.prog ≠ .ddrEvict n map)
    (hP : P (s.kept (undeclared id s))) : Completes (.ddrRegionInFlightDrained id) s P := by
  refine ⟨_, (exec_ddrRegionInFlightDrained id s).trans (actIf_of_live hl (decide_eq_true hn)), ?_⟩
  rw [← resumeDeclare_of_none_evicts (s := undeclared id s) he] at hP
  simpa only [hst, hw, undeclared] using hP

/-! ## Quotas (R462) -/

theorem exec_mtTenantWrite (k : Nat) (cap : Bool) (v : W32) (s : State) : exec (.mtTenantWrite k cap v) s = execMtTenantWrite k cap v s := rfl

/-- The floors of the tenants other than one. -/
def otherFloors (k : Nat) (s : State) : Nat := ((List.range 16).map (fun j => if j = k then 0 else (s.share j).floor.toNat)).sum

/-- The state after a write of a tenant's FLOOR. -/
def floorWritten (k : Nat) (v : W32) (s : State) : State :=
  if otherFloors k s + (v.setWidth 21).toNat > s.ddr.units ∨ (v.setWidth 21).toNat < (s.share k).pinned then s
  else s.modShare k (fun x => { x with floor := v.setWidth 21 })

theorem floorWritten_of_kept {k : Nat} {v : W32} (hsum : otherFloors k s + (v.setWidth 21).toNat ≤ s.ddr.units)
    (hpinned : (s.share k).pinned ≤ (v.setWidth 21).toNat) : floorWritten k v s = s.modShare k (fun x => { x with floor := v.setWidth 21 }) :=
  if_neg (not_or.2 ⟨not_lt.2 hsum, not_lt.2 hpinned⟩)

theorem floorWritten_of_pinned {k : Nat} {v : W32} (hpinned : (v.setWidth 21).toNat < (s.share k).pinned) : floorWritten k v s = s :=
  if_pos (.inr hpinned)

theorem completes_capWrite {k : Nat} {v : W32} {P : State → Prop} (hr : writes 0 s = true) (hk : k < 16)
    (hP : P (s.kept (s.modShare k (fun x => { x with cap := v.setWidth 21 })))) : Completes (.mtTenantWrite k true v) s P := by
  have hopen : reaches 0 s = true := (Bool.and_eq_true _ _ ▸ hr).1
  exact ⟨_, (exec_mtTenantWrite k true v s).trans (actIf_of_live (live_of_reaches hopen) (by simp [hr, hk])), hP⟩

theorem completes_floorWrite {k : Nat} {v : W32} {P : State → Prop} (hr : writes 0 s = true) (hk : k < 16)
    (hP : P (s.kept (floorWritten k v s))) : Completes (.mtTenantWrite k false v) s P := by
  have hopen : reaches 0 s = true := (Bool.and_eq_true _ _ ▸ hr).1
  exact ⟨_, (exec_mtTenantWrite k false v s).trans (actIf_of_live (live_of_reaches hopen) (by simp [hr, hk])), hP⟩

end

end Sys2Proof.Machine

/-! # The obligation on regions of the DDR5 tier -/

namespace Sys2Proof.Machine

/-- Settles O33: declarations by the tests of R463, changes of state and pins by the checks of R450, drains by the region's state, and
writes of quotas by the floor rules. Until its record places are written a new region reads as UNDECLARED, the model's choice (log entry
49). -/
theorem tierRegions : Obligations.TierRegions := by
  unfold Obligations.TierRegions
  refine ⟨fun s w map h hc ha hfree hr => ?declares, fun s w map h hc ha hfree hr => ?restores, fun s w map r h hc ha => ?refused,
    fun s w id hi ha hp => ?recordsWritten, fun s w h hc hb => ?seals, fun s w h hc hb => ?sealWaits, fun s w h hc => ?unseals,
    fun s w h hc => ?retires, fun s w h hc hset hpin hroom => ?pins, fun s w h hc hset hpin hroom => ?pinRefused,
    fun s id w hl hn hst hw => ?unsealed, fun s id hl hn hst hw he => ?undeclared, fun s k v hr hk => ?cap,
    fun s k v hr hk hpinned hsum => ?floor, fun s k v hr hk hpinned => ?floorIgnored⟩
  case declares =>
    obtain ⟨hat, hregion, hothers, hused, hout, hframe⟩ := declaring_spec h.1.1
    refine completes_mtDdrDeclare h hc ha hfree ?_
    rw [declareAlloc_of_fresh (h.tierRegion_eq (by decide)) hr, hframe.kept_eq (by simp) (by simp)]
    exact ⟨hat, congrArg DdrRegion.map hregion, congrArg DdrRegion.st hregion, congrArg DdrRegion.tenant hregion,
      congrArg DdrRegion.units hregion, hused, hout, hothers, hframe⟩
  case restores =>
    obtain ⟨hregion, -, -, hframe⟩ := declared_spec w .unsealed map s
    refine completes_mtDdrDeclare h hc ha hfree ?_
    rw [declareAlloc_of_restore (h.tierRegion_eq (by decide)) hr]
    exact ends_of_complete hframe (by simp) (by simp) ⟨congrArg DdrRegion.st hregion, congrArg DdrRegion.map hregion, hframe⟩
  case refused => exact completes_of_tier_refused (exec_mtDdrDeclare w.wid map s) h (by simp only [hc, ha])
  case recordsWritten =>
    obtain ⟨hregion, hothers, hframe⟩ := recordsReady_spec id s
    exact completes_of_resume (exec_ddrRecordInitComplete w.wid s) hi ha (a := id) (by rw [hp]; rfl)
      (ends_of_complete hframe (by simp) (by simp) ⟨hregion, hothers, hframe⟩)
  case seals =>
    obtain ⟨hregion, hothers, hframe⟩ := modDdr_spec s (dat w.body 8 8) (fun r => { r with st := .sealed, lastUse := s.clk.sc })
    refine completes_mtDdrSeal h hc ?_
    rw [if_neg (by simp [hb])]
    exact ends_of_complete hframe (by simp) (by simp) ⟨hregion, hothers, hframe⟩
  case sealWaits =>
    refine completes_mtDdrSeal h hc ?_
    rw [if_pos hb]
    exact ⟨at_setProg h.1.1, (setProg_onlyChanges s _ _).kept⟩
  case unseals =>
    obtain ⟨hat, hregion, hothers, hframe⟩ := draining_spec h.1.1 .unsealing
    exact completes_mtDdrUnseal h hc ⟨hat, hregion, hothers, hframe.kept⟩
  case retires =>
    obtain ⟨hat, hregion, hothers, hframe⟩ := draining_spec h.1.1 .retiring
    exact completes_mtDdrRetire h hc ⟨hat, hregion, hothers, hframe.kept⟩
  case pins =>
    obtain ⟨hregion, hcount, hframe⟩ := pinned_spec (dat w.body 8 8) s
    exact completes_mtDdrPin h hc hset hpin hroom (ends_of_complete hframe (by simp) (by simp) ⟨hregion, hcount, hframe⟩)
  case pinRefused =>
    exact completes_of_tier_refused (exec_mtDdrPin w.wid s) h (by simp [hc, h.tierRegion_eq (by decide), hset, hpin, hroom])
  case unsealed =>
    obtain ⟨hregion, -, hframe⟩ := modDdr_spec s id (fun r => { r with st := .unsealed })
    exact completes_unsealed hl hn hst hw (ends_of_complete hframe (by simp) (by simp) ⟨hregion, hframe⟩)
  case undeclared =>
    obtain ⟨hregion, hused, hothers, hframe⟩ := undeclared_spec id s
    have hnone : ∀ x ∈ s.work, ∀ n map, x.prog ≠ .ddrEvict n map := fun x hx n map hp => by
      have hx' := he x hx
      rwa [hp] at hx'
    refine completes_undeclared hl hn hst hw hnone ?_
    rw [hframe.kept_eq (by simp) (by simp)]
    exact ⟨hregion, hused, hothers, hframe⟩
  case cap =>
    obtain ⟨hshare, hothers, hframe⟩ := modShare_spec s k (fun x => { x with cap := v.setWidth 21 })
    exact completes_capWrite hr hk ⟨hshare, hothers, hframe.kept⟩
  case floor =>
    obtain ⟨hshare, hothers, hframe⟩ := modShare_spec s k (fun x => { x with floor := v.setWidth 21 })
    refine completes_floorWrite hr hk ?_
    rw [floorWritten_of_kept hsum hpinned]
    exact ⟨hshare, hothers, hframe.kept⟩
  case floorIgnored =>
    refine completes_floorWrite hr hk ?_
    rw [floorWritten_of_pinned hpinned]
    exact OnlyChanges.kept (.refl [] s)

end Sys2Proof.Machine

/-! # What every step keeps of the fuses

SUPPORT. Every command but the commit of a security version answers a state with the fuses of the state it found (R729); the commit
raises the version and adds revoked slots (R737); an idle cycle counts and nothing more (R52). -/

namespace Sys2Proof.Machine

/-! ## Commands -/

/-- An outcome that is a next state with the fuses of `s`. -/
def KeepsFuses (s : State) (o : Host.Outcome State Fault Refusal) : Prop := ∃ t, o = .next t ∧ t.fuses = s.fuses

section
variable {s : State}

theorem keepsFuses_self : KeepsFuses s (.next s) := ⟨s, rfl, rfl⟩

theorem keepsFuses_ite {p : Prop} [Decidable p] {t : State} : KeepsFuses s (.next (if p then s.kept t else s)) := by
  refine ⟨_, rfl, ?_⟩
  split <;> rfl

theorem act_keepsFuses {f : State → State} : KeepsFuses s (act s f) := keepsFuses_ite

theorem actIf_keepsFuses {c : Bool} {f : State → State} : KeepsFuses s (actIf s c f) := keepsFuses_ite

theorem start_keepsFuses {wid : Nat} {op : Byte} {f : Work → State → State} : KeepsFuses s (start wid op s f) := by
  unfold start
  split
  · exact keepsFuses_ite
  · exact keepsFuses_self

theorem startList_keepsFuses {wid : Nat} {op : Byte} {checks : Work → ListHdr → State → List (Bool × (Status × Nat))}
    {f : Work → ListHdr → State → State} : KeepsFuses s (startList wid op s checks f) := start_keepsFuses

theorem entryOp_keepsFuses {wid : Nat} {op : Byte} {more : Work → State → List (Bool × (Status × Nat))} :
    KeepsFuses s (entryOp wid op more s) := start_keepsFuses

theorem startImage_keepsFuses {wid : Nat} {op : Byte} {f : Work → State → State} : KeepsFuses s (startImage wid op s f) :=
  start_keepsFuses

theorem resume_keepsFuses {α : Type} {wid : Nat} {sel : Prog → Option α} {f : Work → α → State → State} :
    KeepsFuses s (resume wid s sel f) := by
  unfold resume
  split
  · split
    · exact keepsFuses_ite
    · exact keepsFuses_self
  · exact keepsFuses_self

theorem onConn_keepsFuses {conn : Nat} {ctype : Byte} {m : Ctl} {ok : State → Bool} {f : State → State} :
    KeepsFuses s (onConn conn ctype m s ok f) := actIf_keepsFuses

theorem onMgmt_keepsFuses {src : Nat} {ctype : Byte} {m : Ctl} {f : State → State} : KeepsFuses s (onMgmt src ctype m s f) :=
  actIf_keepsFuses

theorem raceCmd_keepsFuses {ctype : Byte} {src : Nat} {m : Ctl} : KeepsFuses s (raceCmd ctype src m s) := actIf_keepsFuses

theorem switchWrite_keepsFuses {empty : Bool} {p : Nat} {new : BitVec 16} {f : Switch → State → State} :
    KeepsFuses s (switchWrite empty p new f s) := actIf_keepsFuses

theorem execTrain_keepsFuses {n l : Nat} {f : Frame} {o : TrainObs} : KeepsFuses s (execTrain n l f o s) := by
  unfold execTrain
  split
  · exact actIf_keepsFuses
  · exact keepsFuses_self

theorem execAbort_keepsFuses {c : Nat} {m : Ctl} : KeepsFuses s (execAbort c m s) := by
  unfold execAbort
  split <;> exact actIf_keepsFuses

theorem execRegisterReadClear_keepsFuses {p : Port} {o w : Nat} : KeepsFuses s (execRegisterReadClear p o w s) := by
  cases p with
  | bar0 f =>
    simp only [execRegisterReadClear]
    exact actIf_keepsFuses
  | i3c =>
    simp only [execRegisterReadClear]
    exact keepsFuses_ite

theorem execRegisterWrite_keepsFuses {p : Port} {o w : Nat} {v : W64} : KeepsFuses s (execRegisterWrite p o w v s) := by
  cases p <;> exact actIf_keepsFuses

/-- A cold reset keeps the fuses (R639). -/
theorem execPowerApplied_keepsFuses : KeepsFuses s (execPowerApplied s) := by
  refine ⟨_, rfl, ?_⟩
  split <;> rfl

/-- The commit of a security version is the only command that burns a fuse (R729, R737). -/
theorem exec_keepsFuses {c : Instr} (hc : c ≠ .svnCommitDone) : KeepsFuses s (exec c s) := by
  cases c with
  | svnCommitDone => exact absurd rfl hc
  | powerApplied => exact execPowerApplied_keepsFuses
  | powerRemoved | aonSupplyLoss => exact ⟨_, rfl, rfl⟩
  | registerReadClear => exact execRegisterReadClear_keepsFuses
  | registerWrite => exact execRegisterWrite_keepsFuses
  | train => exact execTrain_keepsFuses
  | abort => exact execAbort_keepsFuses
  | waybillSignatureComplete | handoffPlatformWaitExpire | opticalSample | sensorSample | sidebandSupplyLoss | suppliesValid
  | perstNAssert | hostHotReset | hostLinkDown | rlTimeoutExpire | flashCopyComplete | i3cResetCommand | imageReadComplete
  | drainWaitExpire | applyFault | possessionGrant | maintenanceComplete | firmwareBroadcastRequest | contextWatchdog
  | errNPulseEnd | controlCoreFault | tenantSwitchDrainEnd | tenantSwitchScrubComplete | retirementFlashWriteComplete =>
    simp only [exec]
    exact act_keepsFuses
  | waybillRead | waybillSeal | waybillMeasure | rlSend | rlWrite | rlRead | rlAtomic | rlFence | rlRecv | rlCreate | rlConnect
  | rlClose | rlRegister | rlRevoke | rlTriggerSet | mtStore | mtLoad | kvListCreate | kvScatter | kvKeyslotSet | matmul
  | matmulSparse | canopyLoad | canopyFree | vector | attend | attendBackward | ttPlace | ttSnapshot | ttRaceOpen | ttRaceClose
  | ttProgram | csQuery | csIndexLoad | csDelete | nop | mtDdrDeclare | mtDdrSeal | mtDdrUnseal | mtDdrRetire | mtDdrPin =>
    simp only [exec]
    exact start_keepsFuses
  | kvFreeze | kvSpill | kvFetch | kvListFree =>
    simp only [exec]
    exact startList_keepsFuses
  | ttCancel | ttMove | ttPark | ttResume | ttFree =>
    simp only [exec]
    exact entryOp_keepsFuses
  | imageLoad | imageCheck | drainBegin | drainEnd =>
    simp only [exec]
    exact startImage_keepsFuses
  | waybillMeasureComplete | railRequestIssue | armedRequestIssue | rlCreateUnitsReserved | rlCreateWaitExpire
  | ddrRecordInitComplete | blockCodingComplete | scatterTurn | kvListFreeComplete | tileComplete | canopyLoadComplete
  | canopyFreeComplete | vectorChunkComplete | commitWaitSatisfied | commitWaitExpire | attendUnitComplete | tileDispatch
  | affinityWaitExpire | searchContextAllocate | indexReadReturn | distanceBatchComplete | indexCopyComplete =>
    simp only [exec]
    exact resume_keepsFuses
  | grant | refuse | credit | offer | handoffData | commit =>
    simp only [exec]
    exact onConn_keepsFuses
  | accept | probeReply | probe | release | lost | cancel | cancelDone =>
    simp only [exec]
    exact onMgmt_keepsFuses
  | raceJoin | raceClaim | raceGrant | raceRefuse | raceCancel | raceCancelAck =>
    simp only [exec]
    exact raceCmd_keepsFuses
  | tenantSwitch | firstMapping =>
    simp only [exec]
    exact switchWrite_keepsFuses
  | handoffItemSend | handoffItemWritten | keyConfirm | laneUp | resetLimitExpire =>
    simp only [exec, execHandoffItemSend, execHandoffItemWritten, execKeyConfirm, execLaneUp, execResetLimitExpire]
    exact actIf_keepsFuses
  | _ =>
    simp only [exec]
    exact actIf_keepsFuses

end

/-! ## The commit of a security version, and steps -/

/-- Fuses change in one direction only along a chain of states. -/
theorem FusesSince.trans {f : Fuses} {s t : State} (h : FusesSince f s) (h' : FusesSince s.fuses t) : FusesSince f t := by
  obtain ⟨hsvn, hrevoked, hrest⟩ := h
  obtain ⟨hsvn', hrevoked', hrest'⟩ := h'
  refine ⟨hsvn.trans hsvn', fun k hk => hrevoked' k (hrevoked k hk), ?_⟩
  rw [hrest', hrest]

theorem fusesSince_of_eq {s t : State} (h : t.fuses = s.fuses) : FusesSince s.fuses t :=
  ⟨by rw [h], fun _ hk => by rwa [h], by rw [h]⟩

/-- The commit raises the version and adds the slots that the active set revokes (R737). -/
theorem execSvnCommitDone_fusesSince (s : State) : ∃ t, execSvnCommitDone s = .next t ∧ FusesSince s.fuses t := by
  refine ⟨_, rfl, ?_⟩
  split
  · exact ⟨le_max_left .., fun k hk => by simp [hk], rfl⟩
  · exact fusesSince_of_eq rfl

theorem exec_fusesSince (c : Instr) (s : State) : ∃ t, exec c s = .next t ∧ FusesSince s.fuses t := by
  by_cases hc : c = .svnCommitDone
  · exact hc ▸ execSvnCommitDone_fusesSince s
  · obtain ⟨t, hexec, ht⟩ := exec_keepsFuses (s := s) hc
    exact ⟨t, hexec, fusesSince_of_eq ht⟩

theorem tick_fuses (s : State) : (tick s).fuses = s.fuses := by
  unfold tick
  split <;> rfl

/-- A step runs the front command on the fuses as they stand, or counts one cycle. -/
theorem step_fusesSince (s : State) : ∃ t, step s = .next t ∧ FusesSince s.fuses t := by
  cases hq : s.pending with
  | nil => exact ⟨tick s, step_of_nil hq, fusesSince_of_eq (tick_fuses s)⟩
  | cons c rest =>
    obtain ⟨t, hexec, ht⟩ := exec_fusesSince c { s with pending := rest }
    exact ⟨t, by simpa only [step, hq] using hexec, ht⟩

end Sys2Proof.Machine

/-! # The obligations on steps and on the state at reset -/

namespace Sys2Proof.Machine

/-- Settles O56: from every state a step answers one whose fuses stand later in the one-way order, which is transitive. -/
theorem stepKeepsFuses : Obligations.StepKeepsFuses := by
  unfold Obligations.StepKeepsFuses
  intro f s t hs hstep
  obtain ⟨u, hu, hfuses⟩ := step_fusesSince s
  obtain rfl : t = u := Host.Outcome.next.inj (hstep.symm.trans hu)
  exact hs.trans hfuses

/-- Settles O55, by the branch of `step` for a queue with a front. -/
theorem stepRunsFrontCommand : Obligations.StepRunsFrontCommand := by
  unfold Obligations.StepRunsFrontCommand
  intro s c rest hq
  simp only [step, hq]

/-- Settles O54, by evaluation of the reset state; its tables are empty, so each entry is its kind's value at reset. -/
theorem resetState : Obligations.ResetState := by
  unfold Obligations.ResetState
  refine ⟨rfl, rfl, rfl, rfl, rfl, rfl, rfl, rfl, rfl, rfl, rfl, rfl, rfl, rfl, rfl, rfl, fun n l => ?links, fun k => ?rings,
    fun i => ?entries, fun c => ?contexts, ?management, fun c hc => ?conns, rfl, fusesSince_of_eq rfl⟩
  case links => rfl
  case rings => exact ⟨rfl, rfl⟩
  case entries => rfl
  case contexts => rfl
  case management => rfl
  case conns => simp [State.conn, State.reset, tget, hc.symm]

end Sys2Proof.Machine

/-! # Supplies, sensors and dividers

SUPPORT. What each further part of the state is under a frame, and what a change of a Grove's dividers and a sample of a die change
(R748, R749, R769). -/

namespace Sys2Proof.Machine

/-! ## Parts that a frame leaves alone -/

section
variable {ps : List Zone} {s t : State}

theorem OnlyChanges.clk_eq (h : OnlyChanges ps s t) (hp : .clk ∉ ps) : t.clk = s.clk := of_decide_eq_true (h .clk hp)
theorem OnlyChanges.boot_eq (h : OnlyChanges ps s t) (hp : .boot ∉ ps) : t.boot = s.boot := of_decide_eq_true (h .boot hp)
theorem OnlyChanges.flash_eq (h : OnlyChanges ps s t) (hp : .flash ∉ ps) : t.flash = s.flash := of_decide_eq_true (h .flash hp)
theorem OnlyChanges.host_eq (h : OnlyChanges ps s t) (hp : .host ∉ ps) : t.host = s.host := of_decide_eq_true (h .host hp)
theorem OnlyChanges.rail_eq (h : OnlyChanges ps s t) (hp : .rail ∉ ps) : t.rail = s.rail := of_decide_eq_true (h .rail hp)
theorem OnlyChanges.rc_eq (h : OnlyChanges ps s t) (hp : .rc ∉ ps) : t.rc = s.rc := of_decide_eq_true (h .rc hp)
theorem OnlyChanges.ft_eq (h : OnlyChanges ps s t) (hp : .ft ∉ ps) : t.ft = s.ft := of_decide_eq_true (h .ft hp)
theorem OnlyChanges.tn_eq (h : OnlyChanges ps s t) (hp : .tn ∉ ps) : t.tn = s.tn := of_decide_eq_true (h .tn hp)
theorem OnlyChanges.out_eq (h : OnlyChanges ps s t) (hp : .out ∉ ps) : t.out = s.out := of_decide_eq_true (h .out hp)

end

/-! ## Commands that act -/

/-- A command that acts whenever the device has power. -/
theorem completes_of_act {c : Instr} {s : State} {f : State → State} {P : State → Prop} (hc : exec c s = act s f) (hl : s.live = true)
    (h : P (s.kept (f s))) : Completes c s P := ⟨_, hc.trans (act_of_live hl), h⟩

/-- A command that acts under a condition of its own. -/
theorem completes_of_actIf {c : Instr} {s : State} {b : Bool} {f : State → State} {P : State → Prop} (hc : exec c s = actIf s b f)
    (hl : s.live = true) (hb : b = true) (h : P (s.kept (f s))) : Completes c s P := ⟨_, hc.trans (actIf_of_live hl hb), h⟩

theorem completes_of_actIf_eq {c : Instr} {s u : State} {b : Bool} {f : State → State} {P : State → Prop}
    (hc : exec c s = actIf s b f) (hl : s.live = true) (hb : b = true) (hu : f s = u) (h : P (s.kept u)) : Completes c s P :=
  completes_of_actIf hc hl hb (hu ▸ h)

/-! ## Dividers -/

/-- The two divider codes of a Grove, as a change leaves them (R748). -/
def DividersSet (g therm cur : Nat) (s t : State) : Prop :=
  t.clk.therm = tput s.clk.therm g therm 0 ∧ t.clk.cur = tput s.clk.cur g cur 0

theorem sendThrottled_onlyChanges (g : Nat) (s : State) : OnlyChanges [.host, .out] s (sendThrottled g s) :=
  onlyChanges_foldl (fun _ _ => event_onlyChanges) _ s

theorem setDividers_set (g therm cur : Nat) (s : State) : DividersSet g therm cur s (setDividers g therm cur s) := by
  unfold setDividers
  dsimp only
  split
  · exact ⟨rfl, rfl⟩
  · simp only [DividersSet, (sendThrottled_onlyChanges g _).clk_eq (by decide), and_self]

theorem setDividers_onlyChanges (g therm cur : Nat) (s : State) : OnlyChanges [.clk, .host, .out] s (setDividers g therm cur s) := by
  unfold setDividers
  dsimp only
  split
  · exact (onlyChanges_set_clk s _).mono (by simp)
  · exact ((onlyChanges_set_clk s _).mono (by simp)).trans ((sendThrottled_onlyChanges g _).mono (by simp))

/-- A change that raises no divider in force counts and reports nothing (R749, R769). -/
theorem setDividers_of_le {g therm cur : Nat} {s : State} (ht : therm ≤ tget s.clk.therm g 0) (hc : cur ≤ tget s.clk.cur g 0) :
    setDividers g therm cur s = { s with clk := { s.clk with therm := tput s.clk.therm g therm 0, cur := tput s.clk.cur g cur 0 } } := by
  unfold setDividers
  refine if_pos ?_
  simp only [dividerOf, tget_tput_same]
  omega

/-! ## Samples -/

theorem sampleDie_onlyChanges (o : SensorObs) (s : State) : OnlyChanges [.clk, .power, .host, .out] s (sampleDie o s) := by
  have hset := (onlyChanges_set_power s { s.power with sensors := tput s.power.sensors o.die (sensorOf o) {} }).mono
    (qs := [.clk, .power, .host, .out]) (by simp)
  unfold sampleDie
  dsimp only
  split
  · exact hset.trans ((setDividers_onlyChanges _ _ _ _).mono (by simp))
  · exact hset

theorem sampleDie_sensor (o : SensorObs) (s : State) : tget (sampleDie o s).power.sensors o.die {} = sensorOf o := by
  have hset : tget (tput s.power.sensors o.die (sensorOf o) {}) o.die {} = sensorOf o := tget_tput_same ..
  unfold sampleDie
  dsimp only
  split
  · rw [(setDividers_onlyChanges _ _ _ _).power_eq (by decide), hset]
  · exact hset

/-- A powered Grove die leaves at least the divider that its junction asks for in force (R748). -/
theorem sampleDie_divider {o : SensorObs} (s : State) (hd : o.die < 4) (hp : o.powered = true) :
    thermalCode o.temp ≤ dividerOf o.die (sampleDie o s).clk := by
  unfold sampleDie
  rw [if_pos ⟨hd, hp⟩, dividerOf, (setDividers_set ..).1, tget_tput_same]
  omega

/-- A trip stops the clocks and records its cause; the sensors, the dividers and what follows from neither stay (R750). -/
theorem trip_onlyChanges (c : BitVec 2) (u : Nat) (s : State) : OnlyChanges [.clk, .power] s (trip c u s) := by
  refine OnlyChanges.trans (t := { s with clk := { s.clk with pllLock := false } }) ?_ ?_
  · exact (onlyChanges_set_clk s _).mono (by simp)
  · exact (onlyChanges_set_power _ _).mono (by simp)

/-- The samples of the dies that exist, in their order. -/
def sampleAll (obs : List SensorObs) (s : State) : State :=
  (obs.filter (fun o => decide (o.die < 17))).foldl (fun s o => sampleDie o s) s

/-- The sample that is taken last stands. -/
theorem sampleAll_append {pre : List SensorObs} {o : SensorObs} {s : State} (h : o.die < 17) :
    sampleAll (pre ++ [o]) s = sampleDie o (sampleAll pre s) := by
  simp [sampleAll, List.filter_append, h]

/-- What a sample of every sensor comes to. -/
def afterSample (obs : List SensorObs) (s : State) : State :=
  match hotDie obs with
  | some d => trip 1 d (sampleAll obs s)
  | none => sampleAll obs s

theorem sensorSample_eq {s : State} (hl : s.live = true) (obs : List SensorObs) :
    exec (.sensorSample obs) s = .next (s.kept (afterSample obs s)) := by
  simp only [exec, execSensorSample, act_of_live hl]
  rfl

theorem afterSample_onlyChanges (obs : List SensorObs) (s : State) :
    OnlyChanges [.clk, .power, .host, .out] s (afterSample obs s) := by
  have hall : OnlyChanges [.clk, .power, .host, .out] s (sampleAll obs s) :=
    onlyChanges_foldl (fun s o => sampleDie_onlyChanges o s) _ s
  unfold afterSample
  split
  · exact hall.trans ((trip_onlyChanges _ _ _).mono (by simp))
  · exact hall

/-- A trip after a sample leaves the sensors and the dividers as sampled. -/
theorem afterSample_keeps (obs : List SensorObs) (s : State) :
    (afterSample obs s).power.sensors = (sampleAll obs s).power.sensors ∧ (afterSample obs s).clk.therm = (sampleAll obs s).clk.therm ∧
    (afterSample obs s).clk.cur = (sampleAll obs s).clk.cur := by
  unfold afterSample
  split <;> exact ⟨rfl, rfl, rfl⟩

theorem hotDie_lt {obs : List SensorObs} {d : Nat} (h : hotDie obs = some d) : d < 17 := by
  simpa using List.mem_of_find?_eq_some h

end Sys2Proof.Machine

/-! # The obligations on supplies, throttling and trips -/

namespace Sys2Proof.Machine

/-- Settles O1: applying and losing power answer the reset state with what is kept, and each other command changes one part. -/
theorem powerOnAndOff : Obligations.PowerOnAndOff := by
  unfold Obligations.PowerOnAndOff
  refine ⟨fun s hoff => ?applied, fun s => ⟨_, rfl, rfl, rfl, rfl, rfl, rfl, rfl, rfl⟩, fun s => ⟨_, rfl, rfl, rfl, rfl, rfl, rfl, rfl, rfl⟩,
    fun s hl => ?valid, fun s hl => ?sideband, fun s hl hs hp => ?pll⟩
  case applied =>
    simp only [Completes, exec, execPowerApplied, if_pos hoff]
    exact ⟨_, rfl, rfl, rfl, rfl, rfl, rfl, rfl, rfl, rfl⟩
  case valid =>
    refine completes_of_act (by rfl) hl ?_
    exact ⟨rfl, (onlyChanges_set_power s _).kept⟩
  case sideband =>
    refine completes_of_act (by rfl) hl ?_
    exact ⟨rfl, (onlyChanges_set_power s _).kept⟩
  case pll =>
    have hc : (s.power.supplies && !s.clk.pllLock) = true := by simp [hs, hp]
    refine completes_of_actIf (by rfl) hl hc ?_
    exact ⟨rfl, (onlyChanges_set_clk s _).kept⟩

/-- Settles O2, by the last sample of a list, by the two codes that a change of dividers sets, and by the fields of a trip. -/
theorem throttlesAndTrips : Obligations.ThrottlesAndTrips := by
  unfold Obligations.ThrottlesAndTrips
  refine ⟨fun s pre o hl hd => ?sample, fun s obs d hl hd => ?hot, fun s g hl hg => ?limit, fun s g hl hg => ?thermal,
    fun s g hl hg => ?current, fun s rail hl hr hs => ?undervoltage⟩
  case sample =>
    obtain ⟨hsensors, htherm, hcur⟩ := afterSample_keeps (pre ++ [o]) s
    refine ⟨_, sensorSample_eq hl _, ?_, fun hg hp => ?_, (afterSample_onlyChanges _ _).kept⟩
    · change tget (afterSample _ s).power.sensors o.die {} = _
      rw [hsensors, sampleAll_append hd, sampleDie_sensor]
    · change _ ≤ dividerOf o.die (afterSample _ s).clk
      rw [dividerOf, htherm, hcur, ← dividerOf, sampleAll_append hd]
      exact sampleDie_divider _ hg hp
  case hot =>
    have hlt := hotDie_lt hd
    have hunit : (BitVec.ofNat 8 d).toNat = d := by rw [BitVec.toNat_ofNat]; omega
    refine ⟨_, sensorSample_eq hl _, ?_⟩
    simp only [afterSample, hd]
    exact ⟨rfl, rfl, hunit, rfl, rfl, by simp [State.live, State.kept, trip]⟩
  case limit =>
    obtain ⟨htherm, hcur⟩ := setDividers_set g (tget s.clk.therm g 0) (min 3 (tget s.clk.cur g 0 + 1)) s
    refine completes_of_actIf (by rfl) hl (decide_eq_true hg) ?_
    refine ⟨?_, htherm, fun k hk => ?_, (setDividers_onlyChanges _ _ _ _).kept⟩
    · exact (congrArg (tget · g 0) hcur).trans (tget_tput_same ..)
    · exact (congrArg (tget · k 0) hcur).trans (tget_tput_other _ _ _ _ _ hk)
  case thermal =>
    simp only [Completes, exec, execThrottleLower, actIf_of_live hl (decide_eq_true hg)]
    rw [setDividers_of_le (Nat.sub_le ..) le_rfl]
    exact ⟨_, rfl, tget_tput_same .., tget_tput_same .., rfl, (onlyChanges_set_clk s _).kept⟩
  case current =>
    simp only [Completes, exec, execThrottleLower, actIf_of_live hl (decide_eq_true hg)]
    rw [setDividers_of_le le_rfl (Nat.sub_le ..)]
    exact ⟨_, rfl, tget_tput_same .., tget_tput_same .., rfl, (onlyChanges_set_clk s _).kept⟩
  case undervoltage =>
    have hc : (decide (rail ≤ 16) && s.power.supplies) = true := by simp [hr, hs]
    have hunit : (BitVec.ofNat 8 rail).toNat = rail := by rw [BitVec.toNat_ofNat]; omega
    refine completes_of_actIf (by rfl) hl hc ?_
    exact ⟨rfl, rfl, hunit, rfl, rfl, rfl, rfl, (trip_onlyChanges _ _ _).kept⟩

end Sys2Proof.Machine

/-! # Watchdogs

SUPPORT. The level at which a watchdog runs (R686, R687), a chip reset that a hang starts, and what a record keeps through it. -/

namespace Sys2Proof.Machine

section
variable {s : State} {own : Nat} {h : Hang}

/-! ## Levels -/

/-- In a domain not reset lately a watchdog runs its own level (R686). -/
theorem levelFor_fresh (hrecent : recentLevel h.domain s = 0) : levelFor own h.domain s = own := by simp [levelFor, hrecent]

theorem watchdog_runs (hlevel : min 5 (levelFor own h.domain s) ≤ s.ft.maxLevel.toNat) (hs : s.ft.stopped = []) :
    watchdog own h s = hangAt (min 5 (levelFor own h.domain s)) own true h s := by
  simp [watchdog, hs, Nat.not_lt.2 hlevel]

/-- A watchdog of a level below 4, in a domain not reset lately, opens a hang and runs its level (R675, R686). -/
theorem watchdog_opens (hown : own < 4) (hrecent : recentLevel h.domain s = 0) (hmax : own ≤ s.ft.maxLevel.toNat)
    (hs : s.ft.stopped = []) : ∃ fr u, HangOpened own true h fr s u ∧ watchdog own h s = runLevel own h fr u := by
  have hlevel : min 5 (levelFor own h.domain s) = own := by rw [levelFor_fresh hrecent]; omega
  rw [watchdog_runs (by omega) hs, hlevel]
  exact hangAt_opens hown ..

/-- Above the highest level the unit stays stopped (R687). -/
theorem watchdog_stops (hown : own < 4) (hrecent : recentLevel h.domain s = 0) (hmax : s.ft.maxLevel.toNat < own)
    (hs : s.ft.stopped = []) (h0 : h.wd ≠ 0) (h1 : h.wd ≠ 1) :
    watchdog own h s = { s with ft := { s.ft with stopped := [(h.wd, h.part)] } } := by
  have hlevel : min 5 (levelFor own h.domain s) = own := by rw [levelFor_fresh hrecent]; omega
  simp [watchdog, hs, hlevel, hmax, h0, h1]

theorem runLevel_chip {level : Nat} (hl : 4 ≤ level) (fr : BitVec 16) : runLevel level h fr s = s := by
  simp [runLevel, show level ≠ 1 by omega, show level ≠ 2 by omega, show level ≠ 3 by omega]

/-- A hang of level 4 or 5 notes a fatal error, and the chip reset of that level follows (R689). -/
theorem hangAt_chip {level : Nat} (hl : 4 ≤ level) (own : Nat) (h : Hang) (s : State) : ∃ fr u,
    ErrNoted (hangErr level own h) fr s u ∧ hangAt level own true h s = nameCulprit level true h s.clk.ac fr (chipLevel level u) := by
  have hcls : (hangErr level own h).cls = 3 := if_pos hl
  obtain ⟨fr, u, hnoted, hraise⟩ := raiseErr_noted (e := hangErr level own h) (by simp [hcls]) s
  rw [hangAt_eq, hraise, if_pos hcls, runLevel_chip hl]
  have hmax : max 4 (hangErr level own h).level = level := Nat.max_eq_right hl
  exact ⟨fr, u, hnoted, by rw [hmax]⟩

/-- A hang of level 4 resets the chip (R685, R689). -/
theorem hangAt_four (hr : s.ready = true) (hmax : 4 ≤ s.ft.maxLevel.toNat) (own : Nat) (h : Hang) :
    (hangAt 4 own true h s).boot.stage = .lodge ∧ (hangAt 4 own true h s).boot.cause = 3 ∧
    (hangAt 4 own true h s).boot.chipReset = true ∧ (hangAt 4 own true h s).work = [] ∧
    (hangAt 4 own true h s).mem.hbm = s.mem.hbm := by
  obtain ⟨fr, u, hnoted, heq⟩ := hangAt_chip le_rfl own h s
  obtain ⟨hstage, hcause, hchip, hwork, hhbm⟩ :=
    chipLevel_four_of_ready (hnoted.ready.trans hr) (hnoted.maxLevel ▸ hmax)
  rw [heq]
  exact ⟨hstage, hcause, hchip, hwork, hhbm.trans (congrArg Mem.hbm (hnoted.frame.mem_eq (by simp)))⟩

theorem ready_of_watching (hw : watching s = true) : s.ready = true := by
  simp only [watching, Bool.and_eq_true] at hw
  exact hw.1

/-! ## A partition's watchdog -/

theorem execPartitionWatchdog_next {p : Nat} (hd : StepDue p s) :
    exec (.partitionWatchdog p) s = .next (s.kept (watchdog 3 (partHang p s) s)) := by
  obtain ⟨hw, hp, hstep, hdue⟩ := hd
  have hexcused : stepExcused p s = false := by simp [stepExcused, hstep]
  refine actIf_of_live (live_of_ready (ready_of_watching hw)) ?_
  simpa [hw, hp, hexcused] using hdue

/-! ## What a record keeps through the reset of the chip -/

/-- A record that was raised to level 4 (R687). -/
def FaultRec.Raised (r : FaultRec) : Prop := r.escalated = true ∧ r.level = 4

theorem not_raised_default : ¬ FaultRec.Raised {} := fun h => absurd h.1 (by decide)

theorem completeAll_raised {k : Nat} (st : Status) (r : Nat) (l : List Work) {s : State} (h : Lists FaultRec.Raised k s.ft.recs) :
    Lists FaultRec.Raised k (completeAll st r l s).ft.recs := by
  induction l generalizing s with
  | nil => exact h
  | cons w l ih =>
    refine ih ?_
    rw [complete_ft]
    have hremoved : Lists FaultRec.Raised k (tmap s.ft.recs {} (fun _ r =>
        { r with waits := r.waits.filter (fun x => decide (x ≠ Closer.work w.wid)) })) :=
      Lists.tmap (f := fun _ r => { r with waits := r.waits.filter (fun x => decide (x ≠ Closer.work w.wid)) }) h (fun _ hr => hr)
        not_raised_default
    refine Lists.tmap (f := fun _ r => if r.isOpen && decide (r.cls.toNat < 3) && r.waits.isEmpty then
      { r with isOpen := false, closeAc := s.clk.ac } else r) hremoved (fun r hr => ?_) not_raised_default
    split <;> exact hr

theorem warmReset_raised {k : Nat} (hr : s.ready = true) (c : BitVec 2) (h : Lists FaultRec.Raised k s.ft.recs) :
    Lists FaultRec.Raised k (warmReset c s).ft.recs := by
  have hend : Lists FaultRec.Raised k (endInFlight s).ft.recs := completeAll_raised _ _ _ (by rwa [portReset_ft])
  have hdiscard : Lists FaultRec.Raised k (discardWarm (endInFlight s)).ft.recs := by
    refine Lists.tmap (f := fun _ r => if r.isOpen && decide (r.cls.toNat < 3) then
      { r with isOpen := false, closeAc := (endInFlight s).clk.ac, waits := [] } else r) hend (fun r hr => ?_) not_raised_default
    split <;> exact hr
  simpa [warmReset, hr, completeAll_portReset] using hdiscard

end

end Sys2Proof.Machine

/-! # The obligation on watchdogs -/

namespace Sys2Proof.Machine

/-- Settles O20: a watchdog is a hang of the level that its domain's last reset leaves it, a fatal one from level 4 on. -/
theorem watchdogs : Obligations.Watchdogs := by
  unfold Obligations.Watchdogs
  refine ⟨fun s w hi hw hex him hrec hmax hs => ?context, fun s e c hw hex hrec hmax hs => ?engine,
    fun s e hw hex hrec hmax hs => ?engineAlone, fun s p hd hrec hmax hs => ?partition, fun s p hd hrec hmax hs => ?higher,
    fun s p hd hrec hmax hs => ?stopped, fun s st hw hst hrec hmax => ?chip, fun s st hw hst hrec hmax => ?again,
    fun s n hr ho hn hl hmax => ?raised⟩
  case context =>
    simp only [Completes, exec, execContextWatchdog, act_of_live (live_of_ready (ready_of_watching hw)), hi, hw, hex, him, Bool.not_false,
      Bool.and_self, if_true]
    obtain ⟨fr, u, hopened, heq⟩ := watchdog_opens (own := 1) (by omega) hrec hmax hs (s := s)
      (h := { wd := 0, ctx := some w.context, part := w.part, tenant := w.tenant, domain := workDomain w s,
              unit := if workDomain w s ≥ 20 then workDomain w s - 20 else workDomain w s, who := w.fn,
              waits := (startedOf w.context s).flatMap closersOf })
    exact ⟨_, rfl, _, fr, u, rfl, rfl, rfl, hopened, congrArg s.kept heq⟩
  case engine =>
    obtain ⟨fr, u, hopened, heq⟩ := watchdog_opens (h := engineHang 1 e (some c) s) (by omega) hrec hmax hs
    exact ⟨_, actIf_of_live (live_of_ready (ready_of_watching hw)) (by simp [hw, hex]), _, fr, u, rfl, rfl, rfl, rfl, hopened,
      congrArg s.kept heq⟩
  case engineAlone =>
    obtain ⟨fr, u, hopened, heq⟩ := watchdog_opens (h := engineHang 1 e none s) (by omega) hrec hmax hs
    refine ⟨_, actIf_of_live (live_of_ready (ready_of_watching hw)) (by simp [hw, hex]), _, fr, u, rfl, rfl, rfl, rfl, hopened,
      congrArg s.kept heq, ?_⟩
    obtain ⟨-, -, -, -, -, hframe⟩ := hopened
    have hwids : (engineReset e none fr u).work.map (fun w => w.wid) = u.work.map (fun w => w.wid) := by
      by_cases hk : e.kind ≠ 1
      · simp only [engineReset, if_pos hk]
      · simp only [engineReset, if_neg hk, State.modStand, List.map_map, Function.comp_def]
    rw [heq, ← hframe.work_eq (by simp)]
    exact hwids
  case partition =>
    obtain ⟨fr, u, hopened, heq⟩ := watchdog_opens (h := partHang p s) (by omega) hrec hmax hs
    exact ⟨_, execPartitionWatchdog_next hd, _, fr, u, rfl, rfl, rfl, hopened, congrArg s.kept heq⟩
  case higher =>
    have hlevel : min 5 (levelFor 3 (partHang p s).domain s) = 4 := by
      have hrec' : recentLevel (partHang p s).domain s = 3 := hrec
      simp [levelFor, hrec']
    refine ⟨_, execPartitionWatchdog_next hd, ?_⟩
    rw [watchdog_runs (by omega) hs, hlevel]
    obtain ⟨hstage, hcause, -, hwork, -⟩ := hangAt_four (ready_of_watching hd.1) hmax 3 (partHang p s)
    exact ⟨hstage, hcause, hwork⟩
  case stopped =>
    refine ⟨_, execPartitionWatchdog_next hd, ?_⟩
    rw [watchdog_stops (by omega) hrec hmax hs (by simp [partHang]) (by simp [partHang])]
    exact ⟨rfl, (onlyChanges_set_ft s _).kept⟩
  case chip =>
    refine completes_of_actIf (by rfl) (live_of_ready (ready_of_watching hw)) (by simp [hw, hst]) ?_
    simp only [if_neg (Nat.not_le.2 hrec), if_neg (Nat.not_lt.2 hmax)]
    exact hangAt_four (ready_of_watching hw) hmax 4 _
  case again =>
    refine completes_of_actIf (by rfl) (live_of_ready (ready_of_watching hw)) (by simp [hw, hst]) ?_
    simp only [if_pos hrec, if_neg (Nat.not_lt.2 hmax)]
    obtain ⟨fr, u, hnoted, heq⟩ := hangAt_chip (level := 5) (by omega) 4
      { wd := 3, eng := { kind := 6, unit := st }, domain := 20 + st, unit := st } s
    have hmax' : ¬ 5 > u.ft.maxLevel.toNat := by rw [hnoted.maxLevel]; omega
    rw [heq, chipLevel, if_neg hmax', if_pos le_rfl]
    refine ⟨rfl, OnlyChanges.kept ?_⟩
    exact hnoted.frame.trans (((onlyChanges_set_power u _).mono (by simp)).trans ((onlyChanges_set_ft _ _).mono (by simp)))
  case raised =>
    have hlevel : (tget s.ft.recs (n % 4096) {}).level.toNat = 3 := by rw [hl]; rfl
    refine completes_of_actIf (by rfl) (live_of_ready hr)
      (by simp only [ho, hn, hlevel, hmax, decide_true, Bool.and_self, Nat.reduceAdd, Nat.reduceLeDiff, Nat.reduceLT]) ?_
    simp only [hlevel]
    rw [if_pos (by omega), chipLevel_four (by exact hmax)]
    obtain ⟨hstage, hcause, -, hwork, -⟩ := warmReset_of_ready (s := markChip { s with ft := { s.ft with
      recs := tmod s.ft.recs (n % 4096) {} (fun r => { r with
        level := BitVec.ofNat 3 4, escalated := true, cls := 3, waits := r.waits ++ [.chip] }) } }) hr 3
    have hraised := (warmReset_raised (s := markChip { s with ft := { s.ft with
      recs := tmod s.ft.recs (n % 4096) {} (fun r => { r with
        level := BitVec.ofNat 3 4, escalated := true, cls := 3, waits := r.waits ++ [.chip] }) } }) hr 3
      (lists_tput (P := FaultRec.Raised) _ (fun he => not_raised_default (he ▸ ⟨rfl, rfl⟩)) ⟨rfl, rfl⟩)).tget {}
    exact ⟨hstage, hcause, hwork, hraised.1, hraised.2⟩

end Sys2Proof.Machine

/-! # Contexts and semaphores

SUPPORT. A context and a semaphore after a change, what a save marks, and what an acquire and a release come to where no owner is saved
(R697 to R703). -/

namespace Sys2Proof.Machine

section
variable {s : State} {c k : Nat}

/-! ## Reads after a change -/

theorem State.ctx_modCtx_same (s : State) (c : Nat) (g : Ctx → Ctx) : (s.modCtx c g).ctx c = g (s.ctx c) := tget_tmod_same ..
theorem State.ctx_modCtx_other {g : Ctx → Ctx} (h : k ≠ c) : (s.modCtx c g).ctx k = s.ctx k := tget_tmod_other _ _ _ _ _ h
theorem State.sem_modSem_same (s : State) (k : Nat) (g : Sem → Sem) : (s.modSem k g).sem k = g (s.sem k) := tget_tmod_same ..
theorem State.sem_modSem_other {j : Nat} {g : Sem → Sem} (h : j ≠ k) : (s.modSem k g).sem j = s.sem j := tget_tmod_other _ _ _ _ _ h
theorem State.slot703_modSlot703_same (s : State) (p : Nat) (g : Reserved → Reserved) :
    (s.modSlot703 p g).slot703 p = g (s.slot703 p) := tget_tmod_same ..

theorem State.conn_modConn_other {g : Conn → Conn} (h : k ≠ c) : (s.modConn c g).conn k = s.conn k := tget_tmod_other _ _ _ _ _ h

@[simp] theorem State.kept_ctx (s t : State) (c : Nat) : (s.kept t).ctx c = t.ctx c := rfl
@[simp] theorem State.kept_sem (s t : State) (k : Nat) : (s.kept t).sem k = t.sem k := rfl
@[simp] theorem ctxResult_ctx (f : Nat) (x : Byte) (s : State) (c : Nat) : (ctxResult f x s).ctx c = s.ctx c := rfl
@[simp] theorem semResult_ctx (f : Nat) (x : Byte) (s : State) (c : Nat) : (semResult f x s).ctx c = s.ctx c := rfl
@[simp] theorem semResult_sem (f : Nat) (x : Byte) (s : State) (k : Nat) : (semResult f x s).sem k = s.sem k := rfl
@[simp] theorem modSlot703_ctx (s : State) (p : Nat) (g : Reserved → Reserved) (c : Nat) : (s.modSlot703 p g).ctx c = s.ctx c := rfl
@[simp] theorem syncWait_sem (c : Nat) (s : State) (k : Nat) : (syncWait c s).sem k = s.sem k := rfl

theorem modCtx_onlyChanges (s : State) (c : Nat) (g : Ctx → Ctx) : OnlyChanges [.ft] s (s.modCtx c g) := onlyChanges_set_ft s _
theorem modSem_onlyChanges (s : State) (k : Nat) (g : Sem → Sem) : OnlyChanges [.ft] s (s.modSem k g) := onlyChanges_set_ft s _
theorem modSlot703_onlyChanges (s : State) (p : Nat) (g : Reserved → Reserved) : OnlyChanges [.ft] s (s.modSlot703 p g) :=
  onlyChanges_set_ft s _
theorem ctxResult_onlyChanges (f : Nat) (x : Byte) (s : State) : OnlyChanges [.host] s (ctxResult f x s) := modFn_onlyChanges s _ _
theorem semResult_onlyChanges (f : Nat) (x : Byte) (s : State) : OnlyChanges [.host] s (semResult f x s) := modFn_onlyChanges s _ _

theorem ctxResult_fn (f : Nat) (x : Byte) (s : State) : (ctxResult f x s).fn f = { s.fn f with ctxRes := some x } :=
  State.fn_modFn_same ..
theorem semResult_fn (f : Nat) (x : Byte) (s : State) : (semResult f x s).fn f = { s.fn f with semRes := some x } :=
  State.fn_modFn_same ..

theorem ctxResult_ctxRes (f : Nat) (x : Byte) (s : State) : ((ctxResult f x s).fn f).ctxRes = some x :=
  congrArg FnRegs.ctxRes (ctxResult_fn f x s)
theorem semResult_semRes (f : Nat) (x : Byte) (s : State) : ((semResult f x s).fn f).semRes = some x :=
  congrArg FnRegs.semRes (semResult_fn f x s)

theorem writes_of_reaches {f : Nat} (hr : reaches f s = true) (hro : readsOnly s = false) : writes f s = true := by
  simp [writes, hr, hro]

/-! ## Saves -/

/-- Of connections marked saved in turn, each is saved (R698). -/
theorem saved_foldl {l : List Nat} {n : Nat} (s : State) (h : (s.conn n).saved = true ∨ n ∈ l) :
    ((l.foldl (fun s n => s.modConn n (fun x => { x with saved := true })) s).conn n).saved = true := by
  induction l generalizing s with
  | nil => exact h.resolve_right (by simp)
  | cons m l ih =>
    refine ih _ ?_
    by_cases hn : n = m
    · subst hn
      exact .inl (by rw [State.conn_modConn_same])
    · refine (h.imp (fun hs => ?_) (fun hl => (List.mem_cons.1 hl).resolve_left hn))
      exact (congrArg Conn.saved (State.conn_modConn_other hn)).trans hs

/-- A save that starts: the context is SAVING and its connections are saved. -/
theorem startSave_spec (c : Nat) (s : State) :
    (startSave c s).ft = (s.modCtx c (fun x => { x with st := .saving })).ft ∧
    (∀ n ∈ connsOf c s, ((startSave c s).conn n).saved = true) ∧ OnlyChanges [.rc, .ft] s (startSave c s) := by
  have hfold (l : List Nat) (u : State) : OnlyChanges [.rc] u (l.foldl (fun s n => s.modConn n (fun x => { x with saved := true })) u) :=
    onlyChanges_foldl (fun s n => modConn_onlyChanges s n _) l u
  exact ⟨(hfold _ _).ft_eq (by decide), fun n hn => saved_foldl _ (.inr hn),
    ((modCtx_onlyChanges s c _).mono (by simp)).trans ((hfold _ _).mono (by simp))⟩

/-! ## The reserved slot -/

/-- A slot that nothing waits for is not taken (R703). -/
theorem takeSlot_of_idle {p : Nat} (h : (s.slot703 p).waiting = []) : takeSlot p s = s := by
  unfold takeSlot
  split
  · simp_all
  · rfl

/-! ## Waits -/

/-- A context that waits for a semaphore does not run (R702). -/
theorem ctxRuns_syncWait (h : waitsOf c s ≠ []) : ctxRuns c (syncWait c s) = false := by
  have hwait : ((syncWait c s).ctx c).waiting.isNone = false := by
    rw [syncWait, State.ctx_modCtx_same]
    cases hw : waitsOf c s with
    | nil => exact absurd hw h
    | cons x l => simp
  simp [ctxRuns, hwait]

/-- A context in the queue of a semaphore waits for it. -/
theorem waitsOf_ne_nil {f : Nat} (h : (c, f) ∈ (s.sem k).waiters) : waitsOf c s ≠ [] := by
  have hlisted : ∃ x ∈ s.ft.sems, x.2 = s.sem k := by
    have hne : s.sem k ≠ {} := fun he => by simp [he] at h
    unfold State.sem at hne ⊢
    generalize s.ft.sems = t at hne ⊢
    induction t with
    | nil => exact absurd rfl hne
    | cons x l ih =>
      obtain ⟨j, v⟩ := x
      by_cases hj : j = k
      · exact ⟨(j, v), by simp, by simp [tget, hj]⟩
      · simp only [tget, hj, if_false] at hne ⊢
        obtain ⟨y, hy, hv⟩ := ih hne
        exact ⟨y, List.mem_cons_of_mem _ hy, hv⟩
  obtain ⟨x, hx, hv⟩ := hlisted
  refine List.ne_nil_of_mem (a := x.1) (List.mem_map.2 ⟨x, List.mem_filter.2 ⟨hx, ?_⟩, rfl⟩)
  rw [hv]
  exact List.any_eq_true.2 ⟨_, h, by simp⟩

/-- An owner that is not saved needs no slot (R703). -/
theorem inheritOwner_of_running {o : Nat} (ho : (s.sem k).owner = some o) (ha : (s.ctx o).st ≠ .saved) : inheritOwner c k s = s := by
  simp only [inheritOwner, ho, ha, ne_eq, not_false_eq_true, true_or, if_true]

end

end Sys2Proof.Machine

/-! # The obligations on contexts and semaphores -/

namespace Sys2Proof.Machine

/-- Settles O22, by the state a context is in when it is saved or restored; a host reset of it is a hang of level 1 that names nobody. -/
theorem contextsSavedAndRestored : Obligations.ContextsSavedAndRestored := by
  unfold Obligations.ContextsSavedAndRestored
  refine ⟨fun s f c hr hro hc hf hsave => ?save, fun s f c hr hro hc hf hst => ?inactive, fun s f c hr hro hc hf => ?foreign,
    fun s c hl hst hdone hsems hslot => ?saved, fun s f c hr hro hc hf hst hslot hwait => ?restore,
    fun s f c hr hro hc hf hst => ?active, fun s c hl hst hconns hslot => ?units, fun s f c hr hro hc hf hmax => ?reset⟩
  case save =>
    obtain ⟨hft, hconns, hframe⟩ := startSave_spec c (s.modCtx c (fun x => { x with asker := f }))
    have hctx (k : Nat) : (startSave c (s.modCtx c (fun x => { x with asker := f }))).ctx k =
        ((s.modCtx c (fun x => { x with asker := f })).modCtx c (fun x => { x with st := .saving })).ctx k := by
      simp only [State.ctx, hft]
    have hsame : (startSave c (s.modCtx c (fun x => { x with asker := f }))).ctx c = { s.ctx c with asker := f, st := .saving } := by
      rw [hctx, State.ctx_modCtx_same, State.ctx_modCtx_same]
    refine completes_of_actIf (by rfl) (live_of_reaches hr) (by simp [writes_of_reaches hr hro, hc]) ?_
    simp only [hf, hsave, Bool.false_eq_true, if_false]
    refine ⟨congrArg Ctx.st hsame, congrArg Ctx.asker hsame, ctxResult_ctxRes .., fun k hk => ?_, hconns, OnlyChanges.kept ?_⟩
    · exact (hctx k).trans ((State.ctx_modCtx_other hk).trans (State.ctx_modCtx_other hk))
    · exact ((modCtx_onlyChanges s c _).mono (by simp)).trans ((hframe.mono (by simp)).trans ((ctxResult_onlyChanges f 0 _).mono (by simp)))
  case inactive =>
    have hsave : saveRefused c s = true := by simp [saveRefused, hst]
    refine completes_of_actIf (by rfl) (live_of_reaches hr) (by simp [writes_of_reaches hr hro, hc]) ?_
    simp only [hf, hsave, Bool.false_eq_true, if_false, if_true]
    exact ⟨ctxResult_fn .., (ctxResult_onlyChanges _ _ _).kept⟩
  case foreign =>
    refine completes_of_actIf (by rfl) (live_of_reaches hr) (by simp [writes_of_reaches hr hro, hc]) ?_
    simp only [hf, if_true]
    exact ⟨ctxResult_fn .., (ctxResult_onlyChanges _ _ _).kept⟩
  case saved =>
    let s0 : State := s.modCtx c (fun x => { x with st := .saved })
    let s1 : State := event (s.ctx c).asker 0x0804 0 s0 0 0 c
    have hft : s1.ft = s0.ft := event_ft ..
    have hctx (k : Nat) : s1.ctx k = s0.ctx k := by simp only [State.ctx, hft]
    have hholder : (s1.slot703 (s.ctxMap c).part).holder = none := by
      rw [State.slot703, hft]
      exact hslot
    have hnone : semsOf c s1 = [] := by
      rw [semsOf, hft]
      exact hsems
    refine completes_of_actIf (by rfl) hl (by simp [hst, hdone]) ?_
    simp only [s1, s0] at hholder hnone hctx
    simp only [hholder, hnone, List.foldl_nil]
    refine ⟨(hctx c).trans (State.ctx_modCtx_same ..), fun k hk => (hctx k).trans (State.ctx_modCtx_other hk), OnlyChanges.kept ?_⟩
    exact ((modCtx_onlyChanges s c _).mono (by simp)).trans (event_onlyChanges.mono (by simp))
  case restore =>
    have hidle (g : Reserved → Reserved) (hg : (g (s.slot703 (s.ctxMap c).part)).waiting = []) :
        takeSlot (s.ctxMap c).part (s.modSlot703 (s.ctxMap c).part g) = s.modSlot703 (s.ctxMap c).part g :=
      takeSlot_of_idle (by rw [State.slot703_modSlot703_same]; exact hg)
    refine completes_of_actIf_eq (by rfl) (live_of_reaches hr) (by simp [writes_of_reaches hr hro, hc])
      (u := ctxResult f 0 ((s.modSlot703 (s.ctxMap c).part (fun r => { r with waiting := r.waiting.filter (fun x => x.1 != c) })).modCtx c
        (fun x => { x with restoring := true }))) ?_ ?_
    · simp only [hf, hst, hslot, Bool.false_eq_true, if_false]
      rw [hidle _ (by simp [hwait])]
    · refine ⟨?_, ?_, fun k hk => ?_, OnlyChanges.kept ?_⟩
      · rw [State.kept_ctx, ctxResult_ctx, State.ctx_modCtx_same, modSlot703_ctx]
      · rw [State.kept_fn, ctxResult_ctxRes]
      · rw [State.kept_ctx, ctxResult_ctx, State.ctx_modCtx_other hk, modSlot703_ctx]
      exact ((modSlot703_onlyChanges s _ _).mono (by simp)).trans
        (((modCtx_onlyChanges _ c _).mono (by simp)).trans ((ctxResult_onlyChanges f 0 _).mono (by simp)))
  case active =>
    refine completes_of_actIf (by rfl) (live_of_reaches hr) (by simp [writes_of_reaches hr hro, hc]) ?_
    simp only [hf, hst, Bool.false_eq_true, if_false]
    exact ⟨ctxResult_fn .., (ctxResult_onlyChanges _ _ _).kept⟩
  case units =>
    have hfit : unitsFit c s = true := by simp [unitsFit, hconns]
    have hnone (g : Ctx → Ctx) : connsOf c (s.modCtx c g) = [] := hconns
    refine completes_of_actIf (by rfl) hl (by simp [hst, hfit]) ?_
    simp only [hslot, hnone, List.foldl_nil, Bool.false_eq_true, if_false]
    exact ⟨State.ctx_modCtx_same .., fun k hk => State.ctx_modCtx_other hk, (modCtx_onlyChanges s c _).kept⟩
  case reset =>
    refine completes_of_actIf (by rfl) (live_of_reaches hr) (by simp [writes_of_reaches hr hro, hc]) ?_
    simp only [hf, Bool.false_eq_true, if_false]
    refine ⟨ctxResult_ctxRes .., ?_⟩
    obtain ⟨fr, u, hopened, heq⟩ := hostReset_opens (level := 1) (by omega) hmax (s := s)
      { wd := 0, ctx := some c, part := (s.ctxMap c).part, tenant := (s.ctxMap c).tenant,
        domain := match (startedOf c s).head? with | some w => workDomain w s | none => partDomain (s.ctxMap c).part s,
        unit := if (match (startedOf c s).head? with | some w => workDomain w s | none => partDomain (s.ctxMap c).part s) ≥ 20 then
          (match (startedOf c s).head? with | some w => workDomain w s | none => partDomain (s.ctxMap c).part s) - 20 else
          (match (startedOf c s).head? with | some w => workDomain w s | none => partDomain (s.ctxMap c).part s),
        who := ((startedOf c s).head?.map (fun w => w.fn)).getD (tenantFn (s.ctxMap c).tenant s), waits := (startedOf c s).flatMap closersOf }
    exact ⟨_, fr, u, rfl, rfl, hopened, congrArg (fun v => s.kept (ctxResult f 0 v)) heq⟩

/-- Settles O23, by the owner that the operation finds: none, another context, or the context itself. -/
theorem semaphores : Obligations.Semaphores := by
  unfold Obligations.Semaphores
  refine ⟨fun s f t k c hr hro hk hc ht hok ho => ?grant, fun s f t k c o hr hro hk hc ht hok ho hne hw hq ha => ?queue,
    fun s f t k c o hr hro hk hc ht hok ho hne hw => ?cycle, fun s f t k c hr hro hk hc ht hok ho hw ha => ?free,
    fun s f t k c d g hr hro hk hc ht hok ho hw ha => ?pass, fun s f t k c hr hro hk hc ht hok ho => ?notOwner⟩
  case grant =>
    refine completes_of_actIf (by rfl) (live_of_reaches hr) (by simp [writes_of_reaches hr hro, hk, hc, ht]) ?_
    simp only [hok, ho, Bool.not_true, Bool.false_eq_true, if_false]
    exact ⟨congrArg Sem.owner (State.sem_modSem_same ..), semResult_semRes .., fun j hj => State.sem_modSem_other hj,
      fun _ => rfl, (((modSem_onlyChanges s _ _).mono (by simp)).trans ((semResult_onlyChanges f 0 _).mono (by simp))).kept⟩
  case queue =>
    let key := 64 * (semTenant f t s).getD 0 + k
    let s1 : State := s.modSem key (fun x => { x with waiters := x.waiters ++ [(c, f)] })
    have hsem : s1.sem key = { s.sem key with waiters := (s.sem key).waiters ++ [(c, f)] } := State.sem_modSem_same ..
    have hwaits : waitsOf c s1 ≠ [] := waitsOf_ne_nil (k := key) (f := f) (by simp [hsem])
    have hctx (j : Nat) (hj : j ≠ c) : (syncWait c s1).ctx j = s.ctx j := State.ctx_modCtx_other (s := s1) hj
    have hinherit : inheritOwner c key (semResult f 1 (syncWait c s1)) = semResult f 1 (syncWait c s1) := by
      refine inheritOwner_of_running (o := o) ((congrArg Sem.owner hsem).trans ho) ?_
      change ((syncWait c s1).ctx o).st ≠ _
      rw [hctx o hne, ha]
      decide
    refine completes_of_actIf_eq (by rfl) (live_of_reaches hr) (by simp [writes_of_reaches hr hro, hk, hc, ht])
      (u := semResult f 1 (syncWait c s1)) ?_ ?_
    · simp only [hok, ho, hne, hw, hq, Bool.not_true, Bool.false_eq_true, if_false]
      exact hinherit
    · refine ⟨hsem, ?_, fun j hj => ?_, ctxRuns_syncWait hwaits, hctx, ?_⟩
      · rw [State.kept_fn, semResult_semRes]
      · rw [State.kept_sem, semResult_sem, syncWait_sem, State.sem_modSem_other hj]
      exact (((modSem_onlyChanges s _ _).mono (by simp)).trans
        (((modCtx_onlyChanges _ c _).mono (by simp)).trans ((semResult_onlyChanges f 1 _).mono (by simp)))).kept
  case cycle =>
    refine completes_of_actIf (by rfl) (live_of_reaches hr) (by simp [writes_of_reaches hr hro, hk, hc, ht]) ?_
    simp only [hok, ho, hne, hw, Bool.not_true, Bool.false_eq_true, if_false, if_true]
    exact ⟨semResult_fn .., (semResult_onlyChanges _ _ _).kept⟩
  case free =>
    refine completes_of_actIf (by rfl) (live_of_reaches hr) (by simp [writes_of_reaches hr hro, hk, hc, ht]) ?_
    simp only [hok, ho, releaseSem, hw, ha, Bool.not_true, Bool.false_eq_true, if_false, ne_eq, not_true_eq_false, reduceCtorEq, and_false]
    exact ⟨congrArg Sem.owner (State.sem_modSem_same ..), semResult_semRes .., fun j hj => State.sem_modSem_other hj,
      (((modSem_onlyChanges s _ _).mono (by simp)).trans ((semResult_onlyChanges f 0 _).mono (by simp))).kept⟩
  case pass =>
    refine completes_of_actIf (by rfl) (live_of_reaches hr) (by simp [writes_of_reaches hr hro, hk, hc, ht]) ?_
    simp only [hok, ho, releaseSem, hw, ha, Bool.not_true, Bool.false_eq_true, if_false, ne_eq, not_true_eq_false, reduceCtorEq, and_false]
    have hevent (x : Nat) (u : State) (j : Nat) : (semResult f 0 (event g 0x0805 x u 0 0 d)).sem j = u.sem j :=
      congrArg (fun y : Faults => tget y.sems j {}) (event_ft ..)
    refine ⟨(hevent ..).trans (by rw [syncWait_sem, State.sem_modSem_same]), semResult_semRes ..,
      fun j hj => (hevent ..).trans (by rw [syncWait_sem, State.sem_modSem_other hj]), OnlyChanges.kept ?_⟩
    exact ((modSem_onlyChanges s _ _).mono (by simp)).trans (((modCtx_onlyChanges _ d _).mono (by simp)).trans
      ((event_onlyChanges.mono (by simp)).trans ((semResult_onlyChanges f 0 _).mono (by simp))))
  case notOwner =>
    refine completes_of_actIf (by rfl) (live_of_reaches hr) (by simp [writes_of_reaches hr hro, hk, hc, ht]) ?_
    simp only [hok, ho, Bool.not_true, Bool.false_eq_true, if_false, ne_eq, not_false_eq_true, if_true]
    exact ⟨semResult_fn .., (semResult_onlyChanges _ _ _).kept⟩

end Sys2Proof.Machine

/-! # Links that stop, train and come up

SUPPORT. What a link that stops carrying frames gives back and leaves alone (R491, R499, R558), and what its training starts (R489). -/

namespace Sys2Proof.Machine

section
variable {s t u : State} {n l a b : Nat}

/-! ## What queueing a frame leaves of the links and lanes -/

/-- A link without the frames that wait on it and the credits it has given. -/
def Link.bare (k : Link) : Link := { k with queues := [], ctlq := [], given := [] }

/-- The lanes of a Lantern and the key slot it trains under. -/
def Lantern.optics (x : Lantern) : Tab Lane × Nat := (x.lanes, x.keySlot.toNat)

/-- Two states differ, in their Lanterns, in no more than the queues of the links, the credits given and counters, and agree on the other
Rail registers. -/
structure SameCarriage (s t : State) : Prop where
  links  : ∀ a b, (t.link a b).bare = (s.link a b).bare
  optics : ∀ a, (t.lantern a).optics = (s.lantern a).optics
  rail   : t.rail = { s.rail with lanterns := t.rail.lanterns }

theorem SameCarriage.refl (s : State) : SameCarriage s s := ⟨fun _ _ => rfl, fun _ => rfl, rfl⟩

theorem SameCarriage.trans (h : SameCarriage s t) (h' : SameCarriage t u) : SameCarriage s u :=
  ⟨fun a b => (h'.links a b).trans (h.links a b), fun a => (h'.optics a).trans (h.optics a), by rw [h'.rail, h.rail]⟩

theorem SameCarriage.of_rail_eq (h : t.rail = s.rail) : SameCarriage s t :=
  ⟨fun a b => by simp only [State.link, State.lantern, h], fun a => by simp only [State.lantern, h], by rw [h]⟩

theorem SameCarriage.of_onlyChanges {ps : List Zone} (h : OnlyChanges ps s t) (hp : .rail ∉ ps) : SameCarriage s t :=
  .of_rail_eq (h.rail_eq hp)

/-- What a link's state is without its queues, both states agree on. -/
theorem SameCarriage.link_eq {α : Type} (h : SameCarriage s t) (p : Link → α) (hp : ∀ k : Link, p k.bare = p k) (a b : Nat) :
    p (t.link a b) = p (s.link a b) := by
  rw [← hp, h.links a b, hp]

theorem SameCarriage.lane_eq (h : SameCarriage s t) (a k : Nat) : t.lane a k = s.lane a k := by
  have hlanes : (t.lantern a).lanes = (s.lantern a).lanes := congrArg Prod.fst (h.optics a)
  simp only [State.lane, hlanes]

theorem sameCarriage_modLink (s : State) (n l : Nat) {g : Link → Link} (h : ∀ k, (g k).bare = k.bare) :
    SameCarriage s (s.modLink n l g) :=
  ⟨fun _ _ => State.link_modLink_keeps Link.bare h, fun _ => State.lantern_modLantern_keeps Lantern.optics (fun _ => rfl), rfl⟩

theorem sameCarriage_modLantern (s : State) (n : Nat) {g : Lantern → Lantern}
    (h : ∀ x, (g x).links = x.links ∧ (g x).optics = x.optics) : SameCarriage s (s.modLantern n g) :=
  ⟨fun _ _ => by rw [State.link_modLantern (fun x => (h x).1)],
    fun _ => State.lantern_modLantern_keeps Lantern.optics (fun x => (h x).2), rfl⟩

theorem freeIngress_sameCarriage (q : QFrame) (s : State) : SameCarriage s (freeIngress q s) := by
  unfold freeIngress
  split
  · exact sameCarriage_modLink _ _ _ (fun _ => rfl)
  · exact .refl s

theorem enqueue_sameCarriage (n l : Nat) (q : QFrame) (s : State) : SameCarriage s (enqueue n l q s) := by
  unfold enqueue
  split
  · refine SameCarriage.trans ?_ (freeIngress_sameCarriage _ _)
    exact sameCarriage_modLantern s n (fun _ => ⟨rfl, rfl⟩)
  · exact sameCarriage_modLink _ _ _ (fun _ => rfl)

theorem forwardStored_sameCarriage (f : Frame) (i : Option (Nat × Nat)) (s : State) : SameCarriage s (forwardStored f i s) := by
  unfold forwardStored
  extract_lets path q
  split
  · split
    · exact enqueue_sameCarriage _ _ _ _
    · refine SameCarriage.trans ?_ (freeIngress_sameCarriage _ _)
      exact sameCarriage_modLantern s 0 (fun _ => ⟨rfl, rfl⟩)
  · split
    · exact enqueue_sameCarriage _ _ _ _
    · refine SameCarriage.trans ?_ (freeIngress_sameCarriage _ _)
      exact .of_rail_eq rfl

theorem launch_sameCarriage (c dst : Nat) (p : Packet) (b : Bool) (s : State) : SameCarriage s (launch c dst p b s).1 := by
  unfold launch
  extract_lets x k path p' f0 f q s1
  have h1 : SameCarriage s s1 :=
    .trans (t := railUse c (dataLen p) s) (.of_onlyChanges (railUse_onlyChanges _ _ _) (by decide)) (.of_rail_eq rfl)
  clear_value s1 k
  dsimp only
  split
  · exact h1.trans (enqueue_sameCarriage _ _ _ _)
  · split
    · exact h1.trans (enqueue_sameCarriage _ _ _ _)
    · exact h1

/-! ## Frames that go back -/

theorem resend_onlyChanges (c : Nat) (q : W32) (o : Nat) (s : State) : OnlyChanges [.rail, .rc, .ft] s (resend c q o s) := by
  unfold resend
  split
  · exact .refl _ s
  · exact (launch_onlyChanges _ _ _ _ s).trans ((onlyChanges_set_rc _ _).mono (by simp))

theorem resend_sameCarriage (c : Nat) (q : W32) (o : Nat) (s : State) : SameCarriage s (resend c q o s) := by
  unfold resend
  split
  · exact .refl s
  · exact (launch_sameCarriage _ _ _ _ s).trans (.of_rail_eq rfl)

/-- Frames that an egress held are queued anew: the links and lanes stay (R499, R558). -/
theorem returnFrames_spec (qs : List QFrame) (s : State) :
    OnlyChanges [.rail, .rc, .ft] s (returnFrames qs s) ∧ SameCarriage s (returnFrames qs s) := by
  induction qs generalizing s with
  | nil => exact ⟨.refl _ s, .refl s⟩
  | cons q qs ih =>
    have hone : OnlyChanges [.rail, .rc, .ft] s (match q.packet with
          | some (num, mseq, off) => resend num mseq off s
          | none => if q.frame.typ = 1 ∧ q.frame.src ≠ s.rail.nodeId.toNat then forwardStored q.frame q.ingress s else s) ∧
        SameCarriage s (match q.packet with
          | some (num, mseq, off) => resend num mseq off s
          | none => if q.frame.typ = 1 ∧ q.frame.src ≠ s.rail.nodeId.toNat then forwardStored q.frame q.ingress s else s) := by
      split
      · exact ⟨resend_onlyChanges _ _ _ s, resend_sameCarriage _ _ _ s⟩
      · split
        · exact ⟨(forwardStored_onlyChanges _ _ s).mono (by simp), forwardStored_sameCarriage _ _ s⟩
        · exact ⟨.refl _ s, .refl s⟩
    exact ⟨hone.1.trans (ih _).1, hone.2.trans (ih _).2⟩

/-! ## A link that stops -/

/-- A link whose frames have gone back: it carries none, and its lanes are dark (R491, R499). -/
def Link.stopped (st : LinkSt) (cause : Byte) (k : Link) : Link :=
  { k with
    st, cause, lanesUp := 0, unacked := [], queues := [], ctlq := [], ackDue := false, credits := [], keyed := false, peerConf := false,
    sentTrain := false, key0 := [], key1 := [] }

theorem linkStop_eq (n l : Nat) (st : LinkSt) (cause : Byte) (s : State) :
    linkStop n l st cause s = returnFrames (s.link n l).frames (s.modLink n l (Link.stopped st cause)) := rfl

theorem linkStop_onlyChanges (n l : Nat) (st : LinkSt) (cause : Byte) (s : State) :
    OnlyChanges [.rail, .rc, .ft] s (linkStop n l st cause s) := by
  rw [linkStop_eq]
  exact ((modLink_onlyChanges s n l _).mono (by simp)).trans (returnFrames_spec _ _).1

/-- The stopped link, queues apart. -/
theorem linkStop_link_same {α : Type} (p : Link → α) (hp : ∀ k : Link, p k.bare = p k) (n l : Nat) (st : LinkSt) (cause : Byte)
    (s : State) : p ((linkStop n l st cause s).link n l) = p ((s.link n l).stopped st cause) := by
  rw [linkStop_eq, (returnFrames_spec _ _).2.link_eq p hp, State.link_modLink_same]

/-- Every other link keeps its own, queues apart. -/
theorem linkStop_link_other {α : Type} (p : Link → α) (hp : ∀ k : Link, p k.bare = p k) {st : LinkSt} {cause : Byte}
    (h : ¬ (a = n ∧ b = l)) : p ((linkStop n l st cause s).link a b) = p (s.link a b) := by
  rw [linkStop_eq, (returnFrames_spec _ _).2.link_eq p hp, State.link_modLink_other h]

theorem linkStop_optics (n l : Nat) (st : LinkSt) (cause : Byte) (s : State) (a : Nat) :
    ((linkStop n l st cause s).lantern a).optics = (s.lantern a).optics := by
  rw [linkStop_eq, (returnFrames_spec _ _).2.optics a]
  exact State.lantern_modLantern_keeps Lantern.optics (fun _ => rfl)

theorem linkStop_rail (n l : Nat) (st : LinkSt) (cause : Byte) (s : State) :
    (linkStop n l st cause s).rail = { s.rail with lanterns := (linkStop n l st cause s).rail.lanterns } :=
  (returnFrames_spec (s.link n l).frames (s.modLink n l (Link.stopped st cause))).2.rail

@[simp] theorem link_event (f c r : Nat) (s : State) (st : Byte) (q : W32) (x : Nat) (fr : BitVec 16) (a b : Nat) :
    (event f c r s st q x fr).link a b = s.link a b := by
  simp only [State.link, State.lantern, event_rail]

theorem linkDown_onlyChanges (n l : Nat) (st : LinkSt) (cause : Byte) (s : State) :
    OnlyChanges [.rail, .rc, .ft, .host, .out] s (linkDown n l st cause s) :=
  ((linkStop_onlyChanges n l st cause s).mono (by simp)).trans (event_onlyChanges.mono (by simp))

/-- A link that goes down is lost in the sense of R491. -/
theorem linkDown_lost (n l : Nat) (st : LinkSt) (cause : Byte) (s : State) : LinkLost n l st cause s (linkDown n l st cause s) := by
  have hlink (a b : Nat) : (linkDown n l st cause s).link a b = (linkStop n l st cause s).link a b := link_event ..
  refine ⟨?_, ?_, ?_, ?_, fun m k hk => ?_, linkStop n l st cause s, linkStop_onlyChanges n l st cause s, .refl _ _⟩
  · rw [hlink, linkStop_link_same Link.st (fun _ => rfl)]; rfl
  · rw [hlink, linkStop_link_same Link.cause (fun _ => rfl)]; rfl
  · rw [hlink, linkStop_link_same Link.lanesUp (fun _ => rfl)]; rfl
  · rw [hlink, linkStop_link_same Link.unacked (fun _ => rfl)]; rfl
  · rw [hlink, linkStop_link_other Link.st (fun _ => rfl) hk]

/-- A possession that is given back beside leaves the loss as it is. -/
theorem LinkLost.releasePoss {st : LinkSt} {cause act : Byte} {arg : Nat} (h : LinkLost n l st cause s t) :
    LinkLost n l st cause s (releasePoss act arg t) := by
  obtain ⟨hst, hcause, hlanes, hunacked, hothers, v, hv, ht⟩ := h
  exact ⟨hst, hcause, hlanes, hunacked, hothers, v, hv, ht.trans (onlyChanges_set_ft t _)⟩

/-! ## Lanes -/

theorem modLane_onlyChanges (s : State) (n k : Nat) (g : Lane → Lane) : OnlyChanges [.rail] s (s.modLane n k g) :=
  modLantern_onlyChanges s n _

theorem State.lane_modLane_same (s : State) (n k : Nat) (g : Lane → Lane) : (s.modLane n k g).lane n k = g (s.lane n k) := by
  simp only [State.lane, State.modLane, State.lantern_modLantern_same, tget_tmod_same]

theorem State.lane_modLane_other {g : Lane → Lane} {k : Nat} (h : ¬ (a = n ∧ b = k)) : (s.modLane n k g).lane a b = s.lane a b := by
  by_cases ha : a = n
  · subst ha
    have hb : b ≠ k := fun hb => h ⟨rfl, hb⟩
    simp only [State.lane, State.modLane, State.lantern_modLantern_same, tget_tmod_other _ _ _ _ _ hb]
  · simp only [State.lane, State.modLane, State.lantern_modLantern_other ha]

@[simp] theorem State.link_modLane (s : State) (n k : Nat) (g : Lane → Lane) (a b : Nat) : (s.modLane n k g).link a b = s.link a b :=
  State.link_modLantern (fun _ => rfl)

/-- Lanes that take their states in turn: each of the list has its own, and the links stay. -/
theorem setLanes_foldl (ks : List Nat) (st : Nat → LaneSt) (n : Nat) (s : State) :
    (∀ k, ((ks.foldl (fun s k => s.modLane n k (fun x => { x with st := st k })) s).lane n k).st =
      if k ∈ ks then st k else (s.lane n k).st) ∧
    ∀ a b, (ks.foldl (fun s k => s.modLane n k (fun x => { x with st := st k })) s).link a b = s.link a b := by
  induction ks generalizing s with
  | nil => exact ⟨fun k => by simp, fun _ _ => rfl⟩
  | cons j ks ih =>
    obtain ⟨hlane, hlink⟩ := ih (s.modLane n j (fun x => { x with st := st j }))
    refine ⟨fun k => (hlane k).trans ?_, fun a b => (hlink a b).trans (State.link_modLane ..)⟩
    by_cases hk : k = j
    · subst hk
      simp [State.lane_modLane_same]
    · simp [State.lane_modLane_other (fun h => hk h.2), hk]

theorem setLanes_onlyChanges (n l : Nat) (st : Nat → LaneSt) (s : State) : OnlyChanges [.rail] s (setLanes n l st s) :=
  onlyChanges_foldl (fun s k => modLane_onlyChanges s n k _) _ s

theorem setLanes_lane {st : Nat → LaneSt} {k : Nat} (h : k ∈ linkLanes n l s) : ((setLanes n l st s).lane n k).st = st k := by
  rw [setLanes, (setLanes_foldl _ st n s).1, if_pos h]

@[simp] theorem setLanes_link (n l : Nat) (st : Nat → LaneSt) (s : State) (a b : Nat) : (setLanes n l st s).link a b = s.link a b :=
  (setLanes_foldl _ st n s).2 a b

/-- Which link a lane belongs to follows from the tables in force alone (R172, R174, R488). -/
theorem linkLanes_of_onlyChanges {ps : List Zone} (h : OnlyChanges ps s t) (hw : .work ∉ ps) (hi : .img ∉ ps) (n l : Nat) :
    linkLanes n l t = linkLanes n l s := by
  simp only [linkLanes, laneLink, lanternCfg, lanternImage, applying, h.work_eq hw, h.img_eq hi]

/-! ## Training -/

/-- The link and its lanes once they have stopped for training. -/
def darkened (n l : Nat) (s : State) : State := setLanes n l (fun _ => .training) (linkStop n l .training 0 s)

theorem darkened_onlyChanges (n l : Nat) (s : State) : OnlyChanges [.rail, .rc, .ft] s (darkened n l s) :=
  (linkStop_onlyChanges n l .training 0 s).trans ((setLanes_onlyChanges n l _ _).mono (by simp))

theorem setLanes_rail (n l : Nat) (st : Nat → LaneSt) (s : State) :
    (setLanes n l st s).rail = { s.rail with lanterns := (setLanes n l st s).rail.lanterns } := by
  have hfold (ks : List Nat) (u : State) : (ks.foldl (fun s k => s.modLane n k (fun x => { x with st := st k })) u).rail =
      { u.rail with lanterns := (ks.foldl (fun s k => s.modLane n k (fun x => { x with st := st k })) u).rail.lanterns } := by
    induction ks generalizing u with
    | nil => rfl
    | cons k ks ih => rw [List.foldl_cons, ih]; rfl
  exact hfold _ s

theorem setLanes_keySlot (n l : Nat) (st : Nat → LaneSt) (s : State) (a : Nat) :
    ((setLanes n l st s).lantern a).keySlot = (s.lantern a).keySlot := by
  have hfold (ks : List Nat) (u : State) : ((ks.foldl (fun s k => s.modLane n k (fun x => { x with st := st k })) u).lantern a).keySlot =
      (u.lantern a).keySlot := by
    induction ks generalizing u with
    | nil => rfl
    | cons k ks ih =>
      rw [List.foldl_cons, ih]
      exact State.lantern_modLantern_keeps Lantern.keySlot (fun _ => rfl)
  exact hfold _ s

/-- The identity that a TRAIN frame states is that of the node. -/
theorem darkened_identity (n l : Nat) (s : State) :
    (darkened n l s).rail.nodeId = s.rail.nodeId ∧ (darkened n l s).rail.inc = s.rail.inc ∧
    ((darkened n l s).lantern n).keySlot.toNat = (s.lantern n).keySlot.toNat := by
  refine ⟨?_, ?_, ?_⟩
  · rw [darkened, setLanes_rail, linkStop_rail]
  · rw [darkened, setLanes_rail, linkStop_rail]
  · rw [darkened, setLanes_keySlot]
    exact congrArg Prod.snd (linkStop_optics n l .training 0 s n)

/-- A Lantern counts a training that follows another (R529). -/
def countRetrain (n : Nat) (again : Bool) (s : State) : State := s.modLantern n (fun x => { x with retrains := x.retrains + b2n again })

theorem countRetrain_link (n : Nat) (x : Bool) (s : State) (a b : Nat) : (countRetrain n x s).link a b = s.link a b :=
  State.link_modLantern (fun _ => rfl)

theorem countRetrain_lanes (n : Nat) (x : Bool) (s : State) (a : Nat) : ((countRetrain n x s).lantern a).lanes = (s.lantern a).lanes :=
  State.lantern_modLantern_keeps Lantern.lanes (fun _ => rfl)

/-- The state a TRAIN frame leaves from: the link holds the fresh nonce that the frame carries. -/
def nonceTaken (n l : Nat) (s : State) : State :=
  countRetrain n (s.link n l).trained ((darkened n l s).fresh.modLink n l (fun k => { k with
    nonce := Config.random (darkened n l s).free % 2 ^ 256, keySlot := ((darkened n l s).lantern n).keySlot.toNat, sentTrain := true }))

theorem startTraining_eq (hn : s.rail.nodeSet = true) (n l : Nat) : startTraining n l s =
    plainOut n l (ownFrame (darkened n l s) 9 0 (.train (darkened n l s).rail.nodeId.toNat (darkened n l s).rail.inc n
      (linkVersion l .training) ((darkened n l s).lantern n).keySlot.toNat (Config.random (darkened n l s).free % 2 ^ 256)))
      (nonceTaken n l s) := by
  simp only [startTraining, hn, Bool.not_true, Bool.false_eq_true, if_false]
  rfl

theorem darkened_link {α : Type} (p : Link → α) (hp : ∀ k : Link, p k.bare = p k) (n l : Nat) (s : State) :
    p ((darkened n l s).link n l) = p ((s.link n l).stopped .training 0) := by
  rw [darkened, setLanes_link, linkStop_link_same p hp]

theorem darkened_free (n l : Nat) (s : State) : (darkened n l s).free = s.free := (darkened_onlyChanges n l s).free_eq (by decide)

theorem nonceTaken_link (n l : Nat) (s : State) : ((nonceTaken n l s).link n l).st = .training ∧
    ((nonceTaken n l s).link n l).nonce = Config.random s.free % 2 ^ 256 ∧ ((nonceTaken n l s).link n l).keyed = false := by
  have hlink : (nonceTaken n l s).link n l = { (darkened n l s).link n l with
      nonce := Config.random (darkened n l s).free % 2 ^ 256, keySlot := ((darkened n l s).lantern n).keySlot.toNat, sentTrain := true } := by
    rw [nonceTaken, countRetrain_link, State.link_modLink_same]
    rfl
  rw [hlink, darkened_free]
  exact ⟨darkened_link Link.st (fun _ => rfl) n l s, rfl, darkened_link Link.keyed (fun _ => rfl) n l s⟩

theorem nonceTaken_other (h : ¬ (a = n ∧ b = l)) : ((nonceTaken n l s).link a b).st = (s.link a b).st := by
  have hdark : ((darkened n l s).link a b).st = (s.link a b).st := by
    rw [darkened, setLanes_link, linkStop_link_other Link.st (fun _ => rfl) h]
  rw [nonceTaken, countRetrain_link, State.link_modLink_other h]
  exact hdark

theorem nonceTaken_lane {k : Nat} (h : k ∈ linkLanes n l s) : ((nonceTaken n l s).lane n k).st = .training := by
  have hmem : k ∈ linkLanes n l (linkStop n l .training 0 s) := by
    rwa [linkLanes_of_onlyChanges (linkStop_onlyChanges n l .training 0 s) (by decide) (by decide)]
  have hlanes : ((nonceTaken n l s).lantern n).lanes = ((darkened n l s).lantern n).lanes := by
    rw [nonceTaken, countRetrain_lanes]
    exact State.lantern_modLantern_keeps Lantern.lanes (fun _ => rfl)
  rw [State.lane, hlanes]
  exact setLanes_lane (st := fun _ => LaneSt.training) hmem

theorem nonceTaken_onlyChanges (n l : Nat) (s : State) : OnlyChanges [.rail, .rc, .ft, .free] s (nonceTaken n l s) :=
  ((darkened_onlyChanges n l s).mono (by simp)).trans (((onlyChanges_set_free _ _).mono (by simp)).trans
    (((modLink_onlyChanges _ n l _).mono (by simp)).trans ((modLantern_onlyChanges _ n _).mono (by simp))))

theorem nonceTaken_out (n l : Nat) (s : State) : (nonceTaken n l s).out = s.out := (nonceTaken_onlyChanges n l s).out_eq (by decide)

/-- A frame without a number leaves under its link's version. -/
theorem plainOut_out (n l : Nat) (f : Frame) (s : State) : (plainOut n l f s).out = s.out ++
    [.frame n l { f with version := linkVersion l (s.link n l).st } (plainWire { f with version := linkVersion l (s.link n l).st }) false] := rfl

theorem plainOut_onlyChanges (n l : Nat) (f : Frame) (s : State) : OnlyChanges [.out] s (plainOut n l f s) := emit_onlyChanges s _

@[simp] theorem plainOut_link (n l : Nat) (f : Frame) (s : State) (a b : Nat) : (plainOut n l f s).link a b = s.link a b := rfl
@[simp] theorem plainOut_lane (n l : Nat) (f : Frame) (s : State) (a b : Nat) : (plainOut n l f s).lane a b = s.lane a b := rfl

/-- A link of a node that has its ID trains anew: its frames go back and a TRAIN frame with a fresh nonce leaves (R489). -/
theorem startTraining_trainsAnew (hn : s.rail.nodeSet = true) (n l : Nat) : TrainsAnew n l s (startTraining n l s) := by
  obtain ⟨hid, hinc, hslot⟩ := darkened_identity n l s
  obtain ⟨hst, hnonce, hkeyed⟩ := nonceTaken_link n l s
  rw [startTraining_eq hn, hid, hinc, hslot, darkened_free]
  unfold TrainsAnew
  simp only [plainOut_link, plainOut_lane]
  refine ⟨hst, hnonce, hkeyed, fun k hk => nonceTaken_lane hk, fun m k hmk => nonceTaken_other hmk, ?_,
    ((nonceTaken_onlyChanges n l s).mono (by simp)).trans ((plainOut_onlyChanges _ _ _ _).mono (by simp))⟩
  rw [plainOut_out, nonceTaken_out, hst]
  exact ⟨_, rfl, rfl, rfl, rfl⟩

/-- Without a node ID no link trains (R534). -/
theorem startTraining_of_unset (hn : s.rail.nodeSet = false) (n l : Nat) : startTraining n l s = s := by
  simp [startTraining, hn]

theorem startTraining_onlyChanges (n l : Nat) (s : State) : OnlyChanges [.rail, .rc, .ft, .free, .out] s (startTraining n l s) := by
  cases hn : s.rail.nodeSet with
  | false =>
    rw [startTraining_of_unset hn]
    exact .refl _ s
  | true =>
    obtain ⟨-, -, -, -, -, -, hframe⟩ := startTraining_trainsAnew hn n l
    exact hframe

end

end Sys2Proof.Machine

/-! # Possessions and the Lanterns of an image

SUPPORT. Which waiting request is granted (R692), what the Lanterns of a new image change (R174, R491, R515, R758), and what a load past its
point of no return, a retirement and a patrol scrub leave (R172, R660, R691). -/

namespace Sys2Proof.Machine

section
variable {s : State}

/-! ## Requests and grants -/

/-- A request that is granted overlaps no held possession and no earlier request, and is the only one to leave the queue. -/
theorem nextGrant_spec {held earlier queue rest : List Poss} {r : Poss} (h : nextGrant held earlier queue = some (r, rest)) :
    (∀ x ∈ held, domsOverlap x.domains r.domains = false) ∧ r ∈ queue ∧ rest.length + 1 = earlier.length + queue.length := by
  induction queue generalizing earlier with
  | nil => cases h
  | cons q queue ih =>
    rw [nextGrant] at h
    split at h
    case isTrue hg =>
      cases h
      simp only [grantable, Bool.and_eq_true, Bool.not_eq_true', List.any_eq_false] at hg
      exact ⟨fun x hx => by simpa using hg.1 x hx, by simp, by simp; omega⟩
    case isFalse =>
      obtain ⟨hfree, hmem, hlen⟩ := ih h
      exact ⟨hfree, List.mem_cons_of_mem _ hmem, by simp at hlen ⊢; omega⟩

/-- The state in which a request has been granted: it holds its domains from now (R692). -/
def granted (r : Poss) (rest : List Poss) (s : State) : State :=
  { s with ft := { s.ft with held := s.ft.held ++ [{ r with since := s.clk.ac }], queue := rest } }

/-- What the granted activity does at once (R172, R491, R660). -/
def grantEffect (r : Poss) (s : State) : State :=
  if r.activity = 0x10 then pointOfNoReturn r.arg s
  else if r.activity = 0x03 then grantRetrain r.arg s
  else if r.activity = 0x06 then releasePoss 0x06 r.arg (retireMove (r.arg / 100) (r.arg % 100) s)
  else s

theorem completes_possessionGrant {r : Poss} {rest : List Poss} {P : State → Prop} (hl : s.live = true)
    (hg : nextGrant s.ft.held [] s.ft.queue = some (r, rest)) (h : P (s.kept (grantEffect r (granted r rest s)))) :
    Completes .possessionGrant s P := by
  refine completes_of_act (by rfl) hl ?_
  simp only [hg]
  exact h

/-- A request that no full domain refuses waits at the end of the queue (R692). -/
theorem requestPoss_queues {a : Byte} {doms : BitVec 22} (h : neverRefused a = true ∨ fullDomain doms s = none) (arg : Nat) :
    requestPoss a doms arg s = { s with ft := { s.ft with queue := s.ft.queue ++ [{ activity := a, domains := doms, arg }] } } := by
  unfold requestPoss
  rcases h with h | h <;> simp [h]

/-- A request on a domain with eight waiting ones is refused and counted (R693). -/
theorem requestPoss_refused {a : Byte} {doms : BitVec 22} {d : Nat} (ha : neverRefused a = false) (h : fullDomain doms s = some d)
    (arg : Nat) : (requestPoss a doms arg s).ft = { s.ft with possRefused := satBv s.ft.possRefused 1 } ∧
    OnlyChanges [.ft, .host, .out] s (requestPoss a doms arg s) := by
  simp only [requestPoss, ha, h, Bool.false_eq_true, if_false]
  exact ⟨event_ft .., ((onlyChanges_set_ft s _).mono (by simp)).trans (event_onlyChanges.mono (by simp))⟩

/-! ## The Lanterns of an image -/

theorem onlyChanges_ite {ps : List Zone} {c : Prop} [Decidable c] {t : State} (h : OnlyChanges ps s t) :
    OnlyChanges ps s (if c then t else s) := by
  split
  · exact h
  · exact .refl _ s

/-- The parts of the state that links which stop, start and train may change. -/
def lanternZones : List Zone := [.rail, .rc, .ft, .host, .out]

theorem disableLantern_onlyChanges (n : Nat) (s : State) : OnlyChanges lanternZones s (disableLantern n s) :=
  onlyChanges_foldl (fun s l => ((linkStop_onlyChanges n l .disabled 0 s).mono (by decide)).trans
    ((setLanes_onlyChanges n l _ _).mono (by decide))) _ s

theorem darkLanterns_onlyChanges (old : Option Image) (i : Image) (s : State) : OnlyChanges lanternZones s (darkLanterns old i s) := by
  refine onlyChanges_foldl (fun s n => ?_) _ s
  exact onlyChanges_ite (disableLantern_onlyChanges n s)

theorem changeLanes_onlyChanges (n : Nat) (old new : BitVec 16) (s : State) : OnlyChanges lanternZones s (changeLanes n old new s) := by
  refine onlyChanges_foldl (fun s k => ?_) _ s
  split
  · exact .refl _ s
  · have hlane (g : Lane → Lane) : OnlyChanges lanternZones s (s.modLane n k g) := (modLane_onlyChanges s n k g).mono (by decide)
    extract_lets l run s1
    split
    · exact hlane _
    · split
      · exact (hlane _).trans ((linkDown_onlyChanges _ _ _ _ _).mono (by decide))
      · exact (hlane _).trans ((modLink_onlyChanges _ _ _ _).mono (by decide))

theorem enableLink_onlyChanges (n l : Nat) (s : State) : OnlyChanges [.rail] s (enableLink n l s) := by
  unfold enableLink
  split
  · exact modLink_onlyChanges s n l _
  · exact .refl _ s

theorem settleLanes_onlyChanges (n l : Nat) (s : State) : OnlyChanges [.rail] s (settleLanes n l s) := by
  unfold settleLanes
  split
  · exact modLink_onlyChanges s n l _
  · exact .refl _ s

theorem newTable_onlyChanges (n : Nat) (s : State) : OnlyChanges [.rail] s (newTable n s) :=
  ((modLink_onlyChanges s n 0 _).trans (modLink_onlyChanges _ n 1 _)).trans (modLantern_onlyChanges _ n _)

/-- A Lantern that an image enables: its links leave DISABLED under the new tables. -/
theorem tableTaken_onlyChanges (n : Nat) (s : State) :
    OnlyChanges [.rail] s (settleLanes n 1 (settleLanes n 0 (newTable n (enableLink n 1 (enableLink n 0 s))))) :=
  (((enableLink_onlyChanges n 0 s).trans (enableLink_onlyChanges n 1 _)).trans (newTable_onlyChanges n _)).trans
    ((settleLanes_onlyChanges n 0 _).trans (settleLanes_onlyChanges n 1 _))

theorem setLanterns_onlyChanges (old : Option Image) (i : Image) (s : State) : OnlyChanges lanternZones s (setLanterns old i s) := by
  refine onlyChanges_foldl (fun s n => ?_) _ s
  split
  · split
    · exact .refl _ s
    · exact disableLantern_onlyChanges n s
  · refine OnlyChanges.trans (t := match old with
      | some o => if o.lanterns.getLsbD n then changeLanes n
          (match o.lanternCfg[n]? with | some c => c.v2Lanes | none => 0) (match i.lanternCfg[n]? with | some c => c.v2Lanes | none => 0) s else s
      | none => s) ?_ ((tableTaken_onlyChanges n _).mono (by decide))
    split
    · split
      · exact changeLanes_onlyChanges n _ _ s
      · exact .refl _ s
    · exact .refl _ s

/-! ## The point of no return -/

theorem revokeNow_onlyChanges (p : RegSlot → Bool) (s : State) :
    OnlyChanges [.host, .work, .tt, .rc, .ft, .tn, .out] s (revokeNow p s) := by
  refine OnlyChanges.trans ((onlyChanges_set_rc s _).mono (by simp)) (onlyChanges_foldl (fun s k => ?_) _ _)
  exact ((modSlot_onlyChanges s k _).mono (by simp)).trans
    (onlyChanges_foldl (fun s w => (complete_onlyChanges w _ _ s _).mono (by simp)) _ _)

/-- A load past its point of no return removes the mappings; the image in force and the memory stay until it is applied (R172, R176). -/
theorem pointOfNoReturn_spec {i : Image} {b : List Byte} (h : s.img.staged = some (i, b)) (wid : Nat) :
    (pointOfNoReturn wid s).tn.parts = [] ∧ (pointOfNoReturn wid s).img = { s.img with flashCopy := false } ∧
    (pointOfNoReturn wid s).mem = s.mem := by
  simp only [pointOfNoReturn, h]
  have hrevoke := revokeNow_onlyChanges (fun _ => true) s
  have hunmap (u : State) : OnlyChanges [.tn] u (unmapAll u) := onlyChanges_set_tn u _
  have hchains (u : State) (l : List Nat) : OnlyChanges [.waybill] u (l.foldl (fun s p => chainEnd p s) u) :=
    onlyChanges_foldl (fun s p => signLast_onlyChanges p 4 false 0 [] s) l u
  generalize hu : unmapAll (revokeNow (fun _ => true) s) = u
  have hparts : u.tn.parts = [] := by rw [← hu]; rfl
  have hkeep : OnlyChanges [.host, .work, .tt, .rc, .ft, .tn, .out] s u := by
    rw [← hu]
    exact hrevoke.trans ((hunmap _).mono (by simp))
  have hdark := darkLanterns_onlyChanges s.img.image i u
  have hends := hchains (darkLanterns s.img.image i u) (List.range s.partitions)
  have hset (v : State) := setLanterns_onlyChanges s.img.image i v
  have himg : ((List.range s.partitions).foldl (fun s p => chainEnd p s) (darkLanterns s.img.image i u)).img = s.img := by
    rw [hends.img_eq (by decide), hdark.img_eq (by decide), hkeep.img_eq (by decide)]
  refine ⟨?_, ?_, ?_⟩
  · rw [(hset _).tn_eq (by decide)]
    change ((List.range s.partitions).foldl (fun s p => chainEnd p s) (darkLanterns s.img.image i u)).tn.parts = []
    rw [hends.tn_eq (by decide), hdark.tn_eq (by decide), hparts]
  · rw [(hset _).img_eq (by decide)]
    change ({ ((List.range s.partitions).foldl (fun s p => chainEnd p s) (darkLanterns s.img.image i u)).img with flashCopy := false } : ImageCtl) = _
    rw [himg, ← h]
  · rw [(hset _).mem_eq (by decide)]
    change ((List.range s.partitions).foldl (fun s p => chainEnd p s) (darkLanterns s.img.image i u)).mem = _
    rw [hends.mem_eq (by decide), hdark.mem_eq (by decide), hkeep.mem_eq (by decide)]

/-! ## Retirement -/

/-- Without a spare a retired Stand's logical ID becomes ABSENT (R660, R664). -/
theorem retireMove_absent {g p : Nat} (h : ∀ q, q < 100 → (s.phys g q).st ≠ .spare) :
    ((retireMove g p s).phys g p).st = .retired ∧
    (∀ l, (s.phys g p).logical = some l → ((retireMove g p s).stand g l).physical = none) ∧
    (retireMove g p s).ft = s.ft := by
  have hspare : (if s.boot.floor then none else (List.range 100).find? (fun q => (s.phys g q).st == .spare)) = none := by
    split
    · rfl
    · exact List.find?_eq_none.2 (fun q hq => by simpa using h q (List.mem_range.1 hq))
  unfold retireMove
  split
  case h_1 hl => exact ⟨congrArg Phys.st (State.phys_modPhys_same ..), fun l hl' => by simp [hl] at hl', rfl⟩
  case h_2 l hl =>
    have hgroves (c r c' r' : Nat) (u : State) : (event 0 c r (event 0 c' r' u)).groves = u.groves := by simp only [event_groves]
    simp only [hspare, Option.isNone_none, if_true]
    refine ⟨?_, fun l' hl' => ?_, by simp only [event_ft]; rfl⟩
    · rw [State.phys, hgroves]
      change ((s.modPhys g p (fun _ => { st := .retired })).phys g p).st = _
      rw [State.phys_modPhys_same]
    · obtain rfl : l = l' := Option.some.inj (hl.symm.trans hl')
      rw [State.stand, hgroves]
      change (((s.modPhys g p (fun _ => { st := .retired })).modStand g l (fun x => { x with physical := none, resident := [] })).stand g l).physical = _
      rw [State.stand_modStand_same]

/-! ## Patrol scrubs -/

/-- A deferred error opens a record or merges into one, and leaves the possessions and ERR_N alone (R679 to R683). -/
theorem raiseErr'_deferred {e : Err} (h : e.cls = 1) (s : State) :
    (raiseErr' e s).ft.held = s.ft.held ∧ OnlyChanges [.ft, .host, .out] s (raiseErr' e s) := by
  have hopen : (openRec e s).1.ft.held = s.ft.held ∧ OnlyChanges [.ft, .host, .out] s (openRec e s).1 := by
    have hpower : ({ s.power with errnPulse := s.power.errnPulse || decide (e.cls ≥ 2) } : Power) = s.power := by simp [h]
    simp only [openRec, noteFault, hpower, event_ft]
    exact ⟨trivial, ((onlyChanges_set_ft s _).mono (by simp)).trans (event_onlyChanges.mono (by simp))⟩
  simp only [raiseErr', raiseErr, h, show (1 : Nat) ≠ 0 by decide, show (1 : Nat) ≠ 3 by decide, if_false]
  split
  · exact ⟨rfl, onlyChanges_set_ft s _ |>.mono (by simp)⟩
  · exact ⟨hopen.1, hopen.2.trans ((onlyChanges_set_ft _ _).mono (by simp))⟩

/-- The error of a line that a patrol scrub could not correct (R675). -/
def scrubErr (stack line : Nat) : Err :=
  { cls := 1, source := 0x03, domain := 4 + stack, cause := Status.poisonConsumed.code, detail0 := 64 * line % 2 ^ 36, detail1 := stack }

/-- A line that is found bad in its stack is poisoned, and its deferred error raised (R674, R675). -/
theorem scrubLine_spec {stack line : Nat} (h : 64 * line / 2 ^ 36 = stack) (s : State) :
    tget (scrubLine stack s line).mem.poison line false = true ∧ (scrubLine stack s line).mem.hbm = s.mem.hbm ∧
    (scrubLine stack s line).ft.held = s.ft.held ∧ OnlyChanges [.ft, .mem, .host, .out] s (scrubLine stack s line) := by
  have heq : scrubLine stack s line =
      raiseErr' (scrubErr stack line) { s with mem := { s.mem with poison := tput s.mem.poison line true false } } := by
    rw [scrubLine, if_neg (by simpa using h)]
    rfl
  obtain ⟨hheld, hframe⟩ := raiseErr'_deferred (e := scrubErr stack line) rfl
    { s with mem := { s.mem with poison := tput s.mem.poison line true false } }
  rw [heq, hframe.mem_eq (by decide)]
  exact ⟨tget_tput_same s.mem.poison line true false, rfl, hheld, ((onlyChanges_set_mem s _).mono (by simp)).trans (hframe.mono (by simp))⟩

/-- An activity that ends gives its possession back, and a patrol scrub marks the lines it found (R691, R692). -/
theorem completes_maintenanceComplete {d : Nat} {bad : List Nat} {h : Poss} {P : State → Prop} (hl : s.live = true)
    (hf : s.ft.held.find? (fun h => maintenance h.activity && h.domains.toNat.testBit d) = some h)
    (hP : P (s.kept (if h.activity = 0x01 then bad.foldl (scrubLine h.arg) (releasePoss h.activity h.arg s)
      else releasePoss h.activity h.arg s))) : Completes (.maintenanceComplete d bad) s P := by
  refine completes_of_act (by rfl) hl ?_
  simp only [hf]
  exact hP

end

end Sys2Proof.Machine

/-! # The obligations on possessions -/

namespace Sys2Proof.Machine

/-- Settles O14, by the request that is granted first and by what its activity does at once. -/
theorem possessionGrant : Obligations.PossessionGrant := by
  unfold Obligations.PossessionGrant
  refine ⟨fun s r rest hl hg h10 h03 h06 => ?plain, fun s r rest i b hl hg h10 hst => ?load, fun s r rest hl hg h06 hsp => ?retire⟩
  case plain =>
    obtain ⟨hfree, hmem, hlen⟩ := nextGrant_spec hg
    have heffect : grantEffect r (granted r rest s) = granted r rest s := by simp only [grantEffect, if_neg h10, if_neg h03, if_neg h06]
    refine completes_possessionGrant hl hg ?_
    rw [heffect]
    exact ⟨rfl, hfree, hmem, by simpa using hlen, (onlyChanges_set_ft s _).kept⟩
  case load =>
    have heffect : grantEffect r (granted r rest s) = pointOfNoReturn r.arg (granted r rest s) := by simp only [grantEffect, if_pos h10]
    obtain ⟨hparts, himg, hmem⟩ := pointOfNoReturn_spec (s := granted r rest s) hst r.arg
    refine completes_possessionGrant hl hg ?_
    rw [heffect]
    simp only [State.kept_tn, State.kept_img, State.kept_mem, hparts, himg, hmem]
    exact ⟨trivial, trivial, hst, rfl, rfl⟩
  case retire =>
    have heffect : grantEffect r (granted r rest s) =
        releasePoss 0x06 r.arg (retireMove (r.arg / 100) (r.arg % 100) (granted r rest s)) := by
      simp only [grantEffect, h06, show (0x06 : Byte) ≠ 0x10 by decide, show (0x06 : Byte) ≠ 0x03 by decide, if_true, if_false]
    obtain ⟨hphys, hstand, hft⟩ := retireMove_absent (s := granted r rest s) (g := r.arg / 100) (p := r.arg % 100) hsp
    refine completes_possessionGrant hl hg ?_
    rw [heffect]
    exact ⟨hphys, hstand, congrArg Faults.queue hft, holds_releasePoss ..⟩

/-- Settles O15: a request waits or is refused by the domains it names; an activity that ends gives back what it held. -/
theorem maintenanceHolds : Obligations.Maintenance := by
  unfold Obligations.Maintenance
  refine ⟨fun s k hl hk hf => ?scrub, fun s k d hl hk hf => ?refused, fun s k hl hk hf => ?retrain, fun s c hl hc hf => ?calibration,
    fun s hl hf => ?broadcast, fun s g p hl hr => ?retire, fun s d bad h hl hf ha => ?ended, fun s d line h hl hf ha hline => ?scrubbed⟩
  case scrub =>
    refine completes_of_actIf_eq (by rfl) hl (decide_eq_true hk) (requestPoss_queues (.inr hf) k) ?_
    exact ⟨rfl, (onlyChanges_set_ft s _).kept⟩
  case refused =>
    obtain ⟨hft, hframe⟩ := requestPoss_refused (a := 0x01) rfl hf k
    refine completes_of_actIf (by rfl) hl (decide_eq_true hk) ?_
    exact ⟨hft, hframe.kept⟩
  case retrain =>
    refine completes_of_actIf_eq (by rfl) hl (decide_eq_true hk) (requestPoss_queues (.inr hf) k) ?_
    exact ⟨rfl, (onlyChanges_set_ft s _).kept⟩
  case calibration =>
    refine completes_of_actIf_eq (by rfl) hl (decide_eq_true hc) (requestPoss_queues (.inr hf) c) ?_
    exact ⟨rfl, (onlyChanges_set_ft s _).kept⟩
  case broadcast =>
    refine completes_of_act (by rfl) hl ?_
    rw [requestPoss_queues (.inr hf) 0]
    exact ⟨rfl, (onlyChanges_set_ft s _).kept⟩
  case retire =>
    refine completes_of_actIf_eq (by rfl) hl (decide_eq_true hr) (requestPoss_queues (.inl rfl) _) ?_
    exact ⟨rfl, (onlyChanges_set_ft s _).kept⟩
  case ended =>
    refine completes_maintenanceComplete hl hf ?_
    rw [if_neg ha]
    exact ⟨holds_releasePoss .., rfl, (onlyChanges_set_ft s _).kept⟩
  case scrubbed =>
    refine completes_maintenanceComplete hl hf ?_
    obtain ⟨hpoison, hhbm, hheld, hframe⟩ := scrubLine_spec hline (releasePoss h.activity h.arg s)
    rw [if_pos ha, List.foldl_cons, List.foldl_nil]
    refine ⟨hpoison, hhbm, ?_, (((onlyChanges_set_ft s _).mono (by simp)).trans hframe).kept⟩
    · exact (congrArg (fun l : List Poss => l.any (fun x => x.activity == h.activity && x.arg == h.arg)) hheld).trans
        (holds_releasePoss h.activity h.arg s)

end Sys2Proof.Machine

/-! # Phases of bring-up, and resets

SUPPORT. What the end of a phase leaves of the path under way (R642, R668), what READY and FAILED set (R643, R646), and what a warm reset
and a reset of the host port come to (R123, R124, R639, R670). -/

namespace Sys2Proof.Machine

section
variable {s t u : State}

/-! ## The path under way -/

/-- Bring-up stands where it stood: the same phases have ended and the stage is the same. -/
def SamePath (s t : State) : Prop := t.boot.done = s.boot.done ∧ t.boot.stage = s.boot.stage

theorem SamePath.trans (h : SamePath s t) (h' : SamePath t u) : SamePath s u := ⟨h'.1.trans h.1, h'.2.trans h.2⟩

theorem OnlyChanges.samePath {ps : List Zone} (h : OnlyChanges ps s t) (hp : .boot ∉ ps) : SamePath s t := by
  rw [SamePath, h.boot_eq hp]
  exact ⟨rfl, rfl⟩

theorem onlyChanges_set_cs (s : State) (x : Clearing) : OnlyChanges [.cs] s { s with cs := x } := by
  intro p hp
  cases p <;> simp [sameZone] at hp ⊢

/-! ## The image of the flash copy -/

/-- The parts of the state that bringing an image into force may change. -/
def imageZones : List Zone := [.mem, .waybill, .cs, .tn, .img, .groves, .tt, .free]

theorem clearForImage_onlyChanges (kept : List Region) (idx : Bool) (s : State) :
    OnlyChanges imageZones s (clearForImage kept idx s) := by
  have hmem := (onlyChanges_set_mem s (clearForImage kept idx s).mem).mono (qs := imageZones) (by decide)
  have hwb (v : State) := (onlyChanges_set_waybill v (clearForImage kept idx s).waybill).mono (qs := imageZones) (by decide)
  have hcs (v : State) := (onlyChanges_set_cs v (clearForImage kept idx s).cs).mono (qs := imageZones) (by decide)
  have htn (v : State) := (onlyChanges_set_tn v (clearForImage kept idx s).tn).mono (qs := imageZones) (by decide)
  exact ((hmem.trans (hwb _)).trans (hcs _)).trans (htn _)

theorem setDuties_onlyChanges (i : Image) (s : State) : OnlyChanges [.groves] s (setDuties i s) :=
  onlyChanges_foldl (fun s g => onlyChanges_foldl (fun s l => modStand_onlyChanges s g l _) _ s) _ s

theorem chainsStart_onlyChanges (s : State) : OnlyChanges [.waybill, .free] s (chainsStart s) :=
  onlyChanges_foldl (fun s p => (((onlyChanges_set_free s _).mono (by simp)).trans ((onlyChanges_set_waybill _ _).mono (by simp))).trans
    (genesis_onlyChanges p _)) _ s

theorem onlyChanges_set_img_groves (s : State) (x : ImageCtl) (y : Groves) :
    OnlyChanges [.img, .groves] s { s with img := x, groves := y } := by
  intro p hp
  cases p <;> simp [sameZone] at hp ⊢

theorem applyImage_onlyChanges (kept : List Region) (idx : Bool) (i : Image) (s : State) :
    OnlyChanges imageZones s (applyImage kept idx i s) := by
  unfold applyImage
  extract_lets s1 s2
  have hset : OnlyChanges imageZones s s2 :=
    (clearForImage_onlyChanges kept idx s).trans ((onlyChanges_set_img_groves s1 _ _).mono (by decide))
  have hstubs : OnlyChanges imageZones (setDuties i s2) (keepStubs (setDuties i s2)) := (onlyChanges_set_tt _ _).mono (by decide)
  exact ((hset.trans ((setDuties_onlyChanges i s2).mono (by decide))).trans hstubs).trans ((chainsStart_onlyChanges _).mono (by decide))

theorem noImage_onlyChanges (s : State) : OnlyChanges imageZones s (noImage s) := by
  unfold noImage
  extract_lets s1
  exact (clearForImage_onlyChanges [] false s).trans ((onlyChanges_set_img_groves s1 _ _).mono (by decide))

theorem applyFlash_samePath (warm : Bool) (s : State) : SamePath s (applyFlash warm s) := by
  unfold applyFlash
  dsimp only
  split
  · have hset (old : Option Image) (i : Image) (v : State) := (setLanterns_onlyChanges old i v).samePath (by decide)
    have himg (v : State) (x : ImageCtl) := (onlyChanges_set_img v x).samePath (by decide)
    exact (((applyImage_onlyChanges _ _ _ s).samePath (by decide)).trans (hset _ _ _)).trans (himg _ _)
  · exact (noImage_onlyChanges s).samePath (by decide)

/-! ## Phases -/

theorem installMaps_samePath (m : Nat → State → MapWork) (l : List Nat) (s : State) :
    SamePath s (l.foldl (fun s g => installMap g (m g s) s) s) := by
  induction l generalizing s with
  | nil => exact ⟨rfl, rfl⟩
  | cons g l ih => exact SamePath.trans (t := installMap g (m g s) s) ⟨rfl, rfl⟩ (ih _)

theorem buildMap_samePath (s : State) : SamePath s (buildMap s) :=
  SamePath.trans (t := { s with
    boot := { s.boot with ovrRej := 0, floor := s.flash.floorplan, mapped := true }, img := { s.img with ovrPend := false } })
    ⟨rfl, rfl⟩ (installMaps_samePath _ _ _)

theorem takeFirmware_samePath (s : State) : SamePath s (takeFirmware s) := by
  unfold takeFirmware
  split <;> exact ⟨rfl, rfl⟩

theorem retrainedDdr_samePath (found : Option DdrFound) (keep : Bool) (s : State) : SamePath s (retrainedDdr found keep s) := by
  unfold retrainedDdr
  split
  · exact ⟨rfl, rfl⟩
  · dsimp only
    split <;> exact ⟨rfl, rfl⟩

/-- What a phase leaves at its end is no phase and no stage (R642, R668). -/
theorem phaseEffect_samePath (ph : Phase) (r : PhaseReport) (s : State) : SamePath s (phaseEffect ph r s) := by
  cases ph with
  | c2 | w2 => exact takeFirmware_samePath s
  | w5b => exact retrainedDdr_samePath _ _ s
  | c7 | w6 => exact buildMap_samePath s
  | c8 | w7 | x5 => exact applyFlash_samePath _ s
  | w1 => exact (onlyChanges_foldl (fun s n => sendHb_onlyChanges s n) _ s).samePath (by decide)
  | x3 => exact (retrainedDdr_samePath _ _ s).trans ((startTraining_onlyChanges 0 0 _).samePath (by decide))
  | _ => exact ⟨rfl, rfl⟩

/-! ## What a report notes -/

/-- The state once a phase's report has been noted (R29, R653, R655, R669, R671). -/
def noted (ph : Phase) (r : PhaseReport) (s : State) : State := repairLanes ph r.repairs (noteReport r (noteFailed ph r.failedStands s))

/-- A report notes nothing of the phases, the stage, the failure or what the flash holds. -/
theorem noted_keeps (ph : Phase) (r : PhaseReport) (s : State) : SamePath s (noted ph r s) ∧
    (noted ph r s).boot.fail = s.boot.fail ∧ (noted ph r s).boot.chipReset = s.boot.chipReset ∧ (noted ph r s).flash = s.flash := by
  unfold noted repairLanes
  split <;> exact ⟨⟨rfl, rfl⟩, rfl, rfl, rfl⟩

/-- The state once a phase has ended without a failure, before what follows from it. -/
def phaseDone (ph : Phase) (r : PhaseReport) (s : State) : State :=
  phaseEffect ph r { noted ph r s with boot := { (noted ph r s).boot with done := (noted ph r s).boot.done ++ [ph] } }

theorem phaseDone_boot (ph : Phase) (r : PhaseReport) (s : State) :
    (phaseDone ph r s).boot.done = s.boot.done ++ [ph] ∧ (phaseDone ph r s).boot.stage = s.boot.stage := by
  obtain ⟨hdone, hstage⟩ := phaseEffect_samePath ph r
    { noted ph r s with boot := { (noted ph r s).boot with done := (noted ph r s).boot.done ++ [ph] } }
  obtain ⟨⟨hndone, hnstage⟩, -, -, -⟩ := noted_keeps ph r s
  exact ⟨hdone.trans (congrArg (· ++ [ph]) hndone), hstage.trans hnstage⟩

/-- Where the end of a phase leads: to READY at the end of a path, else to the stage that the phases done make (R643, R671). -/
def afterPhase (ph : Phase) (u : State) : State :=
  if u.boot.stage = .ready then u
  else if ph = .c8 ∨ ph = .w7 ∨ ph = .x6 then reachReady u
  else { u with boot := { u.boot with stage := stageOf u.boot.done } }

theorem completes_phase {ph : Phase} {r : PhaseReport} {P : State → Prop} (hl : s.live = true) (hr : phaseRuns ph s = true)
    (hf : phaseFailure ph r s = none) (h : P (s.kept (afterPhase ph (phaseDone ph r s)))) : Completes (.bringUpPhaseComplete ph r) s P := by
  refine completes_of_actIf (by rfl) hl hr ?_
  simp only [hf]
  exact h

theorem completes_phaseFailed {ph : Phase} {r : PhaseReport} {f : BootFailure} {P : State → Prop} (hl : s.live = true)
    (hr : phaseRuns ph s = true) (hf : phaseFailure ph r s = some f) (he : endsBringUp f = true) (h : P (s.kept (reachFailed f (noted ph r s)))) :
    Completes (.bringUpPhaseComplete ph r) s P := by
  refine completes_of_actIf (by rfl) hl hr ?_
  simp only [hf, he, if_true]
  exact h

theorem afterPhase_done (ph : Phase) (u : State) : (afterPhase ph u).boot.done = u.boot.done := by
  unfold afterPhase
  split
  · rfl
  · split <;> rfl

/-- The end of a path reaches READY and gives the possession of bring-up back (R640, R643). -/
theorem afterPhase_ready {ph : Phase} (hs : u.boot.stage ≠ .ready) (h : ph = .c8 ∨ ph = .w7 ∨ ph = .x6) :
    (afterPhase ph u).boot.stage = .ready ∧ holds 0x12 0 (afterPhase ph u) = false := by
  rw [afterPhase, if_neg hs, if_pos h]
  exact ⟨rfl, holds_releasePoss 0x12 0 _⟩

/-- A failure leads to FAILED and gives the possession back; no chip reset being under way, no level runs (R640, R646, R689). -/
theorem reachFailed_spec {f : BootFailure} (hc : s.boot.chipReset = false) (hf : s.boot.fail = none) :
    (reachFailed f s).boot.stage = .failed ∧ (reachFailed f s).boot.fail = some f ∧ holds 0x12 0 (reachFailed f s) = false ∧
    (reachFailed f s).flash = s.flash := by
  simp only [reachFailed, hc, hf, Bool.false_and, Bool.false_eq_true, if_false]
  exact ⟨rfl, rfl, holds_releasePoss 0x12 0 _, rfl⟩

/-! ## The link to the host through completions -/

/-- The mode of the host link is the same in two states. -/
def SameMode (s t : State) : Prop := t.host.mode = s.host.mode

theorem SameMode.trans (h : SameMode s t) (h' : SameMode t u) : SameMode s u := Eq.trans h' h

theorem msixSignal_sameMode (f v : Nat) (s : State) : SameMode s (msixSignal f v s) := by
  unfold msixSignal
  dsimp only
  split <;> rfl

theorem readHead_sameMode (n : Nat) (s : State) : SameMode s (readHead n s) := by
  unfold readHead
  split <;> rfl

theorem putRec_sameMode (n : Nat) (r : Rec) (s : State) : SameMode s (putRec n r s) := by
  unfold putRec
  extract_lets c m r1 s1
  refine SameMode.trans ?_ (readHead_sameMode n _)
  split
  · exact SameMode.trans (t := s1) rfl (msixSignal_sameMode _ _ _)
  · rfl

theorem giveRec_sameMode (f l : Nat) (r : Rec) (s : State) : SameMode s (giveRec f l r s) := by
  unfold giveRec
  extract_lets n c
  split
  · rfl
  · split
    · exact putRec_sameMode _ _ s
    · split <;> rfl

theorem settleRing_sameMode (n : Nat) (s : State) : SameMode s (settleRing n s) := by
  unfold settleRing
  split <;> rfl

theorem settleDisable_sameMode (f : Nat) (s : State) : SameMode s (settleDisable f s) := by
  unfold settleDisable
  split <;> rfl

theorem complete_sameMode (w : Work) (st : Status) (r : Nat) (s : State) (fr : BitVec 16) : SameMode s (complete w st r s fr) := by
  have hrest (v : State) : SameMode v (settleDisable w.fn (closeFor (.work w.wid) v)) :=
    SameMode.trans (t := closeFor (.work w.wid) v) (congrArg HostIf.mode (closeFor_host ..)) (settleDisable_sameMode _ _)
  cases hsrc : w.src with
  | ring n pos =>
    simp only [complete, hsrc]
    refine SameMode.trans (SameMode.trans ?_ (settleRing_sameMode n _)) (hrest _)
    split
    · rfl
    · split
      · rfl
      · exact SameMode.trans (t := { s with work := s.work.filter (fun x => x.wid != w.wid) }) rfl (giveRec_sameMode _ _ _ _)
  | step p i =>
    simp only [complete, hsrc]
    exact SameMode.trans (t := { s with work := s.work.filter (fun x => x.wid != w.wid) }) rfl
      (SameMode.trans (congrArg HostIf.mode (noteStepEntry_host ..)) (hrest _))

theorem completeAll_sameMode (st : Status) (r : Nat) (l : List Work) (s : State) : SameMode s (completeAll st r l s) := by
  induction l generalizing s with
  | nil => rfl
  | cons w l ih => exact (complete_sameMode w st r s 0).trans (ih _)

/-! ## Resets -/

theorem portReset_onlyChanges (s : State) : OnlyChanges [.host, .work] s (portReset s) := by
  have hlost : OnlyChanges [.host, .work] s (loseHeld s) := (loseHeld_onlyChanges s).mono (by simp)
  exact (hlost.trans ((onlyChanges_set_host _ (portReset s).host).mono (by simp))).trans
    ((onlyChanges_set_work _ (portReset s).work).mono (by simp))

/-- A reset of the host port: the link is down, no submission ring runs, and what rings had fetched is an orphan (R123, R124). -/
theorem portReset_spec (s : State) : (portReset s).host.mode = .down ∧ (portReset s).host.vfEnable = false ∧
    (∀ n, ((portReset s).sq n).st ≠ .running) ∧ (∀ w ∈ (portReset s).work, ∀ n p, w.src = .ring n p → w.orphan = true) := by
  refine ⟨rfl, rfl, fun n => ?_, fun w hw n p hsrc => ?_⟩
  · refine tget_tmap (P := fun q : Sq => q.st ≠ .running)
      (f := fun _ q => { q.stopFetch with st := if q.stopFetch.st = .draining then .disabled else q.stopFetch.st }) (fun k q => ?_)
      (show ({} : Sq).st ≠ .running by decide) (loseHeld s).host.sqs n
    cases hq : q.st <;> simp [Sq.stopFetch, hq]
  · obtain ⟨x, -, rfl⟩ := List.mem_map.1 hw
    cases hx : x.src with
    | ring m q => simp
    | step m q => simp [hx] at hsrc

theorem endInFlight_onlyChanges (s : State) : OnlyChanges [.host, .work, .tt, .ft, .tn, .out] s (endInFlight s) := by
  have hall (l : List Work) (v : State) : OnlyChanges [.host, .work, .tt, .ft, .tn, .out] v (completeAll .internal 0 l v) := by
    induction l generalizing v with
    | nil => exact .refl _ v
    | cons w l ih => exact (complete_onlyChanges w _ _ v _).trans (ih _)
  exact ((portReset_onlyChanges s).mono (by simp)).trans (hall _ _)

theorem endInFlight_down (s : State) : (endInFlight s).host.mode = .down := completeAll_sameMode _ _ _ (portReset s)

/-- A warm reset as R639 and R670 have it, from READY or out of an exit from N3 (R762). -/
theorem warmReset_spec (c : BitVec 2) (h : s.ready = true ∨ (s.live = true ∧ s.power.trans = some .fromN3)) :
    (warmReset c s).boot.stage = .lodge ∧ (warmReset c s).boot.path = .warmFast ∧ (warmReset c s).boot.cause = c ∧ (warmReset c s).work = [] ∧
    (warmReset c s).tt.entries = [] ∧ (warmReset c s).tn.parts = [] ∧ (warmReset c s).mem.hbm = s.mem.hbm ∧
    (warmReset c s).rail.inc = s.rail.inc + 1 ∧ (warmReset c s).flash.incarnation = s.flash.incarnation + 1 ∧
    (warmReset c s).host.mode = .down := by
  have hgo : (!s.ready && !(s.live && decide (s.power.trans = some .fromN3))) = false := by
    rcases h with h | ⟨hl, ht⟩ <;> simp [*]
  have hframe := endInFlight_onlyChanges s
  have hrail : (endInFlight s).rail = s.rail := hframe.rail_eq (by decide)
  have hflash : (endInFlight s).flash = s.flash := hframe.flash_eq (by decide)
  have hhbm : (endInFlight s).mem.hbm = s.mem.hbm := congrArg Mem.hbm (endInFlight_mem s)
  unfold warmReset
  rw [if_neg (ne_true_of_eq_false hgo)]
  exact ⟨rfl, rfl, rfl, endInFlight_work s, rfl, rfl, hhbm, congrArg (fun x : Rail => x.inc + 1) hrail,
    congrArg (fun x : Flash => x.incarnation + 1) hflash, endInFlight_down s⟩

theorem ready_of_writes {f : Nat} (h : writes f s = true) : s.ready = true := by
  simp only [writes, reaches, portOpen, readsOnly, Bool.and_eq_true, Bool.or_eq_true, Bool.not_eq_true', Bool.or_eq_false_iff,
    beq_iff_eq, beq_eq_false_iff_ne] at h
  obtain ⟨⟨⟨⟨hl, -⟩, hst⟩, -⟩, -, hnf⟩ := h
  simp only [State.ready, hl, Bool.true_and, decide_eq_true_eq]
  exact hst.resolve_right hnf

theorem wakeBy_of_deaf {bit : Nat} {acts : PState → Bool} (ht : s.power.trans = none)
    (ha : acts (if s.power.st = .n0 then .n1 else s.power.st) = false) : wakeBy bit acts s = s := by
  simp [wakeBy, ht, ha]

/-- In N3 a wake source starts the exit from it (R73, R75). -/
theorem wakeBy_of_n3 {bit : Nat} {acts : PState → Bool} (ht : s.power.trans = none) (hs : s.power.st = .n3) (ha : acts .n3 = true) :
    wakeBy bit acts s = startN3Exit (noteWake (2 ^ bit) s) := by
  simp [wakeBy, ht, hs, ha, exitFrom, noteWake]

theorem startN3Exit_onlyChanges (s : State) : OnlyChanges [.power, .boot] s (startN3Exit s) := by
  intro p hp
  cases p <;> simp [sameZone, startN3Exit] at hp ⊢

end

end Sys2Proof.Machine

/-! # The obligations on bring-up and resets -/

namespace Sys2Proof.Machine

/-- Settles O5, by the two ways a phase ends, and by the fields that each other command sets. -/
theorem bringUp : Obligations.BringUp := by
  unfold Obligations.BringUp
  refine ⟨fun s ph r hl hr hf hm => ?done, fun s r hl hr => ?first, fun s ph r f hl hr hc1 hf he hc hn => ?failed,
    fun s ph r hl hr hph hf hm hc hn => ?manifest, fun s ok hl hp => ?settings, fun s b hl hc => ?copy, fun s hl hc hr hf hmax => ?chip⟩
  case done =>
    have hnone : phaseFailure ph r s = none := by
      unfold phaseFailure
      split
      · rfl
      · rw [hf]
        exact if_neg (fun h => by simp [hm h.1] at h)
    obtain ⟨hdone, hstage⟩ := phaseDone_boot ph r s
    have hall : (afterPhase ph (phaseDone ph r s)).boot.done = s.boot.done ++ [ph] := (afterPhase_done _ _).trans hdone
    refine completes_phase hl hr hnone ?_
    rw [State.kept_boot, hall]
    exact ⟨by simp, fun q hq => by simp [hq], fun hs he => afterPhase_ready (hstage ▸ hs) he⟩
  case first =>
    obtain ⟨⟨-, hnstage⟩, -, -, hflash⟩ := noted_keeps .c1 r s
    have hnr : s.boot.stage ≠ .ready := by
      simp only [phaseRuns, Bool.and_eq_true, Bool.or_eq_true, bne_iff_ne, beq_iff_eq, reduceCtorEq, or_false] at hr
      exact hr.1.2
    obtain ⟨-, hstage⟩ := phaseDone_boot .c1 r s
    refine completes_phase hl hr rfl ?_
    rw [afterPhase, if_neg (hstage ▸ hnr), if_neg (by decide)]
    exact ⟨congrArg (fun x : Flash => x.incarnation + 1) hflash, rfl⟩
  case failed =>
    obtain ⟨-, hfail, hchip, -⟩ := noted_keeps ph r s
    have hsome : phaseFailure ph r s = some f := by rw [phaseFailure, if_neg hc1, hf]; rfl
    obtain ⟨hstage, hcause, hholds, -⟩ := reachFailed_spec (f := f) (hchip.trans hc) (hfail.trans hn)
    exact completes_phaseFailed hl hr hsome he ⟨hstage, hcause, hholds⟩
  case manifest =>
    obtain ⟨-, hfail, hchip, hflash⟩ := noted_keeps ph r s
    have hsome : phaseFailure ph r s = some { kind := 7, unit := 0, cause := 4 } := by
      have hc1 : ph ≠ .c1 := by rcases hph with rfl | rfl <;> decide
      rw [phaseFailure, if_neg hc1, hf]
      exact if_pos ⟨hph, hm⟩
    obtain ⟨hstage, hcause, hholds, hfl⟩ := reachFailed_spec (f := { kind := 7, unit := 0, cause := 4 }) (hchip.trans hc) (hfail.trans hn)
    exact completes_phaseFailed hl hr hsome rfl ⟨hstage, hcause, congrArg Flash.active (hfl.trans hflash), hholds⟩
  case settings =>
    refine completes_of_actIf (by rfl) hl hp ?_
    refine ⟨rfl, ?_, fun hok => ?_, fun hok => ?_, OnlyChanges.kept ?_⟩
    · cases ok <;> simp
    · subst hok; rfl
    · subst hok; exact ⟨rfl, rfl⟩
    · refine OnlyChanges.trans (t := { s with boot := { s.boot with savePend := false } }) ?_ ((onlyChanges_set_flash _ _).mono (by simp))
      intro p hp
      cases p <;> simp [sameZone] at hp ⊢
  case copy =>
    refine completes_of_act (by rfl) hl ?_
    simp only [hc]
    refine ⟨rfl, rfl, by simp, rfl, OnlyChanges.kept ?_⟩
    intro p hp
    cases p <;> simp [sameZone] at hp ⊢
  case chip =>
    refine completes_of_actIf_eq (u := { s with power := { s.power with pwrcycLow := true } }) (by rfl) hl (by simp [hc, hr, hf]) ?_ ?_
    · rw [chipLevel, if_neg (by omega), if_pos le_rfl]
    · exact ⟨rfl, (onlyChanges_set_power s _).kept⟩

/-- Settles O6, by what a warm reset and a reset of the host port are, and by what releasing PERST_N finds. -/
theorem resets : Obligations.Resets := by
  unfold Obligations.Resets
  refine ⟨fun s hw => ?warm, fun s h => ?tray, fun s hl => ?perst, fun s hl hp hs ht => ?released, fun s hl hp hs ht => ?plain,
    fun s hl => ?hot, fun s hl => ?down⟩
  case warm =>
    refine completes_of_actIf (by rfl) (live_of_ready (ready_of_writes hw)) hw ?_
    exact warmReset_spec 1 (.inl (ready_of_writes hw))
  case tray =>
    refine completes_of_act (by rfl) (h.elim live_of_ready And.left) ?_
    exact warmReset_spec 2 h
  case perst =>
    obtain ⟨hmode, hvf, hsqs, horphans⟩ := portReset_spec { s with power := { s.power with perstLow := true } }
    refine completes_of_act (by rfl) hl ?_
    refine ⟨(portReset_onlyChanges _).power_eq (by decide), hmode, hvf, hsqs, horphans, OnlyChanges.kept ?_⟩
    exact ((onlyChanges_set_power s _).mono (by simp)).trans ((portReset_onlyChanges _).mono (by simp))
  case released =>
    refine completes_of_actIf_eq (by rfl) hl hp (wakeBy_of_n3 (s := { s with power := { s.power with perstLow := false } }) ht hs rfl) ?_
    refine ⟨rfl, rfl, rfl, OnlyChanges.kept ?_⟩
    exact (((onlyChanges_set_power s _).trans (onlyChanges_set_power _ _)).mono (by simp)).trans (startN3Exit_onlyChanges _)
  case plain =>
    have hdeaf : ((if s.power.st = .n0 then PState.n1 else s.power.st) == .n3) = false := by
      split <;> simp [hs]
    refine completes_of_actIf_eq (by rfl) hl hp (wakeBy_of_deaf (s := { s with power := { s.power with perstLow := false } }) ht hdeaf) ?_
    exact ⟨rfl, (onlyChanges_set_power s _).kept⟩
  case hot =>
    obtain ⟨hmode, hvf, hsqs, horphans⟩ := portReset_spec s
    refine completes_of_act (by rfl) hl ?_
    exact ⟨hmode, hvf, hsqs, horphans, (portReset_onlyChanges s).kept⟩
  case down =>
    obtain ⟨hmode, hvf, hsqs, horphans⟩ := portReset_spec s
    refine completes_of_act (by rfl) hl ?_
    exact ⟨hmode, hvf, hsqs, horphans, (portReset_onlyChanges s).kept⟩

end Sys2Proof.Machine

/-! # The obligation on tenancy

SUPPORT. A device on which a change of a function's tenant lets another function's ring fetch (R99, R104, R714). -/

namespace Sys2Proof.Machine

/-- A ready device in CXL2 mode with one virtual function enabled, where a ring of the physical function runs with one new descriptor that
it has not asked for. -/
def tailAhead : State :=
  { State.reset with
    power := { State.reset.power with st := .n0 }
    boot := { State.reset.boot with stage := .ready }
    host := { State.reset.host with mode := .cxl2, vfEnable := true, numVfs := 1, sqs := [(0, { enable := true, st := .running, tail := 1 })] } }

/-- The write disables function 1 first, at whose end the rings take the turns they may: that of the physical function asks the host for its
descriptor. -/
theorem tailAhead_fetches : ∃ t, exec (.tnVfWrite 1 0x80000001) tailAhead = .next t ∧ t.out ≠ tailAhead.out :=
  ⟨_, rfl, by decide +kernel⟩

/-- Refutes O52, by its second clause (a change of the tenant of a function in use changes nothing outside the host interface). The
disable that it begins (R714, R696) frees the ring arbiter, and in `tailAhead` a ring of another function then takes its turn and sends
the host a read, which the clause's frame leaves no place for. -/
theorem not_tenancy : ¬ Obligations.Tenancy := by
  unfold Obligations.Tenancy
  rintro ⟨-, hbusy, -⟩
  obtain ⟨t, ht, -, -, -, honly⟩ := hbusy tailAhead 1 0x80000001 (by decide +kernel) le_rfl (by decide) rfl le_rfl (by decide +kernel)
    (by decide +kernel)
  obtain ⟨u, hu, hout⟩ := tailAhead_fetches
  obtain rfl : t = u := Host.Outcome.next.inj (ht.symm.trans hu)
  exact hout (honly.out_eq (by decide))

end Sys2Proof.Machine

/-! # Links that train and come up

SUPPORT. What a control frame leaves of its link (R495, R496), and the two frames that end a training (R489 to R491, R503). -/

namespace Sys2Proof.Machine

section
variable {s t : State} {n l a b : Nat}

/-- An event that changes neither the fuses nor the queue of commands leaves what it makes. -/
theorem completes_of_actIf_within {c : Instr} {u : State} {x : Bool} {f : State → State} {ps : List Zone} {P : State → Prop}
    (hc : exec c s = actIf s x f) (hl : s.live = true) (hx : x = true) (hu : f s = u) (h : OnlyChanges ps s u) (hf : .fuses ∉ ps)
    (hq : .pending ∉ ps) (hP : P u) : Completes c s P :=
  completes_of_actIf_eq hc hl hx hu (by rwa [h.kept_eq hf hq])

/-! ## Control frames -/

/-- A control frame as its link sends it (R495, R496). -/
def ctlFrame (n l : Nat) (f : Frame) (s : State) : Frame :=
  { f with version := linkVersion l (s.link n l).st, fseq := (s.link n l).txCtl, ackSeq := (s.link n l).rxSeq }

/-- A link one control frame further. -/
def Link.sentCtl (k : Link) : Link :=
  { k with txCtl := k.txCtl + 1, txCtlGen := genAfter k.txCtlGen k.txCtl, ackDue := false, ctlLast := true }

theorem ctlOut_eq (n l : Nat) (f : Frame) (s : State) :
    ctlOut n l f s = (frameOut n l (ctlFrame n l f s) s).modLink n l Link.sentCtl := rfl

theorem ctlOut_out (n l : Nat) (f : Frame) (s : State) : (ctlOut n l f s).out =
    s.out ++ [.frame n l (ctlFrame n l f s) (wireOf s.me (s.link n l) (ctlFrame n l f s) false) false] := rfl

theorem frameOut_onlyChanges (n l : Nat) (f : Frame) (s : State) : OnlyChanges [.rail, .out] s (frameOut n l f s) :=
  ((modLantern_onlyChanges s n _).mono (by simp)).trans ((emit_onlyChanges _ _).mono (by simp))

theorem ctlOut_onlyChanges (n l : Nat) (f : Frame) (s : State) : OnlyChanges [.rail, .out] s (ctlOut n l f s) :=
  (frameOut_onlyChanges n l _ s).trans ((modLink_onlyChanges _ n l _).mono (by simp))

@[simp] theorem frameOut_link (n l : Nat) (f : Frame) (s : State) (a b : Nat) : (frameOut n l f s).link a b = s.link a b := by
  rw [frameOut, State.emit_link]
  exact State.link_modLantern (fun _ => rfl)

theorem ctlOut_link (n l : Nat) (f : Frame) (s : State) : (ctlOut n l f s).link n l = (s.link n l).sentCtl := by
  rw [ctlOut_eq, State.link_modLink_same, frameOut_link]

theorem ctlOut_link_other (f : Frame) (h : ¬ (a = n ∧ b = l)) : (ctlOut n l f s).link a b = s.link a b := by
  rw [ctlOut_eq, State.link_modLink_other h, frameOut_link]

theorem State.lane_modLink (s : State) (n l : Nat) (g : Link → Link) (a k : Nat) : (s.modLink n l g).lane a k = s.lane a k := by
  have h : ((s.modLink n l g).lantern a).lanes = (s.lantern a).lanes := State.lantern_modLantern_keeps Lantern.lanes (fun _ => rfl)
  simp only [State.lane, h]

theorem ctlOut_lane (n l : Nat) (f : Frame) (s : State) (a k : Nat) : (ctlOut n l f s).lane a k = s.lane a k := by
  have h : ((frameOut n l (ctlFrame n l f s) s).lantern a).lanes = (s.lantern a).lanes :=
    State.lantern_modLantern_keeps Lantern.lanes (fun _ => rfl)
  rw [ctlOut_eq, State.lane_modLink, State.lane, h, State.lane]

/-! ## The frames that end a training -/

/-- A link that has the peer's identity, and its keys: both streams start anew (R489, R501, R502). -/
def Link.keyedFrom (me n l node : Nat) (inc : W32) (a slot nonce up all : Nat) (k : Link) : Link :=
  Link.keyedAs { k with
    peer := node, peerInc := inc, keyed := true, peerLantern := a, peerNonce := nonce, peerConf := decide (slot = k.keySlot),
    lanesUp := up, allLanes := decide (up = all),
    txSeq := 0, txGen := 0, txCtl := 0, txCtlGen := 0, rxSeq := 0, rxGen := 0, rxCtl := 0, rxCtlGen := 0, credits := [] }
    me n (linkVersion l .training)

/-- The lanes of a link that a peer's TRAIN frame is seen on, and that lead to that peer. -/
def lanesSeen (n l : Nat) (o : TrainObs) (s : State) : List Nat :=
  (linkLanes n l s).filter (fun k => o.up.any (· == k) && !o.miswired.any (· == k))

theorem lanesSeen_eq (n l : Nat) (o : TrainObs) (s : State) :
    lanesSeen n l o s = (linkLanes n l s).filter (fun k => decide (k ∈ o.up) && !decide (k ∈ o.miswired)) := by
  have hany (ls : List Nat) (k : Nat) : ls.any (· == k) = decide (k ∈ ls) := by
    rw [List.any_beq', List.contains_eq_mem]
  simp only [lanesSeen, hany]

/-- The state of a lane after a TRAIN frame. -/
def laneTrained (l : Nat) (o : TrainObs) (k : Nat) : LaneSt :=
  if o.miswired.any (· == k) then .miswired else if o.up.any (· == k) then laneUpSt l else .los

/-- The state a good TRAIN frame leaves, before KEY_CONFIRM is sent. -/
def keysDerived (n l node : Nat) (inc : W32) (a slot nonce : Nat) (o : TrainObs) (s : State) : State :=
  (setLanes n l (laneTrained l o) s).modLink n l
    (Link.keyedFrom s.me n l node inc a slot nonce (lanesSeen n l o s).length (linkLanes n l s).length)

theorem keysDerived_link (n l node : Nat) (inc : W32) (a slot nonce : Nat) (o : TrainObs) (s : State) :
    (keysDerived n l node inc a slot nonce o s).link n l =
      (s.link n l).keyedFrom s.me n l node inc a slot nonce (lanesSeen n l o s).length (linkLanes n l s).length := by
  rw [keysDerived, State.link_modLink_same, setLanes_link]

theorem keysDerived_onlyChanges (n l node : Nat) (inc : W32) (a slot nonce : Nat) (o : TrainObs) (s : State) :
    OnlyChanges [.rail] s (keysDerived n l node inc a slot nonce o s) :=
  (setLanes_onlyChanges n l _ s).trans (modLink_onlyChanges _ n l _)

theorem setLanes_me (n l : Nat) (st : Nat → LaneSt) (s : State) : (setLanes n l st s).me = s.me := by
  rw [State.me, setLanes_rail, State.me]

theorem keysDerived_me (n l node : Nat) (inc : W32) (a slot nonce : Nat) (o : TrainObs) (s : State) :
    (keysDerived n l node inc a slot nonce o s).me = s.me := setLanes_me ..

/-- The two keys of a link are what its training derives (R502). -/
theorem Link.keyedFrom_keys (k : Link) (me n l node : Nat) (inc : W32) (a slot nonce up all : Nat) :
    (k.keyedFrom me n l node inc a slot nonce up all).key0 ++ (k.keyedFrom me n l node inc a slot nonce up all).key1 =
      linkKeys (Config.fabricKey k.keySlot) (linkVersion l .training) ⟨me, n, k.nonce⟩ ⟨node, a, nonce⟩ := List.take_append_drop 32 _

theorem Link.keyedFrom_st (k : Link) (me n l node : Nat) (inc : W32) (a slot nonce up all : Nat) :
    (k.keyedFrom me n l node inc a slot nonce up all).st = k.st := rfl

/-- The first control frame of new keys has the same bytes whether its number is about to be used or has been. -/
theorem wireOf_sentCtl {me : Nat} {k : Link} {f : Frame} (hf : f.typ = 8) (hq : f.fseq = 0) (hs : k.txCtl = 0) (hg : k.txCtlGen = 0) :
    wireOf me k.sentCtl f false = wireOf me k f false := by
  have hstream : streamOf f = 1 := by simp [streamOf, hf]
  have hgen : genOf k.sentCtl.txCtlGen k.sentCtl.txCtl f.fseq = genOf k.txCtlGen k.txCtl f.fseq := by
    simp only [Link.sentCtl, hs, hg, hq]
    decide
  rw [wireOf, wireOf, hstream]
  simp only [one_ne_zero, if_false, hgen]
  rfl

/-- The state a good TRAIN frame leaves. -/
def trained (n l node : Nat) (inc : W32) (a slot nonce : Nat) (o : TrainObs) (s : State) : State :=
  ctlOut n l (ownFrame (keysDerived n l node inc a slot nonce o s) 8 node .none) (keysDerived n l node inc a slot nonce o s)

section
variable {node slot nonce pl : Nat} {inc : W32} {o : TrainObs}

theorem trained_onlyChanges : OnlyChanges [.rail, .out] s (trained n l node inc pl slot nonce o s) :=
  ((keysDerived_onlyChanges n l node inc pl slot nonce o s).mono (by simp)).trans (ctlOut_onlyChanges _ _ _ _)

theorem trained_link : (trained n l node inc pl slot nonce o s).link n l =
    ((s.link n l).keyedFrom s.me n l node inc pl slot nonce (lanesSeen n l o s).length (linkLanes n l s).length).sentCtl := by
  rw [trained, ctlOut_link, keysDerived_link]

theorem trained_miswired {k : Nat} (hk : k ∈ linkLanes n l s) (hm : k ∈ o.miswired) :
    ((trained n l node inc pl slot nonce o s).lane n k).st = .miswired := by
  rw [trained, ctlOut_lane, keysDerived, State.lane_modLink, setLanes_lane hk, laneTrained, if_pos (by simpa using hm)]

/-- KEY_CONFIRM is the first control frame under the new keys. -/
theorem trained_out (hst : (s.link n l).st = .training) : ∃ g, (trained n l node inc pl slot nonce o s).out = s.out ++
    [.frame n l g (wireOf s.me ((trained n l node inc pl slot nonce o s).link n l) g false) false] ∧
    g.typ = 8 ∧ g.dst = node ∧ g.fseq = 0 ∧ g.version = linkVersion l .training := by
  have hlink := keysDerived_link n l node inc pl slot nonce o s
  have hseq : (ctlFrame n l (ownFrame (keysDerived n l node inc pl slot nonce o s) 8 node .none)
      (keysDerived n l node inc pl slot nonce o s)).fseq = 0 := by
    rw [ctlFrame, hlink]
    rfl
  refine ⟨ctlFrame n l (ownFrame (keysDerived n l node inc pl slot nonce o s) 8 node .none) (keysDerived n l node inc pl slot nonce o s),
    ?_, rfl, rfl, hseq, ?_⟩
  · rw [trained_link, wireOf_sentCtl rfl hseq rfl rfl, trained, ctlOut_out, keysDerived_me, hlink,
      (keysDerived_onlyChanges n l node inc pl slot nonce o s).out_eq (by decide)]
  · rw [ctlFrame, hlink]
    exact congrArg (linkVersion l) hst

end

/-- A TRAIN frame on a training link: the first test that fails decides (R489, R490). -/
theorem exec_train {node slot nonce pl : Nat} {inc : W32} {v : BitVec 4} {f : Frame} {o : TrainObs} (hl : s.live = true)
    (hst : (s.link n l).st = .training) (hp : f.payload = .train node inc pl v slot nonce) : exec (.train n l f o) s = .next (s.kept (
      if node = s.me then trainFail n l 0x02 s
      else if v ≠ linkVersion l .training ∨ (!o.versionOk) = true then trainFail n l 0x04 s
      else if (!s.fuses.fabric.getLsbD (s.link n l).keySlot) = true ∨ s.trust.unlocked = true then trainFail n l 0x03 s
      else trained n l node inc pl slot nonce o s)) := by
  have hexec : exec (.train n l f o) s = execTrain n l f o s := rfl
  have hg : (s.live && decide ((s.link n l).st = .training)) = true := by simp [hl, hst]
  rw [hexec, execTrain, hp]
  exact congrArg Host.Outcome.next (if_pos hg)

theorem trainFail_onlyChanges (n l : Nat) (cause : Byte) (s : State) : OnlyChanges [.rail, .rc, .ft, .host, .out] s (trainFail n l cause s) :=
  (linkDown_onlyChanges n l .failed cause s).trans ((onlyChanges_set_ft _ _).mono (by simp))

/-- A training that fails: its link is lost with the cause, and its possession goes (R490, R491). -/
theorem trainFail_lost (n l : Nat) (cause : Byte) (s : State) : LinkLost n l .failed cause s (trainFail n l cause s) :=
  (linkDown_lost n l .failed cause s).releasePoss

/-- A running link. -/
def Link.confirmed (f : Frame) (k : Link) : Link :=
  { k with
    st := if k.allLanes then .up else .degraded, cause := 0, trained := true, heard := true, retrainWaits := false,
    rxCtl := f.fseq + 1, rxCtlGen := genAfter k.rxCtlGen f.fseq }

/-! ## The commands of a training -/

theorem lightOn_trains (hl : s.live = true) (hst : (s.link n l).st = .down) (hfw : forwards s = true) (hn : s.rail.nodeSet = true) :
    Completes (.lightOn n l) s (TrainsAnew n l s) :=
  completes_of_actIf_within (by rfl) hl (by simp [hst, hfw]) rfl (startTraining_onlyChanges n l s) (by decide) (by decide)
    (startTraining_trainsAnew hn n l)

theorem linkRetryTimer_trains (hl : s.live = true) (hst : (s.link n l).st = .failed) (hfw : forwards s = true)
    (hn : s.rail.nodeSet = true) : Completes (.linkRetryTimer n l) s (TrainsAnew n l s) :=
  completes_of_actIf_within (by rfl) hl (by simp [hst, hfw]) rfl (startTraining_onlyChanges n l s) (by decide) (by decide)
    (startTraining_trainsAnew hn n l)

theorem peerLeavesN3_trains (hl : s.live = true) (hst : (s.link 0 0).st = .trickle) (hn : s.rail.nodeSet = true) :
    Completes .peerLeavesN3 s (TrainsAnew 0 0 s) :=
  completes_of_actIf_within (by rfl) hl (by simp [hst]) rfl (startTraining_onlyChanges 0 0 s) (by decide) (by decide)
    (startTraining_trainsAnew hn 0 0)

theorem trainingTimeout_fails (hl : s.live = true) (hst : (s.link n l).st = .training) :
    Completes (.trainingTimeout n l) s (LinkLost n l .failed 0x05 s) :=
  completes_of_actIf_within (by rfl) hl (by simp [hst]) rfl (trainFail_onlyChanges n l 0x05 s) (by decide) (by decide)
    (trainFail_lost n l 0x05 s)

theorem linkTimeout_down (hl : s.live = true) (hup : (s.link n l).up = true) : Completes (.linkTimeout n l) s (LinkLost n l .down 0x00 s) :=
  completes_of_actIf_within (by rfl) hl hup rfl (linkDown_onlyChanges n l .down 0x00 s) (by decide) (by decide)
    (linkDown_lost n l .down 0x00 s)

/-- The state a good KEY_CONFIRM leaves. -/
def cameUp (n l : Nat) (f : Frame) (s : State) : State :=
  releasePoss 0x03 (64 * n + 32 + l) (event 0 0x0601 (linkResult n l) (s.modLink n l (Link.confirmed f)))

theorem cameUp_onlyChanges (n l : Nat) (f : Frame) (s : State) : OnlyChanges [.rail, .host, .out, .ft] s (cameUp n l f s) :=
  (((modLink_onlyChanges s n l (Link.confirmed f)).mono (by simp)).trans (event_onlyChanges.mono (by simp))).trans
    ((onlyChanges_set_ft _ _).mono (by simp))

@[simp] theorem cameUp_link (n l : Nat) (f : Frame) (s : State) (a b : Nat) :
    (cameUp n l f s).link a b = (s.modLink n l (Link.confirmed f)).link a b := link_event ..

/-- A KEY_CONFIRM on a link that has its keys. -/
theorem exec_keyConfirm {f : Frame} {tag : BitVec 128} (hl : s.live = true) (hst : (s.link n l).st = .training)
    (hk : (s.link n l).keyed = true) (hf : f.typ = 8) : exec (.keyConfirm n l f tag) s =
      .next (s.kept (if tag ≠ rxTag s.me (s.link n l) f ∨ (!(s.link n l).peerConf) = true then trainFail n l 0x03 s else cameUp n l f s)) := by
  have hexec : exec (.keyConfirm n l f tag) s = execKeyConfirm n l f tag s := rfl
  have hg : (s.live && (decide ((s.link n l).st = .training) && (s.link n l).keyed && f.typ == 8)) = true := by simp [hl, hst, hk, hf]
  rw [hexec, execKeyConfirm, actIf, if_pos hg]
  rfl

theorem keyConfirm_fails {f : Frame} {tag : BitVec 128} (hl : s.live = true) (hst : (s.link n l).st = .training)
    (hk : (s.link n l).keyed = true) (hf : f.typ = 8) (hbad : tag ≠ rxTag s.me (s.link n l) f ∨ (s.link n l).peerConf = false) :
    Completes (.keyConfirm n l f tag) s (LinkLost n l .failed 0x03 s) := by
  refine ⟨_, exec_keyConfirm hl hst hk hf, ?_⟩
  rw [if_pos (hbad.imp_right (by simp [·])), (trainFail_onlyChanges n l 0x03 s).kept_eq (by decide) (by decide)]
  exact trainFail_lost n l 0x03 s

theorem keyConfirm_comesUp {f : Frame} (hl : s.live = true) (hst : (s.link n l).st = .training) (hk : (s.link n l).keyed = true)
    (hf : f.typ = 8) (hc : (s.link n l).peerConf = true) : Completes (.keyConfirm n l f (rxTag s.me (s.link n l) f)) s (fun t =>
      (t.link n l).st = (if (s.link n l).allLanes then .up else .degraded) ∧ (t.link n l).trained = true ∧ (t.link n l).cause = 0 ∧
      (t.link n l).rxCtl = f.fseq + 1 ∧ (∀ m k, ¬ (m = n ∧ k = l) → t.link m k = s.link m k) ∧
      ∃ u, OnlyChanges [.rail] s u ∧ OnlyChanges [.ft] (event 0 0x0601 (n + 256 * l) u) t) := by
  have hgood : ¬ (rxTag s.me (s.link n l) f ≠ rxTag s.me (s.link n l) f ∨ (!(s.link n l).peerConf) = true) := by simp [hc]
  refine ⟨_, exec_keyConfirm hl hst hk hf, ?_⟩
  rw [if_neg hgood, (cameUp_onlyChanges n l f s).kept_eq (by decide) (by decide)]
  simp only [cameUp_link, State.link_modLink_same]
  exact ⟨rfl, rfl, rfl, rfl, fun m k hmk => State.link_modLink_other hmk, _, modLink_onlyChanges s n l (Link.confirmed f),
    onlyChanges_set_ft _ _⟩

theorem train_derives {node slot nonce pl : Nat} {inc : W32} {f : Frame} {o : TrainObs} (hl : s.live = true)
    (hst : (s.link n l).st = .training) (hp : f.payload = .train node inc pl (linkVersion l .training) slot nonce) (hme : node ≠ s.me)
    (ho : o.versionOk = true) (hfab : s.fuses.fabric.getLsbD (s.link n l).keySlot = true) (hdbg : s.trust.unlocked = false) :
    Completes (.train n l f o) s (fun t =>
      (t.link n l).st = .training ∧ (t.link n l).peer = node ∧ (t.link n l).peerInc = inc ∧ (t.link n l).keyed = true ∧
      (t.link n l).peerConf = decide (slot = (s.link n l).keySlot) ∧
      (t.link n l).key0 ++ (t.link n l).key1 = linkKeys (Config.fabricKey (s.link n l).keySlot) (linkVersion l .training)
        ⟨s.me, n, (s.link n l).nonce⟩ ⟨node, pl, nonce⟩ ∧
      (t.link n l).lanesUp = ((linkLanes n l s).filter (fun k => decide (k ∈ o.up) && !decide (k ∈ o.miswired))).length ∧
      (∀ k ∈ linkLanes n l s, k ∈ o.miswired → (t.lane n k).st = .miswired) ∧
      (∃ g, t.out = s.out ++ [.frame n l g (wireOf s.me (t.link n l) g false) false] ∧ g.typ = 8 ∧ g.dst = node ∧ g.fseq = 0 ∧
        g.version = linkVersion l .training) ∧ OnlyChanges [.rail, .out] s t) := by
  have hlink := trained_link (s := s) (n := n) (l := l) (node := node) (slot := slot) (nonce := nonce) (pl := pl) (inc := inc) (o := o)
  refine ⟨_, exec_train hl hst hp, ?_⟩
  rw [if_neg hme, if_neg (by simp [ho]), if_neg (by simp [hfab, hdbg]), trained_onlyChanges.kept_eq (by decide) (by decide)]
  refine ⟨(congrArg Link.st hlink).trans hst, congrArg Link.peer hlink, congrArg Link.peerInc hlink, congrArg Link.keyed hlink,
    congrArg Link.peerConf hlink, ?_, ?_, fun k hk hm => trained_miswired hk hm, trained_out hst, trained_onlyChanges⟩
  · rw [hlink]
    exact Link.keyedFrom_keys ..
  · exact (congrArg Link.lanesUp hlink).trans (congrArg List.length (lanesSeen_eq n l o s))

theorem train_fails {node slot nonce pl : Nat} {inc : W32} {v : BitVec 4} {f : Frame} {o : TrainObs} (hl : s.live = true)
    (hst : (s.link n l).st = .training) (hp : f.payload = .train node inc pl v slot nonce) : Completes (.train n l f o) s (fun t =>
      (node = s.me → LinkLost n l .failed 0x02 s t) ∧
      (node ≠ s.me → (v ≠ linkVersion l .training ∨ o.versionOk = false) → LinkLost n l .failed 0x04 s t) ∧
      (node ≠ s.me → v = linkVersion l .training → o.versionOk = true →
        (s.fuses.fabric.getLsbD (s.link n l).keySlot = false ∨ s.trust.unlocked = true) → LinkLost n l .failed 0x03 s t)) := by
  refine ⟨_, exec_train hl hst hp, fun hme => ?_, fun hme hv => ?_, fun hme hv ho hk => ?_⟩
  · rw [if_pos hme, (trainFail_onlyChanges n l 0x02 s).kept_eq (by decide) (by decide)]
    exact trainFail_lost n l 0x02 s
  · rw [if_neg hme, if_pos (hv.imp_right (by simp [·])), (trainFail_onlyChanges n l 0x04 s).kept_eq (by decide) (by decide)]
    exact trainFail_lost n l 0x04 s
  · rw [if_neg hme, if_neg (by simp [hv, ho]), if_pos (hk.imp_left (by simp [·])),
      (trainFail_onlyChanges n l 0x03 s).kept_eq (by decide) (by decide)]
    exact trainFail_lost n l 0x03 s

end

end Sys2Proof.Machine

/-! # The obligation on the training of links -/

namespace Sys2Proof.Machine

/-- Settles O40, by what starts a training and by the two frames and the two times that end it. -/
theorem railLinkTraining : Obligations.RailLinkTraining := by
  unfold Obligations.RailLinkTraining
  exact ⟨fun s n l hl hst hfw hn => lightOn_trains hl hst hfw hn, fun s n l hl hst hfw hn => linkRetryTimer_trains hl hst hfw hn,
    fun s hl hst hn => peerLeavesN3_trains hl hst hn,
    fun s n l node slot nonce a inc f o hl hst hp hme ho hfab hdbg => train_derives hl hst hp hme ho hfab hdbg,
    fun s n l node slot nonce a inc v f o hl hst hp => train_fails hl hst hp,
    fun s n l f hl hst hk hf hc => keyConfirm_comesUp hl hst hk hf hc, fun s n l f tag hl hst hk hf hbad => keyConfirm_fails hl hst hk hf hbad,
    fun s n l hl hst => trainingTimeout_fails hl hst, fun s n l hl hup => linkTimeout_down hl hup⟩

end Sys2Proof.Machine

/-! # Lanes, retrains and the trickle link

SUPPORT. A lane that is lost or returns (R491, R493), a measurement (R527, R528), a link that goes on as a trickle link (R516), and a watch
word (R523). -/

namespace Sys2Proof.Machine

section
variable {s t : State} {n l k a b : Nat}

/-! ## A retrain's possession is asked for -/

/-- A request that waits behind the others. -/
def asked (p : Poss) (s : State) : State := { s with ft := { s.ft with queue := s.ft.queue ++ [p] } }

@[simp] theorem asked_link (p : Poss) (s : State) (a b : Nat) : (asked p s).link a b = s.link a b := rfl
@[simp] theorem asked_lane (p : Poss) (s : State) (a b : Nat) : (asked p s).lane a b = s.lane a b := rfl

theorem asked_onlyChanges (p : Poss) (s : State) : OnlyChanges [.ft] s (asked p s) := onlyChanges_set_ft s _

theorem laneLink_of_onlyChanges {ps : List Zone} (h : OnlyChanges ps s t) (hw : .work ∉ ps) (hi : .img ∉ ps) (n k : Nat) :
    laneLink n k t = laneLink n k s := by
  simp only [laneLink, lanternCfg, lanternImage, applying, h.work_eq hw, h.img_eq hi]

/-- The possession of a lane's own retrain (R493, R691). -/
def laneRetrainOf (n k : Nat) : Poss := { activity := 0x03, domains := oneDomain (12 + n), arg := 64 * n + k }

/-- A link notes whether a retrain it asked for was refused (R693). -/
def Link.noteRefused (refused : Bool) (k : Link) : Link := { k with retrainWaits := k.retrainWaits || refused }

theorem laneRetrain_asks (h : fullDomain (oneDomain (12 + n)) s = none) (k : Nat) :
    laneRetrain n k s = asked (laneRetrainOf n k) (s.modLink n (laneLink n k s) (Link.noteRefused false)) := by
  have hd : fullDomain (oneDomain (lanternDomain n)) s = none := h
  have hm : fullDomain (oneDomain (lanternDomain n)) (s.modLink n (laneLink n k s) (Link.noteRefused false)) = none := h
  unfold laneRetrain
  simp only [hd, Option.isSome_none]
  exact requestPoss_queues (.inr hm) _

/-! ## A lane is lost -/

/-- A lane out of lock. -/
def Lane.lost (x : Lane) : Lane := { x with st := .los }

/-- A link with a lane fewer. -/
def Link.lessLane (k : Link) : Link := { k with st := .degraded, lanesUp := k.lanesUp - 1, allLanes := false }

/-- The link of a lost lane goes on with its other lanes, and asks for the lane's retrain (R493). -/
theorem loseLane_goesOn (hr : laneRuns n k s = true) (hup : (s.link n (laneLink n k s)).up = true)
    (h2 : 2 ≤ (s.link n (laneLink n k s)).lanesUp) (hf : fullDomain (oneDomain (12 + n)) s = none) :
    loseLane n k s = asked (laneRetrainOf n k)
      (((s.modLane n k Lane.lost).modLink n (laneLink n k s) Link.lessLane).modLink n (laneLink n k s) (Link.noteRefused false)) := by
  have hframe : OnlyChanges [.rail] s ((s.modLane n k Lane.lost).modLink n (laneLink n k s) Link.lessLane) :=
    (modLane_onlyChanges s n k _).trans (modLink_onlyChanges _ _ _ _)
  have hlink := laneLink_of_onlyChanges hframe (by decide) (by decide) n k
  have hask := laneRetrain_asks (s := (s.modLane n k Lane.lost).modLink n (laneLink n k s) Link.lessLane) hf k
  rw [hlink] at hask
  rw [loseLane, if_neg (by simp [hup, hr]), if_neg (by omega)]
  exact hask

/-- With its last lane a link goes DOWN (R491). -/
theorem loseLane_last (hr : laneRuns n k s = true) (hup : (s.link n (laneLink n k s)).up = true)
    (h1 : (s.link n (laneLink n k s)).lanesUp ≤ 1) :
    loseLane n k s = linkDown n (laneLink n k s) .down 0x01 (s.modLane n k Lane.lost) := by
  rw [loseLane, if_neg (by simp [hup, hr]), if_pos h1]
  rfl

theorem laneLoss_goesOn (hl : s.live = true) (hk : k < 16) (hr : laneRuns n k s = true) (hup : (s.link n (laneLink n k s)).up = true)
    (h2 : 2 ≤ (s.link n (laneLink n k s)).lanesUp) (hf : fullDomain (oneDomain (12 + n)) s = none) : Completes (.laneLoss n k) s (fun t =>
      (t.lane n k).st = .los ∧ (∀ j, j ≠ k → t.lane n j = s.lane n j) ∧ (t.link n (laneLink n k s)).st = .degraded ∧
      (t.link n (laneLink n k s)).lanesUp = (s.link n (laneLink n k s)).lanesUp - 1 ∧
      t.ft.queue = s.ft.queue ++ [laneRetrainOf n k] ∧ OnlyChanges [.rail, .ft] s t) := by
  have hframe : OnlyChanges [.rail, .ft] s (loseLane n k s) := by
    rw [loseLane_goesOn hr hup h2 hf]
    exact ((((modLane_onlyChanges s n k _).trans (modLink_onlyChanges _ _ _ _)).trans (modLink_onlyChanges _ _ _ _)).mono (by simp)).trans
      ((asked_onlyChanges _ _).mono (by simp))
  refine completes_of_actIf_within (by rfl) hl (decide_eq_true hk) (by exact if_pos hr) hframe (by decide) (by decide) ?_
  refine ⟨?_, fun j hj => ?_, ?_, ?_, ?_, hframe⟩ <;> rw [loseLane_goesOn hr hup h2 hf]
  · rw [asked_lane, State.lane_modLink, State.lane_modLink, State.lane_modLane_same]
    rfl
  · rw [asked_lane, State.lane_modLink, State.lane_modLink, State.lane_modLane_other (fun h => hj h.2)]
  · rw [asked_link, State.link_modLink_same, State.link_modLink_same]
    rfl
  · rw [asked_link, State.link_modLink_same, State.link_modLink_same, State.link_modLane]
    rfl
  · rfl

theorem linkDown_lane (n l : Nat) (st : LinkSt) (c : Byte) (s : State) (a k : Nat) : (linkDown n l st c s).lane a k = s.lane a k := by
  have h : ((linkStop n l st c s).lantern a).lanes = (s.lantern a).lanes := congrArg Prod.fst (linkStop_optics n l st c s a)
  simp only [State.lane, State.lantern, linkDown, event_rail] at h ⊢
  rw [h]

/-- A loss in a state whose links stand as in another one is a loss in that one too. -/
theorem LinkLost.of_st_eq {st : LinkSt} {c : Byte} {u : State} (h : LinkLost n l st c u t) (hlink : ∀ a b, (u.link a b).st = (s.link a b).st)
    (hu : OnlyChanges [.rail] s u) : LinkLost n l st c s t := by
  obtain ⟨hst, hcause, hlanes, hunacked, hothers, v, hv, ht⟩ := h
  exact ⟨hst, hcause, hlanes, hunacked, fun m j hmj => by rw [hothers m j hmj, hlink], v, (hu.mono (by simp)).trans hv, ht⟩

theorem laneLoss_last (hl : s.live = true) (hk : k < 16) (hr : laneRuns n k s = true) (hup : (s.link n (laneLink n k s)).up = true)
    (h1 : (s.link n (laneLink n k s)).lanesUp ≤ 1) : Completes (.laneLoss n k) s (fun t =>
      (t.lane n k).st = .los ∧ LinkLost n (laneLink n k s) .down 0x01 s t) := by
  have hlane := modLane_onlyChanges s n k Lane.lost
  refine completes_of_actIf_within (by rfl) hl (decide_eq_true hk) (by exact (if_pos hr).trans (loseLane_last hr hup h1))
    ((hlane.mono (by simp)).trans (linkDown_onlyChanges _ _ _ _ _)) (by decide) (by decide) ⟨?_, ?_⟩
  · rw [linkDown_lane, State.lane_modLane_same]
    rfl
  · exact (linkDown_lost _ _ _ _ _).of_st_eq (fun _ _ => congrArg Link.st (State.link_modLane ..)) hlane

/-! ## A lane returns -/

/-- A lane that carries frames. -/
def Lane.running (l : Nat) (x : Lane) : Lane := { x with st := laneUpSt l }

/-- The lanes of a link that carry frames. -/
def runningLanes (n l : Nat) (s : State) : List Nat := (linkLanes n l s).filter (fun j => laneRuns n j s)

/-- A link with a number of lanes up. -/
def Link.withLanes (up all : Nat) (k : Link) : Link :=
  { k with lanesUp := up, allLanes := decide (up = all), st := if decide (up = all) then .up else .degraded }

/-- A lane joins its link, which counts its lanes again. -/
def laneJoined (n k l : Nat) (s : State) : State :=
  countRetrain n true ((s.modLane n k (Lane.running l)).modLink n l
    (Link.withLanes (runningLanes n l (s.modLane n k (Lane.running l))).length (linkLanes n l (s.modLane n k (Lane.running l))).length))

theorem laneJoined_onlyChanges (n k l : Nat) (s : State) : OnlyChanges [.rail] s (laneJoined n k l s) :=
  ((modLane_onlyChanges s n k _).trans (modLink_onlyChanges _ _ _ _)).trans (modLantern_onlyChanges _ _ _)

theorem laneJoined_lane (n k l : Nat) (s : State) (a j : Nat) :
    (laneJoined n k l s).lane a j = (s.modLane n k (Lane.running l)).lane a j := by
  rw [laneJoined, State.lane, countRetrain_lanes]
  exact State.lane_modLink ..

theorem laneJoined_retrains (n k l : Nat) (s : State) : ((laneJoined n k l s).lantern n).retrains = (s.lantern n).retrains + 1 := by
  rw [laneJoined, countRetrain, State.lantern_modLantern_same]
  refine congrArg (· + 1) (Eq.trans ?_ (?_ : ((s.modLane n k (Lane.running l)).lantern n).retrains = _)) <;>
    exact State.lantern_modLantern_keeps Lantern.retrains (fun _ => rfl)

theorem laneJoined_st (n k l : Nat) (s : State) : ((laneJoined n k l s).link n l).st =
    if ∀ j ∈ linkLanes n l s, laneRuns n j (s.modLane n k (Lane.running l)) = true then .up else .degraded := by
  have hlanes : linkLanes n l (s.modLane n k (Lane.running l)) = linkLanes n l s :=
    linkLanes_of_onlyChanges (modLane_onlyChanges s n k _) (by decide) (by decide) n l
  rw [laneJoined, countRetrain_link, State.link_modLink_same]
  simp only [Link.withLanes, runningLanes, hlanes, List.length_filter_eq_length_iff, decide_eq_true_eq]

/-- Whether every lane of the link runs once one has joined: the others decide. -/
theorem laneRuns_joined : (∀ j ∈ linkLanes n l s, laneRuns n j (s.modLane n k (Lane.running l)) = true) ↔
    ∀ j ∈ linkLanes n l s, j ≠ k → laneRuns n j s = true := by
  refine forall₂_congr fun j _ => ?_
  by_cases hj : j = k
  · subst hj
    have : laneRuns n j (s.modLane n j (Lane.running l)) = true := by
      simp only [laneRuns, State.lane_modLane_same, Lane.running, laneUpSt]
      split <;> rfl
    simp [this]
  · have : laneRuns n j (s.modLane n k (Lane.running l)) = laneRuns n j s := by
      simp only [laneRuns, State.lane_modLane_other (fun h => hj h.2)]
    simp [this, hj]

theorem exec_laneUp (hl : s.live = true) (hk : k < 16) (hr : laneRuns n k s = false) (hup : (s.link n (laneLink n k s)).up = true) :
    exec (.laneUp n k) s = .next (s.kept (releasePoss 0x03 (64 * n + k) (laneJoined n k (laneLink n k s) s))) := by
  have hexec : exec (.laneUp n k) s = execLaneUp n k s := rfl
  have hg : (s.live && (decide (k < 16) && (s.link n (laneLink n k s)).up && !laneRuns n k s)) = true := by simp [hl, hk, hr, hup]
  rw [hexec, execLaneUp, actIf, if_pos hg]
  rfl

@[simp] theorem releasePoss_link (act : Byte) (arg : Nat) (s : State) (a b : Nat) : (releasePoss act arg s).link a b = s.link a b := rfl
@[simp] theorem releasePoss_lane (act : Byte) (arg : Nat) (s : State) (a b : Nat) : (releasePoss act arg s).lane a b = s.lane a b := rfl
@[simp] theorem releasePoss_lantern (act : Byte) (arg : Nat) (s : State) (a : Nat) : (releasePoss act arg s).lantern a = s.lantern a := rfl

theorem laneUp_joins (hl : s.live = true) (hk : k < 16) (hr : laneRuns n k s = false) (hup : (s.link n (laneLink n k s)).up = true) :
    Completes (.laneUp n k) s (fun t =>
      (t.lane n k).st = laneUpSt (laneLink n k s) ∧ (∀ j, j ≠ k → t.lane n j = s.lane n j) ∧
      (t.lantern n).retrains = (s.lantern n).retrains + 1 ∧
      ((∀ j ∈ linkLanes n (laneLink n k s) s, j ≠ k → laneRuns n j s = true) → (t.link n (laneLink n k s)).st = .up) ∧
      ((∃ j ∈ linkLanes n (laneLink n k s) s, j ≠ k ∧ laneRuns n j s = false) → (t.link n (laneLink n k s)).st = .degraded) ∧
      holds 0x03 (64 * n + k) t = false ∧ OnlyChanges [.rail, .ft] s t) := by
  have hexec := exec_laneUp hl hk hr hup
  generalize laneLink n k s = l at hexec ⊢
  have hframe : OnlyChanges [.rail, .ft] s (releasePoss 0x03 (64 * n + k) (laneJoined n k l s)) :=
    ((laneJoined_onlyChanges n k _ s).mono (by simp)).trans ((onlyChanges_set_ft _ _).mono (by simp))
  rw [hframe.kept_eq (by decide) (by decide)] at hexec
  refine ⟨_, hexec, ?_⟩
  simp only [releasePoss_link, releasePoss_lane, releasePoss_lantern, laneJoined_lane, laneJoined_st, laneJoined_retrains, laneRuns_joined]
  refine ⟨?_, fun j hj => ?_, trivial, fun hall => if_pos hall, ?_, holds_releasePoss .., hframe⟩
  · rw [State.lane_modLane_same]
    rfl
  · rw [State.lane_modLane_other (fun h => hj h.2)]
  · rintro ⟨j, hj, hjk, hstop⟩
    exact if_neg (fun hall => by simp [hall j hj hjk] at hstop)

/-! ## Retrains -/

theorem lnRetrain_one (k : Nat) (hk : k < 2) (hw : writes 0 s = true) (hup : (s.link n k).up = true) :
    exec (.lnRetrain n (BitVec.ofNat 2 (2 ^ k))) s =
      .next (s.kept (requestPoss 0x03 (oneDomain (12 + n)) (64 * n + 32 + k) s)) := by
  have hexec (m : BitVec 2) : exec (.lnRetrain n m) s = actIf s (writes 0 s) (fun s => (List.range 2).foldl (fun s k =>
      if m.getLsbD k ∧ (s.link n k).up then requestPoss 0x03 (oneDomain (12 + n)) (64 * n + 32 + k) s else s) s) := rfl
  rw [hexec, actIf_of_live (live_of_ready (ready_of_writes hw)) hw]
  have hcases : k = 0 ∨ k = 1 := by omega
  rcases hcases with rfl | rfl <;> simp [List.range_succ, hup]

theorem lnRetrain_asks (hk : k < 2) (hw : writes 0 s = true) (hup : (s.link n k).up = true) :
    Completes (.lnRetrain n (BitVec.ofNat 2 (2 ^ k))) s (fun t =>
      (fullDomain (oneDomain (12 + n)) s = none → OnlyChanges [.ft] s t ∧ t.ft.queue = s.ft.queue ++ [retrainOf n k]) ∧
      (fullDomain (oneDomain (12 + n)) s ≠ none → t.ft.queue = s.ft.queue ∧ t.ft.possRefused = satBv s.ft.possRefused 1 ∧
        OnlyChanges [.host, .ft, .out] s t)) := by
  refine ⟨_, lnRetrain_one k hk hw hup, fun hf => ?_, fun hf => ?_⟩
  · rw [requestPoss_queues (.inr hf)]
    exact ⟨(onlyChanges_set_ft s _).kept, rfl⟩
  · obtain ⟨d, hd⟩ := Option.ne_none_iff_exists'.1 hf
    obtain ⟨hft, hframe⟩ := requestPoss_refused (a := 0x03) rfl hd (64 * n + 32 + k)
    rw [State.kept_ft, hft]
    exact ⟨rfl, rfl, (hframe.mono (by simp)).kept⟩

theorem retrainRetryTimer_asks (hl : s.live = true) (hw : (s.link n l).retrainWaits = true)
    (hf : fullDomain (oneDomain (12 + n)) s = none) (hlos : (linkLanes n l s).filter (fun j => (s.lane n j).st == .los) = [k]) :
    Completes (.retrainRetryTimer n l) s (fun t =>
      (t.link n l).retrainWaits = false ∧ t.ft.queue = s.ft.queue ++ [laneRetrainOf n k] ∧ OnlyChanges [.rail, .ft] s t) := by
  have hmem : k ∈ linkLanes n l s := (List.mem_filter.1 (hlos ▸ List.mem_singleton_self k)).1
  have hlink : laneLink n k s = l := by simpa [linkLanes] using (List.mem_filter.1 hmem).2
  have hmod := modLink_onlyChanges s n l (fun k => { k with retrainWaits := false })
  have hlink' : laneLink n k (s.modLink n l (fun k => { k with retrainWaits := false })) = l :=
    (laneLink_of_onlyChanges hmod (by decide) (by decide) n k).trans hlink
  have hlanes := linkLanes_of_onlyChanges hmod (by decide) (by decide) n l
  have hask := laneRetrain_asks (s := s.modLink n l (fun k => { k with retrainWaits := false })) hf k
  rw [hlink'] at hask
  have hframe := (hmod.trans (modLink_onlyChanges _ n l (Link.noteRefused false))).mono (qs := [.rail, .ft]) (by simp)
  refine completes_of_actIf_within (by rfl) hl hw ?_ (hframe.trans ((asked_onlyChanges (laneRetrainOf n k) _).mono (by simp))) (by decide)
    (by decide) ?_
  · simp only [hlanes, State.lane_modLink, hlos, List.foldl_cons, List.foldl_nil]
    exact hask
  · refine ⟨?_, rfl, hframe.trans ((asked_onlyChanges (laneRetrainOf n k) _).mono (by simp))⟩
    rw [asked_link, State.link_modLink_same, State.link_modLink_same]
    rfl

end

end Sys2Proof.Machine

/-! # Measurements, the trickle link, the watch set and the node ID -/

namespace Sys2Proof.Machine

section
variable {s t : State} {n l k a b : Nat}

/-! ## A measurement -/

@[simp] theorem lane_event (f c r : Nat) (s : State) (st : Byte) (q : W32) (x : Nat) (fr : BitVec 16) (a b : Nat) :
    (event f c r s st q x fr).lane a b = s.lane a b := by
  simp only [State.lane, State.lantern, event_rail]

/-- The warning threshold of a lane, its mode's offset added (R528, R758). -/
def warnAt (n k : Nat) (s : State) : Int := (s.lantern n).warn.toInt + modeOffset (s.lane n k).st (laneLink n k s)

/-- A lane with a measurement recorded. -/
def Lane.sampled (o : LaneObs) (warn : Int) (x : Lane) : Lane :=
  { x with
    rx := o.rx, tx := o.tx, symCorr := x.symCorr + o.symCorr,
    warned := if o.rx < warn then true else if o.rx ≥ warn + 50 then false else x.warned }

/-- A lane that keeps its light and lock is measured, and warns once (R527, R528). -/
theorem sampleLane_lit {o : LaneObs} (hlock : o.locked = true)
    (hlos : (s.lantern n).los.toInt + modeOffset (s.lane n o.lane).st (laneLink n o.lane s) ≤ o.rx) :
    sampleLane n o s = if (decide (o.rx < warnAt n o.lane s) && !(s.lane n o.lane).warned) = true then
      event 0 0x0602 (linkResult n o.lane) (s.modLane n o.lane (Lane.sampled o (warnAt n o.lane s)))
      else s.modLane n o.lane (Lane.sampled o (warnAt n o.lane s)) := by
  have hnot : (decide (o.rx < (s.lantern n).los.toInt + modeOffset (s.lane n o.lane).st (laneLink n o.lane s)) || !o.locked) = false := by
    simp [hlock, hlos]
  simp only [sampleLane, hnot, Bool.false_and, Bool.false_eq_true, if_false]
  rfl

theorem opticalSample_records {o : LaneObs} (hl : s.live = true) (hk : o.lane < 16) (hlock : o.locked = true)
    (hlos : (s.lantern n).los.toInt + modeOffset (s.lane n o.lane).st (laneLink n o.lane s) ≤ o.rx) :
    Completes (.opticalSample n [o]) s (fun t =>
      (t.lane n o.lane).rx = o.rx ∧ (t.lane n o.lane).tx = o.tx ∧ (t.lane n o.lane).st = (s.lane n o.lane).st ∧
      (t.lane n o.lane).symCorr = (s.lane n o.lane).symCorr + o.symCorr ∧ (∀ j, j ≠ o.lane → t.lane n j = s.lane n j) ∧
      (o.rx < warnAt n o.lane s → (s.lane n o.lane).warned = false →
        ∃ u, OnlyChanges [.rail] s u ∧ t = s.kept (event 0 0x0602 (n + 256 * o.lane) u)) ∧
      (warnAt n o.lane s ≤ o.rx ∨ (s.lane n o.lane).warned = true → OnlyChanges [.rail] s t)) := by
  have hmod := modLane_onlyChanges s n o.lane (Lane.sampled o (warnAt n o.lane s))
  have hlane : ∀ j, (sampleLane n o s).lane n j = (s.modLane n o.lane (Lane.sampled o (warnAt n o.lane s))).lane n j := fun j => by
    rw [sampleLane_lit hlock hlos]
    split
    · exact lane_event ..
    · rfl
  have hmine := (hlane o.lane).trans (State.lane_modLane_same ..)
  refine completes_of_act (f := fun s => ([o].filter (fun o => decide (o.lane < 16))).foldl (fun s o => sampleLane n o s) s) (by rfl) hl ?_
  simp only [List.filter_cons_of_pos (p := fun o : LaneObs => decide (o.lane < 16)) (decide_eq_true hk), List.filter_nil, List.foldl_cons,
    List.foldl_nil]
  refine ⟨congrArg Lane.rx hmine, congrArg Lane.tx hmine, (congrArg Lane.st hmine).trans rfl, congrArg Lane.symCorr hmine,
    fun j hj => (hlane j).trans (State.lane_modLane_other (fun h => hj h.2)), fun hlow hw => ⟨_, hmod, ?_⟩, fun hhigh => ?_⟩
  · rw [sampleLane_lit hlock hlos, if_pos (by simp [hlow, hw])]
    rfl
  · rw [sampleLane_lit hlock hlos, if_neg]
    · exact hmod.kept
    · rcases hhigh with h | h <;> simp [h]

/-! ## The trickle link -/

/-- The state in which the link to a peer that enters N3 goes on as a trickle link, its other frames not yet forwarded (R516). -/
def trickling (drop : Nat) (s : State) : State :=
  ((setLanes 0 0 (fun i => if i = 0 then .trickle else .down) s).modLink 0 0 (fun k => k.toTrickle s.me 0)).modLantern 0
    (fun x => { x with dropped := x.dropped + drop })

theorem trickling_onlyChanges (drop : Nat) (s : State) : OnlyChanges [.rail] s (trickling drop s) :=
  ((setLanes_onlyChanges 0 0 _ s).trans (modLink_onlyChanges _ 0 0 _)).trans (modLantern_onlyChanges _ 0 _)

theorem trickling_link (drop : Nat) (s : State) : (trickling drop s).link 0 0 = (s.link 0 0).toTrickle s.me 0 := by
  have h : (trickling drop s).link 0 0 = _ := State.link_modLantern (fun _ => rfl)
  rw [h, State.link_modLink_same, setLanes_link]

theorem trickling_lane (drop : Nat) {k : Nat} (h : k ∈ linkLanes 0 0 s) :
    ((trickling drop s).lane 0 k).st = if k = 0 then .trickle else .down := by
  have hlanes : ((trickling drop s).lantern 0).lanes = _ := State.lantern_modLantern_keeps Lantern.lanes (fun _ => rfl)
  rw [State.lane, hlanes, ← State.lane, State.lane_modLink, setLanes_lane h]

theorem peerEntersN3_trickles (hl : s.live = true) (hup : (s.link 0 0).up = true) : Completes .peerEntersN3 s (fun t =>
    (t.link 0 0).st = .trickle ∧ (t.link 0 0).lanesUp = 1 ∧ (t.link 0 0).key0 = ((s.link 0 0).keyedAs s.me 0 7).key0 ∧
    (t.link 0 0).key1 = ((s.link 0 0).keyedAs s.me 0 7).key1 ∧ (0 ∈ linkLanes 0 0 s → (t.lane 0 0).st = .trickle) ∧
    (∀ k ∈ linkLanes 0 0 s, k ≠ 0 → (t.lane 0 k).st = .down) ∧ (∀ x ∈ (t.link 0 0).unacked, frameSpecial x.q.frame = true ∧ x.q.frame.version = 7) ∧
    OnlyChanges [.rail, .rc, .ft] s t) := by
  obtain ⟨qs, drop, hexec⟩ : ∃ qs drop, exec .peerEntersN3 s = .next (s.kept (returnFrames qs (trickling drop s))) :=
    ⟨_, _, congrArg Host.Outcome.next (if_pos (by simp [hl, hup]))⟩
  obtain ⟨hframe, hsame⟩ := returnFrames_spec qs (trickling drop s)
  have hall := ((trickling_onlyChanges drop s).mono (by simp)).trans hframe
  rw [hall.kept_eq (by decide) (by decide)] at hexec
  have hkeep {α : Type} (p : Link → α) (hp : ∀ k : Link, p k.bare = p k) :
      p ((returnFrames qs (trickling drop s)).link 0 0) = p ((s.link 0 0).toTrickle s.me 0) := by
    rw [hsame.link_eq p hp, trickling_link]
  refine ⟨_, hexec, hkeep Link.st (fun _ => rfl), hkeep Link.lanesUp (fun _ => rfl), hkeep Link.key0 (fun _ => rfl),
    hkeep Link.key1 (fun _ => rfl), fun h => ?_, fun k hk h0 => ?_, ?_, hall⟩
  · rw [hsame.lane_eq]
    exact trickling_lane drop h
  · rw [hsame.lane_eq, trickling_lane drop hk, if_neg h0]
  · rw [hkeep Link.unacked (fun _ => rfl)]
    intro x hx
    obtain ⟨y, hy, rfl⟩ := List.mem_map.1 hx
    exact ⟨(List.mem_filter.1 hy).2, rfl⟩

/-! ## The watch set -/

/-- A node that is no longer known to be alive (R523). -/
def Peer.unknown (p : Peer) : Peer := { p with st := .unwatched, misses := 0, beat := false }

theorem Peer.unknown_unknown (p : Peer) : p.unknown.unknown = p.unknown := rfl

/-- Nodes whose bit changes become UNWATCHED, one after the other. -/
theorem unwatch_foldl (bs : List Nat) (c : Nat → Bool) (g : Nat → Nat) (s : State) :
    (∀ m, (bs.foldl (fun s b => if c b then s.modPeer (g b) Peer.unknown else s) s).peer m =
      if ∃ b ∈ bs, c b = true ∧ g b = m then (s.peer m).unknown else s.peer m) ∧
    (bs.foldl (fun s b => if c b then s.modPeer (g b) Peer.unknown else s) s).rail.watch = s.rail.watch ∧
    OnlyChanges [.rail] s (bs.foldl (fun s b => if c b then s.modPeer (g b) Peer.unknown else s) s) := by
  induction bs generalizing s with
  | nil => exact ⟨fun m => by simp, rfl, .refl _ s⟩
  | cons b bs ih =>
    rw [List.foldl_cons]
    cases hb : c b with
    | false =>
      obtain ⟨hpeer, hwatch, hframe⟩ := ih s
      simp only [Bool.false_eq_true, if_false]
      exact ⟨fun m => by simp [hpeer, hb], hwatch, hframe⟩
    | true =>
      obtain ⟨hpeer, hwatch, hframe⟩ := ih (s.modPeer (g b) Peer.unknown)
      simp only [if_true]
      refine ⟨fun m => ?_, hwatch, (modPeer_onlyChanges s _ _).trans hframe⟩
      by_cases hm : m = g b
      · subst hm
        rw [hpeer, State.peer_modPeer_same, Peer.unknown_unknown, ite_self, if_pos ⟨b, by simp, hb, rfl⟩]
      · rw [hpeer, State.peer_modPeer_other hm]
        have hne : ¬ g b = m := fun h => hm h.symm
        simp [hne]

theorem lnWatchWrite_unwatches {w : Nat} {v : W32} (hw : writes 0 s = true) (h4 : w < 4) : Completes (.lnWatchWrite w v) s (fun t =>
    tget t.rail.watch w 0 = v ∧ (∀ k, k ≠ w → tget t.rail.watch k 0 = tget s.rail.watch k 0) ∧
    (∀ b < 32, (tget s.rail.watch w 0).getLsbD b ≠ v.getLsbD b → t.peer (32 * w + b) = (s.peer (32 * w + b)).unknown) ∧
    (∀ m, (∀ b < 32, m = 32 * w + b → (tget s.rail.watch w 0).getLsbD b = v.getLsbD b) → t.peer m = s.peer m) ∧ OnlyChanges [.rail] s t) := by
  obtain ⟨hpeer, hwatch, hframe⟩ := unwatch_foldl (List.range 32) (fun b => (tget s.rail.watch w 0).getLsbD b != v.getLsbD b)
    (fun b => 32 * w + b) { s with rail := { s.rail with watch := tput s.rail.watch w v 0 } }
  refine completes_of_actIf_eq (by rfl) (live_of_ready (ready_of_writes hw)) (by simp [hw, h4]) (by rfl) ?_
  refine ⟨?_, fun k hk => ?_, fun b hb hne => ?_, fun m hm => ?_, ((onlyChanges_set_rail s _).trans hframe).kept⟩
  · rw [State.kept_rail]
    exact (congrArg (tget · w 0) hwatch).trans (tget_tput_same ..)
  · rw [State.kept_rail]
    exact (congrArg (tget · k 0) hwatch).trans (tget_tput_other _ _ _ _ _ hk)
  · rw [State.kept_peer]
    exact (hpeer _).trans (if_pos ⟨b, List.mem_range.2 hb, bne_iff_ne.2 hne, rfl⟩)
  · rw [State.kept_peer]
    refine (hpeer m).trans (if_neg ?_)
    rintro ⟨b, hb, hne, hbm⟩
    exact bne_iff_ne.1 hne (hm b (List.mem_range.1 hb) hbm.symm)

/-! ## The node ID -/

theorem lnNodeIdWrite_sets {v : W32} (hl : s.live = true) (hd : linksDown s = true) : Completes (.lnNodeIdWrite v) s (fun t =>
    t.me = v.toNat % 128 ∧ t.rail.nodeSet = true ∧ t.rail.lanterns = s.rail.lanterns ∧ OnlyChanges [.flash, .boot, .rail] s t) := by
  refine completes_of_actIf (by rfl) hl hd ?_
  refine ⟨BitVec.toNat_ofNat .., rfl, rfl, OnlyChanges.kept ?_⟩
  intro p hp
  cases p <;> simp [sameZone] at hp ⊢

theorem lnNodeIdWrite_ignored {v : W32} (hd : linksDown s = false) : Completes (.lnNodeIdWrite v) s (OnlyChanges [] s) :=
  ⟨s, congrArg Host.Outcome.next (if_neg (by simp [hd])), .refl [] s⟩

end

end Sys2Proof.Machine

/-! # The obligation on lanes and the node's identity -/

namespace Sys2Proof.Machine

/-- Settles O41, by what each command does to its lane, link, node or possession. -/
theorem railLanesAndIdentity : Obligations.RailLanesAndIdentity := by
  unfold Obligations.RailLanesAndIdentity
  exact ⟨fun s n k hl hk hr hup h2 hf => laneLoss_goesOn hl hk hr hup h2 hf, fun s n k hl hk hr hup h1 => laneLoss_last hl hk hr hup h1,
    fun s n k hl hk hr hup => laneUp_joins hl hk hr hup, fun s n k hw hk hup => lnRetrain_asks hk hw hup,
    fun s n l k hl hw hf hlos => retrainRetryTimer_asks hl hw hf hlos,
    fun s n o hl hk hlock hlos => opticalSample_records hl hk hlock hlos, fun s hl hup => peerEntersN3_trickles hl hup,
    fun s w v hw h4 => lnWatchWrite_unwatches hw h4, fun s v hl hd => lnNodeIdWrite_sets hl hd, fun s v hd => lnNodeIdWrite_ignored hd⟩

end Sys2Proof.Machine

/-! # Frames that a link takes, refuses, sends again and sends

SUPPORT. The two ends of the checks of R498, resending (R499), and what a frame boundary and a silent link send (R494, R497, R501,
R511 to R513). -/

namespace Sys2Proof.Machine

section
variable {s t : State} {n l a b c : Nat} {f : Frame} {o : FrameObs}

/-! ## Frames that pass the checks -/

theorem tookIn_counts (n l : Nat) (f : Frame) (s : State) :
    ((tookIn n l false f s).lantern n).rxFrames = (s.lantern n).rxFrames + 1 := by
  rw [tookIn, State.lantern_modLantern_same]
  refine congrArg (· + 1) (Eq.trans ?_ (?_ : ((heard n l s).lantern n).rxFrames = _)) <;>
    exact State.lantern_modLantern_keeps Lantern.rxFrames (fun _ => rfl)

/-- A LINK_HB or ACK that passes the checks moves the control stream on, and frees what it covers. -/
theorem control_taken {typ : BitVec 4} (h : Arrives n l typ f s) (ht : typ.toNat ≤ 9) :
    (rxFrame n l false f (genuine n l f s) s).2 = tookIn n l false f s := by
  rw [rxFrame_of_taken h ht (by simp)]

theorem tookIn_control (n l : Nat) (f : Frame) (s : State) :
    (tookIn n l false f s).link n l = { ackUpTo f.ackSeq (s.link n l) with
      heard := true, rxCtl := f.fseq + 1,
      rxCtlGen := genAfter (genOf (s.link n l).rxCtlGen (s.link n l).rxCtl f.fseq) f.fseq } ∧
    ((tookIn n l false f s).lantern n).rxFrames = (s.lantern n).rxFrames + 1 ∧
    (∀ m k, ¬ (m = n ∧ k = l) → (tookIn n l false f s).link m k = s.link m k) ∧ OnlyChanges [.rail] s (tookIn n l false f s) := by
  refine ⟨link_tookIn_same, tookIn_counts n l f s, fun m k hmk => ?_, tookIn_onlyChanges⟩
  rw [link_tookIn_eq, State.link_modLink_other hmk, heard, State.link_modLink_other hmk]

/-! ## Frames that fail them -/

/-- The counters of a Lantern's receiver (R498). -/
def Lantern.rxCounts (x : Lantern) : Nat × Nat × Nat × Nat × Nat × Nat :=
  (x.rxFrames, x.fecUncorr, x.stomped, x.crcFail, x.dropped, x.authFail)

theorem rxCounts_modLink (s : State) (n l : Nat) (g : Link → Link) (a : Nat) :
    ((s.modLink n l g).lantern a).rxCounts = (s.lantern a).rxCounts := State.lantern_modLantern_keeps Lantern.rxCounts (fun _ => rfl)

/-- A frame that fails a check counts as the function says, and draws the control frames of the list. -/
def Refuses (n l : Nat) (g : Lantern → Lantern) (naks : List Frame) (s t : State) : Prop :=
  (t.lantern n).rxCounts = (g (s.lantern n)).rxCounts ∧ (t.link n l).unacked = (s.link n l).unacked ∧
  (t.link n l).ctlq = (s.link n l).ctlq ++ naks ∧ OnlyChanges [.rail] s t

section
variable {g : Lantern → Lantern} (hlinks : ∀ x, (g x).links = x.links)
  (hcounts : ∀ (x : Lantern) (y : Tab Link), (g { x with links := y }).rxCounts = (g x).rxCounts)
include hlinks hcounts

/-- A stomped frame draws no NAK. -/
theorem counted_refuses : Refuses n l g [] s ((heard n l s).modLantern n g) := by
  refine ⟨?_, ?_, ?_, (modLink_onlyChanges s n l _).trans (modLantern_onlyChanges _ n g)⟩
  · rw [State.lantern_modLantern_same, heard, State.modLink, State.lantern_modLantern_same]
    exact hcounts _ _
  · rw [State.link_modLantern hlinks]
    exact link_heard Link.unacked (fun _ => rfl)
  · rw [State.link_modLantern hlinks, List.append_nil]
    exact link_heard Link.ctlq (fun _ => rfl)

/-- Any other frame that fails draws one. -/
theorem nakDue_refuses : Refuses n l g [ownFrame s 3 (s.link n l).peer .none] s (nakDue n l ((heard n l s).modLantern n g)) := by
  obtain ⟨hc, hu, hq, hframe⟩ := counted_refuses (s := s) (n := n) (l := l) hlinks hcounts
  have hpeer : (((heard n l s).modLantern n g).link n l).peer = (s.link n l).peer := by
    rw [State.link_modLantern hlinks]
    exact link_heard Link.peer (fun _ => rfl)
  refine ⟨?_, ?_, ?_, hframe.trans (nakDue_onlyChanges n l _)⟩
  · rw [nakDue, enqueueCtl, rxCounts_modLink, hc]
  · rw [nakDue, enqueueCtl, State.link_modLink_same]
    exact hu
  · rw [nakDue, enqueueCtl, State.link_modLink_same, hpeer]
    exact congrArg (· ++ [ownFrame s 3 (s.link n l).peer .none]) (hq.trans (List.append_nil _))

end

theorem Refuses.of_eq {g g' : Lantern → Lantern} {naks naks' : List Frame} (h : Refuses n l g naks s t)
    (hg : (g (s.lantern n)).rxCounts = (g' (s.lantern n)).rxCounts) (hn : naks = naks') : Refuses n l g' naks' s t := by
  obtain ⟨hc, hu, hq, hframe⟩ := h
  exact ⟨hc.trans hg, hu, hn ▸ hq, hframe⟩

/-- What the Lantern counts of a refused frame: the first check that fails decides (R498). -/
def refusal (o : FrameObs) (goodVersion : Bool) (x : Lantern) : Lantern :=
  { x with
    fecUncorr := x.fecUncorr + o.fecBad
    stomped := x.stomped + (if o.fecBad = 0 ∧ o.crc = .inverted then 1 else 0)
    crcFail := x.crcFail + (if o.fecBad = 0 ∧ o.crc = .bad then 1 else 0)
    dropped := x.dropped + (if o.fecBad = 0 ∧ o.crc = .good ∧ goodVersion = false then 1 else 0)
    authFail := x.authFail + (if o.fecBad = 0 ∧ o.crc = .good ∧ goodVersion = true then 1 else 0) }

/-- A control frame that fails a check is not taken (R498). -/
theorem rxFrame_refused (hi : s.ft.inject.arm = false) (ht : f.typ.toNat ≤ 9)
    (hbad : o.fecBad ≠ 0 ∨ o.crc ≠ .good ∨ o.tag ≠ rxTag s.me (s.link n l) f ∨ f.version ≠ linkVersion l (s.link n l).st) :
    Refuses n l (refusal o (decide (f.version = linkVersion l (s.link n l).st)))
      (if o.fecBad = 0 ∧ o.crc = .inverted then [] else [ownFrame s 3 (s.link n l).peer .none]) s (rxFrame n l false f o s).2 := by
  have hst : ((heard n l s).link n l).st = (s.link n l).st := link_heard Link.st (fun _ => rfl)
  have htag : rxTag (heard n l s).me ((heard n l s).link n l) f = rxTag s.me (s.link n l) f :=
    link_heard (rxTag s.me · f) (fun _ => rfl)
  have hcheck := rxCheck_of_unarmed (n := n) (l := l) (sequenced := false) (f := f) (o := o) hi
  simp only [hst, htag, Bool.false_and, Bool.false_eq_true, if_false, Nat.not_lt.2 ht, false_or, gt_iff_lt] at hcheck
  have hrefused {u : State} (h : rxCheck n l false f o s = (false, u)) : (rxFrame n l false f o s).2 = u := by
    simp [rxFrame, h]
  by_cases hfec : o.fecBad = 0
  · rw [if_neg (by omega)] at hcheck
    cases hcrc : o.crc with
    | inverted =>
      rw [if_pos hcrc] at hcheck
      rw [hrefused hcheck]
      refine Refuses.of_eq (counted_refuses (fun _ => rfl) (fun _ _ => rfl)) ?_ ?_
      · simp [refusal, Lantern.rxCounts, hfec, hcrc]
      · simp [hfec]
    | bad =>
      rw [if_neg (by simp [hcrc]), if_pos hcrc] at hcheck
      rw [hrefused hcheck]
      refine Refuses.of_eq (nakDue_refuses (fun _ => rfl) (fun _ _ => rfl)) ?_ ?_
      · simp [refusal, Lantern.rxCounts, hfec, hcrc]
      · simp
    | good =>
      rw [if_neg (by simp [hcrc]), if_neg (by simp [hcrc])] at hcheck
      by_cases hv : f.version = linkVersion l (s.link n l).st
      · have htagBad : o.tag ≠ rxTag s.me (s.link n l) f := by simpa [hfec, hcrc, hv] using hbad
        rw [if_neg (not_not.2 hv), if_pos htagBad] at hcheck
        rw [hrefused hcheck]
        refine Refuses.of_eq (nakDue_refuses (fun _ => rfl) (fun _ _ => rfl)) ?_ ?_
        · simp [refusal, Lantern.rxCounts, hfec, hcrc, hv]
        · simp
      · rw [if_pos hv] at hcheck
        rw [hrefused hcheck]
        refine Refuses.of_eq (nakDue_refuses (fun _ => rfl) (fun _ _ => rfl)) ?_ ?_
        · simp [refusal, Lantern.rxCounts, hfec, hcrc, hv]
        · simp
  · rw [if_pos (Nat.pos_of_ne_zero hfec)] at hcheck
    rw [hrefused hcheck]
    refine Refuses.of_eq (nakDue_refuses (fun _ => rfl) (fun _ _ => rfl)) ?_ ?_
    · simp [refusal, Lantern.rxCounts, hfec]
    · simp [hfec]

theorem linkHb_refused (hl : s.live = true) (hn : listens n l s = true) (ht : f.typ = 4) (hi : s.ft.inject.arm = false)
    (hbad : o.fecBad ≠ 0 ∨ o.crc ≠ .good ∨ o.tag ≠ rxTag s.me (s.link n l) f ∨ f.version ≠ linkVersion l (s.link n l).st) :
    Completes (.linkHb n l f o) s (fun t =>
      (t.lantern n).rxFrames = (s.lantern n).rxFrames ∧ (t.link n l).unacked = (s.link n l).unacked ∧
      (t.lantern n).fecUncorr = (s.lantern n).fecUncorr + o.fecBad ∧
      (t.lantern n).stomped = (s.lantern n).stomped + (if o.fecBad = 0 ∧ o.crc = .inverted then 1 else 0) ∧
      (t.lantern n).crcFail = (s.lantern n).crcFail + (if o.fecBad = 0 ∧ o.crc = .bad then 1 else 0) ∧
      (t.lantern n).dropped = (s.lantern n).dropped + (if o.fecBad = 0 ∧ o.crc = .good ∧ f.version ≠ linkVersion l (s.link n l).st then 1 else 0) ∧
      (t.lantern n).authFail = (s.lantern n).authFail + (if o.fecBad = 0 ∧ o.crc = .good ∧ f.version = linkVersion l (s.link n l).st then 1 else 0) ∧
      (t.link n l).ctlq = (s.link n l).ctlq ++ (if o.fecBad = 0 ∧ o.crc = .inverted then [] else [ownFrame s 3 (s.link n l).peer .none]) ∧
      OnlyChanges [.rail] s t) := by
  obtain ⟨hcounts, hunacked, hctlq, hframe⟩ := rxFrame_refused hi (by simp [ht]) hbad
  simp only [Lantern.rxCounts, refusal, decide_eq_false_iff_not, decide_eq_true_eq, Prod.mk.injEq] at hcounts
  obtain ⟨hrx, hfec, hstomp, hcrc, hdrop, hauth⟩ := hcounts
  exact completes_of_actIf_within (by rfl) hl (by simp [hn, typeIs, ht]) (by rfl) hframe (by decide) (by decide)
    ⟨hrx, hunacked, hfec, hstomp, hcrc, hdrop, hauth, hctlq, hframe⟩

/-! ## Resending -/

/-- Frames that leave one after the other. -/
theorem frameOut_foldl (xs : List TxFrame) (s : State) :
    (xs.foldl (fun s x => frameOut n l x.q.frame s) s).out =
      s.out ++ xs.map (fun x => .frame n l x.q.frame (wireOf s.me (s.link n l) x.q.frame false) false) ∧
    ((xs.foldl (fun s x => frameOut n l x.q.frame s) s).lantern n).replays = (s.lantern n).replays ∧
    (∀ a b, (xs.foldl (fun s x => frameOut n l x.q.frame s) s).link a b = s.link a b) ∧
    OnlyChanges [.rail, .out] s (xs.foldl (fun s x => frameOut n l x.q.frame s) s) := by
  induction xs generalizing s with
  | nil => exact ⟨by simp, rfl, fun _ _ => rfl, .refl _ s⟩
  | cons x xs ih =>
    obtain ⟨hout, hrep, hlink, hframe⟩ := ih (frameOut n l x.q.frame s)
    have hme : (frameOut n l x.q.frame s).me = s.me := rfl
    have hone : (frameOut n l x.q.frame s).out = s.out ++ [.frame n l x.q.frame (wireOf s.me (s.link n l) x.q.frame false) false] := rfl
    rw [List.foldl_cons]
    refine ⟨?_, ?_, fun a b => by rw [hlink, frameOut_link], (frameOut_onlyChanges n l _ s).trans hframe⟩
    · rw [hout, hone, hme, frameOut_link, List.append_assoc]
      rfl
    · exact hrep.trans (State.lantern_modLantern_keeps Lantern.replays (fun _ => rfl))

/-- A link all of whose frames count a resend. -/
def Link.resendAll (k : Link) : Link := { k with unacked := k.unacked.map (fun x => { x with resends := x.resends + 1 }) }

/-- A Lantern counts the frames it sends again (R531). -/
def countReplays (n x : Nat) (s : State) : State := s.modLantern n (fun k => { k with replays := k.replays + x })

theorem countReplays_link (n x : Nat) (s : State) (a b : Nat) : (countReplays n x s).link a b = s.link a b :=
  State.link_modLantern (fun _ => rfl)

theorem countReplays_replays (n x : Nat) (s : State) : ((countReplays n x s).lantern n).replays = (s.lantern n).replays + x := by
  rw [countReplays, State.lantern_modLantern_same]

/-- The state in which frames are about to be sent again. -/
def resent (n l : Nat) (s : State) : State := countReplays n (s.link n l).unacked.length (s.modLink n l Link.resendAll)

/-- Every frame left is sent again as it was, and counts a resend (R499). -/
theorem replay_spec (n l : Nat) (s : State) :
    ((replay n l s).link n l).unacked = (s.link n l).unacked.map (fun x => { x with resends := x.resends + 1 }) ∧
    (replay n l s).out = s.out ++ (s.link n l).unacked.map (fun x =>
      .frame n l x.q.frame (wireOf s.me (s.link n l) x.q.frame false) false) ∧
    ((replay n l s).lantern n).replays = (s.lantern n).replays + (s.link n l).unacked.length ∧
    OnlyChanges [.rail, .out] s (replay n l s) := by
  have heq : replay n l s = (s.link n l).unacked.foldl (fun s x => frameOut n l x.q.frame s) (resent n l s) := rfl
  have hlink : (resent n l s).link n l = (s.link n l).resendAll := by
    rw [resent, countReplays_link, State.link_modLink_same]
  have hframe : OnlyChanges [.rail] s (resent n l s) := (modLink_onlyChanges s n l _).trans (modLantern_onlyChanges _ n _)
  obtain ⟨hout, hrep, hlinks, hsent⟩ := frameOut_foldl (n := n) (l := l) (s.link n l).unacked (resent n l s)
  rw [heq]
  refine ⟨?_, ?_, ?_, (hframe.mono (by simp)).trans hsent⟩
  · rw [hlinks, hlink]
    rfl
  · rw [hout, hlink, hframe.out_eq (by decide)]
    rfl
  · rw [hrep, resent, countReplays_replays]
    exact congrArg (· + _) (State.lantern_modLantern_keeps Lantern.replays (fun _ => rfl))

theorem exec_nakFrame (h : Arrives n l 3 f s) : exec (.nakFrame n l f (genuine n l f s)) s = .next (s.kept (
    if ((tookIn n l false f s).link n l).unacked.any (fun x => decide (x.resends ≥ 8)) = true then
      linkDown n l .failed 0x06 (tookIn n l false f s)
    else replay n l (tookIn n l false f s))) := by
  obtain ⟨hl, hn, ht, -, -⟩ := id h
  have hexec : exec (.nakFrame n l f (genuine n l f s)) s = execNakFrame n l f (genuine n l f s) s := rfl
  have hg : (s.live && (listens n l s && typeIs 3 f)) = true := by simp [hl, hn, ht, typeIs]
  rw [hexec, execNakFrame, actIf, if_pos hg]
  simp only [rxFrame_of_taken (sequenced := false) h (by decide) (by simp), Bool.not_true, Bool.false_eq_true, if_false]

theorem tookIn_unacked (n l : Nat) (f : Frame) (s : State) :
    ((tookIn n l false f s).link n l).unacked = (ackUpTo f.ackSeq (s.link n l)).unacked := by rw [link_tookIn_same]; rfl

theorem wireOf_control (k : Link) (me : Nat) (g : Frame) : wireOf me (k.took false f) g false = wireOf me k g false :=
  wireOf_eq rfl rfl rfl rfl rfl rfl rfl me g false

theorem wireOf_tookControl (me n l : Nat) (f g : Frame) (s : State) :
    wireOf me ((tookIn n l false f s).link n l) g false = wireOf me (s.link n l) g false :=
  link_tookIn (wireOf me · g false) (fun k => wireOf_hear k me g false) (fun k => wireOf_control k me g)

theorem nakFrame_resends (h : Arrives n l 3 f s) (h8 : ∀ x ∈ (ackUpTo f.ackSeq (s.link n l)).unacked, x.resends < 8) :
    Completes (.nakFrame n l f (genuine n l f s)) s (fun t =>
      (t.link n l).unacked = (ackUpTo f.ackSeq (s.link n l)).unacked.map (fun x => { x with resends := x.resends + 1 }) ∧
      t.out = s.out ++ (ackUpTo f.ackSeq (s.link n l)).unacked.map (fun x =>
        .frame n l x.q.frame (wireOf s.me (s.link n l) x.q.frame false) false) ∧
      (t.lantern n).replays = (s.lantern n).replays + (ackUpTo f.ackSeq (s.link n l)).unacked.length ∧ OnlyChanges [.rail, .out] s t) := by
  have hnone : ¬ ((tookIn n l false f s).link n l).unacked.any (fun x => decide (x.resends ≥ 8)) = true := by
    rw [tookIn_unacked]
    simpa using h8
  obtain ⟨hunacked, hout, hrep, hframe⟩ := replay_spec n l (tookIn n l false f s)
  have hall := (tookIn_onlyChanges.mono (by simp)).trans hframe
  have hme : (tookIn n l false f s).me = s.me := sameWays_tookIn.me_eq
  have hreplays : ((tookIn n l false f s).lantern n).replays = (s.lantern n).replays :=
    tookIn_lantern Lantern.replays (fun _ _ => rfl) (fun _ _ => rfl)
  refine ⟨_, exec_nakFrame h, ?_⟩
  rw [if_neg hnone, hall.kept_eq (by decide) (by decide)]
  simp only [tookIn_unacked, hme, wireOf_tookControl, tookIn_out, hreplays] at hunacked hout hrep
  exact ⟨hunacked, hout, hrep, hall⟩

theorem nakFrame_fails (h : Arrives n l 3 f s) (h8 : ∃ x ∈ (ackUpTo f.ackSeq (s.link n l)).unacked, 8 ≤ x.resends) :
    Completes (.nakFrame n l f (genuine n l f s)) s (LinkLost n l .failed 0x06 s) := by
  have hsome : ((tookIn n l false f s).link n l).unacked.any (fun x => decide (x.resends ≥ 8)) = true := by
    rw [tookIn_unacked]
    simpa using h8
  have hall := (tookIn_onlyChanges.mono (by simp)).trans (linkDown_onlyChanges n l .failed 0x06 (tookIn n l false f s))
  refine ⟨_, exec_nakFrame h, ?_⟩
  rw [if_pos hsome, hall.kept_eq (by decide) (by decide)]
  exact (linkDown_lost n l .failed 0x06 _).of_st_eq (fun a b => (sameWays_tookIn.2 a b).1) tookIn_onlyChanges

end

end Sys2Proof.Machine

/-! # What an egress sends

SUPPORT. The frame that leaves at a frame boundary (R497, R511 to R513), a link heartbeat (R494), and the renewal of a link's keys (R501). -/

namespace Sys2Proof.Machine

section
variable {s t : State} {n l a b c : Nat} {f : Frame}

/-! ## Keys that are about to be spent -/

theorem genSpent_of_fresh {k : Link} (h : k.genDue = false) : k.genSpent = false := by
  obtain ⟨htx, hctl⟩ := Bool.or_eq_false_iff.1 h
  rw [Link.genSpent, htx, hctl]
  rfl

/-- A link whose GEN is not due asks for nothing. -/
theorem renewKeys_of_fresh (h : (s.link n l).genDue = false) : renewKeys n l s = s := by
  simp [renewKeys, h]

/-- A running link whose GEN is due asks once for the possession of its retrain (R501). -/
theorem renewKeys_asks (hup : (s.link n l).up = true) (hd : (s.link n l).genDue = true) (hh : holds 0x03 (64 * n + 32 + l) s = false)
    (hq : ∀ p ∈ s.ft.queue, ¬ (p.activity = 0x03 ∧ p.arg = 64 * n + 32 + l)) (hf : fullDomain (oneDomain (12 + n)) s = none) :
    renewKeys n l s = asked (retrainOf n l) s := by
  have hany : s.ft.queue.any (fun p => p.activity == 0x03 && p.arg == 64 * n + 32 + l) = false := by
    simpa using hq
  rw [renewKeys, if_pos ⟨hup, hd, by rw [hh]; rfl, by rw [hany]; rfl⟩]
  exact requestPoss_queues (.inr hf) _

/-! ## A frame boundary -/

/-- What leaves at a frame boundary, the renewal of the keys apart. -/
def boundary (n l : Nat) (s : State) : State :=
  if (s.link n l).genSpent then fillOut n l s else
  match (if (s.link n l).ctlLast ∧ anyAdmits n l s then [] else (s.link n l).ctlq) with
  | f :: rest => ctlOut n l f (s.modLink n l (fun k => { k with ctlq := rest }))
  | [] => match (pickClass n l s).1 with
    | some c => sendHead n l c (pickClass n l s).2
    | none => if (s.link n l).ackDue then ctlOut n l (ownFrame s 2 (s.link n l).peer .none) (pickClass n l s).2
      else fillOut n l (pickClass n l s).2

theorem exec_frameBoundary (hl : s.live = true) (hn : listens n l s = true) :
    exec (.frameBoundary n l) s = .next (s.kept (boundary n l (renewKeys n l s))) :=
  congrArg Host.Outcome.next (if_pos (by simp [hl, hn]))

theorem exec_linkHbSend (hl : s.live = true) (hn : listens n l s = true) : exec (.linkHbSend n l) s = .next (s.kept (
    if ((renewKeys n l s).link n l).genSpent then fillOut n l (renewKeys n l s)
    else ctlOut n l (ownFrame (renewKeys n l s) 4 ((renewKeys n l s).link n l).peer .none) (renewKeys n l s))) :=
  congrArg Host.Outcome.next (if_pos (by simp [hl, hn]))

theorem passOver_onlyChanges (n l c : Nat) (s : State) : OnlyChanges [.rail] s (passOver n l c s) := by
  unfold passOver
  split
  · exact modLink_onlyChanges s n l _
  · exact .refl _ s

theorem deficitPick_onlyChanges (n l k : Nat) (s : State) : OnlyChanges [.rail] s (deficitPick n l k s).2 := by
  induction k generalizing s with
  | zero => exact .refl _ s
  | succ k ih =>
    unfold deficitPick
    dsimp only
    split
    · exact (modLink_onlyChanges s n l _).trans (ih _)
    · split
      · exact (modLink_onlyChanges s n l _).trans (ih _)
      · split
        · exact (modLink_onlyChanges s n l _).trans (ih _)
        · split
          · exact modLink_onlyChanges s n l _
          · exact (modLink_onlyChanges s n l _).trans (ih _)

theorem pickClass_onlyChanges (n l : Nat) (s : State) : OnlyChanges [.rail] s (pickClass n l s).2 := by
  unfold pickClass
  extract_lets ok0 ok1 s1 s2
  have h1 : OnlyChanges [.rail] s s1 := passOver_onlyChanges n l 0 s
  have h2 : OnlyChanges [.rail] s s2 := h1.trans (passOver_onlyChanges n l 1 s1)
  split
  · exact .refl _ s
  · split
    · exact h1
    · split
      · exact h2.trans (deficitPick_onlyChanges n l 256 s2)
      · exact h2

theorem sendHead_onlyChanges (n l c : Nat) (s : State) : OnlyChanges [.rail, .out] s (sendHead n l c s) := by
  unfold sendHead
  split
  · exact .refl _ s
  · exact ((modLink_onlyChanges s n l _).mono (by simp)).trans (seqOut_onlyChanges n l _ _)

theorem boundary_onlyChanges (n l : Nat) (s : State) : OnlyChanges [.rail, .out] s (boundary n l s) := by
  have hpick := (pickClass_onlyChanges n l s).mono (qs := [.rail, .out]) (by simp)
  unfold boundary
  split
  · exact (plainOut_onlyChanges n l _ s).mono (by simp)
  · split
    · exact ((modLink_onlyChanges s n l _).mono (by simp)).trans (ctlOut_onlyChanges n l _ _)
    · split
      · exact hpick.trans (sendHead_onlyChanges n l _ _)
      · split
        · exact hpick.trans (ctlOut_onlyChanges n l _ _)
        · exact hpick.trans ((plainOut_onlyChanges n l _ _).mono (by simp))

/-! ## A control frame goes first -/

theorem boundary_control {rest : List Frame} (hg : (s.link n l).genDue = false) (hq : (s.link n l).ctlq = f :: rest)
    (hlast : (s.link n l).ctlLast = false) : boundary n l s = ctlOut n l f (s.modLink n l (fun k => { k with ctlq := rest })) := by
  rw [boundary, if_neg (by simp [genSpent_of_fresh hg]), if_neg (by simp [hlast]), hq]

theorem frameBoundary_control {rest : List Frame} (hl : s.live = true) (hn : listens n l s = true) (hg : (s.link n l).genDue = false)
    (hq : (s.link n l).ctlq = f :: rest) (hlast : (s.link n l).ctlLast = false) : Completes (.frameBoundary n l) s (fun t =>
      (∃ g, g = { f with version := linkVersion l (s.link n l).st, fseq := (s.link n l).txCtl, ackSeq := (s.link n l).rxSeq } ∧
        t.out = s.out ++ [.frame n l g (wireOf s.me (s.link n l) g false) false]) ∧
      (t.link n l).ctlq = rest ∧ OnlyChanges [.rail, .out] s t) := by
  have hframe := boundary_onlyChanges n l s
  have heq := boundary_control hg hq hlast
  refine ⟨_, exec_frameBoundary hl hn, ?_⟩
  rw [renewKeys_of_fresh hg, hframe.kept_eq (by decide) (by decide)]
  refine ⟨⟨_, rfl, ?_⟩, ?_, hframe⟩
  · rw [heq, ctlOut_out, ctlFrame, State.link_modLink_same]
    exact congrArg (fun w => s.out ++ [Out.frame n l _ w false]) (wireOf_eq rfl rfl rfl rfl rfl rfl rfl s.me _ false)
  · rw [heq, ctlOut_link, State.link_modLink_same]
    rfl

/-! ## The head of class 0 -/

/-- A sequenced frame as its link sends it (R495, R496, R504). -/
def seqFrame (n l : Nat) (f : Frame) (s : State) : Frame :=
  { f with
    version := linkVersion l (s.link n l).st, cls := if l = 1 then min 3 f.cls else f.cls,
    fseq := (s.link n l).txSeq, ackSeq := (s.link n l).rxSeq }

/-- What the return of a transit frame's unit leaves of every link. -/
theorem freeIngress_keeps {α : Type} (p : Link → α) (hp : ∀ k x, p { k with given := x } = p k) (q : QFrame) (s : State) :
    p ((freeIngress q s).link a b) = p (s.link a b) := by
  unfold freeIngress
  split
  · exact State.link_modLink_keeps p (fun k => hp k _)
  · rfl

/-- A sequenced frame that has left: the sender is one further, and keeps the frame. -/
def Link.sentSeq (g : Frame) (q : QFrame) (k : Link) : Link :=
  { k with
    txSeq := k.txSeq + 1, txGen := genAfter k.txGen k.txSeq,
    unacked := k.unacked ++ [{ q := { q with frame := g, ingress := none }, resends := 0 }],
    credits := tmod k.credits (creditKey g) 0 (· + 1), ackDue := false, ctlLast := false }

/-- A class counts the bytes it sends (R532). -/
def countClass (n : Nat) (g : Frame) (s : State) : State :=
  s.modLantern n (fun x => { x with classes := tmod x.classes g.cls {} (fun c => { c with txBytes := c.txBytes + g.len }) })

theorem countClass_link (n : Nat) (g : Frame) (s : State) (a b : Nat) : (countClass n g s).link a b = s.link a b :=
  State.link_modLantern (fun _ => rfl)

theorem seqOut_eq (n l : Nat) (q : QFrame) (s : State) : seqOut n l q s = freeIngress q (countClass n (seqFrame n l q.frame s)
    ((frameOut n l (seqFrame n l q.frame s) s).modLink n l (Link.sentSeq (seqFrame n l q.frame s) q))) := rfl

theorem freeIngress_out (q : QFrame) (s : State) : (freeIngress q s).out = s.out := (freeIngress_onlyChanges q s).out_eq (by decide)

theorem seqOut_out (n l : Nat) (q : QFrame) (s : State) : (seqOut n l q s).out =
    s.out ++ [.frame n l (seqFrame n l q.frame s) (wireOf s.me (s.link n l) (seqFrame n l q.frame s) false) false] := by
  rw [seqOut_eq, freeIngress_out]
  rfl

theorem seqOut_link {α : Type} (p : Link → α) (hp : ∀ k x, p { k with given := x } = p k) (n l : Nat) (q : QFrame) (s : State) :
    p ((seqOut n l q s).link n l) = p ((s.link n l).sentSeq (seqFrame n l q.frame s) q) := by
  rw [seqOut_eq, freeIngress_keeps p hp, countClass_link, State.link_modLink_same, frameOut_link]

/-- A link whose class has lost its head. -/
def Link.shifted (c : Nat) (q : QFrame) (rest : List QFrame) (k : Link) : Link :=
  { k with
    queues := tput k.queues c rest [],
    deficit := if c < 2 then tput k.deficit c (if rest.isEmpty then 0 else tget k.deficit c 0 + q.frame.len) 0 else k.deficit }

theorem sendHead_of_head {q : QFrame} {rest : List QFrame} (h : tget (s.link n l).queues c [] = q :: rest) :
    sendHead n l c s = seqOut n l q (s.modLink n l (Link.shifted c q rest)) := by
  rw [sendHead, h]
  rfl

theorem boundary_class0 {q : QFrame} {rest : List QFrame} (hg : (s.link n l).genDue = false) (hq : (s.link n l).ctlq = [])
    (h0 : tget (s.link n l).queues 0 [] = q :: rest) (ha : headAdmits n l 0 s = true) (hp : passedOver n l 0 s = false) :
    boundary n l s = seqOut n l q (s.modLink n l (Link.shifted 0 q rest)) := by
  have hpick : pickClass n l s = (some 0, s) := by simp [pickClass, ha, hp]
  rw [boundary, if_neg (by simp [genSpent_of_fresh hg]), hq, ite_self, hpick]
  exact sendHead_of_head h0

theorem frameBoundary_class0 {q : QFrame} {rest : List QFrame} (hl : s.live = true) (hn : listens n l s = true)
    (hg : (s.link n l).genDue = false) (hq : (s.link n l).ctlq = []) (h0 : tget (s.link n l).queues 0 [] = q :: rest)
    (ha : headAdmits n l 0 s = true) (hp : passedOver n l 0 s = false) : Completes (.frameBoundary n l) s (fun t =>
      (∃ g, t.out = s.out ++ [.frame n l g (wireOf s.me (s.link n l) g false) false] ∧ g.payload = q.frame.payload ∧
        g.fseq = (s.link n l).txSeq ∧ g.ackSeq = (s.link n l).rxSeq ∧
        (t.link n l).unacked.map (fun x => x.q.frame) = (s.link n l).unacked.map (fun x => x.q.frame) ++ [g]) ∧
      (t.link n l).txSeq = (s.link n l).txSeq + 1 ∧ tget (t.link n l).queues 0 [] = rest ∧ OnlyChanges [.rail, .out] s t) := by
  have hframe := boundary_onlyChanges n l s
  have heq := boundary_class0 hg hq h0 ha hp
  have hlink : (s.modLink n l (Link.shifted 0 q rest)).link n l = (s.link n l).shifted 0 q rest := State.link_modLink_same ..
  refine ⟨_, exec_frameBoundary hl hn, ?_⟩
  rw [renewKeys_of_fresh hg, hframe.kept_eq (by decide) (by decide)]
  refine ⟨⟨seqFrame n l q.frame (s.modLink n l (Link.shifted 0 q rest)), ?_, rfl, ?_, ?_, ?_⟩, ?_, ?_, hframe⟩
  · rw [heq, seqOut_out, hlink]
    exact congrArg (fun w => s.out ++ [Out.frame n l _ w false]) (wireOf_eq rfl rfl rfl rfl rfl rfl rfl s.me _ false)
  · rw [seqFrame, hlink]
    rfl
  · rw [seqFrame, hlink]
    rfl
  · rw [heq, seqOut_link Link.unacked (fun _ _ => rfl), hlink]
    simp [Link.sentSeq, Link.shifted]
  · rw [heq, seqOut_link Link.txSeq (fun _ _ => rfl), hlink]
    rfl
  · rw [heq, seqOut_link Link.queues (fun _ _ => rfl), hlink]
    exact tget_tput_same ..

/-! ## Nothing of a class may leave -/

theorem pickClass_none (h : ∀ c < 8, headAdmits n l c s = false) : pickClass n l s = (none, s) := by
  have hpass {c : Nat} (hc : c < 8) : passOver n l c s = s := by simp [passOver, h c hc]
  have hany : (List.range 8).any (fun c => decide (2 ≤ c) && headAdmits n l c s) = false := by
    simp only [List.any_eq_false, List.mem_range]
    intro c hc
    simp [h c hc]
  simp only [pickClass, h 0 (by omega), h 1 (by omega), Bool.false_and, Bool.false_eq_true, if_false, hpass (c := 0) (by omega),
    hpass (c := 1) (by omega), hany]

theorem frameBoundary_idle (hl : s.live = true) (hn : listens n l s = true) (hg : (s.link n l).genDue = false)
    (hq : (s.link n l).ctlq = []) (h : ∀ c < 8, headAdmits n l c s = false) : Completes (.frameBoundary n l) s (fun t =>
      (∃ g, t.out = s.out ++ [.frame n l g (if (s.link n l).ackDue then wireOf s.me (s.link n l) g false else plainWire g) false] ∧
        g.typ = (if (s.link n l).ackDue then 2 else 0)) ∧
      (t.link n l).ackDue = false ∧ ((s.link n l).ackDue = false → OnlyChanges [.out] s t) ∧ OnlyChanges [.rail, .out] s t) := by
  have hframe := boundary_onlyChanges n l s
  have heq : boundary n l s = if (s.link n l).ackDue then ctlOut n l (ownFrame s 2 (s.link n l).peer .none) s else fillOut n l s := by
    rw [boundary, if_neg (by simp [genSpent_of_fresh hg]), hq, ite_self, pickClass_none h]
  refine ⟨_, exec_frameBoundary hl hn, ?_⟩
  rw [renewKeys_of_fresh hg, hframe.kept_eq (by decide) (by decide)]
  cases hdue : (s.link n l).ackDue with
  | true =>
    rw [heq, hdue, if_pos rfl]
    refine ⟨⟨_, ctlOut_out n l _ s, rfl⟩, ?_, by simp, ctlOut_onlyChanges n l _ s⟩
    rw [ctlOut_link]
    rfl
  | false =>
    rw [heq, hdue, if_neg (by decide)]
    have hfill : OnlyChanges [.out] s (fillOut n l s) := plainOut_onlyChanges n l _ s
    exact ⟨⟨_, plainOut_out n l _ s, rfl⟩, hdue, fun _ => hfill, hfill.mono (by simp)⟩

/-! ## A silent link, and one whose numbers run out -/

theorem linkHbSend_beats (hl : s.live = true) (hn : listens n l s = true) (hg : (s.link n l).genDue = false) :
    Completes (.linkHbSend n l) s (fun t =>
      (∃ g, t.out = s.out ++ [.frame n l g (wireOf s.me (s.link n l) g false) false] ∧ g.typ = 4 ∧ g.fseq = (s.link n l).txCtl ∧
        g.ackSeq = (s.link n l).rxSeq ∧ g.version = linkVersion l (s.link n l).st) ∧
      (t.link n l).txCtl = (s.link n l).txCtl + 1 ∧ (t.link n l).txSeq = (s.link n l).txSeq ∧ OnlyChanges [.rail, .out] s t) := by
  have hframe := ctlOut_onlyChanges n l (ownFrame s 4 (s.link n l).peer .none) s
  refine ⟨_, exec_linkHbSend hl hn, ?_⟩
  rw [renewKeys_of_fresh hg, if_neg (by simp [genSpent_of_fresh hg]), hframe.kept_eq (by decide) (by decide)]
  refine ⟨⟨_, ctlOut_out n l _ s, rfl, rfl, rfl, rfl⟩, ?_, ?_, hframe⟩ <;> rw [ctlOut_link] <;> rfl

theorem fillFrame_heard (hl : s.live = true) (hn : listens n l s = true) : Completes (.fillFrame n l) s (fun t =>
    t.link n l = { s.link n l with heard := true } ∧ OnlyChanges [.rail] s t) := by
  have hframe := modLink_onlyChanges s n l (fun k => { k with heard := true })
  exact completes_of_actIf_within (by rfl) hl hn rfl hframe (by decide) (by decide) ⟨State.link_modLink_same .., hframe⟩

/-- A command that first renews its link's keys asks for the retrain; with the numbers spent it sends FILL. -/
theorem completes_of_renewal {i : Instr} {v : State}
    (he : exec i s = .next (s.kept v)) (hframe : OnlyChanges [.rail, .out] (asked (retrainOf n l) s) v)
    (hspent : (s.link n l).genSpent = true → v = fillOut n l (asked (retrainOf n l) s)) :
    Completes i s (fun t => t.ft.queue = s.ft.queue ++ [retrainOf n l] ∧
      ((s.link n l).genSpent = true → (∃ g, t.out = s.out ++ [.frame n l g (plainWire g) false] ∧ g.typ = 0) ∧
        OnlyChanges [.ft, .out] s t)) := by
  have hask := asked_onlyChanges (retrainOf n l) s
  have hfill := plainOut_onlyChanges n l (ownFrame (asked (retrainOf n l) s) 0 0 .none) (asked (retrainOf n l) s)
  refine ⟨_, he, congrArg Faults.queue (hframe.ft_eq (by decide)), fun hs => ?_⟩
  rw [hspent hs]
  exact ⟨⟨_, plainOut_out n l _ _, rfl⟩, ((hask.mono (by simp)).trans (hfill.mono (by simp))).kept⟩

theorem renewal {i : Instr} (hi : i = .linkHbSend n l ∨ i = .frameBoundary n l) (hl : s.live = true) (hn : listens n l s = true)
    (hasks : renewKeys n l s = asked (retrainOf n l) s) : Completes i s (fun t => t.ft.queue = s.ft.queue ++ [retrainOf n l] ∧
      ((s.link n l).genSpent = true → (∃ g, t.out = s.out ++ [.frame n l g (plainWire g) false] ∧ g.typ = 0) ∧
        OnlyChanges [.ft, .out] s t)) := by
  rcases hi with rfl | rfl
  · refine completes_of_renewal (exec_linkHbSend hl hn) ?_ (fun hs => ?_)
    · rw [hasks]
      split
      · exact (plainOut_onlyChanges n l _ _).mono (by simp)
      · exact ctlOut_onlyChanges n l _ _
    · rw [hasks]
      exact if_pos hs
  · refine completes_of_renewal (exec_frameBoundary hl hn) (hasks ▸ boundary_onlyChanges n l _) (fun hs => ?_)
    rw [hasks]
    exact if_pos hs

theorem linkHb_takes {o : FrameObs} {P : State → Prop} (hl : s.live = true) (hn : listens n l s = true) (ht : typeIs 4 f = true)
    (hu : (rxFrame n l false f o s).2 = t) (hframe : OnlyChanges [.rail] s t) (hP : P t) : Completes (.linkHb n l f o) s P :=
  completes_of_actIf_within (by rfl) hl (by simp [hn, ht]) (by exact hu) hframe (by decide) (by decide) hP

theorem ackFrame_takes {o : FrameObs} {P : State → Prop} (hl : s.live = true) (hn : listens n l s = true) (ht : typeIs 2 f = true)
    (hu : (rxFrame n l false f o s).2 = t) (hframe : OnlyChanges [.rail] s t) (hP : P t) : Completes (.ackFrame n l f o) s P :=
  completes_of_actIf_within (by rfl) hl (by simp [hn, ht]) (by exact hu) hframe (by decide) (by decide) hP

end

end Sys2Proof.Machine

/-! # The obligation on the frames of a link -/

namespace Sys2Proof.Machine

/-- Settles O42, by the two ends of the checks, by resending, and by what an egress sends. -/
theorem railLinkFrames : Obligations.RailLinkFrames := by
  unfold Obligations.RailLinkFrames
  refine ⟨fun s n l f c h => ?taken, fun s n l f o hl hn ht hi hbad => linkHb_refused hl hn ht hi hbad,
    fun s n l f h h8 => nakFrame_resends h h8, fun s n l f h h8 => nakFrame_fails h h8, fun s n l hl hn => fillFrame_heard hl hn,
    fun s n l hl hn hg => linkHbSend_beats hl hn hg, fun s n l f rest hl hn hg hq hlast => frameBoundary_control hl hn hg hq hlast,
    fun s n l q rest hl hn hg hq h0 ha hp => frameBoundary_class0 hl hn hg hq h0 ha hp,
    fun s n l hl hn hg hq h => frameBoundary_idle hl hn hg hq h,
    fun s n l c hc hl hn hup hd hh hq hf => renewal hc hl hn (renewKeys_asks hup hd hh hq hf)⟩
  rcases h with ⟨rfl, h⟩ | ⟨rfl, h⟩
  · obtain ⟨hl, hn, ht, -, -⟩ := id h
    exact linkHb_takes hl hn (by simp [typeIs, ht]) (control_taken h (by decide)) tookIn_onlyChanges (tookIn_control n l f s)
  · obtain ⟨hl, hn, ht, -, -⟩ := id h
    exact ackFrame_takes hl hn (by simp [typeIs, ht]) (control_taken h (by decide)) tookIn_onlyChanges (tookIn_control n l f s)

end Sys2Proof.Machine

/-! # Trust: debug access

SUPPORT. What clearing every partition and taking every link down come to (R721, R739). -/

namespace Sys2Proof.Machine

section
variable {s t u : State} {n l a b p : Nat}

theorem OnlyChanges.trust_eq {ps : List Zone} (h : OnlyChanges ps s t) (hp : .trust ∉ ps) : t.trust = s.trust :=
  of_decide_eq_true (h .trust hp)

/-! ## Clearing a partition -/

/-- The parts of the state that clearing a partition may change. -/
def clearZones : List Zone := [.groves, .waybill, .mem, .sleeper, .tt, .rc, .ho, .cs]

theorem emptyGroves_onlyChanges (p : Nat) (s : State) : OnlyChanges clearZones s (emptyGroves p s) := by
  intro q hq
  cases q <;> simp [sameZone, clearZones, emptyGroves] at hq ⊢

theorem discardBlocks_onlyChanges (p : Nat) (s : State) : OnlyChanges clearZones s (discardBlocks p s) := by
  intro q hq
  cases q <;> simp [sameZone, clearZones, discardBlocks] at hq ⊢

theorem clearRegions_onlyChanges (ids : List Nat) (s : State) : OnlyChanges clearZones s (clearRegions ids s) := by
  intro q hq
  cases q <;> simp [sameZone, clearZones, clearRegions] at hq ⊢

theorem returnUnits_onlyChanges (p : Nat) (s : State) : OnlyChanges [.rc] s (returnUnits p s) := onlyChanges_set_rc s _

/-- Freeing a partition's entries leaves memory alone. -/
theorem freeEntries_onlyChanges (p : Nat) (s : State) : OnlyChanges [.ho, .tt] s (freeEntries p s) := by
  refine onlyChanges_foldl (fun s i => ?_) _ s
  split
  · exact .refl _ s
  · exact (toFree_changesEntry i s).frame

/-- A partition with its keys gone (R739). -/
def wiped (p : Nat) (s : State) : State := returnUnits p (scrubPart p [] (forgetSeqs p s))

/-- The state in which a partition's regions are about to be zeroed. -/
def unscrubbed (p : Nat) (s : State) : State := freeEntries p (discardBlocks p (emptyGroves p (forgetSeqs p s)))

theorem unscrubbed_onlyChanges (p : Nat) (s : State) : OnlyChanges clearZones s (unscrubbed p s) :=
  ((((modStep_onlyChanges p _ s).mono (by simp [clearZones])).trans (emptyGroves_onlyChanges p _)).trans
    (discardBlocks_onlyChanges p _)).trans ((freeEntries_onlyChanges p _).mono (by simp [clearZones]))

theorem wiped_onlyChanges (p : Nat) (s : State) : OnlyChanges clearZones s (wiped p s) :=
  ((unscrubbed_onlyChanges p s).trans (clearRegions_onlyChanges _ _)).trans ((returnUnits_onlyChanges p _).mono (by simp [clearZones]))

theorem unscrubbed_hbm (p : Nat) (s : State) : (unscrubbed p s).mem = s.mem :=
  (freeEntries_onlyChanges p (discardBlocks p (emptyGroves p (forgetSeqs p s)))).mem_eq (by decide)

theorem region_of_img_eq (h : t.img = s.img) (id : Nat) : t.region id = s.region id := by rw [State.region, h, State.region]
theorem partRegions_of_img_eq (h : t.img = s.img) (p : Nat) : partRegions p t = partRegions p s := by rw [partRegions, h, partRegions]

/-- A byte lies in a region of a partition. -/
def inPart (p a : Nat) (s : State) : Prop := ∃ g ∈ partRegions p s, inRegion g a = true

/-- A wiped partition's bytes are zero, and no others (R721). -/
theorem wiped_byte (hr : ∀ g ∈ partRegions p s, s.region g.id = some g) (a : Nat) :
    (inPart p a s → hbmByte (wiped p s) a = 0) ∧ (¬ inPart p a s → hbmByte (wiped p s) a = hbmByte s a) := by
  have himg : (unscrubbed p s).img = s.img := (unscrubbed_onlyChanges p s).img_eq (by decide)
  have hids : ((partRegions p (forgetSeqs p s)).map (fun r => r.id)).filter (fun id => !([] : List Nat).any (· == id)) =
      (partRegions p s).map (fun r => r.id) := by simp [forgetSeqs, modStep, partRegions]
  have hregions : ((partRegions p s).map (fun r => r.id)).filterMap (unscrubbed p s).region = partRegions p s := by
    rw [List.filterMap_map, List.filterMap_congr (g := some)]
    · exact List.filterMap_some
    · intro g hg
      exact (region_of_img_eq himg g.id).trans (hr g hg)
  have hbyte : hbmByte (wiped p s) a = if (partRegions p s).any (fun g => inRegion g a) = true then 0 else hbmByte s a := by
    have hwiped : hbmByte (wiped p s) a = memGet (memClear (unscrubbed p s).mem.hbm (fun a =>
        ((((partRegions p (forgetSeqs p s)).map (fun r => r.id)).filter (fun id => !([] : List Nat).any (· == id))).filterMap
          (unscrubbed p s).region).any (fun r => inRegion r a))) a := rfl
    rw [hwiped, hids, hregions, memGet_memClear, unscrubbed_hbm]
    rfl
  rw [hbyte]
  exact ⟨fun h => if_pos (List.any_eq_true.2 h), fun h => if_neg (fun hc => h (List.any_eq_true.1 hc))⟩

/-- Every partition of a list is wiped in turn. -/
theorem wiped_foldl (ps : List Nat) (s : State) (hr : ∀ p, ∀ g ∈ partRegions p s, s.region g.id = some g) :
    OnlyChanges clearZones s (ps.foldl (fun s p => wiped p s) s) ∧ ∀ a,
    ((∃ p ∈ ps, inPart p a s) → hbmByte (ps.foldl (fun s p => wiped p s) s) a = 0) ∧
    ((∀ p ∈ ps, ¬ inPart p a s) → hbmByte (ps.foldl (fun s p => wiped p s) s) a = hbmByte s a) := by
  induction ps generalizing s with
  | nil => exact ⟨.refl _ s, fun a => ⟨by simp, fun _ => rfl⟩⟩
  | cons p ps ih =>
    have hframe := wiped_onlyChanges p s
    have himg : (wiped p s).img = s.img := hframe.img_eq (by decide)
    have hpart (q a : Nat) : inPart q a (wiped p s) ↔ inPart q a s := by rw [inPart, partRegions_of_img_eq himg, inPart]
    obtain ⟨hrest, hbytes⟩ := ih (wiped p s) (fun q g hg => by
      rw [region_of_img_eq himg]
      exact hr q g (by rwa [partRegions_of_img_eq himg] at hg))
    refine ⟨hframe.trans hrest, fun a => ⟨?_, fun hnone => ?_⟩⟩
    · rintro ⟨q, hq, hqa⟩
      by_cases hlater : ∃ r ∈ ps, inPart r a s
      · obtain ⟨r, hr, hra⟩ := hlater
        exact (hbytes a).1 ⟨r, hr, (hpart r a).2 hra⟩
      · have hqp : q = p := (List.mem_cons.1 hq).resolve_right (fun h => hlater ⟨q, h, hqa⟩)
        subst hqp
        exact ((hbytes a).2 (fun r hr hra => hlater ⟨r, hr, (hpart r a).1 hra⟩)).trans ((wiped_byte (hr q) a).1 hqa)
    · refine ((hbytes a).2 (fun r hr hra => hnone r (by simp [hr]) ((hpart r a).1 hra))).trans ((wiped_byte (hr p) a).2 ?_)
      exact hnone p (by simp)

/-! ## Every link goes down -/

/-- A link that is not disabled goes DOWN. -/
def shut (x : Nat × Nat) (s : State) : State := if (s.link x.1 x.2).st = .disabled then s else linkDown x.1 x.2 .down 0 s

theorem shut_st (x : Nat × Nat) (s : State) (a b : Nat) : ((shut x s).link a b).st =
    if (a, b) = x ∧ (s.link a b).st ≠ .disabled then .down else (s.link a b).st := by
  obtain ⟨n, l⟩ := x
  unfold shut
  split
  next hd =>
    by_cases hab : (a, b) = (n, l)
    · obtain ⟨rfl, rfl⟩ := Prod.mk.inj hab
      simp [hd]
    · simp [hab]
  next hd =>
    obtain ⟨hst, -, -, -, hothers, -⟩ := linkDown_lost n l .down 0 s
    by_cases hab : (a, b) = (n, l)
    · obtain ⟨rfl, rfl⟩ := Prod.mk.inj hab
      rw [if_pos ⟨rfl, hd⟩]
      exact hst
    · rw [if_neg (fun h => hab h.1)]
      exact hothers a b (fun h => hab (Prod.ext h.1 h.2))

theorem shut_onlyChanges (x : Nat × Nat) (s : State) : OnlyChanges [.rail, .rc, .ft, .host, .out] s (shut x s) := by
  unfold shut
  split
  · exact .refl _ s
  · exact linkDown_onlyChanges _ _ _ _ s

theorem shut_foldl (xs : List (Nat × Nat)) (s : State) (a b : Nat) : ((xs.foldl (fun s x => shut x s) s).link a b).st =
    if (a, b) ∈ xs ∧ (s.link a b).st ≠ .disabled then .down else (s.link a b).st := by
  induction xs generalizing s with
  | nil => simp
  | cons x xs ih =>
    rw [List.foldl_cons, ih, shut_st]
    by_cases hx : (a, b) = x <;> by_cases hd : (s.link a b).st = .disabled <;> simp [hx, hd]

/-- The links of a device (R488). -/
def allLinks : List (Nat × Nat) := (List.range 8).flatMap (fun n => (List.range 2).map (fun l => (n, l)))

/-- One link after the other, Lantern by Lantern. -/
theorem foldl_allLinks {α : Type} (f : α → Nat → Nat → α) (x : α) : allLinks.foldl (fun s k => f s k.1 k.2) x =
    (List.range 8).foldl (fun s n => (List.range 2).foldl (fun s l => f s n l) s) x := rfl

/-- The state in which every partition is clear and every link down. -/
def shutDown (s : State) : State := allLinks.foldl (fun s x => shut x s) ((List.range s.partitions).foldl (fun s p => wiped p s) s)

/-- Debug access is open: nothing is signed any more (R739). -/
def opened (s : State) : State :=
  { s with waybill := { s.waybill with signing := none, waiting := [] }, trust := { s.trust with unlocked := true } }

theorem unlockDebug_eq (s : State) : unlockDebug s = opened (shutDown s) := by
  have hnested : shutDown s = (List.range 8).foldl (fun s n => (List.range 2).foldl (fun s l => shut (n, l) s) s)
    ((List.range s.partitions).foldl (fun s p => wiped p s) s) := foldl_allLinks (fun s n l => shut (n, l) s) _
  unfold unlockDebug
  extract_lets s1 s2
  have hs2 : shutDown s = s2 := hnested
  rw [hs2]
  clear hs2 hnested
  clear_value s2
  rfl

theorem shutDown_onlyChanges (hr : ∀ p, ∀ g ∈ partRegions p s, s.region g.id = some g) :
    OnlyChanges [.host, .groves, .waybill, .mem, .sleeper, .tt, .rail, .rc, .ho, .cs, .ft, .out] s (shutDown s) :=
  ((wiped_foldl (List.range s.partitions) s hr).1.mono (by decide)).trans
    ((onlyChanges_foldl (fun s x => shut_onlyChanges x s) allLinks _).mono (by decide))

theorem shutDown_link (hr : ∀ p, ∀ g ∈ partRegions p s, s.region g.id = some g) (hn : n < 8) (hl : l < 2)
    (hst : (s.link n l).st ≠ .disabled) : ((shutDown s).link n l).st = .down := by
  have hrail := (wiped_foldl (List.range s.partitions) s hr).1.rail_eq (by decide)
  have hlink : ((List.range s.partitions).foldl (fun s p => wiped p s) s).link n l = s.link n l := by
    simp only [State.link, State.lantern, hrail]
  have hmem : (n, l) ∈ allLinks := by
    simp only [allLinks, List.mem_flatMap, List.mem_map, List.mem_range]
    exact ⟨n, hn, l, hl, rfl⟩
  rw [shutDown, shut_foldl, hlink, if_pos ⟨hmem, hst⟩]

theorem shutDown_byte (hr : ∀ p, ∀ g ∈ partRegions p s, s.region g.id = some g) (a : Nat) :
    ((∃ p < s.partitions, inPart p a s) → hbmByte (shutDown s) a = 0) ∧
    ((∀ p < s.partitions, ¬ inPart p a s) → hbmByte (shutDown s) a = hbmByte s a) := by
  obtain ⟨hzero, hsame⟩ := (wiped_foldl (List.range s.partitions) s hr).2 a
  have hmem : hbmByte (shutDown s) a = hbmByte ((List.range s.partitions).foldl (fun s p => wiped p s) s) a :=
    congrArg (fun m : Mem => memGet m.hbm a) ((onlyChanges_foldl (fun s x => shut_onlyChanges x s) allLinks _).mem_eq (by decide))
  simp only [List.mem_range] at hzero hsame
  exact ⟨fun h => hmem.trans (hzero h), fun h => hmem.trans (hsame h)⟩

theorem opened_onlyChanges (s : State) : OnlyChanges [.waybill, .trust] s (opened s) := by
  intro p hp
  cases p <;> simp [sameZone, opened] at hp ⊢

theorem newChallenge_onlyChanges (s : State) : OnlyChanges [.trust, .free] s (newChallenge s) :=
  ((onlyChanges_set_free s (s.free + 1)).mono (by simp)).trans ((onlyChanges_set_trust s.fresh _).mono (by simp))

/-- What opening debug access sets, whatever state it is opened in. -/
theorem newChallenge_opened (v : State) : (newChallenge (opened v)).waybill.signing = none ∧ (newChallenge (opened v)).waybill.waiting = [] ∧
    (newChallenge (opened v)).trust = { v.trust with unlocked := true, challenge := (newChallenge (opened v)).trust.challenge } ∧
    (∀ n l, (newChallenge (opened v)).link n l = v.link n l) ∧ ∀ a, hbmByte (newChallenge (opened v)) a = hbmByte v a :=
  ⟨rfl, rfl, rfl, fun _ _ => rfl, fun _ => rfl⟩

theorem debugUnlock_opens {key sig : BitVec 768} (hl : s.live = true) (ha : debugAnswer key sig s = true) (hu : s.trust.unlocked = false)
    (hr : ∀ p, ∀ g ∈ partRegions p s, s.region g.id = some g) : Completes (.debugUnlock ⟨key, sig⟩) s (fun t =>
      t.trust = { s.trust with unlocked := true, challenge := t.trust.challenge } ∧ t.waybill.signing = none ∧ t.waybill.waiting = [] ∧
      (∀ n < 8, ∀ l < 2, (s.link n l).st ≠ .disabled → (t.link n l).st = .down) ∧
      (∀ p < s.partitions, ∀ g ∈ partRegions p s, ∀ a, inRegion g a = true → hbmByte t a = 0) ∧
      (∀ a, (∀ p < s.partitions, ∀ g ∈ partRegions p s, inRegion g a = false) → hbmByte t a = hbmByte s a) ∧
      OnlyChanges [.host, .groves, .waybill, .mem, .sleeper, .tt, .rail, .rc, .ho, .cs, .ft, .trust, .free, .out] s t) := by
  have hshut := shutDown_onlyChanges hr
  have hframe : OnlyChanges [.host, .groves, .waybill, .mem, .sleeper, .tt, .rail, .rc, .ho, .cs, .ft, .trust, .free, .out] s
      (newChallenge (opened (shutDown s))) :=
    ((hshut.mono (by decide)).trans ((opened_onlyChanges _).mono (by decide))).trans ((newChallenge_onlyChanges _).mono (by decide))
  have hexec : exec (.debugUnlock ⟨key, sig⟩) s =
      actIf s (debugAnswer key sig s && !s.trust.unlocked) (fun s => newChallenge (unlockDebug s)) := rfl
  refine completes_of_actIf_within hexec hl (by simp [ha, hu]) (congrArg newChallenge (unlockDebug_eq s)) hframe (by decide) (by decide) ?_
  obtain ⟨hsigning, hwaiting, htrust, hlink, hbyte⟩ := newChallenge_opened (shutDown s)
  rw [hshut.trust_eq (by decide)] at htrust
  refine ⟨htrust, hsigning, hwaiting, fun n hn l hl hst => ?_, fun p hp g hg a hga => ?_, fun a hnone => ?_, hframe⟩
  · rw [hlink]
    exact shutDown_link hr hn hl hst
  · rw [hbyte]
    exact (shutDown_byte hr a).1 ⟨p, hp, g, hg, hga⟩
  · rw [hbyte]
    refine (shutDown_byte hr a).2 ?_
    rintro p hp ⟨g, hg, hga⟩
    exact absurd hga (by simp [hnone p hp g hg])

end

end Sys2Proof.Machine

/-! # The obligation on trust and keys -/

namespace Sys2Proof.Machine

section
variable {s : State} {c : Nat} {slot : BitVec 2}

theorem retireIndex_onlyChanges (c : Nat) (ddr : Bool) (slot : Option (BitVec 2)) (s : State) :
    OnlyChanges [.tn] s (retireIndex c ddr slot s) := by
  unfold retireIndex
  split <;> exact onlyChanges_set_tn s _

theorem retireIndex_free {ddr : Bool} {slot : Option (BitVec 2)} (h : indexSpent c ddr s = false) :
    (retireIndex c ddr slot s).tn = { s.tn with retire := s.tn.retire ++ [{ tenant := c, ddr, slot }] } := by
  simp [retireIndex, h]

theorem retireIndex_spent {ddr : Bool} {slot : Option (BitVec 2)} (h : indexSpent c ddr s = true) :
    (retireIndex c ddr slot s).tn = { s.tn with status := { valid := true, code := 0x07 } } := by
  simp [retireIndex, h, tnCode]

theorem retireIndex_decides (ddr : Bool) : ∀ t, t = s.kept (retireIndex c ddr none s) →
    (indexSpent c ddr s = false → t.tn = { s.tn with retire := s.tn.retire ++ [{ tenant := c, ddr }] }) ∧
    (indexSpent c ddr s = true → t.tn = { s.tn with status := { valid := true, code := 0x07 } }) ∧ OnlyChanges [.tn] s t := by
  rintro t rfl
  exact ⟨retireIndex_free, retireIndex_spent, OnlyChanges.kept (retireIndex_onlyChanges c ddr none s)⟩

/-- What a write of a fabric slot answers (R733). -/
theorem fabricSlotWrite_eq (hw : writes 0 s = true) (hc : c < 16) : exec (.fabricSlotWrite c slot) s = .next (s.kept (
    if slot ≠ slotSoon c s ∧ indexSpent c false s = true then tnCode 0x07 s
    else if (!s.fuses.fabric.getLsbD slot.toNat) = true then tnCode 0x08 s
    else if slot = slotSoon c s then tnCode 0x00 s
    else retireIndex c false (some slot) s)) :=
  congrArg Host.Outcome.next (if_pos (by simp [live_of_ready (ready_of_writes hw), hw, hc]))

theorem tnCode_onlyChanges (x : Byte) (s : State) : OnlyChanges [.tn] s (tnCode x s) := onlyChanges_set_tn s _

theorem svnCommit_ignored {k : BitVec 16} (h : k ≠ 0x5356) : ¬ (s.live && (writes 0 s && k == 0x5356)) = true := by
  rw [beq_false_of_ne h, Bool.and_false, Bool.and_false]
  decide

end

/-- Settles O53, by what each command does to the tenancy registers, the flash, the fuses or the trust registers, and by what the
opening of debug access clears. -/
theorem trustAndKeys : Obligations.TrustAndKeys := by
  unfold Obligations.TrustAndKeys
  refine ⟨fun s t0 ddr c hw ht hc => ?retire, fun s t0 k hw ht => ?fabric, fun s r rest hl hr => ?written, fun s k hw => ?commit,
    fun s hl hb => ?committed, fun s m os hl hm ho => ?firmware, fun s m os hbad => ?refused, fun s hl hb => ?go, fun s hl hb => ?report,
    fun s key sig hl ha hu hr => debugUnlock_opens hl ha hu hr, fun s key sig hbad => ?wrong⟩
  case retire =>
    rcases hc with ⟨rfl, rfl⟩ | ⟨rfl, rfl⟩
    · exact completes_of_actIf (by rfl) (live_of_ready (ready_of_writes hw)) (by simp [hw, ht]) (retireIndex_decides true _ rfl)
    · exact completes_of_actIf (by rfl) (live_of_ready (ready_of_writes hw)) (by simp [hw, ht]) (retireIndex_decides false _ rfl)
  case fabric =>
    refine ⟨_, fabricSlotWrite_eq hw ht, fun hne hfree hburned => ?_, fun hne hspent => ?_, fun hok hburned => ?_, fun heq hburned => ?_,
      OnlyChanges.kept ?_⟩
    · rw [if_neg (by simp [hfree]), if_neg (by simp [hburned]), if_neg hne]
      exact retireIndex_free hfree
    · rw [if_pos ⟨hne, hspent⟩]
      rfl
    · rw [if_neg, if_pos (by simp [hburned])]
      · rfl
      · rintro ⟨hne, hspent⟩
        rcases hok with h | h
        · exact hne h
        · simp [h] at hspent
    · rw [if_neg (by simp [heq]), if_neg (by simp [hburned]), if_pos heq]
      rfl
    · split
      · exact tnCode_onlyChanges _ s
      · split
        · exact tnCode_onlyChanges _ s
        · split
          · exact tnCode_onlyChanges _ s
          · exact retireIndex_onlyChanges t0 false (some k) s
  case written =>
    refine completes_of_act (by rfl) hl ?_
    simp only [hr]
    refine ⟨(tget_tmod_same s.flash.keys r.tenant {} (fun k => k.retired r)).trans rfl,
      fun k hk => tget_tmod_other s.flash.keys r.tenant k {} (fun k => k.retired r) hk, rfl, OnlyChanges.kept ?_⟩
    intro p hp
    cases p <;> simp [sameZone, tnCode] at hp ⊢
  case commit =>
    by_cases hk : k = 0x5356
    · refine completes_of_actIf (by rfl) (live_of_ready (ready_of_writes hw)) (by simp [hw, hk]) ?_
      exact ⟨fun _ => ⟨rfl, (onlyChanges_set_trust s _).kept⟩, fun h => absurd hk h⟩
    · exact ⟨s, congrArg Host.Outcome.next (if_neg (svnCommit_ignored hk)), fun h => absurd h hk, fun _ => .refl [] s⟩
  case committed =>
    refine ⟨_, congrArg Host.Outcome.next (if_pos (by simp [hl, hb])), rfl, rfl, ?_⟩
    intro p hp
    cases p <;> simp [sameZone] at hp ⊢
  case firmware =>
    refine completes_of_actIf (by rfl) hl (by rw [hm, ho]; rfl) ?_
    exact ⟨rfl, (onlyChanges_set_flash s _).kept⟩
  case refused =>
    have hno : (manifestFits m s && objectsFit m os) = false := by
      rcases hbad with h | h | h | h
      · simp [manifestFits, h]
      · simp [manifestFits, h]
      · have hnone : (List.range 4).any (slotSigns m s) = false := by simpa using h
        simp [manifestFits, hnone]
      · simp [h]
    exact ⟨s, congrArg Host.Outcome.next (if_neg (by simp [hno])), .refl [] s⟩
  case go =>
    refine completes_of_actIf (by rfl) hl (by simp [hb]) ?_
    exact ⟨rfl, (onlyChanges_set_trust s _).kept⟩
  case report =>
    refine completes_of_actIf (by rfl) hl hb ?_
    exact ⟨rfl, OnlyChanges.kept (((onlyChanges_set_free s (s.free + 1)).mono (by simp)).trans ((onlyChanges_set_trust s.fresh _).mono (by simp)))⟩
  case wrong =>
    have hno : debugAnswer key sig s = false := by
      rcases hbad with h | h
      · rw [debugAnswer, h]
        rfl
      · simp [debugAnswer, h]
    exact ⟨s, congrArg Host.Outcome.next (if_neg (by simp [hno])), .refl [] s⟩

end Sys2Proof.Machine

/-! # Rail work on a device that sleeps

SUPPORT. What a device in N3 does with Rail work that had started (log entry 4): nothing, for it goes on only in a power state that runs
it. -/

namespace Sys2Proof.Machine

/-- A command of the physical function's ring 0 that names connection 1. -/
def railWork (op : Byte) (p : Prog) : Work :=
  { wid := 5, src := .ring 0 0, fn := 0, tag := 0, opcode := op, context := 0, fence := false, irq := false, silent := false,
    body := BitVec.ofNat 512 (2 ^ 64), fetchSc := 0, tenant := 0, part := 0, prog := p }

/-- A device in N3 with one command in flight, on a connection that is open and holds that command alone. -/
def asleep (w : Work) : State :=
  { State.reset with
    power := { State.reset.power with st := .n3 }
    work := [w]
    rc := { State.reset.rc with conns := [(0, mgmtConn), (1, { st := .opened, queue := [5] })] } }

theorem asleep_live (w : Work) : (asleep w).live = true := rfl

theorem asleep_awake (w : Work) : (asleep w).awake = false := rfl

/-- Work that has started does not go on while the device sleeps. -/
theorem resume_asleep {α : Type} {s : State} (wid : Nat) (sel : Prog → Option α) (f : Work → α → State → State) (h : s.awake = false) :
    resume wid s sel f = .next s := by
  unfold resume
  split
  · split
    · rw [h]
      rfl
    · rfl
  · rfl

theorem rlCreateUnitsReserved_asleep (w : Work) : exec (.rlCreateUnitsReserved 5) (asleep w) = .next (asleep w) := by
  change execRlCreateUnitsReserved 5 (asleep w) = _
  exact resume_asleep _ _ _ (asleep_awake w)

theorem railRequestIssue_asleep (w : Work) : exec (.railRequestIssue 5) (asleep w) = .next (asleep w) := by
  change execRailRequestIssue 5 (asleep w) = _
  exact resume_asleep _ _ _ (asleep_awake w)

/-- A descriptor that is still in flight has not ended. -/
theorem not_ends_of_item {w : Work} {st : Status} {r : Nat} {t : State} {P : State → Prop} (h : t.item w.wid = some w) : ¬ Ends w st r t P := by
  rintro ⟨u, fr, rfl, -⟩
  rw [complete_item] at h
  cases h

/-! ## The obligation on connections -/

/-- Refutes O44, by its third clause (the units of a new connection being there, RL_CREATE ends with its number). The clause asks only that
the device be live, and in N3, as in `asleep`, the model lets no started command go on: RL_CREATE is still in flight afterwards. -/
theorem not_railConnections : ¬ Obligations.RailConnections := by
  unfold Obligations.RailConnections
  rintro ⟨-, -, hreserved, -⟩
  obtain ⟨t, ht, hends⟩ := hreserved (asleep (railWork 0x40 (.create 2))) (railWork 0x40 (.create 2)) 2 rfl rfl rfl (by decide +kernel)
  obtain rfl : t = asleep (railWork 0x40 (.create 2)) := Host.Outcome.next.inj (ht.symm.trans (rlCreateUnitsReserved_asleep _))
  exact not_ends_of_item rfl hends

/-! ## The obligation on work requests -/

/-- Refutes O46, by its seventh clause (a fence with nothing before it ends once its turn comes). The clause asks only that the device be
live, and in N3, as in `asleep`, the model issues no queued request: the fence is still in flight afterwards. -/
theorem not_railRequests : ¬ Obligations.RailRequests := by
  unfold Obligations.RailRequests
  rintro ⟨-, -, -, -, -, -, hfence, -⟩
  obtain ⟨t, ht, hends⟩ := hfence (asleep (railWork 0x48 (.rail {}))) (railWork 0x48 (.rail {})) rfl rfl rfl rfl (by decide +kernel)
    (by decide +kernel) (by decide +kernel) (by decide +kernel)
  obtain rfl : t = asleep (railWork 0x48 (.rail {})) := Host.Outcome.next.inj (ht.symm.trans (railRequestIssue_asleep _))
  exact not_ends_of_item rfl hends

end Sys2Proof.Machine

/-! # Registrations and triggers

SUPPORT. What a registration, a revocation and a trigger counter come to (R559, R561, R565). -/

namespace Sys2Proof.Machine

section
variable {s : State} {w : Work} {g : Region} {k : Nat}

theorem State.slot_modSlot_same (s : State) (k : Nat) (f : RegSlot → RegSlot) : (s.modSlot k f).slot k = f (s.slot k) := tget_tmod_same ..

theorem State.slot_modSlot_other {f : RegSlot → RegSlot} {j : Nat} (h : j ≠ k) : (s.modSlot k f).slot j = s.slot j :=
  tget_tmod_other _ _ _ _ _ h

/-! ## Registering -/

/-- The generation of the next key: never 0 (R559). -/
def nextGen (s : State) : Nat := 1 + Config.random s.free % 65535

theorem nextGen_bounds (s : State) : 1 ≤ nextGen s ∧ nextGen s < 65536 := by
  unfold nextGen
  omega

/-- The registration a command asks for (R559). -/
def newSlot (w : Work) (s : State) : RegSlot :=
  { st := .registered, rights := BitVec.ofNat 3 (dat w.body 9 8), tenant := w.tenant, regionId := dat w.body 8 8,
    gen := BitVec.ofNat 16 (nextGen s), peerValid := (dat w.body 10 8).testBit 7, peer := dat w.body 10 7,
    peerInc := knownInc (dat w.body 10 7) s, offset := dat w.body 16 64, length := dat w.body 24 64, context := w.context, part := w.part }

/-- A range that a key may name: it lies in its region, in whole pages, with rights that exist (R559, R569). -/
def goodRange (w : Work) (g : Region) : Prop :=
  dat w.body 16 64 + dat w.body 24 64 ≤ g.size ∧ 1 ≤ dat w.body 9 8 ∧ dat w.body 9 8 ≤ 7 ∧ dat w.body 16 64 % 4096 = 0 ∧
  dat w.body 24 64 % 4096 = 0 ∧ dat w.body 24 64 ≠ 0

theorem rlRegister_good (hm : MayStart s w 0x49) (hr : s.region (dat w.body 8 8) = some g) (hp : g.part = w.part) (hg : goodRange w g)
    (hk : freeSlot s = some k) {P : State → Prop} (hP : P (s.fresh.modSlot k (fun _ => newSlot w s))) :
    Completes (.rlRegister w.wid) s (fun t => Ends w .ok (nextGen s * 65536 + k) t P) := by
  obtain ⟨hsize, h1, h7, hoff, hlen, hne⟩ := hg
  have hframe : OnlyChanges [.free, .rc] s (s.fresh.modSlot k (fun _ => newSlot w s)) :=
    ((onlyChanges_set_free s (s.free + 1)).mono (by simp)).trans ((modSlot_onlyChanges s.fresh k _).mono (by simp))
  refine completes_of_start (by rfl) hm ?_
  have hpart : (g.part != w.part) = false := by simp [hp]
  have hbad : (decide (dat w.body 16 64 + dat w.body 24 64 > g.size) || dat w.body 9 8 == 0 || decide (dat w.body 9 8 > 7) ||
      dat w.body 16 64 % 4096 != 0 || dat w.body 24 64 % 4096 != 0 || dat w.body 24 64 == 0) = false := by
    simp [hsize, h7, hoff, hlen, hne]
    omega
  simp only [hr, hpart, hbad, hk, firstFail, Option.isNone_some, Bool.false_eq_true, if_false, Option.getD_some]
  exact ends_of_complete hframe (by decide) (by decide) hP

theorem rlRegister_bad (hm : MayStart s w 0x49) (hr : s.region (dat w.body 8 8) = some g) (hp : g.part = w.part) (hg : ¬ goodRange w g) :
    Completes (.rlRegister w.wid) s (fun t => t = complete w .malformed 0x07 s ∧ OnlyChanges [.host, .work, .tt, .ft, .tn, .out] s t) := by
  have hpart : (g.part != w.part) = false := by simp [hp]
  have hbad : (decide (dat w.body 16 64 + dat w.body 24 64 > g.size) || dat w.body 9 8 == 0 || decide (dat w.body 9 8 > 7) ||
      dat w.body 16 64 % 4096 != 0 || dat w.body 24 64 % 4096 != 0 || dat w.body 24 64 == 0) = true := by
    by_contra h
    simp only [Bool.not_eq_true, Bool.or_eq_false_iff, decide_eq_false_iff_not, beq_eq_false_iff_ne, bne_eq_false_iff_eq] at h
    obtain ⟨⟨⟨⟨⟨hsize, h0⟩, h7⟩, hoff⟩, hlen⟩, hne⟩ := h
    exact hg ⟨by omega, by omega, by omega, hoff, hlen, hne⟩
  have hframe := complete_onlyChanges w .malformed 0x07 s 0
  refine completes_of_start (by rfl) hm ?_
  simp only [hr, hpart, hbad, firstFail, Bool.false_eq_true, if_false, if_true]
  rw [hframe.kept_eq (by decide) (by decide)]
  exact ⟨rfl, hframe⟩

/-! ## Revoking -/

/-- The slot a key names. -/
def keySlotOf (w : Work) : Nat := dat w.body 40 32 % 65536

/-- A revocation under way (R561). -/
def revoking (w : Work) (s : State) : State :=
  (s.setProg w.wid (.revoke (keySlotOf w))).modSlot (keySlotOf w) (fun x => { x with st := .revoking })

theorem revoking_onlyChanges (w : Work) (s : State) : OnlyChanges [.work, .rc] s (revoking w s) :=
  ((setProg_onlyChanges s w.wid _).mono (by simp)).trans ((modSlot_onlyChanges _ _ _).mono (by simp))

theorem revoking_slot (w : Work) (s : State) : (revoking w s).slot (keySlotOf w) = { s.slot (keySlotOf w) with st := .revoking } :=
  State.slot_modSlot_same ..

/-- What a list keeps once its only element of a kind has come to be so. -/
theorem filter_updateFirst {α : Type} {p q : α → Bool} {f : α → α} {l : List α} {a : α} (ha : l.find? p = some a) (hf : q (f a) = true)
    (hl : ∀ x ∈ l, q x = false) : (updateFirst p f l).filter q = [f a] := by
  induction l with
  | nil => cases ha
  | cons x l ih =>
    have hrest : l.filter q = [] := List.filter_eq_nil_iff.2 (fun y hy => by simp [hl y (by simp [hy])])
    cases hx : p x with
    | true =>
      obtain rfl : x = a := by simpa [hx] using ha
      simp [updateFirst, hx, hf, hrest]
    | false =>
      have ha' : l.find? p = some a := by simpa [hx] using ha
      simp [updateFirst, hx, hl x (by simp), ih ha' (fun y hy => hl y (by simp [hy]))]

/-- The stage of its work is nothing a completion reads. -/
theorem complete_prog (w : Work) (p : Prog) (st : Status) (r : Nat) (s : State) :
    complete { w with prog := p } st r s = complete w st r s := rfl

/-- A slot that a revocation has left. -/
def revokedNow (w : Work) (s : State) : State := (revoking w s).modSlot (keySlotOf w) (fun x => { x with st := .revoked })

theorem settleSlot_revoking (hi : s.item w.wid = some w) (h0 : (s.slot (keySlotOf w)).inFlight = 0)
    (hnone : ∀ x ∈ s.work, x.prog ≠ .revoke (keySlotOf w)) :
    settleSlot (keySlotOf w) (revoking w s) = complete w .ok 0 (revokedNow w s) := by
  have hwork : ((revokedNow w s).work.filter (fun x => match x.prog with | .revoke n => n == keySlotOf w | _ => false)) =
      [{ w with prog := .revoke (keySlotOf w) }] := by
    refine filter_updateFirst hi (by simp) (fun x hx => ?_)
    cases hx' : x.prog with
    | revoke n =>
      have hne : n ≠ keySlotOf w := fun h => hnone x hx (h ▸ hx')
      simp [hne]
    | _ => rfl
  rw [settleSlot, if_pos (by rw [revoking_slot]; exact ⟨rfl, h0⟩)]
  exact congrArg (fun l => l.foldl (fun s x => complete x .ok 0 s) (revokedNow w s)) hwork

theorem settleSlot_busy (h0 : (s.slot (keySlotOf w)).inFlight ≠ 0) : settleSlot (keySlotOf w) (revoking w s) = revoking w s := by
  rw [settleSlot, if_neg]
  rw [revoking_slot]
  exact fun h => h0 h.2

theorem revokedNow_onlyChanges (w : Work) (s : State) : OnlyChanges [.work, .rc] s (revokedNow w s) :=
  (revoking_onlyChanges w s).trans ((modSlot_onlyChanges _ _ _).mono (by simp))

theorem revokedNow_slot (w : Work) (s : State) :
    (revokedNow w s).slot (keySlotOf w) = { s.slot (keySlotOf w) with st := .revoked } ∧
    ∀ j, j ≠ keySlotOf w → (revokedNow w s).slot j = s.slot j := by
  refine ⟨?_, fun j hj => ?_⟩
  · rw [revokedNow, State.slot_modSlot_same, revoking_slot]
  · rw [revokedNow, State.slot_modSlot_other hj, revoking, State.slot_modSlot_other hj]
    rfl

theorem exec_rlRevoke (hm : MayStart s w 0x4A) : exec (.rlRevoke w.wid) s = .next (s.kept (
    if (s.slot (keySlotOf w)).st ≠ .free ∧ (s.slot (keySlotOf w)).tenant ≠ w.tenant then complete w .tenantMismatch 0 s
    else if (s.slot (keySlotOf w)).st = .free ∨ (s.slot (keySlotOf w)).gen.toNat ≠ dat w.body 40 32 / 65536 then complete w .keyInvalid 0 s
    else if (s.slot (keySlotOf w)).st = .revoked then complete w .ok 0 s
    else settleSlot (keySlotOf w) (revoking w s))) := by
  have hexec : exec (.rlRevoke w.wid) s = execRlRevoke w.wid s := rfl
  rw [hexec, execRlRevoke, start_of_mayStart hm]
  rfl

theorem rlRevoke_revokes (hm : MayStart s w 0x4A) (hst : (s.slot (keySlotOf w)).st = .registered)
    (ht : (s.slot (keySlotOf w)).tenant = w.tenant) (hg : (s.slot (keySlotOf w)).gen.toNat = dat w.body 40 32 / 65536)
    (hnone : ∀ x ∈ s.work, x.prog ≠ .revoke (keySlotOf w)) : Completes (.rlRevoke w.wid) s (fun t =>
      ((s.slot (keySlotOf w)).inFlight = 0 → Ends w .ok 0 t (fun u =>
        u.slot (keySlotOf w) = { s.slot (keySlotOf w) with st := .revoked } ∧
        (∀ j, j ≠ keySlotOf w → u.slot j = s.slot j) ∧ OnlyChanges [.work, .rc] s u)) ∧
      ((s.slot (keySlotOf w)).inFlight ≠ 0 → At w (.revoke (keySlotOf w)) t ∧
        t.slot (keySlotOf w) = { s.slot (keySlotOf w) with st := .revoking } ∧ OnlyChanges [.work, .rc] s t)) := by
  obtain ⟨hi, -, -, -⟩ := id hm
  refine ⟨_, exec_rlRevoke hm, fun h0 => ?_, fun h0 => ?_⟩ <;>
    rw [if_neg (by simp [ht]), if_neg (by simp [hst, hg]), if_neg (by simp [hst])]
  · rw [settleSlot_revoking hi h0 hnone]
    obtain ⟨hsame, hother⟩ := revokedNow_slot w s
    exact ends_of_complete (revokedNow_onlyChanges w s) (by decide) (by decide) ⟨hsame, hother, revokedNow_onlyChanges w s⟩
  · have hframe := revoking_onlyChanges w s
    rw [settleSlot_busy h0, hframe.kept_eq (by decide) (by decide)]
    refine ⟨?_, revoking_slot w s, hframe⟩
    exact (item_setProg s w.wid _).trans (by rw [hi]; rfl)

theorem rlRevoke_stale (hm : MayStart s w 0x4A) (ht : (s.slot (keySlotOf w)).tenant = w.tenant)
    (hg : (s.slot (keySlotOf w)).gen.toNat ≠ dat w.body 40 32 / 65536) : Completes (.rlRevoke w.wid) s (fun t =>
      t = complete w .keyInvalid 0 s ∧ OnlyChanges [.host, .work, .tt, .ft, .tn, .out] s t) := by
  have hframe := complete_onlyChanges w .keyInvalid 0 s 0
  refine ⟨_, exec_rlRevoke hm, ?_⟩
  rw [if_neg (by simp [ht]), if_pos (.inr hg), hframe.kept_eq (by decide) (by decide)]
  exact ⟨rfl, hframe⟩

/-! ## Trigger counters -/

/-- The counter a command names. -/
def trigOf (w : Work) : Nat := dat w.body 8 16

/-- A counter bound with its value, or released (R565). -/
def trigSet (w : Work) (x : Trig) : Trig :=
  if (dat w.body 16 8).testBit 0 then { x with bound := false } else { bound := true, tenant := w.tenant, value := BitVec.ofNat 32 (dat w.body 12 32) }

/-- The counter of a command set. -/
def withTrig (w : Work) (s : State) : State :=
  { s with rc := { s.rc with trigs := tput s.rc.trigs (trigOf w) (trigSet w (s.trig (trigOf w))) {} } }

theorem exec_rlTriggerSet (hm : MayStart s w 0x4B) : exec (.rlTriggerSet w.wid) s = .next (s.kept (
    if trigOf w < 4096 ∧ (s.trig (trigOf w)).bound = true ∧ (s.trig (trigOf w)).tenant ≠ w.tenant then complete w .tenantMismatch 0 s
    else if trigOf w ≥ 4096 then malformed w 0x09 s
    else complete w .ok 0 (withTrig w s))) := by
  have hexec : exec (.rlTriggerSet w.wid) s = execRlTriggerSet w.wid s := rfl
  rw [hexec, execRlTriggerSet, start_of_mayStart hm]
  rfl

theorem rlTriggerSet_sets (hm : MayStart s w 0x4B) (hn : trigOf w < 4096)
    (ht : (s.trig (trigOf w)).bound = false ∨ (s.trig (trigOf w)).tenant = w.tenant) : Completes (.rlTriggerSet w.wid) s (fun t =>
      Ends w .ok 0 t (fun u => u.trig (trigOf w) = trigSet w (s.trig (trigOf w)) ∧
        (∀ n, n ≠ trigOf w → u.trig n = s.trig n) ∧ OnlyChanges [.rc] s u)) := by
  have hframe : OnlyChanges [.rc] s (withTrig w s) := onlyChanges_set_rc s _
  have hmine : ¬ (trigOf w < 4096 ∧ (s.trig (trigOf w)).bound = true ∧ (s.trig (trigOf w)).tenant ≠ w.tenant) := by
    rintro ⟨-, hb, hne⟩
    rcases ht with h | h
    · simp [h] at hb
    · exact hne h
  refine ⟨_, exec_rlTriggerSet hm, ?_⟩
  rw [if_neg hmine, if_neg (by omega)]
  exact ends_of_complete hframe (by decide) (by decide) ⟨tget_tput_same .., fun n hne => tget_tput_other _ _ _ _ _ hne, hframe⟩

theorem rlTriggerSet_foreign (hm : MayStart s w 0x4B) (hn : trigOf w < 4096) (hb : (s.trig (trigOf w)).bound = true)
    (ht : (s.trig (trigOf w)).tenant ≠ w.tenant) : Completes (.rlTriggerSet w.wid) s (fun t =>
      t = complete w .tenantMismatch 0 s ∧ OnlyChanges [.host, .work, .tt, .ft, .tn, .out] s t) := by
  have hframe := complete_onlyChanges w .tenantMismatch 0 s 0
  refine ⟨_, exec_rlTriggerSet hm, ?_⟩
  rw [if_pos ⟨hn, hb, ht⟩, hframe.kept_eq (by decide) (by decide)]
  exact ⟨rfl, hframe⟩

end

end Sys2Proof.Machine

/-! # The obligation on registrations and triggers -/

namespace Sys2Proof.Machine

/-- Settles O45, by what each of the three commands does where its checks pass and where they fail. -/
theorem railKeysAndTriggers : Obligations.RailKeysAndTriggers := by
  unfold Obligations.RailKeysAndTriggers
  refine ⟨fun s w g k hm hr hp hsize h1 h7 hoff hlen hne hk => ?registers, fun s w g hm hr hp hbad => ?badRange,
    fun s w hm hst ht hg hnone => rlRevoke_revokes hm hst ht hg hnone, fun s w hm ht hg => rlRevoke_stale hm ht hg,
    fun s w hm hn ht => rlTriggerSet_sets hm hn ht, fun s w hm hn hb ht => rlTriggerSet_foreign hm hn hb ht⟩
  case registers =>
    obtain ⟨hlow, hhigh⟩ := nextGen_bounds s
    have hslot : (s.fresh.modSlot k (fun _ => newSlot w s)).slot k = newSlot w s := State.slot_modSlot_same ..
    refine (rlRegister_good hm hr hp ⟨hsize, h1, h7, hoff, hlen, hne⟩ hk (P := fun u => _) ?_).imp (fun t h => ⟨nextGen s, hlow, hhigh, h⟩)
    rw [hslot]
    refine ⟨rfl, Nat.mod_eq_of_lt hhigh, Nat.mod_eq_of_lt (by omega), rfl, rfl, rfl, rfl, rfl, fun j hj => State.slot_modSlot_other hj, ?_⟩
    exact ((onlyChanges_set_free s (s.free + 1)).mono (by simp)).trans ((modSlot_onlyChanges s.fresh k _).mono (by simp))
  case badRange =>
    refine rlRegister_bad hm hr hp ?_
    rintro ⟨hsize, h1, h7, hoff, hlen, hne⟩
    omega

end Sys2Proof.Machine

/-! # The sender of a handoff

SUPPORT. Messages of a handoff connection that take effect when they come, the three ways in which a handoff resolves, and the item that
leaves with a credit (R574, R581, R587, R590, R592, R604, R609). -/

namespace Sys2Proof.Machine

/-! ## A table mapped where it was last written -/

section
variable {α : Type} [DecidableEq α] {d : α} {f : Nat → α → α} {k : Nat}

omit [DecidableEq α] in
theorem tget_of_absent {t : Tab α} (h : ∀ x ∈ t, x.1 ≠ k) : tget t k d = d := by
  induction t with
  | nil => rfl
  | cons x r ih =>
    rw [tget, if_neg (h x List.mem_cons_self), ih (fun y hy => h y (List.mem_cons_of_mem _ hy))]

theorem tget_tmap_of_absent {t : Tab α} (h : ∀ x ∈ t, x.1 ≠ k) : tget (tmap t d f) k d = d := by
  refine tget_of_absent (fun x hx => ?_)
  obtain ⟨y, hy, heq⟩ := List.mem_filterMap.1 hx
  split at heq
  · cases heq
  · obtain rfl := Option.some.inj heq
    exact h y hy

theorem tget_tmap_tinsert {t : Tab α} (h : ∀ x ∈ t, x.1 ≠ k) (v : α) : tget (tmap (tinsert t k v) d f) k d = f k v := by
  have hfirst (r : Tab α) (hr : ∀ x ∈ r, x.1 ≠ k) : tget (tmap ((k, v) :: r) d f) k d = f k v := by
    rw [tmap, List.filterMap_cons]
    by_cases hv : f k v = d
    · simp only [hv, if_true]
      exact tget_tmap_of_absent hr
    · simp only [hv, if_false, tget, if_true]
  induction t with
  | nil => exact hfirst [] h
  | cons x r ih =>
    have hr : ∀ y ∈ r, y.1 ≠ k := fun y hy => h y (List.mem_cons_of_mem _ hy)
    rw [tinsert]
    split
    · exact hfirst _ h
    · rw [tmap, List.filterMap_cons]
      split
      · exact ih hr
      next y hy =>
        split at hy
        · cases hy
        · obtain rfl := Option.some.inj hy
          rw [tget, if_neg (h x List.mem_cons_self)]
          exact ih hr

/-- The value a table was last given at a key is the one the map changes there. -/
theorem tget_tmap_tput (hd : f k d = d) (t : Tab α) (v : α) : tget (tmap (tput t k v d) d f) k d = f k v := by
  have habsent : ∀ x ∈ terase t k, x.1 ≠ k := not_mem_terase t k
  rw [tput]
  split
  next hv => rw [tget_tmap_of_absent habsent, hv, hd]
  next => exact tget_tmap_tinsert habsent v

end

section
variable {s t u : State} {c i : Nat} {m : Ctl} {x : Sender} {w : Work} {ps : List Zone}

/-! ## Messages of a handoff connection -/

/-- A message that no other precedes takes effect where it names what it speaks of. -/
theorem completes_of_onConn {cmd : Instr} {ct : Byte} {ok : State → Bool} {f : State → State} {P : State → Prop}
    (hc : exec cmd s = onConn c ct m s ok f) (hon : HandoffOn c s) (hm : m.ctype = ct) (hok : ok s = true) (hP : P (s.kept (f s))) :
    Completes cmd s P := by
  obtain ⟨ha, h0, hh, hr⟩ := hon
  have htake (n : Nat) : mayTake c n m s = true := by simp [mayTake, hr]
  have hpop (n : Nat) : popMsg c n m s = s := by simp [popMsg, hr]
  have hlive : s.live = true := by
    simp only [State.awake, Bool.and_eq_true] at ha
    exact ha.1.1
  refine ⟨_, hc.trans (actIf_of_live hlive (by simp [ha, hm, h0, hh, htake])), ?_⟩
  simpa only [hpop, hok, if_true] using hP

theorem NamesSender.senderOf_eq (h : NamesSender m x s) : senderOf (s.entry m.sEntry) = x := by
  obtain ⟨-, hsnd, -⟩ := h
  simp [senderOf, hsnd]

theorem forSender_of_names {p : Entry → Bool} (h : NamesSender m x s) (hp : p (s.entry m.sEntry) = true) : forSender m p s = true := by
  obtain ⟨hst, hsnd, hq, he, ho, -⟩ := h
  simp [forSender, hst, hsnd, hq, he, ho, hp]

/-- The sender's side of an entry changes, and nothing else. -/
theorem modSender_changes {f : Sender → Sender} (hsnd : (s.entry i).snd = some x) :
    ChangesEntry [.tt] i (fun e => { e with snd := some (f x) }) s (modSender i f s) :=
  (modEntry_changesEntry i _ s).congr (by simp only [hsnd, Option.map_some])

/-! ## The handoff resolves -/

theorem applyPendingCancels_of_none {wids : List Nat} (h : (s.entry i).cancelPend = false) : applyPendingCancels i wids s = s := by
  simp [applyPendingCancels, h]

/-- An entry that its node keeps (R574, R592). -/
def keptEntry (node : Nat) (status : Byte) (e : Entry) : Entry :=
  { e with st := e.ret, ret := .free, epoch := e.epoch + 2, cause := status, node, snd := none }

/-- The state with the entry kept and counted. -/
def keptState (i : Nat) (status : Byte) (s : State) : State :=
  let u := putEntry i (keptEntry s.me status) s
  { u with ho := { u.ho with kept := u.ho.kept + 1 } }

theorem keptState_changes (i : Nat) (status : Byte) (s : State) :
    ChangesEntry [.tt, .ho] i (touched (keptEntry s.me status)) s (keptState i status s) :=
  ((putEntry_changesEntry i (keptEntry s.me status) s).mono (by simp)).then (onlyChanges_set_ho _ _) (by simp) (by simp)

theorem keptState_keptAt (i : Nat) (status : Byte) (s : State) : KeptAt i status s (keptState i status s) :=
  ⟨(keptState_changes i status s).own, (keptState_changes i status s).others, rfl⟩

/-- What leaves the Timetable and the handoffs alone leaves an entry kept. -/
theorem KeptAt.then {status : Byte} (h : KeptAt i status s t) (h' : OnlyChanges ps t u) (htt : .tt ∉ ps) (hho : .ho ∉ ps) : KeptAt i status s u := by
  obtain ⟨hown, hothers, hcount⟩ := h
  exact ⟨(h'.entry_eq htt i).trans hown, fun k hk => (h'.entry_eq htt k).trans (hothers k hk), (congrArg Handoff.kept (h'.ho_eq hho)).trans hcount⟩

/-- A handoff that went out by itself ends with an event (R592). -/
theorem resolveKept_of_alone {status : Byte} {st : Status} {n : Nat} (hx : senderOf (s.entry i) = x) (hw : x.wid = none)
    (hcp : (s.entry i).cancelPend = false) :
    KeptAt i status s (resolveKept i status st n s) ∧ OnlyChanges [.host, .tt, .ho, .out] s (resolveKept i status st n s) := by
  have hevent : OnlyChanges [.host, .out] (keptState i status s) (ttEvent 0x0109 i (keptState i status s) none n) := event_onlyChanges
  have hpend : ((ttEvent 0x0109 i (keptState i status s) none n).entry i).cancelPend = false := by
    rw [hevent.entry_eq (by simp), (keptState_changes i status s).own]
    exact hcp
  have heq : resolveKept i status st n s = ttEvent 0x0109 i (keptState i status s) none n := by
    simp only [resolveKept, hx, hw]
    exact applyPendingCancels_of_none hpend
  rw [heq]
  exact ⟨(keptState_keptAt i status s).then hevent (by simp) (by simp),
    ((keptState_changes i status s).frame.mono (by simp)).trans (hevent.mono (by simp))⟩

/-- An entry whose function is disabled goes on with another of its tenant (R696). -/
def reassigned (f : Nat) (s : State) (e : Entry) : Entry :=
  if e.st ≠ .free ∧ e.fn = f then { e with fn := tenantFn e.tenant s (some f) } else e

theorem finishDisable_entries (f : Nat) (s : State) :
    (finishDisable f s).tt.entries = tmap s.tt.entries {} (fun _ e => reassigned f s e) := rfl

theorem reassigned_cancelPend (f : Nat) (s : State) (e : Entry) : (reassigned f s e).cancelPend = e.cancelPend := by
  unfold reassigned
  split <;> rfl

theorem settleDisable_cancelPend {l : Tab Entry} {e : Entry} (hl : s.tt.entries = tput l i e {}) (f : Nat) :
    ((settleDisable f s).entry i).cancelPend = e.cancelPend := by
  unfold settleDisable
  split
  · rw [State.entry, finishDisable_entries, hl, tget_tmap_tput rfl, reassigned_cancelPend]
  · rw [State.entry, hl, tget_tput_same]

/-- So no completion makes a cancel wait for an entry. -/
theorem complete_cancelPend {l : Tab Entry} {e : Entry} (hl : s.tt.entries = tput l i e {}) (w : Work) (st : Status) (n : Nat) :
    ((complete w st n s).entry i).cancelPend = e.cancelPend := by
  refine settleDisable_cancelPend (l := l) ?_ w.fn
  rw [closeFor_tt]
  split
  · rw [settleRing_tt]
    (repeat' split) <;> simpa using hl
  · exact hl

/-- A TT_MOVE that waited completes with the outcome (R592). -/
theorem resolveKept_of_move {status : Byte} {st : Status} {n : Nat} (hx : senderOf (s.entry i) = x) (hw : x.wid = some w.wid)
    (hi : s.item w.wid = some w) (hcp : (s.entry i).cancelPend = false) : resolveKept i status st n s = complete w st n (keptState i status s) := by
  have hitem : (keptState i status s).item w.wid = some w :=
    (item_of_work_eq ((keptState_changes i status s).frame.work_eq (by simp)) _).trans hi
  have hpend : ((complete w st n (keptState i status s)).entry i).cancelPend = false := by
    rw [complete_cancelPend (i := i) rfl]
    exact hcp
  simp only [resolveKept, hx, hw]
  exact (congrArg (applyPendingCancels i x.cancels) (completeWid_of_item hitem st n)).trans (applyPendingCancels_of_none hpend)

/-- An entry whose request has moved (R574, R590). -/
def movedEntry (epoch : W32) (e : Entry) : Entry := { e with st := .stub, ret := .free, epoch, cause := 0, held := false, snd := none }

/-- The state with the entry a STUB, its list given back, and the move counted. -/
def movedState (i : Nat) (epoch : W32) (s : State) : State :=
  let u := putEntry i (movedEntry epoch) (returnReserve i (freeEntryList i s))
  { u with ho := { u.ho with moved := u.ho.moved + 1 } }

theorem movedState_changes (i : Nat) (epoch : W32) (s : State) :
    ChangesEntry [.groves, .waybill, .mem, .tt, .ho] i (fun e => touched (movedEntry epoch) (emptied e)) s (movedState i epoch s) :=
  (((emptied_changesEntry i s).mono (by decide)).trans ((putEntry_changesEntry i (movedEntry epoch) _).mono (by simp))).then
    (onlyChanges_set_ho _ _) (by simp) (by simp)

theorem movedState_movedAt (i : Nat) (epoch : W32) (s : State) : MovedAt i epoch s (movedState i epoch s) := by
  have hho : (returnReserve i (freeEntryList i s)).ho = s.ho := (emptied_changesEntry i s).frame.ho_eq (by decide)
  obtain ⟨-, hown, hothers⟩ := movedState_changes i epoch s
  rw [MovedAt, hown]
  exact ⟨rfl, rfl, rfl, rfl, rfl, rfl, rfl, rfl, hothers, congrArg (fun h => Handoff.moved h + 1) hho⟩

theorem movedState_entries (i : Nat) (epoch : W32) (s : State) : (movedState i epoch s).tt.entries =
    tput (returnReserve i (freeEntryList i s)).tt.entries i (touched (movedEntry epoch) ((returnReserve i (freeEntryList i s)).entry i)) {} := by
  unfold movedState
  generalize returnReserve i (freeEntryList i s) = u
  rfl

theorem movedState_cancelPend (epoch : W32) (h : (s.entry i).cancelPend = false) :
    (touched (movedEntry epoch) ((returnReserve i (freeEntryList i s)).entry i)).cancelPend = false := by
  rw [(emptied_changesEntry i s).own]
  exact h

/-- A request that moved without a TT_MOVE leaves its STUB. -/
theorem resolveMoved_of_alone {epoch : W32} (hx : senderOf (s.entry i) = x) (hw : x.wid = none) (hcp : (s.entry i).cancelPend = false) :
    resolveMoved i epoch s = movedState i epoch s := by
  have hpend : ((movedState i epoch s).entry i).cancelPend = false := by
    rw [(movedState_changes i epoch s).own]
    exact hcp
  simp only [resolveMoved, hx, hw]
  exact applyPendingCancels_of_none hpend

/-- A TT_MOVE that waited completes with the new owner's node and epoch. -/
theorem resolveMoved_of_move {epoch : W32} (hx : senderOf (s.entry i) = x) (hw : x.wid = some w.wid) (hi : s.item w.wid = some w)
    (hcp : (s.entry i).cancelPend = false) :
    resolveMoved i epoch s = complete w .ok ((s.entry i).node + epoch.toNat * 2 ^ 32) (movedState i epoch s) := by
  have hitem : (movedState i epoch s).item w.wid = some w :=
    (item_of_work_eq ((movedState_changes i epoch s).frame.work_eq (by simp)) _).trans hi
  have hnode : ((movedState i epoch s).entry i).node = (s.entry i).node := by
    rw [(movedState_changes i epoch s).own]
    rfl
  have hpend (n : Nat) : ((complete w .ok n (movedState i epoch s)).entry i).cancelPend = false := by
    rw [complete_cancelPend (movedState_entries i epoch s)]
    exact movedState_cancelPend epoch hcp
  simp only [resolveMoved, hx, hw]
  refine (congrArg (applyPendingCancels i x.cancels) (completeWid_of_item hitem .ok _)).trans ((applyPendingCancels_of_none (hpend _)).trans ?_)
  exact congrArg (fun n => complete w .ok (n + epoch.toNat * 2 ^ 32) (movedState i epoch s)) hnode

/-! ## Items, and the timer -/

theorem senderSend_onlyChanges (i : Nat) (ct st : Byte) (b : CtlBody) (s : State) : OnlyChanges [.rail, .rc, .ft] s (senderSend i ct st b s) :=
  connSend_onlyChanges _ _ _

/-- The sender's side once an item with that record has left (R587, R604, R609). -/
def Sender.itemSent (record : BitVec 128) (x : Sender) : Sender :=
  { x with
    sent := x.sent + 1, credits := x.credits - 1, records := x.records ++ [record],
    phase := if x.sent + 1 < x.items then .sending else .committed }

/-- An item leaves, and COMMIT follows the last one. -/
theorem sendItem_changes (hsnd : (s.entry i).snd = some x) (hp : x.phase = .sending) (b : Block) :
    ChangesEntry [.tt, .rail, .rc, .ho, .ft] i (fun e => { e with snd := some (x.itemSent b.record) }) s (sendItem i b s) ∧
    (sendItem i b s).ho.itemsTx = s.ho.itemsTx + 1 := by
  have hx : senderOf (s.entry i) = x := by simp [senderOf, hsnd]
  have hsend := senderSend_onlyChanges i 0x04 0 (.data x.sent [b]) s
  have hho := hsend.ho_eq (by simp)
  simp only [sendItem, hx, Sender.itemSent]
  generalize senderSend i 0x04 0 (.data x.sent [b]) s = u at hsend hho ⊢
  have hcount : OnlyChanges [.tt, .rail, .rc, .ho, .ft] s { u with ho := { u.ho with itemsTx := u.ho.itemsTx + 1 } } :=
    (hsend.mono (by simp)).trans ((onlyChanges_set_ho u _).mono (by simp))
  have hstart : ChangesEntry [.tt, .rail, .rc, .ho, .ft] i (fun e => e) s { u with ho := { u.ho with itemsTx := u.ho.itemsTx + 1 } } :=
    ⟨hcount, hsend.entry_eq (by simp) i, fun k _ => hsend.entry_eq (by simp) k⟩
  have hput (y : Sender) := hstart.trans ((modEntry_changesEntry i (fun e => { e with snd := some y }) _).mono (by simp))
  split
  · refine ⟨(hput _).congr ?_, congrArg (fun h => Handoff.itemsTx h + 1) hho⟩
    simp only [hp]
  · have hlast (y : Sender) (c : Nat) (m : Ctl) := connSend_onlyChanges c m (State.modEntry { u with ho := { u.ho with itemsTx := u.ho.itemsTx + 1 } } i
      (fun e => { e with snd := some y }))
    refine ⟨(hput _).then (hlast _ _ _) (by simp) (by simp), ?_⟩
    exact (congrArg Handoff.itemsTx ((hlast _ _ _).ho_eq (by simp))).trans (congrArg (fun h => Handoff.itemsTx h + 1) hho)

/-- A poisoned source loses the request (R590, R607). -/
theorem sourceLost_loses (hst : (s.entry i).st = .handoffOut) (hsnd : (s.entry i).snd = some x) (hw : x.wid = none) (hc : x.cancels = [])
    (ha : (s.entry i).askers = []) : ((sourceLost i s).entry i).st = .lost ∧ ((sourceLost i s).entry i).cause = 0x14 ∧
    ((sourceLost i s).entry i).list = 0 ∧ (∀ k, k ≠ i → (sourceLost i s).entry k = s.entry k) ∧
    (sourceLost i s).ho.outLost = s.ho.outLost + 1 := by
  have hsend := senderSend_onlyChanges i 0x07 0x14 .none s
  have hentry := hsend.entry_eq (by simp)
  unfold sourceLost
  generalize senderSend i 0x07 0x14 .none s = u at hsend hentry
  have hlost := toLost_changes (i := i) (s := u) (cause := 0x14) (o := none) (by simp [detached, hentry, hst])
  have hho : (toLost i 0x14 u).ho = s.ho := (hlost.frame.ho_eq (by decide)).trans (hsend.ho_eq (by simp))
  have hx : senderOf (u.entry i) = x := by rw [hentry, senderOf, hsnd]; rfl
  have hask : ((toLost i 0x14 u).entry i).askers = [] := by
    rw [hlost.own, hentry]
    exact ha
  have hend : resolveLost i u = ({ toLost i 0x14 u with ho := { (toLost i 0x14 u).ho with outLost := (toLost i 0x14 u).ho.outLost + 1 } } :
      State).modEntry i (fun e => { e with askers := [] }) := by
    have hnone : (({ toLost i 0x14 u with ho := { (toLost i 0x14 u).ho with outLost := (toLost i 0x14 u).ho.outLost + 1 } } : State).entry i).askers
      = [] := hask
    simp only [resolveLost, hx, hw, hc, List.foldl_nil, applyAskers, hnone]
  have hown := (hlost.trans (modEntry_changesEntry i (fun e => { e with askers := [] }) _ |>.mono (by decide)))
  rw [hend]
  refine ⟨?_, ?_, ?_, fun k hk => ?_, congrArg (fun h => Handoff.outLost h + 1) hho⟩
  · exact congrArg Entry.st hown.own
  · exact congrArg Entry.cause hown.own
  · exact congrArg Entry.list hown.own
  · exact (hown.others k hk).trans (hentry k)

/-- The entry of a sender that probes. -/
def probingState (i : Nat) (x : Sender) (s : State) : State :=
  let u := putEntry i (fun e => { e with snd := some { x with phase := .probing } }) s
  { u with ho := { u.ho with probes := u.ho.probes + 1 } }

theorem probingState_changes (i : Nat) (x : Sender) (s : State) : ChangesEntry [.tt, .ho] i
    (touched (fun e => { e with snd := some { x with phase := .probing } })) s (probingState i x s) :=
  ((putEntry_changesEntry i _ s).mono (by simp)).then (onlyChanges_set_ho _ _) (by simp) (by simp)

/-- The PROBE of an entry's handoff (R590). -/
def probeMsg (i : Nat) (x : Sender) (s : State) : Ctl :=
  { ctype := 0x09, sEntry := i, rEntry := x.rEntry, status := 0, reason := 0, reqId := (s.entry i).reqId, epoch := (s.entry i).epoch,
    origin := s.me, body := .none }

theorem sendProbe_eq (hsnd : (s.entry i).snd = some x) : sendProbe i s = mgmtSend (s.entry i).node (probeMsg i x s) (probingState i x s) := by
  have hx : senderOf (s.entry i) = x := by simp [senderOf, hsnd]
  simp only [sendProbe, hx]
  rfl

/-- PROBE leaves the entry probing. -/
theorem sendProbe_changes (hsnd : (s.entry i).snd = some x) : ChangesEntry [.tt, .ho, .rail, .rc, .ft] i
    (touched (fun e => { e with snd := some { x with phase := .probing } })) s (sendProbe i s) ∧
    (sendProbe i s).ho.probes = s.ho.probes + 1 := by
  have hsent := mgmtSend_onlyChanges (s.entry i).node (probeMsg i x s) (probingState i x s)
  rw [sendProbe_eq hsnd]
  exact ⟨((probingState_changes i x s).mono (by simp)).then hsent (by simp) (by simp), congrArg Handoff.probes (hsent.ho_eq (by simp))⟩

end

end Sys2Proof.Machine

/-! # The obligation on a handoff's sender -/

namespace Sys2Proof.Machine

section
variable {s t : State} {c i src : Nat} {m : Ctl} {x : Sender} {w : Work}

theorem live_of_awake (h : s.awake = true) : s.live = true := by
  simp only [State.awake, Bool.and_eq_true] at h
  exact h.1.1

/-- A resolution that the sender keeps, with and without a TT_MOVE that waits. -/
theorem resolveKept_outcome {status : Byte} {st : Status} {n : Nat} (hn : NamesSender m x s) :
    (x.wid = none → KeptAt m.sEntry status s (s.kept (resolveKept m.sEntry status st n s)) ∧
      OnlyChanges [.host, .tt, .ho, .out] s (s.kept (resolveKept m.sEntry status st n s))) ∧
    (∀ w : Work, x.wid = some w.wid → s.item w.wid = some w → Ends w st n (s.kept (resolveKept m.sEntry status st n s)) (fun u =>
      KeptAt m.sEntry status s u ∧ OnlyChanges [.tt, .ho] s u)) := by
  have hx := hn.senderOf_eq
  obtain ⟨-, -, -, -, -, hcp⟩ := hn
  refine ⟨fun hw => ?_, fun w hw hi => ?_⟩
  · obtain ⟨hkept, hframe⟩ := resolveKept_of_alone (status := status) (st := st) (n := n) hx hw hcp
    exact ⟨hkept, hframe.kept⟩
  · rw [resolveKept_of_move hx hw hi hcp]
    have hframe := (keptState_changes m.sEntry status s).frame
    exact ends_of_complete hframe (by simp) (by simp) ⟨keptState_keptAt _ _ _, hframe⟩

/-- A resolution that moves the request, with and without a TT_MOVE that waits. -/
theorem resolveMoved_outcome {e : W32} (hn : NamesSender m x s) (hsrc : (s.entry m.sEntry).node = src) :
    (x.wid = none → MovedAt m.sEntry e s (s.kept (resolveMoved m.sEntry e s)) ∧
      OnlyChanges [.groves, .waybill, .mem, .tt, .ho] s (s.kept (resolveMoved m.sEntry e s))) ∧
    (∀ w : Work, x.wid = some w.wid → s.item w.wid = some w → Ends w .ok (src + e.toNat * 2 ^ 32) (s.kept (resolveMoved m.sEntry e s)) (fun u =>
      MovedAt m.sEntry e s u ∧ OnlyChanges [.groves, .waybill, .mem, .tt, .ho] s u)) := by
  have hx := hn.senderOf_eq
  obtain ⟨-, -, -, -, -, hcp⟩ := hn
  have hframe := (movedState_changes m.sEntry e s).frame
  have hat := movedState_movedAt m.sEntry e s
  refine ⟨fun hw => ?_, fun w hw hi => ?_⟩
  · rw [resolveMoved_of_alone hx hw hcp]
    exact ⟨hat, hframe.kept⟩
  · rw [resolveMoved_of_move hx hw hi hcp, hsrc]
    exact ends_of_complete hframe (by simp) (by simp) ⟨hat, hframe⟩

theorem exec_handoffItemSend_eq (hst : (s.entry i).st = .handoffOut) (hsnd : (s.entry i).snd = some x) (ha : s.awake = true)
    (hp : x.phase = .sending) (hc : 0 < x.credits) (hs : x.sent < x.items) (l : List Byte) : exec (.handoffItemSend i l) s = .next (s.kept (
      if toCode x.sent s then
        if !hasCodec (s.entry i).part s then
          resolveKept i 0xFF .internal 0 (senderSend i 0x07 0xFF .none (itemDutyEmpty i s))
        else
          match (codeSource i x.sent s).1 with
          | none => sourceLost i (codeSource i x.sent s).2
          | some plain =>
            if needsStream (itemCodec i x.sent s) plain && !streamFits (itemCodec i x.sent s) plain l then s else
              sendItem i (codeBlock (itemCodec i x.sent s) (s.keysOf (s.entry i).tenant).remote.toNat (Config.random s.free)
                (sleeperKey s (s.entry i).tenant true) plain l)
                (countCoded (s.entry i).tenant (s.entry i).part (itemCodec i x.sent s) (codeBlock (itemCodec i x.sent s)
                  (s.keysOf (s.entry i).tenant).remote.toNat (Config.random s.free) (sleeperKey s (s.entry i).tenant true) plain l)
                  (codeSource i x.sent s).2.fresh)
      else match storedItem i x.sent s with
        | none => sourceLost i s
        | some b => sendItem i b s)) := by
  have hx : senderOf (s.entry i) = x := by simp [senderOf, hsnd]
  have hexec : exec (.handoffItemSend i l) s = execHandoffItemSend i l s := rfl
  rw [hexec, execHandoffItemSend]
  simp only [hx]
  exact actIf_of_live (live_of_awake ha) (by simp [ha, hst, hp, hc, hs])

/-- What an item that leaves makes of the state, from one in which only the coder has counted. -/
theorem sendItem_outcome {ps : List Zone} (hsnd : (s.entry i).snd = some x) (hp : x.phase = .sending) (hu : OnlyChanges ps s t) (htt : .tt ∉ ps)
    (hho : .ho ∉ ps) (b : Block) : (s.kept (sendItem i b t)).entry i = { s.entry i with snd := some (x.itemSent b.record) } ∧
    (∀ k, k ≠ i → (s.kept (sendItem i b t)).entry k = s.entry k) ∧ (s.kept (sendItem i b t)).ho.itemsTx = s.ho.itemsTx + 1 ∧
    OnlyChanges ([.tt, .rail, .rc, .ho, .ft] ++ ps) s (s.kept (sendItem i b t)) := by
  have hentry := hu.entry_eq htt
  obtain ⟨⟨hframe, hown, hothers⟩, hcount⟩ := sendItem_changes (i := i) (s := t) (by rw [hentry]; exact hsnd) hp b
  rw [hentry] at hown
  refine ⟨hown, fun k hk => (hothers k hk).trans (hentry k), hcount.trans (by rw [hu.ho_eq hho]), ?_⟩
  exact ((hu.mono (fun _ hz => List.mem_append_right _ hz)).trans (hframe.mono (fun _ hz => List.mem_append_left _ hz))).kept

end

/-- Settles O48, message by message: what each makes of the sender's entry, and how the handoff resolves. -/
theorem handoffSender : Obligations.HandoffSender := by
  unfold Obligations.HandoffSender
  refine ⟨?grant, ?credit, ?coded, ?stored, ?poisoned, ?refused, ?moved, ?notHeld, ?timer⟩
  case grant =>
    intro s c n h m x hon hm hn hc hph hb
    have hx := hn.senderOf_eq
    have hexec : exec (.grant c m) s = execGrant c m s := rfl
    rw [execGrant] at hexec
    refine completes_of_onConn hexec hon hm (forSender_of_names hn (by simp [hx, hc, hph])) ?_
    obtain ⟨-, hsnd, -⟩ := hn
    have hmod := modSender_changes (f := fun x => { x with phase := .sending, credits := n, rEntry := m.rEntry, rtt := s.clk.sc - x.offerSc - h }) hsnd
    simp only [hb]
    exact ⟨hmod.own, hmod.others, hmod.frame.kept⟩
  case credit =>
    intro s c n m x hon hm hn hc hb
    have hx := hn.senderOf_eq
    have hexec : exec (.credit c m) s = execCredit c m s := rfl
    rw [execCredit] at hexec
    refine completes_of_onConn hexec hon hm (forSender_of_names hn (by simp [hx, hc])) ?_
    obtain ⟨-, hsnd, -⟩ := hn
    have hmod := modSender_changes (f := fun x => { x with credits := x.credits + n }) hsnd
    simp only [hb]
    exact ⟨hmod.own, hmod.others, hmod.frame.kept⟩
  case coded =>
    intro s i x p l ha hst hsnd hph hcr hlt hcode hcodec hsrc hfits
    have hok : ¬ ((needsStream (itemCodec i x.sent s) p && !streamFits (itemCodec i x.sent s) p l) = true) := by
      cases hneed : needsStream (itemCodec i x.sent s) p
      · simp
      · simp [hfits hneed]
    refine ⟨_, exec_handoffItemSend_eq hst hsnd ha hph hcr hlt l, ?_⟩
    simp only [hcode, if_true, hcodec, Bool.not_true, Bool.false_eq_true, if_false, hsrc, if_neg hok]
    have hcoded (b : Block) : OnlyChanges [.sleeper, .ft, .free] s
        (countCoded (s.entry i).tenant (s.entry i).part (itemCodec i x.sent s) b s.fresh) :=
      ((fresh_onlyChanges s).mono (by simp)).trans ((countCoded_onlyChanges _ _ _ _ _).mono (by simp))
    obtain ⟨hown, hothers, hcount, hframe⟩ := sendItem_outcome hsnd hph (hcoded _) (by simp) (by simp) (codeBlock (itemCodec i x.sent s)
      (s.keysOf (s.entry i).tenant).remote.toNat (Config.random s.free) (sleeperKey s (s.entry i).tenant true) p l)
    exact ⟨⟨_, rfl, hown⟩, hothers, hcount, hframe.mono (by simp)⟩
  case stored =>
    intro s i x b l ha hst hsnd hph hcr hlt hcode hstored
    refine ⟨_, exec_handoffItemSend_eq hst hsnd ha hph hcr hlt l, ?_⟩
    simp only [hcode, Bool.false_eq_true, if_false, hstored]
    obtain ⟨hown, hothers, hcount, hframe⟩ := sendItem_outcome (ps := []) hsnd hph (.refl _ s) (by simp) (by simp) b
    exact ⟨hown, hothers, hcount, hframe.mono (by simp)⟩
  case poisoned =>
    intro s i x l ha hst hsnd hph hcr hlt hcode hcodec hsrc hw hcs has
    refine ⟨_, exec_handoffItemSend_eq hst hsnd ha hph hcr hlt l, ?_⟩
    simp only [hcode, if_true, hcodec, Bool.not_true, Bool.false_eq_true, if_false, hsrc]
    exact sourceLost_loses hst hsnd hw hcs has
  case refused =>
    intro s c m x cmd hon hn hc hph hcmd
    have hx := hn.senderOf_eq
    have hok : forSender m (fun e => (senderOf e).conn == c && (senderOf e).phase != .probing) s = true :=
      forSender_of_names hn (by simp [hx, hc, hph])
    rcases hcmd with ⟨rfl, hm⟩ | ⟨rfl, hm⟩
    · have hexec : exec (.refuse c m) s = execRefuse c m s := rfl
      rw [execRefuse] at hexec
      exact completes_of_onConn hexec hon hm hok (resolveKept_outcome hn)
    · have hexec : exec (.abort c m) s = execAbort c m s := rfl
      rw [execAbort, if_pos (by obtain ⟨-, -, -, -, ho, -⟩ := hn; exact ho)] at hexec
      exact completes_of_onConn hexec hon hm hok (resolveKept_outcome hn)
  case moved =>
    intro s src m x e cmd ha hr hn hsrc hcmd
    have hx := hn.senderOf_eq
    rcases hcmd with ⟨rfl, hm, hph, hb⟩ | ⟨rfl, hm, hph, hb⟩
    · have hexec : exec (.accept src m) s = execAccept src m s := rfl
      rw [execAccept] at hexec
      refine completes_of_mgmt hexec ha hm hr ?_
      simp only [forSender_of_names (p := fun e => e.node == src && ((senderOf e).phase == .committed || (senderOf e).phase == .probing)) hn
        (by simp [hx, hsrc, hph]), if_true, newEpochOf, hb]
      exact resolveMoved_outcome hn hsrc
    · have hexec : exec (.probeReply src m) s = execProbeReply src m s := rfl
      rw [execProbeReply] at hexec
      refine completes_of_mgmt hexec ha hm hr ?_
      simp only [forSender_of_names (p := fun e => e.node == src && (senderOf e).phase == .probing) hn (by simp [hx, hsrc, hph]), if_true, hb]
      exact resolveMoved_outcome hn hsrc
  case notHeld =>
    intro s src m x e ha hr hn hsrc hm hph hb hw
    have hx := hn.senderOf_eq
    have hexec : exec (.probeReply src m) s = execProbeReply src m s := rfl
    rw [execProbeReply] at hexec
    refine completes_of_mgmt hexec ha hm hr ?_
    simp only [forSender_of_names (p := fun e => e.node == src && (senderOf e).phase == .probing) hn (by simp [hx, hsrc, hph]), if_true, hb]
    exact (resolveKept_outcome hn).1 hw
  case timer =>
    intro s i x hl hst hsnd hph
    have hx : senderOf (s.entry i) = x := by simp [senderOf, hsnd]
    have hexec : exec (.handoffTimerExpire i) s = execHandoffTimerExpire i s := rfl
    rw [execHandoffTimerExpire] at hexec
    simp only [hx] at hexec
    obtain ⟨⟨hframe, hown, hothers⟩, hcount⟩ := sendProbe_changes hsnd
    have hprobe := sendProbe_eq hsnd
    refine completes_of_actIf hexec hl (by simpa [hst, hsnd] using hph) ?_
    generalize sendProbe i s = u at hframe hown hothers hcount hprobe ⊢
    exact ⟨hown, hothers, hcount, ⟨probingState i x s, (probingState_changes i x s).frame, congrArg s.kept hprobe⟩, hframe.kept⟩

end Sys2Proof.Machine

/-! # The receiver of a handoff

SUPPORT. The entry an OFFER takes, the item that is written in its turn, the entry that becomes owner, and the ways a handoff is refused or
abandoned (R593, R595 to R600, R605, R609). -/

namespace Sys2Proof.Machine

section
variable {s t u v : State} {c i j : Nat} {m : Ctl} {o : Offer} {r : Receiver} {b : Block} {ps : List Zone}

/-! ## Messages that name the receiver's side -/

theorem forReceiver_of_names (h : NamesReceiver c m i r s) : forReceiver c m s = true := by
  obtain ⟨hi, hst, hq, he, hr, hc, hx⟩ := h
  simp [forReceiver, hi, hst, hq, he, hr, hc, hx]

theorem NamesReceiver.getD_eq (h : NamesReceiver c m i r s) : m.rEntry.getD 0 = i := by
  obtain ⟨hi, -⟩ := h
  rw [hi, Option.getD_some]

/-- The receiver's side of an entry changes, and nothing else. -/
theorem modReceiver_changes {f : Receiver → Receiver} (hr : (s.entry i).rcv = some r) :
    ChangesEntry [.tt] i (fun e => { e with rcv := some (f r) }) s (modReceiver i f s) :=
  (modEntry_changesEntry i _ s).congr (by simp only [hr, Option.map_some])

theorem receiverOf_eq (hr : (s.entry i).rcv = some r) : receiverOf (s.entry i) = r := by simp [receiverOf, hr]

theorem rcvSend_onlyChanges (i : Nat) (ct st : Byte) (x : CtlBody) (s : State) : OnlyChanges [.rail, .rc, .ft] s (rcvSend i ct st x s) :=
  connSend_onlyChanges _ _ _

/-- A handoff that a check ends leaves its entry FREE, and counted (R599). -/
theorem rcvAbort_spec (i : Nat) (st : Byte) (s : State) :
    ((rcvAbort i st s).entry i).st = .free ∧ (rcvAbort i st s).ho.abandoned = s.ho.abandoned + 1 := by
  obtain ⟨hfree, hcount⟩ := abandon_spec i (rcvSend i 0x07 st .none s)
  exact ⟨hfree, hcount.trans (congrArg (fun h => Handoff.abandoned h + 1) ((rcvSend_onlyChanges i 0x07 st .none s).ho_eq (by simp)))⟩

/-! ## The OFFER -/

/-- The tally object that an admitted request takes (R615). -/
def offeredObj (c : Nat) (s : State) : Nat :=
  let t := s.tallyPool (s.conn c).part
  nthFree (t.held.foldl (fun l x => insertSorted x l) []) (Config.choice s.free % max 1 (t.count - t.held.length))

/-- What an admitted request reserves: its pages, and its tally object. -/
def offerReserved (c need : Nat) (s : State) : State :=
  let u := reservePages (s.ttregs (s.conn c).part).pool need s.fresh
  { u with ho := { u.ho with tally := tmod u.ho.tally (s.conn c).part {} (fun t => { t with held := t.held ++ [offeredObj c s] }) } }

/-- The entry that an admitted request takes on a GENERATION node (R595). -/
def offeredEntry (c : Nat) (m : Ctl) (o : Offer) (need w arrived : Nat) (s : State) (old : Entry) : Entry :=
  { version := old.version, st := .handoffIn, reqId := m.reqId, epoch := m.epoch, node := (s.conn c).peerNode,
    fn := tenantFn (s.conn c).tenant s, tenant := (s.conn c).tenant, part := (s.conn c).part, context := (s.conn c).context,
    budget := offerBudget o (s.clk.sc - arrived), priority := BitVec.ofNat 3 o.priority, deadlineKind := o.deadlineKind, met := o.met,
    promptLen := o.promptLen, prefilled := o.prefilled, genCount := o.genCount, genMax := o.genMax, length := o.length,
    specHeads := BitVec.ofNat 3 o.specHeads, prompt := BitVec.ofNat 64 noRef, sampling := BitVec.ofNat 64 noRef,
    tally := (s.tallyPool (s.conn c).part).base + BitVec.ofNat 64 (tallyStride * offeredObj c s), tallyObj := some (offeredObj c s),
    resPages := need, parcel := [], shape := some o, rcv := some { conn := c, epoch := m.epoch, sEntry := m.sEntry, offer := some o, window := w } }

/-- The state from which GRANT goes out. -/
def offerTaken (c : Nat) (m : Ctl) (o : Offer) (need w arrived i : Nat) (s : State) : State :=
  pfTouch (connStation c) (s.conn c).cls (putEntry i (offeredEntry c m o need w arrived s) (offerReserved c need s))

theorem admitOffer_eq {need w arrived : Nat} (hf : freeEntry (s.conn c).part (connStation c) s = some i) (hg : isGen s = true) :
    admitOffer c m o need w arrived s = connSend c (receiverMsg m (some i) 0x02 0 0 (.grant w (s.clk.sc - arrived)))
      (offerTaken c m o need w arrived i s) := by
  simp only [admitOffer, hf, hg, if_true]
  rfl

theorem offerReserved_onlyChanges (c need : Nat) (s : State) : OnlyChanges [.mem, .ho, .free] s (offerReserved c need s) :=
  ((fresh_onlyChanges s).mono (by simp)).trans (((modPool_onlyChanges _ _ _).mono (by simp)).trans ((onlyChanges_set_ho _ _).mono (by simp)))

theorem offerTaken_changes (c : Nat) (m : Ctl) (o : Offer) (need w arrived i : Nat) (s : State) :
    ChangesEntry [.mem, .tt, .ho, .free] i (touched (offeredEntry c m o need w arrived s)) s (offerTaken c m o need w arrived i s) :=
  (ChangesEntry.after (offerReserved_onlyChanges c need s) (by simp) (by simp) ((putEntry_changesEntry i _ _).mono (by simp))).then
    (onlyChanges_set_ho _ _) (by simp) (by simp)

theorem offerTaken_pool (c : Nat) (m : Ctl) (o : Offer) (need w arrived i : Nat) (s : State) :
    ((offerTaken c m o need w arrived i s).pool (s.ttregs (s.conn c).part).pool).reserved =
      (s.pool (s.ttregs (s.conn c).part).pool).reserved + need :=
  congrArg Pool.reserved (State.pool_modPool_same s.fresh (s.ttregs (s.conn c).part).pool (fun p => { p with reserved := p.reserved + need }))

theorem offerTaken_waiting (c : Nat) (m : Ctl) (o : Offer) (need w arrived i : Nat) (s : State) :
    (offerTaken c m o need w arrived i s).ho.waiting = s.ho.waiting := rfl

/-- What an admitted OFFER leaves: its entry in HANDOFF_IN, its reservations, and GRANT on its way (R595 to R597). -/
theorem admitOffer_spec {need w arrived : Nat} (hf : freeEntry (s.conn c).part (connStation c) s = some i) (hg : isGen s = true) :
    ChangesEntry [.mem, .tt, .rail, .rc, .ho, .ft, .free] i (touched (offeredEntry c m o need w arrived s)) s
      (admitOffer c m o need w arrived s) ∧
    ((admitOffer c m o need w arrived s).pool (s.ttregs (s.conn c).part).pool).reserved =
      (s.pool (s.ttregs (s.conn c).part).pool).reserved + need ∧
    (admitOffer c m o need w arrived s).ho.waiting = s.ho.waiting := by
  have hsend := connSend_onlyChanges c (receiverMsg m (some i) 0x02 0 0 (.grant w (s.clk.sc - arrived))) (offerTaken c m o need w arrived i s)
  have htaken := offerTaken_changes c m o need w arrived i s
  have hpool := offerTaken_pool c m o need w arrived i s
  have hwaiting := offerTaken_waiting c m o need w arrived i s
  rw [admitOffer_eq hf hg]
  generalize offerTaken c m o need w arrived i s = u at hsend htaken hpool hwaiting ⊢
  refine ⟨(htaken.mono (by simp)).then hsend (by simp) (by simp), ?_, (congrArg Handoff.waiting (hsend.ho_eq (by simp))).trans hwaiting⟩
  exact (congrArg (fun m => (tget m.pools (s.ttregs (s.conn c).part).pool {}).reserved) (hsend.mem_eq (by simp))).trans hpool

theorem decideOffer_admits {need w arrived : Nat} (ht : offerTests c o s = .ok need) (hw : stagingUnits c s = some w) :
    decideOffer c m o arrived s = (false, admitOffer c m o need w arrived s) := by simp only [decideOffer, ht, hw]

theorem countRefused_onlyChanges (p : Nat) (st : Status) (s : State) : OnlyChanges [.tt] s (countRefused p st s) := by
  unfold countRefused
  (repeat' split) <;> exact onlyChanges_set_tt s _

theorem countRefused_entries (p : Nat) (st : Status) (s : State) : (countRefused p st s).tt.entries = s.tt.entries := by
  unfold countRefused
  (repeat' split) <;> rfl

theorem refuseOffer_onlyChanges (c : Nat) (m : Ctl) (st : Status) (n : Nat) (s : State) : OnlyChanges [.rail, .rc, .ft] s (refuseOffer c m st n s) :=
  connSend_onlyChanges _ _ _

theorem exec_offer (c : Nat) (m : Ctl) (s : State) : exec (.offer c m) s = execOffer c m s := rfl

/-- An OFFER that comes on a connection which holds no other message is decided. -/
theorem completes_offer {P : State → Prop} (hon : HandoffOn c s) (hm : m.ctype = 0x01) (hb : m.body = .offer o)
    (hP : P (s.kept (if (decideOffer c m o s.clk.sc s).1 then
      { s with ho := { s.ho with waiting := s.ho.waiting ++ [{ conn := c, msg := m, sc := s.clk.sc }] } } else (decideOffer c m o s.clk.sc s).2))) :
    Completes (.offer c m) s P := by
  have hexec := exec_offer c m s
  rw [execOffer] at hexec
  refine completes_of_onConn hexec hon hm rfl ?_
  simpa only [hb] using hP

/-! ## Items -/

/-- The receiver's side once an item with that record has been written. -/
def Receiver.itemTaken (j : Nat) (record : BitVec 128) (freed : Nat) (r : Receiver) : Receiver :=
  { r with staged := r.staged.filter (fun x => x.1 != j), freed, records := r.records ++ [record] }

/-- An item has been written: it leaves the staged ones, and is counted (R596, R605). -/
def itemTaken (i j : Nat) (b : Block) (s : State) : State :=
  let u := modReceiver i (fun r => r.itemTaken j b.record (r.freed + 1)) s
  { u with ho := { u.ho with itemsRx := u.ho.itemsRx + 1 } }

theorem itemTaken_changes (hr : (s.entry i).rcv = some r) (j : Nat) (b : Block) :
    ChangesEntry [.tt, .ho] i (fun e => { e with rcv := some (r.itemTaken j b.record (r.freed + 1)) }) s (itemTaken i j b s) :=
  ((modReceiver_changes (f := fun r => r.itemTaken j b.record (r.freed + 1)) hr).mono (by simp)).then (onlyChanges_set_ho _ _) (by simp) (by simp)

/-- CREDIT goes out, or the units freed are kept for a later one (R605). -/
theorem returnCredits_changes (hr : (s.entry i).rcv = some r) :
    ∃ n, ChangesEntry [.tt, .rail, .rc, .ft] i (fun e => { e with rcv := some { r with freed := n } }) s (returnCredits i s) := by
  unfold returnCredits
  extract_lets x
  split
  · exact ⟨0, ((modReceiver_changes (f := fun r => { r with freed := 0 }) hr).mono (by simp)).then (rcvSend_onlyChanges _ _ _ _ _)
      (by simp) (by simp)⟩
  · refine ⟨r.freed, ⟨.refl _ s, ?_, fun _ _ => rfl⟩⟩
    change s.entry i = { s.entry i with rcv := some r }
    rw [← hr]

/-- Before its COMMIT a parcel is not accepted. -/
theorem tryAccept_of_uncommitted (hr : (s.entry i).rcv = some r) (hc : r.commit = none) : tryAccept i s = s := by
  simp only [tryAccept, receiverOf_eq hr, hc]

/-- An item that is written before COMMIT leaves its entry in HANDOFF_IN with the record appended. -/
theorem itemTaken_spec (hr : (v.entry i).rcv = some r) (hc : r.commit = none) (j : Nat) (b : Block) :
    ∃ n, ChangesEntry [.tt, .ho, .rail, .rc, .ft] i (fun e => { e with rcv := some (r.itemTaken j b.record n) }) v
        (tryAccept i (returnCredits i (itemTaken i j b v))) ∧
      (tryAccept i (returnCredits i (itemTaken i j b v))).ho.itemsRx = v.ho.itemsRx + 1 := by
  have htaken := itemTaken_changes hr j b
  have hcount : (itemTaken i j b v).ho.itemsRx = v.ho.itemsRx + 1 := rfl
  obtain ⟨n, hback⟩ := returnCredits_changes (s := itemTaken i j b v) (congrArg Entry.rcv htaken.own)
  have hsame : tryAccept i (returnCredits i (itemTaken i j b v)) = returnCredits i (itemTaken i j b v) :=
    tryAccept_of_uncommitted (congrArg Entry.rcv hback.own) hc
  rw [hsame]
  exact ⟨n, (htaken.mono (by simp)).trans (hback.mono (by simp)), (congrArg Handoff.itemsRx (hback.frame.ho_eq (by simp))).trans hcount⟩

/-- The item that is next is checked with its tenant's key and written. -/
theorem exec_handoffItemWritten_good (ha : s.awake = true) (hst : (s.entry i).st = .handoffIn) (hr : (s.entry i).rcv = some r)
    (hlen : r.records.length = j) (hfind : r.staged.find? (fun x => x.1 == j) = some (j, b)) (ho : r.offer = some o)
    (hcodec : hasCodec (s.entry i).part s = true) (harm : s.ft.inject.arm = false) {p : List Byte}
    (hck : checkBlock (s.keyInForce (s.entry i).tenant true) (sleeperKey s (s.entry i).tenant true) false b = .ok p)
    (hw : (if isCache s then some (storeItem i j b p (countExpanded (s.entry i).tenant (s.entry i).part b s))
      else writeItem i j o.refItems p (countExpanded (s.entry i).tenant (s.entry i).part b s)) = some v) :
    exec (.handoffItemWritten i j) s = .next (s.kept (tryAccept i (returnCredits i (itemTaken i j b v)))) := by
  have hexec : exec (.handoffItemWritten i j) s = execHandoffItemWritten i j s := rfl
  rw [hexec, execHandoffItemWritten]
  simp only [receiverOf_eq hr]
  rw [actIf_of_live (live_of_awake ha) (by simp [ha, hst, hlen])]
  simp only [hfind, ho, hcodec, Bool.not_true, Bool.false_eq_true, if_false, injectHit_of_unarmed _ _ harm, hck, hw]
  rfl

theorem itemFault_ho (i source : Nat) (st : Status) (domain d0 d1 : Nat) (inj : Bool) (s : State) :
    (itemFault i source st domain d0 d1 inj s).ho = s.ho :=
  (raiseErr'_contained (by simp) (by simp)).2.ho_eq (by simp)

/-- A handoff that ends with its entry FREE is counted over what stood before the check. -/
theorem abandoned_of_abort (i : Nat) (st : Byte) (h : u.ho = s.ho) :
    ((s.kept (rcvAbort i st u)).entry i).st = .free ∧ (s.kept (rcvAbort i st u)).ho.abandoned = s.ho.abandoned + 1 := by
  obtain ⟨hfree, hab⟩ := rcvAbort_spec i st u
  generalize rcvAbort i st u = t at hfree hab
  exact ⟨hfree, hab.trans (by rw [h])⟩

/-- An item that fails its check ends the handoff (R599). -/
theorem handoffItemWritten_bad (ha : s.awake = true) (hst : (s.entry i).st = .handoffIn) (hr : (s.entry i).rcv = some r)
    (hlen : r.records.length = j) (hfind : r.staged.find? (fun x => x.1 == j) = some (j, b)) (ho : r.offer = some o)
    (hcodec : hasCodec (s.entry i).part s = true) (harm : s.ft.inject.arm = false) {st : Status}
    (hck : checkBlock (s.keyInForce (s.entry i).tenant true) (sleeperKey s (s.entry i).tenant true) false b = .error st) :
    Completes (.handoffItemWritten i j) s (fun t => (t.entry i).st = .free ∧ t.ho.abandoned = s.ho.abandoned + 1) := by
  have hexec : exec (.handoffItemWritten i j) s = execHandoffItemWritten i j s := rfl
  rw [execHandoffItemWritten] at hexec
  simp only [receiverOf_eq hr] at hexec
  refine completes_of_actIf hexec (live_of_awake ha) (by simp [ha, hst, hlen]) ?_
  simp only [hfind, ho, hcodec, Bool.not_true, Bool.false_eq_true, if_false, injectHit_of_unarmed _ _ harm, hck]
  have hcount := (countFailed_onlyChanges (s.entry i).part st true 0 s).ho_eq (by simp)
  split
  · generalize countFailed (s.entry i).part st true 0 s = u at hcount
    exact abandoned_of_abort i st.code hcount
  · have hfault := (itemFault_ho i 0x05 st (20 + connStation r.conn) (placeDetail true 0) (connStation r.conn) false
      (countFailed (s.entry i).part st true 0 s)).trans hcount
    generalize itemFault i 0x05 st (20 + connStation r.conn) (placeDetail true 0) (connStation r.conn) false
      (countFailed (s.entry i).part st true 0 s) = u at hfault
    exact abandoned_of_abort i st.code hfault

/-! ## ACCEPT -/

theorem putHdr_onlyChanges (h : ListHdr) (a k x : Nat) (s : State) : OnlyChanges [.mem, .waybill] s (putHdr h a k x s) := by
  rw [putHdr]
  exact regionWrite_onlyChanges _ _ _ _

theorem liveList_onlyChanges (ref : Nat) (s : State) : OnlyChanges [.mem, .waybill] s (liveList ref s) := by
  unfold liveList
  split
  next h _ => exact putHdr_onlyChanges h 22 1 1 s
  next => exact .refl _ s

/-- The length the owner's entry takes from its list (R596). -/
def ownedLength (e : Entry) (r : Receiver) (s : State) : Nat :=
  match r.list.bind (listAt s) with | some h => h.commit | none => e.length

/-- The entry of a GENERATION node that has become owner of a request whose turn goes on (R382, R598). -/
def ownedEntry (r : Receiver) (len : Nat) (o : Offer) (s : State) (e : Entry) : Entry :=
  { e with
    st := .decode, epoch := r.epoch + 1, node := s.me, cause := 0, accepting := true, fromIndex := r.sEntry, fromNode := e.node,
    fromValid := true, fn := tenantFn e.tenant s, nextValid := false, length := len, list := BitVec.ofNat 64 (r.list.getD noRef), pages := r.drawn.length,
    met := e.met, turnEnded := o.turnEnded, rcv := none }

/-- The ACCEPT of an entry's new owner (R598). -/
def acceptMsg (i : Nat) (r : Receiver) (e : Entry) : Ctl :=
  { ctype := 0x08, sEntry := r.sEntry, rEntry := some i, status := 0, reason := 0, reqId := e.reqId, epoch := r.epoch, origin := e.node,
    body := .newEpoch (r.epoch + 1) }

/-- The state in which a GENERATION node has become owner, counted. -/
def ownedState (i : Nat) (r : Receiver) (o : Offer) (s : State) : State :=
  let v := liveList (r.list.getD noRef) s
  let u := putEntry i (ownedEntry r (ownedLength (s.entry i) r s) o s) v
  { u with ho := { u.ho with accepted := u.ho.accepted + 1 } }

theorem ownedState_changes (i : Nat) (r : Receiver) (o : Offer) (s : State) : (∃ len,
      ChangesEntry [.mem, .waybill, .tt, .ho] i (touched (ownedEntry r len o s)) s (ownedState i r o s)) ∧
    (ownedState i r o s).ho.accepted = s.ho.accepted + 1 := by
  have hlive := liveList_onlyChanges (r.list.getD noRef) s
  have hho := hlive.ho_eq (by simp)
  unfold ownedState
  generalize liveList (r.list.getD noRef) s = v at hlive hho
  exact ⟨⟨_, (ChangesEntry.after hlive (by simp) (by simp) ((putEntry_changesEntry i _ v).mono (by simp))).then (onlyChanges_set_ho _ _)
    (by simp) (by simp)⟩, congrArg (fun h => Handoff.accepted h + 1) hho⟩

theorem becomeOwner_eq (hr : (s.entry i).rcv = some r) (hc : isCache s = false) (ho : o.turnEnded = false) :
    becomeOwner i o s = ttEvent 0x0106 i (mgmtSend (s.entry i).node (acceptMsg i r (s.entry i)) (ownedState i r o s)) (some (s.entry i).reqId) := by
  unfold becomeOwner
  extract_lets e x cache ended s1 len s2 s3 h3 s4 s5
  have hx : x = r := receiverOf_eq hr
  have hcache : cache = false := hc
  have hended : ended = false := by simp [ended, ho]
  have hlist : s2 = liveList (r.list.getD noRef) s := by simp [s2, s1, hended, hcache, hx]
  have hlen : len = ownedLength (s.entry i) r s := by
    simp only [len, hcache, hx, Bool.false_eq_true, if_false]
    rfl
  have hput : s3 = putEntry i (ownedEntry r (ownedLength (s.entry i) r s) o s) (liveList (r.list.getD noRef) s) := by
    refine (congrArg (fun f => putEntry i f s2) (funext fun y => ?_)).trans (congrArg _ hlist)
    simp only [hcache, hended, hlen, hx, ownedEntry, Bool.false_eq_true, if_false, Bool.false_and, Bool.or_false]
  clear_value s3
  subst hput
  rw [if_neg (by simp [hended])]
  simp only [s5, s4, hx]
  rfl

/-- The receiver becomes owner, and ACCEPT goes out with its event (R598). -/
theorem becomeOwner_changes (hr : (s.entry i).rcv = some r) (hc : isCache s = false) (ho : o.turnEnded = false) :
    (∃ len, ChangesEntry [.host, .waybill, .mem, .tt, .rail, .rc, .ho, .ft, .out] i (touched (ownedEntry r len o s)) s
      (becomeOwner i o s)) ∧ (becomeOwner i o s).ho.accepted = s.ho.accepted + 1 := by
  obtain ⟨⟨len, howned⟩, hcount⟩ := ownedState_changes i r o s
  rw [becomeOwner_eq hr hc ho]
  generalize ownedState i r o s = u at howned hcount
  have hsend := mgmtSend_onlyChanges (s.entry i).node (acceptMsg i r (s.entry i)) u
  generalize mgmtSend (s.entry i).node (acceptMsg i r (s.entry i)) u = v at hsend
  have hevent : OnlyChanges [.host, .out] v (ttEvent 0x0106 i v (some (s.entry i).reqId)) := event_onlyChanges
  exact ⟨⟨len, ((howned.mono (by simp)).then hsend (by simp) (by simp)).then hevent (by simp) (by simp)⟩,
    (congrArg Handoff.accepted ((hevent.ho_eq (by simp)).trans (hsend.ho_eq (by simp)))).trans hcount⟩

/-- COMMIT of an entry: its budget is replaced and the record of it kept (R598, R609). -/
def committed (i n : Nat) (bud : W64) (dg : Digest) (s : State) : State :=
  modReceiver i (fun r => { r with commit := some (n, dg) }) (putEntry i (fun e => { e with budget := bud }) s)

theorem committed_changes (hr : (s.entry i).rcv = some r) (n : Nat) (bud : W64) (dg : Digest) : ChangesEntry [.tt] i
    (fun e => { e with version := e.version + 1, budget := bud, rcv := some { r with commit := some (n, dg) } }) s (committed i n bud dg s) := by
  have hput := putEntry_changesEntry i (fun e => { e with budget := bud }) s
  exact hput.trans (modReceiver_changes (f := fun r => { r with commit := some (n, dg) }) (by rw [hput.own]; exact hr))

/-- A COMMIT that names the receiver's side is taken, and the parcel accepted if it is whole. -/
theorem completes_commit {P : State → Prop} {n : Nat} {bud : W64} {dg : Digest} (hon : HandoffOn c s) (hm : m.ctype = 0x06)
    (hn : NamesReceiver c m i r s) (hb : m.body = .commit n bud dg) (hP : P (s.kept (tryAccept i (committed i n bud dg s)))) :
    Completes (.commit c m) s P := by
  have hexec : exec (.commit c m) s = execCommit c m s := rfl
  rw [execCommit] at hexec
  refine completes_of_onConn hexec hon hm (forReceiver_of_names hn) ?_
  simp only [hb, hn.getD_eq]
  exact hP

end

end Sys2Proof.Machine

/-! # The obligation on a handoff's receiver -/

namespace Sys2Proof.Machine

section
variable {s : State} {c i : Nat} {m : Ctl} {o : Offer} {r : Receiver} {b : Block}

/-- An OFFER that waited is decided again once enough units are free (R597). -/
theorem handoffUnitsReserved_admits {need w : Nat} {x : WaitOffer} (ha : s.awake = true) (hx : waitingOffer c s = some x)
    (hb : x.msg.body = .offer o) (hh : (s.conn c).handoff = true) (hu : stagingUnits c (dropWaiting c s) = some w)
    (ht : offerTests c o (dropWaiting c s) = .ok need) (hu' : stagingUnits c s = some w) :
    exec (.handoffUnitsReserved c) s = .next (s.kept (admitOffer c x.msg o need w x.sc (dropWaiting c s))) := by
  have hexec : exec (.handoffUnitsReserved c) s = execHandoffUnitsReserved c s := rfl
  rw [hexec, execHandoffUnitsReserved, actIf_of_live (live_of_awake ha) ha]
  simp only [hx, hb, hh, hu', decideOffer_admits ht hu, Bool.not_true, Bool.false_or, Option.isNone_some, Bool.false_eq_true, if_false]

theorem accepted_of_whole {n : Nat} {bud : W64} (hr : (s.entry i).rcv = some r) (ho : r.offer = some o) (hn : o.items = n)
    (hlen : n ≤ r.records.length) (hc : isCache s = false) (he : o.turnEnded = false) :
    (∃ len, ChangesEntry [.host, .groves, .waybill, .mem, .tt, .rail, .rc, .ho, .ft, .out] i (fun e => touched (ownedEntry
        { r with commit := some (n, parcelDigest r.records) } len o (committed i n bud (parcelDigest r.records) s))
        { e with version := e.version + 1, budget := bud, rcv := some { r with commit := some (n, parcelDigest r.records) } }) s
      (tryAccept i (committed i n bud (parcelDigest r.records) s))) ∧
    (tryAccept i (committed i n bud (parcelDigest r.records) s)).ho.accepted = s.ho.accepted + 1 := by
  have htaken := committed_changes hr n bud (parcelDigest r.records)
  have hcache : isCache (committed i n bud (parcelDigest r.records) s) = false := hc
  have hho : (committed i n bud (parcelDigest r.records) s).ho = s.ho := htaken.frame.ho_eq (by simp)
  generalize committed i n bud (parcelDigest r.records) s = u at htaken hcache hho
  have hrcv : (u.entry i).rcv = some { r with commit := some (n, parcelDigest r.records) } := congrArg Entry.rcv htaken.own
  have heq : tryAccept i u = becomeOwner i o u := by
    simp only [tryAccept, receiverOf_eq hrcv, ho, hn, ne_eq, not_true_eq_false, if_false, if_neg (Nat.not_lt.2 hlen)]
  obtain ⟨⟨len, howned⟩, hcount⟩ := becomeOwner_changes hrcv hcache he
  rw [heq]
  exact ⟨⟨len, (htaken.mono (by simp)).trans (howned.mono (by simp))⟩, hcount.trans (by rw [hho])⟩

theorem abort_abandons (hon : HandoffOn c s) (hm : m.ctype = 0x07) (hn : NamesReceiver c m i r s) (ho : m.origin ≠ s.me) :
    Completes (.abort c m) s (fun t => (t.entry i).st = .free ∧ t.ho.abandoned = s.ho.abandoned + 1) := by
  have hexec : exec (.abort c m) s = execAbort c m s := rfl
  rw [execAbort, if_neg ho] at hexec
  refine completes_of_onConn hexec hon hm (forReceiver_of_names hn) ?_
  rw [hn.getD_eq]
  exact abandon_spec i s

theorem acceptAcknowledged_quiet (hl : s.live = true) (hacc : (s.entry i).accepting = true) (hout : acceptOut i s = false)
    (hask : (s.entry i).askers = []) (hrace : (s.entry i).raceHit = none) (hw : ∀ w ∈ s.work, w.prog ≠ .boundary i) :
    Completes (.acceptAcknowledged i) s (fun t =>
      t.entry i = { s.entry i with version := (s.entry i).version + 1, accepting := false } ∧ (∀ k, k ≠ i → t.entry k = s.entry k) ∧
      OnlyChanges [.tt] s t) := by
  have hexec : exec (.acceptAcknowledged i) s = execAcceptAcknowledged i s := rfl
  rw [execAcceptAcknowledged] at hexec
  have hput := putEntry_changesEntry i (fun e => { e with accepting := false }) s
  have hquiet : (putEntry i (fun e => { e with accepting := false }) s).work.filter (fun w => w.prog == .boundary i) = [] :=
    List.filter_eq_nil_iff.2 (fun w hm => by simpa using hw w hm)
  refine completes_of_actIf hexec hl (by simp [hacc, hout]) ?_
  rw [entryBoundary_of_quiet hquiet (by rw [hput.own]; exact hask) (by rw [hput.own]; exact hrace)]
  have hall := hput.trans (modEntry_changesEntry i (fun e => { e with askers := [] }) _)
  refine ⟨hall.own.trans ?_, hall.others, hall.frame.kept⟩
  simp only [touched, ← hask]

end

/-- Settles O49, message by message: the OFFER by its tests and the units left, each item by its check, COMMIT by what has been written. -/
theorem handoffReceiver : Obligations.HandoffReceiver := by
  unfold Obligations.HandoffReceiver
  refine ⟨?admitted, ?refused, ?waits, ?unitsReserved, ?waitedTooLong, ?staged, ?itemZero, ?cached, ?badItem, ?early, ?accepted,
    fun s c i m r hon hm hn ho => abort_abandons hon hm hn ho,
    fun s i hl hacc hout hask hrace hw => acceptAcknowledged_quiet hl hacc hout hask hrace hw⟩
  case admitted =>
    intro s c need w i m o hon hm hb ht hu hf hg
    obtain ⟨⟨hframe, hown, hothers⟩, hpool, -⟩ := admitOffer_spec (m := m) (o := o) (need := need) (w := w) (arrived := s.clk.sc) hf hg
    have heq := admitOffer_eq (m := m) (o := o) (need := need) (w := w) (arrived := s.clk.sc) hf hg
    rw [Nat.sub_self] at heq
    refine completes_offer hon hm hb ?_
    rw [decideOffer_admits ht hu, if_neg (by simp)]
    generalize admitOffer c m o need w s.clk.sc s = t at hframe hown hothers hpool heq
    simp only [State.kept_entry, State.kept_pool, hown]
    exact ⟨rfl, rfl, rfl, rfl, rfl, rfl, rfl, rfl, ⟨_, rfl, rfl, rfl, rfl, rfl, rfl, rfl⟩, hothers, hpool, ⟨_, congrArg s.kept heq⟩, hframe.kept⟩
  case refused =>
    intro s c n m o st box hon hm hb ht
    refine completes_offer hon hm hb ?_
    have hbox : OnlyChanges [.tt] s (if box then countRefused (s.conn c).part st s else s) ∧
        (if box then countRefused (s.conn c).part st s else s).tt.entries = s.tt.entries := by
      cases box
      · exact ⟨.refl _ s, rfl⟩
      · exact ⟨countRefused_onlyChanges _ _ _, countRefused_entries _ _ _⟩
    simp only [decideOffer, ht, Bool.false_eq_true, if_false]
    generalize (if box then countRefused (s.conn c).part st s else s) = u at hbox
    obtain ⟨hframe, hentries⟩ := hbox
    have hsend := refuseOffer_onlyChanges c m st n u
    exact ⟨(congrArg Timetable.entries (hsend.tt_eq (by simp))).trans hentries, ⟨u, hframe, rfl⟩,
      ((hframe.mono (by simp)).trans (hsend.mono (by simp))).kept⟩
  case waits =>
    intro s c need m o hon hm hb ht hu
    refine completes_offer hon hm hb ?_
    simp only [decideOffer, ht, hu, if_true]
    exact ⟨rfl, (onlyChanges_set_ho s _).kept⟩
  case unitsReserved =>
    intro s c need w i x o ha hx hb hh hu ht hu' hf hg
    have hdrop : OnlyChanges [.ho] s (dropWaiting c s) := onlyChanges_set_ho s _
    obtain ⟨⟨hframe, hown, hothers⟩, -, hwait⟩ := admitOffer_spec (s := dropWaiting c s) (m := x.msg) (o := o) (need := need) (w := w)
      (arrived := x.sc) hf hg
    have heq := admitOffer_eq (s := dropWaiting c s) (m := x.msg) (o := o) (need := need) (w := w) (arrived := x.sc) hf hg
    refine ⟨_, handoffUnitsReserved_admits ha hx hb hh hu ht hu', ?_⟩
    generalize admitOffer c x.msg o need w x.sc (dropWaiting c s) = t at hframe hown hothers hwait heq
    simp only [State.kept_entry, hown]
    exact ⟨rfl, rfl, hothers, hwait, ⟨_, congrArg s.kept heq⟩, ((hdrop.mono (by simp)).trans hframe).kept⟩
  case waitedTooLong =>
    intro s c x hl hx
    have hexec : exec (.handoffPlatformWaitExpire c) s = execHandoffPlatformWaitExpire c s := rfl
    rw [execHandoffPlatformWaitExpire] at hexec
    have hsend := refuseOffer_onlyChanges c x.msg .platformExhausted 0x0A (dropWaiting c s)
    refine completes_of_act hexec hl ?_
    simp only [hx]
    exact ⟨rfl, hsend.tt_eq (by simp), congrArg Handoff.waiting (hsend.ho_eq (by simp)),
      (((onlyChanges_set_ho s _).mono (by simp)).trans (hsend.mono (by simp))).kept⟩
  case staged =>
    intro s c i n m r b hon hm hn hb
    have hi := hn.getD_eq
    have hexec : exec (.handoffData c m) s = execHandoffData c m s := rfl
    rw [execHandoffData] at hexec
    refine completes_of_onConn hexec hon hm (forReceiver_of_names hn) ?_
    obtain ⟨-, -, -, -, hr, -, -⟩ := hn
    simp only [hb, hi]
    have hmod := modReceiver_changes (f := fun r => { r with
      staged := r.staged ++ (List.range [b].length).zipWith (fun j b => (n + j, b)) [b] }) hr
    exact ⟨hmod.own, hmod.others, hmod.frame.kept⟩
  case itemZero =>
    intro s i r o b p ha hst hr hrec hfind ho hcom hcodec hcache harm hck
    have hcount := countExpanded_onlyChanges (s.entry i).tenant (s.entry i).part b s
    have hput := (hcount.changesEntry (by simp) i).mono (qs := [.sleeper, .ft, .tt]) (by simp) |>.trans
      ((putEntry_changesEntry i (itemZero (ofBytes p)) _).mono (by simp))
    have hho : (putEntry i (itemZero (ofBytes p)) (countExpanded (s.entry i).tenant (s.entry i).part b s)).ho = s.ho := hput.frame.ho_eq (by simp)
    have hexec := exec_handoffItemWritten_good ha hst hr (by rw [hrec]; rfl) hfind ho hcodec harm hck
      (v := putEntry i (itemZero (ofBytes p)) (countExpanded (s.entry i).tenant (s.entry i).part b s))
      (by rw [hcache, if_neg (by simp), writeItem, if_pos rfl])
    refine ⟨_, hexec, ?_⟩
    generalize putEntry i (itemZero (ofBytes p)) (countExpanded (s.entry i).tenant (s.entry i).part b s) = v at hput hho
    obtain ⟨n, htaken, hrx⟩ := itemTaken_spec (v := v) (r := r) (by rw [hput.own]; exact hr) hcom 0 b
    have hall := (hput.mono (qs := [.sleeper, .tt, .rail, .rc, .ho, .ft]) (by simp)).trans (htaken.mono (by simp))
    have hmem := hall.frame.mem_eq (by simp)
    generalize tryAccept i (returnCredits i (itemTaken i 0 b v)) = t at hall hrx hmem
    simp only [State.kept_entry, hall.own]
    exact ⟨hst, rfl, rfl, rfl, ⟨_, rfl, by rw [Receiver.itemTaken, hrec]; rfl, rfl⟩, hall.others, hrx.trans (by rw [hho]), hmem, hall.frame.kept⟩
  case cached =>
    intro s i j q g r o b p ha hst hr hlen hj hfind ho hcom hcodec hcache harm hplace hck
    have hcount := countExpanded_onlyChanges (s.entry i).tenant (s.entry i).part b s
    have hmem := hcount.mem_eq (by simp)
    have hexec := exec_handoffItemWritten_good ha hst hr hlen hfind ho hcodec harm hck
      (v := storeItem i j b p (countExpanded (s.entry i).tenant (s.entry i).part b s)) (by rw [hcache, if_pos rfl])
    have hstore : storeItem i j b p (countExpanded (s.entry i).tenant (s.entry i).part b s) =
        regionWrite g (placeRec g q) (leBytes 16 b.record.toNat) (regionWrite g (4096 * q) (b.stored.take (recStored b.record))
          (countExpanded (s.entry i).tenant (s.entry i).part b s)) := by
      rw [storeItem, if_neg hj, show placeAt (stateRegions ((countExpanded (s.entry i).tenant (s.entry i).part b s).entry i).part
        (countExpanded (s.entry i).tenant (s.entry i).part b s)) (nth ((countExpanded (s.entry i).tenant (s.entry i).part b s).entry i).parcel j 0)
        = some (g, q) from hplace]
    rw [hstore] at hexec
    refine ⟨_, hexec, ?_⟩
    generalize countExpanded (s.entry i).tenant (s.entry i).part b s = u at hcount hmem
    have hwritten : OnlyChanges [.sleeper, .ft, .mem, .waybill] s (regionWrite g (placeRec g q) (leBytes 16 b.record.toNat)
        (regionWrite g (4096 * q) (b.stored.take (recStored b.record)) u)) :=
      (hcount.mono (by simp)).trans (((regionWrite_onlyChanges _ _ _ _).mono (by simp)).trans ((regionWrite_onlyChanges _ _ _ _).mono (by simp)))
    have hhbm : (regionWrite g (placeRec g q) (leBytes 16 b.record.toNat) (regionWrite g (4096 * q) (b.stored.take (recStored b.record)) u)).mem.hbm =
        regionPut g (placeRec g q) (leBytes 16 b.record.toNat) (regionPut g (4096 * q) (b.stored.take (recStored b.record)) s.mem.hbm) := by
      rw [← hmem]
      rfl
    generalize regionWrite g (placeRec g q) (leBytes 16 b.record.toNat) (regionWrite g (4096 * q) (b.stored.take (recStored b.record)) u) = v
      at hwritten hhbm
    obtain ⟨n, htaken, hrx⟩ := itemTaken_spec (v := v) (r := r) (by rw [hwritten.entry_eq (by simp)]; exact hr) hcom j b
    have hall := ((hwritten.changesEntry (by simp) i).mono (qs := [.sleeper, .waybill, .mem, .tt, .rail, .rc, .ho, .ft]) (by simp)).trans
      (htaken.mono (by simp))
    have hsame := htaken.frame.mem_eq (by simp)
    generalize tryAccept i (returnCredits i (itemTaken i j b v)) = t at hall hrx hsame
    exact ⟨(congrArg Mem.hbm hsame).trans hhbm, ⟨_, congrArg Entry.rcv hall.own, rfl⟩, hrx.trans (by rw [hwritten.ho_eq (by simp)]), hall.others,
      hall.frame.kept⟩
  case badItem =>
    intro s i j r o b st ha hst hr hlen hfind ho hcodec harm hck
    exact handoffItemWritten_bad ha hst hr hlen hfind ho hcodec harm hck
  case early =>
    intro s c i n bud dg m r o hon hm hn hb ho hitems hlt
    refine completes_commit hon hm hn hb ?_
    obtain ⟨-, -, -, -, hr, -, -⟩ := hn
    have htaken := committed_changes hr n bud dg
    generalize committed i n bud dg s = u at htaken
    have hrcv : (u.entry i).rcv = some { r with commit := some (n, dg) } := congrArg Entry.rcv htaken.own
    have hwait : tryAccept i u = u := by
      simp only [tryAccept, receiverOf_eq hrcv, ho, hitems, ne_eq, not_true_eq_false, if_false, if_pos hlt]
    rw [hwait]
    exact ⟨htaken.own, htaken.others, htaken.frame.kept⟩
  case accepted =>
    intro s c i n bud m r o hon hm hn hb ho hitems hlen hcache hended
    refine completes_commit hon hm hn hb ?_
    obtain ⟨-, -, -, -, hr, -, -⟩ := hn
    obtain ⟨⟨len, hframe, hown, hothers⟩, hcount⟩ := accepted_of_whole (bud := bud) hr ho hitems hlen hcache hended
    generalize tryAccept i (committed i n bud (parcelDigest r.records) s) = t at hframe hown hothers hcount
    simp only [State.kept_entry, hown]
    exact ⟨rfl, rfl, rfl, rfl, rfl, rfl, rfl, rfl, rfl, hothers, hcount, hframe.kept⟩

end Sys2Proof.Machine

/-! # A query's batches

SUPPORT. Batches of distances given to Stands, the nodes to visit cut into batches, and the search that goes on or ends (R627, R634). -/

namespace Sys2Proof.Machine

section
variable {s t u : State} {w : Work} {q p : QueryOp} {ps : List Zone}

theorem OnlyChanges.cs_eq (h : OnlyChanges ps s t) (hp : .cs ∉ ps) : t.cs = s.cs := of_decide_eq_true (h .cs hp)

/-! ## Batches that wait go to Stands -/

/-- The nodes of batches, in order. -/
def nodesOf (l : List DistBatch) : List (List Nat) := l.map (fun b => b.nodes)

/-- A query of which only the Stands of its batches have changed. -/
def BatchesFed (q p : QueryOp) : Prop := p = { q with live := p.live } ∧ nodesOf p.live = nodesOf q.live

theorem BatchesFed.refl (q : QueryOp) : BatchesFed q q := ⟨rfl, rfl⟩

theorem BatchesFed.trans {r : QueryOp} (h : BatchesFed q p) (h' : BatchesFed p r) : BatchesFed q r := by
  obtain ⟨hp, hn⟩ := h
  obtain ⟨hr, hn'⟩ := h'
  exact ⟨by rw [hr, hp], hn'.trans hn⟩

theorem BatchesFed.flatMap_nodes (h : BatchesFed q p) : p.live.flatMap (fun b => b.nodes) = q.live.flatMap (fun b => b.nodes) := by
  obtain ⟨-, hn⟩ := h
  exact congrArg List.flatten hn

theorem BatchesFed.length (h : BatchesFed q p) : p.live.length = q.live.length := by
  obtain ⟨-, hn⟩ := h
  simpa [nodesOf] using congrArg List.length hn

theorem feedLive_nodes (w : Work) (l : List DistBatch) (s : State) : nodesOf (feedLive w l s).1 = nodesOf l := by
  induction l generalizing s with
  | nil => rfl
  | cons b r ih =>
    rw [feedLive]
    simp only [nodesOf, List.map_cons]
    congr 1
    · split <;> rfl
    · exact ih _

theorem feedLive_onlyChanges (w : Work) (l : List DistBatch) (s : State) : OnlyChanges [.groves] s (feedLive w l s).2 := by
  induction l generalizing s with
  | nil => exact .refl _ s
  | cons b r ih =>
    rw [feedLive]
    refine OnlyChanges.trans ?_ (ih _)
    split
    · exact modStand_onlyChanges _ _ _ _
    · exact .refl _ s

theorem feedBatch_onlyChanges (s : State) (n : Nat) : OnlyChanges [.work, .groves] s (feedBatch s n) := by
  unfold feedBatch
  split
  · exact .refl _ s
  · split
    · exact ((feedLive_onlyChanges _ _ _).mono (by simp)).trans ((setProg_onlyChanges _ _ _).mono (by simp))
    · exact .refl _ s

theorem feedBatches_onlyChanges (n : Nat) (s : State) : OnlyChanges [.work, .groves] s (feedBatches n s) :=
  onlyChanges_foldl (fun u k => feedBatch_onlyChanges u k) _ s

/-- A query in flight stays so while batches of its partition go to Stands. -/
theorem feedBatch_at (h : At w (.query q) s) (n : Nat) : ∃ p, BatchesFed q p ∧ At w (.query p) (feedBatch s n) := by
  unfold feedBatch
  split
  · exact ⟨q, .refl q, h⟩
  next x hx =>
    split
    next o ho =>
      have hkeep (k : Nat) : (feedLive x o.live s).2.item k = s.item k :=
        item_of_work_eq ((feedLive_onlyChanges x o.live s).work_eq (by simp)) k
      by_cases hn : n = w.wid
      · subst hn
        obtain rfl : { w with prog := .query q } = x := Option.some.inj (h.symm.trans hx)
        obtain rfl : q = o := by simpa using ho
        refine ⟨{ q with live := (feedLive { w with prog := .query q } q.live s).1 }, ⟨rfl, feedLive_nodes ..⟩, ?_⟩
        rw [At, item_setProg, hkeep, h]
        rfl
      · refine ⟨q, .refl q, ?_⟩
        rw [At, item_setProg_other (Ne.symm hn), hkeep]
        exact h
    next => exact ⟨q, .refl q, h⟩

theorem feedBatches_at (h : At w (.query q) s) (n : Nat) : ∃ p, BatchesFed q p ∧ At w (.query p) (feedBatches n s) := by
  unfold feedBatches
  generalize (s.work.filter (fun w => w.part == n)).map (fun w => w.wid) = l
  induction l generalizing s q with
  | nil => exact ⟨q, .refl q, h⟩
  | cons k r ih =>
    obtain ⟨p, hp, hat⟩ := feedBatch_at h k
    obtain ⟨p', hp', hat'⟩ := ih hat
    exact ⟨p', hp.trans hp', hat'⟩

/-- A query that has left the device does not return. -/
theorem feedBatch_gone (h : Gone w s) (n : Nat) : Gone w (feedBatch s n) := by
  unfold feedBatch
  split
  · exact h
  next x hx =>
    split
    next o _ =>
      have hkeep : (feedLive x o.live s).2.item w.wid = s.item w.wid :=
        item_of_work_eq ((feedLive_onlyChanges x o.live s).work_eq (by simp)) _
      by_cases hn : n = w.wid
      · rw [Gone] at h
        rw [hn, h] at hx
        cases hx
      · rw [Gone, item_setProg_other (Ne.symm hn), hkeep]
        exact h
    · exact h

theorem feedBatches_gone (h : Gone w s) (n : Nat) : Gone w (feedBatches n s) := by
  unfold feedBatches
  generalize (s.work.filter (fun w => w.part == n)).map (fun w => w.wid) = l
  induction l generalizing s with
  | nil => exact h
  | cons k r ih => exact ih (feedBatch_gone h k)

/-! ## The nodes to visit, cut into batches -/

/-- Pieces in order and what they leave make up the list. -/
theorem pieces_flatten (k n m : Nat) (l : List Nat) : ((QueryOp.cut.pieces k n l).take m).flatten ++
    l.drop (k * ((QueryOp.cut.pieces k n l).take m).length) = l := by
  induction n generalizing l m with
  | zero => simp [QueryOp.cut.pieces]
  | succ n ih =>
    rw [QueryOp.cut.pieces]
    split
    next h => simp [List.isEmpty_iff.1 h]
    next =>
      cases m with
      | zero => simp
      | succ m =>
        have hdrop : l.drop (k * ((QueryOp.cut.pieces k n (l.drop k)).take m).length.succ) =
            (l.drop k).drop (k * ((QueryOp.cut.pieces k n (l.drop k)).take m).length) := by
          rw [List.drop_drop, Nat.mul_succ, Nat.add_comm]
        rw [List.take_succ_cons, List.flatten_cons, List.length_cons, hdrop, List.append_assoc, ih, List.take_append_drop]

theorem pieces_length_le (k n : Nat) (l : List Nat) : ∀ x ∈ QueryOp.cut.pieces k n l, x.length ≤ k := by
  induction n generalizing l with
  | zero => simp [QueryOp.cut.pieces]
  | succ n ih =>
    rw [QueryOp.cut.pieces]
    split
    · simp
    · intro x hx
      rcases List.mem_cons.1 hx with rfl | hx
      · exact List.length_take_le ..
      · exact ih _ x hx

/-- Where nodes are left over, every piece is whole and none is missing. -/
theorem pieces_full {k n m : Nat} {l : List Nat} (h : l.drop (k * ((QueryOp.cut.pieces k n l).take m).length) ≠ []) :
    ((QueryOp.cut.pieces k n l).take m).length = min n m ∧ ∀ x ∈ (QueryOp.cut.pieces k n l).take m, x.length = k := by
  induction n generalizing l m with
  | zero => simp [QueryOp.cut.pieces]
  | succ n ih =>
    rw [QueryOp.cut.pieces] at h ⊢
    split at h
    next hl => simp [List.isEmpty_iff.1 hl] at h
    next hl =>
      rw [if_neg hl]
      cases m with
      | zero => simp
      | succ m =>
        rw [List.take_succ_cons, List.length_cons] at h ⊢
        have hroom : k * (((QueryOp.cut.pieces k n (l.drop k)).take m).length + 1) < l.length :=
          Nat.lt_of_not_le (fun hle => h (List.drop_eq_nil_of_le hle))
        have hrest : (l.drop k).drop (k * ((QueryOp.cut.pieces k n (l.drop k)).take m).length) ≠ [] := by
          rwa [List.drop_drop, Nat.add_comm, ← Nat.mul_succ]
        obtain ⟨hlen, hall⟩ := ih hrest
        refine ⟨by omega, fun x hx => ?_⟩
        rcases List.mem_cons.1 hx with rfl | hx
        · rw [List.length_take]
          rw [Nat.mul_succ] at hroom
          omega
        · exact hall x hx

/-- The batches a query is cut into now. -/
def newPieces (h : IdxHdr) (q : QueryOp) : List (List Nat) := (QueryOp.cut.pieces h.degree 2 q.toVisit).take (2 - q.live.length)

theorem cut_nodes (q : QueryOp) (w : Work) (h : IdxHdr) (s : State) : nodesOf (q.cut w h s).live = nodesOf q.live ++ newPieces h q := by
  simp only [QueryOp.cut, nodesOf, List.map_append, List.map_map, newPieces]
  congr 1
  refine (congrArg (fun f => List.map f _) (funext fun _ => rfl)).trans (List.zipIdx_map_fst _ _)

theorem cut_toVisit (q : QueryOp) (w : Work) (h : IdxHdr) (s : State) :
    (q.cut w h s).toVisit = q.toVisit.drop (h.degree * (newPieces h q).length) := rfl

/-- The batches with the nodes left are the nodes there were. -/
theorem cut_flatMap (q : QueryOp) (w : Work) (h : IdxHdr) (s : State) :
    (q.cut w h s).live.flatMap (fun b => b.nodes) ++ (q.cut w h s).toVisit = q.live.flatMap (fun b => b.nodes) ++ q.toVisit := by
  have hnodes := congrArg List.flatten (cut_nodes q w h s)
  rw [List.flatten_append] at hnodes
  rw [cut_toVisit, List.flatMap_def, List.flatMap_def]
  refine (congrArg (· ++ _) hnodes).trans ((List.append_assoc ..).trans ?_)
  exact congrArg _ (pieces_flatten ..)

theorem cut_length (q : QueryOp) (w : Work) (h : IdxHdr) (s : State) : (q.cut w h s).live.length = q.live.length + (newPieces h q).length := by
  simpa [nodesOf] using congrArg List.length (cut_nodes q w h s)

/-- No more than two batches are in flight that were not before. -/
theorem newPieces_length_le (h : IdxHdr) (q : QueryOp) : (newPieces h q).length ≤ 2 - q.live.length := List.length_take_le ..

/-! ## Counters -/

/-- The progress of a query that its beam and its counters do not touch. -/
structure SameSearch (q p : QueryOp) : Prop where
  live    : p.live = q.live
  toVisit : p.toVisit = q.toVisit
  limit   : p.limit = q.limit

/-- Nodes are visited in order (R627). -/
theorem visitAll_spec (ef : Nat) (tomb : Nat → Bool) (d : Nat × Nat → Nat) (l : List (Nat × Nat)) (q : QueryOp) :
    (l.foldl (fun q x => q.visit ef (tomb x.1) (x.1, d x)) q).visited = (l.map Prod.fst).reverse ++ q.visited ∧
    SameSearch q (l.foldl (fun q x => q.visit ef (tomb x.1) (x.1, d x)) q) := by
  induction l generalizing q with
  | nil => exact ⟨rfl, rfl, rfl, rfl⟩
  | cons x r ih =>
    obtain ⟨hv, hl, ht, hm⟩ := ih (q.visit ef (tomb x.1) (x.1, d x))
    refine ⟨?_, hl, ht, hm⟩
    rw [List.foldl_cons, hv, List.map_cons, List.reverse_cons, List.append_assoc]
    rfl

/-! ## The search goes on -/

/-- With nodes to visit or batches in flight, and a SEARCH Stand, batches are cut and given to Stands (R634). -/
theorem searchOn_spec {g : Region} {h : IdxHdr} (hi : s.item w.wid = some w) (hmore : ¬ (q.toVisit = [] ∧ q.live = []))
    (hs : standsOf w.part 2 s ≠ []) : ∃ p, BatchesFed (q.cut w h s) p ∧ At w (.query p) (searchOn w g h q s) ∧
      OnlyChanges [.work, .groves] s (searchOn w g h q s) := by
  have heq : searchOn w g h q s = feedBatches w.part (s.setProg w.wid (.query (q.cut w h s))) := by
    simp only [searchOn, List.isEmpty_iff, hmore, hs, if_false]
  obtain ⟨p, hp, hat⟩ := feedBatches_at (at_setProg (p := .query (q.cut w h s)) hi) w.part
  rw [heq]
  exact ⟨p, hp, hat, ((setProg_onlyChanges _ _ _).mono (by simp)).trans (feedBatches_onlyChanges _ _)⟩

/-- A search that MAX_VISITS ends, once its last batch is in (R627). -/
theorem searchOn_ends {g : Region} {h : IdxHdr} (ht : q.toVisit = []) (hl : q.live = []) (hm : q.limit = true) :
    searchOn w g h q s = finishQuery w g h q false s := by
  simp [searchOn, ht, hl, QueryOp.next, hm]

theorem endQuery_spec (w : Work) (q : QueryOp) (st : Status) (n : Nat) (s : State) : Gone w (endQuery w q st n s) ∧
    (endQuery w q st n s).cs.queries = s.cs.queries + 1 ∧ (endQuery w q st n s).cs.visits = s.cs.visits ∧
    (endQuery w q st n s).mem = s.mem := by
  have hframe := complete_onlyChanges w st n
    { s with cs := { s.cs with queries := s.cs.queries + 1, short := s.cs.short + b2n (st == .okShort) } } q.cnt.faultRef
  exact ⟨complete_item .., congrArg Clearing.queries (hframe.cs_eq (by simp)), (congrArg Clearing.visits (hframe.cs_eq (by simp))).trans rfl,
    hframe.mem_eq (by simp)⟩

/-- Eight bytes for each node of the result. -/
theorem length_records (l : List (Nat × Nat)) : (l.flatMap (fun x => leBytes 4 x.1 ++ leBytes 4 x.2)).length = 8 * l.length := by
  induction l with
  | nil => rfl
  | cons x r ih =>
    rw [List.flatMap_cons, List.length_append, ih]
    simp [leBytes]
    omega

/-- A query without a filter ends with its results written and nothing else of HBM (R630, R637). -/
theorem finishQuery_writes {g r : Region} {h : IdxHdr} {ex : Bool} {id off : Nat} (hf : (queryOf w).filter = false)
    (hd : (queryOf w).dest = .hbm id off) (hr : s.region id = some r) : Gone w (finishQuery w g h q ex s) ∧
    (finishQuery w g h q ex s).cs.queries = s.cs.queries + 1 ∧ (finishQuery w g h q ex s).cs.visits = s.cs.visits ∧
    ∀ a, (∀ i < 8 * (queryOf w).k, a ≠ regionAddr r (off + i)) → hbmByte (finishQuery w g h q ex s) a = hbmByte s a := by
  unfold finishQuery
  extract_lets o all kept out short v result
  have hbytes : ∀ a, (∀ i < 8 * (queryOf w).k, a ≠ regionAddr r (off + i)) → hbmByte v a = hbmByte s a := by
    intro a ha
    simp only [v]
    split
    · rfl
    · have hlen : (out.flatMap (fun x => leBytes 4 x.1 ++ leBytes 4 x.2)).length ≤ 8 * (queryOf w).k := by
        rw [length_records]
        exact Nat.mul_le_mul_left 8 (List.length_take_le ..)
      simp only [o, hd, refWrite, hr]
      exact memGet_regionPut_other _ _ _ _ _ (fun i hi => ha i (Nat.lt_of_lt_of_le hi hlen))
  have hcs : v.cs = s.cs := by
    simp only [v]
    split
    · rfl
    · exact (refWrite_onlyChanges _ _ _ _).cs_eq (by simp)
  rw [if_neg (by simp [o, hf])]
  obtain ⟨hgone, hq, hv, hmem⟩ := endQuery_spec w q (if short then .okShort else if q.recomp then .okRecomputed else .ok) result v
  refine ⟨hgone, hq.trans (by rw [hcs]), hv.trans (by rw [hcs]), fun a ha => ?_⟩
  rw [← hbytes a ha, hbmByte, hmem, hbmByte]

end

end Sys2Proof.Machine

/-! # Clearing

SUPPORT. The checks of a query, the reads of its context, the batch that ends, and the index that is loaded or loses nodes (R618, R622 to
R637). -/

namespace Sys2Proof.Machine

section
variable {s t u : State} {w : Work} {q : QueryOp} {g : Region} {x : Nat × Nat} {y : TileSt} {obs : TileObs} {c : Comp} {ps : List Zone}

/-! ## The Stands of a duty -/

theorem standsOf_congr (hi : t.img = s.img) (h : ∀ g l, (t.stand g l).physical = (s.stand g l).physical ∧ (t.stand g l).duty = (s.stand g l).duty)
    (p d : Nat) : standsOf p d t = standsOf p d s := by
  unfold standsOf
  simp only [hi, h]

theorem standsOf_of_groves (hi : t.img = s.img) (hg : t.groves = s.groves) (p d : Nat) : standsOf p d t = standsOf p d s :=
  standsOf_congr hi (fun g l => by rw [stand_of_groves_eq hg]; exact ⟨rfl, rfl⟩) p d

/-- A Stand keeps its physical Stand and its duty where its counters change. -/
theorem modStand_keepsDuty {f : Stand → Stand} (hf : ∀ z, (f z).physical = z.physical ∧ (f z).duty = z.duty) (s : State) (a b g l : Nat) :
    ((s.modStand a b f).stand g l).physical = (s.stand g l).physical ∧ ((s.modStand a b f).stand g l).duty = (s.stand g l).duty := by
  unfold State.stand State.modStand
  dsimp only
  by_cases hk : 100 * g + l = 100 * a + b
  · rw [hk, tget_tmod_same]
    exact hf _
  · rw [tget_tmod_other _ _ _ _ _ hk]
    exact ⟨rfl, rfl⟩

theorem countRegs_standsOf (x : Nat × Nat) (y : TileSt) (kind fmt gc : Nat) (l : Lines) (v : Verdict) (s : State) (p d : Nat) :
    standsOf p d (countRegs x y kind fmt gc l v s) = standsOf p d s := by
  refine standsOf_congr ((countRegs_onlyChanges x y kind fmt gc l v s).img_eq (by simp)) (fun g l => ?_) p d
  exact modStand_keepsDuty (f := fun z => { z with
    busy := false, tiles := z.tiles + 1, activeGc := z.activeGc + gc,
    stallGc := z.stallGc + ((s.clk.sc - y.since) * 4 / groveDivider x.1 s - gc),
    fails := if decide (kind ≠ 0) then satBv z.fails 1 else z.fails }) (fun _ => ⟨rfl, rfl⟩) s x.1 x.2 g l

/-- A first computation that passes: its output is to be written, and the Stands are those there were. -/
theorem runTile_of_passing (h : FirstRun y x) (hp : passing obs c) (hr : retiringStand s x = false) (hi : s.ft.inject.arm = false)
    (rk : RunKind) (fmt gc : Nat) (ins : List (Ref × Nat)) : ∃ u, runTile w x y rk fmt gc ins none obs c s =
      { verdict := passedVerdict x y c.out, lines := c.lines, fr := 0, state := u } ∧ OnlyChanges [.groves, .ft, .free] s u ∧
      ∀ p d, standsOf p d u = standsOf p d s := by
  have hframe := (runTile_passes (w := w) h hp hr hi rk fmt gc ins).frame
  have hkind := failKind_of_passing hp
  have hv := judge_first_passes h (onFail s) (recomputeLimit s) c.out
  obtain ⟨hsram, hhbm, -⟩ := hp
  have heq := runTile_eq (w := w) ⟨hsram, hhbm⟩ hi hr rk fmt gc ins hkind hv rfl (by simp [passedVerdict])
  rw [heq] at hframe
  refine ⟨_, heq, hframe, fun p d => ?_⟩
  have huse (v : State) : standsOf p d (countUse w gc v) = standsOf p d v :=
    standsOf_of_groves ((countUse_onlyChanges w gc v).img_eq (by simp)) (countUse_groves w gc v) p d
  rw [huse, countRun_eq, passedVerdict_charge, List.foldl_nil, countRegs_standsOf]
  exact standsOf_of_groves ((readFor_onlyChanges obs s).img_eq (by simp)) (readFor_groves obs s) p d

/-! ## The reads of a context -/

theorem hbmFault_of_quiet (hi : s.ft.inject.arm = false) (ins : List (Ref × Nat)) : hbmFault w ins {} s = (false, 0, countHbmCorrected 0 s) :=
  hbmInjected_of_unarmed (s := countHbmCorrected 0 s) hi ins

/-- An uncorrectable line that a descriptor read is marked, and a contained error opened (R675). -/
theorem hbmFault_of_bad {o : HbmObs} {a : Nat} {ins : List (Ref × Nat)} (hb : o.bad = some a) (hr : readsHbm s ins a = true) :
    ∃ fr v, hbmFault w ins o s = (true, fr, v) ∧ v.ft.fault = true ∧ tget v.mem.poison (a / 64) false = true ∧
      OnlyChanges [.mem, .ft, .power, .host, .out] s v := by
  have hfound : hbmFound o (readsHbm s ins) s = (some a, markLine a (countHbmCorrected o.corrected s)) := by
    simp only [hbmFound, hb, hr, if_true]
    rfl
  have hmarked : OnlyChanges [.mem, .ft] s (markLine a (countHbmCorrected o.corrected s)) :=
    ((onlyChanges_set_ft s _).mono (by simp)).trans ((onlyChanges_set_mem (countHbmCorrected o.corrected s) _).mono (by simp))
  have hpoison : tget (markLine a (countHbmCorrected o.corrected s)).mem.poison (a / 64) false = true := by
    simp only [markLine, tget_tput_same]
  simp only [hbmFault, hfound, hbmRaise]
  generalize markLine a (countHbmCorrected o.corrected s) = v at hmarked hpoison
  obtain ⟨hfault, hraised⟩ := raiseErr'_contained (s := v) (e := { hbmErr a false with
    ctx := some w.context, tenant := w.tenant, part := w.part, who := w.fn, waits := closersOf w }) (by simp [hbmErr]) (by simp [hbmErr])
  refine ⟨_, _, rfl, hfault, ?_, (hmarked.mono (by simp)).trans (hraised.mono (by simp))⟩
  exact (congrArg (fun m => tget m.poison (a / 64) false) (hraised.mem_eq (by simp))).trans hpoison

/-- What ends may name the record of a fault. -/
theorem ends_of_complete_with {v : State} {P : State → Prop} {st : Status} {n : Nat} {fr : BitVec 16} (hframe : OnlyChanges ps s v)
    (hf : .fuses ∉ ps) (hq : .pending ∉ ps) (hP : P v) : Ends w st n (s.kept (complete w st n v fr)) P := by
  have hfuses : v.fuses = s.fuses := of_decide_eq_true (hframe .fuses hf)
  have hpending : v.pending = s.pending := of_decide_eq_true (hframe .pending hq)
  exact ⟨v, fr, State.kept_eq ((complete_fuses ..).trans hfuses) ((complete_pending ..).trans hpending), hP⟩

/-- A query that ends with a status other than OK_SHORT is counted (R637). -/
theorem endQuery_eq {st : Status} (h : st ≠ .okShort) (n : Nat) (q : QueryOp) (v : State) :
    endQuery w q st n v = complete w st n { v with cs := { v.cs with queries := v.cs.queries + 1 } } q.cnt.faultRef := by
  have hb : (st == .okShort) = false := by simpa using h
  simp only [endQuery, hb, b2n, Bool.false_eq_true, if_false, Nat.add_zero]

/-- What a context's read makes of the state. -/
def indexRead (w : Work) (q : QueryOp) (g : Region) (o : HbmObs) (s : State) : State :=
  let h := idxHdr s g
  let m := hbmFault w [(.hbm (csRegion w) 0, match q.expand with | some c => h.nbr + 4 * h.degree * c | none => 0)] o s
  if m.1 || readPoisoned w g h q m.2.2 then
    endQuery w { q with cnt := { q.cnt with faultRef := if m.1 then m.2.1 else q.cnt.faultRef } } .poisonConsumed 0 m.2.2
  else searchOn w g h (q.found w m.2.2 g h) m.2.2

/-- A query with a context and no batch in flight that awaits a read takes it. -/
theorem completes_indexRead {P : State → Prop} {o : HbmObs} (ha : s.awake = true) (hi : s.item w.wid = some w) (hp : w.prog = .query q)
    (hst : q.station.isSome = true) (hl : q.live = []) (hw : q.started = false ∨ q.expand.isSome = true) (hg : s.region (csRegion w) = some g)
    (hP : P (s.kept (indexRead w q g o s))) : Completes (.indexReadReturn ⟨w.wid, o⟩) s P := by
  have hexec : exec (.indexReadReturn ⟨w.wid, o⟩) s = execIndexReadReturn ⟨w.wid, o⟩ s := rfl
  rw [execIndexReadReturn] at hexec
  refine completes_of_resume hexec hi ha (by rw [hp]; rfl) ?_
  have hidle : ¬ (q.started = true ∧ q.expand.isNone = true) := by
    rintro ⟨h1, h2⟩
    rcases hw with h | h
    · simp [h] at h1
    · simp only [Option.isNone_iff_eq_none] at h2
      simp [h2] at h
  have hstation : q.station.isNone = false := by simpa [Option.isNone_iff_eq_none, Option.isSome_iff_ne_none] using hst
  simp only [hg, hstation, hl, List.isEmpty_nil, Bool.not_true, Bool.false_eq_true, if_false, if_neg hidle]
  exact hP

/-- A quiet read that meets no poison goes on with the search. -/
theorem indexRead_of_clean (hi : s.ft.inject.arm = false) (hp : readPoisoned w g (idxHdr s g) q s = false) :
    indexRead w q g {} s = searchOn w g (idxHdr s g) (q.found w s g (idxHdr s g)) (countHbmCorrected 0 s) := by
  have hclean : readPoisoned w g (idxHdr s g) q (countHbmCorrected 0 s) = false := hp
  simp only [indexRead, hbmFault_of_quiet hi, hclean, Bool.or_false, Bool.false_eq_true, if_false]
  rfl

/-- A quiet read that meets poison ends the query (R632). -/
theorem indexRead_of_poison (hi : s.ft.inject.arm = false) (hp : readPoisoned w g (idxHdr s g) q s = true) :
    indexRead w q g {} s = complete w .poisonConsumed 0
      { countHbmCorrected 0 s with cs := { s.cs with queries := s.cs.queries + 1 } } q.cnt.faultRef := by
  have hbad : readPoisoned w g (idxHdr s g) q (countHbmCorrected 0 s) = true := hp
  simp only [indexRead, hbmFault_of_quiet hi, hbad, Bool.or_true, if_true, Bool.false_eq_true, if_false]
  exact endQuery_eq (by decide) 0 _ _

theorem indexReadReturn_poisoned (ha : s.awake = true) (hi : s.item w.wid = some w) (hp : w.prog = .query q)
    (hst : q.station.isSome = true) (hl : q.live = []) (hw : q.started = false ∨ q.expand.isSome = true) (hg : s.region (csRegion w) = some g)
    (harm : s.ft.inject.arm = false) (hpois : readPoisoned w g (idxHdr s g) q s = true) :
    Completes (.indexReadReturn ⟨w.wid, {}⟩) s (fun t =>
      Ends w .poisonConsumed 0 t (fun u => u.cs = { s.cs with queries := s.cs.queries + 1 } ∧ OnlyChanges [.cs, .ft] s u)) := by
  refine completes_indexRead ha hi hp hst hl hw hg ?_
  rw [indexRead_of_poison harm hpois]
  have hframe : OnlyChanges [.cs, .ft] s { countHbmCorrected 0 s with cs := { s.cs with queries := s.cs.queries + 1 } } :=
    ((onlyChanges_set_ft s _).mono (by simp)).trans ((onlyChanges_set_cs (countHbmCorrected 0 s) _).mono (by simp))
  exact ends_of_complete_with hframe (by simp) (by simp) ⟨rfl, hframe⟩

theorem indexReadReturn_bad {o : HbmObs} {a : Nat} (ha : s.awake = true) (hi : s.item w.wid = some w) (hp : w.prog = .query q)
    (hst : q.station.isSome = true) (hl : q.live = []) (hw : q.started = false ∨ q.expand.isSome = true) (hg : s.region (csRegion w) = some g)
    (hb : o.bad = some a) (hin : inRegion g a = true) : Completes (.indexReadReturn ⟨w.wid, o⟩) s (fun t =>
      Ends w .poisonConsumed 0 t (fun u => u.cs = { s.cs with queries := s.cs.queries + 1 } ∧ u.ft.fault = true ∧
        tget u.mem.poison (a / 64) false = true)) := by
  refine completes_indexRead ha hi hp hst hl hw hg ?_
  obtain ⟨fr, v, heq, hfault, hpoison, hframe⟩ := hbmFault_of_bad (w := w) (s := s) (ins := [(.hbm (csRegion w) 0,
    match q.expand with | some c => (idxHdr s g).nbr + 4 * (idxHdr s g).degree * c | none => 0)]) hb (by simp [readsHbm, Ref.regionId, hg, hin])
  have hend : indexRead w q g o s = complete w .poisonConsumed 0 { v with cs := { v.cs with queries := v.cs.queries + 1 } } fr := by
    simp only [indexRead, heq, Bool.true_or, if_true]
    exact endQuery_eq (by decide) 0 _ _
  rw [hend]
  exact ends_of_complete_with ((hframe.mono (qs := [.mem, .ft, .power, .host, .out, .cs]) (by simp)).trans ((onlyChanges_set_cs v _).mono (by simp)))
    (by simp) (by simp) ⟨congrArg (fun c => { c with queries := c.queries + 1 }) (hframe.cs_eq (by simp)), hfault, hpoison⟩

theorem BatchesFed.keeps {p : QueryOp} (h : BatchesFed q p) : p.started = q.started ∧ p.station = q.station ∧ p.batches = q.batches ∧
    p.toVisit = q.toVisit ∧ p.visited = q.visited := by
  obtain ⟨hp, -⟩ := h
  rw [hp]
  exact ⟨rfl, rfl, rfl, rfl, rfl⟩

theorem newPieces_ne_nil {h : IdxHdr} (hl : q.live = []) (ht : q.toVisit ≠ []) : newPieces h q ≠ [] := by
  simp [newPieces, hl, QueryOp.cut.pieces, ht]

/-- The first batches of a query: no more than two, whole as long as nodes are left (R634). -/
theorem firstBatches_spec {h : IdxHdr} {p : QueryOp} {v : State} (hl : q.live = []) (ht : q.toVisit ≠ []) (hf : BatchesFed (q.cut w h v) p) :
    p.batches = q.batches + p.live.length ∧ 1 ≤ p.live.length ∧ p.live.length ≤ 2 ∧ (∀ b ∈ p.live, b.nodes.length ≤ h.degree) ∧
    (p.toVisit ≠ [] → p.live.length = 2 ∧ ∀ b ∈ p.live, b.nodes.length = h.degree) ∧
    p.live.flatMap (fun b => b.nodes) ++ p.toVisit = q.toVisit := by
  obtain ⟨-, -, hbatches, hrest, -⟩ := hf.keeps
  have hlen : p.live.length = (newPieces h q).length := by rw [hf.length, cut_length, hl, List.length_nil, Nat.zero_add]
  have hle := newPieces_length_le h q
  have hpos := List.length_pos_iff.2 (newPieces_ne_nil (h := h) hl ht)
  have hnodes : nodesOf p.live = newPieces h q := by
    obtain ⟨-, hn⟩ := hf
    rw [hn, cut_nodes, hl]
    rfl
  have hmem : ∀ b ∈ p.live, b.nodes ∈ newPieces h q := fun b hb => hnodes ▸ List.mem_map_of_mem hb
  rw [hl] at hle
  refine ⟨?_, by omega, by rw [hlen]; exact hle, fun b hb => ?_, fun hne => ?_, ?_⟩
  · rw [hbatches, hlen]
    rfl
  · exact pieces_length_le _ _ _ _ (List.mem_of_mem_take (hmem b hb))
  · rw [hrest, cut_toVisit] at hne
    obtain ⟨hfull, hwhole⟩ := pieces_full hne
    refine ⟨?_, fun b hb => hwhole _ (hmem b hb)⟩
    rw [hlen, newPieces, hfull, hl]
    rfl
  · rw [hf.flatMap_nodes, hrest, cut_flatMap, hl]
    rfl

theorem indexReadReturn_starts (ha : s.awake = true) (hi : s.item w.wid = some w) (hp : w.prog = .query q) (hst : q.station.isSome = true)
    (hl : q.live = []) (hw : q.started = false) (he : q.expand = none) (hg : s.region (csRegion w) = some g) (harm : s.ft.inject.arm = false)
    (hpois : readPoisoned w g (idxHdr s g) q s = false) (hs : standsOf w.part 2 s ≠ []) (hn : addNew [] (idxEntries s g (idxHdr s g)) ≠ []) :
    Completes (.indexReadReturn ⟨w.wid, {}⟩) s (fun t =>
      (∃ p, At w (.query p) t ∧ p.started = true ∧ p.station = q.station ∧ p.batches = q.batches + p.live.length ∧
        1 ≤ p.live.length ∧ p.live.length ≤ 2 ∧ (∀ b ∈ p.live, b.nodes.length ≤ (idxHdr s g).degree) ∧
        (p.toVisit ≠ [] → p.live.length = 2 ∧ ∀ b ∈ p.live, b.nodes.length = (idxHdr s g).degree) ∧
        p.live.flatMap (fun b => b.nodes) ++ p.toVisit = addNew [] (idxEntries s g (idxHdr s g))) ∧
      OnlyChanges [.work, .groves, .ft] s t) := by
  refine completes_indexRead ha hi hp hst hl (.inl hw) hg ?_
  have hfound : q.found w s g (idxHdr s g) = { q with started := true, toVisit := addNew [] (idxEntries s g (idxHdr s g)) } := by
    simp only [QueryOp.found, he]
  have hcount : OnlyChanges [.ft] s (countHbmCorrected 0 s) := onlyChanges_set_ft s _
  have hitem : (countHbmCorrected 0 s).item w.wid = some w := hi
  have hstands : standsOf w.part 2 (countHbmCorrected 0 s) ≠ [] := by rwa [standsOf_of_groves rfl rfl]
  rw [indexRead_of_clean harm hpois, hfound]
  generalize countHbmCorrected 0 s = v at hcount hitem hstands
  obtain ⟨p, hfed, hat, hframe⟩ := searchOn_spec (w := w) (s := v) (g := g) (h := idxHdr s g)
    (q := { q with started := true, toVisit := addNew [] (idxEntries s g (idxHdr s g)) }) hitem (fun hc => hn hc.1) hstands
  obtain ⟨hstarted, hstation, -⟩ := hfed.keeps
  obtain ⟨hbatches, hpos, hle, hdeg, hfull, hnodes⟩ := firstBatches_spec (q := { q with started := true, toVisit := addNew [] (idxEntries s g (idxHdr s g)) }) hl hn hfed
  exact ⟨⟨p, hat, hstarted, hstation, hbatches, hpos, hle, hdeg, hfull, hnodes⟩, ((hcount.mono (by simp)).trans (hframe.mono (by simp))).kept⟩

/-! ## A batch that ends -/

/-- What a batch that passes leaves of its query: its nodes visited, and itself gone. -/
structure BatchVisited (q : QueryOp) (b : DistBatch) (p : QueryOp) : Prop where
  visited : p.visited = b.nodes.reverse ++ q.visited
  toVisit : p.toVisit = q.toVisit
  limit   : p.limit = q.limit
  live    : p.live = q.live.filter (fun z => z.tile.idx != b.tile.idx)

/-- The search goes on from the state in which the batch is counted. -/
theorem batchDone_eq (w : Work) (g : Region) (h : IdxHdr) (q : QueryOp) (b : DistBatch) (t : TileSt) (out : TileOut) (v : State)
    (ht : t.idx = b.tile.idx) : ∃ p u, batchDone w g h q b.nodes t out v = searchOn w g h p u ∧ BatchVisited q b p ∧ OnlyChanges [.cs] v u ∧
      u.cs.visits = v.cs.visits + b.nodes.length ∧ u.cs.queries = v.cs.queries := by
  obtain ⟨hvisited, hlive, hrest, hlimit⟩ := visitAll_spec (queryOf w).ef (isTomb v g h) (fun x => nth (out.rows.headD ([], [])).1 x.2 0)
    b.nodes.zipIdx q
  refine ⟨_, _, rfl, ⟨?_, hrest, hlimit, ?_⟩, onlyChanges_set_cs v _, rfl, rfl⟩
  · rw [List.zipIdx_map_fst] at hvisited
    exact hvisited
  · dsimp only
    rw [ht]
    exact congrArg (List.filter _) hlive

/-- A batch whose first computation passes is visited, and the search goes on from what that leaves. -/
theorem completes_distanceBatch {b : DistBatch} {P : State → Prop} (ha : s.awake = true) (hi : s.item w.wid = some w) (hp : w.prog = .query q)
    (hf : q.live.find? (fun y => y.tile.running.isSome) = some b) (hfirst : FirstRun b.tile x) (hr : retiringStand s x = false)
    (hg : s.region (csRegion w) = some g) (hpass : passing obs (batchRun s obs g (idxHdr s g) (queryOf w).q b.nodes))
    (harm : s.ft.inject.arm = false) (hclean : batchPoisoned w g (idxHdr s g) b.nodes s = false)
    (hP : ∀ p u, BatchVisited q b p → OnlyChanges [.groves, .cs, .ft, .free] s u → u.cs.visits = s.cs.visits + b.nodes.length →
      u.cs.queries = s.cs.queries → (∀ k d, standsOf k d u = standsOf k d s) →
      P (s.kept (feedBatches w.part (searchOn w g (idxHdr s g) p u)))) : Completes (.distanceBatchComplete w.wid obs) s P := by
  have hexec : exec (.distanceBatchComplete w.wid obs) s = execDistanceBatchComplete w.wid obs s := rfl
  rw [execDistanceBatchComplete] at hexec
  refine completes_of_resume hexec hi ha (by rw [hp]; rfl) ?_
  have hrun : b.tile.running.getD (0, 0) = x := by
    obtain ⟨hrun, -⟩ := hfirst
    rw [hrun, Option.getD_some]
  obtain ⟨v, hran, hframe, hstands⟩ := runTile_of_passing (w := w) hfirst hpass hr harm .chunk (idxHdr s g).fmt
    (b.nodes.length * (ceilDiv (idxHdr s g).dim 256 + 12))
    (b.nodes.map (fun n => (.hbm (csRegion w) 0, (idxHdr s g).vec + n * (idxHdr s g).vecBytes)))
  have hcs := hframe.cs_eq (by simp)
  simp only [hg, hf, hrun, hclean, Bool.false_eq_true, if_false, hran, passedVerdict]
  obtain ⟨p, u, heq, hvisited, hcount, hv, hq⟩ := batchDone_eq w g (idxHdr s g) { q with cnt := (q.cnt.after x b.tile
      ({ verdict := passedVerdict x b.tile (batchRun s obs g (idxHdr s g) (queryOf w).q b.nodes).out,
         lines := (batchRun s obs g (idxHdr s g) (queryOf w).q b.nodes).lines, fr := 0, state := v } : Ran) false) } b
    (passedVerdict x b.tile (batchRun s obs g (idxHdr s g) (queryOf w).q b.nodes).out).tile
    (batchRun s obs g (idxHdr s g) (queryOf w).q b.nodes).out v rfl
  obtain ⟨hvis, hto, hlim, hlive⟩ := hvisited
  have hall := hP p u ⟨hvis, hto, hlim, hlive⟩ ((hframe.mono (by simp)).trans (hcount.mono (by simp))) (hv.trans (by rw [hcs])) (hq.trans (by rw [hcs]))
    (fun k d => (standsOf_of_groves (hcount.img_eq (by simp)) (hcount.groves_eq (by simp)) k d).trans (hstands k d))
  rw [← heq] at hall
  exact hall

end

end Sys2Proof.Machine

/-! # Indexes loaded, and nodes deleted

SUPPORT. The copy of an index that is validated, and the tombstone bits a deletion sets: each its own bit of its own byte, and no other
(R618, R622, R624). -/

namespace Sys2Proof.Machine

section
variable {s t u : State} {w : Work} {g : Region} {h : IdxHdr}

theorem State.idx_modIdx_same (s : State) (k : Nat) (f : Index → Index) : (s.modIdx k f).idx k = f (s.idx k) := tget_tmod_same ..

theorem State.idx_modIdx_other {k j : Nat} {f : Index → Index} (hj : j ≠ k) : (s.modIdx k f).idx j = s.idx j := tget_tmod_other _ _ _ _ _ hj

theorem modIdx_onlyChanges (s : State) (k : Nat) (f : Index → Index) : OnlyChanges [.cs] s (s.modIdx k f) := onlyChanges_set_cs s _

/-! ## Bytes of a region -/

/-- Two bytes of a region that fits its stack lie at different addresses (R139, R140). -/
theorem regionAddr_inj {a b : Nat} (hfit : g.offset + g.size ≤ 2 ^ 36) (ha : a < g.size) (hb : b < g.size)
    (heq : regionAddr g a = regionAddr g b) : a = b := by
  unfold regionAddr at heq
  split at heq
  · dsimp only at heq
    omega
  · omega

theorem regionNum_byte (s : State) (g : Region) (o : Nat) : regionNum s g o 1 = (memGet s.mem.hbm (regionAddr g o)).toNat := by
  simp [regionNum, regionRead, ofBytes]

/-- The state with one byte of an index stored and a tombstone counted. -/
theorem setTomb_of_clear {i : Nat} (hc : isTomb s g h i = false) : (setTomb g h s i).mem.hbm =
    memPut s.mem.hbm (regionAddr g (h.tomb + i / 8)) (BitVec.ofNat 8 (regionNum s g (h.tomb + i / 8) 1 ||| 2 ^ (i % 8))) := by
  rw [setTomb, hc, if_neg (by simp)]
  rfl

theorem setTomb_of_set {i : Nat} (hc : isTomb s g h i = true) : setTomb g h s i = s := by rw [setTomb, hc, if_pos rfl]

theorem setTomb_onlyChanges (g : Region) (h : IdxHdr) (s : State) (i : Nat) : OnlyChanges [.mem, .waybill, .cs] s (setTomb g h s i) := by
  unfold setTomb
  split
  · exact .refl _ s
  · intro p hp
    cases p <;> simp [sameZone, State.modIdx] at hp ⊢

/-- A byte with one bit set. -/
theorem testBit_setBit {x i j : Nat} (hx : x < 256) (hi : i < 8) :
    (BitVec.ofNat 8 (x ||| 2 ^ i)).toNat.testBit j = (x.testBit j || decide (i = j)) := by
  have hlt : x ||| 2 ^ i < 2 ^ 8 := Nat.or_lt_two_pow hx (Nat.pow_lt_pow_right (by decide) hi)
  rw [BitVec.toNat_ofNat, Nat.mod_eq_of_lt hlt, Nat.testBit_or, Nat.testBit_two_pow]

theorem byte_lt_ceilDiv {n k : Nat} (hn : n < k) : n / 8 < ceilDiv k 8 := by
  rw [ceilDiv, if_neg (by decide)]
  omega

/-- Whether every tombstone of an index lies in its region, and the region in its stack (R619). -/
def TombsFit (g : Region) (h : IdxHdr) : Prop := h.tomb + ceilDiv h.nodes 8 ≤ g.size ∧ g.offset + g.size ≤ 2 ^ 36

theorem TombsFit.byte_lt (hf : TombsFit g h) {n : Nat} (hn : n < h.nodes) : h.tomb + n / 8 < g.size := by
  obtain ⟨hsize, -⟩ := hf
  have hbyte := byte_lt_ceilDiv hn
  omega

/-- Setting a node's tombstone sets that one and no other. -/
theorem isTomb_setTomb (hf : TombsFit g h) {i n : Nat} (hi : i < h.nodes) (hn : n < h.nodes) :
    isTomb (setTomb g h s i) g h n = (isTomb s g h n || decide (i = n)) := by
  cases hc : isTomb s g h i
  case true =>
    rw [setTomb_of_set hc]
    by_cases hin : i = n
    · subst hin
      rw [hc, Bool.true_or]
    · simp [hin]
  case false =>
    rw [isTomb, isTomb, regionNum_byte, regionNum_byte, setTomb_of_clear hc]
    by_cases hbyte : n / 8 = i / 8
    · rw [hbyte, memGet_memPut_same, testBit_setBit (by rw [regionNum_byte]; exact BitVec.isLt _) (Nat.mod_lt _ (by decide)), regionNum_byte]
      congr 1
      exact decide_eq_decide.2 ⟨fun hm => by omega, fun hm => by rw [hm]⟩
    · have haddr : regionAddr g (h.tomb + n / 8) ≠ regionAddr g (h.tomb + i / 8) := fun heq =>
        hbyte (by have := regionAddr_inj hf.2 (hf.byte_lt hn) (hf.byte_lt hi) heq; omega)
      have hin : i ≠ n := fun hm => hbyte (by rw [hm])
      rw [memGet_memPut_other _ _ _ _ haddr]
      simp [hin]

/-- Bytes outside the tombstones stay. -/
theorem hbmByte_setTomb {i a : Nat} (hi : i < h.nodes) (ha : ∀ j < ceilDiv h.nodes 8, a ≠ regionAddr g (h.tomb + j)) :
    hbmByte (setTomb g h s i) a = hbmByte s a := by
  cases hc : isTomb s g h i
  case true => rw [setTomb_of_set hc]
  case false =>
    rw [hbmByte, setTomb_of_clear hc]
    exact memGet_memPut_other _ _ _ _ (ha _ (byte_lt_ceilDiv hi))

/-- A deletion sets the tombstones of its list and nothing else of HBM (R624). -/
theorem setTombs_spec (hf : TombsFit g h) (l : List Nat) (hl : ∀ i ∈ l, i < h.nodes) (s : State) :
    (∀ n < h.nodes, isTomb (l.foldl (setTomb g h) s) g h n = (isTomb s g h n || decide (n ∈ l))) ∧
    (∀ a, (∀ j < ceilDiv h.nodes 8, a ≠ regionAddr g (h.tomb + j)) → hbmByte (l.foldl (setTomb g h) s) a = hbmByte s a) ∧
    OnlyChanges [.mem, .waybill, .cs] s (l.foldl (setTomb g h) s) := by
  induction l generalizing s with
  | nil => exact ⟨fun n _ => by simp, fun _ _ => rfl, .refl _ s⟩
  | cons i r ih =>
    obtain ⟨hset, hkeep, hframe⟩ := ih (fun k hk => hl k (List.mem_cons_of_mem _ hk)) (setTomb g h s i)
    have hi := hl i List.mem_cons_self
    refine ⟨fun n hn => ?_, fun a ha => (hkeep a ha).trans (hbmByte_setTomb hi ha), (setTomb_onlyChanges g h s i).trans hframe⟩
    rw [List.foldl_cons, hset n hn, isTomb_setTomb hf hi hn, Bool.or_assoc]
    congr 1
    by_cases hin : i = n
    · simp [hin]
    · simp [hin, Ne.symm hin]

/-- A deletion that passes its checks names nodes of its index alone. -/
theorem deleteList_lt (hc : deleteChecks w s = none) : ∀ i ∈ deleteList w s, i < (s.idx (csRegion w)).nodes := by
  simp only [deleteChecks, firstFail_cons_eq_none] at hc
  obtain ⟨-, -, -, -, -, -, -, hrange, -⟩ := hc
  intro i hi
  have hnot := List.any_eq_false.1 hrange i hi
  simpa using hnot

/-! ## The obligation's commands -/

theorem exec_csQuery (n : Nat) (s : State) : exec (.csQuery n) s = execCsQuery n s := rfl

theorem exec_csIndexLoad (n : Nat) (s : State) : exec (.csIndexLoad n) s = execCsIndexLoad n s := rfl

theorem exec_csDelete (n : Nat) (s : State) : exec (.csDelete n) s = execCsDelete n s := rfl

theorem csQuery_starts (hm : MayStart s w 0x60) (hb : changeBefore w s = false) (hc : queryChecks w s = none)
    (hv : (queryOf w).visits ≤ 65536) : Completes (.csQuery w.wid) s (fun t =>
      At w (.query { cnt := (newOp w.part 0xFF s).1 }) t ∧ t.groves = { s.groves with opSeq := s.groves.opSeq + 1 } ∧
      OnlyChanges [.work, .groves] s t) := by
  obtain ⟨hi, -⟩ := id hm
  have hop : (newOp w.part 0xFF s).2.item w.wid = some w := hi
  refine completes_of_start ((exec_csQuery _ s).trans (by rw [execCsQuery])) hm ?_
  simp only [hb, hc, Bool.false_eq_true, if_false, if_neg (Nat.not_lt.2 hv)]
  exact ⟨at_setProg hop, rfl, (((onlyChanges_set_groves s _).mono (by simp)).trans ((setProg_onlyChanges (newOp w.part 0xFF s).2 _ _).mono
    (by simp))).kept⟩

theorem csQuery_refused {st : Status} {r : Nat} (hm : MayStart s w 0x60) (hb : changeBefore w s = false) (hc : queryChecks w s = some (st, r)) :
    Completes (.csQuery w.wid) s (fun t => t = complete w st r s ∧ Gone w t ∧ OnlyChanges [.host, .work, .tt, .ft, .tn, .out] s t) := by
  refine completes_of_refused ((exec_csQuery _ s).trans (by rw [execCsQuery])) hm ?_
  simp only [hb, hc, Bool.false_eq_true, if_false]

theorem csQuery_waits (hm : MayStart s w 0x60) (hb : changeBefore w s = true) : Completes (.csQuery w.wid) s (OnlyChanges [] s) := by
  refine completes_of_start ((exec_csQuery _ s).trans (by rw [execCsQuery])) hm ?_
  simp only [hb, if_true]
  exact (OnlyChanges.refl _ s).kept

theorem csIndexLoad_loads (hm : MayStart s w 0x61) (hb : changeBefore w s = false) (hc : idxLoadChecks w s = none)
    (ha : dat w.body 16 64 % 4096 = 0) : Completes (.csIndexLoad w.wid) s (fun t =>
      At w (.indexLoad (csRegion w)) t ∧ (t.idx (csRegion w)).st = .loading ∧ t.out = s.out ++ [.hostRead w.fn (dat w.body 16 64) (dat w.body 24 64)] ∧
      t.mem = s.mem ∧ OnlyChanges [.work, .cs, .out] s t) := by
  obtain ⟨hi, -⟩ := id hm
  have hitem : (s.modIdx (csRegion w) (fun x => { x with st := .loading })).item w.wid = some w := hi
  have hidx := congrArg Index.st (State.idx_modIdx_same s (csRegion w) (fun x => { x with st := .loading }))
  refine completes_of_start ((exec_csIndexLoad _ s).trans (by rw [execCsIndexLoad])) hm ?_
  simp only [hb, hc, ha, Bool.false_eq_true, if_false, ne_eq, not_true_eq_false]
  refine ⟨at_setProg hitem, hidx, rfl, rfl, ?_⟩
  exact (((modIdx_onlyChanges s _ _).mono (by simp)).trans (((setProg_onlyChanges _ _ _).mono (by simp)).trans
    ((emit_onlyChanges _ _).mono (by simp)))).kept

theorem csIndexLoad_refused {st : Status} {r : Nat} (hm : MayStart s w 0x61) (hb : changeBefore w s = false) (hc : idxLoadChecks w s = some (st, r)) :
    Completes (.csIndexLoad w.wid) s (fun t => t = complete w st r s ∧ OnlyChanges [.host, .work, .tt, .ft, .tn, .out] s t) := by
  obtain ⟨t, hexec, heq, -, hframe⟩ := completes_of_refused (c := .csIndexLoad w.wid) (st := st) (r := r) ((exec_csIndexLoad _ s).trans (by rw [execCsIndexLoad])) hm (by
    simp only [hb, hc, Bool.false_eq_true, if_false])
  exact ⟨t, hexec, heq, hframe⟩

/-- The copy of an index is validated where it lies: READY with its nodes, or UNLOADED (R622). -/
theorem indexCopyComplete_ends {id : Nat} {bs : List Byte} (ha : s.awake = true) (hi : s.item w.wid = some w) (hp : w.prog = .indexLoad id)
    (hg : s.region id = some g) (hq : queriesBefore w s = false) (hl : bs.length = dat w.body 24 64) :
    Completes (.indexCopyComplete w.wid bs) s (fun t =>
      (indexFits (regionWrite g 0 bs s) g = true → Ends w .ok (idxHdr (regionWrite g 0 bs s) g).nodes t (fun u =>
        (u.idx id).st = .ready ∧ (u.idx id).nodes = (idxHdr (regionWrite g 0 bs s) g).nodes ∧ (∀ k, k ≠ id → u.idx k = s.idx k) ∧
        u.mem.hbm = regionPut g 0 bs s.mem.hbm ∧ OnlyChanges [.mem, .waybill, .cs] s u)) ∧
      (indexFits (regionWrite g 0 bs s) g = false → Ends w .malformed 0x08 t (fun u =>
        u.idx id = {} ∧ (∀ k, k ≠ id → u.idx k = s.idx k) ∧ OnlyChanges [.mem, .waybill, .cs] s u))) := by
  have hexec : exec (.indexCopyComplete w.wid bs) s = execIndexCopyComplete w.wid bs s := rfl
  rw [execIndexCopyComplete] at hexec
  refine completes_of_resume (a := id) hexec hi ha (by rw [hp]) ?_
  have hwrite := regionWrite_onlyChanges g 0 bs s
  have hcs : (regionWrite g 0 bs s).cs = s.cs := rfl
  have hhbm : (regionWrite g 0 bs s).mem.hbm = regionPut g 0 bs s.mem.hbm := rfl
  simp only [hg, hq, hl, Bool.false_eq_true, false_or, ne_eq, not_true_eq_false, if_false]
  generalize regionWrite g 0 bs s = v at hwrite hcs hhbm ⊢
  have hframe (f : Index → Index) : OnlyChanges [.mem, .waybill, .cs] s (v.modIdx id f) :=
    (hwrite.mono (by simp)).trans ((modIdx_onlyChanges v id f).mono (by simp))
  have hother (f : Index → Index) : ∀ k, k ≠ id → (v.modIdx id f).idx k = s.idx k := fun k hk =>
    (State.idx_modIdx_other hk).trans (by rw [State.idx, hcs, State.idx])
  refine ⟨fun hfit => ?_, fun hfit => ?_⟩
  · rw [if_pos hfit]
    have hready := State.idx_modIdx_same v id (fun _ =>
      { st := .ready, nodes := (idxHdr v g).nodes, tombs := ((List.range (idxHdr v g).nodes).filter (isTomb v g (idxHdr v g))).length })
    exact ends_of_complete (hframe _) (by simp) (by simp) ⟨congrArg Index.st hready, congrArg Index.nodes hready, hother _, hhbm, hframe _⟩
  · rw [if_neg (by simp [hfit])]
    exact ends_of_complete (hframe _) (by simp) (by simp) ⟨State.idx_modIdx_same v id (fun _ => {}), hother _, hframe _⟩

theorem csDelete_deletes (hm : MayStart s w 0x62) (hb : changeBefore w s = false) (hq : queriesBefore w s = false) (hc : deleteChecks w s = none)
    (hg : s.region (csRegion w) = some g) (hn : (s.idx (csRegion w)).nodes = (idxHdr s g).nodes) (hf : TombsFit g (idxHdr s g)) :
    Completes (.csDelete w.wid) s (fun t => Ends w .ok 0 t (fun u =>
      (∀ n < (idxHdr s g).nodes, isTomb u g (idxHdr s g) n = (isTomb s g (idxHdr s g) n || decide (n ∈ deleteList w s))) ∧
      (∀ a, (∀ j < ceilDiv (idxHdr s g).nodes 8, a ≠ regionAddr g ((idxHdr s g).tomb + j)) → hbmByte u a = hbmByte s a) ∧
      OnlyChanges [.mem, .waybill, .cs] s u)) := by
  refine completes_of_start ((exec_csDelete _ s).trans (by rw [execCsDelete])) hm ?_
  simp only [hb, hq, hc, hg, Bool.false_eq_true, false_or, if_false]
  obtain ⟨hset, hkeep, hframe⟩ := setTombs_spec hf (deleteList w s) (fun i hi => hn ▸ deleteList_lt hc i hi) s
  exact ends_of_complete hframe (by simp) (by simp) ⟨hset, hkeep, hframe⟩

/-- A search context is taken on the Station with fewer in use (R633). -/
theorem searchContextAllocate_takes {q : QueryOp} (ha : s.awake = true) (hi : s.item w.wid = some w) (hp : w.prog = .query q)
    (hst : q.station = none) (hc : ctxGiven w s = true) : Completes (.searchContextAllocate w.wid) s (fun t =>
      (ctxInUse 1 s < ctxInUse 0 s → ctxInUse 1 s < 128 → At w (.query { q with station := some 1 }) t) ∧
      (ctxInUse 0 s ≤ ctxInUse 1 s → ctxInUse 0 s < 128 → At w (.query { q with station := some 0 }) t) ∧
      (128 ≤ ctxInUse 0 s → 128 ≤ ctxInUse 1 s → OnlyChanges [] s t) ∧ OnlyChanges [.work] s t) := by
  have hexec : exec (.searchContextAllocate w.wid) s = execSearchContextAllocate w.wid s := rfl
  rw [execSearchContextAllocate] at hexec
  refine completes_of_resume hexec hi ha (by rw [hp]; rfl) ?_
  simp only [hst, hc, Option.isSome_none, Bool.not_true, Bool.false_eq_true, false_or]
  refine ⟨fun hlt hroom => ?_, fun hle hroom => ?_, fun h0 h1 => ?_, ?_⟩
  · rw [if_pos hlt, if_neg (by omega)]
    exact at_setProg hi
  · rw [if_neg (Nat.not_lt.2 hle), if_neg (by omega)]
    exact at_setProg hi
  · rw [if_pos (by split <;> omega)]
    exact (OnlyChanges.refl _ s).kept
  · generalize (if ctxInUse 1 s < ctxInUse 0 s then 1 else 0) = n
    refine OnlyChanges.kept ?_
    split
    · exact .refl _ s
    · exact setProg_onlyChanges _ _ _

end

/-! # The obligation on Clearing search -/

/-- Settles O51: a query from its checks over its context, its reads and its batches to its end, a load, and a deletion. -/
theorem clearingSearch : Obligations.ClearingSearch := by
  unfold Obligations.ClearingSearch
  refine ⟨fun s w hm hb hc hv => csQuery_starts hm hb hc hv, fun s w st r hm hb hc => csQuery_refused hm hb hc,
    fun s w hm hb => csQuery_waits hm hb, fun s w q ha hi hp hst hc => searchContextAllocate_takes ha hi hp hst hc,
    fun s w q g ha hi hp hst hl hw he hg harm hpois hs hn => indexReadReturn_starts ha hi hp hst hl hw he hg harm hpois hs hn,
    fun s w q g ha hi hp hst hl hw hg harm hpois => indexReadReturn_poisoned ha hi hp hst hl hw hg harm hpois,
    fun s w q g o a ha hi hp hst hl hw hg hb hin => indexReadReturn_bad ha hi hp hst hl hw hg hb hin, ?visits, ?ends,
    fun s w hm hb hc ha => csIndexLoad_loads hm hb hc ha, fun s w st r hm hb hc => csIndexLoad_refused hm hb hc,
    fun s w id g bs ha hi hp hg hq hl => indexCopyComplete_ends ha hi hp hg hq hl,
    fun s w g hm hb hq hc hg hn hsize hfit => csDelete_deletes hm hb hq hc hg hn ⟨hsize, hfit⟩⟩
  case visits =>
    intro s w q g b x obs ha hi hp hf hfirst hr hg hpass harm hclean hmore hs
    refine completes_distanceBatch ha hi hp hf hfirst hr hg hpass harm hclean (fun p u hvis hframe hv _ hstands => ?_)
    obtain ⟨hvisited, hto, -, hlive⟩ := hvis
    have hitem : u.item w.wid = some w := (item_of_work_eq (hframe.work_eq (by simp)) _).trans hi
    have hgoes : ¬ (p.toVisit = [] ∧ p.live = []) := by
      rintro ⟨h1, h2⟩
      rw [hto] at h1
      rcases hmore with h | ⟨y, hy, hne⟩
      · exact h h1
      · rw [hlive] at h2
        exact absurd (List.mem_filter.2 ⟨hy, by simpa using hne⟩ : y ∈ q.live.filter (fun z => z.tile.idx != b.tile.idx)) (by rw [h2]; exact List.not_mem_nil)
    obtain ⟨p1, hfed1, hat1, hframe1⟩ := searchOn_spec (g := g) (h := idxHdr s g) hitem hgoes (by rw [hstands]; exact hs)
    obtain ⟨p2, hfed2, hat2⟩ := feedBatches_at hat1 w.part
    have hframe2 := feedBatches_onlyChanges w.part (searchOn w g (idxHdr s g) p u)
    have hfed := hfed1.trans hfed2
    have hcs : (feedBatches w.part (searchOn w g (idxHdr s g) p u)).cs = u.cs := (hframe2.cs_eq (by simp)).trans (hframe1.cs_eq (by simp))
    obtain ⟨-, -, -, hrest, hseen⟩ := hfed.keeps
    have hlen := newPieces_length_le (idxHdr s g) p
    have hfewer : p.live.length ≤ q.live.length := hlive ▸ List.length_filter_le ..
    refine ⟨⟨p2, hat2, hseen.trans hvisited, ?_, ?_⟩, (congrArg Clearing.visits hcs).trans hv, ?_⟩
    · rw [hfed.length, cut_length]
      omega
    · rw [hfed.flatMap_nodes, hrest, cut_flatMap, hlive, hto]
    · exact ((hframe.mono (by simp)).trans ((hframe1.mono (by simp)).trans (hframe2.mono (by simp)))).kept
  case ends =>
    intro s w q g r b x obs id off ha hi hp hl hfirst hr hg hpass harm hclean ht hlim hfilter hdest hrid
    have hfind : q.live.find? (fun y => y.tile.running.isSome) = some b := by
      obtain ⟨hrun, -⟩ := hfirst
      simp [hl, hrun]
    refine completes_distanceBatch ha hi hp hfind hfirst hr hg hpass harm hclean (fun p u hvis hframe hv hq _ => ?_)
    obtain ⟨-, hto, hlimit, hlive⟩ := hvis
    rw [searchOn_ends (hto.trans ht) (by rw [hlive, hl]; simp) (hlimit.trans hlim)]
    obtain ⟨hgone, hqueries, hvisits, hbytes⟩ := finishQuery_writes (s := u) (g := g) (q := p) (h := idxHdr s g) (ex := false) hfilter hdest
      (by rw [region_congr (hframe.img_eq (by simp))]; exact hrid)
    have hfed := feedBatches_onlyChanges w.part (finishQuery w g (idxHdr s g) p false u)
    have hcs := hfed.cs_eq (by simp)
    have hmem := hfed.mem_eq (by simp)
    refine ⟨feedBatches_gone hgone _, ?_, ?_, fun a hout => ?_⟩
    · exact (congrArg Clearing.queries hcs).trans (hqueries.trans (by rw [hq]))
    · exact (congrArg Clearing.visits hcs).trans (hvisits.trans hv)
    · have hu : hbmByte u a = hbmByte s a := by rw [hbmByte, hframe.mem_eq (by simp), hbmByte]
      exact (congrArg (fun m : Mem => memGet m.hbm a) hmem).trans ((hbytes a hout).trans hu)

end Sys2Proof.Machine

/-! # What a request does at the node it reaches

SUPPORT. A packet that leaves, one that waits for its acknowledgement, and a message that has taken effect (R550, R551, R554, R560). -/

namespace Sys2Proof.Machine

section
variable {s t u : State} {c k n : Nat} {m : RxMsg} {p : Packet}

/-! ## Packets that leave -/

/-- `n` packets have left: of the connections only the turns have moved (R550). -/
structure Sent (n : Nat) (s t : State) : Prop where
  frame : OnlyChanges [.rail, .rc, .ft] s t
  conns : ∀ a, ∃ x, t.conn a = { s.conn a with turn := x }
  slots : t.rc.slots = s.rc.slots
  trigs : t.rc.trigs = s.rc.trigs
  count : t.rc.txPkts = s.rc.txPkts + n

theorem Sent.enqueued (h : Sent n s t) (a l : Nat) (q : QFrame) : Sent n s (enqueue a l q t) := by
  have hrc : (enqueue a l q t).rc = t.rc := of_decide_eq_true (enqueue_onlyChanges a l q t .rc (by decide))
  exact ⟨h.frame.trans ((enqueue_onlyChanges a l q t).mono (by simp)), fun a => by simpa only [State.conn, hrc] using h.conns a,
    hrc ▸ h.slots, hrc ▸ h.trigs, hrc ▸ h.count⟩

theorem launch_sent (c dst : Nat) (p : Packet) (b : Bool) (s : State) : Sent 1 s (launch c dst p b s).1 := by
  unfold launch
  extract_lets x k path p' f0 f q s1
  have hrc : (railUse c (dataLen p) s).countTx.rc = { s.rc with txPkts := s.rc.txPkts + 1 } := by simp only [State.countTx, railUse_rc]
  have h1 : Sent 1 s s1 := by
    refine ⟨?_, fun a => ?_, (congrArg RailConns.slots hrc :), (congrArg RailConns.trigs hrc :),
      (congrArg RailConns.txPkts hrc :)⟩
    · exact ((railUse_onlyChanges _ _ _).mono (by simp)).trans (((onlyChanges_set_rc _ _).mono (by simp)).trans
        ((modConn_onlyChanges _ _ _).mono (by simp)))
    · have hconn : (railUse c (dataLen p) s).countTx.conn a = s.conn a := by simp only [State.conn, hrc]
      by_cases ha : a = c
      · subst ha
        exact ⟨_, (State.conn_modConn_same ..).trans (by rw [hconn])⟩
      · exact ⟨(s.conn a).turn, (State.conn_modConn_other ha).trans hconn⟩
  clear_value s1 k
  dsimp only
  split
  · exact h1.enqueued _ _ _
  · split
    · exact h1.enqueued _ _ _
    · exact h1

/-! ## A packet that waits for its acknowledgement -/

/-- A connection of its own kind may send at once: nothing waits before it, and a unit is free (R550). -/
def MaySend (c : Nat) (s : State) : Prop :=
  c ≠ 0 ∧ (s.conn c).txq = [] ∧ (s.conn c).saved = false ∧ (s.conn c).unacked.length < txLimit c (s.conn c)

/-- A packet has left and waits for its acknowledgement (R551). -/
structure Posted (c dst : Nat) (p : Packet) (s t : State) : Prop where
  frame : OnlyChanges [.rail, .rc, .ft] s t
  conn  : ∃ turn path, t.conn c = { s.conn c with
    turn, unacked := (s.conn c).unacked ++ [{ pkt := { p with path }, dst, sends := 1, path }] }
  slots : t.rc.slots = s.rc.slots

/-- The connection from whose queue a packet has left. -/
def Conn.sends (c dst path : Nat) (p : Packet) (x : Conn) : Conn :=
  { x with txq := x.txq.eraseP (fun y => !x.holds c y), unacked := x.unacked ++ [{ pkt := { p with path }, dst, sends := 1, path }] }

theorem holds_of_own (hc : c ≠ 0) (x : Conn) (y : Nat × Packet) : x.holds c y = false := by
  simp [Conn.holds, hc]

theorem pump_of_one {dst : Nat} (hc : c ≠ 0) (hq : (s.conn c).txq = [(dst, p)]) (hs : (s.conn c).saved = false)
    (hu : (s.conn c).unacked.length < txLimit c (s.conn c)) :
    pump c 1 s = (launch c dst p true s).1.modConn c (Conn.sends c dst (launch c dst p true s).2 p) := by
  have hmay : ¬ ((s.conn c).saved = true ∨ (s.conn c).unacked.length ≥ txLimit c (s.conn c)) := by
    rw [hs]
    rintro (h | h)
    · cases h
    · exact absurd h (Nat.not_le.2 hu)
  have hfind : (s.conn c).txq.find? (fun y => !(s.conn c).holds c y) = some (dst, p) := by
    simp only [hq, holds_of_own hc, Bool.not_false, List.find?_cons]
  unfold pump
  simp only [hfind, if_neg hmay]
  rfl

theorem post_posted (h : MaySend c s) (dst : Nat) (p : Packet) : Posted c dst p s (post c [(dst, p)] s) := by
  obtain ⟨hc, hq, hs, hu⟩ := h
  have hframe := modConn_onlyChanges s c (fun x => { x with txq := x.txq ++ [(dst, p)] })
  have hconn : (s.modConn c (fun x => { x with txq := x.txq ++ [(dst, p)] })).conn c = { s.conn c with txq := [(dst, p)] } := by
    rw [State.conn_modConn_same, hq, List.nil_append]
  have hpost : post c [(dst, p)] s = pump c 1 (s.modConn c (fun x => { x with txq := x.txq ++ [(dst, p)] })) := by
    simp only [post, hconn, List.length_singleton]
  have hslots : (s.modConn c (fun x => { x with txq := x.txq ++ [(dst, p)] })).rc.slots = s.rc.slots := rfl
  rw [hpost]
  generalize s.modConn c (fun x => { x with txq := x.txq ++ [(dst, p)] }) = v at hframe hconn hslots
  have hsent := launch_sent c dst p true v
  obtain ⟨turn, hturn⟩ := hsent.conns c
  refine ⟨(hframe.mono (by simp)).trans (pump_onlyChanges _ _ _), ⟨turn, (launch c dst p true v).2, ?_⟩, ?_⟩
  · rw [pump_of_one hc (by rw [hconn]) (by rw [hconn, hs]) (by rw [hconn]; exact hu), State.conn_modConn_same, hturn, hconn]
    simp only [Conn.sends, holds_of_own hc, Bool.not_false, List.eraseP_cons, cond_true, hq]
  · rw [pump_of_one hc (by rw [hconn]) (by rw [hconn, hs]) (by rw [hconn]; exact hu)]
    exact hsent.slots.trans hslots

/-! ## A message that has taken effect -/

/-- A message may leave its connection, which stays as it is otherwise. -/
structure MayLeave (c : Nat) (m : RxMsg) (s : State) : Prop where
  own    : c ≠ 0
  opened : (s.conn c).st = .opened
  alone  : noneDropped c s
  slot   : ∀ k, m.slot = some k → (s.slot k).st = .registered

theorem mayLeave_of_noSlot (hc : c ≠ 0) (ho : (s.conn c).st = .opened) (hd : noneDropped c s) (hk : m.slot = none) : MayLeave c m s :=
  ⟨hc, ho, hd, fun j hj => by simp [hk] at hj⟩

theorem mayLeave_of_slot (hc : c ≠ 0) (ho : (s.conn c).st = .opened) (hd : noneDropped c s) (hk : m.slot = some k)
    (hst : (s.slot k).st = .registered) : MayLeave c m s :=
  ⟨hc, ho, hd, fun j hj => by rwa [← Option.some.inj (hk.symm.trans hj)]⟩

/-- What decides whether a message may leave is the same of two states. -/
structure SameStand (c : Nat) (s t : State) : Prop where
  rx      : (t.conn c).rx = (s.conn c).rx
  cum     : (t.conn c).rxCum = (s.conn c).rxCum
  st      : (t.conn c).st = (s.conn c).st
  service : (t.conn c).service = (s.conn c).service
  slots   : t.rc.slots = s.rc.slots

theorem SameStand.of_rc (h : t.rc = s.rc) : SameStand c s t := by
  constructor <;> simp only [State.conn, h]

theorem Sent.sameStand (h : Sent n s t) : SameStand c s t := by
  obtain ⟨x, hx⟩ := h.conns c
  constructor <;> simp only [hx, h.slots]

theorem Posted.sameStand {dst : Nat} (h : Posted c dst p s t) : SameStand c s t := by
  obtain ⟨x, y, hx⟩ := h.conn
  constructor <;> simp only [hx, h.slots]

theorem dropsCtl_congr {x y : Conn} (hcum : x.rxCum = y.rxCum) (hservice : x.service = y.service) (a : RxMsg) :
    dropsCtl c x a = dropsCtl c y a := by
  simp only [dropsCtl, hcum, hservice]

theorem MayLeave.congr (h : MayLeave c m s) (hs : SameStand c s t) : MayLeave c m t where
  own := h.own
  opened := hs.st.trans h.opened
  alone a ha := (dropsCtl_congr (by simp only [hs.cum]) (by simp only [hs.service]) a).trans (h.alone a (hs.rx ▸ ha))
  slot k hk := by simpa only [State.slot, hs.slots] using h.slot k hk

/-- The connection without a message, which CUM has passed. -/
def RxMsg.leaves (m : RxMsg) (x : Conn) : Conn :=
  { x with rx := x.rx.filter (fun y => !(y.mseq == m.mseq && y.src == m.src && y.srcConn == m.srcConn)), rxCum := x.rxCum + 1 }

/-- The slot a message came through counts it no more. -/
def slotLeft (m : RxMsg) (s : State) : State :=
  match m.slot with
  | some k => s.modSlot k (fun x => { x with inFlight := x.inFlight - 1 })
  | none => s

theorem slotLeft_onlyChanges (m : RxMsg) (s : State) : OnlyChanges [.rc] s (slotLeft m s) := by
  unfold slotLeft
  split
  · exact modSlot_onlyChanges _ _ _
  · exact .refl _ s

theorem slotLeft_rc (m : RxMsg) (s : State) : (slotLeft m s).rc = { s.rc with slots := (slotLeft m s).rc.slots } := by
  unfold slotLeft
  split <;> rfl

theorem slotDone_of_registered (h : (s.slot k).st = .registered) :
    slotDone k s = s.modSlot k (fun x => { x with inFlight := x.inFlight - 1 }) := by
  have hst : ¬ (((s.modSlot k (fun x => { x with inFlight := x.inFlight - 1 })).slot k).st = .revoking ∧
      ((s.modSlot k (fun x => { x with inFlight := x.inFlight - 1 })).slot k).inFlight = 0) := by
    rw [State.slot_modSlot_same]
    simp [h]
  rw [slotDone, settleSlot, if_neg hst]

/-- The message that leaves is acknowledged with the new CUM (R554). -/
theorem leaveRx_eq (h : MayLeave c m s) :
    leaveRx c m s = ackPacket c m.src m.srcConn m.srcInc m.mseq 0 (slotLeft m (s.modConn c m.leaves)) := by
  have hown : leaveRx c m s = ackPacket c m.src m.srcConn m.srcInc m.mseq 0
      (match m.slot with | some k => slotDone k (s.modConn c m.leaves) | none => s.modConn c m.leaves) := by
    simp only [leaveRx, if_neg h.own]
    rfl
  rw [hown, slotLeft]
  cases hk : m.slot with
  | none => rfl
  | some k => exact congrArg _ (slotDone_of_registered (s := s.modConn c m.leaves) (h.slot k hk))

/-- What a message that has taken effect leaves behind. -/
structure Left (c : Nat) (m : RxMsg) (s t : State) : Prop where
  frame : OnlyChanges [.rail, .rc, .ft] s t
  conn  : ∃ x, t.conn c = { m.leaves (s.conn c) with turn := x }
  slot  : ∀ k, m.slot = some k → (t.slot k).inFlight = (s.slot k).inFlight - 1
  trigs : t.rc.trigs = s.rc.trigs
  count : t.rc.txPkts = s.rc.txPkts + 1

theorem leaveRx_left (h : MayLeave c m s) : Left c m s (leaveRx c m s) := by
  have hsent : Sent 1 (slotLeft m (s.modConn c m.leaves)) (leaveRx c m s) := leaveRx_eq h ▸ launch_sent _ _ _ _ _
  have hrc := slotLeft_rc m (s.modConn c m.leaves)
  have hconn : (slotLeft m (s.modConn c m.leaves)).conn c = m.leaves (s.conn c) := by
    rw [State.conn, hrc]
    exact State.conn_modConn_same ..
  refine ⟨?_, ?_, fun k hk => ?_, ?_, ?_⟩
  · exact (((modConn_onlyChanges _ _ _).trans (slotLeft_onlyChanges _ _)).mono (by simp)).trans hsent.frame
  · obtain ⟨x, hx⟩ := hsent.conns c
    exact ⟨x, by rw [hx, hconn]⟩
  · rw [State.slot, hsent.slots, slotLeft, hk]
    exact congrArg RegSlot.inFlight (State.slot_modSlot_same ..)
  · rw [hsent.trigs, hrc]
    rfl
  · rw [hsent.count, hrc]
    rfl

theorem dropCtls_of_none (h : (s.conn c).rx.find? (dropsCtl c (s.conn c)) = none) (k : Nat) : dropCtls c k s = s := by
  cases k <;> simp [dropCtls, h]

/-- Behind a message that may leave nothing is dropped, and its connection stays open. -/
theorem effectDone_eq (h : MayLeave c m s) : effectDone c m s = leaveRx c m s := by
  obtain ⟨x, hx⟩ := (leaveRx_left h).conn
  have hnone : ((leaveRx c m s).conn c).rx.find? (dropsCtl c ((leaveRx c m s).conn c)) = none := by
    rw [List.find?_eq_none, hx]
    intro a ha
    have hkept : dropsCtl c { m.leaves (s.conn c) with turn := x } a = false :=
      (dropsCtl_congr rfl rfl a).trans (h.alone a (List.mem_of_mem_filter ha))
    simp [hkept]
  have hst : ((leaveRx c m s).conn c).st ≠ .closing := by
    rw [hx]
    exact fun hc => by simp [RxMsg.leaves, h.opened] at hc
  rw [effectDone, settleRx, dropCtls_of_none hnone, tryClose, if_pos (.inl hst)]

theorem effectDone_left (h : MayLeave c m s) : Left c m s (effectDone c m s) := effectDone_eq h ▸ leaveRx_left h

theorem Left.cum_eq (h : Left c m s t) : (t.conn c).rxCum = (s.conn c).rxCum + 1 := by
  obtain ⟨x, hx⟩ := h.conn
  rw [hx]
  rfl

theorem Left.recvs_eq (h : Left c m s t) : (t.conn c).recvs = (s.conn c).recvs := by
  obtain ⟨x, hx⟩ := h.conn
  rw [hx]
  rfl

/-- A message that is refused draws a NAK and its ACK, and nothing else (R554). -/
theorem refuseRx_spec (h : MayLeave c m s) (st : Status) : OnlyChanges [.rail, .rc, .ft] s (refuseRx c m st s) ∧
    ((refuseRx c m st s).conn c).rxCum = (s.conn c).rxCum + 1 ∧ (refuseRx c m st s).rc.txPkts = s.rc.txPkts + 2 := by
  have hnak : Sent 1 s (nakPacket c m.src m.srcConn m.srcInc m.mseq st s) := launch_sent _ _ _ _ _
  have hleft : Left c m _ (refuseRx c m st s) := effectDone_left (h.congr hnak.sameStand)
  exact ⟨hnak.frame.trans hleft.frame, by rw [hleft.cum_eq, hnak.sameStand.cum], by rw [hleft.count, hnak.count]⟩

/-- What a message that draws an answer leaves behind: the answer waits for its acknowledgement. -/
structure Answered (c : Nat) (m : RxMsg) (p : Packet) (s t : State) : Prop where
  frame  : OnlyChanges [.rail, .rc, .ft] s t
  answer : ∃ path, (t.conn c).unacked = (s.conn c).unacked ++ [{ pkt := { p with path }, dst := m.src, sends := 1, path }]
  cum    : (t.conn c).rxCum = (s.conn c).rxCum + 1
  slot   : ∀ k, m.slot = some k → (t.slot k).inFlight = (s.slot k).inFlight - 1

theorem effectDone_post_answered (h : MayLeave c m s) (hs : MaySend c s) (p : Packet) :
    Answered c m p s (effectDone c m (post c [(m.src, p)] s)) := by
  have hpost := post_posted hs m.src p
  have hleft := effectDone_left (h.congr hpost.sameStand)
  refine ⟨hpost.frame.trans hleft.frame, ?_, by rw [hleft.cum_eq, hpost.sameStand.cum], fun k hk => ?_⟩
  · obtain ⟨x, hx⟩ := hleft.conn
    obtain ⟨y, path, hy⟩ := hpost.conn
    exact ⟨path, by rw [hx, hy]; rfl⟩
  · rw [hleft.slot k hk, State.slot, hpost.slots, State.slot]

/-! ## The bytes of a message -/

theorem refWrite_of_region {id off : Nat} {g : Region} (hr : s.region id = some g) (bs : List Byte) :
    refWrite (.hbm id off) 0 bs s = regionWrite g off bs s := by
  simp only [refWrite, hr, Nat.add_zero]

theorem writeMsg_eq {id off : Nat} {g : Region} {bs : List Byte} (hr : s.region id = some g) (hg : m.got = [(0, bs)])
    (hp : m.poison = false) : writeMsg (.hbm id off) m s = regionWrite g off bs s := by
  simp [writeMsg, hg, hp, refWrite_of_region hr]

theorem leBytes_succ (n x : Nat) : leBytes (n + 1) x = BitVec.ofNat 8 x :: leBytes n (x / 256) := by
  rw [leBytes, List.range_succ_eq_map, List.map_cons, List.map_map, leBytes]
  refine congrArg₂ _ rfl (List.map_congr_left fun i _ => ?_)
  rw [Function.comp_apply, Nat.mul_succ, Nat.add_comm, Nat.shiftRight_add, Nat.shiftRight_eq_div_pow x 8]

/-- The bytes of the number that bytes spell are those bytes. -/
theorem leBytes_ofBytes (bs : List Byte) : leBytes bs.length (ofBytes bs) = bs := by
  induction bs with
  | nil => rfl
  | cons b rest ih =>
    have hlow : BitVec.ofNat 8 (b.toNat + 256 * ofBytes rest) = b := by
      apply BitVec.eq_of_toNat_eq
      have := b.isLt
      simp only [BitVec.toNat_ofNat]
      omega
    have hhigh : (b.toNat + 256 * ofBytes rest) / 256 = ofBytes rest := by
      have := b.isLt
      omega
    rw [List.length_cons, ofBytes, leBytes_succ, hlow, hhigh, ih]

/-- Bytes written where they stand change nothing. -/
theorem memGet_regionPut_self (r : Region) (o : Nat) (bs : List Byte) (x : List Host.Cell)
    (h : ∀ i b, bs[i]? = some b → b = memGet x (regionAddr r (o + i))) (a : Nat) : memGet (regionPut r o bs x) a = memGet x a := by
  induction bs generalizing o x with
  | nil => rfl
  | cons b rest ih =>
    have hput (a : Nat) : memGet (memPut x (regionAddr r o) b) a = memGet x a := by
      by_cases ha : a = regionAddr r o
      · rw [ha, memGet_memPut_same, h 0 b rfl, Nat.add_zero]
      · exact memGet_memPut_other _ _ _ _ ha
    rw [regionPut, ih _ _ fun i b hb => ?_, hput]
    rw [hput, h (i + 1) b hb, show o + (i + 1) = o + 1 + i by omega]

theorem hbmByte_regionWrite_self (g : Region) (off n : Nat) (s : State) (a : Nat) :
    hbmByte (regionWrite g off (regionRead s g off n) s) a = hbmByte s a := by
  refine memGet_regionPut_self g off _ _ (fun i b hb => ?_) a
  simp only [regionRead, List.getElem?_map, Option.map_eq_some_iff] at hb
  obtain ⟨j, hj, rfl⟩ := hb
  obtain ⟨hlt, rfl⟩ := List.getElem?_eq_some_iff.1 hj
  simp

theorem cuts_of_one {len piece : Nat} (h : 1 ≤ len) (hp : len ≤ piece) : cuts len piece = [(0, len)] := by
  have hone : ceilDiv len piece = 1 := by
    rw [ceilDiv, if_neg (by omega), Nat.div_eq_iff (by omega)]
    omega
  simp [cuts, hone, hp]

/-! ## Requests that end -/

/-- A connection that has a request no more. -/
def Conn.forgets (i : Nat) (x : Conn) : Conn := { x with queue := x.queue.filter (· != i), recvs := x.recvs.filter (· != i) }

theorem finishReq_eq {w : Work} (h : (railOf w).reset = none) (st : Status) (n : Nat) (s : State) (fr : BitVec 16) :
    finishReq c w st n s fr = complete w st n (s.modConn c (Conn.forgets w.wid)) fr := by
  rw [finishReq, h, if_neg (by simp)]
  rfl

theorem reset_of_posted {w : Work} (h : w.prog = .posted) : (railOf w).reset = none := by rw [railOf, h]

/-! ## Notifications -/

theorem notifyCtr_rc (c : Nat) (m : RxMsg) (s : State) :
    (notifyCtr c m s).rc = { s.rc with trigs := (notifyCtr c m s).rc.trigs, trigDrop := (notifyCtr c m s).rc.trigDrop } := by
  unfold notifyCtr
  split
  · rfl
  · dsimp only
    split <;> rfl

theorem notifyCtr_onlyChanges (c : Nat) (m : RxMsg) (s : State) : OnlyChanges [.rc] s (notifyCtr c m s) := by
  unfold notifyCtr
  split
  · exact .refl _ s
  · dsimp only
    split <;> exact onlyChanges_set_rc _ _

theorem notifyCtr_sameStand : SameStand c s (notifyCtr c m s) := by
  have hconn : (notifyCtr c m s).conn c = s.conn c := by rw [State.conn, notifyCtr_rc, State.conn]
  have hslots : (notifyCtr c m s).rc.slots = s.rc.slots := by rw [notifyCtr_rc]
  exact ⟨by rw [hconn], by rw [hconn], by rw [hconn], by rw [hconn], hslots⟩

theorem notifyCtr_of_none (h : m.notify = none) : notifyCtr c m s = s := by simp only [notifyCtr, h]

/-- A counter bound for the connection's tenant goes up by one, and no other changes (R566). -/
theorem notifyCtr_counts (h : m.notify = some n) (hb : (s.trig n).bound = true) (ht : (s.trig n).tenant = (s.conn c).tenant) :
    ((notifyCtr c m s).trig n).value = satBv (s.trig n).value 1 ∧ ∀ j, j ≠ n → (notifyCtr c m s).trig j = s.trig j := by
  simp only [notifyCtr, h, if_pos (And.intro hb ht)]
  refine ⟨?_, fun j hj => ?_⟩
  · simp only [State.trig, tget_tput_same]
  · exact tget_tput_other _ _ _ _ _ hj

end

end Sys2Proof.Machine

/-! # The obligation on requests at the node they reach -/

namespace Sys2Proof.Machine

section
variable {s : State} {c k id off : Nat} {m : RxMsg} {w : Work} {ws : List Work} {g : Region} {bs : List Byte}

/-! ## SEND -/

theorem completes_sendEffect {P : State → Prop} (ha : s.awake = true) (hn : nextRx c (· == 1) s = some m)
    (hr : (s.conn c).recvs.filterMap s.item = w :: ws)
    (hP : P (s.kept (if m.mlen > reqLen w then refuseRx c m .malformed (finishReq c w .malformed 0x0B s)
      else finishReq c w .ok m.mlen (effectDone c m (notifyCtr c m (writeMsg (localRef w) m s)))))) : Completes (.sendEffect c) s P := by
  have hexec : exec (.sendEffect c) s = execSendEffect c s := rfl
  rw [execSendEffect] at hexec
  refine completes_of_awake hexec ha ?_
  simp only [hn, hr]
  exact hP

/-- A SEND that fits fills the oldest posted RECV, which completes with its length (R555). -/
theorem sendEffect_fills (ha : s.awake = true) (hn : nextRx c (· == 1) s = some m) (hr : (s.conn c).recvs.filterMap s.item = w :: ws)
    (hw : w.prog = .posted) (hl : localRef w = .hbm id off) (hg : s.region id = some g) (hfit : m.mlen ≤ reqLen w) (hb : m.got = [(0, bs)])
    (hp : m.poison = false) (hno : m.notify = none) (hm : MayLeave c m s) : Completes (.sendEffect c) s (fun t => Ends w .ok m.mlen t (fun u =>
      u.mem.hbm = regionPut g off bs s.mem.hbm ∧ (∀ a, (∀ i < bs.length, a ≠ regionAddr g (off + i)) → hbmByte u a = hbmByte s a) ∧
      (u.conn c).rxCum = (s.conn c).rxCum + 1 ∧ (u.conn c).recvs = (s.conn c).recvs.filter (· != w.wid) ∧
      OnlyChanges [.waybill, .mem, .rail, .rc, .ft] s u)) := by
  refine completes_sendEffect ha hn hr ?_
  rw [if_neg (Nat.not_lt.2 hfit), hl, writeMsg_eq hg hb hp, notifyCtr_of_none hno, finishReq_eq (reset_of_posted hw)]
  have hput : (regionWrite g off bs s).mem.hbm = regionPut g off bs s.mem.hbm := rfl
  have hrc : (regionWrite g off bs s).rc = s.rc := rfl
  have hwrite := regionWrite_onlyChanges g off bs s
  generalize regionWrite g off bs s = v at hput hrc hwrite
  have hleft : Left c m v (effectDone c m v) := effectDone_left (hm.congr (.of_rc hrc))
  generalize effectDone c m v = x at hleft
  have hconn : v.conn c = s.conn c := by rw [State.conn, hrc, State.conn]
  have hforget := modConn_onlyChanges x c (Conn.forgets w.wid)
  have hframe : OnlyChanges [.waybill, .mem, .rail, .rc, .ft] s (x.modConn c (Conn.forgets w.wid)) :=
    ((hwrite.mono (by simp)).trans (hleft.frame.mono (by simp))).trans (hforget.mono (by simp))
  have hmem : (x.modConn c (Conn.forgets w.wid)).mem.hbm = regionPut g off bs s.mem.hbm := by
    rw [hforget.mem_eq (by simp), hleft.frame.mem_eq (by simp), hput]
  refine ends_of_complete hframe (by simp) (by simp) ⟨hmem, fun a h => ?_, ?_, ?_, hframe⟩
  · rw [hbmByte, hmem]
    exact memGet_regionPut_other _ _ _ _ _ h
  · rw [State.conn_modConn_same, ← hconn]
    exact hleft.cum_eq
  · rw [State.conn_modConn_same, ← hconn]
    exact congrArg (List.filter (· != w.wid)) hleft.recvs_eq

/-- A SEND that is too long is refused, and the RECV with it (R555). -/
theorem sendEffect_tooLong (ha : s.awake = true) (hn : nextRx c (· == 1) s = some m) (hr : (s.conn c).recvs.filterMap s.item = w :: ws)
    (hw : w.prog = .posted) (hlong : reqLen w < m.mlen) (hm : MayLeave c m s) :
    Completes (.sendEffect c) s (fun t => Gone w t ∧ t.mem = s.mem ∧
      ∃ u, OnlyChanges [.rc] s u ∧ t = s.kept (refuseRx c m .malformed (complete w .malformed 0x0B u))) := by
  refine completes_sendEffect ha hn hr ?_
  rw [if_pos hlong, finishReq_eq (reset_of_posted hw)]
  have hforget := modConn_onlyChanges s c (Conn.forgets w.wid)
  have hstand : SameStand c s (s.modConn c (Conn.forgets w.wid)) := by
    have hconn := State.conn_modConn_same s c (Conn.forgets w.wid)
    exact ⟨(congrArg Conn.rx hconn :), (congrArg Conn.rxCum hconn :), (congrArg Conn.st hconn :), (congrArg Conn.service hconn :), rfl⟩
  generalize s.modConn c (Conn.forgets w.wid) = v at hforget hstand
  have hdone := complete_onlyChanges w .malformed 0x0B v 0
  have hgone := complete_item w .malformed 0x0B v 0
  have hm' : MayLeave c m (complete w .malformed 0x0B v) := (hm.congr hstand).congr (.of_rc (hdone.rc_eq (by simp)))
  obtain ⟨hframe, -, -⟩ := refuseRx_spec hm' .malformed
  have hleaves : (refuseRx c m .malformed (complete w .malformed 0x0B v)).item w.wid = none :=
    (item_of_work_eq (hframe.work_eq (by simp)) w.wid).trans hgone
  have hmem : (refuseRx c m .malformed (complete w .malformed 0x0B v)).mem = s.mem :=
    (hframe.mem_eq (by simp)).trans ((hdone.mem_eq (by simp)).trans (hforget.mem_eq (by simp)))
  generalize ht : refuseRx c m .malformed (complete w .malformed 0x0B v) = t at hleaves hmem
  exact ⟨hleaves, hmem, v, hforget, by rw [ht]⟩

/-- A SEND without a posted RECV waits, and so does a RECV without a SEND (R555). -/
theorem sendEffect_waits (h : nextRx c (· == 1) s = none ∨ (s.conn c).recvs = []) :
    Completes (.sendEffect c) s (OnlyChanges [] s) := by
  refine ⟨_, rfl, ?_⟩
  split
  · refine OnlyChanges.kept ?_
    dsimp only
    split
    next hn hr =>
      rcases h with h | h
      · rw [h] at hn
        cases hn
      · rw [h] at hr
        cases hr
    next => exact .refl _ s
  · exact .refl _ s

/-! ## WRITE -/

theorem completes_writeEffect {P : State → Prop} (ha : s.awake = true) (hn : nextRx c (· == 2) s = some m) (hf : m.refused = none)
    (hc : m.ctl = none) (hP : P (s.kept (effectDone c m (notifyCtr c m (writeMsg (slotRef s m) m s))))) :
    Completes (.writeEffect c) s P := by
  have hexec : exec (.writeEffect c) s = execWriteEffect c s := rfl
  rw [execWriteEffect] at hexec
  refine completes_of_awake hexec ha ?_
  have hblock : blockOfMsg m = none := by rw [blockOfMsg, hc, Option.bind_none]
  simp only [hn, hf, hblock]
  exact hP

/-- A complete WRITE stores its bytes in its range and counts its notification (R554, R566). -/
theorem writeEffect_stores (ha : s.awake = true) (hn : nextRx c (· == 2) s = some m) (hf : m.refused = none) (hc : m.ctl = none)
    (hl : slotRef s m = .hbm id off) (hg : s.region id = some g) (hb : m.got = [(0, bs)]) (hp : m.poison = false) (hk : m.slot = some k)
    (hm : MayLeave c m s) : Completes (.writeEffect c) s (fun t =>
      t.mem.hbm = regionPut g off bs s.mem.hbm ∧ (∀ a, (∀ i < bs.length, a ≠ regionAddr g (off + i)) → hbmByte t a = hbmByte s a) ∧
      (t.conn c).rxCum = (s.conn c).rxCum + 1 ∧ (t.slot k).inFlight = (s.slot k).inFlight - 1 ∧
      (m.notify = none → t.rc.trigs = s.rc.trigs) ∧
      (∀ n, m.notify = some n → (s.trig n).bound = true → (s.trig n).tenant = (s.conn c).tenant →
        (t.trig n).value = satBv (s.trig n).value 1 ∧ ∀ j, j ≠ n → t.trig j = s.trig j) ∧
      OnlyChanges [.waybill, .mem, .rail, .rc, .ft] s t) := by
  refine completes_writeEffect ha hn hf hc ?_
  rw [hl, writeMsg_eq hg hb hp]
  have hput : (regionWrite g off bs s).mem.hbm = regionPut g off bs s.mem.hbm := rfl
  have hrc : (regionWrite g off bs s).rc = s.rc := rfl
  have hwrite := regionWrite_onlyChanges g off bs s
  generalize regionWrite g off bs s = v at hput hrc hwrite
  have hcount := notifyCtr_onlyChanges c m v
  have hstand : SameStand c v (notifyCtr c m v) := notifyCtr_sameStand
  have hleft := effectDone_left ((hm.congr (.of_rc hrc)).congr hstand)
  have hconn : v.conn c = s.conn c := by rw [State.conn, hrc, State.conn]
  have htrig (j : Nat) : v.trig j = s.trig j := by rw [State.trig, hrc, State.trig]
  have hmem : (effectDone c m (notifyCtr c m v)).mem.hbm = regionPut g off bs s.mem.hbm := by
    rw [hleft.frame.mem_eq (by simp), hcount.mem_eq (by simp), hput]
  have hlast (j : Nat) : (effectDone c m (notifyCtr c m v)).trig j = (notifyCtr c m v).trig j := by rw [State.trig, hleft.trigs, State.trig]
  generalize effectDone c m (notifyCtr c m v) = t at hleft hmem hlast
  refine ⟨hmem, fun a h => ?_, ?_, ?_, fun h => ?_, fun n h hbound htenant => ?_, ?_⟩
  · rw [hbmByte, State.kept_mem, hmem]
    exact memGet_regionPut_other _ _ _ _ _ h
  · rw [State.kept_conn, hleft.cum_eq, hstand.cum, hconn]
  · rw [State.kept_slot, hleft.slot k hk, State.slot, hstand.slots, hrc, State.slot]
  · have hnone : (notifyCtr c m v).rc.trigs = s.rc.trigs := by rw [notifyCtr_of_none h, hrc]
    exact hleft.trigs.trans hnone
  · obtain ⟨hvalue, hothers⟩ := notifyCtr_counts h (by rw [htrig, hbound]) (by rw [htrig, htenant, hconn])
    refine ⟨(congrArg Trig.value (hlast n)).trans (hvalue.trans (by rw [htrig])), fun j hj => ?_⟩
    exact (hlast j).trans ((hothers j hj).trans (htrig j))
  · exact (((hwrite.mono (by simp)).trans (hcount.mono (by simp))).trans (hleft.frame.mono (by simp))).kept

/-- A refused WRITE changes no byte (R556, R560). -/
theorem writeEffect_refused {st : Status} (ha : s.awake = true) (hn : nextRx c (· == 2) s = some m) (hf : m.refused = some st)
    (hm : MayLeave c m s) : Completes (.writeEffect c) s (fun t =>
      (t.conn c).rxCum = (s.conn c).rxCum + 1 ∧ t.rc.txPkts = s.rc.txPkts + 2 ∧ OnlyChanges [.rail, .rc, .ft] s t) := by
  have hexec : exec (.writeEffect c) s = execWriteEffect c s := rfl
  rw [execWriteEffect] at hexec
  refine completes_of_awake hexec ha ?_
  simp only [hn, hf]
  obtain ⟨hframe, hcum, hcount⟩ := refuseRx_spec hm st
  generalize refuseRx c m st s = t at hframe hcum hcount
  exact ⟨hcum, hcount, hframe.kept⟩

/-! ## READ_REQ -/

/-- The answer to a READ_REQ of one packet: the bytes there now (R554). -/
def readAnswer (c : Nat) (m : RxMsg) (s : State) : Packet :=
  { op := 4, dstConn := m.srcConn, srcConn := c, srcInc := s.rail.inc, dstInc := m.srcInc, mseq := m.mseq, mlen := BitVec.ofNat 32 m.mlen,
    cls := m.cls, offset := 0, last := true, poison := refPoisoned s (slotRef s m) 0 m.mlen, data := refRead s (slotRef s m) 0 m.mlen }

theorem readReqEffect_answers (ha : s.awake = true) (hn : nextRx c (· == 3) s = some m) (hf : m.refused = none) (hc : m.ctl = none)
    (hk : m.slot = some k) (h1 : 1 ≤ m.mlen) (hfit : m.mlen ≤ maxData c (s.conn c)) (hm : MayLeave c m s) (hs : MaySend c s) :
    Completes (.readReqEffect c) s (fun t =>
      (∃ x, (t.conn c).unacked = (s.conn c).unacked ++ [x] ∧ x.pkt.op = 4 ∧ x.pkt.mseq = m.mseq ∧ x.dst = m.src ∧
        x.pkt.data = refRead s (slotRef s m) 0 m.mlen ∧ x.pkt.poison = refPoisoned s (slotRef s m) 0 m.mlen) ∧
      (t.conn c).rxCum = (s.conn c).rxCum + 1 ∧ (t.slot k).inFlight = (s.slot k).inFlight - 1 ∧ OnlyChanges [.rail, .rc, .ft] s t) := by
  have hexec : exec (.readReqEffect c) s = execReadReqEffect c s := rfl
  rw [execReadReqEffect] at hexec
  refine completes_of_awake hexec ha ?_
  have hctl : m.ctl.isSome = false := by rw [hc]; rfl
  simp only [hn, hf, hctl, Bool.false_eq_true, if_false, cuts_of_one h1 hfit, List.map_cons, List.map_nil, Nat.zero_add, decide_true]
  have hans := effectDone_post_answered hm hs (readAnswer c m s)
  unfold readAnswer at hans
  generalize effectDone c m _ = t at hans ⊢
  obtain ⟨path, hpath⟩ := hans.answer
  exact ⟨⟨_, hpath, rfl, rfl, rfl, rfl, rfl⟩, hans.cum, hans.slot k hk, hans.frame.kept⟩

/-! ## Atomics -/

/-- The answer to an atomic: the old value, or poison (R554, R556, R562). -/
def atomicAnswer (c : Nat) (m : RxMsg) (s : State) : Packet :=
  { op := 7, last := true, poison := refPoisoned s (slotRef s m) 0 8, dstConn := m.srcConn, srcConn := c, srcInc := s.rail.inc, dstInc := m.srcInc,
    mseq := m.mseq, operand := if refPoisoned s (slotRef s m) 0 8 then BitVec.allOnes 64 else BitVec.ofNat 64 (refNum s (slotRef s m) 0 8) }

/-- What an atomic makes of the word it names (R556, R562). -/
def atomicWritten (new : RxMsg → Nat → Nat) (m : RxMsg) (s : State) : State :=
  if refPoisoned s (slotRef s m) 0 8 then s else refWrite (slotRef s m) 0 (leBytes 8 (new m (refNum s (slotRef s m) 0 8))) s

theorem atomicEffect_eq {op : BitVec 4} {new : RxMsg → Nat → Nat} (hn : nextRx c (· == op) s = some m) (hf : m.refused = none) :
    atomicEffect op new c s = effectDone c m (post c [(m.src, atomicAnswer c m s)] (atomicWritten new m s)) := by
  simp only [atomicEffect, hn, hf]
  rfl

theorem atomicWritten_of_hbm {new : RxMsg → Nat → Nat} (hp : refPoisoned s (slotRef s m) 0 8 = false) (hl : slotRef s m = .hbm id off)
    (hg : s.region id = some g) : atomicWritten new m s = regionWrite g off (leBytes 8 (new m (refNum s (slotRef s m) 0 8))) s := by
  rw [atomicWritten, hp, if_neg (by simp), hl]
  exact refWrite_of_region hg _

/-- An atomic on a word that is not poisoned updates it and answers its old value (R556). -/
theorem atomic_spec {op : BitVec 4} {new : RxMsg → Nat → Nat} (hn : nextRx c (· == op) s = some m) (hf : m.refused = none)
    (hp : refPoisoned s (slotRef s m) 0 8 = false) (hl : slotRef s m = .hbm id off) (hg : s.region id = some g) (hm : MayLeave c m s)
    (hs : MaySend c s) :
    (atomicEffect op new c s).mem = (regionWrite g off (leBytes 8 (new m (refNum s (slotRef s m) 0 8))) s).mem ∧
    (∃ x, ((atomicEffect op new c s).conn c).unacked = (s.conn c).unacked ++ [x] ∧ x.pkt.op = 7 ∧ x.pkt.mseq = m.mseq ∧
      x.pkt.operand = BitVec.ofNat 64 (refNum s (slotRef s m) 0 8) ∧ x.pkt.poison = false) ∧
    ((atomicEffect op new c s).conn c).rxCum = (s.conn c).rxCum + 1 ∧
    OnlyChanges [.waybill, .mem, .rail, .rc, .ft] s (atomicEffect op new c s) := by
  rw [atomicEffect_eq hn hf, atomicWritten_of_hbm hp hl hg]
  have hrc : (regionWrite g off (leBytes 8 (new m (refNum s (slotRef s m) 0 8))) s).rc = s.rc := rfl
  have hwrite := regionWrite_onlyChanges g off (leBytes 8 (new m (refNum s (slotRef s m) 0 8))) s
  generalize regionWrite g off (leBytes 8 (new m (refNum s (slotRef s m) 0 8))) s = v at hrc hwrite
  have hconn : v.conn c = s.conn c := by rw [State.conn, hrc, State.conn]
  have hs' : MaySend c v := by
    unfold MaySend
    rw [hconn]
    exact hs
  have hans := effectDone_post_answered (hm.congr (.of_rc hrc)) hs' (atomicAnswer c m s)
  obtain ⟨path, hpath⟩ := hans.answer
  refine ⟨hans.frame.mem_eq (by simp), ⟨_, hpath.trans (by rw [hconn]), rfl, rfl, ?_, ?_⟩, ?_, ?_⟩
  · simp only [atomicAnswer, hp, Bool.false_eq_true, if_false]
  · simp only [atomicAnswer, hp]
  · rw [hans.cum, hconn]
  · exact (hwrite.mono (by simp)).trans (hans.frame.mono (by simp))

/-- A poisoned word is answered with poison and left (R562). -/
theorem atomic_poisoned {op : BitVec 4} {new : RxMsg → Nat → Nat} (hn : nextRx c (· == op) s = some m) (hf : m.refused = none)
    (hp : refPoisoned s (slotRef s m) 0 8 = true) (hm : MayLeave c m s) (hs : MaySend c s) :
    (atomicEffect op new c s).mem = s.mem ∧
    (∃ x, ((atomicEffect op new c s).conn c).unacked = (s.conn c).unacked ++ [x] ∧ x.pkt.op = 7 ∧ x.pkt.poison = true) ∧
    OnlyChanges [.rail, .rc, .ft] s (atomicEffect op new c s) := by
  have hans := effectDone_post_answered hm hs (atomicAnswer c m s)
  rw [atomicEffect_eq hn hf, atomicWritten, if_pos hp]
  obtain ⟨path, hpath⟩ := hans.answer
  exact ⟨hans.frame.mem_eq (by simp), ⟨_, hpath, rfl, hp⟩, hans.frame⟩

/-- The word that a CSWAP stores again where it does not equal the compare value is the one that stands there. -/
theorem hbmByte_atomic_same (hl : slotRef s m = .hbm id off) (hg : s.region id = some g) (a : Nat) :
    hbmByte (regionWrite g off (leBytes 8 (refNum s (slotRef s m) 0 8)) s) a = hbmByte s a := by
  have hread : refRead s (slotRef s m) 0 8 = regionRead s g off 8 := by
    rw [hl]
    simp only [refRead, hg, Nat.add_zero]
  have hlen : (regionRead s g off 8).length = 8 := by simp [regionRead]
  have hbytes := leBytes_ofBytes (regionRead s g off 8)
  rw [hlen] at hbytes
  rw [refNum, hread, hbytes]
  exact hbmByte_regionWrite_self ..

/-- The sum a FADD stores (R556). -/
def added (m : RxMsg) (old : Nat) : Nat := (old + m.operand.toNat) % 2 ^ 64

/-- The value a CSWAP stores: its swap value where the word equals the compare value (R556). -/
def swapped (m : RxMsg) (old : Nat) : Nat := if old = m.operand.toNat then ofBytes ((m.got.head?.map Prod.snd).getD []) else old

theorem exec_faddEffect (c : Nat) (s : State) : exec (.faddEffect c) s = actIf s s.awake (atomicEffect 5 added c) := rfl

theorem exec_cswapEffect (c : Nat) (s : State) : exec (.cswapEffect c) s = actIf s s.awake (atomicEffect 6 swapped c) := rfl

theorem swapped_of_eq {old : Nat} {v : List Byte} (hv : m.got = [(0, v)]) (h : old = m.operand.toNat) : swapped m old = ofBytes v := by
  rw [swapped, if_pos h, hv]
  rfl

theorem swapped_of_ne {old : Nat} (h : old ≠ m.operand.toNat) : swapped m old = old := if_neg h

/-! ## A read that times out -/

theorem poisonRest_onlyChanges (w : Work) (s : State) : OnlyChanges [.groves, .mem, .waybill] s (poisonRest w s) := by
  unfold poisonRest
  split
  · exact .refl _ s
  · exact onlyChanges_foldl (fun _ _ => (refWrite_onlyChanges _ _ _ _).trans ((refPoison_onlyChanges _ _ _ _).mono (by simp))) _ _

theorem tryClose_of_opened (h : (s.conn c).st = .opened) : tryClose c s = s := by
  rw [tryClose, if_pos (.inl (by simp [h]))]

/-- The error of a read that exceeds RL_TIMEOUT (R563). -/
def timeoutErr (w : Work) (s : State) : Err :=
  { cls := 2, source := 0x06, domain := 20 + connStation (connOf w), cause := 0x33, detail0 := (s.conn (connOf w)).peerNode + 65536 * connOf w,
    detail1 := connStation (connOf w), ctx := some w.context, tenant := w.tenant, part := w.part, who := w.fn, waits := [.work w.wid] }

theorem rlTimeoutExpire_spec {r : RailOp} (hlive : s.live = true) (hi : s.item w.wid = some w) (hop : w.opcode = 0x46 ∨ w.opcode = 0x47)
    (hp : w.prog = .rail r) (hissued : r.issued = true) (hreset : r.reset = none) (ho : (s.conn (connOf w)).st = .opened) :
    Completes (.rlTimeoutExpire w.wid) s (fun t => Ends w .remoteTimeout (((railOf w).got.map Prod.snd).sum) t (fun u =>
      u.rc.timeouts = s.rc.timeouts + 1 ∧ (u.conn (connOf w)).queue = (s.conn (connOf w)).queue.filter (· != w.wid) ∧
      (u.conn (connOf w)).st = .opened ∧ u.ft.fault = true)) := by
  have hexec : exec (.rlTimeoutExpire w.wid) s = execRlTimeoutExpire w.wid s := rfl
  rw [execRlTimeoutExpire] at hexec
  refine completes_of_act hexec hlive ?_
  have hrail : railOf w = r := by rw [railOf, hp]
  have hreads : reads w = true := by
    rcases hop with h | h <;> simp [reads, h]
  have hreset' : (railOf w).reset = none := hrail ▸ hreset
  have hissued' : (railOf w).issued = true := hrail ▸ hissued
  simp only [hi, hreads, hissued', and_self, if_true]
  have hcount : OnlyChanges [.rc] s { s with rc := { s.rc with timeouts := s.rc.timeouts + 1 } } := onlyChanges_set_rc s _
  have hconn : ({ s with rc := { s.rc with timeouts := s.rc.timeouts + 1 } } : State).conn (connOf w) = s.conn (connOf w) := rfl
  have hnumber : ({ s with rc := { s.rc with timeouts := s.rc.timeouts + 1 } } : State).rc.timeouts = s.rc.timeouts + 1 := rfl
  generalize ({ s with rc := { s.rc with timeouts := s.rc.timeouts + 1 } } : State) = v at hcount hconn hnumber ⊢
  obtain ⟨hfault, hraised⟩ := raiseErr'_contained (s := v) (e := timeoutErr w s) (by simp [timeoutErr]) (by simp [timeoutErr])
  rw [raiseErr'] at hfault hraised
  change Ends w .remoteTimeout _ (s.kept (tryClose (connOf w) (finishReq (connOf w) w .remoteTimeout _
    (poisonRest w (raiseErr (timeoutErr w s) v).1) (raiseErr (timeoutErr w s) v).2))) _
  generalize raiseErr (timeoutErr w s) v = x at hfault hraised ⊢
  have hpoison := poisonRest_onlyChanges w x.1
  generalize poisonRest w x.1 = y at hpoison ⊢
  have hrc : y.rc = v.rc := (hpoison.rc_eq (by simp)).trans (hraised.rc_eq (by simp))
  have hft : y.ft = x.1.ft := hpoison.ft_eq (by simp)
  have hforget := modConn_onlyChanges y (connOf w) (Conn.forgets w.wid)
  have hown : (y.modConn (connOf w) (Conn.forgets w.wid)).conn (connOf w) = Conn.forgets w.wid (s.conn (connOf w)) := by
    rw [State.conn_modConn_same, State.conn, hrc, ← State.conn, hconn]
  have htimeouts : (y.modConn (connOf w) (Conn.forgets w.wid)).rc.timeouts = s.rc.timeouts + 1 := (congrArg RailConns.timeouts hrc).trans hnumber
  have hframe : OnlyChanges [.rc, .ft, .power, .host, .out, .groves, .mem, .waybill] s (y.modConn (connOf w) (Conn.forgets w.wid)) :=
    (((hcount.mono (by simp)).trans (hraised.mono (by simp))).trans (hpoison.mono (by simp))).trans (hforget.mono (by simp))
  rw [finishReq_eq hreset']
  generalize y.modConn (connOf w) (Conn.forgets w.wid) = z at hforget hown htimeouts hframe ⊢
  have hst : (z.conn (connOf w)).st = .opened := by rw [hown]; exact ho
  have hst' : ((complete w .remoteTimeout (((railOf w).got.map Prod.snd).sum) z x.2).conn (connOf w)).st = .opened := by
    rw [State.conn, (complete_onlyChanges w .remoteTimeout _ z x.2).rc_eq (by simp)]
    exact hst
  rw [tryClose_of_opened hst']
  exact ends_of_complete_with hframe (by simp) (by simp) ⟨htimeouts, by rw [hown]; rfl, hst, by rw [hforget.ft_eq (by simp), hft, hfault]⟩

end

/-! ## The statement -/

/-- Settles O47: a message that takes effect leaves its connection, and the other parts of the state are those its bytes, its notification,
its answer or its request name. -/
theorem railEffects : Obligations.RailEffects := by
  unfold Obligations.RailEffects
  refine ⟨?fills, ?tooLong, ?waits, ?stores, ?refused, ?answers, ?atomics, ?poisoned, ?timesOut⟩
  case fills =>
    intro s c id off m w ws g bs ha hc hn hr hw hl hg hfit hb hp hk hno ho hd
    exact sendEffect_fills ha hn hr hw hl hg hfit hb hp hno (mayLeave_of_noSlot hc ho hd hk)
  case tooLong =>
    intro s c m w ws ha hc hn hr hw hlong hk ho hd
    exact sendEffect_tooLong ha hn hr hw hlong (mayLeave_of_noSlot hc ho hd hk)
  case waits =>
    intro s c h
    exact sendEffect_waits h
  case stores =>
    intro s c k id off m g bs ha hc hn hf hctl hl hg hb hp hk hst ho hd
    exact writeEffect_stores ha hn hf hctl hl hg hb hp hk (mayLeave_of_slot hc ho hd hk hst)
  case refused =>
    intro s c m st ha hc hn hf hk ho hd
    exact writeEffect_refused ha hn hf (mayLeave_of_noSlot hc ho hd hk)
  case answers =>
    intro s c k m ha hc hn hf hctl hk hst ho hd h1 hfit hq hs hu
    exact readReqEffect_answers ha hn hf hctl hk h1 hfit (mayLeave_of_slot hc ho hd hk hst) ⟨hc, hq, hs, hu⟩
  case atomics =>
    intro s c k id off m g ha hc hf hk hst ho hd hl hg hq hs hu hp
    have hm := mayLeave_of_slot hc ho hd hk hst
    have hsend : MaySend c s := ⟨hc, hq, hs, hu⟩
    refine ⟨fun hn => ?_, fun v hn hv => ?_⟩
    · obtain ⟨hmem, hans, hcum, hframe⟩ := atomic_spec (new := added) hn hf hp hl hg hm hsend
      exact completes_of_awake (exec_faddEffect c s) ha ⟨congrArg Mem.hbm hmem, hans, hcum, hframe.kept⟩
    · obtain ⟨hmem, ⟨x, hx, hop, hseq, hold, -⟩, hcum, hframe⟩ := atomic_spec (new := swapped) hn hf hp hl hg hm hsend
      refine completes_of_awake (exec_cswapEffect c s) ha ⟨fun heq => ?_, fun hne a => ?_, ⟨x, hx, hop, hseq, hold⟩, hcum, hframe.kept⟩
      · rw [swapped_of_eq hv heq] at hmem
        exact congrArg Mem.hbm hmem
      · rw [swapped_of_ne hne] at hmem
        exact (congrArg (fun y : Mem => memGet y.hbm a) hmem).trans (hbmByte_atomic_same hl hg a)
  case poisoned =>
    intro s c k m ha hc hn hf hk hst ho hd hq hs hu hp
    obtain ⟨hmem, hans, hframe⟩ := atomic_poisoned (new := added) hn hf hp (mayLeave_of_slot hc ho hd hk hst) ⟨hc, hq, hs, hu⟩
    exact completes_of_awake (exec_faddEffect c s) ha ⟨hmem, hans, hframe.kept⟩
  case timesOut =>
    rintro s w hlive hi hop ⟨r, hp, hissued, hreset⟩ ho
    exact rlTimeoutExpire_spec hlive hi hop hp hissued hreset ho

end Sys2Proof.Machine
